-- ==== Sys2Proof/Word.lean ====
section
/-! DEFINITION. The words of the machine: a byte, a 32-bit register word (R90) and a 64-bit runner slot (R130). -/

namespace Sys2Proof

/-- One byte. -/
abbrev Byte := BitVec 8

/-- One register word (R90). -/
abbrev Word := BitVec 32

/-- One runner slot (R130). -/
abbrev DWord := BitVec 64

end Sys2Proof
end

