-- ==== Sys2Proof/Syntax/Image.lean ====
section
/-! DEFINITION. Images: as they lie in flash (R431, R433), and as decoded: the header of R431, the pattern body of R120 to R128 with its sections, the CAL records, the bank record (R434), the manifest (R438) and the billet (R437). What needs the keys of the security area, and the layout of a section body, stand beside the bytes (assumption log 11). -/

namespace Sys2Proof

/-- The image header fields of R431, with the outcomes of the checks over bytes. -/
structure ImgHdr where
  magic : Word
  typ : Nat
  hfmt : Nat
  member : Nat
  clkRec : Nat
  hwRevs : BitVec 16
  ssf : Nat
  epoch : Nat
  emin : Nat
  emax : Nat
  calFmt : Nat
  calMin : Nat
  bodyLen : Nat
  bind : BitVec 64
  keyIx : Nat
  version : Word
  digest : BitVec 384
  hcrcOk : Bool
  sigOk : Bool
  digestOk : Bool
  pagesOk : Bool
deriving DecidableEq, Repr

/-- A bank header (R128), word by word, with HCRC as stored. -/
structure BankHdr where
  nslot : Nat
  domain : Fin 8
  divn : Nat
  valid : Bool
  start : Bool
  fallback : Bool
  offs : Nat
  rateMax : Nat
  rateMin : Nat
  stall : Nat
  preset : BitVec 12
  trigBlk : Fin 16
  trigVal : Fin 16
  trigOn : Bool
  lowThr : BitVec 20
  highThr : BitVec 20
  cost : Nat
  proof : Nat
  clkRec : Nat
  hcrc : Word
deriving DecidableEq, Repr

/-- One edge of a pulse-table row (R258). -/
structure PulseEdge where
  frac : Nat
  leg : Nat
  level : Bool
deriving DecidableEq, Repr

/-- One pulse-table row (R258): NEDGE as written, INIT, the edge words, and whether every unused bit is zero. -/
structure PulseRow where
  nedge : Nat
  init : BitVec 3
  edges : List PulseEdge
  unusedOk : Bool
deriving DecidableEq, Repr

/-- A BLOCK section (R121): pattern registers as (block offset, word), the formats of its value board row (R20), both banks with their slots, pulse rows, initial operand file, the two initial state words of each kernel cell, whether a leg's S0 level is HIGH (R273), and the size of its block image in bytes (R125). -/
structure BlockSec where
  regs : List (Nat × Word)
  fmt : Word
  hdrA : BankHdr
  hdrB : BankHdr
  slotsA : List DWord
  slotsB : List DWord
  pulse : List PulseRow
  of0 : List (Nat × BitVec 20)
  k0 : List (Nat × Int × Int)
  s0High : Bool
  imgLen : Nat
deriving DecidableEq, Repr

/-- The body of a section (R121): CHIP and REGION sections as (address or region offset, word). -/
inductive SecBody where
  | chip (regs : List (Nat × Word))
  | region (regs : List (Nat × Word))
  | block (b : BlockSec)
  | none
deriving DecidableEq, Repr

/-- A directory entry (R120) with the bytes of its section body and what they say. -/
structure DirEntry where
  typ : Nat
  index : Nat
  format : Nat
  offset : Nat
  length : Nat
  crc : Word
  bytes : List Byte
  body : SecBody
deriving DecidableEq, Repr

/-- A PAT image: header, image length, COUNT and the directory entries in order (R120). -/
structure PatImage where
  hdr : ImgHdr
  len : Nat
  count : Nat
  dir : List DirEntry
deriving DecidableEq, Repr

/-- An SFW image (R431): its header; the firmware body has no behaviour of its own in the model. -/
structure SfwImage where
  hdr : ImgHdr
deriving DecidableEq, Repr

/-- A record of a CAL body (R431): block, kernel cell, parameter, value; applied as a PLOAD (R232, R450). -/
structure CalRec where
  blk : Nat
  cell : Nat
  param : Nat
  val : Word
deriving DecidableEq, Repr

/-- A CAL image: its header and the records of its body. -/
structure CalImage where
  hdr : ImgHdr
  recs : List CalRec
deriving DecidableEq, Repr

/-- An image as it lies in flash (R431): its bytes; the verdicts of the keys in the security area, which no master can read (R30, R431), over its signature and its sealed pages; and the contents of the section bodies that its directory names, in its order (assumption log 11). -/
structure FlashImg where
  bytes : List Byte
  sigOk : Bool
  pagesOk : Bool
  secs : List SecBody
deriving DecidableEq, Repr

/-- A copy of the bank record as it lies in flash (R434): MAGIC, SEQ, the flags and CRC. -/
structure RecCopy where
  magic : Word
  seq : Word
  flags : Word
  crc : Word
deriving DecidableEq, Repr

/-- The bank record as a copy gives it (R434), ok telling that the copy is valid. -/
structure BankRec where
  active : Bool
  trial : Bool
  tries : Nat
  confirmed : Bool
  seq : Nat
  ok : Bool
deriving DecidableEq, Repr

/-- The manifest's entry for one image (R438): the type at its place, BASE and the header of the target image. -/
structure ManEntry where
  typ : Nat
  base : BitVec 384
  hdr : ImgHdr
deriving DecidableEq, Repr

/-- A billet (R437): header fields, whether its CRC holds, and for billet 0 the manifest and whether its head agrees with it (R438). -/
structure Billet where
  sid : Word
  index : Nat
  count : Nat
  len : Nat
  bszc : Nat
  crcOk : Bool
  zeroOk : Bool
  payload : List Byte
  manifest : Option (List ManEntry)
  manOk : Bool
deriving DecidableEq, Repr

end Sys2Proof
end

