-- ==== Sys2Proof/Syntax/Operands.lean ====
section
/-! DEFINITION. The operand types of the commands: masters, straps, supplies, frames and the messages of the twin link. -/

namespace Sys2Proof

/-- The masters of R108, numbered as CHIP.HOSTERR_INFO.MASTER numbers them. -/
inductive Master where
  | pf0 | pf1 | shp | st0 | st1
deriving DecidableEq, Repr

/-- The strap balls (R54). -/
structure Straps where
  cdSel : Bool
  shpPriv : Bool
  bootSrc : BitVec 2
  legacyEn : Bool
deriving DecidableEq, Repr

/-- The supplies (R49). -/
inductive Supply where
  | vdd | vddaPll | vddl | g (n : Fin 4) | s (n : Fin 4) | c | h
deriving DecidableEq, Repr

/-- The supplies whose fall is a power-on (R71). -/
inductive CoreSupply where
  | vdd | vddaPll | vddioC
deriving DecidableEq, Repr

/-- A bus frame as received (R277, R322): format code 0 CBFF, 1 CEFF, 2 FBFF, 3 FEFF, 4 XLFF; sec is the SEC bit of an XL frame. -/
structure Frame where
  fmt : Fin 5
  id : BitVec 29
  rtr : Bool
  brs : Bool
  esi : Bool
  dlc : BitVec 4
  data : List Byte
  sdt : Byte
  vcid : Byte
  af : Word
  sec : Bool
deriving DecidableEq, Repr

/-- The kind of a detected bus error, in the codes of BPERR.LEC (R295). -/
inductive BusErrKind where
  | stuff | form | ack | bit1 | bit0 | crc
deriving DecidableEq, Repr

/-- A detected error at a port (R295): its kind and phase, whether it came after the arbitration field (R298), whether an exception of the standard leaves the transmitter's counter as it is, how many further steps of 8 the dominant bits around the error flag give (assumption log 12), whether a receiver met it as a bit error while it sent an active error flag or an overload flag, and whether the loop delay was above 127 quanta (R288). -/
structure BusErr where
  kind : BusErrKind
  dataPhase : Bool
  afterArb : Bool
  exempt : Bool
  extra : Nat
  inFlag : Bool
  tdcFail : Bool
deriving DecidableEq, Repr

/-- A serial host port frame that ends early (R118). -/
inductive ShpCut where
  | writeBeforeCheck
  | writeAfterCheck (addr : Word) (words : List Word) (crc : Byte)
  | readWhileStalled (n : Fin 4) (q : Fin 64)
  | readAfterEntry (addr : Word) (crc : Byte)
  | readAfterStall (addr : Word)
deriving DecidableEq, Repr

/-- A runner memory error by how it is found (R127). -/
inductive RmErr where
  | corrected | fetch | hostRead
deriving DecidableEq, Repr

end Sys2Proof
end

