-- ==== Sys2Proof/Syntax/Cells.lean ====
section
/-! DEFINITION. A block and a packet as plain data: part of the state, and carried by the messages of the twin link (R402, R407, R417). -/

namespace Sys2Proof.Machine

/-- A table of values by number in canonical form: numbers strictly rising, no entry equal to what an unlisted number reads as. -/
abbrev Tab (α : Type) := List (Nat × α)

/-- A level at an output ball (R57). -/
inductive Lvl where
  | low | high | hiz
deriving DecidableEq, Repr

/-- An edge still to come in a leg's period (R253, R256): its step, which output, and whether it is a rise. -/
structure LegEdge where
  step : Nat
  hi : Bool
  rise : Bool
deriving DecidableEq, Repr

/-- A leg cell beside its registers (R250 to R261): levels at GHnn_l and GLnn_l, the edges still to come in the period, whether it has started PWM since RUN, whether an UPDATE has run since RUN, STOP waiting for its period start, TDA running (R266), the pulse-table request, the duty last loaded (U20), whether the next pulse-table edge is ignored (R260), the clk of the last UPDATE with the duty and upd before it (R251), the step of the next period at which GL's delayed rise falls (R253), and the step before which a stretched pulse does not end (R260). -/
structure Leg where
  gh : Lvl
  gl : Lvl
  edges : List LegEdge
  on : Bool
  upd : Bool
  stop : Bool
  tda : Bool
  req : Bool
  duty : Nat
  skip : Bool
  prior : Option (Nat × Nat × Bool)
  tail : Option Nat
  stretch : Option Nat
deriving DecidableEq, Repr

/-- A filter cell beside its registers (R186 to R190): consecutive results toward asserting and releasing each comparator, whether the main filter and the fast path wait for their restart, and the modulator edge from which they count. -/
structure Flt where
  upHi : Nat
  dnHi : Nat
  upLo : Nat
  dnLo : Nat
  mainWait : Bool
  fastWait : Bool
  fill : Bool
  fromEdge : Nat
deriving DecidableEq, Repr

/-- An encoder cell beside its registers (R196 to R203): the position in 2^-20 unit, the last accepted SSI word, consecutive discarded transfers, the last well-framed word while invalid, the idle level seen at the start of a transfer, a word waiting for its instant in a pair (R413), its changes of the last 16 clk with the position before each, newest first (R207), the clk of the last accepted edges of A, B and Z (R195), and that of the last condition of R197 or R198 (R199). -/
structure Enc where
  pos : Int
  last : Option Nat
  bad : Nat
  good : Option Nat
  idleOk : Bool
  wait : Option (BitVec 40 × Bool)
  past : List (Nat × Int)
  tA : Option Nat
  tB : Option Nat
  tZ : Option Nat
  cond : Option Nat
deriving DecidableEq, Repr

/-- A cell event input of R210: its assertions in the running interval, its level, whether it was ever inactive or ever active in it, consecutive active and chattering intervals, and whether its source stands asserted. -/
structure SenseIn where
  rises : Nat
  lvl : Bool
  sawLow : Bool
  sawHigh : Bool
  actRun : Nat
  chatRun : Nat
  sent : Bool
  muted : Bool
deriving DecidableEq, Repr

/-- A kernel cell beside its registers (R216 to R243): first and second state in A48 units, previous measurement, angle, wraps, lock counters, gear masters and extrapolations, and the segment in progress. -/
structure Kern where
  s1 : Int
  s2 : Int
  yPrev : Int
  th : Nat
  wraps : Nat
  good : Nat
  bad : Nat
  low : Nat
  mPrev : Int
  mLast : Int
  dm : Int
  x : Nat
  d2 : Int
  d3 : Int
  rem : Nat
  dwell : Bool
  lastSeg : Bool
  pend : Int
  pos : Int
  tag : Nat
  fresh : Bool
  out0 : Int
  out1 : Int
  out2 : Int
deriving DecidableEq, Repr

/-- The source of a swap request (R136), in the codes of RSTAT.LAST_SRC. -/
inductive SwapSrc where
  | host | trigger | fallback
deriving DecidableEq, Repr

/-- A block beside its registers: operand file (R130), live set-points (R235), its row of the value board before the publications of the latest clk in which it published (R24), cells, and the runner's progress (R127, R133, R137, R168, R172, R175), with the clk of the last accepted edge at PROBEnn (R195), the levels at TRIPAnn and TRIPBnn past their filters (R263), the clk in which the latch last set (R268), that of the last causes with those causes, and that of the last accepted clear with STATE, SAFESET and the legs before it (R270), the digest input of the running cycle the digest of the cycle before, not yet sent (R416), and the clk of the last cycle start (R409). -/
structure Blk where
  opf : Vector (BitVec 20) 64
  live : Vector (BitVec 20) 8
  rowOld : Option (Nat × Vector (BitVec 20) 16)
  kern : Vector Kern 12
  leg : Vector Leg 3
  flt : Vector Flt 4
  enc : Enc
  sense : Vector SenseIn 10
  prbLast : Option Nat
  prbEdge : Option Nat
  inCycle : Bool
  flushing : Bool
  ovs : Bool
  awaitBank : Bool
  rewrite : Bool
  rmSpan : Bool
  swWait : Bool
  swHost : Option Bool
  swTrig : Option Bool
  swFall : Option Bool
  late : Bool
  hostStart : Option Bool
  stalled : Option Bool
  disarm : Bool
  resetting : Bool
  repouring : Bool
  ptRow : Option Nat
  ptPend : Option Nat
  ptLeave : Bool
  ptNext : Nat
  ballA : Bool
  ballB : Bool
  qSet : Option Nat
  qClk : Option (Nat × Nat)
  qClr : Option (Nat × Nat × Bool × Vector Leg 3)
  snap : Tab (BitVec 20)
  perLen : Nat
  digIn : List Nat
  digPend : Option (Nat × Word)
  cycT : Option Nat
deriving DecidableEq, Repr

/-- A packet of a queue (R308): priority, bytes, its cells in order, its data words after the length slot. -/
structure Pkt where
  pri : Nat
  len : Nat
  cells : List Nat
  words : List Word
deriving DecidableEq, Repr

end Sys2Proof.Machine
end

