-- ==== Sys2Proof/Syntax/Link.lean ====
section
/-! DEFINITION. The messages of the twin link (R402) with their contents, and the remaining operand types of the commands. -/

namespace Sys2Proof.Machine

/-- A mirrored write (R409): target address, word, and its instant: a block's cycle start when it belongs to a block, else the first heartbeat instant; not before clk t. -/
structure MirWr where
  addr : Nat
  word : Word
  blk : Option (Fin 16)
  t : Nat
deriving DecidableEq, Repr

/-- What the partner says of itself in the HELLO exchange (R404, R405, R407, R408). -/
structure Hello where
  drag : Bool
  sfwDigest : BitVec 384
  patDigest : BitVec 64
  heat : Bool
  ssf : Nat
  session : Bool
  alone : Bool
  clk : Nat
  lat : Nat
  lanes : Nat
deriving DecidableEq, Repr

/-- A heartbeat (R402): role, identity, phase and rate of each domain, STATE, TEC and REC of each port, the latches and the steward DOWN bit. -/
structure Hb where
  role : Nat
  drag : Bool
  phases : List (Nat × Nat)
  ports : List (Nat × Nat × Nat)
  latch : BitVec 16
  down : Bool
deriving DecidableEq, Repr

/-- The outcome of a received frame on the owner (R402 RXR). -/
inductive RxOut where
  | store (q : Fin 64) (pri : Nat)
  | discard
  | drop
deriving DecidableEq, Repr

/-- A transmit report (R412): a TQ head by TAG, identifier and CRC with its outcome (R328 code) and the start of frame that its TXC record holds, or a window: sent, missed with its CAUSE, or an attempt or close that changes nothing. -/
inductive TxRep where
  | head (p : Fin 4) (tag : Nat) (id : Nat) (crc : Word) (outcome : Nat) (sof : Nat)
  | winSent (p : Fin 4) (w : Fin 32)
  | winMissed (p : Fin 4) (w : Fin 32) (cause : Nat)
  | winNote (p : Fin 4) (w : Fin 32)
deriving DecidableEq, Repr

/-- A request of the shadow (R402 REQ); full asks for the full resynchronisation of a REPAIR (R418). -/
inductive TwReq where
  | frame (p : Fin 4) (sof : Nat)
  | block (nn : Fin 16)
  | txQueue (p : Fin 4)
  | full
deriving DecidableEq, Repr

/-- One logged cycle (R417): operand entries delivered per slot number, and the block's value board row after it. -/
structure CycLog where
  slots : List (Nat × List (Nat × BitVec 20))
  row : List (Nat × BitVec 20)
deriving DecidableEq, Repr

/-- A block state snapshot with its input log (R417): the block, its registers that are not at their reset values as (offset, word), and the logged cycles. -/
structure BlkSnap where
  blk : Blk
  regs : List (Nat × Word)
  log : List CycLog
deriving DecidableEq, Repr

/-- A full resynchronisation (R407): a snapshot of every block, the chip state that does not derive from inputs as (address, word), the TQ contents, and the phases of the domains (R408). -/
structure FullSnap where
  blks : List (Fin 16 × BlkSnap)
  regs : List (Nat × Word)
  txQueues : List (Fin 4 × List Pkt)
  phases : List (Fin 8 × Nat)
  clk : Nat
deriving DecidableEq, Repr

/-- An UPD message (R442, R448): a forwarded billet, a forwarded command (bits of CHIP.UPD.CTL), or the announcement of a departure. -/
inductive UpdMsg where
  | billet (b : Billet)
  | cmd (bits : BitVec 5) (dom : Fin 8) (epoch : BitVec 40)
  | depart
deriving DecidableEq, Repr

/-- A message of the twin link (R402). RSY has four forms: the snapshot of a block, one logged cycle that follows it (R417), the copy of a transmit queue (R412), and a full resynchronisation (R407). -/
inductive TwMsg where
  | hb (m : Hb)
  | dig (nn : Fin 16) (cyc : Nat) (crc : Word)
  | mwr (m : MirWr)
  | rxr (p : Fin 4) (sof fseq : Nat) (crc : Word) (o : RxOut)
  | rxf (p : Fin 4) (f : Frame) (self : Bool) (sof fseq : Nat) (o : RxOut)
  | txr (t : TxRep)
  | ssi (nn : Fin 16) (w : BitVec 40) (stopLow : Bool)
  | rsy (nn : Fin 16) (s : BlkSnap)
  | log (nn : Fin 16) (c : CycLog)
  | tq (p : Fin 4) (pkts : List Pkt)
  | full (x : FullSnap)
  | req (r : TwReq)
  | upd (u : UpdMsg)
deriving DecidableEq, Repr

/-- What an RSY message brings (R402, R407, R412, R417): a block snapshot, a logged cycle that follows it, the copy of a transmit queue, or a part of a full resynchronisation, which tells that one runs. -/
inductive RsyBody where
  | block (nn : Fin 16) (s : BlkSnap)
  | log (nn : Fin 16) (c : CycLog)
  | txQueue (p : Fin 4) (pkts : List Pkt)
  | full
deriving DecidableEq, Repr

/-- A PCIe configuration request (R111). -/
inductive CfgReq where
  | busMaster (on : Bool)
  | msiEnable (on : Bool)
  | msiMask (m : BitVec 32)
  | errReport (on : Bool)
  | aerClear
  | bar0 (w : BitVec 32)
  | toD0
  | toD3hot
  | maxPayload (code : Fin 6)
  | maxReadRequest (code : Fin 6)
deriving DecidableEq, Repr

/-- A quench input that returns to its inactive level (R270). -/
inductive QInput where
  | tripA (nn : Fin 16)
  | tripB (nn : Fin 16)
  | qin
  | twq
  | dbg
  | jtag
deriving DecidableEq, Repr

end Sys2Proof.Machine
end

