-- ==== Sys2Proof/Syntax.lean ====
section
/-! DEFINITION. The commands: one constructor per row of spec/opcode_table.json, in the table's order. A command written by a master carries the master and the word it writes; its own command bit counts as written 1 (assumption log 13). -/

namespace Sys2Proof

/-- The commands of the device. -/
inductive Instr where
  /-- POWER_ON (R71): VDD, VDDA_PLL or VDDIO_C falls below its threshold, which resets every unit, clears the power-on fields and discards the pattern. -/
  | powerOn (c : CoreSupply)
  /-- RST_N_LOW (R72): A qualifying low pulse on RST_N resets the device and puts the gate outputs at high impedance within 100 ns. -/
  | rstNLow (ns : Nat)
  /-- RST_N_RISE (R76): The rising edge of RST_N samples the straps, sets STAGE to ROM and starts the start-up sequence. -/
  | rstNRise (balls : Straps)
  /-- STRAP_CHANGE (R56): A strap ball that has differed from its sampled value for more than 1 us sets CHANGED. -/
  | strapChange (balls : Straps)
  /-- PERST_N (R75): PERST_N low resets PF0 and PF1 while blocks, ports, queues and the serial host port keep running. -/
  | perstN
  /-- FUNCTION_LEVEL_RESET (R71): A PCIe FLR resets one function; its claimed H0 records revert to unclaimed and its Ladle transfers end with STATUS 5. -/
  | functionLevelReset (f : Fin 2)
  /-- D3HOT_ENTRY (R111): A function enters D3hot, so its BAR0 stops responding and target H0 sleeps. -/
  | d3hotEntry (f : Fin 2)
  /-- TRST_N (R71): TRST_N low resets the JTAG TAP only. -/
  | trstN
  /-- SUPPLY_FALL (R53): VDD or a bank VDDIO falls below its detector threshold, and the bank outputs go high-impedance within 1 us. -/
  | supplyFall (v : Supply)
  /-- BANK_CLASSING (R461): A selectable bank supply reaches 2.90 V, or stays between 1.62 V and 1.98 V for 2 ms, and its class is latched. -/
  | bankClassing (b : Fin 5) (is3v3 : Bool)
  /-- PLL_LOCK (R63): The PLL locks to REFCLK25 within 200 us and delivers CLK, which sets PLL_LOCK. -/
  | pllLock
  /-- REFCLK_LOSS (R69): No REFCLK25 edge arrives for 120-200 ns; the clock-loss condition quenches every block, stops the ports, drops OWN_O and moves the stewards to the RC oscillator. -/
  | refclkLoss
  /-- PLL_UNLOCK (R69): The lock detector declares PLL unlock, with the same clock-loss effects. -/
  | pllUnlock
  /-- CLOCK_RECOVERY (R70): After 100 us of in-range REFCLK25 edges, the stewards relock the PLL and the ports restart. -/
  | clockRecovery
  /-- SFW_START (R76): The SFW header and image are checked and SFW starts, with fallback to the other bank, trial handling and STAGE set to SFW. -/
  | sfwStart
  /-- START_GO (R81): CHIP.START.GO makes ST0 take and check the recovery SFW image from the host window. -/
  | startGo (h : Master)
  /-- TWIN_TRAIN_TIMEOUT (R78): The twin link has not trained within 10 ms of STAGE TWIN, and the unit continues unpaired under the ownership guard. -/
  | twinTrainTimeout
  /-- SOFTWARE_CHIP_RESET (R73): CHIP.SWRST.GO with KEY 0xC0DE acts as a 10 us RST_N pulse and keeps the straps. -/
  | softwareChipReset (h : Master) (w : Word)
  /-- HEAT_WRITE (R35): A write to CHIP.MODE.HEAT is accepted only when every block is OFF or HELD, and is otherwise refused with HEAT_REFUSED set. -/
  | heatWrite (h : Master) (w : Word)
  /-- LEGACY_WRITE (R103): A write to CHIP.MODE.LEGACY changes how reserved-address accesses from the host masters are answered. -/
  | legacyWrite (h : Master) (w : Word)
  /-- REGISTER_WRITE (R94): A write to a register with no row of its own is applied per field class, masking, width, privilege and reserved-address rules. -/
  | registerWrite (h : Master) (a : BitVec 27) (lanes : List (Option Byte))
  /-- SHP_WRITE_FRAME (R117): A serial host port frame with command 0x02 is checked, and its words are written and answered with a status byte. -/
  | shpWriteFrame (a : Word) (words : List Word) (crc : Byte)
  /-- SHP_READ_FRAME (R117): A serial host port frame with command 0x0B is checked, and its words are read and returned with status and check bytes. -/
  | shpReadFrame (a : Word) (len : Nat) (crc : Byte)
  /-- SHP_BAD_COMMAND (R117): A serial host port frame with an undefined command or length is counted in FORM and applies nothing. -/
  | shpBadCommand (cmd : Byte) (len : Byte)
  /-- SHP_FRAME_CUT (R118): SHP_CS_N rises before the last byte of a frame, which is decided by how far the frame got. -/
  | shpFrameCut (c : ShpCut)
  /-- BLOCK_ARM (R85): The ARM command moves a HELD block to ARMED at the first cycle start of its start bank. -/
  | blockArm (h : Master) (nn : Fin 16) (w : Word)
  /-- BLOCK_RUN (R85): The RUN command moves an ARMED block to RUN at the next cycle start. -/
  | blockRun (h : Master) (nn : Fin 16) (w : Word)
  /-- BLOCK_STOP (R85): The STOP command moves the legs of a RUN block to their safe levels at each leg's next carrier period start, ending in ARMED. -/
  | blockStop (h : Master) (nn : Fin 16) (w : Word)
  /-- BLOCK_DISARM (R85): The DISARM command puts the outputs at safe levels and stops the runner at the end of the cycle, ending in HELD. -/
  | blockDisarm (h : Master) (nn : Fin 16) (w : Word)
  /-- BLOCK_RESET (R85): The RESET command reloads the cells, runner and kernel state from the pattern and ends in HELD, keeping the quench latch. -/
  | blockReset (h : Master) (nn : Fin 16) (w : Word)
  /-- BLOCK_RESET_DONE (R85): The block reload completes within 1 ms and the block is HELD. -/
  | blockResetDone (nn : Fin 16)
  /-- PATTERN_LOAD (R144): CHIP.PATCTL.LOAD starts a full pattern load after its acceptance conditions are checked. -/
  | patternLoad (h : Master) (w : Word)
  /-- PATTERN_LOAD_DONE (R145): An accepted load completes its checks and apply steps, ending in STAGE HELD with blocks HELD, or is refused with its CODE. -/
  | patternLoadDone (readBackOk : Bool)
  /-- REPOUR (R147): CHIP.PATCTL.REPOUR starts replacing one block's section while the other blocks run. -/
  | repour (h : Master) (w : Word)
  /-- REPOUR_DONE (R149): A re-pour completes within 20 ms with the block HELD, new safe levels and formats, and the digest recomputed. -/
  | repourDone
  /-- SWAP (R140): The host SWAP command requests a bank swap to TARGET and is judged by the block state. -/
  | swap (h : Master) (nn : Fin 16) (w : Word)
  /-- LCLR (R153): The LCLR command clears RLATE.MAXLATE. -/
  | lclr (h : Master) (nn : Fin 16) (w : Word)
  /-- CYCLE_START (R129): The block phase wraps; the runner executes or misses the cycle, takes pending swaps, state changes and set-points, and judges overspeed. -/
  | cycleStart (nn : Fin 16)
  /-- SAMPLE_SLOT (R131): A SAMPLE slot latches the selected filter cell results into the operand file. -/
  | sampleSlot (nn : Fin 16) (late : Nat)
  /-- RUN_SLOT (R212): A RUN slot runs one kernel cell in its effective mode and occupies exactly BUDGET clk. -/
  | runSlot (nn : Fin 16) (late : Nat)
  /-- KERNEL_ABORT (R213): A kernel that has not completed BUDGET + 2 clk after its slot started, or that meets a state parity error, is aborted and the cell faults. -/
  | kernelAbort (nn : Fin 16) (parity : Bool) (late : Nat)
  /-- UPDATE_SLOT (R131): An UPDATE slot loads the leg shadow compare values from duties or places a pulse-table row as pending. -/
  | updateSlot (nn : Fin 16) (late : Nat)
  /-- PUBLISH_SLOT (R19): A PUBLISH slot writes values of the block's own value board row and counts SEQ. -/
  | publishSlot (nn : Fin 16) (late : Nat)
  /-- VB_TRANSFER (R23): A publication reaches the other regions over the chip interconnect within 16 clk. -/
  | vbTransfer (nn : Fin 16) (r : Fin 4)
  /-- CONSUME_SLOT (R131): A CONSUME slot reads one value or a pair of any row into the operand file. -/
  | consumeSlot (nn : Fin 16) (late : Nat)
  /-- OPEN_SLOT (R330): An OPEN slot packs entries into a window buffer, sets FRESH and counts OPENS. -/
  | openSlot (nn : Fin 16) (late : Nat)
  /-- CAPTURE_SLOT (R205): A CAPTURE slot latches the encoder position, a phase word or the probe latch into the operand file. -/
  | captureSlot (nn : Fin 16) (late : Nat)
  /-- MARK_SLOT (R131): A MARK slot writes a trace record and/or raises the block's mark source. -/
  | markSlot (nn : Fin 16) (late : Nat)
  /-- WATCHDOG_TRIP (R380): A cycle's busy time reaches WDLIM; the slot is abandoned and the runner reloaded, and the third consecutive trip quenches with cause WDOG. -/
  | watchdogTrip (nn : Fin 16)
  /-- RUNMEM_ERROR (R127): A double-bit runner memory error at a slot or header fetch quenches the block with RUNMEM and pauses the runner for a rewrite. -/
  | runmemError (nn : Fin 16) (e : RmErr)
  /-- RUNMEM_REWRITE_DONE (R127): The stewards complete the rewrite and read-back of the block's runner memory, and the runner resumes at the next cycle start. -/
  | runmemRewriteDone (nn : Fin 16)
  /-- STALL_DECLARED (R171): The block rate stays below RATE_MIN for STALL us, and a stall is declared with fallback or hold. -/
  | stallDeclared (nn : Fin 16)
  /-- FALLBACK_SWAP (R172): After the flush, the fallback request takes effect at its computed instant and moves the block to the fallback bank. -/
  | fallbackSwap (nn : Fin 16)
  /-- STALL_RECOVERY (R173): The stalled bank's rate holds at or above 9/8 RATE_MIN for STALL us, which ends the stall and requests the return. -/
  | stallRecovery (nn : Fin 16)
  /-- PHASE_SOURCE_UPDATE (R158): A domain takes a source update (publication, broadcast or heartbeat), sets its rate, and becomes invalid or valid again under R159. -/
  | phaseSourceUpdate (k : Fin 8) (alt : Bool) (v : BitVec 40)
  /-- SOURCE_TIMEOUT (R156): No update arrives within TMO, so the source becomes invalid; the domain switches to its alternate or becomes invalid and holds. -/
  | sourceTimeout (k : Fin 8) (alt : Bool)
  /-- SWITCH (R163): The host SWITCH command changes the domain to the source not in use, or is refused with SW_REF. -/
  | switch (h : Master) (k : Fin 8) (w : Word)
  /-- CARRIER_PERIOD_START (R251): A leg carrier period starts: the leg takes its shadow compare value and applies STOP, short-pulse, refresh and lock changes. -/
  | carrierPeriodStart (nn : Fin 16) (l : Fin 3)
  /-- COMPARE_EDGE (R253): The leg counter reaches the compare value C, and the requested output falls. -/
  | compareEdge (nn : Fin 16) (l : Fin 3)
  /-- DEAD_TIME_EXPIRE (R253): DTIME steps after a falling edge, the paired output rises. -/
  | deadTimeExpire (nn : Fin 16) (l : Fin 3)
  /-- PULSE_ROW_TAKE (R259): A pending pulse-table row is taken at a wrap of the domain fraction. -/
  | pulseRowTake (nn : Fin 16)
  /-- PULSE_TABLE_EDGE (R260): The domain fraction reaches an edge of the row in use, and the leg changes its request. -/
  | pulseTableEdge (nn : Fin 16)
  /-- TRIP_INPUT (R262): TRIPAnn or TRIPBnn becomes active past its filter, reaches the OR tree and sets its latch. -/
  | tripInput (nn : Fin 16) (b : Bool)
  /-- QIN_INPUT (R262): QIN_N goes low past its filter and sets the latches of the blocks it is routed to. -/
  | qinInput
  /-- TWQ_INPUT (R262): TWQ_I goes high past its filter and sets the latches of the blocks routed in QROUTE.TWQ. -/
  | twqInput
  /-- DBG_HALT (R262): DBG_HALT high quenches every block for as long as the halt lasts. -/
  | dbgHalt
  /-- JTAG_HALT (R262): A JTAG halt entered at a TCK edge quenches every block. -/
  | jtagHalt
  /-- TDA_EXPIRE (R266): The analogue delay TDA ends, and each output whose safe level is HIGH turns on. -/
  | tdaExpire (nn : Fin 16) (l : Fin 3)
  /-- SOFT_QUENCH (R262): The QCTL.QUENCH command sets the block's latch with cause SOFT. -/
  | softQuench (h : Master) (nn : Fin 16) (w : Word)
  /-- QUENCH_CLEAR (R270): The QCTL.CLEAR command resets every cause latch when no ACT bit is set, and is otherwise refused. -/
  | quenchClear (h : Master) (nn : Fin 16) (w : Word)
  /-- FILTER_RESULT (R182): A sinc3 decimation completes at a boundary edge, and RES and VALID update. -/
  | filterResult (nn : Fin 16) (f : Fin 4) (sum edge : Nat)
  /-- FAST_RESULT (R186): A sinc2 fast result completes, and the comparators assert or release after qualification. -/
  | fastResult (nn : Fin 16) (f : Fin 4) (sum edge : Nat)
  /-- MCLK_LOSS (R68): A modulator clock has no rising edge for 1 us, which sets LOSS and BAD and raises the modulator-clock source. -/
  | mclkLoss (n : Fin 4) (x : Fin 2)
  /-- MCLK_RANGE (R68): A modulator clock period is outside 36-210 ns, which sets RANGE and BAD. -/
  | mclkRange (n : Fin 4) (x : Fin 2)
  /-- MCLK_RECOVER (R68): 16 consecutive in-range periods end the bad-clock condition. -/
  | mclkRecover (n : Fin 4) (x : Fin 2)
  /-- BITSTREAM_STUCK (R189): SDDnn_f keeps one level for 128 modulator periods, so BSTK sets and the cell stops measuring. -/
  | bitstreamStuck (nn : Fin 16) (f : Fin 4)
  /-- BITSTREAM_RESUME (R189): The first change of level on a stuck bitstream clears BSTK. -/
  | bitstreamResume (nn : Fin 16) (f : Fin 4)
  /-- QUAD_COUNT (R196): An accepted change of A or B in QUAD mode changes the count, or overruns when both change in the same clk. -/
  | quadCount (nn : Fin 16) (a b : Bool)
  /-- STEP_EDGE (R200): An accepted rising edge of EAnn in STEPDIR mode counts one step in the direction of EBnn. -/
  | stepEdge (nn : Fin 16) (eb settled : Bool)
  /-- INDEX_EDGE (R199): An accepted rising edge of EZnn reloads the count and restores validity, or sets ZSEEN. -/
  | indexEdge (nn : Fin 16)
  /-- SSI_TRANSFER_START (R201): Every SPER clk, the encoder cell starts an SSI transfer on EAnn. -/
  | ssiTransferStart (nn : Fin 16) (idleHigh : Bool)
  /-- SSI_TRANSFER_END (R202): An SSI transfer ends; the word is checked, decoded and accepted or discarded. -/
  | ssiTransferEnd (nn : Fin 16) (w : BitVec 40) (stopLow : Bool)
  /-- REVAL (R199): The EC.CTL.REVAL command restores PVALID and clears SAT. -/
  | reval (h : Master) (nn : Fin 16) (w : Word)
  /-- PROBE_EDGE (R208): An accepted PROBEnn edge latches position and phase, or sets LOST_SEEN. -/
  | probeEdge (nn : Fin 16) (rising : Bool)
  /-- REARM (R208): The PC.CTL.REARM command arms the probe cell. -/
  | rearm (h : Master) (nn : Fin 16) (w : Word)
  /-- SENSE_INTERVAL (R210): A sensing interval of a cell event input ends; the input sends its messages and is judged stuck or chattering. -/
  | senseInterval (nn : Fin 16) (i : Fin 10) (lvl : Bool)
  /-- GOMAN (R232): The GOMAN command selects MAN for a controller cell. -/
  | goman (h : Master) (nn : Fin 16) (m : Fin 12) (w : Word)
  /-- GOAUTO (R232): The GOAUTO command selects AUTO for a controller cell. -/
  | goauto (h : Master) (nn : Fin 16) (m : Fin 12) (w : Word)
  /-- PLOAD (R232): The PLOAD command copies PS0-PS15 into P0-P15 at the cell's next executed run. -/
  | pload (h : Master) (nn : Fin 16) (m : Fin 12) (w : Word)
  /-- PRESET (R232): The PRESET command sets PRE so that the next AUTO run presets from OF(TRK). -/
  | preset (h : Master) (nn : Fin 16) (m : Fin 12) (w : Word)
  /-- SNAP (R232): The SNAP command copies the cell state into S0-S7 after the run and sets SNAPV. -/
  | snap (h : Master) (nn : Fin 16) (m : Fin 12) (w : Word)
  /-- FCLR (R246): The FCLR command reloads the cell state from the block image, clears FAULT and sets PRE. -/
  | fclr (h : Master) (nn : Fin 16) (m : Fin 12) (w : Word)
  /-- HSP_COMMIT (R235): The HSPCTL.COMMIT command copies HSP0-HSP7 into the live set-points at the next cycle start, or at once in HELD. -/
  | hspCommit (h : Master) (nn : Fin 16) (w : Word)
  /-- SEGWR_WRITE (R240): A write to BKnn.SEGWR queues segments, or is ignored with BADWR set. -/
  | segwrWrite (h : Master) (nn : Fin 16) (w : Word)
  /-- SEGMENT_WRITE (R240): A write to a segment word takes effect on a free segment, or is ignored with OVW set. -/
  | segmentWrite (h : Master) (nn : Fin 16) (s : Fin 32) (i : Fin 8) (w : Word)
  /-- CROSSBAR_TIMEOUT (R384): A crossbar request not granted within 4 us is dropped as region error CAUSE 1. -/
  | crossbarTimeout (n : Fin 4) (req : Fin 8)
  /-- POOL_TIMEOUT (R384): A pool operation not completed within 2 us, or a scrub not completed within 25 us, resets its queue as region error CAUSE 2. -/
  | poolTimeout (n : Fin 4) (q : Fin 64)
  /-- PORT_STALL (R384): A port engine that advances no bit for 8 nominal bit times restarts as region error CAUSE 4. -/
  | portStall (n : Fin 4)
  /-- REGION_WINDOW_EXPIRE (R386): The 10 ms region error window closes with fewer than four errors. -/
  | regionWindowExpire (n : Fin 4)
  /-- STEWARD_HEARTBEAT_MISS (R387): A steward misses its 1 ms heartbeat, which restarts both stewards, or holds them down at the fourth restart in 60 s. -/
  | stewardHeartbeatMiss (st : Fin 2)
  /-- STEWARD_CMD_TIMEOUT (R387): A steward-executed host command exceeds twice its bound, which restarts the stewards. -/
  | stewardCmdTimeout
  /-- STEWARD_RESTART_DONE (R74): The stewards run again from the active bank within 40 ms, and steward commands are accepted again. -/
  | stewardRestartDone
  /-- CHIP_FAILURE (R390): A chip failure cause is decided; CHIPFAIL quenches every block, OWN_O drops, the link stops and the ports go OFF. -/
  | chipFailure (cause : Fin 8) (n : Fin 4)
  /-- FAILURE_RESET (R390): 10 ms after a chip failure decision, a software chip reset is made and FAILRST is set, with the start-up locked at the third reset in 600 s. -/
  | failureReset
  /-- FAIL_WINDOW_EXPIRE (R391): The 600 s failure-reset window closes. -/
  | failWindowExpire
  /-- FRAME_RECEIVED (R320): A frame received without error, or self-received, is deduplicated, filtered and stored or dropped. -/
  | frameReceived (p : Fin 4) (f : Frame) (self : Bool) (sof : Nat)
  /-- BUS_BILLET (R439): An XL frame carrying the update priority identifier is taken as a billet before filtering. -/
  | busBillet (p : Fin 4) (f : Frame) (sof : Nat)
  /-- PROTOCOL_EXCEPTION (R278): A frame of a format that is not enabled enters protocol exception or is a form error. -/
  | protocolException (p : Fin 4) (xl : Bool)
  /-- TRANSMIT_DECISION (R331): At bus idle or the end of an intermission, the port offers the due window frame or the TQ head. -/
  | transmitDecision (p : Fin 4)
  /-- FRAME_TRANSMITTED (R327): A frame is sent successfully; the head is removed, TXOK counts and the frame is self-received. -/
  | frameTransmitted (p : Fin 4)
  /-- ARBITRATION_LOST (R327): The head loses arbitration; LOSTN counts and the head rotates to the tail with ROTATE. -/
  | arbitrationLost (p : Fin 4)
  /-- BUS_ERROR (R295): A protocol error is detected; it is recorded, TEC and REC change and the error state follows. -/
  | busError (p : Fin 4) (e : BusErr)
  /-- INTEGRATION_DONE (R281): 11 consecutive recessive bits let a port in INTEG, or one waiting after an error, take part. -/
  | integrationDone (p : Fin 4)
  /-- RECOVERY_SEQUENCE (R296): In RECOV, a run of 11 recessive bits counts in RECOVN, and the 128th ends bus-off. -/
  | recoverySequence (p : Fin 4)
  /-- ARD_DWELL_EXPIRE (R290): A candidate sees no counted frame within DWELL ms, and rate detection moves on. -/
  | ardDwellExpire (p : Fin 4)
  /-- RX_DOMINANT (R385): BRXp is dominant for 1,024 nominal bit times, which sets RXDOM. -/
  | rxDominant (p : Fin 4)
  /-- PORT_START (R284): The BPCTL.START command moves a port from INIT to INTEG, or to RECOV after bus-off. -/
  | portStart (h : Master) (p : Fin 4) (w : Word)
  /-- PORT_STOP (R284): The BPCTL.STOP command moves the port to INIT at the end of the frame. -/
  | portStop (h : Master) (p : Fin 4) (w : Word)
  /-- RECOVER (R296): The RECOVER command moves a BUSOFF port to RECOV. -/
  | recover (h : Master) (p : Fin 4) (w : Word)
  /-- ARD (R290): The ARD command starts automatic rate detection in LISTEN. -/
  | ard (h : Master) (p : Fin 4) (w : Word)
  /-- ARDSTOP (R284): The ARDSTOP command stops rate detection and keeps the timing. -/
  | ardstop (h : Master) (p : Fin 4) (w : Word)
  /-- GONORMAL (R284): The GONORMAL command moves a LISTEN port to NORMAL from the next bus idle. -/
  | gonormal (h : Master) (p : Fin 4) (w : Word)
  /-- GOLISTEN (R284): The GOLISTEN command moves a NORMAL port to LISTEN from the end of the frame. -/
  | golisten (h : Master) (p : Fin 4) (w : Word)
  /-- TIMING_WRITE (R286): A bit-timing register write takes effect in OFF or INIT and is otherwise discarded with CFGREF. -/
  | timingWrite (h : Master) (p : Fin 4) (r : Fin 3) (w : Word)
  /-- FILTER_ENTRY_WRITE (R322): A write to a filter entry's match and mask takes effect only while EN is 0. -/
  | filterEntryWrite (h : Master) (p : Fin 4) (i : Fin 128) (r : Fin 4) (w : Word)
  /-- ABORT_HEAD (R327): The ABORT_HEAD command removes the TQ head, or waits for its attempt to end. -/
  | abortHead (h : Master) (p : Fin 4) (w : Word)
  /-- WINDOW_OPEN (R331): A window instance opens when the fraction of its domain reaches OPOS. -/
  | windowOpen (p : Fin 4) (i : Fin 32)
  /-- WINDOW_CLOSE (R332): A window instance closes at CPOS, clears FRESH and is reported missed with a CAUSE if unsent. -/
  | windowClose (p : Fin 4) (i : Fin 32)
  /-- PDATA (R309): A write to Qq.PDATA opens a packet or appends a word, or drops the packet when no cell is available. -/
  | pdata (h : Master) (n : Fin 4) (q : Fin 64) (w : Word)
  /-- PEND (R309): A write to Qq.PEND closes the packet, writes its length slot and makes it visible. -/
  | pend (h : Master) (n : Fin 4) (q : Fin 64) (w : Word)
  /-- POP (R311): A read of Qq.POP returns the next word or a HOLD handle, or stalls at an empty queue. -/
  | pop (h : Master) (n : Fin 4) (q : Fin 64)
  /-- POP_STALL_TIMEOUT (R312): A stalled pop sees no packet within QSTALL and returns the sentinel with EMPTY. -/
  | popStallTimeout (n : Fin 4) (q : Fin 64)
  /-- ACK (R314): A write to Qq.ACK frees an owned HOLD entry, or sets STALEACK. -/
  | ack (h : Master) (n : Fin 4) (q : Fin 64) (w : Word)
  /-- OWNTMO_EXPIRE (R314): An entry owned for OWNTMO ms is reclaimed, which sets RECLAIM. -/
  | owntmoExpire (n : Fin 4) (q : Fin 64) (cell : Nat)
  /-- SLAG (R316): The SLAG command discards the rest of the packet being read in a STREAM queue. -/
  | slag (h : Master) (n : Fin 4) (q : Fin 64) (w : Word)
  /-- FLUSH (R316): The FLUSH command resets the queue by a scrub pass. -/
  | flush (h : Master) (n : Fin 4) (q : Fin 64) (w : Word)
  /-- STALE_EXPIRE (R316): A queue non-empty for QSTALE us without a pop sets STALE. -/
  | staleExpire (n : Fin 4) (q : Fin 64)
  /-- SCRUB_DONE (R318): The scrub pass completes, and the queue is empty with RST cleared. -/
  | scrubDone (n : Fin 4) (q : Fin 64)
  /-- REBUILD_DONE (R319): The free list rebuild completes, and held pushes and frames proceed. -/
  | rebuildDone (n : Fin 4)
  /-- EVG_MESSAGE (R345): The gatherer processes one doorbell message: it records, merges, pends or withdraws, or updates a fast register. -/
  | evgMessage
  /-- DOORBELL_WRITE (R340): A write to EVG.DOORBELL is checked and sent as a message from the source it names. -/
  | doorbellWrite (h : Master) (w : Word)
  /-- HOLDOFF_EXPIRE (R346): A group hold-off expires, and the group's pending sources are presented. -/
  | holdoffExpire (g : Fin 64)
  /-- CLAIM (R348): A read of Tt.CLAIM returns the handle of the oldest unclaimed record and marks it claimed. -/
  | claim (h : Master) (t : Fin 4)
  /-- COMPLETE (R348): A write of a handle to Tt.COMPLETE frees the slot, counts SPURIOUS and re-presents stuck and pending sources. -/
  | complete (h : Master) (t : Fin 4) (w : Word)
  /-- FAST_RECORD_READ (R351): A read of Tt.FRi returns the register and clears PEND, COUNT, MULTI and WITHDRAWN. -/
  | fastRecordRead (h : Master) (t : Fin 4) (i : Fin 8)
  /-- WAKE_RELEASE_READ (R354): The first read of T1.STAT, CLAIM, FSUM or a T1.FRi after a wake releases the held SHP_IRQ_N to the mask rules. -/
  | wakeReleaseRead (h : Master) (a : BitVec 27)
  /-- SLEEP_WRITE (R354): Setting T1.CFG.SLEEP puts H1 to sleep, or wakes it at once if a wake source is pending. -/
  | sleepWrite (h : Master) (w : Word)
  /-- SOURCE_ROUTING_WRITE (R343): A write to EVG.SRCs changes routing, which takes effect at the source's next message. -/
  | sourceRoutingWrite (h : Master) (i : Fin 1024) (w : Word)
  /-- HOLDOFF_WRITE (R347): A write to HOLDOFF takes effect at the next start of the group's hold-off. -/
  | holdoffWrite (h : Master) (g : Fin 64) (w : Word)
  /-- CHANNEL_START (R372): The CHn.CTL.START command moves a channel from IDLE or HALT to RUN. -/
  | channelStart (h : Master) (c : Fin 8) (w : Word)
  /-- CHANNEL_STOP (R372): The CHn.CTL.STOP command ends the head with STATUS 4 and idles the channel. -/
  | channelStop (h : Master) (c : Fin 8) (w : Word)
  /-- CHANNEL_CFG_WRITE (R372): A write to CHn.CFG changes the ring in IDLE or HALT; EN := 0 stops the channel, and other writes are refused. -/
  | channelCfgWrite (h : Master) (c : Fin 8) (w : Word)
  /-- TAIL_WRITE (R360): A write to CHn.TAIL hands descriptors to Ladle, or is refused with REF. -/
  | tailWrite (h : Master) (c : Fin 8) (w : Word)
  /-- LADLE_ITEM_AVAILABLE (R366): An item becomes available to a channel, which starts moving it within 2 us. -/
  | ladleItemAvailable (c : Fin 8)
  /-- LADLE_UNIT_DONE (R364): A transfer unit completes, and the item or the descriptor completes with write-back of DONE and STATUS. -/
  | ladleUnitDone (c : Fin 8) (hostData : List Byte)
  /-- GATHER_EXPIRE (R365): The source has stayed empty for GATHER us after an item was moved, and the descriptor completes. -/
  | gatherExpire (c : Fin 8)
  /-- DESCRIPTOR_TIMEOUT (R369): TMO elapses before completion, and the channel halts with STATUS 1. -/
  | descriptorTimeout (c : Fin 8)
  /-- PCIE_ERROR (R369): A host-memory access meets a PCIe error or has no completion within 1 ms, and the channel halts with STATUS 2. -/
  | pcieError (c : Fin 8)
  /-- TRACE_CLEAR (R374): The CHIP.TRC.CTL.CLEAR command empties the trace buffer. -/
  | traceClear (h : Master) (w : Word)
  /-- LINK_UP (R404): The twin link trains and completes HELLO, and the units run the pairing checks. -/
  | linkUp (p : Machine.Hello)
  /-- LINK_RETRAIN (R401): While the link is down, a new training attempt starts every 100 ms. -/
  | linkRetrain
  /-- LINK_LOST (R403): No valid HB arrives for 12 us, both lanes lose lock, or a message cannot be delivered, and the link is declared lost. -/
  | linkLost
  /-- HB_SEND (R402): Every 4 us on the tick grid, a unit sends a heartbeat. -/
  | hbSend
  /-- HB_RECEIVED (R415): A heartbeat arrives; the shadow corrects TWIN domains, mirrors port states and reconciles latches. -/
  | hbReceived (m : Machine.Hb)
  /-- DIG_RECEIVED (R416): A block digest arrives and is compared; a mismatch requests resynchronisation and may mark the shadow SUSPECT. -/
  | digReceived (nn : Fin 16) (cyc : Nat) (crc : Word)
  /-- MWR_RECEIVED (R409): The shadow receives a mirrored write with its apply instant. -/
  | mwrReceived (m : Machine.MirWr)
  /-- MWR_APPLY (R409): A mirrored write takes effect on both units at its apply instant. -/
  | mwrApply
  /-- RXR_RECEIVED (R411): A receipt makes the matching provisional frame stored or dropped, or triggers a REQ. -/
  | rxrReceived (p : Fin 4) (sof fseq : Nat) (crc : Word) (o : Machine.RxOut)
  /-- RXF_RECEIVED (R411): A requested receive entry arrives and is stored as received. -/
  | rxfReceived (p : Fin 4) (f : Frame) (self : Bool) (sof fseq : Nat) (o : Machine.RxOut)
  /-- PROVISIONAL_TIMEOUT (R411): A provisional frame with no receipt within 100 us is discarded. -/
  | provisionalTimeout (p : Fin 4)
  /-- TXR_RECEIVED (R412): A transmit report applies the owner's outcome to the shadow's TQ head or window. -/
  | txrReceived (t : Machine.TxRep)
  /-- SSI_MESSAGE (R413): The shadow applies the owner's SSI word 4 us after the transfer ended. -/
  | ssiMessage (nn : Fin 16) (m : Option (BitVec 40 × Bool))
  /-- RSY_RECEIVED (R417): A snapshot and input log arrive, and the shadow catches the block up. -/
  | rsyReceived (b : Machine.RsyBody)
  /-- REQ_RECEIVED (R402): The owner answers a shadow request with RXF, RSY or a TQ copy. -/
  | reqReceived (r : Machine.TwReq)
  /-- RESYNC_DONE (R417): A block resynchronisation joins, and comparison resumes. -/
  | resyncDone (nn : Fin 16)
  /-- RESYNC_TIMEOUT (R417): A resynchronisation not complete within four cycles or 100 us counts as a further mismatch. -/
  | resyncTimeout (nn : Fin 16)
  /-- FULL_RESYNC_DONE (R407): A full resynchronisation completes; the joining unit becomes SHADOW with SYNCED and the partner ACTIVE. -/
  | fullResyncDone (s : Machine.FullSnap)
  /-- OWN_GUARD_EXPIRE (R397): OWN_I has read low through the guard time, and the unit raises OWN_O. -/
  | ownGuardExpire
  /-- OWN_I_RISE (R397): OWN_I rises during the guard or just after claiming, and Drag drops OWN_O and goes HELD. -/
  | ownIRise
  /-- OWN_I_FALL (R420): OWN_I falls with the link up and no handover announced, and the shadow detects a partner failure. -/
  | ownIFall
  /-- TWQ_PULSE_END (R414): The 2 us TWQ_O pulse driven for a newly set latch ends. -/
  | twqPulseEnd
  /-- HANDOVER (R423): The HANDOVER command passes ownership to the synchronised shadow without interruption. -/
  | handover (h : Master) (w : Word)
  /-- REPAIR (R418): The REPAIR command runs a full resynchronisation on the running pair to clear SUSPECT. -/
  | repair (h : Master) (w : Word)
  /-- FORCE (R426): The FORCE command makes a HELD unit ALONE when the link is down and OWN_I is low. -/
  | force (h : Master) (w : Word)
  /-- SUBMIT (R439): CHIP.UPD.SUBMIT with GO copies a billet from the host window into a staging slot. -/
  | submit (h : Master) (w : Word)
  /-- SUBMIT_TIMEOUT (R439): A SUBMIT that finds no free staging slot within 50 ms is refused. -/
  | submitTimeout
  /-- BILLET_TAKEN (R440): The engine takes a billet within 10 ms and opens the session, stores it, or discards it. -/
  | billetTaken (i : Fin 16)
  /-- UPD_RECEIVED (R442): The shadow takes a forwarded billet or command from an UPD message. -/
  | updReceived (u : Machine.UpdMsg)
  /-- BUILD_DONE (R443): All billets are held and the images are built and verified, giving VERIFIED or FAILED. -/
  | buildDone
  /-- UPD_ABORT (R453): The ABORT command closes the session and erases its slots. -/
  | updAbort (h : Master) (w : Word)
  /-- UPD_COMMIT (R444): The COMMIT command arms the activation for the commit epoch. -/
  | updCommit (h : Master) (w : Word)
  /-- ACTNOW (R444): The ACTNOW command makes the activation due at once. -/
  | actnow (h : Master) (w : Word)
  /-- CONFIRM (R447): The CONFIRM command ends the revert window and erases the pre-migration copy. -/
  | confirm (h : Master) (w : Word)
  /-- REVERT (R447): The REVERT command activates the other bank. -/
  | revert (h : Master) (w : Word)
  /-- ACTIVATION_DUE (R446): The commit epoch is reached on a valid domain, and the activation runs or is refused. -/
  | activationDue
  /-- TWIN_VERIFY_TIMEOUT (R449): The 2 s verification of a coordinated activation passes without 16 matches, and the departed unit reverts. -/
  | twinVerifyTimeout
  /-- SUPPLY_RISE (R51): VDD, VDDA_PLL, VDDL or a non-selectable bank VDDIO rises above its good threshold, so the G_GOOD or C_GOOD bit sets and the bank's outputs leave high impedance. -/
  | supplyRise (v : Supply)
  /-- PERST_N_RISE (R83): PERST_N rises, ending the reset of PF0 and PF1, which then answer configuration requests within 100 ms. -/
  | perstNRise
  /-- PCIE_CONFIG_REQUEST (R111): A PCIe configuration request changes a function's command register, MSI enable or vector masks, or power state, including the return from D3hot to D0. -/
  | pcieConfigRequest (f : Fin 2) (r : Machine.CfgReq)
  /-- HOST_READ_ERROR (R109): A host read that is unaligned, of a reserved address, of a privileged register by an unprivileged master, or oversize is answered as R113 states and counted in CHIP.HOSTERR with its log. -/
  | hostReadError (h : Master) (a : BitVec 27) (bytes : Nat) (contig : Bool)
  /-- QUENCH_INPUT_RELEASE (R270): A trip, QIN_N, TWQ_I or DBG_HALT input returns to its inactive level past its filter, or a JTAG halt ends, so its ACT bit and QSUM bit clear. -/
  | quenchInputRelease (i : Machine.QInput)
  /-- LANE_LOSS (R401): One twin link lane loses lock, and the link stays up at half rate with LANES set to 1. -/
  | laneLoss
  /-- LINK_FAULT (R420): 4 us after the link is lost with OWN_I still high, the shadow judges a link fault and goes HELD with HREASON 2. -/
  | linkFault
  /-- HANDOVER_OWN_RAISE (R423): At H + 2 us of a planned handover, the incoming unit raises OWN_O without a guard. -/
  | handoverOwnRaise
  /-- HANDOVER_COMPLETES (R423): At H + 6 us of a planned handover, the outgoing unit drops OWN_O and becomes SHADOW, and the incoming unit becomes ACTIVE. -/
  | handoverCompletes
  /-- STEWARD_WINDOW_EXPIRE (R388): The 60 s steward restart window closes and CHIP.STW.WIN returns to 0. -/
  | stewardWindowExpire
  /-- QERR_WINDOW_EXPIRE (R384): The 100 ms window counting QERR toward region error CAUSE 3 closes. -/
  | qerrWindowExpire (n : Fin 4)
  /-- RUNMEM_SPAN_EXPIRE (R383): 1 s after a block's runner memory rewrite completes, a further uncorrectable error in that block stops being a chip failure. -/
  | runmemSpanExpire (nn : Fin 16)
deriving DecidableEq, Repr

end Sys2Proof
end

