-- ==== Sys2Proof/Decode.lean ====
section
/-! DEFINITION. The command that a word spells by the bits of spec/opcode_table.json: no row of the table has bits, since the commands are accesses and events and not encoded instructions. -/

namespace Sys2Proof

/-- The command that an nbits-bit word w spells by the opcode table: none, as no row gives bits. -/
def decodeTableWord (_nbits _w : Nat) : Option Instr := none

end Sys2Proof
end

