-- ==== Sys2Proof/Config.lean ====
section
/-! DEFINITION. What an implementation fixes and the spec leaves open: opaque constants, so that no proof can see a value. The argument named n is the counter of fresh values in the state (assumption log 1). -/

namespace Sys2Proof.Config

/-- CHIP.ID.HWREV: hardware revision, per silicon (R34). -/
opaque hwRev : BitVec 4

/-- The 64-bit unit ID (R34). -/
opaque uid : BitVec 64

/-- Whether the flash banks are of 32 MiB (R433). -/
opaque flash32 : Bool

/-- A fresh choice of the hardware where the spec allows two outcomes (R72, R200). -/
opaque choice (n : Nat) : Bool

/-- A fresh error of a sine, cosine, square root or reciprocal, before its bound is applied (R219, R222, R223). -/
opaque error (n : Nat) : Int

/-- Which free cell the pool gives out, as an index into the free cells (R307 leaves it open). -/
opaque freeCell (n : Nat) : Nat

/-- The trimmed analogue delay of a leg before its bounds are applied, in ps (R266). -/
opaque tdaTrim (n : Nat) : Nat

/-- Whether the signature of a header verifies, by the header's bytes (R431, R432). -/
opaque sigVerifies (bytes : List Nat) : Bool

/-- Whether every sealed page of an SFW body opens under its tag (R431, R432). -/
opaque pagesOpen (bytes : List Nat) : Bool

/-- The content of a section body, by TYPE and INDEX (R121): the spec gives its parts and no layout of their bytes. -/
opaque secBody (typ index : Nat) (bytes : List Nat) : Option SecBody

/-- The bytes of a block's image in runner memory (+0x6000), whose layout the spec does not give (R125). -/
opaque blockImageByte (nn : Fin 16) (img : BlockSec) (off : Nat) : Byte

/-- What the firmware of a digest makes of the entry of a source when it starts: bit 0 tells that the stewards serve it (R342). -/
opaque served (digest : BitVec 384) (s : Nat) : Nat

/-- An operation result the spec does not state, by the counter (log 1). -/
opaque freeNat (n : Nat) : Nat

/-- The CRC of a received frame that the twin link's receipts carry (R402, R411). -/
opaque frameCrc (f : Frame) : Word

/-- The body of a CAL image migrated to another format, none where the migration fails (R450): the spec gives no rule of it. -/
opaque calMigrate (body : List Nat) (fmt : Nat) : Option (List Byte)

end Sys2Proof.Config
end

