-- ==== Sys2Proof/Machine/Regs.lean ====
section
/-! DEFINITION. The registers of the address map: one namespace per register with its address and its fields, from the register tables of spec/ (R29 to R33 for the bases). -/

namespace Sys2Proof.Machine

/-- A register field: the address of its register for each index of the unit, its lowest bit and its width (R90). -/
structure RF (ι : Type) where
  addr : ι → Nat
  lo : Nat
  len : Nat

/-- Base address of region n (R31). -/
def regionBase (n : Fin 4) : Nat := 0x1000000 * (n.val + 1)

/-- Base address of block nn: region nn / 4, position nn mod 4 (R14, R31, R32). -/
def blockBase (nn : Fin 16) : Nat := 0x1000000 * (nn.val / 4 + 1) + 0x100000 + nn.val % 4 * 0x40000

/-- Base address of bus port p (R31). -/
def portBase (p : Fin 4) : Nat := regionBase p + 0x10000

/-- Base address of the queue control area of region n (R31, R335). -/
def queueCtl (n : Fin 4) : Nat := regionBase n + 0x20000

/-- Base address of queue q of region n (R335). -/
def queueBase (i : Fin 4 × Fin 64) : Nat := queueCtl i.1 + 0x1000 + i.2.val * 0x40

namespace Xbw
/-- RGNn.XBW: 01_organisation.md R28. -/
def addr (i : Fin 4) : Nat := regionBase i + 0x40
/-- RGNn.XBW.W0 (LIVE). -/
def W0 : RF (Fin 4) := ⟨addr, 0, 4⟩
/-- RGNn.XBW.W1 (LIVE). -/
def W1 : RF (Fin 4) := ⟨addr, 4, 4⟩
/-- RGNn.XBW.W2 (LIVE). -/
def W2 : RF (Fin 4) := ⟨addr, 8, 4⟩
/-- RGNn.XBW.W3 (LIVE). -/
def W3 : RF (Fin 4) := ⟨addr, 12, 4⟩
/-- The whole register RGNn.XBW. -/
def word : RF (Fin 4) := ⟨addr, 0, 32⟩
end Xbw

namespace VbV
/-- CHIP.VB.BKnn.Vv: 01_organisation.md R33. -/
def addr (i : Fin 16 × Fin 16) : Nat := 0x40000 + i.1.val * 0x40 + i.2.val * 4
/-- CHIP.VB.BKnn.Vv.VAL (LIVE). -/
def VAL : RF (Fin 16 × Fin 16) := ⟨addr, 0, 20⟩
/-- The whole register CHIP.VB.BKnn.Vv. -/
def word : RF (Fin 16 × Fin 16) := ⟨addr, 0, 32⟩
end VbV

namespace VbSeq
/-- CHIP.VB.BKnn.SEQ: 01_organisation.md R33. -/
def addr (i : Fin 16) : Nat := 0x40400 + i.val * 4
/-- CHIP.VB.BKnn.SEQ.SEQ (LIVE). -/
def SEQ : RF (Fin 16) := ⟨addr, 0, 16⟩
/-- The whole register CHIP.VB.BKnn.SEQ. -/
def word : RF (Fin 16) := ⟨addr, 0, 32⟩
end VbSeq

namespace VbFmt
/-- CHIP.VB.BKnn.FMT: 01_organisation.md R33. -/
def addr (i : Fin 16) : Nat := 0x40440 + i.val * 4
/-- CHIP.VB.BKnn.FMT.SIGNED (LIVE). -/
def SIGNED : RF (Fin 16) := ⟨addr, 0, 16⟩
/-- CHIP.VB.BKnn.FMT.PAIRS (LIVE). -/
def PAIRS : RF (Fin 16) := ⟨addr, 16, 8⟩
/-- The whole register CHIP.VB.BKnn.FMT. -/
def word : RF (Fin 16) := ⟨addr, 0, 32⟩
end VbFmt

namespace ChipId
/-- CHIP.ID: 01_organisation.md R34. -/
def addr (_i : Unit) : Nat := 0x0
/-- CHIP.ID.MEMBER (LIVE). -/
def MEMBER : RF (Unit) := ⟨addr, 0, 8⟩
/-- CHIP.ID.REGIONS (LIVE). -/
def REGIONS : RF (Unit) := ⟨addr, 8, 4⟩
/-- CHIP.ID.BLOCKS (LIVE). -/
def BLOCKS : RF (Unit) := ⟨addr, 12, 4⟩
/-- CHIP.ID.DOMAINS (LIVE). -/
def DOMAINS : RF (Unit) := ⟨addr, 16, 4⟩
/-- CHIP.ID.HWREV (LIVE). -/
def HWREV : RF (Unit) := ⟨addr, 20, 4⟩
/-- CHIP.ID.FAMILY (LIVE). -/
def FAMILY : RF (Unit) := ⟨addr, 24, 8⟩
/-- The whole register CHIP.ID. -/
def word : RF (Unit) := ⟨addr, 0, 32⟩
end ChipId

namespace ChipMode
/-- CHIP.MODE: 01_organisation.md R34. -/
def addr (_i : Unit) : Nat := 0x4
/-- CHIP.MODE.LEGACY (CFG). -/
def LEGACY : RF (Unit) := ⟨addr, 0, 1⟩
/-- CHIP.MODE.HEAT (CFG). -/
def HEAT : RF (Unit) := ⟨addr, 1, 1⟩
/-- CHIP.MODE.HEAT_ACT (LIVE). -/
def HEAT_ACT : RF (Unit) := ⟨addr, 2, 1⟩
/-- CHIP.MODE.HEAT_REFUSED (W1C). -/
def HEAT_REFUSED : RF (Unit) := ⟨addr, 3, 1⟩
/-- The whole register CHIP.MODE. -/
def word : RF (Unit) := ⟨addr, 0, 32⟩
end ChipMode

namespace UidLo
/-- CHIP.UID_LO: 01_organisation.md R34. -/
def addr (_i : Unit) : Nat := 0x8
/-- CHIP.UID_LO.UID (LIVE). -/
def UID : RF (Unit) := ⟨addr, 0, 32⟩
/-- The whole register CHIP.UID_LO. -/
def word : RF (Unit) := ⟨addr, 0, 32⟩
end UidLo

namespace UidHi
/-- CHIP.UID_HI: 01_organisation.md R34. -/
def addr (_i : Unit) : Nat := 0xc
/-- CHIP.UID_HI.UID (LIVE). -/
def UID : RF (Unit) := ⟨addr, 0, 32⟩
/-- The whole register CHIP.UID_HI. -/
def word : RF (Unit) := ⟨addr, 0, 32⟩
end UidHi

namespace Strap
/-- CHIP.STRAP: 02_pins_and_package.md R56. -/
def addr (_i : Unit) : Nat := 0x10
/-- CHIP.STRAP.CD_SEL (LIVE). -/
def CD_SEL : RF (Unit) := ⟨addr, 0, 1⟩
/-- CHIP.STRAP.SHP_PRIV (LIVE). -/
def SHP_PRIV : RF (Unit) := ⟨addr, 1, 1⟩
/-- CHIP.STRAP.BOOT_SRC (LIVE). -/
def BOOT_SRC : RF (Unit) := ⟨addr, 2, 2⟩
/-- CHIP.STRAP.LEGACY_EN (LIVE). -/
def LEGACY_EN : RF (Unit) := ⟨addr, 4, 1⟩
/-- CHIP.STRAP.CHANGED (W1C). -/
def CHANGED : RF (Unit) := ⟨addr, 8, 1⟩
/-- The whole register CHIP.STRAP. -/
def word : RF (Unit) := ⟨addr, 0, 32⟩
end Strap

namespace BankV
/-- CHIP.BANKV: 02_pins_and_package.md R50. -/
def addr (_i : Unit) : Nat := 0x14
/-- CHIP.BANKV.S_3V3 (LIVE). -/
def S_3V3 : RF (Unit) := ⟨addr, 0, 4⟩
/-- CHIP.BANKV.H_3V3 (LIVE). -/
def H_3V3 : RF (Unit) := ⟨addr, 4, 1⟩
/-- CHIP.BANKV.S_GOOD (LIVE). -/
def S_GOOD : RF (Unit) := ⟨addr, 16, 4⟩
/-- CHIP.BANKV.G_GOOD (LIVE). -/
def G_GOOD : RF (Unit) := ⟨addr, 20, 4⟩
/-- CHIP.BANKV.H_GOOD (LIVE). -/
def H_GOOD : RF (Unit) := ⟨addr, 24, 1⟩
/-- CHIP.BANKV.C_GOOD (LIVE). -/
def C_GOOD : RF (Unit) := ⟨addr, 25, 1⟩
/-- The whole register CHIP.BANKV. -/
def word : RF (Unit) := ⟨addr, 0, 32⟩
end BankV

namespace RstCause
/-- CHIP.RSTCAUSE: 03_clocks_reset_startup.md R75. -/
def addr (_i : Unit) : Nat := 0x18
/-- CHIP.RSTCAUSE.POR (W1C). -/
def POR : RF (Unit) := ⟨addr, 0, 1⟩
/-- CHIP.RSTCAUSE.PIN (W1C). -/
def PIN : RF (Unit) := ⟨addr, 1, 1⟩
/-- CHIP.RSTCAUSE.SOFT (W1C). -/
def SOFT : RF (Unit) := ⟨addr, 2, 1⟩
/-- CHIP.RSTCAUSE.STEWARD (W1C). -/
def STEWARD : RF (Unit) := ⟨addr, 3, 1⟩
/-- CHIP.RSTCAUSE.ST_CNT (CNT). -/
def ST_CNT : RF (Unit) := ⟨addr, 8, 8⟩
/-- The whole register CHIP.RSTCAUSE. -/
def word : RF (Unit) := ⟨addr, 0, 32⟩
end RstCause

namespace Start
/-- CHIP.START: 03_clocks_reset_startup.md R83. -/
def addr (_i : Unit) : Nat := 0x1c
/-- CHIP.START.STAGE (LIVE). -/
def STAGE : RF (Unit) := ⟨addr, 0, 3⟩
/-- CHIP.START.GO (CMD). -/
def GO : RF (Unit) := ⟨addr, 3, 1⟩
/-- CHIP.START.TWIN_TRAINED (LIVE). -/
def TWIN_TRAINED : RF (Unit) := ⟨addr, 4, 1⟩
/-- CHIP.START.T_MS (LIVE). -/
def T_MS : RF (Unit) := ⟨addr, 16, 16⟩
/-- The whole register CHIP.START. -/
def word : RF (Unit) := ⟨addr, 0, 32⟩
end Start

namespace ClkStat
/-- CHIP.CLKSTAT: 03_clocks_reset_startup.md R70. -/
def addr (_i : Unit) : Nat := 0x20
/-- CHIP.CLKSTAT.PLL_LOCK (LIVE). -/
def PLL_LOCK : RF (Unit) := ⟨addr, 0, 1⟩
/-- CHIP.CLKSTAT.REFCLK_OK (LIVE). -/
def REFCLK_OK : RF (Unit) := ⟨addr, 1, 1⟩
/-- CHIP.CLKSTAT.REFCLK_LOSS (W1C). -/
def REFCLK_LOSS : RF (Unit) := ⟨addr, 2, 1⟩
/-- CHIP.CLKSTAT.PLL_UNLOCK (W1C). -/
def PLL_UNLOCK : RF (Unit) := ⟨addr, 3, 1⟩
/-- CHIP.CLKSTAT.LOSS_CNT (CNT). -/
def LOSS_CNT : RF (Unit) := ⟨addr, 8, 8⟩
/-- The whole register CHIP.CLKSTAT. -/
def word : RF (Unit) := ⟨addr, 0, 32⟩
end ClkStat

namespace SwRst
/-- CHIP.SWRST: 03_clocks_reset_startup.md R73. -/
def addr (_i : Unit) : Nat := 0x70040
/-- CHIP.SWRST.KEY (CFG). -/
def KEY : RF (Unit) := ⟨addr, 0, 16⟩
/-- CHIP.SWRST.GO (CMD). -/
def GO : RF (Unit) := ⟨addr, 16, 1⟩
/-- The whole register CHIP.SWRST. -/
def word : RF (Unit) := ⟨addr, 0, 32⟩
end SwRst

namespace MclkCfg
/-- RGNn.MCLKCFG: 03_clocks_reset_startup.md R68. -/
def addr (i : Fin 4) : Nat := regionBase i + 0x50
/-- RGNn.MCLKCFG.MDIV0 (LIVE). -/
def MDIV0 : RF (Fin 4) := ⟨addr, 0, 7⟩
/-- RGNn.MCLKCFG.DIR0 (LIVE). -/
def DIR0 : RF (Fin 4) := ⟨addr, 7, 1⟩
/-- RGNn.MCLKCFG.MDIV1 (LIVE). -/
def MDIV1 : RF (Fin 4) := ⟨addr, 8, 7⟩
/-- RGNn.MCLKCFG.DIR1 (LIVE). -/
def DIR1 : RF (Fin 4) := ⟨addr, 15, 1⟩
/-- The whole register RGNn.MCLKCFG. -/
def word : RF (Fin 4) := ⟨addr, 0, 32⟩
end MclkCfg

namespace MclkStat
/-- RGNn.MCLKSTAT: 03_clocks_reset_startup.md R68. -/
def addr (i : Fin 4) : Nat := regionBase i + 0x54
/-- RGNn.MCLKSTAT.LOSS0 (W1C). -/
def LOSS0 : RF (Fin 4) := ⟨addr, 0, 1⟩
/-- RGNn.MCLKSTAT.RANGE0 (W1C). -/
def RANGE0 : RF (Fin 4) := ⟨addr, 1, 1⟩
/-- RGNn.MCLKSTAT.LOSS1 (W1C). -/
def LOSS1 : RF (Fin 4) := ⟨addr, 2, 1⟩
/-- RGNn.MCLKSTAT.RANGE1 (W1C). -/
def RANGE1 : RF (Fin 4) := ⟨addr, 3, 1⟩
/-- RGNn.MCLKSTAT.BAD0 (LIVE). -/
def BAD0 : RF (Fin 4) := ⟨addr, 4, 1⟩
/-- RGNn.MCLKSTAT.BAD1 (LIVE). -/
def BAD1 : RF (Fin 4) := ⟨addr, 5, 1⟩
/-- The whole register RGNn.MCLKSTAT. -/
def word : RF (Fin 4) := ⟨addr, 0, 32⟩
end MclkStat

namespace Mcnt
/-- RGNn.MCNT0, RGNn.MCNT1: 07_sensing.md R193. -/
def addr (i : Fin 4 × Fin 2) : Nat := regionBase i.1 + 0x58 + i.2.val * 4
/-- RGNn.MCNT0, RGNn.MCNT1.CNT (LIVE). -/
def CNT : RF (Fin 4 × Fin 2) := ⟨addr, 0, 32⟩
/-- The whole register RGNn.MCNT0, RGNn.MCNT1. -/
def word : RF (Fin 4 × Fin 2) := ⟨addr, 0, 32⟩
end Mcnt

namespace BkCtl
/-- BKnn.CTL: 03_clocks_reset_startup.md R88. -/
def addr (i : Fin 16) : Nat := blockBase i + 0x0
/-- BKnn.CTL.ARM (CMD). -/
def ARM : RF (Fin 16) := ⟨addr, 0, 1⟩
/-- BKnn.CTL.RUN (CMD). -/
def RUN : RF (Fin 16) := ⟨addr, 1, 1⟩
/-- BKnn.CTL.STOP (CMD). -/
def STOP : RF (Fin 16) := ⟨addr, 2, 1⟩
/-- BKnn.CTL.DISARM (CMD). -/
def DISARM : RF (Fin 16) := ⟨addr, 3, 1⟩
/-- BKnn.CTL.RESET (CMD). -/
def RESET : RF (Fin 16) := ⟨addr, 4, 1⟩
/-- The whole register BKnn.CTL. -/
def word : RF (Fin 16) := ⟨addr, 0, 32⟩
end BkCtl

namespace BkStat
/-- BKnn.STAT: 03_clocks_reset_startup.md R88. -/
def addr (i : Fin 16) : Nat := blockBase i + 0x4
/-- BKnn.STAT.STATE (LIVE). -/
def STATE : RF (Fin 16) := ⟨addr, 0, 3⟩
/-- BKnn.STAT.REFUSED (W1C). -/
def REFUSED : RF (Fin 16) := ⟨addr, 3, 1⟩
/-- BKnn.STAT.REASON (LIVE). -/
def REASON : RF (Fin 16) := ⟨addr, 4, 3⟩
/-- BKnn.STAT.PENDING (LIVE). -/
def PENDING : RF (Fin 16) := ⟨addr, 7, 1⟩
/-- BKnn.STAT.REPOUR (LIVE). -/
def REPOUR : RF (Fin 16) := ⟨addr, 8, 1⟩
/-- BKnn.STAT.QLATCH (LIVE). -/
def QLATCH : RF (Fin 16) := ⟨addr, 9, 1⟩
/-- BKnn.STAT.BANK (LIVE). -/
def BANK : RF (Fin 16) := ⟨addr, 10, 1⟩
/-- BKnn.STAT.CYC (LIVE). -/
def CYC : RF (Fin 16) := ⟨addr, 16, 16⟩
/-- The whole register BKnn.STAT. -/
def word : RF (Fin 16) := ⟨addr, 0, 32⟩
end BkStat

namespace HostErr
/-- CHIP.HOSTERR: 04_register_model.md R110. -/
def addr (_i : Unit) : Nat := 0x30
/-- CHIP.HOSTERR.PRIV (CNT). -/
def PRIV : RF (Unit) := ⟨addr, 0, 8⟩
/-- CHIP.HOSTERR.NARROW (CNT). -/
def NARROW : RF (Unit) := ⟨addr, 8, 8⟩
/-- CHIP.HOSTERR.FORM (CNT). -/
def FORM : RF (Unit) := ⟨addr, 16, 8⟩
/-- CHIP.HOSTERR.RSVA (CNT). -/
def RSVA : RF (Unit) := ⟨addr, 24, 8⟩
/-- The whole register CHIP.HOSTERR. -/
def word : RF (Unit) := ⟨addr, 0, 32⟩
end HostErr

namespace HostErrAddr
/-- CHIP.HOSTERR_ADDR: 04_register_model.md R110. -/
def addr (_i : Unit) : Nat := 0x34
/-- CHIP.HOSTERR_ADDR.ADDR (LIVE). -/
def ADDR : RF (Unit) := ⟨addr, 0, 27⟩
/-- The whole register CHIP.HOSTERR_ADDR. -/
def word : RF (Unit) := ⟨addr, 0, 32⟩
end HostErrAddr

namespace HostErrInfo
/-- CHIP.HOSTERR_INFO: 04_register_model.md R110. -/
def addr (_i : Unit) : Nat := 0x38
/-- CHIP.HOSTERR_INFO.MASTER (LIVE). -/
def MASTER : RF (Unit) := ⟨addr, 0, 3⟩
/-- CHIP.HOSTERR_INFO.WRITE (LIVE). -/
def WRITE : RF (Unit) := ⟨addr, 3, 1⟩
/-- CHIP.HOSTERR_INFO.KIND (LIVE). -/
def KIND : RF (Unit) := ⟨addr, 4, 3⟩
/-- CHIP.HOSTERR_INFO.BE (LIVE). -/
def BE : RF (Unit) := ⟨addr, 8, 4⟩
/-- CHIP.HOSTERR_INFO.VALID (W1C). -/
def VALID : RF (Unit) := ⟨addr, 31, 1⟩
/-- The whole register CHIP.HOSTERR_INFO. -/
def word : RF (Unit) := ⟨addr, 0, 32⟩
end HostErrInfo

namespace BkType
/-- BKnn.TYPE: 05_pattern_and_runner.md R124. -/
def addr (i : Fin 16) : Nat := blockBase i + 0x8
/-- BKnn.TYPE.TYPE (LIVE). -/
def TYPE : RF (Fin 16) := ⟨addr, 0, 2⟩
/-- BKnn.TYPE.ASHORT (LIVE). -/
def ASHORT : RF (Fin 16) := ⟨addr, 2, 1⟩
/-- BKnn.TYPE.BANKB (LIVE). -/
def BANKB : RF (Fin 16) := ⟨addr, 3, 1⟩
/-- The whole register BKnn.TYPE. -/
def word : RF (Fin 16) := ⟨addr, 0, 32⟩
end BkType

namespace RmStat
/-- RGNn.RMSTAT: 05_pattern_and_runner.md R127. -/
def addr (i : Fin 4) : Nat := regionBase i + 0x60
/-- RGNn.RMSTAT.CE (CNT). -/
def CE : RF (Fin 4) := ⟨addr, 0, 8⟩
/-- RGNn.RMSTAT.UE (CNT). -/
def UE : RF (Fin 4) := ⟨addr, 8, 8⟩
/-- RGNn.RMSTAT.IGNWR (CNT). -/
def IGNWR : RF (Fin 4) := ⟨addr, 16, 8⟩
/-- RGNn.RMSTAT.UE_B (W1C). -/
def UE_B : RF (Fin 4) := ⟨addr, 24, 4⟩
/-- The whole register RGNn.RMSTAT. -/
def word : RF (Fin 4) := ⟨addr, 0, 32⟩
end RmStat

namespace PatCtl
/-- CHIP.PATCTL: 05_pattern_and_runner.md R152. -/
def addr (_i : Unit) : Nat := 0x100
/-- CHIP.PATCTL.LOAD (CMD). -/
def LOAD : RF (Unit) := ⟨addr, 0, 1⟩
/-- CHIP.PATCTL.REPOUR (CMD). -/
def REPOUR : RF (Unit) := ⟨addr, 1, 1⟩
/-- CHIP.PATCTL.SRC (CFG). -/
def SRC : RF (Unit) := ⟨addr, 2, 2⟩
/-- CHIP.PATCTL.BLOCK (CFG). -/
def BLOCK : RF (Unit) := ⟨addr, 4, 4⟩
/-- The whole register CHIP.PATCTL. -/
def word : RF (Unit) := ⟨addr, 0, 32⟩
end PatCtl

namespace PatStat
/-- CHIP.PATSTAT: 05_pattern_and_runner.md R152. -/
def addr (_i : Unit) : Nat := 0x104
/-- CHIP.PATSTAT.BUSY (LIVE). -/
def BUSY : RF (Unit) := ⟨addr, 0, 1⟩
/-- CHIP.PATSTAT.DONE (W1C). -/
def DONE : RF (Unit) := ⟨addr, 1, 1⟩
/-- CHIP.PATSTAT.FAIL (W1C). -/
def FAIL : RF (Unit) := ⟨addr, 2, 1⟩
/-- CHIP.PATSTAT.CODE (LIVE). -/
def CODE : RF (Unit) := ⟨addr, 8, 5⟩
/-- CHIP.PATSTAT.BLOCK (LIVE). -/
def BLOCK : RF (Unit) := ⟨addr, 16, 4⟩
/-- CHIP.PATSTAT.SLOT (LIVE). -/
def SLOT : RF (Unit) := ⟨addr, 20, 8⟩
/-- CHIP.PATSTAT.BANK (LIVE). -/
def BANK : RF (Unit) := ⟨addr, 28, 1⟩
/-- The whole register CHIP.PATSTAT. -/
def word : RF (Unit) := ⟨addr, 0, 32⟩
end PatStat

namespace PatDigLo
/-- CHIP.PATDIG_LO: 05_pattern_and_runner.md R152. -/
def addr (_i : Unit) : Nat := 0x108
/-- CHIP.PATDIG_LO.DIG (LIVE). -/
def DIG : RF (Unit) := ⟨addr, 0, 32⟩
/-- The whole register CHIP.PATDIG_LO. -/
def word : RF (Unit) := ⟨addr, 0, 32⟩
end PatDigLo

namespace PatDigHi
/-- CHIP.PATDIG_HI: 05_pattern_and_runner.md R152. -/
def addr (_i : Unit) : Nat := 0x10c
/-- CHIP.PATDIG_HI.DIG (LIVE). -/
def DIG : RF (Unit) := ⟨addr, 0, 32⟩
/-- The whole register CHIP.PATDIG_HI. -/
def word : RF (Unit) := ⟨addr, 0, 32⟩
end PatDigHi

namespace Rctl
/-- BKnn.RCTL: 05_pattern_and_runner.md R153. -/
def addr (i : Fin 16) : Nat := blockBase i + 0x8000
/-- BKnn.RCTL.SWAP (CMD). -/
def SWAP : RF (Fin 16) := ⟨addr, 0, 1⟩
/-- BKnn.RCTL.TARGET (CFG). -/
def TARGET : RF (Fin 16) := ⟨addr, 1, 1⟩
/-- BKnn.RCTL.TRIG_EN (CFG). -/
def TRIG_EN : RF (Fin 16) := ⟨addr, 2, 1⟩
/-- BKnn.RCTL.LCLR (CMD). -/
def LCLR : RF (Fin 16) := ⟨addr, 3, 1⟩
/-- The whole register BKnn.RCTL. -/
def word : RF (Fin 16) := ⟨addr, 0, 32⟩
end Rctl

namespace Rstat
/-- BKnn.RSTAT: 05_pattern_and_runner.md R153. -/
def addr (i : Fin 16) : Nat := blockBase i + 0x8004
/-- BKnn.RSTAT.BANK (LIVE). -/
def BANK : RF (Fin 16) := ⟨addr, 0, 1⟩
/-- BKnn.RSTAT.SWAP_PEND (LIVE). -/
def SWAP_PEND : RF (Fin 16) := ⟨addr, 1, 1⟩
/-- BKnn.RSTAT.PEND_TGT (LIVE). -/
def PEND_TGT : RF (Fin 16) := ⟨addr, 2, 1⟩
/-- BKnn.RSTAT.LAST_SRC (LIVE). -/
def LAST_SRC : RF (Fin 16) := ⟨addr, 3, 2⟩
/-- BKnn.RSTAT.SWAP_REF (W1C). -/
def SWAP_REF : RF (Fin 16) := ⟨addr, 5, 1⟩
/-- BKnn.RSTAT.MEMERR (W1C). -/
def MEMERR : RF (Fin 16) := ⟨addr, 6, 1⟩
/-- BKnn.RSTAT.SLOT (LIVE). -/
def SLOT : RF (Fin 16) := ⟨addr, 8, 8⟩
/-- BKnn.RSTAT.WAIT (LIVE). -/
def WAIT : RF (Fin 16) := ⟨addr, 16, 1⟩
/-- The whole register BKnn.RSTAT. -/
def word : RF (Fin 16) := ⟨addr, 0, 32⟩
end Rstat

namespace Rcnt
/-- BKnn.RCNT: 05_pattern_and_runner.md R153. -/
def addr (i : Fin 16) : Nat := blockBase i + 0x8008
/-- BKnn.RCNT.DROP (CNT). -/
def DROP : RF (Fin 16) := ⟨addr, 0, 16⟩
/-- BKnn.RCNT.SWAP (CNT). -/
def SWAP : RF (Fin 16) := ⟨addr, 16, 16⟩
/-- The whole register BKnn.RCNT. -/
def word : RF (Fin 16) := ⟨addr, 0, 32⟩
end Rcnt

namespace Rphase
/-- BKnn.RPHASE: 05_pattern_and_runner.md R153. -/
def addr (i : Fin 16) : Nat := blockBase i + 0x800c
/-- BKnn.RPHASE.PHASE (LIVE). -/
def PHASE : RF (Fin 16) := ⟨addr, 0, 20⟩
/-- The whole register BKnn.RPHASE. -/
def word : RF (Fin 16) := ⟨addr, 0, 32⟩
end Rphase

namespace Rlate
/-- BKnn.RLATE: 05_pattern_and_runner.md R153. -/
def addr (i : Fin 16) : Nat := blockBase i + 0x8010
/-- BKnn.RLATE.MAXLATE (LIVE). -/
def MAXLATE : RF (Fin 16) := ⟨addr, 0, 20⟩
/-- The whole register BKnn.RLATE. -/
def word : RF (Fin 16) := ⟨addr, 0, 32⟩
end Rlate

namespace PdCfg
/-- PDk.CFG: 06_phase_domains.md R179. -/
def addr (i : Fin 8) : Nat := 0x30000 + i.val * 0x100 + 0x0
/-- PDk.CFG.SRC (LIVE). -/
def SRC : RF (Fin 8) := ⟨addr, 0, 3⟩
/-- PDk.CFG.SEL (LIVE). -/
def SEL : RF (Fin 8) := ⟨addr, 4, 4⟩
/-- PDk.CFG.ASRC (LIVE). -/
def ASRC : RF (Fin 8) := ⟨addr, 8, 3⟩
/-- PDk.CFG.ASEL (LIVE). -/
def ASEL : RF (Fin 8) := ⟨addr, 12, 4⟩
/-- PDk.CFG.VPAIR (LIVE). -/
def VPAIR : RF (Fin 8) := ⟨addr, 16, 3⟩
/-- PDk.CFG.AVPAIR (LIVE). -/
def AVPAIR : RF (Fin 8) := ⟨addr, 19, 3⟩
/-- PDk.CFG.AUTO (LIVE). -/
def AUTO : RF (Fin 8) := ⟨addr, 22, 1⟩
/-- PDk.CFG.ALIGN (LIVE). -/
def ALIGN : RF (Fin 8) := ⟨addr, 23, 1⟩
/-- PDk.CFG.TMO (LIVE). -/
def TMO : RF (Fin 8) := ⟨addr, 24, 8⟩
/-- The whole register PDk.CFG. -/
def word : RF (Fin 8) := ⟨addr, 0, 32⟩
end PdCfg

namespace PdScale
/-- PDk.SCALE: 06_phase_domains.md R179. -/
def addr (i : Fin 8) : Nat := 0x30000 + i.val * 0x100 + 0x4
/-- PDk.SCALE.SCALE (LIVE). -/
def SCALE : RF (Fin 8) := ⟨addr, 0, 32⟩
/-- The whole register PDk.SCALE. -/
def word : RF (Fin 8) := ⟨addr, 0, 32⟩
end PdScale

namespace PdAscale
/-- PDk.ASCALE: 06_phase_domains.md R179. -/
def addr (i : Fin 8) : Nat := 0x30000 + i.val * 0x100 + 0x8
/-- PDk.ASCALE.SCALE (LIVE). -/
def SCALE : RF (Fin 8) := ⟨addr, 0, 32⟩
/-- The whole register PDk.ASCALE. -/
def word : RF (Fin 8) := ⟨addr, 0, 32⟩
end PdAscale

namespace PdPhi
/-- PDk.PHI: 06_phase_domains.md R179. -/
def addr (i : Fin 8) : Nat := 0x30000 + i.val * 0x100 + 0xc
/-- PDk.PHI.PHI (LIVE). -/
def PHI : RF (Fin 8) := ⟨addr, 0, 20⟩
/-- The whole register PDk.PHI. -/
def word : RF (Fin 8) := ⟨addr, 0, 32⟩
end PdPhi

namespace PdPlo
/-- PDk.PLO: 06_phase_domains.md R179. -/
def addr (i : Fin 8) : Nat := 0x30000 + i.val * 0x100 + 0x10
/-- PDk.PLO.PLO (LIVE). -/
def PLO : RF (Fin 8) := ⟨addr, 0, 20⟩
/-- The whole register PDk.PLO. -/
def word : RF (Fin 8) := ⟨addr, 0, 32⟩
end PdPlo

namespace PdRate
/-- PDk.RATE: 06_phase_domains.md R179. -/
def addr (i : Fin 8) : Nat := 0x30000 + i.val * 0x100 + 0x14
/-- PDk.RATE.RATE (LIVE). -/
def RATE : RF (Fin 8) := ⟨addr, 0, 32⟩
/-- The whole register PDk.RATE. -/
def word : RF (Fin 8) := ⟨addr, 0, 32⟩
end PdRate

namespace PdStat
/-- PDk.STAT: 06_phase_domains.md R179. -/
def addr (i : Fin 8) : Nat := 0x30000 + i.val * 0x100 + 0x18
/-- PDk.STAT.VALID (LIVE). -/
def VALID : RF (Fin 8) := ⟨addr, 0, 1⟩
/-- PDk.STAT.ALT (LIVE). -/
def ALT : RF (Fin 8) := ⟨addr, 1, 1⟩
/-- PDk.STAT.DIR (LIVE). -/
def DIR : RF (Fin 8) := ⟨addr, 2, 1⟩
/-- PDk.STAT.SLEW (LIVE). -/
def SLEW : RF (Fin 8) := ⟨addr, 3, 1⟩
/-- PDk.STAT.INV_SEEN (W1C). -/
def INV_SEEN : RF (Fin 8) := ⟨addr, 4, 1⟩
/-- PDk.STAT.AUTOSW (W1C). -/
def AUTOSW : RF (Fin 8) := ⟨addr, 5, 1⟩
/-- PDk.STAT.SW_REF (W1C). -/
def SW_REF : RF (Fin 8) := ⟨addr, 6, 1⟩
/-- PDk.STAT.INV_CNT (CNT). -/
def INV_CNT : RF (Fin 8) := ⟨addr, 8, 8⟩
/-- The whole register PDk.STAT. -/
def word : RF (Fin 8) := ⟨addr, 0, 32⟩
end PdStat

namespace PdCtl
/-- PDk.CTL: 06_phase_domains.md R179. -/
def addr (i : Fin 8) : Nat := 0x30000 + i.val * 0x100 + 0x1c
/-- PDk.CTL.SWITCH (CMD). -/
def SWITCH : RF (Fin 8) := ⟨addr, 0, 1⟩
/-- The whole register PDk.CTL. -/
def word : RF (Fin 8) := ⟨addr, 0, 32⟩
end PdCtl

namespace PdOfs
/-- PDk.OFS: 06_phase_domains.md R179. -/
def addr (i : Fin 8) : Nat := 0x30000 + i.val * 0x100 + 0x20
/-- PDk.OFS.OFS (LIVE). -/
def OFS : RF (Fin 8) := ⟨addr, 0, 20⟩
/-- The whole register PDk.OFS. -/
def word : RF (Fin 8) := ⟨addr, 0, 32⟩
end PdOfs

namespace Pstat
/-- BKnn.PSTAT: 06_phase_domains.md R180. -/
def addr (i : Fin 16) : Nat := blockBase i + 0x10
/-- BKnn.PSTAT.OVS (LIVE). -/
def OVS : RF (Fin 16) := ⟨addr, 0, 1⟩
/-- BKnn.PSTAT.STALL (LIVE). -/
def STALL : RF (Fin 16) := ⟨addr, 1, 1⟩
/-- BKnn.PSTAT.HOLD (LIVE). -/
def HOLD : RF (Fin 16) := ⟨addr, 2, 1⟩
/-- BKnn.PSTAT.MISSRUN (LIVE). -/
def MISSRUN : RF (Fin 16) := ⟨addr, 3, 2⟩
/-- BKnn.PSTAT.OVS_SEEN (W1C). -/
def OVS_SEEN : RF (Fin 16) := ⟨addr, 5, 1⟩
/-- BKnn.PSTAT.MISS_SEEN (W1C). -/
def MISS_SEEN : RF (Fin 16) := ⟨addr, 6, 1⟩
/-- BKnn.PSTAT.STALL_SEEN (W1C). -/
def STALL_SEEN : RF (Fin 16) := ⟨addr, 7, 1⟩
/-- BKnn.PSTAT.RECOV_SEEN (W1C). -/
def RECOV_SEEN : RF (Fin 16) := ⟨addr, 8, 1⟩
/-- BKnn.PSTAT.MISS (CNT). -/
def MISS : RF (Fin 16) := ⟨addr, 16, 16⟩
/-- The whole register BKnn.PSTAT. -/
def word : RF (Fin 16) := ⟨addr, 0, 32⟩
end Pstat

namespace Csync
/-- BKnn.CSYNC: 06_phase_domains.md R180. -/
def addr (i : Fin 16) : Nat := blockBase i + 0x14
/-- BKnn.CSYNC.N (LIVE). -/
def N : RF (Fin 16) := ⟨addr, 0, 10⟩
/-- BKnn.CSYNC.EN (LIVE). -/
def EN : RF (Fin 16) := ⟨addr, 10, 1⟩
/-- BKnn.CSYNC.LOCKED (LIVE). -/
def LOCKED : RF (Fin 16) := ⟨addr, 11, 1⟩
/-- BKnn.CSYNC.UNLOCK_SEEN (W1C). -/
def UNLOCK_SEEN : RF (Fin 16) := ⟨addr, 12, 1⟩
/-- BKnn.CSYNC.ERR (LIVE). -/
def ERR : RF (Fin 16) := ⟨addr, 16, 16⟩
/-- The whole register BKnn.CSYNC. -/
def word : RF (Fin 16) := ⟨addr, 0, 32⟩
end Csync

namespace CsyncF
/-- BKnn.CSYNC_F: 06_phase_domains.md R180. -/
def addr (i : Fin 16) : Nat := blockBase i + 0x18
/-- BKnn.CSYNC_F.FLOCK (LIVE). -/
def FLOCK : RF (Fin 16) := ⟨addr, 0, 20⟩
/-- The whole register BKnn.CSYNC_F. -/
def word : RF (Fin 16) := ⟨addr, 0, 32⟩
end CsyncF

namespace FcCfg
/-- FCf.CFG: 07_sensing.md R192. -/
def addr (i : Fin 16 × Fin 4) : Nat := blockBase i.1 + 0x2000 + i.2.val * 0x400 + 0x0
/-- FCf.CFG.OSR (LIVE). -/
def OSR : RF (Fin 16 × Fin 4) := ⟨addr, 0, 9⟩
/-- FCf.CFG.FOSR (LIVE). -/
def FOSR : RF (Fin 16 × Fin 4) := ⟨addr, 9, 6⟩
/-- FCf.CFG.MSEL (LIVE). -/
def MSEL : RF (Fin 16 × Fin 4) := ⟨addr, 15, 1⟩
/-- FCf.CFG.MODE (LIVE). -/
def MODE : RF (Fin 16 × Fin 4) := ⟨addr, 16, 2⟩
/-- FCf.CFG.FQUAL (LIVE). -/
def FQUAL : RF (Fin 16 × Fin 4) := ⟨addr, 18, 2⟩
/-- FCf.CFG.CLKACT (LIVE). -/
def CLKACT : RF (Fin 16 × Fin 4) := ⟨addr, 20, 1⟩
/-- FCf.CFG.SPFAIL (LIVE). -/
def SPFAIL : RF (Fin 16 × Fin 4) := ⟨addr, 21, 1⟩
/-- FCf.CFG.QHI (LIVE). -/
def QHI : RF (Fin 16 × Fin 4) := ⟨addr, 22, 1⟩
/-- FCf.CFG.QLO (LIVE). -/
def QLO : RF (Fin 16 × Fin 4) := ⟨addr, 23, 1⟩
/-- The whole register FCf.CFG. -/
def word : RF (Fin 16 × Fin 4) := ⟨addr, 0, 32⟩
end FcCfg

namespace FcThrHi
/-- FCf.THRHI: 07_sensing.md R192. -/
def addr (i : Fin 16 × Fin 4) : Nat := blockBase i.1 + 0x2000 + i.2.val * 0x400 + 0x4
/-- FCf.THRHI.V (LIVE). -/
def V : RF (Fin 16 × Fin 4) := ⟨addr, 0, 20⟩
/-- The whole register FCf.THRHI. -/
def word : RF (Fin 16 × Fin 4) := ⟨addr, 0, 32⟩
end FcThrHi

namespace FcThrLo
/-- FCf.THRLO: 07_sensing.md R192. -/
def addr (i : Fin 16 × Fin 4) : Nat := blockBase i.1 + 0x2000 + i.2.val * 0x400 + 0x8
/-- FCf.THRLO.V (LIVE). -/
def V : RF (Fin 16 × Fin 4) := ⟨addr, 0, 20⟩
/-- The whole register FCf.THRLO. -/
def word : RF (Fin 16 × Fin 4) := ⟨addr, 0, 32⟩
end FcThrLo

namespace FcHys
/-- FCf.HYS: 07_sensing.md R192. -/
def addr (i : Fin 16 × Fin 4) : Nat := blockBase i.1 + 0x2000 + i.2.val * 0x400 + 0xc
/-- FCf.HYS.V (LIVE). -/
def V : RF (Fin 16 × Fin 4) := ⟨addr, 0, 20⟩
/-- The whole register FCf.HYS. -/
def word : RF (Fin 16 × Fin 4) := ⟨addr, 0, 32⟩
end FcHys

namespace FcRes
/-- FCf.RES: 07_sensing.md R192. -/
def addr (i : Fin 16 × Fin 4) : Nat := blockBase i.1 + 0x2000 + i.2.val * 0x400 + 0x10
/-- FCf.RES.V (LIVE). -/
def V : RF (Fin 16 × Fin 4) := ⟨addr, 0, 20⟩
/-- The whole register FCf.RES. -/
def word : RF (Fin 16 × Fin 4) := ⟨addr, 0, 32⟩
end FcRes

namespace FcFres
/-- FCf.FRES: 07_sensing.md R192. -/
def addr (i : Fin 16 × Fin 4) : Nat := blockBase i.1 + 0x2000 + i.2.val * 0x400 + 0x14
/-- FCf.FRES.V (LIVE). -/
def V : RF (Fin 16 × Fin 4) := ⟨addr, 0, 20⟩
/-- The whole register FCf.FRES. -/
def word : RF (Fin 16 × Fin 4) := ⟨addr, 0, 32⟩
end FcFres

namespace FcStat
/-- FCf.STAT: 07_sensing.md R192. -/
def addr (i : Fin 16 × Fin 4) : Nat := blockBase i.1 + 0x2000 + i.2.val * 0x400 + 0x18
/-- FCf.STAT.VALID (LIVE). -/
def VALID : RF (Fin 16 × Fin 4) := ⟨addr, 0, 1⟩
/-- FCf.STAT.CMPHI (LIVE). -/
def CMPHI : RF (Fin 16 × Fin 4) := ⟨addr, 1, 1⟩
/-- FCf.STAT.CMPLO (LIVE). -/
def CMPLO : RF (Fin 16 × Fin 4) := ⟨addr, 2, 1⟩
/-- FCf.STAT.BSTK (LIVE). -/
def BSTK : RF (Fin 16 × Fin 4) := ⟨addr, 3, 1⟩
/-- FCf.STAT.HI_SEEN (W1C). -/
def HI_SEEN : RF (Fin 16 × Fin 4) := ⟨addr, 4, 1⟩
/-- FCf.STAT.LO_SEEN (W1C). -/
def LO_SEEN : RF (Fin 16 × Fin 4) := ⟨addr, 5, 1⟩
/-- FCf.STAT.INVAL_SEEN (W1C). -/
def INVAL_SEEN : RF (Fin 16 × Fin 4) := ⟨addr, 6, 1⟩
/-- FCf.STAT.STUCK (W1C). -/
def STUCK : RF (Fin 16 × Fin 4) := ⟨addr, 7, 1⟩
/-- FCf.STAT.CHATTER (W1C). -/
def CHATTER : RF (Fin 16 × Fin 4) := ⟨addr, 8, 1⟩
/-- FCf.STAT.HICNT (CNT). -/
def HICNT : RF (Fin 16 × Fin 4) := ⟨addr, 16, 8⟩
/-- FCf.STAT.LOCNT (CNT). -/
def LOCNT : RF (Fin 16 × Fin 4) := ⟨addr, 24, 8⟩
/-- The whole register FCf.STAT. -/
def word : RF (Fin 16 × Fin 4) := ⟨addr, 0, 32⟩
end FcStat

namespace EcCfg
/-- EC.CFG: 07_sensing.md R206. -/
def addr (i : Fin 16) : Nat := blockBase i + 0x3000
/-- EC.CFG.MODE (LIVE). -/
def MODE : RF (Fin 16) := ⟨addr, 0, 2⟩
/-- EC.CFG.FLT (LIVE). -/
def FLT : RF (Fin 16) := ⟨addr, 2, 4⟩
/-- EC.CFG.CSHIFT (LIVE). -/
def CSHIFT : RF (Fin 16) := ⟨addr, 6, 5⟩
/-- EC.CFG.ZMODE (LIVE). -/
def ZMODE : RF (Fin 16) := ⟨addr, 11, 1⟩
/-- EC.CFG.DIRINV (LIVE). -/
def DIRINV : RF (Fin 16) := ⟨addr, 12, 1⟩
/-- EC.CFG.GRAY (LIVE). -/
def GRAY : RF (Fin 16) := ⟨addr, 13, 1⟩
/-- EC.CFG.SBITS (LIVE). -/
def SBITS : RF (Fin 16) := ⟨addr, 14, 6⟩
/-- EC.CFG.SFRAC (LIVE). -/
def SFRAC : RF (Fin 16) := ⟨addr, 20, 5⟩
/-- The whole register EC.CFG. -/
def word : RF (Fin 16) := ⟨addr, 0, 32⟩
end EcCfg

namespace EcSsi
/-- EC.SSI: 07_sensing.md R206. -/
def addr (i : Fin 16) : Nat := blockBase i + 0x3004
/-- EC.SSI.SDIV (LIVE). -/
def SDIV : RF (Fin 16) := ⟨addr, 0, 12⟩
/-- EC.SSI.SPER (LIVE). -/
def SPER : RF (Fin 16) := ⟨addr, 12, 20⟩
/-- The whole register EC.SSI. -/
def word : RF (Fin 16) := ⟨addr, 0, 32⟩
end EcSsi

namespace EcZhi
/-- EC.ZHI: 07_sensing.md R206. -/
def addr (i : Fin 16) : Nat := blockBase i + 0x3008
/-- EC.ZHI.V (LIVE). -/
def V : RF (Fin 16) := ⟨addr, 0, 20⟩
/-- The whole register EC.ZHI. -/
def word : RF (Fin 16) := ⟨addr, 0, 32⟩
end EcZhi

namespace EcZlo
/-- EC.ZLO: 07_sensing.md R206. -/
def addr (i : Fin 16) : Nat := blockBase i + 0x300c
/-- EC.ZLO.V (LIVE). -/
def V : RF (Fin 16) := ⟨addr, 0, 20⟩
/-- The whole register EC.ZLO. -/
def word : RF (Fin 16) := ⟨addr, 0, 32⟩
end EcZlo

namespace EcJmax
/-- EC.JMAX: 07_sensing.md R206. -/
def addr (i : Fin 16) : Nat := blockBase i + 0x3010
/-- EC.JMAX.V (LIVE). -/
def V : RF (Fin 16) := ⟨addr, 0, 20⟩
/-- The whole register EC.JMAX. -/
def word : RF (Fin 16) := ⟨addr, 0, 32⟩
end EcJmax

namespace EcLhi
/-- EC.LHI: 07_sensing.md R206. -/
def addr (i : Fin 16) : Nat := blockBase i + 0x3014
/-- EC.LHI.V (LIVE). -/
def V : RF (Fin 16) := ⟨addr, 0, 20⟩
/-- The whole register EC.LHI. -/
def word : RF (Fin 16) := ⟨addr, 0, 32⟩
end EcLhi

namespace EcLlo
/-- EC.LLO: 07_sensing.md R206. -/
def addr (i : Fin 16) : Nat := blockBase i + 0x3018
/-- EC.LLO.V (LIVE). -/
def V : RF (Fin 16) := ⟨addr, 0, 20⟩
/-- The whole register EC.LLO. -/
def word : RF (Fin 16) := ⟨addr, 0, 32⟩
end EcLlo

namespace EcStat
/-- EC.STAT: 07_sensing.md R206. -/
def addr (i : Fin 16) : Nat := blockBase i + 0x301c
/-- EC.STAT.PVALID (LIVE). -/
def PVALID : RF (Fin 16) := ⟨addr, 0, 1⟩
/-- EC.STAT.SAT (LIVE). -/
def SAT : RF (Fin 16) := ⟨addr, 1, 1⟩
/-- EC.STAT.A (LIVE). -/
def A : RF (Fin 16) := ⟨addr, 2, 1⟩
/-- EC.STAT.B (LIVE). -/
def B : RF (Fin 16) := ⟨addr, 3, 1⟩
/-- EC.STAT.Z (LIVE). -/
def Z : RF (Fin 16) := ⟨addr, 4, 1⟩
/-- EC.STAT.DIR (LIVE). -/
def DIR : RF (Fin 16) := ⟨addr, 5, 1⟩
/-- EC.STAT.EDGE_OVERRUN (W1C). -/
def EDGE_OVERRUN : RF (Fin 16) := ⟨addr, 6, 1⟩
/-- EC.STAT.SSIERR (W1C). -/
def SSIERR : RF (Fin 16) := ⟨addr, 7, 1⟩
/-- EC.STAT.JUMP (W1C). -/
def JUMP : RF (Fin 16) := ⟨addr, 8, 1⟩
/-- EC.STAT.ZSEEN (W1C). -/
def ZSEEN : RF (Fin 16) := ⟨addr, 9, 1⟩
/-- EC.STAT.INVAL_SEEN (W1C). -/
def INVAL_SEEN : RF (Fin 16) := ⟨addr, 10, 1⟩
/-- EC.STAT.STUCK (W1C). -/
def STUCK : RF (Fin 16) := ⟨addr, 11, 1⟩
/-- EC.STAT.CHATTER (W1C). -/
def CHATTER : RF (Fin 16) := ⟨addr, 12, 1⟩
/-- EC.STAT.ERRCNT (CNT). -/
def ERRCNT : RF (Fin 16) := ⟨addr, 16, 16⟩
/-- The whole register EC.STAT. -/
def word : RF (Fin 16) := ⟨addr, 0, 32⟩
end EcStat

namespace EcCtl
/-- EC.CTL: 07_sensing.md R206. -/
def addr (i : Fin 16) : Nat := blockBase i + 0x3020
/-- EC.CTL.REVAL (CMD). -/
def REVAL : RF (Fin 16) := ⟨addr, 0, 1⟩
/-- The whole register EC.CTL. -/
def word : RF (Fin 16) := ⟨addr, 0, 32⟩
end EcCtl

namespace PcCfg
/-- PC.CFG: 07_sensing.md R209. -/
def addr (i : Fin 16) : Nat := blockBase i + 0x3400
/-- PC.CFG.EDGE (LIVE). -/
def EDGE : RF (Fin 16) := ⟨addr, 0, 2⟩
/-- PC.CFG.FLT (LIVE). -/
def FLT : RF (Fin 16) := ⟨addr, 2, 4⟩
/-- PC.CFG.ONCE (LIVE). -/
def ONCE : RF (Fin 16) := ⟨addr, 6, 1⟩
/-- PC.CFG.WHAT (LIVE). -/
def WHAT : RF (Fin 16) := ⟨addr, 7, 1⟩
/-- PC.CFG.DOM (LIVE). -/
def DOM : RF (Fin 16) := ⟨addr, 8, 3⟩
/-- The whole register PC.CFG. -/
def word : RF (Fin 16) := ⟨addr, 0, 32⟩
end PcCfg

namespace PcPosHi
/-- PC.POSHI: 07_sensing.md R209. -/
def addr (i : Fin 16) : Nat := blockBase i + 0x3404
/-- PC.POSHI.V (LIVE). -/
def V : RF (Fin 16) := ⟨addr, 0, 20⟩
/-- The whole register PC.POSHI. -/
def word : RF (Fin 16) := ⟨addr, 0, 32⟩
end PcPosHi

namespace PcPosLo
/-- PC.POSLO: 07_sensing.md R209. -/
def addr (i : Fin 16) : Nat := blockBase i + 0x3408
/-- PC.POSLO.V (LIVE). -/
def V : RF (Fin 16) := ⟨addr, 0, 20⟩
/-- The whole register PC.POSLO. -/
def word : RF (Fin 16) := ⟨addr, 0, 32⟩
end PcPosLo

namespace PcPhHi
/-- PC.PHHI: 07_sensing.md R209. -/
def addr (i : Fin 16) : Nat := blockBase i + 0x340c
/-- PC.PHHI.V (LIVE). -/
def V : RF (Fin 16) := ⟨addr, 0, 20⟩
/-- The whole register PC.PHHI. -/
def word : RF (Fin 16) := ⟨addr, 0, 32⟩
end PcPhHi

namespace PcPhLo
/-- PC.PHLO: 07_sensing.md R209. -/
def addr (i : Fin 16) : Nat := blockBase i + 0x3410
/-- PC.PHLO.V (LIVE). -/
def V : RF (Fin 16) := ⟨addr, 0, 20⟩
/-- The whole register PC.PHLO. -/
def word : RF (Fin 16) := ⟨addr, 0, 32⟩
end PcPhLo

namespace PcStat
/-- PC.STAT: 07_sensing.md R209. -/
def addr (i : Fin 16) : Nat := blockBase i + 0x3414
/-- PC.STAT.NEW (LIVE). -/
def NEW : RF (Fin 16) := ⟨addr, 0, 1⟩
/-- PC.STAT.ARMED (LIVE). -/
def ARMED : RF (Fin 16) := ⟨addr, 1, 1⟩
/-- PC.STAT.LEVEL (LIVE). -/
def LEVEL : RF (Fin 16) := ⟨addr, 2, 1⟩
/-- PC.STAT.LOST_SEEN (W1C). -/
def LOST_SEEN : RF (Fin 16) := ⟨addr, 3, 1⟩
/-- PC.STAT.STUCK (W1C). -/
def STUCK : RF (Fin 16) := ⟨addr, 4, 1⟩
/-- PC.STAT.CHATTER (W1C). -/
def CHATTER : RF (Fin 16) := ⟨addr, 5, 1⟩
/-- PC.STAT.LCNT (CNT). -/
def LCNT : RF (Fin 16) := ⟨addr, 16, 16⟩
/-- The whole register PC.STAT. -/
def word : RF (Fin 16) := ⟨addr, 0, 32⟩
end PcStat

namespace PcCtl
/-- PC.CTL: 07_sensing.md R209. -/
def addr (i : Fin 16) : Nat := blockBase i + 0x3418
/-- PC.CTL.REARM (CMD). -/
def REARM : RF (Fin 16) := ⟨addr, 0, 1⟩
/-- The whole register PC.CTL. -/
def word : RF (Fin 16) := ⟨addr, 0, 32⟩
end PcCtl

namespace Sense
/-- BKnn.SENSE: 07_sensing.md R211. -/
def addr (i : Fin 16) : Nat := blockBase i + 0x20
/-- BKnn.SENSE.STUCKN (LIVE). -/
def STUCKN : RF (Fin 16) := ⟨addr, 0, 8⟩
/-- BKnn.SENSE.CHATN (LIVE). -/
def CHATN : RF (Fin 16) := ⟨addr, 8, 8⟩
/-- The whole register BKnn.SENSE. -/
def word : RF (Fin 16) := ⟨addr, 0, 32⟩
end Sense

namespace KcCfg
/-- KCm.CFG: 08_loop_engine.md R247. -/
def addr (i : Fin 16 × Fin 12) : Nat := blockBase i.1 + 0x4000 + i.2.val * 0x200 + 0x0
/-- KCm.CFG.KIND (LIVE). -/
def KIND : RF (Fin 16 × Fin 12) := ⟨addr, 0, 4⟩
/-- KCm.CFG.VAR (LIVE). -/
def VAR : RF (Fin 16 × Fin 12) := ⟨addr, 4, 4⟩
/-- KCm.CFG.HOLD (LIVE). -/
def HOLD : RF (Fin 16 × Fin 12) := ⟨addr, 8, 2⟩
/-- KCm.CFG.FACT (LIVE). -/
def FACT : RF (Fin 16 × Fin 12) := ⟨addr, 10, 1⟩
/-- KCm.CFG.TRKEN (LIVE). -/
def TRKEN : RF (Fin 16 × Fin 12) := ⟨addr, 11, 1⟩
/-- KCm.CFG.TRK (LIVE). -/
def TRK : RF (Fin 16 × Fin 12) := ⟨addr, 12, 6⟩
/-- The whole register KCm.CFG. -/
def word : RF (Fin 16 × Fin 12) := ⟨addr, 0, 32⟩
end KcCfg

namespace KcIo0
/-- KCm.IO0: 08_loop_engine.md R247. -/
def addr (i : Fin 16 × Fin 12) : Nat := blockBase i.1 + 0x4000 + i.2.val * 0x200 + 0x4
/-- KCm.IO0.IN0 (LIVE). -/
def IN0 : RF (Fin 16 × Fin 12) := ⟨addr, 0, 6⟩
/-- KCm.IO0.IN1 (LIVE). -/
def IN1 : RF (Fin 16 × Fin 12) := ⟨addr, 6, 6⟩
/-- KCm.IO0.IN2 (LIVE). -/
def IN2 : RF (Fin 16 × Fin 12) := ⟨addr, 12, 6⟩
/-- KCm.IO0.IN3 (LIVE). -/
def IN3 : RF (Fin 16 × Fin 12) := ⟨addr, 18, 6⟩
/-- KCm.IO0.INEN (LIVE). -/
def INEN : RF (Fin 16 × Fin 12) := ⟨addr, 24, 4⟩
/-- The whole register KCm.IO0. -/
def word : RF (Fin 16 × Fin 12) := ⟨addr, 0, 32⟩
end KcIo0

namespace KcIo1
/-- KCm.IO1: 08_loop_engine.md R247. -/
def addr (i : Fin 16 × Fin 12) : Nat := blockBase i.1 + 0x4000 + i.2.val * 0x200 + 0x8
/-- KCm.IO1.OUT0 (LIVE). -/
def OUT0 : RF (Fin 16 × Fin 12) := ⟨addr, 0, 6⟩
/-- KCm.IO1.OUT1 (LIVE). -/
def OUT1 : RF (Fin 16 × Fin 12) := ⟨addr, 6, 6⟩
/-- KCm.IO1.OUT2 (LIVE). -/
def OUT2 : RF (Fin 16 × Fin 12) := ⟨addr, 12, 6⟩
/-- KCm.IO1.OUTEN (LIVE). -/
def OUTEN : RF (Fin 16 × Fin 12) := ⟨addr, 18, 3⟩
/-- The whole register KCm.IO1. -/
def word : RF (Fin 16 × Fin 12) := ⟨addr, 0, 32⟩
end KcIo1

namespace KcCtl
/-- KCm.CTL: 08_loop_engine.md R247. -/
def addr (i : Fin 16 × Fin 12) : Nat := blockBase i.1 + 0x4000 + i.2.val * 0x200 + 0xc
/-- KCm.CTL.GOMAN (CMD). -/
def GOMAN : RF (Fin 16 × Fin 12) := ⟨addr, 0, 1⟩
/-- KCm.CTL.GOAUTO (CMD). -/
def GOAUTO : RF (Fin 16 × Fin 12) := ⟨addr, 1, 1⟩
/-- KCm.CTL.PLOAD (CMD). -/
def PLOAD : RF (Fin 16 × Fin 12) := ⟨addr, 2, 1⟩
/-- KCm.CTL.PRESET (CMD). -/
def PRESET : RF (Fin 16 × Fin 12) := ⟨addr, 3, 1⟩
/-- KCm.CTL.SNAP (CMD). -/
def SNAP : RF (Fin 16 × Fin 12) := ⟨addr, 4, 1⟩
/-- KCm.CTL.FCLR (CMD). -/
def FCLR : RF (Fin 16 × Fin 12) := ⟨addr, 5, 1⟩
/-- The whole register KCm.CTL. -/
def word : RF (Fin 16 × Fin 12) := ⟨addr, 0, 32⟩
end KcCtl

namespace KcStat
/-- KCm.STAT: 08_loop_engine.md R247. -/
def addr (i : Fin 16 × Fin 12) : Nat := blockBase i.1 + 0x4000 + i.2.val * 0x200 + 0x10
/-- KCm.STAT.MODE (LIVE). -/
def MODE : RF (Fin 16 × Fin 12) := ⟨addr, 0, 3⟩
/-- KCm.STAT.MANSEL (LIVE). -/
def MANSEL : RF (Fin 16 × Fin 12) := ⟨addr, 3, 1⟩
/-- KCm.STAT.PRE (LIVE). -/
def PRE : RF (Fin 16 × Fin 12) := ⟨addr, 4, 1⟩
/-- KCm.STAT.LIMHI (LIVE). -/
def LIMHI : RF (Fin 16 × Fin 12) := ⟨addr, 5, 1⟩
/-- KCm.STAT.LIMLO (LIVE). -/
def LIMLO : RF (Fin 16 × Fin 12) := ⟨addr, 6, 1⟩
/-- KCm.STAT.LOCK (LIVE). -/
def LOCK : RF (Fin 16 × Fin 12) := ⟨addr, 7, 1⟩
/-- KCm.STAT.SNAPV (W1C). -/
def SNAPV : RF (Fin 16 × Fin 12) := ⟨addr, 8, 1⟩
/-- KCm.STAT.REF (W1C). -/
def REF : RF (Fin 16 × Fin 12) := ⟨addr, 9, 1⟩
/-- KCm.STAT.REASON (LIVE). -/
def REASON : RF (Fin 16 × Fin 12) := ⟨addr, 10, 2⟩
/-- KCm.STAT.KFLAG (W1C). -/
def KFLAG : RF (Fin 16 × Fin 12) := ⟨addr, 12, 1⟩
/-- KCm.STAT.FAULT (LIVE). -/
def FAULT : RF (Fin 16 × Fin 12) := ⟨addr, 13, 1⟩
/-- KCm.STAT.RUNS (CNT). -/
def RUNS : RF (Fin 16 × Fin 12) := ⟨addr, 16, 16⟩
/-- The whole register KCm.STAT. -/
def word : RF (Fin 16 × Fin 12) := ⟨addr, 0, 32⟩
end KcStat

namespace KcManv
/-- KCm.MANV: 08_loop_engine.md R247. -/
def addr (i : Fin 16 × Fin 12) : Nat := blockBase i.1 + 0x4000 + i.2.val * 0x200 + 0x14
/-- KCm.MANV.V (CFG). -/
def V : RF (Fin 16 × Fin 12) := ⟨addr, 0, 20⟩
/-- The whole register KCm.MANV. -/
def word : RF (Fin 16 × Fin 12) := ⟨addr, 0, 32⟩
end KcManv

namespace KcP
/-- KCm.Pi: 08_loop_engine.md R247. -/
def addr (i : Fin 16 × Fin 12 × Fin 16) : Nat := blockBase i.1 + 0x4000 + i.2.1.val * 0x200 + 0x40 + i.2.2.val * 4
/-- KCm.Pi.V (LIVE). -/
def V : RF (Fin 16 × Fin 12 × Fin 16) := ⟨addr, 0, 32⟩
/-- The whole register KCm.Pi. -/
def word : RF (Fin 16 × Fin 12 × Fin 16) := ⟨addr, 0, 32⟩
end KcP

namespace KcPs
/-- KCm.PSi: 08_loop_engine.md R247. -/
def addr (i : Fin 16 × Fin 12 × Fin 16) : Nat := blockBase i.1 + 0x4000 + i.2.1.val * 0x200 + 0x80 + i.2.2.val * 4
/-- KCm.PSi.V (CFG). -/
def V : RF (Fin 16 × Fin 12 × Fin 16) := ⟨addr, 0, 32⟩
/-- The whole register KCm.PSi. -/
def word : RF (Fin 16 × Fin 12 × Fin 16) := ⟨addr, 0, 32⟩
end KcPs

namespace KcS
/-- KCm.Si: 08_loop_engine.md R247. -/
def addr (i : Fin 16 × Fin 12 × Fin 8) : Nat := blockBase i.1 + 0x4000 + i.2.1.val * 0x200 + 0x100 + i.2.2.val * 4
/-- KCm.Si.V (LIVE). -/
def V : RF (Fin 16 × Fin 12 × Fin 8) := ⟨addr, 0, 32⟩
/-- The whole register KCm.Si. -/
def word : RF (Fin 16 × Fin 12 × Fin 8) := ⟨addr, 0, 32⟩
end KcS

namespace Kstat
/-- BKnn.KSTAT: 08_loop_engine.md R248. -/
def addr (i : Fin 16) : Nat := blockBase i + 0x30
/-- BKnn.KSTAT.FAULT (LIVE). -/
def FAULT : RF (Fin 16) := ⟨addr, 0, 12⟩
/-- BKnn.KSTAT.FAULT_SEEN (W1C). -/
def FAULT_SEEN : RF (Fin 16) := ⟨addr, 12, 1⟩
/-- BKnn.KSTAT.KFCNT (CNT). -/
def KFCNT : RF (Fin 16) := ⟨addr, 16, 8⟩
/-- BKnn.KSTAT.COMMITS (CNT). -/
def COMMITS : RF (Fin 16) := ⟨addr, 24, 8⟩
/-- The whole register BKnn.KSTAT. -/
def word : RF (Fin 16) := ⟨addr, 0, 32⟩
end Kstat

namespace HspCtl
/-- BKnn.HSPCTL: 08_loop_engine.md R248. -/
def addr (i : Fin 16) : Nat := blockBase i + 0x34
/-- BKnn.HSPCTL.COMMIT (CMD). -/
def COMMIT : RF (Fin 16) := ⟨addr, 0, 1⟩
/-- The whole register BKnn.HSPCTL. -/
def word : RF (Fin 16) := ⟨addr, 0, 32⟩
end HspCtl

namespace HspMap0
/-- BKnn.HSPMAP0: 08_loop_engine.md R248. -/
def addr (i : Fin 16) : Nat := blockBase i + 0x38
/-- BKnn.HSPMAP0.E0 (LIVE). -/
def E0 : RF (Fin 16) := ⟨addr, 0, 6⟩
/-- BKnn.HSPMAP0.E1 (LIVE). -/
def E1 : RF (Fin 16) := ⟨addr, 6, 6⟩
/-- BKnn.HSPMAP0.E2 (LIVE). -/
def E2 : RF (Fin 16) := ⟨addr, 12, 6⟩
/-- BKnn.HSPMAP0.E3 (LIVE). -/
def E3 : RF (Fin 16) := ⟨addr, 18, 6⟩
/-- BKnn.HSPMAP0.EN (LIVE). -/
def EN : RF (Fin 16) := ⟨addr, 24, 8⟩
/-- The whole register BKnn.HSPMAP0. -/
def word : RF (Fin 16) := ⟨addr, 0, 32⟩
end HspMap0

namespace HspMap1
/-- BKnn.HSPMAP1: 08_loop_engine.md R248. -/
def addr (i : Fin 16) : Nat := blockBase i + 0x3c
/-- BKnn.HSPMAP1.E0 (LIVE). -/
def E0 : RF (Fin 16) := ⟨addr, 0, 6⟩
/-- BKnn.HSPMAP1.E1 (LIVE). -/
def E1 : RF (Fin 16) := ⟨addr, 6, 6⟩
/-- BKnn.HSPMAP1.E2 (LIVE). -/
def E2 : RF (Fin 16) := ⟨addr, 12, 6⟩
/-- BKnn.HSPMAP1.E3 (LIVE). -/
def E3 : RF (Fin 16) := ⟨addr, 18, 6⟩
/-- The whole register BKnn.HSPMAP1. -/
def word : RF (Fin 16) := ⟨addr, 0, 32⟩
end HspMap1

namespace SegWr
/-- BKnn.SEGWR: 08_loop_engine.md R248. -/
def addr (i : Fin 16) : Nat := blockBase i + 0x40
/-- BKnn.SEGWR.WR (CFG). -/
def WR : RF (Fin 16) := ⟨addr, 0, 6⟩
/-- The whole register BKnn.SEGWR. -/
def word : RF (Fin 16) := ⟨addr, 0, 32⟩
end SegWr

namespace SegRd
/-- BKnn.SEGRD: 08_loop_engine.md R248. -/
def addr (i : Fin 16) : Nat := blockBase i + 0x44
/-- BKnn.SEGRD.RD (LIVE). -/
def RD : RF (Fin 16) := ⟨addr, 0, 6⟩
/-- BKnn.SEGRD.FILL (LIVE). -/
def FILL : RF (Fin 16) := ⟨addr, 8, 6⟩
/-- BKnn.SEGRD.DONE (CNT). -/
def DONE : RF (Fin 16) := ⟨addr, 16, 16⟩
/-- The whole register BKnn.SEGRD. -/
def word : RF (Fin 16) := ⟨addr, 0, 32⟩
end SegRd

namespace SegStat
/-- BKnn.SEGSTAT: 08_loop_engine.md R248. -/
def addr (i : Fin 16) : Nat := blockBase i + 0x48
/-- BKnn.SEGSTAT.STARVE (W1C). -/
def STARVE : RF (Fin 16) := ⟨addr, 0, 1⟩
/-- BKnn.SEGSTAT.BADWR (W1C). -/
def BADWR : RF (Fin 16) := ⟨addr, 1, 1⟩
/-- BKnn.SEGSTAT.OVW (W1C). -/
def OVW : RF (Fin 16) := ⟨addr, 2, 1⟩
/-- BKnn.SEGSTAT.SEGERR (W1C). -/
def SEGERR : RF (Fin 16) := ⟨addr, 3, 1⟩
/-- BKnn.SEGSTAT.ACTIVE (LIVE). -/
def ACTIVE : RF (Fin 16) := ⟨addr, 4, 1⟩
/-- BKnn.SEGSTAT.TAG (LIVE). -/
def TAG : RF (Fin 16) := ⟨addr, 8, 8⟩
/-- The whole register BKnn.SEGSTAT. -/
def word : RF (Fin 16) := ⟨addr, 0, 32⟩
end SegStat

namespace Hsp
/-- BKnn.HSPj: 08_loop_engine.md R248. -/
def addr (i : Fin 16 × Fin 8) : Nat := blockBase i.1 + 0x100 + i.2.val * 4
/-- BKnn.HSPj.V (CFG). -/
def V : RF (Fin 16 × Fin 8) := ⟨addr, 0, 20⟩
/-- The whole register BKnn.HSPj. -/
def word : RF (Fin 16 × Fin 8) := ⟨addr, 0, 32⟩
end Hsp

namespace Seg
/-- BKnn.SEGs.Ww: 08_loop_engine.md R248. -/
def addr (i : Fin 16 × Fin 32 × Fin 8) : Nat := blockBase i.1 + 0x800 + i.2.1.val * 0x20 + i.2.2.val * 4
/-- BKnn.SEGs.Ww.V (CFG). -/
def V : RF (Fin 16 × Fin 32 × Fin 8) := ⟨addr, 0, 32⟩
/-- The whole register BKnn.SEGs.Ww. -/
def word : RF (Fin 16 × Fin 32 × Fin 8) := ⟨addr, 0, 32⟩
end Seg

namespace Pwm
/-- BKnn.PWM: 09_legs_and_quench.md R274. -/
def addr (i : Fin 16) : Nat := blockBase i + 0x60
/-- BKnn.PWM.PER (LIVE). -/
def PER : RF (Fin 16) := ⟨addr, 0, 18⟩
/-- The whole register BKnn.PWM. -/
def word : RF (Fin 16) := ⟨addr, 0, 32⟩
end Pwm

namespace PwmStat
/-- BKnn.PWMSTAT: 09_legs_and_quench.md R274. -/
def addr (i : Fin 16) : Nat := blockBase i + 0x64
/-- BKnn.PWMSTAT.PTMODE (LIVE). -/
def PTMODE : RF (Fin 16) := ⟨addr, 0, 1⟩
/-- BKnn.PWMSTAT.PTPEND (LIVE). -/
def PTPEND : RF (Fin 16) := ⟨addr, 1, 1⟩
/-- BKnn.PWMSTAT.PTROW (LIVE). -/
def PTROW : RF (Fin 16) := ⟨addr, 2, 6⟩
/-- BKnn.PWMSTAT.PTERR (W1C). -/
def PTERR : RF (Fin 16) := ⟨addr, 8, 1⟩
/-- BKnn.PWMSTAT.PERCNT (CNT). -/
def PERCNT : RF (Fin 16) := ⟨addr, 16, 16⟩
/-- The whole register BKnn.PWMSTAT. -/
def word : RF (Fin 16) := ⟨addr, 0, 32⟩
end PwmStat

namespace Qcfg
/-- BKnn.QCFG: 09_legs_and_quench.md R274. -/
def addr (i : Fin 16) : Nat := blockBase i + 0x70
/-- BKnn.QCFG.TAEN (LIVE). -/
def TAEN : RF (Fin 16) := ⟨addr, 0, 1⟩
/-- BKnn.QCFG.TBEN (LIVE). -/
def TBEN : RF (Fin 16) := ⟨addr, 1, 1⟩
/-- BKnn.QCFG.TAPOL (LIVE). -/
def TAPOL : RF (Fin 16) := ⟨addr, 2, 1⟩
/-- BKnn.QCFG.TBPOL (LIVE). -/
def TBPOL : RF (Fin 16) := ⟨addr, 3, 1⟩
/-- BKnn.QCFG.TAFLT (LIVE). -/
def TAFLT : RF (Fin 16) := ⟨addr, 4, 3⟩
/-- BKnn.QCFG.TBFLT (LIVE). -/
def TBFLT : RF (Fin 16) := ⟨addr, 7, 3⟩
/-- The whole register BKnn.QCFG. -/
def word : RF (Fin 16) := ⟨addr, 0, 32⟩
end Qcfg

namespace Qstat
/-- BKnn.QSTAT: 09_legs_and_quench.md R274. -/
def addr (i : Fin 16) : Nat := blockBase i + 0x74
/-- BKnn.QSTAT.LATCH (LIVE). -/
def LATCH : RF (Fin 16) := ⟨addr, 0, 1⟩
/-- BKnn.QSTAT.SAFESET (LIVE). -/
def SAFESET : RF (Fin 16) := ⟨addr, 1, 1⟩
/-- BKnn.QSTAT.CLEAR_REFUSED (W1C). -/
def CLEAR_REFUSED : RF (Fin 16) := ⟨addr, 2, 1⟩
/-- BKnn.QSTAT.SET_SEEN (W1C). -/
def SET_SEEN : RF (Fin 16) := ⟨addr, 3, 1⟩
/-- BKnn.QSTAT.FIRST (LIVE). -/
def FIRST : RF (Fin 16) := ⟨addr, 4, 4⟩
/-- BKnn.QSTAT.QCNT (CNT). -/
def QCNT : RF (Fin 16) := ⟨addr, 16, 8⟩
/-- The whole register BKnn.QSTAT. -/
def word : RF (Fin 16) := ⟨addr, 0, 32⟩
end Qstat

namespace Qcause
/-- BKnn.QCAUSE: 09_legs_and_quench.md R274. -/
def addr (i : Fin 16) : Nat := blockBase i + 0x78
/-- BKnn.QCAUSE.CAUSE (LIVE). -/
def CAUSE : RF (Fin 16) := ⟨addr, 0, 16⟩
/-- BKnn.QCAUSE.ACT (LIVE). -/
def ACT : RF (Fin 16) := ⟨addr, 16, 16⟩
/-- The whole register BKnn.QCAUSE. -/
def word : RF (Fin 16) := ⟨addr, 0, 32⟩
end Qcause

namespace Qctl
/-- BKnn.QCTL: 09_legs_and_quench.md R274. -/
def addr (i : Fin 16) : Nat := blockBase i + 0x7c
/-- BKnn.QCTL.CLEAR (CMD). -/
def CLEAR : RF (Fin 16) := ⟨addr, 0, 1⟩
/-- BKnn.QCTL.QUENCH (CMD). -/
def QUENCH : RF (Fin 16) := ⟨addr, 1, 1⟩
/-- The whole register BKnn.QCTL. -/
def word : RF (Fin 16) := ⟨addr, 0, 32⟩
end Qctl

namespace S1sel
/-- BKnn.S1SEL: 09_legs_and_quench.md R274. -/
def addr (i : Fin 16) : Nat := blockBase i + 0x80
/-- BKnn.S1SEL.SEL (LIVE). -/
def SEL : RF (Fin 16) := ⟨addr, 0, 16⟩
/-- The whole register BKnn.S1SEL. -/
def word : RF (Fin 16) := ⟨addr, 0, 32⟩
end S1sel

namespace LcCfg
/-- LCl.CFG: 09_legs_and_quench.md R275. -/
def addr (i : Fin 16 × Fin 3) : Nat := blockBase i.1 + 0x1000 + i.2.val * 0x400 + 0x0
/-- LCl.CFG.DTIME (LIVE). -/
def DTIME : RF (Fin 16 × Fin 3) := ⟨addr, 0, 10⟩
/-- LCl.CFG.MINP (LIVE). -/
def MINP : RF (Fin 16 × Fin 3) := ⟨addr, 10, 10⟩
/-- LCl.CFG.SPMODE (LIVE). -/
def SPMODE : RF (Fin 16 × Fin 3) := ⟨addr, 20, 2⟩
/-- LCl.CFG.REN (LIVE). -/
def REN : RF (Fin 16 × Fin 3) := ⟨addr, 22, 1⟩
/-- LCl.CFG.RN (LIVE). -/
def RN : RF (Fin 16 × Fin 3) := ⟨addr, 23, 8⟩
/-- The whole register LCl.CFG. -/
def word : RF (Fin 16 × Fin 3) := ⟨addr, 0, 32⟩
end LcCfg

namespace LcRefw
/-- LCl.REFW: 09_legs_and_quench.md R275. -/
def addr (i : Fin 16 × Fin 3) : Nat := blockBase i.1 + 0x1000 + i.2.val * 0x400 + 0x4
/-- LCl.REFW.REFW (LIVE). -/
def REFW : RF (Fin 16 × Fin 3) := ⟨addr, 0, 12⟩
/-- The whole register LCl.REFW. -/
def word : RF (Fin 16 × Fin 3) := ⟨addr, 0, 32⟩
end LcRefw

namespace LcSafe
/-- LCl.SAFE: 09_legs_and_quench.md R275. -/
def addr (i : Fin 16 × Fin 3) : Nat := blockBase i.1 + 0x1000 + i.2.val * 0x400 + 0x8
/-- LCl.SAFE.SAFEH (LIVE). -/
def SAFEH : RF (Fin 16 × Fin 3) := ⟨addr, 0, 1⟩
/-- LCl.SAFE.SAFEL (LIVE). -/
def SAFEL : RF (Fin 16 × Fin 3) := ⟨addr, 1, 1⟩
/-- The whole register LCl.SAFE. -/
def word : RF (Fin 16 × Fin 3) := ⟨addr, 0, 32⟩
end LcSafe

namespace LcShadow
/-- LCl.SHADOW: 09_legs_and_quench.md R275. -/
def addr (i : Fin 16 × Fin 3) : Nat := blockBase i.1 + 0x1000 + i.2.val * 0x400 + 0xc
/-- LCl.SHADOW.V (LIVE). -/
def V : RF (Fin 16 × Fin 3) := ⟨addr, 0, 23⟩
/-- The whole register LCl.SHADOW. -/
def word : RF (Fin 16 × Fin 3) := ⟨addr, 0, 32⟩
end LcShadow

namespace LcCmp
/-- LCl.CMP: 09_legs_and_quench.md R275. -/
def addr (i : Fin 16 × Fin 3) : Nat := blockBase i.1 + 0x1000 + i.2.val * 0x400 + 0x10
/-- LCl.CMP.V (LIVE). -/
def V : RF (Fin 16 × Fin 3) := ⟨addr, 0, 23⟩
/-- The whole register LCl.CMP. -/
def word : RF (Fin 16 × Fin 3) := ⟨addr, 0, 32⟩
end LcCmp

namespace LcStat
/-- LCl.STAT: 09_legs_and_quench.md R275. -/
def addr (i : Fin 16 × Fin 3) : Nat := blockBase i.1 + 0x1000 + i.2.val * 0x400 + 0x14
/-- LCl.STAT.GHO (LIVE). -/
def GHO : RF (Fin 16 × Fin 3) := ⟨addr, 0, 1⟩
/-- LCl.STAT.GLO (LIVE). -/
def GLO : RF (Fin 16 × Fin 3) := ⟨addr, 1, 1⟩
/-- LCl.STAT.HZ (LIVE). -/
def HZ : RF (Fin 16 × Fin 3) := ⟨addr, 2, 1⟩
/-- LCl.STAT.SHORT_SEEN (W1C). -/
def SHORT_SEEN : RF (Fin 16 × Fin 3) := ⟨addr, 3, 1⟩
/-- LCl.STAT.REFR_SEEN (W1C). -/
def REFR_SEEN : RF (Fin 16 × Fin 3) := ⟨addr, 4, 1⟩
/-- LCl.STAT.SHORTCNT (CNT). -/
def SHORTCNT : RF (Fin 16 × Fin 3) := ⟨addr, 16, 16⟩
/-- The whole register LCl.STAT. -/
def word : RF (Fin 16 × Fin 3) := ⟨addr, 0, 32⟩
end LcStat

namespace LcAcc
/-- LCl.ACC: 09_legs_and_quench.md R275. -/
def addr (i : Fin 16 × Fin 3) : Nat := blockBase i.1 + 0x1000 + i.2.val * 0x400 + 0x18
/-- LCl.ACC.A (LIVE). -/
def A : RF (Fin 16 × Fin 3) := ⟨addr, 0, 12⟩
/-- LCl.ACC.SIDE (LIVE). -/
def SIDE : RF (Fin 16 × Fin 3) := ⟨addr, 12, 1⟩
/-- LCl.ACC.FULLRUN (LIVE). -/
def FULLRUN : RF (Fin 16 × Fin 3) := ⟨addr, 13, 8⟩
/-- The whole register LCl.ACC. -/
def word : RF (Fin 16 × Fin 3) := ⟨addr, 0, 32⟩
end LcAcc

namespace LcTda
/-- LCl.TDA: 09_legs_and_quench.md R275. -/
def addr (i : Fin 16 × Fin 3) : Nat := blockBase i.1 + 0x1000 + i.2.val * 0x400 + 0x1c
/-- LCl.TDA.PS (LIVE). -/
def PS : RF (Fin 16 × Fin 3) := ⟨addr, 0, 20⟩
/-- The whole register LCl.TDA. -/
def word : RF (Fin 16 × Fin 3) := ⟨addr, 0, 32⟩
end LcTda

namespace Qsum
/-- CHIP.QSUM: 09_legs_and_quench.md R276. -/
def addr (_i : Unit) : Nat := 0x24
/-- CHIP.QSUM.LATCH (LIVE). -/
def LATCH : RF (Unit) := ⟨addr, 0, 16⟩
/-- CHIP.QSUM.QOUT (LIVE). -/
def QOUT : RF (Unit) := ⟨addr, 16, 1⟩
/-- CHIP.QSUM.QIN (LIVE). -/
def QIN : RF (Unit) := ⟨addr, 17, 1⟩
/-- CHIP.QSUM.TWQ (LIVE). -/
def TWQ : RF (Unit) := ⟨addr, 18, 1⟩
/-- CHIP.QSUM.HALT (LIVE). -/
def HALT : RF (Unit) := ⟨addr, 19, 1⟩
/-- The whole register CHIP.QSUM. -/
def word : RF (Unit) := ⟨addr, 0, 32⟩
end Qsum

namespace Qroute
/-- CHIP.QROUTE: 09_legs_and_quench.md R276. -/
def addr (_i : Unit) : Nat := 0x28
/-- CHIP.QROUTE.QIN (LIVE). -/
def QIN : RF (Unit) := ⟨addr, 0, 16⟩
/-- CHIP.QROUTE.TWQ (LIVE). -/
def TWQ : RF (Unit) := ⟨addr, 16, 16⟩
/-- The whole register CHIP.QROUTE. -/
def word : RF (Unit) := ⟨addr, 0, 32⟩
end Qroute

namespace Qfilt
/-- CHIP.QFILT: 09_legs_and_quench.md R276. -/
def addr (_i : Unit) : Nat := 0x2c
/-- CHIP.QFILT.QINFLT (LIVE). -/
def QINFLT : RF (Unit) := ⟨addr, 0, 3⟩
/-- CHIP.QFILT.TWQFLT (LIVE). -/
def TWQFLT : RF (Unit) := ⟨addr, 3, 3⟩
/-- The whole register CHIP.QFILT. -/
def word : RF (Unit) := ⟨addr, 0, 32⟩
end Qfilt

namespace BpCtl
/-- RGNp.BPCTL: 10_bus_protocol.md R304. -/
def addr (i : Fin 4) : Nat := portBase i + 0x0
/-- RGNp.BPCTL.START (CMD). -/
def START : RF (Fin 4) := ⟨addr, 0, 1⟩
/-- RGNp.BPCTL.STOP (CMD). -/
def STOP : RF (Fin 4) := ⟨addr, 1, 1⟩
/-- RGNp.BPCTL.RECOVER (CMD). -/
def RECOVER : RF (Fin 4) := ⟨addr, 2, 1⟩
/-- RGNp.BPCTL.ARD (CMD). -/
def ARD : RF (Fin 4) := ⟨addr, 3, 1⟩
/-- RGNp.BPCTL.GONORMAL (CMD). -/
def GONORMAL : RF (Fin 4) := ⟨addr, 4, 1⟩
/-- RGNp.BPCTL.GOLISTEN (CMD). -/
def GOLISTEN : RF (Fin 4) := ⟨addr, 5, 1⟩
/-- RGNp.BPCTL.ARDSTOP (CMD). -/
def ARDSTOP : RF (Fin 4) := ⟨addr, 6, 1⟩
/-- RGNp.BPCTL.STMODE (CFG). -/
def STMODE : RF (Fin 4) := ⟨addr, 7, 1⟩
/-- RGNp.BPCTL.IDCOL_MODE (CFG). -/
def IDCOL_MODE : RF (Fin 4) := ⟨addr, 8, 2⟩
/-- The whole register RGNp.BPCTL. -/
def word : RF (Fin 4) := ⟨addr, 0, 32⟩
end BpCtl

namespace BpStat
/-- RGNp.BPSTAT: 10_bus_protocol.md R304. -/
def addr (i : Fin 4) : Nat := portBase i + 0x4
/-- RGNp.BPSTAT.STATE (LIVE). -/
def STATE : RF (Fin 4) := ⟨addr, 0, 3⟩
/-- RGNp.BPSTAT.OPMODE (LIVE). -/
def OPMODE : RF (Fin 4) := ⟨addr, 3, 2⟩
/-- RGNp.BPSTAT.TXING (LIVE). -/
def TXING : RF (Fin 4) := ⟨addr, 5, 1⟩
/-- RGNp.BPSTAT.ARDRUN (LIVE). -/
def ARDRUN : RF (Fin 4) := ⟨addr, 6, 1⟩
/-- RGNp.BPSTAT.REC (LIVE). -/
def REC : RF (Fin 4) := ⟨addr, 8, 8⟩
/-- RGNp.BPSTAT.TEC (LIVE). -/
def TEC : RF (Fin 4) := ⟨addr, 16, 9⟩
/-- The whole register RGNp.BPSTAT. -/
def word : RF (Fin 4) := ⟨addr, 0, 32⟩
end BpStat

namespace BpEvt
/-- RGNp.BPEVT: 10_bus_protocol.md R304. -/
def addr (i : Fin 4) : Nat := portBase i + 0x8
/-- RGNp.BPEVT.EPASS_SEEN (W1C). -/
def EPASS_SEEN : RF (Fin 4) := ⟨addr, 0, 1⟩
/-- RGNp.BPEVT.BOFF_SEEN (W1C). -/
def BOFF_SEEN : RF (Fin 4) := ⟨addr, 1, 1⟩
/-- RGNp.BPEVT.RECOV_SEEN (W1C). -/
def RECOV_SEEN : RF (Fin 4) := ⟨addr, 2, 1⟩
/-- RGNp.BPEVT.IDCOL (W1C). -/
def IDCOL : RF (Fin 4) := ⟨addr, 3, 1⟩
/-- RGNp.BPEVT.CFGREF (W1C). -/
def CFGREF : RF (Fin 4) := ⟨addr, 4, 1⟩
/-- RGNp.BPEVT.PXH_SEEN (W1C). -/
def PXH_SEEN : RF (Fin 4) := ⟨addr, 5, 1⟩
/-- RGNp.BPEVT.TDCFAIL (W1C). -/
def TDCFAIL : RF (Fin 4) := ⟨addr, 6, 1⟩
/-- RGNp.BPEVT.ARDLOCK (W1C). -/
def ARDLOCK : RF (Fin 4) := ⟨addr, 7, 1⟩
/-- RGNp.BPEVT.CMDREF (W1C). -/
def CMDREF : RF (Fin 4) := ⟨addr, 8, 1⟩
/-- RGNp.BPEVT.REASON (LIVE). -/
def REASON : RF (Fin 4) := ⟨addr, 9, 3⟩
/-- RGNp.BPEVT.BOFFCNT (CNT). -/
def BOFFCNT : RF (Fin 4) := ⟨addr, 16, 16⟩
/-- The whole register RGNp.BPEVT. -/
def word : RF (Fin 4) := ⟨addr, 0, 32⟩
end BpEvt

namespace BpErr
/-- RGNp.BPERR: 10_bus_protocol.md R304. -/
def addr (i : Fin 4) : Nat := portBase i + 0xc
/-- RGNp.BPERR.LEC (LIVE). -/
def LEC : RF (Fin 4) := ⟨addr, 0, 3⟩
/-- RGNp.BPERR.LEPH (LIVE). -/
def LEPH : RF (Fin 4) := ⟨addr, 3, 1⟩
/-- RGNp.BPERR.ERRCNT (CNT). -/
def ERRCNT : RF (Fin 4) := ⟨addr, 8, 8⟩
/-- RGNp.BPERR.RECOVN (LIVE). -/
def RECOVN : RF (Fin 4) := ⟨addr, 16, 8⟩
/-- The whole register RGNp.BPERR. -/
def word : RF (Fin 4) := ⟨addr, 0, 32⟩
end BpErr

namespace BpCnt
/-- RGNp.BPCNT: 10_bus_protocol.md R304. -/
def addr (i : Fin 4) : Nat := portBase i + 0x10
/-- RGNp.BPCNT.TXOK (CNT). -/
def TXOK : RF (Fin 4) := ⟨addr, 0, 16⟩
/-- RGNp.BPCNT.RXOK (CNT). -/
def RXOK : RF (Fin 4) := ⟨addr, 16, 16⟩
/-- The whole register RGNp.BPCNT. -/
def word : RF (Fin 4) := ⟨addr, 0, 32⟩
end BpCnt

namespace BpCfg
/-- RGNp.BPCFG: 10_bus_protocol.md R304. -/
def addr (i : Fin 4) : Nat := portBase i + 0x14
/-- RGNp.BPCFG.FDEN (LIVE). -/
def FDEN : RF (Fin 4) := ⟨addr, 0, 1⟩
/-- RGNp.BPCFG.XLEN (LIVE). -/
def XLEN : RF (Fin 4) := ⟨addr, 1, 1⟩
/-- RGNp.BPCFG.PXHEN (LIVE). -/
def PXHEN : RF (Fin 4) := ⟨addr, 2, 1⟩
/-- RGNp.BPCFG.TDCEN (LIVE). -/
def TDCEN : RF (Fin 4) := ⟨addr, 3, 1⟩
/-- RGNp.BPCFG.XMSW (LIVE). -/
def XMSW : RF (Fin 4) := ⟨addr, 4, 1⟩
/-- RGNp.BPCFG.AUTOSTART (LIVE). -/
def AUTOSTART : RF (Fin 4) := ⟨addr, 5, 1⟩
/-- The whole register RGNp.BPCFG. -/
def word : RF (Fin 4) := ⟨addr, 0, 32⟩
end BpCfg

namespace BpNbt
/-- RGNp.BPNBT: 10_bus_protocol.md R304. -/
def addr (i : Fin 4) : Nat := portBase i + 0x18
/-- RGNp.BPNBT.NSEG1 (CFG). -/
def NSEG1 : RF (Fin 4) := ⟨addr, 0, 10⟩
/-- RGNp.BPNBT.NSEG2 (CFG). -/
def NSEG2 : RF (Fin 4) := ⟨addr, 10, 8⟩
/-- RGNp.BPNBT.NSJW (CFG). -/
def NSJW : RF (Fin 4) := ⟨addr, 18, 8⟩
/-- The whole register RGNp.BPNBT. -/
def word : RF (Fin 4) := ⟨addr, 0, 32⟩
end BpNbt

namespace BpDbt
/-- RGNp.BPDBT: 10_bus_protocol.md R304. -/
def addr (i : Fin 4) : Nat := portBase i + 0x1c
/-- RGNp.BPDBT.SEG1 (CFG). -/
def SEG1 : RF (Fin 4) := ⟨addr, 0, 7⟩
/-- RGNp.BPDBT.SEG2 (CFG). -/
def SEG2 : RF (Fin 4) := ⟨addr, 7, 6⟩
/-- RGNp.BPDBT.SJW (CFG). -/
def SJW : RF (Fin 4) := ⟨addr, 13, 6⟩
/-- The whole register RGNp.BPDBT. -/
def word : RF (Fin 4) := ⟨addr, 0, 32⟩
end BpDbt

namespace BpXbt
/-- RGNp.BPXBT: 10_bus_protocol.md R304. -/
def addr (i : Fin 4) : Nat := portBase i + 0x20
/-- RGNp.BPXBT.SEG1 (CFG). -/
def SEG1 : RF (Fin 4) := ⟨addr, 0, 7⟩
/-- RGNp.BPXBT.SEG2 (CFG). -/
def SEG2 : RF (Fin 4) := ⟨addr, 7, 6⟩
/-- RGNp.BPXBT.SJW (CFG). -/
def SJW : RF (Fin 4) := ⟨addr, 13, 6⟩
/-- The whole register RGNp.BPXBT. -/
def word : RF (Fin 4) := ⟨addr, 0, 32⟩
end BpXbt

namespace BpTdc
/-- RGNp.BPTDC: 10_bus_protocol.md R304. -/
def addr (i : Fin 4) : Nat := portBase i + 0x24
/-- RGNp.BPTDC.TDCO (CFG). -/
def TDCO : RF (Fin 4) := ⟨addr, 0, 7⟩
/-- RGNp.BPTDC.TDCV (LIVE). -/
def TDCV : RF (Fin 4) := ⟨addr, 8, 7⟩
/-- The whole register RGNp.BPTDC. -/
def word : RF (Fin 4) := ⟨addr, 0, 32⟩
end BpTdc

namespace BpArd
/-- RGNp.BPARD: 10_bus_protocol.md R304. -/
def addr (i : Fin 4) : Nat := portBase i + 0x28
/-- RGNp.BPARD.LOCKED (LIVE). -/
def LOCKED : RF (Fin 4) := ⟨addr, 0, 1⟩
/-- RGNp.BPARD.CAND (LIVE). -/
def CAND : RF (Fin 4) := ⟨addr, 1, 2⟩
/-- RGNp.BPARD.VALIDN (LIVE). -/
def VALIDN : RF (Fin 4) := ⟨addr, 3, 2⟩
/-- RGNp.BPARD.DWELL (CFG). -/
def DWELL : RF (Fin 4) := ⟨addr, 8, 8⟩
/-- RGNp.BPARD.CEN (CFG). -/
def CEN : RF (Fin 4) := ⟨addr, 16, 4⟩
/-- The whole register RGNp.BPARD. -/
def word : RF (Fin 4) := ⟨addr, 0, 32⟩
end BpArd

namespace BpArdN
/-- RGNp.BPARDCc.N: 10_bus_protocol.md R304. -/
def addr (i : Fin 4 × Fin 4) : Nat := portBase i.1 + 0x30 + i.2.val * 8
/-- RGNp.BPARDCc.N.NSEG1 (CFG). -/
def NSEG1 : RF (Fin 4 × Fin 4) := ⟨addr, 0, 10⟩
/-- RGNp.BPARDCc.N.NSEG2 (CFG). -/
def NSEG2 : RF (Fin 4 × Fin 4) := ⟨addr, 10, 8⟩
/-- RGNp.BPARDCc.N.NSJW (CFG). -/
def NSJW : RF (Fin 4 × Fin 4) := ⟨addr, 18, 8⟩
/-- The whole register RGNp.BPARDCc.N. -/
def word : RF (Fin 4 × Fin 4) := ⟨addr, 0, 32⟩
end BpArdN

namespace BpArdD
/-- RGNp.BPARDCc.D: 10_bus_protocol.md R304. -/
def addr (i : Fin 4 × Fin 4) : Nat := portBase i.1 + 0x34 + i.2.val * 8
/-- RGNp.BPARDCc.D.SEG1 (CFG). -/
def SEG1 : RF (Fin 4 × Fin 4) := ⟨addr, 0, 7⟩
/-- RGNp.BPARDCc.D.SEG2 (CFG). -/
def SEG2 : RF (Fin 4 × Fin 4) := ⟨addr, 7, 6⟩
/-- RGNp.BPARDCc.D.SJW (CFG). -/
def SJW : RF (Fin 4 × Fin 4) := ⟨addr, 13, 6⟩
/-- RGNp.BPARDCc.D.DEN (CFG). -/
def DEN : RF (Fin 4 × Fin 4) := ⟨addr, 31, 1⟩
/-- The whole register RGNp.BPARDCc.D. -/
def word : RF (Fin 4 × Fin 4) := ⟨addr, 0, 32⟩
end BpArdD

namespace BpPair
/-- RGNp.BPPAIR: 10_bus_protocol.md R304. -/
def addr (i : Fin 4) : Nat := portBase i + 0x50
/-- RGNp.BPPAIR.PARTNER (LIVE). -/
def PARTNER : RF (Fin 4) := ⟨addr, 0, 2⟩
/-- RGNp.BPPAIR.PAIRED (LIVE). -/
def PAIRED : RF (Fin 4) := ⟨addr, 2, 1⟩
/-- RGNp.BPPAIR.ROLE (LIVE). -/
def ROLE : RF (Fin 4) := ⟨addr, 3, 1⟩
/-- RGNp.BPPAIR.MODE (LIVE). -/
def MODE : RF (Fin 4) := ⟨addr, 4, 1⟩
/-- RGNp.BPPAIR.ONB (LIVE). -/
def ONB : RF (Fin 4) := ⟨addr, 5, 1⟩
/-- RGNp.BPPAIR.MOVED_SEEN (W1C). -/
def MOVED_SEEN : RF (Fin 4) := ⟨addr, 6, 1⟩
/-- RGNp.BPPAIR.DUPW (LIVE). -/
def DUPW : RF (Fin 4) := ⟨addr, 8, 8⟩
/-- RGNp.BPPAIR.DUPCNT (CNT). -/
def DUPCNT : RF (Fin 4) := ⟨addr, 16, 16⟩
/-- The whole register RGNp.BPPAIR. -/
def word : RF (Fin 4) := ⟨addr, 0, 32⟩
end BpPair

namespace BpIdc
/-- RGNp.BPIDC: 10_bus_protocol.md R304. -/
def addr (i : Fin 4) : Nat := portBase i + 0x54
/-- RGNp.BPIDC.ID (LIVE). -/
def ID : RF (Fin 4) := ⟨addr, 0, 29⟩
/-- RGNp.BPIDC.XTD (LIVE). -/
def XTD : RF (Fin 4) := ⟨addr, 29, 1⟩
/-- RGNp.BPIDC.SUCC (LIVE). -/
def SUCC : RF (Fin 4) := ⟨addr, 30, 2⟩
/-- The whole register RGNp.BPIDC. -/
def word : RF (Fin 4) := ⟨addr, 0, 32⟩
end BpIdc

namespace RQcfg
/-- RGNn.QCFG: 11_bus_queues_and_windows.md R335. -/
def addr (i : Fin 4) : Nat := queueCtl i + 0x0
/-- RGNn.QCFG.QSTALL (CFG). -/
def QSTALL : RF (Fin 4) := ⟨addr, 0, 7⟩
/-- The whole register RGNn.QCFG. -/
def word : RF (Fin 4) := ⟨addr, 0, 32⟩
end RQcfg

namespace RQstat
/-- RGNn.QSTAT: 11_bus_queues_and_windows.md R335. -/
def addr (i : Fin 4) : Nat := queueCtl i + 0x4
/-- RGNn.QSTAT.FREE (LIVE). -/
def FREE : RF (Fin 4) := ⟨addr, 0, 14⟩
/-- RGNn.QSTAT.REBUILD (LIVE). -/
def REBUILD : RF (Fin 4) := ⟨addr, 14, 1⟩
/-- RGNn.QSTAT.QERR (W1C). -/
def QERR : RF (Fin 4) := ⟨addr, 15, 1⟩
/-- RGNn.QSTAT.QERRQ (LIVE). -/
def QERRQ : RF (Fin 4) := ⟨addr, 16, 6⟩
/-- RGNn.QSTAT.QERRFL (LIVE). -/
def QERRFL : RF (Fin 4) := ⟨addr, 22, 1⟩
/-- RGNn.QSTAT.QERRCNT (CNT). -/
def QERRCNT : RF (Fin 4) := ⟨addr, 24, 8⟩
/-- The whole register RGNn.QSTAT. -/
def word : RF (Fin 4) := ⟨addr, 0, 32⟩
end RQstat

namespace RQcnt
/-- RGNn.QCNT: 11_bus_queues_and_windows.md R335. -/
def addr (i : Fin 4) : Nat := queueCtl i + 0x8
/-- RGNn.QCNT.IGNWR (CNT). -/
def IGNWR : RF (Fin 4) := ⟨addr, 0, 16⟩
/-- RGNn.QCNT.RESETS (CNT). -/
def RESETS : RF (Fin 4) := ⟨addr, 16, 16⟩
/-- The whole register RGNn.QCNT. -/
def word : RF (Fin 4) := ⟨addr, 0, 32⟩
end RQcnt

namespace QCfg0
/-- Qq.CFG0: 11_bus_queues_and_windows.md R336. -/
def addr (i : Fin 4 × Fin 64) : Nat := queueBase i + 0x0
/-- Qq.CFG0.RESV (LIVE). -/
def RESV : RF (Fin 4 × Fin 64) := ⟨addr, 0, 14⟩
/-- Qq.CFG0.MODE (LIVE). -/
def MODE : RF (Fin 4 × Fin 64) := ⟨addr, 14, 1⟩
/-- Qq.CFG0.USED (LIVE). -/
def USED : RF (Fin 4 × Fin 64) := ⟨addr, 15, 1⟩
/-- Qq.CFG0.QUOTA (LIVE). -/
def QUOTA : RF (Fin 4 × Fin 64) := ⟨addr, 16, 14⟩
/-- The whole register Qq.CFG0. -/
def word : RF (Fin 4 × Fin 64) := ⟨addr, 0, 32⟩
end QCfg0

namespace QCfg1
/-- Qq.CFG1: 11_bus_queues_and_windows.md R336. -/
def addr (i : Fin 4 × Fin 64) : Nat := queueBase i + 0x4
/-- Qq.CFG1.QSTALE (LIVE). -/
def QSTALE : RF (Fin 4 × Fin 64) := ⟨addr, 0, 16⟩
/-- Qq.CFG1.OWNTMO (LIVE). -/
def OWNTMO : RF (Fin 4 × Fin 64) := ⟨addr, 16, 8⟩
/-- Qq.CFG1.PROD (LIVE). -/
def PROD : RF (Fin 4 × Fin 64) := ⟨addr, 24, 2⟩
/-- Qq.CFG1.CONS (LIVE). -/
def CONS : RF (Fin 4 × Fin 64) := ⟨addr, 26, 2⟩
/-- The whole register Qq.CFG1. -/
def word : RF (Fin 4 × Fin 64) := ⟨addr, 0, 32⟩
end QCfg1

namespace QStat
/-- Qq.STAT: 11_bus_queues_and_windows.md R336. -/
def addr (i : Fin 4 × Fin 64) : Nat := queueBase i + 0x8
/-- Qq.STAT.EMPTY (W1C). -/
def EMPTY : RF (Fin 4 × Fin 64) := ⟨addr, 0, 1⟩
/-- Qq.STAT.STALE (W1C). -/
def STALE : RF (Fin 4 × Fin 64) := ⟨addr, 1, 1⟩
/-- Qq.STAT.DROPPED (W1C). -/
def DROPPED : RF (Fin 4 × Fin 64) := ⟨addr, 2, 1⟩
/-- Qq.STAT.OWNFULL (W1C). -/
def OWNFULL : RF (Fin 4 × Fin 64) := ⟨addr, 3, 1⟩
/-- Qq.STAT.NOTCONS (W1C). -/
def NOTCONS : RF (Fin 4 × Fin 64) := ⟨addr, 4, 1⟩
/-- Qq.STAT.STALEACK (W1C). -/
def STALEACK : RF (Fin 4 × Fin 64) := ⟨addr, 5, 1⟩
/-- Qq.STAT.RECLAIM (W1C). -/
def RECLAIM : RF (Fin 4 × Fin 64) := ⟨addr, 6, 1⟩
/-- Qq.STAT.RST (LIVE). -/
def RST : RF (Fin 4 × Fin 64) := ⟨addr, 7, 1⟩
/-- Qq.STAT.POPPING (LIVE). -/
def POPPING : RF (Fin 4 × Fin 64) := ⟨addr, 8, 1⟩
/-- Qq.STAT.PUSHING (LIVE). -/
def PUSHING : RF (Fin 4 × Fin 64) := ⟨addr, 9, 1⟩
/-- Qq.STAT.REF (W1C). -/
def REF : RF (Fin 4 × Fin 64) := ⟨addr, 10, 1⟩
/-- Qq.STAT.DROPCNT (CNT). -/
def DROPCNT : RF (Fin 4 × Fin 64) := ⟨addr, 16, 16⟩
/-- The whole register Qq.STAT. -/
def word : RF (Fin 4 × Fin 64) := ⟨addr, 0, 32⟩
end QStat

namespace QUse
/-- Qq.USE: 11_bus_queues_and_windows.md R336. -/
def addr (i : Fin 4 × Fin 64) : Nat := queueBase i + 0xc
/-- Qq.USE.CELLS (LIVE). -/
def CELLS : RF (Fin 4 × Fin 64) := ⟨addr, 0, 14⟩
/-- Qq.USE.OWNED (LIVE). -/
def OWNED : RF (Fin 4 × Fin 64) := ⟨addr, 16, 5⟩
/-- Qq.USE.PKTS (LIVE). -/
def PKTS : RF (Fin 4 × Fin 64) := ⟨addr, 21, 11⟩
/-- The whole register Qq.USE. -/
def word : RF (Fin 4 × Fin 64) := ⟨addr, 0, 32⟩
end QUse

namespace QCtl
/-- Qq.CTL: 11_bus_queues_and_windows.md R336. -/
def addr (i : Fin 4 × Fin 64) : Nat := queueBase i + 0x10
/-- Qq.CTL.SLAG (CMD). -/
def SLAG : RF (Fin 4 × Fin 64) := ⟨addr, 0, 1⟩
/-- Qq.CTL.FLUSH (CMD). -/
def FLUSH : RF (Fin 4 × Fin 64) := ⟨addr, 1, 1⟩
/-- The whole register Qq.CTL. -/
def word : RF (Fin 4 × Fin 64) := ⟨addr, 0, 32⟩
end QCtl

namespace QPdata
/-- Qq.PDATA: 11_bus_queues_and_windows.md R336. -/
def addr (i : Fin 4 × Fin 64) : Nat := queueBase i + 0x14
/-- Qq.PDATA.DATA (CMD). -/
def DATA : RF (Fin 4 × Fin 64) := ⟨addr, 0, 32⟩
/-- The whole register Qq.PDATA. -/
def word : RF (Fin 4 × Fin 64) := ⟨addr, 0, 32⟩
end QPdata

namespace QPend
/-- Qq.PEND: 11_bus_queues_and_windows.md R336. -/
def addr (i : Fin 4 × Fin 64) : Nat := queueBase i + 0x18
/-- Qq.PEND.PRI (CMD). -/
def PRI : RF (Fin 4 × Fin 64) := ⟨addr, 0, 4⟩
/-- Qq.PEND.TRIM (CMD). -/
def TRIM : RF (Fin 4 × Fin 64) := ⟨addr, 4, 2⟩
/-- The whole register Qq.PEND. -/
def word : RF (Fin 4 × Fin 64) := ⟨addr, 0, 32⟩
end QPend

namespace QPop
/-- Qq.POP: 11_bus_queues_and_windows.md R336. -/
def addr (i : Fin 4 × Fin 64) : Nat := queueBase i + 0x1c
/-- Qq.POP.DATA (LIVE). -/
def DATA : RF (Fin 4 × Fin 64) := ⟨addr, 0, 32⟩
/-- The whole register Qq.POP. -/
def word : RF (Fin 4 × Fin 64) := ⟨addr, 0, 32⟩
end QPop

namespace QAck
/-- Qq.ACK: 11_bus_queues_and_windows.md R336. -/
def addr (i : Fin 4 × Fin 64) : Nat := queueBase i + 0x20
/-- Qq.ACK.HANDLE (CMD). -/
def HANDLE : RF (Fin 4 × Fin 64) := ⟨addr, 0, 16⟩
/-- The whole register Qq.ACK. -/
def word : RF (Fin 4 × Fin 64) := ⟨addr, 0, 32⟩
end QAck

namespace TqCtl
/-- RGNp.BPTQCTL: 11_bus_queues_and_windows.md R337. -/
def addr (i : Fin 4) : Nat := portBase i + 0x100
/-- RGNp.BPTQCTL.ABORT_HEAD (CMD). -/
def ABORT_HEAD : RF (Fin 4) := ⟨addr, 0, 1⟩
/-- RGNp.BPTQCTL.ROTATE (CFG). -/
def ROTATE : RF (Fin 4) := ⟨addr, 1, 1⟩
/-- RGNp.BPTQCTL.ROTN (CFG). -/
def ROTN : RF (Fin 4) := ⟨addr, 2, 4⟩
/-- The whole register RGNp.BPTQCTL. -/
def word : RF (Fin 4) := ⟨addr, 0, 32⟩
end TqCtl

namespace TqStat
/-- RGNp.BPTQSTAT: 11_bus_queues_and_windows.md R337. -/
def addr (i : Fin 4) : Nat := portBase i + 0x104
/-- RGNp.BPTQSTAT.HEADTX (LIVE). -/
def HEADTX : RF (Fin 4) := ⟨addr, 0, 1⟩
/-- RGNp.BPTQSTAT.ABORTPEND (LIVE). -/
def ABORTPEND : RF (Fin 4) := ⟨addr, 1, 1⟩
/-- RGNp.BPTQSTAT.TXREF_SEEN (W1C). -/
def TXREF_SEEN : RF (Fin 4) := ⟨addr, 2, 1⟩
/-- RGNp.BPTQSTAT.ROT_SEEN (W1C). -/
def ROT_SEEN : RF (Fin 4) := ⟨addr, 3, 1⟩
/-- RGNp.BPTQSTAT.ABT_SEEN (W1C). -/
def ABT_SEEN : RF (Fin 4) := ⟨addr, 4, 1⟩
/-- RGNp.BPTQSTAT.LOSTN (LIVE). -/
def LOSTN : RF (Fin 4) := ⟨addr, 8, 4⟩
/-- RGNp.BPTQSTAT.TAG (LIVE). -/
def TAG : RF (Fin 4) := ⟨addr, 16, 16⟩
/-- The whole register RGNp.BPTQSTAT. -/
def word : RF (Fin 4) := ⟨addr, 0, 32⟩
end TqStat

namespace TqCnt
/-- RGNp.BPTQCNT: 11_bus_queues_and_windows.md R337. -/
def addr (i : Fin 4) : Nat := portBase i + 0x108
/-- RGNp.BPTQCNT.TXREF (CNT). -/
def TXREF : RF (Fin 4) := ⟨addr, 0, 8⟩
/-- RGNp.BPTQCNT.ABORTS (CNT). -/
def ABORTS : RF (Fin 4) := ⟨addr, 8, 8⟩
/-- RGNp.BPTQCNT.ROTATES (CNT). -/
def ROTATES : RF (Fin 4) := ⟨addr, 16, 16⟩
/-- The whole register RGNp.BPTQCNT. -/
def word : RF (Fin 4) := ⟨addr, 0, 32⟩
end TqCnt

namespace Fdef
/-- RGNp.BPFDEF: 11_bus_queues_and_windows.md R337. -/
def addr (i : Fin 4) : Nat := portBase i + 0x110
/-- RGNp.BPFDEF.ACT (CFG). -/
def ACT : RF (Fin 4) := ⟨addr, 0, 2⟩
/-- RGNp.BPFDEF.PRI (CFG). -/
def PRI : RF (Fin 4) := ⟨addr, 2, 4⟩
/-- RGNp.BPFDEF.SREN (CFG). -/
def SREN : RF (Fin 4) := ⟨addr, 6, 1⟩
/-- The whole register RGNp.BPFDEF. -/
def word : RF (Fin 4) := ⟨addr, 0, 32⟩
end Fdef

namespace RxCnt
/-- RGNp.BPRXCNT: 11_bus_queues_and_windows.md R337. -/
def addr (i : Fin 4) : Nat := portBase i + 0x114
/-- RGNp.BPRXCNT.NOMATCH (CNT). -/
def NOMATCH : RF (Fin 4) := ⟨addr, 0, 16⟩
/-- RGNp.BPRXCNT.DROP (CNT). -/
def DROP : RF (Fin 4) := ⟨addr, 16, 16⟩
/-- The whole register RGNp.BPRXCNT. -/
def word : RF (Fin 4) := ⟨addr, 0, 32⟩
end RxCnt

namespace RxStat
/-- RGNp.BPRXSTAT: 11_bus_queues_and_windows.md R337. -/
def addr (i : Fin 4) : Nat := portBase i + 0x118
/-- RGNp.BPRXSTAT.FEREF (W1C). -/
def FEREF : RF (Fin 4) := ⟨addr, 0, 1⟩
/-- The whole register RGNp.BPRXSTAT. -/
def word : RF (Fin 4) := ⟨addr, 0, 32⟩
end RxStat

namespace Wsum
/-- RGNp.BPWSUM: 11_bus_queues_and_windows.md R337. -/
def addr (i : Fin 4) : Nat := portBase i + 0x11c
/-- RGNp.BPWSUM.MISSED (W1C). -/
def MISSED : RF (Fin 4) := ⟨addr, 0, 32⟩
/-- The whole register RGNp.BPWSUM. -/
def word : RF (Fin 4) := ⟨addr, 0, 32⟩
end Wsum

namespace VnLo
/-- RGNp.VNv.LO: 11_bus_queues_and_windows.md R337. -/
def addr (i : Fin 4 × Fin 17) : Nat := portBase i.1 + 0x200 + i.2.val * 8
/-- RGNp.VNv.LO.ID (LIVE). -/
def ID : RF (Fin 4 × Fin 17) := ⟨addr, 0, 29⟩
/-- RGNp.VNv.LO.XTD (LIVE). -/
def XTD : RF (Fin 4 × Fin 17) := ⟨addr, 29, 1⟩
/-- RGNp.VNv.LO.EN (LIVE). -/
def EN : RF (Fin 4 × Fin 17) := ⟨addr, 30, 1⟩
/-- The whole register RGNp.VNv.LO. -/
def word : RF (Fin 4 × Fin 17) := ⟨addr, 0, 32⟩
end VnLo

namespace VnHi
/-- RGNp.VNv.HI: 11_bus_queues_and_windows.md R337. -/
def addr (i : Fin 4 × Fin 17) : Nat := portBase i.1 + 0x204 + i.2.val * 8
/-- RGNp.VNv.HI.ID (LIVE). -/
def ID : RF (Fin 4 × Fin 17) := ⟨addr, 0, 29⟩
/-- The whole register RGNp.VNv.HI. -/
def word : RF (Fin 4 × Fin 17) := ⟨addr, 0, 32⟩
end VnHi

namespace WCfg0
/-- Ww.CFG0: 11_bus_queues_and_windows.md R337. -/
def addr (i : Fin 4 × Fin 32) : Nat := portBase i.1 + 0x400 + i.2.val * 0x20 + 0x0
/-- Ww.CFG0.ID (LIVE). -/
def ID : RF (Fin 4 × Fin 32) := ⟨addr, 0, 29⟩
/-- Ww.CFG0.XTD (LIVE). -/
def XTD : RF (Fin 4 × Fin 32) := ⟨addr, 29, 1⟩
/-- The whole register Ww.CFG0. -/
def word : RF (Fin 4 × Fin 32) := ⟨addr, 0, 32⟩
end WCfg0

namespace WCfg1
/-- Ww.CFG1: 11_bus_queues_and_windows.md R337. -/
def addr (i : Fin 4 × Fin 32) : Nat := portBase i.1 + 0x400 + i.2.val * 0x20 + 0x4
/-- Ww.CFG1.FMT (LIVE). -/
def FMT : RF (Fin 4 × Fin 32) := ⟨addr, 0, 3⟩
/-- Ww.CFG1.BRS (LIVE). -/
def BRS : RF (Fin 4 × Fin 32) := ⟨addr, 3, 1⟩
/-- Ww.CFG1.NODE (LIVE). -/
def NODE : RF (Fin 4 × Fin 32) := ⟨addr, 4, 5⟩
/-- Ww.CFG1.PACK (LIVE). -/
def PACK : RF (Fin 4 × Fin 32) := ⟨addr, 9, 1⟩
/-- Ww.CFG1.DLEN (LIVE). -/
def DLEN : RF (Fin 4 × Fin 32) := ⟨addr, 10, 7⟩
/-- Ww.CFG1.BLOCK (LIVE). -/
def BLOCK : RF (Fin 4 × Fin 32) := ⟨addr, 17, 4⟩
/-- Ww.CFG1.DOM (LIVE). -/
def DOM : RF (Fin 4 × Fin 32) := ⟨addr, 21, 3⟩
/-- Ww.CFG1.EVERY (LIVE). -/
def EVERY : RF (Fin 4 × Fin 32) := ⟨addr, 24, 8⟩
/-- The whole register Ww.CFG1. -/
def word : RF (Fin 4 × Fin 32) := ⟨addr, 0, 32⟩
end WCfg1

namespace WOpos
/-- Ww.OPOS: 11_bus_queues_and_windows.md R337. -/
def addr (i : Fin 4 × Fin 32) : Nat := portBase i.1 + 0x400 + i.2.val * 0x20 + 0x8
/-- Ww.OPOS.V (LIVE). -/
def V : RF (Fin 4 × Fin 32) := ⟨addr, 0, 20⟩
/-- The whole register Ww.OPOS. -/
def word : RF (Fin 4 × Fin 32) := ⟨addr, 0, 32⟩
end WOpos

namespace WCpos
/-- Ww.CPOS: 11_bus_queues_and_windows.md R337. -/
def addr (i : Fin 4 × Fin 32) : Nat := portBase i.1 + 0x400 + i.2.val * 0x20 + 0xc
/-- Ww.CPOS.V (LIVE). -/
def V : RF (Fin 4 × Fin 32) := ⟨addr, 0, 20⟩
/-- The whole register Ww.CPOS. -/
def word : RF (Fin 4 × Fin 32) := ⟨addr, 0, 32⟩
end WCpos

namespace WExt
/-- Ww.EXT: 11_bus_queues_and_windows.md R337. -/
def addr (i : Fin 4 × Fin 32) : Nat := portBase i.1 + 0x400 + i.2.val * 0x20 + 0x10
/-- Ww.EXT.SDT (LIVE). -/
def SDT : RF (Fin 4 × Fin 32) := ⟨addr, 0, 8⟩
/-- Ww.EXT.VCID (LIVE). -/
def VCID : RF (Fin 4 × Fin 32) := ⟨addr, 8, 8⟩
/-- Ww.EXT.STAMP (LIVE). -/
def STAMP : RF (Fin 4 × Fin 32) := ⟨addr, 16, 1⟩
/-- The whole register Ww.EXT. -/
def word : RF (Fin 4 × Fin 32) := ⟨addr, 0, 32⟩
end WExt

namespace WAf
/-- Ww.AF: 11_bus_queues_and_windows.md R337. -/
def addr (i : Fin 4 × Fin 32) : Nat := portBase i.1 + 0x400 + i.2.val * 0x20 + 0x14
/-- Ww.AF.AF (LIVE). -/
def AF : RF (Fin 4 × Fin 32) := ⟨addr, 0, 32⟩
/-- The whole register Ww.AF. -/
def word : RF (Fin 4 × Fin 32) := ⟨addr, 0, 32⟩
end WAf

namespace WStat
/-- Ww.STAT: 11_bus_queues_and_windows.md R337. -/
def addr (i : Fin 4 × Fin 32) : Nat := portBase i.1 + 0x400 + i.2.val * 0x20 + 0x18
/-- Ww.STAT.FRESH (LIVE). -/
def FRESH : RF (Fin 4 × Fin 32) := ⟨addr, 0, 1⟩
/-- Ww.STAT.DUE (LIVE). -/
def DUE : RF (Fin 4 × Fin 32) := ⟨addr, 1, 1⟩
/-- Ww.STAT.TXING (LIVE). -/
def TXING : RF (Fin 4 × Fin 32) := ⟨addr, 2, 1⟩
/-- Ww.STAT.MISSED_SEEN (W1C). -/
def MISSED_SEEN : RF (Fin 4 × Fin 32) := ⟨addr, 3, 1⟩
/-- Ww.STAT.CAUSE (LIVE). -/
def CAUSE : RF (Fin 4 × Fin 32) := ⟨addr, 4, 3⟩
/-- Ww.STAT.ABORTED_SEEN (W1C). -/
def ABORTED_SEEN : RF (Fin 4 × Fin 32) := ⟨addr, 7, 1⟩
/-- Ww.STAT.OPENS (CNT). -/
def OPENS : RF (Fin 4 × Fin 32) := ⟨addr, 16, 16⟩
/-- The whole register Ww.STAT. -/
def word : RF (Fin 4 × Fin 32) := ⟨addr, 0, 32⟩
end WStat

namespace WCnt
/-- Ww.CNT: 11_bus_queues_and_windows.md R337. -/
def addr (i : Fin 4 × Fin 32) : Nat := portBase i.1 + 0x400 + i.2.val * 0x20 + 0x1c
/-- Ww.CNT.SENT (CNT). -/
def SENT : RF (Fin 4 × Fin 32) := ⟨addr, 0, 16⟩
/-- Ww.CNT.MISS (CNT). -/
def MISS : RF (Fin 4 × Fin 32) := ⟨addr, 16, 16⟩
/-- The whole register Ww.CNT. -/
def word : RF (Fin 4 × Fin 32) := ⟨addr, 0, 32⟩
end WCnt

namespace WBuf
/-- window buffer data: 11_bus_queues_and_windows.md R337. -/
def addr (i : Fin 4 × Fin 32 × Fin 16) : Nat := portBase i.1 + 0x800 + i.2.1.val * 0x40 + i.2.2.val * 4
/-- window buffer data.V (LIVE). -/
def V : RF (Fin 4 × Fin 32 × Fin 16) := ⟨addr, 0, 32⟩
/-- The whole register window buffer data. -/
def word : RF (Fin 4 × Fin 32 × Fin 16) := ⟨addr, 0, 32⟩
end WBuf

namespace FeCtl
/-- FEi.CTL: 11_bus_queues_and_windows.md R337. -/
def addr (i : Fin 4 × Fin 128) : Nat := portBase i.1 + 0x1000 + i.2.val * 0x20 + 0x0
/-- FEi.CTL.EN (CFG). -/
def EN : RF (Fin 4 × Fin 128) := ⟨addr, 0, 1⟩
/-- FEi.CTL.ACT (CFG). -/
def ACT : RF (Fin 4 × Fin 128) := ⟨addr, 1, 2⟩
/-- FEi.CTL.PRI (CFG). -/
def PRI : RF (Fin 4 × Fin 128) := ⟨addr, 3, 4⟩
/-- FEi.CTL.DOM (CFG). -/
def DOM : RF (Fin 4 × Fin 128) := ⟨addr, 7, 3⟩
/-- FEi.CTL.COPY (CFG). -/
def COPY : RF (Fin 4 × Fin 128) := ⟨addr, 10, 1⟩
/-- The whole register FEi.CTL. -/
def word : RF (Fin 4 × Fin 128) := ⟨addr, 0, 32⟩
end FeCtl

namespace FeMatch0
/-- FEi.MATCH0: 11_bus_queues_and_windows.md R337. -/
def addr (i : Fin 4 × Fin 128) : Nat := portBase i.1 + 0x1000 + i.2.val * 0x20 + 0x4
/-- FEi.MATCH0.V (CFG). -/
def V : RF (Fin 4 × Fin 128) := ⟨addr, 0, 32⟩
/-- The whole register FEi.MATCH0. -/
def word : RF (Fin 4 × Fin 128) := ⟨addr, 0, 32⟩
end FeMatch0

namespace FeMask0
/-- FEi.MASK0: 11_bus_queues_and_windows.md R337. -/
def addr (i : Fin 4 × Fin 128) : Nat := portBase i.1 + 0x1000 + i.2.val * 0x20 + 0x8
/-- FEi.MASK0.V (CFG). -/
def V : RF (Fin 4 × Fin 128) := ⟨addr, 0, 32⟩
/-- The whole register FEi.MASK0. -/
def word : RF (Fin 4 × Fin 128) := ⟨addr, 0, 32⟩
end FeMask0

namespace FeMatch1
/-- FEi.MATCH1: 11_bus_queues_and_windows.md R337. -/
def addr (i : Fin 4 × Fin 128) : Nat := portBase i.1 + 0x1000 + i.2.val * 0x20 + 0xc
/-- FEi.MATCH1.V (CFG). -/
def V : RF (Fin 4 × Fin 128) := ⟨addr, 0, 32⟩
/-- The whole register FEi.MATCH1. -/
def word : RF (Fin 4 × Fin 128) := ⟨addr, 0, 32⟩
end FeMatch1

namespace FeMask1
/-- FEi.MASK1: 11_bus_queues_and_windows.md R337. -/
def addr (i : Fin 4 × Fin 128) : Nat := portBase i.1 + 0x1000 + i.2.val * 0x20 + 0x10
/-- FEi.MASK1.V (CFG). -/
def V : RF (Fin 4 × Fin 128) := ⟨addr, 0, 32⟩
/-- The whole register FEi.MASK1. -/
def word : RF (Fin 4 × Fin 128) := ⟨addr, 0, 32⟩
end FeMask1

namespace Doorbell
/-- EVG.DOORBELL: 12_event_gatherer.md R359. -/
def addr (_i : Unit) : Nat := 0x10000
/-- EVG.DOORBELL.SRC (CMD). -/
def SRC : RF (Unit) := ⟨addr, 0, 10⟩
/-- EVG.DOORBELL.ASSERT (CMD). -/
def ASSERT : RF (Unit) := ⟨addr, 15, 1⟩
/-- EVG.DOORBELL.INFO (CMD). -/
def INFO : RF (Unit) := ⟨addr, 16, 16⟩
/-- The whole register EVG.DOORBELL. -/
def word : RF (Unit) := ⟨addr, 0, 32⟩
end Doorbell

namespace EvgCtl
/-- EVG.CTL: 12_event_gatherer.md R359. -/
def addr (_i : Unit) : Nat := 0x10004
/-- EVG.CTL.STUCKN (CFG). -/
def STUCKN : RF (Unit) := ⟨addr, 0, 8⟩
/-- The whole register EVG.CTL. -/
def word : RF (Unit) := ⟨addr, 0, 32⟩
end EvgCtl

namespace EvgCnt
/-- EVG.CNT: 12_event_gatherer.md R359. -/
def addr (_i : Unit) : Nat := 0x10008
/-- EVG.CNT.MSGS (CNT). -/
def MSGS : RF (Unit) := ⟨addr, 0, 16⟩
/-- EVG.CNT.IGN (CNT). -/
def IGN : RF (Unit) := ⟨addr, 16, 16⟩
/-- The whole register EVG.CNT. -/
def word : RF (Unit) := ⟨addr, 0, 32⟩
end EvgCnt

namespace Hog
/-- EVG.HOGg: 12_event_gatherer.md R359. -/
def addr (i : Fin 64) : Nat := 0x10100 + i.val * 4
/-- EVG.HOGg.HOLDOFF (CFG). -/
def HOLDOFF : RF (Fin 64) := ⟨addr, 0, 16⟩
/-- EVG.HOGg.RUN (LIVE). -/
def RUN : RF (Fin 64) := ⟨addr, 16, 1⟩
/-- The whole register EVG.HOGg. -/
def word : RF (Fin 64) := ⟨addr, 0, 32⟩
end Hog

namespace Sact
/-- EVG.SACTw: 12_event_gatherer.md R359. -/
def addr (i : Fin 32) : Nat := 0x10200 + i.val * 4
/-- EVG.SACTw.V (LIVE). -/
def V : RF (Fin 32) := ⟨addr, 0, 32⟩
/-- The whole register EVG.SACTw. -/
def word : RF (Fin 32) := ⟨addr, 0, 32⟩
end Sact

namespace Sstk
/-- EVG.SSTKw: 12_event_gatherer.md R359. -/
def addr (i : Fin 32) : Nat := 0x10280 + i.val * 4
/-- EVG.SSTKw.V (W1C). -/
def V : RF (Fin 32) := ⟨addr, 0, 32⟩
/-- The whole register EVG.SSTKw. -/
def word : RF (Fin 32) := ⟨addr, 0, 32⟩
end Sstk

namespace Spnd
/-- EVG.SPNDw: 12_event_gatherer.md R359. -/
def addr (i : Fin 32) : Nat := 0x10300 + i.val * 4
/-- EVG.SPNDw.V (LIVE). -/
def V : RF (Fin 32) := ⟨addr, 0, 32⟩
/-- The whole register EVG.SPNDw. -/
def word : RF (Fin 32) := ⟨addr, 0, 32⟩
end Spnd

namespace Src
/-- EVG.SRCs: 12_event_gatherer.md R359. -/
def addr (i : Fin 1024) : Nat := 0x11000 + i.val * 4
/-- EVG.SRCs.TGT (CFG). -/
def TGT : RF (Fin 1024) := ⟨addr, 0, 2⟩
/-- EVG.SRCs.CLASS (CFG). -/
def CLASS : RF (Fin 1024) := ⟨addr, 2, 1⟩
/-- EVG.SRCs.KIND (LIVE). -/
def KIND : RF (Fin 1024) := ⟨addr, 3, 1⟩
/-- EVG.SRCs.EN (CFG). -/
def EN : RF (Fin 1024) := ⟨addr, 4, 1⟩
/-- EVG.SRCs.WAKE (CFG). -/
def WAKE : RF (Fin 1024) := ⟨addr, 5, 1⟩
/-- EVG.SRCs.FSLOT (CFG). -/
def FSLOT : RF (Fin 1024) := ⟨addr, 6, 3⟩
/-- EVG.SRCs.GROUP (CFG). -/
def GROUP : RF (Fin 1024) := ⟨addr, 9, 6⟩
/-- EVG.SRCs.SWKIND (CFG). -/
def SWKIND : RF (Fin 1024) := ⟨addr, 15, 1⟩
/-- The whole register EVG.SRCs. -/
def word : RF (Fin 1024) := ⟨addr, 0, 32⟩
end Src

namespace TCfg
/-- Tt.CFG: 12_event_gatherer.md R359. -/
def addr (i : Fin 4) : Nat := 0x14000 + i.val * 0x1000 + 0x0
/-- Tt.CFG.NMASK (CFG). -/
def NMASK : RF (Fin 4) := ⟨addr, 0, 1⟩
/-- Tt.CFG.FMASK (CFG). -/
def FMASK : RF (Fin 4) := ⟨addr, 1, 1⟩
/-- Tt.CFG.SLEEP (CMD). -/
def SLEEP : RF (Fin 4) := ⟨addr, 2, 1⟩
/-- Tt.CFG.LADLE (CFG). -/
def LADLE : RF (Fin 4) := ⟨addr, 3, 1⟩
/-- Tt.CFG.LCH (CFG). -/
def LCH : RF (Fin 4) := ⟨addr, 4, 3⟩
/-- Tt.CFG.NVEC (CFG). -/
def NVEC : RF (Fin 4) := ⟨addr, 7, 5⟩
/-- Tt.CFG.FVEC (CFG). -/
def FVEC : RF (Fin 4) := ⟨addr, 12, 5⟩
/-- Tt.CFG.FUNC (CFG). -/
def FUNC : RF (Fin 4) := ⟨addr, 17, 1⟩
/-- The whole register Tt.CFG. -/
def word : RF (Fin 4) := ⟨addr, 0, 32⟩
end TCfg

namespace TStat
/-- Tt.STAT: 12_event_gatherer.md R359. -/
def addr (i : Fin 4) : Nat := 0x14000 + i.val * 0x1000 + 0x4
/-- Tt.STAT.UNCL (LIVE). -/
def UNCL : RF (Fin 4) := ⟨addr, 0, 8⟩
/-- Tt.STAT.HELD (LIVE). -/
def HELD : RF (Fin 4) := ⟨addr, 8, 5⟩
/-- Tt.STAT.NINT (LIVE). -/
def NINT : RF (Fin 4) := ⟨addr, 13, 1⟩
/-- Tt.STAT.FINT (LIVE). -/
def FINT : RF (Fin 4) := ⟨addr, 14, 1⟩
/-- Tt.STAT.ASLEEP (LIVE). -/
def ASLEEP : RF (Fin 4) := ⟨addr, 15, 1⟩
/-- Tt.STAT.OVF_SEEN (W1C). -/
def OVF_SEEN : RF (Fin 4) := ⟨addr, 16, 1⟩
/-- Tt.STAT.BADCOMP (W1C). -/
def BADCOMP : RF (Fin 4) := ⟨addr, 17, 1⟩
/-- Tt.STAT.CLMFULL (W1C). -/
def CLMFULL : RF (Fin 4) := ⟨addr, 18, 1⟩
/-- Tt.STAT.WOKE (W1C). -/
def WOKE : RF (Fin 4) := ⟨addr, 19, 1⟩
/-- The whole register Tt.STAT. -/
def word : RF (Fin 4) := ⟨addr, 0, 32⟩
end TStat

namespace TClaim
/-- Tt.CLAIM: 12_event_gatherer.md R359. -/
def addr (i : Fin 4) : Nat := 0x14000 + i.val * 0x1000 + 0x8
/-- Tt.CLAIM.HANDLE (LIVE). -/
def HANDLE : RF (Fin 4) := ⟨addr, 0, 32⟩
/-- The whole register Tt.CLAIM. -/
def word : RF (Fin 4) := ⟨addr, 0, 32⟩
end TClaim

namespace TComplete
/-- Tt.COMPLETE: 12_event_gatherer.md R359. -/
def addr (i : Fin 4) : Nat := 0x14000 + i.val * 0x1000 + 0xc
/-- Tt.COMPLETE.IDX (CMD). -/
def IDX : RF (Fin 4) := ⟨addr, 0, 7⟩
/-- Tt.COMPLETE.SEQ (CMD). -/
def SEQ : RF (Fin 4) := ⟨addr, 8, 8⟩
/-- Tt.COMPLETE.SPUR (CMD). -/
def SPUR : RF (Fin 4) := ⟨addr, 16, 1⟩
/-- The whole register Tt.COMPLETE. -/
def word : RF (Fin 4) := ⟨addr, 0, 32⟩
end TComplete

namespace TCnt
/-- Tt.CNT: 12_event_gatherer.md R359. -/
def addr (i : Fin 4) : Nat := 0x14000 + i.val * 0x1000 + 0x10
/-- Tt.CNT.SPURIOUS (CNT). -/
def SPURIOUS : RF (Fin 4) := ⟨addr, 0, 16⟩
/-- Tt.CNT.OVF (CNT). -/
def OVF : RF (Fin 4) := ⟨addr, 16, 8⟩
/-- Tt.CNT.WAKES (CNT). -/
def WAKES : RF (Fin 4) := ⟨addr, 24, 8⟩
/-- The whole register Tt.CNT. -/
def word : RF (Fin 4) := ⟨addr, 0, 32⟩
end TCnt

namespace TFsum
/-- Tt.FSUM: 12_event_gatherer.md R359. -/
def addr (i : Fin 4) : Nat := 0x14000 + i.val * 0x1000 + 0x14
/-- Tt.FSUM.PEND (LIVE). -/
def PEND : RF (Fin 4) := ⟨addr, 0, 8⟩
/-- The whole register Tt.FSUM. -/
def word : RF (Fin 4) := ⟨addr, 0, 32⟩
end TFsum

namespace TFr
/-- Tt.FRi: 12_event_gatherer.md R359. -/
def addr (i : Fin 4 × Fin 8) : Nat := 0x14000 + i.1.val * 0x1000 + 0x20 + i.2.val * 4
/-- Tt.FRi.V (LIVE). -/
def V : RF (Fin 4 × Fin 8) := ⟨addr, 0, 32⟩
/-- The whole register Tt.FRi. -/
def word : RF (Fin 4 × Fin 8) := ⟨addr, 0, 32⟩
end TFr

namespace ChCfg
/-- CHn.CFG: 13_ladle.md R376. -/
def addr (i : Fin 8) : Nat := 0x20000 + i.val * 0x100 + 0x0
/-- CHn.CFG.EN (CFG). -/
def EN : RF (Fin 8) := ⟨addr, 0, 1⟩
/-- CHn.CFG.FUNC (CFG). -/
def FUNC : RF (Fin 8) := ⟨addr, 1, 1⟩
/-- CHn.CFG.RSIZE (CFG). -/
def RSIZE : RF (Fin 8) := ⟨addr, 2, 4⟩
/-- CHn.CFG.RBASE (CFG). -/
def RBASE : RF (Fin 8) := ⟨addr, 6, 13⟩
/-- CHn.CFG.GATHER (CFG). -/
def GATHER : RF (Fin 8) := ⟨addr, 19, 8⟩
/-- The whole register CHn.CFG. -/
def word : RF (Fin 8) := ⟨addr, 0, 32⟩
end ChCfg

namespace ChCtl
/-- CHn.CTL: 13_ladle.md R376. -/
def addr (i : Fin 8) : Nat := 0x20000 + i.val * 0x100 + 0x4
/-- CHn.CTL.START (CMD). -/
def START : RF (Fin 8) := ⟨addr, 0, 1⟩
/-- CHn.CTL.STOP (CMD). -/
def STOP : RF (Fin 8) := ⟨addr, 1, 1⟩
/-- The whole register CHn.CTL. -/
def word : RF (Fin 8) := ⟨addr, 0, 32⟩
end ChCtl

namespace ChTail
/-- CHn.TAIL: 13_ladle.md R376. -/
def addr (i : Fin 8) : Nat := 0x20000 + i.val * 0x100 + 0x8
/-- CHn.TAIL.TAIL (CFG). -/
def TAIL : RF (Fin 8) := ⟨addr, 0, 11⟩
/-- The whole register CHn.TAIL. -/
def word : RF (Fin 8) := ⟨addr, 0, 32⟩
end ChTail

namespace ChHead
/-- CHn.HEAD: 13_ladle.md R376. -/
def addr (i : Fin 8) : Nat := 0x20000 + i.val * 0x100 + 0xc
/-- CHn.HEAD.HEAD (LIVE). -/
def HEAD : RF (Fin 8) := ⟨addr, 0, 11⟩
/-- The whole register CHn.HEAD. -/
def word : RF (Fin 8) := ⟨addr, 0, 32⟩
end ChHead

namespace ChStat
/-- CHn.STAT: 13_ladle.md R376. -/
def addr (i : Fin 8) : Nat := 0x20000 + i.val * 0x100 + 0x10
/-- CHn.STAT.STATE (LIVE). -/
def STATE : RF (Fin 8) := ⟨addr, 0, 3⟩
/-- CHn.STAT.DONE_SEEN (W1C). -/
def DONE_SEEN : RF (Fin 8) := ⟨addr, 3, 1⟩
/-- CHn.STAT.ERR_SEEN (W1C). -/
def ERR_SEEN : RF (Fin 8) := ⟨addr, 4, 1⟩
/-- CHn.STAT.REF (W1C). -/
def REF : RF (Fin 8) := ⟨addr, 5, 1⟩
/-- CHn.STAT.LAST (LIVE). -/
def LAST : RF (Fin 8) := ⟨addr, 6, 4⟩
/-- CHn.STAT.NDONE (CNT). -/
def NDONE : RF (Fin 8) := ⟨addr, 16, 16⟩
/-- The whole register CHn.STAT. -/
def word : RF (Fin 8) := ⟨addr, 0, 32⟩
end ChStat

namespace ChBytes
/-- CHn.BYTES: 13_ladle.md R376. -/
def addr (i : Fin 8) : Nat := 0x20000 + i.val * 0x100 + 0x14
/-- CHn.BYTES.BYTES (CNT). -/
def BYTES : RF (Fin 8) := ⟨addr, 0, 32⟩
/-- The whole register CHn.BYTES. -/
def word : RF (Fin 8) := ⟨addr, 0, 32⟩
end ChBytes

namespace TrcCfg
/-- CHIP.TRC.CFG: 13_ladle.md R376. -/
def addr (_i : Unit) : Nat := 0x20800
/-- CHIP.TRC.CFG.BLK (LIVE). -/
def BLK : RF (Unit) := ⟨addr, 0, 16⟩
/-- CHIP.TRC.CFG.EVT (LIVE). -/
def EVT : RF (Unit) := ⟨addr, 16, 1⟩
/-- CHIP.TRC.CFG.WRAP (LIVE). -/
def WRAP : RF (Unit) := ⟨addr, 17, 1⟩
/-- The whole register CHIP.TRC.CFG. -/
def word : RF (Unit) := ⟨addr, 0, 32⟩
end TrcCfg

namespace TrcStat
/-- CHIP.TRC.STAT: 13_ladle.md R376. -/
def addr (_i : Unit) : Nat := 0x20804
/-- CHIP.TRC.STAT.FILL (LIVE). -/
def FILL : RF (Unit) := ⟨addr, 0, 17⟩
/-- The whole register CHIP.TRC.STAT. -/
def word : RF (Unit) := ⟨addr, 0, 32⟩
end TrcStat

namespace TrcLost
/-- CHIP.TRC.LOST: 13_ladle.md R376. -/
def addr (_i : Unit) : Nat := 0x20808
/-- CHIP.TRC.LOST.LOST (CNT). -/
def LOST : RF (Unit) := ⟨addr, 0, 32⟩
/-- The whole register CHIP.TRC.LOST. -/
def word : RF (Unit) := ⟨addr, 0, 32⟩
end TrcLost

namespace TrcCtl
/-- CHIP.TRC.CTL: 13_ladle.md R376. -/
def addr (_i : Unit) : Nat := 0x2080c
/-- CHIP.TRC.CTL.CLEAR (CMD). -/
def CLEAR : RF (Unit) := ⟨addr, 0, 1⟩
/-- The whole register CHIP.TRC.CTL. -/
def word : RF (Unit) := ⟨addr, 0, 32⟩
end TrcCtl

namespace Wdog
/-- BKnn.WDOG: 14_fault_hierarchy.md R392. -/
def addr (i : Fin 16) : Nat := blockBase i + 0x120
/-- BKnn.WDOG.WDLIM (LIVE). -/
def WDLIM : RF (Fin 16) := ⟨addr, 0, 20⟩
/-- BKnn.WDOG.WDRUN (LIVE). -/
def WDRUN : RF (Fin 16) := ⟨addr, 20, 2⟩
/-- BKnn.WDOG.WD_SEEN (W1C). -/
def WD_SEEN : RF (Fin 16) := ⟨addr, 22, 1⟩
/-- BKnn.WDOG.ABN_SEEN (W1C). -/
def ABN_SEEN : RF (Fin 16) := ⟨addr, 23, 1⟩
/-- BKnn.WDOG.WDCNT (CNT). -/
def WDCNT : RF (Fin 16) := ⟨addr, 24, 8⟩
/-- The whole register BKnn.WDOG. -/
def word : RF (Fin 16) := ⟨addr, 0, 32⟩
end Wdog

namespace Rerr
/-- RGNn.RERR: 14_fault_hierarchy.md R392. -/
def addr (i : Fin 4) : Nat := regionBase i + 0x70
/-- RGNn.RERR.CAUSE (LIVE). -/
def CAUSE : RF (Fin 4) := ⟨addr, 0, 3⟩
/-- RGNn.RERR.RERR_SEEN (W1C). -/
def RERR_SEEN : RF (Fin 4) := ⟨addr, 3, 1⟩
/-- RGNn.RERR.REQ (LIVE). -/
def REQ : RF (Fin 4) := ⟨addr, 4, 3⟩
/-- RGNn.RERR.RXDOM (W1C). -/
def RXDOM : RF (Fin 4) := ⟨addr, 8, 1⟩
/-- RGNn.RERR.CNT (CNT). -/
def CNT : RF (Fin 4) := ⟨addr, 16, 8⟩
/-- RGNn.RERR.WIN (LIVE). -/
def WIN : RF (Fin 4) := ⟨addr, 24, 3⟩
/-- The whole register RGNn.RERR. -/
def word : RF (Fin 4) := ⟨addr, 0, 32⟩
end Rerr

namespace Fail
/-- CHIP.FAIL: 14_fault_hierarchy.md R392. -/
def addr (_i : Unit) : Nat := 0x180
/-- CHIP.FAIL.CAUSE (LIVE). -/
def CAUSE : RF (Unit) := ⟨addr, 0, 3⟩
/-- CHIP.FAIL.REGION (LIVE). -/
def REGION : RF (Unit) := ⟨addr, 4, 2⟩
/-- CHIP.FAIL.FAILRST (W1C). -/
def FAILRST : RF (Unit) := ⟨addr, 6, 1⟩
/-- CHIP.FAIL.LOCK (LIVE). -/
def LOCK : RF (Unit) := ⟨addr, 7, 1⟩
/-- CHIP.FAIL.FCNT (CNT). -/
def FCNT : RF (Unit) := ⟨addr, 8, 8⟩
/-- The whole register CHIP.FAIL. -/
def word : RF (Unit) := ⟨addr, 0, 32⟩
end Fail

namespace Stw
/-- CHIP.STW: 14_fault_hierarchy.md R392. -/
def addr (_i : Unit) : Nat := 0x184
/-- CHIP.STW.DOWN (LIVE). -/
def DOWN : RF (Unit) := ⟨addr, 0, 1⟩
/-- CHIP.STW.HB0_MISS (W1C). -/
def HB0_MISS : RF (Unit) := ⟨addr, 1, 1⟩
/-- CHIP.STW.HB1_MISS (W1C). -/
def HB1_MISS : RF (Unit) := ⟨addr, 2, 1⟩
/-- CHIP.STW.CMDTMO (W1C). -/
def CMDTMO : RF (Unit) := ⟨addr, 3, 1⟩
/-- CHIP.STW.WIN (LIVE). -/
def WIN : RF (Unit) := ⟨addr, 8, 2⟩
/-- The whole register CHIP.STW. -/
def word : RF (Unit) := ⟨addr, 0, 32⟩
end Stw

namespace FltCnt
/-- CHIP.FLTCNT: 14_fault_hierarchy.md R392. -/
def addr (_i : Unit) : Nat := 0x188
/-- CHIP.FLTCNT.WDTRIP (CNT). -/
def WDTRIP : RF (Unit) := ⟨addr, 0, 8⟩
/-- CHIP.FLTCNT.CELLF (CNT). -/
def CELLF : RF (Unit) := ⟨addr, 8, 8⟩
/-- CHIP.FLTCNT.RERR (CNT). -/
def RERR : RF (Unit) := ⟨addr, 16, 8⟩
/-- CHIP.FLTCNT.QUENCH (CNT). -/
def QUENCH : RF (Unit) := ⟨addr, 24, 8⟩
/-- The whole register CHIP.FLTCNT. -/
def word : RF (Unit) := ⟨addr, 0, 32⟩
end FltCnt

namespace TwStat
/-- CHIP.TWIN.STAT: 15_twin_operation.md R429. -/
def addr (_i : Unit) : Nat := 0x50000
/-- CHIP.TWIN.STAT.ROLE (LIVE). -/
def ROLE : RF (Unit) := ⟨addr, 0, 2⟩
/-- CHIP.TWIN.STAT.IDENT (LIVE). -/
def IDENT : RF (Unit) := ⟨addr, 2, 1⟩
/-- CHIP.TWIN.STAT.LINKUP (LIVE). -/
def LINKUP : RF (Unit) := ⟨addr, 3, 1⟩
/-- CHIP.TWIN.STAT.LANES (LIVE). -/
def LANES : RF (Unit) := ⟨addr, 4, 2⟩
/-- CHIP.TWIN.STAT.SYNCED (LIVE). -/
def SYNCED : RF (Unit) := ⟨addr, 6, 1⟩
/-- CHIP.TWIN.STAT.SUSPECT (LIVE). -/
def SUSPECT : RF (Unit) := ⟨addr, 7, 1⟩
/-- CHIP.TWIN.STAT.OWNO (LIVE). -/
def OWNO : RF (Unit) := ⟨addr, 8, 1⟩
/-- CHIP.TWIN.STAT.OWNI (LIVE). -/
def OWNI : RF (Unit) := ⟨addr, 9, 1⟩
/-- CHIP.TWIN.STAT.TWQO (LIVE). -/
def TWQO : RF (Unit) := ⟨addr, 10, 1⟩
/-- CHIP.TWIN.STAT.MIXED (LIVE). -/
def MIXED : RF (Unit) := ⟨addr, 11, 1⟩
/-- CHIP.TWIN.STAT.PEERDOWN (LIVE). -/
def PEERDOWN : RF (Unit) := ⟨addr, 12, 1⟩
/-- CHIP.TWIN.STAT.HREASON (LIVE). -/
def HREASON : RF (Unit) := ⟨addr, 13, 3⟩
/-- CHIP.TWIN.STAT.ROLE_SEEN (W1C). -/
def ROLE_SEEN : RF (Unit) := ⟨addr, 16, 1⟩
/-- CHIP.TWIN.STAT.LINKLOSS_SEEN (W1C). -/
def LINKLOSS_SEEN : RF (Unit) := ⟨addr, 17, 1⟩
/-- CHIP.TWIN.STAT.TKO_SEEN (W1C). -/
def TKO_SEEN : RF (Unit) := ⟨addr, 18, 1⟩
/-- CHIP.TWIN.STAT.SUSP_SEEN (W1C). -/
def SUSP_SEEN : RF (Unit) := ⟨addr, 19, 1⟩
/-- CHIP.TWIN.STAT.CMDREF (W1C). -/
def CMDREF : RF (Unit) := ⟨addr, 20, 1⟩
/-- CHIP.TWIN.STAT.CREASON (LIVE). -/
def CREASON : RF (Unit) := ⟨addr, 21, 2⟩
/-- The whole register CHIP.TWIN.STAT. -/
def word : RF (Unit) := ⟨addr, 0, 32⟩
end TwStat

namespace TwCtl
/-- CHIP.TWIN.CTL: 15_twin_operation.md R429. -/
def addr (_i : Unit) : Nat := 0x50004
/-- CHIP.TWIN.CTL.HANDOVER (CMD). -/
def HANDOVER : RF (Unit) := ⟨addr, 0, 1⟩
/-- CHIP.TWIN.CTL.REPAIR (CMD). -/
def REPAIR : RF (Unit) := ⟨addr, 1, 1⟩
/-- CHIP.TWIN.CTL.FORCE (CMD). -/
def FORCE : RF (Unit) := ⟨addr, 2, 1⟩
/-- The whole register CHIP.TWIN.CTL. -/
def word : RF (Unit) := ⟨addr, 0, 32⟩
end TwCtl

namespace TwCfg
/-- CHIP.TWIN.CFG: 15_twin_operation.md R429. -/
def addr (_i : Unit) : Nat := 0x50008
/-- CHIP.TWIN.CFG.TWQSRC (LIVE). -/
def TWQSRC : RF (Unit) := ⟨addr, 0, 16⟩
/-- The whole register CHIP.TWIN.CFG. -/
def word : RF (Unit) := ⟨addr, 0, 32⟩
end TwCfg

namespace TwLink
/-- CHIP.TWIN.LINK: 15_twin_operation.md R429. -/
def addr (_i : Unit) : Nat := 0x5000c
/-- CHIP.TWIN.LINK.LAT (LIVE). -/
def LAT : RF (Unit) := ⟨addr, 0, 16⟩
/-- CHIP.TWIN.LINK.CRCERR (CNT). -/
def CRCERR : RF (Unit) := ⟨addr, 16, 8⟩
/-- CHIP.TWIN.LINK.RETRAIN (CNT). -/
def RETRAIN : RF (Unit) := ⟨addr, 24, 8⟩
/-- The whole register CHIP.TWIN.LINK. -/
def word : RF (Unit) := ⟨addr, 0, 32⟩
end TwLink

namespace TwCnt
/-- CHIP.TWIN.CNT: 15_twin_operation.md R429. -/
def addr (_i : Unit) : Nat := 0x50010
/-- CHIP.TWIN.CNT.TKO (CNT). -/
def TKO : RF (Unit) := ⟨addr, 0, 8⟩
/-- CHIP.TWIN.CNT.LLOSS (CNT). -/
def LLOSS : RF (Unit) := ⟨addr, 8, 8⟩
/-- CHIP.TWIN.CNT.SHWR (CNT). -/
def SHWR : RF (Unit) := ⟨addr, 16, 16⟩
/-- The whole register CHIP.TWIN.CNT. -/
def word : RF (Unit) := ⟨addr, 0, 32⟩
end TwCnt

namespace TwTko
/-- CHIP.TWIN.TKO: 15_twin_operation.md R429. -/
def addr (_i : Unit) : Nat := 0x50014
/-- CHIP.TWIN.TKO.RES (LIVE). -/
def RES : RF (Unit) := ⟨addr, 0, 16⟩
/-- CHIP.TWIN.TKO.HBAGE (LIVE). -/
def HBAGE : RF (Unit) := ⟨addr, 16, 8⟩
/-- CHIP.TWIN.TKO.CAUSE (LIVE). -/
def CAUSE : RF (Unit) := ⟨addr, 24, 2⟩
/-- The whole register CHIP.TWIN.TKO. -/
def word : RF (Unit) := ⟨addr, 0, 32⟩
end TwTko

namespace TwBk
/-- CHIP.TWIN.BKnn: 15_twin_operation.md R429. -/
def addr (i : Fin 16) : Nat := 0x50040 + i.val * 4
/-- CHIP.TWIN.BKnn.MISRUN (LIVE). -/
def MISRUN : RF (Fin 16) := ⟨addr, 0, 2⟩
/-- CHIP.TWIN.BKnn.RESYNC (LIVE). -/
def RESYNC : RF (Fin 16) := ⟨addr, 2, 1⟩
/-- CHIP.TWIN.BKnn.MIS_SEEN (W1C). -/
def MIS_SEEN : RF (Fin 16) := ⟨addr, 3, 1⟩
/-- CHIP.TWIN.BKnn.NOCMP (LIVE). -/
def NOCMP : RF (Fin 16) := ⟨addr, 4, 1⟩
/-- CHIP.TWIN.BKnn.RSCNT (CNT). -/
def RSCNT : RF (Fin 16) := ⟨addr, 8, 8⟩
/-- CHIP.TWIN.BKnn.MISCNT (CNT). -/
def MISCNT : RF (Fin 16) := ⟨addr, 16, 16⟩
/-- The whole register CHIP.TWIN.BKnn. -/
def word : RF (Fin 16) := ⟨addr, 0, 32⟩
end TwBk

namespace UpdCtl
/-- CHIP.UPD.CTL: 16_update_and_versions.md R455. -/
def addr (_i : Unit) : Nat := 0x60000
/-- CHIP.UPD.CTL.ABORT (CMD). -/
def ABORT : RF (Unit) := ⟨addr, 0, 1⟩
/-- CHIP.UPD.CTL.COMMIT (CMD). -/
def COMMIT : RF (Unit) := ⟨addr, 1, 1⟩
/-- CHIP.UPD.CTL.ACTNOW (CMD). -/
def ACTNOW : RF (Unit) := ⟨addr, 2, 1⟩
/-- CHIP.UPD.CTL.CONFIRM (CMD). -/
def CONFIRM : RF (Unit) := ⟨addr, 3, 1⟩
/-- CHIP.UPD.CTL.REVERT (CMD). -/
def REVERT : RF (Unit) := ⟨addr, 4, 1⟩
/-- The whole register CHIP.UPD.CTL. -/
def word : RF (Unit) := ⟨addr, 0, 32⟩
end UpdCtl

namespace UpdStat
/-- CHIP.UPD.STAT: 16_update_and_versions.md R455. -/
def addr (_i : Unit) : Nat := 0x60004
/-- CHIP.UPD.STAT.STATE (LIVE). -/
def STATE : RF (Unit) := ⟨addr, 0, 3⟩
/-- CHIP.UPD.STAT.SET (LIVE). -/
def SET : RF (Unit) := ⟨addr, 3, 3⟩
/-- CHIP.UPD.STAT.SWAPPABLE (LIVE). -/
def SWAPPABLE : RF (Unit) := ⟨addr, 6, 1⟩
/-- CHIP.UPD.STAT.FULL (LIVE). -/
def FULL : RF (Unit) := ⟨addr, 7, 1⟩
/-- CHIP.UPD.STAT.CAUSE (LIVE). -/
def CAUSE : RF (Unit) := ⟨addr, 8, 5⟩
/-- CHIP.UPD.STAT.REF_SEEN (W1C). -/
def REF_SEEN : RF (Unit) := ⟨addr, 13, 1⟩
/-- CHIP.UPD.STAT.DONE_SEEN (W1C). -/
def DONE_SEEN : RF (Unit) := ⟨addr, 14, 1⟩
/-- The whole register CHIP.UPD.STAT. -/
def word : RF (Unit) := ⟨addr, 0, 32⟩
end UpdStat

namespace UpdSid
/-- CHIP.UPD.SID: 16_update_and_versions.md R455. -/
def addr (_i : Unit) : Nat := 0x60008
/-- CHIP.UPD.SID.SID (LIVE). -/
def SID : RF (Unit) := ⟨addr, 0, 32⟩
/-- The whole register CHIP.UPD.SID. -/
def word : RF (Unit) := ⟨addr, 0, 32⟩
end UpdSid

namespace UpdProg
/-- CHIP.UPD.PROG: 16_update_and_versions.md R455. -/
def addr (_i : Unit) : Nat := 0x6000c
/-- CHIP.UPD.PROG.RECV (LIVE). -/
def RECV : RF (Unit) := ⟨addr, 0, 16⟩
/-- CHIP.UPD.PROG.COUNT (LIVE). -/
def COUNT : RF (Unit) := ⟨addr, 16, 16⟩
/-- The whole register CHIP.UPD.PROG. -/
def word : RF (Unit) := ⟨addr, 0, 32⟩
end UpdProg

namespace UpdSubmit
/-- CHIP.UPD.SUBMIT: 16_update_and_versions.md R455. -/
def addr (_i : Unit) : Nat := 0x60010
/-- CHIP.UPD.SUBMIT.OFFS (CFG). -/
def OFFS : RF (Unit) := ⟨addr, 0, 18⟩
/-- CHIP.UPD.SUBMIT.GO (CMD). -/
def GO : RF (Unit) := ⟨addr, 31, 1⟩
/-- The whole register CHIP.UPD.SUBMIT. -/
def word : RF (Unit) := ⟨addr, 0, 32⟩
end UpdSubmit

namespace UpdCdom
/-- CHIP.UPD.CDOM: 16_update_and_versions.md R455. -/
def addr (_i : Unit) : Nat := 0x60014
/-- CHIP.UPD.CDOM.DOM (CFG). -/
def DOM : RF (Unit) := ⟨addr, 0, 3⟩
/-- The whole register CHIP.UPD.CDOM. -/
def word : RF (Unit) := ⟨addr, 0, 32⟩
end UpdCdom

namespace UpdCehi
/-- CHIP.UPD.CEHI: 16_update_and_versions.md R455. -/
def addr (_i : Unit) : Nat := 0x60018
/-- CHIP.UPD.CEHI.V (CFG). -/
def V : RF (Unit) := ⟨addr, 0, 20⟩
/-- The whole register CHIP.UPD.CEHI. -/
def word : RF (Unit) := ⟨addr, 0, 32⟩
end UpdCehi

namespace UpdCelo
/-- CHIP.UPD.CELO: 16_update_and_versions.md R455. -/
def addr (_i : Unit) : Nat := 0x6001c
/-- CHIP.UPD.CELO.V (CFG). -/
def V : RF (Unit) := ⟨addr, 0, 20⟩
/-- The whole register CHIP.UPD.CELO. -/
def word : RF (Unit) := ⟨addr, 0, 32⟩
end UpdCelo

namespace UpdCnt
/-- CHIP.UPD.CNT: 16_update_and_versions.md R455. -/
def addr (_i : Unit) : Nat := 0x60020
/-- CHIP.UPD.CNT.DUP (CNT). -/
def DUP : RF (Unit) := ⟨addr, 0, 8⟩
/-- CHIP.UPD.CNT.BAD (CNT). -/
def BAD : RF (Unit) := ⟨addr, 8, 8⟩
/-- CHIP.UPD.CNT.IGN (CNT). -/
def IGN : RF (Unit) := ⟨addr, 16, 8⟩
/-- CHIP.UPD.CNT.SUBREF (CNT). -/
def SUBREF : RF (Unit) := ⟨addr, 24, 8⟩
/-- The whole register CHIP.UPD.CNT. -/
def word : RF (Unit) := ⟨addr, 0, 32⟩
end UpdCnt

namespace UpdCalskip
/-- CHIP.UPD.CALSKIP: 16_update_and_versions.md R455. -/
def addr (_i : Unit) : Nat := 0x60024
/-- CHIP.UPD.CALSKIP.SKIP (CNT). -/
def SKIP : RF (Unit) := ⟨addr, 0, 16⟩
/-- The whole register CHIP.UPD.CALSKIP. -/
def word : RF (Unit) := ⟨addr, 0, 32⟩
end UpdCalskip

namespace UpdBusid
/-- CHIP.UPD.BUSIDp: 16_update_and_versions.md R455. -/
def addr (i : Fin 4) : Nat := 0x60030 + i.val * 4
/-- CHIP.UPD.BUSIDp.ID (LIVE). -/
def ID : RF (Fin 4) := ⟨addr, 0, 11⟩
/-- CHIP.UPD.BUSIDp.EN (LIVE). -/
def EN : RF (Fin 4) := ⟨addr, 11, 1⟩
/-- The whole register CHIP.UPD.BUSIDp. -/
def word : RF (Fin 4) := ⟨addr, 0, 32⟩
end UpdBusid

namespace UpdSfwep
/-- CHIP.UPD.SFWEP: 16_update_and_versions.md R455. -/
def addr (_i : Unit) : Nat := 0x60040
/-- CHIP.UPD.SFWEP.EPOCH (LIVE). -/
def EPOCH : RF (Unit) := ⟨addr, 0, 32⟩
/-- The whole register CHIP.UPD.SFWEP. -/
def word : RF (Unit) := ⟨addr, 0, 32⟩
end UpdSfwep

namespace UpdPatep
/-- CHIP.UPD.PATEP: 16_update_and_versions.md R455. -/
def addr (_i : Unit) : Nat := 0x60044
/-- CHIP.UPD.PATEP.EPOCH (LIVE). -/
def EPOCH : RF (Unit) := ⟨addr, 0, 32⟩
/-- The whole register CHIP.UPD.PATEP. -/
def word : RF (Unit) := ⟨addr, 0, 32⟩
end UpdPatep

namespace UpdCalv
/-- CHIP.UPD.CALV: 16_update_and_versions.md R455. -/
def addr (_i : Unit) : Nat := 0x60048
/-- CHIP.UPD.CALV.CALFMT (LIVE). -/
def CALFMT : RF (Unit) := ⟨addr, 0, 16⟩
/-- CHIP.UPD.CALV.SSF (LIVE). -/
def SSF : RF (Unit) := ⟨addr, 16, 16⟩
/-- The whole register CHIP.UPD.CALV. -/
def word : RF (Unit) := ⟨addr, 0, 32⟩
end UpdCalv

namespace UpdBank
/-- CHIP.UPD.BANK: 16_update_and_versions.md R455. -/
def addr (_i : Unit) : Nat := 0x6004c
/-- CHIP.UPD.BANK.ACTIVE (LIVE). -/
def ACTIVE : RF (Unit) := ⟨addr, 0, 1⟩
/-- CHIP.UPD.BANK.TRIAL (LIVE). -/
def TRIAL : RF (Unit) := ⟨addr, 1, 1⟩
/-- CHIP.UPD.BANK.TRIES (LIVE). -/
def TRIES : RF (Unit) := ⟨addr, 2, 2⟩
/-- CHIP.UPD.BANK.CONFIRMED (LIVE). -/
def CONFIRMED : RF (Unit) := ⟨addr, 4, 1⟩
/-- CHIP.UPD.BANK.PREMIG (LIVE). -/
def PREMIG : RF (Unit) := ⟨addr, 5, 1⟩
/-- CHIP.UPD.BANK.SEQ (LIVE). -/
def SEQ : RF (Unit) := ⟨addr, 8, 24⟩
/-- The whole register CHIP.UPD.BANK. -/
def word : RF (Unit) := ⟨addr, 0, 32⟩
end UpdBank

namespace UpdMap
/-- CHIP.UPD.MAPw: 16_update_and_versions.md R455. -/
def addr (i : Fin 1024) : Nat := 0x61000 + i.val * 4
/-- CHIP.UPD.MAPw.V (LIVE). -/
def V : RF (Fin 1024) := ⟨addr, 0, 32⟩
/-- The whole register CHIP.UPD.MAPw. -/
def word : RF (Fin 1024) := ⟨addr, 0, 32⟩
end UpdMap

namespace BootCause
/-- CHIP.BOOT.CAUSE: 16_update_and_versions.md R456. -/
def addr (_i : Unit) : Nat := 0x1a0
/-- CHIP.BOOT.CAUSE.CODE (LIVE). -/
def CODE : RF (Unit) := ⟨addr, 0, 5⟩
/-- CHIP.BOOT.CAUSE.IMG (LIVE). -/
def IMG : RF (Unit) := ⟨addr, 5, 2⟩
/-- CHIP.BOOT.CAUSE.BANK (LIVE). -/
def BANK : RF (Unit) := ⟨addr, 7, 1⟩
/-- CHIP.BOOT.CAUSE.FALLBACK (LIVE). -/
def FALLBACK : RF (Unit) := ⟨addr, 8, 1⟩
/-- CHIP.BOOT.CAUSE.HELD (LIVE). -/
def HELD : RF (Unit) := ⟨addr, 9, 1⟩
/-- CHIP.BOOT.CAUSE.RECOVERY (LIVE). -/
def RECOVERY : RF (Unit) := ⟨addr, 10, 1⟩
/-- The whole register CHIP.BOOT.CAUSE. -/
def word : RF (Unit) := ⟨addr, 0, 32⟩
end BootCause

end Sys2Proof.Machine
end

