-- ==== Sys2Proof/Machine/State.lean ====
section
/-! DEFINITION. The state of the Corhar C16: the register file, the host window and the state that no register shows, as plain data, with State.reset. -/

namespace Sys2Proof.Machine

/-- A straight piece of a domain's phase (R154, R158): from clk t the phase in 2^-32 cycle advances by num / den per clk. -/
structure Seg where
  t : Nat
  base : Nat
  num : Nat
  den : Nat
deriving DecidableEq, Repr

/-- A source of a phase domain as last seen (R156, R158, R159): whether an update has arrived in time, whether R159 holds it in error, instant and phase of the last update (2^-32 cycle), its last advance and interval, consecutive good updates, last travelled position. -/
structure PSrc where
  valid : Bool
  err : Bool
  upd : Option (Nat × Nat)
  ds : Int
  dt : Nat
  good : Nat
  trav : Option Int
deriving DecidableEq, Repr

/-- A phase domain beside its registers: the running piece of its phase, earlier pieces for R164, its two sources, its lead over the source in use in 2^-32 cycle with the fraction OFS (R162) and the accumulated travel fraction (R157). -/
structure Domn where
  seg : Seg
  hist : List Seg
  pri : PSrc
  alt : PSrc
  ofs : Nat
  acc : Nat
deriving DecidableEq, Repr

/-- A queue beside its registers (R309 to R316): visible packets in order of their PEND, the open packet, dropping until PEND, the packet partly read with the words still to read, owned entries, and stalled pops in order, each with the low half of a 64-bit read that waits for it (R98). -/
structure Queue where
  pkts : List Pkt
  opn : Option Pkt
  dropping : Bool
  cur : Option (Pkt × Nat)
  owned : List Pkt
  stalls : List (Master × Option Word)
deriving DecidableEq, Repr

/-- What a port is transmitting (R327, R331). -/
inductive TxWhat where
  | head | window (w : Fin 32)
deriving DecidableEq, Repr

/-- What a port sends in answer to a frame (R277, R281): the ACK, or an active or passive error flag. -/
inductive BusFlag where
  | ack | active | passive
deriving DecidableEq, Repr

/-- A bus port beside its registers (R281 to R302, R322, R328): what it transmits, the frame and its start-of-frame instant, whether the head of the attempt has gone by a reset of TQ (R327), the mode before BUSOFF (R296), whether INIT was entered from BUSOFF, whether it waits for 11 recessive bits, a mode change that waits for the next bus idle, the working bit timing (R290), the format of the last failing attempt counted (R298), FSEQ, frames received lately (R302), entries held during a rebuild (R319: queue, priority, bytes, words), provisional frames (R411: frame, SELF, start-of-frame instant, clk of receipt), the last flag it sent (R281), the clk in which rate detection took up its candidate (R291) and that of its lock (R303), how far an XL frame in transmission has come (R280: 0 before the data phase, 1 in it, 2 after it), whether the store of the frame being received and the fetch of the next window have been dropped at the crossbar (R384), and the receipts that an owner has sent lately (R411: frame, SELF, start-of-frame instant, FSEQ, outcome). -/
structure Port where
  tx : Option TxWhat
  txFrame : Option Frame
  sofTx : Nat
  orphan : Bool
  savedMode : Nat
  fromBoff : Bool
  waitIdle : Bool
  modePend : Option Nat
  workN : Word
  workD : Word
  idcFmt : Nat
  fseq : Nat
  recent : List (Nat × Frame)
  held : List (Nat × Nat × Nat × List Word)
  prov : List (Frame × Bool × Nat × Nat)
  sentRx : List (Frame × Bool × Nat × Nat × RxOut)
  flagTx : Option BusFlag
  candT : Nat
  lockT : Option Nat
  xlPhase : Fin 3
  xbStore : Bool
  xbFetch : Bool
deriving DecidableEq, Repr

/-- A bus window (R331, R332): instance open, whether its frame was due and the port could send while it was, sent, withdrawn for collision, carried on the partner port (R301), and closed while its attempt runs to its end. -/
structure Win where
  isOpen : Bool
  wasDue : Bool
  couldSend : Bool
  sent : Bool
  withdrawn : Bool
  away : Bool
  closing : Bool
deriving DecidableEq, Repr

/-- A region beside its registers: queues; the pool by cell number (used: owner + 1, 0 on the free list; gen; link: NEXT, LAST in bit 13, OWNER from bit 14) and by word; port; windows; the other regions' copies of the value board; pushes held during a rebuild (queue, whether PEND, producer, word); the clk since the last rising edge of each driven modulator clock (R67); the QERR count of the 100 ms window of R384; the queues whose pointers or owner tags differ between their two copies, in pairs where one tag names two queues, and whether those of the free list do (R317, R333). -/
structure Rgn where
  queue : Vector Queue 64
  used : Tab Nat
  gen : Tab Nat
  link : Tab Nat
  cellMem : Tab Word
  port : Port
  win : Vector Win 32
  vbArr : Tab (BitVec 20)
  heldPush : List (Fin 64 × Bool × Nat × Word)
  mph : Vector Nat 2
  qerrWin : Nat
  badQ : List (Fin 64 × Fin 64)
  badFree : Bool
deriving DecidableEq, Repr

/-- A doorbell message (R339): clk of arrival, source, assert or withdraw, INFO, and whether software wrote it. -/
structure Msg where
  clk : Nat
  src : Nat
  assert : Bool
  info : Nat
  sw : Bool
deriving DecidableEq, Repr

/-- A record slot of a target ring (R344): the record last written to it, as the record memory reads. -/
structure Rec where
  src : Nat
  level : Bool
  withdrawn : Bool
  stuck : Bool
  sw : Bool
  claimed : Bool
  merged : Nat
  seq : Nat
  time : Nat
  info : Nat
deriving DecidableEq, Repr

/-- An event target beside its registers (R344, R348, R353, R354): the record memory by slot, the slots of the records that are on-chip in the order they were written, the next SEQ, the conditions signalled, whether a sleep has been ended by a wake, whether SHP_IRQ_N is held low by one or a steward's wake line is raised, whether NVEC is due once MSI is enabled again (R355), and whether a steward waits for an event. -/
structure Targ where
  ring : Tab Rec
  ord : List Nat
  seq : Nat
  nSig : Bool
  fSig : Bool
  woken : Bool
  wakeHeld : Bool
  nDue : Bool
  nap : Bool
deriving DecidableEq, Repr

/-- The trace of a source beside its registers (R346, R350): INFO, TIME and SW of its last assert, its re-presentations, and whether it is suppressed. -/
structure SrcSt where
  info : Nat
  time : Nat
  sw : Bool
  rep : Nat
  sup : Bool
deriving DecidableEq, Repr

/-- An item that a Ladle channel holds (R364, R371): the number of its queue (64 n + q), its words with the length slot, and its handle if it is a HOLD entry. -/
structure Item where
  key : Nat
  words : List Word
  handle : Option Word
deriving DecidableEq, Repr

/-- A Ladle channel beside its registers (R361 to R371): words 0 to 5 of the head it has read, source bytes moved, bytes written, items moved, the item being written and how many of its words are, words collected toward a packet, segment or billet, items kept for a later descriptor, and whether it is IDLE because HEAD reached TAIL. -/
structure Chan where
  desc : Option (List Word)
  moved : Nat
  done : Nat
  nrec : Nat
  item : Option Item
  sent : Nat
  acc : List Word
  kept : List Item
  drained : Bool
deriving DecidableEq, Repr

/-- A write of Ladle to host memory (R362): function, address and words. -/
structure HostWr where
  func : Bool
  addr : Nat
  words : List Word
deriving DecidableEq, Repr

/-- The guard of R397, by what it is for. -/
inductive Guard where
  | none | start | takeover | force
deriving DecidableEq, Repr

/-- Where a coordinated activation stands on this unit (R448). -/
inductive Coord where
  /-- none runs -/
  | none
  /-- the owner, while the other unit activates -/
  | waits
  /-- departed first: activating and joining -/
  | departed
  /-- joined again with the new set, being verified -/
  | verifying
  /-- the new owner, while the old one activates -/
  | last
  /-- departed second -/
  | departedLast
deriving DecidableEq, Repr

/-- The twin as far as no register shows it (R397 to R428, R448): the levels at OWN_I and TWQ_I, the TWQ_O pulse, the guard, whether paired, whether a full resynchronisation is awaited, the partner's HELLO and last heartbeat with its clk, messages sent with the number of them sent before this clk, mirrored writes not yet applied, the clk of the last HB instant (R409), whether a handover is under way and OWN_O of it raised, a takeover before OWN_O, the clk of detection and that of OWN_O, the legs that have still to resume, digests of this unit and of the owner not yet compared, consecutive matches of each block, whether a REPAIR waits for them, whether a full resynchronisation of the running pair is under way (R418), the blocks whose snapshot a request awaits and the cycles being logged for one (R417), whether the link is silent, whether a recovered unit waits for training (R427), whether a link fault is being judged, and the coordinated activation. -/
structure Twin where
  ownI : Bool
  twqI : Bool
  twqPulse : Bool
  guard : Guard
  paired : Bool
  joining : Bool
  hello : Option Hello
  hb : Option (Hb × Nat)
  txq : List TwMsg
  txOld : Nat
  mirror : List MirWr
  hbT : Option Nat
  handing : Bool
  takeover : Bool
  tkoT : Nat
  ownT : Option Nat
  resume : List (Fin 16 × Fin 3)
  digs : List (Fin 16 × Nat × Word)
  digO : List (Fin 16 × Nat × Word)
  good : Vector Nat 16
  repair : Bool
  refull : Bool
  rsyWait : List (Fin 16)
  logs : List (Fin 16 × CycLog)
  dead : Bool
  recov : Bool
  faultWait : Bool
  coord : Coord
deriving DecidableEq, Repr

/-- A flash bank (R433): its copy of the bank record, and what its slots hold; an erased slot holds none. -/
structure Bank where
  rcd : RecCopy
  sfw : Option FlashImg
  pat : Option FlashImg
  cal : Option FlashImg
  preMig : Option FlashImg
deriving DecidableEq, Repr

/-- The update session (R437 to R444), kept in flash: STATE, SID, COUNT, BSZC, the manifest's entries, the indices held, SWAPPABLE, the domain and value of the commit epoch armed, and the bytes of staging, payload by payload at its offset, offsets rising (R437, R441). -/
structure Sess where
  st : Nat
  sid : Word
  count : Nat
  bszc : Nat
  entries : List ManEntry
  got : List Nat
  swappable : Bool
  dom : Fin 8
  epoch : Nat
  staging : List (Nat × List Byte)
deriving DecidableEq, Repr

/-- An activation under way (R446, R447): whether it waits for the pattern load (else for the stewards), whether a steward restart has lost that load, whether it is a revert, the images of the set, and the CODE of the failure that a revert records. -/
structure Activ where
  load : Bool
  lost : Bool
  revert : Bool
  set : Nat
  code : Nat
deriving DecidableEq, Repr

/-- A pattern operation in progress (R144, R147): the source image, the block of a re-pour, whether it is the start-up load, its SRC, and whether the shadow has still to pour first (R419). -/
structure PatOp where
  img : Option PatImage
  block : Option (Fin 16)
  start : Bool
  src : Nat
  shadow : Bool
deriving DecidableEq, Repr

/-- A function of the PCIe endpoint (R111, R113): device ID, class code, BAR0, in D3hot, bus master enable, MSI enable, per-vector masks and pending bits, error reporting enable, whether AER has logged a Completer Abort, and the codes of its maximum payload size and maximum read request size (R368), 128 bytes times 2 to the code. -/
structure PcieFn where
  devId : BitVec 16
  classCode : BitVec 24
  bar0 : Word
  d3 : Bool
  busMaster : Bool
  msiEn : Bool
  msiMask : BitVec 32
  msiPend : BitVec 32
  errEn : Bool
  aerCA : Bool
  maxPay : Fin 6
  maxRead : Fin 6
deriving DecidableEq, Repr

/-- What the device has answered on its host interfaces (R113, R116, R353), newest first. -/
inductive HostOut where
  | cpl (m : Master) (ok : Bool) (data : List Word)
  | aer (f : Fin 2)
  | shpFrame (bytes : List Byte)
  | msi (f : Bool) (vec : Nat)
  | pme (f : Fin 2)
deriving DecidableEq, Repr

/-- The whole device beside its command queue, in the order of its fields: the register file by address (R90); the hardware actions of this clk on W1C bits and CNT fields (R10: address of the register, lowest bit, whether a count saturates), newest first; the command bits rewritten in this clk while they stood (R10: address, bits); the words of a host-access error of this clk that found the log in use (R110); the host window by byte (R30); clk since power-on (assumption log 3), at the last chip reset (R74) and at the last pattern load (R144); the counter of free values (assumption log 1); the units after a reserved-bit write (R95); supplies that are good (R53), RST_N and PERST_N, the PCIe functions, what the host interfaces have answered; TAP out of reset, JTAG halt, DBG halt and QIN_N as they stand (R262); clock lost and running from the RC oscillator (R69); stewards running, ROM waiting for firmware from the host window (R81), firmware and CAL image in use, pattern in effect, pattern operation in progress; customer key slots installed (R431), flash banks, update session, staged billets (R439), SUBMIT in progress, activation under way; blocks, phase domains, regions; event messages under way, source traces, targets; Ladle channels with the one whose turn comes first (R368), trace buffer and its TSEQ (R374), writes to host memory; the twin; a chip failure waiting for its reset (R389), failures in the window of R391 and whether it is open, a chip failure found within the command (R386), and the INFO words of steward events that wait for the stewards to run again (R391). -/
structure Dev where
  regs : Tab Word
  hw : List (Nat × Nat × Bool)
  redo : List (Nat × Nat)
  errNow : Option (Word × Word)
  hwin : Tab Byte
  clk : Nat
  t0 : Nat
  patT : Nat
  fresh : Nat
  undef : List Nat
  supply : List Supply
  rstN : Bool
  perstN : Bool
  fn : Vector PcieFn 2
  out : List HostOut
  jtagTap : Bool
  jtagHalt : Bool
  dbgHalt : Bool
  qinBall : Bool
  clkLost : Bool
  rcOsc : Bool
  stwRun : Bool
  waitSfw : Bool
  sfw : Option SfwImage
  cal : Option CalImage
  pat : Option PatImage
  patOp : Option PatOp
  keys : BitVec 4
  bank0 : Bank
  bank1 : Bank
  sess : Sess
  stage : Vector (Option Billet) 16
  submit : Option Nat
  act : Option Activ
  blk : Vector Blk 16
  dom : Vector Domn 8
  rgn : Vector Rgn 4
  evq : List Msg
  src : Tab SrcSt
  targ : Vector Targ 4
  chan : Vector Chan 8
  turn : Fin 8
  trace : List (Word × Word × Word × Word)
  tseq : Nat
  hostWr : List HostWr
  twin : Twin
  failT : Bool
  failWin : Nat
  failOpen : Bool
  failDue : Option (Fin 4)
  failNote : List Nat
deriving DecidableEq, Repr

/-- The state: the queue of commands that wait and the device. -/
structure State where
  pending : List Instr
  dev : Dev
deriving DecidableEq, Repr

/-- A stop of a command by the spec's own words. -/
inductive Fault where
  /-- R95: a write has changed a reserved bit of this unit, and nothing but its quench path is guaranteed until a reset that resets it. Raised by commands of that unit; safe. -/
  | unitUnguaranteed (unit : Nat)
deriving DecidableEq, Repr

/-- A command with no meaning. -/
inductive Refusal where
  /-- The command has no meaning yet. Raised by exec's refused arms; safe. -/
  | notModelled (mnemonic : String)
deriving DecidableEq, Repr

/-- A leg cell with no pattern: outputs high-impedance (R57). -/
def Leg.reset : Leg := ⟨.hiz, .hiz, [], false, false, false, false, false, 0, false, none, none, none⟩

/-- A filter cell after reset. -/
def Flt.reset : Flt := ⟨0, 0, 0, 0, false, false, false, 0⟩

/-- An encoder cell after reset. -/
def Enc.reset : Enc := ⟨0, none, 0, none, false, none, [], none, none, none, none⟩

/-- A cell event input after reset. -/
def SenseIn.reset : SenseIn := ⟨0, false, true, false, 0, 0, false, false⟩

/-- A kernel cell with every state word zero. -/
def Kern.reset : Kern :=
  ⟨0, 0, 0, 0, 0, 0, 0, 0, 0, 0, 0, 0, 0, 0, 0, false, false, 0, 0, 0, false, 0, 0, 0⟩

/-- A block with no pattern; its trip balls stand high, where the pull-up of R263 leaves an unused one (assumption log 8). -/
def Blk.reset : Blk where
  opf := Vector.replicate 64 0
  live := Vector.replicate 8 0
  rowOld := none
  kern := Vector.replicate 12 Kern.reset
  leg := Vector.replicate 3 Leg.reset
  flt := Vector.replicate 4 Flt.reset
  enc := Enc.reset
  sense := Vector.replicate 10 SenseIn.reset
  prbLast := none
  prbEdge := none
  inCycle := false
  flushing := false
  ovs := false
  awaitBank := false
  rewrite := false
  rmSpan := false
  swWait := false
  swHost := none
  swTrig := none
  swFall := none
  late := false
  hostStart := none
  stalled := none
  disarm := false
  resetting := false
  repouring := false
  ptRow := none
  ptPend := none
  ptLeave := false
  ptNext := 0
  ballA := true
  ballB := true
  qSet := none
  qClk := none
  qClr := none
  snap := []
  perLen := 0
  digIn := []
  digPend := none
  cycT := none

/-- A source of a domain not yet seen. -/
def PSrc.reset : PSrc := ⟨false, false, none, 0, 0, 0, none⟩

/-- A domain that stands at phase zero (R155). -/
def Domn.reset : Domn := ⟨⟨0, 0, 0, 1⟩, [], PSrc.reset, PSrc.reset, 0, 0⟩

/-- An empty queue. -/
def Queue.reset : Queue := ⟨[], none, false, none, [], []⟩

/-- A port that is OFF. -/
def Port.reset : Port := ⟨none, none, 0, false, 0, false, false, none, 0, 0, 0, 0, [], [], [], [], none, 0, none, 0, false, false⟩

/-- A window with no instance open. -/
def Win.reset : Win := ⟨false, false, false, false, false, false, false⟩

/-- A region with an empty pool. -/
def Rgn.reset : Rgn where
  queue := Vector.replicate 64 Queue.reset
  used := []
  gen := []
  link := []
  cellMem := []
  port := Port.reset
  win := Vector.replicate 32 Win.reset
  vbArr := []
  heldPush := []
  mph := Vector.replicate 2 0
  qerrWin := 0
  badQ := []
  badFree := false

/-- An event target with an empty ring. -/
def Targ.reset : Targ := ⟨[], [], 0, false, false, false, false, false, false⟩

/-- A source that has never asserted. -/
def SrcSt.reset : SrcSt := ⟨0, 0, false, 0, false⟩

/-- A Ladle channel with no descriptor in work. -/
def Chan.reset : Chan := ⟨none, 0, 0, 0, none, 0, [], [], false⟩

/-- The twin's part after reset. -/
def Twin.reset : Twin where
  ownI := false
  twqI := false
  twqPulse := false
  guard := .none
  paired := false
  joining := false
  hello := none
  hb := none
  txq := []
  txOld := 0
  mirror := []
  hbT := none
  handing := false
  takeover := false
  tkoT := 0
  ownT := none
  resume := []
  digs := []
  digO := []
  good := Vector.replicate 16 0
  repair := false
  refull := false
  rsyWait := []
  logs := []
  dead := false
  recov := false
  faultWait := false
  coord := .none

/-- A flash bank with nothing in it (assumption log 6). -/
def Bank.empty : Bank := ⟨⟨0xFFFFFFFF, 0xFFFFFFFF, 0xFFFFFFFF, 0xFFFFFFFF⟩, none, none, none, none⟩

/-- No update session. -/
def Sess.empty : Sess := ⟨0, 0, 0, 0, [], [], false, 0, 0, []⟩

/-- A PCIe function after its reset (R111): PF0 or PF1. -/
def PcieFn.reset (f : Fin 2) : PcieFn :=
  ⟨if f = 0 then 0xC016 else 0xC017, 0x118000, 0, false, false, false, 0, 0, false, false, 0, 2⟩

/-- The device in reset. -/
def Dev.reset : Dev where
  regs := []
  hw := []
  redo := []
  errNow := none
  hwin := []
  clk := 0
  t0 := 0
  patT := 0
  fresh := 0
  undef := []
  supply := [.vdd, .vddaPll, .vddl, .g 0, .g 1, .g 2, .g 3, .c]
  rstN := false
  perstN := true
  fn := #v[PcieFn.reset 0, PcieFn.reset 1]
  out := []
  jtagTap := true
  jtagHalt := false
  dbgHalt := false
  qinBall := false
  clkLost := false
  rcOsc := true
  stwRun := false
  waitSfw := false
  sfw := none
  cal := none
  pat := none
  patOp := none
  keys := 15
  bank0 := Bank.empty
  bank1 := Bank.empty
  sess := Sess.empty
  stage := Vector.replicate 16 none
  submit := none
  act := none
  blk := Vector.replicate 16 Blk.reset
  dom := Vector.replicate 8 Domn.reset
  rgn := Vector.replicate 4 Rgn.reset
  evq := []
  src := []
  targ := Vector.replicate 4 Targ.reset
  chan := Vector.replicate 8 Chan.reset
  turn := 0
  trace := []
  tseq := 0
  hostWr := []
  twin := Twin.reset
  failT := false
  failWin := 0
  failOpen := false
  failDue := none
  failNote := []

/-- The state in reset: RST_N low, every register at its reset value, no command waiting. -/
def State.reset : State := ⟨[], Dev.reset⟩

end Sys2Proof.Machine
end

