-- ==== Sys2Proof/Machine/Sparse.lean ====
section
/-! DEFINITION. Tables of values by number in canonical form (numbers strictly rising, no entry equal to what an unlisted number reads as): reading, writing, and the form itself. -/

namespace Sys2Proof.Machine

/-- The value at number a of a table whose unlisted numbers read as dflt. -/
def tget {α : Type} (dflt : Nat → α) : Tab α → Nat → α
  | [], a => dflt a
  | (k, v) :: t, a => if a < k then dflt a else if k = a then v else tget dflt t a

/-- The table with v at number a; writing what an unlisted number reads as removes the entry. -/
def tset {α : Type} [DecidableEq α] (dflt : Nat → α) : Tab α → Nat → α → Tab α
  | [], a, v => if v = dflt a then [] else [(a, v)]
  | (k, w) :: t, a, v =>
    if a < k then (if v = dflt a then (k, w) :: t else (a, v) :: (k, w) :: t)
    else if k = a then
      (if v = dflt a then t.dropWhile (fun e => e.1 ≤ a) else (a, v) :: t)
    else (k, w) :: tset dflt t a v

/-- A table is in canonical form above a bound: numbers strictly rising from lo, no entry equal to its unlisted value. -/
def tcanonFrom {α : Type} [DecidableEq α] (dflt : Nat → α) : Nat → Tab α → Bool
  | _, [] => true
  | lo, (k, v) :: t => decide (lo ≤ k) && decide (v ≠ dflt k) && tcanonFrom dflt (k + 1) t

/-- A table is in canonical form. -/
def tcanon {α : Type} [DecidableEq α] (dflt : Nat → α) (t : Tab α) : Bool :=
  tcanonFrom dflt 0 t

end Sys2Proof.Machine
end

