-- ==== Sys2Proof/Machine/Ops.lean ====
section
/-! DEFINITION. The named operations every meaning is written in: registers and their fields, vectors of units, fresh free values, event messages (R339) and the outcome of a meaning. -/

namespace Sys2Proof.Machine

/-- What a register reads before anything has written it: the nonzero values of the Reset columns (R11); of CHIP.BANKV with the supplies of log 4; of BPARDCc.N with the values of R291, which it holds while no pattern is in effect (R304). -/
def resetWord (a : Nat) : Word :=
  if a = TwStat.addr () then 3
  else if a = BankV.addr () then 0x02F00000
  else if a = EvgCtl.addr () then 16
  else if a = RQcfg.addr 0 ∨ a = RQcfg.addr 1 ∨ a = RQcfg.addr 2 ∨ a = RQcfg.addr 3 then 16
  else if a = TCfg.addr 0 ∨ a = TCfg.addr 1 ∨ a = TCfg.addr 2 ∨ a = TCfg.addr 3 then 0x1003
  else if a < 0x1000000 then 0
  else match a % 0x1000000 with
    | 0x10030 => 0x40403F
    | 0x10038 => 0x80807F
    | 0x10040 => 0x10100FF
    | 0x10048 => 0x20201FF
    | _ => 0

/-- The bits [lo + len - 1 : lo] of a word. -/
def fget (lo len : Nat) (w : Word) : Nat := (w.extractLsb' lo len).toNat

/-- The mask of the bits [lo + len - 1 : lo]. -/
def fmask (lo len : Nat) : Word := ((BitVec.allOnes len).setWidth 32) <<< lo

/-- A word with the bits [lo + len - 1 : lo] replaced by v. -/
def fset (lo len v : Nat) (w : Word) : Word :=
  (w &&& ~~~ fmask lo len) ||| (((BitVec.ofNat len v).setWidth 32) <<< lo)

/-- The value of the n-bit two's complement number v (R6). -/
def sx (n v : Nat) : Int :=
  if v % 2 ^ n < 2 ^ (n - 1) then Int.ofNat (v % 2 ^ n) else Int.ofNat (v % 2 ^ n) - 2 ^ n

/-- An integer as an n-bit pattern. -/
def ux (n : Nat) (i : Int) : Nat := (i % 2 ^ n).toNat

/-- The element i of a vector of units. -/
def vget {α : Type} {n : Nat} (v : Vector α n) (i : Fin n) : α := v[i.val]

/-- A vector of units with element i replaced. -/
def vset {α : Type} {n : Nat} (v : Vector α n) (i : Fin n) (x : α) : Vector α n :=
  v.set i.val x

/-- A vector of units with element i changed by f. -/
def vmod {α : Type} {n : Nat} (v : Vector α n) (i : Fin n) (f : α → α) : Vector α n :=
  vset v i (f (vget v i))

namespace Dev

/-- The stored word of the register at an address. -/
def reg (d : Dev) (a : Nat) : Word := tget resetWord d.regs a

/-- The device with one register's stored word replaced. -/
def setReg (d : Dev) (a : Nat) (w : Word) : Dev :=
  { d with regs := tset resetWord d.regs a w }

/-- The value of a register field. -/
def fld {ι : Type} (d : Dev) (f : RF ι) (i : ι) : Nat := fget f.lo f.len (d.reg (f.addr i))

/-- The value of a register field as two's complement. -/
def sfld {ι : Type} (d : Dev) (f : RF ι) (i : ι) : Int := sx f.len (d.fld f i)

/-- Whether a register field is not zero. -/
def bit {ι : Type} (d : Dev) (f : RF ι) (i : ι) : Bool := d.fld f i != 0

/-- The device with a register field set. -/
def put {ι : Type} (d : Dev) (f : RF ι) (i : ι) (v : Nat) : Dev :=
  d.setReg (f.addr i) (fset f.lo f.len v (d.reg (f.addr i)))

/-- A hardware action of this clk noted (R10): on bit b of the register at a. -/
def mark (d : Dev) (a b : Nat) (sat : Bool) : Dev := { d with hw := (a, b, sat) :: d.hw }

/-- The device with a flag set. -/
def flag {ι : Type} (d : Dev) (f : RF ι) (i : ι) : Dev := (d.put f i 1).mark (f.addr i) f.lo true

/-- The device with bit b of a field of flags set. -/
def flagBit {ι : Type} (d : Dev) (f : RF ι) (i : ι) (b : Nat) : Dev :=
  (d.put f i (d.fld f i ||| 2 ^ b)).mark (f.addr i) (f.lo + b) true

/-- The device with a flag or field cleared. -/
def clr {ι : Type} (d : Dev) (f : RF ι) (i : ι) : Dev := d.put f i 0

/-- The device with a one-bit field holding a truth value. -/
def putB {ι : Type} (d : Dev) (f : RF ι) (i : ι) (b : Bool) : Dev := d.put f i b.toNat

/-- The device with a field holding a signed value in its width. -/
def putI {ι : Type} (d : Dev) (f : RF ι) (i : ι) (v : Int) : Dev := d.put f i (ux f.len v)

/-- A 20-bit value written with the sign extension of R9. -/
def putS {ι : Type} (d : Dev) (f : RF ι) (i : ι) (v : Int) : Dev :=
  d.setReg (f.addr i) (BitVec.ofNat 32 (ux 32 (sx 20 (ux 20 v))))

/-- The device with a counter increased, modulo its width (R10 CNT). -/
def inc {ι : Type} (d : Dev) (f : RF ι) (i : ι) : Dev := (d.put f i (d.fld f i + 1)).mark (f.addr i) f.lo false

/-- The device with a counter increased by n, modulo its width. -/
def incBy {ι : Type} (d : Dev) (f : RF ι) (i : ι) (n : Nat) : Dev :=
  { d.put f i (d.fld f i + n) with hw := List.replicate n (f.addr i, f.lo, false) ++ d.hw }

/-- The device with a counter increased, saturating at its largest value. -/
def incSat {ι : Type} (d : Dev) (f : RF ι) (i : ι) : Dev :=
  (d.put f i (min (d.fld f i + 1) (2 ^ f.len - 1))).mark (f.addr i) f.lo true

/-- The bits of v that stand in the register at a are rewritten in this clk (R10 CMD). -/
def cmdAgain (d : Dev) (a v : Nat) : Dev := { d with redo := (a, v &&& (d.reg a).toNat) :: d.redo }

/-- Whether a command bit has been rewritten in this clk while it stood (R10). -/
def cmdRedo {ι : Type} (d : Dev) (f : RF ι) (i : ι) : Bool := d.redo.any fun m => m.1 == f.addr i && m.2.testBit f.lo

/-- A command bit at its completion: it clears, unless software has set it again in this clk; it then remains 1 and the command runs again (R10). -/
def cmdDone {ι : Type} (d : Dev) (f : RF ι) (i : ι) : Dev :=
  if d.cmdRedo f i then
    { d with redo := d.redo.map fun m => if m.1 = f.addr i then (m.1, m.2 ^^^ (m.2 &&& 2 ^ f.lo)) else m }
  else d.clr f i

/-- The next fresh number for a free value, and the device with the counter advanced (assumption log 1). -/
def free (d : Dev) : Nat × Dev := (d.fresh, { d with fresh := d.fresh + 1 })

/-- Block nn beside its registers. -/
def b (d : Dev) (nn : Fin 16) : Blk := vget d.blk nn

/-- The device with block nn changed. -/
def onB (d : Dev) (nn : Fin 16) (f : Blk → Blk) : Dev := { d with blk := vmod d.blk nn f }

/-- Region n beside its registers. -/
def r (d : Dev) (n : Fin 4) : Rgn := vget d.rgn n

/-- The device with region n changed. -/
def onR (d : Dev) (n : Fin 4) (f : Rgn → Rgn) : Dev := { d with rgn := vmod d.rgn n f }

/-- Domain k beside its registers. -/
def pd (d : Dev) (k : Fin 8) : Domn := vget d.dom k

/-- The device with domain k changed. -/
def onPd (d : Dev) (k : Fin 8) (f : Domn → Domn) : Dev := { d with dom := vmod d.dom k f }

/-- The device with the twin's part changed. -/
def onTw (d : Dev) (f : Twin → Twin) : Dev := { d with twin := f d.twin }

/-- The device with an output to the host recorded. -/
def say (d : Dev) (o : HostOut) : Dev := { d with out := o :: d.out }

end Dev

/-- The class of a message of the twin link (R402): HB, then DIG, MWR, RXR, RXF, TXR, SSI and REQ in order of creation, then RSY, then UPD. -/
def twClass : TwMsg → Nat
  | .hb _ => 0
  | .dig _ _ _ | .mwr _ | .rxr _ _ _ _ _ | .rxf _ _ _ _ _ _ | .txr _ | .ssi _ _ _ | .req _ => 1
  | .rsy _ _ | .log _ _ | .tq _ _ | .full _ => 2
  | .upd _ => 3

/-- A message among those created in its clk: after the messages of its class and of the classes before (R402). -/
def twInsert (m : TwMsg) : List TwMsg → List TwMsg
  | [] => [m]
  | x :: xs => if twClass m < twClass x then m :: x :: xs else x :: twInsert m xs

/-- A message put on the link (R402): those of one clk leave in order of class, after those of earlier clk (assumption log 103). In a chip failure the link sends nothing (R390). -/
def twSend (d : Dev) (m : TwMsg) : Dev :=
  if d.twin.dead then d
  else d.onTw fun t => { t with txq := t.txq.take t.txOld ++ twInsert m (t.txq.drop t.txOld) }

/-- The low 16 bits of a register. -/
def Dev.lo16 {ι : Type} (d : Dev) (f : RF ι) (i : ι) : Nat := (d.reg (f.addr i)).toNat % 65536

/-- A message put among those waiting, in order of clk and then of source number (R339). -/
def msgInsert (m : Msg) : List Msg → List Msg
  | [] => [m]
  | x :: xs => if m.clk < x.clk ∨ (m.clk = x.clk ∧ m.src < x.src) then m :: x :: xs
    else x :: msgInsert m xs

/-- A unit sends a message to the doorbell over its internal path (R339). -/
def Dev.sendMsg (d : Dev) (src : Nat) (on : Bool) (info : Nat) : Dev :=
  { d with evq := msgInsert ⟨d.clk, src, on, info % 65536, false⟩ d.evq }

/-- A unit asserts its event source with an INFO word (R339, R358). -/
def Dev.raise (d : Dev) (src info : Nat) : Dev := d.sendMsg src true info

/-- Source number of an event of block nn (R358). -/
def bkSrc (nn : Fin 16) (k : Nat) : Nat := 32 * nn.val + k

/-- Source number of an event of region n (R358). -/
def rgSrc (n : Fin 4) (k : Nat) : Nat := 512 + 32 * n.val + k

/-- The region of a block (R14). -/
def rgnOf (nn : Fin 16) : Fin 4 := ⟨nn.val / 4, by omega⟩

/-- The position of a block in its region (R14). -/
def posOf (nn : Fin 16) : Fin 4 := ⟨nn.val % 4, by omega⟩

/-- The number of the block at position b of region n (R14). -/
def blkAt (n b : Fin 4) : Fin 16 := ⟨4 * n.val + b.val, by omega⟩

/-- Every block number. -/
def allBlk : List (Fin 16) := List.finRange 16

/-- A change made for every index in turn. -/
def forAll {n : Nat} (d : Dev) (f : Dev → Fin n → Dev) : Dev := (List.finRange n).foldl f d

/-- The number of a unit in the list of units no longer guaranteed (R95): blocks 0 to 15, regions 16 to 19, chip 20. -/
def unitBlk (nn : Fin 16) : Nat := nn.val

/-- As unitBlk, for region n. -/
def unitRgn (n : Fin 4) : Nat := 16 + n.val

/-- As unitBlk, for the chip. -/
def unitChip : Nat := 20

/-- A number that no unit has: for a reset, which does not need the unit's guarantee (R95). -/
def unitNone : Nat := 21

/-- The outcome of a step of the machine. -/
abbrev Res := Host.Outcome State Fault Refusal

/-- A command that changes the device and nothing else. -/
def onDev (s : State) (f : Dev → Dev) : Res := .next { s with dev := f s.dev }

/-- A command of one unit: after a reserved-bit write nothing is guaranteed of it (R95). -/
def onUnit (u : Nat) (s : State) (f : Dev → Dev) : Res :=
  if u ∈ s.dev.undef then .fault (.unitUnguaranteed u) else onDev s f

/-- A command of block nn. -/
def onBlock (nn : Fin 16) (s : State) (f : Dev → Dev) : Res := onUnit (unitBlk nn) s f

/-- A command of region n. -/
def onRegion (n : Fin 4) (s : State) (f : Dev → Dev) : Res := onUnit (unitRgn n) s f

/-- A command of the chip's own services. -/
def onChip (s : State) (f : Dev → Dev) : Res := onUnit unitChip s f

end Sys2Proof.Machine
end

