-- ==== Sys2Proof/Machine/Operands.lean ====
section
/-! DEFINITION. The number formats of R6 to R9 and the operand file of R130: every value is an integer in the units of its format (F20 2^-19, K20 2^-13, A48 2^-32, P40 and PH40 2^-20). -/

namespace Sys2Proof.Machine

/-- x limited to [lo, hi], the upper limit deciding when the limits cross (R219). -/
def clampI (lo hi x : Int) : Int := min (max x lo) hi

/-- Saturation to an n-bit signed format (R7). -/
def satS (n : Nat) (x : Int) : Int := clampI (-(2 ^ (n - 1))) (2 ^ (n - 1) - 1) x

/-- a / b rounded to nearest, ties away from zero (R8). -/
def rdiv (a : Int) (b : Nat) : Int :=
  if a < 0 then -Int.ofNat ((2 * a.natAbs + b) / (2 * b))
  else Int.ofNat ((2 * a.natAbs + b) / (2 * b))

/-- a * 2^k for either sign of k, rounded under R8. -/
def scale2 (a : Int) (k : Int) : Int :=
  if 0 ≤ k then a * 2 ^ k.toNat else rdiv a (2 ^ (-k).toNat)

/-- Saturation to F20 (R6, R7). -/
def satF20 (x : Int) : Int := satS 20 x

/-- An A48 value narrowed to F20 (R8). -/
def narrow (a : Int) : Int := satF20 (rdiv a 8192)

/-- An F20 value in A48 units. -/
def f2a (x : Int) : Int := x * 8192

/-- a / b where the spec states no rounding below the last place: one of the two neighbours, by a free choice (assumption log 14). -/
def divFree (a : Int) (b : Nat) (c : Bool) : Int :=
  a / b + (if a % b ≠ 0 ∧ c then 1 else 0)

/-- The integer square root, by its bits from bit k - 1 downward. -/
def isqrt (k n : Nat) : Nat :=
  (List.range k).reverse.foldl (fun r b => if (r + 2 ^ b) * (r + 2 ^ b) ≤ n then r + 2 ^ b else r) 0

/-- x / sqrt 3, one of the two neighbours; exact at 0. -/
def divRt3 (x : Int) (c : Bool) : Int :=
  let q := Int.ofNat (isqrt 64 (x.natAbs * x.natAbs / 3))
  let q := if c then q + 1 else q
  if x < 0 then -q else if x = 0 then 0 else q

/-- x * sqrt 3 / 2, one of the two neighbours; exact at 0. -/
def mulHalfRt3 (x : Int) (c : Bool) : Int :=
  let q := Int.ofNat (isqrt 64 (3 * x.natAbs * x.natAbs / 4))
  let q := if c then q + 1 else q
  if x < 0 then -q else if x = 0 then 0 else q

/-- sin of x radians for x in 2^-40 units, 0 to a little above pi/4, by its series (2^-40 units). -/
def sinSer (x : Int) : Int :=
  let s := x * x / 2 ^ 40
  let t1 := x
  let t3 := t1 * s / 2 ^ 40 / 6
  let t5 := t3 * s / 2 ^ 40 / 20
  let t7 := t5 * s / 2 ^ 40 / 42
  let t9 := t7 * s / 2 ^ 40 / 72
  let t11 := t9 * s / 2 ^ 40 / 110
  let t13 := t11 * s / 2 ^ 40 / 156
  t1 - t3 + t5 - t7 + t9 - t11 + t13

/-- As sinSer, for the cosine. -/
def cosSer (x : Int) : Int :=
  let s := x * x / 2 ^ 40
  let t0 : Int := 2 ^ 40
  let t2 := s / 2
  let t4 := t2 * s / 2 ^ 40 / 12
  let t6 := t4 * s / 2 ^ 40 / 30
  let t8 := t6 * s / 2 ^ 40 / 56
  let t10 := t8 * s / 2 ^ 40 / 90
  let t12 := t10 * s / 2 ^ 40 / 132
  t0 - t2 + t4 - t6 + t8 - t10 + t12

/-- sin of 2 pi u / 2^44 in 2^-40 units, u a cycle fraction (by octant reduction). -/
def sinTurn (u : Nat) : Int :=
  let u := u % 2 ^ 44
  let oct := u / 2 ^ 41
  let y := u % 2 ^ 41
  -- 2 pi / 2^44 per unit in 2^-40 radians: y * pi / 2^43 * 2^40 = y * pi / 8
  let ang := fun (v : Nat) => Int.ofNat (v * 3454217652358 / 2 ^ 43)
  let up := ang y
  let dn := ang (2 ^ 41 - y)
  match oct with
  | 0 => sinSer up
  | 1 => cosSer dn
  | 2 => cosSer up
  | 3 => sinSer dn
  | 4 => -sinSer up
  | 5 => -cosSer dn
  | 6 => -cosSer up
  | _ => -sinSer dn

/-- A sine as the kernel delivers it (F20 units): no further than 4 x 2^-19 from the sine (R222), which lies within 64 x 2^-40 of the series (assumption log 15). -/
def sinFree (u : Nat) (e : Int) : Int :=
  let x := sinTurn u
  clampI (-((64 - x) / 2 ^ 21) - 4) ((x + 64) / 2 ^ 21 + 4) (rdiv x (2 ^ 21) + e)

/-- A cosine, as sinFree. -/
def cosFree (u : Nat) (e : Int) : Int := sinFree (u + 2 ^ 42) e

/-- Operand entry i as F20 or I20 (R6, R130). -/
def Blk.ofS (b : Blk) (i : Nat) : Int := sx 20 (vget b.opf ⟨i % 64, Nat.mod_lt _ (by omega)⟩).toNat

/-- Operand entry i as U20. -/
def Blk.ofU (b : Blk) (i : Nat) : Nat := (vget b.opf ⟨i % 64, Nat.mod_lt _ (by omega)⟩).toNat

/-- The P40 pair at entries i and i + 1, bit 0 of i ignored (R130, R215). -/
def Blk.ofP (b : Blk) (i : Nat) : Int := b.ofS (i / 2 * 2) * 2 ^ 20 + b.ofU (i / 2 * 2 + 1)

/-- The PH40 pair at entries i and i + 1. -/
def Blk.ofPH (b : Blk) (i : Nat) : Nat := b.ofU (i / 2 * 2) * 2 ^ 20 + b.ofU (i / 2 * 2 + 1)

/-- Operand entry i written with a 20-bit pattern. -/
def Blk.putU (b : Blk) (i : Nat) (v : Nat) : Blk :=
  { b with opf := vset b.opf ⟨i % 64, Nat.mod_lt _ (by omega)⟩ (BitVec.ofNat 20 v) }

/-- Operand entry i written with a signed value. -/
def Blk.putS (b : Blk) (i : Nat) (v : Int) : Blk := b.putU i (ux 20 v)

/-- A 40-bit quantity written as a pair, high entry even (R130). -/
def Blk.putP (b : Blk) (i : Nat) (v : Int) : Blk :=
  (b.putU (i / 2 * 2) (ux 40 v / 2 ^ 20)).putU (i / 2 * 2 + 1) (ux 40 v % 2 ^ 20)

/-- Saturation to P40 (R198). -/
def satP40 (v : Int) : Int := satS 40 v

/-- One byte into a CRC-32 (IEEE 802.3 polynomial, reflected; R120). -/
def crcByte (c : Word) (x : Nat) : Word :=
  (List.range 8).foldl (fun c _ => if c.getLsbD 0 then (c >>> 1) ^^^ 0xEDB88320 else c >>> 1) (c ^^^ BitVec.ofNat 32 (x % 256))

/-- CRC-32 of a string of bytes: initial value and final inversion of R120. -/
def crc32 (bytes : List Nat) : Word := ~~~ bytes.foldl crcByte 0xFFFFFFFF

/-- A value as n little-endian bytes. -/
def leBytes (n v : Nat) : List Nat := (List.range n).map fun i => v / 2 ^ (8 * i) % 256

/-- The value of little-endian bytes. -/
def leVal (b : List Nat) : Nat := b.foldr (fun x a => x + 256 * a) 0

end Sys2Proof.Machine
end

