-- ==== Sys2Proof/Machine/Flags.lean ====
section
/-! DEFINITION. The flags that several families compute: host access errors (R110), quench causes and the latch (R262 to R268), and the pattern operation's outcome (R152). -/

namespace Sys2Proof.Machine

/-- The number of a master in CHIP.HOSTERR_INFO (R110). -/
def masterCode : Master → Nat
  | .pf0 => 0 | .pf1 => 1 | .shp => 2 | .st0 => 3 | .st1 => 4

/-- The privileged masters (R108). -/
def privileged (d : Dev) : Master → Bool
  | .pf0 => true | .pf1 => false | .shp => d.bit Strap.SHP_PRIV () | .st0 => true | .st1 => true

/-- The counter of CHIP.HOSTERR that an error kind counts in (R110): 0 privilege, 1 narrow, 3 reserved address, 2, 4, 5 and 6 form. -/
def hostErrFld (kind : Nat) : RF Unit :=
  match kind with
  | 0 => HostErr.PRIV
  | 1 => HostErr.NARROW
  | 3 => HostErr.RSVA
  | _ => HostErr.FORM

/-- A host-access error recorded in the log (R110). -/
def hostErrLog (d : Dev) (kind : Nat) (h : Master) (write : Bool) (a be : Nat) : Dev :=
  let d := d.setReg (HostErrAddr.addr ()) (BitVec.ofNat 32 (a % 2 ^ 27))
  let d := d.put HostErrInfo.MASTER () (masterCode h)
  let d := d.putB HostErrInfo.WRITE () write
  let d := d.put HostErrInfo.KIND () kind
  let d := d.put HostErrInfo.BE () be
  d.flag HostErrInfo.VALID ()

/-- A counted host-access error: count, log the first, raise source 641 (R110); one that meets VALID set is kept for this clk, in which software may clear VALID. An interconnect error (kind 4) has no counter of its own and is logged only. -/
def Dev.hostErr (d : Dev) (kind : Nat) (h : Master) (write : Bool) (a be : Nat) : Dev :=
  let d := if kind = 4 then d else d.incSat (hostErrFld kind) ()
  let d :=
    if !d.bit HostErrInfo.VALID () then hostErrLog d kind h write a be
    else if d.errNow.isSome then d
    else
      let x := hostErrLog d kind h write a be
      { d with errNow := some (x.reg (HostErrAddr.addr ()), x.reg (HostErrInfo.addr ())) }
  d.raise 641 (d.lo16 HostErrInfo.word ())

/-- VALID cleared by software in the clk of an error that found it set (R110): that error is logged, and VALID stays 1. -/
def hostErrAgain (d : Dev) : Dev :=
  match d.errNow with
  | some (a, i) => if d.bit HostErrInfo.VALID () then d else (d.setReg (HostErrAddr.addr ()) a).setReg (HostErrInfo.addr ()) i
  | none => d

/-- The safe level of a leg's high side in S0 (R265, R275). -/
def s0High (d : Dev) (nn : Fin 16) (l : Fin 3) : Lvl :=
  if d.bit LcSafe.SAFEH (nn, l) then .hiz else .low

/-- The safe level of a leg's low side in S0. -/
def s0Low (d : Dev) (nn : Fin 16) (l : Fin 3) : Lvl :=
  if d.bit LcSafe.SAFEL (nn, l) then .hiz else .low

/-- Whether the supplies that drive the gate outputs of block nn are good (R53). -/
def gateSupply (d : Dev) (nn : Fin 16) : Bool :=
  d.supply.contains .vdd && d.supply.contains .vddaPll && d.supply.contains (.g (rgnOf nn))

/-- Whether a pattern section drives the outputs of block nn: a pattern is in effect and the block is not OFF (R57, R84). -/
def outputsDriven (d : Dev) (nn : Fin 16) : Bool :=
  (match d.pat with
    | some p => p.dir.any fun e => e.typ == 3 && e.index == nn.val
    | none => false) && d.fld BkStat.STATE nn != 0 && gateSupply d nn

/-- Every output of a leg at once at its S0 level, or high-impedance without a driving pattern; nothing clocked follows (R86, R261, R266). -/
def legSafe (d : Dev) (nn : Fin 16) (l : Fin 3) : Dev :=
  let drv := outputsDriven d nn
  let hi := if drv then s0High d nn l else .hiz
  let lo := if drv then s0Low d nn l else .hiz
  d.onB nn fun b => { b with leg := vmod b.leg l fun g =>
    { g with gh := hi, gl := lo, edges := [], tda := false, req := false, skip := false, tail := none, stretch := none } }

/-- Every leg of a block at its S0 levels. -/
def legsSafe (d : Dev) (nn : Fin 16) : Dev := forAll d fun d l => legSafe d nn l

/-- The carry accumulator and the refresh count cleared: when a leg leaves RUN or the latch sets (R255, R256). -/
def legsForget (d : Dev) (nn : Fin 16) : Dev := forAll d fun d (l : Fin 3) =>
  ((d.clr LcAcc.A (nn, l)).clr LcAcc.SIDE (nn, l)).clr LcAcc.FULLRUN (nn, l)

/-- Which set the latched causes put in force: S1 when active short is declared and every cause bit selects it (R265). -/
def s1Wanted (d : Dev) (nn : Fin 16) : Bool :=
  let c := d.fld Qcause.CAUSE nn
  d.bit BkType.ASHORT nn && c != 0 && (c &&& d.fld S1sel.SEL nn) == c && d.pat.isSome

/-- The safe set re-evaluated after a cause bit has set (R265 to R267): every output goes off; under S1 every GH is LOW and the first S1 cause starts TDA in every leg. -/
def setSafe (d : Dev) (nn : Fin 16) (fromClear : Bool) : Dev :=
  let s1 := s1Wanted d nn
  let was := d.bit Qstat.SAFESET nn
  let d := d.putB Qstat.SAFESET nn s1
  if fromClear then
    let d := legsSafe d nn
    if s1 && outputsDriven d nn then
      forAll d fun d (l : Fin 3) => d.onB nn fun b => { b with leg := vmod b.leg l fun g => { g with gh := .low, tda := true } }
    else d
  else if was && !s1 then legsSafe d nn
  else d

/-- Codes of the command refusals of R87. -/
def blkRefuse (d : Dev) (nn : Fin 16) (reason : Nat) : Dev :=
  (d.flag BkStat.REFUSED nn).put BkStat.REASON nn reason

/-- A block command takes effect (R85): its bit clears. One rewritten in this clk runs again and is refused with reason 1, the block being in its target state (R10, R87). -/
def blkDone (d : Dev) (f : RF (Fin 16)) (nn : Fin 16) : Dev :=
  if d.cmdRedo f nn then blkRefuse ((d.cmdDone f nn).clr f nn) nn 1 else d.clr f nn

/-- What a block's quench does to its state and to a pending command (R85, R87, R272): ARMED and RUN go QUENCHED; a pending ARM, RUN or STOP is refused with reason 2. A block in HELD with ARM pending stays HELD, as R85 moves ARMED and RUN only (DESIGN CHOICE, assumption log 46). -/
def quenchState (d : Dev) (nn : Fin 16) : Dev :=
  let st := d.fld BkStat.STATE nn
  let d := if st = 2 ∨ st = 3 then d.put BkStat.STATE nn 4 else d
  if d.bit BkCtl.ARM nn || d.bit BkCtl.RUN nn || d.bit BkCtl.STOP nn then
    let d := blkRefuse (((d.clr BkCtl.ARM nn).clr BkCtl.RUN nn).clr BkCtl.STOP nn) nn 2
    let d := d.onB nn fun b => { b with leg := b.leg.map fun g => { g with stop := false } }
    d.putB BkStat.PENDING nn (d.bit BkCtl.DISARM nn || d.bit BkCtl.RESET nn)
  else d

/-- The code of a cause bit (R262): bits 0 to 3 have codes 1 to 4, bits 4 to 7 code 5, bits 8 to 15 codes 6 to 13. -/
def causeCode (bit : Nat) : Nat :=
  if bit < 4 then bit + 1 else if bit < 8 then 5 else bit - 2

/-- The lowest set bit among 16. -/
def lowBit (m : Nat) : Nat := ((List.range 16).find? fun i => m.testBit i).getD 0

/-- Whether a TWQ_O pulse is due: block nn is named in TWQSRC, this unit owns, and the causes are not only TWQ, CLKLOSS, DBGHALT and CHIPFAIL (R414). -/
def twqDue (d : Dev) (nn : Fin 16) (mask : Nat) : Bool :=
  (d.fld TwCfg.TWQSRC ()).testBit nn.val && d.bit TwStat.OWNO () && (mask &&& 0x8FF7) != 0

/-- The causes of this clk noted, a set of them more (R268, R270). -/
def causesNote (d : Dev) (nn : Fin 16) (mask : Nat) : Dev :=
  d.onB nn fun b =>
    let old := match b.qClk with
      | some (t, m) => if t = d.clk then m else 0
      | none => 0
    { b with qClk := some (d.clk, old ||| mask % 65536) }

/-- The causes that have reached the OR tree of block nn in this clk. -/
def causesNow (d : Dev) (nn : Fin 16) : Nat :=
  match (d.b nn).qClk with
  | some (t, m) => if t = d.clk then m else 0
  | none => 0

/-- An accepted clear of this clk undone by a cause of the same clk (R270, R272): the latch has stayed set, and the clear is reported as refused. -/
def clearUndo (d : Dev) (nn : Fin 16) : Dev :=
  match (d.b nn).qClr with
  | some (t, st, set, legs) =>
    if t ≠ d.clk ∨ d.bit Qstat.LATCH nn then d
    else
      let d := (((d.flag Qstat.LATCH nn).putB Qstat.SAFESET nn set).flag Qstat.CLEAR_REFUSED nn).put BkStat.STATE nn st
      d.onB nn fun b => { b with leg := legs, qClr := none }
  | none => d

/-- A set of cause bits reaches the OR tree of block nn (R262, R266 to R268): the latch sets, the causes are recorded, the outputs go off, the state follows, QCNT counts and the quench source is raised once per setting. FIRST takes the lowest code of the clk in which the latch sets. -/
def quench (d : Dev) (nn : Fin 16) (mask : Nat) : Dev :=
  if mask % 65536 = 0 then d
  else
    let d := causesNote (clearUndo d nn) nn mask
    let was := d.bit Qstat.LATCH nn
    let again := was && (d.b nn).qSet == some d.clk
    let old := if was then d.fld Qcause.CAUSE nn else 0
    let d := d.put Qcause.CAUSE nn (old ||| mask % 65536)
    let d := d.flag Qstat.LATCH nn
    let d := if was then
        if again then d.put Qstat.FIRST nn (min (d.fld Qstat.FIRST nn) (causeCode (lowBit mask))) else d
      else
        let d := d.onB nn fun b => { b with qSet := some d.clk }
        let d := d.put Qstat.FIRST nn (causeCode (lowBit mask))
        let d := (d.incSat Qstat.QCNT nn).flag Qstat.SET_SEEN nn
        let d := d.incSat FltCnt.QUENCH ()
        let d := legsForget d nn
        if twqDue d nn mask then (d.flag TwStat.TWQO ()).onTw fun t => { t with twqPulse := true } else d
    let d := setSafe d nn (!was)
    let d := quenchState d nn
    if was then d else d.raise (bkSrc nn 0) (d.lo16 Qstat.word nn)

/-- The pattern operation ends refused (R152): FAIL, CODE, BLOCK, SLOT and BANK; source 644 is raised. -/
def patRefuse (d : Dev) (code blk slot : Nat) (bankB : Bool) : Dev :=
  let d := d.flag PatStat.FAIL ()
  let d := d.put PatStat.CODE () code
  let d := d.put PatStat.BLOCK () blk
  let d := d.put PatStat.SLOT () slot
  let d := d.putB PatStat.BANK () bankB
  d.raise 644 (d.lo16 PatStat.word ())

/-- The pattern operation completes (R152). -/
def patDone (d : Dev) : Dev :=
  let d := d.flag PatStat.DONE ()
  let d := (((d.clr PatStat.CODE ()).clr PatStat.BLOCK ()).clr PatStat.SLOT ()).clr PatStat.BANK ()
  d.raise 644 (d.lo16 PatStat.word ())

end Sys2Proof.Machine
end

