-- ==== Sys2Proof/Machine/Channels.lean ====
section
/-! DEFINITION. The host window as bytes (R30, R101), and what Ladle's channels hold (13_ladle.md): the fields of a descriptor (R361), its completion with write-back (R361, R369 to R371), and the ends that other units bring about (R369, R375). -/

namespace Sys2Proof.Machine

/-- The size of the host window in bytes (R30). -/
def hwinSize : Nat := 262144

/-- A byte of the host window. -/
def hwByte (d : Dev) (o : Nat) : Byte := tget (fun _ => 0#8) d.hwin o

/-- The device with a byte of the host window written. -/
def hwSet (d : Dev) (o : Nat) (v : Byte) : Dev := { d with hwin := tset (fun _ => 0#8) d.hwin o v }

/-- Bytes of the host window from an offset on. -/
def hwBytes (d : Dev) (o n : Nat) : List Byte := (List.range n).map fun i => hwByte d (o + i)

/-- Bytes written to the host window from an offset on. -/
def hwPut (d : Dev) (o : Nat) (bs : List Byte) : Dev :=
  (bs.foldl (fun x b => (hwSet x.1 x.2 b, x.2 + 1)) (d, o)).1

/-- The word at an offset of the host window, least significant byte first (R90). -/
def hwWord (d : Dev) (o : Nat) : Word :=
  BitVec.ofNat 32 ((hwBytes d o 4).foldr (fun b a => b.toNat + 256 * a) 0)

/-- The four bytes of a word, least significant first. -/
def byte4 (w : Word) : List Byte := (List.range 4).map fun i => BitVec.ofNat 8 (w.toNat / 2 ^ (8 * i))

/-- A word written to the host window. -/
def hwPutWord (d : Dev) (o : Nat) (w : Word) : Dev := hwPut d o (byte4 w)

/-- A Ladle channel beside its registers. -/
def chanOf (d : Dev) (c : Fin 8) : Chan := vget d.chan c

/-- The device with a channel changed. -/
def onChan (d : Dev) (c : Fin 8) (f : Chan → Chan) : Dev := { d with chan := vmod d.chan c f }

/-- Word i of a descriptor. -/
def dW (x : List Word) (i : Nat) : Nat := ((x[i]?).getD 0).toNat

/-- SK of a descriptor (R361). -/
def dSk (x : List Word) : Nat := dW x 0 % 8

/-- DK of a descriptor. -/
def dDk (x : List Word) : Nat := dW x 0 / 8 % 8

/-- IRQ of a descriptor. -/
def dIrq (x : List Word) : Bool := (dW x 0).testBit 6

/-- LEN of a descriptor. -/
def dLen (x : List Word) : Nat := dW x 1 % 2 ^ 24

/-- SADDR of a descriptor. -/
def dSaddr (x : List Word) : Nat := dW x 2 + 2 ^ 32 * dW x 3

/-- DADDR of a descriptor. -/
def dDaddr (x : List Word) : Nat := dW x 4 + 2 ^ 32 * dW x 5

/-- The region of a queue address (R362). -/
def dRgn (a : Nat) : Fin 4 := ⟨a / 64 % 4, Nat.mod_lt _ (by omega)⟩

/-- The queue of a queue address (R362). -/
def dQueue (a : Nat) : Fin 64 := ⟨a % 64, Nat.mod_lt _ (by omega)⟩

/-- The place of the descriptor at HEAD in the host window (R360). -/
def headAddr (d : Dev) (c : Fin 8) : Nat :=
  32 * d.fld ChCfg.RBASE c + 32 * (d.fld ChHead.HEAD c % 2 ^ d.fld ChCfg.RSIZE c)

/-- The statuses after which the channel does not halt (R369). -/
def statusGoesOn (st : Nat) : Bool := st == 0 || st == 4 || st == 7

/-- The head completes with a STATUS (R361, R369 to R371): words 6 and 7 written back, HEAD advanced, and the item that was not wholly written kept. -/
def chanEnd (d : Dev) (c : Fin 8) (status : Nat) : Dev :=
  let x := chanOf d c
  let a := headAddr d c
  let d := hwPutWord d (a + 24) (BitVec.ofNat 32 (x.done % 2 ^ 24 + min x.nrec 255 * 2 ^ 24))
  let d := hwPutWord d (a + 28) (BitVec.ofNat 32 (status + 16))
  let d := d.put ChHead.HEAD c ((d.fld ChHead.HEAD c + 1) % 2 ^ (d.fld ChCfg.RSIZE c + 1))
  let d := ((d.inc ChStat.NDONE c).flag ChStat.DONE_SEEN c).put ChStat.LAST c status
  let d := onChan d c fun x =>
    { x with desc := none, moved := 0, done := 0, nrec := 0, item := none, sent := 0, acc := [],
             kept := x.kept ++ x.item.toList, drained := false }
  if statusGoesOn status then
    let d := if status = 4 then (d.put ChStat.STATE c 0).clr ChCtl.STOP c else d
    if (x.desc.map dIrq).getD false then d.raise (646 + c.val) 0 else d
  else
    (((d.put ChStat.STATE c 4).flag ChStat.ERR_SEEN c).clr ChCtl.STOP c).raise (646 + c.val) status

/-- Every channel whose head fulfils a condition ends it with a STATUS. -/
def chanEndAll (d : Dev) (status : Nat) (p : List Word → Bool) : Dev :=
  forAll d fun d c => match (chanOf d c).desc with
    | some x => if p x then chanEnd d c status else d
    | none => d

/-- Whether queue q of region n is the source or the destination of a descriptor. -/
def usesQueue (n : Fin 4) (q : Fin 64) (x : List Word) : Bool :=
  (dSk x == 2 && dRgn (dSaddr x) == n && dQueue (dSaddr x) == q) ||
  (dDk x == 2 && dRgn (dDaddr x) == n && dQueue (dDaddr x) == q)

/-- A queue is reset (R371, R375): the entries that Ladle owns in it are gone, and the descriptors that use it end with STATUS 6. -/
def chanQueueGone (d : Dev) (n : Fin 4) (q : Fin 64) : Dev :=
  let key := 64 * n.val + q.val
  let live := fun (i : Item) => !(i.key == key && i.handle.isSome)
  let d := forAll d fun d c => onChan d c fun x => { x with item := x.item.filter live, kept := x.kept.filter live }
  chanEndAll d 6 (usesQueue n q)

/-- A block goes OFF, is RESET or re-poured (R369): descriptors into its segment ring end with STATUS 6. -/
def chanBlockGone (d : Dev) (nn : Fin 16) : Dev :=
  chanEndAll d 6 fun x => dDk x == 3 && dDaddr x % 16 == nn.val

/-- A pattern load (R375): every QUEUE or SEG descriptor ends with STATUS 6, and the holding buffers are empty. -/
def chanLoad (d : Dev) : Dev :=
  let d := chanEndAll d 6 fun x => dSk x == 2 || dDk x == 2 || dDk x == 3
  forAll d fun d c => onChan d c fun x => { x with item := none, kept := [] }

/-- A function can no longer be used as a bus master (R369): descriptors that reach host memory through it end with STATUS 5. -/
def chanFnGone (d : Dev) (f : Fin 2) : Dev :=
  forAll d fun d c => match (chanOf d c).desc with
    | some x => if (dSk x == 0 || dDk x == 0) && d.fld ChCfg.FUNC c == f.val then chanEnd d c 5 else d
    | none => d

/-- Whether a halted channel owns the entry of queue q that a cell heads (R371): it is not reclaimed. -/
def chanHolds (d : Dev) (n : Fin 4) (q : Fin 64) (cell : Nat) : Bool :=
  (List.finRange 8).any fun c => d.fld ChStat.STATE c == 4 && (chanOf d c).kept.any fun i =>
    i.key == 64 * n.val + q.val && (i.handle.map (fget 0 13)) == some cell

end Sys2Proof.Machine
end

