-- ==== Sys2Proof/Machine/Answers.lean ====
section
/-! DEFINITION. What the device answers on its host interfaces: the CRC-8 and frames of the serial host port (R116, R117), completions and error messages of the PCIe functions (R113). -/

namespace Sys2Proof.Machine

/-- One byte into the CRC-8 of the serial host port (R116): polynomial x^8 + x^2 + x + 1. -/
def crc8Byte (c x : Byte) : Byte :=
  (List.range 8).foldl (fun c _ => if c.getLsbD 7 then (c <<< 1) ^^^ 7 else c <<< 1) (c ^^^ x)

/-- The CRC-8 of a string of bytes, initial value 0xFF. -/
def crc8 (bytes : List Byte) : Byte := bytes.foldl crc8Byte 0xFF

/-- The bytes of a frame's address, most significant first (R116). -/
def addrBytes (a : Word) : List Byte := (byte4 a).reverse

/-- A frame of the serial host port up to its host check (R116). -/
def shpHead (cmd len : Nat) (a : Word) (data : List Word) : List Byte :=
  [BitVec.ofNat 8 cmd, BitVec.ofNat 8 len] ++ addrBytes a ++ data.flatMap byte4

/-- What the device sends (R116): status, read data and its check; nothing while its balls are high-impedance (R461). -/
def shpSay (d : Dev) (code : Nat) (data : List Word) : Dev :=
  let st : Byte := BitVec.ofNat 8 (0x80 + (if code = 0 then 0 else 0x40) + code * 8)
  let bs := st :: data.flatMap byte4
  if d.supply.contains .h then d.say (.shpFrame (bs ++ [crc8 bs])) else d

/-- The answer to a read (R113, R116): a completion of a PCIe function, which CODE 0 makes successful, or a frame of the serial host port with its CODE. A function answers nothing while PERST_N holds it in reset (R75). -/
def answer (d : Dev) (m : Master) (code : Nat) (ws : List Word) : Dev :=
  if m = .shp then shpSay d code ws
  else if (m == .pf0 || m == .pf1) && !d.perstN then d
  else d.say (.cpl m (code == 0) ws)

/-- A Completer Abort of a posted write of a function, logged in its AER (R113); the message follows where error reporting is enabled. -/
def aerPut (d : Dev) (f : Fin 2) : Dev :=
  let x := vget d.fn f
  let d := { d with fn := vset d.fn f { x with aerCA := true } }
  if x.errEn then d.say (.aer f) else d

/-- A posted write of a master that ends in an error, logged in AER (R113). -/
def aerLog (d : Dev) (h : Master) : Dev :=
  match h with
  | .pf0 => aerPut d 0
  | .pf1 => aerPut d 1
  | _ => d

/-- Whether a read of a master stalls at a queue (R92, R312): nothing that the master issues after it takes effect before it completes. -/
def stalled (d : Dev) (m : Master) : Bool :=
  (List.finRange 4).any fun n => (vget d.rgn n).queue.toList.any fun q => q.stalls.any fun e => e.1 == m

end Sys2Proof.Machine
end

