-- ==== Sys2Proof/Machine/RegMap.lean ====
section
/-! DEFINITION. The address map as a list: which register an address names, with its field classes (R10), its write-mask type (R93), its privilege (R108) and whether reading it pops (R91). An address no entry matches is reserved (R102). -/

namespace Sys2Proof.Machine

/-- The register kinds of the address map. -/
inductive RegId where
  | xbw
  | vbV
  | vbSeq
  | vbFmt
  | chipId
  | chipMode
  | uidLo
  | uidHi
  | strap
  | bankV
  | rstCause
  | start
  | clkStat
  | swRst
  | mclkCfg
  | mclkStat
  | mcnt
  | bkCtl
  | bkStat
  | hostErr
  | hostErrAddr
  | hostErrInfo
  | bkType
  | rmStat
  | patCtl
  | patStat
  | patDigLo
  | patDigHi
  | rctl
  | rstat
  | rcnt
  | rphase
  | rlate
  | pdCfg
  | pdScale
  | pdAscale
  | pdPhi
  | pdPlo
  | pdRate
  | pdStat
  | pdCtl
  | pdOfs
  | pstat
  | csync
  | csyncF
  | fcCfg
  | fcThrHi
  | fcThrLo
  | fcHys
  | fcRes
  | fcFres
  | fcStat
  | ecCfg
  | ecSsi
  | ecZhi
  | ecZlo
  | ecJmax
  | ecLhi
  | ecLlo
  | ecStat
  | ecCtl
  | pcCfg
  | pcPosHi
  | pcPosLo
  | pcPhHi
  | pcPhLo
  | pcStat
  | pcCtl
  | sense
  | kcCfg
  | kcIo0
  | kcIo1
  | kcCtl
  | kcStat
  | kcManv
  | kcP
  | kcPs
  | kcS
  | kstat
  | hspCtl
  | hspMap0
  | hspMap1
  | segWr
  | segRd
  | segStat
  | hsp
  | seg
  | pwm
  | pwmStat
  | qcfg
  | qstat
  | qcause
  | qctl
  | s1sel
  | lcCfg
  | lcRefw
  | lcSafe
  | lcShadow
  | lcCmp
  | lcStat
  | lcAcc
  | lcTda
  | qsum
  | qroute
  | qfilt
  | bpCtl
  | bpStat
  | bpEvt
  | bpErr
  | bpCnt
  | bpCfg
  | bpNbt
  | bpDbt
  | bpXbt
  | bpTdc
  | bpArd
  | bpArdN
  | bpArdD
  | bpPair
  | bpIdc
  | rQcfg
  | rQstat
  | rQcnt
  | qCfg0
  | qCfg1
  | qStat
  | qUse
  | qCtl
  | qPdata
  | qPend
  | qPop
  | qAck
  | tqCtl
  | tqStat
  | tqCnt
  | fdef
  | rxCnt
  | rxStat
  | wsum
  | vnLo
  | vnHi
  | wCfg0
  | wCfg1
  | wOpos
  | wCpos
  | wExt
  | wAf
  | wStat
  | wCnt
  | wBuf
  | feCtl
  | feMatch0
  | feMask0
  | feMatch1
  | feMask1
  | doorbell
  | evgCtl
  | evgCnt
  | hog
  | sact
  | sstk
  | spnd
  | src
  | tCfg
  | tStat
  | tClaim
  | tComplete
  | tCnt
  | tFsum
  | tFr
  | chCfg
  | chCtl
  | chTail
  | chHead
  | chStat
  | chBytes
  | trcCfg
  | trcStat
  | trcLost
  | trcCtl
  | wdog
  | rerr
  | fail
  | stw
  | fltCnt
  | twStat
  | twCtl
  | twCfg
  | twLink
  | twCnt
  | twTko
  | twBk
  | updCtl
  | updStat
  | updSid
  | updProg
  | updSubmit
  | updCdom
  | updCehi
  | updCelo
  | updCnt
  | updCalskip
  | updBusid
  | updSfwep
  | updPatep
  | updCalv
  | updBank
  | updMap
  | bootCause
  | qlink
deriving DecidableEq, Repr

/-- The field classes of R10; a bit that no field of a register covers is RSV. -/
inductive Cls where
  | cfg | w1c | cnt | cmd | live
deriving DecidableEq, Repr

/-- A register kind of the map: base address, the dimensions of its array (count, stride), whether it is M-type (R93), privileged (R108), a pop register (R91), its fields (lowest bit, width, class), and the bits that a pattern loads (R11). -/
structure RegFam where
  id : RegId
  base : Nat
  dims : List (Nat × Nat)
  mtype : Bool
  priv : Bool
  pop : Bool
  fields : List (Nat × Nat × Cls)
  pat : Nat
deriving DecidableEq, Repr

/-- Registers of the map, part 0. -/
def regFams0 : List RegFam := [
  ⟨.xbw, 0x1000040, [(4, 0x1000000)], false, false, false, [(0, 4, .live), (4, 4, .live), (8, 4, .live), (12, 4, .live)], 0xffff⟩,
  ⟨.vbV, 0x40000, [(16, 0x40), (16, 0x4)], false, false, false, [(0, 20, .live), (20, 12, .live)], 0x0⟩,
  ⟨.vbSeq, 0x40400, [(16, 0x4)], false, false, false, [(0, 16, .live)], 0x0⟩,
  ⟨.vbFmt, 0x40440, [(16, 0x4)], false, false, false, [(0, 16, .live), (16, 8, .live)], 0xffffff⟩,
  ⟨.chipId, 0x0, [], false, false, false, [(0, 8, .live), (8, 4, .live), (12, 4, .live), (16, 4, .live), (20, 4, .live), (24, 8, .live)], 0x0⟩,
  ⟨.chipMode, 0x4, [], true, false, false, [(0, 1, .cfg), (1, 1, .cfg), (2, 1, .live), (3, 1, .w1c)], 0x0⟩,
  ⟨.uidLo, 0x8, [], false, false, false, [(0, 32, .live)], 0x0⟩,
  ⟨.uidHi, 0xc, [], false, false, false, [(0, 32, .live)], 0x0⟩,
  ⟨.strap, 0x10, [], false, false, false, [(0, 1, .live), (1, 1, .live), (2, 2, .live), (4, 1, .live), (8, 1, .w1c)], 0x0⟩,
  ⟨.bankV, 0x14, [], false, false, false, [(0, 4, .live), (4, 1, .live), (16, 4, .live), (20, 4, .live), (24, 1, .live), (25, 1, .live)], 0x0⟩,
  ⟨.rstCause, 0x18, [], false, false, false, [(0, 1, .w1c), (1, 1, .w1c), (2, 1, .w1c), (3, 1, .w1c), (8, 8, .cnt)], 0x0⟩,
  ⟨.start, 0x1c, [], false, false, false, [(0, 3, .live), (3, 1, .cmd), (4, 1, .live), (16, 16, .live)], 0x0⟩,
  ⟨.clkStat, 0x20, [], false, false, false, [(0, 1, .live), (1, 1, .live), (2, 1, .w1c), (3, 1, .w1c), (8, 8, .cnt)], 0x0⟩,
  ⟨.swRst, 0x70040, [], false, true, false, [(0, 16, .cfg), (16, 1, .cmd)], 0x0⟩,
  ⟨.mclkCfg, 0x1000050, [(4, 0x1000000)], false, false, false, [(0, 7, .live), (7, 1, .live), (8, 7, .live), (15, 1, .live)], 0xffff⟩,
  ⟨.mclkStat, 0x1000054, [(4, 0x1000000)], false, false, false, [(0, 1, .w1c), (1, 1, .w1c), (2, 1, .w1c), (3, 1, .w1c), (4, 1, .live), (5, 1, .live)], 0x0⟩]

/-- Registers of the map, part 1. -/
def regFams1 : List RegFam := [
  ⟨.mcnt, 0x1000058, [(4, 0x1000000), (2, 0x4)], false, false, false, [(0, 32, .live)], 0x0⟩,
  ⟨.bkCtl, 0x1100000, [(4, 0x1000000), (4, 0x40000)], true, false, false, [(0, 1, .cmd), (1, 1, .cmd), (2, 1, .cmd), (3, 1, .cmd), (4, 1, .cmd)], 0x0⟩,
  ⟨.bkStat, 0x1100004, [(4, 0x1000000), (4, 0x40000)], false, false, false, [(0, 3, .live), (3, 1, .w1c), (4, 3, .live), (7, 1, .live), (8, 1, .live), (9, 1, .live), (10, 1, .live), (16, 16, .live)], 0x0⟩,
  ⟨.hostErr, 0x30, [], false, false, false, [(0, 8, .cnt), (8, 8, .cnt), (16, 8, .cnt), (24, 8, .cnt)], 0x0⟩,
  ⟨.hostErrAddr, 0x34, [], false, false, false, [(0, 27, .live)], 0x0⟩,
  ⟨.hostErrInfo, 0x38, [], false, false, false, [(0, 3, .live), (3, 1, .live), (4, 3, .live), (8, 4, .live), (31, 1, .w1c)], 0x0⟩,
  ⟨.bkType, 0x1100008, [(4, 0x1000000), (4, 0x40000)], false, false, false, [(0, 2, .live), (2, 1, .live), (3, 1, .live)], 0xf⟩,
  ⟨.rmStat, 0x1000060, [(4, 0x1000000)], false, false, false, [(0, 8, .cnt), (8, 8, .cnt), (16, 8, .cnt), (24, 4, .w1c)], 0x0⟩,
  ⟨.patCtl, 0x100, [], true, true, false, [(0, 1, .cmd), (1, 1, .cmd), (2, 2, .cfg), (4, 4, .cfg)], 0x0⟩,
  ⟨.patStat, 0x104, [], false, false, false, [(0, 1, .live), (1, 1, .w1c), (2, 1, .w1c), (8, 5, .live), (16, 4, .live), (20, 8, .live), (28, 1, .live)], 0x0⟩,
  ⟨.patDigLo, 0x108, [], false, false, false, [(0, 32, .live)], 0x0⟩,
  ⟨.patDigHi, 0x10c, [], false, false, false, [(0, 32, .live)], 0x0⟩,
  ⟨.rctl, 0x1108000, [(4, 0x1000000), (4, 0x40000)], true, false, false, [(0, 1, .cmd), (1, 1, .cfg), (2, 1, .cfg), (3, 1, .cmd)], 0x4⟩,
  ⟨.rstat, 0x1108004, [(4, 0x1000000), (4, 0x40000)], false, false, false, [(0, 1, .live), (1, 1, .live), (2, 1, .live), (3, 2, .live), (5, 1, .w1c), (6, 1, .w1c), (8, 8, .live), (16, 1, .live)], 0x1⟩,
  ⟨.rcnt, 0x1108008, [(4, 0x1000000), (4, 0x40000)], false, false, false, [(0, 16, .cnt), (16, 16, .cnt)], 0x0⟩,
  ⟨.rphase, 0x110800c, [(4, 0x1000000), (4, 0x40000)], false, false, false, [(0, 20, .live), (20, 12, .live)], 0x0⟩]

/-- Registers of the map, part 2. -/
def regFams2 : List RegFam := [
  ⟨.rlate, 0x1108010, [(4, 0x1000000), (4, 0x40000)], false, false, false, [(0, 20, .live)], 0x0⟩,
  ⟨.pdCfg, 0x30000, [(8, 0x100)], false, false, false, [(0, 3, .live), (4, 4, .live), (8, 3, .live), (12, 4, .live), (16, 3, .live), (19, 3, .live), (22, 1, .live), (23, 1, .live), (24, 8, .live)], 0xfffff7f7⟩,
  ⟨.pdScale, 0x30004, [(8, 0x100)], false, false, false, [(0, 32, .live)], 0xffffffff⟩,
  ⟨.pdAscale, 0x30008, [(8, 0x100)], false, false, false, [(0, 32, .live)], 0xffffffff⟩,
  ⟨.pdPhi, 0x3000c, [(8, 0x100)], false, false, false, [(0, 20, .live), (20, 12, .live)], 0x0⟩,
  ⟨.pdPlo, 0x30010, [(8, 0x100)], false, false, false, [(0, 20, .live), (20, 12, .live)], 0x0⟩,
  ⟨.pdRate, 0x30014, [(8, 0x100)], false, false, false, [(0, 32, .live)], 0x0⟩,
  ⟨.pdStat, 0x30018, [(8, 0x100)], false, false, false, [(0, 1, .live), (1, 1, .live), (2, 1, .live), (3, 1, .live), (4, 1, .w1c), (5, 1, .w1c), (6, 1, .w1c), (8, 8, .cnt)], 0x0⟩,
  ⟨.pdCtl, 0x3001c, [(8, 0x100)], true, false, false, [(0, 1, .cmd)], 0x0⟩,
  ⟨.pdOfs, 0x30020, [(8, 0x100)], false, false, false, [(0, 20, .live), (20, 12, .live)], 0x0⟩,
  ⟨.pstat, 0x1100010, [(4, 0x1000000), (4, 0x40000)], false, false, false, [(0, 1, .live), (1, 1, .live), (2, 1, .live), (3, 2, .live), (5, 1, .w1c), (6, 1, .w1c), (7, 1, .w1c), (8, 1, .w1c), (16, 16, .cnt)], 0x0⟩,
  ⟨.csync, 0x1100014, [(4, 0x1000000), (4, 0x40000)], false, false, false, [(0, 10, .live), (10, 1, .live), (11, 1, .live), (12, 1, .w1c), (16, 16, .live)], 0x7ff⟩,
  ⟨.csyncF, 0x1100018, [(4, 0x1000000), (4, 0x40000)], false, false, false, [(0, 20, .live)], 0xfffff⟩,
  ⟨.fcCfg, 0x1102000, [(4, 0x1000000), (4, 0x40000), (4, 0x400)], false, false, false, [(0, 9, .live), (9, 6, .live), (15, 1, .live), (16, 2, .live), (18, 2, .live), (20, 1, .live), (21, 1, .live), (22, 1, .live), (23, 1, .live)], 0xffffff⟩,
  ⟨.fcThrHi, 0x1102004, [(4, 0x1000000), (4, 0x40000), (4, 0x400)], false, false, false, [(0, 20, .live), (20, 12, .live)], 0xfffff⟩,
  ⟨.fcThrLo, 0x1102008, [(4, 0x1000000), (4, 0x40000), (4, 0x400)], false, false, false, [(0, 20, .live), (20, 12, .live)], 0xfffff⟩]

/-- Registers of the map, part 3. -/
def regFams3 : List RegFam := [
  ⟨.fcHys, 0x110200c, [(4, 0x1000000), (4, 0x40000), (4, 0x400)], false, false, false, [(0, 20, .live), (20, 12, .live)], 0xfffff⟩,
  ⟨.fcRes, 0x1102010, [(4, 0x1000000), (4, 0x40000), (4, 0x400)], false, false, false, [(0, 20, .live), (20, 12, .live)], 0x0⟩,
  ⟨.fcFres, 0x1102014, [(4, 0x1000000), (4, 0x40000), (4, 0x400)], false, false, false, [(0, 20, .live), (20, 12, .live)], 0x0⟩,
  ⟨.fcStat, 0x1102018, [(4, 0x1000000), (4, 0x40000), (4, 0x400)], false, false, false, [(0, 1, .live), (1, 1, .live), (2, 1, .live), (3, 1, .live), (4, 1, .w1c), (5, 1, .w1c), (6, 1, .w1c), (7, 1, .w1c), (8, 1, .w1c), (16, 8, .cnt), (24, 8, .cnt)], 0x0⟩,
  ⟨.ecCfg, 0x1103000, [(4, 0x1000000), (4, 0x40000)], false, false, false, [(0, 2, .live), (2, 4, .live), (6, 5, .live), (11, 1, .live), (12, 1, .live), (13, 1, .live), (14, 6, .live), (20, 5, .live)], 0x1ffffff⟩,
  ⟨.ecSsi, 0x1103004, [(4, 0x1000000), (4, 0x40000)], false, false, false, [(0, 12, .live), (12, 20, .live)], 0xffffffff⟩,
  ⟨.ecZhi, 0x1103008, [(4, 0x1000000), (4, 0x40000)], false, false, false, [(0, 20, .live), (20, 12, .live)], 0xfffff⟩,
  ⟨.ecZlo, 0x110300c, [(4, 0x1000000), (4, 0x40000)], false, false, false, [(0, 20, .live), (20, 12, .live)], 0xfffff⟩,
  ⟨.ecJmax, 0x1103010, [(4, 0x1000000), (4, 0x40000)], false, false, false, [(0, 20, .live), (20, 12, .live)], 0xfffff⟩,
  ⟨.ecLhi, 0x1103014, [(4, 0x1000000), (4, 0x40000)], false, false, false, [(0, 20, .live), (20, 12, .live)], 0x0⟩,
  ⟨.ecLlo, 0x1103018, [(4, 0x1000000), (4, 0x40000)], false, false, false, [(0, 20, .live), (20, 12, .live)], 0x0⟩,
  ⟨.ecStat, 0x110301c, [(4, 0x1000000), (4, 0x40000)], false, false, false, [(0, 1, .live), (1, 1, .live), (2, 1, .live), (3, 1, .live), (4, 1, .live), (5, 1, .live), (6, 1, .w1c), (7, 1, .w1c), (8, 1, .w1c), (9, 1, .w1c), (10, 1, .w1c), (11, 1, .w1c), (12, 1, .w1c), (16, 16, .cnt)], 0x0⟩,
  ⟨.ecCtl, 0x1103020, [(4, 0x1000000), (4, 0x40000)], true, false, false, [(0, 1, .cmd)], 0x0⟩,
  ⟨.pcCfg, 0x1103400, [(4, 0x1000000), (4, 0x40000)], false, false, false, [(0, 2, .live), (2, 4, .live), (6, 1, .live), (7, 1, .live), (8, 3, .live)], 0x7ff⟩,
  ⟨.pcPosHi, 0x1103404, [(4, 0x1000000), (4, 0x40000)], false, false, false, [(0, 20, .live), (20, 12, .live)], 0x0⟩,
  ⟨.pcPosLo, 0x1103408, [(4, 0x1000000), (4, 0x40000)], false, false, false, [(0, 20, .live), (20, 12, .live)], 0x0⟩]

/-- Registers of the map, part 4. -/
def regFams4 : List RegFam := [
  ⟨.pcPhHi, 0x110340c, [(4, 0x1000000), (4, 0x40000)], false, false, false, [(0, 20, .live), (20, 12, .live)], 0x0⟩,
  ⟨.pcPhLo, 0x1103410, [(4, 0x1000000), (4, 0x40000)], false, false, false, [(0, 20, .live), (20, 12, .live)], 0x0⟩,
  ⟨.pcStat, 0x1103414, [(4, 0x1000000), (4, 0x40000)], false, false, false, [(0, 1, .live), (1, 1, .live), (2, 1, .live), (3, 1, .w1c), (4, 1, .w1c), (5, 1, .w1c), (16, 16, .cnt)], 0x0⟩,
  ⟨.pcCtl, 0x1103418, [(4, 0x1000000), (4, 0x40000)], true, false, false, [(0, 1, .cmd)], 0x0⟩,
  ⟨.sense, 0x1100020, [(4, 0x1000000), (4, 0x40000)], false, false, false, [(0, 8, .live), (8, 8, .live)], 0xffff⟩,
  ⟨.kcCfg, 0x1104000, [(4, 0x1000000), (4, 0x40000), (12, 0x200)], false, false, false, [(0, 4, .live), (4, 4, .live), (8, 2, .live), (10, 1, .live), (11, 1, .live), (12, 6, .live)], 0x3ffff⟩,
  ⟨.kcIo0, 0x1104004, [(4, 0x1000000), (4, 0x40000), (12, 0x200)], false, false, false, [(0, 6, .live), (6, 6, .live), (12, 6, .live), (18, 6, .live), (24, 4, .live)], 0xfffffff⟩,
  ⟨.kcIo1, 0x1104008, [(4, 0x1000000), (4, 0x40000), (12, 0x200)], false, false, false, [(0, 6, .live), (6, 6, .live), (12, 6, .live), (18, 3, .live)], 0x1fffff⟩,
  ⟨.kcCtl, 0x110400c, [(4, 0x1000000), (4, 0x40000), (12, 0x200)], true, false, false, [(0, 1, .cmd), (1, 1, .cmd), (2, 1, .cmd), (3, 1, .cmd), (4, 1, .cmd), (5, 1, .cmd)], 0x0⟩,
  ⟨.kcStat, 0x1104010, [(4, 0x1000000), (4, 0x40000), (12, 0x200)], false, false, false, [(0, 3, .live), (3, 1, .live), (4, 1, .live), (5, 1, .live), (6, 1, .live), (7, 1, .live), (8, 1, .w1c), (9, 1, .w1c), (10, 2, .live), (12, 1, .w1c), (13, 1, .live), (16, 16, .cnt)], 0x0⟩,
  ⟨.kcManv, 0x1104014, [(4, 0x1000000), (4, 0x40000), (12, 0x200)], false, false, false, [(0, 20, .cfg), (20, 12, .live)], 0xfffff⟩,
  ⟨.kcP, 0x1104040, [(4, 0x1000000), (4, 0x40000), (12, 0x200), (16, 0x4)], false, false, false, [(0, 32, .live)], 0xffffffff⟩,
  ⟨.kcPs, 0x1104080, [(4, 0x1000000), (4, 0x40000), (12, 0x200), (16, 0x4)], false, false, false, [(0, 32, .cfg)], 0xffffffff⟩,
  ⟨.kcS, 0x1104100, [(4, 0x1000000), (4, 0x40000), (12, 0x200), (8, 0x4)], false, false, false, [(0, 32, .live)], 0x0⟩,
  ⟨.kstat, 0x1100030, [(4, 0x1000000), (4, 0x40000)], false, false, false, [(0, 12, .live), (12, 1, .w1c), (16, 8, .cnt), (24, 8, .cnt)], 0x0⟩,
  ⟨.hspCtl, 0x1100034, [(4, 0x1000000), (4, 0x40000)], true, false, false, [(0, 1, .cmd)], 0x0⟩]

/-- Registers of the map, part 5. -/
def regFams5 : List RegFam := [
  ⟨.hspMap0, 0x1100038, [(4, 0x1000000), (4, 0x40000)], false, false, false, [(0, 6, .live), (6, 6, .live), (12, 6, .live), (18, 6, .live), (24, 8, .live)], 0xffffffff⟩,
  ⟨.hspMap1, 0x110003c, [(4, 0x1000000), (4, 0x40000)], false, false, false, [(0, 6, .live), (6, 6, .live), (12, 6, .live), (18, 6, .live)], 0xffffff⟩,
  ⟨.segWr, 0x1100040, [(4, 0x1000000), (4, 0x40000)], false, false, false, [(0, 6, .cfg)], 0x0⟩,
  ⟨.segRd, 0x1100044, [(4, 0x1000000), (4, 0x40000)], false, false, false, [(0, 6, .live), (8, 6, .live), (16, 16, .cnt)], 0x0⟩,
  ⟨.segStat, 0x1100048, [(4, 0x1000000), (4, 0x40000)], false, false, false, [(0, 1, .w1c), (1, 1, .w1c), (2, 1, .w1c), (3, 1, .w1c), (4, 1, .live), (8, 8, .live)], 0x0⟩,
  ⟨.hsp, 0x1100100, [(4, 0x1000000), (4, 0x40000), (8, 0x4)], false, false, false, [(0, 20, .cfg), (20, 12, .live)], 0xfffff⟩,
  ⟨.seg, 0x1100800, [(4, 0x1000000), (4, 0x40000), (32, 0x20), (8, 0x4)], false, false, false, [(0, 32, .cfg)], 0x0⟩,
  ⟨.pwm, 0x1100060, [(4, 0x1000000), (4, 0x40000)], false, false, false, [(0, 18, .live)], 0x3ffff⟩,
  ⟨.pwmStat, 0x1100064, [(4, 0x1000000), (4, 0x40000)], false, false, false, [(0, 1, .live), (1, 1, .live), (2, 6, .live), (8, 1, .w1c), (16, 16, .cnt)], 0x0⟩,
  ⟨.qcfg, 0x1100070, [(4, 0x1000000), (4, 0x40000)], false, false, false, [(0, 1, .live), (1, 1, .live), (2, 1, .live), (3, 1, .live), (4, 3, .live), (7, 3, .live)], 0x3ff⟩,
  ⟨.qstat, 0x1100074, [(4, 0x1000000), (4, 0x40000)], false, false, false, [(0, 1, .live), (1, 1, .live), (2, 1, .w1c), (3, 1, .w1c), (4, 4, .live), (16, 8, .cnt)], 0x0⟩,
  ⟨.qcause, 0x1100078, [(4, 0x1000000), (4, 0x40000)], false, false, false, [(0, 16, .live), (16, 16, .live)], 0x0⟩,
  ⟨.qctl, 0x110007c, [(4, 0x1000000), (4, 0x40000)], true, false, false, [(0, 1, .cmd), (1, 1, .cmd)], 0x0⟩,
  ⟨.s1sel, 0x1100080, [(4, 0x1000000), (4, 0x40000)], false, false, false, [(0, 16, .live)], 0xffff⟩,
  ⟨.lcCfg, 0x1101000, [(4, 0x1000000), (4, 0x40000), (3, 0x400)], false, false, false, [(0, 10, .live), (10, 10, .live), (20, 2, .live), (22, 1, .live), (23, 8, .live)], 0x7fffffff⟩,
  ⟨.lcRefw, 0x1101004, [(4, 0x1000000), (4, 0x40000), (3, 0x400)], false, false, false, [(0, 12, .live)], 0xfff⟩]

/-- Registers of the map, part 6. -/
def regFams6 : List RegFam := [
  ⟨.lcSafe, 0x1101008, [(4, 0x1000000), (4, 0x40000), (3, 0x400)], false, false, false, [(0, 1, .live), (1, 1, .live)], 0x3⟩,
  ⟨.lcShadow, 0x110100c, [(4, 0x1000000), (4, 0x40000), (3, 0x400)], false, false, false, [(0, 23, .live), (23, 9, .live)], 0x0⟩,
  ⟨.lcCmp, 0x1101010, [(4, 0x1000000), (4, 0x40000), (3, 0x400)], false, false, false, [(0, 23, .live), (23, 9, .live)], 0x0⟩,
  ⟨.lcStat, 0x1101014, [(4, 0x1000000), (4, 0x40000), (3, 0x400)], false, false, false, [(0, 1, .live), (1, 1, .live), (2, 1, .live), (3, 1, .w1c), (4, 1, .w1c), (16, 16, .cnt)], 0x0⟩,
  ⟨.lcAcc, 0x1101018, [(4, 0x1000000), (4, 0x40000), (3, 0x400)], false, false, false, [(0, 12, .live), (12, 1, .live), (13, 8, .live)], 0x0⟩,
  ⟨.lcTda, 0x110101c, [(4, 0x1000000), (4, 0x40000), (3, 0x400)], false, false, false, [(0, 20, .live)], 0x0⟩,
  ⟨.qsum, 0x24, [], false, false, false, [(0, 16, .live), (16, 1, .live), (17, 1, .live), (18, 1, .live), (19, 1, .live)], 0x0⟩,
  ⟨.qroute, 0x28, [], false, false, false, [(0, 16, .live), (16, 16, .live)], 0xffffffff⟩,
  ⟨.qfilt, 0x2c, [], false, false, false, [(0, 3, .live), (3, 3, .live)], 0x3f⟩,
  ⟨.bpCtl, 0x1010000, [(4, 0x1000000)], true, false, false, [(0, 1, .cmd), (1, 1, .cmd), (2, 1, .cmd), (3, 1, .cmd), (4, 1, .cmd), (5, 1, .cmd), (6, 1, .cmd), (7, 1, .cfg), (8, 2, .cfg)], 0x300⟩,
  ⟨.bpStat, 0x1010004, [(4, 0x1000000)], false, false, false, [(0, 3, .live), (3, 2, .live), (5, 1, .live), (6, 1, .live), (8, 8, .live), (16, 9, .live)], 0x0⟩,
  ⟨.bpEvt, 0x1010008, [(4, 0x1000000)], false, false, false, [(0, 1, .w1c), (1, 1, .w1c), (2, 1, .w1c), (3, 1, .w1c), (4, 1, .w1c), (5, 1, .w1c), (6, 1, .w1c), (7, 1, .w1c), (8, 1, .w1c), (9, 3, .live), (16, 16, .cnt)], 0x0⟩,
  ⟨.bpErr, 0x101000c, [(4, 0x1000000)], false, false, false, [(0, 3, .live), (3, 1, .live), (8, 8, .cnt), (16, 8, .live)], 0x0⟩,
  ⟨.bpCnt, 0x1010010, [(4, 0x1000000)], false, false, false, [(0, 16, .cnt), (16, 16, .cnt)], 0x0⟩,
  ⟨.bpCfg, 0x1010014, [(4, 0x1000000)], false, false, false, [(0, 1, .live), (1, 1, .live), (2, 1, .live), (3, 1, .live), (4, 1, .live), (5, 1, .live)], 0x3f⟩,
  ⟨.bpNbt, 0x1010018, [(4, 0x1000000)], false, false, false, [(0, 10, .cfg), (10, 8, .cfg), (18, 8, .cfg)], 0x3ffffff⟩]

/-- Registers of the map, part 7. -/
def regFams7 : List RegFam := [
  ⟨.bpDbt, 0x101001c, [(4, 0x1000000)], false, false, false, [(0, 7, .cfg), (7, 6, .cfg), (13, 6, .cfg)], 0x7ffff⟩,
  ⟨.bpXbt, 0x1010020, [(4, 0x1000000)], false, false, false, [(0, 7, .cfg), (7, 6, .cfg), (13, 6, .cfg)], 0x7ffff⟩,
  ⟨.bpTdc, 0x1010024, [(4, 0x1000000)], false, false, false, [(0, 7, .cfg), (8, 7, .live)], 0x7f⟩,
  ⟨.bpArd, 0x1010028, [(4, 0x1000000)], false, false, false, [(0, 1, .live), (1, 2, .live), (3, 2, .live), (8, 8, .cfg), (16, 4, .cfg)], 0xfff00⟩,
  ⟨.bpArdN, 0x1010030, [(4, 0x1000000), (4, 0x8)], false, false, false, [(0, 10, .cfg), (10, 8, .cfg), (18, 8, .cfg)], 0x3ffffff⟩,
  ⟨.bpArdD, 0x1010034, [(4, 0x1000000), (4, 0x8)], false, false, false, [(0, 7, .cfg), (7, 6, .cfg), (13, 6, .cfg), (31, 1, .cfg)], 0x8007ffff⟩,
  ⟨.bpPair, 0x1010050, [(4, 0x1000000)], false, false, false, [(0, 2, .live), (2, 1, .live), (3, 1, .live), (4, 1, .live), (5, 1, .live), (6, 1, .w1c), (8, 8, .live), (16, 16, .cnt)], 0xff1f⟩,
  ⟨.bpIdc, 0x1010054, [(4, 0x1000000)], false, false, false, [(0, 29, .live), (29, 1, .live), (30, 2, .live)], 0x0⟩,
  ⟨.rQcfg, 0x1020000, [(4, 0x1000000)], false, false, false, [(0, 7, .cfg)], 0x7f⟩,
  ⟨.rQstat, 0x1020004, [(4, 0x1000000)], false, false, false, [(0, 14, .live), (14, 1, .live), (15, 1, .w1c), (16, 6, .live), (22, 1, .live), (24, 8, .cnt)], 0x0⟩,
  ⟨.rQcnt, 0x1020008, [(4, 0x1000000)], false, false, false, [(0, 16, .cnt), (16, 16, .cnt)], 0x0⟩,
  ⟨.qCfg0, 0x1021000, [(4, 0x1000000), (64, 0x40)], false, false, false, [(0, 14, .live), (14, 1, .live), (15, 1, .live), (16, 14, .live)], 0x3fffffff⟩,
  ⟨.qCfg1, 0x1021004, [(4, 0x1000000), (64, 0x40)], false, false, false, [(0, 16, .live), (16, 8, .live), (24, 2, .live), (26, 2, .live)], 0xfffffff⟩,
  ⟨.qStat, 0x1021008, [(4, 0x1000000), (64, 0x40)], false, false, false, [(0, 1, .w1c), (1, 1, .w1c), (2, 1, .w1c), (3, 1, .w1c), (4, 1, .w1c), (5, 1, .w1c), (6, 1, .w1c), (7, 1, .live), (8, 1, .live), (9, 1, .live), (10, 1, .w1c), (16, 16, .cnt)], 0x0⟩,
  ⟨.qUse, 0x102100c, [(4, 0x1000000), (64, 0x40)], false, false, false, [(0, 14, .live), (16, 5, .live), (21, 11, .live)], 0x0⟩,
  ⟨.qCtl, 0x1021010, [(4, 0x1000000), (64, 0x40)], true, false, false, [(0, 1, .cmd), (1, 1, .cmd)], 0x0⟩]

/-- Registers of the map, part 8. -/
def regFams8 : List RegFam := [
  ⟨.qPdata, 0x1021014, [(4, 0x1000000), (64, 0x40)], false, false, false, [(0, 32, .cmd)], 0x0⟩,
  ⟨.qPend, 0x1021018, [(4, 0x1000000), (64, 0x40)], false, false, false, [(0, 4, .cmd), (4, 2, .cmd)], 0x0⟩,
  ⟨.qPop, 0x102101c, [(4, 0x1000000), (64, 0x40)], false, false, true, [(0, 32, .live)], 0x0⟩,
  ⟨.qAck, 0x1021020, [(4, 0x1000000), (64, 0x40)], false, false, false, [(0, 16, .cmd)], 0x0⟩,
  ⟨.tqCtl, 0x1010100, [(4, 0x1000000)], true, false, false, [(0, 1, .cmd), (1, 1, .cfg), (2, 4, .cfg)], 0x3e⟩,
  ⟨.tqStat, 0x1010104, [(4, 0x1000000)], false, false, false, [(0, 1, .live), (1, 1, .live), (2, 1, .w1c), (3, 1, .w1c), (4, 1, .w1c), (8, 4, .live), (16, 16, .live)], 0x0⟩,
  ⟨.tqCnt, 0x1010108, [(4, 0x1000000)], false, false, false, [(0, 8, .cnt), (8, 8, .cnt), (16, 16, .cnt)], 0x0⟩,
  ⟨.fdef, 0x1010110, [(4, 0x1000000)], false, false, false, [(0, 2, .cfg), (2, 4, .cfg), (6, 1, .cfg)], 0x7f⟩,
  ⟨.rxCnt, 0x1010114, [(4, 0x1000000)], false, false, false, [(0, 16, .cnt), (16, 16, .cnt)], 0x0⟩,
  ⟨.rxStat, 0x1010118, [(4, 0x1000000)], false, false, false, [(0, 1, .w1c)], 0x0⟩,
  ⟨.wsum, 0x101011c, [(4, 0x1000000)], false, false, false, [(0, 32, .w1c)], 0x0⟩,
  ⟨.vnLo, 0x1010200, [(4, 0x1000000), (17, 0x8)], false, false, false, [(0, 29, .live), (29, 1, .live), (30, 1, .live)], 0x7fffffff⟩,
  ⟨.vnHi, 0x1010204, [(4, 0x1000000), (17, 0x8)], false, false, false, [(0, 29, .live)], 0x1fffffff⟩,
  ⟨.wCfg0, 0x1010400, [(4, 0x1000000), (32, 0x20)], false, false, false, [(0, 29, .live), (29, 1, .live)], 0x3fffffff⟩,
  ⟨.wCfg1, 0x1010404, [(4, 0x1000000), (32, 0x20)], false, false, false, [(0, 3, .live), (3, 1, .live), (4, 5, .live), (9, 1, .live), (10, 7, .live), (17, 4, .live), (21, 3, .live), (24, 8, .live)], 0xffffffff⟩,
  ⟨.wOpos, 0x1010408, [(4, 0x1000000), (32, 0x20)], false, false, false, [(0, 20, .live), (20, 12, .live)], 0xfffff⟩]

/-- Registers of the map, part 9. -/
def regFams9 : List RegFam := [
  ⟨.wCpos, 0x101040c, [(4, 0x1000000), (32, 0x20)], false, false, false, [(0, 20, .live), (20, 12, .live)], 0xfffff⟩,
  ⟨.wExt, 0x1010410, [(4, 0x1000000), (32, 0x20)], false, false, false, [(0, 8, .live), (8, 8, .live), (16, 1, .live)], 0x1ffff⟩,
  ⟨.wAf, 0x1010414, [(4, 0x1000000), (32, 0x20)], false, false, false, [(0, 32, .live)], 0xffffffff⟩,
  ⟨.wStat, 0x1010418, [(4, 0x1000000), (32, 0x20)], false, false, false, [(0, 1, .live), (1, 1, .live), (2, 1, .live), (3, 1, .w1c), (4, 3, .live), (7, 1, .w1c), (16, 16, .cnt)], 0x0⟩,
  ⟨.wCnt, 0x101041c, [(4, 0x1000000), (32, 0x20)], false, false, false, [(0, 16, .cnt), (16, 16, .cnt)], 0x0⟩,
  ⟨.wBuf, 0x1010800, [(4, 0x1000000), (32, 0x40), (16, 0x4)], false, false, false, [(0, 32, .live)], 0x0⟩,
  ⟨.feCtl, 0x1011000, [(4, 0x1000000), (128, 0x20)], false, false, false, [(0, 1, .cfg), (1, 2, .cfg), (3, 4, .cfg), (7, 3, .cfg), (10, 1, .cfg)], 0x7ff⟩,
  ⟨.feMatch0, 0x1011004, [(4, 0x1000000), (128, 0x20)], false, false, false, [(0, 32, .cfg)], 0xffffffff⟩,
  ⟨.feMask0, 0x1011008, [(4, 0x1000000), (128, 0x20)], false, false, false, [(0, 32, .cfg)], 0xffffffff⟩,
  ⟨.feMatch1, 0x101100c, [(4, 0x1000000), (128, 0x20)], false, false, false, [(0, 32, .cfg)], 0xffffffff⟩,
  ⟨.feMask1, 0x1011010, [(4, 0x1000000), (128, 0x20)], false, false, false, [(0, 32, .cfg)], 0xffffffff⟩,
  ⟨.doorbell, 0x10000, [], false, false, false, [(0, 10, .cmd), (15, 1, .cmd), (16, 16, .cmd)], 0x0⟩,
  ⟨.evgCtl, 0x10004, [], false, true, false, [(0, 8, .cfg)], 0x0⟩,
  ⟨.evgCnt, 0x10008, [], false, false, false, [(0, 16, .cnt), (16, 16, .cnt)], 0x0⟩,
  ⟨.hog, 0x10100, [(64, 0x4)], false, true, false, [(0, 16, .cfg), (16, 1, .live)], 0x0⟩,
  ⟨.sact, 0x10200, [(32, 0x4)], false, false, false, [(0, 32, .live)], 0x0⟩]

/-- Registers of the map, part 10. -/
def regFams10 : List RegFam := [
  ⟨.sstk, 0x10280, [(32, 0x4)], false, false, false, [(0, 32, .w1c)], 0x0⟩,
  ⟨.spnd, 0x10300, [(32, 0x4)], false, false, false, [(0, 32, .live)], 0x0⟩,
  ⟨.src, 0x11000, [(1024, 0x4)], false, true, false, [(0, 2, .cfg), (2, 1, .cfg), (3, 1, .live), (4, 1, .cfg), (5, 1, .cfg), (6, 3, .cfg), (9, 6, .cfg), (15, 1, .cfg)], 0x0⟩,
  ⟨.tCfg, 0x14000, [(4, 0x1000)], false, false, false, [(0, 1, .cfg), (1, 1, .cfg), (2, 1, .cmd), (3, 1, .cfg), (4, 3, .cfg), (7, 5, .cfg), (12, 5, .cfg), (17, 1, .cfg)], 0x0⟩,
  ⟨.tStat, 0x14004, [(4, 0x1000)], false, false, false, [(0, 8, .live), (8, 5, .live), (13, 1, .live), (14, 1, .live), (15, 1, .live), (16, 1, .w1c), (17, 1, .w1c), (18, 1, .w1c), (19, 1, .w1c)], 0x0⟩,
  ⟨.tClaim, 0x14008, [(4, 0x1000)], false, false, true, [(0, 32, .live)], 0x0⟩,
  ⟨.tComplete, 0x1400c, [(4, 0x1000)], false, false, false, [(0, 7, .cmd), (8, 8, .cmd), (16, 1, .cmd)], 0x0⟩,
  ⟨.tCnt, 0x14010, [(4, 0x1000)], false, false, false, [(0, 16, .cnt), (16, 8, .cnt), (24, 8, .cnt)], 0x0⟩,
  ⟨.tFsum, 0x14014, [(4, 0x1000)], false, false, false, [(0, 8, .live)], 0x0⟩,
  ⟨.tFr, 0x14020, [(4, 0x1000), (8, 0x4)], false, false, true, [(0, 32, .live)], 0x0⟩,
  ⟨.chCfg, 0x20000, [(8, 0x100)], false, true, false, [(0, 1, .cfg), (1, 1, .cfg), (2, 4, .cfg), (6, 13, .cfg), (19, 8, .cfg)], 0x0⟩,
  ⟨.chCtl, 0x20004, [(8, 0x100)], true, false, false, [(0, 1, .cmd), (1, 1, .cmd)], 0x0⟩,
  ⟨.chTail, 0x20008, [(8, 0x100)], false, false, false, [(0, 11, .cfg)], 0x0⟩,
  ⟨.chHead, 0x2000c, [(8, 0x100)], false, false, false, [(0, 11, .live)], 0x0⟩,
  ⟨.chStat, 0x20010, [(8, 0x100)], false, false, false, [(0, 3, .live), (3, 1, .w1c), (4, 1, .w1c), (5, 1, .w1c), (6, 4, .live), (16, 16, .cnt)], 0x0⟩,
  ⟨.chBytes, 0x20014, [(8, 0x100)], false, false, false, [(0, 32, .cnt)], 0x0⟩]

/-- Registers of the map, part 11. -/
def regFams11 : List RegFam := [
  ⟨.trcCfg, 0x20800, [], false, false, false, [(0, 16, .live), (16, 1, .live), (17, 1, .live)], 0x3ffff⟩,
  ⟨.trcStat, 0x20804, [], false, false, false, [(0, 17, .live)], 0x0⟩,
  ⟨.trcLost, 0x20808, [], false, false, false, [(0, 32, .cnt)], 0x0⟩,
  ⟨.trcCtl, 0x2080c, [], true, false, false, [(0, 1, .cmd)], 0x0⟩,
  ⟨.wdog, 0x1100120, [(4, 0x1000000), (4, 0x40000)], false, false, false, [(0, 20, .live), (20, 2, .live), (22, 1, .w1c), (23, 1, .w1c), (24, 8, .cnt)], 0x0⟩,
  ⟨.rerr, 0x1000070, [(4, 0x1000000)], false, false, false, [(0, 3, .live), (3, 1, .w1c), (4, 3, .live), (8, 1, .w1c), (16, 8, .cnt), (24, 3, .live)], 0x0⟩,
  ⟨.fail, 0x180, [], false, false, false, [(0, 3, .live), (4, 2, .live), (6, 1, .w1c), (7, 1, .live), (8, 8, .cnt)], 0x0⟩,
  ⟨.stw, 0x184, [], false, false, false, [(0, 1, .live), (1, 1, .w1c), (2, 1, .w1c), (3, 1, .w1c), (8, 2, .live)], 0x0⟩,
  ⟨.fltCnt, 0x188, [], false, false, false, [(0, 8, .cnt), (8, 8, .cnt), (16, 8, .cnt), (24, 8, .cnt)], 0x0⟩,
  ⟨.twStat, 0x50000, [], false, false, false, [(0, 2, .live), (2, 1, .live), (3, 1, .live), (4, 2, .live), (6, 1, .live), (7, 1, .live), (8, 1, .live), (9, 1, .live), (10, 1, .live), (11, 1, .live), (12, 1, .live), (13, 3, .live), (16, 1, .w1c), (17, 1, .w1c), (18, 1, .w1c), (19, 1, .w1c), (20, 1, .w1c), (21, 2, .live)], 0x0⟩,
  ⟨.twCtl, 0x50004, [], true, true, false, [(0, 1, .cmd), (1, 1, .cmd), (2, 1, .cmd)], 0x0⟩,
  ⟨.twCfg, 0x50008, [], false, false, false, [(0, 16, .live)], 0xffff⟩,
  ⟨.twLink, 0x5000c, [], false, false, false, [(0, 16, .live), (16, 8, .cnt), (24, 8, .cnt)], 0x0⟩,
  ⟨.twCnt, 0x50010, [], false, false, false, [(0, 8, .cnt), (8, 8, .cnt), (16, 16, .cnt)], 0x0⟩,
  ⟨.twTko, 0x50014, [], false, false, false, [(0, 16, .live), (16, 8, .live), (24, 2, .live)], 0x0⟩,
  ⟨.twBk, 0x50040, [(16, 0x4)], false, false, false, [(0, 2, .live), (2, 1, .live), (3, 1, .w1c), (4, 1, .live), (8, 8, .cnt), (16, 16, .cnt)], 0x0⟩]

/-- Registers of the map, part 12. -/
def regFams12 : List RegFam := [
  ⟨.updCtl, 0x60000, [], true, true, false, [(0, 1, .cmd), (1, 1, .cmd), (2, 1, .cmd), (3, 1, .cmd), (4, 1, .cmd)], 0x0⟩,
  ⟨.updStat, 0x60004, [], false, false, false, [(0, 3, .live), (3, 3, .live), (6, 1, .live), (7, 1, .live), (8, 5, .live), (13, 1, .w1c), (14, 1, .w1c)], 0x0⟩,
  ⟨.updSid, 0x60008, [], false, false, false, [(0, 32, .live)], 0x0⟩,
  ⟨.updProg, 0x6000c, [], false, false, false, [(0, 16, .live), (16, 16, .live)], 0x0⟩,
  ⟨.updSubmit, 0x60010, [], false, true, false, [(0, 18, .cfg), (31, 1, .cmd)], 0x0⟩,
  ⟨.updCdom, 0x60014, [], false, false, false, [(0, 3, .cfg)], 0x0⟩,
  ⟨.updCehi, 0x60018, [], false, false, false, [(0, 20, .cfg), (20, 12, .live)], 0x0⟩,
  ⟨.updCelo, 0x6001c, [], false, false, false, [(0, 20, .cfg), (20, 12, .live)], 0x0⟩,
  ⟨.updCnt, 0x60020, [], false, false, false, [(0, 8, .cnt), (8, 8, .cnt), (16, 8, .cnt), (24, 8, .cnt)], 0x0⟩,
  ⟨.updCalskip, 0x60024, [], false, false, false, [(0, 16, .cnt)], 0x0⟩,
  ⟨.updBusid, 0x60030, [(4, 0x4)], false, false, false, [(0, 11, .live), (11, 1, .live)], 0xfff⟩,
  ⟨.updSfwep, 0x60040, [], false, false, false, [(0, 32, .live)], 0x0⟩,
  ⟨.updPatep, 0x60044, [], false, false, false, [(0, 32, .live)], 0x0⟩,
  ⟨.updCalv, 0x60048, [], false, false, false, [(0, 16, .live), (16, 16, .live)], 0x0⟩,
  ⟨.updBank, 0x6004c, [], false, false, false, [(0, 1, .live), (1, 1, .live), (2, 2, .live), (4, 1, .live), (5, 1, .live), (8, 24, .live)], 0x0⟩,
  ⟨.updMap, 0x61000, [(1024, 0x4)], false, false, false, [(0, 32, .live)], 0x0⟩]

/-- Registers of the map, part 13. -/
def regFams13 : List RegFam := [
  ⟨.bootCause, 0x1a0, [], false, false, false, [(0, 5, .live), (5, 2, .live), (7, 1, .live), (8, 1, .live), (9, 1, .live), (10, 1, .live)], 0x0⟩,
  ⟨.qlink, 0x1028000, [(4, 0x1000000), (8192, 0x4)], false, false, false, [(0, 24, .live)], 0⟩]

/-- Every register kind of the address map. -/
def regFams : List RegFam :=
  regFams0 ++ regFams1 ++ regFams2 ++ regFams3 ++ regFams4 ++ regFams5 ++ regFams6 ++ regFams7 ++ regFams8 ++ regFams9 ++ regFams10 ++ regFams11 ++ regFams12 ++ regFams13

/-- The array indices of an offset: one index per dimension, the rest being zero, or none. -/
def splitDims : List (Nat × Nat) → Nat → Option (List Nat)
  | [], off => if off = 0 then some [] else none
  | (c, s) :: ds, off =>
    if off / s < c then (splitDims ds (off % s)).map (off / s :: ·) else none

/-- The register an address names, with its array indices; none for a reserved address (R102). -/
def regAt (a : Nat) : Option (RegFam × List Nat) :=
  regFams.findSome? fun f =>
    if f.base ≤ a then (splitDims f.dims (a - f.base)).map fun ix => (f, ix) else none

end Sys2Proof.Machine
end

