-- ==== Sys2Proof/Machine/Kernel.lean ====
section
/-! DEFINITION. The kernel cells: the kinds of R215 to R228 and R237 to R243, their presets (R230, R231), modes (R229) and commands (R232). -/

namespace Sys2Proof.Machine

/-- The index of a kernel cell. -/
abbrev KIx := Fin 16 × Fin 12

/-- Parameter i of a kernel cell as its 32-bit word (R247). -/
def kpW (d : Dev) (k : KIx) (i : Fin 16) : Nat := d.fld KcP.V (k.1, k.2, i)

/-- Parameter i as a 20-bit signed value (R9). -/
def kpS (d : Dev) (k : KIx) (i : Fin 16) : Int := sx 20 (kpW d k i)

/-- Parameter i as a U20 value. -/
def kpU (d : Dev) (k : KIx) (i : Fin 16) : Nat := kpW d k i % 2 ^ 20

/-- Parameter i as a signed 32-bit word. -/
def kpL (d : Dev) (k : KIx) (i : Fin 16) : Int := sx 32 (kpW d k i)

/-- A parameter outside its range is used as the nearest value inside it (R214). -/
def kpIn (lo hi : Int) (v : Int) : Int := clampI lo hi v

/-- Variant bit j of a cell (R216). -/
def kvar (d : Dev) (k : KIx) (j : Nat) : Bool := (d.fld KcCfg.VAR k).testBit j

/-- The operand entry of input j. -/
def kin (d : Dev) (k : KIx) (j : Nat) : Nat :=
  match j with
  | 0 => d.fld KcIo0.IN0 k | 1 => d.fld KcIo0.IN1 k | 2 => d.fld KcIo0.IN2 k | _ => d.fld KcIo0.IN3 k

/-- The operand entry of output j. -/
def kout (d : Dev) (k : KIx) (j : Nat) : Nat :=
  match j with
  | 0 => d.fld KcIo1.OUT0 k | 1 => d.fld KcIo1.OUT1 k | _ => d.fld KcIo1.OUT2 k

/-- Whether input j is enabled. -/
def kinEn (d : Dev) (k : KIx) (j : Nat) : Bool := (d.fld KcIo0.INEN k).testBit j

/-- How many outputs a kind has (R215); LIMIT has its second in the vector variant only (R219). -/
def kOuts (d : Dev) (k : KIx) : Nat :=
  match d.fld KcCfg.KIND k with
  | 0 => 0
  | 5 => if d.fld KcCfg.VAR k % 4 = 2 then 2 else 1
  | 6 => 2 | 8 => 3 | 10 => 3 | 11 => 2 | 12 => 3 | 15 => 2
  | _ => 1

/-- Whether output j is written: the kind has it and its OUTEN bit is 1 (R215). -/
def koutEn (d : Dev) (k : KIx) (j : Nat) : Bool := (d.fld KcIo1.OUTEN k).testBit j && decide (j < kOuts d k)

/-- Input j as F20; zero when it is not enabled (R215). -/
def kx (d : Dev) (k : KIx) (j : Nat) : Int := if kinEn d k j then (d.b k.1).ofS (kin d k j) else 0

/-- Input j as a P40 pair; zero when it is not enabled. -/
def kxp (d : Dev) (k : KIx) (j : Nat) : Int := if kinEn d k j then (d.b k.1).ofP (kin d k j) else 0

/-- The state of a kernel cell. -/
def kst (d : Dev) (k : KIx) : Kern := vget (d.b k.1).kern k.2

/-- The device with a kernel cell's state changed. -/
def onK (d : Dev) (k : KIx) (f : Kern → Kern) : Dev :=
  d.onB k.1 fun b => { b with kern := vmod b.kern k.2 f }

/-- Output j written as a 20-bit value, when it is enabled (R215). -/
def kwr (d : Dev) (k : KIx) (j : Nat) (v : Int) : Dev :=
  if koutEn d k j then d.onB k.1 fun b => b.putS (kout d k j) v else d

/-- Output j written as a pair. -/
def kwrP (d : Dev) (k : KIx) (j : Nat) (v : Int) : Dev :=
  if koutEn d k j then d.onB k.1 fun b => b.putP (kout d k j) v else d

/-- The outputs recorded for a snapshot (R247 S4 to S6) and written to their entries. -/
def kemit (d : Dev) (k : KIx) (o0 o1 o2 : Int) : Dev :=
  let d := kwr (kwr (kwr d k 0 o0) k 1 o1) k 2 o2
  onK d k fun s => { s with out0 := o0, out1 := o1, out2 := o2 }

/-- As kemit with a pair at output 0, whose first entry a snapshot holds. -/
def kemitP (d : Dev) (k : KIx) (p o1 o2 : Int) : Dev :=
  let d := kwr (kwr (kwrP d k 0 p) k 1 o1) k 2 o2
  onK d k fun s => { s with out0 := p / 2 ^ 20, out1 := o1, out2 := o2 }

/-- The limit flags of a run (R217, R219); a value equal to a limit does not count as a limit met (DESIGN CHOICE, assumption log 100). -/
def klim (d : Dev) (k : KIx) (hi lo : Bool) : Dev := (d.putB KcStat.LIMHI k hi).putB KcStat.LIMLO k lo

/-- A fresh choice for the j-th open rounding of a run. -/
def kc (d : Dev) (j : Nat) : Bool := Config.choice (d.fresh + j)

/-- A fresh error for the j-th bounded error of a run. -/
def ke (d : Dev) (j : Nat) : Int := Config.error (d.fresh + j)

/-- The parameter offset of the output limits OLO and OHI of a controller kind (R216). -/
def kOlo (kind : Nat) : Fin 16 :=
  match kind with
  | 3 => 4 | 4 => 6 | _ => 2

/-- The output limits of a controller in this run: OLO and OHI, or with DLIM minus and plus the limit input (R217). -/
def kLimits (d : Dev) (k : KIx) (kind : Nat) : Int × Int :=
  if (kind = 1 ∨ kind = 2) ∧ kvar d k 1 then
    let m := Int.ofNat (kx d k 3).natAbs
    (satF20 (-m), satF20 m)
  else (kpS d k (kOlo kind), kpS d k (kOlo kind + 1))

/-- Whether r and y of a PI or PID are pairs (R216 POS). -/
def kPos (d : Dev) (k : KIx) : Bool := kvar d k 0

/-- A difference as the error of a controller (R217): F20, or a pair scaled by 2^-EX. -/
def kErr (d : Dev) (k : KIx) (x : Int) : Int :=
  if kPos d k then satF20 (scale2 x (-1 - kpIn (-20) 11 (kpS d k 6))) else satF20 x

/-- The error e of a PI or PID run. -/
def kE (d : Dev) (k : KIx) : Int :=
  if kPos d k then kErr d k (kxp d k 0 - kxp d k 1) else kErr d k (kx d k 0 - kx d k 1)

/-- The measurement y of a PID run, an F20 value or a pair. -/
def kY (d : Dev) (k : KIx) : Int := if kPos d k then kxp d k 1 else kx d k 1

/-- The derivative term of a PID run (R217): df + alpha * (kd * dy - df). -/
def kDf (d : Dev) (k : KIx) : Int :=
  let s := kst d k
  let dy := if kPos d k then kErr d k (s.yPrev - kY d k) else s.yPrev - kY d k
  let al := kpIn 0 (2 ^ 19 - 1) (kpS d k 8)
  satS 48 (s.s2 + divFree (al * (kpS d k 7 * dy - s.s2)) (2 ^ 19) (kc d 0))

/-- One AUTO run of PI or PID (R217). -/
def runPi (d : Dev) (k : KIx) (pid : Bool) : Dev :=
  let s := kst d k
  let e := kE d k
  let ff := f2a (kx d k 2)
  let lim := kLimits d k 1
  let p := kpS d k 0 * e
  let df := if pid then kDf d k else 0
  let ki := kpS d k 1 * e
  let ti := clampI (f2a (kpS d k 4)) (f2a (kpS d k 5)) (s.s1 + ki)
  let u := p + ti + df + ff
  let stuck := (narrow u > lim.2 ∧ ki > 0) ∨ (narrow u < lim.1 ∧ ki < 0)
  let ti := if stuck then s.s1 else ti
  let u := p + ti + df + ff
  let o := clampI lim.1 lim.2 (narrow u)
  let d := onK d k fun s => { s with s1 := satS 48 ti, s2 := if pid then df else s.s2, yPrev := if pid then kY d k else s.yPrev }
  let d := klim d k (decide (narrow u > lim.2)) (decide (narrow u < lim.1))
  kemit d k o 0 0

/-- A product of an F20 coefficient, scaled by 2^CSH, and an F20 value, in A48 units (R218). -/
def kCoef (d : Dev) (k : KIx) (c csh : Fin 16) (x : Int) (j : Nat) : Int :=
  divFree (kpS d k c * x * 2 ^ (min (kpU d k csh) 3)) 64 (kc d j)

/-- One AUTO run of LEADLAG (R218). -/
def runLeadlag (d : Dev) (k : KIx) : Dev :=
  let s := kst d k
  let x := kx d k 0
  let lim := kLimits d k 3
  let v := narrow (kCoef d k 0 3 x 0 + s.s1)
  let y := clampI lim.1 lim.2 v
  let s1 := satS 48 (kCoef d k 1 3 x 1 - kCoef d k 2 3 y 2)
  let d := onK d k fun s => { s with s1 := s1 }
  kemit (klim d k (decide (v > lim.2)) (decide (v < lim.1))) k y 0 0

/-- One AUTO run of BIQUAD (R218). -/
def runBiquad (d : Dev) (k : KIx) : Dev :=
  let s := kst d k
  let x := kx d k 0
  let lim := kLimits d k 4
  let v := narrow (kCoef d k 0 5 x 0 + s.s1)
  let y := clampI lim.1 lim.2 v
  let s1 := satS 48 (kCoef d k 1 5 x 1 - kCoef d k 3 5 y 2 + s.s2)
  let s2 := satS 48 (kCoef d k 2 5 x 3 - kCoef d k 4 5 y 4)
  let d := onK d k fun s => { s with s1 := s1, s2 := s2 }
  kemit (klim d k (decide (v > lim.2)) (decide (v < lim.1))) k y 0 0

/-- A square root as the kernel delivers it (F20 units): within 2 x 2^-19 of the root of n (R219). -/
def rootFree (n : Nat) (e : Int) : Int :=
  let f := Int.ofNat (isqrt 20 n)
  max 0 (f + clampI (if f * f = n then -2 else -1) 2 e)

/-- One run of LIMIT (R219); a vector with MAG used as 0 is limited to zero (R216); in VAR 1 with OF(IN1) above OF(IN2) the limit met is the upper one (assumption log 53). -/
def runLimit (d : Dev) (k : KIx) : Dev :=
  let x := kx d k 0
  match d.fld KcCfg.VAR k % 4 with
  | 1 =>
    let lo := kx d k 1
    let hi := kx d k 2
    kemit (klim d k (decide (max x lo > hi)) (decide (x < lo ∧ lo ≤ hi))) k (clampI lo hi x) 0 0
  | 2 =>
    let mag := kpIn 0 (2 ^ 19 - 1) (kpS d k 2)
    let x1 := kx d k 1
    let o0 := clampI (-mag) mag x
    let m1 := if mag = 0 then 0 else rootFree (mag * mag - o0 * o0).toNat (ke d 0)
    let o1 := clampI (-m1) m1 x1
    kemit (klim d k (decide (x > mag ∨ x1 > m1)) (decide (x < -mag ∨ x1 < -m1))) k o0 (satF20 o1) 0
  | _ =>
    let lo := kpS d k 0
    let hi := kpS d k 1
    kemit (klim d k (decide (x > hi)) (decide (x < lo))) k (clampI lo hi x) 0 0

/-- One AUTO run of RAMP (R220); y and r are held in A48. -/
def runRamp (d : Dev) (k : KIx) : Dev :=
  let s := kst d k
  let x := f2a (kx d k 0)
  let rmax := f2a (kpIn 0 (2 ^ 19 - 1) (kpS d k 0))
  let rstep := f2a (kpIn 0 (2 ^ 19 - 1) (kpS d k 1))
  let y := s.s1
  let r := s.s2
  let dx := x - y
  let stop := r * r.natAbs + rstep * r
  let yr :=
    if dx.natAbs ≤ rstep.natAbs ∧ r.natAbs ≤ rstep.natAbs then (x, (0 : Int))
    else
      let r := if 2 * rstep * dx > stop then min (r + rstep) rmax
        else if 2 * rstep * dx < stop then max (r - rstep) (-rmax) else r
      (satS 48 (y + r), r)
  let d := onK d k fun s => { s with s1 := yr.1, s2 := yr.2 }
  kemit d k (narrow yr.1) (narrow yr.2) 0

/-- One AUTO run of SLEW (R221). -/
def runSlew (d : Dev) (k : KIx) : Dev :=
  let s := kst d k
  let sup := f2a (kpIn 0 (2 ^ 19 - 1) (kpS d k 0))
  let sdn := f2a (kpIn 0 (2 ^ 19 - 1) (kpS d k 1))
  let y := satS 48 (s.s1 + clampI (-sdn) sup (f2a (kx d k 0) - s.s1))
  let d := onK d k fun s => { s with s1 := y }
  kemit d k (narrow y) 0 0

/-- The Clarke components in A48 units (R222): two or three inputs. -/
def clarke (d : Dev) (three : Bool) (a b c : Int) (j : Nat) : Int × Int :=
  if three then
    (divFree (f2a (2 * a - b - c)) 3 (kc d j), divRt3 (f2a (b - c)) (kc d (j + 1)))
  else (f2a a, divRt3 (f2a (a + 2 * b)) (kc d (j + 1)))

/-- Rotation of (alpha, beta) in A48 units into d and q at the angle u, a fraction in 2^-44 cycle (R222). -/
def parkRot (d : Dev) (al be : Int) (u : Nat) (j : Nat) : Int × Int :=
  let c := cosFree u (ke d j)
  let s := sinFree u (ke d (j + 1))
  (divFree (al * c + be * s) (2 ^ 19) (kc d (j + 2)), divFree (be * c - al * s) (2 ^ 19) (kc d (j + 3)))

/-- The angle of PARK in 2^-44 cycle: frac(X * EMUL + AOFS) with X a P40 or a PH40 pair (R222). -/
def parkAngle (d : Dev) (k : KIx) : Nat :=
  let x : Int := if !kinEn d k 3 then 0
    else if kvar d k 1 then Int.ofNat ((d.b k.1).ofPH (kin d k 3)) else (d.b k.1).ofP (kin d k 3)
  ux 44 (x * kpL d k 0 + Int.ofNat (kpU d k 1) * 2 ^ 24)

/-- One run of PARK (R222). -/
def runPark (d : Dev) (k : KIx) : Dev :=
  let u := parkAngle d k
  let ab := clarke d (kvar d k 0) (kx d k 0) (kx d k 1) (kx d k 2) 0
  let dq := parkRot d ab.1 ab.2 u 2
  let th := ux 20 (rdiv (Int.ofNat u) (2 ^ 24))
  kemit d k (narrow dq.1) (narrow dq.2) (Int.ofNat th)

/-- One duty of IPARK in U20 (R223): 0.5 + v / dc with a reciprocal of dc that is off by a relative error of no more than 2^-18, limited to [0, 1 - 2^-20]. -/
def ipDuty (v dc : Int) (e : Int) : Int :=
  let at1 := fun (m : Int) => rdiv (v * 128 * m) (dc.toNat * 2 ^ 18)
  let a := at1 (2 ^ 18 - 1)
  let b := at1 (2 ^ 18 + 1)
  clampI 0 (2 ^ 20 - 1) (2 ^ 19 + clampI (min a b) (max a b) (at1 (2 ^ 18) + e))

/-- One run of IPARK (R223). -/
def runIpark (d : Dev) (k : KIx) : Dev :=
  let s := kst d k
  let th := if kinEn d k 2 then (d.b k.1).ofU (kin d k 2) else 0
  let om : Int := if s.fresh then 0 else sx 20 (ux 20 (Int.ofNat th - Int.ofNat s.th))
  let u := ux 44 (Int.ofNat th * 2 ^ 24 + kpS d k 0 * om * 2 ^ 11)
  let vd := f2a (kx d k 0)
  let vq := f2a (kx d k 1)
  let c := cosFree u (ke d 0)
  let sn := sinFree u (ke d 1)
  let va := divFree (vd * c - vq * sn) (2 ^ 19) (kc d 2)
  let vbe := divFree (vd * sn + vq * c) (2 ^ 19) (kc d 3)
  let half := divFree va 2 (kc d 4)
  let h := mulHalfRt3 vbe (kc d 5)
  let vb := h - half
  let vc := -half - h
  let z := if kvar d k 0 then -divFree (max va (max vb vc) + min va (min vb vc)) 2 (kc d 6) else 0
  let vmin := kpIn 1 (2 ^ 19 - 1) (kpS d k 1)
  let vdc := kx d k 3
  let dc := max vdc vmin
  let d0 := onK d k fun s => { s with th := th, fresh := false }
  let d1 := if vdc < vmin then d0.flag KcStat.KFLAG k else d0
  let o := kout d k 0
  let duty := fun (v : Int) (j : Nat) => ipDuty (v + z) dc (ke d j)
  let d2 := if koutEn d k 0 then
      d1.onB k.1 fun b => ((b.putS o (duty va 7)).putS (o + 1) (duty vb 8)).putS (o + 2) (duty vc 9)
    else d1
  onK d2 k fun s => { s with out0 := duty va 7, out1 := duty vb 8, out2 := duty vc 9 }

/-- The event source of a block's kernels (R225, R243, R245). -/
def kernelEvent (d : Dev) (nn : Fin 16) : Dev := d.raise (bkSrc nn 2) (d.lo16 Kstat.word nn)

/-- The LOCK bit after a PLL run (R225). -/
def pllLock (d : Dev) (k : KIx) (vd vq : Int) (clamped : Bool) : Dev :=
  let s := kst d k
  let lthr := kpS d k 5
  let n := (kpIn 1 255 (Int.ofNat (kpU d k 6))).toNat
  let a : Int := Int.ofNat (narrow vq).natAbs
  let good := if a ≤ lthr then min (s.good + 1) n else 0
  let bad := if a > 2 * lthr then min (s.bad + 1) n else 0
  let low := if narrow vd < kpS d k 8 then min (s.low + 1) 2 else 0
  let was := d.bit KcStat.LOCK k
  let drop := bad = n ∨ low = 2 ∨ clamped
  let now := if drop then false else if good = n then true else was
  let d := onK d k fun s => { s with good := good, bad := bad, low := low }
  let d := d.putB KcStat.LOCK k now
  if was && !now then kernelEvent (d.flag KcStat.KFLAG k) k.1 else d

/-- One run of PLL (R224): the angle is held to 2^-32 cycle, ik in s2 and w in s1. -/
def runPll (d : Dev) (k : KIx) : Dev :=
  let s := kst d k
  let ab := clarke d true (kx d k 0) (kx d k 1) (kx d k 2) 0
  let dq := parkRot d ab.1 ab.2 (s.th * 2 ^ 12) 2
  let ik := satS 48 (s.s2 + divFree (kpS d k 1 * dq.2) (2 ^ 13) (kc d 6))
  let w := Int.ofNat (kpW d k 2) + divFree (divFree (kpS d k 0 * dq.2) (2 ^ 13) (kc d 7) + ik) (2 ^ 12) (kc d 8)
  let lo := Int.ofNat (kpW d k 3)
  let hi := Int.ofNat (kpW d k 4)
  let clamped := decide (w < lo ∨ w > hi)
  let w := clampI lo hi w
  let ik := if clamped then s.s2 else ik
  let full := s.th + w.toNat
  let d := onK d k fun s => { s with s1 := w, s2 := ik, th := full % 2 ^ 32, wraps := (s.wraps + full / 2 ^ 32) % 2 ^ 20 }
  let s := kst d k
  let f := clampI 0 (2 ^ 20 - 1) (rdiv (w * Int.ofNat (kpU d k 7) * 16) (2 ^ 32))
  let d := kemitP d k (Int.ofNat (s.wraps * 2 ^ 20 + s.th / 2 ^ 12)) f (narrow dq.1)
  pllLock d k dq.1 dq.2 clamped

/-- The factor of a GEAR cell's accumulator, which is held exact to 2^-44 unit so that no difference is lost (R214, R237, R238): the product of a Q8.24 ratio and a P40 difference. -/
def gearUnit : Int := 2 ^ 24

/-- One AUTO run of GEAR (R237, R238). -/
def runGear (d : Dev) (k : KIx) : Dev :=
  let s := kst d k
  let m := kxp d k 0
  let ratio := kpL d k 0
  let xmax := min (kpU d k 3) 3
  let ext := decide (m = s.mLast ∧ s.dm ≠ 0 ∧ s.x < xmax)
  let dm := if ext then s.dm else m - s.mPrev
  let x := if ext then s.x + 1 else if m ≠ s.mLast then 0 else s.x
  let acc := satS 64 (s.s1 + ratio * dm)
  let d := onK d k fun s => { s with s1 := acc, s2 := dm, mPrev := satP40 (s.mPrev + dm), mLast := m, dm := dm, x := x }
  let d := if ext then d.flag KcStat.KFLAG k else d
  kemitP d k (satP40 (rdiv (acc * 2 ^ 13 + ratio * kpS d k 1 * dm) (2 ^ 37)))
    (satF20 (rdiv (ratio * dm * kpS d k 2) (2 ^ 38))) 0

/-- Segments queued in the ring of a block (R240). -/
def segFill (d : Dev) (nn : Fin 16) : Nat := (d.fld SegWr.WR nn + 64 - d.fld SegRd.RD nn) % 64

/-- Word w of segment s of a block (R241). -/
def segW (d : Dev) (nn : Fin 16) (s : Nat) (w : Fin 8) : Nat :=
  d.fld Seg.V (nn, ⟨s % 32, Nat.mod_lt _ (by omega)⟩, w)

/-- The next queued segment taken (R242): a segment of TYPE 3 or DUR 0 is discarded with SEGERR. -/
def segTake (d : Dev) (k : KIx) : Dev :=
  let nn := k.1
  let s := d.fld SegRd.RD nn
  let w0 := segW d nn s 0
  let dur := w0 % 2 ^ 20
  let typ := w0 / 2 ^ 20 % 4
  let d1 := sx 48 (segW d nn s 3 + segW d nn s 4 % 65536 * 2 ^ 32)
  let d2 := sx 48 (segW d nn s 4 / 65536 + segW d nn s 5 * 2 ^ 16)
  let d3 := sx 48 (segW d nn s 6 + segW d nn s 7 % 65536 * 2 ^ 32)
  let pend := (sx 20 (segW d nn s 1) * 2 ^ 20 + Int.ofNat (segW d nn s 2 % 2 ^ 20)) * 2 ^ 12
  let d := d.put SegRd.RD nn ((s + 1) % 64)
  if typ = 3 ∨ dur = 0 then d.flag SegStat.SEGERR nn
  else
    let d := onK d k fun q => { q with
      s1 := if typ = 2 then 0 else d1, d2 := if typ = 1 then d2 else 0, d3 := if typ = 1 then d3 else 0,
      rem := dur, dwell := decide (typ = 2), lastSeg := (w0 / 2 ^ 22) % 2 = 1, pend := pend, tag := w0 / 2 ^ 24 }
    (d.flag SegStat.ACTIVE nn).put SegStat.TAG nn (w0 / 2 ^ 24)

/-- The end of a segment: deviation, snap to PEND, DONE, starvation (R242, R243). -/
def segEnd (d : Dev) (k : KIx) : Dev :=
  let nn := k.1
  let s := kst d k
  let tol := Int.ofNat (kpU d k 1) * 2 ^ 12
  let d := if Int.ofNat (s.pos - s.pend).natAbs > tol then d.flag SegStat.SEGERR nn else d
  let d := onK d k fun s => { s with pos := s.pend }
  let d := (d.inc SegRd.DONE nn).clr SegStat.ACTIVE nn
  if !s.lastSeg && segFill d nn = 0 then
    kernelEvent ((d.flag SegStat.STARVE nn).flag KcStat.KFLAG k) nn
  else d

/-- One AUTO run of INTERP (R242, R243); the position saturates at the range of P40 (R7), held to 2^-32 unit. -/
def runInterp (d : Dev) (k : KIx) : Dev :=
  let d := if (kst d k).rem = 0 ∧ segFill d k.1 > 0 then segTake d k else d
  let s := kst d k
  if s.rem = 0 then kemitP d k (satP40 (rdiv s.pos (2 ^ 12))) 0 (Int.ofNat s.tag)
  else
    let d := onK d k fun s =>
      let s := if s.dwell then s
        else { s with pos := satS 52 (s.pos + s.s1), s1 := satS 48 (s.s1 + s.d2), d2 := satS 48 (s.d2 + s.d3) }
      { s with rem := s.rem - 1, s2 := Int.ofNat (s.rem - 1) }
    let d := if (kst d k).rem = 0 then segEnd d k else d
    let s := kst d k
    let v := if s.dwell then 0 else satF20 (rdiv (s.s1 * kpS d k 0) (2 ^ 26))
    kemitP d k (satP40 (rdiv s.pos (2 ^ 12))) v (Int.ofNat s.tag)

/-- One run of FFSUM (R226). -/
def runFfsum (d : Dev) (k : KIx) : Dev :=
  let t := fun (j : Nat) (i : Fin 16) => kpS d k i * kx d k j
  let first :=
    if kvar d k 0 then divFree (kpS d k 0 * kx d k 0 * kx d k 1) (2 ^ 19) (kc d 0) else t 0 0 + t 1 1
  let v := narrow (f2a (kpS d k 4) + first + t 2 2 + t 3 3)
  kemit (klim d k (decide (v > kpS d k 6)) (decide (v < kpS d k 5))) k (clampI (kpS d k 5) (kpS d k 6) v) 0 0

/-- One run of DROOP (R227). -/
def runDroop (d : Dev) (k : KIx) : Dev :=
  let x := kx d k 0
  let db := kpS d k 2
  let ref := if kinEn d k 1 then kx d k 1 else kpS d k 0
  let dz := if Int.ofNat x.natAbs ≤ db then 0 else x - x.sign * db
  let v := narrow (f2a ref - kpS d k 1 * dz)
  kemit (klim d k (decide (v > kpS d k 4)) (decide (v < kpS d k 3))) k (clampI (kpS d k 3) (kpS d k 4) v) 0 0

/-- One run of BATLIM (R228). -/
def runBatlim (d : Dev) (k : KIx) : Dev :=
  let vb := kx d k 0
  let one : Int := 2 ^ 32
  let g : Int := if kinEn d k 2 then kx d k 2 else 2 ^ 19
  let fch := clampI 0 one ((kpS d k 0 - vb) * kpS d k 2)
  let fdi := clampI 0 one ((vb - kpS d k 1) * kpS d k 2)
  let ich := satF20 (rdiv (kpS d k 3 * g * fch) (2 ^ 51))
  let idi := satF20 (rdiv (kpS d k 4 * g * fdi) (2 ^ 51))
  let req := kx d k 1
  let o := clampI (-idi) ich req
  let taper := decide ((0 < fch ∧ fch < one) ∨ (0 < fdi ∧ fdi < one))
  let fl := (decide (req > ich)).toNat + 2 * (decide (req < -idi)).toNat + 4 * taper.toNat
  kemit (klim d k (decide (req > ich)) (decide (req < -idi))) k o (Int.ofNat fl) 0

/-- One AUTO run of a kernel cell by its kind (R215). -/
def runAuto (d : Dev) (k : KIx) : Dev :=
  match d.fld KcCfg.KIND k with
  | 1 => runPi d k false
  | 2 => runPi d k true
  | 3 => runLeadlag d k
  | 4 => runBiquad d k
  | 5 => runLimit d k
  | 6 => runRamp d k
  | 7 => runSlew d k
  | 8 => runPark d k
  | 9 => runIpark d k
  | 10 => runPll d k
  | 11 => runGear d k
  | 12 => runInterp d k
  | 13 => runFfsum d k
  | 14 => runDroop d k
  | 15 => runBatlim d k
  | _ => d

/-- The controller kinds (R215). -/
def isController (kind : Nat) : Bool := 1 ≤ kind && kind ≤ 4

/-- The output a controller writes in a run preset from v: v within the output limits (R230). -/
def presetOut (d : Dev) (k : KIx) (kind : Nat) (v : Int) : Dev :=
  let lim := kLimits d k kind
  kemit (klim d k (decide (v > lim.2)) (decide (v < lim.1))) k (clampI lim.1 lim.2 v) 0 0

/-- A preset from v (R230): v is an F20 value, or the pair at TRK for GEAR and INTERP. -/
def presetState (d : Dev) (k : KIx) (v : Int) : Dev :=
  match d.fld KcCfg.KIND k with
  | 1 =>
    let i := clampI (f2a (kpS d k 4)) (f2a (kpS d k 5)) (f2a v - kpS d k 0 * kE d k - f2a (kx d k 2))
    onK d k fun s => { s with s1 := i }
  | 2 =>
    let i := clampI (f2a (kpS d k 4)) (f2a (kpS d k 5)) (f2a v - kpS d k 0 * kE d k - f2a (kx d k 2))
    let y := kY d k
    onK d k fun s => { s with s1 := i, s2 := 0, yPrev := y }
  | 3 =>
    let s1 := satS 48 (f2a v - kCoef d k 0 3 (kx d k 0) 0)
    onK d k fun s => { s with s1 := s1 }
  | 4 =>
    let x := kx d k 0
    let s1 := satS 48 (f2a v - kCoef d k 0 5 x 0)
    let s2 := satS 48 (kCoef d k 2 5 x 1 - kCoef d k 4 5 v 2)
    onK d k fun s => { s with s1 := s1, s2 := s2 }
  | 6 => onK d k fun s => { s with s1 := f2a v, s2 := 0 }
  | 7 => onK d k fun s => { s with s1 := f2a v }
  | 9 =>
    let th := if kinEn d k 2 then (d.b k.1).ofU (kin d k 2) else 0
    onK d k fun s => { s with th := th, fresh := true }
  | 10 =>
    let f := Int.ofNat (kpW d k 2)
    onK d k fun s => { s with s1 := f, s2 := 0 }
  | 11 =>
    let m := kxp d k 0
    onK d k fun s => { s with s1 := v * gearUnit, s2 := 0, mPrev := m, mLast := m, dm := 0, x := 0 }
  | 12 =>
    let d := d.clr SegStat.ACTIVE k.1
    onK d k fun s => { s with pos := v * 2 ^ 12, s1 := 0, d2 := 0, d3 := 0, rem := 0, s2 := 0, dwell := false }
  | _ => d

/-- The value a preset takes from TRK: zero without TRKEN, the pair for GEAR and INTERP (R229, R230). -/
def trkVal (d : Dev) (k : KIx) : Int :=
  let kind := d.fld KcCfg.KIND k
  if !d.bit KcCfg.TRKEN k then 0
  else if kind = 11 ∨ kind = 12 then (d.b k.1).ofP (d.fld KcCfg.TRK k)
  else (d.b k.1).ofS (d.fld KcCfg.TRK k)

/-- A run in MAN or TRACK: state and outputs preset from v (R229, R230). -/
def runPreset (d : Dev) (k : KIx) (v : Int) : Dev :=
  let kind := d.fld KcCfg.KIND k
  let d := (presetState d k v).clr KcStat.PRE k
  if isController kind then presetOut d k kind v
  else if kind = 11 ∨ kind = 12 then kemitP d k v 0 (Int.ofNat (kst d k).tag)
  else kemit d k (satF20 v) 0 0

/-- A run in AUTO (R229): with PRE set the cell first presets; a controller then writes v, and INTERP takes no segment. -/
def runAutoPre (d : Dev) (k : KIx) : Dev :=
  if d.bit KcStat.PRE k then
    let v := trkVal d k
    let kind := d.fld KcCfg.KIND k
    let d := (presetState d k v).clr KcStat.PRE k
    if isController kind then presetOut d k kind v
    else if kind = 12 then kemitP d k v 0 (Int.ofNat (kst d k).tag)
    else runAuto d k
  else runAuto d k

/-- The HOLD value a kind permits; any other acts as RUN (R215): 0 RUN, 1 TRACK, 2 FREEZE. -/
def holdOf (d : Dev) (k : KIx) : Nat :=
  let h := if d.fld KcCfg.HOLD k = 3 then 2 else d.fld KcCfg.HOLD k
  let kind := d.fld KcCfg.KIND k
  let track := isController kind || kind = 6 || kind = 7 || kind = 11 || kind = 12
  if kind = 0 then 0 else if h = 1 ∧ ¬ track then 0 else h

/-- The effective mode of a cell at the start of its RUN slot (R229): 0 AUTO, 1 MAN, 2 TRACK, 3 FROZEN, 4 FAULT. -/
def effMode (d : Dev) (k : KIx) : Nat :=
  let safe := d.fld BkStat.STATE k.1 = 2 ∨ d.fld BkStat.STATE k.1 = 4
  if d.bit KcStat.FAULT k then 4
  else if safe ∧ holdOf d k = 2 then 3
  else if safe ∧ holdOf d k = 1 then 2
  else if d.bit KcStat.MANSEL k then 1
  else 0

/-- One run of a cell in its effective mode (R229). -/
def runMode (d : Dev) (k : KIx) : Dev :=
  let mode := effMode d k
  let d := d.put KcStat.MODE k mode
  let d1 := match mode with
    | 0 => runAutoPre d k
    | 1 => runPreset d k (d.sfld KcManv.V k)
    | 2 => runPreset d k (trkVal d k)
    | _ => d
  if mode ≤ 2 then { (d1.inc KcStat.RUNS k) with fresh := d1.fresh + 16 } else d1

/-- The two state words of R216 put back into the cell by its kind: IPARK keeps theta_prev, GEAR the accumulator and last dm, INTERP D1 and the remaining runs. -/
def kernLoad (kind : Nat) (a c : Int) (s : Kern) : Kern :=
  match kind with
  | 9 => { s with th := ux 20 a }
  | 11 => { s with s1 := a * 4096, s2 := c, dm := c }
  | 12 => { s with s1 := a, s2 := Int.ofNat (ux 20 c), rem := ux 20 c }
  | _ => { s with s1 := a, s2 := c }

/-- The initial state of a cell from the block image (R246). -/
def kernInit (d : Dev) (k : KIx) : Kern :=
  let img := d.pat.bind fun p => p.dir.findSome? fun e =>
    match e.body with
    | .block s => if e.index = k.1.val then some s else none
    | _ => none
  match img.bind fun s => s.k0.find? fun e => e.1 = k.2.val with
  | some (_, a, c) => kernLoad (d.fld KcCfg.KIND k) a c { Kern.reset with fresh := true }
  | none => { Kern.reset with fresh := true }

/-- FCLR (R246): the state reloaded from the block image, FAULT cleared, PRE set; an INTERP cell has a segment in progress only if its image gives it runs. -/
def kFclr (d : Dev) (k : KIx) : Dev :=
  let s := kernInit d k
  let d := onK d k fun _ => s
  let d := if d.fld KcCfg.KIND k = 12 then d.putB SegStat.ACTIVE k.1 (s.rem != 0) else d
  let d := (d.clr KcStat.FAULT k).flag KcStat.PRE k
  d.put Kstat.FAULT k.1 (d.fld Kstat.FAULT k.1 &&& (4095 - 2 ^ k.2.val))

/-- PLOAD (R232): PS0 to PS15 copied into P0 to P15. -/
def kPload (d : Dev) (k : KIx) : Dev :=
  forAll d fun d (i : Fin 16) => d.put KcP.V (k.1, k.2, i) (d.fld KcPs.V (k.1, k.2, i))

/-- The first state of R216: theta_prev of IPARK as its U20 fraction (assumption log 31), the accumulator of GEAR to 2^-32 unit. -/
def kS0 (d : Dev) (k : KIx) : Int :=
  match d.fld KcCfg.KIND k with
  | 9 => Int.ofNat (kst d k).th
  | 11 => (kst d k).s1 / 4096
  | _ => (kst d k).s1

/-- SNAP (R232, R247): the state, outputs and RUNS copied into S0 to S7; an output of format U20 or PH40 is not negative and reads zero in [31:20] (R9). -/
def kSnap (d : Dev) (k : KIx) : Dev :=
  let s := kst d k
  let w := fun (d : Dev) (i : Fin 8) (v : Int) => d.put KcS.V (k.1, k.2, i) (ux 32 v)
  let a := sx 48 (ux 48 (kS0 d k))
  let c := sx 48 (ux 48 s.s2)
  let d := w d 0 a
  let d := w d 1 (a / 2 ^ 32)
  let d := w d 2 c
  let d := w d 3 (c / 2 ^ 32)
  let d := w d 4 s.out0
  let d := w d 5 s.out1
  let d := w d 6 s.out2
  let d := w d 7 (Int.ofNat (d.fld KcStat.RUNS k))
  d.flag KcStat.SNAPV k

/-- The pending commands that come before the run, in the order FCLR, PLOAD, GOMAN or GOAUTO, PRESET (R232). -/
def kPre (d : Dev) (k : KIx) : Dev :=
  let d := if d.bit KcCtl.FCLR k then (kFclr d k).cmdDone KcCtl.FCLR k else d
  let d := if d.bit KcCtl.PLOAD k then (kPload d k).cmdDone KcCtl.PLOAD k else d
  let d := if d.bit KcCtl.GOMAN k then (d.flag KcStat.MANSEL k).cmdDone KcCtl.GOMAN k else d
  let d := if d.bit KcCtl.GOAUTO k then (d.clr KcStat.MANSEL k).cmdDone KcCtl.GOAUTO k else d
  if d.bit KcCtl.PRESET k then (d.flag KcStat.PRE k).cmdDone KcCtl.PRESET k else d

/-- SNAP after the run (R232). -/
def kPost (d : Dev) (k : KIx) : Dev :=
  if d.bit KcCtl.SNAP k then (kSnap d k).cmdDone KcCtl.SNAP k else d

/-- A RUN slot of cell k: pending commands, the run, SNAP (R212, R229, R232). -/
def kernelRun (d : Dev) (k : KIx) : Dev := kPost (runMode (kPre d k) k) k

/-- A cell fault (R245): FAULT, the counts, the kernel source, and with FACT the quench latch with cause CELLFAULT. -/
def cellFault (d : Dev) (k : KIx) : Dev :=
  let d := d.flag KcStat.FAULT k
  let d := d.put Kstat.FAULT k.1 (d.fld Kstat.FAULT k.1 ||| 2 ^ k.2.val)
  let d := ((d.flag Kstat.FAULT_SEEN k.1).incSat Kstat.KFCNT k.1).incSat FltCnt.CELLF ()
  let d := kernelEvent d k.1
  if d.bit KcCfg.FACT k then quench d k.1 (2 ^ 10) else d

/-- The preset step of a bank swap for one named cell (R231): PRE set, the run-to-run history cleared. -/
def kSwapPreset (d : Dev) (k : KIx) : Dev :=
  let kind := d.fld KcCfg.KIND k
  let d := d.flag KcStat.PRE k
  onK d k fun s =>
    match kind with
    | 2 => { s with s2 := 0, yPrev := 0 }
    | 6 => { s with s2 := 0 }
    | 9 => { s with fresh := true }
    | 11 => { s with dm := 0, s2 := 0 }
    | _ => s

/-- A refused kernel command (R232). -/
def kRefuse (d : Dev) (k : KIx) (reason : Nat) : Dev := (d.flag KcStat.REF k).put KcStat.REASON k reason

/-- The commands of one write to KCm.CTL that are refused, each by itself (R232): with reason 3 GOMAN and GOAUTO together, all while OFF, and on a faulted cell without FCLR all but SNAP; with reason 1 GOMAN and GOAUTO on a kind without MAN. Bits: 0 GOMAN, 1 GOAUTO, 2 PLOAD, 3 PRESET, 4 SNAP, 5 FCLR. -/
def kCtlBad (d : Dev) (k : KIx) (cmds : Nat) : Nat × Nat :=
  let off := if d.fld BkStat.STATE k.1 = 0 then 63 else 0
  let both := if cmds.testBit 0 && cmds.testBit 1 then 3 else 0
  let hurt := if d.bit KcStat.FAULT k && !cmds.testBit 5 then 15 else 0
  let noMan := if isController (d.fld KcCfg.KIND k) then 0 else 3
  (cmds &&& (off ||| both ||| hurt), cmds &&& noMan)

/-- The commands of one write to KCm.CTL (R232). An accepted command waits for the cell's next executed RUN slot, or is carried out at once in HELD. REASON is that of the last refusal; of a command refused for both reasons it is 3 (assumption log 32). -/
def kCtlWrite (d : Dev) (k : KIx) (cmds : Nat) (shadow : Bool) : Dev :=
  let cmds := cmds % 64
  if cmds = 0 then d
  else if shadow then kRefuse d k 2
  else
    let bad := kCtlBad d k cmds
    let d := if bad.2 = 0 then d else kRefuse d k 1
    let d := if bad.1 = 0 then d else kRefuse d k 3
    let good := cmds &&& (63 - (bad.1 ||| bad.2))
    if good = 0 then d
    else
      let d := (d.cmdAgain (KcCtl.addr k) good).setReg (KcCtl.addr k) (d.reg (KcCtl.addr k) ||| BitVec.ofNat 32 good)
      if d.fld BkStat.STATE k.1 = 1 then kPost (kPre d k) k else d

end Sys2Proof.Machine
end

