-- ==== Sys2Proof/Machine/Pattern.lean ====
section
/-! DEFINITION. The pattern in effect as the units read it: sections, bank headers (R128), slots (R130), block phase and rates (R129, R164), and the calls every unit makes of the clock. -/

namespace Sys2Proof.Machine

/-- CLK in Hz (R3). -/
def clkHz (d : Dev) : Nat := if d.bit ChipMode.HEAT_ACT () then 300000000 else 400000000

/-- clk in a number of nanoseconds. -/
def nsClk (d : Dev) (ns : Nat) : Nat := ns * (clkHz d / 1000000) / 1000

/-- The BLOCK section of block nn in a pattern (R121). -/
def PatImage.sec (p : PatImage) (nn : Fin 16) : Option BlockSec :=
  p.dir.findSome? fun e => match e.body with
    | .block s => if e.index = nn.val ∧ e.typ = 3 then some s else none
    | _ => none

/-- The BLOCK section in effect for block nn. -/
def secOf (d : Dev) (nn : Fin 16) : Option BlockSec := d.pat.bind fun p => PatImage.sec p nn

/-- A bank header with every word zero. -/
def noHdr : BankHdr :=
  ⟨0, 0, 0, false, false, false, 0, 0, 0, 0, 0, 0, 0, false, 0, 0, 0, 0, 0, 0⟩

/-- The header of a bank of block nn (R128); all zero without a section. -/
def hdrOf (d : Dev) (nn : Fin 16) (b : Bool) : BankHdr :=
  match secOf d nn with
  | some s => if b then s.hdrB else s.hdrA
  | none => noHdr

/-- The slots of a bank of block nn. -/
def slotsOf (d : Dev) (nn : Fin 16) (b : Bool) : List DWord :=
  match secOf d nn with
  | some s => if b then s.slotsB else s.slotsA
  | none => []

/-- The bank in use: false A, true B. -/
def curBank (d : Dev) (nn : Fin 16) : Bool := d.bit BkStat.BANK nn

/-- The header of the bank in use. -/
def curHdr (d : Dev) (nn : Fin 16) : BankHdr := hdrOf d nn (curBank d nn)

/-- The state code of a block (R84). -/
def bkState (d : Dev) (nn : Fin 16) : Nat := d.fld BkStat.STATE nn

/-- Whether the runner of a block runs (R84): ARMED, RUN or QUENCHED, outside a rewrite of its memory (R127). -/
def runnerOn (d : Dev) (nn : Fin 16) : Bool :=
  let s := bkState d nn
  (s == 2 || s == 3 || s == 4) && !(d.b nn).rewrite

/-- The phase of a piece at clk c, in 2^-32 cycle (R154). -/
def segAt (s : Seg) (c : Nat) : Nat := s.base + (c - s.t) * s.num / s.den

/-- The phase at clk c from the pieces of a domain, newest first. -/
def phaseFrom : List Seg → Nat → Nat
  | [], _ => 0
  | [s], c => segAt s c
  | s :: t, c => if s.t ≤ c then segAt s c else phaseFrom t c

/-- The phase of domain k now, in 2^-32 cycle. -/
def domPhase (d : Dev) (k : Fin 8) : Nat := segAt (d.pd k).seg d.clk

/-- PH40 of domain k now (R154). -/
def domPH40 (d : Dev) (k : Fin 8) : Nat := domPhase d k / 2 ^ 12 % 2 ^ 40

/-- PH40 of domain k in clk c. -/
def domPH40At (d : Dev) (k : Fin 8) (c : Nat) : Nat :=
  phaseFrom ((d.pd k).seg :: (d.pd k).hist) c / 2 ^ 12 % 2 ^ 40

/-- The 20-bit cycle fraction of domain k. -/
def domFrac (d : Dev) (k : Fin 8) : Nat := domPhase d k / 2 ^ 12 % 2 ^ 20

/-- PDk.RATE (R164): the advance over the last 4096 clk, in Hz x 16. -/
def domRate (d : Dev) (k : Fin 8) : Nat :=
  let x := d.pd k
  let adv := segAt x.seg d.clk - phaseFrom (x.seg :: x.hist) (d.clk - 4096)
  adv * clkHz d / 256 / 2 ^ 32

/-- The block phase of a bank (R129): frac(DIV * f + OFFS). -/
def blkPhase (d : Dev) (nn : Fin 16) (b : Bool) : Nat :=
  let h := hdrOf d nn b
  (h.divn * domFrac d h.domain + h.offs) % 2 ^ 20

/-- The block rate of a bank in Hz x 16 (R164). -/
def blkRate (d : Dev) (nn : Fin 16) (b : Bool) : Nat :=
  let h := hdrOf d nn b
  h.divn * domRate d h.domain

/-- Whether domain k is valid (R156). -/
def domValid (d : Dev) (k : Fin 8) : Bool := d.bit PdStat.VALID k

/-- The block's phase event (R168, R171, R178). -/
def phaseEvent (d : Dev) (nn : Fin 16) : Dev := d.raise (bkSrc nn 1) (d.lo16 Pstat.word nn)

/-- Whether bank b of block nn has the other bank as its stall fallback (R128, R172). -/
def hasFallback (d : Dev) (nn : Fin 16) (b : Bool) : Bool :=
  let o := hdrOf d nn (!b)
  o.valid && o.fallback

/-- SWAP_PEND and PEND_TGT follow the requests, the one that would win first (R137). -/
def setSwapPend (d : Dev) (nn : Fin 16) : Dev :=
  let b := d.b nn
  let q := match b.swFall, b.swHost with
    | some t, _ => some t
    | none, some t => some t
    | none, none => b.swTrig
  (d.putB Rstat.SWAP_PEND nn q.isSome).putB Rstat.PEND_TGT nn (q.getD false)

/-- What every declared stall does (R171): MISSRUN clears, STALL and STALL_SEEN set, the phase event rises. -/
def stallSeen (d : Dev) (nn : Fin 16) : Dev :=
  phaseEvent (((d.clr Pstat.MISSRUN nn).flag Pstat.STALL nn).flag Pstat.STALL_SEEN nn) nn

/-- Whether the return to the stalled bank t, which is not in use, is withdrawn (R173): it is requested, and its domain is invalid or its rate below RATE_MIN. -/
def returnFails (d : Dev) (nn : Fin 16) (t : Bool) : Bool :=
  let h := hdrOf d nn t
  (d.b nn).swFall == some t && t != curBank d nn && (!domValid d h.domain || decide (blkRate d nn t < h.rateMin * 16))

/-- The bank in use stalls (R171): with a fallback the cycle is flushed and a fallback request made (R172), without one the block holds (R175); a bank in use as fallback has none (R174). -/
def stallOwn (d : Dev) (nn : Fin 16) : Dev :=
  let b := curBank d nn
  let st := (d.b nn).stalled
  if (hdrOf d nn b).rateMin = 0 || st = some b || d.bit Pstat.HOLD nn then d
  else if st.isSome then (stallSeen d nn).flag Pstat.HOLD nn
  else
    let d := stallSeen d nn
    if hasFallback d nn b then
      d.onB nn fun x => { x with stalled := some b, flushing := x.inCycle, awaitBank := true, swFall := some (!b) }
    else (d.flag Pstat.HOLD nn).onB nn fun x => { x with stalled := some b }

/-- A stall is declared (R171 to R175): the return to a stalled bank is withdrawn and its stall declared again, or the bank in use stalls. -/
def declareStall (d : Dev) (nn : Fin 16) : Dev :=
  if !(bkState d nn == 2 || bkState d nn == 3 || bkState d nn == 4) then d
  else
    let d := match (d.b nn).stalled with
      | some t => if returnFails d nn t then stallSeen (d.onB nn fun x => { x with swFall := none }) nn else stallOwn d nn
      | none => stallOwn d nn
    setSwapPend d nn

end Sys2Proof.Machine
end

