-- ==== Sys2Proof/Machine/Windows.lean ====
section
/-! DEFINITION. Ports and their windows as the other units see them: which port reads whose buffers (R299, R301), and how a window's instance closes and is judged (R331, R332). -/

namespace Sys2Proof.Machine

/-- The device with a port changed. -/
def onPort (d : Dev) (p : Fin 4) (f : Port → Port) : Dev := d.onR p fun r => { r with port := f r.port }

/-- A port beside its registers. -/
def Dev.port (d : Dev) (p : Fin 4) : Port := (d.r p).port

/-- A message that only an ACTIVE unit sends (R402). -/
def ownerSend (d : Dev) (m : TwMsg) : Dev :=
  if d.fld TwStat.ROLE () = 1 then twSend d m else d

/-- Whether a port may transmit of its own (R281, R297): EACTIVE or EPASSIVE in NORMAL. -/
def portCanSend (d : Dev) (p : Fin 4) : Bool :=
  (d.fld BpStat.STATE p == 3 || d.fld BpStat.STATE p == 4) && d.fld BpStat.OPMODE p == 0

/-- A window of region p. -/
def winOf (d : Dev) (p : Fin 4) (w : Fin 32) : Win := vget (d.r p).win w

/-- The device with a window changed. -/
def onW (d : Dev) (p : Fin 4) (w : Fin 32) (f : Win → Win) : Dev :=
  d.onR p fun r => { r with win := vmod r.win w f }

/-- Whether the windows of a STANDBY pair go out on the partner of port p now (R301). -/
def standbyOther (d : Dev) (p : Fin 4) : Bool :=
  d.bit BpPair.PAIRED p && d.bit BpPair.MODE p && (d.bit BpPair.ROLE p != d.bit BpPair.ONB p)

/-- The port whose buffers a port reads: port A of a pair (R299, R332). -/
def bufPort (d : Dev) (p : Fin 4) : Fin 4 :=
  if d.bit BpPair.PAIRED p && d.bit BpPair.ROLE p then ⟨d.fld BpPair.PARTNER p % 4, Nat.mod_lt _ (by omega)⟩ else p

/-- The domain of a window, in the one schedule of a pair, that of port A's region (R299). -/
def winDom (d : Dev) (p : Fin 4) (w : Fin 32) : Fin 8 := ⟨d.fld WCfg1.DOM (bufPort d p, w) % 8, Nat.mod_lt _ (by omega)⟩

/-- An instance reported missed (R332). -/
def winMiss (d : Dev) (p : Fin 4) (w : Fin 32) (cause : Nat) : Dev :=
  let d := ((d.inc WCnt.MISS (p, w)).flag WStat.MISSED_SEEN (p, w)).put WStat.CAUSE (p, w) cause
  let d := if cause = 4 then d.flag WStat.ABORTED_SEEN (p, w) else d
  let d := d.flagBit Wsum.MISSED p w.val
  d.raise (rgSrc p 6) w.val

/-- The cause of a miss, zero where the instance is not missed (R301, R332). -/
def winCause (d : Dev) (p : Fin 4) (w : Fin 32) : Nat :=
  let x := winOf d p w
  if x.sent || x.away || (!x.wasDue && standbyOther d p) then 0
  else if !domValid d (winDom d p w) then 5
  else if x.withdrawn then 4
  else if !x.wasDue then 1
  else if !x.couldSend then 2
  else 3

/-- The outcome of a closed instance (R332): judged by the port, on a SHADOW unit by the owner's report (R412). -/
def winFinal (d : Dev) (p : Fin 4) (w : Fin 32) : Dev :=
  let c := winCause d p w
  let d := onW d p w fun x => { x with closing := false }
  if d.fld TwStat.ROLE () = 2 then d
  else if c = 0 then ownerSend d (.txr (.winNote p w))
  else ownerSend (winMiss d p w c) (.txr (.winMissed p w c))

/-- An instance closes (R331): FRESH is cleared, and an attempt in progress runs to its end. -/
def winClose (d : Dev) (p : Fin 4) (w : Fin 32) : Dev :=
  if !(winOf d p w).isOpen then d
  else
    let d := ((d.clr WStat.FRESH (p, w)).clr WStat.DUE (p, w))
    let busy := (d.port p).tx == some (.window w) && domValid d (winDom d p w)
    let d := onW d p w fun x => { x with isOpen := false, closing := busy }
    if busy then d else winFinal d p w

/-- The instances open on a domain that has become invalid close at once (R332). -/
def winsInvalid (d : Dev) (k : Fin 8) : Dev :=
  forAll d fun d (p : Fin 4) => forAll d fun d (w : Fin 32) => if winDom d p w = k then winClose d p w else d

end Sys2Proof.Machine
end

