-- ==== Sys2Proof/Machine/Phase.lean ====
section
/-! DEFINITION. Phase domains (06_phase_domains.md): sources, updates and extrapolation (R156 to R160), switching (R162, R163), and the host command SWITCH. -/

namespace Sys2Proof.Machine

/-- The configured kind of a source of domain k (R156). -/
def srcKindCfg (d : Dev) (k : Fin 8) (alt : Bool) : Nat :=
  if alt then d.fld PdCfg.ASRC k else d.fld PdCfg.SRC k

/-- The kind of a source as it is followed: on a SHADOW unit, until it raises OWN_O, a TIMER or BCAST domain follows the other unit as TWIN (R160). -/
def srcKind (d : Dev) (k : Fin 8) (alt : Bool) : Nat :=
  let c := srcKindCfg d k alt
  if d.fld TwStat.ROLE () = 2 ∧ !d.bit TwStat.OWNO () ∧ (c = 1 ∨ c = 5) then 6 else c

/-- SEL of a source; a domain followed under R160 names itself. -/
def srcSel (d : Dev) (k : Fin 8) (alt : Bool) : Nat :=
  if srcKind d k alt = 6 ∧ srcKindCfg d k alt ≠ 6 then k.val
  else if alt then d.fld PdCfg.ASEL k else d.fld PdCfg.SEL k

/-- SCALE, INC or LAT of a source. -/
def srcScale (d : Dev) (k : Fin 8) (alt : Bool) : Nat :=
  if alt then d.fld PdAscale.SCALE k else d.fld PdScale.SCALE k

/-- What is known of a source. -/
def srcOf (d : Dev) (k : Fin 8) (alt : Bool) : PSrc := if alt then (d.pd k).alt else (d.pd k).pri

/-- The device with a source's record replaced. -/
def setSrc (d : Dev) (k : Fin 8) (alt : Bool) (s : PSrc) : Dev :=
  d.onPd k fun x => if alt then { x with alt := s } else { x with pri := s }

/-- A source that carries an absolute phase (R155): PLL, BCAST, TWIN. -/
def srcAbs (kind : Nat) : Bool := kind = 4 || kind = 5 || kind = 6

/-- A source whose domain turns by travelled distance (R157): ENC, BAND. -/
def srcTrav (kind : Nat) : Bool := kind = 2 || kind = 3

/-- Whether the PLL kernel cell of a block reports lock (R156, R225). -/
def pllLocked (d : Dev) (nn : Fin 16) : Bool :=
  (List.finRange 12).any fun m => d.fld KcCfg.KIND (nn, m) == 10 && d.bit KcStat.LOCK (nn, m)

/-- Whether a source is valid now (R156, R159); a domain that follows the other unit under R160 goes on at its last rate without the link. -/
def srcValid (d : Dev) (k : Fin 8) (alt : Bool) : Bool :=
  let s := srcOf d k alt
  let nn : Fin 16 := ⟨srcSel d k alt % 16, Nat.mod_lt _ (by omega)⟩
  match srcKind d k alt with
  | 1 => d.bit ClkStat.PLL_LOCK ()
  | 2 => d.bit EcStat.PVALID nn
  | 3 => s.valid && !s.err
  | 4 => s.valid && !s.err && pllLocked d nn
  | 5 => s.valid && !s.err
  | 6 => s.valid && !s.err && ((d.twin.paired && d.bit TwStat.LINKUP ()) || srcKindCfg d k alt != 6)
  | _ => false

/-- Whether the alternate is in use. -/
def altInUse (d : Dev) (k : Fin 8) : Bool := d.bit PdStat.ALT k

/-- The pieces of a phase, newest first, that cover clk c and what follows it. -/
def segKeep (c : Nat) : List Seg → List Seg
  | [] => []
  | s :: t => if s.t ≤ c then [s] else s :: segKeep c t

/-- A new piece of phase from now, from the given phase at the given rate; older pieces are kept as far back as R158 (the start of a frame) and R164 look. -/
def setSeg (d : Dev) (k : Fin 8) (base num den : Nat) : Dev :=
  d.onPd k fun x =>
    { x with seg := ⟨d.clk, base, num, den⟩, hist := segKeep (d.clk - 4194304) (x.seg :: x.hist) }

/-- The phase held from now on. -/
def holdPhase (d : Dev) (k : Fin 8) : Dev := setSeg d k (domPhase d k) 0 1

/-- The lead of a domain over its source, in 2^-32 cycle with its count of cycles; its fraction is OFS (R162). -/
def setOfs (d : Dev) (k : Fin 8) (o : Nat) : Dev := d.onPd k fun x => { x with ofs := o % 2 ^ 52 }

/-- By how much phase a leads phase b, modulo the range of PH40. -/
def lead (a b : Nat) : Nat := (a % 2 ^ 52 + 2 ^ 52 - b % 2 ^ 52) % 2 ^ 52

/-- A source's phase at clk c, extrapolated at its last rate (R158). -/
def srcPhaseAt (s : PSrc) (c : Nat) : Nat :=
  match s.upd with
  | some (t, p) => p + if s.dt = 0 then 0 else (c - t) * s.ds.toNat / s.dt
  | none => 0

/-- A source's phase now. -/
def srcPhaseNow (d : Dev) (s : PSrc) : Nat := srcPhaseAt s d.clk

/-- The domain runs at the source's own rate from its present phase (R155, R162). -/
def runAtSource (d : Dev) (k : Fin 8) (alt : Bool) (base : Nat) : Dev :=
  let s := srcOf d k alt
  match srcKind d k alt with
  | 1 => setSeg d k base (srcScale d k alt) 1
  | 2 => setSeg d k base 0 1
  | _ => if s.dt = 0 then setSeg d k base 0 1 else setSeg d k base s.ds.toNat s.dt

/-- The phase moved forward, by less than one cycle, to a source's fraction (R155). -/
def stepTo (p f : Nat) : Nat := p + (f % 2 ^ 32 + 2 ^ 32 - p % 2 ^ 32) % 2 ^ 32

/-- The travel of a BAND source counted from phase p at this clk (R162): its last update is taken to have been where it leads to p now. -/
def travFrom (d : Dev) (k : Fin 8) (alt : Bool) (p : Nat) : Dev :=
  let s := srcOf d k alt
  match s.upd with
  | some (t, q) => setSrc d k alt { s with upd := some (t, lead (p + q) (srcPhaseNow d s)) }
  | none => d

/-- The domain becomes valid on a source (R155, R162): an absolute source moves the fraction forward to its own and OFS is zero; any other continues from the held phase. -/
def becomeValid (d : Dev) (k : Fin 8) (alt : Bool) : Dev :=
  let p := domPhase d k
  let x := srcPhaseNow d (srcOf d k alt)
  let ab := srcAbs (srcKind d k alt)
  let base := if ab then stepTo p x else p
  let d := setOfs ((d.flag PdStat.VALID k).clr PdStat.SLEW k) k (if ab then lead base x else 0)
  let d := if srcKind d k alt = 3 then travFrom d k alt base else d
  runAtSource d k alt base

/-- The phase of a TIMER source (R156): its accumulator, counted from the pattern load on (assumption log 34). -/
def timerPhase (d : Dev) (k : Fin 8) (alt : Bool) : Nat := srcScale d k alt * (d.clk - d.patT)

/-- The blocks whose bank in use is bound to domain k stall in the clk in which it becomes invalid (R171); a return to a bank on it is withdrawn (R173). -/
def stallBound (d : Dev) (k : Fin 8) : Dev :=
  forAll d fun d nn =>
    let back : Bool := match (d.b nn).stalled with
      | some t => returnFails d nn t && (hdrOf d nn t).domain == k
      | none => false
    let d := if back then declareStall d nn else d
    if (curHdr d nn).domain = k ∧ 2 ≤ bkState d nn then setSwapPend (stallOwn d nn) nn else d

/-- The domain becomes invalid (R156, R163): its phase holds, INV_CNT counts, and the window instances open on it close (R332). -/
def becomeInvalid (d : Dev) (k : Fin 8) : Dev :=
  let d := holdPhase d k
  let d := ((d.clr PdStat.VALID k).clr PdStat.SLEW k).flag PdStat.INV_SEEN k
  winsInvalid (stallBound (d.incSat PdStat.INV_CNT k) k) k

/-- The domain changes to the given source (R162): without a step when it is valid, under R155 when it is not. -/
def switchTo (d : Dev) (k : Fin 8) (alt : Bool) : Dev :=
  let was := domValid d k
  let d := d.putB PdStat.ALT k alt
  let kind := srcKind d k alt
  if !was then becomeValid d k alt
  else
    let p := domPhase d k
    let o := if srcAbs kind then lead p (srcPhaseNow d (srcOf d k alt))
      else if kind = 1 then lead p (timerPhase d k alt) else 0
    let d := setOfs d k o
    let d := d.putB PdStat.SLEW k (d.bit PdCfg.ALIGN k && srcAbs kind && o % 2 ^ 32 != 0)
    let d := if kind = 3 then travFrom d k alt p else d
    runAtSource d k alt p

/-- The validity of a domain followed after something its sources depend on has changed (R156, R163): automatic switch, loss or return of validity. -/
def domRecheck (d : Dev) (k : Fin 8) : Dev :=
  let alt := altInUse d k
  let ok := srcValid d k alt
  if domValid d k then
    if ok then d
    else if !alt && d.bit PdCfg.AUTO k && d.fld PdCfg.ASRC k != 0 && srcValid d k true then
      (switchTo d k true).flag PdStat.AUTOSW k
    else becomeInvalid d k
  else if ok then becomeValid d k alt
  else d

/-- Every domain rechecked. -/
def domRecheckAll (d : Dev) : Dev := forAll d fun d k => domRecheck d k

/-- By how much phase a leads phase b as a signed distance, in 2^-32 cycle. -/
def leadI (a b : Nat) : Int := sx 52 (lead a b)

/-- The source record after an update at clk c and phase s with advance ds since the update before (R158, R159): the two good updates that end an error are those within 2^-6 cycle of straight extrapolation. -/
def srcTook (x : PSrc) (c s : Nat) (ds : Int) (trav : Option Int) : PSrc :=
  match x.upd with
  | none => { x with valid := true, upd := some (c, s), ds := 0, dt := 0, good := 0, trav := trav }
  | some (t, _) =>
    let dt := c - t
    let near := decide (x.dt ≠ 0 ∧ (leadI s (srcPhaseAt x c)).natAbs ≤ 2 ^ 26)
    let good := if near then x.good + 1 else 0
    { x with valid := true, upd := some (c, s), ds := ds, dt := dt, good := min good 2, trav := trav,
             err := x.err && decide (good < 2) }

/-- The rate of the domain after an update of the source in use (R158), SLEW included (R162): the phase is aimed at the source's predicted next update and never goes back. -/
def aim (d : Dev) (k : Fin 8) (alt : Bool) : Dev :=
  let x := srcOf d k alt
  match x.upd with
  | none => d
  | some (c, s) =>
    if x.dt = 0 then d
    else
      let adv := x.ds.toNat / 64
      let o := (d.pd k).ofs
      let slew := d.bit PdStat.SLEW k
      let up := o / 2 ^ 32 * 2 ^ 32 + 2 ^ 32
      let o' := if slew then min (o + adv) up else o
      let d := setOfs d k o'
      let d := if slew && o' == up then d.clr PdStat.SLEW k else d
      let e := leadI (s + o') (phaseFrom ((d.pd k).seg :: (d.pd k).hist) c)
      setSeg d k (domPhase d k) (e + Int.ofNat x.ds.toNat).toNat x.dt

/-- A source that follows the other unit under R160 taken anew after its domain has been set: the next heartbeat is its first. -/
def followAnew (d : Dev) (k : Fin 8) (alt : Bool) : Dev :=
  if srcKind d k alt = 6 ∧ srcKindCfg d k alt ≠ 6 then
    setSrc d k alt { srcOf d k alt with valid := true, err := false, upd := none }
  else d

/-- A domain set to a phase of the other unit's (R408) with no step of its source: what its source in use delivers is led by as much more as the phase has moved, and a source of travel counts on from it. -/
def phaseSet (d : Dev) (k : Fin 8) (p : Nat) : Dev :=
  let d := followAnew (followAnew d k false) k true
  let alt := altInUse d k
  let kind := srcKind d k alt
  let old := domPhase d k
  let d := d.onPd k fun x => { x with seg := ⟨d.clk, p, x.seg.num, x.seg.den⟩, hist := [] }
  if kind = 3 then travFrom d k alt p
  else if kind = 4 ∨ kind = 5 ∨ (kind = 6 ∧ srcKindCfg d k alt = 6) then setOfs d k ((d.pd k).ofs + lead p old)
  else d

/-- The first reception of a broadcast after a takeover is taken with no step (R160): the domain goes on from the phase it holds, which leads the source by OFS. -/
def srcRejoin (d : Dev) (k : Fin 8) (alt : Bool) (c s : Nat) : Dev :=
  if alt == altInUse d k && domValid d k && srcAbs (srcKind d k alt) && srcKind d k alt == srcKindCfg d k alt && (srcOf d k alt).upd.isNone then
    setOfs d k (lead (phaseFrom ((d.pd k).seg :: (d.pd k).hist) c) s)
  else d

/-- An update of a source at clk c by its 40-bit value (R157, R158, R159). -/
def srcUpdateAt (d : Dev) (k : Fin 8) (alt : Bool) (c v : Nat) : Dev :=
  let kind := srcKind d k alt
  let x := srcOf d k alt
  if kind < 3 ∨ kind > 6 then d
  else
    let pos := sx 40 v
    let dp : Int := match x.trav with
      | some q => sx 40 (ux 40 (pos - q))
      | none => 0
    let prev := match x.upd with | some (_, p) => p | none => domPhase d k
    let ds : Int :=
      if kind = 3 then Int.ofNat (dp.natAbs * srcScale d k alt / 2 ^ 12)
      else match x.upd with
        | some (_, p) => leadI (v * 2 ^ 12) p
        | none => 0
    let s := if kind = 3 then prev + ds.toNat else v * 2 ^ 12
    let inUse := alt == altInUse d k
    let d := if inUse && kind = 3 && dp != 0 then d.putB PdStat.DIR k (decide (dp < 0)) else d
    let y := srcTook x c s ds (some pos)
    let bad := inUse && domValid d k && x.upd.isSome &&
      decide ((leadI (s + (d.pd k).ofs) (phaseFrom ((d.pd k).seg :: (d.pd k).hist) c)).natAbs > 2 ^ 30)
    let y := if bad then { y with err := true, good := 0 } else y
    let d := setSrc (srcRejoin d k alt c s) k alt y
    let was := domValid d k
    let d := domRecheck d k
    if inUse && was && domValid d k && alt == altInUse d k then aim d k alt else d

/-- An update of a source now. -/
def srcUpdate (d : Dev) (k : Fin 8) (alt : Bool) (v : Nat) : Dev := srcUpdateAt d k alt d.clk v

/-- The domains that follow the encoder of block nn turn by its travel (R157), a change of dp in 2^-20 unit. -/
def encMoved (d : Dev) (nn : Fin 16) (dp : Int) : Dev :=
  forAll d fun d k =>
    let alt := altInUse d k
    if srcKind d k alt = 2 ∧ srcSel d k alt = nn.val ∧ dp ≠ 0 then
      let d := d.putB PdStat.DIR k (decide (dp < 0))
      if domValid d k then
        let tot := (d.pd k).acc + dp.natAbs * srcScale d k alt
        let d := setSeg d k (domPhase d k + tot / 2 ^ 12) 0 1
        d.onPd k fun x => { x with acc := tot % 2 ^ 12 }
      else d
    else d

/-- A publication of pair j of block nn reaches the domains that take it (R158). -/
def pairUpdate (d : Dev) (nn : Fin 16) (j : Nat) (v : Nat) : Dev :=
  forAll d fun d k =>
    let one := fun (d : Dev) (alt : Bool) =>
      let kind := srcKind d k alt
      let p := if alt then d.fld PdCfg.AVPAIR k else d.fld PdCfg.VPAIR k
      if (kind = 3 ∨ kind = 4) ∧ srcSel d k alt = nn.val ∧ p = j then srcUpdate d k alt v else d
    one (one d false) true

/-- The sources of kind TWIN lost with the link (R156); a domain that only follows the other unit keeps its rate (R160). -/
def twinSourcesLost (d : Dev) : Dev :=
  let d := forAll d fun d k =>
    let one := fun (d : Dev) (alt : Bool) =>
      if srcKindCfg d k alt = 6 then setSrc d k alt { srcOf d k alt with valid := false } else d
    one (one d false) true
  domRecheckAll d

/-- Every domain at phase zero, turning from the first clk in which it is valid (R155). -/
def domsInit (d : Dev) : Dev :=
  let d := { d with dom := Vector.replicate 8 { Domn.reset with seg := ⟨d.clk, 0, 0, 1⟩ } }
  let d := forAll d fun d k => d.setReg (PdStat.addr k) 0
  domRecheckAll d

/-- PHASE_SOURCE_UPDATE (R158): publications also come to the domains this way. -/
def execPhaseSourceUpdate (k : Fin 8) (alt : Bool) (v : BitVec 40) (s : State) : Res :=
  onChip s fun d => srcUpdate d k alt v.toNat

/-- SOURCE_TIMEOUT (R156, R159): no update within TMO. -/
def execSourceTimeout (k : Fin 8) (alt : Bool) (s : State) : Res :=
  onChip s fun d =>
    let kind := srcKind d k alt
    if kind = 3 ∨ kind = 4 ∨ kind = 5 then
      domRecheck (setSrc d k alt { srcOf d k alt with valid := false }) k
    else d

/-- A SWITCH command judged and carried out (R163). -/
def doSwitch (d : Dev) (k : Fin 8) : Dev :=
  let tgt := !altInUse d k
  let d := d.clr PdCtl.SWITCH k
  if d.fld PdCfg.ASRC k = 0 ∨ !srcValid d k tgt then d.flag PdStat.SW_REF k
  else switchTo d k tgt

/-- Whether SWITCH would be refused now (R163). -/
def switchRefused (d : Dev) (k : Fin 8) : Bool :=
  d.fld PdCfg.ASRC k == 0 || !srcValid d k (!altInUse d k)

end Sys2Proof.Machine
end

