-- ==== Sys2Proof/Machine/HostCmd.lean ====
section
/-! DEFINITION. A command that a master writes: who reaches the register and when (R75, R82, R111), privilege (R109), the written bits under an M-type mask (R93), and mirrored writes in a twin (R409, R410). -/

namespace Sys2Proof.Machine

/-- Whether a master can reach the device now (R74, R75, R92, R111): a PCIe function outside reset and D3hot, the serial host port always, a steward while it runs; none while a read that it issued before stalls (the queue holds accesses in the order in which they take effect, assumption log 40). -/
def masterUp (d : Dev) (h : Master) : Bool :=
  (match h with
    | .pf0 => d.perstN && !(vget d.fn 0).d3
    | .pf1 => d.perstN && !(vget d.fn 1).d3
    | .shp => true
    | .st0 | .st1 => d.stwRun) && !stalled d h

/-- Whether an access takes effect at this stage (R82): nothing in reset; until SFW runs only the identity and mode area, the host window and CHIP.SWRST. -/
def stageOpen (d : Dev) (a : Nat) : Bool :=
  let st := d.fld Start.STAGE ()
  st ≥ 2 || (st == 1 && (a < 0x10000 || a / 4 == 0x1C010 || (0x800000 ≤ a && a < 0x840000)))

/-- A command written to the register at a: stage (R82), privilege (R109, R110), then the effect on the unit that holds it (R95). -/
def hostCmd (s : State) (h : Master) (a : Nat) (priv : Bool) (u : Nat) (f : Dev → Dev) : Res :=
  if !masterUp s.dev h || !stageOpen s.dev a then .next s
  else if priv && !privileged s.dev h then onDev s fun d => d.hostErr 0 h true a 15
  else onUnit u s f

/-- A read of the register at a that does something: at a closed stage it reads zero and does nothing (R82), and nothing answers in reset. -/
def hostRd (s : State) (h : Master) (a : Nat) (u : Nat) (f : Dev → Dev) : Res :=
  if !masterUp s.dev h || s.dev.fld Start.STAGE () == 0 then .next s
  else if !stageOpen s.dev a then onDev s fun d => answer d h 0 [0]
  else onUnit u s f

/-- The bits that a write to an M-type register changes (R93): those whose mask bits are 1, as mask and values. -/
def mMask (w : Word) : Nat := w.toNat / 65536

/-- The bits written 1 under their mask. -/
def mOnes (w : Word) : Nat := w.toNat % 65536 &&& mMask w

/-- The reserved bits that a write to an M-type register changes (R93, R95). -/
def mRsv (rsv : Nat) (w : Word) : Nat := mOnes w &&& rsv

/-- The reserved bits that a write to another register changes (R95). -/
def wRsv (rsv : Nat) (w : Word) : Nat := w.toNat &&& rsv

/-- A unit after a write that has changed reserved bits chg of its register at a (R95): they hold what was written, and the unit is no longer guaranteed. -/
def unguard (d : Dev) (u a chg : Nat) : Dev :=
  if chg = 0 then d else { d.setReg a (d.reg a ||| BitVec.ofNat 32 chg) with undef := u :: d.undef }

/-- As hostCmd, for a write that also changes the reserved bits chg: it is carried out, and after it nothing but the quench path is guaranteed of the unit (R95). -/
def hostW (s : State) (h : Master) (a : Nat) (priv : Bool) (u chg : Nat) (f : Dev → Dev) : Res :=
  hostCmd s h a priv u fun d => unguard (f d) u a chg

/-- A row's own command bit counts as written, mask bit included (assumption log 13). -/
def ownM (bit : Nat) (w : Word) : Word := w ||| BitVec.ofNat 32 (2 ^ bit + 2 ^ (bit + 16))

/-- As ownM for a register that is not M-type. -/
def ownBit (bit : Nat) (w : Word) : Word := w ||| BitVec.ofNat 32 (2 ^ bit)

/-- A write of a CFG field under the mask of an M-type register. -/
def mCfg {ι : Type} (d : Dev) (f : RF ι) (i : ι) (w : Word) : Dev :=
  let m := mMask w / 2 ^ f.lo % 2 ^ f.len
  let v := w.toNat % 65536 / 2 ^ f.lo % 2 ^ f.len
  d.put f i ((d.fld f i &&& (2 ^ f.len - 1 - m)) ||| (v &&& m))

/-- The earliest clk of the apply instant of a mirrored write (R409): acceptance + 4 us. -/
def mirInstant (d : Dev) : Nat := d.clk + nsClk d 4000

/-- A mirrored write put on its way (R409): sent as MWR, to take effect at its apply instant. -/
def mirSend (d : Dev) (a : Nat) (w : Word) (blk : Option (Fin 16)) : Dev :=
  let m : MirWr := ⟨a, w, blk, mirInstant d⟩
  twSend (d.onTw fun t => { t with mirror := t.mirror ++ [m] }) (.mwr m)

/-- The command bits of the register at a that wait for their apply instant (R409). -/
def mirBits (d : Dev) (a : Nat) : Nat :=
  d.twin.mirror.foldl (fun m e => if e.addr = a then m ||| mOnes e.word else m) 0

/-- A host write to a mirrored register (R409, R410): on an ALONE unit it takes effect at once; on an ACTIVE unit a write that is not refused takes effect at its apply instant; on a SHADOW or HELD unit it has no effect, is counted in SHWR, and is refused where its chapter says so (turn). Waiting for its apply instant it does not hold up a read of the same master, which is answered at once: R92 and R114 give no bound that covers those 4 us (DESIGN CHOICE, assumption log 96). -/
def mirHost (d : Dev) (a : Nat) (w : Word) (blk : Option (Fin 16)) (refused : Bool)
    (go turn : Dev → Dev) : Dev :=
  let role := d.fld TwStat.ROLE ()
  if role = 2 ∨ role = 3 then (turn d).inc TwCnt.SHWR ()
  else if role = 1 ∧ ¬ refused then mirSend d a w blk
  else go d

/-- SWITCH written by a master (R163, R409). -/
def execSwitch (h : Master) (k : Fin 8) (w : Word) (s : State) : Res :=
  hostW s h (PdCtl.addr k) false unitChip (mRsv 0xFFFE w) fun d =>
    mirHost d (PdCtl.addr k) (ownM 0 w) none (switchRefused d k) (fun d => doSwitch d k) (fun d => d)

end Sys2Proof.Machine
end

