-- ==== Sys2Proof/Machine/Sensing.lean ====
section
/-! DEFINITION. Filter, encoder and probe cells (07_sensing.md) and the modulator clock monitors (R68). -/

namespace Sys2Proof.Machine

/-- The source of a cell event input (R210, R358): inputs 0 to 7 are CMPHI and CMPLO of FC0 to FC3, 8 is EZnn, 9 is PROBEnn. -/
def senseSrc (nn : Fin 16) (i : Fin 10) : Nat :=
  if i.val < 8 then bkSrc nn (9 + i.val) else bkSrc nn (10 + i.val)

/-- A cell event input rises or falls within its interval (R210). -/
def senseEdge (d : Dev) (nn : Fin 16) (i : Fin 10) (up : Bool) : Dev :=
  d.onB nn fun b => { b with sense := vmod b.sense i fun x =>
    { x with lvl := up, rises := x.rises + up.toNat, sawLow := true, sawHigh := true } }

/-- Whether block nn has a section that drives its cells. -/
def hasSec (d : Dev) (nn : Fin 16) : Bool := (secOf d nn).isSome

/-- The index of the two comparator inputs of a filter cell. -/
def cmpIx (f : Fin 4) (lo : Bool) : Fin 10 := ⟨2 * f.val + lo.toNat, by cases lo <;> simp <;> omega⟩

/-- A comparator output takes a level (R186, R188): an assertion counts and feeds the quench path where it is mapped. -/
def setCmp (d : Dev) (nn : Fin 16) (f : Fin 4) (lo on : Bool) : Dev :=
  let fld := if lo then FcStat.CMPLO else FcStat.CMPHI
  if d.bit fld (nn, f) == on then d
  else
    let d := senseEdge (d.putB fld (nn, f) on) nn (cmpIx f lo) on
    if !on then d
    else
      let d := if lo then (d.flag FcStat.LO_SEEN (nn, f)).incSat FcStat.LOCNT (nn, f)
        else (d.flag FcStat.HI_SEEN (nn, f)).incSat FcStat.HICNT (nn, f)
      if d.bit (if lo then FcCfg.QLO else FcCfg.QHI) (nn, f) then quench d nn (2 ^ (4 + f.val)) else d

/-- The modulator clock of a filter cell (R16). -/
def fcClk (d : Dev) (nn : Fin 16) (f : Fin 4) : Fin 2 := if d.bit FcCfg.MSEL (nn, f) then 1 else 0

/-- Whether a modulator clock is bad (R68). -/
def mclkBad (d : Dev) (n : Fin 4) (x : Fin 2) : Bool :=
  d.bit (if x = 0 then MclkStat.BAD0 else MclkStat.BAD1) n

/-- Whether a filter cell is not measuring (R189). -/
def fcDown (d : Dev) (nn : Fin 16) (f : Fin 4) : Bool :=
  mclkBad d (rgnOf nn) (fcClk d nn f) || d.bit FcStat.BSTK (nn, f)

/-- The region's edge count of a cell's clock (R183). -/
def fcEdge (d : Dev) (nn : Fin 16) (f : Fin 4) : Nat := d.fld Mcnt.CNT (rgnOf nn, fcClk d nn f)

/-- The device with a filter cell changed. -/
def onF (d : Dev) (nn : Fin 16) (f : Fin 4) (g : Flt → Flt) : Dev :=
  d.onB nn fun b => { b with flt := vmod b.flt f g }

/-- A filter cell stops measuring (R189). -/
def fcStop (d : Dev) (nn : Fin 16) (f : Fin 4) : Dev :=
  let mode := d.fld FcCfg.MODE (nn, f)
  if mode = 0 ∨ !hasSec d nn then d
  else
    let d := (d.clr FcStat.VALID (nn, f)).flag FcStat.INVAL_SEEN (nn, f)
    let d := onF d nn f fun x => { x with fill := false }
    let d := if mode = 2 ∧ d.bit FcCfg.SPFAIL (nn, f) then d.setReg (FcRes.addr (nn, f)) 0 else d
    let d := d.raise (bkSrc nn (5 + f.val)) (d.lo16 FcStat.word (nn, f))
    if mode = 1 ∧ d.bit FcCfg.CLKACT (nn, f) then setCmp (setCmp d nn f false true) nn f true true else d

/-- A filter cell starts again when both conditions have ended (R190). -/
def fcResume (d : Dev) (nn : Fin 16) (f : Fin 4) : Dev :=
  let e := fcEdge d nn f
  onF d nn f fun x => { x with mainWait := true, fastWait := true, fromEdge := e }

/-- A filter cell after a fill (R190): results zero, comparators inactive, no event. -/
def fcFill (d : Dev) (nn : Fin 16) (f : Fin 4) : Dev :=
  let e := fcEdge d nn f
  let d := (d.setReg (FcRes.addr (nn, f)) 0).setReg (FcFres.addr (nn, f)) 0
  let d := ((d.clr FcStat.VALID (nn, f)).clr FcStat.CMPHI (nn, f)).clr FcStat.CMPLO (nn, f)
  onF d nn f fun _ => ⟨0, 0, 0, 0, true, true, true, e⟩

/-- A change made for every filter cell of region n on its clock x. -/
def onClkCells (d : Dev) (n : Fin 4) (x : Fin 2) (g : Dev → Fin 16 → Fin 4 → Dev) : Dev :=
  forAll d fun d (p : Fin 4) => forAll d fun d (f : Fin 4) =>
    let nn := blkAt n p
    if fcClk d nn f = x then g d nn f else d

/-- Edges since a cell began to wait, modulo 2^32. -/
def edgesSince (e0 e : Nat) : Nat := (e + 2 ^ 32 - e0 % 2 ^ 32) % 2 ^ 32

/-- A sinc result in F20 (R182, R186): 2d - 1 with d = sum / full. -/
def sincRes (sum full : Nat) : Int :=
  satF20 (rdiv ((2 * Int.ofNat (min sum full) - Int.ofNat full) * 2 ^ 19) full)

/-- FILTER_RESULT (R182, R183, R190), at the edge that the region has counted last; at another edge there is none. -/
def execFilterResult (nn : Fin 16) (f : Fin 4) (sum edge : Nat) (s : State) : Res :=
  onBlock nn s fun d =>
    let n := d.fld FcCfg.OSR (nn, f)
    if edge ≠ fcEdge d nn f ∨ d.fld FcCfg.MODE (nn, f) = 0 ∨ n = 0 ∨ edge % n ≠ 0 ∨ fcDown d nn f then d
    else
      let x := vget (d.b nn).flt f
      if x.mainWait ∧ edgesSince x.fromEdge edge < 3 * n then d
      else
        let d := onF d nn f fun x => { x with mainWait := false, fill := false }
        (d.putS FcRes.V (nn, f) (sincRes sum (n * n * n))).flag FcStat.VALID (nn, f)

/-- One comparator judged on a fast result (R186): consecutive results toward asserting and releasing. -/
def judgeCmp (d : Dev) (nn : Fin 16) (f : Fin 4) (lo : Bool) (r : Int) : Dev :=
  let q := d.fld FcCfg.FQUAL (nn, f) + 1
  let hys := sx 20 (d.fld FcHys.V (nn, f))
  let thr := sx 20 (d.fld (if lo then FcThrLo.V else FcThrHi.V) (nn, f))
  let asr := if lo then decide (r < thr) else decide (r > thr)
  let rel := if lo then decide (r ≥ thr + hys) else decide (r ≤ thr - hys)
  let x := vget (d.b nn).flt f
  let up := if asr then min ((if lo then x.upLo else x.upHi) + 1) 4 else 0
  let dn := if rel then min ((if lo then x.dnLo else x.dnHi) + 1) 4 else 0
  let d := onF d nn f fun x => if lo then { x with upLo := up, dnLo := dn } else { x with upHi := up, dnHi := dn }
  if up ≥ q then setCmp d nn f lo true else if dn ≥ q then setCmp d nn f lo false else d

/-- FAST_RESULT (R186, R190), as FILTER_RESULT. -/
def execFastResult (nn : Fin 16) (f : Fin 4) (sum edge : Nat) (s : State) : Res :=
  onBlock nn s fun d =>
    let m := d.fld FcCfg.FOSR (nn, f)
    if edge ≠ fcEdge d nn f ∨ d.fld FcCfg.MODE (nn, f) ≠ 1 ∨ m = 0 ∨ edge % m ≠ 0 ∨ fcDown d nn f then d
    else
      let x := vget (d.b nn).flt f
      if x.fastWait ∧ edgesSince x.fromEdge edge < 2 * m then d
      else
        let d := if x.fastWait && d.bit FcCfg.CLKACT (nn, f) && !x.fill then
            setCmp (setCmp d nn f false false) nn f true false else d
        let d := if x.fastWait then
            onF d nn f fun x => { x with fastWait := false, upHi := 0, dnHi := 0, upLo := 0, dnLo := 0 } else d
        let r := sincRes sum (m * m)
        let d := d.putS FcFres.V (nn, f) r
        judgeCmp (judgeCmp d nn f false r) nn f true r

/-- Whether MCLKn_x is driven (R57, R67): by a pattern that sets it to DRIVE, with the supplies of its bank and CLK running. While the clock is lost a ball in DRIVE is an input, as in RECEIVE (DESIGN CHOICE, assumption log 93). -/
def mclkDrive (d : Dev) (n : Fin 4) (x : Fin 2) : Bool :=
  d.pat.isSome && d.bit (if x = 0 then MclkCfg.DIR0 else MclkCfg.DIR1) n && !d.clkLost &&
    d.supply.contains .vdd && d.supply.contains .vddaPll && d.supply.contains (.s n)

/-- MDIVx of a driven modulator clock (R67). -/
def mclkDiv (d : Dev) (n : Fin 4) (x : Fin 2) : Nat := d.fld (if x = 0 then MclkCfg.MDIV0 else MclkCfg.MDIV1) n

/-- The level at MCLKn_x (R57, R67): high for the longer half of an odd divider; none where the ball is an input or high-impedance. -/
def mclkLevel (d : Dev) (n : Fin 4) (x : Fin 2) : Option Bool :=
  if mclkDrive d n x then some (decide (vget (d.r n).mph x < (mclkDiv d n x + 1) / 2)) else none

/-- One clk of a modulator clock (R67, R183): a driven one rises every MDIV clk; a received one rises where its source lets it, which the model leaves free (assumption log 37). Each rising edge counts in MCNTx. -/
def mclkTick (d : Dev) (n : Fin 4) (x : Fin 2) : Dev :=
  if mclkDrive d n x then
    let p := vget (d.r n).mph x + 1
    if p < mclkDiv d n x then d.onR n fun r => { r with mph := vset r.mph x p }
    else (d.inc Mcnt.CNT (n, x)).onR n fun r => { r with mph := vset r.mph x 0 }
  else
    let c := d.free
    if Config.choice c.1 then c.2.inc Mcnt.CNT (n, x) else c.2

/-- A modulator clock becomes bad (R68): its flag, BAD, the event, and the cells on it (R189). -/
def mclkFail (d : Dev) (n : Fin 4) (x : Fin 2) (loss : Bool) : Dev :=
  let was := mclkBad d n x
  let fl := match x, loss with
    | 0, true => MclkStat.LOSS0 | 0, false => MclkStat.RANGE0
    | _, true => MclkStat.LOSS1 | _, false => MclkStat.RANGE1
  let d := d.flag fl n
  let d := d.flag (if x = 0 then MclkStat.BAD0 else MclkStat.BAD1) n
  let d := d.raise (rgSrc n 0) (d.lo16 MclkStat.word n)
  if was then d
  else onClkCells d n x fun d nn f => if d.bit FcStat.BSTK (nn, f) then d else fcStop d nn f

/-- MCLK_LOSS (R68). -/
def execMclkLoss (n : Fin 4) (x : Fin 2) (s : State) : Res := onRegion n s fun d => mclkFail d n x true

/-- MCLK_RANGE (R68). -/
def execMclkRange (n : Fin 4) (x : Fin 2) (s : State) : Res := onRegion n s fun d => mclkFail d n x false

/-- MCLK_RECOVER (R68, R190). -/
def execMclkRecover (n : Fin 4) (x : Fin 2) (s : State) : Res :=
  onRegion n s fun d =>
    if !mclkBad d n x then d
    else
      let d := d.clr (if x = 0 then MclkStat.BAD0 else MclkStat.BAD1) n
      onClkCells d n x fun d nn f => if fcDown d nn f then d else fcResume d nn f

/-- BITSTREAM_STUCK (R189). -/
def execBitstreamStuck (nn : Fin 16) (f : Fin 4) (s : State) : Res :=
  onBlock nn s fun d =>
    if d.bit FcStat.BSTK (nn, f) then d
    else
      let was := fcDown d nn f
      let d := d.flag FcStat.BSTK (nn, f)
      if was then d else fcStop d nn f

/-- BITSTREAM_RESUME (R189, R190). -/
def execBitstreamResume (nn : Fin 16) (f : Fin 4) (s : State) : Res :=
  onBlock nn s fun d =>
    if !d.bit FcStat.BSTK (nn, f) then d
    else
      let d := d.clr FcStat.BSTK (nn, f)
      if fcDown d nn f then d else fcResume d nn f

/-- The encoder cell of a block. -/
def encOf (d : Dev) (nn : Fin 16) : Enc := (d.b nn).enc

/-- The device with the encoder cell changed. -/
def onE (d : Dev) (nn : Fin 16) (g : Enc → Enc) : Dev := d.onB nn fun b => { b with enc := g b.enc }

/-- The position becomes invalid (R197, R198, R203). -/
def encInvalid (d : Dev) (nn : Fin 16) : Dev :=
  if !d.bit EcStat.PVALID nn then d
  else domRecheckAll ((d.clr EcStat.PVALID nn).flag EcStat.INVAL_SEEN nn)

/-- A condition of R197 or R198 in this clk: no Z load or REVAL of the clk restores validity (R199). -/
def encCond (d : Dev) (nn : Fin 16) : Dev := encInvalid (onE d nn fun e => { e with cond := some d.clk }) nn

/-- The position takes a value; what it was is kept for the edges of R207. -/
def encPut (d : Dev) (nn : Fin 16) (pos : Int) : Dev :=
  onE d nn fun e => { e with pos := pos, past := ((d.clk, e.pos) :: e.past).filter fun x => d.clk < x.1 + 16 }

/-- The position in clk c, at most 15 clk ago. -/
def Enc.posAt (e : Enc) (c : Nat) : Int :=
  match (e.past.filter fun x => c < x.1).getLast? with
  | some x => x.2
  | none => e.pos

/-- Validity returns with SAT cleared (R199). -/
def encOk (d : Dev) (nn : Fin 16) : Dev := domRecheckAll ((d.clr EcStat.SAT nn).flag EcStat.PVALID nn)

/-- The position becomes valid with a value (R199, R202). -/
def encValid (d : Dev) (nn : Fin 16) (pos : Int) : Dev := encOk (encPut d nn pos) nn

/-- Whether an input filtered over n samples can take a new level now, after its last edge (R195). -/
def inputReady (d : Dev) (t : Option Nat) (n : Nat) : Bool :=
  match t with
  | some t => decide (t + n ≤ d.clk)
  | none => true

/-- FLT of the encoder inputs, in samples. -/
def encFlt (d : Dev) (nn : Fin 16) : Nat := d.fld EcCfg.FLT nn + 1

/-- The encoder's error event (R197, R203). -/
def encEvent (d : Dev) (nn : Fin 16) : Dev := d.raise (bkSrc nn 17) (d.lo16 EcStat.word nn)

/-- Whether a position is at or past a limit of P40 (R198). -/
def posLim (p : Int) : Bool := decide (p ≥ 2 ^ 39 - 1 ∨ p ≤ -(2 ^ 39))

/-- The position advances by dp (2^-20 unit), saturating at the limits of P40 (R198); domains on the encoder turn (R157). -/
def encAdvance (d : Dev) (nn : Fin 16) (dp : Int) : Dev :=
  if d.bit EcStat.SAT nn then d
  else
    let p := (encOf d nn).pos
    let q := satP40 (p + dp)
    let d := encMoved (encPut d nn q) nn (q - p)
    if posLim (p + dp) then encCond (d.flag EcStat.SAT nn) nn else d

/-- One count in a direction (R196, R200). -/
def encCount (d : Dev) (nn : Fin 16) (up : Bool) : Dev :=
  let up := up != d.bit EcCfg.DIRINV nn
  let step : Int := 2 ^ (20 - min (d.fld EcCfg.CSHIFT nn) 20)
  encAdvance (d.putB EcStat.DIR nn (!up)) nn (if up then step else -step)

/-- The place of the levels A and B in the quadrature sequence, A leading (assumption log 16). -/
def quadPos (a b : Bool) : Nat :=
  match a, b with
  | false, false => 0 | true, false => 1 | true, true => 2 | false, true => 3

/-- The accepted levels of A and B (R195), with the clk of their edges. -/
def encLevels (d : Dev) (nn : Fin 16) (a b : Bool) : Dev :=
  let a0 := d.bit EcStat.A nn
  let b0 := d.bit EcStat.B nn
  let t := d.clk
  onE ((d.putB EcStat.A nn a).putB EcStat.B nn b) nn fun e =>
    { e with tA := if a0 = a then e.tA else some t, tB := if b0 = b then e.tB else some t }

/-- QUAD_COUNT (R195 to R197): changes of one clk are one command, and an input changes no sooner than its filter lets it. In another mode it shows the accepted levels, but that a step of EAnn is STEP_EDGE. -/
def execQuadCount (nn : Fin 16) (a b : Bool) (s : State) : Res :=
  onBlock nn s fun d =>
    let a0 := d.bit EcStat.A nn
    let b0 := d.bit EcStat.B nn
    let e := encOf d nn
    let n := encFlt d nn
    if !(inputReady d e.tA (if a0 = a then 1 else n) && inputReady d e.tB (if b0 = b then 1 else n)) then d
    else
      let mode := d.fld EcCfg.MODE nn
      let d := encLevels d nn (if mode = 3 then a && a0 else a) b
      if mode ≠ 1 ∨ (a0 = a ∧ b0 = b) then d
      else if a0 ≠ a ∧ b0 ≠ b then
        -- the counter keeps its value for this clk
        let d := onE d nn fun e => { e with pos := e.posAt (d.clk - 1) }
        encEvent ((encCond ((d.flag EcStat.EDGE_OVERRUN nn).flag EcStat.INVAL_SEEN nn) nn).inc EcStat.ERRCNT nn) nn
      else encCount d nn (quadPos a b == (quadPos a0 b0 + 1) % 4)

/-- STEP_EDGE (R195, R200): EAnn has fallen and risen past its filter since the edge before, and a change of EBnn is past its own; EB too close to the edge leaves the direction open. -/
def execStepEdge (nn : Fin 16) (eb settled : Bool) (s : State) : Res :=
  onBlock nn s fun d =>
    let e := encOf d nn
    let n := encFlt d nn
    if d.fld EcCfg.MODE nn ≠ 3 ∨ !(inputReady d e.tA (if d.bit EcStat.A nn then 2 * n else n)
        && inputReady d e.tB (if d.bit EcStat.B nn = eb then 0 else n)) then d
    else
      let d := onE (encLevels d nn true eb) nn fun e => { e with tA := some d.clk }
      let c := d.free
      if settled then encCount d nn eb else encCount c.2 nn (Config.choice c.1)

/-- The load value ZHI, ZLO as a position (R199). -/
def encZ (d : Dev) (nn : Fin 16) : Int :=
  sx 20 (d.fld EcZhi.V nn) * 2 ^ 20 + Int.ofNat (d.fld EcZlo.V nn)

/-- Whether a condition of R197 or R198 holds in this clk (R199). -/
def encCondNow (d : Dev) (nn : Fin 16) : Bool := (encOf d nn).cond == some d.clk

/-- The accepted level of EZnn changes (R195, R210). -/
def encIndex (d : Dev) (nn : Fin 16) (z : Bool) : Dev :=
  let d := onE (d.putB EcStat.Z nn z) nn fun e => { e with tZ := some d.clk }
  if d.fld EcCfg.MODE nn = 1 then senseEdge d nn 8 z else d

/-- INDEX_EDGE (R195, R199). -/
def execIndexEdge (nn : Fin 16) (s : State) : Res :=
  onBlock nn s fun d =>
    let n := encFlt d nn
    if !inputReady d (encOf d nn).tZ (if d.bit EcStat.Z nn then 2 * n else n) then d
    else
      let d := encIndex d nn true
      if d.fld EcCfg.MODE nn = 1 ∧ !d.bit EcStat.PVALID nn ∧ d.bit EcCfg.ZMODE nn then
        if encCondNow d nn then d else encValid d nn (encZ d nn)
      else d.flag EcStat.ZSEEN nn

/-- One clk at EZnn (R195): a high level falls when its source lets it, which the model leaves free (assumption log 37). -/
def indexTick (d : Dev) (nn : Fin 16) : Dev :=
  if d.bit EcStat.Z nn && inputReady d (encOf d nn).tZ (encFlt d nn) then
    let c := d.free
    if Config.choice c.1 then encIndex c.2 nn false else c.2
  else d

/-- The encoder cell after a fill (R194, R199): the load value, valid as the mode says. -/
def encFill (d : Dev) (nn : Fin 16) : Dev :=
  let m := d.fld EcCfg.MODE nn
  let d := onE d nn fun e => { e with pos := if m = 0 then 0 else encZ d nn }
  d.putB EcStat.PVALID nn (m == 3 || (m == 1 && !d.bit EcCfg.ZMODE nn))

/-- SSI_TRANSFER_START (R201): the idle level is seen. -/
def execSsiTransferStart (nn : Fin 16) (idleHigh : Bool) (s : State) : Res :=
  onBlock nn s fun d =>
    if d.fld EcCfg.MODE nn = 2 then onE d nn fun e => { e with idleOk := idleHigh } else d

/-- Gray decoding of an n-bit word (R202). -/
def grayDecode (n w : Nat) : Nat :=
  ((List.range n).reverse.foldl (fun (acc : Nat × Bool) i =>
    let b := acc.2 != w.testBit i
    (acc.1 + if b then 2 ^ i else 0, b)) (0, false)).1

/-- A transfer discarded (R203): the second in a row raises the error event, once for the row (assumption log 38). One discarded for its jump is not the first good one of a return of validity (assumption log 98). -/
def ssiDiscard (d : Dev) (nn : Fin 16) : Dev :=
  let d := d.inc EcStat.ERRCNT nn
  let old := (encOf d nn).bad
  let bad := min (old + 1) 2
  let d := onE d nn fun e => { e with bad := bad, good := none }
  if bad = 2 then (if old < 2 then encEvent (encInvalid d nn) nn else encInvalid d nn) else d

/-- A position from an SSI word (R202). -/
def ssiPos (d : Dev) (nn : Fin 16) (w : Int) : Int :=
  let p := w * 2 ^ (20 - min (d.fld EcCfg.SFRAC nn) 20)
  if d.bit EcCfg.DIRINV nn then -p else p

/-- An SSI word taken or discarded (R202, R203); while the position is invalid no word is a jump (assumption log 98). -/
def ssiTake (d : Dev) (nn : Fin 16) (w : Nat) (ok : Bool) : Dev :=
  let n := d.fld EcCfg.SBITS nn
  let w := w % 2 ^ n
  let w := if d.bit EcCfg.GRAY nn then grayDecode n w else w
  let jmax := d.fld EcJmax.V nn
  let diff := fun (p : Nat) => sx n ((w + 2 ^ n - p) % 2 ^ n)
  if !ok then ssiDiscard (d.flag EcStat.SSIERR nn) nn
  else if d.bit EcStat.PVALID nn then
    let p := (encOf d nn).last.getD w
    if jmax ≠ 0 ∧ (diff p).natAbs > jmax then ssiDiscard (d.flag EcStat.JUMP nn) nn
    else
      let dl := ssiPos d nn (diff p)
      let d := onE d nn fun e => { e with last := some w, bad := 0 }
      let d := if dl = 0 then d else d.putB EcStat.DIR nn (decide (dl < 0))
      encAdvance d nn dl
  else
    let near : Bool := match (encOf d nn).good with
      | some g => decide ((diff g).natAbs ≤ jmax)
      | none => false
    if jmax = 0 ∨ near then
      let d := onE d nn fun e => { e with last := some w, bad := 0, good := none }
      let p := ssiPos d nn (Int.ofNat w)
      let q := satP40 p
      let d := encValid d nn q
      if posLim p then encCond (d.flag EcStat.SAT nn) nn else d
    else onE d nn fun e => { e with good := some w, bad := 0 }

/-- Whether this unit is one of a pair (R396). -/
def paired (d : Dev) : Bool := d.fld TwStat.ROLE () == 1 || d.fld TwStat.ROLE () == 2

/-- SSI_TRANSFER_END (R202, R203, R413): an unpaired unit accepts the word at once; the owner of a pair sends it and both apply it 4 us later; the shadow discards what it sampled. -/
def execSsiTransferEnd (nn : Fin 16) (w : BitVec 40) (stopLow : Bool) (s : State) : Res :=
  onBlock nn s fun d =>
    if d.fld EcCfg.MODE nn ≠ 2 then d
    else if d.fld TwStat.ROLE () = 2 then d
    else
      let ok := (encOf d nn).idleOk && stopLow
      if d.fld TwStat.ROLE () = 1 then
        let d := onE d nn fun e => { e with wait := some (w, ok) }
        twSend d (.ssi nn w ok)
      else ssiTake d nn w.toNat ok

/-- REVAL carried out (R199). -/
def doReval (d : Dev) (nn : Fin 16) : Dev :=
  let d := d.clr EcCtl.REVAL nn
  let m := d.fld EcCfg.MODE nn
  if (m = 1 ∨ m = 3) ∧ !encCondNow d nn then encOk d nn else d

/-- REVAL written by a master. -/
def execReval (h : Master) (nn : Fin 16) (w : Word) (s : State) : Res :=
  hostW s h (EcCtl.addr nn) false (unitBlk nn) (mRsv 0xFFFE w) fun d =>
    mirHost d (EcCtl.addr nn) (ownM 0 w) (some nn) (d.fld EcCfg.MODE nn == 2)
      (fun d => doReval d nn) (fun d => d)

/-- A 40-bit value into a HI and LO register pair (R104). -/
def putWide {ι : Type} (d : Dev) (hi lo : RF ι) (i : ι) (v : Nat) (signed : Bool) : Dev :=
  let h := v / 2 ^ 20 % 2 ^ 20
  let d := if signed then d.putS hi i (sx 20 h) else d.setReg (hi.addr i) (BitVec.ofNat 32 h)
  d.setReg (lo.addr i) (BitVec.ofNat 32 (v % 2 ^ 20))

/-- PROBE_EDGE (R195, R207, R208): accepted with the last of the agreeing samples; the values latched are those of the first. -/
def execProbeEdge (nn : Fin 16) (rising : Bool) (s : State) : Res :=
  onBlock nn s fun d =>
    let n := d.fld PcCfg.FLT nn
    if d.bit PcStat.LEVEL nn = rising ∨ !inputReady d (d.b nn).prbEdge (n + 1) then d
    else
    let d := senseEdge (d.putB PcStat.LEVEL nn rising) nn 9 rising
    let d := d.onB nn fun b => { b with prbEdge := some d.clk }
    let edge := d.fld PcCfg.EDGE nn
    let taken : Bool := if rising then edge == 1 || edge == 3 else edge == 2 || edge == 3
    if !taken then d
    else
      let near : Bool := match (d.b nn).prbLast with
        | some t => decide (d.clk < t + nsClk d 10000)
        | none => false
      if near ∨ (d.bit PcCfg.ONCE nn ∧ !d.bit PcStat.ARMED nn) then d.flag PcStat.LOST_SEEN nn
      else
        let k : Fin 8 := ⟨d.fld PcCfg.DOM nn % 8, Nat.mod_lt _ (by omega)⟩
        let d := putWide d PcPosHi.V PcPosLo.V nn (ux 40 ((encOf d nn).posAt (d.clk - n))) true
        let d := putWide d PcPhHi.V PcPhLo.V nn (domPH40At d k (d.clk - n)) false
        let d := (d.flag PcStat.NEW nn).inc PcStat.LCNT nn
        let d := if d.bit PcCfg.ONCE nn then d.clr PcStat.ARMED nn else d
        let d := d.onB nn fun b => { b with prbLast := some d.clk }
        d.raise (bkSrc nn 20) (d.fld PcStat.LCNT nn)

/-- REARM carried out (R208). -/
def doRearm (d : Dev) (nn : Fin 16) : Dev := (d.clr PcCtl.REARM nn).flag PcStat.ARMED nn

/-- REARM written by a master. -/
def execRearm (h : Master) (nn : Fin 16) (w : Word) (s : State) : Res :=
  hostW s h (PcCtl.addr nn) false (unitBlk nn) (mRsv 0xFFFE w) fun d =>
    mirHost d (PcCtl.addr nn) (ownM 0 w) (some nn) false
      (fun d => doRearm d nn) (fun d => d)

/-- The level of a cell event input (R210): the index is one in QUAD only. -/
def senseLevel (d : Dev) (nn : Fin 16) (i : Fin 10) : Bool :=
  if i.val < 8 then
    let f : Fin 4 := ⟨i.val / 2 % 4, Nat.mod_lt _ (by omega)⟩
    d.bit (if i.val % 2 = 0 then FcStat.CMPHI else FcStat.CMPLO) (nn, f)
  else if i.val = 8 then d.fld EcCfg.MODE nn == 1 && d.bit EcStat.Z nn
  else d.bit PcStat.LEVEL nn

/-- The STUCK or CHATTER flag of a cell event input (R192, R206, R209). -/
def senseFlag (d : Dev) (nn : Fin 16) (i : Fin 10) (stuck : Bool) : Dev :=
  if i.val < 8 then
    let f : Fin 4 := ⟨i.val / 2 % 4, Nat.mod_lt _ (by omega)⟩
    d.flag (if stuck then FcStat.STUCK else FcStat.CHATTER) (nn, f)
  else if i.val = 8 then d.flag (if stuck then EcStat.STUCK else EcStat.CHATTER) nn
  else d.flag (if stuck then PcStat.STUCK else PcStat.CHATTER) nn

/-- SENSE_INTERVAL (R210), with the level the input has then; at another level no interval ends. The messages of the interval come first, then the judgement stuck or chattering. -/
def execSenseInterval (nn : Fin 16) (i : Fin 10) (lvl : Bool) (s : State) : Res :=
  onBlock nn s fun d =>
    let on := senseLevel d nn i
    if lvl ≠ on then d
    else
      let x := vget (d.b nn).sense i
      let src := senseSrc nn i
      -- messages: at most one assert and one withdraw
      let ask := (on || x.rises != 0) && !x.sent && !x.muted
      let d := if ask then d.sendMsg src true 0 else d
      let sent := x.sent || ask
      let off := sent && !on
      let d := if off then d.sendMsg src false 0 else d
      let sent := sent && on
      -- stuck
      let full := on && !x.sawLow
      let run := if full then min (x.actRun + 1) 255 else 0
      let stuckN := d.fld Sense.STUCKN nn
      let stuck := stuckN != 0 && run == stuckN && x.actRun < stuckN
      let d := if stuck then
          let d := if sent then d.sendMsg src false 0 else d
          (senseFlag d nn i true).raise (bkSrc nn 4) i.val
        else d
      let sent := sent && !stuck
      let quiet := !on && !x.sawHigh
      let muted := (x.muted || stuck) && !quiet
      -- chattering
      let chat := if x.rises > 1 then min (x.chatRun + 1) 255 else 0
      let chatN := d.fld Sense.CHATN nn
      let chatting := chatN != 0 && chat == chatN && x.chatRun < chatN
      let d := if chatting then (senseFlag d nn i false).raise (bkSrc nn 4) i.val else d
      let y : SenseIn := ⟨0, on, !on, on, run, chat, sent, muted⟩
      d.onB nn fun b => { b with sense := vset b.sense i y }

end Sys2Proof.Machine
end

