-- ==== Sys2Proof/Machine/Legs.lean ====
section
/-! DEFINITION. Leg cells (09_legs_and_quench.md): the carrier and its lock (R177, R178, R249 to R251), dead time and short pulses (R253 to R255), refresh (R256), pulse tables (R258 to R260), and entering and leaving PWM (R261). -/

namespace Sys2Proof.Machine

/-- The index of a leg cell. -/
abbrev LIx := Fin 16 × Fin 3

/-- A leg cell. -/
def legOf (d : Dev) (k : LIx) : Leg := vget (d.b k.1).leg k.2

/-- The device with a leg cell changed. -/
def onL (d : Dev) (k : LIx) (f : Leg → Leg) : Dev :=
  d.onB k.1 fun b => { b with leg := vmod b.leg k.2 f }

/-- The compare value of a duty in a period of L clk (R250). -/
def cmpOf (duty len : Nat) : Nat := (rdiv (Int.ofNat (duty * 8 * len)) (2 ^ 20)).toNat

/-- Whether a leg is the chopper of an HBC block (R257). -/
def isChopper (d : Dev) (k : LIx) : Bool := d.fld BkType.TYPE k.1 == 1 && k.2.val == 2

/-- m of R254: DTIME + MINP steps. -/
def legM (d : Dev) (k : LIx) : Nat := d.fld LcCfg.DTIME k + d.fld LcCfg.MINP k

/-- Whether the legs of a block may drive PWM now: not without their supplies (R53), nor in a takeover before 4 us after OWN_O rose (R421). -/
def mayDrive (d : Dev) (nn : Fin 16) : Bool :=
  gateSupply d nn && !d.twin.takeover && match d.twin.ownT with
    | some t => decide (t + nsClk d 4000 ≤ d.clk)
    | none => true

/-- Carrier periods per second of a locked carrier times 16: N x PDk.RATE (R178). -/
def lockRate (d : Dev) (nn : Fin 16) : Nat := d.fld Csync.N nn * domRate d (curHdr d nn).domain

/-- The place between lock points, in 2^-32 of a carrier period: N x fraction. -/
def lockPos (d : Dev) (nn : Fin 16) : Nat :=
  d.fld Csync.N nn * (domPhase d (curHdr d nn).domain % 2 ^ 32) % 2 ^ 32

/-- The carrier locks or unlocks at a period start (R178); the answer is the device and the length of the period that starts. -/
def carrierLen (d : Dev) (nn : Fin 16) : Dev × Nat :=
  let per := d.fld Pwm.PER nn
  if !d.bit Csync.EN nn then (d, per)
  else
    let r := lockRate d nn
    let flock := d.fld CsyncF.FLOCK nn
    let was := d.bit Csync.LOCKED nn
    let ok := domValid d (curHdr d nn).domain
    let now := if !ok || r < flock * 16 then false else if r ≥ flock * 17 then true else was
    let d := d.putB Csync.LOCKED nn now
    let d := if was && !now then phaseEvent (d.flag Csync.UNLOCK_SEEN nn) nn else d
    if !now then (d, per)
    else
      let per1 : Int := rdiv (Int.ofNat (clkHz d * 16)) r
      let x := lockPos d nn
      if !was then
        let next : Int := rdiv (Int.ofNat ((2 ^ 32 - x) * clkHz d * 16)) (r * 2 ^ 32)
        (d, (if 2 * next < Int.ofNat per then next + per1 else next).toNat)
      else
        let err := rdiv (sx 32 x * Int.ofNat (clkHz d * 16)) (r * 2 ^ 32)
        let d := d.putI Csync.ERR nn (clampI (-32767) 32767 err)
        let lim : Int × Int := if d.bit ChipMode.HEAT_ACT () then (600, 150000) else (800, 200000)
        (d, (clampI lim.1 lim.2 (per1 - err)).toNat)

/-- The widths a leg emits in CARRY (R255): accumulator, side (true GL), high width, low width. -/
def carryStep (m tot h l a : Nat) (side : Bool) : Nat × Bool × Nat × Nat :=
  let hShort := decide (0 < h ∧ h < m)
  let lShort := decide (0 < l ∧ l < m)
  if hShort || lShort then
    let sd := !hShort
    let w := if hShort then h else l
    let a0 := if side = sd then a else 0
    let a1 := a0 + w
    if a1 ≥ m then (0, sd, if sd then tot - a1 else a1, if sd then a1 else tot - a1)
    else (a1, sd, if sd then tot else 0, if sd then 0 else tot)
  else
    let w := if side then l else h
    if a > 0 ∧ w ≠ 0 ∧ w + a + m ≤ tot then
      (0, side, if side then tot - (w + a) else w + a, if side then w + a else tot - (w + a))
    else (a, side, h, l)

/-- The widths a leg emits in a period of tot steps (R254, R255, R273): accumulator, side, high width, low width. -/
def emitWidths (d : Dev) (k : LIx) (tot h : Nat) : Nat × Bool × Nat × Nat :=
  let l := tot - h
  let m := legM d k
  let a := d.fld LcAcc.A k
  let side := d.bit LcAcc.SIDE k
  let lCounts := !isChopper d k
  let hShort := decide (0 < h ∧ h < m)
  let lShort := lCounts && decide (0 < l ∧ l < m)
  if tot < 2 * m then (if h ≥ l then (a, side, tot, 0) else (a, side, 0, tot))
  else match d.fld LcCfg.SPMODE k with
    | 0 => if hShort then (a, side, 0, tot) else if lShort then (a, side, tot, 0) else (a, side, h, l)
    | 1 => if hShort then (a, side, m, tot - m) else if lShort then (a, side, tot - m, m) else (a, side, h, l)
    | _ => if lCounts then carryStep m tot h l a side
      else
        let r := carryStep m (tot + m) h (tot + m - h) a side
        (r.1, r.2.1, min r.2.2.1 tot, tot - min r.2.2.1 tot)

/-- The edges of a period (R253, R256), from the levels before it: falls at step 0 first. A rise of GL that the period before has delayed past its end comes at step tail where GL is to stay high. -/
def planEdges (dt tot h l : Nat) (ghHigh glHigh : Bool) (tail : Option Nat) : List LegEdge :=
  if h = 0 then
    if glHigh then [] else [⟨0, true, false⟩, ⟨tail.getD dt, false, true⟩]
  else if l = 0 then
    if ghHigh then [] else [⟨0, false, false⟩, ⟨dt, true, true⟩]
  else
    (if ghHigh then [] else ⟨0, false, false⟩ :: (if dt < h then [⟨dt, true, true⟩] else [])) ++
    ⟨h, true, false⟩ :: (if h + dt < tot then [⟨h + dt, false, true⟩] else [])

/-- Where in the next period a rise of GL comes that is delayed past the end of this one (R253). -/
def glTail (dt tot h l : Nat) : Option Nat := if 0 < h ∧ 0 < l ∧ tot ≤ h + dt then some (h + dt - tot) else none

/-- The edges of a period that carries a refresh (R256). -/
def refreshEdges (dt refw : Nat) : List LegEdge :=
  [⟨0, true, false⟩, ⟨dt, false, true⟩, ⟨dt + 8 * refw, false, false⟩, ⟨2 * dt + 8 * refw, true, true⟩]

/-- One edge takes place at an output. -/
def Leg.edge (g : Leg) (e : LegEdge) : Leg :=
  let v : Lvl := if e.rise then .high else .low
  if e.hi then { g with gh := v } else { g with gl := v }

/-- The edges of step 0 take place at once; the rest wait. -/
def Leg.start (g : Leg) (es : List LegEdge) : Leg :=
  let now := es.takeWhile fun e => e.step == 0
  { now.foldl Leg.edge g with edges := es.dropWhile fun e => e.step == 0 }

/-- An output that starts PWM is driven from that instant on (R261), and no TDA runs any more. -/
def Leg.driven (g : Leg) : Leg :=
  { g with gh := if g.gh = .hiz then .low else g.gh, gl := if g.gl = .hiz then .low else g.gl, tda := false }

/-- An UPDATE of a leg noted, with what stood before the first one of this clk (R251). -/
def Leg.noted (g : Leg) (now : Nat) : Leg :=
  match g.prior with
  | some (t, _, _) => if t = now then g else { g with prior := some (now, g.duty, g.upd) }
  | none => { g with prior := some (now, g.duty, g.upd) }

/-- The duty that a period start takes and whether an UPDATE has run, as they stood at the end of the clk before (R251). -/
def Leg.taken (g : Leg) (now : Nat) : Nat × Bool :=
  match g.prior with
  | some (t, w, u) => if t = now then (w, u) else (g.duty, g.upd)
  | none => (g.duty, g.upd)

/-- A leg takes its compare value and begins a period of PWM (R250 to R257). -/
def pwmStart (d : Dev) (k : LIx) (len : Nat) : Dev :=
  let tot := 8 * len
  let c := min (cmpOf ((legOf d k).taken d.clk).1 len) tot
  let d := d.setReg (LcCmp.addr k) (BitVec.ofNat 32 (c % 2 ^ 23))
  let m := legM d k
  let chop := isChopper d k
  let short := decide (0 < c ∧ c < m) || (!chop && decide (0 < tot - c ∧ tot - c < m))
  let d := if short then (d.flag LcStat.SHORT_SEEN k).inc LcStat.SHORTCNT k else d
  let r := emitWidths d k tot c
  let d := (d.put LcAcc.A k r.1).putB LcAcc.SIDE k r.2.1
  let h := r.2.2.1
  let l := r.2.2.2
  let full := decide (l = 0)
  let ren := d.bit LcCfg.REN k && !chop
  let refresh := ren && full && decide (d.fld LcAcc.FULLRUN k ≥ d.fld LcCfg.RN k)
  let run := if ren && full && !refresh then d.fld LcAcc.FULLRUN k + 1 else 0
  let d := d.put LcAcc.FULLRUN k run
  let d := if refresh then d.flag LcStat.REFR_SEEN k else d
  let dt := d.fld LcCfg.DTIME k
  let gl0 := s0Low d k.1 k.2
  onL d k fun g =>
    let g := g.driven
    let es := if refresh then refreshEdges dt (d.fld LcRefw.REFW k)
      else planEdges dt tot h l (g.gh == .high) (g.gl == .high) g.tail
    let g := { g with tail := if refresh || chop then none else glTail dt tot h l }
    if chop then
      let es := if h = 0 then [⟨0, true, false⟩] else es.filter fun e => e.hi
      { Leg.start g es with gl := gl0, on := true }
    else { Leg.start g es with on := true }

/-- A leg leaves RUN at its period start (R85, R261): S0 levels, accumulator and refresh count cleared. -/
def legStopped (d : Dev) (k : LIx) : Dev :=
  let d := legSafe d k.1 k.2
  let d := ((d.clr LcAcc.A k).clr LcAcc.SIDE k).clr LcAcc.FULLRUN k
  onL d k fun g => { g with stop := false, on := false }

/-- STOP has reached the last leg (R85): ARMED, nothing pending. -/
def stopDone (d : Dev) (nn : Fin 16) : Dev :=
  if ((d.b nn).leg.toList).any fun g => g.stop then d
  else if bkState d nn = 3 ∧ d.bit BkCtl.STOP nn then
    let d := blkDone (d.put BkStat.STATE nn 2) BkCtl.STOP nn
    d.putB BkStat.PENDING nn (d.bit BkCtl.DISARM nn || d.bit BkCtl.RESET nn)
  else d

/-- The takeover time recorded when a leg of a RUN block resumes (R429 RES). -/
def noteResume (d : Dev) (k : LIx) : Dev :=
  if k ∈ d.twin.resume then
    (d.put TwTko.RES () (min ((d.clk - d.twin.tkoT) * 10 / (clkHz d / 1000000)) 65535)).onTw
      fun t => { t with resume := t.resume.filter (· ≠ k) }
  else d

/-- CARRIER_PERIOD_START of a leg (R178, R249, R251, R256, R261, R421). -/
def periodStart (d : Dev) (k : LIx) : Dev :=
  let st := bkState d k.1
  if !(st == 2 || st == 3 || st == 4) then d
  else
    let d := if k.2.val = 0 then d.inc PwmStat.PERCNT k.1 else d
    let c := if k.2.val = 0 then carrierLen d k.1 else
      (d, if d.bit Csync.LOCKED k.1 then (d.b k.1).perLen else d.fld Pwm.PER k.1)
    let d := c.1.onB k.1 fun b => { b with perLen := c.2 }
    if (legOf d k).stop then stopDone (legStopped d k) k.1
    else if st ≠ 3 ∨ d.bit Qstat.LATCH k.1 ∨ d.bit PwmStat.PTMODE k.1 ∨ !((legOf d k).taken d.clk).2 ∨ !mayDrive d k.1 then d
    else
      noteResume (pwmStart d k c.2) k

/-- CARRIER_PERIOD_START. -/
def execCarrierPeriodStart (nn : Fin 16) (l : Fin 3) (s : State) : Res :=
  onBlock nn s fun d => periodStart d (nn, l)

/-- The next edge of a leg, when it is of the given kind (R253). -/
def nextEdge (d : Dev) (k : LIx) (rise : Bool) : Dev :=
  onL d k fun g =>
    match g.edges with
    | e :: es => if e.rise = rise then { g.edge e with edges := es } else g
    | [] => g

/-- COMPARE_EDGE (R253): the next falling edge of the leg. -/
def execCompareEdge (nn : Fin 16) (l : Fin 3) (s : State) : Res :=
  onBlock nn s fun d => nextEdge d (nn, l) false

/-- DEAD_TIME_EXPIRE (R253): the next rising edge of the leg. -/
def execDeadTimeExpire (nn : Fin 16) (l : Fin 3) (s : State) : Res :=
  onBlock nn s fun d => nextEdge d (nn, l) true

/-- The pulse-table rows of a block. -/
def ptRows (d : Dev) (nn : Fin 16) : List PulseRow := match secOf d nn with | some s => s.pulse | none => []

/-- The row in use (R259): of the 64 rows (R258) one that the section does not list holds zeros. -/
def ptRowOf (d : Dev) (nn : Fin 16) : Option PulseRow :=
  (d.b nn).ptRow.bind fun r => if r < 64 then some (((ptRows d nn)[r]?).getD ⟨0, 0, [], true⟩) else none

/-- A leg changes its request, wait steps from now (R253, R260): the paired output falls, the other rises DTIME later. -/
def setReq (d : Dev) (k : LIx) (v : Bool) (wait : Nat) : Dev :=
  let dt := d.fld LcCfg.DTIME k
  onL d k fun g =>
    if g.on && g.req == v then g
    else
      let n := g.driven.start [⟨wait, !v, false⟩, ⟨wait + dt, v, true⟩]
      { n with on := true, req := v, tail := none, stretch := none, edges := if wait = 0 then n.edges else g.edges ++ n.edges }

/-- The level of a leg at fraction 0 of a row (R258). -/
def rowLevel0 (r : PulseRow) (l : Fin 3) : Bool :=
  match (r.edges.filter fun e => e.leg == l.val).getLast? with
  | some e => e.level
  | none => r.init.getLsbD l.val

/-- PULSE_ROW_TAKE (R85, R259, R421), at a wrap of the fraction of the bank's domain: a leg takes nothing before the first UPDATE of its RUN, and legs on a carrier take a row only while it is locked. -/
def execPulseRowTake (nn : Fin 16) (s : State) : Res :=
  onBlock nn s fun d =>
    let b := d.b nn
    let pt := d.bit PwmStat.PTMODE nn
    if bkState d nn ≠ 3 ∨ b.disarm ∨ !(b.leg.toList.all fun g => g.upd) then d
    else if pt ∧ (b.leg.toList.any fun g => g.stop) then
      -- STOP of legs without a carrier (R85): at the wrap
      stopDone (forAll d fun d (l : Fin 3) => legStopped d (nn, l)) nn
    else if !mayDrive d nn then d
    else if pt ∧ b.ptLeave then
      let d := legsForget (d.clr PwmStat.PTMODE nn) nn
      d.onB nn fun b => { b with ptLeave := false, ptRow := none, leg := b.leg.map fun g => { g with edges := [], skip := false } }
    else match b.ptPend.or (if d.twin.resume.any fun k => k.1 == nn then b.ptRow else none) with
      | none => d
      | some r =>
        if !pt ∧ !d.bit Csync.LOCKED nn then d
        else
        let d := if pt then d else legsForget (d.flag PwmStat.PTMODE nn) nn
        let d := if pt then d else d.onB nn fun b => { b with leg := b.leg.map fun g => { g with on := false } }
        let d := (d.clr PwmStat.PTPEND nn).put PwmStat.PTROW nn r
        -- an edge of the row taken is not of a pulse that the row before has swallowed (R260)
        let d := d.onB nn fun b => { b with ptRow := some r, ptPend := none, ptNext := 0, leg := b.leg.map fun g => { g with skip := false } }
        match ptRowOf d nn with
        | none => d
        | some row => forAll d fun d (l : Fin 3) => noteResume (setReq d (nn, l) (rowLevel0 row l) 0) (nn, l)

/-- The predicted width in steps from an edge to the leg's next edge (R260). -/
def pulseWidth (d : Dev) (nn : Fin 16) (row : PulseRow) (i : Nat) (e : PulseEdge) : Nat :=
  let nxt := ((row.edges.drop (i + 1)).find? fun x => x.leg == e.leg).map (·.frac)
  let fst := ((row.edges.find? fun x => x.leg == e.leg).map (·.frac)).getD e.frac
  let dist := match nxt with | some f => f - e.frac | none => fst + 2 ^ 20 - e.frac
  let sg := (d.pd (curHdr d nn).domain).seg
  if sg.num = 0 then 2 ^ 40 else dist * 2 ^ 12 * 8 * sg.den / sg.num

/-- The step, counted from clk 0, at which the domain of a block reaches a fraction near the present one (R260). -/
def fracStep (d : Dev) (nn : Fin 16) (f : Nat) : Nat :=
  let k := (curHdr d nn).domain
  let sg := (d.pd k).seg
  let e := sx 32 ((f * 2 ^ 12 + 2 ^ 32 - domPhase d k % 2 ^ 32) % 2 ^ 32)
  if sg.num = 0 then 8 * d.clk else (Int.ofNat (8 * d.clk) + e * 8 * Int.ofNat sg.den / Int.ofNat sg.num).toNat

/-- PULSE_TABLE_EDGE (R260): the next edge of the row in use. Of two edges of a leg in one clk only the later acts; a pulse that would be too short is swallowed, or in STRETCH its end is put off to width m. -/
def execPulseTableEdge (nn : Fin 16) (s : State) : Res :=
  onBlock nn s fun d =>
    let b := d.b nn
    if bkState d nn ≠ 3 ∨ !d.bit PwmStat.PTMODE nn ∨ b.disarm ∨ !mayDrive d nn ∨ (d.twin.resume.any fun k => k.1 == nn) then d
    else match ptRowOf d nn with
      | none => d
      | some row =>
        match row.edges[b.ptNext]? with
        | none => d
        | some e =>
          let l : Fin 3 := ⟨e.leg % 3, Nat.mod_lt _ (by omega)⟩
          let k : LIx := (nn, l)
          let d := d.onB nn fun b => { b with ptNext := if b.ptNext + 1 < row.edges.length then b.ptNext + 1 else 0 }
          let g := legOf d k
          let w := pulseWidth d nn row b.ptNext e
          let at0 := fracStep d nn e.frac
          if !g.on then d
          else if g.skip then onL d k fun g => { g with skip := false }
          else if g.req = e.level ∨ at0 / 8 = (at0 + w) / 8 then d
          else
            let short := decide (w < legM d k)
            if short ∧ d.fld LcCfg.SPMODE k ≠ 1 then onL d k fun g => { g with skip := true }
            else
              let d := setReq d k e.level ((g.stretch.getD 0) - at0)
              if short then onL d k fun g => { g with stretch := some (at0 + legM d k) } else d

end Sys2Proof.Machine
end

