-- ==== Sys2Proof/Machine/Quench.lean ====
section
/-! DEFINITION. Quench inputs (R262 to R264), the causes active now (R270), and clearing the latch. -/

namespace Sys2Proof.Machine

/-- Whether a trip input of block nn is enabled (R262, R263). -/
def tripEn (d : Dev) (nn : Fin 16) (b : Bool) : Bool :=
  if d.pat.isNone then true
  else if !hasSec d nn then false
  else d.bit (if b then Qcfg.TBEN else Qcfg.TAEN) nn

/-- Whether a trip input is active high (R263). -/
def tripHigh (d : Dev) (nn : Fin 16) (b : Bool) : Bool :=
  d.pat.isSome && hasSec d nn && d.bit (if b then Qcfg.TBPOL else Qcfg.TAPOL) nn

/-- Whether QIN_N reaches block nn. -/
def qinEn (d : Dev) (nn : Fin 16) : Bool := d.pat.isNone || (d.fld Qroute.QIN ()).testBit nn.val

/-- Whether TWQ_I reaches block nn. -/
def twqEn (d : Dev) (nn : Fin 16) : Bool := d.pat.isNone || (d.fld Qroute.TWQ ()).testBit nn.val

/-- Whether a comparator of FCf that feeds the quench path of block nn is asserted. -/
def cmpAct (d : Dev) (nn : Fin 16) (f : Fin 4) : Bool :=
  hasSec d nn && ((d.bit FcStat.CMPHI (nn, f) && d.bit FcCfg.QHI (nn, f)) ||
    (d.bit FcStat.CMPLO (nn, f) && d.bit FcCfg.QLO (nn, f)))

/-- Whether a trip input stands at its active level past its filter (R262, R263): low, or high where the pattern's section says so. -/
def tripOn (d : Dev) (nn : Fin 16) (b : Bool) : Bool :=
  (if b then (d.b nn).ballB else (d.b nn).ballA) == tripHigh d nn b

/-- QCAUSE.ACT (R262, R270): the enabled cause inputs active now, with the causes that last one clk. -/
def actMask (d : Dev) (nn : Fin 16) : Nat :=
  let bits : List Bool :=
    [tripOn d nn false && tripEn d nn false, tripOn d nn true && tripEn d nn true,
     d.qinBall && qinEn d nn, d.twin.twqI && twqEn d nn,
     cmpAct d nn 0, cmpAct d nn 1, cmpAct d nn 2, cmpAct d nn 3,
     (causesNow d nn).testBit 8, (causesNow d nn).testBit 9,
     (List.finRange 12).any fun m => d.bit KcCfg.FACT (nn, m) && d.bit KcStat.FAULT (nn, m),
     (d.b nn).rewrite, d.clkLost, d.dbgHalt || d.jtagHalt, d.failT, (causesNow d nn).testBit 15]
  bits.reverse.foldl (fun a b => 2 * a + b.toNat) 0

/-- The inputs that a newly applied pattern enables act from that clk (R263). -/
def actSync (d : Dev) (nn : Fin 16) : Dev := quench d nn (actMask d nn &&& 255)

/-- A trip ball takes a level past its filter. -/
def tripBall (d : Dev) (nn : Fin 16) (b lvl : Bool) : Dev :=
  d.onB nn fun x => if b then { x with ballB := lvl } else { x with ballA := lvl }

/-- TRIP_INPUT (R262): the input is active past its filter. -/
def execTripInput (nn : Fin 16) (b : Bool) (s : State) : Res :=
  onDev s fun d =>
    let d := tripBall d nn b (tripHigh d nn b)
    if tripEn d nn b then quench d nn (if b then 2 else 1) else d

/-- QIN_INPUT (R262). -/
def execQinInput (s : State) : Res :=
  onDev s fun d => forAll { d with qinBall := true } fun d nn => if qinEn d nn then quench d nn 4 else d

/-- TWQ_INPUT (R262, R414). -/
def execTwqInput (s : State) : Res :=
  onDev s fun d =>
    forAll (d.onTw fun t => { t with twqI := true }) fun d nn => if twqEn d nn then quench d nn 8 else d

/-- DBG_HALT (R262). -/
def execDbgHalt (s : State) : Res :=
  onDev s fun d => forAll { d with dbgHalt := true } fun d nn => quench d nn (2 ^ 13)

/-- JTAG_HALT (R262). -/
def execJtagHalt (s : State) : Res :=
  onDev s fun d => forAll { d with jtagHalt := true, jtagTap := false } fun d nn => quench d nn (2 ^ 13)

/-- QUENCH_INPUT_RELEASE (R270): the input no longer counts in ACT. -/
def execQuenchInputRelease (i : QInput) (s : State) : Res :=
  onDev s fun d =>
    match i with
    | .tripA nn => tripBall d nn false (!tripHigh d nn false)
    | .tripB nn => tripBall d nn true (!tripHigh d nn true)
    | .qin => { d with qinBall := false }
    | .twq => d.onTw fun t => { t with twqI := false }
    | .dbg => { d with dbgHalt := false }
    | .jtag => { d with jtagHalt := false }

/-- TDA_EXPIRE (R266, R267): the outputs HIGH in the set in force turn on. -/
def execTdaExpire (nn : Fin 16) (l : Fin 3) (s : State) : Res :=
  onDev s fun d =>
    if (legOf d (nn, l)).tda ∧ d.bit Qstat.LATCH nn ∧ d.bit Qstat.SAFESET nn then
      onL d (nn, l) fun g => { g with tda := false, gl := .high }
    else d

/-- What stands before a clear, kept for a cause of the same clk (R270). -/
def clearNote (d : Dev) (nn : Fin 16) : Dev :=
  d.onB nn fun b => { b with qClr := some (d.clk, bkState d nn, d.bit Qstat.SAFESET nn, b.leg) }

/-- The latch clears (R270): every cause latch of the block, QUENCHED to ARMED, outputs at S0. -/
def latchClear (d : Dev) (nn : Fin 16) : Dev :=
  let d := ((clearNote d nn).clr Qstat.LATCH nn).clr Qstat.SAFESET nn
  let d := if bkState d nn = 4 then d.put BkStat.STATE nn 2 else d
  legsSafe d nn

/-- A CLEAR judged against the active causes (R270). -/
def tryClear (d : Dev) (nn : Fin 16) (act : Nat) : Dev :=
  if !d.bit Qstat.LATCH nn then d
  else if act ≠ 0 then d.flag Qstat.CLEAR_REFUSED nn
  else latchClear d nn

/-- The commands of one write to QCTL (R270, R272): bit 0 CLEAR, bit 1 QUENCH. A mirrored clear on the shadow does not look at TWQ (R415). -/
def qctlWrite (d : Dev) (nn : Fin 16) (cmds : Nat) (mir : Bool) : Dev :=
  let d := (d.clr Qctl.CLEAR nn).clr Qctl.QUENCH nn
  let soft := cmds.testBit 1
  let d := if soft then quench d nn (2 ^ 15) else d
  if !cmds.testBit 0 then d
  else
    let act := if mir && d.fld TwStat.ROLE () == 2 then actMask d nn &&& (65535 - 8) else actMask d nn
    tryClear d nn (if soft then act ||| 2 ^ 15 else act)

/-- A write to QCTL by a master (R409, R410): it acts on the quench path, which no reserved bit affects (R95). -/
def qctlHost (s : State) (h : Master) (nn : Fin 16) (w : Word) : Res :=
  hostCmd s h (Qctl.addr nn) false unitNone fun d =>
    let c := mOnes w % 4
    (unguard · (unitBlk nn) (Qctl.addr nn) (mRsv 0xFFFC w)) <| mirHost d (Qctl.addr nn) w (some nn) (c.testBit 0 && (c.testBit 1 || actMask d nn != 0) && d.bit Qstat.LATCH nn)
      (fun d => qctlWrite d nn c false) (fun d => d)

/-- SOFT_QUENCH (R262): QCTL.QUENCH. -/
def execSoftQuench (h : Master) (nn : Fin 16) (w : Word) (s : State) : Res := qctlHost s h nn (ownM 1 w)

/-- QUENCH_CLEAR (R270): QCTL.CLEAR. -/
def execQuenchClear (h : Master) (nn : Fin 16) (w : Word) (s : State) : Res := qctlHost s h nn (ownM 0 w)

end Sys2Proof.Machine
end

