-- ==== Sys2Proof/Machine/Runner.lean ====
section
/-! DEFINITION. The runner (05_pattern_and_runner.md, 06_phase_domains.md): executing slots (R131 to R135), cycle starts, missed cycles and overspeed (R167 to R169), swaps (R136 to R139, R176), stall, fallback and recovery (R171 to R175), the cycle watchdog (R380) and runner memory errors (R127, R383). -/

namespace Sys2Proof.Machine

/-- The bits [lo + len - 1 : lo] of a slot (R130). -/
def sf (w : DWord) (lo len : Nat) : Nat := (w.extractLsb' lo len).toNat

/-- POS, DROP and OP of a slot (R130). -/
def sPos (w : DWord) : Nat := sf w 44 20

/-- DROP of a slot. -/
def sDrop (w : DWord) : Bool := sf w 43 1 == 1

/-- OP of a slot. -/
def sOp (w : DWord) : Nat := sf w 40 3

/-- Cell m of the twelve. -/
def kcIx (m : Nat) : Fin 12 := ⟨m % 12, Nat.mod_lt _ (by omega)⟩

/-- The slots of the bank in use that are fetched (R125). -/
def curSlots (d : Dev) (nn : Fin 16) : List DWord := (slotsOf d nn (curBank d nn)).take (curHdr d nn).nslot

/-- PENDING follows the command bits of CTL (R87). -/
def setPending (d : Dev) (nn : Fin 16) : Dev :=
  d.putB BkStat.PENDING nn (fget 0 5 (d.reg (BkCtl.addr nn)) != 0)

/-- A pending host request ends: the SWAP command clears (R140, R153). -/
def dropHost (d : Dev) (nn : Fin 16) (ref : Bool) : Dev :=
  if (d.b nn).swHost.isNone then d
  else
    let d := (d.clr Rctl.SWAP nn).onB nn fun b => { b with swHost := none, swWait := false }
    if ref then d.flag Rstat.SWAP_REF nn else d

/-- A pending trigger request ends. -/
def dropTrig (d : Dev) (nn : Fin 16) (ref : Bool) : Dev :=
  if (d.b nn).swTrig.isNone then d
  else
    let d := d.onB nn fun b => { b with swTrig := none }
    if ref then d.flag Rstat.SWAP_REF nn else d

/-- HSP0 to HSP7 copied into the live set-points (R235). -/
def hspCopy (d : Dev) (nn : Fin 16) : Dev :=
  forAll d fun d (j : Fin 8) => d.onB nn fun b => { b with live := vset b.live j (BitVec.ofNat 20 (d.fld Hsp.V (nn, j))) }

/-- COMMIT takes effect (R235). -/
def hspCommit (d : Dev) (nn : Fin 16) : Dev := ((hspCopy d nn).cmdDone HspCtl.COMMIT nn).inc Kstat.COMMITS nn

/-- A COMMIT carried out in HELD (R235), as often as it stands (R10). -/
def hspHeld (d : Dev) (nn : Fin 16) : Dev :=
  let d := if d.bit HspCtl.COMMIT nn then hspCommit d nn else d
  if d.bit HspCtl.COMMIT nn then hspCommit d nn else d

/-- The block is HELD (R84): the runner stands at a cycle boundary, requests that are pending lapse, a COMMIT that waits is carried out (R235), no stall is declared. -/
def heldEntry (d : Dev) (nn : Fin 16) : Dev :=
  let d := dropTrig (dropHost d nn true) nn true
  let d := hspHeld d nn
  let d := ((d.clr Pstat.STALL nn).clr Pstat.HOLD nn).clr Pstat.OVS nn
  let d := ((d.clr Rstat.SLOT nn).clr Rstat.WAIT nn).put BkStat.STATE nn 1
  let d := d.onB nn fun b =>
    { b with inCycle := false, flushing := false, ovs := false, awaitBank := false, swFall := none, late := false,
             stalled := none, disarm := false, digIn := [],
             leg := b.leg.map fun g => { g with on := false, upd := false, stop := false } }
  setSwapPend d nn

/-- The DISARM command completes (R85). -/
def disarmDone (d : Dev) (nn : Fin 16) : Dev :=
  setPending (heldEntry (blkDone d BkCtl.DISARM nn) nn) nn

/-- A value of row r as another block of its region reads it (R24): in the clk of a publication, the value before it. -/
def rowVal (d : Dev) (r v : Fin 16) : Nat :=
  match (d.b r).rowOld with
  | some (c, old) => if c = d.clk then (vget old v).toNat else d.fld VbV.VAL (r, v)
  | none => d.fld VbV.VAL (r, v)

/-- The values of the board's row r as block nn reads them (R22 to R24): live in its own region, from its snapshot otherwise. -/
def boardVal (d : Dev) (nn r : Fin 16) (v : Fin 16) : Nat :=
  if r = nn then d.fld VbV.VAL (r, v)
  else if rgnOf r = rgnOf nn then rowVal d r v else (tget (fun _ => 0#20) (d.b nn).snap (16 * r.val + v.val)).toNat

/-- A value of the board as its row declares it (R20). -/
def boardNum (d : Dev) (r v : Fin 16) (x : Nat) : Int :=
  if (d.fld VbFmt.SIGNED r).testBit v.val then sx 20 x else Int.ofNat (x % 2 ^ 20)

/-- The trigger of the bank in use, evaluated when its last slot completes (R136). -/
def evalTrigger (d : Dev) (nn : Fin 16) : Dev :=
  let h := curHdr d nn
  let bk := curBank d nn
  if !h.trigOn || !d.bit Rctl.TRIG_EN nn || !(hdrOf d nn (!bk)).valid then d
  else
    let x := boardNum d h.trigBlk h.trigVal (boardVal d nn h.trigBlk h.trigVal)
    let hit : Bool := if bk then decide (sx 20 h.highThr.toNat < x) else decide (x < sx 20 h.lowThr.toNat)
    if hit then setSwapPend (d.onB nn fun b => { b with swTrig := some (!bk) }) nn else d

/-- The digest of a completed cycle (R416): the collected values, then STATE, BANK and QLATCH as one byte, then CYC. -/
def cycDigest (d : Dev) (nn : Fin 16) : Word :=
  let st := bkState d nn + 8 * (curBank d nn).toNat + 16 * (d.bit Qstat.LATCH nn).toNat
  crc32 ((d.b nn).digIn ++ [st] ++ leBytes 2 (d.fld BkStat.CYC nn))

/-- SUSPECT ends after a REPAIR once every RUN block has matched in 16 consecutive comparisons (R418). -/
def suspectClear (d : Dev) : Dev :=
  if d.twin.repair && (allBlk.all fun nn => bkState d nn != 3 || decide (16 ≤ vget d.twin.good nn)) then
    (d.clr TwStat.SUSPECT ()).onTw fun t => { t with repair := false }
  else d

/-- A comparison of block nn that matches (R417, R418). -/
def matched (d : Dev) (nn : Fin 16) : Dev :=
  suspectClear ((d.clr TwBk.MISRUN nn).onTw fun t => { t with good := vmod t.good nn fun n => min (n + 1) 16 })

/-- Whether the comparison of block nn is suspended on this unit (R416, R419): also on an owner whose partner has not joined yet and holds its blocks. -/
def noCompare (d : Dev) (nn : Fin 16) : Bool :=
  d.bit TwBk.NOCMP nn || decide (bkState d nn ≤ 1) || d.bit TwBk.RESYNC nn || (d.fld TwStat.ROLE () == 1 && !d.bit TwStat.SYNCED ())

/-- The digest of the previous cycle leaves at a cycle start (R416): the owner sends it and keeps it until the next; one for which no request has come by then has matched (assumption log 63). The shadow keeps its own for comparison. -/
def sendDigest (d : Dev) (nn : Fin 16) : Dev :=
  match (d.b nn).digPend with
  | none => d
  | some (c, x) =>
    let d := d.onB nn fun b => { b with digPend := none }
    match d.fld TwStat.ROLE () with
    | 1 =>
      let off := noCompare d nn
      let d := if !off && d.twin.digs.any (fun e => e.1 == nn) then matched d nn else d
      let own := if off then [] else [(nn, c, x)]
      twSend (d.onTw fun t => { t with digs := (t.digs.filter fun e => e.1 != nn) ++ own }) (.dig nn c x)
    | 2 => d.onTw fun t => { t with digs := t.digs ++ [(nn, c, x)] }
    | _ => d

/-- Whether an address lies in block nn (R32). -/
def inBlock (nn : Fin 16) (a : Nat) : Bool := blockBase nn ≤ a && a < blockBase nn + 0x40000

/-- A block snapshot of this unit (R417): its state and every register of its area that is not at its reset value. -/
def snapOf (d : Dev) (nn : Fin 16) : BlkSnap :=
  ⟨d.b nn, (d.regs.filter fun e => inBlock nn e.1).map fun e => (e.1 - blockBase nn, e.2), []⟩

/-- The snapshot that a request awaits, taken and sent at the block's first executed cycle start after it (R417 step 1); from here on the cycles are logged. -/
def rsyStart (d : Dev) (nn : Fin 16) : Dev :=
  if d.twin.rsyWait.contains nn then
    twSend (d.onTw fun t => { t with rsyWait := t.rsyWait.filter fun m => m != nn, logs := (t.logs.filter fun e => e.1 != nn) ++ [(nn, ⟨[], []⟩)] })
      (.rsy nn (snapOf d nn))
  else d

/-- The log of the running cycle of block nn changed (R417). -/
def onLog (d : Dev) (nn : Fin 16) (f : CycLog → CycLog) : Dev :=
  d.onTw fun t => { t with logs := t.logs.map fun e => if e.1 = nn then (nn, f e.2) else e }

/-- The values that a SAMPLE, CAPTURE or CONSUME slot has delivered to the entries es, noted for a resynchronisation (R417). -/
def logIn (d : Dev) (nn : Fin 16) (es : List Nat) : Dev :=
  let vs := es.map fun e => (e % 64, BitVec.ofNat 20 ((d.b nn).ofU e))
  onLog d nn fun c => { c with slots := c.slots ++ [(d.fld Rstat.SLOT nn, vs)] }

/-- A logged cycle has ended: it is sent with the block's row of the value board after it (R417). -/
def logCycle (d : Dev) (nn : Fin 16) : Dev :=
  match d.twin.logs.find? fun e => e.1 == nn with
  | none => d
  | some (_, c) =>
    let row := (List.finRange 16).map fun v => (v.val, BitVec.ofNat 20 (d.fld VbV.VAL (nn, v)))
    twSend (onLog d nn fun _ => ⟨[], []⟩) (.log nn { c with row := row })

/-- The last slot of a cycle has completed (R133, R137, R169, R380). -/
def cycleDone (d : Dev) (nn : Fin 16) : Dev :=
  let b := d.b nn
  let d := if b.late then d else d.clr Pstat.MISSRUN nn
  let d := d.clr Wdog.WDRUN nn
  let x := cycDigest d nn
  let c := d.fld BkStat.CYC nn
  let d := (d.clr Rstat.SLOT nn).flag Rstat.WAIT nn
  let d := d.onB nn fun b => { b with inCycle := false, flushing := false, digIn := [], digPend := some (c, x) }
  let d := logCycle (evalTrigger d nn) nn
  -- a DISARM whose cycle boundary passed while the slots ran on completes here (R85)
  if b.late && b.disarm then disarmDone d nn else d

/-- Whether the slot at the runner's pointer waits for its POS (R133): in a flush and after a missed cycle start nothing waits (R168, R172). -/
def slotWaits (d : Dev) (nn : Fin 16) : Bool :=
  let b := d.b nn
  let pos := match (curSlots d nn)[d.fld Rstat.SLOT nn]? with | some w => sPos w | none => 0
  !(b.late || b.flushing) && decide (blkPhase d nn (curBank d nn) < pos)

/-- Droppable slots that are skipped at the runner's pointer (R135, R167, R168), and the end of the table. -/
def skipDrops (d : Dev) (nn : Fin 16) : Dev :=
  let b := d.b nn
  let k := d.fld Rstat.SLOT nn
  let slots := curSlots d nn
  let n := if b.ovs || b.late then ((slots.drop k).takeWhile sDrop).length else 0
  let d := d.incBy Rcnt.DROP nn n
  if k + n < slots.length then
    let d := d.put Rstat.SLOT nn (k + n)
    d.putB Rstat.WAIT nn (slotWaits d nn)
  else cycleDone d nn

/-- The slot after the one executed becomes the one awaited. -/
def slotNext (d : Dev) (nn : Fin 16) : Dev :=
  let k := d.fld Rstat.SLOT nn + 1
  if k < (curSlots d nn).length then skipDrops (d.put Rstat.SLOT nn k) nn else cycleDone d nn

/-- The slot to execute now, if the runner executes one (R84, R127, R133, R175). -/
def slotNow (d : Dev) (nn : Fin 16) : Option DWord :=
  if runnerOn d nn && (d.b nn).inCycle && !d.bit Pstat.HOLD nn && !(d.b nn).resetting &&
      !slotWaits d nn then
    (curSlots d nn)[d.fld Rstat.SLOT nn]?
  else none

/-- A slot of opcode op executes, late clk after the block phase reached its POS (R131, R133). -/
def runSlotOf (op : Nat) (nn : Fin 16) (late : Nat) (s : State) (f : Dev → DWord → Dev) : Res :=
  onBlock nn s fun d =>
    match slotNow d nn with
    | none => d
    | some w =>
      if sOp w = op then
        let d := d.put Rlate.MAXLATE nn (min (max (d.fld Rlate.MAXLATE nn) late) (2 ^ 20 - 1))
        slotNext (f d w) nn
      else d

/-- Values into the block's digest (R416), three bytes each. -/
def digAdd (d : Dev) (nn : Fin 16) (vs : List Nat) : Dev :=
  d.onB nn fun b => { b with digIn := b.digIn ++ vs.flatMap (leBytes 3) }

/-- SAMPLE (R131, R184, R189). -/
def execSampleSlot (nn : Fin 16) (late : Nat) (s : State) : Res :=
  runSlotOf 0 nn late s fun d w =>
    let base := sf w 4 6
    let d := forAll d fun d (f : Fin 4) =>
      if (sf w 0 4).testBit f.val then
        d.onB nn fun b => b.putU (base + f.val) (d.fld FcRes.V (nn, f))
      else d
    logIn d nn (((List.range 4).filter fun f => (sf w 0 4).testBit f).map fun f => base + f)

/-- A change of a PLL cell's LOCK followed by the domains in its clk (R156). -/
def lockFollow (d d' : Dev) (nn : Fin 16) : Dev := if pllLocked d nn == pllLocked d' nn then d' else domRecheckAll d'

/-- RUN (R131, R212, R229): the kernel cell runs in its effective mode. -/
def execRunSlot (nn : Fin 16) (late : Nat) (s : State) : Res :=
  runSlotOf 1 nn late s fun d w => lockFollow d (kernelRun d (nn, kcIx (sf w 0 4))) nn

/-- KERNEL_ABORT (R213, R245, R382): the kernel of the RUN slot is aborted; outputs and state keep their values, and the cell faults. -/
def execKernelAbort (nn : Fin 16) (_parity : Bool) (late : Nat) (s : State) : Res :=
  runSlotOf 1 nn late s fun d w =>
    let k : KIx := (nn, kcIx (sf w 0 4))
    (cellFault (kPost (kPre d k) k) k).raise (bkSrc nn 21) 3

/-- The duties of an UPDATE with SRC 0 (R250, R251, R259). -/
def updateDuty (d : Dev) (nn : Fin 16) (mask base : Nat) : Dev :=
  let per := d.fld Pwm.PER nn
  forAll d fun d (l : Fin 3) =>
    if mask.testBit l.val then
      let u := (d.b nn).ofU (base + l.val)
      let c := cmpOf u per % 2 ^ 23
      let d := d.setReg (LcShadow.addr (nn, l)) (BitVec.ofNat 32 c)
      digAdd (onL d (nn, l) fun g => { g.noted d.clk with duty := u }) nn [c]
    else d

/-- The work of an UPDATE slot (R131, R250, R259). In RUN, the first UPDATE lets every leg start at its next period start (R85). -/
def updateDo (d : Dev) (nn : Fin 16) (w : DWord) : Dev :=
  let mask := sf w 0 3
  let base := sf w 3 6
  let d := if bkState d nn = 3 ∧ !(d.b nn).disarm then
      d.onB nn fun b => { b with leg := b.leg.map fun g => { g.noted d.clk with upd := true } } else d
  if sf w 9 1 = 0 then
    let d := updateDuty d nn mask base
    let d := d.clr PwmStat.PTPEND nn
    d.onB nn fun b => { b with ptPend := none, ptLeave := d.bit PwmStat.PTMODE nn }
  else
    let r := (d.b nn).ofU base
    let d := digAdd d nn [r]
    if r > 63 then d.flag PwmStat.PTERR nn
    else
      let d := d.flag PwmStat.PTPEND nn
      let d := if d.bit PwmStat.PTMODE nn then d else d.put PwmStat.PTROW nn r
      d.onB nn fun b => { b with ptPend := some r, ptLeave := false }

/-- UPDATE (R131). -/
def execUpdateSlot (nn : Fin 16) (late : Nat) (s : State) : Res :=
  runSlotOf 2 nn late s fun d w => updateDo d nn w

/-- One value written in a block's own row. -/
def vbWrite (d : Dev) (nn v : Fin 16) (x : Nat) : Dev := d.setReg (VbV.addr (nn, v)) (BitVec.ofNat 32 (x % 2 ^ 20))

/-- The row of a block kept as it stands before the first publication of this clk (R24). -/
def rowKeep (d : Dev) (nn : Fin 16) : Dev :=
  let now : Bool := match (d.b nn).rowOld with
    | some (c, _) => c == d.clk
    | none => false
  if now then d
  else d.onB nn fun b => { b with rowOld := some (d.clk, Vector.ofFn fun v => BitVec.ofNat 20 (d.fld VbV.VAL (nn, v))) }

/-- PUBLISH (R19, R21, R25). -/
def execPublishSlot (nn : Fin 16) (late : Nat) (s : State) : Res :=
  runSlotOf 3 nn late s fun d w =>
    let v := sf w 0 4
    let n := sf w 4 4 + 1
    let base := sf w 8 6
    let vals := (List.range n).map fun i => (d.b nn).ofU (base + i)
    let d := rowKeep d nn
    let d := forAll d fun d (j : Fin 16) =>
      if v ≤ j.val ∧ j.val < v + n then vbWrite d nn j ((vals[j.val - v]?).getD 0) else d
    digAdd (d.inc VbSeq.SEQ nn) nn vals

/-- VB_TRANSFER (R23): the row of block nn as it stands reaches region r. -/
def execVbTransfer (nn : Fin 16) (r : Fin 4) (s : State) : Res :=
  onChip s fun d =>
    forAll d fun d (v : Fin 16) =>
      d.onR r fun x => { x with vbArr := tset (fun _ => 0#20) x.vbArr (16 * nn.val + v.val) (BitVec.ofNat 20 (d.fld VbV.VAL (nn, v))) }

/-- CONSUME (R131, R21 to R24). -/
def execConsumeSlot (nn : Fin 16) (late : Nat) (s : State) : Res :=
  runSlotOf 4 nn late s fun d w =>
    let r : Fin 16 := ⟨sf w 0 4 % 16, Nat.mod_lt _ (by omega)⟩
    let v := sf w 4 4
    let dest := sf w 9 6
    let get := fun (i : Nat) => boardVal d nn r ⟨(v + i) % 16, Nat.mod_lt _ (by omega)⟩
    let d := d.onB nn fun b => b.putU dest (get 0)
    let d := if sf w 8 1 = 1 then d.onB nn fun b => b.putU (dest + 1) (get 1) else d
    logIn d nn (if sf w 8 1 = 1 then [dest, dest + 1] else [dest])

/-- The move of a STANDBY pair's windows as one falls due (R301): a the A port, b the B port. -/
def standbyMove (d : Dev) (a b : Fin 4) : Dev :=
  if d.bit BpPair.ONB a then
    if d.fld BpStat.STATE a = 3 ∧ d.fld BpStat.OPMODE a = 0 then (d.clr BpPair.ONB a).clr BpPair.ONB b else d
  else if !portCanSend d a && portCanSend d b then
    (((d.flag BpPair.ONB a).flag BpPair.ONB b).flag BpPair.MOVED_SEEN a).flag BpPair.MOVED_SEEN b
  else d

/-- Whether an instance that falls due on port p is the partner's to send (R301), and the device after a move. -/
def standbyAway (d : Dev) (p : Fin 4) : Bool × Dev :=
  if !d.bit BpPair.PAIRED p || !d.bit BpPair.MODE p then (false, d)
  else
    let q : Fin 4 := ⟨d.fld BpPair.PARTNER p % 4, Nat.mod_lt _ (by omega)⟩
    if d.bit BpPair.ROLE p then
      let d := standbyMove d q p
      (!d.bit BpPair.ONB p, d)
    else
      let d := standbyMove d p q
      (d.bit BpPair.ONB p && portCanSend d q, d)

/-- The frame of an open instance becomes due when FRESH stands (R331); which port of a STANDBY pair sends it is decided as it first falls due (R301). -/
def winDue (d : Dev) (p : Fin 4) (w : Fin 32) : Dev :=
  let x := winOf d p w
  if x.isOpen && !x.sent && !x.withdrawn && !x.away && d.bit WStat.FRESH (p, w) then
    let (away, d) := if x.wasDue then (false, d) else standbyAway d p
    if away then onW d p w fun x => { x with away := true }
    else (d.flag WStat.DUE (p, w)).onR p fun r => { r with win := vset r.win w { x with wasDue := true, couldSend := x.couldSend || portCanSend d p } }
  else d

/-- The partner of port p when p is port A of a pair (R299). -/
def pairB (d : Dev) (p : Fin 4) : Option (Fin 4) :=
  if d.bit BpPair.PAIRED p && !d.bit BpPair.ROLE p then some ⟨d.fld BpPair.PARTNER p % 4, Nat.mod_lt _ (by omega)⟩ else none

/-- The words of a packed window payload (R330). -/
def winPack (pack : Bool) (ents : List Nat) : Nat :=
  if pack then
    (List.range (ents.length / 2)).foldl (fun a j =>
      a + ((ents[2 * j]?).getD 0 * 2 ^ 20 + (ents[2 * j + 1]?).getD 0) * 2 ^ (40 * j)) 0
  else (List.range ents.length).foldl (fun a j => a + (ents[j]?).getD 0 * 2 ^ (20 * j)) 0

/-- FRESH set and OPENS counted in a window (R330). -/
def winFresh (d : Dev) (p : Fin 4) (w : Fin 32) : Dev :=
  winDue ((d.flag WStat.FRESH (p, w)).inc WStat.OPENS (p, w)) p w

/-- OPEN (R330); a pair has one schedule and one buffer, port A's (R299, R332). -/
def execOpenSlot (nn : Fin 16) (late : Nat) (s : State) : Res :=
  runSlotOf 5 nn late s fun d x =>
    let p := rgnOf nn
    let w : Fin 32 := ⟨sf x 0 5 % 32, Nat.mod_lt _ (by omega)⟩
    let n := sf x 11 5
    let ents := (List.range n).map fun i => (d.b nn).ofU (sf x 5 6 + i)
    let v := winPack (d.bit WCfg1.PACK (p, w)) ents
    let d := if n = 0 then d else forAll d fun d (i : Fin 16) =>
      d.setReg (WBuf.addr (p, w, i)) (BitVec.ofNat 32 (v / 2 ^ (32 * i.val)))
    let d := digAdd d nn ents
    let d := winFresh d p w
    match pairB d p with
    | some q => winFresh d q w
    | none => d

/-- CAPTURE (R131, R205, R207). -/
def execCaptureSlot (nn : Fin 16) (late : Nat) (s : State) : Res :=
  runSlotOf 6 nn late s fun d w =>
    let dest := sf w 5 6
    let d := match sf w 0 2 with
      | 0 =>
        let v := ux 40 (encOf d nn).pos
        (putWide d EcLhi.V EcLlo.V nn v true).onB nn fun b => b.putP dest (Int.ofNat v)
      | 1 => d.onB nn fun b => b.putP dest (Int.ofNat (domPH40 d (curHdr d nn).domain))
      | 2 => d.onB nn fun b => b.putP dest (Int.ofNat (domPH40 d ⟨sf w 2 3 % 8, Nat.mod_lt _ (by omega)⟩))
      | _ =>
        let ph := d.bit PcCfg.WHAT nn
        let hi := if ph then d.fld PcPhHi.V nn else d.fld PcPosHi.V nn
        let lo := if ph then d.fld PcPhLo.V nn else d.fld PcPosLo.V nn
        ((d.clr PcStat.NEW nn).flag PcStat.ARMED nn).onB nn fun b => b.putP dest (Int.ofNat (hi * 2 ^ 20 + lo))
    logIn d nn [dest / 2 * 2, dest / 2 * 2 + 1]

/-- The trace records of the last 16 clk, which may still wait for writing (R374). -/
def traceWaits (d : Dev) : Nat :=
  let now := d.clk - d.patT
  (d.trace.filter fun r =>
    let t := r.2.1.toNat + 2 ^ 32 * r.2.2.1.toNat
    decide (t ≤ now ∧ now < t + 16)).length

/-- Whether a record meets a full wait buffer (R374): with 64 records in the last 16 clk, how many of them still wait is open (assumption log 1). -/
def traceFull (d : Dev) : Bool × Dev :=
  if 64 ≤ traceWaits d then
    let (k, d) := d.free
    (Config.choice k, d)
  else (false, d)

/-- A trace record of clk taken (R374): TIME and TSEQ are added; a full wait buffer, or with WRAP 0 a full trace buffer, discards it; with WRAP 1 the oldest unread record goes. -/
def traceAdd (d : Dev) (clk : Nat) (w0 : Word) (cyc : Nat) : Dev :=
  let time := clk - d.patT
  let r : Word × Word × Word × Word :=
    (w0, BitVec.ofNat 32 time, BitVec.ofNat 32 (time / 2 ^ 32), BitVec.ofNat 32 (cyc % 65536 + 65536 * d.tseq))
  let (full, d) := traceFull { d with tseq := (d.tseq + 1) % 65536 }
  if full then d.inc TrcLost.LOST ()
  else if d.trace.length < 65536 then { d with trace := d.trace ++ [r] }
  else
    let d := d.inc TrcLost.LOST ()
    if d.bit TrcCfg.WRAP () then { d with trace := d.trace.drop 1 ++ [r] } else d

/-- MARK (R131, R374, R358). -/
def execMarkSlot (nn : Fin 16) (late : Nat) (s : State) : Res :=
  runSlotOf 7 nn late s fun d w =>
    let tag := sf w 0 16
    let d := if sf w 16 1 = 1 ∧ (d.fld TrcCfg.BLK ()).testBit nn.val then
        traceAdd d d.clk (BitVec.ofNat 32 (tag + nn.val * 2 ^ 16 + d.fld Rstat.SLOT nn * 2 ^ 21 + (curBank d nn).toNat * 2 ^ 29)) (d.fld BkStat.CYC nn)
      else d
    if sf w 17 1 = 1 then d.raise (bkSrc nn 3) tag else d

/-- WDLIM of the bank in use (R379). -/
def wdLimit (d : Dev) (nn : Fin 16) : Nat := 3 * (clkHz d / (curHdr d nn).rateMax) / 2

/-- A bank swap takes effect (R138): BANK, the presets of the new bank in ascending order, the count and the source; a host or trigger swap ends a stall (R176). -/
def doSwap (d : Dev) (nn : Fin 16) (src : Nat) (t : Bool) : Dev :=
  let old := curHdr d nn
  let d := d.putB BkStat.BANK nn t
  let new := curHdr d nn
  let d := forAll d fun d (m : Fin 12) => if new.preset.getLsbD m.val then kSwapPreset d (nn, m) else d
  let d := (d.inc Rcnt.SWAP nn).put Rstat.LAST_SRC nn src
  let d := forAll d fun d (l : Fin 3) => (d.clr LcAcc.A (nn, l)).clr LcAcc.SIDE (nn, l)
  let d := if src = 3 then d else (d.clr Pstat.STALL nn).clr Pstat.HOLD nn
  d.onB nn fun b =>
    { b with awaitBank := src == 3 || old.domain != new.domain || old.divn != new.divn || old.offs != new.offs,
             stalled := if src = 3 ∧ b.stalled = some (!t) then b.stalled else none,
             swFall := none, inCycle := false, flushing := false, digIn := [] }

/-- Whether the return to bank t may be taken at this cycle start (R173): its next cycle start is no more than one of its cycles at RATE_MAX away. -/
def returnNear (d : Dev) (nn : Fin 16) (t : Bool) : Bool :=
  decide ((2 ^ 20 - blkPhase d nn t) * 16 * (hdrOf d nn t).rateMax ≤ 2 ^ 20 * blkRate d nn t)

/-- A request judged at the cycle start where it would take effect (R136, R176): the bank already in use has no effect, an invalid domain discards it. -/
def reqOk (d : Dev) (nn : Fin 16) (t : Bool) : Bool := t != curBank d nn && domValid d (hdrOf d nn t).domain

/-- The host request at an executed cycle start: taken, discarded, or waiting one start more (R137). -/
def takeHost (d : Dev) (nn : Fin 16) (won : Bool) : Dev × Option Bool :=
  let b := d.b nn
  match b.swHost with
  | none => (d, none)
  | some t =>
    if b.swWait then (d.onB nn fun b => { b with swWait := false }, none)
    else if t = curBank d nn then (dropHost d nn false, none)
    else if won || !reqOk d nn t then (dropHost d nn true, none)
    else (dropHost d nn false, some t)

/-- The trigger request at an executed cycle start. -/
def takeTrig (d : Dev) (nn : Fin 16) (won : Bool) : Dev × Option Bool :=
  match (d.b nn).swTrig with
  | none => (d, none)
  | some t =>
    if t = curBank d nn then (dropTrig d nn false, none)
    else if won || !reqOk d nn t then (dropTrig d nn true, none)
    else (dropTrig d nn false, some t)

/-- The swap taken at an executed cycle start (R137): fallback return before host before trigger, one at most. A return of R173 counts as pending at a cycle start only once its bank's own cycle start is near; until then a host or trigger swap that is due is taken and withdraws it (R176) without SWAP_REF (DESIGN CHOICE, assumption log 97). -/
def takeSwap (d : Dev) (nn : Fin 16) : Dev :=
  let ret : Option Bool := match (d.b nn).swFall with
    | some t => if returnNear d nn t then some t else none
    | none => none
  let h := takeHost d nn ret.isSome
  let t := takeTrig h.1 nn (ret.isSome || h.2.isSome)
  let d := match ret, h.2, t.2 with
    | some x, _, _ => doSwap t.1 nn 3 x
    | none, some x, _ => doSwap t.1 nn 1 x
    | none, none, some x => doSwap t.1 nn 2 x
    | none, none, none => t.1
  setSwapPend d nn

/-- RUN takes effect (R85): each leg waits for the first UPDATE from now on. -/
def runTakes (d : Dev) (nn : Fin 16) : Dev :=
  if bkState d nn = 2 ∧ d.bit BkCtl.RUN nn then
    let d := setPending ((blkDone d BkCtl.RUN nn).put BkStat.STATE nn 3) nn
    d.onB nn fun b => { b with leg := b.leg.map fun g => { g with on := false, upd := false } }
  else d

/-- The mapped entries take the live set-points (R235). -/
def hspToEntries (d : Dev) (nn : Fin 16) : Dev :=
  let en := d.fld HspMap0.EN nn
  let ix := [d.fld HspMap0.E0 nn, d.fld HspMap0.E1 nn, d.fld HspMap0.E2 nn, d.fld HspMap0.E3 nn,
             d.fld HspMap1.E0 nn, d.fld HspMap1.E1 nn, d.fld HspMap1.E2 nn, d.fld HspMap1.E3 nn]
  forAll d fun d (j : Fin 8) =>
    if en.testBit j.val then d.onB nn fun b => b.putU ((ix[j.val]?).getD 0) (vget b.live j).toNat else d

/-- The first slots of an executed cycle (R129, R167, R23, R379). -/
def cycleBegin (d : Dev) (nn : Fin 16) : Dev :=
  let ovs := decide ((curHdr d nn).rateMax * 16 < blkRate d nn (curBank d nn))
  let d := d.putB Pstat.OVS nn ovs
  let d := if ovs then d.flag Pstat.OVS_SEEN nn else d
  let d := if d.bit HspCtl.COMMIT nn then hspCommit d nn else d
  let d := hspToEntries d nn
  let d := (d.put Wdog.WDLIM nn (wdLimit d nn)).inc BkStat.CYC nn
  let d := d.clr Rstat.SLOT nn
  let arr := (d.r (rgnOf nn)).vbArr
  let d := d.onB nn fun b => { b with inCycle := true, flushing := false, late := false, ovs := ovs, awaitBank := false, snap := arr, digIn := [] }
  skipDrops (onLog d nn fun _ => ⟨[], []⟩) nn

/-- An executed cycle start, the first of a new bank included (R139): the digest of the cycle before, the swap, then slot 0 unless a new bank waits for its own cycle start (R138, R139). -/
def cycleExec (d : Dev) (nn : Fin 16) : Dev :=
  let d := rsyStart (sendDigest d nn) nn
  let d := takeSwap (d.onB nn fun b => { b with awaitBank := false }) nn
  let d := runTakes d nn
  if (d.b nn).awaitBank then d else cycleBegin d nn

/-- A missed cycle start (R168, R169). -/
def cycleMiss (d : Dev) (nn : Fin 16) : Dev :=
  let run := d.fld Pstat.MISSRUN nn
  let d := ((d.inc Pstat.MISS nn).flag Pstat.MISS_SEEN nn).put Pstat.MISSRUN nn (min (run + 1) 2)
  let d := d.onB nn fun b => { b with late := true }
  let d := phaseEvent d nn
  let d := if run ≥ 2 then quench d nn (2 ^ 8) else d
  skipDrops (runTakes d nn) nn

/-- The bank in which ARM would start the runner, its LAST_SRC and the bank whose stall is then declared (R165). -/
def armBank (d : Dev) (nn : Fin 16) : Bool × Nat × Option Bool :=
  let r : Bool × Nat := match (d.b nn).hostStart with
    | some t => (t, 1)
    | none => (!(hdrOf d nn false).start && (hdrOf d nn true).valid && (hdrOf d nn true).start, 0)
  let c := r.1
  let h := hdrOf d nn c
  let bad := !domValid d h.domain
  let low := decide (blkRate d nn c < h.rateMin * 16)
  if (bad || low) && hasFallback d nn c && domValid d (hdrOf d nn (!c)).domain then (!c, 3, some c)
  else (c, r.2, none)

/-- ARM takes effect (R85, R165, R249): ARMED, compared again after a re-pour (R419), with the carrier's first period from here. -/
def armTakes (d : Dev) (nn : Fin 16) : Dev :=
  let d := setPending (((blkDone d BkCtl.ARM nn).clr TwBk.NOCMP nn).put BkStat.STATE nn 2) nn
  (d.onB nn fun b => { b with hostStart := none, perLen := d.fld Pwm.PER nn })

/-- CYCLE_START (R129) of the bank in use; it is also an apply instant of the block's mirrored writes (R409). -/
def execCycleStart (nn : Fin 16) (s : State) : Res :=
  onBlock nn s fun d =>
    let d := d.onB nn fun b => { b with cycT := some d.clk }
    let b := d.b nn
    let st := bkState d nn
    if b.resetting || b.repouring then d
    else if st = 1 then
      if d.bit BkCtl.ARM nn then cycleExec (armTakes d nn) nn else d
    else if !(st == 2 || st == 3 || st == 4) then d
    else if b.disarm && !b.inCycle then disarmDone d nn
    else if b.rewrite then d
    else if b.awaitBank && b.swFall.isSome && b.stalled == some (curBank d nn) then d
    else if d.bit Pstat.HOLD nn then (if b.disarm then disarmDone d nn else d)
    else if b.inCycle then cycleMiss d nn
    else cycleExec d nn

/-- STALL_DECLARED (R171, R173): the rate has stayed below RATE_MIN for STALL, or that of a bank to which a return is requested has fallen below. -/
def execStallDeclared (nn : Fin 16) (s : State) : Res :=
  onBlock nn s fun d => declareStall d nn

/-- FALLBACK_SWAP (R172, R176): the fallback request takes effect after the flush, or a host request that does not wait under HOLD. -/
def execFallbackSwap (nn : Fin 16) (s : State) : Res :=
  onBlock nn s fun d =>
    let b := d.b nn
    if !runnerOn d nn then d
    else if d.bit Pstat.HOLD nn then
      match b.swHost with
      | none => d
      | some t =>
        if reqOk d nn t then
          setSwapPend ((doSwap (dropHost d nn false) nn 1 t).onB nn fun b => { b with awaitBank := true }) nn
        else setSwapPend (dropHost d nn true) nn
    else if b.inCycle then d
    else match b.swFall with
      | some t =>
        if b.awaitBank && b.stalled == some (!t) && t != curBank d nn then
          setSwapPend (doSwap (dropTrig (dropHost d nn true) nn true) nn 3 t) nn
        else d
      | none => d

/-- STALL_RECOVERY (R173, R175): the hold ends, or the return to the stalled bank is requested. Under a hold it is the bank in use that recovers; where that is a fallback bank, the other bank's stall stands on. A stall ends with the block running in the fallback bank: before the fallback request has taken effect the rate of the bank in use is no recovery (DEDUCED, assumption log 101). -/
def execStallRecovery (nn : Fin 16) (s : State) : Res :=
  onBlock nn s fun d =>
    if !d.bit Pstat.STALL nn || (!d.bit Pstat.HOLD nn && (d.b nn).stalled == some (curBank d nn)) then d
    else
      let d := d.flag Pstat.RECOV_SEEN nn
      if d.bit Pstat.HOLD nn then
        let d := d.clr Pstat.HOLD nn
        if (d.b nn).stalled = some (!curBank d nn) then d
        else (d.clr Pstat.STALL nn).onB nn fun b => { b with stalled := none }
      else
        let d := d.clr Pstat.STALL nn
        match (d.b nn).stalled with
        | some t => setSwapPend (d.onB nn fun b => { b with swFall := some t }) nn
        | none => d

/-- WATCHDOG_TRIP (R380): the slot ends without effect, the pointer goes to slot 0; the third trip quenches. -/
def execWatchdogTrip (nn : Fin 16) (s : State) : Res :=
  onBlock nn s fun d =>
    if !(runnerOn d nn && (d.b nn).inCycle) then d
    else
      let run := d.fld Wdog.WDRUN nn
      let d := ((d.incSat Wdog.WDCNT nn).flag Wdog.WD_SEEN nn).put Wdog.WDRUN nn (min (run + 1) 2)
      let d := (d.incSat FltCnt.WDTRIP ()).raise (bkSrc nn 21) 1
      let d := (d.clr Rstat.SLOT nn).flag Rstat.WAIT nn
      let late := (d.b nn).late
      let d := d.onB nn fun b => { b with inCycle := false, flushing := false, digIn := [] }
      let d := if run ≥ 2 then (quench d nn (2 ^ 9)).raise (bkSrc nn 21) 2 else d
      if late && (d.b nn).disarm then disarmDone d nn else d

end Sys2Proof.Machine
end

