-- ==== Sys2Proof/Machine/Blocks.lean ====
section
/-! DEFINITION. Block commands (R84 to R88), filling a block from its section (R58, R145, R149, R190, R235), host swaps (R140, R141), set-points (R235), segments (R240) and kernel commands (R232). -/

namespace Sys2Proof.Machine

/-- Whether the chip takes block commands (R87): STAGE is HELD and the chip is not in the HELD condition of R451. -/
def chipTakes (d : Dev) : Bool := d.fld Start.STAGE () == 5 && !d.bit BootCause.HELD ()

/-- The command bits of BKnn.CTL that stand. -/
def pendCmds (d : Dev) (nn : Fin 16) : Nat := fget 0 5 (d.reg (BkCtl.addr nn))

/-- Why a single command is refused in this state (R85, R87): 0 accepted, 1 wrong state, 2 latch, 3 domain. -/
def stateReason (d : Dev) (nn : Fin 16) (cmd : Nat) : Nat :=
  let st := bkState d nn
  match cmd with
  | 1 => if st ≠ 1 then 1 else if d.bit Qstat.LATCH nn then 2
      else if !domValid d (hdrOf d nn (armBank d nn).1).domain then 3 else 0
  | 2 => if st ≠ 2 then 1 else 0
  | 4 => if st ≠ 3 then 1 else 0
  | 8 => if st = 2 ∨ st = 3 ∨ st = 4 then 0 else 1
  | _ => if st = 0 then 1 else 0

/-- Whether a write supersedes a pending ARM or RUN (R87). -/
def supersedes (cmds pend : Nat) : Bool := (cmds == 8 || cmds == 16) && (pend == 1 || pend == 2)

/-- The judgement of a write to BKnn.CTL that sets some bit (R87): none when it has no effect, 0 accepted, otherwise the reason. The commands that wait for their apply instant (R409) count as pending. Where several cases apply, the reason is that of the first line that holds (R87 gives no precedence: DESIGN CHOICE, assumption log 45). -/
def judgeCmds (d : Dev) (nn : Fin 16) (wait cmds : Nat) : Option Nat :=
  let pend := pendCmds d nn ||| wait % 32
  if cmds &&& pend ≠ 0 then (if cmds &&& pend = cmds then none else some 6)
  else if !chipTakes d then some 7
  else if !(cmds == 1 || cmds == 2 || cmds == 4 || cmds == 8 || cmds == 16) then some 6
  else if (d.b nn).repouring then some 4
  else if pend ≠ 0 then (if supersedes cmds pend then some 0 else some 4)
  else some (stateReason d nn cmds)

/-- A superseded ARM or RUN (R87): its bit clears with reason 5. -/
def supersede (d : Dev) (nn : Fin 16) : Dev :=
  let p := pendCmds d nn
  if p = 0 then d
  else blkRefuse ((((d.clr BkCtl.ARM nn).clr BkCtl.RUN nn).clr Pstat.STALL nn)) nn 5

/-- The outputs of a block at safe levels at once, unless a latched quench holds them (R85, R86). -/
def legsRelease (d : Dev) (nn : Fin 16) : Dev :=
  let d := legsForget d nn
  let d := d.onB nn fun b => { b with leg := b.leg.map fun g => { g with upd := false, on := false, stop := false } }
  if d.bit Qstat.LATCH nn then d else legsSafe d nn

/-- The bank in which ARM starts the runner is chosen (R165). -/
def armChoose (d : Dev) (nn : Fin 16) : Dev :=
  let a := armBank d nn
  let d := (d.putB BkStat.BANK nn a.1).put Rstat.LAST_SRC nn a.2.1
  (d.putB Pstat.STALL nn a.2.2.isSome).onB nn fun b => { b with stalled := a.2.2 }

/-- An accepted command begins (R85). -/
def startCmd (d : Dev) (nn : Fin 16) (cmd : Nat) : Dev :=
  let old := bkState d nn
  let d := d.setReg (BkCtl.addr nn) (d.reg (BkCtl.addr nn) ||| BitVec.ofNat 32 cmd)
  let d := match cmd with
    | 1 => armChoose d nn
    | 4 => d.onB nn fun b => { b with leg := b.leg.map fun g => { g with stop := true } }
    | 8 =>
      let d := legsRelease d nn
      if old = 1 ∨ d.bit Pstat.HOLD nn then disarmDone d nn else d.onB nn fun b => { b with disarm := true }
    | 16 => (chanBlockGone (legsRelease d nn) nn).onB nn fun b => { b with resetting := true, inCycle := false, disarm := false }
    | _ => d
  setPending d nn

/-- The commands of one write to BKnn.CTL carried out (R85, R87), while others wait for their apply instant. -/
def bkCtlWrite (d : Dev) (nn : Fin 16) (wait cmds : Nat) : Dev :=
  if cmds = 0 then d
  else match judgeCmds d nn wait cmds with
    | none => d.cmdAgain (BkCtl.addr nn) cmds
    | some 0 => startCmd (supersede d nn) nn cmds
    | some r => blkRefuse d nn r

/-- A write to BKnn.CTL by a master (R87, R88, R409); RESET alone is taken by a block of which nothing is guaranteed (R95). -/
def bkCtlHost (s : State) (h : Master) (nn : Fin 16) (w : Word) : Res :=
  let c := mOnes w % 32
  hostCmd s h (BkCtl.addr nn) false (if c = 16 then unitNone else unitBlk nn) fun d =>
    (unguard · (unitBlk nn) (BkCtl.addr nn) (mRsv 0xFFE0 w)) <| mirHost d (BkCtl.addr nn) w (some nn) (c == 0 || judgeCmds d nn (mirBits d (BkCtl.addr nn)) c != some 0)
      (fun d => bkCtlWrite d nn (mirBits d (BkCtl.addr nn)) c)
      (fun d => if c = 0 then d else blkRefuse d nn 7)

/-- BLOCK_ARM (R85). -/
def execBlockArm (h : Master) (nn : Fin 16) (w : Word) (s : State) : Res := bkCtlHost s h nn (ownM 0 w)

/-- BLOCK_RUN (R85). -/
def execBlockRun (h : Master) (nn : Fin 16) (w : Word) (s : State) : Res := bkCtlHost s h nn (ownM 1 w)

/-- BLOCK_STOP (R85). -/
def execBlockStop (h : Master) (nn : Fin 16) (w : Word) (s : State) : Res := bkCtlHost s h nn (ownM 2 w)

/-- BLOCK_DISARM (R85). -/
def execBlockDisarm (h : Master) (nn : Fin 16) (w : Word) (s : State) : Res := bkCtlHost s h nn (ownM 3 w)

/-- BLOCK_RESET (R85). -/
def execBlockReset (h : Master) (nn : Fin 16) (w : Word) (s : State) : Res := bkCtlHost s h nn (ownM 4 w)

/-- The bits of a register that a fill keeps (R11): software-owned and sticky bits and counts, but not what the pattern loads. -/
def keepMask (f : RegFam) : Nat :=
  f.fields.foldl (fun m x => match x.2.2 with
    | .cfg | .w1c | .cnt => m ||| ((2 ^ x.2.1 - 1) * 2 ^ x.1)
    | _ => m) 0 &&& (2 ^ 32 - 1 - f.pat)

/-- The registers of a block that a fill leaves to their own rules: BKnn.CTL, BKnn.STAT, the latch and its record. -/
def fillSkips (nn : Fin 16) (a : Nat) : Bool :=
  a == BkCtl.addr nn || a == BkStat.addr nn || a == Qstat.addr nn || a == Qcause.addr nn

/-- HSP0 to HSP7 of block nn. -/
def isHsp (nn : Fin 16) (a : Nat) : Bool := blockBase nn + 0x100 ≤ a && a < blockBase nn + 0x120

/-- The bits of a register that show accepted levels of inputs (R195) or the trimmed delay (R266), which a block RESET does not change. -/
def levelMask (f : RegFam) : Nat :=
  match f.id with
  | .ecStat => 0x1C
  | .pcStat => 4
  | .lcTda => 0xFFFFF
  | _ => 0

/-- The registers of a block before a fill: a block RESET returns them to their Reset values except the latch, the set-points and the levels of inputs (R71, R195, R235); a load or re-pour renews what the pattern and the hardware own, but leaves the ring of segments as it is, whose read counter only INTERP moves (R240). -/
def blockRegsClear (d : Dev) (nn : Fin 16) (reset : Bool) : Dev :=
  let mask := fun (f : RegFam) => levelMask f |||
    if reset then 0 else if f.id = .segRd then keepMask f ||| 63 else keepMask f
  let one := fun (e : Nat × Word) => (e.1, match regAt e.1 with
    | some (f, _) => e.2 &&& BitVec.ofNat 32 (mask f)
    | none => 0#32)
  let keep := fun (a : Nat) => !inBlock nn a || fillSkips nn a || (reset && isHsp nn a)
  let rs := (d.regs.map fun e => if keep e.1 then e else one e).filter fun e => e.2 != resetWord e.1
  { d with regs := rs }

/-- The block's state as a fill leaves it, but for what the section gives: only what belongs to its inputs goes on (R195, R210, R263), its row of the value board, and a rewrite of its runner memory with the second after it (R127, R383). The 10 us of R208 since the previous latch of the probe cell do not run across a fill (DESIGN CHOICE, assumption log 99). -/
def Blk.filled (b : Blk) : Blk :=
  { Blk.reset with
    live := b.live, ballA := b.ballA, ballB := b.ballB, rowOld := b.rowOld, prbEdge := b.prbEdge,
    rewrite := b.rewrite, rmSpan := b.rmSpan,
    enc := { Enc.reset with tA := b.enc.tA, tB := b.enc.tB, tZ := b.enc.tZ },
    sense := b.sense.map fun x => { SenseIn.reset with sent := x.sent } }

/-- Pattern words written to registers from a base (R121): only the bits that a pattern loads. -/
def loadRegs (d : Dev) (base lim : Nat) (keep : Nat → Bool) (rs : List (Nat × Word)) : Dev :=
  rs.foldl (fun d e =>
    let a := base + e.1
    if e.1 < lim && !keep a then
      match regAt a with
      | some (f, _) => if f.pat = 0 then d else
          d.setReg a ((d.reg a &&& BitVec.ofNat 32 (2 ^ 32 - 1 - f.pat)) ||| (e.2 &&& BitVec.ofNat 32 f.pat))
      | none => d
    else d) d

/-- The number of parameters that a kind uses (R216). -/
def paramCount (kind : Nat) : Nat :=
  match kind with
  | 1 => 7 | 2 => 9 | 3 => 6 | 4 => 8 | 5 => 3 | 6 => 2 | 7 => 2 | 8 => 2 | 9 => 2 | 10 => 9 | 11 => 4 | 12 => 2
  | 13 => 7 | 14 => 5 | 15 => 5 | _ => 0

/-- The CAL image's values of a block applied as a PLOAD (R232); a parameter that the cell's kind does not use is skipped and counted (R450). -/
def calApply (d : Dev) (nn : Fin 16) : Dev :=
  match d.cal with
  | none => d
  | some c => c.recs.foldl (fun d r =>
      let m : Fin 12 := ⟨r.cell % 12, Nat.mod_lt _ (by omega)⟩
      let i : Fin 16 := ⟨r.param % 16, Nat.mod_lt _ (by omega)⟩
      if r.blk ≠ nn.val then d
      else if r.cell < 12 ∧ r.param < paramCount (d.fld KcCfg.KIND (nn, m)) then
        (d.put KcPs.V (nn, m, i) r.val.toNat).put KcP.V (nn, m, i) r.val.toNat
      else d.inc UpdCalskip.SKIP ()) d

/-- The initial operand file of a section (R130). -/
def ofInit (s : BlockSec) : Vector (BitVec 20) 64 :=
  s.of0.foldl (fun v e => vset v ⟨e.1 % 64, Nat.mod_lt _ (by omega)⟩ e.2) (Vector.replicate 64 0)

/-- The cells, runner and kernel state of a block filled from its section, and the block HELD (R58, R85, R145, R149, R190, R199, R208, R235). -/
def fillBlock (d : Dev) (nn : Fin 16) (s : BlockSec) (reset : Bool) : Dev :=
  let d := blockRegsClear d nn reset
  let d := loadRegs d (blockBase nn) 0x40000 (fun a => fillSkips nn a || (reset && isHsp nn a)) s.regs
  let d := d.putB BkType.BANKB nn s.hdrB.valid
  let d := d.putB Rctl.TRIG_EN nn (s.hdrA.trigOn || (s.hdrB.valid && s.hdrB.trigOn))
  let d := if reset then d else (d.setReg (VbFmt.addr nn) (s.fmt &&& 0x00FFFFFF))
  let start := !s.hdrA.start && s.hdrB.valid && s.hdrB.start
  let d := if reset then d.setReg (BkStat.addr nn) 0 else d
  let d := (d.putB BkStat.BANK nn start).put BkStat.STATE nn 1
  let d := d.onB nn fun b => { b.filled with opf := ofInit s }
  let d := (encFill d nn).flag PcStat.ARMED nn
  let d := calApply d nn
  let d := forAll d fun d (m : Fin 12) => onK d (nn, m) fun _ => kernInit d (nn, m)
  let d := forAll d fun d (f : Fin 4) => fcFill d nn f
  let d := if reset then d else hspCopy d nn
  let d := if d.bit Qstat.LATCH nn then setSafe d nn true else legsSafe d nn
  domRecheckAll (setPending (actSync d nn) nn)

/-- The trimmed delay of a leg in ps, free within the bounds of R266. -/
def tdaOf (d : Dev) (k : LIx) (n : Nat) : Nat :=
  -- in sixths of a ps: a step is 1875 / 6 or 2500 / 6 ps
  let m := max (d.fld LcCfg.DTIME k * if d.bit ChipMode.HEAT_ACT () then 2500 else 1875) 60000
  let lo := (m + 5) / 6
  let hi := (5 * m + 48000) / 24
  lo + Config.tdaTrim n % (hi - lo + 1)

/-- The stewards trim TDA of every leg of a block (R266): at a load, at a re-pour and with a change of heat mode, which comes with a load. -/
def tdaTrims (d : Dev) (nn : Fin 16) : Dev :=
  forAll d fun d (l : Fin 3) =>
    let c := d.free
    c.2.put LcTda.PS (nn, l) (tdaOf d (nn, l) c.1)

/-- BLOCK_RESET_DONE (R85): the reload is complete and the block HELD; what it does is guaranteed again (R95). A RESET rewritten in this clk runs again (R10). -/
def execBlockResetDone (nn : Fin 16) (s : State) : Res :=
  onDev s fun d =>
    if !(d.b nn).resetting then d
    else match secOf d nn with
      | some sec =>
        let redo := d.cmdRedo BkCtl.RESET nn
        let d := ({ d with undef := d.undef.filter fun u => u != unitBlk nn }.cmdDone BkCtl.RESET nn).clr BkCtl.RESET nn
        let d := fillBlock d nn sec true
        if redo then startCmd d nn 16 else d
      | none => d

/-- A host SWAP judged and taken (R137, R140, R176): the target is read from RCTL; wait tells that an earlier SWAP waits for its apply instant (R409). One accepted in HELD while an ARM is pending chooses that ARM's bank again (assumption log 35). -/
def hostSwap (d : Dev) (nn : Fin 16) (wait : Bool) : Dev :=
  let t := d.bit Rctl.TARGET nn
  let st := bkState d nn
  let b := d.b nn
  if b.swHost.isSome || wait then d.flag Rstat.SWAP_REF nn
  else if 2 ≤ st ∧ t = curBank d nn then d.clr Rctl.SWAP nn
  else if st = 0 ∨ b.repouring ∨ !(hdrOf d nn t).valid ∨ (st ≠ 1 ∧ !domValid d (hdrOf d nn t).domain) then
    (d.clr Rctl.SWAP nn).flag Rstat.SWAP_REF nn
  else if st = 1 then
    let d := (d.clr Rctl.SWAP nn).onB nn fun b => { b with hostStart := some t }
    if d.bit BkCtl.ARM nn then armChoose d nn else d
  else setSwapPend ((d.flag Rctl.SWAP nn).onB nn fun b => { b with swHost := some t, swWait := !b.inCycle }) nn

/-- Whether a host SWAP would be refused now, or be without effect (R137, R140). -/
def swapRefused (d : Dev) (nn : Fin 16) (t : Bool) : Bool :=
  let st := bkState d nn
  let b := d.b nn
  b.swHost.isSome || (mirBits d (Rctl.addr nn)).testBit 0 || (2 ≤ st && t == curBank d nn) || st == 0 || b.repouring || !(hdrOf d nn t).valid ||
    (st != 1 && !domValid d (hdrOf d nn t).domain)

/-- A write to BKnn.RCTL carried out (R141, R153): TARGET and TRIG_EN, then the commands. -/
def rctlWrite (d : Dev) (nn : Fin 16) (wait : Bool) (w : Word) : Dev :=
  let c := mOnes w
  let d := mCfg (mCfg d Rctl.TARGET nn w) Rctl.TRIG_EN nn w
  let d := if c.testBit 3 then (d.clr Rlate.MAXLATE nn).clr Rctl.LCLR nn else d
  if c.testBit 0 then hostSwap d nn wait else d

/-- A write to BKnn.RCTL by a master (R140, R141, R409). -/
def rctlHost (s : State) (h : Master) (nn : Fin 16) (w : Word) : Res :=
  hostW s h (Rctl.addr nn) false (unitBlk nn) (mRsv 0xFFF0 w) fun d =>
    let c := mOnes w
    let t := (mCfg d Rctl.TARGET nn w).bit Rctl.TARGET nn
    mirHost d (Rctl.addr nn) w (some nn) (c.testBit 0 && !c.testBit 3 && swapRefused d nn t)
      (fun d => rctlWrite d nn ((mirBits d (Rctl.addr nn)).testBit 0) w) (fun d => d)

/-- SWAP (R140). -/
def execSwap (h : Master) (nn : Fin 16) (w : Word) (s : State) : Res := rctlHost s h nn (ownM 0 w)

/-- LCLR (R153). -/
def execLclr (h : Master) (nn : Fin 16) (w : Word) (s : State) : Res := rctlHost s h nn (ownM 3 w)

/-- A COMMIT carried out (R235): at the next cycle start, or at once in HELD. -/
def hspCtlWrite (d : Dev) (nn : Fin 16) (c : Nat) : Dev :=
  if !c.testBit 0 then d
  else
    let d := (d.cmdAgain (HspCtl.addr nn) 1).flag HspCtl.COMMIT nn
    let st := bkState d nn
    if st = 2 ∨ st = 3 ∨ st = 4 then d else hspHeld d nn

/-- HSP_COMMIT (R235). -/
def execHspCommit (h : Master) (nn : Fin 16) (w : Word) (s : State) : Res :=
  hostW s h (HspCtl.addr nn) false (unitBlk nn) (mRsv 0xFFFE w) fun d =>
    mirHost d (HspCtl.addr nn) (ownM 0 w) (some nn) false
      (fun d => hspCtlWrite d nn 1) (fun d => d)

/-- A write to BKnn.SEGWR carried out (R240). -/
def segwrDo (d : Dev) (nn : Fin 16) (v : Nat) : Dev :=
  let rd := d.fld SegRd.RD nn
  let used := (v + 64 - rd) % 64
  if used > 32 ∨ used < segFill d nn then d.flag SegStat.BADWR nn else d.put SegWr.WR nn v

/-- SEGWR_WRITE (R240). -/
def execSegwrWrite (h : Master) (nn : Fin 16) (w : Word) (s : State) : Res :=
  hostW s h (SegWr.addr nn) false (unitBlk nn) (wRsv 0xFFFFFFC0 w) fun d =>
    mirHost d (SegWr.addr nn) w (some nn) false (fun d => segwrDo d nn (w.toNat % 64)) (fun d => d)

/-- A write to a segment word carried out (R240). -/
def segmentDo (d : Dev) (nn : Fin 16) (g : Fin 32) (i : Fin 8) (w : Word) : Dev :=
  let rd := d.fld SegRd.RD nn
  if (g.val + 64 - rd) % 32 < segFill d nn then d.flag SegStat.OVW nn else d.put Seg.V (nn, g, i) w.toNat

/-- SEGMENT_WRITE (R240). -/
def execSegmentWrite (h : Master) (nn : Fin 16) (g : Fin 32) (i : Fin 8) (w : Word) (s : State) : Res :=
  hostCmd s h (Seg.addr (nn, g, i)) false (unitBlk nn) fun d =>
    mirHost d (Seg.addr (nn, g, i)) w (some nn) false (fun d => segmentDo d nn g i w) (fun d => d)

/-- Whether a write to KCm.CTL has no command that is accepted (R232). -/
def kCtlRefused (d : Dev) (k : KIx) (cmds : Nat) : Bool :=
  let bad := kCtlBad d k cmds
  cmds &&& (63 - (bad.1 ||| bad.2)) == 0

/-- A write to KCm.CTL by a master (R232, R409). -/
def kCtlHost (s : State) (h : Master) (k : KIx) (w : Word) : Res :=
  hostW s h (KcCtl.addr k) false (unitBlk k.1) (mRsv 0xFFC0 w) fun d =>
    let c := mOnes w % 64
    mirHost d (KcCtl.addr k) w (some k.1) (kCtlRefused d k c)
      (fun d => kCtlWrite d k c false)
      (fun d => if d.fld TwStat.ROLE () = 2 then kCtlWrite d k c true else d)

/-- GOMAN (R232). -/
def execGoman (h : Master) (nn : Fin 16) (m : Fin 12) (w : Word) (s : State) : Res := kCtlHost s h (nn, m) (ownM 0 w)

/-- GOAUTO (R232). -/
def execGoauto (h : Master) (nn : Fin 16) (m : Fin 12) (w : Word) (s : State) : Res := kCtlHost s h (nn, m) (ownM 1 w)

/-- PLOAD (R232). -/
def execPload (h : Master) (nn : Fin 16) (m : Fin 12) (w : Word) (s : State) : Res := kCtlHost s h (nn, m) (ownM 2 w)

/-- PRESET (R232). -/
def execPreset (h : Master) (nn : Fin 16) (m : Fin 12) (w : Word) (s : State) : Res := kCtlHost s h (nn, m) (ownM 3 w)

/-- SNAP (R232). -/
def execSnap (h : Master) (nn : Fin 16) (m : Fin 12) (w : Word) (s : State) : Res := kCtlHost s h (nn, m) (ownM 4 w)

/-- FCLR (R246). -/
def execFclr (h : Master) (nn : Fin 16) (m : Fin 12) (w : Word) (s : State) : Res := kCtlHost s h (nn, m) (ownM 5 w)

end Sys2Proof.Machine
end

