-- ==== Sys2Proof/Machine/Window.lean ====
section
/-! DEFINITION. Images and billets as bytes: the header of R431, the directory of R120, the CAL records, the bank record of R434, the manifest and the difference stream of R438 and the billet of R437, read from flash, from the host window (R146, R436, R439) or from what Ladle has collected. -/

namespace Sys2Proof.Machine

/-- A byte of the host window as a number. -/
def hwByteNat (d : Dev) (o : Nat) : Nat := (hwByte d o).toNat

/-- n bytes from an offset of a string of bytes g. -/
def bytesAt (g : Nat → Nat) (o n : Nat) : List Nat := (List.range n).map fun i => g (o + i)

/-- The little-endian number in n bytes (R431). -/
def numAt (g : Nat → Nat) (o n : Nat) : Nat := leVal (bytesAt g o n)

/-- The header at the beginning of an image of which no more than lim bytes are there (R431); a body that goes beyond them has no digest. DIGEST holds the bytes of the hash in their order (assumption log 106). -/
def hdrAt (g : Nat → Nat) (lim : Nat) : ImgHdr :=
  let len := numAt g 0x1C 4
  let fits := decide (256 + len ≤ lim)
  let body := bytesAt g 256 (if fits then len else 0)
  ⟨BitVec.ofNat 32 (numAt g 0 4), g 4, g 5, g 6, g 7, BitVec.ofNat 16 (numAt g 8 2), numAt g 0xA 2, numAt g 0xC 4,
    numAt g 0x10 4, numAt g 0x14 4, numAt g 0x18 2, numAt g 0x1A 2, len, BitVec.ofNat 64 (numAt g 0x20 8), g 0x28,
    BitVec.ofNat 32 (numAt g 0x2C 4), BitVec.ofNat 384 (numAt g 0x30 48), crc32 (bytesAt g 0 0xFC) == BitVec.ofNat 32 (numAt g 0xFC 4),
    Config.sigVerifies (bytesAt g 0 0xE0), fits && sha384 body == bytesAt g 0x30 48, fits && Config.pagesOpen body⟩

/-- The directory entry at an offset of an image (R120), with the bytes of the section that it names and what they say. -/
def entryAt (g : Nat → Nat) (lim o : Nat) : DirEntry :=
  let typ := g o
  let off := numAt g (o + 4) 4
  let len := numAt g (o + 8) 4
  let body := bytesAt g off (if off + len ≤ lim then len else 0)
  ⟨typ, g (o + 1), numAt g (o + 2) 2, off, len, BitVec.ofNat 32 (numAt g (o + 12) 4), body.map (BitVec.ofNat 8),
    (Config.secBody typ (g (o + 1)) body).getD .none⟩

/-- Whether the CRC of an entry is that of its section body (R120). -/
def entryCrcOk (e : DirEntry) : Bool := crc32 (e.bytes.map (·.toNat)) == e.crc

/-- The PAT image that a string of bytes spells (R120, R431). -/
def patAt (g : Nat → Nat) (lim : Nat) : PatImage :=
  let hdr := hdrAt g lim
  let count := numAt g 0x100 4
  ⟨hdr, 256 + hdr.bodyLen, count, (List.range (min count 32)).map fun i => entryAt g lim (0x110 + 16 * i)⟩

/-- A byte of an image in flash. -/
def imgByte (x : FlashImg) (o : Nat) : Nat := ((x.bytes[o]?).getD 0).toNat

/-- The header of an image in flash (R431). -/
def imgHdr (x : FlashImg) : ImgHdr :=
  { hdrAt (imgByte x) x.bytes.length with sigOk := x.sigOk, pagesOk := x.pagesOk }

/-- An SFW image in flash. -/
def imgSfw (x : FlashImg) : SfwImage := ⟨imgHdr x⟩

/-- A PAT image in flash. -/
def imgPat (x : FlashImg) : PatImage :=
  let p := patAt (imgByte x) x.bytes.length
  { p with hdr := imgHdr x, dir := p.dir.zipIdx.map fun (e, i) => { e with body := (x.secs[i]?).getD .none } }

/-- A CAL image in flash: the records of 8 bytes that its body has room for (R431). -/
def imgCal (x : FlashImg) : CalImage :=
  let g := imgByte x
  let h := imgHdr x
  ⟨h, (List.range (h.bodyLen / 8)).map fun i =>
    ⟨g (256 + 8 * i), g (257 + 8 * i), g (258 + 8 * i), BitVec.ofNat 32 (numAt g (260 + 8 * i) 4)⟩⟩

/-- A string of bytes written to flash as an image: what the keys and the section layout make of it is open (assumption log 11). -/
def flashOf (bytes : List Byte) : FlashImg :=
  let x : FlashImg := ⟨bytes, false, false, []⟩
  let h := hdrAt (imgByte x) bytes.length
  ⟨bytes, h.sigOk, h.pagesOk, (patAt (imgByte x) bytes.length).dir.map (·.body)⟩

/-- An image with n bytes from offset o replaced by a little-endian number. -/
def patchAt (x : List Byte) (o n v : Nat) : List Byte :=
  x.take o ++ (leBytes n v).map (BitVec.ofNat 8) ++ x.drop (o + n)

/-- A CAL image with another body in another format (R450): BODYLEN, CALFMT, DIGEST and HCRC follow. -/
def calOf (old : List Byte) (fmt : Nat) (body : List Byte) : List Byte :=
  let h := patchAt (patchAt (old.take 256) 0x18 2 fmt) 0x1C 4 body.length
  let h := h.take 0x30 ++ (sha384 (body.map (·.toNat))).map (BitVec.ofNat 8) ++ h.drop 0x60
  patchAt h 0xFC 4 (crc32 ((h.take 0xFC).map (·.toNat))).toNat ++ body

/-- MAGIC of a bank record (R434). -/
def recMagic : Word := 0x4B4E4142

/-- The CRC of a bank record (R434): CRC-32 over words 0 to 2. -/
def recCrc (magic seq flags : Word) : Word := crc32 ([magic, seq, flags].flatMap fun w => leBytes 4 w.toNat)

/-- What a copy of the bank record says (R434), and whether it is valid. -/
def recRead (c : RecCopy) : BankRec :=
  ⟨c.flags.getLsbD 0, c.flags.getLsbD 1, fget 2 2 c.flags, c.flags.getLsbD 4, c.seq.toNat,
    c.magic == recMagic && c.crc == recCrc c.magic c.seq c.flags⟩

/-- The copy that holds a record (R434): SEQ in its 32 bits. -/
def recCopyOf (r : BankRec) : RecCopy :=
  let s := BitVec.ofNat 32 r.seq
  let f := BitVec.ofNat 32 (r.active.toNat + 2 * r.trial.toNat + 4 * (r.tries % 4) + 16 * r.confirmed.toNat)
  ⟨recMagic, s, f, recCrc recMagic s f⟩

/-- The entry for the i-th image of a manifest (R438), which is of type typ by its place. -/
def manEntryAt (m : List Nat) (typ i : Nat) : ManEntry :=
  let g := fun (o : Nat) => (m[16 + 304 * i + o]?).getD 0
  ⟨typ, BitVec.ofNat 384 (numAt g 0 48), hdrAt (fun o => g (48 + o)) 256⟩

/-- The manifest in the payload of billet 0 (R438): an entry for each image that SET names, in their order, and whether its head agrees. -/
def manifestAt (m : List Nat) : List ManEntry × Bool :=
  let g := fun (o : Nat) => (m[o]?).getD 0
  let ts := ([1, 2, 3] : List Nat).filter fun t => (g 1).testBit (t - 1)
  (ts.zipIdx.map fun (t, i) => manEntryAt m t i,
    decide (1 ≤ g 0 ∧ 16 + 304 * g 0 ≤ m.length) && ts.length == g 0 && decide (g 1 < 8) && (bytesAt g 2 14).all (· == 0))

/-- A difference stream applied to an installed image (R438, R443): the bytes built, whether its END has come, and what follows it. A COPY beyond the installed image ends it without END. -/
def buildImg : Nat → List Byte → List Byte → List Byte → List Byte × Bool × List Byte
  | 0, _, t, acc => (acc, false, t)
  | _ + 1, _, [], acc => (acc, false, [])
  | k + 1, src, op :: t, acc =>
    let num := fun (o : Nat) => leVal (((t.drop o).take 4).map (·.toNat))
    match op.toNat with
    | 1 =>
      if t.length < 8 ∨ src.length < num 0 + num 4 then (acc, false, t)
      else buildImg k src (t.drop 8) (acc ++ (src.drop (num 0)).take (num 4))
    | 2 =>
      if t.length < 4 + num 0 then (acc, false, t)
      else buildImg k src (t.drop (4 + num 0)) (acc ++ (t.drop 4).take (num 0))
    | 3 => (acc, true, t)
    | _ => (acc, false, t)

/-- The billet that a run of bytes spells (R437). -/
def billetAt (x : List Nat) : Billet :=
  let g := fun (o : Nat) => (x[o]?).getD 0
  let len := numAt g 0xC 2
  let pay := (x.drop 32).take len
  let crc := crc32 (bytesAt g 0 0x1C ++ pay) == BitVec.ofNat 32 (numAt g 0x1C 4)
  let index := numAt g 4 4
  let man := manifestAt pay
  ⟨BitVec.ofNat 32 (numAt g 0 4), index, numAt g 8 4, len, g 0xE, crc && pay.length == len, (bytesAt g 0xF 13).all (· == 0),
    pay.map (BitVec.ofNat 8), if index = 0 then some man.1 else none, man.2⟩

end Sys2Proof.Machine
end

