-- ==== Sys2Proof/Machine/Images.lean ====
section
/-! DEFINITION. Images: the header checks of R432, and the checks that ST0 makes before a load or re-pour (R143, R161, R252, R264, R273, R285, R323, R329), in their order. -/

namespace Sys2Proof.Machine

/-- The CLK of a load (R35, R36): CHIP.MODE.HEAT, which equals HEAT_ACT while no change is pending. -/
def loadClk (d : Dev) : Nat := d.fld ChipMode.HEAT ()

/-- CLK of a load in Hz. -/
def loadHz (d : Dev) : Nat := if loadClk d = 1 then 300000000 else 400000000

/-- The member code of this device (R34). -/
def memberCode : Nat := 0x10

/-- The first failing check of a list, 0 when all pass. -/
def firstFail (cs : List (Bool × Nat)) : Nat :=
  match cs.find? fun c => !c.1 with
  | some (_, code) => code
  | none => 0

/-- The checks of R432 on the header of an image that is expected to be of the given type and would run with firmware sfw: 0, or the CODE of the first that fails. Checks 7 and 8 are over the body; sess says that it is a target of a session of a paired unit. -/
def hdrCheck (d : Dev) (typ : Nat) (h : ImgHdr) (sfw : Option ImgHdr) (body sess : Bool) : Nat :=
  firstFail [
    (h.magic == 0x52484F43#32 && h.hfmt == 1 && h.hcrcOk, 1),
    (h.typ == typ, 2),
    (h.member == memberCode, 3),
    (h.hwRevs.getLsbD Config.hwRev.toNat, 4),
    (if typ = 1 then h.bind == 0 else (h.bind == 0 || (h.bind == Config.uid && !sess)), 5),
    (typ == 3 || (h.sigOk && (typ == 1 || (h.keyIx < 4 && d.keys.getLsbD h.keyIx))), 6),
    (!body || h.digestOk, 7),
    (!body || typ != 1 || h.pagesOk, 8),
    (typ != 2 || h.clkRec == loadClk d, 9),
    (typ != 2 || (match sfw with | some f => decide (f.emin ≤ h.epoch ∧ h.epoch ≤ f.emax) | none => true), 10),
    (typ != 3 || (match sfw with | some f => decide (f.calMin ≤ h.calFmt ∧ h.calFmt ≤ f.calFmt) | none => true), 11)]

/-- The header of the firmware that runs. -/
def sfwHdr (d : Dev) : Option ImgHdr := d.sfw.map (·.hdr)

/-- The BLOCK sections of a pattern by block. -/
def patBlks (p : PatImage) : List (Fin 16 × BlockSec) :=
  allBlk.filterMap fun nn => (PatImage.sec p nn).map fun s => (nn, s)

/-- The words of the CHIP section (R121), by address in chip space. -/
def patChip (p : PatImage) : List (Nat × Word) :=
  (p.dir.findSome? fun e => match e.body with | .chip r => some r | _ => none).getD []

/-- The words of the REGION section of region n, by region offset. -/
def patRgn (p : PatImage) (n : Fin 4) : Option (List (Nat × Word)) :=
  p.dir.findSome? fun e => match e.body with
    | .region r => if e.index = n.val then some r else none
    | _ => none

/-- The directory entry of a section. -/
def patEntry (p : PatImage) (typ ix : Nat) : Option DirEntry :=
  p.dir.find? fun e => e.typ == typ && e.index == ix

/-- The word that a section gives a register, zero where it gives none. -/
def secWord (rs : List (Nat × Word)) (a : Nat) : Word := ((rs.find? fun e => e.1 == a).map (·.2)).getD 0

/-- A field that a section gives. -/
def secFld {ι : Type} (rs : List (Nat × Word)) (base : Nat) (f : RF ι) (i : ι) : Nat :=
  fget f.lo f.len (secWord rs (f.addr i - base))

/-- Whether a domain is defined in the CHIP section (R143): its primary source is not NONE. -/
def domDefined (p : PatImage) (k : Fin 8) : Bool := secFld (patChip p) 0 PdCfg.SRC k != 0

/-- A failing check: CODE, block, slot and bank (R152). -/
structure PFail where
  code : Nat
  blk : Nat
  slot : Nat
  bankB : Bool
deriving DecidableEq, Repr

/-- The present banks of a section with their slots. -/
def secBanks (s : BlockSec) : List (Bool × BankHdr × List DWord) :=
  (false, s.hdrA, s.slotsA.take s.hdrA.nslot) ::
    (if s.hdrB.valid then [(true, s.hdrB, s.slotsB.take s.hdrB.nslot)] else [])

/-- A check over every slot of every block; the answer is the first that fails. -/
def slotCheck (p : PatImage) (code : Nat) (bad : Fin 16 → BlockSec → BankHdr → List DWord → Nat → DWord → Bool) : Option PFail :=
  (patBlks p).findSome? fun (nn, s) => (secBanks s).findSome? fun (b, h, sl) =>
    (sl.zipIdx.find? fun (w, i) => bad nn s h sl i w).map fun (_, i) => ⟨code, nn.val, i, b⟩

/-- A check over every block. -/
def blkCheck (p : PatImage) (code : Nat) (bad : Fin 16 → BlockSec → Bool) : Option PFail :=
  ((patBlks p).find? fun (nn, s) => bad nn s).map fun (nn, _) => ⟨code, nn.val, 0, false⟩

/-- A check over the image as a whole. -/
def allCheck (code : Nat) (bad : Bool) : Option PFail := if bad then some ⟨code, 0, 0, false⟩ else none

/-- CODE 3 (R120): the directory. -/
def badDir (p : PatImage) : Bool :=
  let body := p.dir.filter fun e => e.typ != 0x0F
  let disjoint := body.zipIdx.all fun (e, i) => (body.drop (i + 1)).all fun f =>
    decide (e.offset + e.length ≤ f.offset ∨ f.offset + f.length ≤ e.offset)
  !(1 ≤ p.count && p.count ≤ 32 && p.dir.length == p.count) ||
    !(match p.dir.getLast? with
      | some e => e.typ == 0x0F && e.offset == 0 && e.length == 0 && e.crc == 0
      | none => false) ||
    (p.dir.dropLast.any fun e => e.typ == 0x0F) ||
    (body.any fun e => e.offset % 64 != 0 || decide (p.len < e.offset + e.length)) || !disjoint

/-- Words 0 to 14 of a bank header (R128). -/
def hdrBody (h : BankHdr) : List Word := [
  BitVec.ofNat 32 (h.nslot % 512 + h.domain.val * 2 ^ 9 + h.divn % 4096 * 2 ^ 12 + h.valid.toNat * 2 ^ 24 +
    h.start.toNat * 2 ^ 25 + h.fallback.toNat * 2 ^ 26),
  BitVec.ofNat 32 (h.offs % 2 ^ 20), BitVec.ofNat 32 (h.rateMax % 2 ^ 20), BitVec.ofNat 32 (h.rateMin % 2 ^ 20),
  BitVec.ofNat 32 (h.stall % 2 ^ 20), BitVec.ofNat 32 h.preset.toNat,
  BitVec.ofNat 32 (h.trigBlk.val + h.trigVal.val * 16 + h.trigOn.toNat * 256),
  BitVec.ofNat 32 h.lowThr.toNat, BitVec.ofNat 32 h.highThr.toNat, BitVec.ofNat 32 (h.cost % 2 ^ 20),
  BitVec.ofNat 32 (h.proof % 2 ^ 20), BitVec.ofNat 32 (h.clkRec % 2), 0, 0, 0]

/-- HCRC as R128 defines it: the CRC-32 of R120 over words 0 to 14. -/
def hdrCrc (h : BankHdr) : Word := crc32 ((hdrBody h).flatMap fun w => leBytes 4 w.toNat)

/-- CODE 4: a section's CRC or the HCRC of either bank header. -/
def badCrc (p : PatImage) : Option PFail :=
  (allCheck 4 (p.dir.any fun e => e.typ != 0x0F && e.typ != 3 && !entryCrcOk e)).or
  (((patBlks p).findSome? fun (nn, s) =>
    if !((patEntry p 3 nn.val).map entryCrcOk).getD true || s.hdrA.hcrc != hdrCrc s.hdrA then some ⟨4, nn.val, 0, false⟩
    else if s.hdrB.hcrc != hdrCrc s.hdrB then some ⟨4, nn.val, 0, true⟩ else none).or
  (allCheck 4 (p.dir.any fun e => e.typ == 3 && !entryCrcOk e)))

/-- Whether pair j of a block's row is declared (R20). -/
def pairDeclared (p : PatImage) (nn : Fin 16) (j : Nat) : Bool :=
  match PatImage.sec p nn with
  | some s => (fget 16 8 s.fmt).testBit j
  | none => false

/-- One source of a domain (R161), from its kind, SEL, pair and TMO. -/
def badSource (p : PatImage) (kind sel pair tmo : Nat) : Bool :=
  let nn : Fin 16 := ⟨sel % 16, Nat.mod_lt _ (by omega)⟩
  let noBlk := (PatImage.sec p nn).isNone
  let port := if h : sel < 4 then (patRgn p ⟨sel, h⟩).isSome else false
  match kind with
  | 0 | 1 => false
  | 2 => noBlk
  | 3 | 4 => noBlk || !pairDeclared p nn pair || tmo == 0
  | 5 => !port || tmo == 0
  | 6 => decide (7 < sel)
  | _ => true

/-- CODE 5 (R121, R161): the set of sections and the domains' sources. -/
def badSet (p : PatImage) : Option PFail :=
  let n := fun t ix => (p.dir.filter fun e => e.typ == t && e.index == ix).length
  let bad := (p.dir.filter fun e => e.typ == 1).length != 1 ||
    ((List.range 4).any fun i => decide (1 < n 2 i)) || ((List.range 16).any fun i => decide (1 < n 3 i)) ||
    (p.dir.any fun e => e.format != 1 || !(e.typ == 1 || e.typ == 0x0F || (e.typ == 2 && decide (e.index < 4)) ||
      (e.typ == 3 && decide (e.index < 16))))
  let doms := (List.finRange 8).any fun k =>
    let f := fun (x : RF (Fin 8)) => secFld (patChip p) 0 x k
    badSource p (f PdCfg.SRC) (f PdCfg.SEL) (f PdCfg.VPAIR) (f PdCfg.TMO) ||
      badSource p (f PdCfg.ASRC) (f PdCfg.ASEL) (f PdCfg.AVPAIR) (f PdCfg.TMO)
  ((allCheck 5 bad).or (blkCheck p 5 fun nn _ => (patRgn p (rgnOf nn)).isNone)).or (allCheck 5 doms)

/-- CODE 11 (R128): the header of one bank. -/
def badHdr (d : Dev) (p : PatImage) (bankB : Bool) (h : BankHdr) : Bool :=
  !(1 ≤ h.nslot && h.nslot ≤ 256 && 1 ≤ h.divn && h.divn ≤ 4095 && 1 ≤ h.rateMax && h.rateMax ≤ 100000 &&
    decide (h.rateMin ≤ h.rateMax) && h.clkRec == loadClk d && domDefined p h.domain) ||
    (if bankB then h.lowThr != 0 else h.highThr != 0)

/-- CODE 11 over every block. -/
def badHdrs (d : Dev) (p : PatImage) : Option PFail :=
  (patBlks p).findSome? fun (nn, s) =>
    let bs := (secBanks s).map (·.2.1)
    let band := s.hdrA.trigOn && s.hdrB.valid && s.hdrB.trigOn && s.hdrA.trigBlk == s.hdrB.trigBlk &&
      s.hdrA.trigVal == s.hdrB.trigVal && !decide (sx 20 s.hdrA.lowThr.toNat < sx 20 s.hdrB.highThr.toNat)
    if !s.hdrA.valid || (bs.filter (·.start)).length != 1 || decide (1 < (bs.filter (·.fallback)).length) || band then
      some ⟨11, nn.val, 0, false⟩
    else ((secBanks s).find? fun x => badHdr d p x.1 x.2.1).map fun x => ⟨11, nn.val, 0, x.1⟩

/-- The operand bits that an opcode uses (R131). -/
def opUsed (op : Nat) : Nat :=
  match op with
  | 0 => 10 | 1 => 12 | 2 => 10 | 3 => 14 | 4 => 15 | 5 => 16 | 6 => 11 | _ => 18

/-- CODE 8 (R132, R143): an operand out of range. -/
def badRange (p : PatImage) (nn : Fin 16) (w : DWord) : Bool :=
  match sOp w with
  | 0 => (List.range 4).any fun f => (sf w 0 4).testBit f && decide (63 < sf w 4 6 + f)
  | 1 => decide (11 < sf w 0 4) || decide (sf w 4 8 < 8)
  | 2 => sf w 9 1 == 0 && ((List.range 3).any fun l => (sf w 0 3).testBit l && decide (63 < sf w 3 6 + l))
  | 3 => decide (63 < sf w 8 6 + sf w 4 4) || decide (16 < sf w 0 4 + sf w 4 4 + 1)
  | 4 => decide (63 < sf w 9 6 + sf w 8 1)
  | 5 =>
    let rs := (patRgn p (rgnOf nn)).getD []
    let i : Fin 4 × Fin 32 := (rgnOf nn, ⟨sf w 0 5 % 32, Nat.mod_lt _ (by omega)⟩)
    decide (64 < sf w 5 6 + sf w 11 5) || secFld rs (regionBase i.1) WCfg1.EVERY i == 0 ||
      secFld rs (regionBase i.1) WCfg1.BLOCK i != nn.val
  | 6 => decide (63 < sf w 5 6 + 1) || (sf w 0 2 == 2 && !domDefined p ⟨sf w 2 3 % 8, Nat.mod_lt _ (by omega)⟩)
  | _ => false

/-- CODE 10 (R132, R143): the pair rules; a CAPTURE with an odd DEST has this code too (assumption log 33). -/
def badPair (p : PatImage) (nn : Fin 16) (w : DWord) : Bool :=
  match sOp w with
  | 3 =>
    let lo := sf w 0 4
    let hi := lo + sf w 4 4
    (List.range 8).any fun j => pairDeclared p nn j &&
      decide (lo ≤ 2 * j + 1 ∧ 2 * j ≤ hi) && decide (lo ≠ 2 * j ∨ hi < 2 * j + 1)
  | 4 =>
    let r : Fin 16 := ⟨sf w 0 4 % 16, Nat.mod_lt _ (by omega)⟩
    let v := sf w 4 4
    sf w 8 1 == 1 && (pairDeclared p r (v / 2) || pairDeclared p r ((v + 1) / 2)) && (v % 2 == 1 || sf w 9 6 % 2 == 1)
  | 6 => sf w 5 6 % 2 == 1
  | _ => false

/-- CODE 9 (R135, R143): DROP where R131 does not permit it, or on a kernel named in PRESET. -/
def badDrop (h : BankHdr) (w : DWord) : Bool :=
  sDrop w && (sOp w == 0 || sOp w == 2 || (sOp w == 1 && h.preset.getLsbD (sf w 0 4)))

/-- The largest VAR of a kind that R216 defines. -/
def varMax (kind : Nat) : Nat :=
  match kind with
  | 0 => 15 | 1 => 3 | 2 => 3 | 5 => 2 | 8 => 3 | 9 => 1 | 13 => 1 | _ => 0

/-- CODE 13 in a leg (R273). -/
def badLeg (d : Dev) (s : BlockSec) (f : {ι : Type} → RF ι → ι → Nat) (nn : Fin 16) (l : Fin 3) : Bool :=
  let k : LIx := (nn, l)
  let per := f Pwm.PER nn
  let dt := f LcCfg.DTIME k
  let m := dt + f LcCfg.MINP k
  let ren := f LcCfg.REN k != 0
  let hbc2 := f BkType.TYPE nn == 1 && l.val == 2
  let lockShort := f Csync.EN nn == 1 && (secBanks s).any fun x =>
    decide (loadHz d * 8 * x.2.1.divn < 4 * m * (f Csync.N nn * x.2.1.rateMax))
  f LcCfg.SPMODE k == 3 || (ren && (hbc2 || f LcRefw.REFW k == 0 || f LcCfg.RN k == 0 ||
    decide (8 * per ≤ 8 * f LcRefw.REFW k + 2 * dt))) || decide (8 * per < 4 * m) || lockShort

/-- CODE 13 in a pulse-table row (R258, R273). -/
def badRow (r : PulseRow) : Bool :=
  let fr := r.edges.map (·.frac)
  decide (63 < r.nedge) || r.edges.length != r.nedge || !r.unusedOk || (r.edges.any fun e => decide (2 < e.leg)) ||
    ((fr.zip (fr.drop 1)).any fun x => decide (x.2 < x.1))

/-- CODE 13 in a BLOCK section (R124, R177, R188, R201, R202, R206, R216, R252, R264, R273). -/
def badBlock (d : Dev) (nn : Fin 16) (s : BlockSec) : Bool :=
  let f : {ι : Type} → RF ι → ι → Nat := fun x i => secFld s.regs (blockBase nn) x i
  let typ := f BkType.TYPE nn
  let half := typ == 1 || typ == 2
  let ash := f BkType.ASHORT nn != 0
  let per := f Pwm.PER nn
  let cool := loadClk d == 1
  let src1 := (secBanks s).any fun x => x.2.2.any fun w => sOp w == 2 && sf w 9 1 == 1
  let mode := f EcCfg.MODE nn
  let ssi := mode == 2 && (decide (f EcSsi.SPER nn < (2 * f EcCfg.SBITS nn + 4) * f EcSsi.SDIV nn + 10000) ||
    decide (19 < f EcCfg.SBITS nn - f EcCfg.SFRAC nn))
  (half && (ash || f Csync.EN nn != 0 || src1)) || (!ash && f S1sel.SEL nn != 0) || s.s0High ||
    decide (per < (if cool then 600 else 800) ∨ (if cool then 150000 else 200000) < per) ||
    f Qcfg.TAFLT nn == 7 || f Qcfg.TBFLT nn == 7 || ((List.finRange 3).any fun l => badLeg d s f nn l) ||
    ((List.finRange 4).any fun c => f FcCfg.MODE (nn, c) == 3) || ssi || f EcCfg.FLT nn == 0 || f PcCfg.FLT nn == 0 ||
    ((List.finRange 12).any fun m => decide (varMax (f KcCfg.KIND (nn, m)) < f KcCfg.VAR (nn, m))) ||
    (src1 && s.pulse.any badRow)

/-- Whether a frame format may carry a length (R277, R329). -/
def dlenOk (fmt n : Nat) : Bool :=
  match fmt with
  | 0 | 1 => decide (n ≤ 8)
  | 2 | 3 => decide (n ≤ 8) || n == 12 || n == 16 || n == 20 || n == 24 || n == 32 || n == 48 || n == 64
  | 4 => decide (1 ≤ n ∧ n ≤ 64)
  | _ => false

/-- A data bit time of R285: at least lo ns and q quanta, no longer than the nominal bit. -/
def dataBitOk (qhz seg1 seg2 sjw ns q nq : Nat) : Bool :=
  let n := 1 + seg1 + seg2
  decide (1 ≤ seg1 ∧ 1 ≤ seg2 ∧ 1 ≤ sjw ∧ sjw ≤ seg2 ∧ q ≤ n ∧ ns * qhz ≤ n * 1000000000 ∧ n ≤ nq)

/-- The bit timing of a port (R285). -/
def timingOk (d : Dev) (g : {ι : Type} → RF ι → ι → Nat) (n : Fin 4) : Bool :=
  let qhz := loadHz d / 5
  let nq := 1 + g BpNbt.NSEG1 n + g BpNbt.NSEG2 n
  decide (1 ≤ g BpNbt.NSEG1 n ∧ 2 ≤ g BpNbt.NSEG2 n ∧ 1 ≤ g BpNbt.NSJW n ∧ g BpNbt.NSJW n ≤ g BpNbt.NSEG1 n ∧
    g BpNbt.NSJW n ≤ g BpNbt.NSEG2 n ∧ 125000 * nq ≤ qhz ∧ qhz ≤ 1000000 * nq) &&
    dataBitOk qhz (g BpDbt.SEG1 n) (g BpDbt.SEG2 n) (g BpDbt.SJW n) 125 5 nq &&
    dataBitOk qhz (g BpXbt.SEG1 n) (g BpXbt.SEG2 n) (g BpXbt.SJW n) 50 3 nq

/-- Bytes of a packed payload (R330). -/
def packBytes (pack : Bool) (n : Nat) : Nat := if pack then 5 * n / 2 else (20 * n + 7) / 8

/-- CODE 13 in a window of a REGION section (R329). -/
def badWindow (p : PatImage) (g : {ι : Type} → RF ι → ι → Nat) (n : Fin 4) (w : Fin 32) : Bool :=
  let i : Fin 4 × Fin 32 := (n, w)
  let fmt := g WCfg1.FMT i
  let v : Fin 4 × Fin 17 := (n, ⟨g WCfg1.NODE i % 17, Nat.mod_lt _ (by omega)⟩)
  let id := g WCfg0.ID i
  let nn : Fin 16 := ⟨g WCfg1.BLOCK i % 16, Nat.mod_lt _ (by omega)⟩
  let need := match PatImage.sec p nn with
    | some s => (secBanks s).any fun x => x.2.2.any fun o =>
        sOp o == 5 && sf o 0 5 == w.val && decide (g WCfg1.DLEN i < packBytes (g WCfg1.PACK i == 1) (sf o 11 5))
    | none => false
  g WCfg1.EVERY i != 0 && (!dlenOk fmt (g WCfg1.DLEN i) || ((fmt == 2 || fmt == 3) && g BpCfg.FDEN n == 0) ||
    (fmt == 4 && g BpCfg.XLEN n == 0) || decide (16 < g WCfg1.NODE i) || g VnLo.EN v == 0 || g VnLo.XTD v != g WCfg0.XTD i ||
    decide (id < g VnLo.ID v ∨ g VnHi.ID v < id) || need)

/-- CODE 13 in a REGION section (R285, R323, R329). -/
def badRegion (d : Dev) (p : PatImage) (n : Fin 4) (rs : List (Nat × Word)) : Bool :=
  let g : {ι : Type} → RF ι → ι → Nat := fun x i => secFld rs (regionBase n) x i
  let on := (List.finRange 17).filter fun v => g VnLo.EN (n, v) == 1
  let lap := on.any fun v => on.any fun u => decide (v < u) && g VnLo.XTD (n, v) == g VnLo.XTD (n, u) &&
    decide (g VnLo.ID (n, v) ≤ g VnHi.ID (n, u) ∧ g VnLo.ID (n, u) ≤ g VnHi.ID (n, v))
  !timingOk d g n || lap || ((List.finRange 32).any fun w => badWindow p g n w)

/-- CODE 13 over the pattern. -/
def bad13 (d : Dev) (p : PatImage) : Option PFail :=
  let f := fun (x : RF Unit) => secFld (patChip p) 0 x ()
  ((blkCheck p 13 fun nn s => badBlock d nn s).or (allCheck 13 (f Qfilt.QINFLT == 7 || f Qfilt.TWQFLT == 7))).or
    (allCheck 13 ((List.finRange 4).any fun n => match patRgn p n with
      | some rs => badRegion d p n rs
      | none => false))

/-- The cost of a slot (R131). -/
def slotCost (w : DWord) : Nat :=
  match sOp w with
  | 0 => 1 + ((List.range 4).filter fun f => (sf w 0 4).testBit f).length
  | 1 => sf w 4 8
  | 2 => 4
  | 3 => 3 + sf w 4 4
  | 4 => 3 + sf w 8 1
  | 5 => 6 + sf w 11 5
  | 6 => 2
  | _ => 1

/-- COST of a bank (R134). -/
def bankCost (h : BankHdr) (sl : List DWord) : Nat :=
  (sl.map slotCost).foldl (· + ·) 0 + 8 * ((List.range 12).filter fun m => h.preset.getLsbD m).length + 16

/-- CODE 12 (R134, R143). -/
def bad12 (d : Dev) (p : PatImage) : Option PFail :=
  (patBlks p).findSome? fun (nn, s) => ((secBanks s).find? fun (_, h, sl) =>
    bankCost h sl != h.cost || decide (loadHz d / h.rateMax < h.cost + 16)).map fun x => ⟨12, nn.val, 0, x.1⟩

/-- CODE 14 (R125, R143, R307): runner memory, whose parts have fixed places, and queue allocation: the reserves of all the queues of a region, and the quota of each used one. -/
def bad14 (p : PatImage) : Option PFail :=
  (blkCheck p 14 fun _ s => decide (256 < s.slotsA.length ∨ 256 < s.slotsB.length ∨ 64 < s.pulse.length ∨ 8192 < s.imgLen)).or
    (allCheck 14 ((List.finRange 4).any fun n => match patRgn p n with
      | some rs =>
        let g := fun (x : RF (Fin 4 × Fin 64)) (q : Fin 64) => secFld rs (regionBase n) x (n, q)
        decide (8192 < ((List.finRange 64).map fun q => g QCfg0.RESV q).foldl (· + ·) 0) ||
          (List.finRange 64).any fun q => g QCfg0.USED q == 1 && decide (g QCfg0.QUOTA q < g QCfg0.RESV q)
      | none => false))

/-- The checks of R143 after the header, in their order; SLOT of CODE 6 names the slot before the decrease (assumption log 33). -/
def patCheck (d : Dev) (p : PatImage) : Option PFail :=
  ((((((((((allCheck 3 (badDir p)).or (badCrc p)).or (badSet p)).or (badHdrs d p)).or
    (slotCheck p 6 fun _ _ _ sl i w => match sl[i + 1]? with
      | some x => decide (sPos x < sPos w)
      | none => false)).or
    (slotCheck p 7 fun _ _ _ _ _ w => sf w 0 40 / 2 ^ opUsed (sOp w) != 0)).or
    (slotCheck p 8 fun nn _ _ _ _ w => badRange p nn w)).or
    (slotCheck p 10 fun nn _ _ _ _ w => badPair p nn w)).or
    (slotCheck p 9 fun _ _ h _ _ w => badDrop h w)).or (bad13 d p)).or ((bad12 d p).or (bad14 p))

/-- CHIP.BOOT.CAUSE records the refusal of an image (R456). -/
def bootCause (d : Dev) (code img : Nat) (bank : Bool) : Dev :=
  ((d.put BootCause.CODE () code).put BootCause.IMG () img).putB BootCause.BANK () bank

/-- Whether the copy in bank 1 is in force (R434): the valid one with the higher SEQ. -/
def recInOne (d : Dev) : Bool :=
  let a := recRead d.bank0.rcd
  let b := recRead d.bank1.rcd
  b.ok && (!a.ok || decide (a.seq < b.seq))

/-- The bank record in force (R434); with no valid copy, bank 0 is active. -/
def recOf (d : Dev) : BankRec :=
  let r := recRead (if recInOne d then d.bank1.rcd else d.bank0.rcd)
  if r.ok then r else ⟨false, false, 0, false, 0, false⟩

/-- The active flash bank (R434). -/
def activeBank (d : Dev) : Bool := (recOf d).active

/-- A flash bank by number. -/
def bankOf (d : Dev) (b : Bool) : Bank := if b then d.bank1 else d.bank0

/-- The device with a flash bank changed. -/
def onBank (d : Dev) (b : Bool) (f : Bank → Bank) : Dev :=
  if b then { d with bank1 := f d.bank1 } else { d with bank0 := f d.bank0 }

/-- A new bank record (R434): SEQ raised by one, in the copy that is not in force. A write that fails, which is open (assumption log 1), leaves that copy invalid and the old record in force; the answer is whether it has succeeded. -/
def recPut (d : Dev) (f : BankRec → BankRec) : Bool × Dev :=
  let r := recOf d
  let c := recCopyOf { f r with seq := r.seq + 1 }
  let b := !recInOne d
  let (k, d) := d.free
  let ok := !Config.choice k
  (ok, onBank d b fun x => { x with rcd := if ok then c else { c with crc := ~~~ c.crc } })

/-- As recPut, where nothing depends on whether it succeeds. -/
def recWrite (d : Dev) (f : BankRec → BankRec) : Dev := (recPut d f).2

/-- The firmware, the pattern and the settings in the slots of a bank (R433). -/
def sfwIn (d : Dev) (b : Bool) : Option SfwImage := (bankOf d b).sfw.map imgSfw

/-- As sfwIn, of the PAT slot. -/
def patIn (d : Dev) (b : Bool) : Option PatImage := (bankOf d b).pat.map imgPat

/-- As sfwIn, of the CAL slot. -/
def calIn (d : Dev) (b : Bool) : Option CalImage := (bankOf d b).cal.map imgCal

end Sys2Proof.Machine
end

