-- ==== Sys2Proof/Machine/Queues.lean ====
section
/-! DEFINITION. The queue pool of a region (R305 to R319): cells and their allocation, packets, pushes and pops, the reset and scrub of a queue, the rebuild of the free list, and the record of region errors (R384, R386). -/

namespace Sys2Proof.Machine

/-- A queue of region n. -/
def qGet (d : Dev) (n : Fin 4) (q : Fin 64) : Queue := vget (d.r n).queue q

/-- The device with a queue changed. -/
def onQ (d : Dev) (n : Fin 4) (q : Fin 64) (f : Queue → Queue) : Dev :=
  d.onR n fun r => { r with queue := vmod r.queue q f }

/-- What a pop returns where there is nothing to return (R308, R312). -/
def sentinel : Word := 0xFFFFFFFF

/-- The producer or consumer code of a master (R315, R336): PF0, PF1 and the serial host port are the host. -/
def whoOf : Master → Nat
  | .st0 | .st1 => 1
  | _ => 0

/-- A region error recorded (R384, R386): the fourth in the open window is a chip failure, due at the end of the command. -/
def regionErr (d : Dev) (n : Fin 4) (cause : Nat) : Dev :=
  let d := (d.put Rerr.CAUSE n cause).flag Rerr.RERR_SEEN n
  let d := (d.incSat Rerr.CNT n).incSat FltCnt.RERR ()
  let d := d.raise (rgSrc n 7) cause
  if d.fld Rerr.WIN n = 3 then { d with failDue := d.failDue.or (some n) }
  else d.inc Rerr.WIN n

/-- A pointer mismatch counted (R318, R319), and toward region error CAUSE 3 (R384). -/
def qerr (d : Dev) (n : Fin 4) : Dev :=
  let d := (d.flag RQstat.QERR n).incSat RQstat.QERRCNT n
  let w := (d.r n).qerrWin + 1
  if w ≥ 8 then regionErr (d.onR n fun r => { r with qerrWin := 0 }) n 3
  else d.onR n fun r => { r with qerrWin := w }

/-- The queue event of a region (R358). -/
def queueEvent (d : Dev) (n : Fin 4) (q : Fin 64) : Dev := d.raise (rgSrc n 1) q.val

/-- The cells on the free list. -/
def freeCount (d : Dev) (n : Fin 4) : Nat := 8192 - (d.r n).used.length

/-- The cells of a queue in use, owned entries included (R307). -/
def cellsOf (d : Dev) (n : Fin 4) (q : Fin 64) : Nat :=
  ((d.r n).used.filter fun e => e.2 == q.val + 1).length

/-- The reserve that the queues of a region have not yet used (R307). -/
def owed (d : Dev) (n : Fin 4) : Nat :=
  (List.finRange 64).foldl (fun a q => a + (d.fld QCfg0.RESV (n, q) - cellsOf d n q)) 0

/-- Whether k cells in turn can be taken under R307: cells in use, free cells and unused reserve as they stand. -/
def takeOk (resv quota : Nat) : Nat → Nat → Nat → Nat → Bool
  | 0, _, _, _ => true
  | k + 1, used, free, owe =>
    if free = 0 then false
    else if used < resv then takeOk resv quota k (used + 1) (free - 1) (owe - 1)
    else decide (used < quota) && decide (owe < free) && takeOk resv quota k (used + 1) (free - 1) owe

/-- Whether queue q can take k cells (R307). -/
def canTake (d : Dev) (n : Fin 4) (q : Fin 64) (k : Nat) : Bool :=
  takeOk (d.fld QCfg0.RESV (n, q)) (d.fld QCfg0.QUOTA (n, q)) k (cellsOf d n q) (freeCount d n) (owed d n)

/-- The i-th number from c on that a table does not list. -/
def nthFree : Tab Nat → Nat → Nat → Nat
  | [], c, i => c + i
  | (k, _) :: t, c, i => if c + i < k then c + i else nthFree t (k + 1) (i - (k - c))

/-- A table of numbers with zero unlisted. -/
def tz (t : Tab Nat) (a : Nat) : Nat := tget (fun _ => 0) t a

/-- As tz, writing. -/
def tzSet (t : Tab Nat) (a v : Nat) : Tab Nat := tset (fun _ => 0) t a v

/-- A cell taken from the free list for queue q and linked behind the cell before it (R307, R309); which free cell is open (assumption log 1). -/
def takeCell (d : Dev) (n : Fin 4) (q : Fin 64) (prev : Option Nat) : Nat × Dev :=
  let (k, d) := d.free
  let c := nthFree (d.r n).used 0 (Config.freeCell k % freeCount d n)
  let d := d.onR n fun r =>
    let l := tzSet r.link c (2 ^ 13 + q.val * 2 ^ 14)
    { r with used := tzSet r.used c (q.val + 1),
             link := match prev with
               | some p => tzSet l p (c % 2 ^ 13 + q.val * 2 ^ 14)
               | none => l }
  (c, d)

/-- k cells taken in turn. -/
def takeCells (d : Dev) (n : Fin 4) (q : Fin 64) (k : Nat) : List Nat × Dev :=
  (List.range k).foldl (fun x _ =>
    let (c, d) := takeCell x.2 n q x.1.getLast?
    (x.1 ++ [c], d)) ([], d)

/-- A cell returned to the free list; what its link word then reads is open (assumption log 1). -/
def freeCell (d : Dev) (n : Fin 4) (c : Nat) : Dev :=
  let (k, d) := d.free
  d.onR n fun r => { r with used := tzSet r.used c 0, link := tzSet r.link c (Config.freeNat k % 2 ^ 20) }

/-- Cells returned to the free list. -/
def freeCells (d : Dev) (n : Fin 4) (cs : List Nat) : Dev := cs.foldl (fun d c => freeCell d n c) d

/-- The generation of a cell increased (R314). -/
def genUp (d : Dev) (n : Fin 4) (c : Nat) : Dev :=
  d.onR n fun r => { r with gen := tzSet r.gen c ((tz r.gen c + 1) % 8) }

/-- Word i of a chain of cells written. -/
def putCell (d : Dev) (n : Fin 4) (cells : List Nat) (i : Nat) (w : Word) : Dev :=
  let c := (cells[i / 16]?).getD 0
  d.onR n fun r => { r with cellMem := tset (fun _ => 0) r.cellMem (16 * c + i % 16) w }

/-- Words written from word i of a chain on. -/
def putCells (d : Dev) (n : Fin 4) (cells : List Nat) (i : Nat) (ws : List Word) : Dev :=
  (ws.foldl (fun x w => (putCell x.1 n cells x.2 w, x.2 + 1)) (d, i)).1

/-- The length slot of a packet (R308). -/
def lenSlot (p : Pkt) : Word := BitVec.ofNat 32 (p.len % 2 ^ 13 + p.pri % 16 * 2 ^ 13)

/-- Cells that a packet of len bytes uses (R308). -/
def cellsFor (len : Nat) : Nat := (4 + len + 63) / 64

/-- The bytes of a packet's data beyond len are zero (R308). -/
def trimWords (len : Nat) (ws : List Word) : List Word :=
  (ws.foldl (fun x w =>
    let left := len - 4 * x.2
    (x.1 ++ [if left ≥ 4 then w else w &&& BitVec.ofNat 32 (2 ^ (8 * left) - 1)], x.2 + 1)) ([], 0)).1

/-- A packet or frame dropped in queue q: DROPPED and DROPCNT (R309, R320). -/
def qDropped (d : Dev) (n : Fin 4) (q : Fin 64) : Dev := (d.flag QStat.DROPPED (n, q)).inc QStat.DROPCNT (n, q)

/-- A packet dropped in queue q, with the queue event (R309). -/
def qDropEvent (d : Dev) (n : Fin 4) (q : Fin 64) : Dev := queueEvent (qDropped d n q) n q

/-- A stalled read answered with the word of its pop (R312), beside the low half of a 64-bit read (R98). -/
def popReply (d : Dev) (e : Master × Option Word) (w : Word) : Dev := answer d e.1 0 (e.2.toList ++ [w])

/-- The stalled pops of a queue that is reset answered at once (R318): the sentinel, with EMPTY. -/
def stallsEnd (d : Dev) (n : Fin 4) (q : Fin 64) : Dev :=
  (qGet d n q).stalls.foldl (fun d e => popReply (d.flag QStat.EMPTY (n, q)) e sentinel) d

/-- A queue is reset (R318): RST until the scrub ends, stalled pops answered, an open packet dropped, Ladle descriptors that use it ended (R375); an attempt with the head of TQ loses its head (R327). -/
def resetQueue (d : Dev) (n : Fin 4) (q : Fin 64) (mismatch : Bool) : Dev :=
  let x := qGet d n q
  let d := d.inc RQcnt.RESETS n
  let d := d.flag QStat.RST (n, q)
  let d := if mismatch then queueEvent (qerr ((d.put RQstat.QERRQ n q.val).clr RQstat.QERRFL n) n) n q else d
  let d := stallsEnd d n q
  let d := match x.opn with
    | some _ => qDropEvent d n q
    | none => d
  let d := onQ d n q fun x => { x with stalls := [], dropping := x.dropping || x.opn.isSome, opn := none }
  let d := chanQueueGone d n q
  if q.val = 2 then
    let d := ((d.clr TqStat.LOSTN n).clr TqStat.ABORTPEND n).clr TqCtl.ABORT_HEAD n
    d.onR n fun r => { r with port := { r.port with orphan := r.port.orphan || r.port.tx == some .head } }
  else d

/-- Whether a mismatch involves queue q. -/
def badTag (q : Fin 64) (x : Fin 64 × Fin 64) : Bool := x.1 == q || x.2 == q

/-- The queues beside q that the mismatches of queue q involve: those that one tag names with it (R333). -/
def badWith (d : Dev) (n : Fin 4) (q : Fin 64) : List (Fin 64) :=
  ((d.r n).badQ.filter (badTag q)).flatMap fun x => [x.1, x.2].filter (· ≠ q)

/-- The mismatches of queue q are dealt with: their copies are rewritten. -/
def badGone (d : Dev) (n : Fin 4) (q : Fin 64) : Dev :=
  d.onR n fun r => { r with badQ := r.badQ.filter fun x => !badTag q x }

/-- The two copies of the pointers and tags of queue q compared at a use (R317): each queue that a mismatch involves is reset (R318, R333). -/
def touchQ (d : Dev) (n : Fin 4) (q : Fin 64) : Dev :=
  if (d.r n).badQ.any (badTag q) then
    (badWith d n q).foldl (fun d x => resetQueue d n x true) (resetQueue (badGone d n q) n q true)
  else d

/-- The two copies of the free list compared at a use (R317, R319). -/
def touchFree (d : Dev) (n : Fin 4) : Dev :=
  if (d.r n).badFree then
    let d := d.onR n fun r => { r with badFree := false }
    qerr ((d.flag RQstat.REBUILD n).flag RQstat.QERRFL n) n
  else d

/-- Whether queue q holds packets at all now (R305, R318). -/
def qLive (d : Dev) (n : Fin 4) (q : Fin 64) : Bool := d.bit QCfg0.USED (n, q) && !d.bit QStat.RST (n, q)

/-- The oldest packet of the highest priority present (R311, R313). -/
def qFirst (x : Queue) : Option Pkt :=
  let top := x.pkts.foldl (fun m p => max m p.pri) 0
  x.pkts.find? fun p => p.pri == top

/-- The queue without one packet. -/
def qWithout (x : Queue) (p : Pkt) : Queue := { x with pkts := x.pkts.erase p }

/-- Whether a pop finds something to take. -/
def qHas (x : Queue) : Bool := x.cur.isSome || !x.pkts.isEmpty

/-- A pop with something to take: a word of a STREAM queue (R311) or a handle of a HOLD queue (R313). -/
def popTake (d : Dev) (n : Fin 4) (q : Fin 64) : Word × Dev :=
  let x := qGet d n q
  if d.bit QCfg0.MODE (n, q) then
    if x.owned.length ≥ 16 then (sentinel, d.flag QStat.OWNFULL (n, q))
    else match qFirst x with
      | none => (sentinel, d)
      | some p =>
        let c := p.cells.head?.getD 0
        let h := BitVec.ofNat 32 (c % 2 ^ 13 + tz (d.r n).gen c % 8 * 2 ^ 13 + p.pri % 16 * 2 ^ 16 + p.cells.length * 2 ^ 20)
        (h, onQ d n q fun x => { qWithout x p with owned := x.owned ++ [p] })
  else
    let cur : Option (Pkt × Nat) := match x.cur with
      | some c => some c
      | none => (qFirst x).map fun p => (p, 0)
    match cur with
    | none => (sentinel, d)
    | some (p, i) =>
      let w := if i = 0 then lenSlot p else (p.words[i - 1]?).getD 0
      let fin := i == p.words.length
      let d := if fin || i % 16 == 15 then freeCell d n ((p.cells[i / 16]?).getD 0) else d
      (w, onQ d n q fun x => { (if i = 0 then qWithout x p else x) with cur := if fin then none else some (p, i + 1) })

/-- Stalled pops served in their order of arrival as far as packets reach (R312). -/
def wake (d : Dev) (n : Fin 4) (q : Fin 64) : Dev :=
  let st := (qGet d n q).stalls
  st.foldl (fun d e =>
    if qHas (qGet d n q) then
      let (w, d) := popTake d n q
      popReply (onQ d n q fun x => { x with stalls := x.stalls.drop 1 }) e w
    else d) d

/-- A closed packet linked to the tail of its sub-list and visible (R309). -/
def linkPkt (d : Dev) (n : Fin 4) (q : Fin 64) (p : Pkt) : Dev :=
  wake (onQ d n q fun x => { x with pkts := x.pkts ++ [p] }) n q

/-- A whole packet stored by a unit of the device, all of its cells in one check (R320); false when it cannot be. -/
def storePkt (d : Dev) (n : Fin 4) (q : Fin 64) (pri len : Nat) (ws : List Word) : Bool × Dev :=
  let d := touchFree (touchQ d n q) n
  let k := cellsFor len
  if !qLive d n q || d.bit RQstat.REBUILD n || !canTake d n q k then (false, d)
  else
    let (cells, d) := takeCells d n q k
    let p : Pkt := ⟨pri % 16, len, cells, ws⟩
    let d := putCells d n cells 0 ((lenSlot p :: ws) ++ List.replicate (16 * k - 1 - ws.length) 0)
    (true, linkPkt d n q p)

/-- The open packet dropped whole (R309): what follows is ignored until the next PEND. -/
def dropOpen (d : Dev) (n : Fin 4) (q : Fin 64) : Dev :=
  let d := match (qGet d n q).opn with
    | some p => freeCells d n p.cells
    | none => d
  qDropEvent (onQ d n q fun x => { x with opn := none, dropping := true }) n q

/-- Whether the producer of queue q is another (R310). -/
def notProd (d : Dev) (n : Fin 4) (q : Fin 64) (who : Nat) : Bool :=
  d.bit QCfg0.USED (n, q) && d.fld QCfg1.PROD (n, q) != who

/-- The open packet, opened now if there is none (R309); none where no cell can be had. -/
def openPkt (d : Dev) (n : Fin 4) (q : Fin 64) : Option Dev :=
  if (qGet d n q).opn.isSome then some d
  else if canTake d n q 1 then
    let (c, d) := takeCell d n q none
    some (onQ d n q fun x => { x with opn := some ⟨0, 0, [c], []⟩ })
  else none

/-- One word pushed (R309, R310). -/
def pushWord (d : Dev) (n : Fin 4) (q : Fin 64) (who : Nat) (w : Word) : Dev :=
  let d := touchQ (touchFree d n) n q
  if notProd d n q who then d.inc QStat.DROPCNT (n, q)
  else if d.bit RQstat.REBUILD n then d.onR n fun r => { r with heldPush := r.heldPush ++ [(q, false, who, w)] }
  else if (qGet d n q).dropping then d
  else if !qLive d n q then dropOpen d n q
  else match openPkt d n q with
    | none => dropOpen d n q
    | some d =>
      match (qGet d n q).opn with
      | none => d
      | some p =>
        let i := p.words.length + 1
        if i ≥ 1024 || (i % 16 == 0 && !canTake d n q 1) then dropOpen d n q
        else
          let (cs, d) := if i % 16 = 0 then
              let (c, d) := takeCell d n q p.cells.getLast?
              (p.cells ++ [c], d)
            else (p.cells, d)
          let d := putCell d n cs i w
          onQ d n q fun x => { x with opn := some { p with cells := cs, words := p.words ++ [w] } }

/-- The packet closed (R309). -/
def closePkt (d : Dev) (n : Fin 4) (q : Fin 64) (who : Nat) (w : Word) : Dev :=
  let d := touchQ (touchFree d n) n q
  if notProd d n q who then d.inc QStat.DROPCNT (n, q)
  else if d.bit RQstat.REBUILD n then d.onR n fun r => { r with heldPush := r.heldPush ++ [(q, true, who, w)] }
  else if (qGet d n q).dropping then onQ d n q fun x => { x with dropping := false }
  else if !qLive d n q then onQ (dropOpen d n q) n q fun x => { x with dropping := false }
  else match openPkt d n q with
    | none => onQ (dropOpen d n q) n q fun x => { x with dropping := false }
    | some d =>
      match (qGet d n q).opn with
      | none => d
      | some p =>
        let pri := if q.val = 2 then 0 else fget 0 4 w
        let len := 4 * p.words.length - fget 4 2 w
        let ws := trimWords len p.words
        let p : Pkt := ⟨pri, len, p.cells, ws⟩
        let d := putCells d n p.cells 0 ((lenSlot p :: ws) ++ List.replicate (16 * p.cells.length - 1 - ws.length) 0)
        linkPkt (onQ d n q fun x => { x with opn := none }) n q p

/-- A pop by a master (R311 to R315): the word with whether it removes something, or none where the read stalls. -/
def popTry (d : Dev) (n : Fin 4) (q : Fin 64) (m : Master) : Option (Word × Bool) × Dev :=
  let d := touchQ (touchFree d n) n q
  let x := qGet d n q
  if d.bit QCfg0.USED (n, q) && d.fld QCfg1.CONS (n, q) != whoOf m then
    (some (sentinel, false), d.flag QStat.NOTCONS (n, q))
  else if !qLive d n q then (some (sentinel, false), d.flag QStat.EMPTY (n, q))
  else if d.bit QCfg0.MODE (n, q) && decide (x.owned.length ≥ 16) then
    (some (sentinel, false), d.flag QStat.OWNFULL (n, q))
  else if x.stalls.isEmpty && qHas x then
    let (w, d) := popTake d n q
    (some (w, true), d)
  else (none, d)

/-- A read stalls at a queue (R312); low is the low half of a 64-bit read (R98). -/
def popStall (d : Dev) (n : Fin 4) (q : Fin 64) (m : Master) (low : Option Word) : Dev :=
  onQ d n q fun x => { x with stalls := x.stalls ++ [(m, low)] }

/-- A pop answered, or stalled at an empty queue (R311, R312). -/
def popBy (d : Dev) (n : Fin 4) (q : Fin 64) (m : Master) : Dev :=
  match popTry d n q m with
  | (some (w, _), d) => answer d m 0 [w]
  | (none, d) => popStall d n q m none

/-- The first stalled pop ends with the sentinel (R312). -/
def popExpire (d : Dev) (n : Fin 4) (q : Fin 64) : Dev :=
  match (qGet d n q).stalls with
  | [] => d
  | e :: t => popReply ((onQ d n q fun x => { x with stalls := t }).flag QStat.EMPTY (n, q)) e sentinel

/-- An owned entry freed (R314). -/
def freeOwned (d : Dev) (n : Fin 4) (q : Fin 64) (p : Pkt) : Dev :=
  let d := genUp d n (p.cells.head?.getD 0)
  freeCells (onQ d n q fun x => { x with owned := x.owned.erase p }) n p.cells

/-- A handle written to ACK (R314). -/
def ackEntry (d : Dev) (n : Fin 4) (q : Fin 64) (w : Word) : Dev :=
  let d := touchQ (touchFree d n) n q
  let c := fget 0 13 w
  match (if d.bit QStat.RST (n, q) then none else (qGet d n q).owned.find? fun p => p.cells.head? == some c) with
  | some p => if tz (d.r n).gen c % 8 = fget 13 3 w then freeOwned d n q p else d.flag QStat.STALEACK (n, q)
  | none => d.flag QStat.STALEACK (n, q)

/-- An owned entry reclaimed (R314). -/
def reclaim (d : Dev) (n : Fin 4) (q : Fin 64) (c : Nat) : Dev :=
  let d := touchQ (touchFree d n) n q
  match (if d.fld QCfg1.OWNTMO (n, q) = 0 ∨ d.bit QStat.RST (n, q) then none
      else (qGet d n q).owned.find? fun p => p.cells.head? == some c) with
  | some p => queueEvent (((freeOwned d n q p).flag QStat.RECLAIM (n, q)).inc QStat.DROPCNT (n, q)) n q
  | none => d

/-- SLAG (R313, R316), which pops what it discards (R317). -/
def slag (d : Dev) (n : Fin 4) (q : Fin 64) : Dev :=
  let d := touchQ (touchFree d n) n q
  if d.bit QCfg0.MODE (n, q) then d.flag QStat.REF (n, q)
  else match (qGet d n q).cur with
    | none => d
    | some (p, i) => freeCells (onQ d n q fun x => { x with cur := none }) n (p.cells.drop (i / 16))

/-- The scrub of queue q ends (R318): its cells are zero and free, and the queue is empty. It compares the free list and the tags it visits (R317): a tag that names another queue too resets that queue. -/
def scrubEnd (d : Dev) (n : Fin 4) (q : Fin 64) : Dev :=
  let d := (badWith d n q).foldl (fun d x => resetQueue d n x true) (badGone (touchFree d n) n q)
  let cs := ((d.r n).used.filter fun e => e.2 == q.val + 1).map (·.1)
  let d := cs.foldl (fun d c => putCells d n [c] 0 (List.replicate 16 0)) d
  let d := (qGet d n q).owned.foldl (fun d p => genUp d n (p.cells.head?.getD 0)) d
  let d := freeCells d n cs
  (onQ d n q fun x => { x with pkts := [], opn := none, cur := none, owned := [] }).clr QStat.RST (n, q)

end Sys2Proof.Machine
end

