-- ==== Sys2Proof/Machine/Transmit.lean ====
section
/-! DEFINITION. What a port has to send (R325 to R332): the transmit queue and its head, completion records, windows and their instances, and the end of an attempt. -/

namespace Sys2Proof.Machine

/-- Queue number of a role (R305). -/
def rq0 : Fin 64 := 0
/-- RQ1. -/
def rq1 : Fin 64 := 1
/-- TQ. -/
def tq : Fin 64 := 2
/-- TXC. -/
def txc : Fin 64 := 3

/-- The head of TQ (R326). -/
def tqHead (d : Dev) (p : Fin 4) : Option Pkt := if qLive d p tq then (qGet d p tq).pkts.head? else none

/-- Word i of a transmit packet, counted as in R325. -/
def pw (k : Pkt) (i : Nat) : Word := (k.words[i - 1]?).getD 0

/-- Bytes of a list of words, little-endian. -/
def wordBytes (ws : List Word) : List Byte := ws.flatMap fun w => (leBytes 4 w.toNat).map fun x => BitVec.ofNat 8 x

/-- Words of a list of bytes, the last one filled with zeros. -/
def bytesWords (b : List Byte) : List Word :=
  (List.range ((b.length + 3) / 4)).map fun i =>
    BitVec.ofNat 32 (leVal ((List.range 4).map fun j => ((b[4 * i + j]?).getD 0).toNat))

/-- Whether a transmit packet's length is one of its format (R277). -/
def tqLenOk (fmt n : Nat) : Bool := if fmt = 4 then decide (1 ≤ n ∧ n ≤ 2048) else dlenOk fmt n

/-- Whether a port's configuration enables a format (R278). -/
def fmtOn (d : Dev) (p : Fin 4) (fmt : Nat) : Bool :=
  decide (fmt < 2) || (decide (fmt < 4) && d.bit BpCfg.FDEN p) || (fmt == 4 && d.bit BpCfg.XLEN p)

/-- Whether an identifier lies in an enabled node slot's range (R323). -/
def inSlot (d : Dev) (p : Fin 4) (v : Fin 17) (id : Nat) (xtd : Bool) : Bool :=
  d.bit VnLo.EN (p, v) && d.bit VnLo.XTD (p, v) == xtd && decide (d.fld VnLo.ID (p, v) ≤ id ∧ id ≤ d.fld VnHi.ID (p, v))

/-- The check of a packet that becomes the head of TQ (R326). -/
def headOk (d : Dev) (p : Fin 4) (k : Pkt) : Bool :=
  let fmt := fget 0 3 (pw k 2)
  let n := fget 10 12 (pw k 2)
  let node := fget 4 5 (pw k 2)
  fmtOn d p fmt && (fget 3 1 (pw k 2) == 0 || fmt == 2 || fmt == 3) && (fget 30 1 (pw k 1) == 0 || decide (fmt < 2)) &&
    tqLenOk fmt n && decide (16 + n ≤ k.len ∧ k.len < 20 + n) && decide (node ≤ 16) &&
    inSlot d p ⟨node % 17, Nat.mod_lt _ (by omega)⟩ (fget 0 29 (pw k 1)) (fget 29 1 (pw k 1) == 1)

/-- The data length code of a classical or FD frame; for XL the field of R322 is open (assumption log 1). -/
def dlcOf (fmt n k : Nat) : BitVec 4 :=
  if fmt = 4 then BitVec.ofNat 4 (Config.freeNat k)
  else if n ≤ 8 then BitVec.ofNat 4 n
  else match n with
    | 12 => 9 | 16 => 10 | 20 => 11 | 24 => 12 | 32 => 13 | 48 => 14 | _ => 15

/-- A format number as R322 codes it. -/
def fmtFin (n : Nat) : Fin 5 := ⟨n % 5, Nat.mod_lt _ (by omega)⟩

/-- An identifier in the width of its format (R277). -/
def idFor (fmt id : Nat) : BitVec 29 := if fmt = 1 ∨ fmt = 3 then BitVec.ofNat 29 id else BitVec.ofNat 29 (id % 2048)

/-- The frame of a transmit packet (R325). -/
def pktFrame (k : Pkt) (passive : Bool) (free : Nat) : Frame :=
  let fmt := fget 0 3 (pw k 2)
  let n := fget 10 12 (pw k 2)
  let rtr := fget 30 1 (pw k 1) == 1
  let xl := fmt == 4
  { fmt := fmtFin fmt, id := idFor fmt (fget 0 29 (pw k 1)), rtr := rtr, brs := fget 3 1 (pw k 2) == 1,
    esi := passive && decide (2 ≤ fmt ∧ fmt < 4), dlc := dlcOf fmt n free,
    data := if rtr then [] else (wordBytes (k.words.drop 4)).take n,
    sdt := if xl then BitVec.ofNat 8 (fget 16 8 (pw k 3)) else 0,
    vcid := if xl then BitVec.ofNat 8 (fget 24 8 (pw k 3)) else 0,
    af := if xl then pw k 4 else 0, sec := false }

/-- The frame of a window as an attempt starts (R299, R329 to R331): with STAMP, bytes 0 to 4 carry PH40 of its domain. -/
def winFrame (d : Dev) (p : Fin 4) (w : Fin 32) (free : Nat) : Frame :=
  let c := (bufPort d p, w)
  let fmt := d.fld WCfg1.FMT c
  let n := d.fld WCfg1.DLEN c
  let buf := wordBytes ((List.finRange 16).map fun i => d.reg (WBuf.addr (bufPort d p, w, i)))
  let buf := if d.bit WExt.STAMP c then
      (leBytes 5 (domPH40 d (winDom d p w))).map (fun x => BitVec.ofNat 8 x) ++ buf.drop 5
    else buf
  let xl := fmt == 4
  { fmt := fmtFin fmt, id := idFor fmt (d.fld WCfg0.ID c), rtr := false, brs := d.bit WCfg1.BRS c,
    esi := d.fld BpStat.STATE p == 4 && decide (2 ≤ fmt ∧ fmt < 4), dlc := dlcOf fmt n free, data := buf.take n,
    sdt := if xl then BitVec.ofNat 8 (d.fld WExt.SDT c) else 0,
    vcid := if xl then BitVec.ofNat 8 (d.fld WExt.VCID c) else 0,
    af := if xl then d.reg (WAf.addr c) else 0, sec := false }

/-- A completion record into TXC (R328). -/
def txRecord (d : Dev) (p : Fin 4) (k : Pkt) (status sof : Nat) : Dev :=
  if fget 9 1 (pw k 2) = 0 then d
  else
    let w1 := BitVec.ofNat 32 (fget 0 16 (pw k 3) + status * 2 ^ 16)
    match storePkt d p txc 0 12 [w1, BitVec.ofNat 32 sof, BitVec.ofNat 32 (sof / 2 ^ 32)] with
    | (true, d) => d
    | (false, d) => qDropEvent d p txc

/-- The report of a head that leaves TQ (R402, R412). -/
def headReport (d : Dev) (p : Fin 4) (k : Pkt) (status sof : Nat) : Dev :=
  let crc := crc32 ((lenSlot k :: k.words).flatMap fun w => leBytes 4 w.toNat)
  ownerSend d (.txr (.head p (fget 0 16 (pw k 3)) (pw k 1).toNat crc status sof))

/-- The head leaves TQ: its cells are free and LOSTN starts again (R311, R327). -/
def headGone (d : Dev) (p : Fin 4) (k : Pkt) : Dev :=
  (freeCells (onQ d p tq fun x => qWithout x k) p k.cells).clr TqStat.LOSTN p

/-- The counts of a head that leaves TQ with a status of R328. -/
def headCounts (d : Dev) (p : Fin 4) (status : Nat) : Dev :=
  match status with
  | 0 => d
  | 3 => (d.incSat TqCnt.TXREF p).flag TqStat.TXREF_SEEN p
  | _ => (d.incSat TqCnt.ABORTS p).flag TqStat.ABT_SEEN p

/-- The port's use of TQ compares its two copies (R317). -/
def touchTq (d : Dev) (p : Fin 4) : Dev := touchQ (touchFree d p) p tq

/-- The head leaves TQ with a status, its counts, its record and its report (R326 to R328); a mismatch found as it is taken resets TQ instead (R318). -/
def headLeaves (d : Dev) (p : Fin 4) (k : Pkt) (status sof : Nat) : Dev :=
  let d := touchTq d p
  if d.bit QStat.RST (p, tq) then d
  else headReport (txRecord (headCounts (headGone d p k) p status) p k status sof) p k status sof

/-- Packets at the head of TQ checked until one passes (R326); on a SHADOW unit the owner decides (R412). -/
def headCheck (d : Dev) (p : Fin 4) : Dev :=
  if d.fld TwStat.ROLE () = 2 then d
  else ((qGet d p tq).pkts.foldl (fun (x : Dev × Bool) k =>
    if x.2 || !qLive x.1 p tq || headOk x.1 p k then (x.1, true) else (headLeaves x.1 p k 3 0, false)) (d, false)).1

/-- A packet closed by PEND (R309); a new head of TQ is checked (R326). -/
def pendWord (d : Dev) (n : Fin 4) (q : Fin 64) (who : Nat) (w : Word) : Dev :=
  let empty := (qGet d n q).pkts.isEmpty
  let d := closePkt d n q who w
  if q = tq && empty then headCheck d n else d

/-- The head of TQ aborted (R327). -/
def headAbort (d : Dev) (p : Fin 4) : Dev :=
  match tqHead d p with
  | none => d
  | some k => headCheck (headLeaves d p k 1 0) p

/-- A losing head moved to the tail (R327). -/
def headRotate (d : Dev) (p : Fin 4) (k : Pkt) : Dev :=
  let d := touchTq d p
  if d.bit QStat.RST (p, tq) then d
  else
  let d := onQ d p tq fun x => { qWithout x k with pkts := (qWithout x k).pkts ++ [k] }
  headCheck (((d.clr TqStat.LOSTN p).inc TqCnt.ROTATES p).flag TqStat.ROT_SEEN p) p

/-- Windows whose frame is due note that the port can send now (R332). -/
def winsSendable (d : Dev) (p : Fin 4) : Dev :=
  if portCanSend d p then forAll d fun d (w : Fin 32) =>
    if d.bit WStat.DUE (p, w) then onW d p w fun x => { x with couldSend := true } else d
  else d

/-- Nothing is in transmission any more. -/
def txClear (d : Dev) (p : Fin 4) : Dev :=
  let d := match (d.port p).tx with
    | some (.window w) => d.clr WStat.TXING (p, w)
    | _ => d
  onPort (d.clr BpStat.TXING p) p fun x => { x with tx := none, txFrame := none, orphan := false, xlPhase := 0 }

/-- ABORT_HEAD has ended (R10, R327): one written again in this clk applies to the new head. -/
def abortEnd (d : Dev) (p : Fin 4) : Dev :=
  let d := d.clr TqStat.ABORTPEND p
  if d.cmdRedo TqCtl.ABORT_HEAD p then headAbort ((d.cmdDone TqCtl.ABORT_HEAD p).clr TqCtl.ABORT_HEAD p) p
  else d.clr TqCtl.ABORT_HEAD p

/-- Whether ABORT_HEAD has come in this clk (R333). -/
def abortNow (d : Dev) (p : Fin 4) : Bool := d.hw.any fun m => m.1 == TqStat.ABORTPEND.addr p && m.2.1 == TqStat.ABORTPEND.lo

/-- An attempt with a head ends without success (R298, R327): withdrawn for a collision, removed by an ABORT_HEAD that waits, counted as a loss, or to be retried. An ABORT_HEAD of this clk applies to the head that a loss leaves (R333). -/
def headFailed (d : Dev) (p : Fin 4) (collision lost : Bool) : Dev :=
  match tqHead d p with
  | none => abortEnd d p
  | some k =>
    let pend := d.bit TqStat.ABORTPEND p
    if collision then abortEnd (headCheck (headLeaves d p k 2 0) p) p
    else if pend && !abortNow d p then abortEnd (headAbort d p) p
    else
      let d := if lost then
          let n := d.fld TqStat.LOSTN p + 1
          if d.bit TqCtl.ROTATE p && decide (max 1 (d.fld TqCtl.ROTN p) ≤ n) then headRotate d p k
          else d.put TqStat.LOSTN p (min n 15)
        else d
      if pend then abortEnd (headAbort d p) p else d

/-- An attempt in progress ends without success (R297, R298, R327, R331): withdrawn for a collision, lost in arbitration, or to be retried. -/
def txFailed (d : Dev) (p : Fin 4) (collision lost : Bool) : Dev :=
  let x := d.port p
  let d := txClear d p
  match x.tx with
  | none => d
  | some (.window w) =>
    let d := ownerSend d (.txr (.winNote p w))
    let d := if collision then (onW d p w fun x => { x with withdrawn := true }).clr WStat.DUE (p, w) else d
    if (winOf d p w).closing then winFinal d p w else d
  | some .head =>
    if x.orphan then d else headFailed d p collision lost

/-- An attempt in progress ends with success (R327, R328, R331). -/
def txSent (d : Dev) (p : Fin 4) : Dev :=
  let x := d.port p
  let d := txClear d p
  match x.tx with
  | none => d
  | some (.window w) =>
    let d := (d.inc WCnt.SENT (p, w)).clr WStat.DUE (p, w)
    let d := onW d p w fun x => { x with sent := true }
    let d := ownerSend d (.txr (.winSent p w))
    if (winOf d p w).closing then winFinal d p w else d
  | some .head =>
    if x.orphan then d
    else match tqHead d p with
      | none => abortEnd d p
      | some k => abortEnd (headCheck (headLeaves d p k 0 x.sofTx) p) p

/-- ABORT_HEAD (R327, R333): at once, or when the attempt ends; on a SHADOW unit the head leaves by the owner's report (R412). -/
def abortHead (d : Dev) (p : Fin 4) : Dev :=
  if d.fld TwStat.ROLE () = 2 then d
  else match tqHead d p with
    | none => d
    | some _ =>
      if (d.port p).tx = some .head then
        if d.bit TqStat.ABORTPEND p then d.cmdAgain (TqCtl.addr p) 1
        else (d.flag TqStat.ABORTPEND p).flag TqCtl.ABORT_HEAD p
      else headAbort d p

end Sys2Proof.Machine
end

