-- ==== Sys2Proof/Machine/Ports.lean ====
section
/-! DEFINITION. Bus ports (10_bus_protocol.md): states and modes (R281 to R284), restart (R283), rate detection (R290, R291), error confinement (R295, R296), and the port commands. -/

namespace Sys2Proof.Machine

/-- The state event of a port (R295, R358). -/
def portEvent (d : Dev) (p : Fin 4) : Dev := d.raise (rgSrc p 3) (d.lo16 BpStat.word p)

/-- A port enters a state (R295): entries into EPASSIVE and BUSOFF are recorded. -/
def goState (d : Dev) (p : Fin 4) (st : Nat) : Dev :=
  if d.fld BpStat.STATE p = st then d
  else
    let d := d.put BpStat.STATE p st
    let d := match st with
      | 4 => portEvent (d.flag BpEvt.EPASS_SEEN p) p
      | 5 =>
        let d := onPort d p fun x => { x with savedMode := d.fld BpStat.OPMODE p }
        portEvent ((d.flag BpEvt.BOFF_SEEN p).inc BpEvt.BOFFCNT p) p
      | _ => d
    winsSendable d p

/-- The error state that TEC and REC give a port that takes part (R295). -/
def confineState (d : Dev) (p : Fin 4) : Nat :=
  if d.fld BpStat.TEC p > 255 then 5
  else if d.fld BpStat.TEC p ≥ 128 ∨ d.fld BpStat.REC p ≥ 128 then 4 else 3

/-- The error state follows the counters (R295). -/
def confine (d : Dev) (p : Fin 4) : Dev :=
  if d.fld BpStat.STATE p = 3 ∨ d.fld BpStat.STATE p = 4 then goState d p (confineState d p) else d

/-- An operating mode taken up; rate detection runs in LISTEN only (R290). -/
def setMode (d : Dev) (p : Fin 4) (m : Nat) : Dev :=
  let d := d.put BpStat.OPMODE p m
  let d := if m = 2 then d else d.clr BpStat.ARDRUN p
  winsSendable d p

/-- Whether the chip is in the HELD condition (R452). -/
def chipHeldOn (d : Dev) : Bool := d.bit BootCause.HELD ()

/-- The operating mode that the condition of the chip and the role leave of a wanted one (R282, R292, R396). -/
def modeFor (d : Dev) (want : Nat) : Nat :=
  if d.fld TwStat.ROLE () = 2 then 1
  else if d.fld TwStat.ROLE () = 3 ∨ chipHeldOn d ∨ d.pat.isNone then 2
  else want

/-- Whether a frame is on the bus now: while the port transmits one, and otherwise as the network has it (assumption log 1). -/
def frameOn (d : Dev) (p : Fin 4) : Bool × Dev :=
  if (d.port p).tx.isSome then (true, d)
  else if 2 ≤ d.fld BpStat.STATE p then
    let (k, d) := d.free
    (Config.choice k, d)
  else (false, d)

/-- The port stops (R284, R296, R298). -/
def portStopNow (d : Dev) (p : Fin 4) : Dev :=
  let st := d.fld BpStat.STATE p
  let d := onPort d p fun x => { x with fromBoff := st == 5 || st == 6, waitIdle := false }
  let d := ((d.clr BpCtl.STOP p).clr BpStat.ARDRUN p).clr BpIdc.SUCC p
  goState d p 1

/-- A refused port command (R284). -/
def portRefuse (d : Dev) (p : Fin 4) (r : Nat) : Dev := (d.flag BpEvt.CMDREF p).put BpEvt.REASON p r

/-- A port command that waited has taken effect (R284): one written again in this clk is judged again and refused, the port being no longer in its state (R10). -/
def portDone (d : Dev) (f : RF (Fin 4)) (p : Fin 4) : Dev :=
  if d.cmdRedo f p then portRefuse ((d.cmdDone f p).clr f p) p 1 else d.clr f p

/-- What waits for the end of the frame or the next bus idle takes effect (R284, R303). -/
def portPend (d : Dev) (p : Fin 4) : Dev :=
  if (d.port p).tx.isSome then d
  else
    let d := if d.bit BpCtl.GONORMAL p then setMode (portDone d BpCtl.GONORMAL p) p (modeFor d 0) else d
    let d := if d.bit BpCtl.GOLISTEN p then setMode (portDone d BpCtl.GOLISTEN p) p (modeFor d 2) else d
    let d := match (d.port p).modePend with
      | some m => setMode (onPort d p fun x => { x with modePend := none }) p m
      | none => d
    if d.bit BpCtl.STOP p then portStopNow (portDone d BpCtl.STOP p) p else d

/-- A mode change from the next bus idle (R282, R423, R426). -/
def modeAtIdle (d : Dev) (p : Fin 4) (m : Nat) : Dev :=
  let (on, d) := frameOn d p
  let d := onPort d p fun x => { x with modePend := some m }
  if on then d else portPend d p

/-- The timing that rate detection tries (R290): the candidate's, loaded as working timing. -/
def ardTry (d : Dev) (p : Fin 4) (c : Fin 4) : Dev :=
  let d := (d.put BpArd.CAND p c.val).clr BpArd.VALIDN p
  onPort d p fun x => { x with workN := d.reg (BpArdN.addr (p, c)), workD := d.reg (BpArdD.addr (p, c)), candT := d.clk }

/-- The enabled candidate that follows a number, in a circle (R290). -/
def ardAfter (d : Dev) (p : Fin 4) (c : Nat) : Option (Fin 4) :=
  let f := fun (i : Nat) => (⟨(c + 1 + i) % 4, Nat.mod_lt _ (by omega)⟩ : Fin 4)
  ((List.range 4).map f).find? fun x => (d.fld BpArd.CEN p).testBit x.val

/-- Rate detection starts at the first enabled candidate (R290). -/
def ardStart (d : Dev) (p : Fin 4) : Dev :=
  let d := ((d.flag BpStat.ARDRUN p).clr BpArd.LOCKED p).clr BpArd.VALIDN p
  match ardAfter d p 3 with
  | some c => ardTry d p c
  | none => d

/-- Rate detection moves to the next enabled candidate (R290). -/
def ardNext (d : Dev) (p : Fin 4) : Dev :=
  match ardAfter d p (d.fld BpArd.CAND p) with
  | some c => ardTry d p c
  | none => d.clr BpArd.VALIDN p

/-- Rate detection locks (R290). -/
def ardLock (d : Dev) (p : Fin 4) : Dev :=
  let c : Fin 4 := ⟨d.fld BpArd.CAND p % 4, Nat.mod_lt _ (by omega)⟩
  let d := d.setReg (BpNbt.addr p) (d.reg (BpArdN.addr (p, c)) &&& 0x03FFFFFF)
  let d := if d.bit BpArdD.DEN (p, c) then d.setReg (BpDbt.addr p) (d.reg (BpArdD.addr (p, c)) &&& 0x0007FFFF) else d
  let d := onPort (((d.clr BpStat.ARDRUN p).flag BpArd.LOCKED p).flag BpEvt.ARDLOCK p) p fun x => { x with lockT := some d.clk }
  d.raise (rgSrc p 4) (d.lo16 BpArd.word p)

/-- A frame received during rate detection (R290): counted where its data phase, if any, was decoded under the candidate. -/
def ardFrame (d : Dev) (p : Fin 4) (f : Frame) : Dev :=
  let c : Fin 4 := ⟨d.fld BpArd.CAND p % 4, Nat.mod_lt _ (by omega)⟩
  let data := f.fmt.val == 4 || (decide (2 ≤ f.fmt.val) && f.brs)
  if data && !d.bit BpArdD.DEN (p, c) then d
  else
    let d := d.inc BpArd.VALIDN p
    if d.fld BpArd.VALIDN p = 3 then ardLock d p else d

/-- The default candidates (R291), scaled by 3/4 in HEAT = COOL. -/
def ardDefaults (d : Dev) (p : Fin 4) : Dev :=
  let cool := d.bit ChipMode.HEAT_ACT ()
  let d := forAll d fun d (c : Fin 4) =>
    let (a, b, j) := if cool then
        match c.val with | 0 => (47, 12, 12) | 1 => (95, 24, 24) | 2 => (191, 48, 48) | _ => (383, 96, 96)
      else match c.val with | 0 => (63, 16, 16) | 1 => (127, 32, 32) | 2 => (255, 64, 64) | _ => (511, 128, 128)
    (d.setReg (BpArdN.addr (p, c)) (BitVec.ofNat 32 (a + b * 2 ^ 10 + j * 2 ^ 18))).setReg (BpArdD.addr (p, c)) 0
  (d.put BpArd.DWELL p 100).put BpArd.CEN p 15

/-- An attempt that the device breaks off, the port's own part in the frame over (R303). -/
def portIdle (d : Dev) (p : Fin 4) : Dev :=
  let d := txFailed d p false false
  let d := ((d.clr BpCtl.STOP p).clr BpCtl.GONORMAL p).clr BpCtl.GOLISTEN p
  onPort (d.clr BpStat.ARDRUN p) p fun x => { x with waitIdle := false, modePend := none }

/-- A port goes OFF (R282): whether it was BUSOFF is kept for the restart (R283). -/
def portOff (d : Dev) (p : Fin 4) : Dev :=
  let st := d.fld BpStat.STATE p
  let d := portIdle d p
  let d := if st = 0 then d else onPort d p fun x => { x with fromBoff := st == 5 || st == 6 }
  (goState d p 0).clr BpStat.OPMODE p

/-- Every port OFF (R69, R390). -/
def portsOff (d : Dev) : Dev := forAll d fun d p => portOff d p

/-- A port with no pattern in effect at STAGE NOPAT (R282, R291): INTEG, its counters zero, in LISTEN with rate detection over the defaults. In the sequence of a chip failure it stays OFF (R390). -/
def portNoPat (d : Dev) (p : Fin 4) : Dev :=
  if d.failT then ardDefaults (portOff d p) p
  else
  let d := ardDefaults ((((portIdle d p).clr BpStat.TEC p).clr BpStat.REC p).clr BpErr.RECOVN p) p
  let d := onPort d p fun x => { x with fromBoff := false }
  ardStart (goState (setMode d p 2) p 2) p

/-- The words of the REGION section of a port in effect. -/
def portSec (d : Dev) (p : Fin 4) : Option (List (Nat × Word)) := d.pat.bind fun x => patRgn x p

/-- The registers that a restart reloads (R283): BPCFG, the bit timing and BPPAIR. -/
def restartRegs (d : Dev) (p : Fin 4) (rs : List (Nat × Word)) : Dev :=
  let as := [BpCfg.addr p, BpNbt.addr p, BpDbt.addr p, BpXbt.addr p, BpPair.addr p].map fun a => a - regionBase p
  loadRegs d (regionBase p) 0x1000000 (fun _ => false) (as.map fun a => (a, secWord rs a))

/-- A port restarts (R283): after a pattern load, or after a clock loss or a stall, when BUSOFF is kept. In the sequence of a chip failure it stays OFF (R390). -/
def portRestart (d : Dev) (p : Fin 4) (keepBoff : Bool) : Dev :=
  if d.failT then portOff d p
  else match portSec d p with
  | none => if d.fld Start.STAGE () = 6 then portNoPat d p else portOff d p
  | some rs =>
    let st := d.fld BpStat.STATE p
    let boff := keepBoff && (st == 5 || st == 6 || (st == 0 && (d.port p).fromBoff))
    let d := (restartRegs (portIdle d p) p rs).clr BpPair.ONB p
    let d := onPort d p fun x => { x with fromBoff := false, workN := d.reg (BpNbt.addr p), workD := d.reg (BpDbt.addr p) }
    let d := (d.clr BpErr.RECOVN p)
    if boff then
      -- BUSOFF returns with its counters; it is no new entry
      (d.put BpStat.STATE p 5).put BpStat.OPMODE p (modeFor d 0)
    else
      let d := (d.clr BpStat.TEC p).clr BpStat.REC p
      let d := setMode d p (modeFor d 0)
      goState d p (if d.bit BpCfg.AUTOSTART p then 2 else 1)

/-- A port that listens from the next bus idle (R282, R396): a HELD unit or chip. -/
def portListen (d : Dev) (p : Fin 4) : Dev :=
  if d.fld BpStat.STATE p = 0 then d else modeAtIdle d p 2

/-- Whether the state and mode of a port are those of a command (R284): 0 START to 6 ARDSTOP. -/
def portCmdOk (d : Dev) (p : Fin 4) (cmd : Nat) : Bool :=
  let st := d.fld BpStat.STATE p
  let m := d.fld BpStat.OPMODE p
  let part := decide (2 ≤ st ∧ st ≤ 4)
  match cmd with
  | 0 => st == 1
  | 1 => decide (2 ≤ st)
  | 2 => st == 5
  | 3 => part && m == 2
  | 4 => part && m == 2 && !d.bit BpStat.ARDRUN p && (d.port p).lockT != some d.clk
  | 5 => part && m == 0
  | 6 => d.bit BpStat.ARDRUN p
  | _ => false

/-- The refusal of a write's command bits (R284), in the order 3, 2, 4, 1; zero where they are accepted. -/
def judgePort (d : Dev) (p : Fin 4) (cmds : Nat) : Nat :=
  if ([1, 2, 4, 8, 16, 32, 64].contains cmds) = false then 3
  else if d.fld TwStat.ROLE () = 2 then 2
  else if (d.pat.isNone ∨ chipHeldOn d) ∧ cmds ≠ 1 ∧ cmds ≠ 8 then 4
  else if portCmdOk d p (lowBit cmds) then 0 else 1

/-- An accepted port command carried out (R284). -/
def portDo (d : Dev) (p : Fin 4) (cmd : Nat) : Dev :=
  match cmd with
  | 0 =>
    if (d.port p).fromBoff then goState (d.clr BpErr.RECOVN p) p 6
    else goState (setMode d p (modeFor d (if d.bit BpCtl.STMODE p then 2 else 0))) p 2
  | 2 => goState (d.clr BpErr.RECOVN p) p 6
  | 3 => ardStart d p
  | 6 => d.clr BpStat.ARDRUN p
  | c =>
    let f := if c = 1 then BpCtl.STOP else if c = 4 then BpCtl.GONORMAL else BpCtl.GOLISTEN
    let (on, d) := frameOn (d.cmdAgain (BpCtl.addr p) (2 ^ c)) p
    let d := d.flag f p
    if on then d else portPend d p

/-- A write to BPCTL (R284, R298); a mirrored write on a SHADOW unit is not refused, and moves only what the mode does not decide (R292, R409). -/
def bpCtlWrite (d : Dev) (p : Fin 4) (w : Word) : Dev :=
  let d := mCfg (mCfg d BpCtl.STMODE p w) BpCtl.IDCOL_MODE p w
  let cmds := mOnes w % 128
  if cmds = 0 then d
  else if d.fld TwStat.ROLE () = 2 then
    if [1, 2, 4].contains cmds && portCmdOk d p (lowBit cmds) then portDo d p (lowBit cmds) else d
  else match judgePort d p cmds with
    | 0 => portDo d p (lowBit cmds)
    | r => portRefuse d p r

/-- The part of a write to BPCTL that is no command. -/
def bpCtlCfg (w : Word) : Word := w &&& 0x03800380

/-- A write to BPCTL by a master (R284, R409, R410): of a refused write on an ACTIVE unit the configuration bits are mirrored. -/
def bpCtlHost (s : State) (h : Master) (p : Fin 4) (w : Word) : Res :=
  hostW s h (BpCtl.addr p) false (unitRgn p) (mRsv 0xFC00 w) fun d =>
    let cmds := mOnes w % 128
    let r := judgePort d p cmds
    mirHost d (BpCtl.addr p) w none (cmds != 0 && r != 0)
      (fun d =>
        if d.fld TwStat.ROLE () = 1 then
          let d := portRefuse d p r
          if mMask (bpCtlCfg w) = 0 then d else mirSend d (BpCtl.addr p) (bpCtlCfg w) none
        else bpCtlWrite d p w)
      (fun d => if cmds ≠ 0 ∧ r ≠ 0 then portRefuse d p r else d)

/-- PORT_START (R284). -/
def execPortStart (h : Master) (p : Fin 4) (w : Word) (s : State) : Res := bpCtlHost s h p (ownM 0 w)

/-- PORT_STOP (R284). -/
def execPortStop (h : Master) (p : Fin 4) (w : Word) (s : State) : Res := bpCtlHost s h p (ownM 1 w)

/-- RECOVER (R296). -/
def execRecover (h : Master) (p : Fin 4) (w : Word) (s : State) : Res := bpCtlHost s h p (ownM 2 w)

/-- ARD (R290). -/
def execArd (h : Master) (p : Fin 4) (w : Word) (s : State) : Res := bpCtlHost s h p (ownM 3 w)

/-- GONORMAL (R284). -/
def execGonormal (h : Master) (p : Fin 4) (w : Word) (s : State) : Res := bpCtlHost s h p (ownM 4 w)

/-- GOLISTEN (R284). -/
def execGolisten (h : Master) (p : Fin 4) (w : Word) (s : State) : Res := bpCtlHost s h p (ownM 5 w)

/-- ARDSTOP (R284). -/
def execArdstop (h : Master) (p : Fin 4) (w : Word) (s : State) : Res := bpCtlHost s h p (ownM 6 w)

/-- The address of a bit-timing register: 0 BPNBT, 1 BPDBT, 2 BPXBT. -/
def timingAddr (p : Fin 4) (r : Fin 3) : Nat :=
  match r with
  | 0 => BpNbt.addr p
  | 1 => BpDbt.addr p
  | 2 => BpXbt.addr p

/-- The writable bits of a bit-timing register (R304). -/
def timingMask (r : Fin 3) : Word := if r = 0 then 0x03FFFFFF else 0x0007FFFF

/-- A write to a bit-timing register (R286). -/
def timingDo (d : Dev) (p : Fin 4) (r : Fin 3) (w : Word) : Dev :=
  if d.fld BpStat.STATE p = 0 ∨ d.fld BpStat.STATE p = 1 then
    let d := d.setReg (timingAddr p r) (w &&& timingMask r)
    onPort d p fun x => { x with workN := d.reg (BpNbt.addr p), workD := d.reg (BpDbt.addr p) }
  else d.flag BpEvt.CFGREF p

/-- TIMING_WRITE (R286). -/
def execTimingWrite (h : Master) (p : Fin 4) (r : Fin 3) (w : Word) (s : State) : Res :=
  hostW s h (timingAddr p r) false (unitRgn p) (wRsv (2 ^ 32 - 1 - (timingMask r).toNat) w) fun d => timingDo d p r w

/-- A write to BPTQCTL (R327, R337). -/
def tqCtlWrite (d : Dev) (p : Fin 4) (w : Word) : Dev :=
  let d := mCfg (mCfg d TqCtl.ROTATE p w) TqCtl.ROTN p w
  if mOnes w % 2 = 1 then abortHead d p else d


/-- The address of a filter entry's MATCH0, MASK0, MATCH1 or MASK1 (R337). -/
def feAddr (p : Fin 4) (i : Fin 128) (r : Fin 4) : Nat := FeCtl.addr (p, i) + 4 + 4 * r.val

/-- A write to a filter entry's match or mask (R322). -/
def feWrite (d : Dev) (p : Fin 4) (i : Fin 128) (r : Fin 4) (w : Word) : Dev :=
  if d.bit FeCtl.EN (p, i) then d.flag RxStat.FEREF p else d.setReg (feAddr p i r) w

/-- FILTER_ENTRY_WRITE (R322, R409). -/
def execFilterEntryWrite (h : Master) (p : Fin 4) (i : Fin 128) (r : Fin 4) (w : Word) (s : State) : Res :=
  hostCmd s h (feAddr p i r) false (unitRgn p) fun d =>
    mirHost d (feAddr p i r) w none (d.bit FeCtl.EN (p, i)) (fun d => feWrite d p i r w) (fun d => d)

end Sys2Proof.Machine
end

