-- ==== Sys2Proof/Machine/Roles.lean ====
section
/-! DEFINITION. Roles and ownership (R396 to R398), entry into HELD (R396, R452), the decision of a chip failure (R390), and the end of a command that may have caused one (R386). -/

namespace Sys2Proof.Machine

/-- A source that begins to follow the other unit (R160): the domain that uses it is led by nothing (assumption log 102). -/
def followStart (d : Dev) (k : Fin 8) (alt : Bool) : Dev :=
  let c := srcKindCfg d k alt
  if c = 1 ∨ c = 5 then
    let d := if alt == altInUse d k then setOfs d k 0 else d
    setSrc d k alt { srcOf d k alt with valid := true, err := false, upd := none, dt := 0, ds := 0, good := 0 }
  else d

/-- The TIMER and BCAST domains begin to follow the other unit (R160). -/
def enterShadow (d : Dev) : Dev := forAll d fun d k => followStart (followStart d k false) k true

/-- A source that no longer follows the other unit (R160): a TIMER domain advances by its own INC from here, with no step; a BCAST domain keeps its rate until its own first reception, and a broadcast not in use has not been received yet. -/
def followEnd (d : Dev) (k : Fin 8) (alt : Bool) : Dev :=
  let used := alt == altInUse d k
  match srcKindCfg d k alt with
  | 1 => if used && domValid d k then runAtSource d k alt (domPhase d k) else d
  | 5 => setSrc d k alt (if used then { srcOf d k alt with valid := true, err := false, upd := none, dt := 0, ds := 0 } else PSrc.reset)
  | _ => d

/-- The TIMER and BCAST domains end to follow the other unit (R160). -/
def leaveShadow (d : Dev) : Dev := domRecheckAll (forAll d fun d k => followEnd (followEnd d k false) k true)

/-- A role taken (R398). -/
def setRole (d : Dev) (r hreason : Nat) : Dev :=
  let old := d.fld TwStat.ROLE ()
  let d := (d.put TwStat.ROLE () r).put TwStat.HREASON () hreason
  if old = r then d
  else
    let d := d.flag TwStat.ROLE_SEEN ()
    let d := if old = 2 then leaveShadow d else d
    if r = 2 then enterShadow d else d

/-- OWN_O falls, and TWQ_O with it (R397). -/
def ownDrop (d : Dev) : Dev :=
  ((d.clr TwStat.OWNO ()).clr TwStat.TWQO ()).onTw fun t => { t with twqPulse := false, ownT := none }

/-- OWN_O rises (R397). -/
def ownRaise (d : Dev) : Dev := (d.flag TwStat.OWNO ()).onTw fun t => { t with ownT := some d.clk, guard := .none }

/-- A block on a unit or chip that enters HELD (R396): as by DISARM (R85), its outputs at once and its runner at the end of the cycle, with its pending command decided. -/
def blockHeld (d : Dev) (nn : Fin 16) : Dev :=
  let st := bkState d nn
  let ref := d.bit BkCtl.ARM nn || d.bit BkCtl.RUN nn || d.bit BkCtl.STOP nn
  let d := if ref then blkRefuse (((d.clr BkCtl.ARM nn).clr BkCtl.RUN nn).clr BkCtl.STOP nn) nn 7 else d
  let d := if st = 2 ∨ st = 3 ∨ st = 4 then
      let d := (legsRelease d nn).clr BkCtl.DISARM nn
      if (d.b nn).inCycle && !d.bit Pstat.HOLD nn then d.onB nn fun b => { b with disarm := true } else heldEntry d nn
    else d
  setPending d nn

/-- The unit enters HELD (R396, R397). -/
def roleHeld (d : Dev) (hreason : Nat) : Dev :=
  let was := d.fld TwStat.ROLE ()
  let d := ownDrop (setRole d 3 hreason)
  let d := d.onTw fun t => { t with mirror := [], takeover := false, resume := [], handing := false, guard := .none }
  if was = 3 then d
  else
    let d := d.raise 643 7
    let d := forAll d fun d nn => blockHeld d nn
    forAll d fun d p => portListen d p

/-- A start-up whose pattern is in effect and which waits only for the alignment of a pair (R406). -/
def stageWaits (d : Dev) : Bool := d.fld Start.STAGE () == 4 && d.patOp.isNone && d.pat.isSome

/-- The chip enters the HELD condition (R451, R452): STAGE reads HELD while a pattern is in effect. -/
def chipHeld (d : Dev) : Dev :=
  let d := if stageWaits d then d.put Start.STAGE () 5 else d
  let d := if d.bit BootCause.HELD () then d else d.raise 645 11
  let d := d.flag BootCause.HELD ()
  let d := roleHeld d (d.fld TwStat.HREASON ())
  let d := forAll d fun d nn => blockHeld d nn
  forAll d fun d p => portListen d p

/-- A chip failure is decided (R390): a further cause in the sequence changes nothing. -/
def chipFail (d : Dev) (cause : Nat) (n : Fin 4) : Dev :=
  if d.failT then d
  else
    let d := ((d.put Fail.CAUSE () cause).put Fail.REGION () (if cause = 2 then n.val else 0)).incSat Fail.FCNT ()
    let d := forAll { d with failT := true } fun d nn => quench d nn (2 ^ 14)
    let d := (ownDrop d).onTw fun t => { t with dead := true, txq := [], guard := .none, handing := false, takeover := false }
    portsOff d

/-- The end of a command: a region whose fourth error has come is a chip failure with CAUSE 2 (R386). -/
def failCheck (d : Dev) : Dev :=
  match d.failDue with
  | none => d
  | some n => chipFail { d with failDue := none } 2 n

/-- A command of region n that may find a region error. -/
def onRegionF (n : Fin 4) (s : State) (f : Dev → Dev) : Res := onRegion n s fun d => failCheck (f d)

end Sys2Proof.Machine
end

