-- ==== Sys2Proof/Machine/Bus.lean ====
section
/-! DEFINITION. Commands of the bus ports, queues and windows: reception and filtering (R302, R320 to R324), attempts and errors (R295 to R298, R327, R331), windows (R299 to R301, R331, R332), host pushes and pops (R309 to R316), and region errors (R384 to R386). -/

namespace Sys2Proof.Machine

/-- Whether two frames are copies of one (R302). -/
def sameFrame (f g : Frame) : Bool :=
  f.fmt == g.fmt && f.id == g.id && f.data == g.data &&
    (if f.fmt.val = 4 then f.sdt == g.sdt && f.vcid == g.vcid && f.af == g.af else f.dlc == g.dlc)

/-- Clk in a number of microseconds. -/
def usClk (d : Dev) (us : Nat) : Nat := nsClk d (us * 1000)

/-- A received frame noted for R302, and whether it is a duplicate of one on the partner port; each port of a pair judges with its own DUPW. -/
def dupCheck (d : Dev) (p : Fin 4) (f : Frame) : Bool × Dev :=
  let w := d.fld BpPair.DUPW p
  if !d.bit BpPair.PAIRED p then (false, d)
  else
    let q : Fin 4 := ⟨d.fld BpPair.PARTNER p % 4, Nat.mod_lt _ (by omega)⟩
    let dup := w != 0 && (d.port q).recent.any fun e => decide (d.clk ≤ e.1 + usClk d w) && sameFrame e.2 f
    let d := onPort d p fun x =>
      { x with recent := (x.recent.filter fun e => decide (d.clk ≤ e.1 + usClk d 256)) ++ [(d.clk, f)] }
    (dup, if dup then d.inc BpPair.DUPCNT p else d)

/-- Whether a frame carries a 29-bit identifier. -/
def frameXtd (f : Frame) : Bool := f.fmt.val == 1 || f.fmt.val == 3

/-- The virtual node whose range holds a frame's identifier (R323); SUP tags nothing. -/
def vnOf (d : Dev) (p : Fin 4) (f : Frame) : Option Nat :=
  ((List.finRange 17).find? fun v => decide (v.val < 16) && inSlot d p v f.id.toNat (frameXtd f)).map (·.val)

/-- Key word 0 of a frame (R321), as in word 1 of an entry (R322). -/
def key0 (f : Frame) : Word :=
  BitVec.ofNat 32 (f.id.toNat + (frameXtd f).toNat * 2 ^ 29 + f.rtr.toNat * 2 ^ 30)

/-- The format class of a frame (R321). -/
def fmtClass (f : Frame) : Nat := if f.fmt.val < 2 then 0 else if f.fmt.val < 4 then 1 else 2

/-- VNV and VNODE as five bits, VNV lowest. -/
def vnBits (vn : Option Nat) : Nat :=
  match vn with
  | some v => 1 + 2 * (v % 16)
  | none => 0

/-- Key word 1 of a frame (R321). -/
def key1 (f : Frame) (self : Bool) (vn : Option Nat) : Word :=
  let xl := f.fmt.val == 4
  let b0 := if xl then f.vcid else (f.data[0]?).getD 0
  let b1 := if xl then f.sdt else (f.data[1]?).getD 0
  BitVec.ofNat 32 (fmtClass f + self.toNat * 2 ^ 2 + vnBits vn * 2 ^ 3 + b0.toNat * 2 ^ 8 + b1.toNat * 2 ^ 16)

/-- Whether a filter entry is enabled and matches a key (R321). -/
def feHit (d : Dev) (p : Fin 4) (k0 k1 : Word) (i : Fin 128) : Bool :=
  d.bit FeCtl.EN (p, i) &&
    (k0 &&& d.reg (FeMask0.addr (p, i))) == (d.reg (FeMatch0.addr (p, i)) &&& d.reg (FeMask0.addr (p, i))) &&
    (k1 &&& d.reg (FeMask1.addr (p, i))) == (d.reg (FeMatch1.addr (p, i)) &&& d.reg (FeMask1.addr (p, i)))

/-- The deciding entry of a frame: the lowest index that matches, none for BPFDEF (R321). -/
def feFor (d : Dev) (p : Fin 4) (f : Frame) (self : Bool) : Option (Fin 128) :=
  let k0 := key0 f
  let k1 := key1 f self (vnOf d p f)
  (List.finRange 128).find? fun i => feHit d p k0 k1 i

/-- The action and priority that decide a frame (R321). -/
def feAction (d : Dev) (p : Fin 4) : Option (Fin 128) → Nat × Nat
  | some i => (d.fld FeCtl.ACT (p, i), d.fld FeCtl.PRI (p, i))
  | none => (d.fld Fdef.ACT p, d.fld Fdef.PRI p)

/-- The words of a receive entry after its length slot (R322). -/
def rxWords (d : Dev) (p : Fin 4) (f : Frame) (self : Bool) (fe : Option (Fin 128)) (pri sof fseq : Nat) : List Word :=
  let w2 := f.fmt.val + f.brs.toNat * 2 ^ 3 + f.esi.toNat * 2 ^ 4 + self.toNat * 2 ^ 5 + vnBits (vnOf d p f) * 2 ^ 6 +
    ((fe.map (·.val)).getD 0) * 2 ^ 11 + fe.isNone.toNat * 2 ^ 18 + pri % 16 * 2 ^ 19
  let w3 := f.data.length + f.dlc.toNat * 2 ^ 12 + f.sdt.toNat * 2 ^ 16 + f.vcid.toNat * 2 ^ 24
  [key0 f, BitVec.ofNat 32 w2, BitVec.ofNat 32 w3, if f.fmt.val = 4 then f.af else 0,
   BitVec.ofNat 32 sof, BitVec.ofNat 32 (sof / 2 ^ 32), BitVec.ofNat 32 (fseq % 2 ^ 16)] ++ bytesWords f.data

/-- A frame dropped whole (R320). -/
def frameDrop (d : Dev) (p : Fin 4) (q : Fin 64) : Dev :=
  (qDropped (d.inc RxCnt.DROP p) p q).raise (rgSrc p 2) 0

/-- A frame stored in RQ0 or RQ1, held for the end of a rebuild, or dropped (R319, R320), also where the crossbar has dropped its store (R384). -/
def frameStore (d : Dev) (p : Fin 4) (q : Fin 64) (pri len : Nat) (ws : List Word) : Bool × Dev :=
  let d := touchFree (touchQ d p q) p
  if (d.port p).xbStore then (false, frameDrop (onPort d p fun x => { x with xbStore := false }) p q)
  else if d.bit RQstat.REBUILD p && qLive d p q && decide ((d.port p).held.length < 2) then
    (true, onPort d p fun x => { x with held := x.held ++ [(q.val, pri, len, ws)] })
  else match storePkt d p q pri len ws with
    | (true, d) => (true, d)
    | (false, d) => (false, frameDrop d p q)

/-- A phase broadcast taken by a domain (R158, R321): whether the source in use of the domain is BCAST on this port. -/
def phaseCast (d : Dev) (p : Fin 4) (k : Fin 8) (f : Frame) (sof : Nat) : Bool × Dev :=
  let alt := altInUse d k
  if srcKind d k alt = 5 ∧ srcSel d k alt = p.val then
    let at_ := d.patT + sof + nsClk d (srcScale d k alt)
    (true, if f.data.length < 5 then d else srcUpdateAt d k alt at_ (leVal ((f.data.take 5).map (·.toNat))))
  else (false, d)

/-- A frame stored by its outcome (R320, R411). -/
def rxKeep (d : Dev) (p : Fin 4) (f : Frame) (self : Bool) (fe : Option (Fin 128)) (q : Fin 64) (pri sof fseq : Nat) : RxOut × Dev :=
  match frameStore d p q pri (28 + f.data.length) (rxWords d p f self fe pri sof fseq) with
  | (true, d) => (.store q pri, d)
  | (false, d) => (.drop, d)

/-- A phase broadcast taken for its domain, or counted as unmatched (R321). -/
def castCount (d : Dev) (p : Fin 4) (k : Fin 8) (f : Frame) (sof : Nat) : Dev :=
  match phaseCast d p k f sof with
  | (true, d) => d
  | (false, d) => d.inc RxCnt.NOMATCH p

/-- The action of a filter entry on a frame (R321). -/
def rxAct (d : Dev) (p : Fin 4) (f : Frame) (self : Bool) (sof fseq act pri : Nat) (fe : Option (Fin 128)) : RxOut × Dev :=
  match act, fe with
  | 1, _ => rxKeep d p f self fe rq0 pri sof fseq
  | 2, _ => rxKeep d p f self fe rq1 pri sof fseq
  | 3, some i =>
    let d := castCount d p ⟨d.fld FeCtl.DOM (p, i) % 8, Nat.mod_lt _ (by omega)⟩ f sof
    if d.bit FeCtl.COPY (p, i) then rxKeep d p f self fe rq1 pri sof fseq else (.discard, d)
  | _, some _ => (.discard, d)
  | _, none => (.discard, d.inc RxCnt.NOMATCH p)

/-- A frame filtered and its action taken (R321). -/
def rxFilter (d : Dev) (p : Fin 4) (f : Frame) (self : Bool) (sof : Nat) : Dev :=
  let fseq := ((d.port p).fseq + 1) % 2 ^ 16
  let d := onPort d p fun x => { x with fseq := fseq }
  let fe := feFor d p f self
  let a := feAction d p fe
  let r := rxAct d p f self sof fseq a.1 a.2 fe
  let d := r.2
  if d.fld TwStat.ROLE () = 1 then
    let d := onPort d p fun x => { x with sentRx := x.sentRx.drop (x.sentRx.length - 63) ++ [(f, self, sof, fseq, r.1)] }
    ownerSend d (.rxr p sof fseq (Config.frameCrc f) r.1)
  else d

/-- A frame that has become valid for receivers (R302, R320, R324): a SHADOW unit keeps it provisionally (R411). -/
def rxFrame (d : Dev) (p : Fin 4) (f : Frame) (self : Bool) (sof : Nat) : Dev :=
  if d.pat.isNone then d
  else
    let (dup, d) := dupCheck d p f
    if dup then d
    else if d.fld TwStat.ROLE () = 2 then onPort d p fun x => { x with prov := x.prov ++ [(f, self, sof, d.clk)] }
    else rxFilter d p f self sof

/-- REC after a frame received without error (R295, fault confinement of the standard; assumption log 12). -/
def recGood (d : Dev) (p : Fin 4) : Dev :=
  let r := d.fld BpStat.REC p
  if r = 0 then d
  else if r ≤ 127 then d.put BpStat.REC p (r - 1)
  else
    let (k, d) := d.free
    d.put BpStat.REC p (119 + Config.freeNat k % 9)

/-- Whether a port takes part on its bus (R281): error active or passive, not waiting for 11 recessive bits. -/
def takesPart (d : Dev) (p : Fin 4) : Bool :=
  (d.fld BpStat.STATE p == 3 || d.fld BpStat.STATE p == 4) && !(d.port p).waitIdle

/-- The flag that a port sends now, in NORMAL only (R277, R281). -/
def sendFlag (d : Dev) (p : Fin 4) (x : BusFlag) : Dev :=
  if d.fld BpStat.OPMODE p = 0 then onPort d p fun y => { y with flagTx := some x } else d

/-- Whether rate detection has moved to its candidate since the start of a frame, which it then abandons (R291). -/
def ardGone (d : Dev) (p : Fin 4) (sof : Nat) : Bool :=
  d.bit BpStat.ARDRUN p && decide (d.patT + sof < (d.port p).candT)

/-- FRAME_RECEIVED (R278, R281, R290, R291, R320, R324): a format that is not enabled cannot be received. -/
def execFrameReceived (p : Fin 4) (f : Frame) (self : Bool) (sof : Nat) (s : State) : Res :=
  onRegionF p s fun d =>
    if !takesPart d p || !fmtOn d p f.fmt.val || ardGone d p sof then d
    else if self then (if d.bit Fdef.SREN p then rxFrame d p f true sof else d)
    else
      let d := sendFlag (d.inc BpCnt.RXOK p) p .ack
      let d := if d.fld BpStat.OPMODE p = 0 then confine (recGood d p) p else d
      let d := if d.bit BpStat.ARDRUN p then ardFrame d p f else rxFrame d p f false sof
      portPend d p

/-- A detected error recorded (R295). -/
def errRecord (d : Dev) (p : Fin 4) (lec : Nat) (data : Bool) : Dev :=
  ((d.put BpErr.LEC p lec).putB BpErr.LEPH p data).incSat BpErr.ERRCNT p

/-- The LEC code of an error (R304). -/
def lecOf : BusErrKind → Nat
  | .stuff => 1 | .form => 2 | .ack => 3 | .bit1 => 4 | .bit0 => 5 | .crc => 6

/-- The steps of TEC and REC that an error gives (R295, by the confinement rules of the standard; assumption log 12): a transmitter counts 8, but not for an ACK error while it is error passive or a stuff error in the arbitration field that the standard exempts, a receiver 1, or 8 for a bit error while it sends an active error or overload flag, and each further run of dominant bits 8. -/
def confSteps (d : Dev) (p : Fin 4) (e : BusErr) : Nat × Nat :=
  let spared := e.exempt && ((e.kind == .ack && d.fld BpStat.STATE p == 4) || (e.kind == .stuff && !e.afterArb))
  let own := e.inFlag && (e.kind == .bit1 || e.kind == .bit0)
  if (d.port p).tx.isSome then ((if spared then 0 else 8) + 8 * e.extra, 0) else (0, (if own then 8 else 1) + 8 * e.extra)

/-- An error flag and the counters after it in NORMAL, or the wait of the other modes (R281, R295). -/
def errCount (d : Dev) (p : Fin 4) (steps : Nat × Nat) : Dev :=
  if d.fld BpStat.OPMODE p = 0 then
    let d := sendFlag d p (if d.fld BpStat.STATE p = 4 then .passive else .active)
    confine ((d.put BpStat.TEC p (min (d.fld BpStat.TEC p + steps.1) 511)).put BpStat.REC p (min (d.fld BpStat.REC p + steps.2) 255)) p
  else onPort d p fun x => { x with waitIdle := true }

/-- PROTOCOL_EXCEPTION (R278): with PXHEN the port waits for bus idle; otherwise a form error. -/
def execProtocolException (p : Fin 4) (xl : Bool) (s : State) : Res :=
  onRegionF p s fun d =>
    if !takesPart d p || fmtOn d p (if xl then 4 else 2) then d
    else if d.bit BpCfg.PXHEN p then onPort (d.flag BpEvt.PXH_SEEN p) p fun x => { x with waitIdle := true }
    else
      let d := errCount (errRecord d p 2 false) p (0, 1)
      portPend (if d.bit BpStat.ARDRUN p then ardNext d p else d) p

/-- The due window frame with the lowest identifier, ties going to the lower number (R331). -/
def winBest (d : Dev) (p : Fin 4) : Option (Fin 32) :=
  (List.finRange 32).foldl (fun b w =>
    if d.bit WStat.DUE (p, w) then
      match b with
      | none => some w
      | some v => if d.fld WCfg0.ID (bufPort d p, w) < d.fld WCfg0.ID (bufPort d p, v) then some w else b
    else b) none

/-- TRANSMIT_DECISION (R331): at bus idle or the end of an intermission. -/
def execTransmitDecision (p : Fin 4) (s : State) : Res :=
  onRegionF p s fun d =>
    let d := portPend d p
    if !portCanSend d p || (d.port p).waitIdle || (d.port p).tx.isSome then d
    else
      let d := headCheck d p
      let pick : Option (TxWhat × (Nat → Frame)) := match winBest d p with
        | some w => if (d.port p).xbFetch then none else some (.window w, fun k => winFrame d p w k)
        | none => (tqHead d p).map fun h => (.head, fun k => pktFrame h (d.fld BpStat.STATE p == 4) k)
      match pick with
      -- a window whose fetch the crossbar has dropped starts no attempt (R384)
      | none => onPort d p fun x => { x with xbFetch := x.xbFetch && (winBest d p).isNone }
      | some (what, fr) =>
        let (k, d) := d.free
        let sof := d.clk - d.patT + Config.freeNat k
        let d := onPort (d.flag BpStat.TXING p) p fun x =>
          { x with tx := some what, txFrame := some (fr k), sofTx := sof, orphan := false, xlPhase := 0 }
        match what with
        | .window w => d.flag WStat.TXING (p, w)
        | .head => d

/-- One clk of a port that sends an XL frame (R280): where its data phase begins and ends is open (assumption log 1). -/
def portTick (d : Dev) (p : Fin 4) : Dev :=
  let x := d.port p
  if (match x.txFrame with | some f => f.fmt == 4 | none => false) && x.xlPhase != 2 then
    let (k, d) := d.free
    if Config.choice k then onPort d p fun y => { y with xlPhase := y.xlPhase + 1 } else d
  else d

/-- A collision count ends with a successful transmission of its identifier, in any format (R298). -/
def idcSent (d : Dev) (p : Fin 4) (f : Frame) : Dev :=
  if d.fld BpIdc.ID p = f.id.toNat ∧ d.bit BpIdc.XTD p = frameXtd f then d.clr BpIdc.SUCC p
  else d

/-- The loop delay measured in a frame that the port transmits (R288): what the bus gives (assumption log 1). -/
def tdcMeasure (d : Dev) (p : Fin 4) (f : Frame) : Dev :=
  if d.bit BpCfg.TDCEN p && decide (2 ≤ f.fmt.val) then
    let (k, d) := d.free
    d.put BpTdc.TDCV p (Config.freeNat k)
  else d

/-- FRAME_TRANSMITTED (R295, R324, R327). -/
def execFrameTransmitted (p : Fin 4) (s : State) : Res :=
  onRegionF p s fun d =>
    match (d.port p).txFrame with
    | none => d
    | some f =>
      let sof := (d.port p).sofTx
      let d := (tdcMeasure d p f).inc BpCnt.TXOK p
      let d := if d.fld BpStat.OPMODE p = 0 then confine (d.put BpStat.TEC p (d.fld BpStat.TEC p - 1)) p else d
      let d := txSent (idcSent d p f) p
      let d := if d.bit Fdef.SREN p then rxFrame d p f true sof else d
      portPend d p

/-- ARBITRATION_LOST (R327). -/
def execArbitrationLost (p : Fin 4) (s : State) : Res :=
  onRegionF p s fun d => if (d.port p).tx.isSome then txFailed d p false true else d

/-- A failing attempt counted toward a collision (R298), and whether the frame is withdrawn. -/
def idcCount (d : Dev) (p : Fin 4) (f : Frame) : Bool × Dev :=
  let old := d.fld BpIdc.SUCC p
  let same := old ≠ 0 ∧ d.fld BpIdc.ID p = f.id.toNat ∧ d.bit BpIdc.XTD p = frameXtd f ∧ (d.port p).idcFmt = f.fmt.val
  let n := if same then min (old + 1) 2 else 1
  let d := ((d.put BpIdc.ID p f.id.toNat).putB BpIdc.XTD p (frameXtd f)).put BpIdc.SUCC p n
  let d := onPort d p fun x => { x with idcFmt := f.fmt.val }
  if n = 2 then
    let d := if same ∧ old = 1 then (d.flag BpEvt.IDCOL p).raise (rgSrc p 5) (d.lo16 BpIdc.word p) else d
    if d.fld BpCtl.IDCOL_MODE p = 0 then (false, d) else (true, d.clr BpIdc.SUCC p)
  else (false, d)

/-- Whether an error is the loop delay of R288: a bit error in the data phase of a frame that the port transmits with TDCEN. -/
def tdcFails (d : Dev) (p : Fin 4) (e : BusErr) : Bool :=
  e.tdcFail && d.bit BpCfg.TDCEN p && e.dataPhase && (e.kind == .bit1 || e.kind == .bit0) &&
    match (d.port p).txFrame with
    | some f => decide (2 ≤ f.fmt.val)
    | none => false

/-- BUS_ERROR (R281, R288, R290, R295, R297, R298, R303). -/
def execBusError (p : Fin 4) (e : BusErr) (s : State) : Res :=
  onRegionF p s fun d =>
    if !takesPart d p then d
    else
      let d := errRecord d p (lecOf e.kind) e.dataPhase
      let d := if tdcFails d p e then d.flag BpEvt.TDCFAIL p else d
      let (col, d) : Bool × Dev := match (d.port p).txFrame with
        | some f =>
          let d := if e.afterArb then tdcMeasure d p f else d
          if e.afterArb && (e.kind == .bit1 || e.kind == .bit0) then idcCount d p f else (false, d)
        | none => (false, d)
      let d := errCount d p (confSteps d p e)
      let d := txFailed d p col false
      portPend (if d.bit BpStat.ARDRUN p then ardNext d p else d) p

/-- INTEGRATION_DONE (R281): 11 consecutive recessive bits; the state of a SHADOW port is the owner's (R294). -/
def execIntegrationDone (p : Fin 4) (s : State) : Res :=
  onRegion p s fun d =>
    let d := onPort d p fun x => { x with waitIdle := false }
    let d := if d.fld BpStat.STATE p = 2 ∧ d.fld TwStat.ROLE () ≠ 2 then goState d p (confineState d p) else d
    portPend d p

/-- RECOVERY_SEQUENCE (R296): with the bus idle a STOP that waited takes effect (R284); a SHADOW port counts on, and its state is the owner's (R294). -/
def execRecoverySequence (p : Fin 4) (s : State) : Res :=
  onRegion p s fun d =>
    let d := portPend d p
    if d.fld BpStat.STATE p ≠ 6 then d
    else
      let n := min (d.fld BpErr.RECOVN p + 1) 128
      let d := d.put BpErr.RECOVN p n
      if n < 128 ∨ d.fld TwStat.ROLE () = 2 then d
      else
        let d := (d.clr BpStat.TEC p).clr BpStat.REC p
        let d := setMode d p (modeFor d (d.port p).savedMode)
        portEvent ((goState d p 3).flag BpEvt.RECOV_SEEN p) p

/-- ARD_DWELL_EXPIRE (R290): the candidate has seen no counted frame within DWELL. -/
def execArdDwellExpire (p : Fin 4) (s : State) : Res :=
  onRegion p s fun d => if d.bit BpStat.ARDRUN p ∧ d.fld BpArd.VALIDN p = 0 then ardNext d p else d

/-- RX_DOMINANT (R385). -/
def execRxDominant (p : Fin 4) (s : State) : Res :=
  onRegion p s fun d => portEvent (d.flag Rerr.RXDOM p) p

/-- A write to BPTQCTL by a master (R327, R409), which may find a region error. -/
def tqCtlHost (s : State) (h : Master) (p : Fin 4) (w : Word) : Res :=
  hostW s h (TqCtl.addr p) false (unitRgn p) (mRsv 0xFFC0 w) fun d =>
    mirHost d (TqCtl.addr p) w none false (fun d => failCheck (tqCtlWrite d p w)) (fun d => d)

/-- ABORT_HEAD (R327). -/
def execAbortHead (h : Master) (p : Fin 4) (w : Word) (s : State) : Res := tqCtlHost s h p (ownM 0 w)

/-- WINDOW_OPEN (R331), by the schedule of port A of a pair (R299): no instance opens while DOM is invalid (R332). -/
def execWindowOpen (p : Fin 4) (i : Fin 32) (s : State) : Res :=
  onRegionF p s fun d =>
    if d.fld WCfg1.EVERY (bufPort d p, i) = 0 ∨ !domValid d (winDom d p i) ∨ (winOf d p i).isOpen then d
    else
      let d := if (winOf d p i).closing then winFinal d p i else d
      winDue (onW d p i fun _ => ⟨true, false, false, false, false, false, false⟩) p i

/-- WINDOW_CLOSE (R331, R332): at CPOS, or as DOM becomes invalid. -/
def execWindowClose (p : Fin 4) (i : Fin 32) (s : State) : Res :=
  onRegionF p s fun d => winClose d p i

/-- A host write in region n that may find a region error. -/
def hostRgn (s : State) (h : Master) (a : Nat) (n : Fin 4) (chg : Nat) (f : Dev → Dev) : Res :=
  hostW s h a false (unitRgn n) chg fun d => failCheck (f d)

/-- A push to TQ by a master is a mirrored write (R409); on a SHADOW unit it is ignored and counts in DROPCNT (R328). -/
def pushHost (d : Dev) (n : Fin 4) (q : Fin 64) (h : Master) (a : Nat) (w : Word) (go : Dev → Dev) : Dev :=
  if q = tq then
    mirHost d a w none (notProd d n q (whoOf h)) go
      (fun d => if d.fld TwStat.ROLE () = 2 then d.inc QStat.DROPCNT (n, q) else d)
  else go d

/-- PDATA (R309, R310). -/
def execPdata (h : Master) (n : Fin 4) (q : Fin 64) (w : Word) (s : State) : Res :=
  hostRgn s h (QPdata.addr (n, q)) n 0 fun d =>
    pushHost d n q h (QPdata.addr (n, q)) w fun d => pushWord d n q (whoOf h) w

/-- PEND (R309). -/
def execPend (h : Master) (n : Fin 4) (q : Fin 64) (w : Word) (s : State) : Res :=
  hostRgn s h (QPend.addr (n, q)) n (wRsv 0xFFFFFFC0 w) fun d =>
    pushHost d n q h (QPend.addr (n, q)) w fun d => pendWord d n q (whoOf h) w

/-- POP (R311 to R315). -/
def execPop (h : Master) (n : Fin 4) (q : Fin 64) (s : State) : Res :=
  hostRd s h (QPop.addr (n, q)) (unitRgn n) fun d => failCheck (popBy d n q h)

/-- POP_STALL_TIMEOUT (R312). -/
def execPopStallTimeout (n : Fin 4) (q : Fin 64) (s : State) : Res :=
  onRegion n s fun d => popExpire d n q

/-- ACK (R314). -/
def execAck (h : Master) (n : Fin 4) (q : Fin 64) (w : Word) (s : State) : Res :=
  hostRgn s h (QAck.addr (n, q)) n (wRsv 0xFFFF0000 w) fun d => ackEntry d n q w

/-- OWNTMO_EXPIRE (R314, R371). -/
def execOwntmoExpire (n : Fin 4) (q : Fin 64) (cell : Nat) (s : State) : Res :=
  onRegionF n s fun d => if chanHolds d n q cell then d else reclaim d n q cell

/-- A write to Qq.CTL (R316). -/
def qCtlWrite (d : Dev) (n : Fin 4) (q : Fin 64) (w : Word) : Dev :=
  let c := mOnes w % 4
  let d := if c.testBit 0 then slag d n q else d
  if c.testBit 1 then resetQueue (touchQ d n q) n q false else d

/-- A write to Qq.CTL by a master. -/
def qCtlHost (s : State) (h : Master) (n : Fin 4) (q : Fin 64) (w : Word) : Res :=
  hostRgn s h (QCtl.addr (n, q)) n (mRsv 0xFFFC w) fun d => qCtlWrite d n q w

/-- SLAG (R316). -/
def execSlag (h : Master) (n : Fin 4) (q : Fin 64) (w : Word) (s : State) : Res := qCtlHost s h n q (ownM 0 w)

/-- FLUSH (R316). -/
def execFlush (h : Master) (n : Fin 4) (q : Fin 64) (w : Word) (s : State) : Res := qCtlHost s h n q (ownM 1 w)

/-- STALE_EXPIRE (R316). -/
def execStaleExpire (n : Fin 4) (q : Fin 64) (s : State) : Res :=
  onRegion n s fun d =>
    if d.fld QCfg1.QSTALE (n, q) ≠ 0 ∧ qHas (qGet d n q) ∧ qLive d n q then
      queueEvent (d.flag QStat.STALE (n, q)) n q
    else d

/-- SCRUB_DONE (R318). -/
def execScrubDone (n : Fin 4) (q : Fin 64) (s : State) : Res :=
  onRegionF n s fun d => if d.bit QStat.RST (n, q) then scrubEnd d n q else d

/-- Frames held during a rebuild stored (R319). -/
def heldFrames (d : Dev) (n : Fin 4) : Dev :=
  let hs := (d.port n).held
  hs.foldl (fun d e => (frameStore d n ⟨e.1 % 64, Nat.mod_lt _ (by omega)⟩ e.2.1 e.2.2.1 e.2.2.2).2)
    (onPort d n fun x => { x with held := [] })

/-- Pushes held during a rebuild carried out (R319). -/
def heldPushes (d : Dev) (n : Fin 4) : Dev :=
  let hs := (d.r n).heldPush
  hs.foldl (fun d e => if e.2.1 then pendWord d n e.1 e.2.2.1 e.2.2.2 else pushWord d n e.1 e.2.2.1 e.2.2.2)
    (d.onR n fun r => { r with heldPush := [] })

/-- REBUILD_DONE (R319). -/
def execRebuildDone (n : Fin 4) (s : State) : Res :=
  onRegionF n s fun d =>
    if d.bit RQstat.REBUILD n then heldPushes (heldFrames (d.clr RQstat.REBUILD n) n) n else d

/-- A host's access to region n dropped on its way (R113, R384): it ends in an error, logged with KIND 4; which master's access it was, and of what kind, is open (assumption log 1). -/
def hostDropped (d : Dev) (n : Fin 4) : Dev :=
  let (i, d) := d.free
  let (j, d) := d.free
  let (k, d) := d.free
  let (l, d) := d.free
  let m : Master := if Config.freeNat i % 3 = 0 then .pf0 else if Config.freeNat i % 3 = 1 then .pf1 else .shp
  let write := Config.choice j
  let d := d.hostErr 4 m write (0x1000000 * (n.val + 1) + Config.freeNat k % 0x1000000) (Config.freeNat l % 16)
  if m = .shp then shpSay d 6 (if write then [] else [0])
  else if write then aerLog d m else answer d m 6 []

/-- CROSSBAR_TIMEOUT (R384): requester 0 to 3 a block position, 4 the port, 5 Ladle, 6 a host, 7 a steward; what the port or the host asked for is open (assumption log 1). A store that the port asked for is that of the frame it is receiving, which is then dropped under R320 as FRAME_RECEIVED comes to store it. -/
def execCrossbarTimeout (n : Fin 4) (req : Fin 8) (s : State) : Res :=
  onRegionF n s fun d =>
    let d := regionErr (d.put Rerr.REQ n req.val) n 1
    if req.val < 4 then
      let nn := blkAt n ⟨req.val % 4, Nat.mod_lt _ (by omega)⟩
      let d := (d.flag Wdog.ABN_SEEN nn).raise (bkSrc nn 21) 5
      if (slotNow d nn).isSome then slotNext d nn else d
    else if req.val = 4 then
      let (k, d) := d.free
      onPort d n fun x => if Config.choice k then { x with xbStore := true } else { x with xbFetch := true }
    else if req.val = 6 then hostDropped d n
    else d

/-- POOL_TIMEOUT (R384): whether the operation was a host's, whose access then ends in an error (R113), is open (assumption log 1). -/
def execPoolTimeout (n : Fin 4) (q : Fin 64) (s : State) : Res :=
  onRegionF n s fun d =>
    let (k, d) := (resetQueue (regionErr d n 2) n q true).free
    if Config.choice k then hostDropped d n else d

/-- PORT_STALL (R384): the port restarts as after a clock loss. -/
def execPortStall (n : Fin 4) (s : State) : Res :=
  onRegionF n s fun d =>
    let st := d.fld BpStat.STATE n
    if 2 ≤ st then portRestart (regionErr d n 4) n true else d

/-- REGION_WINDOW_EXPIRE (R386). -/
def execRegionWindowExpire (n : Fin 4) (s : State) : Res := onRegion n s fun d => d.clr Rerr.WIN n

/-- QERR_WINDOW_EXPIRE (R384). -/
def execQerrWindowExpire (n : Fin 4) (s : State) : Res :=
  onRegion n s fun d => d.onR n fun r => { r with qerrWin := 0 }

end Sys2Proof.Machine
end

