-- ==== Sys2Proof/Machine/Gather.lean ====
section
/-! DEFINITION. The event gatherer (12_event_gatherer.md): doorbell messages (R338 to R343), normal records (R344 to R346), hold-off (R347), claim and completion (R348 to R350), fast records (R351, R352), interrupts and sleep (R353, R354). -/

namespace Sys2Proof.Machine

/-- The source of a number below 1024. -/
def srcIx (s : Nat) : Fin 1024 := ⟨s % 1024, Nat.mod_lt _ (by omega)⟩

/-- The word of a bit-per-source register that holds source s. -/
def srcWord (s : Nat) : Fin 32 := ⟨s / 32 % 32, Nat.mod_lt _ (by omega)⟩

/-- The bit of source s in EVG.SACT, EVG.SPND or EVG.SSTK (R359). -/
def sbit (d : Dev) (f : RF (Fin 32)) (s : Nat) : Bool := (d.fld f (srcWord s)).testBit (s % 32)

/-- The device with the bit of source s set or cleared. -/
def sbitPut (d : Dev) (f : RF (Fin 32)) (s : Nat) (v : Bool) : Dev :=
  let m := BitVec.ofNat 32 (2 ^ (s % 32))
  let w := d.reg (f.addr (srcWord s))
  d.setReg (f.addr (srcWord s)) (if v then w ||| m else w &&& ~~~m)

/-- Whether a source number is in the source map (R358). -/
def srcExists (s : Nat) : Bool :=
  if s < 512 then s % 32 ≤ 21 else if s < 640 then s % 32 ≤ 7 else s ≤ 653 || (960 ≤ s && s < 1024)

/-- Whether a source is a LEVEL source (R338, R358). -/
def srcLevel (d : Dev) (s : Nat) : Bool :=
  if s ≥ 960 then d.bit Src.SWKIND (srcIx s)
  else s < 512 && ((9 ≤ s % 32 && s % 32 ≤ 16) || s % 32 == 18 || s % 32 == 19)

/-- The trace of a source. -/
def srcSt (d : Dev) (s : Nat) : SrcSt := tget (fun _ => SrcSt.reset) d.src s

/-- The device with the trace of a source changed. -/
def onSrc (d : Dev) (s : Nat) (f : SrcSt → SrcSt) : Dev :=
  { d with src := tset (fun _ => SrcSt.reset) d.src s (f (srcSt d s)) }

/-- A target beside its registers. -/
def targOf (d : Dev) (t : Fin 4) : Targ := vget d.targ t

/-- The device with a target changed. -/
def onTarg (d : Dev) (t : Fin 4) (f : Targ → Targ) : Dev := { d with targ := vmod d.targ t f }

/-- A slot of a record memory that nothing has written. -/
def Rec.empty : Rec := ⟨0, false, false, false, false, false, 0, 0, 0, 0⟩

/-- The record at slot k of a target. -/
def recOfSlot (d : Dev) (t : Fin 4) (k : Nat) : Rec := tget (fun _ => Rec.empty) (targOf d t).ring k

/-- The device with the record at slot k changed. -/
def onRec (d : Dev) (t : Fin 4) (k : Nat) (f : Rec → Rec) : Dev :=
  onTarg d t fun x => { x with ring := tset (fun _ => Rec.empty) x.ring k (f (tget (fun _ => Rec.empty) x.ring k)) }

/-- The slots of the unclaimed records, oldest first (R344). -/
def unclaimed (d : Dev) (t : Fin 4) : List Nat := (targOf d t).ord.filter fun k => !(recOfSlot d t k).claimed

/-- The number of claimed records (R348). -/
def heldCount (d : Dev) (t : Fin 4) : Nat := ((targOf d t).ord.filter fun k => (recOfSlot d t k).claimed).length

/-- A fast record register's place (R351). -/
abbrev FrIx := Fin 4 × Fin 8

/-- The bits [lo + len - 1 : lo] of a fast record register. -/
def frGet (d : Dev) (i : FrIx) (lo len : Nat) : Nat := fget lo len (d.reg (TFr.addr i))

/-- A fast record register with some bits replaced. -/
def frPut (d : Dev) (i : FrIx) (lo len v : Nat) : Dev := d.setReg (TFr.addr i) (fset lo len v (d.reg (TFr.addr i)))

/-- NINT: a record is unclaimed (R353). -/
def nint (d : Dev) (t : Fin 4) : Bool := !(unclaimed d t).isEmpty

/-- FINT: a fast record register is pending (R353). -/
def fint (d : Dev) (t : Fin 4) : Bool := (List.finRange 8).any fun i => frGet d (t, i) 14 1 == 1

/-- The function of target H0. -/
def h0Fn (d : Dev) : Fin 2 := if d.bit TCfg.FUNC 0 then 1 else 0

/-- Whether a target sleeps (R354): H0 while its function is in D3hot, H1 while SLEEP stands, a steward while its firmware waits for an event. -/
def asleep (d : Dev) (t : Fin 4) : Bool :=
  match t with
  | 0 => (vget d.fn (h0Fn d)).d3
  | 1 => d.bit TCfg.SLEEP 1
  | _ => d.stwRun && (targOf d t).nap

/-- Whether something pending at a target comes from a source with WAKE = 1 (R354). -/
def wakeable (d : Dev) (t : Fin 4) : Bool :=
  (unclaimed d t).any (fun k => d.bit Src.WAKE (srcIx (recOfSlot d t k).src)) ||
  (List.finRange 8).any fun i => frGet d (t, i) 14 1 == 1 && d.bit Src.WAKE (srcIx (frGet d (t, i) 0 10))

/-- An MSI of a function requested (R353): a vector that PCIe masks stays pending there. -/
def msiReq (d : Dev) (f : Fin 2) (vec : Nat) : Dev :=
  let x := vget d.fn f
  if !x.msiEn then d
  else if x.msiMask.getLsbD vec then
    { d with fn := vset d.fn f { x with msiPend := x.msiPend ||| BitVec.ofNat 32 (2 ^ vec) } }
  else d.say (.msi (f == 1) vec)

/-- A target is woken (R354): a PME message, SHP_IRQ_N held low, or the steward's wake line raised. -/
def wakeTarg (d : Dev) (t : Fin 4) : Dev :=
  let d := (d.flag TStat.WOKE t).incSat TCnt.WAKES t
  match t with
  | 0 => (onTarg d 0 fun x => { x with woken := true }).say (.pme (h0Fn d))
  | 1 => onTarg (d.clr TCfg.SLEEP 1) 1 fun x => { x with woken := true, wakeHeld := true }
  | _ => onTarg d t fun x => { x with nap := false, wakeHeld := true }

/-- A steward at its target (R354): whether its firmware waits now is open; where it does, its wake line is down again (assumption log 20). -/
def stewardNap (d : Dev) (t : Fin 4) : Dev :=
  if t.val < 2 || !d.stwRun then d
  else
    let (k, d) := d.free
    onTarg d t fun x => { x with nap := Config.choice k, wakeHeld := x.wakeHeld && !Config.choice k }

/-- The wakes due at a target (R354). -/
def wakeCheck (d : Dev) (t : Fin 4) : Dev :=
  let d := stewardNap d t
  if wakeable d t && asleep d t && !(targOf d t).woken then wakeTarg d t else d

/-- The conditions a target signals now (R353, R370): awake and not masked; NINT is replaced while Ladle moves the records. -/
def sigNow (d : Dev) (t : Fin 4) : Bool × Bool :=
  (nint d t && !asleep d t && !d.bit TCfg.NMASK t && !(t.val < 2 && d.bit TCfg.LADLE t),
   fint d t && !asleep d t && !d.bit TCfg.FMASK t)

/-- What follows a change at a target (R353, R354): wakes, and for H0 the MSI of a condition that has become true or that the happening leaves true (n: a completion, f: a read of an FRi). -/
def signal (d : Dev) (t : Fin 4) (n f : Bool) : Dev :=
  let d := wakeCheck d t
  let x := targOf d t
  let s := sigNow d t
  let d := onTarg d t fun x => { x with nSig := s.1, fSig := s.2, woken := x.woken && asleep d t }
  if t = 0 then
    let d := if s.1 && (!x.nSig || n) then msiReq d (h0Fn d) (d.fld TCfg.NVEC 0) else d
    if s.2 && (!x.fSig || f) then msiReq d (h0Fn d) (d.fld TCfg.FVEC 0) else d
  else d

/-- As signal, for every target. -/
def signalAll (d : Dev) : Dev := forAll d fun d t => signal d t false false

/-- The level of SHP_IRQ_N (R353, R354): true is low. -/
def shpIrqLow (d : Dev) : Bool := (targOf d 1).wakeHeld || (sigNow d 1).1 || (sigNow d 1).2

/-- A slot that is free in a ring, if there is one; which of them is open (assumption log 1). -/
def freeSlot (d : Dev) (t : Fin 4) : Option Nat × Dev :=
  let fr := (List.range 128).filter fun k => k ∉ (targOf d t).ord
  if fr.isEmpty then (none, d)
  else
    let (k, d) := d.free
    (fr[Config.freeNat k % fr.length]?, d)

/-- Whether a ring has no free slot. -/
def ringFull (d : Dev) (t : Fin 4) : Bool := decide (128 ≤ (targOf d t).ord.length)

/-- The target of a source. -/
def srcTgt (d : Dev) (s : Nat) : Fin 4 := ⟨d.fld Src.TGT (srcIx s) % 4, Nat.mod_lt _ (by omega)⟩

/-- The hold-off group of a source. -/
def srcGrp (d : Dev) (s : Nat) : Fin 64 := ⟨d.fld Src.GROUP (srcIx s) % 64, Nat.mod_lt _ (by omega)⟩

/-- A record written for a source (R344, R345, R350): a pending source is then no longer pending; a suppressed one that was still pending carries STUCK. -/
def writeRec (d : Dev) (s : Nat) : Dev :=
  let t := srcTgt d s
  match freeSlot d t with
  | (none, d) => d
  | (some k, d) =>
    let x := srcSt d s
    let r : Rec := ⟨s, srcLevel d s, false, x.sup, x.sw, false, 0, (targOf d t).seq, x.time, x.info⟩
    let d := onTarg d t fun y => { y with seq := (y.seq + 1) % 256, ord := y.ord ++ [k] }
    signal (sbitPut (onRec d t k fun _ => r) Spnd.V s false) t false false

/-- The hold-off of a group starts (R345, R346, R347). -/
def holdStart (d : Dev) (g : Fin 64) : Dev := if d.bit Hog.HOLDOFF g then d.flag Hog.RUN g else d

/-- One round of presentation (R346): a record for each pending source of those named, in ascending order, while slots are free; then the hold-off of each group that got one. -/
def present (d : Dev) (p : Nat → Bool) : Dev :=
  let r := (List.range 1024).foldl (fun (x : Dev × List (Fin 64)) s =>
    if sbit x.1 Spnd.V s && p s && !ringFull x.1 (srcTgt x.1 s) then (writeRec x.1 s, srcGrp x.1 s :: x.2) else x) (d, [])
  r.2.foldl (fun d g => holdStart d g) r.1

/-- The presentation after a slot has become free (R346): every source whose group hold-off is not running. -/
def presentFree (d : Dev) : Dev := present d fun s => !d.bit Hog.RUN (srcGrp d s)

/-- An assert of an enabled source of class N (R345). -/
def assertN (d : Dev) (s : Nat) : Dev :=
  let t := srcTgt d s
  let g := srcGrp d s
  match (unclaimed d t).find? fun k => (recOfSlot d t k).src == s with
  | some k => onRec d t k fun r => { r with merged := min (r.merged + 1) 255, withdrawn := false }
  | none =>
    if (srcSt d s).sup then d
    else if d.bit Hog.RUN g || ringFull d t then
      let d := sbitPut d Spnd.V s true
      if ringFull d t then (d.incSat TCnt.OVF t).flag TStat.OVF_SEEN t else d
    else holdStart (writeRec d s) g

/-- An assert of an enabled source of class F (R352). -/
def assertF (d : Dev) (s : Nat) : Dev :=
  let t := srcTgt d s
  let i : FrIx := (t, ⟨d.fld Src.FSLOT (srcIx s) % 8, Nat.mod_lt _ (by omega)⟩)
  let d := if frGet d i 14 1 = 1 ∧ frGet d i 0 10 ≠ s then frPut d i 12 1 1 else d
  let d := frPut (frPut d i 0 10 s) i 10 1 (srcLevel d s).toNat
  let d := frPut (frPut d i 14 1 1) i 16 8 (min (frGet d i 16 8 + 1) 255)
  signal (frPut d i 11 1 0) t false false

/-- A withdraw of a LEVEL source (R345, R349, R350, R352, R355): also of one that is disabled, for which R341 rules out only what an assert would bring (assumption log 72). -/
def withdraw (d : Dev) (s : Nat) : Dev :=
  let d := onSrc (sbitPut d Spnd.V s false) s fun x => { x with rep := 0, sup := false }
  forAll d fun d (t : Fin 4) =>
    let d := (targOf d t).ord.foldl (fun d k =>
      if (recOfSlot d t k).src = s then onRec d t k fun r => { r with withdrawn := true } else d) d
    forAll d fun d (i : Fin 8) =>
      if frGet d (t, i) 14 1 = 1 ∧ frGet d (t, i) 0 10 = s then frPut d (t, i) 11 1 1 else d

/-- A message processed (R338, R341, R345, R352, R374); a trace record carries the clk of the message (R344). -/
def takeMsg (d : Dev) (m : Msg) : Dev :=
  let s := m.src % 1024
  let d := d.inc EvgCnt.MSGS ()
  let d := if d.bit TrcCfg.EVT () then
      traceAdd d m.clk (BitVec.ofNat 32 (m.info % 65536 + 2 ^ 20 + s * 2 ^ 21 + m.assert.toNat * 2 ^ 31)) 0
    else d
  let lvl := srcLevel d s
  let d := if lvl then sbitPut d Sact.V s m.assert else d
  if !m.assert then (if lvl then withdraw d s else d)
  else if !d.bit Src.EN (srcIx s) then d
  else
    let d := onSrc d s fun x => { x with info := m.info % 65536, time := m.clk - d.patT, sw := m.sw }
    if d.bit Src.CLASS (srcIx s) then assertF d s else assertN d s

/-- EVG_MESSAGE (R339): the first message waiting. -/
def execEvgMessage (s : State) : Res :=
  onChip s fun d => match d.evq with
    | [] => d
    | m :: ms => takeMsg { d with evq := ms } m

/-- DOORBELL_WRITE (R340, R358). -/
def execDoorbellWrite (h : Master) (w : Word) (s : State) : Res :=
  hostW s h (Doorbell.addr ()) false unitChip (wRsv 0x7C00 w) fun d =>
    let n := fget 0 10 w
    let priv := privileged d h
    if srcExists n && (priv || 960 ≤ n) then
      { d with evq := msgInsert ⟨d.clk, n, w.getLsbD 15, fget 16 16 w, true⟩ d.evq }
    else
      let d := d.inc EvgCnt.IGN ()
      if priv then d else d.hostErr 0 h true (Doorbell.addr ()) 15

/-- HOLDOFF_EXPIRE (R346). -/
def execHoldoffExpire (g : Fin 64) (s : State) : Res :=
  onChip s fun d =>
    if d.bit Hog.RUN g then
      let d := d.clr Hog.RUN g
      present d fun s => srcGrp d s == g
    else d

/-- The hold on SHP_IRQ_N ends at the first read of T1.STAT, CLAIM, FSUM or an FRi (R354). -/
def wakeRead (d : Dev) (t : Fin 4) : Dev := if t = 1 then onTarg d 1 fun x => { x with wakeHeld := false } else d

/-- A read with an effect of a register of target t: T2 and T3 are privileged (R108, R109, R359). -/
def targRd (s : State) (h : Master) (a : Nat) (t : Fin 4) (f : Dev → Dev) : Res :=
  hostRd s h a unitChip fun d =>
    if 2 ≤ t.val && !privileged d h then answer (d.hostErr 0 h false a 15) h 0 [0] else f d

/-- The claim handle of a record (R348). -/
def claimHandle (k : Nat) (r : Rec) : Word :=
  BitVec.ofNat 32 (k % 128 + r.seq % 256 * 2 ^ 8 + r.src % 1024 * 2 ^ 16 + r.withdrawn.toNat * 2 ^ 26 + r.stuck.toNat * 2 ^ 27)

/-- A claim (R348): the handle that the read returns, all ones where it removes nothing. -/
def claimTake (d : Dev) (t : Fin 4) : Word × Dev :=
  let d := wakeRead d t
  let full := decide (16 ≤ heldCount d t)
  let d := if full then d.flag TStat.CLMFULL t else d
  match (if full || (t.val < 2 && d.bit TCfg.LADLE t) then none else (unclaimed d t).head?) with
  | none => (0xFFFFFFFF, d)
  | some k => (claimHandle k (recOfSlot d t k), signal (onRec d t k fun r => { r with claimed := true }) t false false)

/-- A claim read (R348). -/
def doClaim (d : Dev) (h : Master) (t : Fin 4) : Dev :=
  let (w, d) := claimTake d t
  answer d h 0 [w]

/-- CLAIM (R348). -/
def execClaim (h : Master) (t : Fin 4) (s : State) : Res :=
  targRd s h (TClaim.addr t) t fun d => doClaim d h t

/-- The slot of a record freed (R348, R356): the record leaves the ring. -/
def dropRec (d : Dev) (t : Fin 4) (k : Nat) : Dev :=
  onRec (onTarg d t fun x => { x with ord := x.ord.filter (· ≠ k) }) t k fun r => { r with claimed := false }

/-- The completion of a record of a LEVEL source that is still active counts as a new assert (R350). -/
def represent (d : Dev) (s : Nat) : Dev :=
  let i := srcIx s
  if srcLevel d s && sbit d Sact.V s && d.bit Src.EN i && !d.bit Src.CLASS i && !(srcSt d s).sup then
    let n := (srcSt d s).rep + 1
    let stuck := decide (n = d.fld EvgCtl.STUCKN ())
    let d := onSrc d s fun x => { x with rep := n, time := d.clk - d.patT, sup := stuck }
    let d := if stuck then d.flagBit Sstk.V (srcWord s) (s % 32) else d
    sbitPut d Spnd.V s true
  else d

/-- A completion (R348 to R350): one written with SPUR = 1 counts, whether it frees or not; each requests NVEC again where it leaves NINT true (R353). -/
def doComplete (d : Dev) (t : Fin 4) (w : Word) : Dev :=
  let k := fget 0 7 w
  let r := recOfSlot d t k
  let d := if w.getLsbD 16 then d.inc TCnt.SPURIOUS t else d
  let d :=
    if !(t.val < 2 && d.bit TCfg.LADLE t) && decide (k ∈ (targOf d t).ord) && r.claimed && r.seq == fget 8 8 w then
      presentFree (represent (dropRec d t k) r.src)
    else d.flag TStat.BADCOMP t
  signal d t true false

/-- COMPLETE (R348). -/
def execComplete (h : Master) (t : Fin 4) (w : Word) (s : State) : Res :=
  hostW s h (TComplete.addr t) (2 ≤ t.val) unitChip (wRsv 0xFFFE0080 w) fun d => doComplete d t w

/-- What a read of a fast record register returns (R351): ACTIVE is the state of SRC at the read. -/
def frWord (d : Dev) (i : FrIx) : Word :=
  fset 13 1 (sbit d Sact.V (frGet d i 0 10)).toNat (d.reg (TFr.addr i))

/-- A fast record register taken by a read (R351). -/
def frTake (d : Dev) (i : FrIx) : Word × Dev :=
  let d := wakeRead d i.1
  (frWord d i, signal (frPut (frPut (frPut (frPut d i 14 1 0) i 16 8 0) i 12 1 0) i 11 1 0) i.1 false true)

/-- A read of a fast record register (R351). -/
def doFrRead (d : Dev) (h : Master) (i : FrIx) : Dev :=
  let (w, d) := frTake d i
  answer d h 0 [w]

/-- FAST_RECORD_READ (R351). -/
def execFastRecordRead (h : Master) (t : Fin 4) (i : Fin 8) (s : State) : Res :=
  targRd s h (TFr.addr (t, i)) t fun d => doFrRead d h (t, i)

/-- Tt.STAT as it reads (R359). -/
def tStatWord (d : Dev) (t : Fin 4) : Word :=
  let w := d.reg (TStat.addr t) &&& 0x000F0000
  w ||| BitVec.ofNat 32 ((unclaimed d t).length % 256 + heldCount d t % 32 * 2 ^ 8 + (nint d t).toNat * 2 ^ 13 +
    (fint d t).toNat * 2 ^ 14 + (asleep d t).toNat * 2 ^ 15)

/-- Tt.FSUM as it reads (R359). -/
def tFsumWord (d : Dev) (t : Fin 4) : Word :=
  BitVec.ofNat 32 ((List.finRange 8).foldl (fun a i => a + frGet d (t, i) 14 1 * 2 ^ i.val) 0)

/-- WAKE_RELEASE_READ (R354): a read of T1.STAT, T1.CLAIM, T1.FSUM or a T1.FRi; another address is no such read. -/
def execWakeReleaseRead (h : Master) (a : BitVec 27) (s : State) : Res :=
  let a := a.toNat
  if a = TStat.addr 1 then targRd s h a 1 fun d => answer (wakeRead d 1) h 0 [tStatWord d 1]
  else if a = TFsum.addr 1 then targRd s h a 1 fun d => answer (wakeRead d 1) h 0 [tFsumWord d 1]
  else if a = TClaim.addr 1 then execClaim h 1 s
  else match (List.finRange 8).find? fun i => TFr.addr (1, i) == a with
    | some i => execFastRecordRead h 1 i s
    | none => .next s

/-- A write to Tt.CFG (R353, R354, R356, R359): SLEEP belongs to H1, LADLE to H0 and H1. -/
def tCfgWrite (d : Dev) (t : Fin 4) (w : Word) : Dev :=
  let old := d.reg (TCfg.addr t)
  let keep : Word := if t.val < 2 then 0x0003FFFB else 0x0003FFF3
  let sl : Word := if t = 1 then (old ||| w) &&& 4 else 0
  signal (d.setReg (TCfg.addr t) ((w &&& keep) ||| sl)) t false false

/-- SLEEP_WRITE (R354). -/
def execSleepWrite (h : Master) (w : Word) (s : State) : Res :=
  hostW s h (TCfg.addr 1) false unitChip (wRsv 0xFFFC0000 w) fun d => tCfgWrite d 1 (ownBit 2 w)

/-- SOURCE_ROUTING_WRITE (R343). -/
def execSourceRoutingWrite (h : Master) (i : Fin 1024) (w : Word) (s : State) : Res :=
  hostW s h (Src.addr i) true unitChip (wRsv 0xFFFF0000 w) fun d =>
    signalAll (d.setReg (Src.addr i) (w &&& 0xFFF7))

/-- HOLDOFF_WRITE (R347). -/
def execHoldoffWrite (h : Master) (g : Fin 64) (w : Word) (s : State) : Res :=
  hostW s h (Hog.addr g) true unitChip (wRsv 0xFFFE0000 w) fun d => d.put Hog.HOLDOFF g (fget 0 16 w)

/-- The claimed records of H0 revert to unclaimed when its function is reset (R355). -/
def unclaimH0 (d : Dev) : Dev :=
  let d := (targOf d 0).ord.foldl (fun d k => onRec d 0 k fun r => { r with claimed := false }) d
  signal (onTarg d 0 fun x => { x with nDue := true }) 0 false false

/-- A steward restart at the gatherer (R355): the rings and fast registers of ST0 and ST1 are emptied, and their pending sources presented. -/
def gatherStewards (d : Dev) : Dev :=
  let one := fun (d : Dev) (t : Fin 4) =>
    let d := onTarg d t fun x => { x with ring := [], ord := [], nSig := false, fSig := false, nap := false, wakeHeld := false }
    forAll d fun d (i : Fin 8) => d.setReg (TFr.addr (t, i)) 0
  let d := one (one d 2) 3
  present d fun s => decide (2 ≤ (srcTgt d s).val) && !d.bit Hog.RUN (srcGrp d s)

end Sys2Proof.Machine
end

