-- ==== Sys2Proof/Machine/Pairing.lean ====
section
/-! DEFINITION. Pairing (R404 to R407): the checks and their outcome, and the ownership guard of R397 as an unpaired unit begins it. -/

namespace Sys2Proof.Machine

/-- The identity of the unit (R395): Drag where CD_SEL was sampled high. -/
def identDrag (d : Dev) : Bool := d.bit Strap.CD_SEL ()

/-- The 16 bytes of a directory entry (R120). -/
def entryBytes (e : DirEntry) : List Nat :=
  leBytes 1 e.typ ++ leBytes 1 e.index ++ leBytes 2 e.format ++ leBytes 4 e.offset ++ leBytes 4 e.length ++ leBytes 4 e.crc.toNat

/-- The digest of the sections in effect (R122): SHA-384 over each directory entry and the section body that it names, in directory order, and the lowest 64 bits of the hash read as one number (both DEDUCED, assumption log 105). -/
def dirDigest (dir : List DirEntry) : BitVec 64 :=
  BitVec.ofNat 64 (beVal ((sha384 (dir.flatMap fun e => entryBytes e ++ e.bytes.map (·.toNat))).drop 40))

/-- The pattern digest that the pairing compares (R404): of the pattern in effect, and up to STAGE TWIN of the installed one; zero with none. -/
def ownDigest (d : Dev) : BitVec 64 :=
  let p := if d.fld Start.STAGE () ≤ 3 then patIn d (activeBank d) else d.pat
  (p.map fun x => dirDigest x.dir).getD 0

/-- The heat mode that the pairing compares (R38, R404): up to STAGE TWIN the one of the installed pattern. -/
def ownHeat (d : Dev) : Bool :=
  match (if d.fld Start.STAGE () ≤ 3 then patIn d (activeBank d) else none) with
  | some p => p.hdr.clkRec == 1
  | none => d.bit ChipMode.HEAT_ACT ()

/-- The shadow-state format number of the firmware that runs (R431). -/
def ownSsf (d : Dev) : Nat := (d.sfw.map fun f => f.hdr.ssf).getD 0

/-- Whether a coordinated update session is open on this unit (R405, R448). -/
def coordOpen (d : Dev) : Bool := d.twin.coord != .none

/-- The first failing check of R404 and R405 as HREASON, zero when the pairing is compatible. -/
def pairRefusal (d : Dev) (h : Hello) : Nat :=
  if h.drag = identDrag d then 7
  else if coordOpen d && h.session then (if h.ssf = ownSsf d then 0 else 6)
  else if (d.sfw.map fun f => f.hdr.digest) ≠ some h.sfwDigest then 4
  else if h.patDigest ≠ ownDigest d || h.heat != ownHeat d then 5
  else 0

/-- T_MS at the end of a start-up (R83): ms from t0, saturating. -/
def startMs (d : Dev) : Dev := d.put Start.T_MS () (min ((d.clk - d.t0) / 400000) 65535)

/-- A trial ends well (R435): an activation that a reset had broken off is then complete, and its session closes (R446, R457). -/
def trialEnds (d : Dev) : Dev :=
  let d := recWrite d fun r => { r with trial := false, tries := 0 }
  if d.sess.st = 5 ∨ d.sess.st = 6 then ({ d with sess := Sess.empty }.flag UpdStat.DONE_SEEN ()).raise 645 7 else d

/-- A start-up reaches STAGE HELD (R76, R83, R435): the firmware of a trial clears it; one that runs as the fallback of R77 does not write the record. -/
def startHeld (d : Dev) : Dev :=
  let d := startMs (d.put Start.STAGE () 5)
  if (recOf d).trial && !d.bit BootCause.FALLBACK () then trialEnds d else d

/-- This unit and its partner part: the sources of kind TWIN are lost (R156), and with the pair the requests and logs of a resynchronisation. -/
def unpair (d : Dev) : Dev :=
  twinSourcesLost (d.onTw fun t => { t with paired := false, joining := false, refull := false, rsyWait := [], logs := [] })

/-- The link is declared lost (R403, R404): what the unit notes of it, and what it loses with it; a start-up that waits for the alignment of the pair ends without it. -/
def linkDown (d : Dev) : Dev :=
  let d := (((d.clr TwStat.LINKUP ()).clr TwStat.SYNCED ()).clr TwStat.LANES ()).clr TwStat.MIXED ()
  let d := ((d.clr TwStat.PEERDOWN ()).flag TwStat.LINKLOSS_SEEN ()).incSat TwCnt.LLOSS ()
  let d := unpair ((d.raise 643 3).onTw fun t => { t with txq := [], digs := [], digO := [] })
  if stageWaits d then startHeld d else d

/-- An unpaired unit claims ownership (R78, R397, R425): OWN_I high loses the claim, otherwise the guard starts. A chip failure claims nothing (R390). -/
def claimStart (d : Dev) : Dev :=
  if chipHeldOn d || d.failT then d
  else if d.twin.ownI then roleHeld d 1
  else d.onTw fun t => { t with guard := .start }

/-- Whether the start-up is at the pairing: STAGE TWIN (R76). -/
def pairStage (d : Dev) : Bool := d.fld Start.STAGE () == 3

/-- Whether a full resynchronisation brings this register (R407, R408): the value board, window buffers, filter tables and node slots, port state, and modulator clock counts. -/
def snapChip (id : RegId) : Bool :=
  match id with
  | .vbV | .vbSeq | .vbFmt | .wBuf | .feCtl | .feMatch0 | .feMask0 | .feMatch1 | .feMask1 | .fdef | .vnLo | .vnHi
  | .bpStat | .bpErr | .mcnt | .tqStat => true
  | _ => false

/-- A full resynchronisation as this unit sends it (R407 steps 3 and 4, R408). -/
def fullOf (d : Dev) : FullSnap where
  blks := allBlk.map fun nn => (nn, snapOf d nn)
  regs := d.regs.filter fun e => match regAt e.1 with
    | some (f, _) => snapChip f.id
    | none => false
  txQueues := (List.finRange 4).map fun p => (p, (qGet d p tq).pkts)
  phases := (List.finRange 8).map fun k => (k, domPH40 d k)
  clk := d.clk

/-- A compatible pairing (R398, R406, R407): a unit that owns is ACTIVE and sends its snapshot; a unit whose partner owns joins; with no owner Cope claims, and Drag is SHADOW at start-up and joins later. -/
def pairOk (d : Dev) (h : Hello) : Dev :=
  let d := (d.onTw fun t => { t with paired := true }).putB TwStat.MIXED () (coordOpen d && h.session)
  let d := d.raise 643 1
  if d.bit TwStat.OWNO () then
    let d := (setRole d 1 0).clr TwStat.SUSPECT ()
    twSend d (.full (fullOf d))
  else
    let join := fun (d : Dev) => (if d.fld TwStat.ROLE () = 3 then d.put TwStat.HREASON () 0 else roleHeld d 0).onTw fun t => { t with joining := true }
    if h.alone || d.twin.ownI then join d
    else if !identDrag d then (d.put TwStat.HREASON () 0).onTw fun t => { t with guard := .start }
    else if d.fld Start.STAGE () < 5 then setRole d 2 0
    else join d

/-- The pairing checks run against what the partner has said (R404, R398, R144): in the chip HELD condition the unit counts as unpaired (R452). A refused unit that is HELD stays so, whatever it has begun to claim. -/
def pairCheck (d : Dev) : Dev :=
  match d.twin.hello with
  | none => d
  | some h =>
    if !d.bit TwStat.LINKUP () || chipHeldOn d || d.failT then d
    else match pairRefusal d h with
      | 0 => pairOk d h
      | r =>
        let d := ((unpair d).put TwStat.HREASON () r).raise 643 2
        if d.fld TwStat.ROLE () = 3 ∧ d.twin.guard = .start then d.onTw fun t => { t with guard := .none } else d

end Sys2Proof.Machine
end

