-- ==== Sys2Proof/Machine/Load.lean ====
section
/-! DEFINITION. Pattern operations (R143 to R152): acceptance, the full load with its steps (R35, R145), the start-up load (R76, R79, R80), and the re-pour (R147 to R151, R419). -/

namespace Sys2Proof.Machine

/-- A block goes OFF (R145): outputs high-impedance, what the pattern gave it gone, the latch kept (R58), a pending command cleared. -/
def blockOff (d : Dev) (nn : Fin 16) : Dev :=
  let d := blockRegsClear d nn false
  let d := (d.setReg (BkCtl.addr nn) 0).setReg (BkStat.addr nn)
    (fset BkStat.CYC.lo 16 (d.fld BkStat.CYC nn) (d.reg (BkStat.addr nn) &&& 0x78))
  let d := d.onB nn fun b => { b.filled with live := Blk.reset.live, rowOld := none }
  setPending (legsSafe d nn) nn

/-- The bits that the pattern gave the registers outside the blocks are as at reset (R11). -/
def clearPat (d : Dev) : Dev :=
  let one := fun (e : Nat × Word) => (e.1, match regAt e.1 with
    | some (f, _) => (e.2 &&& BitVec.ofNat 32 (2 ^ 32 - 1 - f.pat)) ||| (resetWord e.1 &&& BitVec.ofNat 32 f.pat)
    | none => e.2)
  let inBlk := fun (a : Nat) => (List.finRange 16).any (inBlock · a)
  let rs := d.regs.map fun e => if inBlk e.1 then e else one e
  { d with regs := rs.filter fun e => e.2 != resetWord e.1 }

/-- The pool of a region emptied (R145): every queue empty, stalled pops answered, no cell in use, no window instance open, both copies of every pointer alike. What a load does not name goes on: the window of R384, and the dividers of driven modulator clocks (DESIGN CHOICE, assumption log 80). -/
def poolEmpty (d : Dev) (n : Fin 4) : Dev :=
  let d := forAll d fun d (q : Fin 64) =>
    let d := stallsEnd d n q
    d.clr QStat.RST (n, q)
  let d := (((d.clr RQstat.REBUILD n).clr TqStat.LOSTN n).clr TqStat.ABORTPEND n).clr TqCtl.ABORT_HEAD n
  let d := forAll d fun d (w : Fin 32) => ((d.clr WStat.FRESH (n, w)).clr WStat.DUE (n, w)).clr WStat.TXING (n, w)
  d.onR n fun r =>
    { Rgn.reset with
      port := { r.port with held := [], prov := [], sentRx := [], recent := [], orphan := false }
      mph := r.mph, qerrWin := r.qerrWin }

/-- The value board as at reset (R145): rows, SEQ and FMT, in every region's copy. -/
def boardClear (d : Dev) : Dev :=
  let d := { d with regs := d.regs.filter fun e => !decide (VbV.addr (0, 0) ≤ e.1 ∧ e.1 < VbFmt.addr 0 + 64) }
  forAll d fun d (n : Fin 4) => d.onR n fun r => { r with vbArr := [] }

/-- The digest of the sections in effect shown (R122, R152), zero with none, and the epoch of the pattern (R455). -/
def patShow (d : Dev) : Dev :=
  let g := (d.pat.map fun p => dirDigest p.dir).getD 0
  ((d.setReg (PatDigLo.addr ()) (g.extractLsb' 0 32)).setReg (PatDigHi.addr ()) (g.extractLsb' 32 32)).put
    UpdPatep.EPOCH () ((d.pat.map fun p => p.hdr.epoch).getD 0)

/-- The pattern in effect is discarded (R145 step 1): every block OFF, pools and board empty, no domain. -/
def patGone (d : Dev) : Dev :=
  let d := chanLoad d
  let d := { (forAll d fun d nn => blockOff d nn) with pat := none }
  let d := forAll (forAll (clearPat d) fun d n => txClear d n) fun d n => poolEmpty d n
  patShow (domsInit (boardClear d))

/-- No pattern is in effect (R80): STAGE NOPAT, the ports listening (R282), and every trip input read without a route (R263). -/
def noPattern (d : Dev) : Dev :=
  let d := (patGone d).put Start.STAGE () 6
  let d := forAll d fun d nn => actSync d nn
  forAll d fun d p => portNoPat d p

/-- The words of the CHIP section applied (R145 step 2). -/
def applyChip (d : Dev) (p : PatImage) : Dev := loadRegs d 0 0x1000000 (fun _ => false) (patChip p)

/-- The words of a REGION section applied (R145 step 3). -/
def applyRegion (d : Dev) (p : PatImage) (n : Fin 4) : Dev :=
  match patRgn p n with
  | some rs => loadRegs d (regionBase n) 0x100000 (fun _ => false) rs
  | none => d

/-- The CAL records of blocks without a section are skipped and counted (R450). -/
def calOff (d : Dev) : Dev :=
  match d.cal with
  | none => d
  | some c => c.recs.foldl (fun d r =>
      if r.blk < 16 ∧ hasSec d ⟨r.blk % 16, Nat.mod_lt _ (by omega)⟩ then d else d.inc UpdCalskip.SKIP ()) d

/-- An instant kept in clk, ahead of now or behind it, after CLK has changed by num / den (R66). -/
def heatInstant (now num den t : Nat) : Nat :=
  if t ≤ now then now - (now - t) * num / den else now + (t - now) * num / den

/-- The intervals that the twin counts across a change of CLK keep their length (R66). -/
def heatShift (d : Dev) (num den : Nat) : Dev :=
  let at' := heatInstant d.clk num den
  d.onTw fun t =>
    let own := t.ownT.map at'
    let hb := t.hb.map fun e => (e.1, at' e.2)
    let mir := t.mirror.map fun e => { e with t := at' e.t }
    { t with ownT := own, tkoT := at' t.tkoT, hb := hb, mirror := mir }

/-- The twin link retrains while the PLL relocks (R35): an unpaired unit loses it (R403) and repeats the exchange once it is up again (R404); a pair set up at start-up stands (R406, assumption log 51). -/
def heatLink (d : Dev) : Dev :=
  if !d.bit TwStat.LINKUP () then d
  else
    let d := d.incSat TwLink.RETRAIN ()
    if d.twin.paired then d else linkDown d

/-- The PLL relocked to the CLK of a load, with HEAT_ACT (R35, R66): the ports are OFF meanwhile (R282). -/
def relock (d : Dev) : Dev :=
  if d.fld ChipMode.HEAT_ACT () = d.fld ChipMode.HEAT () then d
  else
    let cool := d.bit ChipMode.HEAT ()
    let d := heatLink (portsOff d)
    (heatShift d (if cool then 3 else 4) (if cool then 4 else 3)).put ChipMode.HEAT_ACT () (d.fld ChipMode.HEAT ())

/-- A pattern that has passed its checks takes effect once the PLL has relocked (R35, R145). -/
def loadApply (d : Dev) (p : PatImage) : Dev :=
  let d := { patGone d with pat := some p, patT := d.clk }
  let d := (applyChip d p).put Start.STAGE () 5
  let d := forAll d fun d n => applyRegion d p n
  let d := domsInit d
  let d := forAll d fun d q => portRestart d q false
  let d := calOff d
  let d := forAll d fun d nn => match PatImage.sec p nn with
    | some s => tdaTrims (fillBlock d nn s false) nn
    | none => actSync d nn
  patShow ((d.clr Fail.LOCK ()).clr BootCause.HELD ())

/-- The source of a pattern operation (R152): 0 the active flash bank, 1 the host window, 2 the inactive bank. -/
def patSource (d : Dev) (src : Nat) : Option PatImage :=
  if src = 1 then some (patAt (hwByteNat d) hwinSize)
  else patIn d (activeBank d != (src == 2))

/-- The bank that CHIP.BOOT.CAUSE names for a source. -/
def srcBank (d : Dev) (src : Nat) : Bool := src != 1 && (activeBank d != (src == 2))

/-- The operation in progress ends: BUSY and the command bit clear, and a re-poured block stands as before (R146, R149). -/
def opEnd (d : Dev) : Dev :=
  let d := match d.patOp with
    | some ⟨_, some nn, _, _, _⟩ =>
      let d := (d.clr BkStat.REPOUR nn).onB nn fun b => { b with repouring := false }
      if hasSec d nn then d else d.put BkStat.STATE nn 0
    | _ => d
  (((({ d with patOp := none }).clr PatStat.BUSY ()).clr PatCtl.LOAD ()).clr PatCtl.REPOUR ())

/-- The CAL slot of a bank taken into force (R432, R450): a refused one is not; the answer is the CODE of its refusal. -/
def calTake (d : Dev) (bank : Bool) : Nat × Dev :=
  match calIn d bank with
  | none => (0, { d with cal := none }.put UpdCalv.CALFMT () 0)
  | some c =>
    match hdrCheck d 3 c.hdr (sfwHdr d) true false with
    | 0 => (0, { d with cal := some c }.put UpdCalv.CALFMT () c.hdr.calFmt)
    | code => (code, bootCause ({ d with cal := none }.put UpdCalv.CALFMT () 0) code 3 bank)

/-- A start-up ends with no pattern (R80, R83): the installed CAL is checked after the pattern, and one that fails check 11 is the chip HELD condition (R451). -/
def startNone (d : Dev) : Dev :=
  match calTake (noPattern (startMs d)) (activeBank d) with
  | (11, d) => chipHeld d
  | (_, d) => d

/-- An operation ends refused with a code of R143 (R80, R146, R152); a start-up load then ends at STAGE NOPAT. -/
def opRefuse (d : Dev) (code blk slot : Nat) (bankB : Bool) : Dev :=
  let start := (d.patOp.map (·.start)).getD false
  let d := patRefuse (opEnd d) code blk slot bankB
  if start then startNone d else d

/-- The refusal of an image recorded in CHIP.BOOT.CAUSE (R432, R456): the CODE of R432 for CODE 1, otherwise 26. -/
def opCause (d : Dev) (code : Nat) : Dev :=
  let src := (d.patOp.map (·.src)).getD 0
  bootCause d code 2 (srcBank d src)

/-- The checks of an operation's image (R143): the refused device, or the image. -/
def opCheck (d : Dev) (op : PatOp) : Dev ⊕ PatImage :=
  match op.img with
  | none => .inl (opRefuse (opCause d (if op.src = 1 then 1 else 12)) 1 0 0 false)
  | some p =>
    match hdrCheck d 2 p.hdr (sfwHdr d) true false with
    | 0 => match patCheck d p with
      | some f => .inl (opRefuse (opCause d 26) f.code f.blk f.slot f.bankB)
      | none => .inr p
    | c =>
      let d := opRefuse (opCause d c) 1 0 0 false
      -- at start-up a pattern that fails check 10 is the chip HELD condition (R451)
      .inl (if op.start && c == 10 then chipHeld d else d)

/-- The stage after a start-up load (R76, R406): HELD, but a pair that has started up together aligns its time bases first. -/
def startStage (d : Dev) : Dev :=
  if d.twin.paired && !d.twin.joining && d.bit TwStat.LINKUP () then d.put Start.STAGE () 4 else startHeld d

/-- A full load that has passed its checks ends (R145, R152, R76): readOk tells the read-back of step 6; the answer is whether the pattern is in effect. The CAL slot of the active bank comes into force with it (R450). -/
def loadEnd (d : Dev) (op : PatOp) (p : PatImage) (readOk : Bool) : Bool × Dev :=
  let d := relock d
  if !readOk then
    let d := opEnd (opCause d 26)
    (false, patRefuse (if op.start then startNone d else noPattern d) 18 0 0 false)
  else
    let first := d.pat.isNone
    let (code, d) := calTake d (activeBank d)
    let d := patDone (loadApply (opEnd d) p)
    let d := if op.start then startStage d else d
    let d := if op.start && code == 11 then chipHeld d else d
    (true, if first && !op.start then pairCheck d else d)

/-- The load in progress is checked and takes effect, or is refused (R143, R145). -/
def loadStep (d : Dev) (op : PatOp) (readOk : Bool) : Bool × Dev :=
  match opCheck d op with
  | .inl d => (false, d)
  | .inr p => loadEnd d op p readOk

/-- The start-up load begins (R76, R79, R391): the installed pattern is taken, or STAGE becomes NOPAT when it is absent or LOCK stands. -/
def startLoad (d : Dev) : Dev :=
  let d := d.put Start.STAGE () 4
  if d.bit Fail.LOCK () then startNone d
  else match patIn d (activeBank d) with
    | none => startNone (bootCause d 12 2 (activeBank d))
    | some p =>
      let d := d.putB ChipMode.HEAT () (p.hdr.clkRec == 1)
      ({ d with patOp := some ⟨some p, none, true, 0, false⟩ }).flag PatStat.BUSY ()

/-- Why a host load or re-pour is refused at acceptance (R144, R147, R151, R152, R453): zero when it is accepted. -/
def opRefusal (d : Dev) (repour : Option (Fin 16)) (src : Nat) : Nat :=
  let free := fun nn => decide (bkState d nn ≤ 1)
  let ok := match repour with
    | some nn => free nn
    | none => allBlk.all free
  if !ok then 2
  else if d.patOp.isSome then 17
  else if !d.stwRun then 16
  else if repour.isNone && d.twin.paired && d.pat.isSome && !chipHeldOn d then 19
  else if repour.isSome && d.fld TwStat.ROLE () == 2 then 19
  else if src = 3 then 3
  else if src = 2 && d.sess.st != 0 then 17
  else if repour.isSome && d.pat.isNone then 15
  else 0

/-- An operation is accepted (R144, R147, R149, R369): the image is taken, BUSY set, and a re-poured block reads HELD. A re-pour of an ACTIVE unit goes to its shadow first (R151, R419). -/
def opBegin (d : Dev) (repour : Option (Fin 16)) (src : Nat) : Dev :=
  let first := repour.isSome && d.fld TwStat.ROLE () == 1
  let d := ({ d with patOp := some ⟨patSource d src, repour, false, src, first⟩ }).flag PatStat.BUSY ()
  match repour with
  | none => d.flag PatCtl.LOAD ()
  | some nn =>
    let d := ((d.flag PatCtl.REPOUR ()).flag BkStat.REPOUR nn).put BkStat.STATE nn 1
    let d := (chanBlockGone d nn).onB nn fun b => { b with repouring := true }
    -- a pair suspends the comparison until the next ARM (R419)
    if d.twin.paired then d.flag TwBk.NOCMP nn else d

/-- The block whose state refuses an operation with CODE 2 (R152): that of the re-pour, the first neither OFF nor HELD of a load. -/
def busyBlk (d : Dev) (repour : Option (Fin 16)) : Nat :=
  match repour with
  | some nn => nn.val
  | none => ((allBlk.find? fun nn => !decide (bkState d nn ≤ 1)).map (·.val)).getD 0

/-- The commands of a write to CHIP.PATCTL (R152), SRC and BLOCK applied first. -/
def patCtlWrite (d : Dev) (w : Word) : Dev :=
  let d := mCfg (mCfg d PatCtl.SRC () w) PatCtl.BLOCK () w
  let c := mOnes w % 4
  let src := d.fld PatCtl.SRC ()
  let nn : Fin 16 := ⟨d.fld PatCtl.BLOCK () % 16, Nat.mod_lt _ (by omega)⟩
  if c = 0 then d
  else if c = 3 then patRefuse d 17 0 0 false
  else
    let r := if c = 2 then some nn else none
    match opRefusal d r src with
    | 0 =>
      let d := opBegin d r src
      -- a re-pour of an ACTIVE unit goes to its shadow first (R151, R419)
      if c = 2 && d.fld TwStat.ROLE () == 1 then
        twSend d (.mwr ⟨PatCtl.addr (), BitVec.ofNat 32 (0x00FE0002 + src * 4 + nn.val * 16), none, d.clk⟩)
      else d
    | k => patRefuse d k (if k = 2 then busyBlk d r else 0) 0 false

/-- A write to CHIP.PATCTL by a master (R152). -/
def patCtlHost (s : State) (h : Master) (w : Word) : Res :=
  hostW s h (PatCtl.addr ()) true unitChip (mRsv 0xFF00 w) fun d => patCtlWrite d w

/-- PATTERN_LOAD (R144). -/
def execPatternLoad (h : Master) (w : Word) (s : State) : Res := patCtlHost s h (ownM 0 w)

/-- REPOUR (R147). -/
def execRepour (h : Master) (w : Word) (s : State) : Res := patCtlHost s h (ownM 1 w)

/-- Whether the CHIP section and the REGION section of block nn's region have the CRC and LENGTH of those in effect (R148). -/
def sharedSame (a b : PatImage) (nn : Fin 16) : Bool :=
  let same := fun (t i : Nat) => ((patEntry a t i).map fun e => (e.crc, e.length)) == ((patEntry b t i).map fun e => (e.crc, e.length))
  let chip := fun (p : PatImage) => (p.dir.find? fun e => e.typ == 1).map fun e => (e.crc, e.length)
  chip a == chip b && same 2 (rgnOf nn).val

/-- A pattern with its BLOCK section for nn replaced (R122, R147): in its place, or before END where there was none. -/
def withBlock (p : PatImage) (nn : Fin 16) (e : DirEntry) : PatImage :=
  let mine := fun (x : DirEntry) => x.typ == 3 && x.index == nn.val
  if p.dir.any mine then { p with dir := p.dir.map fun x => if mine x then e else x }
  else { p with dir := p.dir.dropLast ++ [e] ++ p.dir.drop (p.dir.length - 1), count := p.count + 1 }

/-- REPOUR_DONE (R148, R149): the section replaces that in effect and the block is HELD, or the re-pour is refused; CODE 15 is judged before CODE 5 (R148 gives no order: DESIGN CHOICE, assumption log 49). On the owner of a pair the first is that of the shadow's pour, and its own pour follows (R419; DESIGN CHOICE, assumption log 107); a pair that has parted waits for no shadow. -/
def execRepourDone (s : State) : Res :=
  onChip s fun d =>
    match d.patOp, d.pat with
    | some ⟨img, some nn, st, src, first⟩, some cur =>
      if first && d.twin.paired then { d with patOp := some ⟨img, some nn, st, src, false⟩ }
      else match opCheck d ⟨img, some nn, false, src, false⟩ with
      | .inl d => d
      | .inr p =>
        if !sharedSame p cur nn then opRefuse (opCause d 26) 15 nn.val 0 false
        else match patEntry p 3 nn.val, PatImage.sec p nn with
          | some e, some sec =>
            let d := { d with pat := some (withBlock cur nn e) }
            let d := opEnd d
            -- R208 does not name a re-pour among what arms the probe cell (assumption log 39)
            patDone (patShow ((tdaTrims (fillBlock d nn sec false) nn).clr PcStat.ARMED nn))
          | _, _ => opRefuse (opCause d 26) 5 nn.val 0 false
    | _, _ => d

end Sys2Proof.Machine
end

