-- ==== Sys2Proof/Machine/Faults.lean ====
section
/-! DEFINITION. Faults and self-recovery (14_fault_hierarchy.md): runner memory errors (R127, R383), the stewards' restart and supervision (R74, R387, R388), chip failure (R389, R390) and its window (R391). -/

namespace Sys2Proof.Machine

/-- An uncorrectable error that a runner fetch finds (R127, R383): quench and rewrite; within the rewrite or 1 s after it, a chip failure. -/
def runmemFetch (d : Dev) (nn : Fin 16) : Dev :=
  let n := rgnOf nn
  let d := d.incSat RmStat.UE n
  let d := d.flagBit RmStat.UE_B n (posOf nn).val
  let d := (d.flag Rstat.MEMERR nn).raise (bkSrc nn 21) 4
  let again := (d.b nn).rewrite || (d.b nn).rmSpan
  let d := d.onB nn fun b => { b with rewrite := true, inCycle := false, flushing := false, late := false }
  let d := quench ((d.clr Rstat.SLOT nn).clr Rstat.WAIT nn) nn (2 ^ 11)
  if again then chipFail d 3 0 else d

/-- RUNMEM_ERROR (R127, R383). -/
def execRunmemError (nn : Fin 16) (e : RmErr) (s : State) : Res :=
  onBlock nn s fun d =>
    match e with
    | .corrected => d.incSat RmStat.CE (rgnOf nn)
    | .hostRead => d.incSat RmStat.UE (rgnOf nn)
    | .fetch => if !hasSec d nn then d else runmemFetch d nn

/-- RUNMEM_REWRITE_DONE (R127): the runner resumes at the next cycle start from slot 0. -/
def execRunmemRewriteDone (nn : Fin 16) (s : State) : Res :=
  onBlock nn s fun d =>
    if (d.b nn).rewrite && !d.failT then d.onB nn fun b => { b with rewrite := false, rmSpan := true } else d

/-- RUNMEM_SPAN_EXPIRE (R383). -/
def execRunmemSpanExpire (nn : Fin 16) (s : State) : Res :=
  onBlock nn s fun d => d.onB nn fun b => { b with rmSpan := false }

/-- A pattern operation that the stewards carry out ends with CODE 16 (R74, R387). -/
def opStewards (d : Dev) : Dev :=
  if d.patOp.isSome then opRefuse (if (d.patOp.map (·.start)).getD false then opCause d 26 else d) 16 0 0 false else d

/-- What a restart of the stewards ends (R74, R355, R364, R387): a pattern operation, a SUBMIT in progress, billets that Ladle brings. -/
def stewardsStop (d : Dev) : Dev :=
  let d := opStewards { d with stwRun := false }
  let d := if d.submit.isSome then
      ((({ d with submit := none }).clr UpdSubmit.GO ()).flag UpdStat.REF_SEEN ()).incSat UpdCnt.SUBREF () else d
  let d := match d.act with
    | some a => if a.load then { d with act := some { a with load := false, lost := true } } else d
    | none => d
  gatherStewards (chanEndAll d 8 fun x => dDk x == 4)

/-- A steward restart for a cause (R387, R388): the fourth in the open window leaves the stewards stopped. -/
def stewardRestart (d : Dev) (info : Nat) : Dev :=
  let d := d.raise 642 info
  let d := stewardsStop ((d.flag RstCause.STEWARD ()).incSat RstCause.ST_CNT ())
  if d.fld Stw.WIN () = 3 then (d.flag Stw.DOWN ()).raise 642 4 else d.inc Stw.WIN ()

/-- STEWARD_HEARTBEAT_MISS (R387). -/
def execStewardHeartbeatMiss (st : Fin 2) (s : State) : Res :=
  onChip s fun d =>
    if !d.stwRun then d
    else stewardRestart (d.flag (if st = 0 then Stw.HB0_MISS else Stw.HB1_MISS) ()) (1 + st.val)

/-- Whether the stewards carry out a host command now (R387). -/
def stewardBusy (d : Dev) : Bool :=
  d.patOp.isSome || d.submit.isSome || d.act.isSome || d.sess.st == 2 || d.sess.st == 5 || d.sess.st == 6

/-- STEWARD_CMD_TIMEOUT (R387). -/
def execStewardCmdTimeout (s : State) : Res :=
  onChip s fun d =>
    if !d.stwRun || !stewardBusy d then d else stewardRestart (d.flag Stw.CMDTMO ()) 3

/-- STEWARD_WINDOW_EXPIRE (R388). -/
def execStewardWindowExpire (s : State) : Res := onChip s fun d => d.clr Stw.WIN ()

/-- CHIP_FAILURE (R389, R390): causes 2 to 5; cause 1 follows R69 alone, and the other codes name no failure. -/
def execChipFailure (cause : Fin 8) (n : Fin 4) (s : State) : Res :=
  onDev s fun d => if 2 ≤ cause.val ∧ cause.val ≤ 5 ∧ d.fld Start.STAGE () ≠ 0 then chipFail d cause.val n else d

/-- FAIL_WINDOW_EXPIRE (R391). -/
def execFailWindowExpire (s : State) : Res :=
  onChip s fun d => { d with failOpen := false, failWin := 0 }

end Sys2Proof.Machine
end

