-- ==== Sys2Proof/Machine/Update.lean ====
section
/-! DEFINITION. Updates (16_update_and_versions.md): billets and the session (R437 to R442), building (R443), activation, revert and confirmation (R444 to R447, R450), the coordinated activation of a pair (R448, R449), and the steward restart that an activation needs (R74). -/

namespace Sys2Proof.Machine

/-- The update session's event (R457). -/
def updEvent (d : Dev) (info : Nat) : Dev := d.raise 645 info

/-- The last CODE of the update engine (R455). -/
def updCode (d : Dev) (code : Nat) : Dev := d.put UpdStat.CAUSE () code

/-- A refused command, billet or SUBMIT (R455). -/
def updRefuse (d : Dev) (code : Nat) : Dev := (updCode d code).flag UpdStat.REF_SEEN ()

/-- A refused billet or manifest (R440, R457). -/
def billetRefuse (d : Dev) (code : Nat) : Dev := updEvent (updRefuse d code) 2

/-- The device with the session changed. -/
def onSess (d : Dev) (f : Sess → Sess) : Dev := { d with sess := f d.sess }

/-- The images of the session as the bits of SET (R438). -/
def sessSet (s : Sess) : Nat :=
  [1, 2, 3].foldl (fun a t => if s.entries.any fun e => e.typ == t then a + 2 ^ (t - 1) else a) 0

/-- The entry of the session for a type of image. -/
def entryOf (es : List ManEntry) (typ : Nat) : Option ManEntry := es.find? fun e => e.typ == typ

/-- The active bank with its images. -/
def activeSet (d : Dev) : Bank := bankOf d (activeBank d)

/-- The slot of a bank for a type of image (R433). -/
def slotOf (b : Bank) (typ : Nat) : Option FlashImg := if typ = 1 then b.sfw else if typ = 2 then b.pat else b.cal

/-- The header of an installed image of the active bank. -/
def installedHdr (d : Dev) (typ : Nat) : Option ImgHdr := (slotOf (activeSet d) typ).map imgHdr

/-- The header of an image as it will stand after the activation (R440). -/
def targetHdr (d : Dev) (es : List ManEntry) (typ : Nat) : Option ImgHdr :=
  ((entryOf es typ).map (·.hdr)).or (installedHdr d typ)

/-- Checks 10 and 11 of R432 over a set, by its headers (R440, R443, R451). -/
def setCheck (hdr : Nat → Option ImgHdr) : Nat :=
  match hdr 1 with
  | none => 0
  | some f =>
    firstFail [
      ((match hdr 2 with | some h => decide (f.emin ≤ h.epoch ∧ h.epoch ≤ f.emax) | none => true), 10),
      ((match hdr 3 with | some h => decide (f.calMin ≤ h.calFmt ∧ h.calFmt ≤ f.calFmt) | none => true), 11)]

/-- The first failing verdict of several, each a CODE with the type of its image: zero and zero when all pass. -/
def firstCode (cs : List (Nat × Nat)) : Nat × Nat := (cs.find? fun c => c.1 != 0).getD (0, 0)

/-- The image that a failure of check 10 or 11 refuses: PAT or CAL. -/
def setImg (code : Nat) : Nat := if code = 10 then 2 else 3

/-- An image of a session refused (R456): CHIP.BOOT.CAUSE names the inactive bank, for which it is meant (DESIGN CHOICE, assumption log 69); a refusal of no image records nothing there. -/
def imageRefuse (d : Dev) (x : Nat × Nat) : Dev := if x.1 = 0 ∨ x.2 = 0 then d else bootCause d x.1 x.2 (!activeBank d)

/-- The size of a slot of a bank (R433). -/
def slotSize (typ : Nat) : Nat := if typ = 1 then 3145728 else if typ = 2 then 4194304 else 524288

/-- The size of staging (R433). -/
def stagingSize : Nat := if Config.flash32 then 25034752 else 8257536

/-- BSZ of a billet size code (R437). -/
def bsz (c : Nat) : Nat := 1024 * 2 ^ c

/-- The manifest of a billet 0 checked (R438, R440): zero, or the CODE of its refusal with the type of the image refused, none of a bad head or of a stream too long. -/
def manifestCode (d : Dev) (b : Billet) : Nat × Nat :=
  match b.manifest with
  | none => (15, 0)
  | some es =>
    if !b.manOk || es.isEmpty || decide (3 < es.length) then (15, 0)
    else
      let set := setCheck (targetHdr d es)
      let base := fun (e : ManEntry) => e.base == 0 || some e.base == (installedHdr d e.typ).map (·.digest)
      firstCode ((es.map fun e => (hdrCheck d e.typ e.hdr (targetHdr d es 1) false d.twin.paired, e.typ)) ++ [(set, setImg set)] ++
        (es.map fun e => (if base e then 0 else 14, e.typ)) ++
        (es.map fun e => (if 256 + e.hdr.bodyLen ≤ slotSize e.typ then 0 else 16, e.typ)) ++
        [(if (b.count - 1) * (bsz b.bszc - 32) ≤ stagingSize then 0 else 16, 0)])

/-- The form of a billet (R437, R440). -/
def billetForm (b : Billet) : Bool :=
  let full := bsz b.bszc - 32
  b.crcOk && b.zeroOk && decide (b.bszc ≤ 2) && b.sid != 0 && decide (2 ≤ b.count ∧ b.count ≤ 32768) &&
    (if b.index + 1 = b.count then decide (1 ≤ b.len ∧ b.len ≤ full) else b.len == full)

/-- A message of the update on the link (R442): only the ACTIVE unit forwards. -/
def updForward (d : Dev) (m : UpdMsg) : Dev := ownerSend d (.upd m)

/-- A number put into a rising list. -/
def insertUp (x : Nat) : List Nat → List Nat
  | [] => [x]
  | y :: t => if x < y then x :: y :: t else y :: insertUp x t

/-- A payload put into staging at its offset (R437). -/
def stageIn (o : Nat) (bs : List Byte) : List (Nat × List Byte) → List (Nat × List Byte)
  | [] => [(o, bs)]
  | y :: t => if o < y.1 then (o, bs) :: y :: t else y :: stageIn o bs t

/-- A billet of difference data stored (R437, R440, R441): when the last one is held the session is APPLYING. -/
def billetStore (d : Dev) (b : Billet) : Dev :=
  let d := onSess d fun s =>
    { s with got := insertUp b.index s.got, staging := stageIn ((b.index - 1) * (bsz s.bszc - 32)) b.payload s.staging }
  if d.sess.got.length = d.sess.count then updEvent (onSess d fun s => { s with st := 2 }) 3 else d

/-- The engine takes a billet (R440). -/
def takeBillet (d : Dev) (b : Billet) : Dev :=
  let s := d.sess
  if !billetForm b then billetRefuse (d.incSat UpdCnt.BAD ()) 15
  else if b.index = 0 ∧ s.st = 0 then
    match manifestCode d b with
    | (0, _) =>
      let d := { d with sess := ⟨1, b.sid, b.count, b.bszc, b.manifest.getD [], [0], false, 0, 0, []⟩ }
      updForward (updEvent d 1) (.billet b)
    | c => billetRefuse (imageRefuse d c) c.1
  else if b.index = 0 ∧ b.sid ≠ s.sid then billetRefuse d 17
  else if s.st ≠ 0 ∧ b.sid = s.sid ∧ b.index < s.count ∧ b.count = s.count ∧ b.bszc = s.bszc then
    if s.st ≠ 1 ∨ s.got.contains b.index then d.incSat UpdCnt.DUP ()
    else updForward (billetStore d b) (.billet b)
  else d.incSat UpdCnt.BAD ()

/-- A billet that reaches the unit by a path of its own (R439, R442): on a SHADOW unit it is discarded. -/
def billetIn (d : Dev) (b : Billet) : Dev :=
  if d.fld TwStat.ROLE () = 2 then d.incSat UpdCnt.IGN () else takeBillet d b

/-- A free staging slot. -/
def freeStage (d : Dev) : Option (Fin 16) := (List.finRange 16).find? fun i => (vget d.stage i).isNone

/-- A SUBMIT that waits is copied when a slot is free (R439). -/
def submitCopy (d : Dev) : Dev :=
  match d.submit, freeStage d with
  | some o, some i =>
    let b := billetAt ((hwBytes d o 4096).map (·.toNat))
    { d with submit := none, stage := vset d.stage i (some b) }.clr UpdSubmit.GO ()
  | _, _ => d

/-- A SUBMIT that is refused (R439). -/
def submitRefuse (d : Dev) : Dev :=
  ((({ d with submit := none }).clr UpdSubmit.GO ()).flag UpdStat.REF_SEEN ()).incSat UpdCnt.SUBREF ()

/-- A write to CHIP.UPD.SUBMIT carried out (R439, R442, R455): a SHADOW unit refuses it, and a billet that it brings counts in IGN. -/
def submitWrite (d : Dev) (w : Word) : Dev :=
  if d.fld TwStat.ROLE () = 2 then
    let d := updRefuse d 25
    if w.getLsbD 31 then d.incSat UpdCnt.IGN () else d
  else
  let d := d.put UpdSubmit.OFFS () (fget 0 18 w / 4 * 4)
  if !w.getLsbD 31 then d
  else if !d.stwRun then submitRefuse d
  else submitCopy ({ d with submit := some (d.fld UpdSubmit.OFFS ()) }.flag UpdSubmit.GO ())

/-- A write to CHIP.UPD.SUBMIT by a master. -/
def submitHost (s : State) (h : Master) (w : Word) : Res :=
  hostW s h (UpdSubmit.addr ()) true unitChip (wRsv 0x7FFC0000 w) fun d => submitWrite d w

/-- SUBMIT (R439). -/
def execSubmit (h : Master) (w : Word) (s : State) : Res := submitHost s h (ownBit 31 w)

/-- SUBMIT_TIMEOUT (R439). -/
def execSubmitTimeout (s : State) : Res := onChip s fun d => if d.submit.isSome then submitRefuse d else d

/-- BILLET_TAKEN (R440). -/
def execBilletTaken (i : Fin 16) (s : State) : Res :=
  onChip s fun d =>
    if !d.stwRun then d
    else match vget d.stage i with
      | none => d
      | some b => submitCopy (billetIn { d with stage := vset d.stage i none } b)

/-- BUS_BILLET (R439): the billet that the frame's data spell, taken before filtering; counted in RXOK only. During rate detection it is a frame as any other (R290, R291) and no billet. -/
def execBusBillet (p : Fin 4) (f : Frame) (sof : Nat) (s : State) : Res :=
  onRegionF p s fun d =>
    let mine := f.fmt.val == 4 && d.bit BpCfg.XLEN p && d.bit UpdBusid.EN p &&
      f.id.toNat % 2048 == d.fld UpdBusid.ID p
    if !takesPart d p || !mine || ardGone d p sof then d
    else
      let d := sendFlag (d.inc BpCnt.RXOK p) p .ack
      let d := if d.fld BpStat.OPMODE p = 0 then confine (recGood d p) p else d
      let b := billetAt (f.data.map (·.toNat))
      let d := if d.bit BpStat.ARDRUN p then ardFrame d p f
        else if d.stwRun then billetIn d (if b.bszc ≤ 1 then b else { b with crcOk := false }) else d
      portPend d p

/-- The images of a session built, entry by entry, from the difference streams that follow one another in staging (R438, R443): each with its type and whether it is whole; the first that is not ends the build. -/
def buildAll (d : Dev) (es : List ManEntry) : List (Nat × List Byte × Bool) :=
  let t := d.sess.staging.flatMap (·.2)
  (es.foldl (fun (x : List (Nat × List Byte × Bool) × Option (List Byte)) e => match x.2 with
    | none => x
    | some t =>
      let src := ((slotOf (activeSet d) e.typ).map (·.bytes)).getD []
      let r := buildImg (t.length + 1) src t []
      (x.1 ++ [(e.typ, r.1, r.2.1)], if r.2.1 then some r.2.2 else none)) ([], some t)).1

/-- The inactive bank once its images have been built (R443): an image of the session as it came out, a whole one or not (DESIGN CHOICE, assumption log 108), one not in it copied. -/
def buildBank (d : Dev) (es : List ManEntry) : Dev :=
  let a := activeSet d
  let all := buildAll d es
  let put := fun (typ : Nat) (old new : Option FlashImg) => match entryOf es typ with
    | none => new
    | some _ => ((all.find? fun x => x.1 == typ).map fun x => flashOf x.2.1).or old
  onBank d (!activeBank d) fun b =>
    { b with sfw := put 1 b.sfw a.sfw, pat := put 2 b.pat a.pat, cal := put 3 b.cal a.cal }

/-- The verdict over the set that has been built into the inactive bank (R443): every difference whole, checks 1 to 8 of R432 on each image with its slot's size, then checks 9 to 11 on the set. -/
def buildCode (d : Dev) (es : List ManEntry) (all : List (Nat × List Byte × Bool)) : Nat × Nat :=
  let b := bankOf d (!activeBank d)
  let hdr := fun (typ : Nat) => (slotOf b typ).map imgHdr
  let cs := ([1, 2, 3] : List Nat).map fun t =>
    (((hdr t).map fun h => hdrCheck d t h (hdr 1) true ((entryOf es t).isSome && d.twin.paired)).getD 0, t)
  firstCode ((all.map fun x => (if x.2.2 then 0 else 15, x.1)) ++ (cs.map fun c => (if c.1 ≤ 8 then c.1 else 0, c.2)) ++
    (all.map fun x => (if x.2.1.length ≤ slotSize x.1 then 0 else 16, x.1)) ++ cs)

/-- Whether SWAPPABLE holds for the set that has been built (R443). -/
def swappable (d : Dev) (es : List ManEntry) : Bool :=
  let ssf := match entryOf es 1, installedHdr d 1, sfwIn d (!activeBank d) with
    | some _, some h, some f => f.hdr.ssf == h.ssf
    | _, _, _ => true
  match (entryOf es 2).bind fun _ => patIn d (!activeBank d) with
  | none => ssf
  | some p => ssf && (match d.pat with
      | some c => p.hdr.clkRec == c.hdr.clkRec && ((List.finRange 16).all fun nn => sharedSame p c nn)
      | none => false)

/-- BUILD_DONE (R443). -/
def execBuildDone (s : State) : Res :=
  onChip s fun d =>
    if !d.stwRun || d.sess.st != 2 then d
    else
      let es := d.sess.entries
      let all := buildAll d es
      let d := buildBank d es
      match buildCode d es all with
      | (0, _) => updEvent (onSess d fun x => { x with st := 3, swappable := swappable d es }) 4
      | c => updEvent (updCode (onSess (imageRefuse d c) fun x => { x with st := 7 }) c.1) 5

/-- The firmware that runs (R455). -/
def setSfw (d : Dev) (f : SfwImage) : Dev :=
  ({ d with sfw := some f }.put UpdSfwep.EPOCH () f.hdr.epoch).put UpdCalv.SSF () f.hdr.ssf

/-- Checks 10 and 11 of R432 over the pattern and CAL in effect, under the firmware that runs (R451). -/
def effectCheck (d : Dev) : Nat :=
  setCheck fun t => if t = 1 then d.sfw.map (·.hdr) else if t = 2 then d.pat.map (·.hdr) else d.cal.map (·.hdr)

/-- The settings of an older format migrated, once their header has been checked (R432, R450): the CODE of a failure, zero otherwise. The migrated body is the firmware's (assumption log 11), and its header follows it. -/
def calMigrate (d : Dev) : Nat × Dev :=
  let bk := activeBank d
  match d.sfw, (bankOf d bk).cal with
  | some f, some x =>
    let c := imgCal x
    if f.hdr.calFmt ≤ c.hdr.calFmt ∨ hdrCheck d 3 c.hdr (some f.hdr) true false ≠ 0 then (0, d)
    else match Config.calMigrate (((x.bytes.drop 256).take c.hdr.bodyLen).map (·.toNat)) f.hdr.calFmt with
      | none => (22, d)
      | some body =>
        let x' := flashOf (calOf x.bytes f.hdr.calFmt body)
        let d := onBank d bk fun b => { b with preMig := some x, cal := some x' }
        (0, updEvent ({ d with cal := some (imgCal x') }.put UpdCalv.CALFMT () f.hdr.calFmt) 10)
  | _, _ => (0, d)

/-- Every block OFF or HELD (R445). -/
def blocksIdle (d : Dev) : Bool := allBlk.all fun nn => decide (bkState d nn ≤ 1)

/-- Step 1 of R446: the record switches to the other bank, unless its write fails (R434). -/
def recSwitch (d : Dev) : Bool × Dev :=
  recPut d fun r => { r with active := !r.active, trial := true, tries := 0, confirmed := false }

/-- No activation runs any more: ACTNOW and REVERT, which last as long as it does, clear (R94, R455). -/
def actEnd (d : Dev) : Dev := ({ d with act := none }.clr UpdCtl.ACTNOW ()).clr UpdCtl.REVERT ()

/-- The end of an activation that has installed its set (R446 step 6, R447, R448): in a coordinated one the session goes on until the pair stands. -/
def actClose (d : Dev) (a : Activ) : Dev :=
  let d := recWrite (actEnd d) fun r => { r with trial := false, tries := 0 }
  let d := d.clr BootCause.HELD ()
  let d := if a.revert then updEvent d 9 else d
  if a.code ≠ 0 then
    let d := (updCode d a.code).onTw fun t => { t with coord := .none }
    if d.sess.st = 7 then d else { d with sess := Sess.empty }
  else if d.twin.coord = .departed ∨ d.twin.coord = .departedLast then onSess d fun x => { x with st := 6 }
  else
    -- a pair whose set is not SWAPPABLE pairs again with its next exchange (R445)
    let d := if d.twin.paired then (unpair d).clr TwStat.SYNCED () else d
    updEvent ({ d with sess := Sess.empty }.flag UpdStat.DONE_SEEN ()) 7

/-- Steps 5 and 6 of R446: zero, or the CODE of a failure. -/
def actFinish (d : Dev) (a : Activ) : Nat × Dev :=
  match calMigrate d with
  | (0, d) => (0, actClose d a)
  | x => x

/-- Steps 3 and 4 of R446, up to the pattern load that is awaited. -/
def actLoad (d : Dev) (a : Activ) : Nat × Dev :=
  match calTake d (activeBank d) with
  | (0, d) =>
    if a.set / 2 % 2 = 1 then
      let d := { d with act := some { a with load := true, lost := false }, patOp := some ⟨patSource d 0, none, false, 0, false⟩ }
      (0, d.flag PatStat.BUSY ())
    else
      let d := if a.set / 4 % 2 = 1 then
          forAll (calOff d) fun d nn => if bkState d nn = 1 then calApply d nn else d else d
      actFinish d a
  | x => x

/-- The steps of R446 that follow the record switch, up to the one that is awaited. -/
def actRun (d : Dev) (a : Activ) : Nat × Dev :=
  if a.set % 2 = 1 then
    -- step 2: the stewards restart from the new bank (R74)
    let d := stewardsStop ((d.flag RstCause.STEWARD ()).incSat RstCause.ST_CNT ())
    (0, { d with act := some { a with load := false, lost := false } })
  else actLoad d a

/-- No set passes (R451): the chip HELD condition. -/
def actDead (d : Dev) (code : Nat) : Dev :=
  chipHeld (updCode (onSess (actEnd d) fun x => { x with st := 7 }) code)

/-- A failure after the record switch reverts by itself to the set that ran (R447); such a revert that fails, or that cannot write the record, leaves no set that passes. -/
def actSettle (a : Activ) (x : Nat × Dev) : Dev :=
  if x.1 = 0 then x.2
  else if a.code ≠ 0 then actDead x.2 x.1
  else
    match recSwitch x.2 with
    | (false, d) => actDead d x.1
    | (true, d) =>
      match actRun d { a with revert := true, code := x.1 } with
      | (0, d) => d
      | (_, d) => actDead d x.1

/-- An activation begins (R446); a record switch that fails leaves the set that runs, and the activation has failed (DESIGN CHOICE, assumption log 109). -/
def actStart (d : Dev) (a : Activ) : Dev :=
  match recSwitch d with
  | (true, d) => actSettle a (actRun d a)
  | (false, d) =>
    let d := (updCode (onSess (actEnd d) fun x => { x with st := 7 }) 13).onTw fun t => { t with coord := .none }
    updEvent d 8

/-- PATTERN_LOAD_DONE (R145): the load in progress takes effect or is refused, and an activation that waits for it goes on. -/
def execPatternLoadDone (readBackOk : Bool) (s : State) : Res :=
  onChip s fun d =>
    match d.patOp with
    | some ⟨img, none, start, src, sh⟩ =>
      let (ok, d) := loadStep d ⟨img, none, start, src, sh⟩ readBackOk
      match d.act with
      | some a => if !a.load then d else actSettle a (if ok then actFinish d a else (d.fld BootCause.CODE (), d))
      | none => d
    | _ => d

/-- The firmware that the stewards run from (R74): the active bank's, else the other bank's, else the one that ran (R74 does not say what runs when the active bank's fails: DESIGN CHOICE, assumption log 48). -/
def restartSfw (d : Dev) : Nat × Dev :=
  let code := fun (b : Bool) => match sfwIn d b with
    | some f => hdrCheck d 1 f.hdr none true false
    | none => 12
  let bk := activeBank d
  let take := fun (b : Bool) => match sfwIn d b with
    | some f => setSfw d f
    | none => d
  if code bk = 0 then (0, take bk)
  else
    let d' := if code (!bk) = 0 then take (!bk) else d
    (code bk, bootCause d' (code bk) 1 bk)

/-- The firmware that has started enables the sources that the stewards serve (R342): which they are, and their entries, is the firmware's (assumption log 25); their target is ST0 or ST1. -/
def srcServe (d : Dev) : Dev :=
  match d.sfw with
  | none => d
  | some f => (List.finRange 1024).foldl (fun d s =>
      let v := Config.served f.hdr.digest s.val
      if srcExists s.val && v.testBit 0 then d.setReg (Src.addr s) (BitVec.ofNat 32 (v &&& 0xFFE5 ||| 0x12)) else d) d

/-- What a restart of the stewards ends with (R74, R446, R451): an activation that waits for it goes on; otherwise the new firmware may reject the pattern, of which none is then in effect, or the settings. -/
def restartEnd (d : Dev) (code : Nat) : Dev :=
  match d.act with
  | some a =>
    if a.lost then actSettle a (26, d)
    else if code ≠ 0 then actSettle a (code, d)
    else actSettle a (actLoad d a)
  | none =>
    match effectCheck d with
    | 0 => d
    | c =>
      let d := chipHeld (bootCause d c (setImg c) (activeBank d))
      if c = 10 then noPattern d else d

/-- STEWARD_RESTART_DONE (R74, R342, R446, R451). -/
def execStewardRestartDone (s : State) : Res :=
  onChip s fun d =>
    if d.stwRun || d.bit Stw.DOWN () || d.fld Start.STAGE () < 2 then d
    else
      let x := restartSfw { d with stwRun := true }
      srcServe (restartEnd x.2 x.1)

/-- The images in which the banks differ, as a set (R447). -/
def bankDiff (d : Dev) : Nat :=
  let a := d.bank0
  let b := d.bank1
  (a.sfw != b.sfw).toNat + 2 * (a.pat != b.pat).toNat + 4 * (a.cal != b.cal).toNat

/-- The blocks whose BLOCK section the set changes are OFF or HELD (R448). -/
def changedIdle (d : Dev) (es : List ManEntry) : Bool :=
  match (entryOf es 2).bind fun _ => patIn d (!activeBank d), d.pat with
  | some p, some c => allBlk.all fun nn =>
      (patEntry p 3 nn.val).map (fun e => (e.crc, e.length)) == (patEntry c 3 nn.val).map (fun e => (e.crc, e.length)) ||
        decide (bkState d nn ≤ 1)
  | _, _ => true

/-- Why a due activation is refused (R445, R448, R453): zero when it runs. -/
def actRefusal (d : Dev) (set : Nat) (es : List ManEntry) (swap : Bool) : Nat :=
  if d.twin.paired && (!d.bit TwStat.SYNCED () || d.bit TwStat.SUSPECT ()) then 20
  else if d.twin.paired && swap then (if changedIdle d es then 0 else 18)
  else if set ≠ 1 ∧ ¬ blocksIdle d then 18
  else 0

/-- A unit departs from its pair (R448): announced over the link, HELD, its blocks HELD. -/
def depart (d : Dev) (c : Coord) : Dev :=
  (unpair (roleHeld ((twSend d (.upd .depart)).onTw fun t => { t with coord := c }) 0)).clr TwStat.SYNCED ()

/-- The activation is due (R444, R445, R448). -/
def activateDue (d : Dev) : Dev :=
  let s := d.sess
  let set := sessSet s
  match actRefusal d set s.entries s.swappable with
  | 0 =>
    let a : Activ := ⟨false, false, false, set, 0⟩
    if d.twin.paired && s.swappable then
      if d.fld TwStat.ROLE () = 2 then
        let d := depart (onSess d fun x => { x with st := 5 }) .departed
        actStart d a
      else (onSess d fun x => { x with st := 6 }).onTw fun t => { t with coord := .waits }
    else actStart (onSess d fun x => { x with st := 5 }) a
  | c => updEvent (updRefuse (onSess d fun x => { x with st := 3 }) c) 8

/-- Whether the commit epoch has been reached on its domain (R444). -/
def epochDue (d : Dev) (k : Fin 8) (e : Nat) : Bool :=
  decide ((domPH40 d k + 2 ^ 40 - e) % 2 ^ 40 < 2 ^ 39)

/-- ACTIVATION_DUE (R444, R446): the epoch reached on a valid domain. -/
def execActivationDue (s : State) : Res :=
  onChip s fun d =>
    if d.stwRun && d.sess.st == 4 && !d.clkLost && domValid d d.sess.dom && epochDue d d.sess.dom d.sess.epoch then activateDue d else d

/-- The build is abandoned (R453): the slots of the inactive bank that it has written are erased; which those are is open (assumption log 1). -/
def buildAborted (d : Dev) : Dev :=
  if d.sess.st ≠ 2 then d
  else
    let (i, d) := d.free
    let (j, d) := d.free
    let (k, d) := d.free
    onBank d (!activeBank d) fun b =>
      { b with
        sfw := if Config.choice i then none else b.sfw
        pat := if Config.choice j then none else b.pat
        cal := if Config.choice k then none else b.cal }

/-- One accepted or refused command of CHIP.UPD.CTL (R444, R447, R453): the bit number, with the commit epoch. -/
def updDo (d : Dev) (cmd : Nat) (dom : Fin 8) (epoch : Nat) : Nat × Dev :=
  let st := d.sess.st
  let busy := st == 5 || st == 6 || d.act.isSome
  let no : Nat × Dev := (24, d)
  if !d.stwRun then no
  else match cmd with
    | 0 => if st = 0 ∨ busy then no else (0, { buildAborted d with sess := Sess.empty })
    | 1 =>
      if st ≠ 3 then no
      else if d.fld PdCfg.SRC dom = 0 ∨ epochDue d dom epoch then (19, d)
      else (0, updEvent (onSess d fun x => { x with st := 4, dom := dom, epoch := epoch }) 6)
    | 2 => if st = 3 ∨ st = 4 then (0, activateDue d) else no
    | 3 =>
      if busy ∨ (recOf d).confirmed then no
      else (0, onBank (recWrite d fun r => { r with confirmed := true }) (activeBank d) fun b => { b with preMig := none })
    | _ =>
      if busy ∨ (recOf d).confirmed then no
      else if d.twin.paired && (!d.bit TwStat.SYNCED () || d.bit TwStat.SUSPECT ()) then (20, d)
      else if bankDiff d ≠ 1 ∧ ¬ blocksIdle d then (18, d)
      else (0, actStart (onSess d fun x => { x with st := 5 }) ⟨false, false, true, bankDiff d, 0⟩)

/-- An accepted command of CHIP.UPD.CTL: ACTNOW and REVERT read 1 while their activation runs (R94, R455). -/
def updShown (d : Dev) (cmd : Nat) : Dev :=
  if d.act.isNone then d
  else if cmd = 2 then d.flag UpdCtl.ACTNOW ()
  else if cmd = 4 then d.flag UpdCtl.REVERT ()
  else d

/-- A refused command of CHIP.UPD.CTL (R455); a REVERT refused under R445 or R453 is an activation refused (R457). -/
def updNo (d : Dev) (cmd code : Nat) : Dev :=
  let d := updRefuse d code
  if cmd = 4 ∧ (code = 18 ∨ code = 20) then updEvent d 8 else d

/-- The commands of a write to CHIP.UPD.CTL (R442, R455). -/
def updWrite (d : Dev) (c : Nat) : Dev :=
  let dom : Fin 8 := ⟨d.fld UpdCdom.DOM () % 8, Nat.mod_lt _ (by omega)⟩
  let e := d.fld UpdCehi.V () * 2 ^ 20 + d.fld UpdCelo.V ()
  if c = 0 then d
  else if d.fld TwStat.ROLE () = 2 then updRefuse d 25
  else if ([1, 2, 4, 8, 16].contains c) = false then updRefuse d 24
  else
    -- the ACTIVE unit forwards what it accepts (R442)
    let fwd := updForward d (.cmd (BitVec.ofNat 5 c) dom (BitVec.ofNat 40 e))
    match updDo d (lowBit c) dom e with
    | (0, _) => updShown (updDo fwd (lowBit c) dom e).2 (lowBit c)
    | (k, _) => updNo d (lowBit c) k

/-- A write to CHIP.UPD.CTL by a master. -/
def updHost (s : State) (h : Master) (w : Word) : Res :=
  hostW s h (UpdCtl.addr ()) true unitChip (mRsv 0xFFE0 w) fun d => updWrite d (mOnes w % 32)

/-- UPD_ABORT (R453). -/
def execUpdAbort (h : Master) (w : Word) (s : State) : Res := updHost s h (ownM 0 w)

/-- UPD_COMMIT (R444). -/
def execUpdCommit (h : Master) (w : Word) (s : State) : Res := updHost s h (ownM 1 w)

/-- ACTNOW (R444). -/
def execActnow (h : Master) (w : Word) (s : State) : Res := updHost s h (ownM 2 w)

/-- CONFIRM (R447). -/
def execConfirm (h : Master) (w : Word) (s : State) : Res := updHost s h (ownM 3 w)

/-- REVERT (R447). -/
def execRevert (h : Master) (w : Word) (s : State) : Res := updHost s h (ownM 4 w)

/-- The partner has departed (R448): the owner is ALONE without HREASON. A departure after the verification has failed begins no activation of this unit (R449). -/
def partnerDeparts (d : Dev) : Dev :=
  if d.fld TwStat.ROLE () ≠ 1 then d
  else
    let runs : Bool := d.sess.st == 4 || d.sess.st == 6
    let d := if runs then onSess d fun x => { x with st := 6 } else d
    let d := d.onTw fun t => { t with coord := if runs && t.coord == .none then .waits else t.coord }
    (unpair (setRole d 0 0)).clr TwStat.SYNCED ()

/-- UPD_RECEIVED (R442, R448). -/
def execUpdReceived (u : UpdMsg) (s : State) : Res :=
  onChip s fun d =>
    if !d.bit TwStat.LINKUP () then d
    else match u with
      | .depart => partnerDeparts d
      | .billet b => if d.fld TwStat.ROLE () = 2 && d.stwRun then takeBillet d b else d
      | .cmd c dom e =>
        if d.fld TwStat.ROLE () = 2 then
          match updDo d (lowBit c.toNat) dom e.toNat with
          | (0, d) => updShown d (lowBit c.toNat)
          | (k, d) => updNo d (lowBit c.toNat) k
        else d

/-- The verification of a coordinated activation fails (R449): both units record CODE 20 and FAILED, and the departed unit reverts and leaves to join again. -/
def verifyFail (d : Dev) : Dev :=
  if d.twin.coord = .waits then
    (updCode (onSess d fun x => { x with st := 7 }) 20).onTw fun t => { t with coord := .none }
  else if d.twin.coord = .verifying then
    let set := sessSet d.sess
    let d := updCode (onSess d fun x => { x with st := 7 }) 20
    let d := depart d .none
    actStart d ⟨false, false, true, set, 20⟩
  else d

/-- TWIN_VERIFY_TIMEOUT (R449). -/
def execTwinVerifyTimeout (s : State) : Res := onChip s fun d => verifyFail d

end Sys2Proof.Machine
end

