-- ==== Sys2Proof/Machine/Ladle.lean ====
section
/-! DEFINITION. The Ladle bus-master engine (13_ladle.md): rings and descriptors (R360 to R363), how each kind moves (R364 to R366), completion (R369 to R371), the channel commands (R372) and the trace buffer's CLEAR (R374). -/

namespace Sys2Proof.Machine

/-- Whether a function can act as a bus master (R362, R369). -/
def fnUsable (d : Dev) (f : Fin 2) : Bool :=
  d.perstN && !(vget d.fn f).d3 && (vget d.fn f).busMaster

/-- The function of a channel. -/
def chanFn (d : Dev) (c : Fin 8) : Fin 2 := if d.bit ChCfg.FUNC c then 1 else 0

/-- Whether a descriptor reaches host memory. -/
def usesHost (x : List Word) : Bool := dSk x == 0 || dDk x == 0

/-- Whether a pair of kinds is permitted (R362). -/
def pairPermitted (sk dk : Nat) : Bool :=
  match sk with
  | 0 => dk == 1 || dk == 2 || dk == 3 || dk == 4
  | 1 => dk == 0 || dk == 2 || dk == 3 || dk == 4
  | 2 => dk == 0 || dk == 1 || dk == 2
  | 3 | 4 => dk == 0 || dk == 1
  | _ => false

/-- The bits that a descriptor requires to be zero are zero (R361, R362). -/
def zeroBits (x : List Word) : Bool :=
  let s := dSaddr x
  let a := dDaddr x
  dW x 0 / 128 % 512 == 0 && dW x 1 / 2 ^ 24 == 0 &&
    (match dSk x with
     | 1 => decide (s < 2 ^ 18)
     | 2 => decide (s < 256)
     | 3 => decide (s < 4)
     | 4 => s == 0
     | _ => true) &&
    (match dDk x with
     | 1 => decide (a < 2 ^ 18)
     | 2 => decide (a < 256)
     | 3 => decide (a < 16)
     | 4 => decide (a < 65536) && a % 4096 == 0
     | _ => true)

/-- The descriptor at HEAD is good (R363). -/
def descOk (d : Dev) (c : Fin 8) (x : List Word) : Bool :=
  let sk := dSk x
  let dk := dDk x
  let len := dLen x
  let sq := (dRgn (dSaddr x), dQueue (dSaddr x))
  let dq := (dRgn (dDaddr x), dQueue (dDaddr x))
  let t : Fin 4 := ⟨dSaddr x % 4, Nat.mod_lt _ (by omega)⟩
  let nn : Fin 16 := ⟨dDaddr x % 16, Nat.mod_lt _ (by omega)⟩
  pairPermitted sk dk && zeroBits x && len != 0 && len % 4 == 0 &&
    (!(sk == 3 || sk == 4) || len % 16 == 0) && (dk != 3 || len % 32 == 0) && (sk != 2 || decide (4096 ≤ len)) &&
    (sk != 1 || decide (dSaddr x + len ≤ hwinSize)) && (dk != 1 || decide (dDaddr x + len ≤ hwinSize)) &&
    (sk != 2 || (d.bit QCfg0.USED sq && d.fld QCfg1.CONS sq == 2 &&
      !((List.finRange 8).any fun e => e != c && (match (chanOf d e).desc with
        | some y => dSk y == 2 && dSaddr y == dSaddr x
        | none => false)))) &&
    (dk != 2 || (d.bit QCfg0.USED dq && d.fld QCfg1.PROD dq == 2 && !(sk == 2 && dSaddr x == dDaddr x))) &&
    (sk != 3 || (decide (t.val < 2) && d.bit TCfg.LADLE t && d.fld TCfg.LCH t == c.val)) &&
    (dk != 3 || ((List.finRange 12).any fun m => d.fld KcCfg.KIND (nn, m) == 12))

/-- A source of items rather than bytes (R365). -/
def itemKind (x : List Word) : Bool := decide (2 ≤ dSk x)

/-- The number of a queue as an item's key. -/
def queueKey (x : List Word) : Nat := 64 * (dRgn (dSaddr x)).val + (dQueue (dSaddr x)).val

/-- Bytes of LEN that remain (R365): of the destination for item sources. -/
def chanLeft (y : Chan) (x : List Word) : Nat := dLen x - y.moved

/-- The bytes that an item takes (R364). -/
def itemBytes (i : Item) : Nat := 4 * i.words.length

/-- The packet that a channel would take from its queue next (R364). -/
def queueNext (d : Dev) (x : List Word) : Option Pkt :=
  let n := dRgn (dSaddr x)
  let q := dQueue (dSaddr x)
  if !qLive d n q || (d.bit QCfg0.MODE (n, q) && decide ((qGet d n q).owned.length ≥ 16)) then none
  else qFirst (qGet d n q)

/-- A packet's words as an item: length slot and data padded to words (R364). -/
def pktWords (p : Pkt) : List Word := lenSlot p :: p.words

/-- A packet popped into a channel (R364): a HOLD entry with its handle, a STREAM packet whole. -/
def queuePop (d : Dev) (x : List Word) (p : Pkt) : Item × Dev :=
  let n := dRgn (dSaddr x)
  let q := dQueue (dSaddr x)
  if d.bit QCfg0.MODE (n, q) then
    let (h, d) := popTake d n q
    (⟨queueKey x, pktWords p, some h⟩, d)
  else
    (⟨queueKey x, pktWords p, none⟩, freeCells (onQ d n q fun y => qWithout y p) n p.cells)

/-- What a channel with an item source does when it is free for an item (R365, R366, R371): it takes the next one, completes the descriptor with STATUS 0 (true), or waits. -/
def chanNext (d : Dev) (c : Fin 8) (x : List Word) : Bool × Dev :=
  let y := chanOf d c
  let left := chanLeft y x
  if dSk x = 2 then
    let n := dRgn (dSaddr x)
    let q := dQueue (dSaddr x)
    let d := touchQ (touchFree d n) n q
    if (chanOf d c).desc.isNone then (false, d)
    else match y.kept.find? fun i => i.key == queueKey x with
    | some i =>
      if left < itemBytes i then (true, d)
      else (false, (onChan d c fun y => { y with item := some i, sent := 0, kept := y.kept.erase i }).put ChStat.STATE c 1)
    | none =>
      match queueNext d x with
      | none => if left < 4 then (true, d) else (false, d.put ChStat.STATE c 2)
      | some p =>
        if left < 4 * (pktWords p).length then (true, d)
        else
          let (i, d) := queuePop d x p
          (false, (onChan d c fun y => { y with item := some i, sent := 0 }).put ChStat.STATE c 1)
  else if left < 16 then (true, d)
  else
    let t : Fin 4 := ⟨dSaddr x % 4, Nat.mod_lt _ (by omega)⟩
    let some' := if dSk x = 3 then !(targOf d t).ord.isEmpty else !d.trace.isEmpty
    (false, d.put ChStat.STATE c (if some' then 1 else 2))

/-- Whether a SHADOW unit lets a descriptor pass unwritten (R373). -/
def shadowSkips (d : Dev) (x : List Word) : Bool :=
  d.fld TwStat.ROLE () == 2 &&
    ((dDk x == 2 && (dQueue (dDaddr x)).val == 2) || dDk x == 3 || dDk x == 4)

/-- A billet that a SHADOW unit lets pass counts in IGN (R442). -/
def shadowCount (d : Dev) (x : List Word) : Dev := if dDk x = 4 then d.incSat UpdCnt.IGN () else d

/-- A channel in RUN with no descriptor reads its head (R361, R363, R373), and the one after each that ends at once. -/
def chanHead : Nat → Dev → Fin 8 → Dev
  | 0, d, _ => d
  | k + 1, d, c =>
    let m := 2 ^ (d.fld ChCfg.RSIZE c + 1)
    if d.fld ChHead.HEAD c % m = d.fld ChTail.TAIL c % m then
      (d.put ChStat.STATE c 0) |> fun d => onChan d c fun y => { y with drained := true }
    else
      let a := headAddr d c
      let x := (List.range 6).map fun i => hwWord d (a + 4 * i)
      if !descOk d c x then chanEnd d c 3
      else
        let d := onChan (d.put ChStat.STATE c 1) c fun y => { y with desc := some x, drained := false }
        if shadowSkips d x then chanHead k (chanEnd (shadowCount d x) c 7) c
        else if itemKind x then
          match chanNext d c x with
          | (true, d) => chanHead k (chanEnd d c 0) c
          | (false, d) => d
        else d

/-- A channel that may go on with its next descriptor. -/
def chanGo (d : Dev) (c : Fin 8) : Dev := chanHead 2049 (d.put ChStat.STATE c 1) c

/-- Whether a channel has been stopped in this very clk (R375). -/
def stopNow (d : Dev) (c : Fin 8) : Bool := d.cmdRedo ChCtl.STOP c

/-- A STOP that has met the completion of the head acts on the next descriptor, which is not started (R375); without one the channel is IDLE. -/
def stopNext (d : Dev) (c : Fin 8) : Dev :=
  let m := 2 ^ (d.fld ChCfg.RSIZE c + 1)
  if d.fld ChHead.HEAD c % m = d.fld ChTail.TAIL c % m then (d.put ChStat.STATE c 0).clr ChCtl.STOP c
  else
    let a := headAddr d c
    chanEnd (onChan d c fun y => { y with desc := some ((List.range 6).map fun i => hwWord d (a + 4 * i)) }) c 4

/-- The head completes with STATUS 0, or 7 on a SHADOW unit, and the channel goes on (R361, R373); a STOP of an earlier clk ends it with STATUS 4 (R372), one of this clk leaves it as it is (R375). -/
def chanDone (d : Dev) (c : Fin 8) (status : Nat) : Dev :=
  if d.fld ChStat.STATE c ≠ 3 then chanGo (chanEnd d c status) c
  else if stopNow d c then stopNext (chanEnd d c status) c
  else chanEnd d c 4

/-- A channel that has no item to move waits for one, and ends where it has been stopped (R365, R372). -/
def chanIdle (d : Dev) (c : Fin 8) : Dev := if d.fld ChStat.STATE c = 3 then chanEnd d c 4 else d.put ChStat.STATE c 2

/-- Whether the descriptor in work has ended under a unit: an access of Ladle's own has found its queue broken (R317, R369). -/
def chanGone (d : Dev) (c : Fin 8) : Bool := (chanOf d c).desc.isNone

/-- A mirrored write that Ladle makes on an ACTIVE unit, or the write itself (R236, R328, R409). -/
def ladleMirror (d : Dev) (a : Nat) (w : Word) (blk : Option (Fin 16)) (go : Dev → Dev) : Dev :=
  if d.fld TwStat.ROLE () = 1 then mirSend d a w blk else go d

/-- The packets that the words collected so far complete, pushed as by PDATA and PEND (R364); the answer counts those not dropped. What is still on its way to its queue, as a mirrored write or held during a rebuild, counts as moved (DESIGN CHOICE, assumption log 71). -/
def pushPkts : Nat → Dev → Fin 8 → Fin 4 → Fin 64 → List Word → Nat × List Word × Dev
  | 0, d, _, _, _, acc => (0, acc, d)
  | k + 1, d, c, n, q, acc =>
    if chanGone d c then (0, [], d) else
    match acc with
    | [] => (0, [], d)
    | h :: t =>
      let len := fget 0 13 h
      let nw := (len + 3) / 4
      if t.length < nw then (0, acc, d)
      else
        let e := BitVec.ofNat 32 (fget 13 4 h + (4 - len % 4) % 4 * 16)
        let was := d.fld QStat.DROPCNT (n, q)
        let d := if q.val = 2 ∧ d.fld TwStat.ROLE () = 1 then
            let d := (t.take nw).foldl (fun d w => mirSend d (QPdata.addr (n, q)) w none) d
            mirSend d (QPend.addr (n, q)) e none
          else
            let d := (t.take nw).foldl (fun d w => pushWord d n q 2 w) d
            pendWord d n q 2 e
        let good := if d.fld QStat.DROPCNT (n, q) = was then 1 else 0
        let (m, r, d) := pushPkts k d c n q (t.drop nw)
        (good + m, r, d)

/-- SEGWR of a block as the mirrored writes on their way will leave it (R409). -/
def segNext (d : Dev) (nn : Fin 16) : Nat :=
  ((d.twin.mirror.filter fun m => m.addr == SegWr.addr nn).getLast?.map fun m => m.word.toNat % 64).getD
    (d.fld SegWr.WR nn)

/-- The segment ring of a block is full (R240). -/
def segFull (d : Dev) (nn : Fin 16) : Bool := decide (32 ≤ (segNext d nn + 64 - d.fld SegRd.RD nn) % 64)

/-- One segment written at SEGWR, which then advances (R364). -/
def segStore (d : Dev) (nn : Fin 16) (ws : List Word) : Dev :=
  let wr := segNext d nn
  let g : Fin 32 := ⟨wr % 32, Nat.mod_lt _ (by omega)⟩
  let d := forAll d fun d (i : Fin 8) =>
    let w := (ws[i.val]?).getD 0
    ladleMirror d (Seg.addr (nn, g, i)) w (some nn) fun d => segmentDo d nn g i w
  let v := (wr + 1) % 64
  ladleMirror d (SegWr.addr nn) (BitVec.ofNat 32 v) (some nn) fun d => segwrDo d nn v

/-- Words written to the destination of a descriptor at its offset (R364). -/
def destWrite (d : Dev) (c : Fin 8) (x : List Word) (ws : List Word) : Dev :=
  let y := chanOf d c
  let n := 4 * ws.length
  let d := d.incBy ChBytes.BYTES c n
  let d := onChan d c fun y => { y with done := y.done + n }
  match dDk x with
  | 0 => { d with hostWr := d.hostWr ++ [⟨d.bit ChCfg.FUNC c, dDaddr x + y.done, ws⟩] }
  | 1 => hwPut d (dDaddr x + y.done) (ws.flatMap byte4)
  | 2 =>
    let acc := y.acc ++ ws
    let (m, r, d) := pushPkts acc.length d c (dRgn (dDaddr x)) (dQueue (dDaddr x)) acc
    if chanGone d c then d else onChan d c fun y => { y with acc := r, nrec := y.nrec + m }
  | 3 => onChan (segStore d ⟨dDaddr x % 16, Nat.mod_lt _ (by omega)⟩ ws) c fun y => { y with nrec := y.nrec + 1 }
  | _ => onChan d c fun y => { y with acc := y.acc ++ ws }

/-- The staging slot of a STAGE destination (R439). -/
def stageSlot (x : List Word) : Fin 16 := ⟨dDaddr x / 4096 % 16, Nat.mod_lt _ (by omega)⟩

/-- A descriptor whose last byte has been written ends (R361): a whole billet is in its slot, or refused where LEN is not its size (R439; DEDUCED, assumption log 110). -/
def lastByte (d : Dev) (c : Fin 8) (x : List Word) : Dev :=
  if dDk x = 4 then
    let b := billetAt ((chanOf d c).acc.flatMap fun w => leBytes 4 w.toNat)
    if b.bszc ≤ 2 ∧ dLen x ≠ bsz b.bszc then chanEnd d c 8
    else chanDone { d with stage := vset d.stage (stageSlot x) (some b) } c 0
  else chanDone d c 0

/-- A destination that refuses the write (R364, R369): STAGE while the slot's billet has not been taken or the stewards restart, or beyond the 4 KiB of the slot (R439). -/
def stageRefuses (d : Dev) (x : List Word) : Bool :=
  dDk x == 4 && (!d.stwRun || (vget d.stage (stageSlot x)).isSome || decide (4096 < dLen x))

/-- The words of a run of bytes. -/
def wordsOf (bs : List Byte) : List Word := bytesWords bs

/-- The largest unit of a channel in words (R368): 256 bytes, and no more than the maximum payload size of its function; from host memory no more than one of its read requests brings. -/
def unitMax (d : Dev) (c : Fin 8) (x : List Word) : Nat :=
  let f := vget d.fn (chanFn d c)
  let n := min 256 (128 * 2 ^ f.maxPay.val)
  (if dSk x = 0 then min n (128 * 2 ^ f.maxRead.val) else n) / 4

/-- One unit of a HOSTMEM or HWIN source (R364, R368): of a segment's size for SEG; the size within the largest is open. -/
def unitBytes (d : Dev) (c : Fin 8) (x : List Word) (hostData : List Byte) : Dev :=
  let y := chanOf d c
  let left := chanLeft y x
  let (k, d) := d.free
  let top := unitMax d c x
  let want := if dDk x = 3 then 32 else min left (4 * (1 + Config.freeNat k % top))
  let n := if dSk x = 0 then (if dDk x = 3 then (if hostData.length < 32 then 0 else 32)
      else min left (min (4 * top) (hostData.length / 4 * 4))) else want
  let nn : Fin 16 := ⟨dDaddr x % 16, Nat.mod_lt _ (by omega)⟩
  if n = 0 ∨ (dDk x = 3 ∧ segFull d nn) then (if d.fld ChStat.STATE c = 3 then chanEnd d c 4 else d)
  else if stageRefuses d x then chanEnd d c 8
  else
    let src := if dSk x = 0 then hostData.take n else hwBytes d (dSaddr x + y.moved) n
    let d := destWrite d c x (wordsOf src)
    if chanGone d c then d
    else
      let d := onChan d c fun y => { y with moved := y.moved + n }
      if n = left then lastByte d c x
      else if d.fld ChStat.STATE c = 3 then chanEnd d c 4
      else d

/-- An item has been written whole (R364, R371): a HOLD entry is acknowledged. Into a queue, what has been pushed counts. -/
def itemDone (d : Dev) (c : Fin 8) (x : List Word) : Dev :=
  let d := match (chanOf d c).item with
    | some ⟨_, _, some h⟩ => ackEntry d (dRgn (dSaddr x)) (dQueue (dSaddr x)) h
    | _ => d
  if chanGone d c then d
  else onChan d c fun y => { y with item := none, sent := 0, nrec := if dDk x = 2 then y.nrec else y.nrec + 1 }

/-- After an item: STOP takes effect, or the next item is looked for (R365, R372). -/
def itemNext (d : Dev) (c : Fin 8) (x : List Word) : Dev :=
  if chanGone d c then d
  else match chanNext d c x with
    | (true, d) => chanDone d c 0
    | (false, d') => if d.fld ChStat.STATE c = 3 then chanEnd d c 4 else d'

/-- The words of a record as the record memory reads (R344). -/
def recWords (r : Rec) : List Word :=
  [BitVec.ofNat 32 (r.src % 1024 + r.level.toNat * 2 ^ 10 + r.withdrawn.toNat * 2 ^ 11 + r.stuck.toNat * 2 ^ 12 +
      r.sw.toNat * 2 ^ 13 + r.claimed.toNat * 2 ^ 14 + min r.merged 255 * 2 ^ 16 + r.seq % 256 * 2 ^ 24),
   BitVec.ofNat 32 r.time, BitVec.ofNat 32 (r.time / 2 ^ 32), BitVec.ofNat 32 (r.info % 65536)]

/-- One unit of an item source (R364, R368): part of a packet, or a record, which leaves the chip. -/
def unitItem (d : Dev) (c : Fin 8) (x : List Word) : Dev :=
  let y := chanOf d c
  let moved := fun (d : Dev) (n : Nat) => onChan d c fun y => { y with moved := y.moved + n }
  match dSk x with
  | 2 => match y.item with
    | none => chanIdle d c
    | some i =>
      let (k, d) := d.free
      let n := min (i.words.length - y.sent) (1 + Config.freeNat k % unitMax d c x)
      let d := destWrite d c x ((i.words.drop y.sent).take n)
      if chanGone d c then d else
      let d := moved d (4 * n)
      if y.sent + n < i.words.length then
        let d := onChan d c fun y => { y with sent := y.sent + n }
        if d.fld ChStat.STATE c = 3 then chanEnd d c 4 else d
      else itemNext (itemDone d c x) c x
  | 3 =>
    let t : Fin 4 := ⟨dSaddr x % 4, Nat.mod_lt _ (by omega)⟩
    match (targOf d t).ord with
    | [] => chanIdle d c
    | k :: _ =>
      let d := moved (destWrite d c x (recWords (recOfSlot d t k))) 16
      let d := signal (presentFree (dropRec d t k)) t true false
      itemNext (onChan d c fun y => { y with nrec := y.nrec + 1 }) c x
  | _ =>
    match d.trace with
    | [] => chanIdle d c
    | (a, b, e, f) :: t =>
      let d := moved (destWrite { d with trace := t } c x [a, b, e, f]) 16
      itemNext (onChan d c fun y => { y with nrec := y.nrec + 1 }) c x

/-- Whether a channel has a unit that waits for nothing but its turn (R368): bytes of host memory have still to come, and a full ring of segments to empty. -/
def unitReady (d : Dev) (c : Fin 8) : Bool :=
  match (chanOf d c).desc with
  | some x => (d.fld ChStat.STATE c == 1 || d.fld ChStat.STATE c == 3) && dSk x != 0 &&
      !(dDk x == 3 && segFull d ⟨dDaddr x % 16, Nat.mod_lt _ (by omega)⟩)
  | none => false

/-- Whether it is the turn of channel c in the round-robin order (R368): no channel between the one whose turn comes first and c has a unit ready. -/
def ladleTurn (d : Dev) (c : Fin 8) : Bool :=
  (List.finRange 8).all fun e => !(unitReady d e && decide ((e - d.turn).val < (c - d.turn).val))

/-- One unit of channel c with descriptor x; a SHADOW unit writes nothing more of a descriptor that it lets pass (R373). -/
def ladleUnit (d : Dev) (c : Fin 8) (x : List Word) (hostData : List Byte) : Dev :=
  if shadowSkips d x then chanDone (shadowCount d x) c 7
  else if usesHost x && !fnUsable d (chanFn d c) then chanEnd d c 5
  else if itemKind x then unitItem d c x
  else unitBytes d c x hostData

/-- LADLE_UNIT_DONE (R364, R368): the unit of channel c, when its turn has come; the bytes read from host memory come with the command. -/
def execLadleUnitDone (c : Fin 8) (hostData : List Byte) (s : State) : Res :=
  onChip s fun d =>
    let st := d.fld ChStat.STATE c
    match (chanOf d c).desc with
    | none => d
    | some x =>
      if !(st == 1 || st == 3) || !ladleTurn d c then d
      else failCheck (ladleUnit { d with turn := c + 1 } c x hostData)

/-- LADLE_ITEM_AVAILABLE (R366, R372): a waiting channel goes back to RUN. -/
def execLadleItemAvailable (c : Fin 8) (s : State) : Res :=
  onChip s fun d =>
    match (chanOf d c).desc with
    | some x =>
      if d.fld ChStat.STATE c ≠ 2 then d
      else failCheck (match chanNext d c x with
        | (true, d) => chanDone d c 0
        | (false, d) => d)
    | none => d

/-- GATHER_EXPIRE (R365): at least one item has been moved. -/
def execGatherExpire (c : Fin 8) (s : State) : Res :=
  onChip s fun d =>
    if d.fld ChStat.STATE c = 2 ∧ (chanOf d c).moved ≠ 0 then failCheck (chanDone d c 0) else d

/-- DESCRIPTOR_TIMEOUT (R365, R369): it does not run while a channel waits and no item has been moved. -/
def execDescriptorTimeout (c : Fin 8) (s : State) : Res :=
  onChip s fun d =>
    let idle := d.fld ChStat.STATE c == 2 && (chanOf d c).moved == 0
    if (chanOf d c).desc.isSome && !idle then chanEnd d c 1 else d

/-- PCIE_ERROR (R369). -/
def execPcieError (c : Fin 8) (s : State) : Res :=
  onChip s fun d =>
    match (chanOf d c).desc with
    | some x => if usesHost x && d.fld ChStat.STATE c != 2 then chanEnd d c 2 else d
    | none => d

/-- The ring of a channel is valid (R360). -/
def ringValid (d : Dev) (c : Fin 8) : Bool :=
  let r := d.fld ChCfg.RSIZE c
  decide (2 ≤ r ∧ r ≤ 10) && decide (32 * d.fld ChCfg.RBASE c + 32 * 2 ^ r ≤ hwinSize)

/-- A refused channel command or write (R372). -/
def chanRefuse (d : Dev) (c : Fin 8) : Dev := d.flag ChStat.REF c

/-- STOP (R372): with a unit in flight the channel is STOPPING, a waiting one ends at once. The clk of the write is kept for R375. -/
def chanStop (d : Dev) (c : Fin 8) : Dev :=
  match d.fld ChStat.STATE c with
  | 1 => ((d.flag ChCtl.STOP c).cmdAgain (ChCtl.addr c) 2).put ChStat.STATE c 3
  | 2 => chanEnd d c 4
  | _ => d

/-- The commands of a write to CHn.CTL (R372). -/
def chanCtlWrite (d : Dev) (c : Fin 8) (cmds : Nat) : Dev :=
  let st := d.fld ChStat.STATE c
  match cmds with
  | 1 =>
    if (st = 0 ∨ st = 4) ∧ d.bit ChCfg.EN c ∧ ringValid d c then chanGo d c else chanRefuse d c
  | 2 => chanStop d c
  | 3 => chanRefuse d c
  | _ => d

/-- A write to CHn.CTL by a master. -/
def chanCtlHost (s : State) (h : Master) (c : Fin 8) (w : Word) : Res :=
  hostW s h (ChCtl.addr c) false unitChip (mRsv 0xFFFC w) fun d => failCheck (chanCtlWrite d c (mOnes w % 4))

/-- CHANNEL_START (R372). -/
def execChannelStart (h : Master) (c : Fin 8) (w : Word) (s : State) : Res := chanCtlHost s h c (ownM 0 w)

/-- CHANNEL_STOP (R372). -/
def execChannelStop (h : Master) (c : Fin 8) (w : Word) (s : State) : Res := chanCtlHost s h c (ownM 1 w)

/-- A write to CHn.CFG carried out (R372): EN := 0 stops the channel in any state. -/
def chanCfgDo (d : Dev) (c : Fin 8) (w : Word) : Dev :=
  let st := d.fld ChStat.STATE c
  let en := w.getLsbD 0
  if st = 0 ∨ st = 4 then
    let d := d.setReg (ChCfg.addr c) (w &&& 0x07FFFFFF)
    if en then d else (d.put ChStat.STATE c 0) |> fun d => onChan d c fun y => { y with drained := false }
  else if en then chanRefuse d c
  else chanStop (d.clr ChCfg.EN c) c

/-- CHANNEL_CFG_WRITE (R372). -/
def execChannelCfgWrite (h : Master) (c : Fin 8) (w : Word) (s : State) : Res :=
  hostW s h (ChCfg.addr c) true unitChip (wRsv 0xF8000000 w) fun d => chanCfgDo d c w

/-- A write to CHn.TAIL carried out (R360, R372): a channel that is idle because HEAD had reached TAIL runs again. -/
def tailDo (d : Dev) (c : Fin 8) (w : Word) : Dev :=
  let m := 2 ^ (d.fld ChCfg.RSIZE c + 1)
  let hd := d.fld ChHead.HEAD c % m
  let old := (d.fld ChTail.TAIL c % m + m - hd) % m
  let new := (w.toNat % 2048 % m + m - hd) % m
  if new < old ∨ m / 2 < new then chanRefuse d c
  else
    let d := d.put ChTail.TAIL c (w.toNat % 2048 % m)
    if d.fld ChStat.STATE c = 0 ∧ (chanOf d c).drained ∧ new ≠ 0 then chanGo d c else d

/-- TAIL_WRITE (R360). -/
def execTailWrite (h : Master) (c : Fin 8) (w : Word) (s : State) : Res :=
  hostW s h (ChTail.addr c) false unitChip (wRsv 0xFFFFF800 w) fun d => failCheck (tailDo d c w)

/-- The trace buffer emptied (R374): a channel that was to move its records has no item to move (R365, R372). -/
def traceClear (d : Dev) : Dev :=
  forAll { d with trace := [] } fun d (c : Fin 8) =>
    let st := d.fld ChStat.STATE c
    match (chanOf d c).desc with
    | some x => if dSk x = 4 ∧ (st = 1 ∨ st = 3) then chanIdle d c else d
    | none => d

/-- TRACE_CLEAR (R374). -/
def execTraceClear (h : Master) (w : Word) (s : State) : Res :=
  hostW s h (TrcCtl.addr ()) false unitChip (mRsv 0xFFFE (ownM 0 w)) fun d => traceClear d

end Sys2Proof.Machine
end

