-- ==== Sys2Proof/Machine/RegWrite.lean ====
section
/-! DEFINITION. A word written to a register without a meaning of its own (R93 to R95), and mirrored writes carried out at their apply instant (R409). -/

namespace Sys2Proof.Machine

/-- The bits of a register in fields of some classes. -/
def clsMask (f : RegFam) (p : Cls → Bool) : Nat :=
  f.fields.foldl (fun m x => if p x.2.2 then m ||| ((2 ^ x.2.1 - 1) * 2 ^ x.1) else m) 0

/-- The reserved bits of a register (R10): those outside its fields, of an M-type one below its mask. -/
def rsvBits (f : RegFam) : Nat :=
  (if f.mtype then 65535 else 2 ^ 32 - 1) &&& (2 ^ 32 - 1 - clsMask f fun _ => true)

/-- The hardware actions of this clk on the register at a (R10): bit and whether a count saturates. -/
def marksAt (d : Dev) (a : Nat) : List (Nat × Bool) := (d.hw.filter fun m => m.1 == a).map fun m => m.2

/-- The bits that the hardware has acted on in this clk. -/
def markBits (ms : List (Nat × Bool)) : Nat := ms.foldl (fun m x => m ||| 2 ^ x.1) 0

/-- The increments of this clk applied to the CNT fields that a write in it has set (R10). -/
def cntAgain (f : RegFam) (written : Nat) (ms : List (Nat × Bool)) (w : Word) : Word :=
  f.fields.foldl (fun w x =>
    if x.2.2 == .cnt && written.testBit x.1 then
      (ms.filter fun m => m.1 == x.1).foldl (fun w m =>
        let v := fget x.1 x.2.1 w + 1
        fset x.1 x.2.1 (if m.2 then min v (2 ^ x.2.1 - 1) else v) w) w
    else w) w

/-- The value of a register after a write by the classes of its fields (R93, R94): the bits that the write addresses are in lanes. The hardware actions ms of the same clk are not lost by it (R10). -/
def plainWord (f : RegFam) (ms : List (Nat × Bool)) (old w : Word) (lanes : Nat) : Word :=
  let o := old.toNat
  let v := w.toNat
  let m := if f.mtype then mMask w else lanes
  let cfg := clsMask f (fun c => c == .cfg) &&& m
  let w1c := clsMask f (fun c => c == .w1c) &&& m &&& (2 ^ 32 - 1 - markBits ms)
  let cnt0 := clsMask f (fun c => c == .cnt) &&& m
  let stop := clsMask f (fun c => c == .w1c || c == .cmd)
  let cnt := if !f.mtype && (v &&& stop) != 0 then 0 else cnt0
  let set := cfg ||| cnt
  let o := (o &&& (2 ^ 32 - 1 - set)) ||| (v &&& set)
  cntAgain f cnt ms (BitVec.ofNat 32 (o &&& (2 ^ 32 - 1 - (v &&& w1c))))

/-- The reserved bits that a write changes (R93, R95). -/
def rsvHit (f : RegFam) (w : Word) (lanes : Nat) : Nat :=
  if f.mtype then mRsv (rsvBits f) w else wRsv (rsvBits f &&& lanes) w

/-- A register written by the classes of its fields; an error of this clk is logged when the write has made room for it (R110). -/
def plainWrite (d : Dev) (f : RegFam) (a : Nat) (w : Word) : Dev :=
  let d := d.setReg a (plainWord f (marksAt d a) (d.reg a) w (2 ^ 32 - 1))
  if f.id = .hostErrInfo then hostErrAgain d else d

/-- The index i of a register's array indices. -/
def ixF (n : Nat) (ix : List Nat) (i : Nat) (h : 0 < n := by omega) : Fin n := ⟨(ix[i]?).getD 0 % n, Nat.mod_lt _ h⟩

/-- The block that the indices of a block register name. -/
def ixBlk (ix : List Nat) : Fin 16 := blkAt (ixF 4 ix 0) (ixF 4 ix 1)

/-- A mirrored write to a register of a block carried out (R409); none where the register is not mirrored by a rule of its own. -/
def mirBlock (d : Dev) (id : RegId) (ix : List Nat) (w : Word) : Option Dev :=
  let nn := ixBlk ix
  match id with
  | .bkCtl => some (bkCtlWrite d nn 0 (mOnes w % 32))
  | .rctl => some (rctlWrite d nn false w)
  | .qctl => some (qctlWrite d nn (mOnes w % 4) true)
  | .hspCtl => some (hspCtlWrite d nn (mOnes w))
  | .kcCtl => some (kCtlWrite d (nn, ixF 12 ix 2) (mOnes w % 64) false)
  | .segWr => some (segwrDo d nn (w.toNat % 64))
  | .seg => some (segmentDo d nn (ixF 32 ix 2) (ixF 8 ix 3) w)
  | .ecCtl => some (if mOnes w % 2 = 1 then doReval d nn else d)
  | .pcCtl => some (if mOnes w % 2 = 1 then doRearm d nn else d)
  | _ => none

/-- A mirrored write to a domain, a port or a transmit queue carried out (R409). -/
def mirPort (d : Dev) (id : RegId) (ix : List Nat) (w : Word) : Option Dev :=
  let p : Fin 4 := ixF 4 ix 0
  let q : Fin 64 := ixF 64 ix 1
  let i : Fin 128 := ixF 128 ix 1
  match id with
  | .pdCtl => some (if mOnes w % 2 = 1 then doSwitch d (ixF 8 ix 0) else d)
  | .bpCtl => some (bpCtlWrite d p w)
  | .tqCtl => some (tqCtlWrite d p w)
  | .feMatch0 => some (feWrite d p i 0 w)
  | .feMask0 => some (feWrite d p i 1 w)
  | .feMatch1 => some (feWrite d p i 2 w)
  | .feMask1 => some (feWrite d p i 3 w)
  | .qPdata => some (pushWord d p q (d.fld QCfg1.PROD (p, q)) w)
  | .qPend => some (pendWord d p q (d.fld QCfg1.PROD (p, q)) w)
  | _ => none

/-- A mirrored write carried out (R409); a re-pour of a pair reaches the shadow as one (R419). -/
def mirDo (d : Dev) (m : MirWr) : Dev :=
  match regAt m.addr with
  | none => d
  | some (f, ix) =>
    if f.id = .patCtl then
      let nn : Fin 16 := ⟨m.word.toNat / 16 % 16, Nat.mod_lt _ (by omega)⟩
      let src := m.word.toNat / 4 % 4
      if d.patOp.isSome ∨ d.pat.isNone then d else opBegin d (some nn) src
    else ((mirBlock d f.id ix m.word).or (mirPort d f.id ix m.word)).getD (plainWrite d f m.addr m.word)

/-- Whether a mirrored write is due in this clk (R409): it belongs to a block and this is a cycle start of that block, or else this is a heartbeat instant, in either case not before 4 us have gone by. A block without a section has no cycle (DESIGN CHOICE, assumption log 111). -/
def mirDue (d : Dev) (m : MirWr) : Bool :=
  decide (m.t ≤ d.clk) &&
    (match m.blk with
      | some nn => if hasSec d nn then (d.b nn).cycT == some d.clk else d.twin.hbT == some d.clk
      | none => d.twin.hbT == some d.clk)

/-- MWR_APPLY (R409): the first mirrored write that is due takes effect; pushes may find a region error. -/
def execMwrApply (s : State) : Res :=
  onDev s fun d =>
    if d.fld TwStat.ROLE () = 3 then d
    else match d.twin.mirror.find? (mirDue d) with
      | none => d
      | some m => failCheck (mirDo (d.onTw fun t => { t with mirror := t.mirror.erase m }) m)

end Sys2Proof.Machine
end

