-- ==== Sys2Proof/Machine/TwinLink.lean ====
section
/-! DEFINITION. The twin link (R401 to R403, R420, R421): training and loss, heartbeats and what the shadow takes from them (R294, R415), digests and their comparison (R416 to R418), and the beginning of a takeover. -/

namespace Sys2Proof.Machine

/-- An event of the twin (R430). -/
def twEvent (d : Dev) (info : Nat) : Dev := d.raise 643 info

/-- Whether the link can train (R76, R401, R427): from STAGE SFW on, with CLK, and not in a chip failure. -/
def linkOpen (d : Dev) : Bool := !d.twin.dead && !d.clkLost && decide (2 ≤ d.fld Start.STAGE ())

/-- LINK_UP (R401, R404): the exchange has brought p. The link trains from STAGE TWIN on; at that stage the pattern load follows (R76). -/
def execLinkUp (p : Hello) (s : State) : Res :=
  onChip s fun d =>
    if !linkOpen d || d.fld Start.STAGE () == 2 || p.lanes == 0 || (d.bit TwStat.LINKUP () && d.twin.paired) then d
    else
      let start := pairStage d
      let d := ((d.flag TwStat.LINKUP ()).put TwStat.LANES () (min p.lanes 2)).put TwLink.LAT () (min p.lat 65535)
      let d := d.onTw fun t => { t with hello := some p, faultWait := false, recov := false }
      let d := if start then d.flag Start.TWIN_TRAINED () else d
      let d := pairCheck d
      if start then startLoad d else d

/-- LINK_RETRAIN (R76, R401, R429): a training attempt while the link is down; the first of a start-up begins STAGE TWIN. -/
def execLinkRetrain (s : State) : Res :=
  onChip s fun d =>
    if linkOpen d && !d.bit TwStat.LINKUP () then
      let d := d.incSat TwLink.RETRAIN ()
      if d.fld Start.STAGE () = 2 then d.put Start.STAGE () 3 else d
    else d

/-- LANE_LOSS (R401): the link stays up at half rate. -/
def execLaneLoss (s : State) : Res :=
  onChip s fun d => if d.bit TwStat.LINKUP () && d.fld TwStat.LANES () == 2 then d.put TwStat.LANES () 1 else d

/-- The legs that have to resume before a takeover is over (R421, R429). -/
def runLegs (d : Dev) : List (Fin 16 × Fin 3) :=
  allBlk.flatMap fun nn =>
    if bkState d nn = 3 then
      (List.finRange 3).filterMap fun l => if (legOf d (nn, l)).on then some (nn, l) else none
    else []

/-- Resynchronisations in progress abandoned (R421). -/
def resyncDrop (d : Dev) : Dev :=
  (forAll d fun d (nn : Fin 16) => d.clr TwBk.RESYNC nn).onTw fun t => { t with digs := [], digO := [], rsyWait := [], logs := [] }

/-- A partner failure detected (R420): step 1 of R421, or an inhibited takeover (R398, R418, R428), during the full resynchronisation of a REPAIR too, wherever it was written. A chip failure takes nothing over (R390). -/
def partnerFails (d : Dev) (cause : Nat) : Dev :=
  let d := d.onTw fun t => { t with faultWait := false }
  if d.failT then d
  else if d.bit TwStat.SUSPECT () || d.twin.repair || d.twin.refull || d.bit TwCtl.REPAIR () then twEvent (roleHeld d 3) 9
  else
    let age := match d.twin.hb with
      | some (_, t) => (d.clk - t) * 10 / (clkHz d / 1000000)
      | none => 255
    let d := ((d.put TwTko.CAUSE () cause).put TwTko.HBAGE () (min age 255)).clr TwTko.RES ()
    let rs := runLegs d
    let d := (resyncDrop d).onTw fun t => { t with tkoT := d.clk, resume := rs, takeover := true, handing := false, guard := .takeover }
    forAll d fun d nn =>
      let d := if d.bit Qstat.LATCH nn then d else legsSafe d nn
      d.onB nn fun b => { b with leg := b.leg.map fun g => { g with on := false } }

/-- The link is lost (R398, R403, R420, R424). -/
def linkLost (d : Dev) : Dev :=
  if !d.bit TwStat.LINKUP () then d
  else
    let d := linkDown d
    match d.fld TwStat.ROLE () with
    | 1 =>
      let d := if d.twin.handing && !d.twin.ownI then (d.clr TwCtl.HANDOVER ()).onTw fun t => { t with handing := false } else d
      resyncDrop (setRole d 0 0)
    | 2 =>
      if d.twin.takeover ∨ d.bit TwStat.OWNO () then d
      else if d.twin.ownI then d.onTw fun t => { t with faultWait := true }
      else partnerFails d 2
    | _ => d

/-- LINK_LOST (R403). -/
def execLinkLost (s : State) : Res := onChip s fun d => linkLost d

/-- LINK_FAULT (R420): the shadow judges a link fault. -/
def execLinkFault (s : State) : Res :=
  onChip s fun d => if d.fld TwStat.ROLE () = 2 ∧ d.twin.faultWait ∧ d.twin.ownI then
      roleHeld (resyncDrop (d.onTw fun t => { t with faultWait := false })) 2 else d

/-- CHIP.QSUM.LATCH (R272). -/
def qsumLatch (d : Dev) : BitVec 16 :=
  BitVec.ofNat 16 (allBlk.foldl (fun a nn => a + (d.bit Qstat.LATCH nn).toNat * 2 ^ nn.val) 0)

/-- A heartbeat of this unit (R402). -/
def ownHb (d : Dev) : Hb where
  role := d.fld TwStat.ROLE ()
  drag := identDrag d
  phases := (List.finRange 8).map fun k => (domPH40 d k, domRate d k)
  ports := (List.finRange 4).map fun p => (d.fld BpStat.STATE p, d.fld BpStat.TEC p, d.fld BpStat.REC p)
  latch := qsumLatch d
  down := d.bit Stw.DOWN ()

/-- HB_SEND (R402, R409): a heartbeat instant, and with the link up a heartbeat. How many messages the link layer has repeated since the last one for a CRC error is open (R429, assumption log 66). -/
def execHbSend (s : State) : Res :=
  onChip s fun d =>
    let d := if d.clkLost then d else d.onTw fun t => { t with hbT := some d.clk }
    if linkOpen d && d.bit TwStat.LINKUP () then
      let (k, d) := d.free
      twSend (d.put TwLink.CRCERR () (min (d.fld TwLink.CRCERR () + Config.freeNat k) 255)) (.hb (ownHb d))
    else d

/-- A mismatch of block nn, found or told of (R417, R418). -/
def mismatch (d : Dev) (nn : Fin 16) : Dev :=
  let third := decide (2 ≤ d.fld TwBk.MISRUN nn)
  let d := ((d.inc TwBk.MISCNT nn).flag TwBk.MIS_SEEN nn).put TwBk.MISRUN nn (min (d.fld TwBk.MISRUN nn + 1) 2)
  let d := d.onTw fun t => { t with good := vset t.good nn 0 }
  let d := if d.bit TwBk.RESYNC nn then d else twEvent ((d.flag TwBk.RESYNC nn).incSat TwBk.RSCNT nn) 5
  let d := if third then twEvent ((d.flag TwStat.SUSPECT ()).flag TwStat.SUSP_SEEN ()) 6 else d
  -- a coordinated activation in its verification fails (R449)
  verifyFail d

/-- A mismatch found by the shadow: the block is requested from the owner (R417). -/
def mismatchHere (d : Dev) (nn : Fin 16) : Dev := mismatch (twSend d (.req (.block nn))) nn

/-- The latch of block nn reconciled with the owner's (R415). -/
def reconcile (d : Dev) (nn : Fin 16) (own : Bool) : Dev :=
  let set := d.bit Qstat.LATCH nn
  let c := d.fld Qcause.CAUSE nn
  if own == set then d
  else if own then quench d nn (2 ^ 15)
  else if c &&& 0x8008 = c then tryClear d nn (actMask d nn &&& (65535 - 8))
  else if noCompare d nn then d
  else mismatchHere d nn

/-- STATE, TEC and REC of an owner's port taken over (R294): a port stopped or OFF with TEC above 255 came there from BUSOFF or RECOV (R296). -/
def mirrorPort (d : Dev) (p : Fin 4) (st tec recN : Nat) : Dev :=
  let d := ((d.put BpStat.STATE p st).put BpStat.TEC p tec).put BpStat.REC p recN
  onPort d p fun x => { x with fromBoff := decide (st ≤ 1 ∧ 255 < tec) }

/-- STATE, TEC and REC of the owner's ports mirrored (R294). -/
def mirrorPorts (d : Dev) (ps : List (Nat × Nat × Nat)) : Dev :=
  forAll d fun d (p : Fin 4) =>
    match ps[p.val]? with
    | some (st, tec, recN) => mirrorPort d p st tec recN
    | none => d

/-- The domains that follow the other unit take its phase (R158, R160). -/
def takePhases (d : Dev) (ph : List (Nat × Nat)) : Dev :=
  forAll d fun d (k : Fin 8) =>
    let one := fun (d : Dev) (alt : Bool) =>
      if srcKind d k alt = 6 then
        match ph[srcSel d k alt]? with
        | some (p, _) => srcUpdate d k alt p
        | none => d
      else d
    one (one d false) true

/-- The digests of block nn that wait on both sides compared in order (R416, R417); a suspended comparison drops them. -/
def compareDigs : Nat → Dev → Fin 16 → Dev
  | 0, d, _ => d
  | k + 1, d, nn =>
    let mine := fun (e : Fin 16 × Nat × Word) => e.1 == nn
    let t := d.twin
    if noCompare d nn then
      d.onTw fun t => { t with digs := t.digs.filter fun e => e.1 != nn, digO := t.digO.filter fun e => e.1 != nn }
    else match t.digs.find? mine, t.digO.find? mine with
      | some a, some b =>
        let d := d.onTw fun t => { t with digs := t.digs.erase a, digO := t.digO.erase b }
        compareDigs k (if a.2 = b.2 then matched d nn else mismatchHere d nn) nn
      | _, _ => d

/-- A twin command refused (R429). -/
def twRefuse (d : Dev) (r : Nat) : Dev := (d.flag TwStat.CMDREF ()).put TwStat.CREASON () r

/-- Whether the verification of a coordinated activation lets the roles swap (R448): outside one, or with every block in RUN matched in 16 consecutive comparisons. -/
def verified (d : Dev) : Bool :=
  d.twin.coord != .waits || allBlk.all fun nn => bkState d nn != 3 || decide (16 ≤ vget d.twin.good nn)

/-- Whether the partner of an ACTIVE unit can take ownership (R423), which a verification under way still forbids (R405, R448; DEDUCED, assumption log 112). -/
def partnerReady (d : Dev) : Bool :=
  d.bit TwStat.LINKUP () && d.twin.paired && d.bit TwStat.SYNCED () && !d.bit TwStat.SUSPECT () &&
    (match d.twin.hb with
      | some (m, _) => m.role == 2
      | none => false) &&
    (allBlk.all fun nn => !d.bit TwBk.RESYNC nn) && verified d

/-- HANDOVER judged and begun (R423). -/
def handoverDo (d : Dev) : Dev :=
  if d.fld TwStat.ROLE () ≠ 1 then twRefuse d 1
  else if !partnerReady d then twRefuse d 3
  else (d.flag TwCtl.HANDOVER ()).onTw fun t => { t with handing := true }

/-- The owner of a coordinated activation issues HANDOVER once its partner has been verified (R448 step 4). -/
def coordHandover (d : Dev) : Dev :=
  if d.twin.coord = .waits ∧ d.fld TwStat.ROLE () = 1 ∧ !d.bit TwCtl.HANDOVER () ∧ partnerReady d then handoverDo d else d

/-- HB_RECEIVED (R158, R160, R294, R402, R415, R427, R448): none counts in a chip failure (R390). -/
def execHbReceived (m : Hb) (s : State) : Res :=
  onChip s fun d =>
    if !d.bit TwStat.LINKUP () || d.clkLost || d.failT then d
    else
      let d := (d.onTw fun t => { t with hb := some (m, d.clk) }).putB TwStat.PEERDOWN () m.down
      if !d.twin.paired then d
      else
        let d := takePhases d m.phases
        if d.fld TwStat.ROLE () = 2 then
          forAll (mirrorPorts d m.ports) fun d nn => compareDigs 8 (reconcile d nn (m.latch.getLsbD nn.val)) nn
        else coordHandover d

/-- A digest compared by the owner with the one of its own for that cycle, which it still keeps (R416). -/
def compareOwn (d : Dev) (nn : Fin 16) (cyc : Nat) (crc : Word) : Dev :=
  match d.twin.digs.find? fun e => e.1 == nn && e.2.1 == cyc with
  | none => d
  | some e =>
    let d := d.onTw fun t => { t with digs := t.digs.erase e }
    if noCompare d nn then d else if e.2.2 = crc then matched d nn else mismatch d nn

/-- DIG_RECEIVED (R416, R417): compared with the digest of this unit for the cycle, on the shadow now or when that is formed. -/
def execDigReceived (nn : Fin 16) (cyc : Nat) (crc : Word) (s : State) : Res :=
  onChip s fun d =>
    if !d.twin.paired then d
    else match d.fld TwStat.ROLE () with
      | 1 => compareOwn d nn cyc crc
      | 2 => compareDigs 8 (d.onTw fun t => { t with digO := t.digO ++ [(nn, cyc, crc)] }) nn
      | _ => d

end Sys2Proof.Machine
end

