-- ==== Sys2Proof/Machine/TwinSync.lean ====
section
/-! DEFINITION. Running as shadow (R409 to R413), block resynchronisation (R417), and the full resynchronisation (R407, R408, R418). -/

namespace Sys2Proof.Machine

/-- A command that only a SHADOW unit takes from the link. -/
def onShadow (s : State) (f : Dev → Dev) : Res :=
  onChip s fun d => if d.fld TwStat.ROLE () = 2 ∧ d.bit TwStat.LINKUP () then f d else d

/-- MWR_RECEIVED (R409): the write waits for its apply instant. -/
def execMwrReceived (m : MirWr) (s : State) : Res :=
  onShadow s fun d => d.onTw fun t => { t with mirror := t.mirror ++ [m] }

/-- A provisional frame that a receipt matches (R411). -/
def provFind (d : Dev) (p : Fin 4) (sof : Nat) (crc : Word) : Option (Frame × Bool × Nat × Nat) :=
  (d.port p).prov.find? fun e => Config.frameCrc e.1 == crc && decide (e.2.2.1 ≤ sof + 40 ∧ sof ≤ e.2.2.1 + 40)

/-- A frame stored, discarded or dropped as the owner has done (R411). -/
def rxAsOwner (d : Dev) (p : Fin 4) (f : Frame) (self : Bool) (sof fseq : Nat) (o : RxOut) : Dev :=
  let d := onPort d p fun x => { x with fseq := fseq % 2 ^ 16 }
  let fe := feFor d p f self
  match o with
  | .store q pri => (rxKeep d p f self fe q pri sof fseq).2
  | .drop => frameDrop d p (if (feAction d p fe).1 = 2 then rq1 else rq0)
  | .discard => if fe.isNone then d.inc RxCnt.NOMATCH p else d

/-- RXR_RECEIVED (R411). -/
def execRxrReceived (p : Fin 4) (sof fseq : Nat) (crc : Word) (o : RxOut) (s : State) : Res :=
  onShadow s fun d =>
    match provFind d p sof crc with
    | some e =>
      failCheck (rxAsOwner (onPort d p fun x => { x with prov := x.prov.erase e }) p e.1 e.2.1 sof fseq o)
    | none => twSend d (.req (.frame p sof))

/-- RXF_RECEIVED (R411). -/
def execRxfReceived (p : Fin 4) (f : Frame) (self : Bool) (sof fseq : Nat) (o : RxOut) (s : State) : Res :=
  onShadow s fun d => failCheck (rxAsOwner d p f self sof fseq o)

/-- PROVISIONAL_TIMEOUT (R411): the oldest provisional frame has had no receipt. -/
def execProvisionalTimeout (p : Fin 4) (s : State) : Res :=
  onRegion p s fun d =>
    match (d.port p).prov with
    | [] => d
    | _ :: es => (onPort d p fun x => { x with prov := es }).inc RxCnt.DROP p

/-- The CRC-32 over a packet that a report carries (R412). -/
def pktCrc (k : Pkt) : Word := crc32 ((lenSlot k :: k.words).flatMap fun w => leBytes 4 w.toNat)

/-- A transmit report applied (R412): the counts and records of the owner's. -/
def txrApply (d : Dev) (t : TxRep) : Dev :=
  match t with
  | .head p tag id crc out sof =>
    match tqHead d p with
    | some k =>
      if fget 0 16 (pw k 3) = tag ∧ (pw k 1).toNat = id ∧ pktCrc k = crc then
        headLeaves (if out = 0 then d.inc BpCnt.TXOK p else d) p k out sof
      else twSend d (.req (.txQueue p))
    | none => twSend d (.req (.txQueue p))
  | .winSent p w =>
    onW (((d.inc BpCnt.TXOK p).inc WCnt.SENT (p, w)).clr WStat.DUE (p, w)) p w fun x => { x with sent := true }
  | .winMissed p w c => winMiss d p w c
  | .winNote _ _ => d

/-- TXR_RECEIVED (R412). -/
def execTxrReceived (t : TxRep) (s : State) : Res := onShadow s fun d => failCheck (txrApply d t)

/-- SSI_MESSAGE (R203, R413): 4 us after the owner's transfer both units of a pair take its word; without the message the shadow takes the transfer as discarded. -/
def execSsiMessage (nn : Fin 16) (m : Option (BitVec 40 × Bool)) (s : State) : Res :=
  onBlock nn s fun d =>
    if d.fld EcCfg.MODE nn ≠ 2 then d
    else if d.fld TwStat.ROLE () = 2 then
      match m with
      | some (w, ok) => ssiTake d nn w.toNat ok
      | none => ssiDiscard d nn
    else match (encOf d nn).wait with
      | some (w, ok) => ssiTake (onE d nn fun e => { e with wait := none }) nn w.toNat ok
      | none => d

/-- The bits of a register that a snapshot brings (R407, R417): configuration, commands that wait and what the hardware keeps, but not flags and counts that software owns. -/
def snapMask (f : RegFam) : Nat := clsMask f fun c => c == .cfg || c == .cmd || c == .live

/-- A register of a snapshot taken over. -/
def snapReg (d : Dev) (a : Nat) (w : Word) : Dev :=
  match regAt a with
  | none => d
  | some (f, _) =>
    let m := BitVec.ofNat 32 (snapMask f)
    d.setReg a ((d.reg a &&& ~~~m) ||| (w &&& m))

/-- The registers of block nn before a snapshot: the bits that it brings at their reset values, which a register that the snapshot does not list has. -/
def snapClear (d : Dev) (nn : Fin 16) : Dev :=
  let one := fun (e : Nat × Word) => (e.1, match regAt e.1 with
    | some (f, _) =>
      let m := BitVec.ofNat 32 (snapMask f)
      (e.2 &&& ~~~m) ||| (resetWord e.1 &&& m)
    | none => e.2)
  let rs := (d.regs.map fun e => if inBlock nn e.1 then one e else e).filter fun e => e.2 != resetWord e.1
  { d with regs := rs }

/-- A block snapshot loaded (R407, R417): all state of the block except the levels at its own trip balls and the instants counted in its own clk; without its supplies the outputs stay high-impedance (R53). -/
def snapLoad (d : Dev) (nn : Fin 16) (b : BlkSnap) : Dev :=
  let d := b.regs.foldl (fun d e => if e.1 < 0x40000 then snapReg d (blockBase nn + e.1) e.2 else d) (snapClear d nn)
  let d := d.onB nn fun x =>
    { b.blk with
      ballA := x.ballA, ballB := x.ballB, prbEdge := x.prbEdge, prbLast := x.prbLast, rowOld := none, qSet := none, qClk := none,
      qClr := none, leg := b.blk.leg.map fun g => { g with prior := none },
      enc := { b.blk.enc with past := [], tA := x.enc.tA, tB := x.enc.tB, tZ := x.enc.tZ, cond := none } }
  let d := if d.bit Qstat.LATCH nn || bkState d nn != 3 || !gateSupply d nn then legsSafe d nn else d
  domRecheckAll (setPending d nn)

/-- One slot in catch-up (R417): logged values in place of SAMPLE, CAPTURE and CONSUME; PUBLISH, OPEN and MARK do nothing. -/
def catchSlot (d : Dev) (nn : Fin 16) (c : CycLog) (k : Nat) (w : DWord) : Dev :=
  match sOp w with
  | 0 | 4 | 6 =>
    let vs := ((c.slots.find? fun e => e.1 == k).map (·.2)).getD []
    vs.foldl (fun d v => d.onB nn fun b => b.putU v.1 v.2.toNat) d
  | 1 => kernelRun d (nn, kcIx (sf w 0 4))
  | 2 => updateDo d nn w
  | _ => d

/-- One logged cycle executed in catch-up (R417), and the row of the board set from the log. -/
def catchCycle (d : Dev) (nn : Fin 16) (c : CycLog) : Dev :=
  let d := runTakes (takeSwap d nn) nn
  let d := if d.bit HspCtl.COMMIT nn then hspCommit d nn else d
  let d := (hspToEntries d nn).inc BkStat.CYC nn
  let d := (curSlots d nn).zipIdx.foldl (fun d x => catchSlot d nn c x.2 x.1) d
  let d := d.onB nn fun b => { b with inCycle := false, flushing := false, late := false, digIn := [], digPend := none, awaitBank := false }
  domRecheckAll (c.row.foldl (fun d v => vbWrite d nn ⟨v.1 % 16, Nat.mod_lt _ (by omega)⟩ v.2.toNat) d)

/-- The transmit queue of a port replaced by the owner's (R407, R412). -/
def tqReplace (d : Dev) (p : Fin 4) (ps : List Pkt) : Dev :=
  let x := qGet d p tq
  let old := x.pkts.flatMap (·.cells) ++ (match x.opn with | some k => k.cells | none => [])
  let d := freeCells (onQ d p tq fun x => { x with pkts := [], opn := none, cur := none }) p old
  ps.foldl (fun d k => (storePkt d p tq k.pri k.len k.words).2) d

/-- RSY_RECEIVED (R412, R417, R428): a snapshot, a logged cycle executed in catch-up, the copy of a transmit queue, or a part of a full resynchronisation of the running pair. -/
def execRsyReceived (b : RsyBody) (s : State) : Res :=
  onShadow s fun d =>
    match b with
    | .block nn x => if d.bit TwBk.RESYNC nn then x.log.foldl (fun d c => catchCycle d nn c) (snapLoad d nn x) else d
    | .log nn c => if d.bit TwBk.RESYNC nn then catchCycle d nn c else d
    | .txQueue p ps => failCheck (twEvent (tqReplace d p ps) 10)
    | .full => d.onTw fun t => { t with refull := true }

/-- A receipt that this owner has sent, by its start of frame (R411). -/
def sentFind (d : Dev) (p : Fin 4) (sof : Nat) : Option (Frame × Bool × Nat × Nat × RxOut) :=
  (d.port p).sentRx.reverse.find? fun e => e.2.2.1 == sof

/-- A mismatch that the shadow has found, told to the owner by its request (R417): the owner counts it, and takes the snapshot at the next cycle start of the block. The digest that it has sent last has then not matched. -/
def blockAsked (d : Dev) (nn : Fin 16) : Dev :=
  mismatch (d.onTw fun t =>
    { t with rsyWait := (t.rsyWait.filter fun m => m != nn) ++ [nn], digs := t.digs.filter fun e => e.1 != nn }) nn

/-- The full resynchronisation of a running pair begun by the owner (R418): its snapshot is sent. -/
def fullSend (d : Dev) : Dev := twSend (d.onTw fun t => { t with refull := true }) (.full (fullOf d))

/-- REQ_RECEIVED (R402, R411, R412, R417, R418). -/
def execReqReceived (r : TwReq) (s : State) : Res :=
  onChip s fun d =>
    if d.fld TwStat.ROLE () ≠ 1 ∨ !d.bit TwStat.LINKUP () then d
    else match r with
      | .frame p sof => match sentFind d p sof with
        | some e => twSend d (.rxf p e.1 e.2.1 e.2.2.1 e.2.2.2.1 e.2.2.2.2)
        | none => d
      | .block nn => blockAsked d nn
      | .txQueue p => twSend d (.tq p (qGet d p tq).pkts)
      | .full => fullSend d

/-- RESYNC_DONE (R417): the block has joined, and the owner logs no more of its cycles. -/
def execResyncDone (nn : Fin 16) (s : State) : Res :=
  onChip s fun d => (d.clr TwBk.RESYNC nn).onTw fun t =>
    { t with rsyWait := t.rsyWait.filter fun m => m != nn, logs := t.logs.filter fun e => e.1 != nn }

/-- RESYNC_TIMEOUT (R417): a further mismatch. -/
def execResyncTimeout (nn : Fin 16) (s : State) : Res :=
  onChip s fun d =>
    if !d.bit TwBk.RESYNC nn then d
    else if d.fld TwStat.ROLE () = 2 then mismatchHere d nn
    else d


/-- A register of a full resynchronisation taken over; a port keeps the mode of its own role. -/
def snapChipReg (d : Dev) (a : Nat) (w : Word) : Dev :=
  match regAt a with
  | none => d
  | some (f, ix) =>
    if !snapChip f.id then d
    else if f.id = .bpStat then
      mirrorPort d (ixF 4 ix 0) (fget 0 3 w) (fget BpStat.TEC.lo 9 w) (fget BpStat.REC.lo 8 w)
    else snapReg d a w

/-- A segment that starts k clk later. -/
def segShift (k : Nat) (x : Seg) : Seg := ⟨x.t + k, x.base, x.num, x.den⟩

/-- A source of a domain whose last update came k clk later. -/
def psrcShift (k : Nat) (x : PSrc) : PSrc := { x with upd := x.upd.map fun e => (e.1 + k, e.2) }

/-- A domain k clk later. -/
def domShift (k : Nat) (x : Domn) : Domn :=
  { x with seg := segShift k x.seg, hist := x.hist.map (segShift k), pri := psrcShift k x.pri, alt := psrcShift k x.alt }

/-- A block whose probe cell latched, and whose inputs changed, k clk later. -/
def blkShift (k : Nat) (b : Blk) : Blk :=
  let on := fun (t : Option Nat) => t.map fun x => x + k
  let e : Enc := { b.enc with tA := on b.enc.tA, tB := on b.enc.tB, tZ := on b.enc.tZ, past := [], cond := none }
  { b with
    prbLast := on b.prbLast, prbEdge := on b.prbEdge, cycT := on b.cycT, rowOld := none, qSet := none, qClk := none, qClr := none
    enc := e }

/-- A port whose frames came k clk later. -/
def portShift (k : Nat) (x : Port) : Port :=
  let recent := x.recent.map fun (e : Nat × Frame) => (e.1 + k, e.2)
  let prov := x.prov.map fun (e : Frame × Bool × Nat × Nat) => (e.1, e.2.1, e.2.2.1, e.2.2.2 + k)
  { x with recent := recent, prov := prov, candT := x.candT + k }

/-- Every clk that the unit remembers moved on by k with its count. -/
def clkShift (d : Dev) (k : Nat) : Dev :=
  let rgn : Vector Rgn 4 := d.rgn.map fun r => { r with port := portShift k r.port }
  let d : Dev := { d with blk := d.blk.map (blkShift k), rgn := rgn }
  let evq := d.evq.map fun m => { m with clk := m.clk + k }
  let dom := d.dom.map (domShift k)
  let d := { d with clk := d.clk + k, t0 := d.t0 + k, patT := d.patT + k, evq := evq, dom := dom }
  d.onTw fun t =>
    let own := t.ownT.map fun e => e + k
    let hb := t.hb.map fun e => (e.1, e.2 + k)
    let hbT := t.hbT.map fun e => e + k
    { t with ownT := own, tkoT := t.tkoT + k, hb := hb, hbT := hbT }

/-- The owner's count of clk copied (R408). -/
def clkAlign (d : Dev) (c : Nat) : Dev :=
  let d := if c ≤ d.clk then d else clkShift d (c - d.clk)
  { d with patT := d.clk - c }

/-- PH40 of every domain copied at an instant common to both units (R408). -/
def phasesAlign (d : Dev) (ph : List (Fin 8 × Nat)) : Dev := ph.foldl (fun d e => phaseSet d e.1 (e.2 % 2 ^ 40 * 2 ^ 12)) d

/-- Every queue but TQ emptied (R407 step 5). -/
def queuesEmpty (d : Dev) : Dev :=
  forAll d fun d (n : Fin 4) => forAll d fun d (q : Fin 64) => if q = tq then d else scrubEnd d n q

/-- The end of a full resynchronisation on either unit (R407, R418): SYNCED, and a REPAIR waits for its matches. -/
def fullEnd (d : Dev) (rejoin : Bool) : Dev :=
  let d := resyncDrop ((d.flag TwStat.SYNCED ()).clr TwCtl.REPAIR ())
  let d := forAll d fun d (nn : Fin 16) => d.clr TwBk.MISRUN nn
  let rep := rejoin && d.bit TwStat.SUSPECT ()
  suspectClear (d.onTw fun t => { t with joining := false, refull := false, good := Vector.replicate 16 0, repair := rep })

/-- The joining unit or shadow takes the owner's state over (R407, R408). -/
def joinTakes (d : Dev) (x : FullSnap) : Dev :=
  let was := d.fld TwStat.ROLE ()
  let d := phasesAlign (clkAlign d x.clk) x.phases
  let d := x.blks.foldl (fun d e => snapLoad d e.1 e.2) d
  let d := x.regs.foldl (fun d e => snapChipReg d e.1 e.2) d
  let d := if was = 2 then d else queuesEmpty d
  let d := x.txQueues.foldl (fun d e => tqReplace d e.1 e.2) d
  let d := fullEnd (setRole d 2 0) (was == 2)
  let d := if d.twin.coord = .departed then d.onTw fun t => { t with coord := .verifying } else d
  let d := if d.twin.coord = .departedLast then
      updEvent (((({ d with sess := Sess.empty }).onTw fun t => { t with coord := .none }).flag UpdStat.DONE_SEEN ()).clr TwStat.MIXED ()) 7
    else d
  if was = 2 then d else forAll d fun d (p : Fin 4) => if d.fld BpStat.STATE p = 0 then d else modeAtIdle d p 1

/-- The owner's part (R407): it is ACTIVE since the pairing; with the last unit of a coordinated activation joined, the session closes (R448). -/
def ownerJoined (d : Dev) : Dev :=
  let d := fullEnd d (d.twin.refull || d.bit TwCtl.REPAIR ())
  if d.twin.coord = .last then
    updEvent (((({ d with sess := Sess.empty }).onTw fun t => { t with coord := .none }).flag UpdStat.DONE_SEEN ()).clr TwStat.MIXED ()) 7
  else d

/-- The time bases of a pair that has started up together are aligned, and STAGE is HELD (R406, R408): both have loaded the same pattern, and what is copied is the count of clk, the counts of the modulator clocks and the phases. -/
def startAlign (d : Dev) (x : FullSnap) : Dev :=
  let d := if d.bit TwStat.OWNO () then d
    else
      let mc := x.regs.filter fun e => match regAt e.1 with
        | some (f, _) => f.id == .mcnt
        | none => false
      mc.foldl (fun d e => snapChipReg d e.1 e.2) (phasesAlign (clkAlign d x.clk) x.phases)
  startHeld (fullEnd d false)

/-- FULL_RESYNC_DONE (R406 to R408, R418): on both units of a pair that starts up, on the joining unit, on a SHADOW whose pair is repaired, or on the owner. -/
def execFullResyncDone (x : FullSnap) (s : State) : Res :=
  onChip s fun d =>
    let role := d.fld TwStat.ROLE ()
    if !d.bit TwStat.LINKUP () || !d.twin.paired then d
    else if stageWaits d then startAlign d x
    else if d.fld Start.STAGE () != 5 then d
    else if d.bit TwStat.OWNO () then ownerJoined d
    else if role = 2 ∨ d.twin.joining then failCheck (joinTakes d x)
    else d

end Sys2Proof.Machine
end

