-- ==== Sys2Proof/Machine/TwinOwn.lean ====
section
/-! DEFINITION. Ownership (R397, R398, R425): the guard, the lines OWN_I and TWQ_O, takeover (R421), planned handover (R423, R448), and the commands HANDOVER, REPAIR and FORCE (R418, R426, R429). -/

namespace Sys2Proof.Machine

/-- The ports of a unit that begins to own take part from the next bus idle (R282, R398, R423, R426). -/
def portsOwn (d : Dev) : Dev :=
  forAll d fun d (p : Fin 4) => if d.fld BpStat.STATE p = 0 then d else modeAtIdle d p (modeFor d 0)

/-- The ports of a unit that ceases to own as SHADOW go RESTRICTED from the next bus idle (R423). -/
def portsYield (d : Dev) : Dev :=
  forAll d fun d (p : Fin 4) => if d.fld BpStat.STATE p = 0 then d else modeAtIdle d p 1

/-- The provisional frames of a port filtered and stored as own reception (R421). -/
def provOwn (d : Dev) (p : Fin 4) : Dev :=
  let fs := (d.port p).prov
  fs.foldl (fun d e => rxFilter d p e.1 e.2.1 e.2.2.1) (onPort d p fun x => { x with prov := [] })

/-- Steps 2 to 4 of R421: OWN_O rises, ROLE is ACTIVE, or ALONE once the link is lost, OWN_O is read back at the ball, and the ports go NORMAL at once. What the ball reads is open (assumption log 30); where it is not high the unit goes HELD. -/
def takeOver (d : Dev) : Dev :=
  let d := setRole (ownRaise d) (if d.bit TwStat.LINKUP () then 1 else 0) 0
  let (k, d) := d.free
  if Config.choice k then roleHeld d 1 else
  let d := (d.incSat TwCnt.TKO ()).flag TwStat.TKO_SEEN ()
  let d := d.onTw fun t => { t with takeover := false, digs := [], digO := [] }
  let d := forAll d fun d (p : Fin 4) => if d.fld BpStat.STATE p = 0 then d else setMode d p (modeFor d 0)
  twEvent (forAll d fun d (p : Fin 4) => provOwn d p) 4

/-- A start-up claim won (R398, R425): ACTIVE when paired, otherwise ALONE; the reason of a refused pairing stays. -/
def claimWon (d : Dev) : Dev :=
  let h := d.fld TwStat.HREASON ()
  portsOwn (setRole (ownRaise d) (if d.twin.paired then 1 else 0) (if 4 ≤ h then h else 0))

/-- FORCE takes effect (R426): ALONE, and the latch of every block with a section is set with cause SOFT. -/
def forceWon (d : Dev) : Dev :=
  let d := setRole ((ownRaise d).clr TwCtl.FORCE ()) 0 0
  let d := forAll d fun d (nn : Fin 16) => if hasSec d nn then quench d nn (2 ^ 15) else d
  portsOwn d

/-- OWN_GUARD_EXPIRE (R397): OWN_I has read low through the guard time. -/
def execOwnGuardExpire (s : State) : Res :=
  onChip s fun d =>
    if d.twin.ownI || d.clkLost || d.failT then d
    else match d.twin.guard with
      | .none => d
      | .start => if chipHeldOn d then d else claimWon d
      | .takeover => failCheck (takeOver d)
      | .force => if chipHeldOn d then d else forceWon d

/-- Whether Drag has raised OWN_O within the last 1 us outside a handover (R397). -/
def raceLost (d : Dev) : Bool :=
  identDrag d && d.bit TwStat.OWNO () && !d.twin.handing &&
    (match d.twin.ownT with
      | some t => decide (d.clk - t ≤ nsClk d 1000)
      | none => false)

/-- OWN_I_RISE (R397, R398): a claim or FORCE in its guard is lost, and Drag leaves by the race rule; the guard of a takeover waits on. -/
def execOwnIRise (s : State) : Res :=
  onChip s fun d =>
    let d := d.onTw fun t => { t with ownI := true }
    if d.twin.guard = .start ∨ d.twin.guard = .force ∨ raceLost d then (roleHeld d 1).clr TwCtl.FORCE ()
    else d

/-- OWN_I_FALL (R420): detection cause 1 while the link is up and no handover is announced; within the 4 us of a lost link, cause 2. -/
def execOwnIFall (s : State) : Res :=
  onChip s fun d =>
    let d := d.onTw fun t => { t with ownI := false }
    if d.fld TwStat.ROLE () ≠ 2 then d
    else if d.twin.faultWait then partnerFails d 2
    else if d.bit TwStat.LINKUP () && !d.twin.handing && !d.twin.takeover then partnerFails d 1
    else d

/-- TWQ_PULSE_END (R414). -/
def execTwqPulseEnd (s : State) : Res :=
  onDev s fun d => (d.clr TwStat.TWQO ()).onTw fun t => { t with twqPulse := false }

/-- REPAIR judged and begun (R418): the running pair resynchronises in full; the owner sends its snapshot, a shadow asks for it. -/
def repairDo (d : Dev) : Dev :=
  let r := d.fld TwStat.ROLE ()
  if (r = 1 ∨ r = 2) ∧ d.twin.paired then
    let d := d.flag TwCtl.REPAIR ()
    if r = 1 then fullSend d else twSend (d.onTw fun t => { t with refull := true }) (.req .full)
  else twRefuse d 1

/-- FORCE judged and begun (R426). -/
def forceDo (d : Dev) : Dev :=
  if d.fld TwStat.ROLE () = 3 ∧ !d.bit TwStat.LINKUP () ∧ !d.twin.ownI ∧ !chipHeldOn d ∧ !d.clkLost then
    (d.flag TwCtl.FORCE ()).onTw fun t => { t with guard := .force }
  else twRefuse d 1

/-- A write to CHIP.TWIN.CTL carried out (R429): a command that stands already is not begun again. -/
def twCtlWrite (d : Dev) (c : Nat) : Dev :=
  match c with
  | 0 => d
  | 1 => if d.bit TwCtl.HANDOVER () then d else handoverDo d
  | 2 => if d.bit TwCtl.REPAIR () then d else repairDo d
  | 4 => if d.bit TwCtl.FORCE () then d else forceDo d
  | _ => twRefuse d 2

/-- A write to CHIP.TWIN.CTL by a master (R429). -/
def twCtlHost (s : State) (h : Master) (w : Word) : Res :=
  hostW s h (TwCtl.addr ()) true unitChip (mRsv 0xFFF8 w) fun d => twCtlWrite d (mOnes w % 8)

/-- HANDOVER (R423). -/
def execHandover (h : Master) (w : Word) (s : State) : Res := twCtlHost s h (ownM 0 w)

/-- REPAIR (R418). -/
def execRepair (h : Master) (w : Word) (s : State) : Res := twCtlHost s h (ownM 1 w)

/-- FORCE (R426). -/
def execForce (h : Master) (w : Word) (s : State) : Res := twCtlHost s h (ownM 2 w)

/-- HANDOVER_OWN_RAISE (R160, R423 step 2): the incoming unit raises OWN_O without a guard, and its TIMER domains advance by their own INC. A handover that has been accepted completes, whatever a comparison finds meanwhile (R428). -/
def execHandoverOwnRaise (s : State) : Res :=
  onChip s fun d =>
    if d.fld TwStat.ROLE () = 2 ∧ d.bit TwStat.LINKUP () ∧ !d.twin.takeover ∧ !d.failT then
      leaveShadow ((d.flag TwStat.OWNO ()).onTw fun t => { t with handing := true, ownT := none })
    else d

/-- The outgoing unit's part of R423 step 3; in a coordinated activation the old owner then departs (R448). -/
def handOut (d : Dev) : Dev :=
  let d := (ownDrop d).clr TwCtl.HANDOVER ()
  let d := d.onTw fun t => { t with handing := false }
  if !d.bit TwStat.LINKUP () then roleHeld d 2
  else
    let d := twEvent (portsYield (setRole d 2 0)) 8
    if d.twin.coord = .waits then
      let set := sessSet d.sess
      actStart (depart (updEvent d 12) .departedLast) ⟨false, false, false, set, 0⟩
    else d

/-- The incoming unit's part of R423 step 3. -/
def handIn (d : Dev) : Dev :=
  let d := d.onTw fun t => { t with handing := false }
  let d := twEvent (portsOwn (setRole d (if d.bit TwStat.LINKUP () then 1 else 0) 0)) 8
  if d.twin.coord = .verifying then updEvent (d.onTw fun t => { t with coord := .last }) 12 else d

/-- HANDOVER_COMPLETES (R423 step 3, R448). -/
def execHandoverCompletes (s : State) : Res :=
  onChip s fun d =>
    if !d.twin.handing then d
    else if d.fld TwStat.ROLE () = 2 ∧ d.bit TwStat.OWNO () then handIn d
    else if d.bit TwCtl.HANDOVER () ∧ d.fld TwStat.ROLE () ≤ 1 then handOut d
    else d

end Sys2Proof.Machine
end

