-- ==== Sys2Proof/Machine/Start.lean ====
section
/-! DEFINITION. Supplies, straps, resets and start-up (R35, R49 to R60, R69 to R83, R390, R391, R435, R436), the PCIe functions (R75, R111) and the tick of an idle device. -/

namespace Sys2Proof.Machine

/-- A soft error in the pointers of a region (R317): that a copy comes to differ has no row of its own, so each clk may bring one (DESIGN CHOICE, assumption log 113). The number v tells whether, in which region, and where: the tag of a cell that then names two queues, a pointer of one queue, or the free list. -/
def softErr (d : Dev) (v : Nat) : Dev :=
  let a : Fin 64 := ⟨v / 16 % 64, Nat.mod_lt _ (by omega)⟩
  let b : Fin 64 := ⟨v / 1024 % 64, Nat.mod_lt _ (by omega)⟩
  forAll d fun d (n : Fin 4) => d.onR n fun r =>
    let hit := v.testBit 0 && v / 2 % 4 == n.val
    { r with badQ := if hit && v.testBit 3 then (a, b) :: r.badQ else r.badQ, badFree := r.badFree || (hit && !v.testBit 3) }

/-- CLK goes by one (assumption log 3): what step does when no command waits. Out of reset the modulator clocks turn, high levels at EZnn may fall, XL frames in transmission go on, and a soft error may come. -/
def idle (d : Dev) : Dev :=
  let d := { d with clk := d.clk + 1, hw := [], redo := [], errNow := none }.onTw fun t => { t with txOld := t.txq.length }
  if !d.rstN then d
  else
    let (k, d) := d.free
    let d := softErr d (Config.freeNat k)
    let d := forAll d fun d (n : Fin 4) => forAll d fun d (x : Fin 2) => mclkTick d n x
    let d := forAll d fun d nn => indexTick d nn
    forAll d fun d p => portTick d p

/-- The bits of a register kept over a chip reset (R56, R70, R71, R75, R392), hard telling power-on and RST_N apart from a software reset. -/
def keptMask (a : Nat) (hard power : Bool) : Word :=
  if a = BankV.addr () then 0xFFFFFFFF
  else if a = RstCause.addr () then (if power then 0 else 0xFF0F)
  else if a = ClkStat.addr () then (if power then 0 else 0xFF00)
  else if a = Fail.addr () then (if hard then 0 else 0xFFF7)
  else if a = Strap.addr () then (if hard then 0 else 0x1F)
  else 0

/-- The registers that a chip reset does not clear whole. -/
def keptRegs : List Nat := [BankV.addr (), RstCause.addr (), ClkStat.addr (), Fail.addr (), Strap.addr ()]

/-- The quench inputs that are active act at once on the fresh latches (R58, R263). -/
def levelsAct (d : Dev) : Dev := forAll d fun d nn => quench d nn (actMask d nn &&& 0x20FF)

/-- A block right after a chip reset (R71): the levels at its trip balls stay. -/
def blkFresh (b : Blk) : Blk := { Blk.reset with ballA := b.ballA, ballB := b.ballB }

/-- The device right after a reset of the whole unit (R71), but for the registers that are not cleared whole: what is kept is flash with its session, the unit's supplies, and the levels at its balls. -/
def chipFresh (d : Dev) (hard power : Bool) : Dev :=
  { Dev.reset with
    clk := d.clk, t0 := d.clk, patT := d.clk, fresh := d.fresh, supply := d.supply, rstN := d.rstN, perstN := d.perstN
    out := d.out, hostWr := d.hostWr, jtagTap := power || d.jtagTap, jtagHalt := !power && d.jtagHalt, dbgHalt := d.dbgHalt
    qinBall := d.qinBall, keys := d.keys, bank0 := d.bank0, bank1 := d.bank1, sess := d.sess, blk := d.blk.map blkFresh
    twin := { Twin.reset with ownI := d.twin.ownI, twqI := d.twin.twqI }
    failWin := if hard then 0 else d.failWin, failOpen := !hard && d.failOpen }

/-- A reset of the whole unit (R71): the fields that name other resets are kept, and the quench inputs act (R58). -/
def chipReset (d : Dev) (hard power : Bool) : Dev :=
  levelsAct (keptRegs.foldl (fun r a => r.setReg a (d.reg a &&& keptMask a hard power)) (chipFresh d hard power))

/-- The start-up begins (R76): STAGE ROM, LEGACY as its strap (R34, R54). -/
def romStart (d : Dev) : Dev :=
  let d := { d with rstN := true, t0 := d.clk, patT := d.clk }
  (d.put Start.STAGE () 1).put ChipMode.LEGACY () (d.fld Strap.LEGACY_EN ())

/-- The supply of a core detector (R71). -/
def coreSupply : CoreSupply → Supply
  | .vdd => .vdd | .vddaPll => .vddaPll | .vddioC => .c

/-- A power-on reset (R71, R75): every field of CHIP.RSTCAUSE clears, then POR sets; RST_N counts as low until it next rises (R51). -/
def powerOn (d : Dev) (c : CoreSupply) : Dev :=
  let d := { d with supply := d.supply.filter fun x => x != coreSupply c, rstN := false }
  let d := if c = .vddioC then d.clr BankV.C_GOOD () else d
  (chipReset d true true).flag RstCause.POR ()

/-- POWER_ON (R71). -/
def execPowerOn (c : CoreSupply) (s : State) : Res := onDev s fun d => powerOn d c

/-- RST_N_LOW (R72): a low pulse of ns nanoseconds, or RST_N held low so long. -/
def execRstNLow (ns : Nat) (s : State) : Res :=
  onDev s fun d =>
    let go := fun (d : Dev) => (chipReset { d with rstN := false } true false).flag RstCause.PIN ()
    if ns < 100 then d
    else if 1000 ≤ ns then go d
    else
      let (k, d) := d.free
      if Config.choice k then go d else d

/-- The straps sampled (R55, R56). -/
def strapSample (d : Dev) (b : Straps) : Dev :=
  d.setReg (Strap.addr ()) (BitVec.ofNat 32 (b.cdSel.toNat + b.shpPriv.toNat * 2 + b.bootSrc.toNat * 4 + b.legacyEn.toNat * 16))

/-- Whether the supplies whose fall is a power-on are good (R51). -/
def coreGood (d : Dev) : Bool := d.supply.contains .vdd && d.supply.contains .vddaPll && d.supply.contains .c

/-- RST_N_RISE (R55, R76). -/
def execRstNRise (balls : Straps) (s : State) : Res :=
  onDev s fun d => if d.rstN || !coreGood d then d else romStart (strapSample d balls)

/-- STRAP_CHANGE (R56): CHANGED is all that a change after sampling does. -/
def execStrapChange (balls : Straps) (s : State) : Res :=
  onDev s fun d =>
    if d.fld Start.STAGE () = 0 then d
    else if (strapSample d balls).reg (Strap.addr ()) = d.reg (Strap.addr ()) &&& 0x1F then d
    else d.flag Strap.CHANGED ()

/-- SOFTWARE_CHIP_RESET carried out (R73): without the KEY the write is ignored. -/
def swRstDo (d : Dev) (w : Word) : Dev :=
  if !w.getLsbD 16 then d.put SwRst.KEY () (fget 0 16 w)
  else if fget 0 16 w ≠ 0xC0DE then d
  else romStart ((chipReset d false false).flag RstCause.SOFT ())

/-- Whether a word written to CHIP.SWRST resets the chip (R73). -/
def swRstGoes (w : Word) : Bool := w.getLsbD 16 && fget 0 16 w == 0xC0DE

/-- A write to CHIP.SWRST by a master (R73): the reset ends what R95 has left open; a write that does not reset may change reserved bits. -/
def swRstHost (s : State) (h : Master) (w : Word) : Res :=
  hostCmd s h (SwRst.addr ()) true unitNone fun d =>
    unguard (swRstDo d w) unitChip (SwRst.addr ()) (if swRstGoes w then 0 else wRsv 0xFFFE0000 w)

/-- SOFTWARE_CHIP_RESET (R73). -/
def execSoftwareChipReset (h : Master) (w : Word) (s : State) : Res := swRstHost s h (ownBit 16 w)

/-- FAILURE_RESET (R390, R391): a software chip reset with FAILRST, counted in its window. -/
def execFailureReset (s : State) : Res :=
  onDev s fun d =>
    if !d.failT then d
    else
      let n := if d.failOpen then d.failWin + 1 else 1
      let d := (chipReset d false false).flag RstCause.SOFT ()
      let d := romStart ({ d with failOpen := true, failWin := n }.flag Fail.FAILRST ())
      if 3 ≤ n then { d.flag Fail.LOCK () with failNote := [5, 6] } else { d with failNote := [5] }

/-- The number of a bank that classes its supply: S0 to S3, then H (R50). -/
def classSupply (b : Fin 5) : Supply := if h : b.val < 4 then .s ⟨b.val, h⟩ else .h

/-- The S_GOOD or H_GOOD bit of a bank that classes its supply, and its class. -/
def classPut (d : Dev) (b : Fin 5) (good v3 : Bool) : Dev :=
  if b.val < 4 then
    let one := fun (d : Dev) (f : RF Unit) (v : Bool) =>
      d.put f () ((d.fld f () &&& (15 - 2 ^ b.val)) + v.toNat * 2 ^ b.val)
    one (one d BankV.S_GOOD good) BankV.S_3V3 v3
  else (d.putB BankV.H_GOOD () good).putB BankV.H_3V3 () v3

/-- A gate supply has gone or come (R51, R53): the outputs of its blocks are high-impedance, or at the levels of their state; PWM goes on with the next period. -/
def gatesFollow (d : Dev) (n : Fin 4) : Dev :=
  forAll d fun d (b : Fin 4) =>
    let nn := blkAt n b
    let d := d.onB nn fun b => { b with leg := b.leg.map fun g => { g with on := false } }
    if d.bit Qstat.LATCH nn then setSafe d nn true else legsSafe d nn

/-- SUPPLY_FALL (R50, R53, R71): a selectable bank whose class is released shows the class bit 0 until it is classed again (R50 gives no value for that time: DESIGN CHOICE, assumption log 44). -/
def execSupplyFall (v : Supply) (s : State) : Res :=
  onDev s fun d =>
    let gone := { d with supply := d.supply.filter fun x => x != v }
    match v with
    | .vdd => powerOn d .vdd
    | .vddaPll => powerOn d .vddaPll
    | .c => powerOn d .vddioC
    | .vddl => gone
    | .g n => gatesFollow (gone.put BankV.G_GOOD () (gone.fld BankV.G_GOOD () &&& (15 - 2 ^ n.val))) n
    | .s n => classPut gone ⟨n.val, by omega⟩ false false
    | .h => classPut gone 4 false false

/-- SUPPLY_RISE (R51): a selectable bank becomes good by its classing instead. -/
def execSupplyRise (v : Supply) (s : State) : Res :=
  onDev s fun d =>
    if d.supply.contains v then d
    else
      let come := { d with supply := v :: d.supply }
      match v with
      | .g n => gatesFollow (come.put BankV.G_GOOD () (come.fld BankV.G_GOOD () ||| 2 ^ n.val)) n
      | .c => come.flag BankV.C_GOOD ()
      | .s _ => d
      | .h => d
      | .vddl => come
      -- the gate outputs need VDD and VDDA_PLL too
      | .vdd => forAll come fun d n => gatesFollow d n
      | .vddaPll => forAll come fun d n => gatesFollow d n

/-- BANK_CLASSING (R50, R461): the class is latched until the supply falls. -/
def execBankClassing (b : Fin 5) (is3v3 : Bool) (s : State) : Res :=
  onDev s fun d =>
    let v := classSupply b
    if d.supply.contains v then d else classPut { d with supply := v :: d.supply } b true is3v3

/-- PLL_LOCK (R63, R76, R81): with BOOT_SRC = 3 ST0 then waits for a recovery image. REFCLK_OK becomes 1 with it (when it does at start-up is not given: DESIGN CHOICE, assumption log 47). -/
def execPllLock (s : State) : Res :=
  onDev s fun d =>
    if d.fld Start.STAGE () = 0 ∨ d.clkLost then d
    else
      let d := { (d.flag ClkStat.PLL_LOCK ()).flag ClkStat.REFCLK_OK () with rcOsc := false }
      if d.fld Start.STAGE () = 1 ∧ d.fld Strap.BOOT_SRC () = 3 then { d with waitSfw := true } else d

/-- The unit gives its role up while it has no CLK (R69, R397, R427); its blocks stay QUENCHED, or HELD, as R70 says. -/
def clockRole (d : Dev) : Dev :=
  let was := d.fld TwStat.ROLE ()
  let d := ownDrop (setRole d 3 0)
  let d := if was = 3 then d else d.raise 643 7
  let d := d.onTw fun t =>
    { t with mirror := [], takeover := false, resume := [], handing := false, guard := .none, joining := false, dead := true, recov := false }
  linkLost ((d.clr TwCtl.HANDOVER ()).clr TwCtl.FORCE ())

/-- Clock loss (R69): the two conditions are one, counted once while it lasts. The sources that need CLK become invalid with it (R156, R163); in the sequence of a chip failure CAUSE, REGION and FCNT stay (R390). -/
def clockLoss (d : Dev) (f : RF Unit) : Dev :=
  if d.fld Start.STAGE () = 0 then d
  else
    let d := d.flag f ()
    let d := if d.bit f () && f.lo == 2 then d.clr ClkStat.REFCLK_OK () else d
    if d.clkLost then d.clr ClkStat.PLL_LOCK ()
    else
      let d := ({ d with clkLost := true, rcOsc := true }.clr ClkStat.PLL_LOCK ()).incSat ClkStat.LOSS_CNT ()
      let d := if d.failT then d else ((d.put Fail.CAUSE () 1).clr Fail.REGION ()).incSat Fail.FCNT ()
      let d := domRecheckAll (forAll d fun d nn => quench d nn (2 ^ 12))
      let d := clockRole (portsOff d)
      d.raise 640 (d.lo16 ClkStat.word ())

/-- REFCLK_LOSS (R69). -/
def execRefclkLoss (s : State) : Res := onDev s fun d => clockLoss d ClkStat.REFCLK_LOSS

/-- PLL_UNLOCK (R69). -/
def execPllUnlock (s : State) : Res := onDev s fun d => clockLoss d ClkStat.PLL_UNLOCK

/-- CLOCK_RECOVERY (R70, R427): the TIMER sources are valid again (R156), the ports restart and the unit takes its role as at start-up. -/
def execClockRecovery (s : State) : Res :=
  onDev s fun d =>
    if !d.clkLost then d
    else
      let d := domRecheckAll { (d.flag ClkStat.PLL_LOCK ()).flag ClkStat.REFCLK_OK () with clkLost := false, rcOsc := false }
      if d.failT ∨ d.fld Start.STAGE () < 4 then d.onTw fun t => { t with dead := d.failT }
      else
        let d := d.onTw fun t => { t with dead := false, recov := true }
        forAll d fun d p => portRestart d p true

/-- SFW runs (R76): the stewards start, and report what a failure reset has left (R390, R391). -/
def sfwRun (d : Dev) (f : SfwImage) : Dev :=
  let d := setSfw { d with stwRun := true, waitSfw := false } f
  let d := (d.put Start.STAGE () 2).clr Start.GO ()
  let ns := d.failNote
  ns.foldl (fun d i => d.raise 642 i) { d with failNote := [] }

/-- The CODE of the SFW image of a bank (R432, R77), zero when it passes. -/
def sfwCode (d : Dev) (b : Bool) : Nat :=
  match sfwIn d b with
  | some f => hdrCheck d 1 f.hdr none true false
  | none => 12

/-- The SFW of a bank runs (R77): fb tells that it is the other bank's. -/
def sfwFrom (d : Dev) (b fb : Bool) : Dev :=
  match sfwIn d b with
  | some f => (sfwRun d f).putB BootCause.FALLBACK () fb
  | none => d

/-- The bank that BOOT_SRC selects, or the other, starts; with neither ST0 waits for a recovery image (R77). -/
def sfwPick (d : Dev) (b : Bool) : Dev :=
  match sfwCode d b with
  | 0 => sfwFrom d b false
  | c =>
    if sfwCode d (!b) = 0 then sfwFrom (bootCause d c 1 b) (!b) true
    else { bootCause d 23 1 b with waitSfw := true }

/-- A trial that has not come to its end in two starts reverts (R435); so does a migration that fails at its first start (R450). -/
def trialRevert (d : Dev) (code : Nat) : Dev :=
  let d := recWrite d fun r => { r with active := !r.active, trial := false, tries := 0, confirmed := false }
  let d := { d with sess := Sess.empty }
  let d := bootCause d code (if code = 22 then 3 else 0) (activeBank d)
  let d := d.raise 645 9
  -- no set passes (R451)
  if sfwCode d (activeBank d) = 0 then d else chipHeld d

/-- A start in the production setting (R435, R450). -/
def sfwTrial (d : Dev) : Dev :=
  if !(recOf d).trial then sfwPick d (activeBank d)
  else if 2 ≤ (recOf d).tries then
    let d := trialRevert d 21
    sfwPick d (activeBank d)
  else
    let d := recWrite d fun r => { r with tries := r.tries + 1 }
    let d' := sfwPick d (activeBank d)
    if !d'.stwRun || d'.bit BootCause.FALLBACK () then d'
    else match calMigrate d' with
      | (0, d) => d
      | (_, d) =>
        let d := trialRevert d 22
        match sfwIn d (activeBank d) with
        | some f => if sfwCode d (activeBank d) = 0 then setSfw d f else d
        | none => d

/-- ST0 trains the sampling point of FL_IO (R473): whether it fails is open (assumption log 1); a failure is recorded, and the start goes on as its checks decide (assumption log 50). -/
def flTrain (d : Dev) (b : Bool) : Dev :=
  let (k, d) := d.free
  if Config.choice k then bootCause d 13 1 b else d

/-- ST0 takes the SFW that BOOT_SRC selects (R76, R77, R435, R473). -/
def sfwSelect (d : Dev) : Dev :=
  match d.fld Strap.BOOT_SRC () with
  | 0 => sfwPick (flTrain (bootCause d 0 0 false) false) false
  | 1 => sfwPick (flTrain (bootCause d 0 0 true) true) true
  | 2 => sfwTrial (flTrain (bootCause d 0 0 (activeBank d)) (activeBank d))
  | _ => d

/-- The firmware that has started, if any has, enables the sources that the stewards serve (R342). -/
def sfwServes (d : Dev) : Dev := if d.stwRun then srcServe d else d

/-- SFW_START (R76, R77, R342, R435, R473): with BOOT_SRC = 3, or once both banks have failed, START_GO starts instead. -/
def execSfwStart (s : State) : Res :=
  onChip s fun d =>
    if d.fld Start.STAGE () ≠ 1 ∨ d.waitSfw ∨ d.clkLost then d else sfwServes (sfwSelect d)

/-- CHIP.START.GO carried out (R81, R436): at any other time than ST0's wait it has no effect. -/
def startGoDo (d : Dev) : Dev :=
  if d.fld Start.STAGE () ≠ 1 ∨ !d.waitSfw then d
  else
    let d := d.flag BootCause.RECOVERY ()
    let f : SfwImage := ⟨hdrAt (hwByteNat d) hwinSize⟩
    match hdrCheck d 1 f.hdr none true false with
    | 0 => sfwServes (sfwRun (flTrain (bootCause d 0 0 false) (activeBank d)) f)
    | c => bootCause d c 1 false

/-- A write to CHIP.START that sets GO (R81, R109). -/
def startGoHost (s : State) (h : Master) (chg : Nat) : Res :=
  hostCmd s h (Start.addr ()) true unitChip fun d => unguard (startGoDo d) unitChip (Start.addr ()) chg

/-- START_GO (R81). -/
def execStartGo (h : Master) (s : State) : Res := startGoHost s h 0

/-- TWIN_TRAIN_TIMEOUT (R78, R425, R427): in start-up, or after a clock recovery, the unit goes on unpaired. -/
def execTwinTrainTimeout (s : State) : Res :=
  onChip s fun d =>
    if d.bit TwStat.LINKUP () then d
    else if pairStage d then startLoad (claimStart d)
    else if d.twin.recov then claimStart (d.onTw fun t => { t with recov := false })
    else d

/-- A write to CHIP.MODE carried out (R34, R35, R93): a change of HEAT needs every block OFF or HELD. -/
def modeWrite (d : Dev) (w : Word) : Dev :=
  let now := d.hw.any fun m => m.1 == ChipMode.addr () && m.2.1 == 3
  let d := if (mOnes w).testBit 3 && !now then d.clr ChipMode.HEAT_REFUSED () else d
  let d := mCfg d ChipMode.LEGACY () w
  let d' := mCfg d ChipMode.HEAT () w
  if d'.fld ChipMode.HEAT () ≠ d.fld ChipMode.HEAT () ∧ !blocksIdle d then d.flag ChipMode.HEAT_REFUSED () else d'

/-- A write to CHIP.MODE by a master. -/
def modeHost (s : State) (h : Master) (w : Word) : Res :=
  hostW s h (ChipMode.addr ()) false unitChip (mRsv 0xFFF0 w) fun d => modeWrite d w

/-- HEAT_WRITE (R35): the mask bit of HEAT counts as written. -/
def execHeatWrite (h : Master) (w : Word) (s : State) : Res := modeHost s h (w ||| 0x20000)

/-- LEGACY_WRITE (R103): the mask bit of LEGACY counts as written. -/
def execLegacyWrite (h : Master) (w : Word) (s : State) : Res := modeHost s h (w ||| 0x10000)

/-- The pops of a master that are stalled withdrawn (R71, R75; DEDUCED, assumption log 104): no answer comes any more. -/
def stallsGone (d : Dev) (m : Master) : Dev :=
  { d with rgn := d.rgn.map fun r =>
      { r with queue := r.queue.map fun x => { x with stalls := x.stalls.filter fun e => e.1 != m } } }

/-- A PCIe function reset (R71, R75, R355, R369). -/
def fnReset (d : Dev) (f : Fin 2) : Dev :=
  let d := stallsGone (chanFnGone { d with fn := vset d.fn f (PcieFn.reset f) } f) (if f = 0 then .pf0 else .pf1)
  if h0Fn d = f then unclaimH0 d else d

/-- PERST_N (R75): both functions are in reset until it rises. -/
def execPerstN (s : State) : Res :=
  onDev s fun d => fnReset (fnReset { d with perstN := false } 0) 1

/-- PERST_N_RISE (R83). -/
def execPerstNRise (s : State) : Res := onDev s fun d => { d with perstN := true }

/-- FUNCTION_LEVEL_RESET (R71). -/
def execFunctionLevelReset (f : Fin 2) (s : State) : Res := onDev s fun d => fnReset d f

/-- A function enters D3hot (R111, R354, R369). -/
def d3Enter (d : Dev) (f : Fin 2) : Dev :=
  if !d.perstN || !d.rstN then d
  else signal (chanFnGone { d with fn := vset d.fn f { vget d.fn f with d3 := true } } f) 0 false false

/-- D3HOT_ENTRY (R111). -/
def execD3hotEntry (f : Fin 2) (s : State) : Res := onDev s fun d => d3Enter d f

/-- The function returns to D0 (R111, R354): what H0 still signals is signalled again. -/
def d0Enter (d : Dev) (f : Fin 2) : Dev :=
  if !(vget d.fn f).d3 then d
  else
    let d := { d with fn := vset d.fn f { vget d.fn f with d3 := false } }
    if h0Fn d ≠ f then d
    else signal (onTarg d 0 fun x => { x with woken := false, nSig := false, fSig := false }) 0 false false

/-- MSI enabled or disabled (R353, R355): after a reset of the function NVEC is requested again. -/
def msiEnable (d : Dev) (f : Fin 2) (on : Bool) : Dev :=
  let d := { d with fn := vset d.fn f { vget d.fn f with msiEn := on } }
  if on && h0Fn d == f && (targOf d 0).nDue then
    let d := onTarg d 0 fun x => { x with nDue := false }
    if (sigNow d 0).1 then msiReq d f (d.fld TCfg.NVEC 0) else d
  else d

/-- The vector masks of a function written: what is pending and no longer masked is sent (R111). -/
def msiMaskPut (d : Dev) (f : Fin 2) (m : BitVec 32) : Dev :=
  let x := vget d.fn f
  let send := (List.range 32).filter fun v => x.msiEn && x.msiPend.getLsbD v && !m.getLsbD v
  let left := if x.msiEn then x.msiPend &&& m else x.msiPend
  let d := { d with fn := vset d.fn f { x with msiMask := m, msiPend := left } }
  send.foldl (fun d v => d.say (.msi (f == 1) v)) d

/-- PCIE_CONFIG_REQUEST (R83, R111): no function answers before t0. -/
def execPcieConfigRequest (f : Fin 2) (r : CfgReq) (s : State) : Res :=
  onDev s fun d =>
    let x := vget d.fn f
    if !d.perstN || !d.rstN then d
    else match r with
      | .busMaster on =>
        let d := { d with fn := vset d.fn f { x with busMaster := on } }
        if on then d else chanFnGone d f
      | .msiEnable on => msiEnable d f on
      | .msiMask m => msiMaskPut d f m
      | .errReport on => { d with fn := vset d.fn f { x with errEn := on } }
      | .aerClear => { d with fn := vset d.fn f { x with aerCA := false } }
      -- a BAR of 128 MiB: the low 27 bits read zero
      | .bar0 w => { d with fn := vset d.fn f { x with bar0 := w &&& 0xF8000000 } }
      | .toD0 => d0Enter d f
      | .toD3hot => d3Enter d f
      | .maxPayload c => { d with fn := vset d.fn f { x with maxPay := c } }
      | .maxReadRequest c => { d with fn := vset d.fn f { x with maxRead := c } }

/-- TRST_N (R71): the JTAG TAP only. -/
def execTrstN (s : State) : Res := onDev s fun d => { d with jtagTap := true }

end Sys2Proof.Machine
end

