-- ==== Sys2Proof/Machine/Views.lean ====
section
/-! DEFINITION. What the registers and memories read (R29 to R34, R90, R101): stored words, the fields that show other state, runner memory (R125, R128, R258), the pool window (R306) and the record memory (R344). -/

namespace Sys2Proof.Machine

/-- A word with a field showing a value. -/
def show1 {ι : Type} (f : RF ι) (v : Nat) (w : Word) : Word := fset f.lo f.len v w

/-- A word with a one-bit field showing a truth value. -/
def showB {ι : Type} (f : RF ι) (v : Bool) (w : Word) : Word := show1 f v.toNat w

/-- CHIP.ID (R34). -/
def idWord : Word := BitVec.ofNat 32 (memberCode + 4 * 2 ^ 8 + 4 * 2 ^ 12 + 8 * 2 ^ 16 + Config.hwRev.toNat * 2 ^ 20 + 0x3A * 2 ^ 24)

/-- CHIP.QSUM (R57, R276). -/
def qsumWord (d : Dev) : Word :=
  let any := d.pat.isNone || qsumLatch d != 0
  BitVec.ofNat 32 ((qsumLatch d).toNat + any.toNat * 2 ^ 16 + d.qinBall.toNat * 2 ^ 17 + d.twin.twqI.toNat * 2 ^ 18 +
    (d.dbgHalt || d.jtagHalt).toNat * 2 ^ 19)

/-- LCl.STAT (R275): the levels at the outputs. -/
def lcStatWord (d : Dev) (k : LIx) (w : Word) : Word :=
  let g := legOf d k
  showB LcStat.HZ (g.gh == .hiz && g.gl == .hiz) (showB LcStat.GLO (g.gl == .high) (showB LcStat.GHO (g.gh == .high) w))

/-- RGNn.QLINK of a cell (R335). -/
def qlinkWord (d : Dev) (n : Fin 4) (c : Nat) : Word :=
  let r := d.r n
  let l := tz r.link c
  BitVec.ofNat 32 (l % 2 ^ 14 + (tz r.used c == 0).toNat * 2 ^ 14 + tz r.gen c % 8 * 2 ^ 15 + l / 2 ^ 14 % 64 * 2 ^ 18)

/-- Qq.USE (R336). -/
def qUseWord (d : Dev) (n : Fin 4) (q : Fin 64) : Word :=
  let x := qGet d n q
  BitVec.ofNat 32 (cellsOf d n q % 2 ^ 14 + x.owned.length * 2 ^ 16 + min x.pkts.length 2047 * 2 ^ 21)

/-- RGNp.BPTQSTAT (R337). -/
def tqStatWord (d : Dev) (p : Fin 4) (w : Word) : Word :=
  let x := d.port p
  let tag := match tqHead d p with | some k => fget 0 16 (pw k 3) | none => 0
  show1 TqStat.TAG tag (showB TqStat.HEADTX (x.tx == some .head && !x.orphan) w)

/-- CHIP.UPD.STAT (R455). -/
def updStatWord (d : Dev) (w : Word) : Word :=
  let s := d.sess
  showB UpdStat.FULL ((freeStage d).isNone) (showB UpdStat.SWAPPABLE s.swappable (show1 UpdStat.SET (sessSet s) (show1 UpdStat.STATE s.st w)))

/-- CHIP.UPD.BANK (R434, R455). -/
def updBankWord (d : Dev) : Word :=
  let r := recOf d
  let pre := (bankOf d r.active).preMig.isSome
  BitVec.ofNat 32 (r.active.toNat + r.trial.toNat * 2 + r.tries % 4 * 4 + r.confirmed.toNat * 16 + pre.toNat * 32 + r.seq % 2 ^ 24 * 2 ^ 8)

/-- Whether the billets numbered 32 w on are held (R455). -/
def updMapWord (d : Dev) (w : Nat) : Word :=
  BitVec.ofNat 32 ((List.range 32).foldl (fun a i => a + (d.sess.got.contains (32 * w + i)).toNat * 2 ^ i) 0)

/-- The command bits of a mirrored M-type register read 1 while they wait for their apply instant (R94, R409). -/
def cmdShown (d : Dev) (f : RegFam) (a : Nat) (w : Word) : Word :=
  if f.mtype then w ||| BitVec.ofNat 32 (mirBits d a &&& clsMask f fun c => c == .cmd) else w

/-- A 20-bit value in a register (R9): bits [31:20] read as its sign, or as zero. -/
def ext20 (signed : Bool) (w : Word) : Word :=
  BitVec.ofNat 32 (if signed then ux 32 (sx 20 w.toNat) else w.toNat % 2 ^ 20)

/-- Parameter i of a kernel kind as its register reads (R9, R216, R247): a 32-bit word where R216 says so or where the kind has no such parameter, else 20 bits, unsigned for U20. -/
def paramWord (kind i : Nat) (w : Word) : Word :=
  let whole := decide (paramCount kind ≤ i) || (kind == 8 && i == 0) || (kind == 10 && decide (2 ≤ i ∧ i ≤ 4)) || (kind == 11 && i == 0)
  let uns := (kind == 3 && i == 3) || (kind == 4 && i == 5) || (kind == 8 && i == 1) ||
    (kind == 10 && (i == 6 || i == 7)) || (kind == 11 && i == 3) || (kind == 12 && i == 1)
  if whole then w else ext20 (!uns) w

/-- The fields of a block's register that show other state. -/
def viewBlock (d : Dev) (id : RegId) (ix : List Nat) (w : Word) : Word :=
  let nn := ixBlk ix
  match id with
  | .bkStat =>
    showB BkStat.PENDING (d.bit BkStat.PENDING nn || mirBits d (BkCtl.addr nn) % 32 != 0)
      (showB BkStat.QLATCH (d.bit Qstat.LATCH nn) w)
  | .rstat =>
    showB Rstat.WAIT (d.bit Rstat.WAIT nn && (!(d.b nn).inCycle || slotWaits d nn)) (showB Rstat.BANK (d.bit BkStat.BANK nn) w)
  | .hsp | .kcManv | .fcThrHi | .fcThrLo | .fcHys | .ecZhi => ext20 true w
  | .kcP | .kcPs => paramWord (d.fld KcCfg.KIND (nn, ixF 12 ix 2)) ((ix[3]?).getD 0) w
  | .rphase => if hasSec d nn then BitVec.ofNat 32 (blkPhase d nn (curBank d nn)) else 0
  | .qcause => show1 Qcause.ACT (actMask d nn) w
  | .segRd => show1 SegRd.FILL (segFill d nn) w
  | .lcStat => lcStatWord d (nn, ixF 3 ix 2) w
  | _ => w

/-- As viewBlock, for a domain. -/
def viewDom (d : Dev) (id : RegId) (ix : List Nat) (w : Word) : Word :=
  let k : Fin 8 := ixF 8 ix 0
  match id with
  | .pdPhi => BitVec.ofNat 32 (domPH40 d k / 2 ^ 20)
  | .pdPlo => BitVec.ofNat 32 (domPH40 d k % 2 ^ 20)
  | .pdRate => BitVec.ofNat 32 (domRate d k)
  | .pdOfs => BitVec.ofNat 32 ((d.pd k).ofs / 2 ^ 12 % 2 ^ 20)
  | _ => w

/-- As viewBlock, for a region. -/
def viewRgn (d : Dev) (id : RegId) (ix : List Nat) (w : Word) : Word :=
  let n : Fin 4 := ixF 4 ix 0
  let q : Fin 64 := ixF 64 ix 1
  match id with
  | .rQstat => show1 RQstat.FREE (freeCount d n) w
  | .qStat => showB QStat.PUSHING (qGet d n q).opn.isSome (showB QStat.POPPING (qGet d n q).cur.isSome w)
  | .qUse => qUseWord d n q
  | .qlink => qlinkWord d n ((ix[1]?).getD 0)
  | .tqStat => tqStatWord d n w
  -- port B of a pair shows A's configuration of its windows (R332)
  | .wCfg0 => d.reg (WCfg0.addr (bufPort d n, ixF 32 ix 1))
  | .wCfg1 => d.reg (WCfg1.addr (bufPort d n, ixF 32 ix 1))
  | _ => w

/-- As viewBlock, for the gatherer, the trace, the twin and the update area. -/
def viewChip (d : Dev) (id : RegId) (ix : List Nat) (w : Word) : Word :=
  let t : Fin 4 := ixF 4 ix 0
  match id with
  | .chipId => idWord
  | .vbV => ext20 ((d.fld VbFmt.SIGNED (ixF 16 ix 0)).testBit ((ix[1]?).getD 0)) w
  | .uidLo => Config.uid.extractLsb' 0 32
  | .uidHi => Config.uid.extractLsb' 32 32
  | .qsum => qsumWord d
  | .src => showB Src.KIND (srcLevel d ((ix[0]?).getD 0)) w
  | .tStat => tStatWord d t
  | .tFsum => tFsumWord d t
  | .tFr => frWord d (t, ixF 8 ix 1)
  | .trcStat => BitVec.ofNat 32 d.trace.length
  | .twStat => showB TwStat.OWNI d.twin.ownI (showB TwStat.IDENT (identDrag d) w)
  | .twBk => showB TwBk.NOCMP (d.twin.paired && noCompare d (ixF 16 ix 0)) w
  | .updStat => updStatWord d w
  | .updSid => d.sess.sid
  | .updProg => BitVec.ofNat 32 (d.sess.got.length % 65536 + d.sess.count % 65536 * 65536)
  | .updBank => updBankWord d
  | .updMap => updMapWord d ((ix[0]?).getD 0)
  | _ => w

/-- What a register reads (R90, R94). A publication shows at once: within its 16 clk R22 and R24 leave the host the old or the new value (assumption log 36). -/
def viewWord (d : Dev) (f : RegFam) (ix : List Nat) (a : Nat) : Word :=
  cmdShown d f a (viewChip d f.id ix (viewRgn d f.id ix (viewDom d f.id ix (viewBlock d f.id ix (d.reg a)))))

/-- The 16 words of a bank header (R128). -/
def hdrWords (h : BankHdr) : List Word := hdrBody h ++ [h.hcrc]

/-- The words of a pulse-table row (R258). -/
def rowWords (r : PulseRow) : List Word :=
  BitVec.ofNat 32 (r.nedge % 64 + r.init.toNat * 64) ::
    r.edges.map fun e => BitVec.ofNat 32 (e.frac % 2 ^ 20 + e.leg % 4 * 2 ^ 20 + e.level.toNat * 2 ^ 22)

/-- A word of the slots of a bank (R125); beyond NSLOT it reads zero. -/
def slotWord (sl : List DWord) (off : Nat) : Word :=
  match sl[off / 8]? with
  | some w => w.extractLsb' (off % 8 / 4 * 32) 32
  | none => 0

/-- The word at an offset of a block's runner memory (R125); without a section it reads zero (assumption log 2). -/
def rmWord (d : Dev) (nn : Fin 16) (off : Nat) : Word :=
  match secOf d nn with
  | none => 0
  | some s =>
    if off < 0x800 then slotWord (s.slotsA.take s.hdrA.nslot) off
    else if off < 0x1000 then slotWord (s.slotsB.take s.hdrB.nslot) (off - 0x800)
    else if off < 0x1040 then ((hdrWords s.hdrA)[(off - 0x1000) / 4]?).getD 0
    else if off < 0x1080 then ((hdrWords s.hdrB)[(off - 0x1040) / 4]?).getD 0
    else if off < 0x2000 then 0
    else if off < 0x6000 then
      match s.pulse[(off - 0x2000) / 256]? with
      | some r => ((rowWords r)[off % 256 / 4]?).getD 0
      | none => 0
    else
      let o := off / 4 * 4 - 0x6000
      BitVec.ofNat 32 (leVal ((List.range 4).map fun i => (Config.blockImageByte nn s (o + i)).toNat))

/-- The memories of R101, by their windows. -/
inductive Mem where
  | host
  | pool (n : Fin 4)
  | runner (n : Fin 4)
deriving DecidableEq, Repr

/-- The memory that holds an address (R30, R31), with the offset in it. -/
def memAt (a : Nat) : Option (Mem × Nat) :=
  if 0x800000 ≤ a ∧ a < 0x840000 then some (.host, a - 0x800000)
  else
    let o := a % 0x1000000
    let n : Fin 4 := ⟨(a / 0x1000000 - 1) % 4, Nat.mod_lt _ (by omega)⟩
    if a < 0x1000000 ∨ 0x5000000 ≤ a then none
    else if 0x800000 ≤ o ∧ o < 0x880000 then some (.pool n, o - 0x800000)
    else if 0xC00000 ≤ o ∧ o < 0xC20000 then some (.runner n, o - 0xC00000)
    else none

/-- The word of a memory at an offset (R101). -/
def memWord (d : Dev) (m : Mem) (o : Nat) : Word :=
  match m with
  | .host => hwWord d (o / 4 * 4)
  | .pool n => tget (fun _ => 0) (d.r n).cellMem (o / 4)
  | .runner n => rmWord d (blkAt n ⟨o / 0x8000 % 4, Nat.mod_lt _ (by omega)⟩) (o % 0x8000)

/-- The target, slot and word of an address in record memory (R359). -/
def recAt (a : Nat) : Option (Fin 4 × Nat × Nat) :=
  let o := a % 0x1000
  if 0x14000 ≤ a ∧ a < 0x18000 ∧ 0x800 ≤ o then
    some (⟨(a - 0x14000) / 0x1000 % 4, Nat.mod_lt _ (by omega)⟩, (o - 0x800) / 16, o % 16 / 4)
  else none

/-- The word of a record slot. -/
def recWord (d : Dev) (t : Fin 4) (k i : Nat) : Word := ((recWords (recOfSlot d t k))[i]?).getD 0

/-- Whether a register belongs to target ST0 or ST1 (R359). -/
def stewardTarg (id : RegId) (ix : List Nat) : Bool :=
  match id with
  | .tCfg | .tStat | .tClaim | .tComplete | .tCnt | .tFsum | .tFr => decide (2 ≤ (ix[0]?).getD 0)
  | _ => false

/-- Whether an address is in the security area (R30). -/
def secArea (a : Nat) : Bool := decide (0x70000 ≤ a ∧ a < 0x80000)

/-- Whether the registers at an address are privileged (R108, R359). -/
def privAt (a : Nat) : Bool :=
  secArea a || (match recAt a with
    | some (t, _, _) => decide (2 ≤ t.val)
    | none => match regAt a with
      | some (f, ix) => f.priv || stewardTarg f.id ix
      | none => false)

/-- Whether an address is reserved (R102). -/
def reservedAt (a : Nat) : Bool := (memAt a).isNone && (recAt a).isNone && (regAt a).isNone

/-- Whether an access by a master to a reserved address is an error (R103). -/
def legacyErr (d : Dev) (h : Master) (a : Nat) : Bool :=
  d.bit ChipMode.LEGACY () && (h == .pf0 || h == .pf1 || h == .shp) && reservedAt a

end Sys2Proof.Machine
end

