-- ==== Sys2Proof/Machine/Pins.lean ====
section
/-! DEFINITION. The states of the output balls (R51, R53, R57, R61, R67, R201, R279 to R281): one function of the device. -/

namespace Sys2Proof.Machine

/-- The output balls of R43, by signal. -/
inductive Ball where
  | gh (nn : Fin 16) (l : Fin 3)
  | gl (nn : Fin 16) (l : Fin 3)
  | qoutN | ownO | twqO
  | mclk (n : Fin 4) (x : Fin 2)
  | ea (nn : Fin 16)
  | btx (p : Fin 4)
  | bstb (p : Fin 4)
  | bxlm (p : Fin 4)
  | shpIo | shpIrqN | flash | tdo | pcieTx | tlTx
deriving DecidableEq, Repr

/-- The state of an output ball in the words of R57: high-impedance, a level, an input, released (open-drain), the bits of a bus, mode signalling in symbols on BTXp (R280), the host's protocol, driven by ST0 or the stewards, driven in the TAP's shift states only, electrical idle, link training, link. -/
inductive Pin where
  | hiz | low | high | input | released | bits | symbols | protocol | boot | stewards | shift | idle | training | link
deriving DecidableEq, Repr

/-- Whether the supplies of a bank's outputs are good (R51): VDD, VDDA_PLL and the bank's own. -/
def bankUp (d : Dev) (own : Supply) : Bool :=
  d.supply.contains .vdd && d.supply.contains .vddaPll && d.supply.contains own

/-- A level as a state of a ball. -/
def pinOf (high : Bool) : Pin := if high then .high else .low

/-- A gate output (R57). -/
def lvlPin : Lvl → Pin
  | .low => .low
  | .high => .high
  | .hiz => .hiz

/-- Whether a pattern is in effect and a block's encoder cell is in SSI mode (R57). -/
def ssiMode (d : Dev) (nn : Fin 16) : Bool := d.pat.isSome && d.fld EcCfg.MODE nn == 2

/-- The SSI clock of block nn (R201): transfers start every SPER clk from the pattern load on, the first SPER after it (assumption log 52); low in the first half of each of SBITS + 2 periods, otherwise high. -/
def ssiClock (d : Dev) (nn : Fin 16) : Bool :=
  let t := d.clk - d.patT
  let per := d.fld EcSsi.SPER nn
  let half := d.fld EcSsi.SDIV nn
  let p := t % per
  !(decide (per ≤ t ∧ p < (d.fld EcCfg.SBITS nn + 2) * (2 * half) ∧ p % (2 * half) < half))

/-- Whether a port sends the data phase of an XL frame (R280). -/
def xlData (d : Dev) (p : Fin 4) : Bool :=
  (match (d.port p).txFrame with
    | some f => f.fmt == 4
    | none => false) && (d.port p).xlPhase == 1

/-- BTXp (R57, R280, R281): recessive, which is high, unless the port takes part in NORMAL. -/
def btxPin (d : Dev) (p : Fin 4) : Pin :=
  let st := d.fld BpStat.STATE p
  if (st = 3 ∨ st = 4) ∧ d.fld BpStat.OPMODE p = 0 then (if xlData d p && d.bit BpCfg.XMSW p then .symbols else .bits)
  else .high

/-- An output ball while its supplies are good. OWN_O is driven as the twin rules raise it (R397, R398, R406) also before a pattern is in effect, where R57 has it low (DESIGN CHOICE, assumption log 94). -/
def ballOn (d : Dev) : Ball → Pin
  | .gh nn l => lvlPin (legOf d (nn, l)).gh
  | .gl nn l => lvlPin (legOf d (nn, l)).gl
  | .qoutN => if (qsumWord d).getLsbD 16 then .low else .released
  | .ownO => pinOf (d.bit TwStat.OWNO ())
  | .twqO => pinOf d.twin.twqPulse
  | .mclk n x =>
    if d.pat.isNone then .hiz
    else match mclkLevel d n x with
      | some v => pinOf v
      | none => .input
  | .ea nn => if ssiMode d nn then pinOf (ssiClock d nn) else .input
  | .btx p => btxPin d p
  | .bstb p => pinOf (d.fld BpStat.STATE p == 0)
  | .bxlm p => pinOf (xlData d p && !d.bit BpCfg.XMSW p)
  | .shpIo => if d.rstN then .protocol else .hiz
  | .shpIrqN => if decide (5 ≤ d.fld Start.STAGE ()) && shpIrqLow d then .low else .released
  | .flash => if !d.rstN then .hiz else if d.pat.isNone && d.fld Start.STAGE () != 6 then .boot else .stewards
  | .tdo => if !d.rstN then .hiz else .shift
  | .pcieTx => if d.rstN && d.perstN then .link else .idle
  | .tlTx => if !d.rstN then .idle else if d.pat.isSome then .link else .training

/-- The supply of a ball's own bank (R43, R49). -/
def ballBank : Ball → Supply
  | .gh nn _ | .gl nn _ => .g (rgnOf nn)
  | .qoutN | .ownO | .twqO => .c
  | .mclk n _ | .btx n | .bstb n | .bxlm n => .s n
  | .ea nn => .s (rgnOf nn)
  | .shpIo | .shpIrqN | .flash | .tdo => .h
  | .pcieTx | .tlTx => .vddl

/-- The state of an output ball (R57): high-impedance while a supply of its bank is not good (R51, R53). -/
def ballOut (d : Dev) (b : Ball) : Pin := if bankUp d (ballBank b) then ballOn d b else .hiz

end Sys2Proof.Machine
end

