-- ==== Sys2Proof/Machine/HostAccess.lean ====
section
/-! DEFINITION. Accesses of the masters by address (04_register_model.md): writes and reads of one word (R93 to R103, R108 to R110), the forms of a PCIe access (R97 to R101, R112, R113), and the frames of the serial host port (R115 to R119). -/

namespace Sys2Proof.Machine

/-- One command after another: the first stop is the outcome. -/
def thenDo (r : Res) (f : State → Res) : Res :=
  match r with
  | .next s => f s
  | .fault e => .fault e
  | .refused e => .refused e

/-- The unit that holds the register at an address (R95). -/
def unitOf (a : Nat) : Nat :=
  let o := a % 0x1000000
  let n := a / 0x1000000 - 1
  if a < 0x1000000 then unitChip
  else if 0x100000 ≤ o ∧ o < 0x200000 then 4 * n + (o - 0x100000) / 0x40000
  else 16 + n

/-- A write that carries nothing but reserved bits. -/
def rsvOnly (s : State) (h : Master) (a u chg : Nat) : Res := hostW s h a false u chg fun d => d

/-- A register written by the classes of its fields by a master (R94). -/
def plainHost (s : State) (h : Master) (f : RegFam) (a : Nat) (w : Word) : Res :=
  hostW s h a f.priv (unitOf a) (rsvHit f w (2 ^ 32 - 1)) fun d => plainWrite d f a w

/-- As plainHost, for a mirrored register (R409). -/
def plainMir (s : State) (h : Master) (f : RegFam) (a : Nat) (w : Word) (blk : Option (Fin 16)) : Res :=
  hostW s h a f.priv (unitOf a) (rsvHit f w (2 ^ 32 - 1)) fun d =>
    mirHost d a w blk false (fun d => plainWrite d f a w) (fun d => d)

/-- A command bit that has a command of its own: with the bit the command, without it the reserved bits alone. -/
def cmdBit (s : State) (h : Master) (a bit rsv : Nat) (w : Word) (go : State → Res) : Res :=
  if (mOnes w).testBit bit then go s else rsvOnly s h a (unitOf a) (mRsv rsv w)

/-- As cmdBit, for a mirrored register: on a SHADOW or HELD unit a write without the command bit counts too (R410). -/
def cmdBitMir (s : State) (h : Master) (a bit rsv : Nat) (w : Word) (go : State → Res) : Res :=
  if (mOnes w).testBit bit then go s
  else hostW s h a false (unitOf a) (mRsv rsv w) fun d =>
    if 2 ≤ d.fld TwStat.ROLE () then d.inc TwCnt.SHWR () else d

/-- A word written to a register of a block with a rule of its own; none where the classes of its fields decide. -/
def writeBlock (s : State) (h : Master) (f : RegFam) (ix : List Nat) (a : Nat) (w : Word) : Option Res :=
  let nn := ixBlk ix
  match f.id with
  | .bkCtl => some (bkCtlHost s h nn w)
  | .rctl => some (rctlHost s h nn w)
  | .qctl => some (qctlHost s h nn w)
  | .kcCtl => some (kCtlHost s h (nn, ixF 12 ix 2) w)
  | .hspCtl => some (cmdBitMir s h a 0 0xFFFE w fun s => execHspCommit h nn w s)
  | .ecCtl => some (cmdBitMir s h a 0 0xFFFE w fun s => execReval h nn w s)
  | .pcCtl => some (cmdBitMir s h a 0 0xFFFE w fun s => execRearm h nn w s)
  | .segWr => some (execSegwrWrite h nn w s)
  | .seg => some (execSegmentWrite h nn (ixF 32 ix 2) (ixF 8 ix 3) w s)
  | .kcPs | .kcManv | .hsp => some (plainMir s h f a w (some nn))
  | _ => none

/-- As writeBlock, for a region. -/
def writeRgn (s : State) (h : Master) (f : RegFam) (ix : List Nat) (a : Nat) (w : Word) : Option Res :=
  let p : Fin 4 := ixF 4 ix 0
  let q : Fin 64 := ixF 64 ix 1
  let i : Fin 128 := ixF 128 ix 1
  match f.id with
  | .bpCtl => some (bpCtlHost s h p w)
  | .bpNbt => some (execTimingWrite h p 0 w s)
  | .bpDbt => some (execTimingWrite h p 1 w s)
  | .bpXbt => some (execTimingWrite h p 2 w s)
  | .tqCtl => some (tqCtlHost s h p w)
  | .feMatch0 => some (execFilterEntryWrite h p i 0 w s)
  | .feMask0 => some (execFilterEntryWrite h p i 1 w s)
  | .feMatch1 => some (execFilterEntryWrite h p i 2 w s)
  | .feMask1 => some (execFilterEntryWrite h p i 3 w s)
  | .feCtl | .fdef => some (plainMir s h f a w none)
  | .qPdata => some (execPdata h p q w s)
  | .qPend => some (execPend h p q w s)
  | .qAck => some (execAck h p q w s)
  | .qCtl => some (qCtlHost s h p q w)
  | .wBuf => some (hostCmd s h a false (unitRgn p) fun d => d.inc RQcnt.IGNWR p)
  | _ => none

/-- As writeBlock, for chip space. -/
def writeChip (s : State) (h : Master) (f : RegFam) (ix : List Nat) (a : Nat) (w : Word) : Option Res :=
  let t : Fin 4 := ixF 4 ix 0
  let c : Fin 8 := ixF 8 ix 0
  match f.id with
  | .chipMode => some (modeHost s h w)
  | .start =>
    let chg := wRsv 0xFFE0 w
    some (if w.getLsbD 3 then startGoHost s h chg else rsvOnly s h a unitChip chg)
  | .swRst => some (swRstHost s h w)
  | .patCtl => some (patCtlHost s h w)
  | .pdCtl => some (cmdBitMir s h a 0 0xFFFE w fun s => execSwitch h c w s)
  | .doorbell => some (execDoorbellWrite h w s)
  | .hog => some (execHoldoffWrite h (ixF 64 ix 0) w s)
  | .src => some (execSourceRoutingWrite h (ixF 1024 ix 0) w s)
  | .tCfg => some (hostW s h a (2 ≤ t.val) unitChip (wRsv 0xFFFC0000 w) fun d => tCfgWrite d t w)
  | .tComplete => some (execComplete h t w s)
  | .tStat | .tClaim | .tCnt | .tFsum | .tFr =>
    some (hostW s h a (2 ≤ t.val) unitChip (rsvHit f w (2 ^ 32 - 1)) fun d => plainWrite d f a w)
  | .chCfg => some (execChannelCfgWrite h c w s)
  | .chCtl => some (chanCtlHost s h c w)
  | .chTail => some (execTailWrite h c w s)
  | .trcCtl => some (cmdBit s h a 0 0xFFFE w fun s => execTraceClear h w s)
  | .twCtl => some (twCtlHost s h w)
  | .updCtl => some (updHost s h w)
  | .updSubmit => some (submitHost s h w)
  | _ => none

/-- A word written to a register (R93, R94): by its own rule, or by the classes of its fields. -/
def regWrite (s : State) (h : Master) (f : RegFam) (ix : List Nat) (a : Nat) (w : Word) : Res :=
  (((writeBlock s h f ix a w).or (writeRgn s h f ix a w)).or (writeChip s h f ix a w)).getD (plainHost s h f a w)

/-- An access to an address that holds no register: privilege in the security area (R109), then reserved space (R102). -/
def writeNone (s : State) (h : Master) (a be : Nat) : Res :=
  onDev s fun d =>
    if privAt a && !privileged d h then d.hostErr 0 h true a be
    else if (recAt a).isSome then d
    else d.hostErr 3 h true a be

/-- A 32-bit write of a master outside the memories (R93 to R95, R102, R109). -/
def wordWrite (s : State) (h : Master) (a : Nat) (w : Word) : Res :=
  if !stageOpen s.dev a then .next s
  else match regAt a with
    | some (f, ix) => regWrite s h f ix a w
    | none => writeNone s h a 15

/-- An 8-bit or 16-bit write (R100): the bytes from off on, be being their enables. A discarded one is logged with the address of its 32-bit word, a form error with that of its first byte (R110 leaves it open: DESIGN CHOICE, assumption log 42). -/
def narrowWrite (s : State) (h : Master) (a off be : Nat) (bytes : List Byte) : Res :=
  let k := bytes.length
  match regAt a with
  | none => writeNone s h a be
  | some (f, ix) =>
    if (f.priv || stewardTarg f.id ix) && !privileged s.dev h then onDev s fun d => d.hostErr 0 h true a be
    else if f.mtype || !(f.fields.all fun x => x.2.2 == .cfg || x.2.2 == .live) then
      onDev s fun d => d.hostErr 1 h true a be
    else
      let v := leVal (bytes.map fun b => b.toNat)
      let m := BitVec.ofNat 32 ((2 ^ (8 * k) - 1) * 2 ^ (8 * off))
      regWrite s h f ix a ((s.dev.reg a &&& ~~~m) ||| (BitVec.ofNat 32 (v * 2 ^ (8 * off)) &&& m))

/-- Bytes written to a memory (R101): the pool window and runner memory ignore them (R126, R306). -/
def memWrite (s : State) (h : Master) (m : Mem) (o : Nat) (bytes : List Byte) : Res :=
  match m with
  | .host => onChip s fun d => hwPut d o bytes
  | .pool n => onRegion n s fun d => d.inc RQcnt.IGNWR n
  | .runner n => onRegion n s fun d => if h == .st0 || h == .st1 then d else d.incSat RmStat.IGNWR n

/-- The byte enables of the word in which an access begins (R110). -/
def beOf (a k : Nat) : Nat := ((2 ^ k - 1) * 2 ^ (a % 4)) % 16

/-- Whether an access of k contiguous bytes at a has a form that its space takes (R97, R101, R112). Contiguous enables of 3, 5, 6 or 7 bytes, which R97 does not name, are taken as unaligned; so is a longer request to a memory window whose start or length is no multiple of 4, and a request that leaves its memory window counts as a form error too, which R112 leaves open (DESIGN CHOICE, assumption log 41). -/
def formOk (a k : Nat) (read : Bool) : Bool :=
  let plain := [1, 2, 4, 8].contains k && decide (a % k = 0)
  match memAt a with
  | none => plain
  | some (m, _) =>
    (plain || decide (8 < k ∧ k % 4 = 0 ∧ a % 4 = 0 ∧ k ≤ (if read then 512 else 256))) &&
      (memAt (a + k - 1)).map (·.1) == some m

/-- The bytes that a write's enables select: the first one's place, and the bytes if they are contiguous (R97). -/
def laneBytes (lanes : List (Option Byte)) : Nat × List Byte × Bool :=
  let skip := (lanes.takeWhile fun x => x.isNone).length
  let rest := lanes.drop skip
  let bytes := (rest.takeWhile fun x => x.isSome).filterMap fun x => x
  (skip, bytes, (rest.drop bytes.length).all fun x => x.isNone)

/-- The enables of the word that holds the first byte written (R110): bit i for byte i. -/
def beLanes (a : Nat) (lanes : List (Option Byte)) : Nat :=
  let base := (a + (laneBytes lanes).1) / 4 * 4
  (List.range 4).foldl (fun m i =>
    if a ≤ base + i ∧ (lanes[base + i - a]?.getD none).isSome then m + 2 ^ i else m) 0

/-- Whether an access to a word is an error (R103): after the stage (R82) and privilege (R109) have let it through. -/
def accErr (d : Dev) (h : Master) (a : Nat) : Bool :=
  stageOpen d a && !(privAt a && !privileged d h) && legacyErr d h a

/-- Words written in turn, each on its own (R98): whether one was an error. -/
def wordsWrite (s : State) (h : Master) (a : Nat) (ws : List Word) : Bool × Res :=
  ws.zipIdx.foldl (fun x e =>
    match x.2 with
    | .next s => (x.1 || accErr s.dev h (a + 4 * e.2), wordWrite s h (a + 4 * e.2) e.1)
    | r => (x.1, r)) (false, .next s)

/-- A write of contiguous bytes of a good form (R98, R100, R101). -/
def goodWrite (s : State) (h : Master) (a : Nat) (bytes : List Byte) : Res :=
  let k := bytes.length
  let word := fun (i : Nat) => BitVec.ofNat 32 (leVal (((bytes.drop (4 * i)).take 4).map fun b => b.toNat))
  match memAt a with
  | some (m, o) => memWrite s h m o bytes
  | none =>
    let r := if k = 4 then wordsWrite s h a [word 0]
      else if k = 8 then wordsWrite s h a [word 0, word 1]
      else (accErr s.dev h (a / 4 * 4), narrowWrite s h (a / 4 * 4) (a % 4) (beOf a k) bytes)
    thenDo r.2 fun s => if r.1 then onDev s fun d => aerLog d h else .next s

/-- REGISTER_WRITE (R92 to R103): a write with its byte enables, to any address. -/
def execRegisterWrite (h : Master) (a : BitVec 27) (lanes : List (Option Byte)) (s : State) : Res :=
  let (skip, bytes, contig) := laneBytes lanes
  let a0 := a.toNat
  let a := a0 + skip
  let k := bytes.length
  if k = 0 ∨ !masterUp s.dev h ∨ s.dev.fld Start.STAGE () = 0 ∨ !stageOpen s.dev a then .next s
  else if !contig || !formOk a k false then
    onDev s fun d => aerLog (d.hostErr 2 h true a (beLanes a0 lanes)) h
  else goodWrite s h a bytes

/-- A pop register read (R311, R348, R351): the word with whether the read removes something, or none where it stalls. -/
def popRead (d : Dev) (h : Master) (f : RegFam) (ix : List Nat) : Option (Word × Bool) × Dev :=
  let t : Fin 4 := ixF 4 ix 0
  match f.id with
  | .qPop => popTry d t (ixF 64 ix 1) h
  | .tClaim =>
    let (w, d) := claimTake d t
    (some (w, w != 0xFFFFFFFF), d)
  | .tFr =>
    let (w, d) := frTake d (t, ixF 8 ix 1)
    (some (w, w.getLsbD 14), d)
  | _ => (some (0, false), d)

/-- One 32-bit read (R82, R91, R102, R103, R109): the word, or none where a pop stalls with low as the half before it; whether it is an error; and the device after it. -/
def wordRead (d : Dev) (h : Master) (a be : Nat) (low : Option Word) : Option Word × Bool × Dev :=
  if !stageOpen d a then (some 0, false, d)
  else if privAt a && !privileged d h then (some 0, false, d.hostErr 0 h false a be)
  else match memAt a with
    | some (m, o) => (some (memWord d m o), false, d)
    | none => match recAt a, regAt a with
      | some (t, k, i), _ => (some (recWord d t k i), false, d)
      | none, some (f, ix) =>
        if f.pop then
          match popRead d h f ix with
          | (some (w, _), d) => (some w, false, d)
          | (none, d) => (none, false, popStall d (ixF 4 ix 0) (ixF 64 ix 1) h low)
        else
          let wake := (f.id == .tStat || f.id == .tFsum) && (ix[0]?).getD 0 == 1
          (some (viewWord d f ix a), false, if wake then wakeRead d 1 else d)
      | none, none => (some 0, legacyErr d h a, d.hostErr 3 h false a be)

/-- The words of a read in turn (R98): their values, zero where there was an error, or none while a pop stalls; and whether there was an error. -/
def wordsRead (d : Dev) (h : Master) (a n be : Nat) : Option (List Word) × Bool × Dev :=
  (List.range n).foldl (fun x i =>
    match x.1 with
    | none => x
    | some ws =>
      let (v, bad, d) := wordRead x.2.2 h (a + 4 * i) be ws.getLast?
      (v.map fun v => ws ++ [if bad then 0 else v], x.2.1 || bad, d)) (some [], false, d)

/-- Whether an address holds a pop register (R91) that a master's read reaches (R82). -/
def isPop (d : Dev) (a : Nat) : Bool :=
  stageOpen d a && (match regAt a with | some (f, _) => f.pop | none => false)

/-- A read of n words from a on reaches the units that hold them: nothing is guaranteed of one whose reserved bits were changed (R95). -/
def onRead (s : State) (a n : Nat) (f : Dev → Dev) : Res :=
  match ((List.range n).map fun i => a + 4 * i).find? fun b =>
      stageOpen s.dev b && !reservedAt b && decide (unitOf b ∈ s.dev.undef) with
  | some b => .fault (.unitUnguaranteed (unitOf b))
  | none => onDev s f

/-- The bytes that a read of one word or less asks for (R99, R101), at the low end. -/
def readBytes (a bytes : Nat) (w : Word) : Word :=
  if bytes < 4 then BitVec.ofNat 32 (w.toNat / 2 ^ (8 * (a % 4)) % 2 ^ (8 * bytes)) else w

/-- HOST_READ_ERROR (R97, R98, R99, R102, R103, R109, R112, R113): a read judged by its form and by each word. Which enables a read without contiguous ones has is not in the command: their log is open (assumption log 1). A narrow read of a privileged pop register by an unprivileged master is a form error (R99) and no privilege violation (R109 gives no order: DESIGN CHOICE, assumption log 95). -/
def execHostReadError (h : Master) (a : BitVec 27) (bytes : Nat) (contig : Bool) (s : State) : Res :=
  let a := a.toNat
  let a4 := a / 4 * 4
  let n := (bytes + 3) / 4
  if bytes = 0 ∨ !masterUp s.dev h ∨ s.dev.fld Start.STAGE () = 0 then .next s
  else if !stageOpen s.dev a then onDev s fun d => answer d h 0 (List.replicate n 0)
  else if !contig then
    onDev s fun d =>
      let (k, d) := d.free
      answer (d.hostErr 2 h false a (Config.freeNat k % 16)) h 2 []
  else if !formOk a bytes true || (bytes < 4 && isPop s.dev a4) then
    onDev s fun d => answer (d.hostErr 2 h false a (beOf a bytes)) h 2 []
  else onRead s a4 n fun d =>
    let (ws, bad, d) := wordsRead d h a4 n (beOf a bytes)
    failCheck (match ws with
      | some ws => answer d h (if bad then 3 else 0) (if bad && bytes ≤ 4 then [] else ws.map (readBytes a bytes))
      | none => d)

/-- A frame counted and logged with its KIND (R110, R117). -/
def shpErr (d : Dev) (kind : Nat) (write : Bool) (a : Word) : Dev := d.hostErr kind .shp write (a.toNat % 2 ^ 27) 15

/-- Whether the address of a frame breaks R116. -/
def shpBadAddr (a : Word) : Bool := decide (a.toNat % 4 ≠ 0 ∨ 2 ^ 27 ≤ a.toNat)

/-- The words of a write frame applied in turn, each on its own (R117); the answer is the first CODE. -/
def shpWords (s : State) (a : Nat) (ws : List Word) : Nat × Res :=
  ws.zipIdx.foldl (fun x e =>
    let b := a + 4 * e.2
    match x.2 with
    | .next s =>
      if 2 ^ 27 ≤ b then (if x.1 = 0 then 2 else x.1, onDev s fun d => d.hostErr 2 .shp true b 15)
      else
        let c := if accErr s.dev .shp b then 3 else 0
        let r := match memAt b with
          | some (m, o) => if stageOpen s.dev b then memWrite s .shp m o (byte4 e.1) else .next s
          | none => wordWrite s .shp b e.1
        (if x.1 = 0 then c else x.1, r)
    | r => (x.1, r)) (0, .next s)

/-- Whether a frame of the serial host port can begin (R83, R92, R461): outside reset, with the supply of its bank classed, and with no frame before it that waits for its pop. -/
def shpUp (s : State) : Bool := s.dev.fld Start.STAGE () != 0 && s.dev.supply.contains .h && !stalled s.dev .shp

/-- A write frame decided (R117); say tells that the host takes the status. -/
def shpWrite (a : Word) (ws : List Word) (crc : Byte) (say : Bool) (s : State) : Res :=
  let n := ws.length
  let reply := fun (d : Dev) (c : Nat) => if say then shpSay d c [] else d
  if !shpUp s then .next s
  else if n = 0 ∨ 64 < n then onDev s fun d => shpErr d 2 true a
  else if crc8 (shpHead 2 n a ws) ≠ crc then onDev s fun d => reply (shpErr d 5 true a) 1
  else if shpBadAddr a then onDev s fun d => reply (shpErr d 2 true a) 2
  else
    let r := shpWords s a.toNat ws
    thenDo r.2 fun s => onDev s fun d => reply d r.1

/-- SHP_WRITE_FRAME (R117). -/
def execShpWriteFrame (a : Word) (words : List Word) (crc : Byte) (s : State) : Res := shpWrite a words crc true s

/-- Whether a range of words includes a pop register. -/
def popIn (d : Dev) (a n : Nat) : Bool := (List.range n).any fun i => isPop d (a + 4 * i)

/-- The words of a read frame (R117): a word past the address space fails with CODE 2. -/
def shpWordsRead (d : Dev) (a len : Nat) : Dev :=
  let fit := min len ((2 ^ 27 - a) / 4)
  match wordsRead d .shp a fit 15 with
  | (none, _, d) => d
  | (some ws, bad, d) =>
    if fit < len then shpSay (d.hostErr 2 .shp false (2 ^ 27) 15) (if bad then 3 else 2) (ws ++ List.replicate (len - fit) 0)
    else shpSay d (if bad then 3 else 0) ws

/-- A read frame decided (R117). Of the frame that CODE 5 answers the rule names no count, and none is made (DESIGN CHOICE, assumption log 43). -/
def shpRead (a : Word) (len : Nat) (crc : Byte) (s : State) : Res :=
  let zeros := List.replicate len (0 : Word)
  if len = 0 ∨ 64 < len then onDev s fun d => shpErr d 2 false a
  else if crc8 (shpHead 0x0B len a []) ≠ crc then onDev s fun d => shpSay (shpErr d 5 false a) 1 zeros
  else if shpBadAddr a then onDev s fun d => shpSay (shpErr d 2 false a) 2 zeros
  else if 1 < len ∧ popIn s.dev a.toNat len then onDev s fun d => shpSay d 5 zeros
  else onRead s a.toNat len fun d => failCheck (shpWordsRead d a.toNat len)

/-- SHP_READ_FRAME (R117). -/
def execShpReadFrame (a : Word) (len : Nat) (crc : Byte) (s : State) : Res :=
  if !shpUp s then .next s else shpRead a len crc s

/-- SHP_BAD_COMMAND (R117): a command other than 0x02 and 0x0B, or a LEN outside 1 to 64. -/
def execShpBadCommand (cmd : Byte) (len : Byte) (s : State) : Res :=
  let good := (cmd == 2 || cmd == 0x0B) && decide (1 ≤ len.toNat ∧ len.toNat ≤ 64)
  if !shpUp s || good then .next s
  else onDev s fun d =>
    -- of such a frame no address is decided (assumption log 1)
    let (k, d) := d.free
    shpErr d 2 (if cmd = 2 then true else if cmd = 0x0B then false else Config.choice k) (BitVec.ofNat 32 (Config.freeNat k))

/-- A read frame of a pop register cut once the pop has been made (R118): an entry removed is lost, and the frame is counted; a pop that would stall has not been made. -/
def shpPopCut (d : Dev) (a : Word) : Dev :=
  if privAt a.toNat && !privileged d .shp then d.hostErr 0 .shp false a.toNat 15
  else match regAt a.toNat with
    | none => d
    | some (f, ix) =>
      match popRead d .shp f ix with
      | (some (_, took), d) => if took then shpErr d 6 false a else d
      | (none, _) => d

/-- Whether an output is a frame of the serial host port. -/
def isShp : HostOut → Bool
  | .shpFrame _ => true
  | _ => false

/-- A read frame cut that had waited for its pop (R118): the answer that the device has begun, its newest frame, is lost, and with an entry in it the frame is counted. -/
def shpReplyCut (d : Dev) (a : Word) : Dev :=
  match d.out.find? isShp with
  | some (.shpFrame [st, b0, b1, b2, b3, _]) =>
    if st ≠ 0x80 then d
    else
      let d := { d with out := d.out.eraseP isShp }
      if [b0, b1, b2, b3].all fun b => b == 0xFF then d else shpErr d 6 false a
  | _ => d

/-- SHP_FRAME_CUT (R118). -/
def execShpFrameCut (c : ShpCut) (s : State) : Res :=
  if s.dev.fld Start.STAGE () = 0 ∨ !s.dev.supply.contains .h then .next s
  else match c with
    | .writeBeforeCheck => .next s
    | .writeAfterCheck a ws crc => shpWrite a ws crc false s
    | .readWhileStalled n q => onDev s fun d => onQ d n q fun x => { x with stalls := x.stalls.filter fun e => e.1 != .shp }
    | .readAfterEntry a crc =>
      if stalled s.dev .shp ∨ crc8 (shpHead 0x0B 1 a []) ≠ crc ∨ shpBadAddr a ∨ !isPop s.dev a.toNat then .next s
      else onRead s a.toNat 1 fun d => failCheck (shpPopCut d a)
    | .readAfterStall a =>
      if stalled s.dev .shp ∨ !isPop s.dev a.toNat then .next s else onDev s fun d => shpReplyCut d a

end Sys2Proof.Machine
end

