-- ==== Sys2Proof/Machine/Dispatch.lean ====
section
/-! DEFINITION. One arm per command: the meaning it calls. -/

namespace Sys2Proof.Machine

/-- The effect of a command on everything but the queue. -/
def exec (i : Instr) (s : State) : Host.Outcome State Fault Refusal :=
  match i with
  | .powerOn c => Sys2Proof.Machine.execPowerOn c s
  | .rstNLow ns => Sys2Proof.Machine.execRstNLow ns s
  | .rstNRise balls => Sys2Proof.Machine.execRstNRise balls s
  | .strapChange balls => Sys2Proof.Machine.execStrapChange balls s
  | .perstN => Sys2Proof.Machine.execPerstN s
  | .functionLevelReset f => Sys2Proof.Machine.execFunctionLevelReset f s
  | .d3hotEntry f => Sys2Proof.Machine.execD3hotEntry f s
  | .trstN => Sys2Proof.Machine.execTrstN s
  | .supplyFall v => Sys2Proof.Machine.execSupplyFall v s
  | .bankClassing b is3v3 => Sys2Proof.Machine.execBankClassing b is3v3 s
  | .pllLock => Sys2Proof.Machine.execPllLock s
  | .refclkLoss => Sys2Proof.Machine.execRefclkLoss s
  | .pllUnlock => Sys2Proof.Machine.execPllUnlock s
  | .clockRecovery => Sys2Proof.Machine.execClockRecovery s
  | .sfwStart => Sys2Proof.Machine.execSfwStart s
  | .startGo h => Sys2Proof.Machine.execStartGo h s
  | .twinTrainTimeout => Sys2Proof.Machine.execTwinTrainTimeout s
  | .softwareChipReset h w => Sys2Proof.Machine.execSoftwareChipReset h w s
  | .heatWrite h w => Sys2Proof.Machine.execHeatWrite h w s
  | .legacyWrite h w => Sys2Proof.Machine.execLegacyWrite h w s
  | .registerWrite h a lanes => Sys2Proof.Machine.execRegisterWrite h a lanes s
  | .shpWriteFrame a words crc => Sys2Proof.Machine.execShpWriteFrame a words crc s
  | .shpReadFrame a len crc => Sys2Proof.Machine.execShpReadFrame a len crc s
  | .shpBadCommand cmd len => Sys2Proof.Machine.execShpBadCommand cmd len s
  | .shpFrameCut c => Sys2Proof.Machine.execShpFrameCut c s
  | .blockArm h nn w => Sys2Proof.Machine.execBlockArm h nn w s
  | .blockRun h nn w => Sys2Proof.Machine.execBlockRun h nn w s
  | .blockStop h nn w => Sys2Proof.Machine.execBlockStop h nn w s
  | .blockDisarm h nn w => Sys2Proof.Machine.execBlockDisarm h nn w s
  | .blockReset h nn w => Sys2Proof.Machine.execBlockReset h nn w s
  | .blockResetDone nn => Sys2Proof.Machine.execBlockResetDone nn s
  | .patternLoad h w => Sys2Proof.Machine.execPatternLoad h w s
  | .patternLoadDone readBackOk => Sys2Proof.Machine.execPatternLoadDone readBackOk s
  | .repour h w => Sys2Proof.Machine.execRepour h w s
  | .repourDone => Sys2Proof.Machine.execRepourDone s
  | .swap h nn w => Sys2Proof.Machine.execSwap h nn w s
  | .lclr h nn w => Sys2Proof.Machine.execLclr h nn w s
  | .cycleStart nn => Sys2Proof.Machine.execCycleStart nn s
  | .sampleSlot nn late => Sys2Proof.Machine.execSampleSlot nn late s
  | .runSlot nn late => Sys2Proof.Machine.execRunSlot nn late s
  | .kernelAbort nn parity late => Sys2Proof.Machine.execKernelAbort nn parity late s
  | .updateSlot nn late => Sys2Proof.Machine.execUpdateSlot nn late s
  | .publishSlot nn late => Sys2Proof.Machine.execPublishSlot nn late s
  | .vbTransfer nn r => Sys2Proof.Machine.execVbTransfer nn r s
  | .consumeSlot nn late => Sys2Proof.Machine.execConsumeSlot nn late s
  | .openSlot nn late => Sys2Proof.Machine.execOpenSlot nn late s
  | .captureSlot nn late => Sys2Proof.Machine.execCaptureSlot nn late s
  | .markSlot nn late => Sys2Proof.Machine.execMarkSlot nn late s
  | .watchdogTrip nn => Sys2Proof.Machine.execWatchdogTrip nn s
  | .runmemError nn e => Sys2Proof.Machine.execRunmemError nn e s
  | .runmemRewriteDone nn => Sys2Proof.Machine.execRunmemRewriteDone nn s
  | .stallDeclared nn => Sys2Proof.Machine.execStallDeclared nn s
  | .fallbackSwap nn => Sys2Proof.Machine.execFallbackSwap nn s
  | .stallRecovery nn => Sys2Proof.Machine.execStallRecovery nn s
  | .phaseSourceUpdate k alt v => Sys2Proof.Machine.execPhaseSourceUpdate k alt v s
  | .sourceTimeout k alt => Sys2Proof.Machine.execSourceTimeout k alt s
  | .switch h k w => Sys2Proof.Machine.execSwitch h k w s
  | .carrierPeriodStart nn l => Sys2Proof.Machine.execCarrierPeriodStart nn l s
  | .compareEdge nn l => Sys2Proof.Machine.execCompareEdge nn l s
  | .deadTimeExpire nn l => Sys2Proof.Machine.execDeadTimeExpire nn l s
  | .pulseRowTake nn => Sys2Proof.Machine.execPulseRowTake nn s
  | .pulseTableEdge nn => Sys2Proof.Machine.execPulseTableEdge nn s
  | .tripInput nn b => Sys2Proof.Machine.execTripInput nn b s
  | .qinInput => Sys2Proof.Machine.execQinInput s
  | .twqInput => Sys2Proof.Machine.execTwqInput s
  | .dbgHalt => Sys2Proof.Machine.execDbgHalt s
  | .jtagHalt => Sys2Proof.Machine.execJtagHalt s
  | .tdaExpire nn l => Sys2Proof.Machine.execTdaExpire nn l s
  | .softQuench h nn w => Sys2Proof.Machine.execSoftQuench h nn w s
  | .quenchClear h nn w => Sys2Proof.Machine.execQuenchClear h nn w s
  | .filterResult nn f sum edge => Sys2Proof.Machine.execFilterResult nn f sum edge s
  | .fastResult nn f sum edge => Sys2Proof.Machine.execFastResult nn f sum edge s
  | .mclkLoss n x => Sys2Proof.Machine.execMclkLoss n x s
  | .mclkRange n x => Sys2Proof.Machine.execMclkRange n x s
  | .mclkRecover n x => Sys2Proof.Machine.execMclkRecover n x s
  | .bitstreamStuck nn f => Sys2Proof.Machine.execBitstreamStuck nn f s
  | .bitstreamResume nn f => Sys2Proof.Machine.execBitstreamResume nn f s
  | .quadCount nn a b => Sys2Proof.Machine.execQuadCount nn a b s
  | .stepEdge nn eb settled => Sys2Proof.Machine.execStepEdge nn eb settled s
  | .indexEdge nn => Sys2Proof.Machine.execIndexEdge nn s
  | .ssiTransferStart nn idleHigh => Sys2Proof.Machine.execSsiTransferStart nn idleHigh s
  | .ssiTransferEnd nn w stopLow => Sys2Proof.Machine.execSsiTransferEnd nn w stopLow s
  | .reval h nn w => Sys2Proof.Machine.execReval h nn w s
  | .probeEdge nn rising => Sys2Proof.Machine.execProbeEdge nn rising s
  | .rearm h nn w => Sys2Proof.Machine.execRearm h nn w s
  | .senseInterval nn ix lvl => Sys2Proof.Machine.execSenseInterval nn ix lvl s
  | .goman h nn m w => Sys2Proof.Machine.execGoman h nn m w s
  | .goauto h nn m w => Sys2Proof.Machine.execGoauto h nn m w s
  | .pload h nn m w => Sys2Proof.Machine.execPload h nn m w s
  | .preset h nn m w => Sys2Proof.Machine.execPreset h nn m w s
  | .snap h nn m w => Sys2Proof.Machine.execSnap h nn m w s
  | .fclr h nn m w => Sys2Proof.Machine.execFclr h nn m w s
  | .hspCommit h nn w => Sys2Proof.Machine.execHspCommit h nn w s
  | .segwrWrite h nn w => Sys2Proof.Machine.execSegwrWrite h nn w s
  | .segmentWrite h nn sg ix w => Sys2Proof.Machine.execSegmentWrite h nn sg ix w s
  | .crossbarTimeout n req => Sys2Proof.Machine.execCrossbarTimeout n req s
  | .poolTimeout n q => Sys2Proof.Machine.execPoolTimeout n q s
  | .portStall n => Sys2Proof.Machine.execPortStall n s
  | .regionWindowExpire n => Sys2Proof.Machine.execRegionWindowExpire n s
  | .stewardHeartbeatMiss st => Sys2Proof.Machine.execStewardHeartbeatMiss st s
  | .stewardCmdTimeout => Sys2Proof.Machine.execStewardCmdTimeout s
  | .stewardRestartDone => Sys2Proof.Machine.execStewardRestartDone s
  | .chipFailure cause n => Sys2Proof.Machine.execChipFailure cause n s
  | .failureReset => Sys2Proof.Machine.execFailureReset s
  | .failWindowExpire => Sys2Proof.Machine.execFailWindowExpire s
  | .frameReceived p f self sof => Sys2Proof.Machine.execFrameReceived p f self sof s
  | .busBillet p f sof => Sys2Proof.Machine.execBusBillet p f sof s
  | .protocolException p xl => Sys2Proof.Machine.execProtocolException p xl s
  | .transmitDecision p => Sys2Proof.Machine.execTransmitDecision p s
  | .frameTransmitted p => Sys2Proof.Machine.execFrameTransmitted p s
  | .arbitrationLost p => Sys2Proof.Machine.execArbitrationLost p s
  | .busError p e => Sys2Proof.Machine.execBusError p e s
  | .integrationDone p => Sys2Proof.Machine.execIntegrationDone p s
  | .recoverySequence p => Sys2Proof.Machine.execRecoverySequence p s
  | .ardDwellExpire p => Sys2Proof.Machine.execArdDwellExpire p s
  | .rxDominant p => Sys2Proof.Machine.execRxDominant p s
  | .portStart h p w => Sys2Proof.Machine.execPortStart h p w s
  | .portStop h p w => Sys2Proof.Machine.execPortStop h p w s
  | .recover h p w => Sys2Proof.Machine.execRecover h p w s
  | .ard h p w => Sys2Proof.Machine.execArd h p w s
  | .ardstop h p w => Sys2Proof.Machine.execArdstop h p w s
  | .gonormal h p w => Sys2Proof.Machine.execGonormal h p w s
  | .golisten h p w => Sys2Proof.Machine.execGolisten h p w s
  | .timingWrite h p r w => Sys2Proof.Machine.execTimingWrite h p r w s
  | .filterEntryWrite h p ix r w => Sys2Proof.Machine.execFilterEntryWrite h p ix r w s
  | .abortHead h p w => Sys2Proof.Machine.execAbortHead h p w s
  | .windowOpen p ix => Sys2Proof.Machine.execWindowOpen p ix s
  | .windowClose p ix => Sys2Proof.Machine.execWindowClose p ix s
  | .pdata h n q w => Sys2Proof.Machine.execPdata h n q w s
  | .pend h n q w => Sys2Proof.Machine.execPend h n q w s
  | .pop h n q => Sys2Proof.Machine.execPop h n q s
  | .popStallTimeout n q => Sys2Proof.Machine.execPopStallTimeout n q s
  | .ack h n q w => Sys2Proof.Machine.execAck h n q w s
  | .owntmoExpire n q cell => Sys2Proof.Machine.execOwntmoExpire n q cell s
  | .slag h n q w => Sys2Proof.Machine.execSlag h n q w s
  | .flush h n q w => Sys2Proof.Machine.execFlush h n q w s
  | .staleExpire n q => Sys2Proof.Machine.execStaleExpire n q s
  | .scrubDone n q => Sys2Proof.Machine.execScrubDone n q s
  | .rebuildDone n => Sys2Proof.Machine.execRebuildDone n s
  | .evgMessage => Sys2Proof.Machine.execEvgMessage s
  | .doorbellWrite h w => Sys2Proof.Machine.execDoorbellWrite h w s
  | .holdoffExpire g => Sys2Proof.Machine.execHoldoffExpire g s
  | .claim h t => Sys2Proof.Machine.execClaim h t s
  | .complete h t w => Sys2Proof.Machine.execComplete h t w s
  | .fastRecordRead h t ix => Sys2Proof.Machine.execFastRecordRead h t ix s
  | .wakeReleaseRead h a => Sys2Proof.Machine.execWakeReleaseRead h a s
  | .sleepWrite h w => Sys2Proof.Machine.execSleepWrite h w s
  | .sourceRoutingWrite h ix w => Sys2Proof.Machine.execSourceRoutingWrite h ix w s
  | .holdoffWrite h g w => Sys2Proof.Machine.execHoldoffWrite h g w s
  | .channelStart h c w => Sys2Proof.Machine.execChannelStart h c w s
  | .channelStop h c w => Sys2Proof.Machine.execChannelStop h c w s
  | .channelCfgWrite h c w => Sys2Proof.Machine.execChannelCfgWrite h c w s
  | .tailWrite h c w => Sys2Proof.Machine.execTailWrite h c w s
  | .ladleItemAvailable c => Sys2Proof.Machine.execLadleItemAvailable c s
  | .ladleUnitDone c hostData => Sys2Proof.Machine.execLadleUnitDone c hostData s
  | .gatherExpire c => Sys2Proof.Machine.execGatherExpire c s
  | .descriptorTimeout c => Sys2Proof.Machine.execDescriptorTimeout c s
  | .pcieError c => Sys2Proof.Machine.execPcieError c s
  | .traceClear h w => Sys2Proof.Machine.execTraceClear h w s
  | .linkUp p => Sys2Proof.Machine.execLinkUp p s
  | .linkRetrain => Sys2Proof.Machine.execLinkRetrain s
  | .linkLost => Sys2Proof.Machine.execLinkLost s
  | .hbSend => Sys2Proof.Machine.execHbSend s
  | .hbReceived m => Sys2Proof.Machine.execHbReceived m s
  | .digReceived nn cyc crc => Sys2Proof.Machine.execDigReceived nn cyc crc s
  | .mwrReceived m => Sys2Proof.Machine.execMwrReceived m s
  | .mwrApply => Sys2Proof.Machine.execMwrApply s
  | .rxrReceived p sof fseq crc o => Sys2Proof.Machine.execRxrReceived p sof fseq crc o s
  | .rxfReceived p f self sof fseq o => Sys2Proof.Machine.execRxfReceived p f self sof fseq o s
  | .provisionalTimeout p => Sys2Proof.Machine.execProvisionalTimeout p s
  | .txrReceived t => Sys2Proof.Machine.execTxrReceived t s
  | .ssiMessage nn m => Sys2Proof.Machine.execSsiMessage nn m s
  | .rsyReceived b => Sys2Proof.Machine.execRsyReceived b s
  | .reqReceived r => Sys2Proof.Machine.execReqReceived r s
  | .resyncDone nn => Sys2Proof.Machine.execResyncDone nn s
  | .resyncTimeout nn => Sys2Proof.Machine.execResyncTimeout nn s
  | .fullResyncDone snap => Sys2Proof.Machine.execFullResyncDone snap s
  | .ownGuardExpire => Sys2Proof.Machine.execOwnGuardExpire s
  | .ownIRise => Sys2Proof.Machine.execOwnIRise s
  | .ownIFall => Sys2Proof.Machine.execOwnIFall s
  | .twqPulseEnd => Sys2Proof.Machine.execTwqPulseEnd s
  | .handover h w => Sys2Proof.Machine.execHandover h w s
  | .repair h w => Sys2Proof.Machine.execRepair h w s
  | .force h w => Sys2Proof.Machine.execForce h w s
  | .submit h w => Sys2Proof.Machine.execSubmit h w s
  | .submitTimeout => Sys2Proof.Machine.execSubmitTimeout s
  | .billetTaken ix => Sys2Proof.Machine.execBilletTaken ix s
  | .updReceived u => Sys2Proof.Machine.execUpdReceived u s
  | .buildDone => Sys2Proof.Machine.execBuildDone s
  | .updAbort h w => Sys2Proof.Machine.execUpdAbort h w s
  | .updCommit h w => Sys2Proof.Machine.execUpdCommit h w s
  | .actnow h w => Sys2Proof.Machine.execActnow h w s
  | .confirm h w => Sys2Proof.Machine.execConfirm h w s
  | .revert h w => Sys2Proof.Machine.execRevert h w s
  | .activationDue => Sys2Proof.Machine.execActivationDue s
  | .twinVerifyTimeout => Sys2Proof.Machine.execTwinVerifyTimeout s
  | .supplyRise v => Sys2Proof.Machine.execSupplyRise v s
  | .perstNRise => Sys2Proof.Machine.execPerstNRise s
  | .pcieConfigRequest f r => Sys2Proof.Machine.execPcieConfigRequest f r s
  | .hostReadError h a bytes contig => Sys2Proof.Machine.execHostReadError h a bytes contig s
  | .quenchInputRelease ix => Sys2Proof.Machine.execQuenchInputRelease ix s
  | .laneLoss => Sys2Proof.Machine.execLaneLoss s
  | .linkFault => Sys2Proof.Machine.execLinkFault s
  | .handoverOwnRaise => Sys2Proof.Machine.execHandoverOwnRaise s
  | .handoverCompletes => Sys2Proof.Machine.execHandoverCompletes s
  | .stewardWindowExpire => Sys2Proof.Machine.execStewardWindowExpire s
  | .qerrWindowExpire n => Sys2Proof.Machine.execQerrWindowExpire n s
  | .runmemSpanExpire nn => Sys2Proof.Machine.execRunmemSpanExpire nn s

end Sys2Proof.Machine
end

