-- ==== Sys2Proof/WellFormed.lean ====
section
/-! DEFINITION. Which commands are well-formed: the bounds on operands whose type is wider than what the hardware can bring. The machine is defined on every command; an ill-formed one stands for nothing that happens. -/

namespace Sys2Proof

/-- The data of a frame fits its format (R277, R322): 8 bytes in a classic frame, 64 in an FD frame, 1 to 2048 in an XL frame; an 11-bit identifier where the format has one. -/
def Frame.wf (f : Frame) : Bool :=
  (match f.fmt.val with
    | 0 | 1 => decide (f.data.length ≤ 8)
    | 2 | 3 => decide (f.data.length ≤ 64) && !f.rtr
    | _ => decide (1 ≤ f.data.length ∧ f.data.length ≤ 2048) && !f.rtr) &&
  (f.fmt.val == 1 || f.fmt.val == 3 || decide (f.id.toNat < 2048)) && (f.fmt.val == 4 || !f.sec)

/-- A detected error (R295): no more steps of 8 than take a counter of 9 bits to its end. -/
def BusErr.wf (e : BusErr) : Bool := decide (e.extra ≤ 64)

/-- The frame that a cut write frame had brought (R116): 1 to 64 words. -/
def ShpCut.wf : ShpCut → Bool
  | .writeAfterCheck _ ws _ => decide (1 ≤ ws.length ∧ ws.length ≤ 64)
  | _ => true

/-- A billet's header (R437): an index in its set, and a payload of its length. -/
def Billet.wf (b : Billet) : Bool := decide (b.index < b.count ∧ b.payload.length = b.len)

/-- A forwarded billet has the form of one that its sender has accepted (R442). -/
def Machine.UpdMsg.wf : Machine.UpdMsg → Bool
  | .billet b => b.wf
  | _ => true

/-- What the partner says in HELLO (R404): 1 to 4 lanes. -/
def Machine.Hello.wf (h : Machine.Hello) : Bool := decide (h.lanes ≤ 4)

/-- A mirrored write (R409): a word address of the register space. -/
def Machine.MirWr.wf (m : Machine.MirWr) : Bool := decide (m.addr < 2 ^ 27 ∧ m.addr % 4 = 0)

/-- The lanes of a write (R97): at least one byte is enabled, and no more than 256 bytes are carried. -/
def lanesWf (l : List (Option Byte)) : Bool :=
  (l.any fun x => x.isSome) && decide (l.length ≤ 256)

/-- Whether a command is well-formed. -/
def Instr.wellFormed : Instr → Bool
  | .registerWrite _ _ lanes => lanesWf lanes
  | .shpWriteFrame _ words _ => decide (1 ≤ words.length ∧ words.length ≤ 64)
  | .shpReadFrame _ len _ => decide (1 ≤ len ∧ len ≤ 64)
  | .shpBadCommand cmd len => !((cmd == 2 || cmd == 0x0B) && decide (1 ≤ len.toNat ∧ len.toNat ≤ 64))
  | .shpFrameCut c => c.wf
  | .ssiTransferEnd _ _ _ => true
  | .frameReceived _ f _ _ => f.wf
  | .busBillet _ f _ => f.wf
  | .busError _ e => e.wf
  | .owntmoExpire _ _ cell => decide (cell < 8192)
  | .ladleUnitDone _ hostData => decide (hostData.length ≤ 256)
  | .linkUp p => p.wf
  | .mwrReceived m => m.wf
  | .rxfReceived _ f _ _ _ _ => f.wf
  | .hostReadError _ _ bytes _ => decide (1 ≤ bytes ∧ bytes ≤ 512)
  | .digReceived _ cyc _ => decide (cyc < 2 ^ 32)
  | .rstNLow ns => decide (0 < ns)
  | .powerOn _ => true
  | .rstNRise _ => true
  | .strapChange _ => true
  | .perstN => true
  | .functionLevelReset _ => true
  | .d3hotEntry _ => true
  | .trstN => true
  | .supplyFall _ => true
  | .bankClassing _ _ => true
  | .pllLock => true
  | .refclkLoss => true
  | .pllUnlock => true
  | .clockRecovery => true
  | .sfwStart => true
  | .startGo _ => true
  | .twinTrainTimeout => true
  | .softwareChipReset _ _ => true
  | .heatWrite _ _ => true
  | .legacyWrite _ _ => true
  | .blockArm _ _ _ => true
  | .blockRun _ _ _ => true
  | .blockStop _ _ _ => true
  | .blockDisarm _ _ _ => true
  | .blockReset _ _ _ => true
  | .blockResetDone _ => true
  | .patternLoad _ _ => true
  | .patternLoadDone _ => true
  | .repour _ _ => true
  | .repourDone => true
  | .swap _ _ _ => true
  | .lclr _ _ _ => true
  | .cycleStart _ => true
  | .sampleSlot _ _ => true
  | .runSlot _ _ => true
  | .kernelAbort _ _ _ => true
  | .updateSlot _ _ => true
  | .publishSlot _ _ => true
  | .vbTransfer _ _ => true
  | .consumeSlot _ _ => true
  | .openSlot _ _ => true
  | .captureSlot _ _ => true
  | .markSlot _ _ => true
  | .watchdogTrip _ => true
  | .runmemError _ _ => true
  | .runmemRewriteDone _ => true
  | .stallDeclared _ => true
  | .fallbackSwap _ => true
  | .stallRecovery _ => true
  | .phaseSourceUpdate _ _ _ => true
  | .sourceTimeout _ _ => true
  | .switch _ _ _ => true
  | .carrierPeriodStart _ _ => true
  | .compareEdge _ _ => true
  | .deadTimeExpire _ _ => true
  | .pulseRowTake _ => true
  | .pulseTableEdge _ => true
  | .tripInput _ _ => true
  | .qinInput => true
  | .twqInput => true
  | .dbgHalt => true
  | .jtagHalt => true
  | .tdaExpire _ _ => true
  | .softQuench _ _ _ => true
  | .quenchClear _ _ _ => true
  | .filterResult _ _ _ _ => true
  | .fastResult _ _ _ _ => true
  | .mclkLoss _ _ => true
  | .mclkRange _ _ => true
  | .mclkRecover _ _ => true
  | .bitstreamStuck _ _ => true
  | .bitstreamResume _ _ => true
  | .quadCount _ _ _ => true
  | .stepEdge _ _ _ => true
  | .indexEdge _ => true
  | .ssiTransferStart _ _ => true
  | .reval _ _ _ => true
  | .probeEdge _ _ => true
  | .rearm _ _ _ => true
  | .senseInterval _ _ _ => true
  | .goman _ _ _ _ => true
  | .goauto _ _ _ _ => true
  | .pload _ _ _ _ => true
  | .preset _ _ _ _ => true
  | .snap _ _ _ _ => true
  | .fclr _ _ _ _ => true
  | .hspCommit _ _ _ => true
  | .segwrWrite _ _ _ => true
  | .segmentWrite _ _ _ _ _ => true
  | .crossbarTimeout _ _ => true
  | .poolTimeout _ _ => true
  | .portStall _ => true
  | .regionWindowExpire _ => true
  | .stewardHeartbeatMiss _ => true
  | .stewardCmdTimeout => true
  | .stewardRestartDone => true
  | .chipFailure _ _ => true
  | .failureReset => true
  | .failWindowExpire => true
  | .protocolException _ _ => true
  | .transmitDecision _ => true
  | .frameTransmitted _ => true
  | .arbitrationLost _ => true
  | .integrationDone _ => true
  | .recoverySequence _ => true
  | .ardDwellExpire _ => true
  | .rxDominant _ => true
  | .portStart _ _ _ => true
  | .portStop _ _ _ => true
  | .recover _ _ _ => true
  | .ard _ _ _ => true
  | .ardstop _ _ _ => true
  | .gonormal _ _ _ => true
  | .golisten _ _ _ => true
  | .timingWrite _ _ _ _ => true
  | .filterEntryWrite _ _ _ _ _ => true
  | .abortHead _ _ _ => true
  | .windowOpen _ _ => true
  | .windowClose _ _ => true
  | .pdata _ _ _ _ => true
  | .pend _ _ _ _ => true
  | .pop _ _ _ => true
  | .popStallTimeout _ _ => true
  | .ack _ _ _ _ => true
  | .slag _ _ _ _ => true
  | .flush _ _ _ _ => true
  | .staleExpire _ _ => true
  | .scrubDone _ _ => true
  | .rebuildDone _ => true
  | .evgMessage => true
  | .doorbellWrite _ _ => true
  | .holdoffExpire _ => true
  | .claim _ _ => true
  | .complete _ _ _ => true
  | .fastRecordRead _ _ _ => true
  | .wakeReleaseRead _ _ => true
  | .sleepWrite _ _ => true
  | .sourceRoutingWrite _ _ _ => true
  | .holdoffWrite _ _ _ => true
  | .channelStart _ _ _ => true
  | .channelStop _ _ _ => true
  | .channelCfgWrite _ _ _ => true
  | .tailWrite _ _ _ => true
  | .ladleItemAvailable _ => true
  | .gatherExpire _ => true
  | .descriptorTimeout _ => true
  | .pcieError _ => true
  | .traceClear _ _ => true
  | .linkRetrain => true
  | .linkLost => true
  | .hbSend => true
  | .hbReceived _ => true
  | .mwrApply => true
  | .rxrReceived _ _ _ _ _ => true
  | .provisionalTimeout _ => true
  | .txrReceived _ => true
  | .ssiMessage _ _ => true
  | .rsyReceived _ => true
  | .reqReceived _ => true
  | .resyncDone _ => true
  | .resyncTimeout _ => true
  | .fullResyncDone _ => true
  | .ownGuardExpire => true
  | .ownIRise => true
  | .ownIFall => true
  | .twqPulseEnd => true
  | .handover _ _ => true
  | .repair _ _ => true
  | .force _ _ => true
  | .submit _ _ => true
  | .submitTimeout => true
  | .billetTaken _ => true
  | .updReceived u => u.wf
  | .buildDone => true
  | .updAbort _ _ => true
  | .updCommit _ _ => true
  | .actnow _ _ => true
  | .confirm _ _ => true
  | .revert _ _ => true
  | .activationDue => true
  | .twinVerifyTimeout => true
  | .supplyRise _ => true
  | .perstNRise => true
  | .pcieConfigRequest _ _ => true
  | .quenchInputRelease _ => true
  | .laneLoss => true
  | .linkFault => true
  | .handoverOwnRaise => true
  | .handoverCompletes => true
  | .stewardWindowExpire => true
  | .qerrWindowExpire _ => true
  | .runmemSpanExpire _ => true

end Sys2Proof
end

