-- ==== Sys2Proof/Safety.lean ====
section
/-! DEFINITION. What statements about the device are made in: completion of a command, what it leaves unchanged, the canonical form of every addressed memory, and the safety of the gate outputs (R253: the two outputs of a leg are never HIGH at once). -/

namespace Sys2Proof.Machine

/-- A command completes on device d, whatever waits behind it: exec answers a next state with the same queue, and the device it leaves fulfils P. -/
def Completes (c : Instr) (d : Dev) (P : Dev → Prop) : Prop :=
  ∀ rest, ∃ t, exec c ⟨rest, d⟩ = .next ⟨rest, t⟩ ∧ P t

/-- A command completes on device d and leaves exactly device t. -/
def Gives (c : Instr) (d t : Dev) : Prop := ∀ rest, exec c ⟨rest, d⟩ = .next ⟨rest, t⟩

/-- The commands that carry out several words in turn: a word that changes a reserved bit of a unit ends the guarantee for the words after it (R95, R98, R117). -/
def wordByWord : Instr → Bool
  | .registerWrite _ _ _ => true
  | .shpWriteFrame _ _ _ => true
  | .shpFrameCut _ => true
  | _ => false

/-- A write of master h to the register at a reaches unit u: the master can reach the device (R75, R111), the stage lets the access take effect (R82), and no reserved bit of the unit has been changed (R95). -/
def Reaches (d : Dev) (h : Master) (a u : Nat) : Prop :=
  masterUp d h = true ∧ stageOpen d a = true ∧ u ∉ d.undef

/-- As Reaches, by a privileged master (R108, R109). -/
def ReachesPriv (d : Dev) (h : Master) (a u : Nat) : Prop :=
  Reaches d h a u ∧ privileged d h = true

/-- Every register but those listed reads as before. -/
def RegsKept (as : List Nat) (d d' : Dev) : Prop := ∀ a, a ∉ as → d'.reg a = d.reg a

/-- Every register outside the areas of p reads as before. -/
def RegsKeptOut (p : Nat → Bool) (d d' : Dev) : Prop := ∀ a, p a = false → d'.reg a = d.reg a

/-- Nothing but the register file differs (with the marks of R10 on what the hardware did in this clk), and in it only the registers listed. -/
def OnlyRegs (as : List Nat) (d d' : Dev) : Prop := d' = { d with regs := d'.regs, hw := d'.hw } ∧ RegsKept as d d'

/-- A write of master h to the register at a takes effect at once: it reaches unit u, and the unit is ALONE (R409). -/
def Alone (d : Dev) (h : Master) (a u : Nat) : Prop := Reaches d h a u ∧ d.fld TwStat.ROLE () = 0

/-- Nothing differs but the registers listed, block nn and the event messages under way. -/
def OnlyBlock (nn : Fin 16) (as : List Nat) (d d' : Dev) : Prop :=
  d' = { d with regs := d'.regs, hw := d'.hw, blk := d'.blk, evq := d'.evq } ∧ RegsKept as d d' ∧ ∀ k, k ≠ nn → d'.b k = d.b k

/-- Nothing differs but the registers listed, region n and the event messages under way. -/
def OnlyRegion (n : Fin 4) (as : List Nat) (d d' : Dev) : Prop :=
  d' = { d with regs := d'.regs, hw := d'.hw, rgn := d'.rgn, evq := d'.evq } ∧ RegsKept as d d' ∧ ∀ k, k ≠ n → d'.r k = d.r k

/-- BKnn.CTL is free for a write w of master h that sets the command bits c: the write takes effect at once, changes no reserved bit, no command is pending or waits for its apply instant (R409), the chip takes block commands and the block is not being re-poured (R87). -/
structure CmdFree (d : Dev) (h : Master) (nn : Fin 16) (u c : Nat) (w : Word) : Prop where
  alone : Alone d h (BkCtl.addr nn) u
  bits : mRsv 0xFFE0 w = 0 ∧ mOnes w % 32 = c
  free : pendCmds d nn = 0 ∧ mirBits d (BkCtl.addr nn) % 32 = 0
  takes : chipTakes d = true
  still : (d.b nn).repouring = false

/-- Slot w, which stands at the runner of block nn, runs kernel cell m of the kind named in AUTO, with no command and no preset pending (R229, R232). -/
structure AutoRun (d : Dev) (nn : Fin 16) (m : Fin 12) (w : DWord) (kind : Nat) : Prop where
  known : unitBlk nn ∉ d.undef
  slot : slotNow d nn = some w ∧ sOp w = 1 ∧ kcIx (sf w 0 4) = m
  kind : d.fld KcCfg.KIND (nn, m) = kind
  auto : effMode d (nn, m) = 0 ∧ fget 0 6 (d.reg (KcCtl.addr (nn, m))) = 0 ∧ d.bit KcStat.PRE (nn, m) = false

/-- a is b / n to within one unit of its last place, and exact where n divides b (R214). -/
def NearQ (a b : Int) (n : Nat) : Prop := (a * n - b).natAbs < n

/-- a is x divided by the root of 3 to within one unit of its last place. -/
def NearRt3 (a x : Int) : Prop :=
  (0 ≤ x → 0 ≤ a) ∧ (x ≤ 0 → a ≤ 0) ∧ 3 * (a.natAbs - 1) ^ 2 ≤ x.natAbs ^ 2 ∧ x.natAbs ^ 2 < 3 * (a.natAbs + 1) ^ 2

/-- a is x times half the root of 3 to within one unit of its last place. -/
def NearHalfRt3 (a x : Int) : Prop :=
  (0 ≤ x → 0 ≤ a) ∧ (x ≤ 0 → a ≤ 0) ∧ 4 * (a.natAbs - 1) ^ 2 ≤ 3 * x.natAbs ^ 2 ∧ 3 * x.natAbs ^ 2 < 4 * (a.natAbs + 1) ^ 2

/-- The registers in which the legs of a block keep carry and refresh (R255, R256). -/
def accRegs (nn : Fin 16) : List Nat := (List.finRange 3).map fun l => LcAcc.addr (nn, l)

/-- A leg stands at its safe levels of set S0, high-impedance where no pattern drives it, with no edge to come (R265, R266). -/
def atS0 (d : Dev) (nn : Fin 16) (l : Fin 3) (g : Leg) : Prop :=
  g.gh = (if outputsDriven d nn then s0High d nn l else .hiz) ∧
  g.gl = (if outputsDriven d nn then s0Low d nn l else .hiz) ∧ g.edges = [] ∧ g.tda = false

/-- A bit of a field of a class after a write (R94): new is the bit written, stop that a W1C or CMD bit beside a CNT field was written 1. -/
def bitAfter (c : Cls) (stop old new : Bool) : Bool :=
  match c with
  | .cfg => new
  | .w1c => old && !new
  | .cnt => if stop then old else new
  | _ => old

/-- The register has no rule of its own for a write: the classes of its fields decide (R94). -/
def NoRule (h : Master) (f : RegFam) (ix : List Nat) (a : Nat) (w : Word) : Prop :=
  ∀ s, writeBlock s h f ix a w = none ∧ writeRgn s h f ix a w = none ∧ writeChip s h f ix a w = none

/-- Both gate outputs of every leg of a block are high-impedance (R57). -/
def outputsHiz (b : Blk) : Prop := ∀ l : Fin 3, (vget b.leg l).gh = .hiz ∧ (vget b.leg l).gl = .hiz

/-- No gate output of a block is HIGH. -/
def outputsOff (b : Blk) : Prop := ∀ l : Fin 3, (vget b.leg l).gh ≠ .high ∧ (vget b.leg l).gl ≠ .high

/-- What a reset of the whole unit leaves of a device d (R71): no pattern and no operation on one, no steward, blocks OFF with their outputs high-impedance, empty regions, phase domains, host window and engines, PCIe functions as at reset, no ownership; flash and its session as they were. -/
structure AsReset (d t : Dev) : Prop where
  pattern : t.pat = none ∧ t.patOp = none ∧ t.sfw = none ∧ t.cal = none ∧ t.act = none
  stewards : t.stwRun = false ∧ t.waitSfw = false
  blocks : ∀ nn, outputsHiz (t.b nn) ∧ t.fld BkStat.STATE nn = 0
  regions : ∀ n, t.r n = Rgn.reset
  domains : ∀ k, t.pd k = Domn.reset
  services : t.hwin = [] ∧ t.chan = Dev.reset.chan ∧ t.targ = Dev.reset.targ ∧ t.src = [] ∧ t.stage = Dev.reset.stage ∧ t.fn = Dev.reset.fn
  twin : t.fld TwStat.ROLE () = 3 ∧ t.bit TwStat.OWNO () = false ∧ t.twin.paired = false
  flash : t.keys = d.keys ∧ t.bank0 = d.bank0 ∧ t.bank1 = d.bank1 ∧ t.sess = d.sess
  clock : t.clk = d.clk ∧ t.t0 = d.clk

/-- The level of an output after an edge. -/
def edgeLvl (rise : Bool) : Lvl := if rise then .high else .low

/-- From the levels gh and gl on, through every edge still to come, the two outputs are never HIGH together (R253). -/
def edgesSafe (gh gl : Lvl) : List LegEdge → Bool
  | [] => !(gh == .high && gl == .high)
  | e :: es => !(gh == .high && gl == .high) &&
      (if e.hi then edgesSafe (edgeLvl e.rise) gl es else edgesSafe gh (edgeLvl e.rise) es)

/-- A leg is safe: neither now nor by the edges it has planned are both outputs HIGH, and while TDA runs (R266) its high side is off and no edge is to come. -/
def Leg.safe (g : Leg) : Bool :=
  edgesSafe g.gh g.gl g.edges && (!g.tda || (g.gh != .high && g.edges.isEmpty))

/-- Every leg of a block is safe, those that an accepted clear may come back to among them (R270), and its copy of the board is in canonical form. -/
def Blk.wf (b : Blk) : Bool :=
  ((List.finRange 3).all fun l => Leg.safe (vget b.leg l)) && tcanon (fun _ => 0#20) b.snap &&
    (match b.qClr with
      | some e => (List.finRange 3).all fun l => Leg.safe (vget e.2.2.2 l)
      | none => true)

/-- The pool and the copy of the value board of a region are in canonical form. -/
def Rgn.wf (r : Rgn) : Bool :=
  tcanon (fun _ => 0) r.used && tcanon (fun _ => 0) r.gen && tcanon (fun _ => 0) r.link &&
    tcanon (fun _ => 0#32) r.cellMem && tcanon (fun _ => 0#20) r.vbArr

/-- Every addressed memory of the device is in canonical form: registers, host window, region pools, event sources and event rings. -/
def Memory.wf (d : Dev) : Bool :=
  tcanon resetWord d.regs && tcanon (fun _ => 0#8) d.hwin && ((List.finRange 4).all fun n => Rgn.wf (d.r n)) &&
    tcanon (fun _ => SrcSt.reset) d.src && ((List.finRange 4).all fun t => tcanon (fun _ => Rec.empty) (vget d.targ t).ring)

/-- Every leg of every block is safe. -/
def Legs.wf (d : Dev) : Bool := (List.finRange 16).all fun nn => Blk.wf (d.b nn)

/-- The blocks that a command brings from the twin's partner (R407, R417) are as those of a device that keeps this invariant. -/
def carriesWf : Instr → Bool
  | .rsyReceived (.block _ x) => Blk.wf x.blk
  | .fullResyncDone x => x.blks.all fun e => Blk.wf e.2.blk
  | _ => true

/-- The invariant of the machine: canonical memories, safe legs, and nothing in the queue that brings an unsafe block. -/
def State.wf (s : State) : Bool := Memory.wf s.dev && Legs.wf s.dev && s.pending.all carriesWf

end Sys2Proof.Machine
end

