-- ==== Sys2Proof/Certificates/Slice0/Obligations.lean ====
section
/-! DEFINITION. The statements for the provers. -/

section

open Sys2Proof Sys2Proof.Machine

/-- For every command c, queue rest and device d, the step of the state with c at the front of its queue is exec of c on the state with the queue's rest. (04_register_model.md) -/
def Obligations.StepRunsFrontCommand : Prop :=
  ∀ (c : Instr) (rest : List Instr) (d : Dev), step ⟨c :: rest, d⟩ = exec c ⟨rest, d⟩

/-- With an empty queue a step answers a next state with the count of clk one higher. In reset nothing else happens (what the hardware and the masters did in the clk before is forgotten, R10). Out of reset each modulator clock that the device drives makes its rising edge, and counts it in MCNTx, once every MDIV clk; one that it receives counts a rising edge or does not; no other register than MCNTx and EC.STAT changes, no leg, no pattern, no message and nothing to the host; a region's queues and pool stand, but that a copy of a pointer in at most one of them may come to differ. That time passes only so is the model's choice (assumption log 3), as are where edges of received clocks and the fall of EZ lie (log 37), the phase in which a driven clock starts (log 80), when a soft error comes (log 113) and when the data phase of an XL frame begins (log 91). (R67, R183, R195) -/
def Obligations.EmptyQueueTicks : Prop :=
  (∀ d : Dev, d.rstN = false → step ⟨[], d⟩ = .next ⟨[], { d with clk := d.clk + 1, hw := [], redo := [], errNow := none, twin := { d.twin with txOld := d.twin.txq.length } }⟩) ∧
  ∀ d : Dev, d.rstN = true → ∃ t, step ⟨[], d⟩ = .next ⟨[], t⟩ ∧ t.clk = d.clk + 1 ∧
    t = { d with clk := t.clk, regs := t.regs, hw := t.hw, redo := [], errNow := none, fresh := t.fresh, blk := t.blk, rgn := t.rgn, twin := { d.twin with txOld := d.twin.txq.length } } ∧
    (∀ n, t.r n = { d.r n with mph := (t.r n).mph, badQ := (t.r n).badQ, badFree := (t.r n).badFree, port := { (d.r n).port with xlPhase := (t.r n).port.xlPhase } }) ∧
    (∀ n m, ((t.r n).badQ ≠ (d.r n).badQ ∨ (t.r n).badFree ≠ (d.r n).badFree) → ((t.r m).badQ ≠ (d.r m).badQ ∨ (t.r m).badFree ≠ (d.r m).badFree) → n = m) ∧
    RegsKept ((List.finRange 4).flatMap (fun n => (List.finRange 2).map fun x => Mcnt.addr (n, x)) ++
      (List.finRange 16).map fun nn => EcStat.addr nn) d t ∧
    (∀ n x, mclkDrive d n x = true →
      if (vget (d.r n).mph x) + 1 < mclkDiv d n x then
        t.fld Mcnt.CNT (n, x) = d.fld Mcnt.CNT (n, x) ∧ vget (t.r n).mph x = vget (d.r n).mph x + 1
      else t.fld Mcnt.CNT (n, x) = (d.fld Mcnt.CNT (n, x) + 1) % 2 ^ 32 ∧ vget (t.r n).mph x = 0) ∧
    (∀ n x, mclkDrive d n x = false → t.fld Mcnt.CNT (n, x) = d.fld Mcnt.CNT (n, x) ∨
      t.fld Mcnt.CNT (n, x) = (d.fld Mcnt.CNT (n, x) + 1) % 2 ^ 32) ∧
    ∀ nn, (t.b nn).leg = (d.b nn).leg ∧
      (d.bit EcStat.Z nn = false → t.b nn = d.b nn ∧ t.reg (EcStat.addr nn) = d.reg (EcStat.addr nn))

/-- After reset no command waits; STAGE is RESET; no pattern is in effect and none is being loaded; no steward runs; every block is OFF with its outputs high-impedance; the unit is HELD and does not raise OWN_O; every pool, port, phase domain, ring and the host window are empty; each PCIe function is as reset and both flash banks are empty with no session (log 6, the model's choice); each register holds the nonzero value of its Reset column (STUCKN 16, RGNn.QCFG 16, Tt.CFG 0x1003, TWSTAT ROLE 3) and otherwise zero. The model's choices among these are the supplies that CHIP.BANKV shows (assumption log 4), contents 0 of the host window (log 2) and of the pool cells (log 9), a domain's phase 0 (log 7) and the values of the PCIe functions (log 5). (R11, R57, R71, R76, R359, R384) -/
def Obligations.ResetState : Prop :=
  (∀ f, vget State.reset.dev.fn f = PcieFn.reset f) ∧ State.reset.dev.bank0 = Bank.empty ∧ State.reset.dev.bank1 = Bank.empty ∧ State.reset.dev.sess = Sess.empty ∧
  State.reset.pending = [] ∧ AsReset State.reset.dev State.reset.dev ∧ State.reset.dev.fld Start.STAGE () = 0 ∧
  State.reset.dev.rstN = false ∧ State.reset.dev.undef = [] ∧ State.reset.dev.evq = [] ∧
  ∀ a, State.reset.dev.reg a =
    if a = TwStat.addr () then 3
    else if a = BankV.addr () then 0x02F00000
    else if a = EvgCtl.addr () then 16
    else if ∃ n, a = RQcfg.addr n then 16
    else if ∃ t, a = TCfg.addr t then 0x1003
    else 0

/-- At reset every addressed memory (register file, host window, region pools, value board copies, event sources and rings) is in canonical form, and in no leg are both gate outputs HIGH, now or by an edge planned. (R253) -/
def Obligations.StateWfAtReset : Prop := State.wf State.reset = true

/-- If a state has every memory in canonical form, every leg of all 16 blocks safe (its two outputs are not HIGH together now, nor after any of the edges it has planned; while TDA runs its high side is off and no edge is planned) and brings no unsafe block from the twin's partner in a queued command, then the state that any step answers has all of this again: for every command, every operand and every state, reachable or not. (R253, R259, R261, R266, R407, R417) -/
def Obligations.StateWfKept : Prop :=
  ∀ s t : State, State.wf s = true → step s = .next t → State.wf t = true

/-- From a device whose legs are safe, any command that completes (and that brings no unsafe block from the twin's partner) leaves no leg of any block with its high-side and its low-side output both HIGH, nor with an edge still planned that would make them so. (R253, R256, R257, R259, R266) -/
def Obligations.OutputsNeverBothHigh : Prop :=
  ∀ (c : Instr) (rest : List Instr) (d t : Dev), Memory.wf d = true → Legs.wf d = true → carriesWf c = true →
    exec c ⟨rest, d⟩ = .next ⟨rest, t⟩ → ∀ (nn : Fin 16) (l : Fin 3),
      ¬ ((vget (t.b nn).leg l).gh = .high ∧ (vget (t.b nn).leg l).gl = .high) ∧
      edgesSafe (vget (t.b nn).leg l).gh (vget (t.b nn).leg l).gl (vget (t.b nn).leg l).edges = true

/-- On a device on which no reserved bit has been changed, every command with any operands answers a next state with the same queue: nothing is refused and nothing faults. A write of several words is left out: one of its own words may change a reserved bit of the unit that a later one reaches. (R95) -/
def Obligations.GuaranteedDeviceCompletes : Prop :=
  ∀ (c : Instr) (d : Dev), d.undef = [] → wordByWord c = false → Completes c d fun _ => True

/-- No command is refused. A command that faults names the unit of which nothing is guaranteed (R95); for every command but a write of several words that unit stood in the device's list of such units before the command. (R95) -/
def Obligations.OnlyUnguaranteedFaults : Prop :=
  ∀ (c : Instr) (s : State), (∀ r, exec c s ≠ .refused r) ∧
    ∀ f, exec c s = .fault f → ∃ u, f = .unitUnguaranteed u ∧ (wordByWord c = false → u ∈ s.dev.undef)

/-- Power-on (a core supply below threshold): the unit is as after reset, with every field of CHIP.RSTCAUSE cleared before POR is set, the supply gone and RST_N to rise again. RST_N low for 1 us or longer: as after reset, PIN set and no other bit of CHIP.RSTCAUSE changed; for less than 100 ns: ignored; in between: wholly one or wholly the other, and which is open. A software chip reset written by a privileged master with KEY 0xC0DE: as after reset with SOFT set, the sampled straps kept, and start-up goes on at STAGE ROM; with another KEY the write is ignored. A failure reset of a unit whose restart is due: the same with SOFT and FAILRST. Each discards the pattern, turns every gate output high-impedance, and keeps flash. That a reset unit's PCIe functions and domain phases stand as they do in the reset state is the model's choice (assumption logs 5 and 7), as is what a free choice decides about a pulse between 100 ns and 1 us (log 1). (R51, R55, R57, R71, R72, R73, R75, R390) -/
def Obligations.ResetsDiscardThePattern : Prop :=
  (∀ (d : Dev) (c : CoreSupply), Completes (.powerOn c) d fun t =>
    AsReset d t ∧ t.fld Start.STAGE () = 0 ∧ t.rstN = false ∧ t.supply = d.supply.filter (fun x => x != coreSupply c) ∧
    t.reg (RstCause.addr ()) = 1) ∧
  (∀ (d : Dev) (ns : Nat), 1000 ≤ ns → Completes (.rstNLow ns) d fun t =>
    AsReset d t ∧ t.fld Start.STAGE () = 0 ∧ t.rstN = false ∧ t.supply = d.supply ∧
    t.reg (RstCause.addr ()) = (d.reg (RstCause.addr ()) &&& 0xFF0F) ||| 2) ∧
  (∀ (d : Dev) (ns : Nat), ns < 100 → Gives (.rstNLow ns) d d) ∧
  (∀ (d : Dev) (ns : Nat), 100 ≤ ns → ns < 1000 → Completes (.rstNLow ns) d fun t =>
    if Config.choice d.fresh then
      AsReset d t ∧ t.fld Start.STAGE () = 0 ∧ t.rstN = false ∧
      t.reg (RstCause.addr ()) = (d.reg (RstCause.addr ()) &&& 0xFF0F) ||| 2
    else t = { d with fresh := d.fresh + 1 }) ∧
  (∀ (d : Dev) (h : Master) (w : Word), ReachesPriv d h (SwRst.addr ()) unitNone → fget 0 16 w = 0xC0DE →
    Completes (.softwareChipReset h w) d fun t =>
      AsReset d t ∧ t.fld Start.STAGE () = 1 ∧ t.reg (Strap.addr ()) = d.reg (Strap.addr ()) &&& 0x1F ∧
      t.reg (RstCause.addr ()) = (d.reg (RstCause.addr ()) &&& 0xFF0F) ||| 4) ∧
  (∀ (d : Dev) (h : Master) (w : Word), ReachesPriv d h (SwRst.addr ()) unitNone → fget 17 15 w = 0 → fget 0 16 w ≠ 0xC0DE →
    Gives (.softwareChipReset h w) d d) ∧
  (∀ d : Dev, d.failT = true → Completes .failureReset d fun t =>
    AsReset d t ∧ t.fld Start.STAGE () = 1 ∧ t.bit Fail.FAILRST () = true ∧ t.failT = false ∧
    t.reg (Strap.addr ()) = d.reg (Strap.addr ()) &&& 0x1F ∧
    t.reg (RstCause.addr ()) = (d.reg (RstCause.addr ()) &&& 0xFF0F) ||| 4)

/-- RST_N rising with the core supplies good samples the straps, takes LEGACY from its strap and starts at STAGE ROM with t0 now; a strap that changes later only sets CHANGED. A selectable bank's classing latches its class and sets its GOOD bit, and does nothing while the class stands. A core supply that falls is a power-on; VDDL falling or rising touches nothing but itself; a gate supply that falls clears its G_GOOD bit and makes every gate output of its region's blocks high-impedance, and no other block is touched; a selectable bank that falls loses its GOOD bit and its class; that its class bit then reads 0 is the model's choice (assumption log 44), and the straps other than those sampled keep the model's start of log 4. (R50, R51, R53, R54, R55, R56, R71, R76) -/
def Obligations.StrapsAndSupplies : Prop :=
  (∀ (d : Dev) (b : Straps), d.rstN = false → coreGood d = true → Completes (.rstNRise b) d fun t =>
    t = { d with regs := t.regs, hw := t.hw, rstN := true, t0 := d.clk, patT := d.clk } ∧
    RegsKept [Strap.addr (), Start.addr (), ChipMode.addr ()] d t ∧
    t.fld Strap.CD_SEL () = b.cdSel.toNat ∧ t.fld Strap.SHP_PRIV () = b.shpPriv.toNat ∧
    t.fld Strap.BOOT_SRC () = b.bootSrc.toNat ∧ t.fld Strap.LEGACY_EN () = b.legacyEn.toNat ∧
    t.fld Strap.CHANGED () = 0 ∧ t.fld Start.STAGE () = 1 ∧ t.fld ChipMode.LEGACY () = b.legacyEn.toNat) ∧
  (∀ (d : Dev) (b : Straps), Gives (.strapChange b) d
    (if d.fld Start.STAGE () = 0 ∨ BitVec.ofNat 32 (b.cdSel.toNat + b.shpPriv.toNat * 2 + b.bootSrc.toNat * 4 + b.legacyEn.toNat * 16)
        = d.reg (Strap.addr ()) &&& 0x1F then d
      else d.flag Strap.CHANGED ())) ∧
  (∀ (d : Dev) (b : Fin 4) (v3 : Bool), Supply.s b ∉ d.supply → Gives (.bankClassing ⟨b.val, by omega⟩ v3) d
    (({ d with supply := Supply.s b :: d.supply }.put BankV.S_GOOD () ((d.fld BankV.S_GOOD () &&& (15 - 2 ^ b.val)) + 2 ^ b.val)).put
      BankV.S_3V3 () ((d.fld BankV.S_3V3 () &&& (15 - 2 ^ b.val)) + v3.toNat * 2 ^ b.val))) ∧
  (∀ (d : Dev) (v3 : Bool), Supply.h ∉ d.supply → Gives (.bankClassing 4 v3) d
    (({ d with supply := Supply.h :: d.supply }.put BankV.H_GOOD () 1).putB BankV.H_3V3 () v3)) ∧
  (∀ (d : Dev) (b : Fin 5) (v3 : Bool), classSupply b ∈ d.supply → Gives (.bankClassing b v3) d d) ∧
  (∀ (d : Dev) (rest : List Instr), exec (.supplyFall .vdd) ⟨rest, d⟩ = exec (.powerOn .vdd) ⟨rest, d⟩ ∧
    exec (.supplyFall .vddaPll) ⟨rest, d⟩ = exec (.powerOn .vddaPll) ⟨rest, d⟩ ∧
    exec (.supplyFall .c) ⟨rest, d⟩ = exec (.powerOn .vddioC) ⟨rest, d⟩) ∧
  (∀ d : Dev, Gives (.supplyFall .vddl) d { d with supply := d.supply.filter fun x => x != Supply.vddl }) ∧
  (∀ (d : Dev) (n : Fin 4), Completes (.supplyFall (.g n)) d fun t =>
    t.supply = d.supply.filter (fun x => x != Supply.g n) ∧ (t.fld BankV.G_GOOD ()).testBit n.val = false ∧
    (∀ b, outputsHiz (t.b (blkAt n b))) ∧ (∀ nn, rgnOf nn ≠ n → t.b nn = d.b nn) ∧
    t = { d with regs := t.regs, hw := t.hw, blk := t.blk, supply := t.supply } ∧
    RegsKept (BankV.addr () :: (List.finRange 4).map fun b => Qstat.addr (blkAt n b)) d t) ∧
  (∀ (d : Dev) (n : Fin 4), Gives (.supplyFall (.s n)) d
    (({ d with supply := d.supply.filter fun x => x != Supply.s n }.put BankV.S_GOOD () (d.fld BankV.S_GOOD () &&& (15 - 2 ^ n.val))).put
      BankV.S_3V3 () (d.fld BankV.S_3V3 () &&& (15 - 2 ^ n.val)))) ∧
  (∀ d : Dev, Gives (.supplyFall .h) d
    (({ d with supply := d.supply.filter fun x => x != Supply.h }.clr BankV.H_GOOD ()).clr BankV.H_3V3 ())) ∧
  (∀ d : Dev, Supply.vddl ∉ d.supply → Gives (.supplyRise .vddl) d { d with supply := Supply.vddl :: d.supply }) ∧
  (∀ d : Dev, Supply.c ∉ d.supply → Gives (.supplyRise .c) d ({ d with supply := Supply.c :: d.supply }.flag BankV.C_GOOD ())) ∧
  (∀ (d : Dev) (n : Fin 4), Supply.g n ∉ d.supply → Completes (.supplyRise (.g n)) d fun t =>
    t.supply = Supply.g n :: d.supply ∧ (t.fld BankV.G_GOOD ()).testBit n.val = true ∧ (∀ nn, rgnOf nn ≠ n → t.b nn = d.b nn) ∧
    t = { d with regs := t.regs, hw := t.hw, blk := t.blk, supply := t.supply } ∧
    RegsKept (BankV.addr () :: (List.finRange 4).map fun b => Qstat.addr (blkAt n b)) d t)

/-- PLL_LOCK outside reset with no clock loss sets PLL_LOCK and REFCLK_OK; at STAGE ROM with BOOT_SRC 3 ST0 then waits for a recovery image. The first declaration of a clock loss, by REFCLK or by the PLL: every block's latch sets with cause CLKLOSS, no output of a block that was not latched stays HIGH, every port is OFF, OWN_O is low and the unit HELD, the condition is counted once and, outside the sequence of another chip failure, reported as one with CAUSE 1, PLL_LOCK is 0, and the pattern stays in effect; a second declaration only adds its flag. Recovery sets PLL_LOCK and REFCLK_OK again and changes no block and no pattern. That CAUSE 1 and FCNT are recorded is the model's reading (assumption log 21); that REFCLK_OK becomes 1 with PLL_LOCK is its choice (log 47). (R63, R69, R70, R81, R262) -/
def Obligations.ClockLossAndRecovery : Prop :=
  (∀ d : Dev, d.fld Start.STAGE () ≠ 0 → d.clkLost = false → Completes .pllLock d fun t =>
    OnlyRegs [ClkStat.addr ()] { d with rcOsc := false, waitSfw := t.waitSfw } t ∧
    t.fld ClkStat.PLL_LOCK () = 1 ∧ t.fld ClkStat.REFCLK_OK () = 1 ∧
    t.waitSfw = (d.waitSfw || (d.fld Start.STAGE () == 1 && d.fld Strap.BOOT_SRC () == 3))) ∧
  (∀ (d : Dev) (c : Instr) (f : RF Unit), (c = .refclkLoss ∧ f = ClkStat.REFCLK_LOSS) ∨ (c = .pllUnlock ∧ f = ClkStat.PLL_UNLOCK) →
    d.fld Start.STAGE () ≠ 0 → d.clkLost = false → Completes c d fun t =>
      t.fld f () = 1 ∧ t.fld ClkStat.PLL_LOCK () = 0 ∧ t.fld ClkStat.LOSS_CNT () = min (d.fld ClkStat.LOSS_CNT () + 1) 255 ∧
      (if d.failT then t.reg (Fail.addr ()) = d.reg (Fail.addr ()) else
        t.fld Fail.CAUSE () = 1 ∧ t.fld Fail.REGION () = 0 ∧ t.fld Fail.FCNT () = min (d.fld Fail.FCNT () + 1) 255) ∧
      t.fld ClkStat.REFCLK_OK () = (if c = .refclkLoss then 0 else d.fld ClkStat.REFCLK_OK ()) ∧ t.clkLost = true ∧ t.rcOsc = true ∧ t.bit TwStat.OWNO () = false ∧ t.fld TwStat.ROLE () = 3 ∧
      (∀ nn, t.bit Qstat.LATCH nn = true ∧ (t.fld Qcause.CAUSE nn).testBit 12 = true ∧
        (d.bit Qstat.LATCH nn = false → outputsOff (t.b nn))) ∧
      (∀ p, t.fld BpStat.STATE p = 0) ∧ t.pat = d.pat ∧ t.patOp = d.patOp) ∧
  (∀ (d : Dev) (c : Instr) (f : RF Unit), (c = .refclkLoss ∧ f = ClkStat.REFCLK_LOSS) ∨ (c = .pllUnlock ∧ f = ClkStat.PLL_UNLOCK) →
    d.fld Start.STAGE () ≠ 0 → d.clkLost = true → Completes c d fun t =>
      OnlyRegs [ClkStat.addr ()] d t ∧ t.fld f () = 1 ∧ t.fld ClkStat.LOSS_CNT () = d.fld ClkStat.LOSS_CNT ()) ∧
  (∀ d : Dev, d.clkLost = true → Completes .clockRecovery d fun t =>
    t.fld ClkStat.PLL_LOCK () = 1 ∧ t.fld ClkStat.REFCLK_OK () = 1 ∧ t.clkLost = false ∧ t.rcOsc = false ∧
    t.blk = d.blk ∧ t.pat = d.pat ∧ ∀ nn, t.reg (BkStat.addr nn) = d.reg (BkStat.addr nn) ∧ t.reg (Qstat.addr nn) = d.reg (Qstat.addr nn))

/-- At STAGE ROM with a lock and no recovery wait, SFW_START with BOOT_SRC 0 or 1 runs the firmware of the selected bank when its image passes, otherwise that of the other bank with FALLBACK set and the failure's CODE recorded, and with neither stays at ROM waiting for a recovery image with CODE 23; BOOT_SRC 2 does so from the active bank outside a trial; in a trial whose firmware passes and has no settings to migrate it counts the start in TRIES and runs it, and from the third start on the set reverts: the other bank is active, TRIAL and TRIES are clear, no session is left, CODE is 21 and the other bank's firmware runs where it passes; BOOT_SRC 3 starts nothing.  START_GO of a privileged master while ST0 waits runs the host window's image if it passes, with RECOVERY set, and otherwise keeps waiting at ROM with the CODE; at any other time it does nothing; of a master that is not privileged it only counts PRIV. When the twin link has not trained, start-up goes on to the pattern load: STAGE PATTERN with the active bank's pattern being loaded, or NOPAT when there is none or LOCK stands; at any other STAGE than TWIN, or with the link up, its timeout does nothing. That the training of FL_IO at a start may fail and only leaves CODE 13 (log 50), that a fallback keeps the CODE of the first bank's failure (log 70), that a record's write may fail (log 1) and that a refused GO counts at any stage (log 83) with the register's address (log 42) are the model's choices. (R76, R77, R78, R80, R81, R391, R435, R436, R456, R473) -/
def Obligations.StartUpRunsFirmware : Prop :=
  (∀ (d : Dev) (b : Bool), unitChip ∉ d.undef → d.fld Start.STAGE () = 1 → d.waitSfw = false → d.clkLost = false →
    d.fld Strap.BOOT_SRC () = b.toNat ∨ (d.fld Strap.BOOT_SRC () = 2 ∧ b = activeBank d ∧ (recOf d).trial = false) →
    (sfwCode d b = 0 → Completes .sfwStart d fun t => t.fld Start.STAGE () = 2 ∧ t.stwRun = true ∧ t.sfw = sfwIn d b ∧
      t.fld BootCause.FALLBACK () = 0 ∧ t.fld BootCause.CODE () = (if Config.choice d.fresh then 13 else 0) ∧ t.blk = d.blk) ∧
    (sfwCode d b ≠ 0 → sfwCode d (!b) = 0 → Completes .sfwStart d fun t => t.fld Start.STAGE () = 2 ∧ t.stwRun = true ∧
      t.sfw = sfwIn d (!b) ∧ t.fld BootCause.FALLBACK () = 1 ∧ t.fld BootCause.CODE () = sfwCode d b ∧ t.blk = d.blk) ∧
    (sfwCode d b ≠ 0 → sfwCode d (!b) ≠ 0 → Completes .sfwStart d fun t => t.fld Start.STAGE () = 1 ∧ t.stwRun = d.stwRun ∧
      t.waitSfw = true ∧ t.fld BootCause.CODE () = 23 ∧ t.blk = d.blk)) ∧
  (∀ d : Dev, unitChip ∉ d.undef → d.fld Start.STAGE () = 1 → d.waitSfw = false → d.clkLost = false →
    d.fld Strap.BOOT_SRC () = 2 → (recOf d).trial = true →
    ((recOf d).tries < 2 → sfwCode d (activeBank d) = 0 → calIn d (activeBank d) = none → Completes .sfwStart d fun t =>
      t.fld Start.STAGE () = 2 ∧ t.stwRun = true ∧ t.sfw = sfwIn d (activeBank d) ∧
      recOf t = (if Config.choice (d.fresh + 1) then recOf d else { recOf d with tries := (recOf d).tries + 1, seq := (recOf t).seq })) ∧
    (2 ≤ (recOf d).tries → sfwCode d (!activeBank d) = 0 → Config.choice (d.fresh + 1) = false → Completes .sfwStart d fun t =>
      t.fld Start.STAGE () = 2 ∧ t.stwRun = true ∧ t.sfw = sfwIn d (!activeBank d) ∧ t.sess = Sess.empty ∧ t.fld BootCause.CODE () = 21 ∧
      activeBank t = !activeBank d ∧ (recOf t).trial = false ∧ (recOf t).tries = 0)) ∧
  (∀ d : Dev, unitChip ∉ d.undef → d.fld Strap.BOOT_SRC () = 3 → Gives .sfwStart d d) ∧
  (∀ (d : Dev) (h : Master), ReachesPriv d h (Start.addr ()) unitChip → d.fld Start.STAGE () = 1 → d.waitSfw = true →
    Completes (.startGo h) d fun t => t.fld BootCause.RECOVERY () = 1 ∧ t.blk = d.blk ∧
      let c := hdrCheck d 1 (hdrAt (hwByteNat d) hwinSize) none true false
      if c = 0 then t.fld Start.STAGE () = 2 ∧ t.stwRun = true ∧ t.sfw = some ⟨hdrAt (hwByteNat d) hwinSize⟩ ∧ t.waitSfw = false ∧
        t.fld BootCause.CODE () = (if Config.choice d.fresh then 13 else 0)
      else t.fld Start.STAGE () = 1 ∧ t.waitSfw = true ∧ t.stwRun = d.stwRun ∧ t.fld BootCause.CODE () = c) ∧
  (∀ (d : Dev) (h : Master), ReachesPriv d h (Start.addr ()) unitChip → d.fld Start.STAGE () ≠ 1 ∨ d.waitSfw = false →
    Gives (.startGo h) d d) ∧
  (∀ (d : Dev) (h : Master), Reaches d h (Start.addr ()) unitChip → privileged d h = false →
    Gives (.startGo h) d (d.hostErr 0 h true (Start.addr ()) 15)) ∧
  (∀ d : Dev, unitChip ∉ d.undef → d.bit TwStat.LINKUP () = false → d.fld Start.STAGE () = 3 →
    Completes .twinTrainTimeout d fun t =>
      (∀ p, d.bit Fail.LOCK () = false → patIn d (activeBank d) = some p →
        t.fld Start.STAGE () = 4 ∧ t.patOp = some ⟨some p, none, true, 0, false⟩ ∧ t.fld PatStat.BUSY () = 1) ∧
      (d.bit Fail.LOCK () = true ∨ patIn d (activeBank d) = none → calIn d (activeBank d) = none → t.fld Start.STAGE () = 6 ∧ t.pat = none ∧
        ∀ nn, t.fld BkStat.STATE nn = 0 ∧ outputsHiz (t.b nn)) ∧
      (d.twin.ownI = false → d.bit BootCause.HELD () = false → d.failT = false → t.twin.guard = .start) ∧
      (d.twin.ownI = true → d.bit BootCause.HELD () = false → d.failT = false → t.fld TwStat.ROLE () = 3 ∧ t.fld TwStat.HREASON () = 1)) ∧
  ∀ d : Dev, unitChip ∉ d.undef → d.bit TwStat.LINKUP () = true ∨ (d.fld Start.STAGE () ≠ 3 ∧ d.twin.recov = false) →
    Gives .twinTrainTimeout d d

/-- PERST_N low resets both PCIe functions, a function-level reset one of them; both, and D3hot, leave every block, domain and the pattern as they were, and every region but the pops of the function that stall in its queues, which a reset of the function withdraws. PERST_N rising lets the functions answer again. A configuration request sets bus mastering, MSI enable, vector masks, error reporting, BAR0 (of which a 128 MiB BAR keeps the bits above 26), the largest payload or read request, or the power state of its function, or clears its AER log, and does nothing while PERST_N or RST_N is low. TRST_N touches the JTAG TAP only. A write of CHIP.MODE takes LEGACY, and HEAT only if every block is OFF or HELD or HEAT does not change; otherwise HEAT stays and HEAT_REFUSED is set; HEAT_ACT does not change, and no other register does. The values of a reset function are the family's (assumption log 5); how MSI, AER and BAR0 are set is log 55; that a reset function's stalled pops get no answer is log 104. (R34, R35, R71, R75, R83, R93, R103, R111) -/
def Obligations.PcieFunctionsAndMode : Prop :=
  (∀ d : Dev, Gives .trstN d { d with jtagTap := true }) ∧
  (∀ d : Dev, Gives .perstNRise d { d with perstN := true }) ∧
  (∀ d : Dev, Completes .perstN d fun t => t.perstN = false ∧ (∀ f, vget t.fn f = PcieFn.reset f) ∧
    t.blk = d.blk ∧ t.rgn = (stallsGone (stallsGone d .pf0) .pf1).rgn ∧ t.dom = d.dom ∧ t.pat = d.pat) ∧
  (∀ (d : Dev) (f : Fin 2), Completes (.functionLevelReset f) d fun t => vget t.fn f = PcieFn.reset f ∧
    (∀ g, g ≠ f → vget t.fn g = vget d.fn g) ∧ t.perstN = d.perstN ∧ t.blk = d.blk ∧
    t.rgn = (stallsGone d (if f = 0 then .pf0 else .pf1)).rgn ∧ t.dom = d.dom ∧ t.pat = d.pat) ∧
  (∀ (d : Dev) (f : Fin 2), d.perstN = true → d.rstN = true → Completes (.d3hotEntry f) d fun t => (vget t.fn f).d3 = true ∧
    t.blk = d.blk ∧ t.rgn = d.rgn ∧ t.dom = d.dom ∧ t.pat = d.pat) ∧
  (∀ (d : Dev) (f : Fin 2), d.perstN = true → d.rstN = true →
    Gives (.pcieConfigRequest f (.busMaster true)) d { d with fn := vset d.fn f { vget d.fn f with busMaster := true } } ∧
    Completes (.pcieConfigRequest f (.busMaster false)) d (fun t => (vget t.fn f).busMaster = false ∧ t.blk = d.blk ∧ t.rgn = d.rgn) ∧
    (∀ on, Completes (.pcieConfigRequest f (.msiEnable on)) d fun t => (vget t.fn f).msiEn = on ∧ t.regs = d.regs) ∧
    (∀ m, Completes (.pcieConfigRequest f (.msiMask m)) d fun t => (vget t.fn f).msiMask = m ∧ t.regs = d.regs) ∧
    (∀ on, Gives (.pcieConfigRequest f (.errReport on)) d { d with fn := vset d.fn f { vget d.fn f with errEn := on } }) ∧
    Gives (.pcieConfigRequest f .aerClear) d { d with fn := vset d.fn f { vget d.fn f with aerCA := false } } ∧
    (∀ c, Gives (.pcieConfigRequest f (.maxPayload c)) d { d with fn := vset d.fn f { vget d.fn f with maxPay := c } }) ∧
    (∀ c, Gives (.pcieConfigRequest f (.maxReadRequest c)) d { d with fn := vset d.fn f { vget d.fn f with maxRead := c } }) ∧
    (∀ w, Gives (.pcieConfigRequest f (.bar0 w)) d { d with fn := vset d.fn f { vget d.fn f with bar0 := w &&& 0xF8000000 } }) ∧
    Completes (.pcieConfigRequest f .toD0) d (fun t => (vget t.fn f).d3 = false ∧ t.blk = d.blk ∧ t.rgn = d.rgn) ∧
    Completes (.pcieConfigRequest f .toD3hot) d (fun t => (vget t.fn f).d3 = true ∧ t.blk = d.blk ∧ t.rgn = d.rgn)) ∧
  (∀ (d : Dev) (f : Fin 2) (r : CfgReq), d.perstN = false ∨ d.rstN = false →
    Gives (.pcieConfigRequest f r) d d ∧ Gives (.d3hotEntry f) d d) ∧
  (∀ (d : Dev) (h : Master) (w : Word) (c : Instr), Reaches d h (ChipMode.addr ()) unitChip → mRsv 0xFFF0 w = 0 →
    (c = .heatWrite h w ∧ w.getLsbD 17 = true) ∨ (c = .legacyWrite h w ∧ w.getLsbD 16 = true) →
    Completes c d fun t => OnlyRegs [ChipMode.addr ()] d t ∧ t.fld ChipMode.HEAT_ACT () = d.fld ChipMode.HEAT_ACT () ∧
      t.fld ChipMode.LEGACY () = (if w.getLsbD 16 then (w.getLsbD 0).toNat else d.fld ChipMode.LEGACY ()) ∧
      (w.getLsbD 17 = false ∨ (w.getLsbD 1).toNat = d.fld ChipMode.HEAT () ∨ blocksIdle d = true →
        t.fld ChipMode.HEAT () = (if w.getLsbD 17 then (w.getLsbD 1).toNat else d.fld ChipMode.HEAT ()) ∧
        t.fld ChipMode.HEAT_REFUSED () = (if w.getLsbD 3 && w.getLsbD 19 && !((marksAt d (ChipMode.addr ())).any fun m => m.1 == 3) then 0
          else d.fld ChipMode.HEAT_REFUSED ())) ∧
      (w.getLsbD 17 = true → (w.getLsbD 1).toNat ≠ d.fld ChipMode.HEAT () → blocksIdle d = false →
        t.fld ChipMode.HEAT () = d.fld ChipMode.HEAT () ∧ t.fld ChipMode.HEAT_REFUSED () = 1)) ∧
  ∀ (h : Master) (w : Word) (s : State), exec (.heatWrite h w) s = exec (.heatWrite h (w ||| 0x20000)) s ∧
    exec (.legacyWrite h w) s = exec (.legacyWrite h (w ||| 0x10000)) s

/-- A 32-bit register write that reaches a register without a rule of its own changes that register alone, bit by bit as the class of the bit's field says: a CFG bit takes the written bit, a W1C bit written 1 clears, a CNT bit takes the written bit unless the same write has a 1 in a W1C or CMD bit of a register that is not M-type, and a LIVE bit stays; in an M-type register only where the mask bit is 1. The register is one on which the hardware has not acted in the same clk; where it has, the W1C bits that it acted on stay; HOSTERR_INFO.VALID cleared in the clk of an error that found it set shows that error with VALID 1. The signed 20-bit registers (THRHI, THRLO, HYS, ZHI, HSPj, MANV) read as the sign extension of their bits [19:0]; a set-point of an ALONE unit's block takes bits [19:0] of what is written. How a write and the hardware's actions of one clk meet bit by bit is the model's reading of R10 (assumption log 57). (R9, R10, R93, R94, R110) -/
def Obligations.RegisterWritesByClass : Prop :=
  (∀ (d : Dev) (h : Master) (a : BitVec 27) (f : RegFam) (ix : List Nat) (w : Word),
    regAt a.toNat = some (f, ix) → memAt a.toNat = none → a.toNat % 4 = 0 → NoRule h f ix a.toNat w →
    Reaches d h a.toNat (unitOf a.toNat) → (f.priv = true → privileged d h = true) → rsvHit f w (2 ^ 32 - 1) = 0 → (f.id = .hostErrInfo → d.errNow = none) →
    Completes (.registerWrite h a ((byte4 w).map some)) d fun t => OnlyRegs [a.toNat] d t ∧
      (marksAt d a.toNat = [] → ∀ x ∈ f.fields, ∀ i < x.2.1, (t.reg a.toNat).getLsbD (x.1 + i) =
        if f.mtype && !w.getLsbD (16 + (x.1 + i)) then (d.reg a.toNat).getLsbD (x.1 + i)
        else bitAfter x.2.2 (!f.mtype && w.toNat &&& clsMask f (fun c => c == .w1c || c == .cmd) != 0)
          ((d.reg a.toNat).getLsbD (x.1 + i)) (w.getLsbD (x.1 + i))) ∧
      ∀ x ∈ f.fields, x.2.2 = .w1c → ∀ m ∈ marksAt d a.toNat, x.1 ≤ m.1 → m.1 < x.1 + x.2.1 →
        (t.reg a.toNat).getLsbD m.1 = (d.reg a.toNat).getLsbD m.1) ∧
  (∀ (d : Dev) (a : Nat) (f : RegFam) (ix : List Nat), regAt a = some (f, ix) →
    f.id = .fcThrHi ∨ f.id = .fcThrLo ∨ f.id = .fcHys ∨ f.id = .ecZhi ∨ f.id = .hsp ∨ f.id = .kcManv →
    viewWord d f ix a = BitVec.ofNat 32 (ux 32 (sx 20 ((d.reg a).toNat % 2 ^ 20)))) ∧
  (∀ (d : Dev) (h : Master) (nn : Fin 16) (j : Fin 8) (w : Word), Alone d h (Hsp.addr (nn, j)) (unitBlk nn) →
    Completes (.registerWrite h (BitVec.ofNat 27 (Hsp.addr (nn, j))) ((byte4 w).map some)) d fun t =>
      OnlyRegs [Hsp.addr (nn, j)] d t ∧ t.fld Hsp.V (nn, j) = w.toNat % 2 ^ 20 ∧
      ∀ f ix, regAt (Hsp.addr (nn, j)) = some (f, ix) →
        viewWord t f ix (Hsp.addr (nn, j)) = BitVec.ofNat 32 (ux 32 (sx 20 (w.toNat % 2 ^ 20)))) ∧
  ∀ (d : Dev) (h : Master) (x y : Word), Reaches d h (HostErrInfo.addr ()) unitChip → d.errNow = some (x, y) → marksAt d (HostErrInfo.addr ()) = [] →
    Completes (.registerWrite h 0x38 ((byte4 0x80000000).map some)) d fun t => t.reg (HostErrAddr.addr ()) = x ∧ t.reg (HostErrInfo.addr ()) = y ∧
      OnlyRegs [HostErrAddr.addr (), HostErrInfo.addr ()] d t

/-- Recording a host-access error changes only the three HOSTERR registers, the waiting messages and the note of this clk's error: the counter of its kind goes up by one and stays at 255 (an interconnect error, KIND 4, has none), the others keep; with VALID clear the address, master, direction, KIND and byte enables are logged and VALID sets, with VALID set the log stays, and the first such error of a clk is noted: where VALID is cleared in the same clk it is the one logged; and source 641 is asserted with the low half of HOSTERR_INFO. That KIND 4 has no counter is the model's reading (assumption log 82). (R110) -/
def Obligations.HostErrorsCountedAndLogged : Prop :=
  ∀ (d : Dev) (kind : Nat) (h : Master) (write : Bool) (a be : Nat), kind < 7 → a < 2 ^ 27 → be < 16 →
    let t := d.hostErr kind h write a be
    t = { d with regs := t.regs, hw := t.hw, evq := t.evq, errNow := t.errNow } ∧
    RegsKept [HostErr.addr (), HostErrAddr.addr (), HostErrInfo.addr ()] d t ∧
    (kind ≠ 4 → t.fld (hostErrFld kind) () = min (d.fld (hostErrFld kind) () + 1) 255) ∧
    (∀ g ∈ [HostErr.PRIV, HostErr.NARROW, HostErr.FORM, HostErr.RSVA], kind = 4 ∨ g.lo ≠ (hostErrFld kind).lo →
      t.fld g () = d.fld g ()) ∧
    t.fld HostErrInfo.VALID () = 1 ∧
    (d.fld HostErrInfo.VALID () = 1 → t.reg (HostErrAddr.addr ()) = d.reg (HostErrAddr.addr ()) ∧
      t.reg (HostErrInfo.addr ()) = d.reg (HostErrInfo.addr ())) ∧
    (d.fld HostErrInfo.VALID () = 1 → d.errNow = none → let u := hostErrAgain (t.clr HostErrInfo.VALID ())
      u.fld HostErrInfo.VALID () = 1 ∧ u.fld HostErrAddr.ADDR () = a ∧ u.fld HostErrInfo.MASTER () = masterCode h ∧
      u.fld HostErrInfo.WRITE () = write.toNat ∧ u.fld HostErrInfo.KIND () = kind ∧ u.fld HostErrInfo.BE () = be) ∧
    (d.fld HostErrInfo.VALID () = 0 ∨ d.errNow ≠ none → t.errNow = d.errNow) ∧
    (d.fld HostErrInfo.VALID () = 0 → t.fld HostErrAddr.ADDR () = a ∧ t.fld HostErrInfo.MASTER () = masterCode h ∧
      t.fld HostErrInfo.WRITE () = write.toNat ∧ t.fld HostErrInfo.KIND () = kind ∧ t.fld HostErrInfo.BE () = be) ∧
    t.evq = msgInsert ⟨d.clk, 641, true, t.lo16 HostErrInfo.word (), false⟩ d.evq

/-- A write of a good form to the host window writes exactly its bytes. A write of 1, 2, 4 or 8 bytes that is not aligned to its size has no effect but the FORM error and its AER entry. A 32-bit write to a reserved address does nothing but count in RSVA, with an AER entry in legacy mode. A 32-bit write by an unprivileged master to a privileged register does nothing but count in PRIV. A narrow write to a register that is M-type or has other fields than CFG and LIVE does nothing but count in NARROW. A 64-bit write to register space is its two 32-bit writes, the lower address first, with one AER entry where either is an error of the legacy mode. A write larger than 8 bytes of register space, or than 256 bytes of a memory window, is a FORM error as well. The address logged (the word's of a NARROW error, the first byte's of a FORM error) is the model's choice (assumption log 42), and so is what else counts as a FORM error (log 41). (R97, R98, R100, R101, R102, R103, R109, R110, R113) -/
def Obligations.HostWritesJudged : Prop :=
  (∀ (d : Dev) (h : Master) (o : Nat) (bytes : List Byte), o + bytes.length ≤ hwinSize →
    (bytes.length = 1 ∨ bytes.length = 2 ∨ bytes.length = 4 ∨ bytes.length = 8) ∧ o % bytes.length = 0 ∨
      8 < bytes.length ∧ bytes.length ≤ 256 ∧ bytes.length % 4 = 0 ∧ o % 4 = 0 →
    Reaches d h (0x800000 + o) unitChip →
    Completes (.registerWrite h (BitVec.ofNat 27 (0x800000 + o)) (bytes.map some)) d fun t =>
      t = { d with hwin := t.hwin } ∧
      ∀ x, hwByte t x = if o ≤ x ∧ x < o + bytes.length then (bytes[x - o]?).getD 0 else hwByte d x) ∧
  (∀ (d : Dev) (h : Master) (a : BitVec 27) (bytes : List Byte),
    bytes.length = 2 ∨ bytes.length = 4 ∨ bytes.length = 8 → a.toNat % bytes.length ≠ 0 →
    masterUp d h = true → stageOpen d a.toNat = true → d.fld Start.STAGE () ≠ 0 →
    Gives (.registerWrite h a (bytes.map some)) d (aerLog (d.hostErr 2 h true a.toNat (beOf a.toNat bytes.length)) h)) ∧
  (∀ (d : Dev) (h : Master) (a : BitVec 27) (w : Word), a.toNat % 4 = 0 → memAt a.toNat = none → regAt a.toNat = none →
    recAt a.toNat = none → secArea a.toNat = false → masterUp d h = true → stageOpen d a.toNat = true → d.fld Start.STAGE () ≠ 0 →
    Gives (.registerWrite h a ((byte4 w).map some)) d
      (if d.bit ChipMode.LEGACY () && (h == .pf0 || h == .pf1 || h == .shp) then aerLog (d.hostErr 3 h true a.toNat 15) h
        else d.hostErr 3 h true a.toNat 15)) ∧
  (∀ (d : Dev) (h : Master) (a : BitVec 27) (f : RegFam) (ix : List Nat) (w : Word), a.toNat % 4 = 0 → memAt a.toNat = none →
    regAt a.toNat = some (f, ix) → f.priv = true → NoRule h f ix a.toNat w → privileged d h = false → masterUp d h = true →
    stageOpen d a.toNat = true → d.fld Start.STAGE () ≠ 0 →
    Gives (.registerWrite h a ((byte4 w).map some)) d (d.hostErr 0 h true a.toNat 15)) ∧
  (∀ (d : Dev) (h : Master) (a : BitVec 27) (f : RegFam) (ix : List Nat) (bytes : List Byte), memAt a.toNat = none →
    bytes.length = 1 ∨ bytes.length = 2 → a.toNat % bytes.length = 0 → regAt (a.toNat / 4 * 4) = some (f, ix) →
    f.mtype = true ∨ (f.fields.all fun x => x.2.2 == .cfg || x.2.2 == .live) = false →
    f.priv = false → stewardTarg f.id ix = false → masterUp d h = true → stageOpen d a.toNat = true → d.fld Start.STAGE () ≠ 0 →
    Gives (.registerWrite h a (bytes.map some)) d
      (d.hostErr 1 h true (a.toNat / 4 * 4) (beOf a.toNat bytes.length))) ∧
  (∀ (d : Dev) (h : Master) (a : BitVec 27) (v w : Word) (rest : List Instr), a.toNat % 8 = 0 → memAt a.toNat = none →
    d.bit ChipMode.LEGACY () = false → masterUp d h = true → stageOpen d a.toNat = true → d.fld Start.STAGE () ≠ 0 →
    exec (.registerWrite h a ((byte4 v ++ byte4 w).map some)) ⟨rest, d⟩ =
      thenDo (exec (.registerWrite h a ((byte4 v).map some)) ⟨rest, d⟩) fun s => thenDo (wordWrite s h (a.toNat + 4) w) fun t =>
        if accErr s.dev h (a.toNat + 4) then onDev t fun d => aerLog d h else .next t) ∧
  (∀ (d : Dev) (h : Master) (a : BitVec 27) (v w : Word) (rest : List Instr), a.toNat % 8 = 0 → memAt a.toNat = none →
    masterUp d h = true → stageOpen d a.toNat = true → d.fld Start.STAGE () ≠ 0 →
    exec (.registerWrite h a ((byte4 v ++ byte4 w).map some)) ⟨rest, d⟩ =
      thenDo (wordWrite ⟨rest, d⟩ h a.toNat v) fun s => thenDo (wordWrite s h (a.toNat + 4) w) fun t =>
        if accErr d h a.toNat || accErr s.dev h (a.toNat + 4) then onDev t fun d => aerLog d h else .next t) ∧
  ∀ (d : Dev) (h : Master) (a : BitVec 27) (bytes : List Byte), masterUp d h = true → stageOpen d a.toNat = true → d.fld Start.STAGE () ≠ 0 →
    (memAt a.toNat = none ∧ 8 < bytes.length) ∨ 256 < bytes.length →
    Gives (.registerWrite h a (bytes.map some)) d (aerLog (d.hostErr 2 h true a.toNat (beOf a.toNat bytes.length)) h)

/-- A read of 1, 2 or 4 aligned bytes of a register that is neither a pop register nor T1.STAT or T1.FSUM is answered with those bytes of the value the register shows, and nothing but the answer follows; the same holds for a word of the host window. A read of fewer than 32 bits of a pop register is completed as an error, counted in FORM, and pops nothing. A read that is not aligned to its size is completed as an error and counted in FORM. A reserved address reads zero and counts in RSVA, with an error completion in legacy mode. A privileged register read by an unprivileged master reads zero and counts in PRIV. Before STAGE SFW every address outside the identity area and the host window reads zero with no error. That a FORM error logs the first byte's address is the model's choice (assumption log 42), and that a narrow read of a privileged pop register is one log 95. (R82, R91, R97, R99, R101, R102, R103, R109, R113) -/
def Obligations.HostReadsAnswered : Prop :=
  (∀ (d : Dev) (h : Master) (a : BitVec 27) (k : Nat) (f : RegFam) (ix : List Nat), k = 1 ∨ k = 2 ∨ k = 4 → a.toNat % k = 0 →
    memAt a.toNat = none → memAt (a.toNat / 4 * 4) = none → recAt (a.toNat / 4 * 4) = none →
    regAt (a.toNat / 4 * 4) = some (f, ix) → f.pop = false → (f.id ≠ .tStat ∧ f.id ≠ .tFsum) ∨ (ix[0]?).getD 0 ≠ 1 →
    privAt (a.toNat / 4 * 4) = false ∨ privileged d h = true → masterUp d h = true → stageOpen d a.toNat = true →
    stageOpen d (a.toNat / 4 * 4) = true → unitOf (a.toNat / 4 * 4) ∉ d.undef →
    Gives (.hostReadError h a k true) d
      (failCheck (answer d h 0 [readBytes a.toNat k (viewWord d f ix (a.toNat / 4 * 4))]))) ∧
  (∀ (d : Dev) (h : Master) (a : BitVec 27) (k : Nat), k = 1 ∨ k = 2 → a.toNat % k = 0 → isPop d (a.toNat / 4 * 4) = true →
    masterUp d h = true → stageOpen d a.toNat = true → d.fld Start.STAGE () ≠ 0 →
    Gives (.hostReadError h a k true) d (answer (d.hostErr 2 h false a.toNat (beOf a.toNat k)) h 2 [])) ∧
  (∀ (d : Dev) (h : Master) (o : Nat), o % 4 = 0 → o < hwinSize → masterUp d h = true → stageOpen d (0x800000 + o) = true →
    privAt (0x800000 + o) = false ∨ privileged d h = true → d.fld Start.STAGE () ≠ 0 → unitChip ∉ d.undef →
    Gives (.hostReadError h (BitVec.ofNat 27 (0x800000 + o)) 4 true) d (failCheck (answer d h 0 [hwWord d o]))) ∧
  (∀ (d : Dev) (h : Master) (a : BitVec 27) (k : Nat), k = 2 ∨ k = 4 ∨ k = 8 → a.toNat % k ≠ 0 → masterUp d h = true →
    stageOpen d a.toNat = true → d.fld Start.STAGE () ≠ 0 →
    Gives (.hostReadError h a k true) d (answer (d.hostErr 2 h false a.toNat (beOf a.toNat k)) h 2 [])) ∧
  (∀ (d : Dev) (h : Master) (a : BitVec 27), a.toNat % 4 = 0 → memAt a.toNat = none → recAt a.toNat = none →
    regAt a.toNat = none → secArea a.toNat = false → masterUp d h = true → stageOpen d a.toNat = true → d.fld Start.STAGE () ≠ 0 →
    Gives (.hostReadError h a 4 true) d (failCheck
      (if d.bit ChipMode.LEGACY () && (h == .pf0 || h == .pf1 || h == .shp) then answer (d.hostErr 3 h false a.toNat 15) h 3 []
        else answer (d.hostErr 3 h false a.toNat 15) h 0 [0]))) ∧
  (∀ (d : Dev) (h : Master) (a : BitVec 27), a.toNat % 4 = 0 → memAt a.toNat = none → privAt a.toNat = true →
    (∀ f ix, regAt a.toNat = some (f, ix) → f.pop = false) →
    privileged d h = false → masterUp d h = true → stageOpen d a.toNat = true → unitOf a.toNat ∉ d.undef →
    Gives (.hostReadError h a 4 true) d (failCheck (answer (d.hostErr 0 h false a.toNat 15) h 0 [0]))) ∧
  (∀ (d : Dev) (h : Master) (a : BitVec 27), masterUp d h = true → stageOpen d a.toNat = false → d.fld Start.STAGE () ≠ 0 →
    Gives (.hostReadError h a 4 true) d (answer d h 0 [0]))

/-- Outside reset, with bank H classed and no read of the port waiting at a queue: a write frame with a good check into the host window writes its words and is answered with status 0x80 and its check; a one-word frame to a register does what the word does, which for a register without a rule of its own is the write by the classes of its fields; with a failed check nothing is written, FORM counts with KIND 5 and the status has CODE 1. A read frame with a good check of host window words is answered with them; with a failed check with zeros and CODE 1; with more than one word and a pop register in its range with CODE 5, and nothing happens. In reset, and with bank H not classed, frames have no effect. That CODE 5 is not counted is the model's choice (assumption log 43), and so is that a write frame whose check fails counts in FORM with KIND 5 (assumption log 81). (R83, R110, R116, R117, R461) -/
def Obligations.SerialHostPortFrames : Prop :=
  (∀ (d : Dev) (a : Word) (ws : List Word) (crc : Byte) (c : Instr) (status : Bool),
    c = .shpWriteFrame a ws crc ∧ status = true ∨ c = .shpFrameCut (.writeAfterCheck a ws crc) ∧ status = false →
    d.fld Start.STAGE () ≠ 0 → d.supply.contains .h = true → stalled d .shp = false → 1 ≤ ws.length → ws.length ≤ 64 → crc8 (shpHead 2 ws.length a ws) = crc → a.toNat % 4 = 0 →
    0x800000 ≤ a.toNat → a.toNat + 4 * ws.length ≤ 0x840000 → stageOpen d a.toNat = true → unitChip ∉ d.undef →
    Completes c d fun t =>
      t = { d with hwin := t.hwin, out := t.out } ∧
      t.out = (if status then [.shpFrame [0x80, crc8 [0x80]]] else []) ++ d.out ∧
      ∀ x, hwByte t x = if a.toNat ≤ x + 0x800000 ∧ x + 0x800000 < a.toNat + 4 * ws.length then
        ((ws.flatMap byte4)[x + 0x800000 - a.toNat]?).getD 0 else hwByte d x) ∧
  (∀ (d : Dev) (a w : Word) (crc : Byte) (f : RegFam) (ix : List Nat), d.fld Start.STAGE () ≠ 0 → d.supply.contains .h = true → stalled d .shp = false →
    crc8 (shpHead 2 1 a [w]) = crc → a.toNat % 4 = 0 → a.toNat < 2 ^ 27 → memAt a.toNat = none → stageOpen d a.toNat = true →
    legacyErr d .shp a.toNat = false → regAt a.toNat = some (f, ix) → NoRule .shp f ix a.toNat w → unitOf a.toNat ∉ d.undef →
    rsvHit f w (2 ^ 32 - 1) = 0 → (f.priv = true → privileged d .shp = true) →
    Gives (.shpWriteFrame a [w] crc) d (shpSay (plainWrite d f a.toNat w) 0 [])) ∧
  (∀ (d t : Dev) (a w : Word) (crc : Byte) (rest : List Instr), d.fld Start.STAGE () ≠ 0 → d.supply.contains .h = true → stalled d .shp = false → crc8 (shpHead 2 1 a [w]) = crc →
    a.toNat % 4 = 0 → a.toNat < 2 ^ 27 → memAt a.toNat = none → stageOpen d a.toNat = true → legacyErr d .shp a.toNat = false →
    wordWrite ⟨rest, d⟩ .shp a.toNat w = .next ⟨rest, t⟩ →
    exec (.shpWriteFrame a [w] crc) ⟨rest, d⟩ = .next ⟨rest, shpSay t 0 []⟩) ∧
  (∀ (d : Dev) (a : Word) (ws : List Word) (crc : Byte), d.fld Start.STAGE () ≠ 0 → d.supply.contains .h = true → stalled d .shp = false → 1 ≤ ws.length → ws.length ≤ 64 →
    crc8 (shpHead 2 ws.length a ws) ≠ crc →
    Gives (.shpWriteFrame a ws crc) d ((d.hostErr 5 .shp true (a.toNat % 2 ^ 27) 15).say (.shpFrame [0xC8, crc8 [0xC8]]))) ∧
  (∀ (d : Dev) (a : Word) (len : Nat), d.fld Start.STAGE () ≠ 0 → d.supply.contains .h = true → stalled d .shp = false → 1 ≤ len → len ≤ 64 → a.toNat % 4 = 0 → 0x800000 ≤ a.toNat →
    a.toNat + 4 * len ≤ 0x840000 → stageOpen d a.toNat = true → (∀ i < len, privAt (a.toNat + 4 * i) = false) → unitChip ∉ d.undef →
    popIn d a.toNat len = false → Gives (.shpReadFrame a len (crc8 (shpHead 0x0B len a []))) d
      (failCheck (shpSay d 0 ((List.range len).map fun i => hwWord d (a.toNat - 0x800000 + 4 * i))))) ∧
  (∀ (d : Dev) (a : Word) (len : Nat) (crc : Byte), d.fld Start.STAGE () ≠ 0 → d.supply.contains .h = true → stalled d .shp = false → 1 ≤ len → len ≤ 64 →
    crc8 (shpHead 0x0B len a []) ≠ crc →
    Gives (.shpReadFrame a len crc) d
      (shpSay (d.hostErr 5 .shp false (a.toNat % 2 ^ 27) 15) 1 (List.replicate len 0))) ∧
  (∀ (d : Dev) (a : Word) (len : Nat), d.fld Start.STAGE () ≠ 0 → d.supply.contains .h = true → stalled d .shp = false → 1 < len → len ≤ 64 → a.toNat % 4 = 0 → a.toNat < 2 ^ 27 →
    popIn d a.toNat len = true →
    Gives (.shpReadFrame a len (crc8 (shpHead 0x0B len a []))) d (shpSay d 5 (List.replicate len 0))) ∧
  ∀ (d : Dev) (c : Instr), d.fld Start.STAGE () = 0 ∨ d.supply.contains .h = false →
    (∃ a ws crc, c = .shpWriteFrame a ws crc) ∨ (∃ a len crc, c = .shpReadFrame a len crc) → Gives c d d

/-- Outside reset, with bank H classed and no frame of the port waiting for its pop: a command other than 0x02 and 0x0B, or a LEN outside 1 to 64, counts in FORM with KIND 2 and nothing is sent; a good one is no bad command. A write frame cut before its check does nothing, cut after it is carried out with no status. A read frame cut while its pop stalls withdraws the pop and removes nothing; cut once the pop has removed an entry it loses the entry and counts in FORM with KIND 6, and so it does where the answer to a pop that had stalled is cut, whatever else the device has sent since. In reset, and with bank H not classed, none of these has an effect. The address and the direction that a bad command logs are free values (assumption log 81). (R83, R110, R117, R118, R461) -/
def Obligations.SerialHostPortBadAndCutFrames : Prop :=
  (∀ (d : Dev) (cmd len : Byte), d.fld Start.STAGE () ≠ 0 → d.supply.contains .h = true → stalled d .shp = false →
    (cmd = 2 ∨ cmd = 0x0B) ∧ 1 ≤ len.toNat ∧ len.toNat ≤ 64 → Gives (.shpBadCommand cmd len) d d) ∧
  (∀ (d : Dev) (cmd len : Byte), d.fld Start.STAGE () ≠ 0 → d.supply.contains .h = true → stalled d .shp = false →
    ¬ ((cmd = 2 ∨ cmd = 0x0B) ∧ 1 ≤ len.toNat ∧ len.toNat ≤ 64) → Completes (.shpBadCommand cmd len) d fun t =>
      t.out = d.out ∧ t.fld HostErr.FORM () = min (d.fld HostErr.FORM () + 1) 255 ∧
      t = { d with regs := t.regs, hw := t.hw, evq := t.evq, fresh := d.fresh + 1 } ∧
      RegsKept [HostErr.addr (), HostErrAddr.addr (), HostErrInfo.addr ()] d t) ∧
  (∀ (d : Dev) (a : Word) (ws : List Word) (crc : Byte), d.fld Start.STAGE () ≠ 0 → d.supply.contains .h = true → stalled d .shp = false → 1 ≤ ws.length → ws.length ≤ 64 →
    crc8 (shpHead 2 ws.length a ws) = crc → a.toNat % 4 = 0 → 0x800000 ≤ a.toNat → a.toNat + 4 * ws.length ≤ 0x840000 →
    stageOpen d a.toNat = true → unitChip ∉ d.undef → Completes (.shpFrameCut (.writeAfterCheck a ws crc)) d fun t =>
      t = { d with hwin := t.hwin } ∧ ∀ x, hwByte t x = if a.toNat ≤ x + 0x800000 ∧ x + 0x800000 < a.toNat + 4 * ws.length then
        ((ws.flatMap byte4)[x + 0x800000 - a.toNat]?).getD 0 else hwByte d x) ∧
  (∀ d : Dev, Gives (.shpFrameCut .writeBeforeCheck) d d) ∧
  (∀ (d : Dev) (n : Fin 4) (q : Fin 64), d.fld Start.STAGE () ≠ 0 → d.supply.contains .h = true → Completes (.shpFrameCut (.readWhileStalled n q)) d fun t =>
    t = { d with rgn := t.rgn } ∧ qGet t n q = { qGet d n q with stalls := (qGet d n q).stalls.filter fun e => e.1 != .shp } ∧
    ∀ n' q', (n', q') ≠ (n, q) → qGet t n' q' = qGet d n' q') ∧
  (∀ (d d1 : Dev) (n : Fin 4) (q : Fin 64) (w : Word) (took : Bool), d.fld Start.STAGE () ≠ 0 → d.supply.contains .h = true → stalled d .shp = false →
    stageOpen d (QPop.addr (n, q)) = true → unitRgn n ∉ d.undef → popTry d n q .shp = (some (w, took), d1) →
    let a : Word := BitVec.ofNat 32 (QPop.addr (n, q))
    Gives (.shpFrameCut (.readAfterEntry a (crc8 (shpHead 0x0B 1 a [])))) d
      (failCheck (if took then d1.hostErr 6 .shp false (QPop.addr (n, q)) 15 else d1))) ∧
  (∀ (d : Dev) (n : Fin 4) (q : Fin 64) (w : Word) (c : Byte) (o1 o2 : List HostOut), d.fld Start.STAGE () ≠ 0 → d.supply.contains .h = true → stalled d .shp = false →
    stageOpen d (QPop.addr (n, q)) = true → d.out = o1 ++ .shpFrame ([0x80] ++ byte4 w ++ [c]) :: o2 → (∀ o ∈ o1, isShp o = false) → w ≠ 0xFFFFFFFF →
    Gives (.shpFrameCut (.readAfterStall (BitVec.ofNat 32 (QPop.addr (n, q))))) d
      ({ d with out := o1 ++ o2 }.hostErr 6 .shp false (QPop.addr (n, q)) 15)) ∧
  ∀ (d : Dev) (c : Instr), d.fld Start.STAGE () = 0 ∨ d.supply.contains .h = false →
    (∃ cmd len, c = .shpBadCommand cmd len) ∨ (∃ x, c = .shpFrameCut x) → Gives c d d

/-- A single command bit written while none is pending, the chip takes commands and the block is not being re-poured. ARM in HELD with no latch and a valid domain: pending, BANK and LAST_SRC say where the runner will start and STALL whether a fallback start is declared. RUN in ARMED: pending. STOP in RUN: pending, and every leg waits for its period start. DISARM in ARMED, RUN or QUENCHED: outputs at S0 at once unless a latch holds them; it completes at once in HOLD and otherwise is pending. RESET in any state but OFF: outputs the same and the block in its reload. Nothing of another block changes. That DISARM makes the outputs safe at once and completes at once in HOLD, and that ARM's bank is chosen as it is accepted, is deduced (assumption log 76). (R84, R85, R86, R87, R165) -/
def Obligations.BlockCommandsCarriedOut : Prop :=
  (∀ (d : Dev) (h : Master) (nn : Fin 16) (w : Word), CmdFree d h nn (unitBlk nn) 1 (ownM 0 w) → d.fld BkStat.STATE nn = 1 →
    d.bit Qstat.LATCH nn = false → domValid d (hdrOf d nn (armBank d nn).1).domain = true →
    Completes (.blockArm h nn w) d fun t =>
      OnlyBlock nn [BkCtl.addr nn, BkStat.addr nn, Rstat.addr nn, Pstat.addr nn] d t ∧ t.evq = d.evq ∧
      t.b nn = { d.b nn with stalled := (armBank d nn).2.2 } ∧ t.reg (BkCtl.addr nn) = d.reg (BkCtl.addr nn) ||| 1 ∧
      t.reg (BkStat.addr nn) = ((d.putB BkStat.BANK nn (armBank d nn).1).flag BkStat.PENDING nn).reg (BkStat.addr nn) ∧
      t.reg (Rstat.addr nn) = (d.put Rstat.LAST_SRC nn (armBank d nn).2.1).reg (Rstat.addr nn) ∧
      t.reg (Pstat.addr nn) = (d.putB Pstat.STALL nn (armBank d nn).2.2.isSome).reg (Pstat.addr nn)) ∧
  (∀ (d : Dev) (h : Master) (nn : Fin 16) (w : Word), CmdFree d h nn (unitBlk nn) 2 (ownM 1 w) → d.fld BkStat.STATE nn = 2 →
    Gives (.blockRun h nn w) d ((d.put BkCtl.RUN nn 1).put BkStat.PENDING nn 1)) ∧
  (∀ (d : Dev) (h : Master) (nn : Fin 16) (w : Word), CmdFree d h nn (unitBlk nn) 4 (ownM 2 w) → d.fld BkStat.STATE nn = 3 →
    Gives (.blockStop h nn w) d (((d.put BkCtl.STOP nn 1).onB nn fun b =>
      { b with leg := b.leg.map fun g => { g with stop := true } }).put BkStat.PENDING nn 1)) ∧
  (∀ (d : Dev) (h : Master) (nn : Fin 16) (w : Word), CmdFree d h nn (unitBlk nn) 8 (ownM 3 w) →
    2 ≤ d.fld BkStat.STATE nn → d.fld BkStat.STATE nn ≤ 4 → Completes (.blockDisarm h nn w) d fun t =>
      OnlyBlock nn (accRegs nn ++ [BkCtl.addr nn, BkStat.addr nn, Rctl.addr nn, Rstat.addr nn, Pstat.addr nn, HspCtl.addr nn, Kstat.addr nn]) d t ∧
      (∀ l : Fin 3, if d.bit Qstat.LATCH nn then
          (vget (t.b nn).leg l).gh = (vget (d.b nn).leg l).gh ∧ (vget (t.b nn).leg l).gl = (vget (d.b nn).leg l).gl
        else atS0 d nn l (vget (t.b nn).leg l)) ∧
      (if d.bit Pstat.HOLD nn then t.fld BkStat.STATE nn = 1 ∧ t.bit BkCtl.DISARM nn = false ∧ t.bit BkStat.PENDING nn = false
        else t.fld BkStat.STATE nn = d.fld BkStat.STATE nn ∧ t.bit BkCtl.DISARM nn = true ∧ t.bit BkStat.PENDING nn = true ∧
          (t.b nn).disarm = true)) ∧
  (∀ (d : Dev) (h : Master) (nn : Fin 16) (w : Word), CmdFree d h nn unitNone 16 (ownM 4 w) → d.fld BkStat.STATE nn ≠ 0 →
    Completes (.blockReset h nn w) d fun t =>
      t = { d with regs := t.regs, hw := t.hw, blk := t.blk, evq := t.evq, chan := t.chan, hwin := t.hwin } ∧
      (∀ l : Fin 3, if d.bit Qstat.LATCH nn then
          (vget (t.b nn).leg l).gh = (vget (d.b nn).leg l).gh ∧ (vget (t.b nn).leg l).gl = (vget (d.b nn).leg l).gl
        else atS0 d nn l (vget (t.b nn).leg l)) ∧
      (t.b nn).resetting = true ∧ (t.b nn).inCycle = false ∧ t.reg (BkCtl.addr nn) = d.reg (BkCtl.addr nn) ||| 16 ∧
      t.reg (BkStat.addr nn) = (d.flag BkStat.PENDING nn).reg (BkStat.addr nn) ∧ ∀ k, k ≠ nn → t.b k = d.b k)

/-- When the reload of a block in RESET is complete, with nothing but RESET pending: the block is HELD, RESET and PENDING read 0, what the block does is guaranteed again, a latch that was set stays set, HSP0 to HSP7 keep their values, and no output is HIGH. No other block changes, and outside the block only CALSKIP, the count of quenches, the twin's flags for the block and the state of the phase domains may differ. A block that is not in its reload is left alone. Which registers a RESET keeps is deduced (assumption log 56). (R84, R85, R95, R235) -/
def Obligations.BlockReloadEnds : Prop :=
  (∀ (d : Dev) (nn : Fin 16), (d.b nn).resetting = false → Gives (.blockResetDone nn) d d) ∧
  ∀ (d : Dev) (nn : Fin 16) (sec : BlockSec), (d.b nn).resetting = true → secOf d nn = some sec → pendCmds d nn = 16 →
    Completes (.blockResetDone nn) d fun t =>
      t.fld BkStat.STATE nn = 1 ∧ t.bit BkCtl.RESET nn = false ∧ t.bit BkStat.PENDING nn = false ∧ (t.b nn).resetting = false ∧
      t.undef = d.undef.filter (fun u => u != unitBlk nn) ∧ (d.bit Qstat.LATCH nn = true → t.bit Qstat.LATCH nn = true) ∧
      (∀ j, t.fld Hsp.V (nn, j) = d.fld Hsp.V (nn, j)) ∧ outputsOff (t.b nn) ∧ (∀ k, k ≠ nn → t.b k = d.b k) ∧
      t = { d with regs := t.regs, hw := t.hw, blk := t.blk, evq := t.evq, undef := t.undef, twin := t.twin, dom := t.dom } ∧
      RegsKeptOut (fun a => inBlock nn a || a == UpdCalskip.addr () || a == FltCnt.addr () || a == TwStat.addr () || a == TwBk.addr nn ||
        (List.finRange 8).any fun k => a == PdStat.addr k) d t

/-- A write to BKnn.CTL that only repeats pending commands changes no register; where a completion of the same clk follows, it stands (R10). One that repeats some and adds others is refused with REASON 6. With nothing pending, one command that the chip does not take (not STAGE HELD, or the HELD condition) is refused with REASON 7; more than one command bit with 6; during a re-pour with 4; ARM outside HELD, RUN outside ARMED, STOP outside RUN, DISARM in OFF or HELD and RESET in OFF with 1; ARM with the latch set with 2; ARM with an invalid domain with 3. A second command while one is pending is refused with 4, but DISARM and RESET take the place of a pending ARM or RUN, which is refused with 5. On a SHADOW or HELD unit a command is refused with 7 and counted in SHWR. A refusal changes REFUSED and REASON and nothing else. Which case is looked at first is the model's choice (assumption log 45). (R10, R85, R87, R409) -/
def Obligations.BlockCommandsRefused : Prop :=
  ∀ (c : Instr) (d : Dev) (h : Master) (nn : Fin 16) (w : Word) (b : Fin 5),
    (c = .blockArm h nn w ∧ b = 0) ∨ (c = .blockRun h nn w ∧ b = 1) ∨ (c = .blockStop h nn w ∧ b = 2) ∨
      (c = .blockDisarm h nn w ∧ b = 3) ∨ (c = .blockReset h nn w ∧ b = 4) →
    let v := ownM b.val w
    let cmds := mOnes v % 32
    let single := 2 ^ b.val
    let pend := pendCmds d nn ||| mirBits d (BkCtl.addr nn) % 32
    mRsv 0xFFE0 v = 0 → masterUp d h = true → stageOpen d (BkCtl.addr nn) = true → unitBlk nn ∉ d.undef → unitNone ∉ d.undef →
    (d.fld TwStat.ROLE () = 0 → cmds &&& pend = cmds → Gives c d (d.cmdAgain (BkCtl.addr nn) cmds)) ∧
    (d.fld TwStat.ROLE () = 0 → cmds &&& pend ≠ cmds → cmds &&& pend ≠ 0 → Gives c d (blkRefuse d nn 6)) ∧
    (d.fld TwStat.ROLE () = 0 → cmds &&& pend = 0 → chipTakes d = false → Gives c d (blkRefuse d nn 7)) ∧
    (d.fld TwStat.ROLE () = 0 → cmds &&& pend = 0 → chipTakes d = true → cmds ≠ single → Gives c d (blkRefuse d nn 6)) ∧
    (d.fld TwStat.ROLE () = 0 → cmds &&& pend = 0 → chipTakes d = true → cmds = single → (d.b nn).repouring = true →
      Gives c d (blkRefuse d nn 4)) ∧
    (CmdFree d h nn (unitBlk nn) single v →
      (d.fld BkStat.STATE nn ≠ 1 → b = 0 → Gives c d (blkRefuse d nn 1)) ∧
      (d.fld BkStat.STATE nn ≠ 2 → b = 1 → Gives c d (blkRefuse d nn 1)) ∧
      (d.fld BkStat.STATE nn ≠ 3 → b = 2 → Gives c d (blkRefuse d nn 1)) ∧
      (d.fld BkStat.STATE nn ≤ 1 → b = 3 → Gives c d (blkRefuse d nn 1)) ∧
      (d.fld BkStat.STATE nn = 0 → b = 4 → Gives c d (blkRefuse d nn 1)) ∧
      (d.fld BkStat.STATE nn = 1 → b = 0 → d.bit Qstat.LATCH nn = true → Gives c d (blkRefuse d nn 2)) ∧
      (d.fld BkStat.STATE nn = 1 → b = 0 → d.bit Qstat.LATCH nn = false →
        domValid d (hdrOf d nn (armBank d nn).1).domain = false → Gives c d (blkRefuse d nn 3))) ∧
    (d.fld TwStat.ROLE () = 0 → pend ≠ 0 → cmds &&& pend = 0 → chipTakes d = true → cmds = single →
      (d.b nn).repouring = false →
      (if (b = 3 ∨ b = 4) ∧ (pend = 1 ∨ pend = 2) then
        pendCmds d nn = pend → Completes c d fun t => t.bit BkStat.REFUSED nn = true ∧ t.fld BkStat.REASON nn = 5 ∧ t.bit BkCtl.ARM nn = false ∧
          t.bit BkCtl.RUN nn = false ∧ ∀ k, k ≠ nn → t.b k = d.b k
      else Gives c d (blkRefuse d nn 4))) ∧
    (2 ≤ d.fld TwStat.ROLE () → cmds ≠ 0 → Gives c d ((blkRefuse d nn 7).inc TwCnt.SHWR ()))

/-- On an ALONE unit, with no reserved bit changed. SWAP takes TARGET and TRIG_EN as written and with LCLR clears MAXLATE; with a request pending it only sets SWAP_REF; a request for the bank in use has no effect; in OFF, during a re-pour, with a target bank that the block has not, or (outside HELD) with an invalid target domain it is refused with SWAP_REF; in HELD the target is where ARM will start, and a pending ARM chooses its bank again; otherwise the request is pending. LCLR clears MAXLATE. COMMIT in ARMED, RUN or QUENCHED waits for the next cycle start and otherwise, with none standing, makes HSP0 to HSP7 live at once and counts COMMITS. A write to SEGWR takes effect unless it moves WR backward or makes WR - RD exceed 32, which sets BADWR; a write to a segment word takes effect in a free segment and sets OVW in a queued one. That a pending ARM chooses its bank again at a SWAP in HELD is the model's choice (assumption log 35). (R10, R84, R137, R140, R141, R153, R176, R235, R240) -/
def Obligations.SwapsSetPointsAndSegments : Prop :=
  (∀ (d : Dev) (h : Master) (nn : Fin 16) (w : Word), Alone d h (Rctl.addr nn) (unitBlk nn) → mRsv 0xFFF0 (ownM 0 w) = 0 →
    let c := mCfg (mCfg d Rctl.TARGET nn (ownM 0 w)) Rctl.TRIG_EN nn (ownM 0 w)
    let x := if (mOnes (ownM 0 w)).testBit 3 then (c.clr Rlate.MAXLATE nn).clr Rctl.LCLR nn else c
    let t := x.bit Rctl.TARGET nn
    let used := 2 ≤ d.fld BkStat.STATE nn ∧ t = curBank d nn
    let wait := (d.b nn).swHost.isSome = true ∨ (mirBits d (Rctl.addr nn)).testBit 0 = true
    let no := d.fld BkStat.STATE nn = 0 ∨ (d.b nn).repouring = true ∨ (hdrOf d nn t).valid = false ∨
      (d.fld BkStat.STATE nn ≠ 1 ∧ domValid d (hdrOf d nn t).domain = false)
    (wait → Gives (.swap h nn w) d (x.flag Rstat.SWAP_REF nn)) ∧
    (¬ wait → used → Gives (.swap h nn w) d (x.clr Rctl.SWAP nn)) ∧
    (¬ wait → ¬ used → no → Gives (.swap h nn w) d ((x.clr Rctl.SWAP nn).flag Rstat.SWAP_REF nn)) ∧
    (¬ wait → ¬ used → ¬ no → d.fld BkStat.STATE nn = 1 →
      let y := (x.clr Rctl.SWAP nn).onB nn fun b => { b with hostStart := some t }
      Gives (.swap h nn w) d (if d.bit BkCtl.ARM nn then armChoose y nn else y)) ∧
    (¬ wait → ¬ used → ¬ no → d.fld BkStat.STATE nn ≠ 1 → Completes (.swap h nn w) d fun u =>
      OnlyBlock nn [Rctl.addr nn, Rlate.addr nn, Rstat.addr nn] d u ∧ u.evq = d.evq ∧
      u.b nn = { d.b nn with swHost := some t, swWait := !(d.b nn).inCycle } ∧ u.bit Rctl.SWAP nn = true ∧
      u.bit Rstat.SWAP_PEND nn = true ∧ u.bit Rstat.PEND_TGT nn = ((d.b nn).swFall.getD t))) ∧
  (∀ (d : Dev) (h : Master) (nn : Fin 16) (w : Word), Alone d h (Rctl.addr nn) (unitBlk nn) → mRsv 0xFFF0 (ownM 3 w) = 0 →
    if (mOnes (ownM 3 w)).testBit 0 then
      ∀ rest, exec (.lclr h nn w) ⟨rest, d⟩ = exec (.swap h nn (ownM 3 w)) ⟨rest, d⟩
    else Gives (.lclr h nn w) d (((mCfg (mCfg d Rctl.TARGET nn (ownM 3 w)) Rctl.TRIG_EN nn (ownM 3 w)).clr Rlate.MAXLATE nn).clr Rctl.LCLR nn)) ∧
  (∀ (d : Dev) (h : Master) (nn : Fin 16) (w : Word), Alone d h (HspCtl.addr nn) (unitBlk nn) → mRsv 0xFFFE w = 0 →
    (2 ≤ d.fld BkStat.STATE nn → d.fld BkStat.STATE nn ≤ 4 → Gives (.hspCommit h nn w) d ((d.cmdAgain (HspCtl.addr nn) 1).flag HspCtl.COMMIT nn)) ∧
    (d.fld BkStat.STATE nn < 2 → d.bit HspCtl.COMMIT nn = false → d.cmdRedo HspCtl.COMMIT nn = false → Completes (.hspCommit h nn w) d fun t =>
      OnlyBlock nn [HspCtl.addr nn, Kstat.addr nn] { d with redo := (HspCtl.addr nn, 0) :: d.redo } t ∧ t.evq = d.evq ∧ t.bit HspCtl.COMMIT nn = false ∧
      t.b nn = { d.b nn with live := (t.b nn).live } ∧ t.reg (Kstat.addr nn) = (d.inc Kstat.COMMITS nn).reg (Kstat.addr nn) ∧
      ∀ j : Fin 8, vget (t.b nn).live j = BitVec.ofNat 20 (d.fld Hsp.V (nn, j)))) ∧
  (∀ (d : Dev) (h : Master) (nn : Fin 16) (w : Word), Alone d h (SegWr.addr nn) (unitBlk nn) → wRsv 0xFFFFFFC0 w = 0 →
    let ahead := (w.toNat % 64 + 64 - d.fld SegRd.RD nn) % 64
    Gives (.segwrWrite h nn w) d (if 32 < ahead ∨ ahead < segFill d nn then d.flag SegStat.BADWR nn else d.put SegWr.WR nn (w.toNat % 64))) ∧
  ∀ (d : Dev) (h : Master) (nn : Fin 16) (g : Fin 32) (i : Fin 8) (w : Word), Alone d h (Seg.addr (nn, g, i)) (unitBlk nn) →
    Gives (.segmentWrite h nn g i w) d
      (if (g.val + 64 - d.fld SegRd.RD nn) % 32 < segFill d nn then d.flag SegStat.OVW nn else d.put Seg.V (nn, g, i) w.toNat)

/-- On an ALONE unit, with no reserved bit changed, each command of a write to KCm.CTL is judged. Any command in OFF, GOMAN and GOAUTO written together, and on a faulted cell, without FCLR, every command but SNAP are refused with REASON 3; GOMAN or GOAUTO on a kind without MAN with REASON 1; REASON keeps 3 where both occur. The other commands of the write go on: in ARMED, RUN and QUENCHED they wait. In HELD, alone, they are carried out: GOMAN and GOAUTO set and clear MANSEL, PRESET sets PRE, PLOAD copies PS0 to PS15 into P0 to P15, SNAP copies both states, the outputs and RUNS into S0 to S7, FCLR reloads the state, clears FAULT and its bit of KSTAT, sets PRE, and in an INTERP cell leaves a segment in progress only where the image has one. On a SHADOW unit they are refused with REASON 2 and counted in SHWR. That REASON keeps 3 where both reasons occur is the model's choice (assumption log 32), and so is what S0 and S1 show of an IPARK cell (assumption log 31). (R10, R216, R232, R246, R247, R248, R409) -/
def Obligations.KernelCommandsJudged : Prop :=
  ∀ (c : Instr) (d : Dev) (h : Master) (nn : Fin 16) (m : Fin 12) (w : Word) (b : Fin 6),
    (c = .goman h nn m w ∧ b = 0) ∨ (c = .goauto h nn m w ∧ b = 1) ∨ (c = .pload h nn m w ∧ b = 2) ∨
      (c = .preset h nn m w ∧ b = 3) ∨ (c = .snap h nn m w ∧ b = 4) ∨ (c = .fclr h nn m w ∧ b = 5) →
    let v := ownM b.val w
    let cmds := mOnes v % 64
    let no3 : Fin 6 → Bool := fun i => cmds.testBit i.val && (d.fld BkStat.STATE nn == 0 ||
      (decide (i.val ≤ 1) && cmds.testBit 0 && cmds.testBit 1) ||
      (decide (i.val ≤ 3) && d.bit KcStat.FAULT (nn, m) && !cmds.testBit 5))
    let no1 : Fin 6 → Bool := fun i => cmds.testBit i.val && decide (i.val ≤ 1) && !isController (d.fld KcCfg.KIND (nn, m))
    let any : (Fin 6 → Bool) → Bool := fun p => (List.finRange 6).any p
    let x1 := if any no1 then kRefuse d (nn, m) 1 else d
    let x := if any no3 then kRefuse x1 (nn, m) 3 else x1
    masterUp d h = true → stageOpen d (KcCtl.addr (nn, m)) = true → unitBlk nn ∉ d.undef → mRsv 0xFFC0 v = 0 →
    (∀ good : BitVec 6, d.fld TwStat.ROLE () = 0 → (∀ i : Fin 6, good.getLsbD i.val = (cmds.testBit i.val && !no3 i && !no1 i)) →
      (good = 0 → Gives c d x) ∧
      (good ≠ 0 → d.fld BkStat.STATE nn ≠ 1 →
        Gives c d ((x.cmdAgain (KcCtl.addr (nn, m)) good.toNat).setReg (KcCtl.addr (nn, m)) (x.reg (KcCtl.addr (nn, m)) ||| good.setWidth 32)))) ∧
    (d.fld TwStat.ROLE () = 0 → any no3 = false → any no1 = false → d.fld BkStat.STATE nn = 1 → cmds = 2 ^ b.val →
      fget 0 6 (d.reg (KcCtl.addr (nn, m))) = 0 → (∀ e ∈ d.redo, e.1 ≠ KcCtl.addr (nn, m)) →
      let d0 : Dev := { d with redo := (KcCtl.addr (nn, m), 0) :: d.redo }
      Completes c d fun t =>
        t.reg (KcCtl.addr (nn, m)) = d.reg (KcCtl.addr (nn, m)) ∧
        (b = 0 → OnlyRegs [KcStat.addr (nn, m)] d0 t ∧ t.reg (KcStat.addr (nn, m)) = (d.flag KcStat.MANSEL (nn, m)).reg (KcStat.addr (nn, m))) ∧
        (b = 1 → OnlyRegs [KcStat.addr (nn, m)] d0 t ∧ t.reg (KcStat.addr (nn, m)) = (d.clr KcStat.MANSEL (nn, m)).reg (KcStat.addr (nn, m))) ∧
        (b = 2 → OnlyRegs ((List.finRange 16).map fun i => KcP.addr (nn, m, i)) d0 t ∧
          ∀ i, t.fld KcP.V (nn, m, i) = d.fld KcPs.V (nn, m, i)) ∧
        (b = 3 → OnlyRegs [KcStat.addr (nn, m)] d0 t ∧ t.reg (KcStat.addr (nn, m)) = (d.flag KcStat.PRE (nn, m)).reg (KcStat.addr (nn, m))) ∧
        (b = 4 → OnlyRegs (KcStat.addr (nn, m) :: (List.finRange 8).map fun i => KcS.addr (nn, m, i)) d0 t ∧
          t.reg (KcStat.addr (nn, m)) = (d.flag KcStat.SNAPV (nn, m)).reg (KcStat.addr (nn, m)) ∧
          t.fld KcS.V (nn, m, 0) = ux 32 (kS0 d (nn, m)) ∧ sx 32 (t.fld KcS.V (nn, m, 1)) = sx 16 (ux 48 (kS0 d (nn, m)) / 2 ^ 32) ∧
          t.fld KcS.V (nn, m, 2) = ux 32 (kst d (nn, m)).s2 ∧ sx 32 (t.fld KcS.V (nn, m, 3)) = sx 16 (ux 48 (kst d (nn, m)).s2 / 2 ^ 32) ∧
          t.fld KcS.V (nn, m, 4) = ux 32 (kst d (nn, m)).out0 ∧ t.fld KcS.V (nn, m, 5) = ux 32 (kst d (nn, m)).out1 ∧
          t.fld KcS.V (nn, m, 6) = ux 32 (kst d (nn, m)).out2 ∧ t.fld KcS.V (nn, m, 7) = d.fld KcStat.RUNS (nn, m)) ∧
        (b = 5 → OnlyBlock nn [KcStat.addr (nn, m), Kstat.addr nn, SegStat.addr nn] d0 t ∧ t.evq = d.evq ∧
          t.reg (SegStat.addr nn) = (if d.fld KcCfg.KIND (nn, m) = 12 then d.putB SegStat.ACTIVE nn ((kernInit d (nn, m)).rem != 0) else d).reg (SegStat.addr nn) ∧
          t.fld Kstat.FAULT nn = d.fld Kstat.FAULT nn &&& (4095 - 2 ^ m.val) ∧
          t.reg (KcStat.addr (nn, m)) = ((d.clr KcStat.FAULT (nn, m)).flag KcStat.PRE (nn, m)).reg (KcStat.addr (nn, m)) ∧
          kst t (nn, m) = kernInit d (nn, m) ∧ ∀ m', m' ≠ m → kst t (nn, m') = kst d (nn, m'))) ∧
    (d.fld TwStat.ROLE () = 2 → Gives c d ((kRefuse d (nn, m) 2).inc TwCnt.SHWR ()))

/-- A slot command takes effect only when the runner's pointer stands at a slot of its opcode: the runner is on, a cycle runs and the block does not hold. MAXLATE keeps the largest lateness. The pointer goes to the next slot of the bank in use and WAIT says whether its POS is still to come; after the last slot no cycle runs, the pointer is 0 and WDRUN 0. With the last slot the trigger of the bank in use is evaluated: below LOW_THR bank A requests B, above HIGH_THR bank B requests A. The pattern, every other block and, but for a RUN slot, the phase domains keep their state, and CYC does not change. That the trigger of the last slot counts for the next cycle start is deduced (assumption log 77). (R84, R127, R131, R133, R136, R175, R380) -/
def Obligations.SlotsExecuteInTurn : Prop :=
  ∀ (c : Instr) (d : Dev) (nn : Fin 16) (late op : Nat) (parity : Bool),
    (c = .sampleSlot nn late ∧ op = 0) ∨ (c = .runSlot nn late ∧ op = 1) ∨ (c = .kernelAbort nn parity late ∧ op = 1) ∨
      (c = .updateSlot nn late ∧ op = 2) ∨ (c = .publishSlot nn late ∧ op = 3) ∨ (c = .consumeSlot nn late ∧ op = 4) ∨
      (c = .openSlot nn late ∧ op = 5) ∨ (c = .captureSlot nn late ∧ op = 6) ∨ (c = .markSlot nn late ∧ op = 7) →
    unitBlk nn ∉ d.undef → (curSlots d nn).length ≤ 256 →
    ((∀ w, slotNow d nn = some w → sOp w ≠ op) → Gives c d d) ∧
    ∀ w, slotNow d nn = some w → sOp w = op → Completes c d fun t =>
      t.fld Rlate.MAXLATE nn = min (max (d.fld Rlate.MAXLATE nn) late) (2 ^ 20 - 1) ∧
      (d.fld Rstat.SLOT nn + 1 < (curSlots d nn).length → (d.b nn).ovs = false → (d.b nn).late = false →
        t.fld Rstat.SLOT nn = d.fld Rstat.SLOT nn + 1 ∧ (t.b nn).inCycle = true ∧
        ∀ x, (curSlots d nn)[d.fld Rstat.SLOT nn + 1]? = some x →
          t.bit Rstat.WAIT nn = (!(d.b nn).flushing && decide (blkPhase d nn (curBank d nn) < sPos x))) ∧
      (d.fld Rstat.SLOT nn + 1 = (curSlots d nn).length →
        t.fld Rstat.SLOT nn = 0 ∧ (t.b nn).inCycle = false ∧ t.fld Wdog.WDRUN nn = 0 ∧
        ((d.b nn).late = false →
          let g := curHdr d nn
          let x := boardNum t g.trigBlk g.trigVal (boardVal t nn g.trigBlk g.trigVal)
          (t.b nn).swTrig = if g.trigOn = true ∧ d.bit Rctl.TRIG_EN nn = true ∧ (hdrOf d nn (!curBank d nn)).valid = true ∧
              (if curBank d nn then sx 20 g.highThr.toNat < x else x < sx 20 g.lowThr.toNat) then some (!curBank d nn) else (d.b nn).swTrig)) ∧
      t.fld BkStat.CYC nn = d.fld BkStat.CYC nn ∧ t.pat = d.pat ∧ (op ≠ 1 → t.dom = d.dom) ∧ t.clk = d.clk ∧ ∀ k, k ≠ nn → t.b k = d.b k

/-- SAMPLE latches the main result of each cell named in FMASK into OF(BASE + f). UPDATE with SRC 0 loads each leg named in LMASK with its duty entry and the compare value of it; with SRC 1 it names the pulse-table row pending, or sets PTERR for a row beyond 63. PUBLISH writes COUNT values of the block's own row from OF(BASE) on and counts SEQ, and no other row changes. CONSUME reads one value, or two, of the row it names into OF(DEST) on. OPEN sets FRESH and counts OPENS in its window, with NENT = 0 leaving the data. CAPTURE latches the encoder position, a domain's phase or the probe latch into a pair. MARK with TRACE takes a trace record for an enabled block, where neither the wait buffer nor the trace buffer can be full, and with EVENT raises the mark source with TAG. None writes another entry of the operand file. That TSEQ advances for each record offered, discarded or not, is assumption log 87, and that a publish is seen at once by a read is log 36; both are the model's choices. (R19, R20, R131, R161, R184, R205, R208, R250, R259, R330, R374) -/
def Obligations.SlotEffects : Prop :=
  ∀ (d : Dev) (nn : Fin 16) (late : Nat) (w : DWord), unitBlk nn ∉ d.undef → slotNow d nn = some w →
    (sOp w = 0 → Completes (.sampleSlot nn late) d fun t =>
      (∀ f : Fin 4, (sf w 0 4).testBit f.val = true → (t.b nn).ofU (sf w 4 6 + f.val) = d.fld FcRes.V (nn, f) % 2 ^ 20) ∧
      ∀ i < 64, (∀ f : Fin 4, (sf w 0 4).testBit f.val = true → i ≠ (sf w 4 6 + f.val) % 64) → (t.b nn).ofU i = (d.b nn).ofU i) ∧
    (sOp w = 2 → sf w 9 1 = 0 → Completes (.updateSlot nn late) d fun t =>
      (t.b nn).opf = (d.b nn).opf ∧ ∀ l : Fin 3, if (sf w 0 3).testBit l.val then
          (legOf t (nn, l)).duty = (d.b nn).ofU (sf w 3 6 + l.val) ∧
          t.fld LcShadow.V (nn, l) = cmpOf ((d.b nn).ofU (sf w 3 6 + l.val)) (d.fld Pwm.PER nn) % 2 ^ 23
        else (legOf t (nn, l)).duty = (legOf d (nn, l)).duty ∧ t.fld LcShadow.V (nn, l) = d.fld LcShadow.V (nn, l)) ∧
    (sOp w = 2 → sf w 9 1 = 1 → Completes (.updateSlot nn late) d fun t =>
      (t.b nn).opf = (d.b nn).opf ∧ if (d.b nn).ofU (sf w 3 6) > 63 then
          t.bit PwmStat.PTERR nn = true ∧ (t.b nn).ptPend = (d.b nn).ptPend
        else (t.b nn).ptPend = some ((d.b nn).ofU (sf w 3 6)) ∧ t.bit PwmStat.PTPEND nn = true ∧ t.bit PwmStat.PTERR nn = d.bit PwmStat.PTERR nn) ∧
    (sOp w = 3 → Completes (.publishSlot nn late) d fun t =>
      (t.b nn).opf = (d.b nn).opf ∧ t.fld VbSeq.SEQ nn = (d.fld VbSeq.SEQ nn + 1) % 2 ^ 16 ∧
      (∀ j : Fin 16, t.fld VbV.VAL (nn, j) = if sf w 0 4 ≤ j.val ∧ j.val ≤ sf w 0 4 + sf w 4 4 then
        (d.b nn).ofU (sf w 8 6 + (j.val - sf w 0 4)) else d.fld VbV.VAL (nn, j)) ∧
      ∀ (k j : Fin 16), k ≠ nn → t.reg (VbV.addr (k, j)) = d.reg (VbV.addr (k, j)) ∧ t.reg (VbSeq.addr k) = d.reg (VbSeq.addr k)) ∧
    (sOp w = 4 → Completes (.consumeSlot nn late) d fun t =>
      let src : Fin 16 := ⟨sf w 0 4 % 16, Nat.mod_lt _ (by omega)⟩
      let value := fun (i : Nat) => boardVal d nn src ⟨(sf w 4 4 + i) % 16, Nat.mod_lt _ (by omega)⟩ % 2 ^ 20
      if sf w 8 1 = 1 then
        (t.b nn).ofU (sf w 9 6) = value 0 ∧ (t.b nn).ofU (sf w 9 6 + 1) = value 1 ∧
        ∀ i < 64, i ≠ sf w 9 6 → i ≠ (sf w 9 6 + 1) % 64 → (t.b nn).ofU i = (d.b nn).ofU i
      else (t.b nn).ofU (sf w 9 6) = value 0 ∧ ∀ i < 64, i ≠ sf w 9 6 → (t.b nn).ofU i = (d.b nn).ofU i) ∧
    (sOp w = 5 → Completes (.openSlot nn late) d fun t =>
      let win : Fin 32 := ⟨sf w 0 5 % 32, Nat.mod_lt _ (by omega)⟩
      (t.b nn).opf = (d.b nn).opf ∧ t.bit WStat.FRESH (rgnOf nn, win) = true ∧
      (pairB d (rgnOf nn) = none → t.fld WStat.OPENS (rgnOf nn, win) = (d.fld WStat.OPENS (rgnOf nn, win) + 1) % 2 ^ 16) ∧
      (sf w 11 5 = 0 → ∀ i : Fin 16, t.reg (WBuf.addr (rgnOf nn, win, i)) = d.reg (WBuf.addr (rgnOf nn, win, i))) ∧
      (sf w 11 5 ≠ 0 → ∀ i : Fin 16, (t.reg (WBuf.addr (rgnOf nn, win, i))).toNat =
        winPack (d.bit WCfg1.PACK (rgnOf nn, win)) ((List.range (sf w 11 5)).map fun j => (d.b nn).ofU (sf w 5 6 + j)) / 2 ^ (32 * i.val) % 2 ^ 32)) ∧
    (sOp w = 6 → Completes (.captureSlot nn late) d fun t =>
      let pair := sf w 5 6 / 2 * 2
      (∀ i < 64, i ≠ pair → i ≠ pair + 1 → (t.b nn).ofU i = (d.b nn).ofU i) ∧
      (t.b nn).ofPH pair = match sf w 0 2 with
        | 0 => ux 40 (encOf d nn).pos
        | 1 => domPH40 d (curHdr d nn).domain
        | 2 => domPH40 d ⟨sf w 2 3 % 8, Nat.mod_lt _ (by omega)⟩
        | _ => if d.bit PcCfg.WHAT nn then d.fld PcPhHi.V nn * 2 ^ 20 + d.fld PcPhLo.V nn
          else d.fld PcPosHi.V nn % 2 ^ 20 * 2 ^ 20 + d.fld PcPosLo.V nn) ∧
    (sOp w = 7 → Completes (.markSlot nn late) d fun t =>
      (t.b nn).opf = (d.b nn).opf ∧
      t.evq = (if sf w 17 1 = 1 then (d.raise (bkSrc nn 3) (sf w 0 16)).evq else d.evq) ∧
      (sf w 16 1 = 1 ∧ (d.fld TrcCfg.BLK ()).testBit nn.val = true ∧ d.trace.length < 65536 ∧ traceWaits d < 64 →
        t.trace = d.trace ++ [(BitVec.ofNat 32 (sf w 0 16 + nn.val * 2 ^ 16 + d.fld Rstat.SLOT nn * 2 ^ 21 + (curBank d nn).toNat * 2 ^ 29),
          BitVec.ofNat 32 (d.clk - d.patT), BitVec.ofNat 32 ((d.clk - d.patT) / 2 ^ 32),
          BitVec.ofNat 32 (d.fld BkStat.CYC nn + 65536 * d.tseq))]) ∧
      (sf w 16 1 = 0 ∨ (d.fld TrcCfg.BLK ()).testBit nn.val = false → t.trace = d.trace ∧ t.tseq = d.tseq))

/-- When a RUN slot of a SLEW cell executes in AUTO with no preset and no command pending, then with y its state and x its input in A48: y becomes y + clamp(x - y, -SDN, SUP), saturated to A48, and the entry of out0, when enabled, holds y narrowed to F20; no other entry of the operand file changes. SUP and SDN outside their range count as the nearest value inside it. A RAMP run arrives at x where distance and rate are at most RSTEP, and otherwise moves the rate by RSTEP within RMAX by the braking rule and y by the rate. FFSUM, with PROD too, gives its weighted sum within OLO and OHI, DROOP the droop law outside its dead band within its limits, BATLIM the request within the tapered charge and discharge currents, and its flag word. The product of three factors of PROD is exact but for one unit of 2^-32 (assumption log 14). (R220, R221, R226, R227, R228) -/
def Obligations.SlewFollowsItsRule : Prop :=
  (∀ (d : Dev) (nn : Fin 16) (late : Nat) (w : DWord) (m : Fin 12), unitBlk nn ∉ d.undef → slotNow d nn = some w →
    sOp w = 1 → kcIx (sf w 0 4) = m → d.fld KcCfg.KIND (nn, m) = 7 → fget 0 6 (d.reg (KcCtl.addr (nn, m))) = 0 →
    effMode d (nn, m) = 0 → d.bit KcStat.PRE (nn, m) = false →
    let sup := f2a (kpIn 0 (2 ^ 19 - 1) (kpS d (nn, m) 0))
    let sdn := f2a (kpIn 0 (2 ^ 19 - 1) (kpS d (nn, m) 1))
    let y := (kst d (nn, m)).s1
    let y' := satS 48 (y + clampI (-sdn) sup (f2a (kx d (nn, m) 0) - y))
    Completes (.runSlot nn late) d fun t =>
      (kst t (nn, m)).s1 = y' ∧
      ((d.fld KcIo1.OUTEN (nn, m)).testBit 0 = true → (t.b nn).ofS (d.fld KcIo1.OUT0 (nn, m)) = narrow y') ∧
      ∀ i < 64, (d.fld KcIo1.OUTEN (nn, m)).testBit 0 = false ∨ i ≠ d.fld KcIo1.OUT0 (nn, m) → (t.b nn).ofU i = (d.b nn).ofU i) ∧
  ∀ (d : Dev) (nn : Fin 16) (late : Nat) (w : DWord) (m : Fin 12),
    let k := (nn, m)
    let limIs := fun (t : Dev) (v lo hi : Int) => t.bit KcStat.LIMHI k = decide (hi < v) ∧ t.bit KcStat.LIMLO k = decide (v < lo)
    (AutoRun d nn m w 6 → Completes (.runSlot nn late) d fun t =>
      let rmax := f2a (kpIn 0 (2 ^ 19 - 1) (kpS d k 0))
      let step := f2a (kpIn 0 (2 ^ 19 - 1) (kpS d k 1))
      let y := (kst d k).s1
      let r := (kst d k).s2
      let dx := f2a (kx d k 0) - y
      let brake := r * r.natAbs + step * r
      (t.b nn).opf = ((kemit d k (narrow (kst t k).s1) (narrow (kst t k).s2) 0).b nn).opf ∧
      if (dx.natAbs : Int) ≤ step ∧ (r.natAbs : Int) ≤ step then (kst t k).s1 = f2a (kx d k 0) ∧ (kst t k).s2 = 0
      else (kst t k).s1 = satS 48 (y + (kst t k).s2) ∧
        (brake < 2 * step * dx → (kst t k).s2 = min (r + step) rmax) ∧
        (2 * step * dx < brake → (kst t k).s2 = max (r - step) (-rmax)) ∧
        (2 * step * dx = brake → (kst t k).s2 = r)) ∧
    (AutoRun d nn m w 13 → Completes (.runSlot nn late) d fun t =>
      ∃ p : Int, (if (d.fld KcCfg.VAR k).testBit 0 then NearQ p (kpS d k 0 * kx d k 0 * kx d k 1) (2 ^ 19)
          else p = kpS d k 0 * kx d k 0 + kpS d k 1 * kx d k 1) ∧
        let v := narrow (f2a (kpS d k 4) + p + kpS d k 2 * kx d k 2 + kpS d k 3 * kx d k 3)
        (t.b nn).opf = ((kemit d k (clampI (kpS d k 5) (kpS d k 6) v) 0 0).b nn).opf ∧ limIs t v (kpS d k 5) (kpS d k 6)) ∧
    (AutoRun d nn m w 14 → Completes (.runSlot nn late) d fun t =>
      let x := kx d k 0
      let db := kpS d k 2
      let ref := if (d.fld KcIo0.INEN k).testBit 1 then kx d k 1 else kpS d k 0
      let v := narrow (f2a ref - kpS d k 1 * if (x.natAbs : Int) ≤ db then 0 else if 0 < x then x - db else if x < 0 then x + db else 0)
      (t.b nn).opf = ((kemit d k (clampI (kpS d k 3) (kpS d k 4) v) 0 0).b nn).opf ∧ limIs t v (kpS d k 3) (kpS d k 4)) ∧
    (AutoRun d nn m w 15 → Completes (.runSlot nn late) d fun t =>
      let vb := kx d k 0
      let req := kx d k 1
      let g : Int := if (d.fld KcIo0.INEN k).testBit 2 then kx d k 2 else 2 ^ 19
      let fch := clampI 0 (2 ^ 32) ((kpS d k 0 - vb) * kpS d k 2)
      let fdi := clampI 0 (2 ^ 32) ((vb - kpS d k 1) * kpS d k 2)
      let ich := satF20 (rdiv (kpS d k 3 * g * fch) (2 ^ 51))
      let idi := satF20 (rdiv (kpS d k 4 * g * fdi) (2 ^ 51))
      let bit := fun (p : Bool) (v : Int) => if p then v else 0
      (t.b nn).opf = ((kemit d k (clampI (-idi) ich req) (bit (decide (ich < req)) 1 + bit (decide (req < -idi)) 2 +
        bit (decide ((0 < fch ∧ fch < 2 ^ 32) ∨ (0 < fdi ∧ fdi < 2 ^ 32))) 4) 0).b nn).opf)

/-- A RUN slot first carries out the cell's pending commands and leaves none. Without any pending: in FAULT and FROZEN outputs and state keep their values and RUNS its count; in AUTO, MAN and TRACK RUNS counts; MODE shows the mode. A controller in MAN or TRACK writes MANV or the tracked value, limited to its output limits, and clears PRE. A LIMIT cell in AUTO writes its input limited to LO and HI and shows which limit it met. An aborted kernel keeps outputs and state; the cell's FAULT, its bit of KSTAT.FAULT and FAULT_SEEN set, the block fault source is raised with INFO 3, and with FACT the quench latch holds CELLFAULT. With no command and no preset pending, a run in AUTO gives outputs and state by the rule of the kind: PI and PID with the anti-windup rule, LEADLAG, BIQUAD, LIMIT in its dynamic and vector variants, PARK, IPARK, PLL with its lock, GEAR with its extrapolation, and INTERP with the take, the end and the starving of segments. The pending commands are those of R232, the preset that of R230, the abort that of R213 and R382. Roundings that the rules leave open and the errors they allow are free values (assumption logs 1, 14, 15); the accumulator of GEAR is held exact to 2^-44 unit (assumption log 18). (R217, R218, R219, R222, R223, R224, R225, R229, R237, R242, R243, R245) -/
def Obligations.KernelRunsByMode : Prop :=
  (∀ (d : Dev) (nn : Fin 16) (late : Nat) (w : DWord) (m : Fin 12), unitBlk nn ∉ d.undef → slotNow d nn = some w →
    sOp w = 1 → kcIx (sf w 0 4) = m →
    (Completes (.runSlot nn late) d fun t => fget 0 6 (t.reg (KcCtl.addr (nn, m))) = 0 ∧ ∀ m', m' ≠ m → kst t (nn, m') = kst d (nn, m')) ∧
    (fget 0 6 (d.reg (KcCtl.addr (nn, m))) = 0 →
      (3 ≤ effMode d (nn, m) → Completes (.runSlot nn late) d fun t =>
        (t.b nn).opf = (d.b nn).opf ∧ (t.b nn).kern = (d.b nn).kern ∧
        t.reg (KcStat.addr (nn, m)) = (d.put KcStat.MODE (nn, m) (effMode d (nn, m))).reg (KcStat.addr (nn, m))) ∧
      (effMode d (nn, m) ≤ 2 → Completes (.runSlot nn late) d fun t =>
        t.fld KcStat.MODE (nn, m) = effMode d (nn, m) ∧ t.fld KcStat.RUNS (nn, m) = (d.fld KcStat.RUNS (nn, m) + 1) % 2 ^ 16 ∧
        t.bit KcStat.MANSEL (nn, m) = d.bit KcStat.MANSEL (nn, m) ∧ t.bit KcStat.FAULT (nn, m) = false) ∧
      (∀ kind, d.fld KcCfg.KIND (nn, m) = kind → isController kind = true → effMode d (nn, m) = 1 ∨ effMode d (nn, m) = 2 →
        Completes (.runSlot nn late) d fun t =>
          let v := if effMode d (nn, m) = 1 then d.sfld KcManv.V (nn, m) else trkVal d (nn, m)
          let lim := kLimits d (nn, m) kind
          t.bit KcStat.PRE (nn, m) = false ∧ t.bit KcStat.LIMHI (nn, m) = decide (lim.2 < v) ∧ t.bit KcStat.LIMLO (nn, m) = decide (v < lim.1) ∧
          ((d.fld KcIo1.OUTEN (nn, m)).testBit 0 = true → (t.b nn).ofS (d.fld KcIo1.OUT0 (nn, m)) = clampI lim.1 lim.2 v)) ∧
      (d.fld KcCfg.KIND (nn, m) = 5 → d.fld KcCfg.VAR (nn, m) % 4 = 0 ∨ d.fld KcCfg.VAR (nn, m) % 4 = 3 → effMode d (nn, m) = 0 →
        Completes (.runSlot nn late) d fun t =>
          let x := kx d (nn, m) 0
          t.bit KcStat.LIMHI (nn, m) = decide (kpS d (nn, m) 1 < x) ∧ t.bit KcStat.LIMLO (nn, m) = decide (x < kpS d (nn, m) 0) ∧
          ((d.fld KcIo1.OUTEN (nn, m)).testBit 0 = true →
            (t.b nn).ofS (d.fld KcIo1.OUT0 (nn, m)) = clampI (kpS d (nn, m) 0) (kpS d (nn, m) 1) x)) ∧
      ∀ parity, Completes (.kernelAbort nn parity late) d fun t =>
        (t.b nn).opf = (d.b nn).opf ∧ (t.b nn).kern = (d.b nn).kern ∧ t.bit KcStat.FAULT (nn, m) = true ∧
        (t.fld Kstat.FAULT nn).testBit m.val = true ∧ t.bit Kstat.FAULT_SEEN nn = true ∧
        ⟨d.clk, bkSrc nn 21, true, 3, false⟩ ∈ t.evq ∧
        (d.bit KcCfg.FACT (nn, m) = true → t.bit Qstat.LATCH nn = true ∧ (t.fld Qcause.CAUSE nn).testBit 10 = true))) ∧
  ∀ (d : Dev) (nn : Fin 16) (late : Nat) (w : DWord) (m : Fin 12),
    let k := (nn, m)
    let s := kst d k
    let var := fun (j : Nat) => (d.fld KcCfg.VAR k).testBit j
    let outs := fun (t : Dev) (a b c : Int) => (t.b nn).opf = ((kemit d k a b c).b nn).opf
    let limIs := fun (t : Dev) (v lo hi : Int) => t.bit KcStat.LIMHI k = decide (hi < v) ∧ t.bit KcStat.LIMLO k = decide (v < lo)
    let coef := fun (q : Int) (c csh : Fin 16) (x : Int) => NearQ q (kpS d k c * x * 2 ^ min (kpU d k csh) 3) 64
    (∀ kind, kind = 1 ∨ kind = 2 → AutoRun d nn m w kind → Completes (.runSlot nn late) d fun t =>
      let err := fun (x : Int) => satF20 (scale2 x (-1 - clampI (-20) 11 (kpS d k 6)))
      let e := if var 0 then err (kxp d k 0 - kxp d k 1) else satF20 (kx d k 0 - kx d k 1)
      let dy := if var 0 then err (s.yPrev - kxp d k 1) else s.yPrev - kx d k 1
      let x3 : Int := (kx d k 3).natAbs
      let lo := if var 1 then satF20 (-x3) else kpS d k 2
      let hi := if var 1 then satF20 x3 else kpS d k 3
      let ki := kpS d k 1 * e
      let ti := clampI (f2a (kpS d k 4)) (f2a (kpS d k 5)) (s.s1 + ki)
      ∃ a : Int, (kind = 2 → NearQ a (clampI 0 (2 ^ 19 - 1) (kpS d k 8) * (kpS d k 7 * dy - s.s2)) (2 ^ 19)) ∧
        let df := if kind = 2 then satS 48 (s.s2 + a) else 0
        let u := fun (i : Int) => kpS d k 0 * e + i + df + f2a (kx d k 2)
        let stuck := (hi < narrow (u ti) ∧ 0 < ki) ∨ (narrow (u ti) < lo ∧ ki < 0)
        let i := if stuck then s.s1 else ti
        (kst t k).s1 = satS 48 i ∧ (kind = 2 → (kst t k).s2 = df ∧ (kst t k).yPrev = (if var 0 then kxp d k 1 else kx d k 1)) ∧
        outs t (clampI lo hi (narrow (u i))) 0 0 ∧ limIs t (narrow (u i)) lo hi) ∧
    (AutoRun d nn m w 3 → Completes (.runSlot nn late) d fun t => ∃ a b c : Int, coef a 0 3 (kx d k 0) ∧
      let y := clampI (kpS d k 4) (kpS d k 5) (narrow (a + s.s1))
      coef b 1 3 (kx d k 0) ∧ coef c 2 3 y ∧ (kst t k).s1 = satS 48 (b - c) ∧ outs t y 0 0 ∧ limIs t (narrow (a + s.s1)) (kpS d k 4) (kpS d k 5)) ∧
    (AutoRun d nn m w 4 → Completes (.runSlot nn late) d fun t => ∃ a b c e g : Int, coef a 0 5 (kx d k 0) ∧
      let y := clampI (kpS d k 6) (kpS d k 7) (narrow (a + s.s1))
      coef b 1 5 (kx d k 0) ∧ coef c 3 5 y ∧ coef e 2 5 (kx d k 0) ∧ coef g 4 5 y ∧
      (kst t k).s1 = satS 48 (b - c + s.s2) ∧ (kst t k).s2 = satS 48 (e - g) ∧ outs t y 0 0 ∧ limIs t (narrow (a + s.s1)) (kpS d k 6) (kpS d k 7)) ∧
    (AutoRun d nn m w 5 → d.fld KcCfg.VAR k % 4 = 1 → Completes (.runSlot nn late) d fun t =>
      outs t (if kx d k 2 < kx d k 1 then kx d k 2 else clampI (kx d k 1) (kx d k 2) (kx d k 0)) 0 0) ∧
    (AutoRun d nn m w 5 → d.fld KcCfg.VAR k % 4 = 2 → Completes (.runSlot nn late) d fun t =>
      let mag := clampI 0 (2 ^ 19 - 1) (kpS d k 2)
      let o0 := clampI (-mag) mag (kx d k 0)
      ∃ m1 : Int, 0 ≤ m1 ∧ (mag = 0 → m1 = 0) ∧ (m1 - 2) * |m1 - 2| ≤ mag * mag - o0 * o0 ∧ mag * mag - o0 * o0 ≤ (m1 + 2) * (m1 + 2) ∧
        outs t o0 (satF20 (clampI (-m1) m1 (kx d k 1))) 0) ∧
    (AutoRun d nn m w 8 → Completes (.runSlot nn late) d fun t => ∃ be e1 e2 dd qq al : Int,
      let x : Int := if kinEn d k 3 then (if var 1 then ((d.b nn).ofPH (kin d k 3) : Int) else (d.b nn).ofP (kin d k 3)) else 0
      let u := ux 44 (x * kpL d k 0 + kpU d k 1 * 2 ^ 24)
      (if var 0 then NearQ al (f2a (2 * kx d k 0 - kx d k 1 - kx d k 2)) 3 ∧ NearRt3 be (f2a (kx d k 1 - kx d k 2))
        else al = f2a (kx d k 0) ∧ NearRt3 be (f2a (kx d k 0 + 2 * kx d k 1))) ∧
      NearQ dd (al * cosFree u e1 + be * sinFree u e2) (2 ^ 19) ∧ NearQ qq (be * cosFree u e1 - al * sinFree u e2) (2 ^ 19) ∧
      outs t (narrow dd) (narrow qq) (ux 20 (rdiv u (2 ^ 24)))) ∧
    (AutoRun d nn m w 9 → koutEn d k 0 = true → Completes (.runSlot nn late) d fun t => ∃ e1 e2 va vbe half h z ea eb ec : Int,
      let th := if kinEn d k 2 then (d.b nn).ofU (kin d k 2) else 0
      let om := if s.fresh then 0 else sx 20 (ux 20 ((th : Int) - s.th))
      let u := ux 44 (th * 2 ^ 24 + kpS d k 0 * om * 2 ^ 11)
      let vd := f2a (kx d k 0)
      let vq := f2a (kx d k 1)
      let vb := h - half
      let vc := -half - h
      let vmin := clampI 1 (2 ^ 19 - 1) (kpS d k 1)
      let dc := max (kx d k 3) vmin
      NearQ va (vd * cosFree u e1 - vq * sinFree u e2) (2 ^ 19) ∧ NearQ vbe (vd * sinFree u e2 + vq * cosFree u e1) (2 ^ 19) ∧
      NearQ half va 2 ∧ NearHalfRt3 h vbe ∧
      (if var 0 then NearQ (-z) (max va (max vb vc) + min va (min vb vc)) 2 else z = 0) ∧
      (kst t k).th = th ∧ (kst t k).fresh = false ∧ (kx d k 3 < vmin → t.bit KcStat.KFLAG k = true) ∧
      (vmin ≤ kx d k 3 → t.bit KcStat.KFLAG k = d.bit KcStat.KFLAG k) ∧
      (t.b nn).opf = ((((d.b nn).putS (kout d k 0) (ipDuty (va + z) dc ea)).putS (kout d k 0 + 1) (ipDuty (vb + z) dc eb)).putS (kout d k 0 + 2) (ipDuty (vc + z) dc ec)).opf) ∧
    (AutoRun d nn m w 10 → Completes (.runSlot nn late) d fun t => ∃ al be e1 e2 dd qq di pq dw : Int,
      let u := s.th * 2 ^ 12
      let ik := satS 48 (s.s2 + di)
      let wf := (kpW d k 2 : Int) + dw
      let clamped := wf < kpW d k 3 ∨ (kpW d k 4 : Int) < wf
      let f := clampI (kpW d k 3) (kpW d k 4) wf
      let full := s.th + f.toNat
      let n := (clampI 1 255 (kpU d k 6)).toNat
      let good := if ((narrow qq).natAbs : Int) ≤ kpS d k 5 then min (s.good + 1) n else 0
      let bad := if 2 * kpS d k 5 < (narrow qq).natAbs then min (s.bad + 1) n else 0
      let low := if narrow dd < kpS d k 8 then min (s.low + 1) 2 else 0
      NearQ al (f2a (2 * kx d k 0 - kx d k 1 - kx d k 2)) 3 ∧ NearRt3 be (f2a (kx d k 1 - kx d k 2)) ∧
      NearQ dd (al * cosFree u e1 + be * sinFree u e2) (2 ^ 19) ∧ NearQ qq (be * cosFree u e1 - al * sinFree u e2) (2 ^ 19) ∧
      NearQ di (kpS d k 1 * qq) (2 ^ 13) ∧ NearQ pq (kpS d k 0 * qq) (2 ^ 13) ∧ NearQ dw (pq + ik) (2 ^ 12) ∧
      (kst t k).s1 = f ∧ (kst t k).s2 = (if clamped then s.s2 else ik) ∧ (kst t k).th = full % 2 ^ 32 ∧ (kst t k).wraps = (s.wraps + full / 2 ^ 32) % 2 ^ 20 ∧
      (kst t k).good = good ∧ (kst t k).bad = bad ∧ (kst t k).low = low ∧
      t.bit KcStat.LOCK k = (if bad = n ∨ low = 2 ∨ clamped then false else if good = n then true else d.bit KcStat.LOCK k) ∧
      (d.bit KcStat.LOCK k = true → t.bit KcStat.LOCK k = false → t.bit KcStat.KFLAG k = true ∧ ∃ x ∈ t.evq, x.clk = d.clk ∧ x.src = bkSrc nn 2 ∧ x.assert = true) ∧
      (t.b nn).opf = ((kemitP d k ((kst t k).wraps * 2 ^ 20 + (kst t k).th / 2 ^ 12) (clampI 0 (2 ^ 20 - 1) (rdiv (f * kpU d k 7 * 16) (2 ^ 32))) (narrow dd)).b nn).opf) ∧
    (AutoRun d nn m w 11 → Completes (.runSlot nn late) d fun t =>
      let mp := kxp d k 0
      let ext := mp = s.mLast ∧ s.dm ≠ 0 ∧ s.x < min (kpU d k 3) 3
      let dm := if ext then s.dm else mp - s.mPrev
      let acc := satS 64 (s.s1 + kpL d k 0 * dm)
      (kst t k).s1 = acc ∧ (kst t k).dm = dm ∧ (kst t k).mPrev = satP40 (s.mPrev + dm) ∧ (kst t k).mLast = mp ∧
      (kst t k).x = (if ext then s.x + 1 else if mp = s.mLast then s.x else 0) ∧ t.bit KcStat.KFLAG k = (d.bit KcStat.KFLAG k || decide ext) ∧
      (t.b nn).opf = ((kemitP d k (satP40 (rdiv (acc * 2 ^ 13 + kpL d k 0 * kpS d k 1 * dm) (2 ^ 37))) (satF20 (rdiv (kpL d k 0 * dm * kpS d k 2) (2 ^ 38))) 0).b nn).opf) ∧
    (AutoRun d nn m w 12 →
      let fill := (d.fld SegWr.WR nn + 64 - d.fld SegRd.RD nn) % 64
      let g := d.fld SegRd.RD nn
      let x := segW d nn g
      let idle := fun (t : Dev) => (t.b nn).opf = ((kemitP d k (satP40 (rdiv s.pos (2 ^ 12))) 0 s.tag).b nn).opf ∧ kst t k = { kst t k with pos := s.pos, rem := 0 }
      let move := fun (t : Dev) (dwell last : Bool) (d1 d2 d3 pend : Int) (rem tag : Nat) (more : Bool) =>
        let p1 := if dwell then s.pos else satS 52 (s.pos + d1)
        let v1 := if dwell then d1 else satS 48 (d1 + d2)
        (kst t k).rem = rem - 1 ∧ (kst t k).s1 = v1 ∧ (kst t k).pos = (if rem = 1 then pend else p1) ∧
        (dwell = false → (kst t k).d2 = satS 48 (d2 + d3)) ∧
        (rem = 1 → t.fld SegRd.DONE nn = (d.fld SegRd.DONE nn + 1) % 2 ^ SegRd.DONE.len ∧ t.bit SegStat.ACTIVE nn = false ∧
          (kpU d k 1 * 2 ^ 12 < (p1 - pend).natAbs → t.bit SegStat.SEGERR nn = true) ∧
          (last = false → more = false → t.bit SegStat.STARVE nn = true ∧ t.bit KcStat.KFLAG k = true ∧
            ∃ x ∈ t.evq, x.clk = d.clk ∧ x.src = bkSrc nn 2 ∧ x.assert = true) ∧
          (last = true ∨ more = true → t.bit SegStat.STARVE nn = d.bit SegStat.STARVE nn)) ∧
        (t.b nn).opf = ((kemitP d k (satP40 (rdiv (kst t k).pos (2 ^ 12))) (if dwell then 0 else satF20 (rdiv (v1 * kpS d k 0) (2 ^ 26))) tag).b nn).opf
      (s.rem = 0 → fill = 0 → Completes (.runSlot nn late) d fun t => idle t ∧ t.fld SegRd.RD nn = g) ∧
      (s.rem = 0 → fill ≠ 0 → x 0 / 2 ^ 20 % 4 = 3 ∨ x 0 % 2 ^ 20 = 0 → Completes (.runSlot nn late) d fun t =>
        idle t ∧ t.fld SegRd.RD nn = (g + 1) % 64 ∧ t.bit SegStat.SEGERR nn = true) ∧
      (s.rem = 0 → fill ≠ 0 → x 0 / 2 ^ 20 % 4 ≠ 3 → x 0 % 2 ^ 20 ≠ 0 → Completes (.runSlot nn late) d fun t =>
        let typ := x 0 / 2 ^ 20 % 4
        let cubic := fun (v : Int) => if typ = 1 then v else 0
        t.fld SegRd.RD nn = (g + 1) % 64 ∧ t.fld SegStat.TAG nn = x 0 / 2 ^ 24 ∧
        move t (typ == 2) ((x 0).testBit 22) (if typ = 2 then 0 else sx 48 (x 3 + x 4 % 2 ^ 16 * 2 ^ 32)) (cubic (sx 48 (x 4 / 2 ^ 16 + x 5 * 2 ^ 16)))
          (cubic (sx 48 (x 6 + x 7 % 2 ^ 16 * 2 ^ 32))) ((sx 20 (x 1) * 2 ^ 20 + (x 2 % 2 ^ 20 : Nat)) * 2 ^ 12) (x 0 % 2 ^ 20) (x 0 / 2 ^ 24) (decide (fill ≠ 1))) ∧
      (0 < s.rem → Completes (.runSlot nn late) d fun t =>
        t.fld SegRd.RD nn = g ∧ move t s.dwell s.lastSeg s.s1 s.d2 s.d3 s.pend s.rem s.tag (decide (fill ≠ 0))))

/-- At a cycle start of a block in ARMED, RUN or QUENCHED whose runner memory is sound and that neither holds nor waits for its fallback bank: with the last cycle complete and no swap waiting it is executed - CYC counts, WDLIM follows RATE_MAX, the board is copied for the cycle, a waiting COMMIT is carried out, and the mapped entries take the live set-points; with a cycle still running it is missed - MISS counts, MISS_SEEN is set, MISSRUN counts to 2 and the third in a row quenches with OVERSPEED. A host SWAP that has waited one start, or a trigger request, changes BANK, counts, and ends a stall without RECOV_SEEN; the host request wins over the trigger; a request for the bank in use has no effect and one with an invalid target domain is discarded with SWAP_REF. A return request wins over both once its bank's own cycle start is at most one of its cycles away. A pending ARM makes HELD ARMED, a pending RUN makes ARMED RUN, a pending DISARM with no cycle running makes HELD. In OFF, during RESET, re-pour or rewrite, and in HOLD nothing happens, but that the instant is kept for mirrored writes. A COMMIT or ARM rewritten in this clk runs again (R10). No other block changes. When a return request counts as pending at a cycle start is the model's choice (assumption log 97). (R10, R85, R129, R136, R137, R138, R168, R169, R173, R176, R235, R379) -/
def Obligations.CycleStarts : Prop :=
  ∀ (d : Dev) (nn : Fin 16), unitBlk nn ∉ d.undef →
    let d1 := d.onB nn fun b => { b with cycT := some d.clk }
    (Completes (.cycleStart nn) d fun t => ∀ k, k ≠ nn → t.b k = d.b k) ∧
    ((d.b nn).resetting = true ∨ (d.b nn).repouring = true ∨ d.fld BkStat.STATE nn = 0 ∨
        (d.fld BkStat.STATE nn = 1 ∧ d.bit BkCtl.ARM nn = false) → Gives (.cycleStart nn) d d1) ∧
    ((d.b nn).resetting = false → (d.b nn).repouring = false → d.fld BkStat.STATE nn = 1 → d.bit BkCtl.ARM nn = true →
      d.bit BkCtl.RUN nn = false → Completes (.cycleStart nn) d fun t =>
        t.fld BkStat.STATE nn = 2 ∧ t.bit BkCtl.ARM nn = false ∧ (t.b nn).hostStart = none ∧ t.bit TwBk.NOCMP nn = false ∧
        (d.cmdRedo BkCtl.ARM nn = true → t.bit BkStat.REFUSED nn = true ∧ t.fld BkStat.REASON nn = 1)) ∧
    ((d.b nn).resetting = false → (d.b nn).repouring = false → 2 ≤ d.fld BkStat.STATE nn → d.fld BkStat.STATE nn ≤ 4 →
      ((d.b nn).disarm = true → (d.b nn).inCycle = false → Completes (.cycleStart nn) d fun t =>
        t.fld BkStat.STATE nn = 1 ∧ t.bit BkCtl.DISARM nn = false ∧ (t.b nn).disarm = false) ∧
      ((d.b nn).disarm = false → (d.b nn).rewrite = true ∨ d.bit Pstat.HOLD nn = true ∨
          ((d.b nn).awaitBank = true ∧ (d.b nn).swFall.isSome = true ∧ (d.b nn).stalled = some (curBank d nn)) → Gives (.cycleStart nn) d d1) ∧
      ((d.b nn).rewrite = false → (d.b nn).disarm = false → d.bit Pstat.HOLD nn = false → (d.b nn).swFall = none →
        (d.fld BkStat.STATE nn = 2 → d.bit BkCtl.RUN nn = true → (d.b nn).swHost = none → (d.b nn).swTrig = none →
          d.fld Pstat.MISSRUN nn < 2 ∨ (d.b nn).inCycle = false → Completes (.cycleStart nn) d fun t =>
          t.fld BkStat.STATE nn = 3 ∧ t.bit BkCtl.RUN nn = false) ∧
        ((d.b nn).inCycle = false → (d.b nn).swHost = none → (d.b nn).swTrig = none → Completes (.cycleStart nn) d fun t =>
          t.fld BkStat.CYC nn = (d.fld BkStat.CYC nn + 1) % 2 ^ 16 ∧ t.fld Wdog.WDLIM nn = wdLimit d nn % 2 ^ 20 ∧
          (t.b nn).snap = (d.r (rgnOf nn)).vbArr ∧ t.bit HspCtl.COMMIT nn = (d.bit HspCtl.COMMIT nn && d.cmdRedo HspCtl.COMMIT nn) ∧ t.bit BkStat.BANK nn = d.bit BkStat.BANK nn ∧
          t.bit Pstat.OVS nn = decide ((curHdr d nn).rateMax * 16 < blkRate d nn (curBank d nn)) ∧
          (d.bit HspCtl.COMMIT nn = true → ∀ j : Fin 8, vget (t.b nn).live j = BitVec.ofNat 20 (d.fld Hsp.V (nn, j))) ∧
          ((d.fld HspMap0.EN nn = 1) → (t.b nn).ofU (d.fld HspMap0.E0 nn) = (vget (t.b nn).live 0).toNat)) ∧
        ((d.b nn).inCycle = true → Completes (.cycleStart nn) d fun t =>
          t.fld Pstat.MISS nn = (d.fld Pstat.MISS nn + 1) % 2 ^ 16 ∧ t.bit Pstat.MISS_SEEN nn = true ∧
          t.fld Pstat.MISSRUN nn = min (d.fld Pstat.MISSRUN nn + 1) 2 ∧ t.fld BkStat.CYC nn = d.fld BkStat.CYC nn ∧
          (d.fld Pstat.MISSRUN nn ≥ 2 → t.bit Qstat.LATCH nn = true ∧ (t.fld Qcause.CAUSE nn).testBit 8 = true) ∧
          (d.fld Pstat.MISSRUN nn < 2 → t.reg (Qstat.addr nn) = d.reg (Qstat.addr nn) ∧ t.reg (Qcause.addr nn) = d.reg (Qcause.addr nn))) ∧
        (∀ x, (d.b nn).inCycle = false → (d.b nn).awaitBank = false → (d.b nn).swHost = some x → (d.b nn).swWait = false →
          x ≠ curBank d nn → domValid d (hdrOf d nn x).domain = true → Completes (.cycleStart nn) d fun t =>
          t.bit BkStat.BANK nn = x ∧ t.fld Rcnt.SWAP nn = (d.fld Rcnt.SWAP nn + 1) % 2 ^ 16 ∧ t.fld Rstat.LAST_SRC nn = 1 ∧
          t.bit Rctl.SWAP nn = false ∧ (t.b nn).swHost = none ∧ t.bit Pstat.STALL nn = false ∧ (t.b nn).stalled = none ∧
          t.bit Pstat.RECOV_SEEN nn = d.bit Pstat.RECOV_SEEN nn ∧ (t.b nn).swTrig = none ∧
          t.bit Rstat.SWAP_REF nn = (d.bit Rstat.SWAP_REF nn || ((d.b nn).swTrig == some x))) ∧
        (∀ x, (d.b nn).inCycle = false → (d.b nn).swHost = none → (d.b nn).swTrig = some x → x ≠ curBank d nn →
          domValid d (hdrOf d nn x).domain = true → Completes (.cycleStart nn) d fun t =>
          t.bit BkStat.BANK nn = x ∧ t.fld Rcnt.SWAP nn = (d.fld Rcnt.SWAP nn + 1) % 2 ^ 16 ∧ t.fld Rstat.LAST_SRC nn = 2 ∧ (t.b nn).swTrig = none ∧
          t.bit Rstat.SWAP_REF nn = d.bit Rstat.SWAP_REF nn ∧ t.bit Pstat.STALL nn = false ∧ (t.b nn).stalled = none ∧
          t.bit Pstat.RECOV_SEEN nn = d.bit Pstat.RECOV_SEEN nn) ∧
        (∀ x, (d.b nn).inCycle = false → ((d.b nn).swHost = some x ∧ (d.b nn).swWait = false ∧ (d.b nn).swTrig = none) ∨
            ((d.b nn).swHost = none ∧ (d.b nn).swTrig = some x) → x = curBank d nn ∨ domValid d (hdrOf d nn x).domain = false →
          Completes (.cycleStart nn) d fun t => t.bit BkStat.BANK nn = d.bit BkStat.BANK nn ∧ t.fld Rcnt.SWAP nn = d.fld Rcnt.SWAP nn ∧
          (t.b nn).swHost = none ∧ (t.b nn).swTrig = none ∧ ((d.b nn).swHost.isSome = true → t.bit Rctl.SWAP nn = false) ∧
          t.bit Rstat.SWAP_REF nn = (d.bit Rstat.SWAP_REF nn || x != curBank d nn))) ∧
      ((d.b nn).rewrite = false → (d.b nn).disarm = false → d.bit Pstat.HOLD nn = false → (d.b nn).inCycle = false →
        ∀ x, (d.b nn).swFall = some x → (d.b nn).stalled ≠ some (curBank d nn) → x ≠ curBank d nn →
          ((2 ^ 20 - blkPhase d nn x) * 16 * (hdrOf d nn x).rateMax ≤ 2 ^ 20 * blkRate d nn x → Completes (.cycleStart nn) d fun t =>
            t.bit BkStat.BANK nn = x ∧ t.fld Rstat.LAST_SRC nn = 3 ∧ t.fld Rcnt.SWAP nn = (d.fld Rcnt.SWAP nn + 1) % 2 ^ 16 ∧ (t.b nn).swFall = none ∧ (t.b nn).swTrig = none ∧
            (((d.b nn).swHost = some x ∧ (d.b nn).swWait = false) ∨ (d.b nn).swTrig = some x → t.bit Rstat.SWAP_REF nn = true)) ∧
          (2 ^ 20 * blkRate d nn x < (2 ^ 20 - blkPhase d nn x) * 16 * (hdrOf d nn x).rateMax → (d.b nn).swHost = none → (d.b nn).swTrig = none →
            Completes (.cycleStart nn) d fun t => t.bit BkStat.BANK nn = d.bit BkStat.BANK nn ∧ (t.b nn).swFall = some x)))

/-- A watchdog trip while a cycle runs ends it with the pointer at slot 0: WDCNT and FLTCNT count, WD_SEEN is set, WDRUN counts to 2, the block fault source is raised with INFO 1, the compare values stay, and the third in a row quenches with WDOG. Outside a cycle it does nothing. A corrected runner memory error counts CE; one found by a host read counts UE; one found by a fetch counts UE, sets UE_B and MEMERR, stops the runner for the rewrite and quenches with RUNMEM; the end of the rewrite lets it resume. A stall declared in ARMED, RUN or QUENCHED clears MISSRUN and sets STALL and STALL_SEEN: with a fallback bank the cycle is flushed and the swap requested, without one HOLD sets, as it does for a fallback bank in use. The fallback swap changes BANK with LAST_SRC 3; under HOLD a host request with a valid domain takes effect there, with LAST_SRC 1, and ends the stall and the hold. A recovery clears STALL (but not where a fallback bank under HOLD recovers), sets RECOV_SEEN, ends HOLD or requests the return; before the fallback swap has taken effect it does nothing. That last clause is deduced (assumption log 101). (R127, R171, R172, R173, R175, R176, R379, R380, R383) -/
def Obligations.RunnerFaultsAndStalls : Prop :=
  ∀ (d : Dev) (nn : Fin 16), unitBlk nn ∉ d.undef →
    (runnerOn d nn = false ∨ (d.b nn).inCycle = false → Gives (.watchdogTrip nn) d d) ∧
    (runnerOn d nn = true → (d.b nn).inCycle = true → Completes (.watchdogTrip nn) d fun t =>
      t.fld Rstat.SLOT nn = 0 ∧ (t.b nn).inCycle = false ∧ t.fld Wdog.WDCNT nn = min (d.fld Wdog.WDCNT nn + 1) 255 ∧
      t.bit Wdog.WD_SEEN nn = true ∧ t.fld Wdog.WDRUN nn = min (d.fld Wdog.WDRUN nn + 1) 2 ∧
      t.fld FltCnt.WDTRIP () = min (d.fld FltCnt.WDTRIP () + 1) (2 ^ FltCnt.WDTRIP.len - 1) ∧
      ⟨d.clk, bkSrc nn 21, true, 1, false⟩ ∈ t.evq ∧ (∀ l, t.reg (LcShadow.addr (nn, l)) = d.reg (LcShadow.addr (nn, l))) ∧
      (d.fld Wdog.WDRUN nn ≥ 2 → t.bit Qstat.LATCH nn = true ∧ (t.fld Qcause.CAUSE nn).testBit 9 = true ∧
        ⟨d.clk, bkSrc nn 21, true, 2, false⟩ ∈ t.evq) ∧
      (d.fld Wdog.WDRUN nn < 2 → t.reg (Qstat.addr nn) = d.reg (Qstat.addr nn)) ∧ ∀ k, k ≠ nn → t.b k = d.b k) ∧
    Gives (.runmemError nn .corrected) d (d.incSat RmStat.CE (rgnOf nn)) ∧
    Gives (.runmemError nn .hostRead) d (d.incSat RmStat.UE (rgnOf nn)) ∧
    (hasSec d nn = false → Gives (.runmemError nn .fetch) d d) ∧
    (hasSec d nn = true → (d.b nn).rewrite = false → (d.b nn).rmSpan = false → Completes (.runmemError nn .fetch) d fun t =>
      t.fld RmStat.UE (rgnOf nn) = min (d.fld RmStat.UE (rgnOf nn) + 1) 255 ∧ (t.fld RmStat.UE_B (rgnOf nn)).testBit (posOf nn).val = true ∧
      t.bit Rstat.MEMERR nn = true ∧ (t.b nn).rewrite = true ∧ (t.b nn).inCycle = false ∧ runnerOn t nn = false ∧
      t.bit Qstat.LATCH nn = true ∧ (t.fld Qcause.CAUSE nn).testBit 11 = true ∧
      (d.fld BkStat.STATE nn = 2 ∨ d.fld BkStat.STATE nn = 3 → t.fld BkStat.STATE nn = 4) ∧
      ⟨d.clk, bkSrc nn 21, true, 4, false⟩ ∈ t.evq ∧ ∀ k, k ≠ nn → t.b k = d.b k) ∧
    (hasSec d nn = true → d.failT = false → (d.b nn).rewrite = true ∨ (d.b nn).rmSpan = true → Completes (.runmemError nn .fetch) d fun t =>
      t.fld Fail.CAUSE () = 3 ∧ t.bit Qstat.LATCH nn = true) ∧
    Gives (.runmemRewriteDone nn) d
      (if (d.b nn).rewrite = true ∧ d.failT = false then d.onB nn fun b => { b with rewrite := false, rmSpan := true } else d) ∧
    Gives (.runmemSpanExpire nn) d (d.onB nn fun b => { b with rmSpan := false }) ∧
    (2 ≤ d.fld BkStat.STATE nn → d.fld BkStat.STATE nn ≤ 4 → (hdrOf d nn (curBank d nn)).rateMin ≠ 0 → d.bit Pstat.HOLD nn = false →
      (d.b nn).stalled = none → Completes (.stallDeclared nn) d fun t =>
        OnlyBlock nn [Pstat.addr nn, Rstat.addr nn] d t ∧ t.fld Pstat.MISSRUN nn = 0 ∧ t.bit Pstat.STALL nn = true ∧
        t.bit Pstat.STALL_SEEN nn = true ∧ (t.b nn).stalled = some (curBank d nn) ∧
        if hasFallback d nn (curBank d nn) then
          (t.b nn).swFall = some (!curBank d nn) ∧ (t.b nn).flushing = (d.b nn).inCycle ∧ t.bit Pstat.HOLD nn = d.bit Pstat.HOLD nn ∧
          t.bit Rstat.SWAP_PEND nn = true
        else t.bit Pstat.HOLD nn = true ∧ (t.b nn).inCycle = (d.b nn).inCycle) ∧
    (2 ≤ d.fld BkStat.STATE nn → d.fld BkStat.STATE nn ≤ 4 → (hdrOf d nn (curBank d nn)).rateMin ≠ 0 → d.bit Pstat.HOLD nn = false →
      (d.b nn).stalled = some (!curBank d nn) → (d.b nn).swFall = none → Completes (.stallDeclared nn) d fun t =>
        OnlyBlock nn [Pstat.addr nn, Rstat.addr nn] d t ∧ t.fld Pstat.MISSRUN nn = 0 ∧ t.bit Pstat.STALL nn = true ∧
        t.bit Pstat.STALL_SEEN nn = true ∧ t.bit Pstat.HOLD nn = true ∧ (t.b nn).stalled = (d.b nn).stalled) ∧
    (∀ b, runnerOn d nn = true → d.bit Pstat.HOLD nn = false → (d.b nn).inCycle = false → (d.b nn).swFall = some b →
      (d.b nn).awaitBank = true → (d.b nn).stalled = some (!b) → b ≠ curBank d nn → Completes (.fallbackSwap nn) d fun t =>
        t.bit BkStat.BANK nn = b ∧ t.fld Rstat.LAST_SRC nn = 3 ∧ t.fld Rcnt.SWAP nn = (d.fld Rcnt.SWAP nn + 1) % 2 ^ 16 ∧
        (t.b nn).awaitBank = true ∧ (t.b nn).swFall = none ∧ (t.b nn).swHost = none ∧ (t.b nn).swTrig = none ∧
        ((d.b nn).swHost.isSome = true → t.bit Rstat.SWAP_REF nn = true ∧ t.bit Rctl.SWAP nn = false) ∧
        (∀ l, t.reg (LcShadow.addr (nn, l)) = d.reg (LcShadow.addr (nn, l))) ∧ ∀ k, k ≠ nn → t.b k = d.b k) ∧
    (∀ x, runnerOn d nn = true → d.bit Pstat.HOLD nn = true → (d.b nn).swHost = some x →
      (x ≠ curBank d nn → domValid d (hdrOf d nn x).domain = true → Completes (.fallbackSwap nn) d fun t =>
        t.bit BkStat.BANK nn = x ∧ t.fld Rstat.LAST_SRC nn = 1 ∧ t.bit Pstat.HOLD nn = false ∧ t.bit Pstat.STALL nn = false ∧
        t.bit Pstat.RECOV_SEEN nn = d.bit Pstat.RECOV_SEEN nn ∧ (t.b nn).awaitBank = true ∧ (t.b nn).swHost = none ∧ t.bit Rctl.SWAP nn = false) ∧
      (domValid d (hdrOf d nn x).domain = false → Completes (.fallbackSwap nn) d fun t =>
        t.bit BkStat.BANK nn = d.bit BkStat.BANK nn ∧ t.bit Rstat.SWAP_REF nn = true ∧ (t.b nn).swHost = none)) ∧
    (d.bit Pstat.STALL nn = false ∨ (d.bit Pstat.HOLD nn = false ∧ (d.b nn).stalled = some (curBank d nn)) → Gives (.stallRecovery nn) d d) ∧
    (d.bit Pstat.STALL nn = true → ¬ (d.bit Pstat.HOLD nn = false ∧ (d.b nn).stalled = some (curBank d nn)) → Completes (.stallRecovery nn) d fun t =>
      OnlyBlock nn [Pstat.addr nn, Rstat.addr nn] d t ∧ t.evq = d.evq ∧
      t.bit Pstat.STALL nn = (d.bit Pstat.HOLD nn && (d.b nn).stalled == some (!curBank d nn)) ∧
      t.bit Pstat.RECOV_SEEN nn = true ∧ t.bit Pstat.HOLD nn = false ∧
      (d.bit Pstat.HOLD nn = false → ∀ b, (d.b nn).stalled = some b → (t.b nn).swFall = some b ∧ t.bit Rstat.PEND_TGT nn = b))

/-- None of the three commands moves the phase of any domain back, and each touches one domain only. An update of a BAND, PLL, BCAST or TWIN source makes that source known; of another kind it does nothing. A BAND, PLL or BCAST source that times out is no longer valid: if it is in use, the domain is valid and there is no automatic alternate, the domain becomes invalid and holds its phase, INV_SEEN sets and INV_CNT counts; with AUTO and a valid alternate it goes over to it with AUTOSW. SWITCH is refused with SW_REF when the domain has no alternate or the source not in use is not valid; otherwise the other source is used and a valid domain keeps its phase. What a domain without a valid source does between updates is assumption log 79, the model's choice. (R155, R156, R158, R159, R162, R163, R171) -/
def Obligations.PhaseDomainsNeverTurnBack : Prop :=
  (∀ (c : Instr) (d t : Dev) (rest : List Instr) (k : Fin 8) (alt : Bool) (v : BitVec 40) (h : Master) (w : Word),
    c = .phaseSourceUpdate k alt v ∨ c = .sourceTimeout k alt ∨ c = .switch h k w → exec c ⟨rest, d⟩ = .next ⟨rest, t⟩ →
      (∀ j, domPhase d j ≤ domPhase t j) ∧ ∀ j, j ≠ k → t.pd j = d.pd j ∧ t.reg (PdStat.addr j) = d.reg (PdStat.addr j)) ∧
  (∀ (d : Dev) (k : Fin 8) (alt : Bool) (v : BitVec 40), unitChip ∉ d.undef →
    (srcKind d k alt < 3 ∨ 6 < srcKind d k alt → Gives (.phaseSourceUpdate k alt v) d d) ∧
    (4 ≤ srcKind d k alt → srcKind d k alt ≤ 6 → Completes (.phaseSourceUpdate k alt v) d fun t =>
      (srcOf t k alt).valid = true ∧ (srcOf t k alt).upd = some (d.clk, v.toNat * 2 ^ 12)) ∧
    (srcKind d k alt = 3 → Completes (.phaseSourceUpdate k alt v) d fun t =>
      (srcOf t k alt).valid = true ∧ (srcOf t k alt).trav = some (sx 40 v.toNat))) ∧
  (∀ (d : Dev) (k : Fin 8) (alt : Bool), unitChip ∉ d.undef →
    (srcKind d k alt < 3 ∨ 5 < srcKind d k alt → Gives (.sourceTimeout k alt) d d) ∧
    (3 ≤ srcKind d k alt → srcKind d k alt ≤ 5 →
      (Completes (.sourceTimeout k alt) d fun t => (srcOf t k alt).valid = false) ∧
      (altInUse d k = alt → domValid d k = true → alt = true ∨ d.bit PdCfg.AUTO k = false → Completes (.sourceTimeout k alt) d fun t =>
        domValid t k = false ∧ t.bit PdStat.INV_SEEN k = true ∧ t.fld PdStat.INV_CNT k = min (d.fld PdStat.INV_CNT k + 1) (2 ^ PdStat.INV_CNT.len - 1) ∧
        domPhase t k = domPhase d k ∧ (t.pd k).seg.num = 0) ∧
      (altInUse d k = alt → alt = false → domValid d k = true → d.bit PdCfg.AUTO k = true → d.fld PdCfg.ASRC k ≠ 0 → srcValid d k true = true →
        Completes (.sourceTimeout k alt) d fun t =>
          domValid t k = true ∧ altInUse t k = true ∧ t.bit PdStat.AUTOSW k = true ∧ domPhase t k = domPhase d k))) ∧
  ∀ (d : Dev) (h : Master) (k : Fin 8) (w : Word), Alone d h (PdCtl.addr k) unitChip → mRsv 0xFFFE w = 0 →
    (d.fld PdCfg.ASRC k = 0 ∨ srcValid d k (!altInUse d k) = false →
      Gives (.switch h k w) d ((d.clr PdCtl.SWITCH k).flag PdStat.SW_REF k)) ∧
    (d.fld PdCfg.ASRC k ≠ 0 → srcValid d k (!altInUse d k) = true → Completes (.switch h k w) d fun t =>
      altInUse t k = (!altInUse d k) ∧ domValid t k = true ∧ (domValid d k = true → domPhase t k = domPhase d k) ∧
      t = { d with regs := t.regs, hw := t.hw, dom := t.dom } ∧ RegsKept [PdCtl.addr k, PdStat.addr k] d t)

/-- A period start counts PERCNT on leg 0 and does nothing in OFF or HELD. A leg with STOP pending goes to its S0 levels; the last one makes the block ARMED. A leg that may not drive keeps its outputs. One that drives with an unlocked carrier takes the compare value of the duty that stood before this clk. A width short of m counts and is swallowed, stretched or carried by SPMODE; emitted low widths of 0 count toward a refresh and carry it when it is due; the chopper of HBC has its rules on GH alone. From either full level each output falls at once or at its width and rises DTIME after the other. With EN the period start of leg 0 locks or unlocks the carrier and gives the period its length. COMPARE_EDGE and DEAD_TIME_EXPIRE carry out the leg's next edge when it is a fall or a rise, and nothing else. A pulse row is taken at the wrap, after the first UPDATE of every leg and, from a carrier, only while that is locked: a row that the section does not list holds zeros; PTROW shows it, PTMODE is set, and each leg's request is the level the row gives at fraction 0, the paired output falling at once. At a wrap in pulse-table mode a pending STOP stops all legs, and a change back to the carrier leaves the mode. A pulse-table edge moves to the next edge and sets its leg's request; where the pulse would be shorter than m it is swallowed, or in STRETCH its end is put off to width m; the edge after a swallowed one is ignored. With no row in use, in another state or without pulse-table mode an edge has no effect. What an unlocked carrier does with a pending STOP of a leg is R85; a leg that starts PWM runs no TDA, and a chopper at full duty stays on over the period start (assumption log 78). (R85, R178, R250, R253, R254, R255, R256, R257, R258, R259, R260, R261) -/
def Obligations.LegsEmitPeriodsAndEdges : Prop :=
  ∀ (d : Dev) (nn : Fin 16) (l : Fin 3), unitBlk nn ∉ d.undef →
    (d.fld BkStat.STATE nn ≤ 1 → Gives (.carrierPeriodStart nn l) d d) ∧
    (2 ≤ d.fld BkStat.STATE nn → d.fld BkStat.STATE nn ≤ 4 → Completes (.carrierPeriodStart nn l) d fun t =>
      t.fld PwmStat.PERCNT nn = (d.fld PwmStat.PERCNT nn + (if l = 0 then 1 else 0)) % 2 ^ 16 ∧
      (∀ k, k ≠ nn → t.b k = d.b k) ∧ (∀ j, j ≠ l → legOf t (nn, j) = legOf d (nn, j)) ∧
      ((legOf d (nn, l)).stop = true → atS0 d nn l (legOf t (nn, l)) ∧ (legOf t (nn, l)).stop = false ∧
        ((∀ j, j ≠ l → (legOf d (nn, j)).stop = false) → d.fld BkStat.STATE nn = 3 → d.bit BkCtl.STOP nn = true →
          t.fld BkStat.STATE nn = 2 ∧ t.bit BkCtl.STOP nn = false)) ∧
      ((legOf d (nn, l)).stop = false → d.fld BkStat.STATE nn ≠ 3 ∨ d.bit Qstat.LATCH nn = true ∨ d.bit PwmStat.PTMODE nn = true ∨
          ((legOf d (nn, l)).taken d.clk).2 = false ∨ mayDrive d nn = false →
        legOf t (nn, l) = legOf d (nn, l) ∧ t.fld BkStat.STATE nn = d.fld BkStat.STATE nn)) ∧
    (d.fld BkStat.STATE nn = 3 → (legOf d (nn, l)).stop = false → d.bit Qstat.LATCH nn = false → d.bit PwmStat.PTMODE nn = false →
      ((legOf d (nn, l)).taken d.clk).2 = true → mayDrive d nn = true → d.bit Csync.EN nn = false → d.bit Csync.LOCKED nn = false →
      let chop := isChopper d (nn, l)
      let tot := 8 * d.fld Pwm.PER nn
      let c := min (cmpOf ((legOf d (nn, l)).taken d.clk).1 (d.fld Pwm.PER nn)) tot
      let dt := d.fld LcCfg.DTIME (nn, l)
      let m := legM d (nn, l)
      let sp := d.fld LcCfg.SPMODE (nn, l)
      let a := d.fld LcAcc.A (nn, l)
      let side := d.bit LcAcc.SIDE (nn, l)
      let hs := decide (0 < c ∧ c < m)
      let ls := !chop && decide (0 < tot - c ∧ tot - c < m)
      let w := if hs then c else tot - c
      let a1 := (if side = ls then a else 0) + w
      let own := if side then tot - c else c
      let adds := 0 < a ∧ own ≠ 0 ∧ own + a + (if chop then 0 else m) ≤ tot
      let h := if hs || ls then
          (if sp = 0 then (if hs then 0 else tot) else if sp = 1 then (if hs then m else tot - m)
            else if a1 < m then (if hs then 0 else tot) else if hs then a1 else tot - a1)
        else if 2 ≤ sp ∧ adds then (if side then tot - (own + a) else own + a) else c
      let ren := d.bit LcCfg.REN (nn, l) = true ∧ chop = false ∧ h = tot
      let refresh := ren ∧ d.fld LcCfg.RN (nn, l) ≤ d.fld LcAcc.FULLRUN (nn, l)
      let from0 := fun (gh gl : Lvl) => (legOf d (nn, l)).gh = gh ∧ (legOf d (nn, l)).gl = gl
      2 * m ≤ tot → tot < 2 ^ 23 → (chop = true → side = false) → 0 < dt → Completes (.carrierPeriodStart nn l) d fun t =>
        let g := legOf t (nn, l)
        t.fld LcCmp.V (nn, l) = c ∧ g.on = true ∧
        t.bit LcStat.SHORT_SEEN (nn, l) = (d.bit LcStat.SHORT_SEEN (nn, l) || hs || ls) ∧
        t.fld LcStat.SHORTCNT (nn, l) = (d.fld LcStat.SHORTCNT (nn, l) + (hs || ls).toNat) % 2 ^ LcStat.SHORTCNT.len ∧
        t.fld LcAcc.A (nn, l) = (if sp < 2 then a else if hs || ls then (if a1 < m then a1 else 0) else if adds then 0 else a) ∧
        t.bit LcAcc.SIDE (nn, l) = (if 2 ≤ sp ∧ (hs || ls) = true then ls else side) ∧
        t.fld LcAcc.FULLRUN (nn, l) = (if ren ∧ ¬ refresh then d.fld LcAcc.FULLRUN (nn, l) + 1 else 0) ∧
        t.bit LcStat.REFR_SEEN (nn, l) = (d.bit LcStat.REFR_SEEN (nn, l) || decide refresh) ∧
        (refresh → from0 .high .low → g.gh = .low ∧ g.gl = .low ∧ g.edges =
          [⟨dt, false, true⟩, ⟨dt + 8 * d.fld LcRefw.REFW (nn, l), false, false⟩, ⟨2 * dt + 8 * d.fld LcRefw.REFW (nn, l), true, true⟩]) ∧
        (¬ refresh → chop = false → from0 .low .high →
          g.gh = .low ∧ g.gl = (if h = 0 then .high else .low) ∧ g.edges = if h = 0 then [] else if h = tot then [⟨dt, true, true⟩]
            else (if dt < h then [⟨dt, true, true⟩] else []) ++ [⟨h, true, false⟩] ++ (if h + dt < tot then [⟨h + dt, false, true⟩] else [])) ∧
        (¬ refresh → chop = false → from0 .high .low → (legOf d (nn, l)).tail = none → h ≠ 0 →
          g.gh = .high ∧ g.gl = .low ∧ g.edges = if h = tot then [] else [⟨h, true, false⟩] ++ (if h + dt < tot then [⟨h + dt, false, true⟩] else [])) ∧
        (¬ refresh → chop = false → from0 .high .low → (legOf d (nn, l)).tail = none → h = 0 →
          g.gh = .low ∧ g.gl = .low ∧ g.edges = [⟨dt, false, true⟩]) ∧
        (chop = true → (legOf d (nn, l)).gh = .low → g.gh = .low ∧ g.gl = s0Low d nn l ∧
          g.edges = if h = 0 then [] else (if dt < h then [⟨dt, true, true⟩] else []) ++ (if h < tot then [⟨h, true, false⟩] else []))) ∧
    (2 ≤ d.fld BkStat.STATE nn → d.fld BkStat.STATE nn ≤ 4 → d.bit Csync.EN nn = true → l = 0 →
      let r := d.fld Csync.N nn * domRate d (curHdr d nn).domain
      let flock := d.fld CsyncF.FLOCK nn
      let was := d.bit Csync.LOCKED nn
      let now := domValid d (curHdr d nn).domain = true ∧ flock * 16 ≤ r ∧ (flock * 17 ≤ r ∨ was = true)
      let hz : Int := clkHz d * 16
      let len := rdiv hz r
      let next := rdiv ((2 ^ 32 - lockPos d nn : Nat) * hz) (r * 2 ^ 32)
      let err := rdiv (sx 32 (lockPos d nn) * hz) (r * 2 ^ 32)
      let heat := d.bit ChipMode.HEAT_ACT ()
      Completes (.carrierPeriodStart nn l) d fun t => t.bit Csync.LOCKED nn = decide now ∧
        (was = true → ¬ now → t.bit Csync.UNLOCK_SEEN nn = true ∧ ∃ x ∈ t.evq, x.clk = d.clk ∧ x.src = bkSrc nn 1 ∧ x.assert = true) ∧
        (now → was = true → sx 16 (t.fld Csync.ERR nn) = clampI (-32767) 32767 err) ∧
        ((legOf d (nn, l)).stop = false → ((t.b nn).perLen : Int) = if now then
          (if was then (clampI (if heat then 600 else 800) (if heat then 150000 else 200000) (len - err)).toNat
            else (if 2 * next < d.fld Pwm.PER nn then next + len else next).toNat) else d.fld Pwm.PER nn)) ∧
    (∀ e es, (legOf d (nn, l)).edges = e :: es →
      (e.rise = false → Gives (.compareEdge nn l) d (onL d (nn, l) fun g => { Leg.edge g e with edges := es }) ∧
        Gives (.deadTimeExpire nn l) d d) ∧
      (e.rise = true → Gives (.deadTimeExpire nn l) d (onL d (nn, l) fun g => { Leg.edge g e with edges := es }) ∧
        Gives (.compareEdge nn l) d d)) ∧
    ((legOf d (nn, l)).edges = [] → Gives (.compareEdge nn l) d d ∧ Gives (.deadTimeExpire nn l) d d) ∧
    (d.fld BkStat.STATE nn ≠ 3 ∨ (d.b nn).disarm = true → Gives (.pulseRowTake nn) d d ∧ Gives (.pulseTableEdge nn) d d) ∧
    ((∃ j, (legOf d (nn, j)).upd = false) ∨ (d.bit PwmStat.PTMODE nn = false ∧ d.bit Csync.LOCKED nn = false) →
      Gives (.pulseRowTake nn) d d) ∧
    (∀ r row, d.fld BkStat.STATE nn = 3 → (d.b nn).disarm = false → ((d.b nn).leg.toList.any fun g => g.stop) = false →
      mayDrive d nn = true → (d.b nn).ptLeave = false → (d.b nn).ptPend = some r → r < 64 →
      (∀ j, (legOf d (nn, j)).upd = true) → d.bit PwmStat.PTMODE nn = true ∨ d.bit Csync.LOCKED nn = true → ((ptRows d nn)[r]?).getD ⟨0, 0, [], true⟩ = row →
      Completes (.pulseRowTake nn) d fun t =>
        t.bit PwmStat.PTMODE nn = true ∧ t.bit PwmStat.PTPEND nn = false ∧ t.fld PwmStat.PTROW nn = r ∧ (t.b nn).ptNext = 0 ∧
        (legOf t (nn, l)).req = rowLevel0 row l ∧
        ((legOf d (nn, l)).on = false ∨ (legOf d (nn, l)).req ≠ rowLevel0 row l →
          (if rowLevel0 row l then (legOf t (nn, l)).gl = .low else (legOf t (nn, l)).gh = .low) ∧
          (0 < d.fld LcCfg.DTIME (nn, l) → (legOf t (nn, l)).edges = [⟨d.fld LcCfg.DTIME (nn, l), rowLevel0 row l, true⟩]))) ∧
    (d.fld BkStat.STATE nn = 3 → (d.b nn).disarm = false → (∀ j, (legOf d (nn, j)).upd = true) → d.bit PwmStat.PTMODE nn = true →
      (((d.b nn).leg.toList.any fun g => g.stop) = true → Completes (.pulseRowTake nn) d fun t =>
        atS0 d nn l (legOf t (nn, l)) ∧ (legOf t (nn, l)).stop = false ∧
        (d.bit BkCtl.STOP nn = true → t.fld BkStat.STATE nn = 2 ∧ t.bit BkCtl.STOP nn = false)) ∧
      (((d.b nn).leg.toList.any fun g => g.stop) = false → mayDrive d nn = true → (d.b nn).ptLeave = true → Completes (.pulseRowTake nn) d fun t =>
        t.bit PwmStat.PTMODE nn = false ∧ (t.b nn).ptLeave = false ∧ (t.b nn).ptRow = none ∧ (legOf t (nn, l)).edges = [] ∧
        (legOf t (nn, l)).gh = (legOf d (nn, l)).gh ∧ (legOf t (nn, l)).gl = (legOf d (nn, l)).gl)) ∧
    (∀ row e, d.fld BkStat.STATE nn = 3 → (d.b nn).disarm = false → d.bit PwmStat.PTMODE nn = true → mayDrive d nn = true →
      (d.twin.resume.any fun k => k.1 == nn) = false → ptRowOf d nn = some row → row.edges[(d.b nn).ptNext]? = some e → e.leg = l.val →
      (legOf d (nn, l)).on = true → (legOf d (nn, l)).skip = true → Completes (.pulseTableEdge nn) d fun t =>
        legOf t (nn, l) = { legOf d (nn, l) with skip := false } ∧ (∀ j, j ≠ l → legOf t (nn, j) = legOf d (nn, j)) ∧
        (t.b nn).ptNext = (if (d.b nn).ptNext + 1 < row.edges.length then (d.b nn).ptNext + 1 else 0)) ∧
    (d.bit PwmStat.PTMODE nn = false ∨ ptRowOf d nn = none → Gives (.pulseTableEdge nn) d d) ∧
    ∀ row e, d.fld BkStat.STATE nn = 3 → (d.b nn).disarm = false → d.bit PwmStat.PTMODE nn = true → mayDrive d nn = true →
      (d.twin.resume.any fun k => k.1 == nn) = false → ptRowOf d nn = some row → row.edges[(d.b nn).ptNext]? = some e → e.leg = l.val →
      (legOf d (nn, l)).on = true → (legOf d (nn, l)).skip = false → (legOf d (nn, l)).stretch = none →
      let w := pulseWidth d nn row (d.b nn).ptNext e
      let s0 := fracStep d nn e.frac
      s0 / 8 ≠ (s0 + w) / 8 → Completes (.pulseTableEdge nn) d fun t =>
        (t.b nn).ptNext = (if (d.b nn).ptNext + 1 < row.edges.length then (d.b nn).ptNext + 1 else 0) ∧
        ((legOf d (nn, l)).req ≠ e.level → legM d (nn, l) ≤ w ∨ d.fld LcCfg.SPMODE (nn, l) = 1 → (legOf t (nn, l)).req = e.level ∧
          (if e.level then (legOf t (nn, l)).gl = .low else (legOf t (nn, l)).gh = .low) ∧
          (legOf t (nn, l)).stretch = (if w < legM d (nn, l) then some (s0 + legM d (nn, l)) else none)) ∧
        ((legOf d (nn, l)).req ≠ e.level → w < legM d (nn, l) → d.fld LcCfg.SPMODE (nn, l) ≠ 1 →
          legOf t (nn, l) = { legOf d (nn, l) with skip := true }) ∧
        ((legOf d (nn, l)).req = e.level → legOf t (nn, l) = legOf d (nn, l)) ∧ ∀ j, j ≠ l → legOf t (nn, j) = legOf d (nn, j)

/-- A trip input, QIN_N, TWQ_I, the debug halt and the JTAG halt set the latch of every block for which they are enabled and add their cause bit: if it was clear, no output of the block stays HIGH, FIRST names the cause, QCNT counts and SET_SEEN is set; ARMED and RUN go QUENCHED; no other block changes. This holds on a unit that is no longer guaranteed. An input's release only ends its own activity. Software QUENCH adds cause bit 15. CLEAR on a latched block with a cause active sets CLEAR_REFUSED; with none it clears the latch, QUENCHED goes to ARMED and the outputs stand at S0. An input that turns active in the clk of a clear leaves the latch set, the clear refused and nothing counted. A TDA that expires turns on the low side of a latched leg in set S1. A trip ball is tracked as its level past its filter (assumption log 8), the model's choice. (R85, R95, R262, R263, R265, R266, R267, R268, R270) -/
def Obligations.QuenchInputsAndClear : Prop :=
  (∀ (c : Instr) (d : Dev) (bit code : Nat) (en : Fin 16 → Bool),
    (∃ nn, c = .tripInput nn false ∧ bit = 0 ∧ code = 1 ∧ en = fun k => k == nn && tripEn d nn false) ∨
    (∃ nn, c = .tripInput nn true ∧ bit = 1 ∧ code = 2 ∧ en = fun k => k == nn && tripEn d nn true) ∨
    (c = .qinInput ∧ bit = 2 ∧ code = 3 ∧ en = fun k => qinEn d k) ∨ (c = .twqInput ∧ bit = 3 ∧ code = 4 ∧ en = fun k => twqEn d k) ∨
    ((c = .dbgHalt ∨ c = .jtagHalt) ∧ bit = 13 ∧ code = 11 ∧ en = fun _ => true) →
    (∀ k e, (d.b k).qClr = some e → e.1 ≠ d.clk) →
    Completes c d fun t => ∀ k,
      (en k = true → t.bit Qstat.LATCH k = true ∧ (t.fld Qcause.CAUSE k).testBit bit = true ∧
        (d.bit Qstat.LATCH k = false → outputsOff (t.b k) ∧ t.fld Qcause.CAUSE k = 2 ^ bit ∧ t.fld Qstat.FIRST k = code ∧
          t.fld Qstat.QCNT k = min (d.fld Qstat.QCNT k + 1) 255 ∧ t.bit Qstat.SET_SEEN k = true) ∧
        (d.bit Qstat.LATCH k = true → t.fld Qcause.CAUSE k = d.fld Qcause.CAUSE k ||| 2 ^ bit ∧ t.fld Qstat.QCNT k = d.fld Qstat.QCNT k) ∧
        (d.fld BkStat.STATE k = 2 ∨ d.fld BkStat.STATE k = 3 → t.fld BkStat.STATE k = 4)) ∧
      (en k = false → t.reg (Qstat.addr k) = d.reg (Qstat.addr k) ∧ t.reg (BkStat.addr k) = d.reg (BkStat.addr k) ∧ (t.b k).leg = (d.b k).leg)) ∧
  (∀ (d : Dev) (nn : Fin 16),
    Gives (.quenchInputRelease (.tripA nn)) d (d.onB nn fun x => { x with ballA := !tripHigh d nn false }) ∧
    Gives (.quenchInputRelease (.tripB nn)) d (d.onB nn fun x => { x with ballB := !tripHigh d nn true }) ∧
    Gives (.quenchInputRelease .qin) d { d with qinBall := false } ∧
    Gives (.quenchInputRelease .twq) d (d.onTw fun t => { t with twqI := false }) ∧
    Gives (.quenchInputRelease .dbg) d { d with dbgHalt := false } ∧ Gives (.quenchInputRelease .jtag) d { d with jtagHalt := false } ∧
    ∀ l : Fin 3, Gives (.tdaExpire nn l) d
      (if (legOf d (nn, l)).tda = true ∧ d.bit Qstat.LATCH nn = true ∧ d.bit Qstat.SAFESET nn = true then
        onL d (nn, l) fun g => { g with tda := false, gl := .high } else d)) ∧
  (∀ (d : Dev) (nn : Fin 16) (b : Bool) e, tripEn d nn b = true → d.bit Qstat.LATCH nn = false → (d.b nn).qClr = some e → e.1 = d.clk →
    Completes (.tripInput nn b) d fun t => t.bit Qstat.LATCH nn = true ∧ t.bit Qstat.CLEAR_REFUSED nn = true ∧
      t.fld Qstat.QCNT nn = d.fld Qstat.QCNT nn ∧ (t.fld Qcause.CAUSE nn).testBit b.toNat = true) ∧
  ∀ (d : Dev) (h : Master) (nn : Fin 16) (w : Word), Alone d h (Qctl.addr nn) (unitBlk nn) → (∀ e, (d.b nn).qClr = some e → e.1 ≠ d.clk) →
    (mRsv 0xFFFC (ownM 1 w) = 0 → (mOnes (ownM 1 w)).testBit 0 = false → Completes (.softQuench h nn w) d fun t =>
      t.bit Qstat.LATCH nn = true ∧ (t.fld Qcause.CAUSE nn).testBit 15 = true ∧ (d.bit Qstat.LATCH nn = false → outputsOff (t.b nn)) ∧
      (d.fld BkStat.STATE nn = 2 ∨ d.fld BkStat.STATE nn = 3 → t.fld BkStat.STATE nn = 4) ∧ ∀ k, k ≠ nn → t.b k = d.b k) ∧
    (mRsv 0xFFFC (ownM 0 w) = 0 → (mOnes (ownM 0 w)).testBit 1 = false →
      (d.bit Qstat.LATCH nn = false → Completes (.quenchClear h nn w) d fun t =>
        OnlyRegs [Qctl.addr nn] d t) ∧
      (d.bit Qstat.LATCH nn = true → actMask d nn ≠ 0 → Completes (.quenchClear h nn w) d fun t =>
        OnlyRegs [Qctl.addr nn, Qstat.addr nn] d t ∧ t.reg (Qstat.addr nn) = (d.flag Qstat.CLEAR_REFUSED nn).reg (Qstat.addr nn)) ∧
      (d.bit Qstat.LATCH nn = true → actMask d nn = 0 → Completes (.quenchClear h nn w) d fun t =>
        OnlyBlock nn [Qctl.addr nn, Qstat.addr nn, BkStat.addr nn] d t ∧ t.evq = d.evq ∧ t.bit Qstat.LATCH nn = false ∧
        t.fld BkStat.STATE nn = (if d.fld BkStat.STATE nn = 4 then 2 else d.fld BkStat.STATE nn) ∧
        t.fld Qstat.QCNT nn = d.fld Qstat.QCNT nn ∧ t.fld Qstat.FIRST nn = d.fld Qstat.FIRST nn ∧
        ∀ l : Fin 3, atS0 d nn l (vget (t.b nn).leg l))) ∧
    (mRsv 0xFFFC (ownM 1 w) = 0 → (mOnes (ownM 1 w)).testBit 0 = true → Completes (.softQuench h nn w) d fun t =>
      t.bit Qstat.LATCH nn = true ∧ t.bit Qstat.CLEAR_REFUSED nn = true)

/-- A main result of a measuring cell that has settled is stored, clamped to F20, and sets VALID; one that has not, or of a cell that is not measuring or not enabled, or at an edge that the region has not counted last, changes nothing. A fast result is stored; when it has been above the high threshold (below the low one) FQUAL + 1 times in a row the comparator asserts, with HI_SEEN or LO_SEEN, its count and, where mapped, the quench latch. A modulator clock that is lost or out of range sets its flag and BAD and raises the region's source; recovery clears BAD. A stuck bitstream sets BSTK and ends VALID in a cell in use; a level change clears it. An interval that ends at a level the input has not changes nothing. The sense interval of an input that stayed active ends with its assert message sent at most once, and the STUCKN-th in a row sets its STUCK flag and raises the sense source. That a result or an interval whose edge or level the region has not has no effect is deduced: such a command cannot occur (assumption log 89). (R68, R182, R183, R186, R188, R189, R190, R192, R209, R210) -/
def Obligations.FilterCellsAndModulatorClocks : Prop :=
  (∀ (d : Dev) (nn : Fin 16) (f : Fin 4) (sum : Nat), unitBlk nn ∉ d.undef →
    let n := d.fld FcCfg.OSR (nn, f)
    let m := d.fld FcCfg.FOSR (nn, f)
    let edge := fcEdge d nn f
    let wait := vget (d.b nn).flt f
    (∀ e, e ≠ edge → Gives (.filterResult nn f sum e) d d ∧ Gives (.fastResult nn f sum e) d d) ∧
    (d.fld FcCfg.MODE (nn, f) = 0 ∨ n = 0 ∨ edge % n ≠ 0 ∨ fcDown d nn f = true ∨
        (wait.mainWait = true ∧ edgesSince wait.fromEdge edge < 3 * n) → Gives (.filterResult nn f sum edge) d d) ∧
    (d.fld FcCfg.MODE (nn, f) ≠ 0 → n ≠ 0 → edge % n = 0 → fcDown d nn f = false →
        wait.mainWait = false ∨ 3 * n ≤ edgesSince wait.fromEdge edge → Completes (.filterResult nn f sum edge) d fun t =>
      t.sfld FcRes.V (nn, f) = sincRes sum (n * n * n) ∧ t.bit FcStat.VALID (nn, f) = true ∧
      OnlyBlock nn [FcRes.addr (nn, f), FcStat.addr (nn, f)] d t ∧ t.evq = d.evq ∧
      t.reg (FcStat.addr (nn, f)) = (d.flag FcStat.VALID (nn, f)).reg (FcStat.addr (nn, f)) ∧ (t.b nn).leg = (d.b nn).leg) ∧
    (d.fld FcCfg.MODE (nn, f) ≠ 1 ∨ m = 0 ∨ edge % m ≠ 0 ∨ fcDown d nn f = true ∨
        (wait.fastWait = true ∧ edgesSince wait.fromEdge edge < 2 * m) → Gives (.fastResult nn f sum edge) d d) ∧
    (d.fld FcCfg.MODE (nn, f) = 1 → m ≠ 0 → edge % m = 0 → fcDown d nn f = false → wait.fastWait = false →
      Completes (.fastResult nn f sum edge) d fun t =>
        let r := sincRes sum (m * m)
        let q := d.fld FcCfg.FQUAL (nn, f) + 1
        t.sfld FcFres.V (nn, f) = r ∧ (∀ k, k ≠ nn → t.b k = d.b k) ∧
        (r > d.sfld FcThrHi.V (nn, f) → q ≤ wait.upHi + 1 → d.bit FcStat.CMPHI (nn, f) = false →
          t.bit FcStat.CMPHI (nn, f) = true ∧ t.bit FcStat.HI_SEEN (nn, f) = true ∧
          t.fld FcStat.HICNT (nn, f) = min (d.fld FcStat.HICNT (nn, f) + 1) (2 ^ FcStat.HICNT.len - 1) ∧
          (d.bit FcCfg.QHI (nn, f) = true → t.bit Qstat.LATCH nn = true ∧ (t.fld Qcause.CAUSE nn).testBit (4 + f.val) = true)) ∧
        (r < d.sfld FcThrLo.V (nn, f) → q ≤ wait.upLo + 1 → d.bit FcStat.CMPLO (nn, f) = false →
          t.bit FcStat.CMPLO (nn, f) = true ∧ t.bit FcStat.LO_SEEN (nn, f) = true ∧
          (d.bit FcCfg.QLO (nn, f) = true → t.bit Qstat.LATCH nn = true ∧ (t.fld Qcause.CAUSE nn).testBit (4 + f.val) = true)) ∧
        (r ≤ d.sfld FcThrHi.V (nn, f) → d.bit FcStat.CMPHI (nn, f) = false → t.bit FcStat.CMPHI (nn, f) = false))) ∧
  (∀ (c : Instr) (d : Dev) (n : Fin 4) (x : Fin 2) (fl bad : RF (Fin 4)), unitRgn n ∉ d.undef →
    (c = .mclkLoss n x ∧ fl = (if x = 0 then MclkStat.LOSS0 else MclkStat.LOSS1)) ∨
      (c = .mclkRange n x ∧ fl = (if x = 0 then MclkStat.RANGE0 else MclkStat.RANGE1)) →
    bad = (if x = 0 then MclkStat.BAD0 else MclkStat.BAD1) →
    (Completes c d fun t => t.bit fl n = true ∧ t.bit bad n = true ∧
      ⟨d.clk, rgSrc n 0, true, ((d.flag fl n).flag bad n).lo16 MclkStat.word n, false⟩ ∈ t.evq ∧
      (∀ k, rgnOf k ≠ n → t.b k = d.b k) ∧
      (mclkBad d n x = false → ∀ k f, rgnOf k = n → fcClk d k f = x → hasSec d k = true → d.fld FcCfg.MODE (k, f) ≠ 0 →
        d.bit FcStat.BSTK (k, f) = false → t.bit FcStat.VALID (k, f) = false ∧ t.bit FcStat.INVAL_SEEN (k, f) = true)) ∧
    (mclkBad d n x = false → Gives (.mclkRecover n x) d d) ∧
    (mclkBad d n x = true → Completes (.mclkRecover n x) d fun t =>
      t = { d with regs := t.regs, hw := t.hw, blk := t.blk } ∧ OnlyRegs [MclkStat.addr n] { d with blk := t.blk } t ∧
      t.reg (MclkStat.addr n) = (d.clr bad n).reg (MclkStat.addr n))) ∧
  (∀ (d : Dev) (nn : Fin 16) (f : Fin 4), unitBlk nn ∉ d.undef →
    (d.bit FcStat.BSTK (nn, f) = true → Gives (.bitstreamStuck nn f) d d) ∧ (d.bit FcStat.BSTK (nn, f) = false → Gives (.bitstreamResume nn f) d d) ∧
    (d.bit FcStat.BSTK (nn, f) = false → Completes (.bitstreamStuck nn f) d fun t => t.bit FcStat.BSTK (nn, f) = true ∧
      (fcDown d nn f = false → hasSec d nn = true → d.fld FcCfg.MODE (nn, f) ≠ 0 →
        t.bit FcStat.VALID (nn, f) = false ∧ t.bit FcStat.INVAL_SEEN (nn, f) = true) ∧ ∀ k, k ≠ nn → t.b k = d.b k) ∧
    (d.bit FcStat.BSTK (nn, f) = true → Completes (.bitstreamResume nn f) d fun t =>
      OnlyBlock nn [FcStat.addr (nn, f)] d t ∧ t.evq = d.evq ∧ t.reg (FcStat.addr (nn, f)) = (d.clr FcStat.BSTK (nn, f)).reg (FcStat.addr (nn, f)) ∧
      ∀ g, g ≠ f → vget (t.b nn).flt g = vget (d.b nn).flt g)) ∧
  (∀ (d : Dev) (nn : Fin 16) (i : Fin 10) (lvl : Bool), unitBlk nn ∉ d.undef → lvl ≠ senseLevel d nn i → Gives (.senseInterval nn i lvl) d d) ∧
  (∀ (d : Dev) (nn : Fin 16) (i : Fin 10), unitBlk nn ∉ d.undef → (vget (d.b nn).sense i).sent = false →
    (vget (d.b nn).sense i).muted = false → senseLevel d nn i = true ∨ (vget (d.b nn).sense i).rises ≠ 0 →
    Completes (.senseInterval nn i (senseLevel d nn i)) d fun t => ⟨d.clk, senseSrc nn i, true, 0, false⟩ ∈ t.evq ∧
      (senseLevel d nn i = false → ⟨d.clk, senseSrc nn i, false, 0, false⟩ ∈ t.evq)) ∧
  ∀ (d : Dev) (nn : Fin 16) (i : Fin 10), unitBlk nn ∉ d.undef →
    let x := vget (d.b nn).sense i
    senseLevel d nn i = true → x.sawLow = false → x.rises = 0 → x.sent = true →
    Completes (.senseInterval nn i (senseLevel d nn i)) d fun t =>
      (∀ k, k ≠ nn → t.b k = d.b k) ∧ (∀ j, j ≠ i → vget (t.b nn).sense j = vget (d.b nn).sense j) ∧
      (vget (t.b nn).sense i).actRun = min (x.actRun + 1) 255 ∧
      (d.fld Sense.STUCKN nn = x.actRun + 1 → x.actRun < 255 → t.bit (if i.val = 8 then EcStat.STUCK else PcStat.STUCK) nn = true ∨ i.val < 8) ∧
      (d.fld Sense.STUCKN nn = x.actRun + 1 → x.actRun < 255 → ⟨d.clk, bkSrc nn 4, true, i.val, false⟩ ∈ t.evq ∧ (vget (t.b nn).sense i).sent = false) ∧
      (d.fld Sense.STUCKN nn = 0 → t.evq = d.evq ∧ (vget (t.b nn).sense i).sent = true)

/-- A quadrature count or a step moves the position by one count of 2^(20-CSHIFT), saturated at the limits of P40, where SAT sets and the position becomes invalid; while SAT stands it does not move. An input takes a new level no sooner than its filter lets it. Both inputs changing at once is an overrun: the count stays, the position becomes invalid with INVAL_SEEN, ERRCNT counts. A step whose direction had not settled counts either way. An index edge loads Z and makes an invalid position valid with ZMODE, and otherwise sets ZSEEN. An SSI word of an ALONE unit without idle or stop level sets SSIERR, one that jumps beyond JMAX sets JUMP, and a good one moves the position by its difference; the owner of a pair sends its word, a shadow discards its own. REVAL makes a counted position valid unless one of those conditions holds in its clk. A probe edge of the chosen kind latches the position and phase of its first sample, or sets LOST_SEEN within 10 us or unarmed under ONCE; REARM arms it. Which quadrature order counts up is the model's choice (assumption log 16); the direction of a step that had not settled is a free value (assumption log 1). (R196, R197, R198, R199, R200, R201, R202, R203, R207, R208, R413) -/
def Obligations.EncoderAndProbeCells : Prop :=
  (∀ (d : Dev) (nn : Fin 16) (a b : Bool), unitBlk nn ∉ d.undef →
    let a0 := d.bit EcStat.A nn
    let b0 := d.bit EcStat.B nn
    let m := d.fld EcCfg.MODE nn
    let ready := (a0 = a ∨ inputReady d (encOf d nn).tA (encFlt d nn) = true) ∧ (b0 = b ∨ inputReady d (encOf d nn).tB (encFlt d nn) = true) ∧
      (a0 ≠ a ∨ inputReady d (encOf d nn).tA 1 = true) ∧ (b0 ≠ b ∨ inputReady d (encOf d nn).tB 1 = true)
    (¬ ready → Gives (.quadCount nn a b) d d) ∧
    (ready → m ≠ 1 ∨ (a0 = a ∧ b0 = b) → Gives (.quadCount nn a b) d (encLevels d nn (if m = 3 then a && a0 else a) b)) ∧
    (ready → m = 1 → a0 ≠ a → b0 ≠ b → Completes (.quadCount nn a b) d fun t =>
      t.bit EcStat.EDGE_OVERRUN nn = true ∧ t.bit EcStat.PVALID nn = false ∧
      t.bit EcStat.INVAL_SEEN nn = true ∧
      t.fld EcStat.ERRCNT nn = (d.fld EcStat.ERRCNT nn + 1) % 2 ^ EcStat.ERRCNT.len ∧
      (encOf t nn).pos = (encOf d nn).posAt (d.clk - 1) ∧ (∀ k, k ≠ nn → encOf t k = encOf d k)) ∧
    (ready → m = 1 → (a0 = a ∧ b0 ≠ b) ∨ (a0 ≠ a ∧ b0 = b) → Completes (.quadCount nn a b) d fun t =>
      let up := (quadPos a b == (quadPos a0 b0 + 1) % 4) != d.bit EcCfg.DIRINV nn
      let p := (encOf d nn).pos + (if up then 1 else -1) * 2 ^ (20 - min (d.fld EcCfg.CSHIFT nn) 20)
      (∀ k, k ≠ nn → encOf t k = encOf d k) ∧ t.bit EcStat.DIR nn = !up ∧
      t.bit EcStat.A nn = a ∧ t.bit EcStat.B nn = b ∧ (d.bit EcStat.SAT nn = true → (encOf t nn).pos = (encOf d nn).pos) ∧
      (d.bit EcStat.SAT nn = false → (encOf t nn).pos = satP40 p ∧
        if p ≥ 2 ^ 39 - 1 ∨ p ≤ -(2 ^ 39) then t.bit EcStat.SAT nn = true ∧ t.bit EcStat.PVALID nn = false
        else t.bit EcStat.SAT nn = false ∧ t.bit EcStat.PVALID nn = d.bit EcStat.PVALID nn))) ∧
  (∀ (d : Dev) (nn : Fin 16) (eb settled : Bool), unitBlk nn ∉ d.undef →
    let ready := inputReady d (encOf d nn).tA (if d.bit EcStat.A nn then 2 * encFlt d nn else encFlt d nn) = true ∧
      (d.bit EcStat.B nn = eb ∨ inputReady d (encOf d nn).tB (encFlt d nn) = true) ∧ inputReady d (encOf d nn).tB 0 = true
    (d.fld EcCfg.MODE nn ≠ 3 ∨ ¬ ready →
      Gives (.stepEdge nn eb settled) d d) ∧
    (d.fld EcCfg.MODE nn = 3 → ready → d.bit EcStat.SAT nn = false → Completes (.stepEdge nn eb settled) d fun t =>
      let up := (if settled then eb else Config.choice d.fresh) != d.bit EcCfg.DIRINV nn
      (encOf t nn).pos = satP40 ((encOf d nn).pos + (if up then 1 else -1) * 2 ^ (20 - min (d.fld EcCfg.CSHIFT nn) 20)) ∧
      t.bit EcStat.DIR nn = !up ∧ ∀ k, k ≠ nn → encOf t k = encOf d k)) ∧
  (∀ (d : Dev) (nn : Fin 16), unitBlk nn ∉ d.undef →
    let ready := inputReady d (encOf d nn).tZ (if d.bit EcStat.Z nn then 2 * encFlt d nn else encFlt d nn)
    (ready = false → Gives (.indexEdge nn) d d) ∧
    (ready = true → encCondNow d nn = false → Completes (.indexEdge nn) d fun t =>
    t.bit EcStat.Z nn = true ∧ (∀ k, k ≠ nn → encOf t k = encOf d k) ∧
    if d.fld EcCfg.MODE nn = 1 ∧ d.bit EcStat.PVALID nn = false ∧ d.bit EcCfg.ZMODE nn = true then
      (encOf t nn).pos = d.sfld EcZhi.V nn * 2 ^ 20 + Int.ofNat (d.fld EcZlo.V nn) ∧ t.bit EcStat.PVALID nn = true ∧ t.bit EcStat.SAT nn = false
    else (encOf t nn).pos = (encOf d nn).pos ∧ t.bit EcStat.ZSEEN nn = true ∧ t.bit EcStat.PVALID nn = d.bit EcStat.PVALID nn)) ∧
  (∀ (d : Dev) (nn : Fin 16) (idle stopLow : Bool) (w : BitVec 40), unitBlk nn ∉ d.undef →
    Gives (.ssiTransferStart nn idle) d (if d.fld EcCfg.MODE nn = 2 then onE d nn fun e => { e with idleOk := idle } else d) ∧
    (d.fld EcCfg.MODE nn ≠ 2 ∨ d.fld TwStat.ROLE () = 2 → Gives (.ssiTransferEnd nn w stopLow) d d) ∧
    (d.fld EcCfg.MODE nn = 2 → d.fld TwStat.ROLE () = 1 → Completes (.ssiTransferEnd nn w stopLow) d fun t =>
      t.twin.txq = (twSend d (.ssi nn w ((encOf d nn).idleOk && stopLow))).twin.txq ∧ (encOf t nn).pos = (encOf d nn).pos ∧ t.regs = d.regs) ∧
    (d.fld EcCfg.MODE nn = 2 → d.fld TwStat.ROLE () = 0 →
      ((encOf d nn).idleOk = false ∨ stopLow = false → Completes (.ssiTransferEnd nn w stopLow) d fun t =>
        (encOf t nn).pos = (encOf d nn).pos ∧ t.bit EcStat.SSIERR nn = true ∧
        t.fld EcStat.ERRCNT nn = (d.fld EcStat.ERRCNT nn + 1) % 2 ^ EcStat.ERRCNT.len ∧
        ((encOf d nn).bad ≥ 1 → t.bit EcStat.PVALID nn = false)) ∧
      ∀ p, (encOf d nn).idleOk = true → stopLow = true → d.bit EcStat.PVALID nn = true → (encOf d nn).last = some p →
        let n := d.fld EcCfg.SBITS nn
        let v := if d.bit EcCfg.GRAY nn then grayDecode n (w.toNat % 2 ^ n) else w.toNat % 2 ^ n
        let diff := sx n ((v + 2 ^ n - p) % 2 ^ n)
        (d.fld EcJmax.V nn ≠ 0 ∧ diff.natAbs > d.fld EcJmax.V nn → Completes (.ssiTransferEnd nn w stopLow) d fun t =>
          (encOf t nn).pos = (encOf d nn).pos ∧ t.bit EcStat.JUMP nn = true ∧
          t.fld EcStat.ERRCNT nn = (d.fld EcStat.ERRCNT nn + 1) % 2 ^ EcStat.ERRCNT.len) ∧
        (d.fld EcJmax.V nn = 0 ∨ diff.natAbs ≤ d.fld EcJmax.V nn → d.bit EcStat.SAT nn = false → Completes (.ssiTransferEnd nn w stopLow) d fun t =>
          (encOf t nn).pos = satP40 ((encOf d nn).pos + ssiPos d nn diff) ∧ (encOf t nn).last = some v ∧ (encOf t nn).bad = 0))) ∧
  (∀ (d : Dev) (h : Master) (nn : Fin 16) (w : Word), Alone d h (EcCtl.addr nn) (unitBlk nn) → mRsv 0xFFFE w = 0 →
    ((d.fld EcCfg.MODE nn ≠ 1 ∧ d.fld EcCfg.MODE nn ≠ 3) ∨ encCondNow d nn = true → Gives (.reval h nn w) d (d.clr EcCtl.REVAL nn)) ∧
    (d.fld EcCfg.MODE nn = 1 ∨ d.fld EcCfg.MODE nn = 3 → encCondNow d nn = false → Completes (.reval h nn w) d fun t =>
      t.bit EcStat.PVALID nn = true ∧ t.bit EcStat.SAT nn = false ∧ ∀ k, encOf t k = encOf d k)) ∧
  (∀ (d : Dev) (nn : Fin 16) (up : Bool), unitBlk nn ∉ d.undef →
    let taken := (up = true ∧ (d.fld PcCfg.EDGE nn = 1 ∨ d.fld PcCfg.EDGE nn = 3)) ∨ (up = false ∧ 2 ≤ d.fld PcCfg.EDGE nn)
    let lost := (∃ t0, (d.b nn).prbLast = some t0 ∧ d.clk < t0 + nsClk d 10000) ∨ (d.bit PcCfg.ONCE nn = true ∧ d.bit PcStat.ARMED nn = false)
    let n := d.fld PcCfg.FLT nn
    let ready := d.bit PcStat.LEVEL nn ≠ up ∧ inputReady d (d.b nn).prbEdge (n + 1) = true
    (¬ ready → Gives (.probeEdge nn up) d d) ∧
    (ready → Completes (.probeEdge nn up) d fun t =>
      t.bit PcStat.LEVEL nn = up ∧ (∀ k, k ≠ nn → t.b k = d.b k) ∧ t.dom = d.dom ∧
      (¬ taken → t.bit PcStat.NEW nn = d.bit PcStat.NEW nn ∧ t.fld PcStat.LCNT nn = d.fld PcStat.LCNT nn ∧ t.evq = d.evq) ∧
      (taken → lost → t.bit PcStat.LOST_SEEN nn = true ∧ t.fld PcStat.LCNT nn = d.fld PcStat.LCNT nn ∧ t.evq = d.evq) ∧
      (taken → ¬ lost → t.bit PcStat.NEW nn = true ∧ t.fld PcStat.LCNT nn = (d.fld PcStat.LCNT nn + 1) % 2 ^ PcStat.LCNT.len ∧
        t.fld PcPosHi.V nn * 2 ^ 20 + t.fld PcPosLo.V nn = ux 40 ((encOf d nn).posAt (d.clk - n)) ∧
        t.fld PcPhHi.V nn * 2 ^ 20 + t.fld PcPhLo.V nn =
          domPH40At d ⟨d.fld PcCfg.DOM nn % 8, Nat.mod_lt _ (by omega)⟩ (d.clk - n) ∧
        (d.bit PcCfg.ONCE nn = true → t.bit PcStat.ARMED nn = false) ∧ t.evq = (d.raise (bkSrc nn 20) (t.fld PcStat.LCNT nn)).evq))) ∧
  ∀ (d : Dev) (h : Master) (nn : Fin 16) (w : Word), Alone d h (PcCtl.addr nn) (unitBlk nn) → mRsv 0xFFFE w = 0 →
    Gives (.rearm h nn w) d ((d.clr PcCtl.REARM nn).flag PcStat.ARMED nn)

/-- A crossbar timeout, a pool timeout and a stalled port each record their cause, set RERR_SEEN, count CNT and FLTCNT and raise the region error source. The first to third in a window count WIN: a timed-out slot ends with ABN_SEEN and INFO 5, a timed-out queue is reset with QERR, a stalled port restarts with the settings of the pattern, BUSOFF and its counters kept, else with the counters 0 and in INTEG with AUTOSTART or in INIT without; the windows' ends reset the counts. The fourth in a window is a chip failure with CAUSE 2 and the region's number, and an uncorrectable chip error (CHIP_FAILURE 2 to 5) one with its cause: every block's latch sets with CHIPFAIL, no output of a block that was not latched stays HIGH, OWN_O is low, the link is silent, every port is OFF and FCNT counts. While a failure waits for its reset a further one changes nothing. That the fourth error takes effect at the end of the command that finds it is deduced (assumption log 85). (R26, R283, R318, R384, R386, R389, R390) -/
def Obligations.RegionErrorsAndChipFailure : Prop :=
  (∀ (c : Instr) (d : Dev) (n : Fin 4) (cause : Nat) (req : Fin 8) (q : Fin 64),
    (c = .crossbarTimeout n req ∧ cause = 1) ∨ (c = .poolTimeout n q ∧ cause = 2) ∨
      (c = .portStall n ∧ cause = 4 ∧ 2 ≤ d.fld BpStat.STATE n) →
    unitRgn n ∉ d.undef → d.failT = false → d.failDue = none → (d.r n).badQ = [] → (d.r n).badFree = false → (d.r n).qerrWin < 7 →
    (d.fld Rerr.WIN n < 3 → Completes c d fun t =>
      t.fld Rerr.CAUSE n = cause ∧ t.bit Rerr.RERR_SEEN n = true ∧ t.fld Rerr.CNT n = min (d.fld Rerr.CNT n + 1) 255 ∧
      t.fld FltCnt.RERR () = min (d.fld FltCnt.RERR () + 1) 255 ∧ t.fld Rerr.WIN n = d.fld Rerr.WIN n + 1 ∧
      ⟨d.clk, rgSrc n 7, true, cause, false⟩ ∈ t.evq ∧ t.failT = false ∧
      (∀ b, c = .crossbarTimeout n req → req.val = b.val → b.val < 4 → t.bit Wdog.ABN_SEEN (blkAt n b) = true ∧
        ⟨d.clk, bkSrc (blkAt n b) 21, true, 5, false⟩ ∈ t.evq) ∧
      (c = .crossbarTimeout n req → t.fld Rerr.REQ n = req.val) ∧
      (c = .poolTimeout n q → t.bit QStat.RST (n, q) = true ∧ t.bit RQstat.QERR n = true ∧ (qGet t n q).stalls = [])) ∧
    (d.fld Rerr.WIN n = 3 → Completes c d fun t =>
      t.fld Fail.CAUSE () = 2 ∧ t.fld Fail.REGION () = n.val ∧ t.failT = true ∧ t.bit TwStat.OWNO () = false ∧
      t.fld Fail.FCNT () = min (d.fld Fail.FCNT () + 1) 255 ∧ t.twin.dead = true ∧ t.twin.txq = [] ∧
      (∀ p, t.fld BpStat.STATE p = 0) ∧ ∀ nn, t.bit Qstat.LATCH nn = true ∧ (t.fld Qcause.CAUSE nn).testBit 14 = true ∧
        (d.bit Qstat.LATCH nn = false → outputsOff (t.b nn)))) ∧
  (∀ (d : Dev) (n : Fin 4) rs, unitRgn n ∉ d.undef → d.failT = false → d.failDue = none → 2 ≤ d.fld BpStat.STATE n → d.fld Rerr.WIN n < 3 →
    d.pat.isSome = true → portSec d n = some rs → (d.r n).badQ = [] → (d.r n).badFree = false → Completes (.portStall n) d fun t =>
      (t.port n).tx = none ∧ t.fld BpErr.RECOVN n = 0 ∧ t.bit BpCfg.AUTOSTART n = (secWord rs (BpCfg.addr n - regionBase n)).getLsbD BpCfg.AUTOSTART.lo ∧
      if d.fld BpStat.STATE n = 5 ∨ d.fld BpStat.STATE n = 6 then
        t.fld BpStat.STATE n = 5 ∧ t.fld BpStat.TEC n = d.fld BpStat.TEC n ∧ t.fld BpStat.REC n = d.fld BpStat.REC n ∧
        t.fld BpEvt.BOFFCNT n = d.fld BpEvt.BOFFCNT n
      else t.fld BpStat.TEC n = 0 ∧ t.fld BpStat.REC n = 0 ∧ t.fld BpStat.STATE n = if t.bit BpCfg.AUTOSTART n then 2 else 1) ∧
  (∀ (d : Dev) (n : Fin 4), unitRgn n ∉ d.undef → Gives (.regionWindowExpire n) d (d.clr Rerr.WIN n) ∧
    Gives (.qerrWindowExpire n) d (d.onR n fun r => { r with qerrWin := 0 }) ∧
    (d.failDue = none → d.fld BpStat.STATE n < 2 → Gives (.portStall n) d d)) ∧
  ∀ (d : Dev) (cause : Fin 8) (n : Fin 4),
    (cause.val < 2 ∨ 5 < cause.val ∨ d.fld Start.STAGE () = 0 ∨ d.failT = true → Gives (.chipFailure cause n) d d) ∧
    (2 ≤ cause.val → cause.val ≤ 5 → d.fld Start.STAGE () ≠ 0 → d.failT = false → Completes (.chipFailure cause n) d fun t =>
      t.fld Fail.CAUSE () = cause.val ∧ t.fld Fail.REGION () = (if cause.val = 2 then n.val else 0) ∧
      t.fld Fail.FCNT () = min (d.fld Fail.FCNT () + 1) 255 ∧ t.failT = true ∧ t.bit TwStat.OWNO () = false ∧ t.twin.dead = true ∧ t.twin.txq = [] ∧
      (∀ p, t.fld BpStat.STATE p = 0) ∧ ∀ nn, t.bit Qstat.LATCH nn = true ∧ (t.fld Qcause.CAUSE nn).testBit 14 = true ∧
        (d.bit Qstat.LATCH nn = false → outputsOff (t.b nn)))

/-- A missed heartbeat of ST0 or ST1 and a host command over its time restart running stewards: the flag of the cause, RSTCAUSE.STEWARD and ST_CNT, and source 642 with the cause; the stewards stop; a SUBMIT and a pattern operation in progress end refused; blocks, pattern and domains stand when no operation was under way. The fourth restart in the window holds them down with DOWN and INFO 4, and each earlier one counts in the window. With no steward running, or no host command in progress, nothing happens. The restart's end starts the stewards unless they are held down or not yet started: with no activation under way and the active bank's firmware good they run it, and the sources that it serves are enabled for ST0 or ST1; a pattern that it rejects is then no longer in effect, and settings that it rejects hold the chip, either with its CODE. The window's end clears its count; the failure window's end closes it. Which sources a firmware serves and with what entries is the firmware's, a free value (assumption log 25); that restarts by an activation do not count in the window is the model's reading (log 84). (R74, R152, R342, R451, R387, R388, R391) -/
def Obligations.StewardRestarts : Prop :=
  (∀ (c : Instr) (d : Dev) (info : Nat) (f : RF Unit),
    (c = .stewardHeartbeatMiss 0 ∧ info = 1 ∧ f = Stw.HB0_MISS) ∨ (c = .stewardHeartbeatMiss 1 ∧ info = 2 ∧ f = Stw.HB1_MISS) ∨
      (c = .stewardCmdTimeout ∧ info = 3 ∧ f = Stw.CMDTMO) → unitChip ∉ d.undef →
    (d.stwRun = false → Gives c d d) ∧
    (d.stwRun = true → c = .stewardCmdTimeout → stewardBusy d = false → Gives c d d) ∧
    (d.stwRun = true → info < 3 ∨ stewardBusy d = true → Completes c d fun t =>
      t.stwRun = false ∧ t.bit f () = true ∧ t.bit RstCause.STEWARD () = true ∧
      t.fld RstCause.ST_CNT () = min (d.fld RstCause.ST_CNT () + 1) 255 ∧ ⟨d.clk, 642, true, info, false⟩ ∈ t.evq ∧
      t.submit = none ∧ t.patOp = none ∧ (d.patOp = none → t.blk = d.blk ∧ t.pat = d.pat ∧ t.dom = d.dom) ∧
      (d.submit.isSome = true → t.bit UpdSubmit.GO () = false ∧ t.bit UpdStat.REF_SEEN () = true) ∧
      (d.patOp.isSome = true → t.bit PatStat.FAIL () = true ∧ t.fld PatStat.CODE () = 16) ∧
      (if d.fld Stw.WIN () = 3 then t.bit Stw.DOWN () = true ∧ ⟨d.clk, 642, true, 4, false⟩ ∈ t.evq
        else t.fld Stw.WIN () = (d.fld Stw.WIN () + 1) % 4 ∧ t.bit Stw.DOWN () = d.bit Stw.DOWN ()))) ∧
  ∀ d : Dev, unitChip ∉ d.undef → Gives .stewardWindowExpire d (d.clr Stw.WIN ()) ∧
    Gives .failWindowExpire d { d with failOpen := false, failWin := 0 } ∧
    (d.bit Stw.DOWN () = true ∨ d.stwRun = true ∨ d.fld Start.STAGE () < 2 → Gives .stewardRestartDone d d) ∧
    ∀ f, d.bit Stw.DOWN () = false → d.stwRun = false → 2 ≤ d.fld Start.STAGE () → d.act = none →
      sfwIn d (activeBank d) = some f → hdrCheck d 1 f.hdr none true false = 0 →
        let u := setSfw { d with stwRun := true } f
        (effectCheck u = 0 → Completes .stewardRestartDone d fun t => OnlyRegs ((List.finRange 1024).map Src.addr) u t ∧
          ∀ x, t.reg (Src.addr x) = u.reg (Src.addr x) ∨ (t.bit Src.EN x = true ∧ 2 ≤ t.fld Src.TGT x)) ∧
        (effectCheck u ≠ 0 → Completes .stewardRestartDone d fun t =>
          t.stwRun = true ∧ t.sfw = some f ∧ t.bit BootCause.HELD () = true ∧ t.fld TwStat.ROLE () = 3 ∧
          (if effectCheck u = 10 then t.pat = none ∧ t.fld Start.STAGE () = 6 else t.pat = d.pat ∧ t.fld BootCause.CODE () = effectCheck u))

/-- On an ALONE unit, with no reserved bit changed, a write to BPCTL takes STMODE and IDCOL_MODE as written; more than one command is refused with REASON 3, one other than START or ARD with no pattern or a HELD chip with 4, one in the wrong state or mode with 1. START in INIT enters INTEG in its mode, or RECOV after a BUSOFF; RECOVER in BUSOFF enters RECOV with RECOVN 0; ARD starts rate detection at the first enabled candidate, ARDSTOP ends it; STOP, GONORMAL and GOLISTEN wait while a frame is on the bus (which is open where the port itself sends none) and otherwise take effect at once. A timing write takes effect in OFF and INIT and otherwise sets CFGREF; a write to an enabled filter entry sets FEREF. GONORMAL in the clk in which rate detection locks is refused with REASON 1. ABORT_HEAD waits for an attempt with the head and otherwise takes the head from TQ and counts ABORTS. Whether a frame of another node is on the bus is a free value (assumption log 1). (R10, R282, R284, R286, R290, R296, R303, R322, R327) -/
def Obligations.PortCommands : Prop :=
  (∀ (c : Instr) (d : Dev) (h : Master) (p : Fin 4) (w : Word) (b : Fin 7),
    (c = .portStart h p w ∧ b = 0) ∨ (c = .portStop h p w ∧ b = 1) ∨ (c = .recover h p w ∧ b = 2) ∨ (c = .ard h p w ∧ b = 3) ∨
      (c = .gonormal h p w ∧ b = 4) ∨ (c = .golisten h p w ∧ b = 5) ∨ (c = .ardstop h p w ∧ b = 6) →
    let v := ownM b.val w
    let cmds := mOnes v % 128
    let x := mCfg (mCfg d BpCtl.STMODE p v) BpCtl.IDCOL_MODE p v
    let idle := (d.port p).tx = none ∧ (d.port p).modePend = none ∧ d.bit BpCtl.STOP p = false ∧ d.bit BpCtl.GONORMAL p = false ∧
      d.bit BpCtl.GOLISTEN p = false ∧
      ∀ e ∈ d.redo, e.1 ≠ BpCtl.addr p
    Alone d h (BpCtl.addr p) (unitRgn p) → mRsv 0xFC00 v = 0 →
    (cmds = 16 → b = 4 → (d.port p).lockT = some d.clk → d.pat ≠ none → chipHeldOn d = false → Gives c d (portRefuse x p 1)) ∧
    (cmds ≠ 2 ^ b.val → Gives c d (portRefuse x p 3)) ∧
    (cmds = 2 ^ b.val → d.pat = none ∨ chipHeldOn d = true → b ≠ 0 → b ≠ 3 → Gives c d (portRefuse x p 4)) ∧
    (cmds = 2 ^ b.val → b = 0 ∨ b = 3 ∨ (d.pat ≠ none ∧ chipHeldOn d = false) → portCmdOk d p b.val = false → Gives c d (portRefuse x p 1)) ∧
    (cmds = 2 ^ b.val → b = 0 ∨ b = 3 ∨ (d.pat ≠ none ∧ chipHeldOn d = false) → portCmdOk d p b.val = true →
      (b = 0 → Completes c d fun t => t.evq = d.evq ∧ (∀ q, q ≠ p → t.r q = d.r q) ∧
        if (d.port p).fromBoff then t.fld BpStat.STATE p = 6 ∧ t.fld BpErr.RECOVN p = 0
        else t.fld BpStat.STATE p = 2 ∧ t.fld BpStat.OPMODE p = modeFor x (if x.bit BpCtl.STMODE p then 2 else 0)) ∧
      (b = 1 → (d.port p).tx.isSome = true → Gives c d ((x.cmdAgain (BpCtl.addr p) 2).flag BpCtl.STOP p)) ∧
      (b = 1 → idle → Completes c d fun t => t.bit BpCtl.STOP p = true ∧ t.fld BpStat.STATE p = d.fld BpStat.STATE p ∨
        t.bit BpCtl.STOP p = false ∧ t.fld BpStat.STATE p = 1 ∧ t.bit BpStat.ARDRUN p = false) ∧
      (b = 2 → Completes c d fun t => t.fld BpStat.STATE p = 6 ∧ t.fld BpErr.RECOVN p = 0 ∧ t.fld BpStat.TEC p = d.fld BpStat.TEC p) ∧
      (b = 3 → d.fld BpArd.CEN p ≠ 0 → Completes c d fun t => t.bit BpStat.ARDRUN p = true ∧ t.bit BpArd.LOCKED p = false ∧
        t.fld BpArd.VALIDN p = 0 ∧ (d.fld BpArd.CEN p).testBit (t.fld BpArd.CAND p) = true ∧
        ∀ i < t.fld BpArd.CAND p, (d.fld BpArd.CEN p).testBit i = false) ∧
      (b = 4 ∨ b = 5 → (d.port p).tx.isSome = true → Gives c d ((x.cmdAgain (BpCtl.addr p) (2 ^ b.val)).flag (if b = 4 then BpCtl.GONORMAL else BpCtl.GOLISTEN) p)) ∧
      (b = 4 ∨ b = 5 → idle → Completes c d fun t => t.fld BpStat.STATE p = d.fld BpStat.STATE p ∧
        (t.bit (if b = 4 then BpCtl.GONORMAL else BpCtl.GOLISTEN) p = true ∧ t.fld BpStat.OPMODE p = d.fld BpStat.OPMODE p ∨
          t.bit BpCtl.GONORMAL p = false ∧ t.bit BpCtl.GOLISTEN p = false ∧ t.fld BpStat.OPMODE p = modeFor x (if b = 4 then 0 else 2))) ∧
      (b = 6 → Gives c d (x.clr BpStat.ARDRUN p)))) ∧
  (∀ (d : Dev) (h : Master) (p : Fin 4) (r : Fin 3) (w : Word), Reaches d h (timingAddr p r) (unitRgn p) → w &&& ~~~ timingMask r = 0 →
    (d.fld BpStat.STATE p ≤ 1 → Completes (.timingWrite h p r w) d fun t =>
      OnlyRegion p [timingAddr p r] d t ∧ t.reg (timingAddr p r) = w ∧ t.evq = d.evq ∧
      t.port p = { d.port p with workN := t.reg (BpNbt.addr p), workD := t.reg (BpDbt.addr p) }) ∧
    (2 ≤ d.fld BpStat.STATE p → Gives (.timingWrite h p r w) d (d.flag BpEvt.CFGREF p))) ∧
  (∀ (d : Dev) (h : Master) (p : Fin 4) (i : Fin 128) (r : Fin 4) (w : Word), Alone d h (feAddr p i r) (unitRgn p) →
    Gives (.filterEntryWrite h p i r w) d (if d.bit FeCtl.EN (p, i) then d.flag RxStat.FEREF p else d.setReg (feAddr p i r) w)) ∧
  ∀ (d : Dev) (h : Master) (p : Fin 4) (w : Word), Alone d h (TqCtl.addr p) (unitRgn p) → mRsv 0xFFC0 (ownM 0 w) = 0 →
    let x := mCfg (mCfg d TqCtl.ROTATE p (ownM 0 w)) TqCtl.ROTN p (ownM 0 w)
    (tqHead d p = none → Gives (.abortHead h p w) d x) ∧
    ((tqHead d p).isSome = true → (d.port p).tx = some .head → Gives (.abortHead h p w) d
      (if d.bit TqStat.ABORTPEND p then x.cmdAgain (TqCtl.addr p) 1 else (x.flag TqStat.ABORTPEND p).flag TqCtl.ABORT_HEAD p)) ∧
    (∀ k, tqHead d p = some k → (d.port p).tx ≠ some .head → (qGet d p tq).pkts = [k] → (d.r p).badQ = [] → (d.r p).badFree = false →
      Completes (.abortHead h p w) d fun t => (qGet t p tq).pkts = [] ∧
        t.fld TqCnt.ABORTS p = min (d.fld TqCnt.ABORTS p + 1) 255 ∧ t.bit TqStat.ABT_SEEN p = true ∧ t.fld TqStat.LOSTN p = 0)

/-- A port that takes part on its bus counts RXOK for a frame of another node and lowers REC as the standard has it; one that does not, a format that is not enabled and a frame begun before rate detection took its candidate are ignored, and a self-received frame counts only with SREN. During rate detection the frame counts in VALIDN where its data phase was decodable, the third locks the candidate, and no queue changes. A frame that the partner port of a pair had within DUPW counts in DUPCNT and goes no further. Otherwise the lowest enabled entry that matches decides, BPFDEF where none does: FSEQ advances, discard leaves every queue, unmatched, or a phase broadcast that no domain takes, counts NOMATCH, a stored frame stands at the end of RQ0 or RQ1 with the words of R322, and one that its queue cannot take whole, or whose store the crossbar has dropped, is dropped: DROP, DROPPED and DROPCNT. A phase broadcast with COPY is also stored in RQ1. During a rebuild up to two frames are held for its end. A SHADOW unit keeps the frame provisionally. The steps of REC and its free value from above 127 are assumption log 12; that BPFDEF ACT 3 counts NOMATCH and that COPY is stored whether or not a domain takes the broadcast is log 74; both are the model's choices. (R281, R290, R295, R302, R319, R320, R321, R322, R324, R384, R411) -/
def Obligations.FramesReceived : Prop :=
  ∀ (d : Dev) (p : Fin 4) (f : Frame) (self : Bool) (sof : Nat), unitRgn p ∉ d.undef → d.failDue = none →
    let c := Instr.frameReceived p f self sof
    let part := takesPart d p = true ∧ fmtOn d p f.fmt.val = true ∧ ardGone d p sof = false
    let keeps := fun (t : Dev) => ∀ q, qGet t p q = qGet d p q
    let seq := ((d.port p).fseq + 1) % 65536
    let fe := feFor d p f false
    let act := (feAction d p fe).1
    let len := 28 + f.data.length
    (¬ part → Gives c d d) ∧
    (part → self = true → d.bit Fdef.SREN p = false → Gives c d d) ∧
    (part → self = false → Completes c d fun t =>
      t.fld BpCnt.RXOK p = (d.fld BpCnt.RXOK p + 1) % 65536 ∧ t.fld BpStat.TEC p = d.fld BpStat.TEC p ∧
      (d.fld BpStat.OPMODE p ≠ 0 ∨ d.fld BpStat.REC p = 0 → t.fld BpStat.REC p = d.fld BpStat.REC p) ∧
      (d.fld BpStat.OPMODE p = 0 → 0 < d.fld BpStat.REC p → d.fld BpStat.REC p ≤ 127 → t.fld BpStat.REC p + 1 = d.fld BpStat.REC p) ∧
      (d.fld BpStat.OPMODE p = 0 → 127 < d.fld BpStat.REC p → 119 ≤ t.fld BpStat.REC p ∧ t.fld BpStat.REC p ≤ 127)) ∧
    (part → self = false → d.bit BpStat.ARDRUN p = true → Completes c d fun t =>
      keeps t ∧ (t.port p).fseq = (d.port p).fseq ∧
      let cand : Fin 4 := ⟨d.fld BpArd.CAND p % 4, Nat.mod_lt _ (by omega)⟩
      if (f.fmt.val = 4 ∨ (2 ≤ f.fmt.val ∧ f.brs = true)) ∧ d.bit BpArdD.DEN (p, cand) = false then
        t.fld BpArd.VALIDN p = d.fld BpArd.VALIDN p ∧ t.bit BpArd.LOCKED p = d.bit BpArd.LOCKED p
      else t.fld BpArd.VALIDN p = (d.fld BpArd.VALIDN p + 1) % 4 ∧
        (d.fld BpArd.VALIDN p = 2 → t.bit BpArd.LOCKED p = true ∧ t.bit BpStat.ARDRUN p = false ∧ t.bit BpEvt.ARDLOCK p = true ∧
          t.reg (BpNbt.addr p) = d.reg (BpArdN.addr (p, cand)) &&& 0x03FFFFFF) ∧
        (d.fld BpArd.VALIDN p < 2 → t.bit BpArd.LOCKED p = d.bit BpArd.LOCKED p)) ∧
    (part → self = false → d.bit BpStat.ARDRUN p = false → d.pat ≠ none →
      (∀ k : Fin 4, d.bit BpPair.PAIRED p = true → 0 < d.fld BpPair.DUPW p → d.fld BpPair.PARTNER p = k.val →
        (∃ e ∈ (d.port k).recent, d.clk ≤ e.1 + usClk d (d.fld BpPair.DUPW p) ∧ sameFrame e.2 f = true) → Completes c d fun t =>
          keeps t ∧ (t.port p).fseq = (d.port p).fseq ∧ t.fld BpPair.DUPCNT p = (d.fld BpPair.DUPCNT p + 1) % 65536) ∧
      (d.bit BpPair.PAIRED p = false ∨ d.fld BpPair.DUPW p = 0 →
        (d.fld TwStat.ROLE () = 2 → Completes c d fun t => keeps t ∧ (t.port p).prov = (d.port p).prov ++ [(f, false, sof, d.clk)]) ∧
        (d.fld TwStat.ROLE () ≠ 2 → act = 0 → Completes c d fun t => keeps t ∧ (t.port p).fseq = seq ∧
          t.fld RxCnt.DROP p = d.fld RxCnt.DROP p ∧
          t.fld RxCnt.NOMATCH p = (d.fld RxCnt.NOMATCH p + if fe = none then 1 else 0) % 65536) ∧
        (d.fld TwStat.ROLE () ≠ 2 → act = 3 → (∀ i, fe = some i → d.bit FeCtl.COPY (p, i) = false) → Completes c d fun t =>
          keeps t ∧ (t.port p).fseq = seq ∧ t.fld RxCnt.DROP p = d.fld RxCnt.DROP p ∧
          (fe = none → t.fld RxCnt.NOMATCH p = (d.fld RxCnt.NOMATCH p + 1) % 65536) ∧
          ∀ (i : Fin 128) (k : Fin 8), fe = some i → d.fld FeCtl.DOM (p, i) = k.val → t.fld RxCnt.NOMATCH p =
            (d.fld RxCnt.NOMATCH p + if srcKind d k (altInUse d k) = 5 ∧ srcSel d k (altInUse d k) = p.val then 0 else 1) % 65536) ∧
        (d.fld TwStat.ROLE () ≠ 2 → act = 1 ∨ act = 2 ∨ (act = 3 ∧ ∃ i, fe = some i ∧ d.bit FeCtl.COPY (p, i) = true) →
            (d.r p).badQ = [] → (d.r p).badFree = false →
          let q := if act = 1 then rq0 else rq1
          (d.bit RQstat.REBUILD p = true → (d.port p).xbStore = false → qLive d p q = true → (d.port p).held.length < 2 → Completes c d fun t =>
            keeps t ∧ (t.port p).fseq = seq ∧ t.fld RxCnt.DROP p = d.fld RxCnt.DROP p ∧ (t.port p).held = (d.port p).held ++
              [(q.val, (feAction d p fe).2, len, rxWords d p f false fe (feAction d p fe).2 sof seq)]) ∧
          (d.bit RQstat.REBUILD p = false → (d.port p).xbStore = false → qLive d p q = true → canTake d p q (cellsFor len) = true →
              (qGet d p q).stalls = [] → Completes c d fun t =>
            (t.port p).fseq = seq ∧ t.fld RxCnt.DROP p = d.fld RxCnt.DROP p ∧ (∀ r, r ≠ q → qGet t p r = qGet d p r) ∧
            ∃ cells, (qGet t p q).pkts = (qGet d p q).pkts ++
              [⟨(feAction d p fe).2 % 16, len, cells, rxWords d p f false fe (feAction d p fe).2 sof seq⟩]) ∧
          ((d.port p).xbStore = true ∨ qLive d p q = false ∨ (d.bit RQstat.REBUILD p = false ∧ canTake d p q (cellsFor len) = false) → Completes c d fun t =>
            keeps t ∧ (t.port p).fseq = seq ∧ t.fld RxCnt.DROP p = (d.fld RxCnt.DROP p + 1) % 65536 ∧
            t.bit QStat.DROPPED (p, q) = true ∧ t.fld QStat.DROPCNT (p, q) = (d.fld QStat.DROPCNT (p, q) + 1) % 65536 ∧ (t.port p).xbStore = false))))

/-- A bus error records LEC, LEPH and ERRCNT and ends the port's attempt; in NORMAL, TEC and REC move by the steps of the standard (a receiver by 8 for a bit error while it sends an active error or overload flag) and the error state follows them (BUSOFF above TEC 255, EPASSIVE from 128), in another mode the port waits for bus idle. A protocol exception with PXHEN only sets PXH_SEEN and waits; without it it is a form error that counts REC. The end of integration gives the error state of the counters, on a SHADOW unit none. Each recovery sequence counts RECOVN; the 128th leaves EACTIVE with TEC = REC = 0, RECOV_SEEN and the mode kept from before. A dwell without a counted frame moves rate detection to the next enabled candidate. A receiver stuck dominant sets RXDOM and raises the port event; nothing else changes. Which steps the standard gives for an error, and that the error's operand says which of its exceptions hold, is presumed (assumption log 12). (R278, R281, R290, R295, R296, R297, R385) -/
def Obligations.PortBusEvents : Prop :=
  ∀ (d : Dev) (p : Fin 4), unitRgn p ∉ d.undef → d.failDue = none → (d.r p).badQ = [] → (d.r p).badFree = false →
    let quiet := (d.port p).modePend = none ∧ d.bit BpCtl.STOP p = false ∧ d.bit BpCtl.GONORMAL p = false ∧ d.bit BpCtl.GOLISTEN p = false
    (∀ e : BusErr, (takesPart d p = false → Gives (.busError p e) d d) ∧
      (takesPart d p = true → Completes (.busError p e) d fun t =>
        t.fld BpErr.LEC p = (match e.kind with | .stuff => 1 | .form => 2 | .ack => 3 | .bit1 => 4 | .bit0 => 5 | .crc => 6) ∧
        t.bit BpErr.LEPH p = e.dataPhase ∧ t.fld BpErr.ERRCNT p = min (d.fld BpErr.ERRCNT p + 1) 255 ∧
        (t.port p).tx = none ∧ t.bit BpStat.TXING p = false ∧ ((∃ f, (d.port p).txFrame = some f ∧ 2 ≤ f.fmt.val) → d.bit BpCfg.TDCEN p = true → e.tdcFail = true → e.dataPhase = true →
          e.kind = .bit1 ∨ e.kind = .bit0 → t.bit BpEvt.TDCFAIL p = true) ∧
        (d.fld BpStat.OPMODE p = 0 →
          let spared := e.exempt = true ∧ ((e.kind = .ack ∧ d.fld BpStat.STATE p = 4) ∨ (e.kind = .stuff ∧ e.afterArb = false))
          let own := e.inFlag = true ∧ (e.kind = .bit1 ∨ e.kind = .bit0)
          let tec := min (d.fld BpStat.TEC p + if (d.port p).tx.isSome then (if spared then 0 else 8) + 8 * e.extra else 0) 511
          let rec1 := min (d.fld BpStat.REC p + if (d.port p).tx.isSome then 0 else (if own then 8 else 1) + 8 * e.extra) 255
          t.fld BpStat.TEC p = tec ∧ t.fld BpStat.REC p = rec1 ∧
          (t.port p).flagTx = some (if d.fld BpStat.STATE p = 4 then .passive else .active) ∧
          (d.bit BpCtl.STOP p = false → t.fld BpStat.STATE p =
            if 255 < tec then 5 else if 128 ≤ tec ∨ 128 ≤ rec1 then 4 else 3)) ∧
        (d.fld BpStat.OPMODE p ≠ 0 → t.fld BpStat.TEC p = d.fld BpStat.TEC p ∧ t.fld BpStat.REC p = d.fld BpStat.REC p ∧
          (d.bit BpCtl.STOP p = false → (t.port p).waitIdle = true ∧ t.fld BpStat.STATE p = d.fld BpStat.STATE p)))) ∧
    (∀ xl : Bool, (takesPart d p = false ∨ fmtOn d p (if xl then 4 else 2) = true → Gives (.protocolException p xl) d d) ∧
      (takesPart d p = true → fmtOn d p (if xl then 4 else 2) = false →
        (d.bit BpCfg.PXHEN p = true → Gives (.protocolException p xl) d
          (onPort (d.flag BpEvt.PXH_SEEN p) p fun x => { x with waitIdle := true })) ∧
        (d.bit BpCfg.PXHEN p = false → Completes (.protocolException p xl) d fun t =>
          t.fld BpErr.LEC p = 2 ∧ t.fld BpErr.ERRCNT p = min (d.fld BpErr.ERRCNT p + 1) 255 ∧ t.fld BpStat.TEC p = d.fld BpStat.TEC p ∧
          t.fld BpStat.REC p = (if d.fld BpStat.OPMODE p = 0 then min (d.fld BpStat.REC p + 1) 255 else d.fld BpStat.REC p)))) ∧
    (d.bit BpCtl.STOP p = false → Completes (.integrationDone p) d fun t =>
      (t.port p).waitIdle = false ∧ t.fld BpStat.TEC p = d.fld BpStat.TEC p ∧ t.fld BpStat.REC p = d.fld BpStat.REC p ∧
      t.fld BpStat.STATE p = if d.fld BpStat.STATE p = 2 ∧ d.fld TwStat.ROLE () ≠ 2 then
        (if 255 < d.fld BpStat.TEC p then 5 else if 128 ≤ d.fld BpStat.TEC p ∨ 128 ≤ d.fld BpStat.REC p then 4 else 3) else d.fld BpStat.STATE p) ∧
    (quiet → d.fld BpStat.STATE p ≠ 6 → Gives (.recoverySequence p) d d) ∧
    (quiet → d.fld BpStat.STATE p = 6 → d.fld BpErr.RECOVN p < 127 ∨ d.fld TwStat.ROLE () = 2 →
      Gives (.recoverySequence p) d (d.put BpErr.RECOVN p (min (d.fld BpErr.RECOVN p + 1) 128))) ∧
    (quiet → d.fld BpStat.STATE p = 6 → 127 ≤ d.fld BpErr.RECOVN p → d.fld TwStat.ROLE () ≠ 2 → Completes (.recoverySequence p) d fun t =>
      t.fld BpErr.RECOVN p = 128 ∧ t.fld BpStat.TEC p = 0 ∧ t.fld BpStat.REC p = 0 ∧ t.fld BpStat.STATE p = 3 ∧
      t.fld BpStat.OPMODE p = modeFor d (d.port p).savedMode % 4 ∧ t.bit BpEvt.RECOV_SEEN p = true) ∧
    (d.bit BpStat.ARDRUN p = false ∨ d.fld BpArd.VALIDN p ≠ 0 → Gives (.ardDwellExpire p) d d) ∧
    (d.bit BpStat.ARDRUN p = true → d.fld BpArd.VALIDN p = 0 → d.fld BpArd.CEN p ≠ 0 → Completes (.ardDwellExpire p) d fun t =>
      ∃ i < 4, let k : Fin 4 := ⟨(d.fld BpArd.CAND p + 1 + i) % 4, Nat.mod_lt _ (by omega)⟩
        (d.fld BpArd.CEN p).testBit k.val = true ∧ (∀ j < i, (d.fld BpArd.CEN p).testBit ((d.fld BpArd.CAND p + 1 + j) % 4) = false) ∧
        t.fld BpArd.CAND p = k.val ∧ t.fld BpArd.VALIDN p = 0 ∧ t.bit BpStat.ARDRUN p = true ∧
        (t.port p).workN = d.reg (BpArdN.addr (p, k)) ∧ (t.port p).workD = d.reg (BpArdD.addr (p, k))) ∧
    Completes (.rxDominant p) d fun t => t.bit Rerr.RXDOM p = true ∧ OnlyRegs [Rerr.addr p] d { t with evq := d.evq } ∧
      ⟨d.clk, rgSrc p 3, true, d.lo16 BpStat.word p, false⟩ ∈ t.evq

/-- At a transmit decision a port that can send offers the due window frame of the lowest identifier, ties going to the lower number, otherwise the head of TQ that passes its check; a head that fails leaves with TXREF, and with nothing to offer, or a window whose fetch the crossbar dropped, no attempt starts. A transmitted frame counts TXOK, lowers TEC in NORMAL, and counts SENT of its window or takes the head from TQ with the completion record asked for. A head that loses arbitration counts LOSTN or, with ROTATE at its limit, goes to the tail; where ABORT_HEAD waits it is removed with an ABORTS count. A window opens with nothing sent, due if FRESH stands; it closes with FRESH and DUE cleared and, unless an attempt runs or its frame was sent or is the partner's, counts MISS with the cause of R332 and raises the window source. That window identifiers compare as numbers is assumption log 73, that WINDOW_CLOSE is also the close for a lost domain is log 88, and the instant of start of frame and an undefined dlc are free values (log 1); these are the model's choices. (R301, R324, R384, R326, R327, R328, R329, R331, R332) -/
def Obligations.TransmitAndWindows : Prop :=
  ∀ (d : Dev) (p : Fin 4), unitRgn p ∉ d.undef → d.failDue = none → (d.r p).badQ = [] → (d.r p).badFree = false →
    let quiet := (d.port p).modePend = none ∧ d.bit BpCtl.STOP p = false ∧ d.bit BpCtl.GONORMAL p = false ∧ d.bit BpCtl.GOLISTEN p = false
    let free := portCanSend d p = true ∧ (d.port p).waitIdle = false ∧ (d.port p).tx = none
    (quiet → portCanSend d p = false ∨ (d.port p).waitIdle = true ∨ (d.port p).tx.isSome = true → Gives (.transmitDecision p) d d) ∧
    (quiet → free → (d.port p).xbFetch = true → (∃ w, d.bit WStat.DUE (p, w) = true) → Completes (.transmitDecision p) d fun t =>
      (t.port p).tx = none ∧ (t.port p).xbFetch = false ∧ t.bit BpStat.TXING p = d.bit BpStat.TXING p ∧
      ∀ w, t.bit WStat.DUE (p, w) = d.bit WStat.DUE (p, w) ∧ t.bit WStat.TXING (p, w) = d.bit WStat.TXING (p, w)) ∧
    (quiet → free → (d.port p).xbFetch = false → (∃ w, d.bit WStat.DUE (p, w) = true) → Completes (.transmitDecision p) d fun t => ∃ w k,
      d.bit WStat.DUE (p, w) = true ∧
      (∀ v, d.bit WStat.DUE (p, v) = true → d.fld WCfg0.ID (bufPort d p, w) < d.fld WCfg0.ID (bufPort d p, v) ∨
        (d.fld WCfg0.ID (bufPort d p, w) = d.fld WCfg0.ID (bufPort d p, v) ∧ w ≤ v)) ∧
      (t.port p).tx = some (.window w) ∧ (t.port p).txFrame = some (winFrame d p w k) ∧
      t.bit BpStat.TXING p = true ∧ t.bit WStat.TXING (p, w) = true) ∧
    (quiet → free → (∀ w, d.bit WStat.DUE (p, w) = false) →
      (tqHead d p = none → Gives (.transmitDecision p) d d) ∧
      (∀ h, tqHead d p = some h → headOk d p h = true → Completes (.transmitDecision p) d fun t => ∃ k,
        (t.port p).tx = some .head ∧ (t.port p).txFrame = some (pktFrame h (d.fld BpStat.STATE p == 4) k) ∧
        t.bit BpStat.TXING p = true ∧ ∀ q, qGet t p q = qGet d p q) ∧
      (∀ h, tqHead d p = some h → (qGet d p tq).pkts = [h] → headOk d p h = false → d.fld TwStat.ROLE () ≠ 2 →
        Completes (.transmitDecision p) d fun t => (qGet t p tq).pkts = [] ∧ (t.port p).tx = none ∧
          t.fld TqCnt.TXREF p = min (d.fld TqCnt.TXREF p + 1) 255 ∧ t.bit TqStat.TXREF_SEEN p = true)) ∧
    ((d.port p).txFrame = none → Gives (.frameTransmitted p) d d) ∧
    (∀ f, (d.port p).txFrame = some f → d.bit Fdef.SREN p = false → Completes (.frameTransmitted p) d fun t =>
      t.fld BpCnt.TXOK p = (d.fld BpCnt.TXOK p + 1) % 65536 ∧ (t.port p).tx = none ∧ t.bit BpStat.TXING p = false ∧
      t.fld BpStat.REC p = d.fld BpStat.REC p ∧
      t.fld BpStat.TEC p = (if d.fld BpStat.OPMODE p = 0 then d.fld BpStat.TEC p - 1 else d.fld BpStat.TEC p) ∧
      (∀ w, (d.port p).tx = some (.window w) → t.fld WCnt.SENT (p, w) = (d.fld WCnt.SENT (p, w) + 1) % 65536 ∧
        t.bit WStat.DUE (p, w) = false ∧ (winOf t p w).sent = true ∧ t.fld WCnt.MISS (p, w) = d.fld WCnt.MISS (p, w) ∧
        ∀ q, qGet t p q = qGet d p q) ∧
      (∀ h, (d.port p).tx = some .head → (d.port p).orphan = false → tqHead d p = some h → (qGet d p tq).pkts = [h] →
        (qGet t p tq).pkts = [] ∧ t.fld TqStat.LOSTN p = 0 ∧ t.bit TqStat.ABORTPEND p = false ∧ t.bit TqCtl.ABORT_HEAD p = false ∧
        t.fld TqCnt.TXREF p = d.fld TqCnt.TXREF p ∧ t.fld TqCnt.ABORTS p = d.fld TqCnt.ABORTS p ∧
        (fget 9 1 (pw h 2) = 0 → qGet t p txc = qGet d p txc) ∧
        (fget 9 1 (pw h 2) = 1 → (qGet d p txc).stalls = [] →
          (∃ cells, (qGet t p txc).pkts = (qGet d p txc).pkts ++ [⟨0, 12, cells, [BitVec.ofNat 32 (fget 0 16 (pw h 3)),
            BitVec.ofNat 32 (d.port p).sofTx, BitVec.ofNat 32 ((d.port p).sofTx / 2 ^ 32)]⟩]) ∨
          (qGet t p txc = qGet d p txc ∧ t.bit QStat.DROPPED (p, txc) = true)))) ∧
    ((d.port p).tx = none → Gives (.arbitrationLost p) d d) ∧
    (∀ w, (d.port p).tx = some (.window w) → Completes (.arbitrationLost p) d fun t => (t.port p).tx = none ∧
      t.bit WStat.TXING (p, w) = false ∧ t.bit WStat.DUE (p, w) = d.bit WStat.DUE (p, w) ∧ ∀ q, qGet t p q = qGet d p q) ∧
    (∀ h, (d.port p).tx = some .head → (d.port p).orphan = false → tqHead d p = some h → d.bit TqStat.ABORTPEND p = false →
      let lost := d.fld TqStat.LOSTN p + 1
      let turn := d.bit TqCtl.ROTATE p = true ∧ max 1 (d.fld TqCtl.ROTN p) ≤ lost
      (¬ turn → Completes (.arbitrationLost p) d fun t => (t.port p).tx = none ∧ t.fld TqStat.LOSTN p = min lost 15 ∧
        ∀ q, qGet t p q = qGet d p q) ∧
      (turn → (∀ k ∈ (qGet d p tq).pkts, headOk d p k = true) → Completes (.arbitrationLost p) d fun t =>
        (t.port p).tx = none ∧ t.fld TqStat.LOSTN p = 0 ∧ (qGet t p tq).pkts = (qGet d p tq).pkts.drop 1 ++ [h] ∧
        t.fld TqCnt.ROTATES p = (d.fld TqCnt.ROTATES p + 1) % 65536 ∧ t.bit TqStat.ROT_SEEN p = true)) ∧
    (∀ h, (d.port p).tx = some .head → (d.port p).orphan = false → tqHead d p = some h → (qGet d p tq).pkts = [h] →
      d.bit TqStat.ABORTPEND p = true → headOk d p h = true → Completes (.arbitrationLost p) d fun t =>
      let turn := d.bit TqCtl.ROTATE p = true ∧ max 1 (d.fld TqCtl.ROTN p) ≤ d.fld TqStat.LOSTN p + 1
      (t.port p).tx = none ∧ (qGet t p tq).pkts = [] ∧ t.fld TqStat.LOSTN p = 0 ∧ t.bit TqStat.ABORTPEND p = false ∧
      t.bit TqCtl.ABORT_HEAD p = false ∧ t.fld TqCnt.ABORTS p = min (d.fld TqCnt.ABORTS p + 1) 255 ∧ t.bit TqStat.ABT_SEEN p = true ∧
      t.fld TqCnt.ROTATES p = (d.fld TqCnt.ROTATES p + if abortNow d p = true ∧ turn then 1 else 0) % 65536) ∧
    ∀ i : Fin 32,
      (d.fld WCfg1.EVERY (bufPort d p, i) = 0 ∨ domValid d (winDom d p i) = false ∨ (winOf d p i).isOpen = true → Gives (.windowOpen p i) d d) ∧
      (d.fld WCfg1.EVERY (bufPort d p, i) ≠ 0 → domValid d (winDom d p i) = true → (winOf d p i).isOpen = false → (winOf d p i).closing = false →
        d.bit BpPair.PAIRED p = false → Completes (.windowOpen p i) d fun t =>
          let fresh := d.bit WStat.FRESH (p, i)
          winOf t p i = ⟨true, fresh, fresh && portCanSend d p, false, false, false, false⟩ ∧ OnlyRegs [WStat.addr (p, i)] d { t with rgn := d.rgn } ∧
          t.bit WStat.DUE (p, i) = (fresh || d.bit WStat.DUE (p, i)) ∧ t.bit WStat.FRESH (p, i) = fresh) ∧
      ((winOf d p i).isOpen = false → Gives (.windowClose p i) d d) ∧
      ((winOf d p i).isOpen = true → Completes (.windowClose p i) d fun t =>
        let x := winOf d p i
        let invalid := domValid d (winDom d p i) = false
        (winOf t p i).isOpen = false ∧ t.bit WStat.FRESH (p, i) = false ∧ t.bit WStat.DUE (p, i) = false ∧
        (∀ q, qGet t p q = qGet d p q) ∧
        ((d.port p).tx = some (.window i) ∧ ¬ invalid → (winOf t p i).closing = true ∧ t.fld WCnt.MISS (p, i) = d.fld WCnt.MISS (p, i)) ∧
        (¬ ((d.port p).tx = some (.window i) ∧ ¬ invalid) → (winOf t p i).closing = false ∧
          (x.sent = true ∨ x.away = true ∨ (x.wasDue = false ∧ standbyOther d p = true) ∨ d.fld TwStat.ROLE () = 2 → t.fld WCnt.MISS (p, i) = d.fld WCnt.MISS (p, i) ∧ t.evq = d.evq) ∧
          (x.sent = false → x.away = false → x.wasDue = true ∨ standbyOther d p = false → d.fld TwStat.ROLE () ≠ 2 →
            t.fld WCnt.MISS (p, i) = (d.fld WCnt.MISS (p, i) + 1) % 65536 ∧ t.bit WStat.MISSED_SEEN (p, i) = true ∧
            (t.fld Wsum.MISSED p).testBit i.val = true ∧ t.evq = (d.raise (rgSrc p 6) i.val).evq ∧
            t.fld WStat.CAUSE (p, i) = if invalid then 5 else if x.withdrawn then 4 else if ¬ x.wasDue then 1 else if ¬ x.couldSend then 2 else 3)))

/-- A pop by a master that is not the queue's consumer returns 0xFFFF_FFFF, removes nothing from any queue and sets NOTCONS; for this purpose PF0, PF1 and the serial host port together are the host. It holds for every queue in use of every region, in every state in which the master reaches the device and the two copies of the pointers agree. (R315) -/
def Obligations.PopForTheConsumerOnly : Prop :=
  ∀ (d : Dev) (h : Master) (n : Fin 4) (q : Fin 64), Reaches d h (QPop.addr (n, q)) (unitRgn n) → d.failDue = none →
    (d.r n).badQ = [] → (d.r n).badFree = false → d.bit QCfg0.USED (n, q) = true →
    (match h with | .pf0 | .pf1 | .shp => d.fld QCfg1.CONS (n, q) ≠ 0 | .st0 | .st1 => d.fld QCfg1.CONS (n, q) ≠ 1) →
    Completes (.pop h n q) d fun t =>
      t.out = (answer d h 0 [0xFFFFFFFF]).out ∧ t.bit QStat.NOTCONS (n, q) = true ∧ (∀ m, t.r m = d.r m) ∧
      OnlyRegs [QStat.addr (n, q)] d { t with out := d.out }

/-- Where the pointer copies agree, the master is the queue's producer or consumer and the queue is live: PDATA opens a packet with one cell or appends a word, with a new cell whenever the current one is full; a word that finds no cell, the 1024th word and a push to a queue in reset drop the packet whole. PEND links the packet with LEN and PRI and ends dropping. A pop of a STREAM queue returns the length slot of the oldest packet of the highest priority, then its words; of a HOLD queue a handle and the entry is owned, at most 16; at an empty queue it waits, and after its time gets the sentinel with EMPTY. ACK of an owned entry with its generation, and the owner timeout, free it; another ACK sets STALEACK. A push of another producer only counts DROPCNT. Which free cell a push takes is a free value (assumption log 1); that a packet dropped ignores further pushes up to PEND, and that a trim which leaves no word gives LEN 0, is log 75, the model's choice. That the copies of the pointers agree is a hypothesis; where they differ, see QueueUpkeep. (R307, R309, R310, R311, R312, R313, R314, R318, R371) -/
def Obligations.PushesAndPops : Prop :=
  ∀ (d : Dev) (n : Fin 4) (q : Fin 64), d.failDue = none → (d.r n).badQ = [] → (d.r n).badFree = false →
    let x := qGet d n q
    let others := fun (t : Dev) => ∀ r, r ≠ q → qGet t n r = qGet d n r
    let dropped := fun (t : Dev) (going : Bool) => (qGet t n q).opn = none ∧ (qGet t n q).dropping = going ∧ (qGet t n q).pkts = x.pkts ∧
      t.bit QStat.DROPPED (n, q) = true ∧ t.fld QStat.DROPCNT (n, q) = (d.fld QStat.DROPCNT (n, q) + 1) % 65536 ∧
      t.evq = (d.raise (rgSrc n 1) q.val).evq
    (∀ (h : Master) (w : Word), Alone d h (QPdata.addr (n, q)) (unitRgn n) →
      (notProd d n q (whoOf h) = true → Gives (.pdata h n q w) d (d.inc QStat.DROPCNT (n, q))) ∧
      (notProd d n q (whoOf h) = false → d.bit RQstat.REBUILD n = true → Completes (.pdata h n q w) d fun t =>
        (t.r n).heldPush = (d.r n).heldPush ++ [(q, false, whoOf h, w)] ∧ ∀ r, qGet t n r = qGet d n r) ∧
      (notProd d n q (whoOf h) = false → d.bit RQstat.REBUILD n = false →
        (x.dropping = true → Gives (.pdata h n q w) d d) ∧
        (x.dropping = false → qLive d n q = false → Completes (.pdata h n q w) d fun t => dropped t true) ∧
        (x.dropping = false → qLive d n q = true →
          (x.opn = none → canTake d n q 1 = false → Completes (.pdata h n q w) d fun t => dropped t true) ∧
          (x.opn = none → canTake d n q 1 = true → Completes (.pdata h n q w) d fun t => others t ∧
            ∃ cell, qGet t n q = { x with opn := some ⟨0, 0, [cell], [w]⟩ }) ∧
          (∀ k, x.opn = some k → k.words.length < 1023 → (k.words.length + 1) % 16 ≠ 0 → Completes (.pdata h n q w) d fun t =>
            others t ∧ qGet t n q = { x with opn := some { k with words := k.words ++ [w] } }) ∧
          (∀ k, x.opn = some k → k.words.length < 1023 → (k.words.length + 1) % 16 = 0 → canTake d n q 1 = true →
            Completes (.pdata h n q w) d fun t => others t ∧ ∃ cell,
              qGet t n q = { x with opn := some { k with cells := k.cells ++ [cell], words := k.words ++ [w] } }) ∧
          (∀ k, x.opn = some k → 1023 ≤ k.words.length ∨ ((k.words.length + 1) % 16 = 0 ∧ canTake d n q 1 = false) →
            Completes (.pdata h n q w) d fun t => dropped t true)))) ∧
    (∀ (h : Master) (w : Word), Alone d h (QPend.addr (n, q)) (unitRgn n) → w &&& 0xFFFFFFC0 = 0 → q ≠ tq →
      (notProd d n q (whoOf h) = true → Gives (.pend h n q w) d (d.inc QStat.DROPCNT (n, q))) ∧
      (notProd d n q (whoOf h) = false → d.bit RQstat.REBUILD n = false →
        (x.dropping = true → Completes (.pend h n q w) d fun t => others t ∧ qGet t n q = { x with dropping := false }) ∧
        (x.dropping = false → qLive d n q = false → Completes (.pend h n q w) d fun t => dropped t false) ∧
        (∀ k, x.dropping = false → qLive d n q = true → x.opn = some k → x.stalls = [] → Completes (.pend h n q w) d fun t =>
          let len := 4 * k.words.length - fget 4 2 w
          others t ∧ qGet t n q = { x with opn := none, pkts := x.pkts ++ [⟨fget 0 4 w, len, k.cells, trimWords len k.words⟩] }))) ∧
    (∀ h : Master, Reaches d h (QPop.addr (n, q)) (unitRgn n) → d.fld QCfg1.CONS (n, q) = whoOf h →
      (qLive d n q = false → Gives (.pop h n q) d (answer (d.flag QStat.EMPTY (n, q)) h 0 [sentinel])) ∧
      (qLive d n q = true →
        (d.bit QCfg0.MODE (n, q) = true → 16 ≤ x.owned.length →
          Gives (.pop h n q) d (answer (d.flag QStat.OWNFULL (n, q)) h 0 [sentinel])) ∧
        (d.bit QCfg0.MODE (n, q) = false ∨ x.owned.length < 16 → x.cur = none → x.pkts = [] → Completes (.pop h n q) d fun t =>
          others t ∧ qGet t n q = { x with stalls := x.stalls ++ [(h, none)] } ∧ t.out = d.out) ∧
        (x.stalls = [] → d.bit QCfg0.MODE (n, q) = false →
          (∀ k i, x.cur = some (k, i) → Completes (.pop h n q) d fun t => others t ∧ (qGet t n q).pkts = (if i = 0 then x.pkts.erase k else x.pkts) ∧
            (qGet t n q).cur = (if i = k.words.length then none else some (k, i + 1)) ∧
            t.out = (answer d h 0 [if i = 0 then lenSlot k else (k.words[i - 1]?).getD 0]).out) ∧
          (x.cur = none → x.pkts ≠ [] → Completes (.pop h n q) d fun t => others t ∧ ∃ k ∈ x.pkts,
            (∀ j ∈ x.pkts, j.pri ≤ k.pri) ∧ x.pkts.find? (fun j => j.pri == k.pri) = some k ∧ (qGet t n q).pkts = x.pkts.erase k ∧
            (qGet t n q).cur = (if k.words = [] then none else some (k, 1)) ∧ t.out = (answer d h 0 [lenSlot k]).out)) ∧
        (x.stalls = [] → d.bit QCfg0.MODE (n, q) = true → x.owned.length < 16 → x.cur = none → x.pkts ≠ [] → Completes (.pop h n q) d fun t =>
          others t ∧ ∃ k ∈ x.pkts, (∀ j ∈ x.pkts, j.pri ≤ k.pri) ∧ x.pkts.find? (fun j => j.pri == k.pri) = some k ∧
            qGet t n q = { x with pkts := x.pkts.erase k, owned := x.owned ++ [k] } ∧
            t.out = (answer d h 0 [BitVec.ofNat 32 (k.cells.head?.getD 0 % 8192 + tz (d.r n).gen (k.cells.head?.getD 0) % 8 * 2 ^ 13 +
              k.pri % 16 * 2 ^ 16 + k.cells.length * 2 ^ 20)]).out))) ∧
    (unitRgn n ∉ d.undef →
      (x.stalls = [] → Gives (.popStallTimeout n q) d d) ∧
      (∀ e ms, x.stalls = e :: ms → Gives (.popStallTimeout n q) d
        (answer ((onQ d n q fun x => { x with stalls := ms }).flag QStat.EMPTY (n, q)) e.1 0 (e.2.toList ++ [sentinel])))) ∧
    (∀ (h : Master) (w : Word), Reaches d h (QAck.addr (n, q)) (unitRgn n) → w &&& 0xFFFF0000 = 0 →
      let c := fget 0 13 w
      (d.bit QStat.RST (n, q) = true ∨ (∀ k ∈ x.owned, k.cells.head? ≠ some c) ∨ tz (d.r n).gen c % 8 ≠ fget 13 3 w →
        Gives (.ack h n q w) d (d.flag QStat.STALEACK (n, q))) ∧
      (∀ k ∈ x.owned, d.bit QStat.RST (n, q) = false → k.cells.head? = some c → (∀ j ∈ x.owned, j.cells.head? = some c → j = k) →
        tz (d.r n).gen c % 8 = fget 13 3 w → Completes (.ack h n q w) d fun t => others t ∧ qGet t n q = { x with owned := x.owned.erase k } ∧
          tz (t.r n).gen c = (tz (d.r n).gen c + 1) % 8 ∧ t.bit QStat.STALEACK (n, q) = d.bit QStat.STALEACK (n, q) ∧
          (Rgn.wf (d.r n) = true → ∀ e ∈ k.cells, tz (t.r n).used e = 0))) ∧
    ∀ c : Nat, unitRgn n ∉ d.undef →
      (chanHolds d n q c = true ∨ d.fld QCfg1.OWNTMO (n, q) = 0 ∨ d.bit QStat.RST (n, q) = true ∨ (∀ k ∈ x.owned, k.cells.head? ≠ some c) →
        Gives (.owntmoExpire n q c) d d) ∧
      (∀ k ∈ x.owned, chanHolds d n q c = false → d.fld QCfg1.OWNTMO (n, q) ≠ 0 → d.bit QStat.RST (n, q) = false → k.cells.head? = some c →
        (∀ j ∈ x.owned, j.cells.head? = some c → j = k) → Completes (.owntmoExpire n q c) d fun t =>
          others t ∧ qGet t n q = { x with owned := x.owned.erase k } ∧ tz (t.r n).gen c = (tz (d.r n).gen c + 1) % 8 ∧
          t.bit QStat.RECLAIM (n, q) = true ∧ t.fld QStat.DROPCNT (n, q) = (d.fld QStat.DROPCNT (n, q) + 1) % 65536 ∧
          t.evq = (d.raise (rgSrc n 1) q.val).evq)

/-- With no reserved bit changed, SLAG of a HOLD queue only sets REF; of a STREAM queue it discards the rest of the packet being read, and does nothing where none is read. FLUSH sets RST, counts RESETS, ends the open packet and answers every stalled pop with the sentinel and EMPTY, without QERR. A queue with QSTALE that is live and not empty sets STALE and raises the region's queue event. At the end of a scrub the queue is empty with RST 0, owns nothing and no cell of the pool is its. At the end of a rebuild REBUILD is 0 and nothing is held any more; a word held for a packet that is open is appended to it. A use that finds the copies of a queue's pointers or tags different resets the queues that the mismatch involves and no other, with RST, QERR, QERRQ and QERRCNT; one that finds the free list different begins a rebuild with QERRFL and QERR, leaves every queue intact and holds the push. Which copies differ, and when, no row of the table says; the state holds it (assumption logs 23 and 113). What is left open of a push held for a rebuild is log 75. Both are the model's choices. (R313, R316, R317, R318, R319, R333) -/
def Obligations.QueueUpkeep : Prop :=
  (∀ (d : Dev) (n : Fin 4) (q : Fin 64), unitRgn n ∉ d.undef → d.failDue = none → (d.r n).badQ = [] → (d.r n).badFree = false →
    let x := qGet d n q
    (∀ (h : Master) (w : Word), Reaches d h (QCtl.addr (n, q)) (unitRgn n) →
      (mRsv 0xFFFC (ownM 0 w) = 0 → mOnes (ownM 0 w) % 4 = 1 →
        (d.bit QCfg0.MODE (n, q) = true → Gives (.slag h n q w) d (d.flag QStat.REF (n, q))) ∧
        (d.bit QCfg0.MODE (n, q) = false → x.cur = none → Gives (.slag h n q w) d d) ∧
        (∀ k i, d.bit QCfg0.MODE (n, q) = false → x.cur = some (k, i) → Completes (.slag h n q w) d fun t =>
          qGet t n q = { x with cur := none } ∧ t.regs = d.regs ∧ (∀ r, r ≠ q → qGet t n r = qGet d n r) ∧
          (Rgn.wf (d.r n) = true → ∀ e, tz (t.r n).used e = if e ∈ k.cells.drop (i / 16) then 0 else tz (d.r n).used e))) ∧
      (mRsv 0xFFFC (ownM 1 w) = 0 → mOnes (ownM 1 w) % 4 = 2 → Completes (.flush h n q w) d fun t =>
        t.bit QStat.RST (n, q) = true ∧ t.fld RQcnt.RESETS n = (d.fld RQcnt.RESETS n + 1) % 65536 ∧
        t.fld RQstat.QERRCNT n = d.fld RQstat.QERRCNT n ∧ t.bit RQstat.QERR n = d.bit RQstat.QERR n ∧
        (qGet t n q).stalls = [] ∧ (qGet t n q).opn = none ∧
        (∀ e ∈ x.stalls, (∃ o ∈ t.out, (answer d e.1 0 (e.2.toList ++ [sentinel])).out = o :: d.out) ∧ t.bit QStat.EMPTY (n, q) = true) ∧
        (x.opn ≠ none → t.bit QStat.DROPPED (n, q) = true ∧ (qGet t n q).dropping = true) ∧
        ∀ r, r ≠ q → qGet t n r = qGet d n r)) ∧
    (d.fld QCfg1.QSTALE (n, q) ≠ 0 → x.cur ≠ none ∨ x.pkts ≠ [] → qLive d n q = true → Completes (.staleExpire n q) d fun t =>
      t.bit QStat.STALE (n, q) = true ∧ t.evq = (d.raise (rgSrc n 1) q.val).evq ∧ OnlyRegs [QStat.addr (n, q)] d { t with evq := d.evq }) ∧
    (d.fld QCfg1.QSTALE (n, q) = 0 ∨ (x.cur = none ∧ x.pkts = []) ∨ qLive d n q = false → Gives (.staleExpire n q) d d) ∧
    (d.bit QStat.RST (n, q) = false → Gives (.scrubDone n q) d d) ∧
    (d.bit QStat.RST (n, q) = true → Rgn.wf (d.r n) = true → Completes (.scrubDone n q) d fun t =>
      t.bit QStat.RST (n, q) = false ∧ qGet t n q = { x with pkts := [], opn := none, cur := none, owned := [] } ∧
      (∀ r, r ≠ q → qGet t n r = qGet d n r) ∧
      (∀ e, tz (d.r n).used e = q.val + 1 → tz (t.r n).used e = 0 ∧ ∀ i < 16, tget (fun _ => 0) (t.r n).cellMem (16 * e + i) = 0#32) ∧
      (∀ e, tz (d.r n).used e ≠ q.val + 1 → tz (t.r n).used e = tz (d.r n).used e)) ∧
    (d.bit RQstat.REBUILD n = false → Gives (.rebuildDone n) d d) ∧
    (d.bit RQstat.REBUILD n = true → Completes (.rebuildDone n) d fun t =>
      t.bit RQstat.REBUILD n = false ∧ (t.r n).heldPush = [] ∧ (t.port n).held = [] ∧
      ∀ who w k, (d.r n).heldPush = [(q, false, who, w)] → (d.port n).held = [] → notProd d n q who = false → x.dropping = false →
        qLive d n q = true → x.opn = some k → k.words.length < 1023 → (k.words.length + 1) % 16 ≠ 0 →
        qGet t n q = { x with opn := some { k with words := k.words ++ [w] } })) ∧
  ∀ (d : Dev) (n : Fin 4) (q : Fin 64) (h : Master) (w : Word), unitRgn n ∉ d.undef → d.failDue = none → (d.r n).qerrWin < 7 →
    (∀ r, (d.r n).badQ = [(q, r)] → (d.r n).badFree = false → Reaches d h (QCtl.addr (n, q)) (unitRgn n) → mRsv 0xFFFC (ownM 0 w) = 0 →
      mOnes (ownM 0 w) % 4 = 1 → Completes (.slag h n q w) d fun t =>
        t.bit QStat.RST (n, q) = true ∧ t.bit QStat.RST (n, r) = true ∧ t.bit RQstat.QERR n = true ∧ t.bit RQstat.QERRFL n = false ∧
        (r = q → t.fld RQstat.QERRQ n = q.val) ∧ (t.r n).badQ = [] ∧
        t.fld RQstat.QERRCNT n = min (d.fld RQstat.QERRCNT n + if r = q then 1 else 2) 255 ∧
        t.fld RQcnt.RESETS n = (d.fld RQcnt.RESETS n + if r = q then 1 else 2) % 65536 ∧
        ∀ k, k ≠ q → k ≠ r → qGet t n k = qGet d n k ∧ t.bit QStat.RST (n, k) = d.bit QStat.RST (n, k)) ∧
    ((d.r n).badQ = [] → (d.r n).badFree = true → Alone d h (QPdata.addr (n, q)) (unitRgn n) → notProd d n q (whoOf h) = false →
      Completes (.pdata h n q w) d fun t =>
        t.bit RQstat.REBUILD n = true ∧ t.bit RQstat.QERRFL n = true ∧ t.bit RQstat.QERR n = true ∧ (t.r n).badFree = false ∧
        t.fld RQstat.QERRCNT n = min (d.fld RQstat.QERRCNT n + 1) 255 ∧ (∀ k, qGet t n k = qGet d n k) ∧
        (t.r n).heldPush = (d.r n).heldPush ++ [(q, false, whoOf h, w)])

/-- For every value a in units of which b make one unit of the 20-bit destination, satS 20 (rdiv a b) is the integer nearest to a / b, a tie going away from zero, saturated to the range -2^19 to 2^19 - 1; narrow, which every kernel cell uses for its A48 results, is this with b = 2^13. (R8) -/
def Obligations.NarrowingRoundsToNearest : Prop :=
  (∀ a : Int, narrow a = satS 20 (rdiv a 8192)) ∧
  ∀ (a : Int) (b : Nat), 0 < b → ∃ r : Int,
    2 * (a - r * b).natAbs ≤ b ∧ (2 * (a - r * b).natAbs = b → a.natAbs < (r * b).natAbs) ∧
    satS 20 (rdiv a b) = if r < -524288 then -524288 else if 524287 < r then 524287 else r

/-- The first message waiting is taken and MSGS counts; a LEVEL source's SACT follows it, and an assert of a disabled source does nothing more. An assert of an enabled source of class N counts in its unclaimed record if it has one; else it does nothing if suppressed; else it becomes pending while its hold-off runs or its ring is full (then OVF); else a record is written to a free slot of its target and its hold-off starts. Class F writes its fast record register with COUNT and MULTI. A withdraw, of a disabled source too, clears pending, count and suppression and marks the source's records. A doorbell write is queued if the master may name the source, otherwise counted in IGN, and in PRIV for an unprivileged master. The end of a hold-off presents the one pending source of its group and starts it again. Which free slot a record takes is a free value (assumption logs 1 and 72). That a withdraw of a source that is not enabled acts in full is log 72; both are the model's choices. (R338, R339, R340, R341, R344, R345, R346, R347, R350, R352) -/
def Obligations.EventMessages : Prop :=
  (∀ (d : Dev), unitChip ∉ d.undef → d.evq = [] → Gives .evgMessage d d) ∧
  (∀ (d : Dev) (m : Msg) (ms : List Msg), unitChip ∉ d.undef → d.evq = m :: ms → m.src < 1024 → Memory.wf d = true →
    let s := m.src
    let i := srcIx s
    let T := srcTgt d s
    let lvl := srcLevel d s
    let recs := fun (t : Dev) => ∀ u k, recOfSlot t u k = recOfSlot d u k ∧ (targOf t u).ord = (targOf d u).ord
    Completes .evgMessage d (fun t => t.evq = ms ∧ t.fld EvgCnt.MSGS () = (d.fld EvgCnt.MSGS () + 1) % 65536 ∧
      (∀ v, sbit t Sact.V v = if v % 1024 = s ∧ lvl then m.assert else sbit d Sact.V v) ∧ ∀ a, t.reg (Src.addr a) = d.reg (Src.addr a)) ∧
    (d.bit Src.EN i = false → m.assert = true ∨ lvl = false → Completes .evgMessage d fun t => recs t ∧ t.src = d.src ∧ (∀ v, sbit t Spnd.V v = sbit d Spnd.V v) ∧
      ∀ f, t.reg (TFr.addr f) = d.reg (TFr.addr f)) ∧
    (d.bit Src.EN i = true → m.assert = true → d.bit Src.CLASS i = false →
      (∀ k, (unclaimed d T).find? (fun k => (recOfSlot d T k).src == s) = some k → Completes .evgMessage d fun t =>
        recOfSlot t T k = { recOfSlot d T k with merged := min ((recOfSlot d T k).merged + 1) 255, withdrawn := false } ∧
        (∀ u j, (u, j) ≠ (T, k) → recOfSlot t u j = recOfSlot d u j) ∧ sbit t Spnd.V s = sbit d Spnd.V s) ∧
      ((∀ k ∈ unclaimed d T, (recOfSlot d T k).src ≠ s) →
        ((srcSt d s).sup = true → Completes .evgMessage d fun t => recs t ∧ sbit t Spnd.V s = sbit d Spnd.V s) ∧
        ((srcSt d s).sup = false → d.bit Hog.RUN (srcGrp d s) = true ∨ 128 ≤ (targOf d T).ord.length → Completes .evgMessage d fun t =>
          recs t ∧ sbit t Spnd.V s = true ∧ (srcSt t s).info = m.info % 65536 ∧ (srcSt t s).time = m.clk - d.patT ∧
          (128 ≤ (targOf d T).ord.length → t.fld TCnt.OVF T = min (d.fld TCnt.OVF T + 1) 255 ∧ t.bit TStat.OVF_SEEN T = true) ∧
          ((targOf d T).ord.length < 128 → t.fld TCnt.OVF T = d.fld TCnt.OVF T)) ∧
        ((srcSt d s).sup = false → d.bit Hog.RUN (srcGrp d s) = false → (targOf d T).ord.length < 128 → Completes .evgMessage d fun t =>
          t.bit Hog.RUN (srcGrp d s) = d.bit Hog.HOLDOFF (srcGrp d s) ∧ sbit t Spnd.V s = false ∧ ∃ k < 128, k ∉ (targOf d T).ord ∧
            (targOf t T).ord = (targOf d T).ord ++ [k] ∧ (targOf t T).seq = ((targOf d T).seq + 1) % 256 ∧
            recOfSlot t T k = ⟨s, lvl, false, false, m.sw, false, 0, (targOf d T).seq, m.clk - d.patT, m.info % 65536⟩ ∧
            ∀ u j, (u, j) ≠ (T, k) → recOfSlot t u j = recOfSlot d u j))) ∧
    (d.bit Src.EN i = true → m.assert = true → d.bit Src.CLASS i = true → Completes .evgMessage d fun t =>
      let f : FrIx := (T, ⟨d.fld Src.FSLOT i % 8, Nat.mod_lt _ (by omega)⟩)
      recs t ∧ frGet t f 0 10 = s ∧ frGet t f 10 1 = lvl.toNat ∧ frGet t f 11 1 = 0 ∧ frGet t f 14 1 = 1 ∧
      frGet t f 16 8 = min (frGet d f 16 8 + 1) 255 ∧
      frGet t f 12 1 = (if frGet d f 14 1 = 1 ∧ frGet d f 0 10 ≠ s then 1 else frGet d f 12 1) ∧
      ∀ g, g ≠ f → t.reg (TFr.addr g) = d.reg (TFr.addr g)) ∧
    (m.assert = false → Completes .evgMessage d fun t =>
      (∀ u k, (targOf t u).ord = (targOf d u).ord ∧ recOfSlot t u k = { recOfSlot d u k with withdrawn := (recOfSlot d u k).withdrawn ||
        (lvl && decide (k ∈ (targOf d u).ord) && decide ((recOfSlot d u k).src = s)) }) ∧
      (lvl = true → sbit t Spnd.V s = false ∧ (srcSt t s).rep = 0 ∧ (srcSt t s).sup = false ∧
        ∀ f, frGet d f 14 1 = 1 → frGet d f 0 10 = s → frGet t f 11 1 = 1) ∧
      (lvl = false → sbit t Spnd.V s = sbit d Spnd.V s ∧ t.src = d.src))) ∧
  (∀ (d : Dev) (h : Master) (w : Word), Reaches d h (Doorbell.addr ()) unitChip → w &&& 0x7C00 = 0 →
    let n := fget 0 10 w
    let may := srcExists n = true ∧ (privileged d h = true ∨ 960 ≤ n)
    (may → Gives (.doorbellWrite h w) d { d with evq := msgInsert ⟨d.clk, n, w.getLsbD 15, fget 16 16 w, true⟩ d.evq }) ∧
    (¬ may → Completes (.doorbellWrite h w) d fun t => t.fld EvgCnt.IGN () = (d.fld EvgCnt.IGN () + 1) % 65536 ∧
      (privileged d h = true → t.evq = d.evq ∧ t.fld HostErr.PRIV () = d.fld HostErr.PRIV ()) ∧
      (privileged d h = false → t.fld HostErr.PRIV () = min (d.fld HostErr.PRIV () + 1) 255 ∧
        ∀ x ∈ t.evq, x ∈ d.evq ∨ x.src = 641))) ∧
  ∀ (d : Dev) (g : Fin 64), unitChip ∉ d.undef →
    (d.bit Hog.RUN g = false → Gives (.holdoffExpire g) d d) ∧
    (d.bit Hog.RUN g = true → (∀ s < 1024, sbit d Spnd.V s = true → srcGrp d s ≠ g) → Gives (.holdoffExpire g) d (d.clr Hog.RUN g)) ∧
    ∀ s < 1024, d.bit Hog.RUN g = true → sbit d Spnd.V s = true → srcGrp d s = g →
      (∀ v < 1024, v ≠ s → sbit d Spnd.V v = true → srcGrp d v ≠ g) → (targOf d (srcTgt d s)).ord.length < 128 →
      Completes (.holdoffExpire g) d fun t => t.bit Hog.RUN g = d.bit Hog.HOLDOFF g ∧ sbit t Spnd.V s = false ∧
        ∃ k < 128, k ∉ (targOf d (srcTgt d s)).ord ∧ (targOf t (srcTgt d s)).ord = (targOf d (srcTgt d s)).ord ++ [k] ∧
          recOfSlot t (srcTgt d s) k = ⟨s, srcLevel d s, false, (srcSt d s).sup, (srcSt d s).sw, false, 0,
            (targOf d (srcTgt d s)).seq, (srcSt d s).time, (srcSt d s).info⟩

/-- T2 and T3 and the routing and hold-off registers take privileged masters only; another master counts PRIV and reads 0. A claim answers the oldest unclaimed record's handle and claims it, or takes nothing with none, with 16 claimed (CLMFULL) or while Ladle takes the records. A completion with the slot and SEQ of a claimed record frees it and re-presents a LEVEL source that is still active, suppressing it at STUCKN; another sets BADCOMP; either counts SPURIOUS if asked, and at H0 one that leaves a record unclaimed requests NVEC again. A read of a fast record register answers it with ACTIVE and clears PEND, COUNT, MULTI and WITHDRAWN. Reads of T1 release the wake hold. SLEEP is set by writing 1, and something wakeable that is pending ends it at once. Routing and hold-off writes change only their register. That CLMFULL shows whenever 16 records are claimed, and that the freed slot presents again only a source enabled with class N, is assumption log 72; whether a steward waits is a free value (log 20). These are the model's choices. (R108, R109, R343, R347, R348, R349, R350, R351, R353, R354) -/
def Obligations.EventTargets : Prop :=
  (∀ (d : Dev) (h : Master) (T : Fin 4), 2 ≤ T.val → privileged d h = false →
    (∀ i : Fin 8, Reaches d h (TFr.addr (T, i)) unitChip → Gives (.fastRecordRead h T i) d (answer (d.hostErr 0 h false (TFr.addr (T, i)) 15) h 0 [0])) ∧
    (Reaches d h (TClaim.addr T) unitChip → Gives (.claim h T) d (answer (d.hostErr 0 h false (TClaim.addr T) 15) h 0 [0])) ∧
    ∀ w, Reaches d h (TComplete.addr T) unitChip → Gives (.complete h T w) d (d.hostErr 0 h true (TComplete.addr T) 15)) ∧
  (∀ (d : Dev) (h : Master) (T : Fin 4), Memory.wf d = true → T.val < 2 ∨ privileged d h = true →
    let away := T.val < 2 ∧ d.bit TCfg.LADLE T = true
    let recs := fun (t : Dev) => ∀ u, (targOf t u).ord = (targOf d u).ord ∧ ∀ k, recOfSlot t u k = recOfSlot d u k
    (Reaches d h (TClaim.addr T) unitChip →
      (16 ≤ heldCount d T ∨ away ∨ unclaimed d T = [] → Completes (.claim h T) d fun t => recs t ∧ t.out = (answer d h 0 [0xFFFFFFFF]).out ∧
        t.bit TStat.CLMFULL T = (decide (16 ≤ heldCount d T) || d.bit TStat.CLMFULL T)) ∧
      (∀ k ks, heldCount d T < 16 → ¬ away → unclaimed d T = k :: ks → Completes (.claim h T) d fun t =>
        (∃ o ∈ t.out, (answer d h 0 [claimHandle k (recOfSlot d T k)]).out = o :: d.out) ∧ recOfSlot t T k = { recOfSlot d T k with claimed := true } ∧
        (∀ u, (targOf t u).ord = (targOf d u).ord) ∧ (∀ u j, (u, j) ≠ (T, k) → recOfSlot t u j = recOfSlot d u j) ∧
        (T = 1 → (targOf t 1).wakeHeld = true → wakeable d 1 = true))) ∧
    (∀ w, Reaches d h (TComplete.addr T) unitChip → w &&& 0xFFFE0080 = 0 →
      let k := fget 0 7 w
      let r := recOfSlot d T k
      let good := ¬ away ∧ k ∈ (targOf d T).ord ∧ r.claimed = true ∧ r.seq = fget 8 8 w
      let again := srcLevel d r.src = true ∧ sbit d Sact.V r.src = true ∧ d.bit Src.EN (srcIx r.src) = true ∧
        d.bit Src.CLASS (srcIx r.src) = false ∧ (srcSt d r.src).sup = false
      (¬ good → Completes (.complete h T w) d fun t => recs t ∧ t.bit TStat.BADCOMP T = true ∧ (∀ v < 1024, sbit t Spnd.V v = sbit d Spnd.V v) ∧
        t.fld TCnt.SPURIOUS T = (d.fld TCnt.SPURIOUS T + fget 16 1 w) % 65536 ∧ (T ≠ 0 → t.out = d.out) ∧
        (T = 0 → (sigNow d 0).1 = true → fint d 0 = false → (vget d.fn (h0Fn d)).msiEn = true →
          (vget d.fn (h0Fn d)).msiMask.getLsbD (d.fld TCfg.NVEC 0) = false → t.out = .msi (h0Fn d == 1) (d.fld TCfg.NVEC 0) :: d.out)) ∧
      (good → (∀ s < 1024, sbit d Spnd.V s = false) → ¬ again → Completes (.complete h T w) d fun t =>
        (targOf t T).ord = (targOf d T).ord.filter (· ≠ k) ∧ (∀ u, u ≠ T → (targOf t u).ord = (targOf d u).ord) ∧
        t.fld TCnt.SPURIOUS T = (d.fld TCnt.SPURIOUS T + fget 16 1 w) % 65536 ∧ (∀ s < 1024, sbit t Spnd.V s = false) ∧
        t.bit TStat.BADCOMP T = d.bit TStat.BADCOMP T) ∧
      (good → (∀ s < 1024, sbit d Spnd.V s = false) → again → r.src < 1024 → d.bit Hog.RUN (srcGrp d r.src) = true →
        Completes (.complete h T w) d fun t => (targOf t T).ord = (targOf d T).ord.filter (· ≠ k) ∧ sbit t Spnd.V r.src = true ∧
          (srcSt t r.src).rep = (srcSt d r.src).rep + 1 ∧
          let stuck := (srcSt d r.src).rep + 1 = d.fld EvgCtl.STUCKN ()
          ((srcSt t r.src).sup = true ↔ stuck) ∧ (stuck → sbit t Sstk.V r.src = true))) ∧
    ∀ i : Fin 8, Reaches d h (TFr.addr (T, i)) unitChip → Completes (.fastRecordRead h T i) d fun t =>
      recs t ∧ (∃ o ∈ t.out, (answer d h 0 [fset 13 1 (sbit d Sact.V (frGet d (T, i) 0 10)).toNat (d.reg (TFr.addr (T, i)))]).out = o :: d.out) ∧
      frGet t (T, i) 14 1 = 0 ∧ frGet t (T, i) 16 8 = 0 ∧ frGet t (T, i) 12 1 = 0 ∧ frGet t (T, i) 11 1 = 0 ∧
      frGet t (T, i) 0 10 = frGet d (T, i) 0 10 ∧ ∀ g, g ≠ (T, i) → t.reg (TFr.addr g) = d.reg (TFr.addr g)) ∧
  (∀ (d : Dev) (h : Master) (a : BitVec 27), Reaches d h a.toNat unitChip →
    let freed := onTarg d 1 fun x => { x with wakeHeld := false }
    (a.toNat = TStat.addr 1 → Gives (.wakeReleaseRead h a) d (answer freed h 0 [tStatWord d 1])) ∧
    (a.toNat = TFsum.addr 1 → Gives (.wakeReleaseRead h a) d (answer freed h 0 [tFsumWord d 1])) ∧
    (a.toNat = TClaim.addr 1 → ∀ rest, exec (.wakeReleaseRead h a) ⟨rest, d⟩ = exec (.claim h 1) ⟨rest, d⟩) ∧
    (∀ i : Fin 8, a.toNat = TFr.addr (1, i) → ∀ rest, exec (.wakeReleaseRead h a) ⟨rest, d⟩ = exec (.fastRecordRead h 1 i) ⟨rest, d⟩) ∧
    (a.toNat ≠ TStat.addr 1 → a.toNat ≠ TFsum.addr 1 → a.toNat ≠ TClaim.addr 1 → (∀ i : Fin 8, a.toNat ≠ TFr.addr (1, i)) →
      Gives (.wakeReleaseRead h a) d d)) ∧
  (∀ (d : Dev) (h : Master) (w : Word), Reaches d h (TCfg.addr 1) unitChip → w &&& 0xFFFC0000 = 0 →
    (wakeable d 1 = false ∨ (targOf d 1).woken = true → Completes (.sleepWrite h w) d fun t =>
      t.bit TCfg.SLEEP 1 = true ∧ t.reg (TCfg.addr 1) = w ||| 4 ∧ (targOf t 1).ord = (targOf d 1).ord ∧ t.out = d.out) ∧
    (wakeable d 1 = true → (targOf d 1).woken = false → Completes (.sleepWrite h w) d fun t =>
      t.bit TCfg.SLEEP 1 = false ∧ t.reg (TCfg.addr 1) = w &&& 0xFFFFFFFB ∧ (targOf t 1).wakeHeld = true ∧
      t.bit TStat.WOKE 1 = true ∧ t.fld TCnt.WAKES 1 = min (d.fld TCnt.WAKES 1 + 1) 255)) ∧
  ∀ (d : Dev) (h : Master) (w : Word),
    (∀ i, Reaches d h (Src.addr i) unitChip → privileged d h = false → Gives (.sourceRoutingWrite h i w) d (d.hostErr 0 h true (Src.addr i) 15)) ∧
    (∀ i, ReachesPriv d h (Src.addr i) unitChip → w &&& 0xFFFF0000 = 0 → Completes (.sourceRoutingWrite h i w) d fun t =>
      t.reg (Src.addr i) = w &&& 0xFFF7 ∧ (∀ j, j ≠ i → t.reg (Src.addr j) = d.reg (Src.addr j)) ∧
      ∀ u, (targOf t u).ord = (targOf d u).ord ∧ (targOf t u).ring = (targOf d u).ring) ∧
    (∀ g, Reaches d h (Hog.addr g) unitChip → privileged d h = false → Gives (.holdoffWrite h g w) d (d.hostErr 0 h true (Hog.addr g) 15)) ∧
    ∀ g, ReachesPriv d h (Hog.addr g) unitChip → w &&& 0xFFFE0000 = 0 → Gives (.holdoffWrite h g w) d (d.put Hog.HOLDOFF g (fget 0 16 w))

/-- With no reserved bit changed, START is carried out in IDLE and HALT with EN and a valid ring and otherwise sets REF, as do both commands in one write. With HEAD at TAIL the channel is IDLE; a bad descriptor at HEAD halts it with STATUS 3, HEAD past it and its event raised; a good one is read and the channel runs. STOP of a running channel waits for its unit (the note cmdAgain is the clk of the STOP, for R375), a waiting one ends with STATUS 4, in another state nothing happens. A privileged write to CFG is taken in IDLE and HALT; elsewhere EN = 1 sets REF and EN = 0 stops the channel. A TAIL write that goes back or beyond the ring sets REF; another is taken and starts a channel that had drained. CLEAR empties the trace: a running channel that moves its records waits, and a stopping one ends with STATUS 4. That STOP in IDLE or HALT has no effect, that CFG with EN = 0 only stops a running channel, and that TAIL counts modulo twice the ring is assumption log 71, the model's choice. (R360, R361, R363, R365, R369, R372, R374, R375) -/
def Obligations.LadleChannelCommands : Prop :=
  ∀ (d : Dev) (h : Master) (c : Fin 8) (w : Word), d.failDue = none →
    let st := d.fld ChStat.STATE c
    let m := 2 ^ (d.fld ChCfg.RSIZE c + 1)
    let x := (List.range 6).map fun i => hwWord d (headAddr d c + 4 * i)
    let runs := fun (t : Dev) => t.fld ChStat.STATE c = 1 ∧ (chanOf t c).desc = some x ∧ t.fld ChHead.HEAD c = d.fld ChHead.HEAD c
    (Reaches d h (ChCtl.addr c) unitChip → mRsv 0xFFFC (ownM 0 w) = 0 →
      (mOnes (ownM 0 w) % 4 = 3 → Gives (.channelStart h c w) d (d.flag ChStat.REF c)) ∧
      (mOnes (ownM 0 w) % 4 = 1 →
        (¬ ((st = 0 ∨ st = 4) ∧ d.bit ChCfg.EN c = true ∧ ringValid d c = true) → Gives (.channelStart h c w) d (d.flag ChStat.REF c)) ∧
        (st = 0 ∨ st = 4 → d.bit ChCfg.EN c = true → ringValid d c = true →
          (d.fld ChHead.HEAD c % m = d.fld ChTail.TAIL c % m → Completes (.channelStart h c w) d fun t =>
            t.fld ChStat.STATE c = 0 ∧ (chanOf t c).drained = true ∧ t.fld ChHead.HEAD c = d.fld ChHead.HEAD c) ∧
          (d.fld ChHead.HEAD c % m ≠ d.fld ChTail.TAIL c % m → descOk d c x = false → Completes (.channelStart h c w) d fun t =>
            t.fld ChStat.STATE c = 4 ∧ t.bit ChStat.ERR_SEEN c = true ∧ t.fld ChStat.LAST c = 3 ∧
            t.fld ChStat.NDONE c = (d.fld ChStat.NDONE c + 1) % 65536 ∧ t.fld ChHead.HEAD c = (d.fld ChHead.HEAD c + 1) % m ∧
            t.evq = (d.raise (646 + c.val) 3).evq) ∧
          (d.fld ChHead.HEAD c % m ≠ d.fld ChTail.TAIL c % m → descOk d c x = true → shadowSkips d x = false → dSk x < 2 →
            Completes (.channelStart h c w) d runs)))) ∧
    (Reaches d h (ChCtl.addr c) unitChip → mRsv 0xFFFC (ownM 1 w) = 0 → mOnes (ownM 1 w) % 4 = 2 →
      (st = 1 → Gives (.channelStop h c w) d (((d.flag ChCtl.STOP c).cmdAgain (ChCtl.addr c) 2).put ChStat.STATE c 3)) ∧
      (st = 2 → Completes (.channelStop h c w) d fun t => t.fld ChStat.STATE c = 0 ∧ t.fld ChStat.LAST c = 4 ∧ (chanOf t c).desc = none ∧
        (chanOf t c).kept = (chanOf d c).kept ++ (chanOf d c).item.toList ∧ t.bit ChStat.ERR_SEEN c = d.bit ChStat.ERR_SEEN c) ∧
      (st ≠ 1 → st ≠ 2 → Gives (.channelStop h c w) d d)) ∧
    (Reaches d h (ChCfg.addr c) unitChip → privileged d h = false → Gives (.channelCfgWrite h c w) d (d.hostErr 0 h true (ChCfg.addr c) 15)) ∧
    (ReachesPriv d h (ChCfg.addr c) unitChip → w &&& 0xF8000000 = 0 →
      (st = 0 ∨ st = 4 → Completes (.channelCfgWrite h c w) d fun t => t.reg (ChCfg.addr c) = w ∧ (w.getLsbD 0 = true → t.fld ChStat.STATE c = st) ∧
        (w.getLsbD 0 = false → t.fld ChStat.STATE c = 0 ∧ (chanOf t c).drained = false)) ∧
      (st ≠ 0 → st ≠ 4 → w.getLsbD 0 = true → Gives (.channelCfgWrite h c w) d (d.flag ChStat.REF c)) ∧
      (st ≠ 0 → st ≠ 4 → w.getLsbD 0 = false → Completes (.channelCfgWrite h c w) d fun t => t.bit ChCfg.EN c = false ∧
        t.fld ChCfg.RBASE c = d.fld ChCfg.RBASE c ∧ t.fld ChStat.STATE c = if st = 1 then 3 else if st = 2 then 0 else st)) ∧
    (Reaches d h (ChTail.addr c) unitChip → w &&& 0xFFFFF800 = 0 →
      let old := (d.fld ChTail.TAIL c % m + m - d.fld ChHead.HEAD c % m) % m
      let new := (w.toNat % m + m - d.fld ChHead.HEAD c % m) % m
      (new < old ∨ m / 2 < new → Gives (.tailWrite h c w) d (d.flag ChStat.REF c)) ∧
      (old ≤ new → new ≤ m / 2 →
        (st ≠ 0 ∨ (chanOf d c).drained = false ∨ new = 0 → Gives (.tailWrite h c w) d (d.put ChTail.TAIL c (w.toNat % m))) ∧
        (st = 0 → (chanOf d c).drained = true → new ≠ 0 → ringValid d c = true → descOk d c x = true → shadowSkips d x = false → dSk x < 2 →
          Completes (.tailWrite h c w) d fun t => runs t ∧ t.fld ChTail.TAIL c = w.toNat % m))) ∧
    (Reaches d h (TrcCtl.addr ()) unitChip → mRsv 0xFFFE (ownM 0 w) = 0 → Completes (.traceClear h w) d fun t => t.trace = [] ∧ ∀ e : Fin 8,
      let moves := d.fld ChStat.STATE e = 1 ∨ d.fld ChStat.STATE e = 3
      ((chanOf d e).desc = none ∨ (∃ y, (chanOf d e).desc = some y ∧ dSk y ≠ 4) ∨ ¬ moves →
        chanOf t e = chanOf d e ∧ t.reg (ChStat.addr e) = d.reg (ChStat.addr e)) ∧
      ∀ y, (chanOf d e).desc = some y → dSk y = 4 →
        (d.fld ChStat.STATE e = 1 → t.fld ChStat.STATE e = 2 ∧ chanOf t e = chanOf d e) ∧
        (d.fld ChStat.STATE e = 3 → t.fld ChStat.STATE e = 0 ∧ t.fld ChStat.LAST e = 4 ∧ (chanOf t e).desc = none))

/-- A channel that neither runs nor stops, or has no descriptor, moves nothing. A unit, taken in round-robin turn and no larger than 256 bytes and the function's limits, moves bytes from host memory to the window, to a queue as pushed packets (NREC counts those not dropped), to a segment ring (mirrored by an ACTIVE unit, waiting while full) or to STAGE, from the window to host memory, part of a packet, an event record (which leaves its ring) or a trace record, in order, counted in BYTES and DONE. The descriptor timeout, a PCIe error and a function that cannot be a bus master halt the channel with STATUS 1, 2 and 5: words 6 and 7 written back, HEAD past the descriptor, ERR_SEEN, NDONE and the event, a packet taken but not written kept. The timeout does not run while the channel waits with nothing moved. After GATHER a waiting channel that has moved an item completes with STATUS 0. A waiting channel takes its next item, a kept one first. The last byte completes with STATUS 0; a STOP of an earlier clk makes it 4, one of this clk acts on the next descriptor. A SHADOW unit lets TQ, segment and STAGE descriptors pass with STATUS 7. A refused STAGE write gives STATUS 8. The size of a unit within its bounds is a free value (assumption log 1); that pushes on their way count as moved, and which items NREC counts, is log 71; that LEN of a STAGE descriptor must be the billet's size is log 110. These are the model's choices. (R240, R356, R361, R364, R365, R368, R369, R371, R372, R373, R375, R439) -/
def Obligations.LadleUnits : Prop :=
  ∀ (d : Dev) (c : Fin 8), unitChip ∉ d.undef → d.failDue = none →
    let y := chanOf d c
    let st := d.fld ChStat.STATE c
    let a := headAddr d c
    let ring := 2 ^ (d.fld ChCfg.RSIZE c + 1)
    let lastOne := d.fld ChCfg.RSIZE c ≤ 10 ∧ d.fld ChTail.TAIL c % ring = (d.fld ChHead.HEAD c + 1) % ring
    let turn := ladleTurn d c = true
    let dn := fun (x : List Word) => dRgn (dDaddr x)
    let dq := fun (x : List Word) => dQueue (dDaddr x)
    (∀ hd, y.desc = none ∨ (st ≠ 1 ∧ st ≠ 3) ∨ ¬ turn → Gives (.ladleUnitDone c hd) d d) ∧
    (y.desc = none ∨ st ≠ 2 → Gives (.ladleItemAvailable c) d d) ∧
    (st ≠ 2 ∨ y.moved = 0 → Gives (.gatherExpire c) d d) ∧
    (y.desc = none ∨ (st = 2 ∧ y.moved = 0) → Gives (.descriptorTimeout c) d d) ∧
    (y.desc = none ∨ st = 2 → Gives (.pcieError c) d d) ∧
    ∀ x, y.desc = some x → Memory.wf d = true →
      let left := dLen x - y.moved
      let srcT : Fin 4 := ⟨dSaddr x % 4, Nat.mod_lt _ (by omega)⟩
      (usesHost x = false → Gives (.pcieError c) d d) ∧
      (∀ (i : Instr) (status : Nat), (i = .descriptorTimeout c ∧ status = 1 ∧ ¬ (st = 2 ∧ y.moved = 0)) ∨
          (i = .pcieError c ∧ status = 2 ∧ usesHost x = true ∧ st ≠ 2) ∨
          (∃ hd, i = .ladleUnitDone c hd ∧ status = 5 ∧ usesHost x = true ∧ fnUsable d (chanFn d c) = false ∧ (st = 1 ∨ st = 3) ∧ turn ∧ shadowSkips d x = false) ∨
          (∃ hd : List Byte, i = .ladleUnitDone c hd ∧ status = 8 ∧ dSk x = 0 ∧ dDk x = 4 ∧ fnUsable d (chanFn d c) = true ∧ (st = 1 ∨ st = 3) ∧ turn ∧
            shadowSkips d x = false ∧ 4 ≤ hd.length ∧ left ≠ 0 ∧ (d.stwRun = false ∨ (vget d.stage (stageSlot x)).isSome = true ∨ 4096 < dLen x)) →
        Completes i d fun t => t.fld ChStat.STATE c = 4 ∧ t.fld ChStat.LAST c = status ∧ t.bit ChStat.ERR_SEEN c = true ∧
          t.bit ChStat.DONE_SEEN c = true ∧ t.fld ChStat.NDONE c = (d.fld ChStat.NDONE c + 1) % 65536 ∧
          t.fld ChHead.HEAD c = (d.fld ChHead.HEAD c + 1) % 2 ^ (d.fld ChCfg.RSIZE c + 1) % 2048 ∧ (chanOf t c).desc = none ∧
          (chanOf t c).kept = y.kept ++ y.item.toList ∧ t.evq = (d.raise (646 + c.val) status).evq ∧
          hwWord t (a + 24) = BitVec.ofNat 32 (y.done % 2 ^ 24 + min y.nrec 255 * 2 ^ 24) ∧ hwWord t (a + 28) = BitVec.ofNat 32 (status + 16)) ∧
      (st = 2 → y.moved ≠ 0 → lastOne → Completes (.gatherExpire c) d fun t => t.fld ChStat.LAST c = 0 ∧ t.fld ChStat.STATE c = 0 ∧
          (chanOf t c).drained = true ∧ t.fld ChStat.NDONE c = (d.fld ChStat.NDONE c + 1) % 65536 ∧
          t.evq = if dIrq x then (d.raise (646 + c.val) 0).evq else d.evq) ∧
      (st = 2 → dSk x = 4 → 16 ≤ left → Completes (.ladleItemAvailable c) d fun t =>
        t.fld ChStat.STATE c = (if d.trace = [] then 2 else 1) ∧ OnlyRegs [ChStat.addr c] d t) ∧
      (st = 2 → dSk x = 3 → 16 ≤ left → Completes (.ladleItemAvailable c) d fun t =>
        t.fld ChStat.STATE c = (if (targOf d srcT).ord = [] then 2 else 1) ∧ OnlyRegs [ChStat.addr c] d t) ∧
      (∀ p, st = 2 → dSk x = 2 → y.kept = [] → (d.r (dRgn (dSaddr x))).badQ = [] → (d.r (dRgn (dSaddr x))).badFree = false →
        queueNext d x = some p → 4 * (1 + p.words.length) ≤ left → d.bit QCfg0.MODE (dRgn (dSaddr x), dQueue (dSaddr x)) = false →
        Completes (.ladleItemAvailable c) d fun t => t.fld ChStat.STATE c = 1 ∧ (chanOf t c).item = some ⟨queueKey x, lenSlot p :: p.words, none⟩ ∧
          (chanOf t c).sent = 0 ∧ (qGet t (dRgn (dSaddr x)) (dQueue (dSaddr x))).pkts = (qGet d (dRgn (dSaddr x)) (dQueue (dSaddr x))).pkts.erase p) ∧
      (∀ i, st = 2 → dSk x = 2 → y.kept.find? (fun i => i.key == queueKey x) = some i → (d.r (dRgn (dSaddr x))).badQ = [] → (d.r (dRgn (dSaddr x))).badFree = false →
        itemBytes i ≤ left → Completes (.ladleItemAvailable c) d fun t => t.fld ChStat.STATE c = 1 ∧
          chanOf t c = { y with item := some i, sent := 0, kept := y.kept.erase i } ∧ ∀ n q, qGet t n q = qGet d n q) ∧
      (∀ hd : List Byte, shadowSkips d x = true → turn → st = 1 → lastOne → Completes (.ladleUnitDone c hd) d fun t =>
        t.fld ChStat.LAST c = 7 ∧ t.fld ChStat.STATE c = 0 ∧ t.fld ChStat.NDONE c = (d.fld ChStat.NDONE c + 1) % 65536 ∧
        t.fld ChBytes.BYTES c = d.fld ChBytes.BYTES c ∧ (∀ n q, qGet t n q = qGet d n q) ∧ t.stage = d.stage) ∧
      (st = 1 ∨ st = 3 → turn → shadowSkips d x = false → dSk x = 1 → dDk x = 3 → d.twin.mirror = [] → d.fld TwStat.ROLE () ≠ 2 →
        let nn : Fin 16 := ⟨dDaddr x % 16, Nat.mod_lt _ (by omega)⟩
        let g : Fin 32 := ⟨d.fld SegWr.WR nn % 32, Nat.mod_lt _ (by omega)⟩
        let full := 32 ≤ (d.fld SegWr.WR nn + 64 - d.fld SegRd.RD nn) % 64
        (full → st = 1 → ∀ hd, Completes (.ladleUnitDone c hd) d fun t => t.regs = d.regs ∧ chanOf t c = y) ∧
        (full → st = 3 → ∀ hd, Completes (.ladleUnitDone c hd) d fun t => t.fld ChStat.STATE c = 0 ∧ t.fld ChStat.LAST c = 4) ∧
        (¬ full → st = 1 → 32 < left → ∀ hd, Completes (.ladleUnitDone c hd) d fun t =>
          chanOf t c = { y with moved := y.moved + 32, done := y.done + 32, nrec := y.nrec + 1 } ∧
          t.fld ChBytes.BYTES c = (d.fld ChBytes.BYTES c + 32) % 2 ^ 32 ∧
          (d.fld TwStat.ROLE () ≠ 1 → t.fld SegWr.WR nn = (d.fld SegWr.WR nn + 1) % 64 ∧
            ∀ i : Fin 8, t.reg (Seg.addr (nn, g, i)) = hwWord d (dSaddr x + y.moved + 4 * i.val)) ∧
          (d.fld TwStat.ROLE () = 1 → t.fld SegWr.WR nn = d.fld SegWr.WR nn ∧ t.twin.mirror.map (fun m => (m.addr, m.word)) =
            (List.finRange 8).map (fun i => (Seg.addr (nn, g, i), hwWord d (dSaddr x + y.moved + 4 * i.val))) ++
              [(SegWr.addr nn, BitVec.ofNat 32 ((d.fld SegWr.WR nn + 1) % 64))]))) ∧
      (st = 1 ∨ st = 3 → turn → shadowSkips d x = false → usesHost x = true → fnUsable d (chanFn d c) = true →
        (∀ hd : List Byte, dSk x = 0 → dDk x = 1 → left % 4 = 0 → 4 ≤ hd.length → min (4 * unitMax d c x) (hd.length / 4 * 4) < left → st = 1 →
          let n := min (4 * unitMax d c x) (hd.length / 4 * 4)
          Completes (.ladleUnitDone c hd) d fun t => hwBytes t (dDaddr x + y.done) n = hd.take n ∧
            (∀ o, o < dDaddr x + y.done ∨ dDaddr x + y.done + n ≤ o → hwByte t o = hwByte d o) ∧
            chanOf t c = { y with moved := y.moved + n, done := y.done + n } ∧ t.fld ChStat.STATE c = 1 ∧
            t.fld ChBytes.BYTES c = (d.fld ChBytes.BYTES c + n) % 2 ^ 32) ∧
        (∀ hd : List Byte, dSk x = 0 → dDk x = 1 → left % 4 = 0 → left ≠ 0 → left ≤ 4 * unitMax d c x → left ≤ hd.length → lastOne ∨ (st = 3 ∧ d.fld ChCfg.RSIZE c ≤ 10) →
          Completes (.ladleUnitDone c hd) d fun t =>
            let again := st = 3 ∧ d.cmdRedo ChCtl.STOP c = true
            t.fld ChStat.STATE c = 0 ∧ t.fld ChBytes.BYTES c = (d.fld ChBytes.BYTES c + left) % 2 ^ 32 ∧ t.bit ChStat.DONE_SEEN c = true ∧
            t.bit ChStat.ERR_SEEN c = d.bit ChStat.ERR_SEEN c ∧
            t.fld ChStat.LAST c = (if st = 3 ∧ (¬ again ∨ ¬ lastOne) then 4 else 0) ∧
            t.fld ChStat.NDONE c = (d.fld ChStat.NDONE c + if again ∧ ¬ lastOne then 2 else 1) % 65536 ∧
            t.fld ChHead.HEAD c = (d.fld ChHead.HEAD c + if again ∧ ¬ lastOne then 2 else 1) % ring ∧
            (¬ again ∨ lastOne → hwWord t (a + 24) = BitVec.ofNat 32 ((y.done + left) % 2 ^ 24 + min y.nrec 255 * 2 ^ 24) ∧
              hwWord t (a + 28) = BitVec.ofNat 32 (t.fld ChStat.LAST c + 16))) ∧
        (∀ (hd : List Byte) (w0 : Word) (ws : List Word), dSk x = 0 → dDk x = 2 → st = 1 → wordsOf hd = w0 :: ws → hd.length = 4 + 4 * ws.length →
          hd.length ≤ 4 * unitMax d c x → hd.length < left → y.acc = [] → ws ≠ [] → ws.length = (fget 0 13 w0 + 3) / 4 → dq x ≠ tq →
          (d.r (dn x)).badQ = [] → (d.r (dn x)).badFree = false → d.bit RQstat.REBUILD (dn x) = false → notProd d (dn x) (dq x) 2 = false →
          qLive d (dn x) (dq x) = true → (qGet d (dn x) (dq x)).dropping = false → (qGet d (dn x) (dq x)).opn = none → (qGet d (dn x) (dq x)).stalls = [] →
          Completes (.ladleUnitDone c hd) d fun t =>
            t.fld ChBytes.BYTES c = (d.fld ChBytes.BYTES c + hd.length) % 2 ^ 32 ∧ (chanOf t c).done = y.done + hd.length ∧
            (chanOf t c).moved = y.moved + hd.length ∧ (chanOf t c).acc = [] ∧ t.fld ChStat.STATE c = 1 ∧
            (canTake d (dn x) (dq x) 1 = true → ws.length ≤ 14 → (chanOf t c).nrec = y.nrec + 1 ∧
              t.fld QStat.DROPCNT (dn x, dq x) = d.fld QStat.DROPCNT (dn x, dq x) ∧ ∃ cells, (qGet t (dn x) (dq x)).pkts =
                (qGet d (dn x) (dq x)).pkts ++ [⟨fget 13 4 w0, fget 0 13 w0, cells, trimWords (fget 0 13 w0) ws⟩]) ∧
            (canTake d (dn x) (dq x) 1 = false → (chanOf t c).nrec = y.nrec ∧ (qGet t (dn x) (dq x)).pkts = (qGet d (dn x) (dq x)).pkts ∧
              t.bit QStat.DROPPED (dn x, dq x) = true ∧
              t.fld QStat.DROPCNT (dn x, dq x) = (d.fld QStat.DROPCNT (dn x, dq x) + 1) % 65536)) ∧
        (∀ hd : List Byte, dSk x = 0 → dDk x = 4 → st = 1 → d.stwRun = true → vget d.stage (stageSlot x) = none → dLen x ≤ 4096 → left % 4 = 0 → left ≠ 0 → 4 ≤ hd.length →
          let n := min left (min (4 * unitMax d c x) (hd.length / 4 * 4))
          let acc := y.acc ++ wordsOf (hd.take n)
          let b := billetAt (acc.flatMap fun w => leBytes 4 w.toNat)
          (n < left → Completes (.ladleUnitDone c hd) d fun t => chanOf t c = { y with moved := y.moved + n, done := y.done + n, acc := acc } ∧
            t.fld ChBytes.BYTES c = (d.fld ChBytes.BYTES c + n) % 2 ^ 32 ∧ t.fld ChStat.STATE c = 1 ∧ t.stage = d.stage) ∧
          (n = left → lastOne → Completes (.ladleUnitDone c hd) d fun t => t.fld ChBytes.BYTES c = (d.fld ChBytes.BYTES c + n) % 2 ^ 32 ∧
            if b.bszc ≤ 2 ∧ dLen x ≠ bsz b.bszc then t.fld ChStat.LAST c = 8 ∧ t.fld ChStat.STATE c = 4 ∧ t.stage = d.stage
            else t.fld ChStat.LAST c = 0 ∧ t.fld ChStat.STATE c = 0 ∧ vget t.stage (stageSlot x) = some b ∧
              ∀ j, j ≠ stageSlot x → vget t.stage j = vget d.stage j)) ∧
        (∀ hd : List Byte, dSk x = 1 → dDk x = 0 → left % 4 = 0 → left ≠ 0 → Completes (.ladleUnitDone c hd) d fun t => ∃ n,
          0 < n ∧ n ≤ 256 ∧ n ≤ 128 * 2 ^ (vget d.fn (chanFn d c)).maxPay.val ∧ n ≤ left ∧ n % 4 = 0 ∧ t.fld ChBytes.BYTES c = (d.fld ChBytes.BYTES c + n) % 2 ^ 32 ∧
          (n < left → st = 1 → chanOf t c = { y with moved := y.moved + n, done := y.done + n }) ∧
          t.hostWr = d.hostWr ++ [⟨d.bit ChCfg.FUNC c, dDaddr x + y.done, wordsOf (hwBytes d (dSaddr x + y.moved) n)⟩]) ∧
        (∀ (hd : List Byte) (i : Item), dSk x = 2 → dDk x = 0 → y.item = some i → y.sent < i.words.length → Completes (.ladleUnitDone c hd) d fun t =>
          ∃ n, 0 < n ∧ n ≤ 64 ∧ y.sent + n ≤ i.words.length ∧ t.fld ChBytes.BYTES c = (d.fld ChBytes.BYTES c + 4 * n) % 2 ^ 32 ∧
          (y.sent + n < i.words.length → st = 1 → chanOf t c = { y with moved := y.moved + 4 * n, done := y.done + 4 * n, sent := y.sent + n }) ∧
          t.hostWr = d.hostWr ++ [⟨d.bit ChCfg.FUNC c, dDaddr x + y.done, (i.words.drop y.sent).take n⟩]) ∧
        (∀ (hd : List Byte) (k : Nat) (ks : List Nat), dSk x = 3 → dDk x = 0 → (targOf d srcT).ord = k :: ks → k ∉ ks → 32 ≤ left → st = 1 →
          (∀ s < 1024, sbit d Spnd.V s = false) → Completes (.ladleUnitDone c hd) d fun t =>
            (targOf t srcT).ord = ks ∧ (chanOf t c).nrec = y.nrec + 1 ∧ (chanOf t c).moved = y.moved + 16 ∧
            t.fld ChStat.STATE c = (if ks = [] then 2 else 1) ∧
            t.hostWr = d.hostWr ++ [⟨d.bit ChCfg.FUNC c, dDaddr x + y.done, recWords (recOfSlot d srcT k)⟩]) ∧
        (∀ (hd : List Byte) (r : Word × Word × Word × Word) (rs : List (Word × Word × Word × Word)), dSk x = 4 → dDk x = 0 → d.trace = r :: rs →
          32 ≤ left → st = 1 → Completes (.ladleUnitDone c hd) d fun t => t.trace = rs ∧ (chanOf t c).nrec = y.nrec + 1 ∧
            (chanOf t c).moved = y.moved + 16 ∧ t.fld ChStat.STATE c = (if rs = [] then 2 else 1) ∧
            t.hostWr = d.hostWr ++ [⟨d.bit ChCfg.FUNC c, dDaddr x + y.done, [r.1, r.2.1, r.2.2.1, r.2.2.2]⟩]))

/-- A privileged LOAD or REPOUR is refused with 17 if both are written, else with the first of: 2 a block in the way is not OFF or HELD, 17 an operation runs, 16 no stewards, 19 a pair that runs a pattern loads or a SHADOW unit re-pours, 3 no source, 17 the inactive bank in a session, 15 no pattern to re-pour; otherwise the image is taken, BUSY set and a re-poured block reads HELD. A load that passes every check is in effect at STAGE HELD (PATTERN where a start-up's pair has yet to align): blocks with a section HELD, the others OFF, TIME from 0, HEAT_ACT as asked, LOCK cleared, DONE. One that fails a check changes nothing but FAIL with CODE, BLOCK and SLOT; at start-up, and after a failed read-back (18), no pattern is in effect at STAGE NOPAT. A re-pour replaces its block's section alone; on the owner of a pair the shadow's pour ends first. The order of the refusals is the model's reading (assumption log 27), as are the order of 15 before 5 (log 49), the image being taken at acceptance (log 29) and the first REPOUR_DONE of an owner being the shadow's (log 107). (R35, R76, R80, R143, R144, R145, R146, R147, R148, R149, R152, R419) -/
def Obligations.PatternOperations : Prop :=
  (∀ (d : Dev) (h : Master) (w : Word) (b : Fin 2), ReachesPriv d h (PatCtl.addr ()) unitChip → mRsv 0xFF00 (ownM b.val w) = 0 →
    let v := ownM b.val w
    let c := if b = 0 then Instr.patternLoad h w else .repour h w
    let x := mCfg (mCfg d PatCtl.SRC () v) PatCtl.BLOCK () v
    let src := x.fld PatCtl.SRC ()
    let nn : Fin 16 := ⟨x.fld PatCtl.BLOCK () % 16, Nat.mod_lt _ (by omega)⟩
    let way := ∃ k, 2 ≤ d.fld BkStat.STATE k ∧ (b = 1 → k = nn)
    let pair := if b = 0 then d.twin.paired = true ∧ d.pat ≠ none ∧ d.bit BootCause.HELD () = false else d.fld TwStat.ROLE () = 2
    (mOnes v % 4 = 3 → Gives c d (patRefuse x 17 0 0 false)) ∧
    (mOnes v % 4 = b.val + 1 →
      (∀ k : Fin 16, 2 ≤ d.fld BkStat.STATE k → (b = 1 → k = nn) → (b = 0 → ∀ j, j < k → d.fld BkStat.STATE j < 2) →
        Gives c d (patRefuse x 2 k.val 0 false)) ∧
      (¬ way → d.patOp ≠ none → Gives c d (patRefuse x 17 0 0 false)) ∧
      (¬ way → d.patOp = none → d.stwRun = false → Gives c d (patRefuse x 16 0 0 false)) ∧
      (¬ way → d.patOp = none → d.stwRun = true → pair → Gives c d (patRefuse x 19 0 0 false)) ∧
      (¬ way → d.patOp = none → d.stwRun = true → ¬ pair →
        (src = 3 → Gives c d (patRefuse x 3 0 0 false)) ∧
        (src = 2 → d.sess.st ≠ 0 → Gives c d (patRefuse x 17 0 0 false)) ∧
        (src < 3 → src ≠ 2 ∨ d.sess.st = 0 → b = 1 → d.pat = none → Gives c d (patRefuse x 15 0 0 false)) ∧
        (src < 3 → src ≠ 2 ∨ d.sess.st = 0 → b = 0 ∨ d.pat ≠ none → Completes c d fun t =>
          t.patOp = some ⟨patSource d src, if b = 0 then none else some nn, false, src, b == 1 && d.fld TwStat.ROLE () == 1⟩ ∧ t.bit PatStat.BUSY () = true ∧ t.pat = d.pat ∧
          t.bit PatStat.FAIL () = d.bit PatStat.FAIL () ∧ (b = 0 → t.blk = d.blk ∧ t.bit PatCtl.LOAD () = true) ∧
          (b = 1 → (t.b nn).repouring = true ∧ t.fld BkStat.STATE nn = 1 ∧ t.bit BkStat.REPOUR nn = true ∧ t.bit PatCtl.REPOUR () = true ∧
            ∀ k, k ≠ nn → t.b k = d.b k ∧ t.fld BkStat.STATE k = d.fld BkStat.STATE k))))) ∧
  (∀ (d : Dev) (ok : Bool), unitChip ∉ d.undef →
    ((∀ img start src x, d.patOp ≠ some ⟨img, none, start, src, x⟩) → Gives (.patternLoadDone ok) d d) ∧
    ∀ img start src x, d.patOp = some ⟨img, none, start, src, x⟩ → d.act = none →
      let ended := fun (t : Dev) => t.patOp = none ∧ t.bit PatStat.BUSY () = false
      let failed := fun (t : Dev) (code blk slot : Nat) => ended t ∧ t.bit PatStat.FAIL () = true ∧ t.fld PatStat.CODE () = code % 32 ∧
        t.fld PatStat.BLOCK () = blk % 16 ∧ t.fld PatStat.SLOT () = slot % 256
      let bare := fun (t : Dev) => t.fld Start.STAGE () = 6 ∧ t.pat = none ∧ ∀ k, t.fld BkStat.STATE k = 0 ∧ outputsHiz (t.b k)
      (img = none → Completes (.patternLoadDone ok) d fun t => failed t 1 0 0 ∧ if start then bare t else t.pat = d.pat ∧ t.blk = d.blk) ∧
      (∀ p f, img = some p → hdrCheck d 2 p.hdr (sfwHdr d) true false = 0 → patCheck d p = some f → Completes (.patternLoadDone ok) d fun t =>
        failed t f.code f.blk f.slot ∧ (start = false → t.fld BootCause.CODE () = 26) ∧ if start then bare t else t.pat = d.pat ∧ t.blk = d.blk) ∧
      (∀ p, img = some p → hdrCheck d 2 p.hdr (sfwHdr d) true false ≠ 0 → start = false → Completes (.patternLoadDone ok) d fun t =>
        failed t 1 0 0 ∧ t.fld BootCause.CODE () = hdrCheck d 2 p.hdr (sfwHdr d) true false ∧ t.pat = d.pat ∧ t.blk = d.blk) ∧
      (∀ p, img = some p → hdrCheck d 2 p.hdr (sfwHdr d) true false = 0 → patCheck d p = none →
        (ok = false → Completes (.patternLoadDone ok) d fun t => failed t 18 0 0 ∧ bare t) ∧
        (ok = true → Completes (.patternLoadDone ok) d fun t => ended t ∧ t.pat = some p ∧ t.bit PatStat.DONE () = true ∧
          t.fld PatStat.CODE () = 0 ∧ t.fld Start.STAGE () = (if start && d.twin.paired && !d.twin.joining && d.bit TwStat.LINKUP () && d.fld ChipMode.HEAT () == d.fld ChipMode.HEAT_ACT () &&
            (calIn d (activeBank d)).isNone then 4 else t.fld Start.STAGE ()) ∧ (start = false → t.fld Start.STAGE () = 5) ∧ (d.twin.paired = false → t.fld Start.STAGE () = 5) ∧ t.patT = d.clk ∧ t.fld ChipMode.HEAT_ACT () = d.fld ChipMode.HEAT () ∧
          t.bit Fail.LOCK () = false ∧ ∀ k, t.fld BkStat.STATE k = if (PatImage.sec p k).isSome then 1 else 0))) ∧
  ∀ d : Dev, unitChip ∉ d.undef →
    (d.pat = none ∨ (∀ img nn start src x, d.patOp ≠ some ⟨img, some nn, start, src, x⟩) → Gives .repourDone d d) ∧
    (∀ img nn start src cur, d.patOp = some ⟨img, some nn, start, src, true⟩ → d.pat = some cur → d.twin.paired = true →
      Gives .repourDone d { d with patOp := some ⟨img, some nn, start, src, false⟩ }) ∧
    ∀ p nn src cur x, d.patOp = some ⟨some p, some nn, false, src, x⟩ → x = false ∨ d.twin.paired = false → d.pat = some cur → hdrCheck d 2 p.hdr (sfwHdr d) true false = 0 →
      let others := fun (t : Dev) => t.patOp = none ∧ t.bit PatStat.BUSY () = false ∧ t.bit BkStat.REPOUR nn = false ∧ (t.b nn).repouring = false ∧
        ∀ k, k ≠ nn → t.b k = d.b k ∧ t.fld BkStat.STATE k = d.fld BkStat.STATE k
      (∀ f, patCheck d p = some f → Completes .repourDone d fun t => others t ∧ t.pat = d.pat ∧ t.bit PatStat.FAIL () = true ∧
        t.fld PatStat.CODE () = f.code % 32) ∧
      (patCheck d p = none → sharedSame p cur nn = false → Completes .repourDone d fun t => others t ∧ t.pat = d.pat ∧
        t.bit PatStat.FAIL () = true ∧ t.fld PatStat.CODE () = 15 ∧ t.fld PatStat.BLOCK () = nn.val) ∧
      (∀ e s, patCheck d p = none → sharedSame p cur nn = true → patEntry p 3 nn.val = some e → PatImage.sec p nn = some s →
        Completes .repourDone d fun t => others t ∧ t.pat = some (withBlock cur nn e) ∧ t.bit PatStat.DONE () = true ∧ t.fld BkStat.STATE nn = 1)

/-- For the set-point commit, SEGWR and segment words, REARM, REVAL outside SSI, SWITCH, filter entries, the head abort, pushes to TQ of its producer and the soft quench, none refused: on an ACTIVE unit the write is queued with its address, word, block and apply instant (acceptance + 4 us) and sent to the shadow as MWR, and nothing else changes; on a HELD unit, and on a SHADOW unit for all of these but TQ pushes, the write has no effect but SHWR. A block command that the state judges good is queued in the same way; a refused one is refused at once with its reason; on a SHADOW or HELD unit every block command is refused with REASON 7 and counted. A push to TQ of a SHADOW unit counts in DROPCNT too. That a command's row counts its own bit as written is assumption log 13; which writes that still wait count when another is judged is log 64, and the place of MWR among the messages of one clk is log 103. These are the model's choices. (R87, R88, R328, R409, R410) -/
def Obligations.MirroredWritesOfAPair : Prop :=
  (∀ (d : Dev) (h : Master) (c : Instr) (a u : Nat) (v : Word) (blk : Option (Fin 16)),
    (∃ nn w, c = .hspCommit h nn w ∧ a = HspCtl.addr nn ∧ u = unitBlk nn ∧ v = ownM 0 w ∧ blk = some nn ∧ mRsv 0xFFFE w = 0) ∨
    (∃ nn, c = .segwrWrite h nn v ∧ a = SegWr.addr nn ∧ u = unitBlk nn ∧ blk = some nn ∧ v &&& 0xFFFFFFC0 = 0) ∨
    (∃ nn g i, c = .segmentWrite h nn g i v ∧ a = Seg.addr (nn, g, i) ∧ u = unitBlk nn ∧ blk = some nn) ∨
    (∃ nn w, c = .rearm h nn w ∧ a = PcCtl.addr nn ∧ u = unitBlk nn ∧ v = ownM 0 w ∧ blk = some nn ∧ mRsv 0xFFFE w = 0) ∨
    (∃ nn w, c = .reval h nn w ∧ a = EcCtl.addr nn ∧ u = unitBlk nn ∧ v = ownM 0 w ∧ blk = some nn ∧ mRsv 0xFFFE w = 0 ∧ d.fld EcCfg.MODE nn ≠ 2) ∨
    (∃ k w, c = .switch h k w ∧ a = PdCtl.addr k ∧ u = unitChip ∧ v = ownM 0 w ∧ blk = none ∧ mRsv 0xFFFE w = 0 ∧ switchRefused d k = false) ∨
    (∃ p i r, c = .filterEntryWrite h p i r v ∧ a = feAddr p i r ∧ u = unitRgn p ∧ blk = none ∧ d.bit FeCtl.EN (p, i) = false) ∨
    (∃ p w, c = .abortHead h p w ∧ a = TqCtl.addr p ∧ u = unitRgn p ∧ v = ownM 0 w ∧ blk = none ∧ mRsv 0xFFC0 v = 0) ∨
    (∃ nn w, c = .softQuench h nn w ∧ a = Qctl.addr nn ∧ u = unitBlk nn ∧ v = ownM 1 w ∧ blk = some nn ∧ mRsv 0xFFFC v = 0 ∧ mOnes v % 4 = 2) →
    Reaches d h a u →
    (d.fld TwStat.ROLE () = 1 →
      let m : MirWr := ⟨a, v, blk, d.clk + nsClk d 4000⟩
      Gives c d (twSend (d.onTw fun t => { t with mirror := t.mirror ++ [m] }) (.mwr m))) ∧
    (2 ≤ d.fld TwStat.ROLE () → Gives c d (d.inc TwCnt.SHWR ()))) ∧
  (∀ (d : Dev) (h : Master) (n : Fin 4) (w : Word) (c : Instr) (a : Nat),
    (c = .pdata h n tq w ∧ a = QPdata.addr (n, tq)) ∨ (c = .pend h n tq w ∧ a = QPend.addr (n, tq) ∧ w &&& 0xFFFFFFC0 = 0) →
    Reaches d h a (unitRgn n) → d.failDue = none →
    (d.fld TwStat.ROLE () = 1 → notProd d n tq (whoOf h) = false → Gives c d (mirSend d a w none)) ∧
    (d.fld TwStat.ROLE () = 2 → Gives c d ((d.inc QStat.DROPCNT (n, tq)).inc TwCnt.SHWR ())) ∧
    (d.fld TwStat.ROLE () = 3 → Gives c d (d.inc TwCnt.SHWR ()))) ∧
  ∀ (d : Dev) (h : Master) (nn : Fin 16) (w : Word) (c : Instr) (b : Fin 5),
    (c = .blockArm h nn w ∧ b = 0) ∨ (c = .blockRun h nn w ∧ b = 1) ∨ (c = .blockStop h nn w ∧ b = 2) ∨ (c = .blockDisarm h nn w ∧ b = 3) ∨
      (c = .blockReset h nn w ∧ b = 4) →
    let v := ownM b.val w
    let waits := mirBits d (BkCtl.addr nn)
    Reaches d h (BkCtl.addr nn) (if b = 4 then unitNone else unitBlk nn) → mRsv 0xFFE0 v = 0 → mOnes v % 32 = 2 ^ b.val →
    (d.fld TwStat.ROLE () = 1 → judgeCmds d nn waits (2 ^ b.val) = some 0 → Gives c d (mirSend d (BkCtl.addr nn) v (some nn))) ∧
    (2 ≤ d.fld TwStat.ROLE () → Gives c d ((blkRefuse d nn 7).inc TwCnt.SHWR ()))

/-- With the link able to train, LINK_UP sets LINKUP, LANES and LAT; the pairing checks then pair the unit (INFO 1) or refuse with their HREASON (INFO 2), an owner is ACTIVE and sends its snapshot, a unit whose partner owns joins from HELD, with no owner Cope claims; during start-up TWIN_TRAINED is set and the pattern load follows. A retrain attempt counts and begins STAGE TWIN; losing one lane leaves LANES 1. Losing the link clears LINKUP, SYNCED and LANES, counts LLOSS and raises INFO 3; an ACTIVE unit is ALONE with no resynchronisation left; a SHADOW waits while OWN_I is high (a link fault then makes it HELD with HREASON 2), otherwise it begins a takeover with its unlatched outputs off, or is HELD with HREASON 3 if SUSPECT. A heartbeat instant is noted, with the link up a heartbeat is sent in its class's place, and a received one is kept with PEERDOWN. What a link loss ends beside the pair is assumption log 66, with the free count of CRCERR; that the digest compared is the installed one up to STAGE TWIN is log 90, and the order of the messages of one clk is log 103. These are the model's choices. (R76, R398, R401, R402, R403, R404, R406, R420, R421, R424) -/
def Obligations.TwinLinkUpAndDown : Prop :=
  ∀ d : Dev, unitChip ∉ d.undef →
    let evt := fun (t : Dev) (info : Nat) => ⟨d.clk, 643, true, info, false⟩ ∈ t.evq
    (∀ p : Hello,
      (linkOpen d = false ∨ d.fld Start.STAGE () = 2 ∨ p.lanes = 0 ∨ (d.bit TwStat.LINKUP () = true ∧ d.twin.paired = true) → Gives (.linkUp p) d d) ∧
      (linkOpen d = true → d.fld Start.STAGE () ≠ 2 → p.lanes ≠ 0 → d.bit TwStat.LINKUP () = false → Completes (.linkUp p) d fun t =>
        t.bit TwStat.LINKUP () = true ∧ t.fld TwStat.LANES () = min p.lanes 2 ∧ t.fld TwLink.LAT () = min p.lat 65535 ∧ t.twin.hello = some p ∧
        (d.fld Start.STAGE () = 3 → t.bit Start.TWIN_TRAINED () = true ∧
          (t.fld Start.STAGE () = 4 ∨ t.fld Start.STAGE () = 6)) ∧
        (d.fld Start.STAGE () = 5 → d.bit BootCause.HELD () = false → d.failT = false → t.fld Start.STAGE () = 5 ∧
          (pairRefusal d p ≠ 0 → (d.fld TwStat.ROLE () = 3 → t.twin.guard ≠ .start) ∧ t.twin.paired = false ∧ t.fld TwStat.HREASON () = pairRefusal d p ∧ t.fld TwStat.ROLE () = d.fld TwStat.ROLE () ∧ evt t 2) ∧
          (pairRefusal d p = 0 → t.twin.paired = true ∧ evt t 1 ∧
            (d.bit TwStat.OWNO () = true → t.fld TwStat.ROLE () = 1 ∧ t.fld TwStat.HREASON () = 0 ∧ t.bit TwStat.OWNO () = true ∧
              t.bit TwStat.SUSPECT () = false ∧ t.twin.txq.any (fun m => match m with | .full _ => true | _ => false) = true) ∧
            (d.bit TwStat.OWNO () = false → p.alone = true ∨ d.twin.ownI = true ∨ identDrag d = true →
              t.twin.joining = true ∧ t.fld TwStat.ROLE () = 3 ∧ t.fld TwStat.HREASON () = 0) ∧
            (d.bit TwStat.OWNO () = false → p.alone = false → d.twin.ownI = false → identDrag d = false →
              t.fld TwStat.ROLE () = d.fld TwStat.ROLE () ∧ t.twin.guard = .start ∧ t.fld TwStat.HREASON () = 0))))) ∧
    (linkOpen d = true → d.bit TwStat.LINKUP () = false → Completes .linkRetrain d fun t =>
      t.fld TwLink.RETRAIN () = min (d.fld TwLink.RETRAIN () + 1) 255 ∧ OnlyRegs [TwLink.addr (), Start.addr ()] d t ∧
      t.fld Start.STAGE () = if d.fld Start.STAGE () = 2 then 3 else d.fld Start.STAGE ()) ∧
    (linkOpen d = false ∨ d.bit TwStat.LINKUP () = true → Gives .linkRetrain d d) ∧
    (d.bit TwStat.LINKUP () = true → d.fld TwStat.LANES () = 2 → Gives .laneLoss d (d.put TwStat.LANES () 1)) ∧
    (d.bit TwStat.LINKUP () = false ∨ d.fld TwStat.LANES () ≠ 2 → Gives .laneLoss d d) ∧
    (d.bit TwStat.LINKUP () = false → Gives .linkLost d d) ∧
    (d.bit TwStat.LINKUP () = true → Completes .linkLost d fun t =>
      let role := d.fld TwStat.ROLE ()
      t.bit TwStat.LINKUP () = false ∧ t.bit TwStat.SYNCED () = false ∧ t.fld TwStat.LANES () = 0 ∧ t.bit TwStat.LINKLOSS_SEEN () = true ∧
      t.fld TwCnt.LLOSS () = min (d.fld TwCnt.LLOSS () + 1) 255 ∧ evt t 3 ∧ t.twin.paired = false ∧ t.twin.joining = false ∧
      (role = 1 → t.fld TwStat.ROLE () = 0 ∧ t.bit TwStat.OWNO () = d.bit TwStat.OWNO () ∧ ∀ nn, t.bit TwBk.RESYNC nn = false) ∧
      (role = 0 ∨ role = 3 → t.fld TwStat.ROLE () = role) ∧
      (role = 2 → d.failT = false → d.twin.takeover = false → d.bit TwStat.OWNO () = false →
        (d.twin.ownI = true → t.fld TwStat.ROLE () = 2 ∧ t.twin.faultWait = true ∧ t.twin.takeover = false) ∧
        (d.twin.ownI = false → d.bit TwStat.SUSPECT () = true → t.fld TwStat.ROLE () = 3 ∧ t.fld TwStat.HREASON () = 3 ∧ evt t 9) ∧
        (d.twin.ownI = false → d.bit TwStat.SUSPECT () = false → d.twin.repair = false → d.twin.refull = false → d.bit TwCtl.REPAIR () = false →
          t.fld TwStat.ROLE () = 2 ∧ t.twin.takeover = true ∧ t.twin.guard = .takeover ∧ t.twin.tkoT = d.clk ∧ t.fld TwTko.CAUSE () = 2 ∧
          ∀ nn, t.fld BkStat.STATE nn = d.fld BkStat.STATE nn ∧ (t.bit Qstat.LATCH nn = false → outputsOff (t.b nn))))) ∧
    (d.fld TwStat.ROLE () = 2 → d.twin.faultWait = true → d.twin.ownI = true → Completes .linkFault d fun t =>
      t.fld TwStat.ROLE () = 3 ∧ t.fld TwStat.HREASON () = 2 ∧ t.bit TwStat.OWNO () = false ∧ t.twin.faultWait = false ∧ evt t 7) ∧
    (d.fld TwStat.ROLE () ≠ 2 ∨ d.twin.faultWait = false ∨ d.twin.ownI = false → Gives .linkFault d d) ∧
    (linkOpen d = true → d.bit TwStat.LINKUP () = true →
      Completes .hbSend d fun t => t.twin.hbT = some d.clk ∧ t.twin.txq = (twSend d (.hb (ownHb d))).twin.txq ∧
        (∃ e, t.twin.txq = d.twin.txq.take e ++ TwMsg.hb (ownHb d) :: d.twin.txq.drop e) ∧ d.fld TwLink.CRCERR () ≤ t.fld TwLink.CRCERR () ∧
        OnlyRegs [TwLink.addr ()] d { t with twin := d.twin, fresh := d.fresh }) ∧
    (d.clkLost = false → linkOpen d = false ∨ d.bit TwStat.LINKUP () = false → Gives .hbSend d (d.onTw fun t => { t with hbT := some d.clk })) ∧
    (d.clkLost = true → Gives .hbSend d d) ∧
    ∀ m : Hb,
      (d.bit TwStat.LINKUP () = false ∨ d.clkLost = true ∨ d.failT = true → Gives (.hbReceived m) d d) ∧
      (d.bit TwStat.LINKUP () = true → d.clkLost = false → d.failT = false → Completes (.hbReceived m) d fun t => t.twin.hb = some (m, d.clk) ∧
        (d.twin.paired = false → t.bit TwStat.PEERDOWN () = m.down ∧ OnlyRegs [TwStat.addr ()] d { t with twin := d.twin }))

/-- From a heartbeat a SHADOW of a pair, no domain of which follows the partner and no coordinated activation of which runs, takes STATE, TEC and REC of the ports; a latch set on the owner alone is set with cause SOFT, one set here alone by TWQ or SOFT is cleared when nothing but TWQ is active, another counts as a mismatch. The owner of a coordinated activation begins HANDOVER when every RUN block has matched 16 times. Both units compare: a digest equal to the block's own clears MISRUN; a different one counts MISCNT and MISRUN up to 2, sets MIS_SEEN, raises RESYNC, RSCNT and INFO 5 and, on the shadow, requests the block, and one that finds MISRUN at 2 makes the unit SUSPECT with INFO 6; one not yet formed here waits, a suspended comparison drops it. A mirrored write waits for its instant and its block's cycle start, or the heartbeat instant, and the first that is due is carried out. In SSI mode the owner's word is taken, without it the transfer counts as discarded. A failed verification records CODE 20. How digests of the two units are paired is assumption log 63; that a write of a block without a section applies at the heartbeat instant is log 111; how a failed verification ends, and what a record switch that fails leaves, is logs 68 and 109. These are the model's choices. (R294, R409, R413, R415, R416, R417, R418, R448, R449) -/
def Obligations.TwinShadowing : Prop :=
  (∀ (d : Dev) (m : Hb), unitChip ∉ d.undef → d.bit TwStat.LINKUP () = true → d.clkLost = false → d.failT = false → d.twin.dead = false →
    d.twin.paired = true → d.fld TwStat.ROLE () = 2 → d.twin.coord = .none → (∀ k alt, srcKind d k alt ≠ 6) → Completes (.hbReceived m) d fun t =>
      (∀ (p : Fin 4) (st tec rec_ : Nat), m.ports[p.val]? = some (st, tec, rec_) →
        t.fld BpStat.STATE p = st % 8 ∧ t.fld BpStat.TEC p = tec % 512 ∧ t.fld BpStat.REC p = rec_ % 256) ∧
      ∀ nn : Fin 16,
        (m.latch.getLsbD nn.val = d.bit Qstat.LATCH nn → t.bit Qstat.LATCH nn = d.bit Qstat.LATCH nn ∧ t.fld Qcause.CAUSE nn = d.fld Qcause.CAUSE nn) ∧
        (m.latch.getLsbD nn.val = true → d.bit Qstat.LATCH nn = false → t.bit Qstat.LATCH nn = true ∧ t.fld Qcause.CAUSE nn = 0x8000) ∧
        (m.latch.getLsbD nn.val = false → d.bit Qstat.LATCH nn = true → d.fld Qcause.CAUSE nn &&& 0x8008 = d.fld Qcause.CAUSE nn →
          actMask d nn &&& 0xFFF7 = 0 → t.bit Qstat.LATCH nn = false) ∧
        (m.latch.getLsbD nn.val = false → d.bit Qstat.LATCH nn = true → d.fld Qcause.CAUSE nn &&& 0x8008 ≠ d.fld Qcause.CAUSE nn →
          noCompare d nn = false → t.bit Qstat.LATCH nn = true ∧ t.fld TwBk.MISCNT nn = (d.fld TwBk.MISCNT nn + 1) % 65536 ∧
            t.bit TwBk.RESYNC nn = true ∧ TwMsg.req (.block nn) ∈ t.twin.txq)) ∧
  (∀ (d : Dev) (m : Hb), unitChip ∉ d.undef → d.bit TwStat.LINKUP () = true → d.clkLost = false → d.failT = false → d.twin.paired = true →
    d.fld TwStat.ROLE () = 1 → (∀ k alt, srcKind d k alt ≠ 6) → Completes (.hbReceived m) d fun t =>
      (d.twin.coord = .waits → m.role = 2 → d.bit TwStat.SYNCED () = true → d.bit TwStat.SUSPECT () = false → (∀ nn, d.bit TwBk.RESYNC nn = false) →
        (∀ nn, d.fld BkStat.STATE nn = 3 → 16 ≤ vget d.twin.good nn) → t.bit TwCtl.HANDOVER () = true ∧ (d.bit TwCtl.HANDOVER () = false → t.twin.handing = true)) ∧
      (d.twin.coord ≠ .waits ∨ m.role ≠ 2 ∨ (∃ nn, d.fld BkStat.STATE nn = 3 ∧ vget d.twin.good nn < 16) →
        t.twin.handing = d.twin.handing ∧ t.bit TwCtl.HANDOVER () = d.bit TwCtl.HANDOVER ())) ∧
  (∀ (d : Dev) (nn : Fin 16) (cyc : Nat) (crc : Word), unitChip ∉ d.undef →
    (d.fld TwStat.ROLE () = 0 ∨ 2 < d.fld TwStat.ROLE () ∨ d.twin.paired = false → Gives (.digReceived nn cyc crc) d d) ∧
    (d.fld TwStat.ROLE () = 1 → d.twin.paired = true → d.twin.coord = .none →
      ((∀ e ∈ d.twin.digs, e.1 = nn → e.2.1 ≠ cyc) → Gives (.digReceived nn cyc crc) d d) ∧
      (∀ own rest, d.twin.digs = (nn, cyc, own) :: rest →
        (noCompare d nn = true → Gives (.digReceived nn cyc crc) d (d.onTw fun t => { t with digs := rest })) ∧
        (noCompare d nn = false → own = crc → Completes (.digReceived nn cyc crc) d fun t => t.fld TwBk.MISRUN nn = 0 ∧
          t.fld TwBk.MISCNT nn = d.fld TwBk.MISCNT nn ∧ t.twin.digs = rest ∧ vget t.twin.good nn = min (vget d.twin.good nn + 1) 16) ∧
        (noCompare d nn = false → own ≠ crc → Completes (.digReceived nn cyc crc) d fun t =>
          t.fld TwBk.MISCNT nn = (d.fld TwBk.MISCNT nn + 1) % 65536 ∧ t.fld TwBk.MISRUN nn = min (d.fld TwBk.MISRUN nn + 1) 2 ∧
          t.bit TwBk.MIS_SEEN nn = true ∧ t.bit TwBk.RESYNC nn = true ∧ vget t.twin.good nn = 0 ∧ t.twin.txq = d.twin.txq ∧
          ⟨d.clk, 643, true, 5, false⟩ ∈ t.evq ∧
          (2 ≤ d.fld TwBk.MISRUN nn → t.bit TwStat.SUSPECT () = true ∧ ⟨d.clk, 643, true, 6, false⟩ ∈ t.evq)))) ∧
    (d.fld TwStat.ROLE () = 2 → d.twin.paired = true → d.twin.coord = .none →
      (noCompare d nn = true → Completes (.digReceived nn cyc crc) d fun t => t.regs = d.regs ∧ t.evq = d.evq ∧
        (∀ e ∈ t.twin.digs, e.1 ≠ nn) ∧ ∀ e ∈ t.twin.digO, e.1 ≠ nn) ∧
      (noCompare d nn = false → (∀ e ∈ d.twin.digs, e.1 ≠ nn) →
        Gives (.digReceived nn cyc crc) d (d.onTw fun t => { t with digO := t.digO ++ [(nn, cyc, crc)] })) ∧
      (∀ own rest, noCompare d nn = false → d.twin.digs = (nn, own) :: rest → (∀ e ∈ d.twin.digO, e.1 ≠ nn) →
        (own = (cyc, crc) → Completes (.digReceived nn cyc crc) d fun t => t.fld TwBk.MISRUN nn = 0 ∧
          t.fld TwBk.MISCNT nn = d.fld TwBk.MISCNT nn ∧ t.twin.digs = rest ∧ t.twin.digO = d.twin.digO ∧ t.twin.txq = d.twin.txq) ∧
        (own ≠ (cyc, crc) → Completes (.digReceived nn cyc crc) d fun t =>
          t.fld TwBk.MISCNT nn = (d.fld TwBk.MISCNT nn + 1) % 65536 ∧ t.fld TwBk.MISRUN nn = min (d.fld TwBk.MISRUN nn + 1) 2 ∧
          t.bit TwBk.MIS_SEEN nn = true ∧ t.bit TwBk.RESYNC nn = true ∧ t.fld TwBk.RSCNT nn = min (d.fld TwBk.RSCNT nn + 1) 255 ∧
          t.twin.txq = (twSend d (.req (.block nn))).twin.txq ∧ ⟨d.clk, 643, true, 5, false⟩ ∈ t.evq ∧
          (d.fld TwBk.MISRUN nn < 2 → t.bit TwStat.SUSPECT () = d.bit TwStat.SUSPECT ()) ∧
          (2 ≤ d.fld TwBk.MISRUN nn → t.bit TwStat.SUSPECT () = true ∧ t.bit TwStat.SUSP_SEEN () = true ∧ ⟨d.clk, 643, true, 6, false⟩ ∈ t.evq))))) ∧
  (∀ (d : Dev) (m : MirWr), unitChip ∉ d.undef →
    (d.fld TwStat.ROLE () = 2 → d.bit TwStat.LINKUP () = true → Gives (.mwrReceived m) d (d.onTw fun t => { t with mirror := t.mirror ++ [m] })) ∧
    (d.fld TwStat.ROLE () ≠ 2 ∨ d.bit TwStat.LINKUP () = false → Gives (.mwrReceived m) d d)) ∧
  (∀ d : Dev,
    let due := fun (m : MirWr) => m.t ≤ d.clk ∧ (∀ nn, m.blk = some nn → hasSec d nn = true → (d.b nn).cycT = some d.clk) ∧
      (m.blk = none ∨ (∃ nn, m.blk = some nn ∧ hasSec d nn = false) → d.twin.hbT = some d.clk)
    (d.fld TwStat.ROLE () = 3 ∨ (∀ m ∈ d.twin.mirror, ¬ due m) → Gives .mwrApply d d) ∧
    ∀ (m : MirWr) (pre post : List MirWr), d.fld TwStat.ROLE () ≠ 3 → d.twin.mirror = pre ++ m :: post → due m → (∀ e ∈ pre, ¬ due e) → d.failDue = none →
    let x := d.onTw fun t => { t with mirror := pre ++ post }
    (∀ nn, m.addr = BkCtl.addr nn → Gives .mwrApply d (bkCtlWrite x nn 0 (mOnes m.word % 32))) ∧
    (∀ nn, m.addr = Qctl.addr nn → Gives .mwrApply d (qctlWrite x nn (mOnes m.word % 4) true)) ∧
    (∀ nn, m.addr = SegWr.addr nn → Gives .mwrApply d (segwrDo x nn (m.word.toNat % 64))) ∧
    (∀ k, m.addr = PdCtl.addr k → Gives .mwrApply d (if mOnes m.word % 2 = 1 then doSwitch x k else x)) ∧
    (∀ (nn : Fin 16) (j : Fin 8), m.addr = Hsp.addr (nn, j) → Completes .mwrApply d fun t =>
      t.fld Hsp.V (nn, j) = m.word.toNat % 2 ^ 20 ∧ OnlyRegs [Hsp.addr (nn, j)] x t)) ∧
  (∀ (d : Dev) (nn : Fin 16) (m : Option (BitVec 40 × Bool)), unitBlk nn ∉ d.undef →
    (d.fld EcCfg.MODE nn ≠ 2 ∨ (d.fld TwStat.ROLE () ≠ 2 ∧ (encOf d nn).wait = none) → Gives (.ssiMessage nn m) d d) ∧
    (d.fld EcCfg.MODE nn = 2 → d.fld TwStat.ROLE () = 2 → m = none → Completes (.ssiMessage nn m) d fun t =>
      t.fld EcStat.ERRCNT nn = (d.fld EcStat.ERRCNT nn + 1) % 2 ^ EcStat.ERRCNT.len ∧ (encOf t nn).bad = min ((encOf d nn).bad + 1) 2) ∧
    (∀ w, d.fld EcCfg.MODE nn = 2 → d.fld TwStat.ROLE () = 2 → m = some (w, false) → Completes (.ssiMessage nn m) d fun t => t.bit EcStat.SSIERR nn = true) ∧
    (∀ w, d.fld EcCfg.MODE nn = 2 → d.fld TwStat.ROLE () = 2 → m = some (w, true) → d.bit EcStat.PVALID nn = true →
      d.fld EcJmax.V nn = 0 → d.bit EcCfg.GRAY nn = false → Completes (.ssiMessage nn m) d fun t =>
        (encOf t nn).last = some (w.toNat % 2 ^ d.fld EcCfg.SBITS nn) ∧ (encOf t nn).bad = 0 ∧ t.fld EcStat.ERRCNT nn = d.fld EcStat.ERRCNT nn)) ∧
  ∀ d : Dev, unitChip ∉ d.undef →
    (d.twin.coord = .waits → Completes .twinVerifyTimeout d fun t => t.sess.st = 7 ∧ t.fld UpdStat.CAUSE () = 20 ∧ t.twin.coord = .none ∧
      t.fld TwStat.ROLE () = d.fld TwStat.ROLE ()) ∧
    (d.twin.coord = .verifying → Completes .twinVerifyTimeout d fun t => t.fld TwStat.ROLE () = 3 ∧ t.twin.paired = false ∧ t.bit TwStat.OWNO () = false ∧
      t.twin.coord = .none ∧ t.sess.st = 7 ∧
      (activeBank t = !activeBank d ∨ (activeBank t = activeBank d ∧ t.fld UpdStat.CAUSE () = 13))) ∧
    (d.twin.coord ≠ .waits → d.twin.coord ≠ .verifying → Gives .twinVerifyTimeout d d)

/-- On a SHADOW unit with the link up a receipt whose CRC and start of frame fit a provisional frame takes that frame out of the provisional ones, and a requested frame that arrives is taken by itself; FSEQ becomes that of the owner and the frame is stored in the queue and with the priority that the owner used, discarded (NOMATCH counts where no entry decides), or dropped with DROP, DROPPED and DROPCNT. A receipt without a provisional frame requests the frame. A report of a TQ head takes the same head from TQ with the counts (TXOK of a sent one) and the completion record of its outcome, and one that differs requests the transmit queue; a window's report counts SENT with TXOK, or MISS. A provisional frame without a receipt is dropped and counts DROP. What the shadow takes over with each receipt and report is the model's reading of R411 and R412 (assumption log 65); messages leave the unit in order of class within a clk (log 103). (R320, R321, R322, R326, R327, R328, R332, R402, R411, R412) -/
def Obligations.ShadowReception : Prop :=
  ∀ (d : Dev) (p : Fin 4), d.failDue = none → (d.r p).badQ = [] → (d.r p).badFree = false →
    let keeps := fun (t : Dev) => ∀ q, qGet t p q = qGet d p q
    let rx := fun (c : Instr) (prov : List (Frame × Bool × Nat × Nat)) (f : Frame) (self : Bool) (sof fseq : Nat) (o : RxOut) =>
      let fe := feFor d p f self
      let seq := fun (t : Dev) => (t.port p).fseq = fseq % 65536 ∧ (t.port p).prov = prov
      let len := 28 + f.data.length
      (o = .discard → Completes c d fun t => seq t ∧ keeps t ∧ t.fld RxCnt.DROP p = d.fld RxCnt.DROP p ∧
        t.fld RxCnt.NOMATCH p = (d.fld RxCnt.NOMATCH p + if fe = none then 1 else 0) % 65536) ∧
      (∀ q pri, o = .store q pri → qLive d p q = true → d.bit RQstat.REBUILD p = false → canTake d p q (cellsFor len) = true →
        (qGet d p q).stalls = [] → Completes c d fun t => seq t ∧ (∀ r, r ≠ q → qGet t p r = qGet d p r) ∧ ∃ cells,
          (qGet t p q).pkts = (qGet d p q).pkts ++ [⟨pri % 16, len, cells, rxWords d p f self fe pri sof fseq⟩]) ∧
      (o = .drop → Completes c d fun t => seq t ∧ keeps t ∧ t.fld RxCnt.DROP p = (d.fld RxCnt.DROP p + 1) % 65536 ∧
        let q := if (feAction d p fe).1 = 2 then rq1 else rq0
        t.bit QStat.DROPPED (p, q) = true ∧ t.fld QStat.DROPCNT (p, q) = (d.fld QStat.DROPCNT (p, q) + 1) % 65536)
    (unitChip ∉ d.undef →
      (d.fld TwStat.ROLE () ≠ 2 ∨ d.bit TwStat.LINKUP () = false →
        (∀ sof fseq crc o, Gives (.rxrReceived p sof fseq crc o) d d) ∧ (∀ f self sof fseq o, Gives (.rxfReceived p f self sof fseq o) d d) ∧
        ∀ t, Gives (.txrReceived t) d d) ∧
      (d.fld TwStat.ROLE () = 2 → d.bit TwStat.LINKUP () = true →
        (∀ sof fseq crc o, (∀ e ∈ (d.port p).prov, Config.frameCrc e.1 = crc → e.2.2.1 + 40 < sof ∨ sof + 40 < e.2.2.1) →
          Gives (.rxrReceived p sof fseq crc o) d (twSend d (.req (.frame p sof)))) ∧
        (∀ f self at_ heard rest sof fseq o, (d.port p).prov = (f, self, at_, heard) :: rest → at_ ≤ sof + 40 → sof ≤ at_ + 40 →
          rx (.rxrReceived p sof fseq (Config.frameCrc f) o) rest f self sof fseq o) ∧
        (∀ f self sof fseq o, rx (.rxfReceived p f self sof fseq o) (d.port p).prov f self sof fseq o) ∧
        (∀ tag id crc out sof, (∀ k, tqHead d p = some k → fget 0 16 (pw k 3) ≠ tag ∨ (pw k 1).toNat ≠ id ∨ pktCrc k ≠ crc) →
          Gives (.txrReceived (.head p tag id crc out sof)) d (twSend d (.req (.txQueue p)))) ∧
        (∀ k out sof, tqHead d p = some k → (qGet d p tq).pkts = [k] → d.bit QStat.RST (p, tq) = false →
          Completes (.txrReceived (.head p (fget 0 16 (pw k 3)) (pw k 1).toNat (pktCrc k) out sof)) d fun t =>
            t.fld BpCnt.TXOK p = (d.fld BpCnt.TXOK p + if out = 0 then 1 else 0) % 65536 ∧
            (qGet t p tq).pkts = [] ∧ t.fld TqStat.LOSTN p = 0 ∧ t.twin.txq = d.twin.txq ∧
            t.fld TqCnt.TXREF p = (if out = 3 then min (d.fld TqCnt.TXREF p + 1) 255 else d.fld TqCnt.TXREF p) ∧
            t.fld TqCnt.ABORTS p = (if out = 0 ∨ out = 3 then d.fld TqCnt.ABORTS p else min (d.fld TqCnt.ABORTS p + 1) 255) ∧
            (fget 9 1 (pw k 2) = 0 → qGet t p txc = qGet d p txc) ∧
            (fget 9 1 (pw k 2) = 1 → (qGet d p txc).stalls = [] →
              (∃ cells, (qGet t p txc).pkts = (qGet d p txc).pkts ++ [⟨0, 12, cells,
                [BitVec.ofNat 32 (fget 0 16 (pw k 3) + out * 2 ^ 16), BitVec.ofNat 32 sof, BitVec.ofNat 32 (sof / 2 ^ 32)]⟩]) ∨
              (qGet t p txc = qGet d p txc ∧ t.bit QStat.DROPPED (p, txc) = true))) ∧
        ∀ w : Fin 32,
          (Completes (.txrReceived (.winSent p w)) d fun t => keeps t ∧ t.fld WCnt.SENT (p, w) = (d.fld WCnt.SENT (p, w) + 1) % 65536 ∧
            t.fld BpCnt.TXOK p = (d.fld BpCnt.TXOK p + 1) % 65536 ∧
            t.fld WCnt.MISS (p, w) = d.fld WCnt.MISS (p, w) ∧ t.bit WStat.DUE (p, w) = false ∧ (winOf t p w).sent = true) ∧
          (∀ c, Completes (.txrReceived (.winMissed p w c)) d fun t => keeps t ∧ t.fld WCnt.SENT (p, w) = d.fld WCnt.SENT (p, w) ∧
            t.fld WCnt.MISS (p, w) = (d.fld WCnt.MISS (p, w) + 1) % 65536 ∧ t.bit WStat.MISSED_SEEN (p, w) = true ∧
            t.fld WStat.CAUSE (p, w) = c % 8 ∧ (t.fld Wsum.MISSED p).testBit w.val = true ∧ t.evq = (d.raise (rgSrc p 6) w.val).evq) ∧
          Gives (.txrReceived (.winNote p w)) d d)) ∧
    (unitRgn p ∉ d.undef →
      ((d.port p).prov = [] → Gives (.provisionalTimeout p) d d) ∧
      ∀ e es, (d.port p).prov = e :: es → Completes (.provisionalTimeout p) d fun t => (t.port p).prov = es ∧
        t.fld RxCnt.DROP p = (d.fld RxCnt.DROP p + 1) % 65536 ∧ keeps t ∧ OnlyRegs [RxCnt.addr p] d { t with rgn := d.rgn })

/-- A SHADOW asked to resynchronise block nn that receives the owner's snapshot, with no logged cycle, holds the owner's block except its own trip ball levels and the legs, which go to their safe levels unless the block runs unlatched; in every register of the block but STAT the bits that a snapshot brings are the owner's and the others its own. Logged cycles are then executed in turn. A transmit queue that arrives replaces TQ with INFO 10. The owner answers a request for a frame it has sent, a transmit queue, or all, and one for a block, a mismatch, with the snapshot at the block's next executed cycle start. A resynchronisation that times out on the shadow is one more mismatch with a new request. At the end of a full one a pair that starts up has its time bases aligned and STAGE HELD, a joining unit becomes SHADOW with the owner's count of clk and domain phases and its queues but TQ empty, and both are SYNCED with no RESYNC, MISRUN or REPAIR left; the last unit of a coordinated activation closes the session. Which bits a snapshot carries is assumption log 61, how time is aligned is log 62, how a coordinated activation ends is log 68, and a repaired pair's first REPOUR and messages follow logs 103 and 107. These are the model's choices. (R398, R402, R406, R407, R408, R411, R412, R417, R418, R448) -/
def Obligations.Resynchronisation : Prop :=
  (∀ (d d0 : Dev) (nn : Fin 16), unitChip ∉ d.undef → Memory.wf d = true → Memory.wf d0 = true →
    d.fld TwStat.ROLE () = 2 → d.bit TwStat.LINKUP () = true →
    (∀ x y, d.bit TwBk.RESYNC nn = false → Gives (.rsyReceived (.block nn x)) d d ∧ Gives (.rsyReceived (.log nn y)) d d) ∧
    Gives (.rsyReceived .full) d (d.onTw fun t => { t with refull := true }) ∧
    (d.bit TwBk.RESYNC nn = true →
      (Completes (.rsyReceived (.block nn (snapOf d0 nn))) d fun t =>
        t.b nn = { d0.b nn with ballA := (d.b nn).ballA, ballB := (d.b nn).ballB, prbEdge := (d.b nn).prbEdge, prbLast := (d.b nn).prbLast, rowOld := none, qSet := none, qClk := none, qClr := none, leg := (t.b nn).leg, enc := { (d0.b nn).enc with past := [], tA := (d.b nn).enc.tA, tB := (d.b nn).enc.tB, tZ := (d.b nn).enc.tZ, cond := none } } ∧
        (∀ k, k ≠ nn → t.b k = d.b k) ∧
        (d0.bit Qstat.LATCH nn = false → d0.fld BkStat.STATE nn = 3 → gateSupply d nn = true →
          (t.b nn).leg = (d0.b nn).leg.map fun g => { g with prior := none }) ∧
        (d0.bit Qstat.LATCH nn = true ∨ d0.fld BkStat.STATE nn ≠ 3 ∨ gateSupply d nn = false → outputsOff (t.b nn)) ∧
        t.fld BkStat.STATE nn = d0.fld BkStat.STATE nn ∧ t.fld BkStat.CYC nn = d0.fld BkStat.CYC nn ∧
        (∀ a, inBlock nn a = false → (∀ k, a ≠ PdStat.addr k) → (∀ k, domValid d k = true → srcValid d k (altInUse d k) = true) → t.reg a = d.reg a) ∧
        ∀ a f ix, inBlock nn a = true → a ≠ BkStat.addr nn → regAt a = some (f, ix) →
          let m := BitVec.ofNat 32 (snapMask f)
          t.reg a = (d.reg a &&& ~~~m) ||| (d0.reg a &&& m)) ∧
      (∀ x : CycLog, Gives (.rsyReceived (.log nn x)) d (catchCycle d nn x)) ∧
      ∀ x : BlkSnap, Gives (.rsyReceived (.block nn x)) d (x.log.foldl (fun t c => catchCycle t nn c) (snapLoad d nn { x with log := [] })))) ∧
  (∀ (d : Dev) (p : Fin 4) (ps : List Pkt), unitChip ∉ d.undef → d.failDue = none → d.fld TwStat.ROLE () = 2 → d.bit TwStat.LINKUP () = true →
    (d.r p).badQ = [] → (d.r p).badFree = false → (qGet d p tq).stalls = [] →
    Completes (.rsyReceived (.txQueue p ps)) d fun t => ⟨d.clk, 643, true, 10, false⟩ ∈ t.evq ∧
      List.Sublist ((qGet t p tq).pkts.map fun k => (k.len, k.words)) (ps.map fun k => (k.len, k.words)) ∧
      (∀ k, ps = [k] → (qGet d p tq).pkts = [] → (qGet d p tq).opn = none → qLive d p tq = true → d.bit RQstat.REBUILD p = false →
        canTake d p tq (cellsFor k.len) = true → ∃ cells, (qGet t p tq).pkts = [⟨k.pri % 16, k.len, cells, k.words⟩])) ∧
  (∀ (d : Dev) (b : RsyBody), unitChip ∉ d.undef → d.fld TwStat.ROLE () ≠ 2 ∨ d.bit TwStat.LINKUP () = false → Gives (.rsyReceived b) d d) ∧
  (∀ (d : Dev) (r : TwReq), unitChip ∉ d.undef →
    (d.fld TwStat.ROLE () ≠ 1 ∨ d.bit TwStat.LINKUP () = false → Gives (.reqReceived r) d d) ∧
    (d.fld TwStat.ROLE () = 1 → d.bit TwStat.LINKUP () = true →
      (∀ p sof, r = .frame p sof →
        ((∀ e ∈ (d.port p).sentRx, e.2.2.1 ≠ sof) → Gives (.reqReceived r) d d) ∧
        ∀ es f self fseq o, (d.port p).sentRx = es ++ [(f, self, sof, fseq, o)] →
          Gives (.reqReceived r) d (twSend d (.rxf p f self sof fseq o))) ∧
      (∀ p, r = .txQueue p → Gives (.reqReceived r) d (twSend d (.tq p (qGet d p tq).pkts))) ∧
      (r = .full → Completes (.reqReceived r) d fun t => t.twin.refull = true ∧ t.regs = d.regs ∧ t.blk = d.blk ∧
        (d.twin.dead = false → t.twin.txq.any (fun m => match m with | .full _ => true | _ => false) = true)) ∧
      (∀ nn, r = .block nn → d.twin.coord = .none → Completes (.reqReceived r) d fun t =>
        t.twin.txq = d.twin.txq ∧ t.twin.rsyWait.getLast? = some nn ∧ (∀ e ∈ t.twin.digs, e.1 ≠ nn) ∧ t.bit TwBk.RESYNC nn = true ∧ t.bit TwBk.MIS_SEEN nn = true ∧
        t.fld TwBk.MISCNT nn = (d.fld TwBk.MISCNT nn + 1) % 65536 ∧ t.fld TwBk.MISRUN nn = min (d.fld TwBk.MISRUN nn + 1) 2 ∧
        t.fld TwBk.RSCNT nn = (if d.bit TwBk.RESYNC nn then d.fld TwBk.RSCNT nn else min (d.fld TwBk.RSCNT nn + 1) 255) ∧
        t.blk = d.blk ∧ (t.bit TwStat.SUSPECT () = (decide (2 ≤ d.fld TwBk.MISRUN nn) || d.bit TwStat.SUSPECT ()))))) ∧
  (∀ (d : Dev) (nn : Fin 16), unitChip ∉ d.undef →
    (Completes (.resyncDone nn) d fun t => t.bit TwBk.RESYNC nn = false ∧ (∀ m ∈ t.twin.rsyWait, m ≠ nn) ∧ (∀ e ∈ t.twin.logs, e.1 ≠ nn) ∧
      OnlyRegs [TwBk.addr nn] d { t with twin := d.twin }) ∧
    (unitBlk nn ∉ d.undef → d.twin.dead = false → d.fld TwStat.ROLE () = 1 → nn ∈ d.twin.rsyWait → (d.b nn).resetting = false → (d.b nn).repouring = false →
      2 ≤ d.fld BkStat.STATE nn → d.fld BkStat.STATE nn ≤ 4 → (d.b nn).rewrite = false → (d.b nn).disarm = false → d.bit Pstat.HOLD nn = false →
      (d.b nn).swFall = none → (d.b nn).inCycle = false → Completes (.cycleStart nn) d fun t => (∀ m ∈ t.twin.rsyWait, m ≠ nn) ∧
        t.twin.txq.any (fun m => match m with | .rsy k x => k == nn && x.log.isEmpty | _ => false) = true ∧ t.twin.logs.any (fun e => e.1 == nn) = true) ∧
    (d.bit TwBk.RESYNC nn = false ∨ d.fld TwStat.ROLE () ≠ 2 → Gives (.resyncTimeout nn) d d) ∧
    (d.bit TwBk.RESYNC nn = true → d.fld TwStat.ROLE () = 2 → d.twin.coord = .none → Completes (.resyncTimeout nn) d fun t =>
      t.twin.txq = (twSend d (.req (.block nn))).twin.txq ∧ t.bit TwBk.RESYNC nn = true ∧ t.fld TwBk.RSCNT nn = d.fld TwBk.RSCNT nn ∧
      t.fld TwBk.MISCNT nn = (d.fld TwBk.MISCNT nn + 1) % 65536 ∧ t.blk = d.blk)) ∧
  ∀ (d : Dev) (x : FullSnap), unitChip ∉ d.undef →
    let c := Instr.fullResyncDone x
    let joined := fun (t : Dev) => t.bit TwStat.SYNCED () = true ∧ t.twin.joining = false ∧ t.bit TwCtl.REPAIR () = false ∧
      ∀ nn, t.bit TwBk.RESYNC nn = false ∧ t.fld TwBk.MISRUN nn = 0
    let closes := fun (t : Dev) => t.sess = Sess.empty ∧ t.bit UpdStat.DONE_SEEN () = true ∧ t.twin.coord = .none ∧
      t.bit TwStat.MIXED () = false ∧ ⟨t.clk, 645, true, 7, false⟩ ∈ t.evq
    let waits := d.fld Start.STAGE () = 4 ∧ d.patOp = none ∧ d.pat ≠ none
    (d.bit TwStat.LINKUP () = false ∨ d.twin.paired = false ∨ (¬ waits ∧ d.fld Start.STAGE () ≠ 5) → Gives c d d) ∧
    (d.bit TwStat.LINKUP () = true → d.twin.paired = true → waits → Completes c d fun t => joined t ∧ t.fld Start.STAGE () = 5 ∧
      t.fld TwStat.ROLE () = d.fld TwStat.ROLE () ∧ (d.bit TwStat.OWNO () = true → t.clk = d.clk ∧ t.patT = d.patT) ∧
      (d.bit TwStat.OWNO () = false → t.clk = max d.clk x.clk ∧ t.clk - t.patT = x.clk ∧ ∀ k ph, x.phases = [(k, ph)] → domPH40 t k = ph % 2 ^ 40)) ∧
    (d.bit TwStat.LINKUP () = true → d.twin.paired = true → d.fld Start.STAGE () = 5 →
      (d.bit TwStat.OWNO () = true → Completes c d fun t => joined t ∧ t.blk = d.blk ∧ t.clk = d.clk ∧
        t.fld TwStat.ROLE () = d.fld TwStat.ROLE () ∧ (d.twin.coord = .last → closes t)) ∧
      (d.bit TwStat.OWNO () = false → d.fld TwStat.ROLE () ≠ 2 → d.twin.joining = false → Gives c d d) ∧
      (d.bit TwStat.OWNO () = false → d.fld TwStat.ROLE () = 2 ∨ d.twin.joining = true → d.failDue = none →
        (∀ n, (d.r n).badQ = [] ∧ (d.r n).badFree = false) → Completes c d fun t =>
          joined t ∧ t.fld TwStat.ROLE () = 2 ∧ t.fld TwStat.HREASON () = 0 ∧ t.clk = max d.clk x.clk ∧ t.clk - t.patT = x.clk ∧
          (∀ k ph, x.phases = [(k, ph)] → domPH40 t k = ph % 2 ^ 40) ∧
          (d.fld TwStat.ROLE () ≠ 2 → ∀ n q, q ≠ tq → (qGet t n q).pkts = [] ∧ (qGet t n q).opn = none) ∧
          (d.twin.coord = .departed → t.twin.coord = .verifying) ∧ (d.twin.coord = .departedLast → closes t)))

/-- When OWN_I has read low through the guard a start-up claim raises OWN_O as ACTIVE or, unpaired, ALONE; a takeover does so with TKO, INFO 4 and the provisional frames taken, or with OWN_O not high at its ball leaves it HELD with HREASON 1; FORCE does so as ALONE with the latch of every block that has a section set. OWN_I that rises in the guard of a claim or of FORCE, or in the race of Drag, makes the unit HELD with HREASON 1. OWN_I that falls on a SHADOW begins a takeover, or HELD with HREASON 3 if the unit is SUSPECT. A handover is refused with CREASON 1 on a unit that is not ACTIVE and 3 while the partner is not ready or not yet verified; the incoming unit raises OWN_O, and at completion the two change roles with INFO 8, or the outgoing one is HELD if the link is gone. REPAIR begins a full resynchronisation; it and FORCE are judged by role, link and OWN_I (CREASON 1), and two commands in one write are refused with CREASON 2. What OWN_O reads at its ball is a free value (assumption log 30); the domain rates at a handover are log 67, how a coordinated activation goes on is log 68, and that HANDOVER is refused during a verification is log 112. These are the model's choices. (R282, R397, R398, R414, R418, R420, R421, R423, R425, R426, R429, R448) -/
def Obligations.Ownership : Prop :=
  (∀ d : Dev, unitChip ∉ d.undef →
    let evt := fun (t : Dev) (info : Nat) => ⟨d.clk, 643, true, info, false⟩ ∈ t.evq
    let role := d.fld TwStat.ROLE ()
    let owns := fun (t : Dev) => t.bit TwStat.OWNO () = true ∧ t.twin.guard = .none ∧ t.twin.ownT = some d.clk
    let mode := if d.pat = none then 2 else 0
    let onBus := fun (t : Dev) => ∀ p, d.fld BpStat.STATE p ≠ 0 → d.bit BpCtl.STOP p = false →
      t.fld BpStat.OPMODE p = mode ∨ (t.port p).modePend = some mode
    let takes := fun (t : Dev) (cause : Nat) => t.fld TwStat.ROLE () = 2 ∧ t.twin.takeover = true ∧ t.twin.guard = .takeover ∧
      t.twin.tkoT = d.clk ∧ t.fld TwTko.CAUSE () = cause ∧ t.bit TwStat.OWNO () = d.bit TwStat.OWNO () ∧
      ∀ nn, t.fld BkStat.STATE nn = d.fld BkStat.STATE nn ∧ t.bit TwBk.RESYNC nn = false ∧ (t.bit Qstat.LATCH nn = false → outputsOff (t.b nn))
    let able := d.bit TwStat.SUSPECT () = false ∧ d.twin.repair = false ∧ d.twin.refull = false ∧ d.bit TwCtl.REPAIR () = false
    (d.twin.ownI = true ∨ d.clkLost = true ∨ d.failT = true ∨ d.twin.guard = .none ∨ (d.bit BootCause.HELD () = true ∧ d.twin.guard ≠ .takeover) →
      Gives .ownGuardExpire d d) ∧
    (d.twin.ownI = false → d.clkLost = false → d.failT = false →
      (d.twin.guard = .start → d.bit BootCause.HELD () = false → Completes .ownGuardExpire d fun t => owns t ∧ onBus t ∧
        t.fld TwStat.ROLE () = (if d.twin.paired then 1 else 0) ∧
        t.fld TwStat.HREASON () = if 4 ≤ d.fld TwStat.HREASON () then d.fld TwStat.HREASON () else 0) ∧
      (d.twin.guard = .force → d.bit BootCause.HELD () = false → Completes .ownGuardExpire d fun t => owns t ∧
        t.fld TwStat.ROLE () = 0 ∧ t.fld TwStat.HREASON () = 0 ∧ t.bit TwCtl.FORCE () = false ∧
        ∀ nn, hasSec d nn = true → t.bit Qstat.LATCH nn = true ∧ (t.fld Qcause.CAUSE nn).testBit 15 = true) ∧
      (d.twin.guard = .takeover → d.failDue = none → (∀ n, (d.r n).badQ = [] ∧ (d.r n).badFree = false) →
        Completes .ownGuardExpire d fun t => t.twin.takeover = false ∧ t.twin.guard = .none ∧
          ((t.fld TwStat.ROLE () = 3 ∧ t.fld TwStat.HREASON () = 1 ∧ t.bit TwStat.OWNO () = false ∧ t.fld TwCnt.TKO () = d.fld TwCnt.TKO ()) ∨
          (owns t ∧ t.fld TwStat.ROLE () = (if d.bit TwStat.LINKUP () then 1 else 0) ∧ t.fld TwStat.HREASON () = 0 ∧ t.fld TwCnt.TKO () = min (d.fld TwCnt.TKO () + 1) 255 ∧
          t.bit TwStat.TKO_SEEN () = true ∧ evt t 4 ∧ ∀ p, (t.port p).prov = [])))) ∧
    (d.twin.guard = .start ∨ d.twin.guard = .force ∨ (identDrag d = true ∧ d.bit TwStat.OWNO () = true ∧ d.twin.handing = false ∧
        ∃ c, d.twin.ownT = some c ∧ d.clk ≤ c + nsClk d 1000) →
      Completes .ownIRise d fun t => t.twin.ownI = true ∧ t.fld TwStat.ROLE () = 3 ∧ t.fld TwStat.HREASON () = 1 ∧
        t.bit TwStat.OWNO () = false ∧ t.twin.guard = .none ∧ t.bit TwCtl.FORCE () = false) ∧
    (d.twin.guard ≠ .start → d.twin.guard ≠ .force → identDrag d = false ∨ d.bit TwStat.OWNO () = false ∨ d.twin.handing = true ∨
        (∀ c, d.twin.ownT = some c → c + nsClk d 1000 < d.clk) → Gives .ownIRise d (d.onTw fun t => { t with ownI := true })) ∧
    (role ≠ 2 ∨ (d.twin.faultWait = false ∧ (d.bit TwStat.LINKUP () = false ∨ d.twin.handing = true ∨ d.twin.takeover = true)) →
      Gives .ownIFall d (d.onTw fun t => { t with ownI := false })) ∧
    (role = 2 → d.failT = false → d.twin.faultWait = true ∨ (d.bit TwStat.LINKUP () = true ∧ d.twin.handing = false ∧ d.twin.takeover = false) →
      (able → Completes .ownIFall d fun t => t.twin.ownI = false ∧ takes t (if d.twin.faultWait then 2 else 1)) ∧
      (¬ able → Completes .ownIFall d fun t => t.twin.ownI = false ∧ t.fld TwStat.ROLE () = 3 ∧ t.fld TwStat.HREASON () = 3 ∧ evt t 9)) ∧
    (role = 2 → d.bit TwStat.LINKUP () = true → d.twin.takeover = false → d.failT = false →
      Completes .handoverOwnRaise d fun t =>
      t.bit TwStat.OWNO () = true ∧ t.twin = { d.twin with handing := true, ownT := none } ∧ t.fld TwStat.ROLE () = 2 ∧
      t.blk = d.blk ∧ t.rgn = d.rgn ∧ ∀ k, domPhase t k = domPhase d k) ∧
    (role ≠ 2 ∨ d.bit TwStat.LINKUP () = false ∨ d.twin.takeover = true ∨ d.failT = true → Gives .handoverOwnRaise d d) ∧
    (d.twin.handing = false → Gives .handoverCompletes d d) ∧
    (d.twin.handing = true → role = 2 → d.bit TwStat.OWNO () = true → Completes .handoverCompletes d fun t => t.twin.handing = false ∧
      t.fld TwStat.ROLE () = (if d.bit TwStat.LINKUP () then 1 else 0) ∧ t.bit TwStat.OWNO () = true ∧ evt t 8 ∧
      (d.bit BootCause.HELD () = false → onBus t) ∧
      (d.twin.coord = .verifying → t.twin.coord = .last ∧ ⟨d.clk, 645, true, 12, false⟩ ∈ t.evq)) ∧
    (d.twin.handing = true → role ≤ 1 → d.bit TwCtl.HANDOVER () = true → Completes .handoverCompletes d fun t =>
      t.bit TwStat.OWNO () = false ∧ t.bit TwCtl.HANDOVER () = false ∧ t.twin.handing = false ∧
      (d.bit TwStat.LINKUP () = false → t.fld TwStat.ROLE () = 3 ∧ t.fld TwStat.HREASON () = 2) ∧
      (d.bit TwStat.LINKUP () = true → evt t 8 ∧
        (d.twin.coord ≠ .waits → t.fld TwStat.ROLE () = 2 ∧ t.fld TwStat.HREASON () = 0) ∧
        (d.twin.coord = .waits → t.fld TwStat.ROLE () = 3 ∧ t.twin.paired = false ∧ ⟨d.clk, 645, true, 12, false⟩ ∈ t.evq)))) ∧
  (∀ d : Dev, Gives .twqPulseEnd d ((d.clr TwStat.TWQO ()).onTw fun t => { t with twqPulse := false })) ∧
  ∀ (d : Dev) (h : Master) (w : Word) (b : Fin 3), ReachesPriv d h (TwCtl.addr ()) unitChip →
    let v := ownM b.val w
    let c := if b = 0 then Instr.handover h w else if b = 1 then .repair h w else .force h w
    let stands := d.bit (if b = 0 then TwCtl.HANDOVER else if b = 1 then TwCtl.REPAIR else TwCtl.FORCE) () = true
    let ready := d.bit TwStat.LINKUP () = true ∧ d.twin.paired = true ∧ d.bit TwStat.SYNCED () = true ∧ d.bit TwStat.SUSPECT () = false ∧
      (∃ m at_, d.twin.hb = some (m, at_) ∧ m.role = 2) ∧ (∀ nn, d.bit TwBk.RESYNC nn = false) ∧
      (d.twin.coord = .waits → ∀ nn, d.fld BkStat.STATE nn = 3 → 16 ≤ vget d.twin.good nn)
    let lone := d.fld TwStat.ROLE () = 3 ∧ d.bit TwStat.LINKUP () = false ∧ d.twin.ownI = false ∧ d.bit BootCause.HELD () = false ∧ d.clkLost = false
    let pair := (d.fld TwStat.ROLE () = 1 ∨ d.fld TwStat.ROLE () = 2) ∧ d.twin.paired = true
    mRsv 0xFFF8 v = 0 →
    (mOnes v % 8 ≠ 2 ^ b.val → Gives c d (twRefuse d 2)) ∧
    (mOnes v % 8 = 2 ^ b.val → stands → Gives c d d) ∧
    (mOnes v % 8 = 2 ^ b.val → ¬ stands →
      (b = 0 → d.fld TwStat.ROLE () ≠ 1 → Gives c d (twRefuse d 1)) ∧
      (b = 0 → d.fld TwStat.ROLE () = 1 → ¬ ready → Gives c d (twRefuse d 3)) ∧
      (b = 0 → d.fld TwStat.ROLE () = 1 → ready → Gives c d ((d.flag TwCtl.HANDOVER ()).onTw fun t => { t with handing := true })) ∧
      (b = 1 → pair → Completes c d fun t => t.bit TwCtl.REPAIR () = true ∧ t.twin.refull = true ∧ t.blk = d.blk ∧ (d.twin.dead = false →
        t.twin.txq.any (fun m => match m with | .full _ => d.fld TwStat.ROLE () == 1 | .req .full => d.fld TwStat.ROLE () == 2 | _ => false) = true)) ∧ (b = 1 → ¬ pair → Gives c d (twRefuse d 1)) ∧
      (b = 2 → lone → Gives c d ((d.flag TwCtl.FORCE ()).onTw fun t => { t with guard := .force })) ∧
      (b = 2 → ¬ lone → Gives c d (twRefuse d 1)))

/-- SUBMIT is refused with CODE 25 and IGN on a SHADOW, and without a CODE with SUBREF while the stewards are stopped or after its time; otherwise the 4096 bytes at OFFS are staged when a slot is free. The engine takes a staged billet, one of the bus of its own identifier (which counts RXOK and reaches no queue; during rate detection it is no billet) or one that the ACTIVE unit forwards: a malformed one counts BAD with CODE 15; billet 0 without a session opens one if the manifest passes, else its CODE is recorded, in CHIP.BOOT.CAUSE too where it refuses an image, and with another SID it is refused with CODE 17; a billet of the session is stored with its payload at its offset of staging, the last one makes it APPLYING with INFO 3, a known one counts DUP, any other BAD. The ACTIVE unit forwards what it takes. At the end of the build the inactive bank holds the images that the difference streams in staging build, and the others of the active one; the session is VERIFIED with INFO 4, or FAILED with INFO 5 and the CODE, 15 where a stream is not whole. What a steward restart makes of SUBMIT and billets, the CODEs' order and the bank that BOOT.CAUSE names are the model's reading (assumption log 69); an image that a broken stream leaves is log 108, the keys' verdicts over built images log 11. (R432, R437, R438, R439, R440, R442, R443, R455, R457) -/
def Obligations.UpdateSession : Prop :=
  ∀ d : Dev,
    let evt := fun (t : Dev) (info : Nat) => ⟨d.clk, 645, true, info, false⟩ ∈ t.evq
    let shadow := d.fld TwStat.ROLE () = 2
    let bad := fun (t : Dev) => t.sess = d.sess ∧ t.fld UpdCnt.BAD () = min (d.fld UpdCnt.BAD () + 1) 255
    let refused := fun (t : Dev) (code : Nat) => t.sess = d.sess ∧ t.fld UpdStat.CAUSE () = code % 32 ∧ t.bit UpdStat.REF_SEEN () = true ∧ evt t 2
    let fwd := fun (t : Dev) (b : Billet) =>
      t.twin.txq = if d.fld TwStat.ROLE () = 1 then (twSend d (.upd (.billet b))).twin.txq else d.twin.txq
    let taken := fun (c : Instr) (b : Billet) =>
      let s := d.sess
      (billetForm b = false → Completes c d fun t => bad t ∧ refused t 15) ∧
      (billetForm b = true →
        (b.index = 0 → s.st = 0 → (manifestCode d b).1 = 0 → Completes c d fun t =>
          t.sess = ⟨1, b.sid, b.count, b.bszc, b.manifest.getD [], [0], false, 0, 0, []⟩ ∧ evt t 1 ∧ fwd t b) ∧
        (b.index = 0 → s.st = 0 → (manifestCode d b).1 ≠ 0 → Completes c d fun t => refused t (manifestCode d b).1 ∧ t.twin = d.twin ∧
          ((manifestCode d b).2 ≠ 0 → t.fld BootCause.CODE () = (manifestCode d b).1 % 32 ∧ t.fld BootCause.IMG () = (manifestCode d b).2 % 4 ∧
            t.bit BootCause.BANK () = !activeBank d)) ∧
        (b.index = 0 → s.st ≠ 0 → b.sid ≠ s.sid → Completes c d fun t => refused t 17 ∧ t.twin = d.twin) ∧
        (b.index ≠ 0 → s.st = 0 ∨ b.sid ≠ s.sid → Completes c d bad) ∧
        (s.st ≠ 0 → b.sid = s.sid →
          let mine := b.index < s.count ∧ b.count = s.count ∧ b.bszc = s.bszc
          (¬ mine → Completes c d bad) ∧
          (mine → s.st ≠ 1 ∨ b.index ∈ s.got → Completes c d fun t => t.sess = s ∧ t.twin = d.twin ∧
            t.fld UpdCnt.DUP () = min (d.fld UpdCnt.DUP () + 1) 255) ∧
          (mine → s.st = 1 → b.index ∉ s.got → Completes c d fun t => fwd t b ∧
            t.sess = { s with got := insertUp b.index s.got, staging := stageIn ((b.index - 1) * (bsz s.bszc - 32)) b.payload s.staging, st := if s.got.length + 1 = s.count then 2 else 1 } ∧
            (s.got.length + 1 = s.count → evt t 3) ∧ ∀ k, k ∈ t.sess.got ↔ k = b.index ∨ k ∈ s.got)))
    (∀ (h : Master) (w : Word), ReachesPriv d h (UpdSubmit.addr ()) unitChip → wRsv 0x7FFC0000 (ownBit 31 w) = 0 →
      let o := fget 0 18 w / 4 * 4
      (shadow → Completes (.submit h w) d fun t => t.fld UpdStat.CAUSE () = 25 ∧ t.bit UpdStat.REF_SEEN () = true ∧
        t.fld UpdCnt.IGN () = min (d.fld UpdCnt.IGN () + 1) 255 ∧ t.submit = d.submit ∧ t.stage = d.stage ∧ t.reg (UpdSubmit.addr ()) = d.reg (UpdSubmit.addr ())) ∧
      (¬ shadow → d.stwRun = false → Completes (.submit h w) d fun t => t.submit = none ∧ t.bit UpdSubmit.GO () = false ∧
        t.bit UpdStat.REF_SEEN () = true ∧ t.fld UpdCnt.SUBREF () = min (d.fld UpdCnt.SUBREF () + 1) 255 ∧
        t.fld UpdStat.CAUSE () = d.fld UpdStat.CAUSE () ∧ t.stage = d.stage) ∧
      (¬ shadow → d.stwRun = true → (∀ i, vget d.stage i ≠ none) → Completes (.submit h w) d fun t => t.submit = some o ∧
        t.bit UpdSubmit.GO () = true ∧ t.fld UpdSubmit.OFFS () = o ∧ t.stage = d.stage) ∧
      (¬ shadow → d.stwRun = true → (∃ i, vget d.stage i = none) → Completes (.submit h w) d fun t => t.submit = none ∧
        t.bit UpdSubmit.GO () = false ∧ ∃ i, vget d.stage i = none ∧
          t.stage = vset d.stage i (some (billetAt ((hwBytes d o 4096).map fun b => b.toNat))))) ∧
    (unitChip ∉ d.undef →
      (d.submit = none → Gives .submitTimeout d d) ∧
      (d.submit ≠ none → Completes .submitTimeout d fun t => t.submit = none ∧ t.bit UpdSubmit.GO () = false ∧
        t.fld UpdCnt.SUBREF () = min (d.fld UpdCnt.SUBREF () + 1) 255 ∧ t.bit UpdStat.REF_SEEN () = true) ∧
      (∀ i : Fin 16,
        (d.stwRun = false ∨ vget d.stage i = none → Gives (.billetTaken i) d d) ∧
        ∀ b, d.stwRun = true → vget d.stage i = some b →
          (Completes (.billetTaken i) d fun t => (d.submit = none → t.stage = vset d.stage i none) ∧
            (d.submit ≠ none → t.submit = none ∧ t.bit UpdSubmit.GO () = false)) ∧
          (shadow → Completes (.billetTaken i) d fun t => t.sess = d.sess ∧ t.fld UpdCnt.IGN () = min (d.fld UpdCnt.IGN () + 1) 255) ∧
          (¬ shadow → taken (.billetTaken i) b)) ∧
      (∀ b, d.bit TwStat.LINKUP () = false ∨ ¬ shadow ∨ d.stwRun = false → Gives (.updReceived (.billet b)) d d) ∧
      (∀ b, d.bit TwStat.LINKUP () = true → shadow → d.stwRun = true → taken (.updReceived (.billet b)) b) ∧
      (d.stwRun = false ∨ d.sess.st ≠ 2 → Gives .buildDone d d) ∧
      (d.stwRun = true → d.sess.st = 2 →
        let es := d.sess.entries
        let old := bankOf d (activeBank d)
        let u := buildBank d es
        let v := buildCode u es (buildAll d es)
        let built := fun (t : Dev) => activeBank t = activeBank d ∧ bankOf t (activeBank d) = old ∧
          (∀ typ, typ = 1 ∨ typ = 2 ∨ typ = 3 → entryOf es typ = none → slotOf (bankOf t (!activeBank d)) typ = slotOf old typ) ∧
          ((es.map (·.typ)).Nodup → (∀ e ∈ es, e.typ = 1 ∨ e.typ = 2 ∨ e.typ = 3) →
            ∀ x ∈ buildAll d es, slotOf (bankOf t (!activeBank d)) x.1 = some (flashOf x.2.1)) ∧
          ∀ (e : ManEntry) (data : List Byte), es = [e] → e.typ = 1 ∨ e.typ = 2 ∨ e.typ = 3 → data.length < 2 ^ 32 →
            d.sess.staging.flatMap (·.2) = 2 :: (leBytes 4 data.length).map (BitVec.ofNat 8) ++ data ++ [3] →
            slotOf (bankOf t (!activeBank d)) e.typ = some (flashOf data)
        (v.1 = 0 → Completes .buildDone d fun t => built t ∧ t.sess = { d.sess with st := 3, swappable := swappable u es } ∧ evt t 4) ∧
        (v.1 ≠ 0 → Completes .buildDone d fun t => built t ∧ t.sess = { d.sess with st := 7 } ∧ t.fld UpdStat.CAUSE () = v.1 % 32 ∧ evt t 5 ∧
          (v.2 ≠ 0 → t.fld BootCause.CODE () = v.1 % 32 ∧ t.fld BootCause.IMG () = v.2 % 4 ∧ t.bit BootCause.BANK () = !activeBank d)) ∧
        ((∃ x ∈ buildAll d es, x.2.2 = false) → Completes .buildDone d fun t => built t ∧ t.sess = { d.sess with st := 7 } ∧
          t.fld UpdStat.CAUSE () = 15 ∧ evt t 5))) ∧
    ∀ (p : Fin 4) (f : Frame) (sof : Nat), unitRgn p ∉ d.undef → d.failDue = none →
      let mine := f.fmt.val = 4 ∧ d.bit BpCfg.XLEN p = true ∧ d.bit UpdBusid.EN p = true ∧ f.id.toNat % 2048 = d.fld UpdBusid.ID p
      let b := billetAt (f.data.map fun x => x.toNat)
      (takesPart d p = false ∨ ¬ mine ∨ ardGone d p sof = true → Gives (.busBillet p f sof) d d) ∧
      (takesPart d p = true → mine → ardGone d p sof = false →
        (Completes (.busBillet p f sof) d fun t => t.fld BpCnt.RXOK p = (d.fld BpCnt.RXOK p + 1) % 65536 ∧ t.fld RxCnt.NOMATCH p = d.fld RxCnt.NOMATCH p ∧
          (∀ q, qGet t p q = qGet d p q) ∧ (d.stwRun = false ∨ d.bit BpStat.ARDRUN p = true → t.sess = d.sess ∧ t.reg (UpdCnt.addr ()) = d.reg (UpdCnt.addr ())) ∧
          (d.stwRun = true → d.bit BpStat.ARDRUN p = false → shadow → t.sess = d.sess ∧ t.fld UpdCnt.IGN () = min (d.fld UpdCnt.IGN () + 1) 255) ∧
          (d.stwRun = true → d.bit BpStat.ARDRUN p = false → ¬ shadow → 1 < b.bszc → bad t ∧ refused t 15)) ∧
        (d.stwRun = true → d.bit BpStat.ARDRUN p = false → ¬ shadow → b.bszc ≤ 1 → taken (.busBillet p f sof) b))

/-- A host command is refused with CODE 25 on a SHADOW, 24 with other than one command bit, and 24 while the stewards are stopped; the ACTIVE unit forwards what it accepts, and a SHADOW carries out forwarded ones by the same rules. ABORT empties the session unless it is IDLE or activates; COMMIT takes VERIFIED to COMMITTED with INFO 6, or 19 for a past epoch or a domain without source; ACTNOW is due at once; CONFIRM sets CONFIRMED in the record; REVERT activates the other bank, and one refused with 18 or 20 raises INFO 8; ACTNOW and REVERT read 1 while their activation runs. A due activation is refused with 20 for a pair not SYNCED or SUSPECT and 18 for a block that runs (VERIFIED, INFO 8); otherwise the record switches to the other bank with TRIAL, unless its write fails (FAILED), and the stewards restart or the pattern load begins; of a pair with a SWAPPABLE set the SHADOW departs HELD and the owner waits. A partner that departs leaves the unit ALONE. That ACTNOW and REVERT are judged as they are and that a command takes effect before the next starts are the model's reading (assumption log 69), what a revert restores log 70, that the record's write may fail log 1 and that an activation then fails with CODE 13 and INFO 8 log 109, how a pair swaps log 68. (R434, R442, R444, R445, R446, R447, R448, R453, R455, R457) -/
def Obligations.UpdateCommands : Prop :=
  ∀ d : Dev,
    let evt := fun (t : Dev) (info : Nat) => ⟨d.clk, 645, true, info, false⟩ ∈ t.evq
    let st := d.sess.st
    let busy := st = 5 ∨ st = 6 ∨ d.act ≠ none
    let idle := ∀ nn, d.fld BkStat.STATE nn ≤ 1
    let clean := d.bit TwStat.SYNCED () = true ∧ d.bit TwStat.SUSPECT () = false
    let room := (recOf d).seq + 1 < 2 ^ 32
    let fails := fun (t : Dev) => t.sess.st = 7 ∧ t.fld UpdStat.CAUSE () = 13 ∧ evt t 8 ∧ activeBank t = activeBank d ∧ t.act = none
    let good := Config.choice d.fresh = false
    let switched := fun (t : Dev) => activeBank t = !activeBank d ∧ (recOf t).trial = true ∧ (recOf t).tries = 0 ∧ (recOf t).confirmed = false
    let starts := fun (c : Instr) (revert : Bool) (set : Nat) =>
      (¬ good → Completes c d fails) ∧
      (good → room → set % 2 = 1 → Completes c d fun t => switched t ∧ t.sess.st = 5 ∧ t.stwRun = false ∧ t.act = some ⟨false, false, revert, set, 0⟩) ∧
      (good → room → set % 2 = 0 → set / 2 % 2 = 1 → (∀ x, calIn d (!activeBank d) = some x → hdrCheck d 3 x.hdr (sfwHdr d) true false = 0) →
        Completes c d fun t => switched t ∧ t.sess.st = 5 ∧ t.cal = calIn d (!activeBank d) ∧ t.patOp = some ⟨patIn d (!activeBank d), none, false, 0, false⟩ ∧
          t.bit PatStat.BUSY () = true ∧ t.act = some ⟨true, false, revert, set, 0⟩)
    let due := fun (c : Instr) =>
      let set := sessSet d.sess
      let back := fun (code : Nat) => Completes c d fun t => t.sess = { d.sess with st := 3 } ∧ t.fld UpdStat.CAUSE () = code ∧
        t.bit UpdStat.REF_SEEN () = true ∧ evt t 8 ∧ activeBank t = activeBank d
      (d.twin.paired = true → ¬ clean → back 20) ∧
      (d.twin.paired = true → clean → d.sess.swappable = true →
        (changedIdle d d.sess.entries = false → back 18) ∧
        (changedIdle d d.sess.entries = true → d.fld TwStat.ROLE () = 2 → Completes c d fun t => (set % 2 = 1 → room →
            (t.sess.st = 5 ∧ activeBank t = !activeBank d) ∨ (t.sess.st = 7 ∧ activeBank t = activeBank d)) ∧
          t.fld TwStat.ROLE () = 3 ∧ t.twin.paired = false ∧ t.bit TwStat.SYNCED () = false ∧ (d.twin.dead = false → TwMsg.upd .depart ∈ t.twin.txq)) ∧
        (changedIdle d d.sess.entries = true → d.fld TwStat.ROLE () ≠ 2 → Completes c d fun t => activeBank t = activeBank d ∧
          t.sess = { d.sess with st := 6 } ∧ t.twin.coord = .waits)) ∧
      (d.twin.paired = false ∨ (clean ∧ d.sess.swappable = false) →
        (set ≠ 1 → ¬ idle → back 18) ∧ (set = 1 ∨ idle → starts c false set))
    let rule := fun (c : Instr) (b : Fin 5) (dom : Fin 8) (e : Nat) =>
      let no := fun (code : Nat) => Gives c d (updRefuse d code)
      let noDue := fun (code : Nat) => Gives c d (updEvent (updRefuse d code) 8)
      let confirmed := (recOf d).confirmed = true
      (d.stwRun = false → no 24) ∧
      (d.stwRun = true →
        (b = 0 → st = 0 ∨ busy → no 24) ∧
        (b = 0 → st ≠ 0 → ¬ busy → Completes c d fun t => t.sess = Sess.empty ∧ t.regs = d.regs ∧ t.evq = d.evq) ∧
        (b = 1 → st ≠ 3 → no 24) ∧
        (b = 1 → st = 3 → d.fld PdCfg.SRC dom = 0 ∨ epochDue d dom e = true → no 19) ∧
        (b = 1 → st = 3 → d.fld PdCfg.SRC dom ≠ 0 → epochDue d dom e = false → Completes c d fun t =>
          t.sess = { d.sess with st := 4, dom := dom, epoch := e } ∧ evt t 6) ∧
        (b = 2 → st ≠ 3 → st ≠ 4 → no 24) ∧
        (b = 2 → st = 3 ∨ st = 4 → due c ∧ Completes c d fun t => t.act ≠ none → t.bit UpdCtl.ACTNOW () = true) ∧
        (b = 3 → busy ∨ confirmed → no 24) ∧
        (b = 3 → ¬ busy → ¬ confirmed → room → Completes c d fun t =>
          recOf t = (if good then { recOf d with confirmed := true, seq := (recOf d).seq + 1, ok := true } else recOf d) ∧
          (bankOf t (activeBank t)).preMig = none ∧ t.sess = d.sess) ∧
        (b = 4 → busy ∨ confirmed → no 24) ∧
        (b = 4 → ¬ busy → ¬ confirmed →
          (d.twin.paired = true → ¬ clean → noDue 20) ∧
          (d.twin.paired = false ∨ clean → bankDiff d ≠ 1 → ¬ idle → noDue 18) ∧
          (d.twin.paired = false ∨ clean → bankDiff d = 1 ∨ idle → starts c true (bankDiff d) ∧
            Completes c d fun t => t.act ≠ none → t.bit UpdCtl.REVERT () = true)))
    (∀ (h : Master) (w : Word) (b : Fin 5), ReachesPriv d h (UpdCtl.addr ()) unitChip →
      let v := ownM b.val w
      let dom : Fin 8 := ⟨d.fld UpdCdom.DOM () % 8, Nat.mod_lt _ (by omega)⟩
      let e := d.fld UpdCehi.V () * 2 ^ 20 + d.fld UpdCelo.V ()
      let c := match b with
        | 0 => Instr.updAbort h w | 1 => .updCommit h w | 2 => .actnow h w | 3 => .confirm h w | 4 => .revert h w
      mRsv 0xFFE0 v = 0 →
      (d.fld TwStat.ROLE () = 2 → Gives c d (updRefuse d 25)) ∧
      (d.fld TwStat.ROLE () ≠ 2 → mOnes v % 32 ≠ 2 ^ b.val → Gives c d (updRefuse d 24)) ∧
      (d.fld TwStat.ROLE () ≠ 2 → mOnes v % 32 = 2 ^ b.val → rule c b dom e ∧
        (d.stwRun = true → st = 3 → b = 1 → d.fld TwStat.ROLE () = 1 → d.fld PdCfg.SRC dom ≠ 0 → epochDue d dom e = false →
          Completes c d fun t => t.twin.txq = (twSend d (.upd (.cmd 2 dom (BitVec.ofNat 40 e)))).twin.txq))) ∧
    (unitChip ∉ d.undef →
      (∀ c dom e, d.bit TwStat.LINKUP () = false ∨ d.fld TwStat.ROLE () ≠ 2 → Gives (.updReceived (.cmd c dom e)) d d) ∧
      (∀ (b : Fin 5) dom (e : BitVec 40), d.bit TwStat.LINKUP () = true → d.fld TwStat.ROLE () = 2 →
        rule (.updReceived (.cmd (BitVec.ofNat 5 (2 ^ b.val)) dom e)) b dom e.toNat) ∧
      (d.bit TwStat.LINKUP () = false ∨ d.fld TwStat.ROLE () ≠ 1 → Gives (.updReceived .depart) d d) ∧
      (d.bit TwStat.LINKUP () = true → d.fld TwStat.ROLE () = 1 → Completes (.updReceived .depart) d fun t =>
        t.fld TwStat.ROLE () = 0 ∧ t.fld TwStat.HREASON () = 0 ∧ t.twin.paired = false ∧ t.bit TwStat.SYNCED () = false ∧
        t.bit TwStat.OWNO () = d.bit TwStat.OWNO () ∧ t.twin.coord = (if d.twin.coord = .none ∧ (st = 4 ∨ st = 6) then .waits else d.twin.coord) ∧
        t.sess = { d.sess with st := if st = 4 then 6 else st }) ∧
      let reached := d.stwRun = true ∧ st = 4 ∧ d.clkLost = false ∧ domValid d d.sess.dom = true ∧ epochDue d d.sess.dom d.sess.epoch = true
      (¬ reached → Gives .activationDue d d) ∧ (reached → due .activationDue))

/-- VB_TRANSFER of row nn to region r leaves every register, block and other region as it is; in the region's copy of the value board, from which its blocks take their snapshots, all sixteen values of row nn are those of the row as it stands, every other row reads as before, and the copy keeps its canonical form. (R20, R21, R23) -/
def Obligations.RowReachesRegion : Prop :=
  ∀ (d : Dev) (nn : Fin 16) (r : Fin 4), Memory.wf d = true → unitChip ∉ d.undef → Completes (.vbTransfer nn r) d fun t =>
    t = { d with rgn := t.rgn } ∧ (∀ k, k ≠ r → t.r k = d.r k) ∧ t.r r = { d.r r with vbArr := (t.r r).vbArr } ∧ Memory.wf t = true ∧
    (∀ v : Fin 16, tget (fun _ => 0#20) (t.r r).vbArr (16 * nn.val + v.val) = BitVec.ofNat 20 (d.fld VbV.VAL (nn, v))) ∧
    ∀ a, a / 16 ≠ nn.val → tget (fun _ => 0#20) (t.r r).vbArr a = tget (fun _ => 0#20) (d.r r).vbArr a

/-- An output ball of a bank whose supplies are not good is high-impedance. With them good: after RST_N low the gates, modulator clocks, SHP_IO, FL and TDO are high-impedance, QOUT_N, OWN_O and TWQ_O low, EAnn inputs, BTXp and BSTBp high, BXLMp low, SHP_IRQ_N released and the links idle. With no pattern the modulator clocks are high-impedance and QOUT_N low; with one QOUT_N is low exactly while a quench latch is set. OWN_O and TWQ_O show what the twin decides; EAnn is an input but in SSI mode, where it is low in the first half of each period of a transfer; a modulator clock set to DRIVE is high for the longer half of its divider, one set to RECEIVE an input. FL is ST0's in boot, the stewards' afterwards; TDO is driven in the shift states. BSTBp is high while the port is OFF and low in every other state. BTXp is recessive unless the port takes part on its bus in NORMAL. While a port sends the data phase of an XL frame BXLMp is high with XMSW 0, and with XMSW 1 it stays low and BTXp signals in symbols. Gate outputs show the legs. That OWN_O follows the twin also before a pattern is in effect is the model's choice (assumption log 94), as is that a driven modulator clock is an input while the clock is lost (log 93), the first transfer of SSI (log 52) and where the data phase of a frame lies (log 1). (R51, R53, R57, R59, R67, R201, R276, R279, R280, R281, R397, R414) -/
def Obligations.OutputBalls : Prop :=
  (∀ (d : Dev) (b : Ball), bankUp d (ballBank b) = false → ballOut d b = .hiz) ∧
  (∀ (d : Dev), (∀ b : Ball, bankUp d (ballBank b) = true) →
    (∀ nn l, ballOut d (.gh nn l) = lvlPin (legOf d (nn, l)).gh ∧ ballOut d (.gl nn l) = lvlPin (legOf d (nn, l)).gl) ∧
    (d.pat = none → ballOut d .qoutN = .low ∧ ∀ n x, ballOut d (.mclk n x) = .hiz) ∧
    (d.pat ≠ none → (ballOut d .qoutN = .low ↔ ∃ nn, d.bit Qstat.LATCH nn = true) ∧ ballOut d .tlTx = (if d.rstN = true then .link else .idle) ∧
      ∀ (n : Fin 4) (x : Fin 2), let drive := d.bit (if x = 0 then MclkCfg.DIR0 else MclkCfg.DIR1) n
        let div := d.fld (if x = 0 then MclkCfg.MDIV0 else MclkCfg.MDIV1) n
        (drive = false ∨ d.clkLost = true → ballOut d (.mclk n x) = .input) ∧
        (drive = true → d.clkLost = false → ballOut d (.mclk n x) = if vget (d.r n).mph x < (div + 1) / 2 then .high else .low)) ∧
    ballOut d .ownO = (if d.bit TwStat.OWNO () = true then .high else .low) ∧ ballOut d .twqO = (if d.twin.twqPulse = true then .high else .low) ∧
    (∀ nn, (d.pat = none ∨ d.fld EcCfg.MODE nn ≠ 2 → ballOut d (.ea nn) = .input) ∧
      (d.pat ≠ none → d.fld EcCfg.MODE nn = 2 →
        let since := d.clk - d.patT
        let half := d.fld EcSsi.SDIV nn
        let into := since % d.fld EcSsi.SPER nn
        (since < d.fld EcSsi.SPER nn ∨ (d.fld EcCfg.SBITS nn + 2) * (2 * half) ≤ into → ballOut d (.ea nn) = .high) ∧
        ∀ k, k < d.fld EcCfg.SBITS nn + 2 → d.fld EcSsi.SPER nn ≤ since →
          (k * (2 * half) ≤ into → into < k * (2 * half) + half → ballOut d (.ea nn) = .low) ∧
          (k * (2 * half) + half ≤ into → into < (k + 1) * (2 * half) → ballOut d (.ea nn) = .high))) ∧
    (d.rstN = true → ballOut d .shpIo = .protocol ∧ ballOut d .tdo = .shift ∧
      (d.pat = none → d.fld Start.STAGE () ≠ 6 → ballOut d .flash = .boot ∧ ballOut d .tlTx = .training) ∧
      (d.pat ≠ none ∨ d.fld Start.STAGE () = 6 → ballOut d .flash = .stewards) ∧
      ballOut d .pcieTx = if d.perstN = true then .link else .idle) ∧
    (ballOut d .qoutN = .low ∨ ballOut d .qoutN = .released) ∧ (ballOut d .qoutN = .low ↔ (qsumWord d).getLsbD 16 = true) ∧
    (d.fld Start.STAGE () < 5 → ballOut d .shpIrqN = .released) ∧
    (d.rstN = false → ballOut d .shpIo = .hiz ∧ ballOut d .flash = .hiz ∧ ballOut d .tdo = .hiz ∧ ballOut d .pcieTx = .idle ∧ ballOut d .tlTx = .idle) ∧
    ∀ p, (ballOut d (.bstb p) = if d.fld BpStat.STATE p = 0 then .high else .low) ∧
      (¬ ((d.fld BpStat.STATE p = 3 ∨ d.fld BpStat.STATE p = 4) ∧ d.fld BpStat.OPMODE p = 0) → ballOut d (.btx p) = .high) ∧
      (∀ f, (d.port p).txFrame = some f → f.fmt = 4 → (d.port p).xlPhase = 1 →
        (d.bit BpCfg.XMSW p = false → ballOut d (.bxlm p) = .high) ∧
        (d.bit BpCfg.XMSW p = true → ballOut d (.bxlm p) = .low ∧
          (d.fld BpStat.STATE p = 3 → d.fld BpStat.OPMODE p = 0 → ballOut d (.btx p) = .symbols))) ∧
      ((d.port p).txFrame = none → ballOut d (.bxlm p) = .low)) ∧
  (∀ (d : Dev) (n : Fin 4) (s : Supply), s ∈ [Supply.vdd, .vddaPll, .s n, .g n] → Completes (.supplyFall s) d fun t =>
    (s = .s n → ∀ x, ballOut t (.mclk n x) = .hiz ∧ ballOut t (.btx n) = .hiz ∧ ballOut t (.bstb n) = .hiz ∧ ballOut t (.bxlm n) = .hiz) ∧
    (s = .g n → ∀ nn l, rgnOf nn = n → ballOut t (.gh nn l) = .hiz ∧ ballOut t (.gl nn l) = .hiz) ∧
    (s = .vdd ∨ s = .vddaPll → ∀ b, ballOut t b = .hiz)) ∧
  ∀ (d : Dev) (ns : Nat), 1000 ≤ ns → (∀ b : Ball, bankUp d (ballBank b) = true) → Completes (.rstNLow ns) d fun t =>
    (∀ nn l, ballOut t (.gh nn l) = .hiz ∧ ballOut t (.gl nn l) = .hiz) ∧ (∀ nn, ballOut t (.ea nn) = .input) ∧
    ballOut t .qoutN = .low ∧ ballOut t .ownO = .low ∧ ballOut t .twqO = .low ∧ (∀ n x, ballOut t (.mclk n x) = .hiz) ∧
    (∀ p, ballOut t (.btx p) = .high ∧ ballOut t (.bstb p) = .high ∧ ballOut t (.bxlm p) = .low) ∧
    ballOut t .shpIo = .hiz ∧ ballOut t .shpIrqN = .released ∧ ballOut t .flash = .hiz ∧ ballOut t .tdo = .hiz ∧ ballOut t .pcieTx = .idle ∧ ballOut t .tlTx = .idle

end
end

