-- ==== Sys2Proof/Laws/Tab.lean ====
section
/-! SUPPORT. Tables in canonical form: reading after writing, and that a write keeps the form. -/

namespace Sys2Proof.Machine

variable {α : Type} {dflt : Nat → α}

theorem tget_dropWhile_le (t : Tab α) (a b : Nat) (h : a < b) :
    tget dflt (t.dropWhile fun e => decide (e.1 ≤ a)) b = tget dflt t b := by
  induction t with
  | nil => rfl
  | cons e t ih =>
    obtain ⟨k, v⟩ := e
    by_cases hk : k ≤ a
    · have h1 : ¬ b < k := by omega
      have h2 : k ≠ b := by omega
      simp [hk, ih, tget, h1, h2]
    · simp [hk]

theorem tget_dropWhile_self (t : Tab α) (a : Nat) :
    tget dflt (t.dropWhile fun e => decide (e.1 ≤ a)) a = dflt a := by
  induction t with
  | nil => rfl
  | cons e t ih =>
    obtain ⟨k, v⟩ := e
    by_cases hk : k ≤ a
    · simp [hk, ih]
    · have h1 : a < k := by omega
      simp [hk, tget, h1]

theorem tget_of_lt_head (t : Tab α) (a b : Nat) (h : b < a) :
    tget dflt (t.dropWhile fun e => decide (e.1 ≤ a)) b = dflt b := by
  induction t with
  | nil => rfl
  | cons e t ih =>
    obtain ⟨k, v⟩ := e
    by_cases hk : k ≤ a
    · simp [hk, ih]
    · have h1 : b < k := by omega
      simp [hk, tget, h1]

variable [DecidableEq α]

/-- A read of the number written gives the value written. -/
@[simp] theorem tget_tset_self (t : Tab α) (a : Nat) (v : α) :
    tget dflt (tset dflt t a v) a = v := by
  induction t with
  | nil => by_cases hv : v = dflt a <;> simp [tset, tget, hv]
  | cons e t ih =>
    obtain ⟨k, w⟩ := e
    unfold tset
    by_cases h1 : a < k
    · by_cases hv : v = dflt a <;> simp [h1, hv, tget]
    · by_cases h2 : k = a
      · by_cases hv : v = dflt a
        · simp [h2, hv, tget_dropWhile_self]
        · simp [h2, hv, tget]
      · simp [h1, h2, tget, ih]

/-- A write leaves every other number alone. -/
theorem tget_tset_ne (t : Tab α) (a b : Nat) (v : α) (h : b ≠ a) :
    tget dflt (tset dflt t a v) b = tget dflt t b := by
  induction t with
  | nil =>
    by_cases hv : v = dflt a
    · simp [tset, hv]
    · have h2 : ¬ a = b := fun e => h e.symm
      simp [tset, tget, hv, h2]
  | cons e t ih =>
    obtain ⟨k, w⟩ := e
    unfold tset
    by_cases h1 : a < k
    · by_cases hv : v = dflt a
      · simp [h1, hv]
      · have h2 : ¬ a = b := fun e => h e.symm
        by_cases hb : b < a
        · have : b < k := by omega
          simp [h1, hv, tget, hb, this]
        · simp [h1, hv, tget, hb, h2]
    · by_cases h2 : k = a
      · subst h2
        by_cases hv : v = dflt k
        · by_cases hb : b < k
          · simp [hv, tget, hb, tget_of_lt_head t k b hb]
          · have h3 : k < b := by omega
            have h4 : ¬ k = b := by omega
            simp [hv, tget, hb, h4, tget_dropWhile_le t k b h3]
        · simp [hv, tget]
          have h4 : ¬ k = b := fun e => h e.symm
          simp [h4]
      · simp only [h1, h2, if_false, tget, ih]

theorem tcanonFrom_mono (t : Tab α) (lo lo' : Nat) (h : lo' ≤ lo) (hc : tcanonFrom dflt lo t = true) :
    tcanonFrom dflt lo' t = true := by
  cases t with
  | nil => rfl
  | cons e t =>
    obtain ⟨k, v⟩ := e
    simp only [tcanonFrom, Bool.and_eq_true, decide_eq_true_eq] at hc ⊢
    exact ⟨⟨by omega, hc.1.2⟩, hc.2⟩

theorem dropWhile_of_canonFrom (t : Tab α) (a : Nat) (hc : tcanonFrom dflt (a + 1) t = true) :
    (t.dropWhile fun e => decide (e.1 ≤ a)) = t := by
  cases t with
  | nil => rfl
  | cons e t =>
    obtain ⟨k, v⟩ := e
    simp only [tcanonFrom, Bool.and_eq_true, decide_eq_true_eq] at hc
    have : ¬ k ≤ a := by omega
    simp [this]

theorem tcanonFrom_tset (t : Tab α) (lo a : Nat) (v : α) (hl : lo ≤ a)
    (hc : tcanonFrom dflt lo t = true) : tcanonFrom dflt lo (tset dflt t a v) = true := by
  induction t generalizing lo with
  | nil =>
    by_cases hv : v = dflt a
    · simp [tset, tcanonFrom, hv]
    · simp [tset, tcanonFrom, hv, hl]
  | cons e t ih =>
    obtain ⟨k, w⟩ := e
    have hc0 := hc
    simp only [tcanonFrom, Bool.and_eq_true, decide_eq_true_eq] at hc
    unfold tset
    by_cases h1 : a < k
    · by_cases hv : v = dflt a
      · simp only [h1, hv, if_true]
        exact hc0
      · simp only [h1, hv, if_true, if_false, tcanonFrom, Bool.and_eq_true, decide_eq_true_eq]
        exact ⟨⟨hl, hv⟩, ⟨by omega, hc.1.2⟩, hc.2⟩
    · by_cases h2 : k = a
      · subst h2
        by_cases hv : v = dflt k
        · simp only [hv, if_true, lt_irrefl, if_false]
          rw [dropWhile_of_canonFrom t k hc.2]
          exact tcanonFrom_mono t (k + 1) lo (by omega) hc.2
        · simp only [hv, if_true, lt_irrefl, if_false, tcanonFrom, Bool.and_eq_true, decide_eq_true_eq]
          exact ⟨⟨hl, hv⟩, hc.2⟩
      · simp only [h1, h2, if_false, tcanonFrom, Bool.and_eq_true, decide_eq_true_eq]
        exact ⟨hc.1, ih (k + 1) (by omega) hc.2⟩

/-- A write keeps the canonical form. -/
theorem tcanon_tset (t : Tab α) (a : Nat) (v : α) (hc : tcanon dflt t = true) :
    tcanon dflt (tset dflt t a v) = true :=
  tcanonFrom_tset t 0 a v (Nat.zero_le a) hc

/-- Canonical form in words: numbers strictly rising, no value that an unlisted number has. -/
theorem tcanonFrom_iff (t : Tab α) (lo : Nat) :
    tcanonFrom dflt lo t = true ↔ t.Pairwise (fun x y => x.1 < y.1) ∧ ∀ e ∈ t, lo ≤ e.1 ∧ e.2 ≠ dflt e.1 := by
  induction t generalizing lo with
  | nil => simp [tcanonFrom]
  | cons e t ih =>
    obtain ⟨k, v⟩ := e
    simp only [tcanonFrom, Bool.and_eq_true, decide_eq_true_eq, ih, List.pairwise_cons, List.mem_cons, forall_eq_or_imp]
    constructor
    · rintro ⟨⟨h1, h2⟩, h3, h4⟩
      exact ⟨⟨fun e he => (h4 e he).1, h3⟩, ⟨h1, h2⟩, fun e he => ⟨by have := (h4 e he).1; omega, (h4 e he).2⟩⟩
    · rintro ⟨⟨h1, h2⟩, h3, h4⟩
      exact ⟨h3, h2, fun e he => ⟨h1 e he, (h4 e he).2⟩⟩

theorem tcanon_iff (t : Tab α) :
    tcanon dflt t = true ↔ t.Pairwise (fun x y => x.1 < y.1) ∧ ∀ e ∈ t, e.2 ≠ dflt e.1 := by
  simp [tcanon, tcanonFrom_iff]

/-- Entries taken out of a canonical table leave a canonical one. -/
theorem tcanon_filter (t : Tab α) (p : Nat × α → Bool) (h : tcanon dflt t = true) : tcanon dflt (t.filter p) = true := by
  rw [tcanon_iff] at *
  exact ⟨h.1.filter p, fun e he => h.2 e (List.mem_filter.1 he).1⟩

/-- Values changed in a canonical table, and those that an unlisted number has taken out, leave a canonical one. -/
theorem tcanon_map_filter (t : Tab α) (f : Nat × α → Nat × α) (p : Nat × α → Bool) (hf : ∀ e, (f e).1 = e.1)
    (hp : ∀ e, p e = true → e.2 ≠ dflt e.1) (h : tcanon dflt t = true) : tcanon dflt ((t.map f).filter p) = true := by
  rw [tcanon_iff] at *
  refine ⟨List.Pairwise.filter _ (List.pairwise_map.2 ?_), ?_⟩
  · simpa only [hf] using h.1
  · intro e he
    exact hp e (List.mem_filter.1 he).2

end Sys2Proof.Machine
end

