-- ==== Sys2Proof/Laws/Regs.lean ====
section
/-! SUPPORT. Reading a register or a field after writing one. -/

namespace Sys2Proof.Machine

theorem fmask_getLsbD (lo len i : Nat) (h : lo + len ≤ 32) :
    (fmask lo len).getLsbD i = (decide (lo ≤ i) && decide (i < lo + len)) := by
  simp only [fmask, BitVec.getLsbD_shiftLeft, BitVec.getLsbD_setWidth, BitVec.getLsbD_allOnes]
  by_cases h1 : i < lo
  · have : ¬ lo ≤ i := by omega
    simp [h1, this]
  · by_cases h2 : i < lo + len
    · have a1 : i < 32 := by omega
      have a2 : i - lo < 32 := by omega
      have a3 : i - lo < len := by omega
      have a4 : lo ≤ i := by omega
      simp [h1, h2, a1, a2, a3, a4]
    · have a3 : ¬ i - lo < len := by omega
      simp [h2, a3]

/-- The field written reads as the value written, in its width. -/
@[simp] theorem fget_fset_self (lo len v : Nat) (w : Word) (h : lo + len ≤ 32) :
    fget lo len (fset lo len v w) = v % 2 ^ len := by
  have e : (fset lo len v w).extractLsb' lo len = BitVec.ofNat len v := by
    apply BitVec.eq_of_getLsbD_eq
    intro i hi
    have a0 : lo + i < 32 := by omega
    simp [fset, hi, fmask_getLsbD _ _ _ h, a0]
  simp [fget, e, BitVec.toNat_ofNat]

/-- A field that does not overlap the field written is unchanged. -/
theorem fget_fset_ne (lo len lo' len' v : Nat) (w : Word) (h : lo + len ≤ 32)
    (hd : lo + len ≤ lo' ∨ lo' + len' ≤ lo) :
    fget lo' len' (fset lo len v w) = fget lo' len' w := by
  have e : (fset lo len v w).extractLsb' lo' len' = w.extractLsb' lo' len' := by
    apply BitVec.eq_of_getLsbD_eq
    intro i hi
    simp only [fset, BitVec.getLsbD_extractLsb', BitVec.getLsbD_or, BitVec.getLsbD_and, BitVec.getLsbD_not, fmask_getLsbD _ _ _ h,
      BitVec.getLsbD_shiftLeft, BitVec.getLsbD_setWidth, BitVec.getLsbD_ofNat, hi, decide_true, Bool.true_and]
    by_cases h32 : lo' + i < 32
    · rcases hd with hd | hd
      · have b1 : ¬ lo' + i < lo + len := by omega
        have b2 : ¬ lo' + i - lo < len := by omega
        simp [b1, b2, h32]
      · have b1 : ¬ lo ≤ lo' + i := by omega
        have b3 : lo' + i < lo := by omega
        simp [b1, b3, h32]
    · simp [h32, BitVec.getLsbD_of_ge w (lo' + i) (by omega)]
  simp [fget, e]

namespace Dev

@[simp] theorem reg_setReg_self (d : Dev) (a : Nat) (w : Word) : (d.setReg a w).reg a = w := by
  simp [reg, setReg]

theorem reg_setReg_ne (d : Dev) (a b : Nat) (w : Word) (h : b ≠ a) : (d.setReg a w).reg b = d.reg b := by
  simp [reg, setReg, tget_tset_ne _ _ _ _ h]

theorem reg_setReg (d : Dev) (a b : Nat) (w : Word) :
    (d.setReg a w).reg b = if b = a then w else d.reg b := by
  by_cases h : b = a
  · subst h
    simp
  · simp [h, reg_setReg_ne d a b w h]

/-- A field read after it is written. -/
theorem fld_put_self {ι : Type} (d : Dev) (f : RF ι) (i : ι) (v : Nat) (h : f.lo + f.len ≤ 32) :
    (d.put f i v).fld f i = v % 2 ^ f.len := by
  simp [fld, put, h]

/-- A field at another address than the one written. -/
theorem fld_put_addr {ι κ : Type} (d : Dev) (f : RF ι) (i : ι) (g : RF κ) (j : κ) (v : Nat)
    (h : g.addr j ≠ f.addr i) : (d.put f i v).fld g j = d.fld g j := by
  simp [fld, put, reg_setReg_ne _ _ _ _ h]

/-- Another field of the register written. -/
theorem fld_put_bits {ι κ : Type} (d : Dev) (f : RF ι) (i : ι) (g : RF κ) (j : κ) (v : Nat)
    (h : f.lo + f.len ≤ 32) (hd : f.lo + f.len ≤ g.lo ∨ g.lo + g.len ≤ f.lo) :
    (d.put f i v).fld g j = d.fld g j := by
  by_cases ha : g.addr j = f.addr i
  · simp only [fld, put, ha, reg_setReg_self]
    exact fget_fset_ne _ _ _ _ _ _ h hd
  · exact fld_put_addr d f i g j v ha

theorem reg_put_ne {ι : Type} (d : Dev) (f : RF ι) (i : ι) (v a : Nat) (h : a ≠ f.addr i) :
    (d.put f i v).reg a = d.reg a := by
  simp [put, reg_setReg_ne _ _ _ _ h]

theorem fld_setReg_addr {κ : Type} (d : Dev) (a : Nat) (w : Word) (g : RF κ) (j : κ) (h : g.addr j ≠ a) :
    (d.setReg a w).fld g j = d.fld g j := by
  simp [fld, reg_setReg_ne _ _ _ _ h]

theorem fld_setReg_self {κ : Type} (d : Dev) (w : Word) (g : RF κ) (j : κ) :
    (d.setReg (g.addr j) w).fld g j = fget g.lo g.len w := by
  simp [fld]

/-- A field holds no more than its width. -/
theorem fld_lt {ι : Type} (d : Dev) (f : RF ι) (i : ι) : d.fld f i < 2 ^ f.len := by
  unfold fld fget
  exact (BitVec.extractLsb' _ _ _).isLt

end Dev

/-- A unit of a vector after one of them is replaced. -/
@[simp] theorem vget_vset_self {α : Type} {n : Nat} (v : Vector α n) (i : Fin n) (x : α) : vget (vset v i x) i = x := by
  simp [vget, vset]

theorem vget_vset_ne {α : Type} {n : Nat} (v : Vector α n) (i j : Fin n) (x : α) (h : j ≠ i) :
    vget (vset v i x) j = vget v j := by
  have : i.val ≠ j.val := fun e => h (Fin.ext e.symm)
  simp [vget, vset, this]

@[simp] theorem vget_vmod_self {α : Type} {n : Nat} (v : Vector α n) (i : Fin n) (f : α → α) :
    vget (vmod v i f) i = f (vget v i) := by
  simp [vmod]

theorem vget_vmod_ne {α : Type} {n : Nat} (v : Vector α n) (i j : Fin n) (f : α → α) (h : j ≠ i) :
    vget (vmod v i f) j = vget v j := by
  simp [vmod, vget_vset_ne _ _ _ _ h]

end Sys2Proof.Machine
end

