-- ==== Sys2Proof/Laws/Keep.lean ====
section
/-! SUPPORT. The invariant of the device (canonical memories, safe legs) over the named updates: each keeps it. -/

namespace Sys2Proof.Machine

/-- The invariant of the device, part by part. -/
structure Ok (d : Dev) : Prop where
  regs : tcanon resetWord d.regs = true
  hwin : tcanon (fun _ => 0#8) d.hwin = true
  rgn : ∀ n, Rgn.wf (d.r n) = true
  src : tcanon (fun _ => SrcSt.reset) d.src = true
  targ : ∀ t, tcanon (fun _ => Rec.empty) (vget d.targ t).ring = true
  blk : ∀ nn, Blk.wf (d.b nn) = true

theorem ok_iff {d : Dev} : Ok d ↔ Memory.wf d = true ∧ Legs.wf d = true := by
  constructor
  · intro h
    simp only [Memory.wf, Legs.wf, Bool.and_eq_true, List.all_eq_true, List.mem_finRange, forall_const]
    exact ⟨⟨⟨⟨⟨h.regs, h.hwin⟩, h.rgn⟩, h.src⟩, h.targ⟩, h.blk⟩
  · rintro ⟨h1, h2⟩
    simp only [Memory.wf, Legs.wf, Bool.and_eq_true, List.all_eq_true, List.mem_finRange, forall_const] at h1 h2
    exact ⟨h1.1.1.1.1, h1.1.1.1.2, h1.1.1.2, h1.1.2, h1.2, h2⟩

/-- An update that touches no part of the invariant. -/
theorem ok_same {d d' : Dev} (h : Ok d) (h1 : d'.regs = d.regs) (h2 : d'.hwin = d.hwin) (h3 : d'.rgn = d.rgn)
    (h4 : d'.src = d.src) (h5 : d'.targ = d.targ) (h6 : d'.blk = d.blk) : Ok d' := by
  refine ⟨?_, ?_, ?_, ?_, ?_, ?_⟩
  · rw [h1]; exact h.regs
  · rw [h2]; exact h.hwin
  · intro n; rw [Dev.r, h3]; exact h.rgn n
  · rw [h4]; exact h.src
  · rw [h5]; exact h.targ
  · intro n; rw [Dev.b, h6]; exact h.blk n

/-- As ok_same, on an update written out. -/
theorem ok_mk {d : Dev} {hw' : List (Nat × Nat × Bool)} {redo' : List (Nat × Nat)} {errNow' : Option (Word × Word)} {clk' : Nat} {t0' : Nat} {patT' : Nat} {fresh' : Nat} {undef' : List Nat} {supply' : List Supply} {rstN' : Bool} {perstN' : Bool} {fn' : Vector PcieFn 2} {out' : List HostOut} {jtagTap' : Bool} {jtagHalt' : Bool} {dbgHalt' : Bool} {qinBall' : Bool} {clkLost' : Bool} {rcOsc' : Bool} {stwRun' : Bool} {waitSfw' : Bool} {sfw' : Option SfwImage} {cal' : Option CalImage} {pat' : Option PatImage} {patOp' : Option PatOp} {keys' : BitVec 4} {bank0' : Bank} {bank1' : Bank} {sess' : Sess} {stage' : Vector (Option Billet) 16} {submit' : Option Nat} {act' : Option Activ} {dom' : Vector Domn 8} {evq' : List Msg} {chan' : Vector Chan 8} {turn' : Fin 8} {trace' : List (Word × Word × Word × Word)} {tseq' : Nat} {hostWr' : List HostWr} {twin' : Twin} {failT' : Bool} {failWin' : Nat} {failOpen' : Bool} {failDue' : Option (Fin 4)} {failNote' : List Nat} (h : Ok d) :
    Ok ⟨d.regs, hw', redo', errNow', d.hwin, clk', t0', patT', fresh', undef', supply', rstN', perstN', fn', out', jtagTap', jtagHalt', dbgHalt', qinBall', clkLost', rcOsc', stwRun', waitSfw', sfw', cal', pat', patOp', keys', bank0', bank1', sess', stage', submit', act', d.blk, dom', d.rgn, evq', d.src, d.targ, chan', turn', trace', tseq', hostWr', twin', failT', failWin', failOpen', failDue', failNote'⟩ :=
  ok_same h rfl rfl rfl rfl rfl rfl

theorem ok_regs {d : Dev} {rs : Tab Word} (h : Ok d) (hr : tcanon resetWord d.regs = true → tcanon resetWord rs = true) :
    Ok { d with regs := rs } := by
  exact ⟨hr h.regs, h.hwin, h.rgn, h.src, h.targ, h.blk⟩

theorem ok_setReg {d : Dev} {a : Nat} {w : Word} (h : Ok d) : Ok (d.setReg a w) :=
  ok_regs h fun hc => tcanon_tset _ _ _ hc

theorem ok_mark {d : Dev} {a b : Nat} {c : Bool} (h : Ok d) : Ok (d.mark a b c) := ok_same h rfl rfl rfl rfl rfl rfl
theorem ok_put {ι : Type} {d : Dev} {f : RF ι} {i : ι} {v : Nat} (h : Ok d) : Ok (d.put f i v) := ok_setReg h
theorem ok_flag {ι : Type} {d : Dev} {f : RF ι} {i : ι} (h : Ok d) : Ok (d.flag f i) := ok_mark (ok_put h)
theorem ok_clr {ι : Type} {d : Dev} {f : RF ι} {i : ι} (h : Ok d) : Ok (d.clr f i) := ok_setReg h
theorem ok_putB {ι : Type} {d : Dev} {f : RF ι} {i : ι} {v : Bool} (h : Ok d) : Ok (d.putB f i v) := ok_setReg h
theorem ok_putI {ι : Type} {d : Dev} {f : RF ι} {i : ι} {v : Int} (h : Ok d) : Ok (d.putI f i v) := ok_setReg h
theorem ok_putS {ι : Type} {d : Dev} {f : RF ι} {i : ι} {v : Int} (h : Ok d) : Ok (d.putS f i v) := ok_setReg h
theorem ok_inc {ι : Type} {d : Dev} {f : RF ι} {i : ι} (h : Ok d) : Ok (d.inc f i) := ok_mark (ok_put h)
theorem ok_incSat {ι : Type} {d : Dev} {f : RF ι} {i : ι} (h : Ok d) : Ok (d.incSat f i) := ok_mark (ok_put h)
theorem ok_flagBit {ι : Type} {d : Dev} {f : RF ι} {i : ι} {b : Nat} (h : Ok d) : Ok (d.flagBit f i b) := ok_mark (ok_put h)
theorem ok_incBy {ι : Type} {d : Dev} {f : RF ι} {i : ι} {n : Nat} (h : Ok d) : Ok (d.incBy f i n) := ok_same (ok_put h) rfl rfl rfl rfl rfl rfl
theorem ok_cmdAgain {d : Dev} {a v : Nat} (h : Ok d) : Ok (d.cmdAgain a v) := ok_same h rfl rfl rfl rfl rfl rfl
theorem ok_cmdDone {ι : Type} {d : Dev} {f : RF ι} {i : ι} (h : Ok d) : Ok (d.cmdDone f i) := by
  unfold Dev.cmdDone
  split
  · exact ok_same h rfl rfl rfl rfl rfl rfl
  · exact ok_clr h
theorem ok_free {d : Dev} (h : Ok d) : Ok (d.free).2 := ok_same h rfl rfl rfl rfl rfl rfl
theorem ok_onPd {d : Dev} {k : Fin 8} {f : Domn → Domn} (h : Ok d) : Ok (d.onPd k f) := ok_same h rfl rfl rfl rfl rfl rfl
theorem ok_onTw {d : Dev} {f : Twin → Twin} (h : Ok d) : Ok (d.onTw f) := ok_same h rfl rfl rfl rfl rfl rfl
theorem twSend_ok {d : Dev} {m : TwMsg} (h : Ok d) : Ok (twSend d m) := by
  unfold twSend
  split
  · exact h
  · exact ok_onTw h
theorem ok_say {d : Dev} {o : HostOut} (h : Ok d) : Ok (d.say o) := ok_same h rfl rfl rfl rfl rfl rfl
theorem ok_sendMsg {d : Dev} {a : Nat} {b : Bool} {c : Nat} (h : Ok d) : Ok (d.sendMsg a b c) := ok_same h rfl rfl rfl rfl rfl rfl
theorem ok_raise {d : Dev} {a c : Nat} (h : Ok d) : Ok (d.raise a c) := ok_same h rfl rfl rfl rfl rfl rfl

theorem vget_vmod {α : Type} {n : Nat} (v : Vector α n) (i j : Fin n) (f : α → α) :
    vget (vmod v i f) j = if j = i then f (vget v i) else vget v j := by
  by_cases h : j = i
  · subst h; simp
  · simp [h, vget_vmod_ne]

theorem ok_onB' {d : Dev} {nn : Fin 16} {f : Blk → Blk} (h : Ok d)
    (hf : Blk.wf (d.b nn) = true → Blk.wf (f (d.b nn)) = true) : Ok (d.onB nn f) := by
  refine ⟨h.regs, h.hwin, h.rgn, h.src, h.targ, ?_⟩
  intro j
  simp only [Dev.b, Dev.onB, vget_vmod]
  split
  · exact hf (h.blk nn)
  · exact h.blk j

theorem ok_onB {d : Dev} {nn : Fin 16} {f : Blk → Blk} (h : Ok d)
    (hf : ∀ b, Blk.wf b = true → Blk.wf (f b) = true) : Ok (d.onB nn f) := ok_onB' h (hf _)

theorem ok_onR {d : Dev} {n : Fin 4} {f : Rgn → Rgn} (h : Ok d)
    (hf : ∀ r, Rgn.wf r = true → Rgn.wf (f r) = true) : Ok (d.onR n f) := by
  refine ⟨h.regs, h.hwin, ?_, h.src, h.targ, h.blk⟩
  intro j
  simp only [Dev.r, Dev.onR, vget_vmod]
  split
  · exact hf _ (h.rgn n)
  · exact h.rgn j

theorem blk_iff {b : Blk} : Blk.wf b = true ↔ (∀ l, Leg.safe (vget b.leg l) = true) ∧ tcanon (fun _ => 0#20) b.snap = true ∧
    ∀ e, b.qClr = some e → ∀ l, Leg.safe (vget e.2.2.2 l) = true := by
  simp only [Blk.wf, Bool.and_eq_true, List.all_eq_true, List.mem_finRange, forall_const, and_assoc]
  cases b.qClr <;> simp

/-- A change of a block that touches neither legs nor the copy of the board. -/
theorem blk_same {b b' : Blk} (h : Blk.wf b = true) (h1 : b'.leg = b.leg) (h2 : b'.snap = b.snap) (h3 : b'.qClr = b.qClr) :
    Blk.wf b' = true := by
  unfold Blk.wf at *
  rw [h1, h2, h3]; exact h

/-- As blk_same, with no clear to come back to. -/
theorem blk_noClr {b b' : Blk} (h : Blk.wf b = true) (h1 : b'.leg = b.leg) (h2 : b'.snap = b.snap) (h3 : b'.qClr = none) :
    Blk.wf b' = true := by
  rw [blk_iff] at *
  exact ⟨h1 ▸ h.1, h2 ▸ h.2.1, fun e he => by simp [h3] at he⟩

/-- A change of every leg that keeps its outputs, its edges and TDA. -/
theorem blk_map {b b' : Blk} {f : Leg → Leg} (h : Blk.wf b = true) (h1 : b'.leg = b.leg.map f) (h2 : b'.snap = b.snap)
    (h3 : b'.qClr = b.qClr) (hf : ∀ g, Leg.safe g = true → Leg.safe (f g) = true) : Blk.wf b' = true := by
  rw [blk_iff] at *
  refine ⟨fun l => ?_, h2 ▸ h.2.1, h3 ▸ h.2.2⟩
  have := hf _ (h.1 l)
  simpa [h1, vget] using this

/-- Every leg changed. -/
theorem ok_legs {d : Dev} {nn : Fin 16} {f : Leg → Leg} (h : Ok d)
    (hf : ∀ g, Leg.safe g = true → Leg.safe (f g) = true) :
    Ok (d.onB nn fun b => { b with leg := b.leg.map f }) :=
  ok_onB h fun _ h => blk_map h rfl rfl rfl hf

/-- A change of one leg. -/
theorem ok_leg {d : Dev} {nn : Fin 16} {l : Fin 3} {f : Leg → Leg} (h : Ok d)
    (hf : Leg.safe (vget (d.b nn).leg l) = true → Leg.safe (f (vget (d.b nn).leg l)) = true) :
    Ok (d.onB nn fun b => { b with leg := vmod b.leg l f }) := by
  refine ok_onB' h fun h => ?_
  rw [blk_iff] at *
  refine ⟨fun j => ?_, h.2⟩
  rw [vget_vmod]
  split
  · exact hf (h.1 l)
  · exact h.1 j

/-- A leg changed beside its outputs, edges and TDA. -/
theorem leg_same {g g' : Leg} (h : Leg.safe g = true) (h1 : g'.gh = g.gh) (h2 : g'.gl = g.gl) (h3 : g'.edges = g.edges)
    (h4 : g'.tda = g.tda) : Leg.safe g' = true := by
  unfold Leg.safe at *
  rw [h1, h2, h3, h4]; exact h

/-- A change of a region that touches no table. -/
theorem rgn_same {r r' : Rgn} (h : Rgn.wf r = true) (h1 : r'.used = r.used) (h2 : r'.gen = r.gen) (h3 : r'.link = r.link)
    (h4 : r'.cellMem = r.cellMem) (h5 : r'.vbArr = r.vbArr) : Rgn.wf r' = true := by
  unfold Rgn.wf at *
  rw [h1, h2, h3, h4, h5]; exact h

theorem rgn_iff {r : Rgn} : Rgn.wf r = true ↔ tcanon (fun _ => 0) r.used = true ∧ tcanon (fun _ => 0) r.gen = true ∧
    tcanon (fun _ => 0) r.link = true ∧ tcanon (fun _ => 0#32) r.cellMem = true ∧ tcanon (fun _ => 0#20) r.vbArr = true := by
  simp only [Rgn.wf, Bool.and_eq_true]
  tauto

theorem ok_ite {c : Prop} [Decidable c] {a b : Dev} (ha : Ok a) (hb : Ok b) : Ok (if c then a else b) := by
  split <;> assumption

theorem ok_foldl {α : Type} {d : Dev} {f : Dev → α → Dev} {l : List α} (hd : Ok d)
    (hf : ∀ d a, Ok d → Ok (f d a)) : Ok (l.foldl f d) := by
  induction l generalizing d with
  | nil => exact hd
  | cons a l ih => exact ih (hf d a hd)

theorem ok_foldl_fst {α β : Type} {x : Dev × β} {f : Dev × β → α → Dev × β} {l : List α} (hx : Ok x.1)
    (hf : ∀ x a, Ok x.1 → Ok (f x a).1) : Ok (l.foldl f x).1 := by
  induction l generalizing x with
  | nil => exact hx
  | cons a l ih => exact ih (hf x a hx)

theorem ok_foldl_snd {α β : Type} {x : β × Dev} {f : β × Dev → α → β × Dev} {l : List α} (hx : Ok x.2)
    (hf : ∀ x a, Ok x.2 → Ok (f x a).2) : Ok (l.foldl f x).2 := by
  induction l generalizing x with
  | nil => exact hx
  | cons a l ih => exact ih (hf x a hx)

theorem ok_forAll {n : Nat} {d : Dev} {f : Dev → Fin n → Dev} (hd : Ok d)
    (hf : ∀ d i, Ok d → Ok (f d i)) : Ok (forAll d f) := ok_foldl hd hf

theorem ok_fst {β : Type} {x : Dev × β} {a : Dev} {b : β} (e : x = (a, b)) (h : Ok x.1) : Ok a := by
  rw [e] at h; exact h

theorem ok_snd {β : Type} {x : β × Dev} {a : β} {b : Dev} (e : x = (a, b)) (h : Ok x.2) : Ok b := by
  rw [e] at h; exact h

/-- A command's outcome: a next state keeps the queue and the invariant. -/
structure Good (s : State) (r : Res) : Prop where
  next : ∀ t, r = .next t → t.pending = s.pending ∧ Ok t.dev

theorem good_stay {s : State} (h : Ok s.dev) : Good s (.next s) := by
  refine ⟨?_⟩
  rintro t ⟨⟩; exact ⟨rfl, h⟩

theorem good_onDev {s : State} {f : Dev → Dev} (h : Ok s.dev) (hf : ∀ d, Ok d → Ok (f d)) : Good s (onDev s f) := by
  refine ⟨?_⟩
  rintro t ⟨⟩; exact ⟨rfl, hf _ h⟩

theorem good_onUnit {u : Nat} {s : State} {f : Dev → Dev} (h : Ok s.dev) (hf : ∀ d, Ok d → Ok (f d)) :
    Good s (onUnit u s f) := by
  unfold onUnit
  split
  · refine ⟨?_⟩
    rintro t ⟨⟩
  · exact good_onDev h hf

theorem good_onBlock {nn : Fin 16} {s : State} {f : Dev → Dev} (h : Ok s.dev) (hf : ∀ d, Ok d → Ok (f d)) :
    Good s (onBlock nn s f) := good_onUnit h hf

theorem good_onRegion {n : Fin 4} {s : State} {f : Dev → Dev} (h : Ok s.dev) (hf : ∀ d, Ok d → Ok (f d)) :
    Good s (onRegion n s f) := good_onUnit h hf

theorem good_onChip {s : State} {f : Dev → Dev} (h : Ok s.dev) (hf : ∀ d, Ok d → Ok (f d)) :
    Good s (onChip s f) := good_onUnit h hf

theorem good_ite {c : Prop} [Decidable c] {s : State} {a b : Res} (ha : Good s a) (hb : Good s b) :
    Good s (if c then a else b) := by
  split <;> assumption

end Sys2Proof.Machine
end

