-- ==== Sys2Proof/Laws/KeepFlags.lean ====
section
/-! SUPPORT. The invariant kept by every operation of Machine/Flags.lean. -/

set_option linter.unreachableTactic false
set_option linter.unusedTactic false

namespace Sys2Proof.Machine

theorem hostErrLog_ok {d : Dev} {kind : Nat} {h : Master} {write : Bool} {a : Nat} {be : Nat} (h_d : Ok d) : Ok (hostErrLog d kind h write a be) := by
  unfold hostErrLog
  extract_lets +onlyGivenNames v0 v1 v2 v3 v4
  have h_v0 : Ok v0 := by
    unfold v0
    repeat'
      first
        | with_reducible assumption
        | intro _
        | with_reducible first | apply ok_setReg | apply ok_put | apply ok_flag | apply ok_putB | apply ok_ite
        | split
        | dsimp only
  try clear_value v0
  have h_v1 : Ok v1 := by
    unfold v1
    repeat'
      first
        | with_reducible assumption
        | intro _
        | with_reducible first | apply ok_setReg | apply ok_put | apply ok_flag | apply ok_putB | apply ok_ite
        | split
        | dsimp only
  try clear_value v1
  have h_v2 : Ok v2 := by
    unfold v2
    repeat'
      first
        | with_reducible assumption
        | intro _
        | with_reducible first | apply ok_setReg | apply ok_put | apply ok_flag | apply ok_putB | apply ok_ite
        | split
        | dsimp only
  try clear_value v2
  have h_v3 : Ok v3 := by
    unfold v3
    repeat'
      first
        | with_reducible assumption
        | intro _
        | with_reducible first | apply ok_setReg | apply ok_put | apply ok_flag | apply ok_putB | apply ok_ite
        | split
        | dsimp only
  try clear_value v3
  have h_v4 : Ok v4 := by
    unfold v4
    repeat'
      first
        | with_reducible assumption
        | intro _
        | with_reducible first | apply ok_setReg | apply ok_put | apply ok_flag | apply ok_putB | apply ok_ite
        | split
        | dsimp only
  try clear_value v4
  repeat'
    first
      | with_reducible assumption
      | intro _
      | with_reducible first | apply ok_setReg | apply ok_put | apply ok_flag | apply ok_putB | apply ok_ite
      | split
      | dsimp only

theorem Dev_hostErr_ok {d : Dev} {kind : Nat} {h : Master} {write : Bool} {a : Nat} {be : Nat} (h_d : Ok d) : Ok (Dev.hostErr d kind h write a be) := by
  unfold Dev.hostErr
  extract_lets +onlyGivenNames v0 v1 v2
  have h_v0 : Ok v0 := by
    unfold v0
    repeat'
      first
        | with_reducible assumption
        | intro _
        | with_reducible first | apply ok_incSat | apply ok_raise | apply hostErrLog_ok | apply ok_ite
        | split
        | with_reducible apply ok_mk
  try clear_value v0
  try clear_value v1
  have h_v2 : Ok v2 := by
    unfold v2
    repeat'
      first
        | with_reducible assumption
        | intro _
        | with_reducible first | apply ok_incSat | apply ok_raise | apply hostErrLog_ok | apply ok_ite
        | split
        | with_reducible apply ok_mk
  try clear_value v2
  repeat'
    first
      | with_reducible assumption
      | intro _
      | with_reducible first | apply ok_incSat | apply ok_raise | apply hostErrLog_ok | apply ok_ite
      | split
      | with_reducible apply ok_mk

theorem hostErrAgain_ok {d : Dev} (h_d : Ok d) : Ok (hostErrAgain d) := by
  unfold hostErrAgain
  split
  all_goals
    repeat'
      first
        | with_reducible assumption
        | intro _
        | with_reducible first | apply ok_setReg | apply ok_ite
        | split
        | dsimp only

/-- A leg whose outputs are off with no edge to come. -/
def Leg.quiet (g : Leg) : Prop := g.gh ≠ .high ∧ g.gl ≠ .high ∧ g.edges = []

theorem safe_of_quiet {g : Leg} (h : Leg.quiet g) : Leg.safe g = true := by
  obtain ⟨h1, h2, h3⟩ := h
  simp [Leg.safe, edgesSafe, h1, h2, h3]

theorem s0High_ne (d : Dev) (nn : Fin 16) (l : Fin 3) : s0High d nn l ≠ .high := by
  unfold s0High; split <;> simp

theorem s0Low_ne (d : Dev) (nn : Fin 16) (l : Fin 3) : s0Low d nn l ≠ .high := by
  unfold s0Low; split <;> simp

theorem legSafe_quiet (d : Dev) (nn : Fin 16) (l : Fin 3) : Leg.quiet (vget ((legSafe d nn l).b nn).leg l) := by
  simp only [legSafe, Dev.onB, Dev.b, vget_vmod_self, Leg.quiet]
  refine ⟨?_, ?_, trivial⟩
  · split
    · exact s0High_ne _ _ _
    · simp
  · split
    · exact s0Low_ne _ _ _
    · simp

theorem legSafe_other (d : Dev) (nn : Fin 16) (l j : Fin 3) (h : j ≠ l) :
    vget ((legSafe d nn l).b nn).leg j = vget (d.b nn).leg j := by
  simp [legSafe, Dev.onB, Dev.b, vget_vmod_ne _ _ _ _ h]

theorem legsSafe_quiet (d : Dev) (nn : Fin 16) (l : Fin 3) : Leg.quiet (vget ((legsSafe d nn).b nn).leg l) := by
  have e : legsSafe d nn = legSafe (legSafe (legSafe d nn 0) nn 1) nn 2 := rfl
  rw [e]
  match l with
  | 0 => rw [legSafe_other _ _ _ _ (by decide), legSafe_other _ _ _ _ (by decide)]; exact legSafe_quiet ..
  | 1 => rw [legSafe_other _ _ _ _ (by decide)]; exact legSafe_quiet ..
  | 2 => exact legSafe_quiet ..

theorem legSafe_ok {d : Dev} {nn : Fin 16} {l : Fin 3} (h_d : Ok d) : Ok (legSafe d nn l) := by
  unfold legSafe
  refine ok_leg h_d fun _ => safe_of_quiet ⟨?_, ?_, rfl⟩
  · dsimp only
    split
    · exact s0High_ne _ _ _
    · simp
  · dsimp only
    split
    · exact s0Low_ne _ _ _
    · simp

theorem legsSafe_ok {d : Dev} {nn : Fin 16} (h_d : Ok d) : Ok (legsSafe d nn) := by
  unfold legsSafe
  repeat'
    first
      | with_reducible assumption
      | intro _
      | with_reducible first | apply legSafe_ok | apply ok_ite | apply ok_forAll
      | split
      | dsimp only

theorem legsForget_ok {d : Dev} {nn : Fin 16} (h_d : Ok d) : Ok (legsForget d nn) := by
  unfold legsForget
  repeat'
    first
      | with_reducible assumption
      | intro _
      | with_reducible first | apply ok_clr | apply ok_ite | apply ok_forAll
      | split
      | dsimp only

/-- TDA begins in every leg of a block whose outputs are off (R266). -/
theorem tda_ok {d : Dev} {nn : Fin 16} (h : Ok d) (hq : ∀ l, Leg.quiet (vget (d.b nn).leg l)) :
    Ok (forAll d fun d (l : Fin 3) => d.onB nn fun b => { b with leg := vmod b.leg l fun g => { g with gh := .low, tda := true } }) := by
  have step : ∀ (d : Dev) (l : Fin 3), (Ok d ∧ ∀ l, Leg.quiet (vget (d.b nn).leg l)) →
      Ok (d.onB nn fun b => { b with leg := vmod b.leg l fun g => { g with gh := .low, tda := true } }) ∧
      ∀ j, Leg.quiet (vget ((d.onB nn fun b => { b with leg := vmod b.leg l fun g => { g with gh := .low, tda := true } }).b nn).leg j) := by
    rintro d l ⟨h, hq⟩
    constructor
    · refine ok_leg h fun _ => ?_
      obtain ⟨h1, h2, h3⟩ := hq l
      simp [Leg.safe, edgesSafe, h2, h3]
    · intro j
      simp only [Dev.onB, Dev.b, vget_vmod_self, vget_vmod]
      split
      · exact ⟨by simp, (hq l).2⟩
      · exact hq j
  exact (step _ 2 (step _ 1 (step _ 0 ⟨h, hq⟩))).1

theorem setSafe_ok {d : Dev} {nn : Fin 16} {fromClear : Bool} (h_d : Ok d) : Ok (setSafe d nn fromClear) := by
  have h0 : ∀ b, Ok (d.putB Qstat.SAFESET nn b) := fun _ => ok_putB h_d
  unfold setSafe
  extract_lets +onlyGivenNames s1 was x
  have hx : Ok x := h0 _
  clear_value s1 was x
  exact ok_ite (ok_ite (tda_ok (legsSafe_ok hx) (legsSafe_quiet _ _)) (legsSafe_ok hx)) (ok_ite (legsSafe_ok hx) hx)

theorem blkRefuse_ok {d : Dev} {nn : Fin 16} {reason : Nat} (h_d : Ok d) : Ok (blkRefuse d nn reason) := by
  unfold blkRefuse
  repeat'
    first
      | with_reducible assumption
      | intro _
      | with_reducible first | apply ok_put | apply ok_flag | apply ok_ite
      | split
      | dsimp only

theorem blkDone_ok {d : Dev} {f : RF (Fin 16)} {nn : Fin 16} (h_d : Ok d) : Ok (blkDone d f nn) := by
  unfold blkDone
  repeat'
    first
      | with_reducible assumption
      | intro _
      | with_reducible first | apply ok_clr | apply ok_cmdDone | apply blkRefuse_ok | apply ok_ite
      | split
      | dsimp only

theorem quenchState_ok {d : Dev} {nn : Fin 16} (h_d : Ok d) : Ok (quenchState d nn) := by
  unfold quenchState
  extract_lets +onlyGivenNames v0 v1
  try clear_value v0
  have h_v1 : Ok v1 := by
    unfold v1
    repeat'
      first
        | with_reducible assumption
        | intro _
        | with_reducible first | apply ok_put | apply ok_clr | apply ok_putB | apply blkRefuse_ok | apply ok_ite
        | (with_reducible refine ok_leg ?_ ?_ <;> first | with_reducible assumption | exact fun hg => leg_same hg rfl rfl rfl rfl | skip)
        | (with_reducible refine ok_legs ?_ ?_ <;> first | with_reducible assumption | exact fun _ hg => leg_same hg rfl rfl rfl rfl | skip)
        | (with_reducible refine ok_onB ?_ ?_ <;> first | with_reducible assumption | exact fun _ h => blk_same h rfl rfl rfl | exact fun _ h => blk_noClr h rfl rfl rfl | exact fun _ h => blk_map h rfl rfl rfl fun _ hg => leg_same hg rfl rfl rfl rfl | skip)
        | exact blk_same (by assumption) rfl rfl rfl
        | split
        | dsimp only
  try clear_value v1
  repeat'
    first
      | with_reducible assumption
      | intro _
      | with_reducible first | apply ok_put | apply ok_clr | apply ok_putB | apply blkRefuse_ok | apply ok_ite
      | (with_reducible refine ok_leg ?_ ?_ <;> first | with_reducible assumption | exact fun hg => leg_same hg rfl rfl rfl rfl | skip)
      | (with_reducible refine ok_legs ?_ ?_ <;> first | with_reducible assumption | exact fun _ hg => leg_same hg rfl rfl rfl rfl | skip)
      | (with_reducible refine ok_onB ?_ ?_ <;> first | with_reducible assumption | exact fun _ h => blk_same h rfl rfl rfl | exact fun _ h => blk_noClr h rfl rfl rfl | exact fun _ h => blk_map h rfl rfl rfl fun _ hg => leg_same hg rfl rfl rfl rfl | skip)
      | exact blk_same (by assumption) rfl rfl rfl
      | split
      | dsimp only

theorem causesNote_ok {d : Dev} {nn : Fin 16} {mask : Nat} (h_d : Ok d) : Ok (causesNote d nn mask) := by
  unfold causesNote
  repeat'
    first
      | with_reducible assumption
      | intro _
      | with_reducible first | apply ok_ite
      | (with_reducible refine ok_leg ?_ ?_ <;> first | with_reducible assumption | exact fun hg => leg_same hg rfl rfl rfl rfl | skip)
      | (with_reducible refine ok_legs ?_ ?_ <;> first | with_reducible assumption | exact fun _ hg => leg_same hg rfl rfl rfl rfl | skip)
      | (with_reducible refine ok_onB ?_ ?_ <;> first | with_reducible assumption | exact fun _ h => blk_same h rfl rfl rfl | exact fun _ h => blk_noClr h rfl rfl rfl | exact fun _ h => blk_map h rfl rfl rfl fun _ hg => leg_same hg rfl rfl rfl rfl | skip)
      | exact blk_same (by assumption) rfl rfl rfl
      | split
      | dsimp only

theorem clearUndo_ok {d : Dev} {nn : Fin 16} (h_d : Ok d) : Ok (clearUndo d nn) := by
  unfold clearUndo
  split
  · rename_i t st set legs e
    refine ok_ite h_d ?_
    have hl := (blk_iff.1 (h_d.blk nn)).2.2 _ e
    refine ok_onB (ok_put (ok_flag (ok_putB (ok_flag h_d)))) fun b hb => ?_
    exact blk_iff.2 ⟨hl, (blk_iff.1 hb).2.1, fun _ he => by simp at he⟩
  · exact h_d

theorem quench_ok {d : Dev} {nn : Fin 16} {mask : Nat} (h_d : Ok d) : Ok (quench d nn mask) := by
  unfold quench
  repeat'
    first
      | with_reducible assumption
      | intro _
      | with_reducible first | apply ok_put | apply ok_flag | apply ok_incSat | apply ok_onTw | apply ok_raise | apply legsForget_ok | apply setSafe_ok | apply quenchState_ok | apply causesNote_ok | apply clearUndo_ok | apply ok_ite
      | (with_reducible refine ok_leg ?_ ?_ <;> first | with_reducible assumption | exact fun hg => leg_same hg rfl rfl rfl rfl | skip)
      | (with_reducible refine ok_legs ?_ ?_ <;> first | with_reducible assumption | exact fun _ hg => leg_same hg rfl rfl rfl rfl | skip)
      | (with_reducible refine ok_onB ?_ ?_ <;> first | with_reducible assumption | exact fun _ h => blk_same h rfl rfl rfl | exact fun _ h => blk_noClr h rfl rfl rfl | exact fun _ h => blk_map h rfl rfl rfl fun _ hg => leg_same hg rfl rfl rfl rfl | skip)
      | exact blk_same (by assumption) rfl rfl rfl
      | split
      | dsimp only

theorem patRefuse_ok {d : Dev} {code : Nat} {blk : Nat} {slot : Nat} {bankB : Bool} (h_d : Ok d) : Ok (patRefuse d code blk slot bankB) := by
  unfold patRefuse
  extract_lets +onlyGivenNames v0 v1 v2 v3 v4
  have h_v0 : Ok v0 := by
    unfold v0
    repeat'
      first
        | with_reducible assumption
        | intro _
        | with_reducible first | apply ok_put | apply ok_flag | apply ok_putB | apply ok_raise | apply ok_ite
        | split
        | dsimp only
  try clear_value v0
  have h_v1 : Ok v1 := by
    unfold v1
    repeat'
      first
        | with_reducible assumption
        | intro _
        | with_reducible first | apply ok_put | apply ok_flag | apply ok_putB | apply ok_raise | apply ok_ite
        | split
        | dsimp only
  try clear_value v1
  have h_v2 : Ok v2 := by
    unfold v2
    repeat'
      first
        | with_reducible assumption
        | intro _
        | with_reducible first | apply ok_put | apply ok_flag | apply ok_putB | apply ok_raise | apply ok_ite
        | split
        | dsimp only
  try clear_value v2
  have h_v3 : Ok v3 := by
    unfold v3
    repeat'
      first
        | with_reducible assumption
        | intro _
        | with_reducible first | apply ok_put | apply ok_flag | apply ok_putB | apply ok_raise | apply ok_ite
        | split
        | dsimp only
  try clear_value v3
  have h_v4 : Ok v4 := by
    unfold v4
    repeat'
      first
        | with_reducible assumption
        | intro _
        | with_reducible first | apply ok_put | apply ok_flag | apply ok_putB | apply ok_raise | apply ok_ite
        | split
        | dsimp only
  try clear_value v4
  repeat'
    first
      | with_reducible assumption
      | intro _
      | with_reducible first | apply ok_put | apply ok_flag | apply ok_putB | apply ok_raise | apply ok_ite
      | split
      | dsimp only

theorem patDone_ok {d : Dev} (h_d : Ok d) : Ok (patDone d) := by
  unfold patDone
  extract_lets +onlyGivenNames v0 v1
  have h_v0 : Ok v0 := by
    unfold v0
    repeat'
      first
        | with_reducible assumption
        | intro _
        | with_reducible first | apply ok_flag | apply ok_clr | apply ok_raise | apply ok_ite
        | split
        | dsimp only
  try clear_value v0
  have h_v1 : Ok v1 := by
    unfold v1
    repeat'
      first
        | with_reducible assumption
        | intro _
        | with_reducible first | apply ok_flag | apply ok_clr | apply ok_raise | apply ok_ite
        | split
        | dsimp only
  try clear_value v1
  repeat'
    first
      | with_reducible assumption
      | intro _
      | with_reducible first | apply ok_flag | apply ok_clr | apply ok_raise | apply ok_ite
      | split
      | dsimp only

end Sys2Proof.Machine
end

