-- ==== Sys2Proof/Laws/KeepChannels.lean ====
section
/-! SUPPORT. The invariant kept by every operation of Machine/Channels.lean. -/

set_option linter.unreachableTactic false
set_option linter.unusedTactic false

namespace Sys2Proof.Machine

theorem hwSet_ok {d : Dev} {o : Nat} {v : Byte} (h_d : Ok d) : Ok (hwSet d o v) :=
  ⟨h_d.regs, tcanon_tset _ _ _ h_d.hwin, h_d.rgn, h_d.src, h_d.targ, h_d.blk⟩

theorem hwPut_ok {d : Dev} {o : Nat} {bs : List Byte} (h_d : Ok d) : Ok (hwPut d o bs) := by
  unfold hwPut
  repeat'
    first
      | with_reducible assumption
      | intro _
      | with_reducible first | apply hwSet_ok | apply ok_ite | apply ok_foldl | apply ok_foldl_fst | apply ok_foldl_snd
      | split
      | dsimp only

theorem hwPutWord_ok {d : Dev} {o : Nat} {w : Word} (h_d : Ok d) : Ok (hwPutWord d o w) := by
  unfold hwPutWord
  repeat'
    first
      | with_reducible assumption
      | intro _
      | with_reducible first | apply hwPut_ok | apply ok_ite
      | split
      | dsimp only

theorem onChan_ok {d : Dev} {c : Fin 8} {f : Chan → Chan} (h_d : Ok d) : Ok (onChan d c f) := by
  unfold onChan
  repeat'
    first
      | with_reducible assumption
      | intro _
      | with_reducible first | apply ok_ite
      | split
      | with_reducible apply ok_mk

theorem chanEnd_ok {d : Dev} {c : Fin 8} {status : Nat} (h_d : Ok d) : Ok (chanEnd d c status) := by
  unfold chanEnd
  extract_lets +onlyGivenNames v0 v1 v2 v3 v4 v5 v6
  try clear_value v0
  try clear_value v1
  have h_v2 : Ok v2 := by
    unfold v2
    repeat'
      first
        | with_reducible assumption
        | intro _
        | with_reducible first | apply ok_put | apply ok_flag | apply ok_clr | apply ok_inc | apply ok_raise | apply hwPutWord_ok | apply onChan_ok | apply ok_ite
        | split
        | dsimp only
  try clear_value v2
  have h_v3 : Ok v3 := by
    unfold v3
    repeat'
      first
        | with_reducible assumption
        | intro _
        | with_reducible first | apply ok_put | apply ok_flag | apply ok_clr | apply ok_inc | apply ok_raise | apply hwPutWord_ok | apply onChan_ok | apply ok_ite
        | split
        | dsimp only
  try clear_value v3
  have h_v4 : Ok v4 := by
    unfold v4
    repeat'
      first
        | with_reducible assumption
        | intro _
        | with_reducible first | apply ok_put | apply ok_flag | apply ok_clr | apply ok_inc | apply ok_raise | apply hwPutWord_ok | apply onChan_ok | apply ok_ite
        | split
        | dsimp only
  try clear_value v4
  have h_v5 : Ok v5 := by
    unfold v5
    repeat'
      first
        | with_reducible assumption
        | intro _
        | with_reducible first | apply ok_put | apply ok_flag | apply ok_clr | apply ok_inc | apply ok_raise | apply hwPutWord_ok | apply onChan_ok | apply ok_ite
        | split
        | dsimp only
  try clear_value v5
  have h_v6 : Ok v6 := by
    unfold v6
    repeat'
      first
        | with_reducible assumption
        | intro _
        | with_reducible first | apply ok_put | apply ok_flag | apply ok_clr | apply ok_inc | apply ok_raise | apply hwPutWord_ok | apply onChan_ok | apply ok_ite
        | split
        | dsimp only
  try clear_value v6
  repeat'
    first
      | with_reducible assumption
      | intro _
      | with_reducible first | apply ok_put | apply ok_flag | apply ok_clr | apply ok_inc | apply ok_raise | apply hwPutWord_ok | apply onChan_ok | apply ok_ite
      | split
      | dsimp only

theorem chanEndAll_ok {d : Dev} {status : Nat} {p : List Word → Bool} (h_d : Ok d) : Ok (chanEndAll d status p) := by
  unfold chanEndAll
  repeat'
    first
      | with_reducible assumption
      | intro _
      | with_reducible first | apply chanEnd_ok | apply ok_ite | apply ok_forAll
      | split
      | dsimp only

theorem chanQueueGone_ok {d : Dev} {n : Fin 4} {q : Fin 64} (h_d : Ok d) : Ok (chanQueueGone d n q) := by
  unfold chanQueueGone
  extract_lets +onlyGivenNames v0 v1 v2
  try clear_value v0
  try clear_value v1
  have h_v2 : Ok v2 := by
    unfold v2
    repeat'
      first
        | with_reducible assumption
        | intro _
        | with_reducible first | apply onChan_ok | apply chanEndAll_ok | apply ok_ite | apply ok_forAll
        | split
        | dsimp only
  try clear_value v2
  repeat'
    first
      | with_reducible assumption
      | intro _
      | with_reducible first | apply onChan_ok | apply chanEndAll_ok | apply ok_ite | apply ok_forAll
      | split
      | dsimp only

theorem chanBlockGone_ok {d : Dev} {nn : Fin 16} (h_d : Ok d) : Ok (chanBlockGone d nn) := by
  unfold chanBlockGone
  repeat'
    first
      | with_reducible assumption
      | intro _
      | with_reducible first | apply chanEndAll_ok | apply ok_ite
      | split
      | dsimp only

theorem chanLoad_ok {d : Dev} (h_d : Ok d) : Ok (chanLoad d) := by
  unfold chanLoad
  extract_lets +onlyGivenNames v0
  have h_v0 : Ok v0 := by
    unfold v0
    repeat'
      first
        | with_reducible assumption
        | intro _
        | with_reducible first | apply onChan_ok | apply chanEndAll_ok | apply ok_ite | apply ok_forAll
        | split
        | dsimp only
  try clear_value v0
  repeat'
    first
      | with_reducible assumption
      | intro _
      | with_reducible first | apply onChan_ok | apply chanEndAll_ok | apply ok_ite | apply ok_forAll
      | split
      | dsimp only

theorem chanFnGone_ok {d : Dev} {f : Fin 2} (h_d : Ok d) : Ok (chanFnGone d f) := by
  unfold chanFnGone
  repeat'
    first
      | with_reducible assumption
      | intro _
      | with_reducible first | apply chanEnd_ok | apply ok_ite | apply ok_forAll
      | split
      | dsimp only

end Sys2Proof.Machine
end

