-- ==== Sys2Proof/Laws/KeepAnswers.lean ====
section
/-! SUPPORT. The invariant kept by every operation of Machine/Answers.lean. -/

set_option linter.unreachableTactic false
set_option linter.unusedTactic false

namespace Sys2Proof.Machine

theorem shpSay_ok {d : Dev} {code : Nat} {data : List Word} (h_d : Ok d) : Ok (shpSay d code data) := by
  unfold shpSay
  extract_lets +onlyGivenNames v0 v1
  try clear_value v0
  try clear_value v1
  repeat'
    first
      | with_reducible assumption
      | intro _
      | with_reducible first | apply ok_say | apply ok_ite
      | split
      | dsimp only

theorem answer_ok {d : Dev} {m : Master} {code : Nat} {ws : List Word} (h_d : Ok d) : Ok (answer d m code ws) := by
  unfold answer
  repeat'
    first
      | with_reducible assumption
      | intro _
      | with_reducible first | apply ok_say | apply shpSay_ok | apply ok_ite
      | split
      | dsimp only

theorem aerPut_ok {d : Dev} {f : Fin 2} (h_d : Ok d) : Ok (aerPut d f) := by
  unfold aerPut
  extract_lets +onlyGivenNames v0 v1
  try clear_value v0
  have h_v1 : Ok v1 := by
    unfold v1
    repeat'
      first
        | with_reducible assumption
        | intro _
        | with_reducible first | apply ok_say | apply ok_ite
        | split
        | with_reducible apply ok_mk
  try clear_value v1
  repeat'
    first
      | with_reducible assumption
      | intro _
      | with_reducible first | apply ok_say | apply ok_ite
      | split
      | with_reducible apply ok_mk

theorem aerLog_ok {d : Dev} {h : Master} (h_d : Ok d) : Ok (aerLog d h) := by
  unfold aerLog
  split
  all_goals
    repeat'
      first
        | with_reducible assumption
        | intro _
        | with_reducible first | apply aerPut_ok | apply ok_ite
        | split
        | dsimp only

end Sys2Proof.Machine
end

