-- ==== Sys2Proof/Laws/KeepKernel.lean ====
section
/-! SUPPORT. The invariant kept by every operation of Machine/Kernel.lean. -/

set_option linter.unreachableTactic false
set_option linter.unusedTactic false

namespace Sys2Proof.Machine

theorem onK_ok {d : Dev} {k : KIx} {f : Kern → Kern} (h_d : Ok d) : Ok (onK d k f) := by
  unfold onK
  repeat'
    first
      | with_reducible assumption
      | intro _
      | with_reducible first | apply ok_ite
      | (with_reducible refine ok_leg ?_ ?_ <;> first | with_reducible assumption | exact fun hg => leg_same hg rfl rfl rfl rfl | skip)
      | (with_reducible refine ok_legs ?_ ?_ <;> first | with_reducible assumption | exact fun _ hg => leg_same hg rfl rfl rfl rfl | skip)
      | (with_reducible refine ok_onB ?_ ?_ <;> first | with_reducible assumption | exact fun _ h => blk_same h rfl rfl rfl | exact fun _ h => blk_noClr h rfl rfl rfl | exact fun _ h => blk_map h rfl rfl rfl fun _ hg => leg_same hg rfl rfl rfl rfl | skip)
      | exact blk_same (by assumption) rfl rfl rfl
      | split
      | dsimp only

theorem kwr_ok {d : Dev} {k : KIx} {j : Nat} {v : Int} (h_d : Ok d) : Ok (kwr d k j v) := by
  unfold kwr
  repeat'
    first
      | with_reducible assumption
      | intro _
      | with_reducible first | apply ok_putS | apply ok_ite
      | (with_reducible refine ok_leg ?_ ?_ <;> first | with_reducible assumption | exact fun hg => leg_same hg rfl rfl rfl rfl | skip)
      | (with_reducible refine ok_legs ?_ ?_ <;> first | with_reducible assumption | exact fun _ hg => leg_same hg rfl rfl rfl rfl | skip)
      | (with_reducible refine ok_onB ?_ ?_ <;> first | with_reducible assumption | exact fun _ h => blk_same h rfl rfl rfl | exact fun _ h => blk_noClr h rfl rfl rfl | exact fun _ h => blk_map h rfl rfl rfl fun _ hg => leg_same hg rfl rfl rfl rfl | skip)
      | exact blk_same (by assumption) rfl rfl rfl
      | split
      | dsimp only

theorem kwrP_ok {d : Dev} {k : KIx} {j : Nat} {v : Int} (h_d : Ok d) : Ok (kwrP d k j v) := by
  unfold kwrP
  repeat'
    first
      | with_reducible assumption
      | intro _
      | with_reducible first | apply ok_ite
      | (with_reducible refine ok_leg ?_ ?_ <;> first | with_reducible assumption | exact fun hg => leg_same hg rfl rfl rfl rfl | skip)
      | (with_reducible refine ok_legs ?_ ?_ <;> first | with_reducible assumption | exact fun _ hg => leg_same hg rfl rfl rfl rfl | skip)
      | (with_reducible refine ok_onB ?_ ?_ <;> first | with_reducible assumption | exact fun _ h => blk_same h rfl rfl rfl | exact fun _ h => blk_noClr h rfl rfl rfl | exact fun _ h => blk_map h rfl rfl rfl fun _ hg => leg_same hg rfl rfl rfl rfl | skip)
      | exact blk_same (by assumption) rfl rfl rfl
      | split
      | dsimp only

theorem kemit_ok {d : Dev} {k : KIx} {o0 : Int} {o1 : Int} {o2 : Int} (h_d : Ok d) : Ok (kemit d k o0 o1 o2) := by
  unfold kemit
  extract_lets +onlyGivenNames v0
  have h_v0 : Ok v0 := by
    unfold v0
    repeat'
      first
        | with_reducible assumption
        | intro _
        | with_reducible first | apply onK_ok | apply kwr_ok | apply ok_ite
        | split
        | dsimp only
  try clear_value v0
  repeat'
    first
      | with_reducible assumption
      | intro _
      | with_reducible first | apply onK_ok | apply kwr_ok | apply ok_ite
      | split
      | dsimp only

theorem kemitP_ok {d : Dev} {k : KIx} {p : Int} {o1 : Int} {o2 : Int} (h_d : Ok d) : Ok (kemitP d k p o1 o2) := by
  unfold kemitP
  extract_lets +onlyGivenNames v0
  have h_v0 : Ok v0 := by
    unfold v0
    repeat'
      first
        | with_reducible assumption
        | intro _
        | with_reducible first | apply onK_ok | apply kwr_ok | apply kwrP_ok | apply ok_ite
        | split
        | dsimp only
  try clear_value v0
  repeat'
    first
      | with_reducible assumption
      | intro _
      | with_reducible first | apply onK_ok | apply kwr_ok | apply kwrP_ok | apply ok_ite
      | split
      | dsimp only

theorem klim_ok {d : Dev} {k : KIx} {hi : Bool} {lo : Bool} (h_d : Ok d) : Ok (klim d k hi lo) := by
  unfold klim
  repeat'
    first
      | with_reducible assumption
      | intro _
      | with_reducible first | apply ok_putB | apply ok_ite
      | split
      | dsimp only

theorem runPi_ok {d : Dev} {k : KIx} {pid : Bool} (h_d : Ok d) : Ok (runPi d k pid) := by
  unfold runPi
  extract_lets +onlyGivenNames v0 v1 v2 v3 v4 v5 v6 v7 v8 v9 v10 v11 v12 v13 v14
  try clear_value v0
  try clear_value v1
  try clear_value v2
  try clear_value v3
  try clear_value v4
  try clear_value v5
  try clear_value v6
  try clear_value v7
  try clear_value v8
  try clear_value v9
  try clear_value v10
  try clear_value v11
  try clear_value v12
  have h_v13 : Ok v13 := by
    unfold v13
    repeat'
      first
        | with_reducible assumption
        | intro _
        | with_reducible first | apply onK_ok | apply kemit_ok | apply klim_ok | apply ok_ite
        | split
        | dsimp only
  try clear_value v13
  have h_v14 : Ok v14 := by
    unfold v14
    repeat'
      first
        | with_reducible assumption
        | intro _
        | with_reducible first | apply onK_ok | apply kemit_ok | apply klim_ok | apply ok_ite
        | split
        | dsimp only
  try clear_value v14
  repeat'
    first
      | with_reducible assumption
      | intro _
      | with_reducible first | apply onK_ok | apply kemit_ok | apply klim_ok | apply ok_ite
      | split
      | dsimp only

theorem runLeadlag_ok {d : Dev} {k : KIx} (h_d : Ok d) : Ok (runLeadlag d k) := by
  unfold runLeadlag
  extract_lets +onlyGivenNames v0 v1 v2 v3 v4 v5 v6
  try clear_value v0
  try clear_value v1
  try clear_value v2
  try clear_value v3
  try clear_value v4
  try clear_value v5
  have h_v6 : Ok v6 := by
    unfold v6
    repeat'
      first
        | with_reducible assumption
        | intro _
        | with_reducible first | apply onK_ok | apply kemit_ok | apply klim_ok | apply ok_ite
        | split
        | dsimp only
  try clear_value v6
  repeat'
    first
      | with_reducible assumption
      | intro _
      | with_reducible first | apply onK_ok | apply kemit_ok | apply klim_ok | apply ok_ite
      | split
      | dsimp only

theorem runBiquad_ok {d : Dev} {k : KIx} (h_d : Ok d) : Ok (runBiquad d k) := by
  unfold runBiquad
  extract_lets +onlyGivenNames v0 v1 v2 v3 v4 v5 v6 v7
  try clear_value v0
  try clear_value v1
  try clear_value v2
  try clear_value v3
  try clear_value v4
  try clear_value v5
  try clear_value v6
  have h_v7 : Ok v7 := by
    unfold v7
    repeat'
      first
        | with_reducible assumption
        | intro _
        | with_reducible first | apply onK_ok | apply kemit_ok | apply klim_ok | apply ok_ite
        | split
        | dsimp only
  try clear_value v7
  repeat'
    first
      | with_reducible assumption
      | intro _
      | with_reducible first | apply onK_ok | apply kemit_ok | apply klim_ok | apply ok_ite
      | split
      | dsimp only

theorem runLimit_ok {d : Dev} {k : KIx} (h_d : Ok d) : Ok (runLimit d k) := by
  unfold runLimit
  extract_lets +onlyGivenNames v0
  try clear_value v0
  repeat'
    first
      | with_reducible assumption
      | intro _
      | with_reducible first | apply kemit_ok | apply klim_ok | apply ok_ite
      | split
      | dsimp only

theorem runRamp_ok {d : Dev} {k : KIx} (h_d : Ok d) : Ok (runRamp d k) := by
  unfold runRamp
  extract_lets +onlyGivenNames v0 v1 v2 v3 v4 v5 v6 v7 v8 v9 v10
  try clear_value v0
  try clear_value v1
  try clear_value v2
  try clear_value v3
  try clear_value v4
  try clear_value v5
  try clear_value v6
  try clear_value v7
  try clear_value v8
  try clear_value v9
  have h_v10 : Ok v10 := by
    unfold v10
    repeat'
      first
        | with_reducible assumption
        | intro _
        | with_reducible first | apply onK_ok | apply kemit_ok | apply ok_ite
        | split
        | dsimp only
  try clear_value v10
  repeat'
    first
      | with_reducible assumption
      | intro _
      | with_reducible first | apply onK_ok | apply kemit_ok | apply ok_ite
      | split
      | dsimp only

theorem runSlew_ok {d : Dev} {k : KIx} (h_d : Ok d) : Ok (runSlew d k) := by
  unfold runSlew
  extract_lets +onlyGivenNames v0 v1 v2 v3 v4
  try clear_value v0
  try clear_value v1
  try clear_value v2
  try clear_value v3
  have h_v4 : Ok v4 := by
    unfold v4
    repeat'
      first
        | with_reducible assumption
        | intro _
        | with_reducible first | apply onK_ok | apply kemit_ok | apply ok_ite
        | split
        | dsimp only
  try clear_value v4
  repeat'
    first
      | with_reducible assumption
      | intro _
      | with_reducible first | apply onK_ok | apply kemit_ok | apply ok_ite
      | split
      | dsimp only

theorem runPark_ok {d : Dev} {k : KIx} (h_d : Ok d) : Ok (runPark d k) := by
  unfold runPark
  extract_lets +onlyGivenNames v0 v1 v2 v3
  try clear_value v0
  try clear_value v1
  try clear_value v2
  try clear_value v3
  repeat'
    first
      | with_reducible assumption
      | intro _
      | with_reducible first | apply kemit_ok | apply ok_ite
      | split
      | dsimp only

theorem runIpark_ok {d : Dev} {k : KIx} (h_d : Ok d) : Ok (runIpark d k) := by
  unfold runIpark
  extract_lets +onlyGivenNames v0 v1 v2 v3 v4 v5 v6 v7 v8 v9 v10 v11 v12 v13 v14 v15 v16 v17 v18 v19 v20 v21 v22
  try clear_value v0
  try clear_value v1
  try clear_value v2
  try clear_value v3
  try clear_value v4
  try clear_value v5
  try clear_value v6
  try clear_value v7
  try clear_value v8
  try clear_value v9
  try clear_value v10
  try clear_value v11
  try clear_value v12
  try clear_value v13
  try clear_value v14
  try clear_value v15
  try clear_value v16
  try clear_value v17
  have h_v18 : Ok v18 := by
    unfold v18
    repeat'
      first
        | with_reducible assumption
        | intro _
        | with_reducible first | apply ok_flag | apply ok_putS | apply onK_ok | apply ok_ite
        | (with_reducible refine ok_leg ?_ ?_ <;> first | with_reducible assumption | exact fun hg => leg_same hg rfl rfl rfl rfl | skip)
        | (with_reducible refine ok_legs ?_ ?_ <;> first | with_reducible assumption | exact fun _ hg => leg_same hg rfl rfl rfl rfl | skip)
        | (with_reducible refine ok_onB ?_ ?_ <;> first | with_reducible assumption | exact fun _ h => blk_same h rfl rfl rfl | exact fun _ h => blk_noClr h rfl rfl rfl | exact fun _ h => blk_map h rfl rfl rfl fun _ hg => leg_same hg rfl rfl rfl rfl | skip)
        | exact blk_same (by assumption) rfl rfl rfl
        | split
        | dsimp only
  try clear_value v18
  have h_v19 : Ok v19 := by
    unfold v19
    repeat'
      first
        | with_reducible assumption
        | intro _
        | with_reducible first | apply ok_flag | apply ok_putS | apply onK_ok | apply ok_ite
        | (with_reducible refine ok_leg ?_ ?_ <;> first | with_reducible assumption | exact fun hg => leg_same hg rfl rfl rfl rfl | skip)
        | (with_reducible refine ok_legs ?_ ?_ <;> first | with_reducible assumption | exact fun _ hg => leg_same hg rfl rfl rfl rfl | skip)
        | (with_reducible refine ok_onB ?_ ?_ <;> first | with_reducible assumption | exact fun _ h => blk_same h rfl rfl rfl | exact fun _ h => blk_noClr h rfl rfl rfl | exact fun _ h => blk_map h rfl rfl rfl fun _ hg => leg_same hg rfl rfl rfl rfl | skip)
        | exact blk_same (by assumption) rfl rfl rfl
        | split
        | dsimp only
  try clear_value v19
  try clear_value v20
  try clear_value v21
  have h_v22 : Ok v22 := by
    unfold v22
    repeat'
      first
        | with_reducible assumption
        | intro _
        | with_reducible first | apply ok_flag | apply ok_putS | apply onK_ok | apply ok_ite
        | (with_reducible refine ok_leg ?_ ?_ <;> first | with_reducible assumption | exact fun hg => leg_same hg rfl rfl rfl rfl | skip)
        | (with_reducible refine ok_legs ?_ ?_ <;> first | with_reducible assumption | exact fun _ hg => leg_same hg rfl rfl rfl rfl | skip)
        | (with_reducible refine ok_onB ?_ ?_ <;> first | with_reducible assumption | exact fun _ h => blk_same h rfl rfl rfl | exact fun _ h => blk_noClr h rfl rfl rfl | exact fun _ h => blk_map h rfl rfl rfl fun _ hg => leg_same hg rfl rfl rfl rfl | skip)
        | exact blk_same (by assumption) rfl rfl rfl
        | split
        | dsimp only
  try clear_value v22
  repeat'
    first
      | with_reducible assumption
      | intro _
      | with_reducible first | apply ok_flag | apply ok_putS | apply onK_ok | apply ok_ite
      | (with_reducible refine ok_leg ?_ ?_ <;> first | with_reducible assumption | exact fun hg => leg_same hg rfl rfl rfl rfl | skip)
      | (with_reducible refine ok_legs ?_ ?_ <;> first | with_reducible assumption | exact fun _ hg => leg_same hg rfl rfl rfl rfl | skip)
      | (with_reducible refine ok_onB ?_ ?_ <;> first | with_reducible assumption | exact fun _ h => blk_same h rfl rfl rfl | exact fun _ h => blk_noClr h rfl rfl rfl | exact fun _ h => blk_map h rfl rfl rfl fun _ hg => leg_same hg rfl rfl rfl rfl | skip)
      | exact blk_same (by assumption) rfl rfl rfl
      | split
      | dsimp only

theorem kernelEvent_ok {d : Dev} {nn : Fin 16} (h_d : Ok d) : Ok (kernelEvent d nn) := by
  unfold kernelEvent
  repeat'
    first
      | with_reducible assumption
      | intro _
      | with_reducible first | apply ok_raise | apply ok_ite
      | split
      | dsimp only

theorem pllLock_ok {d : Dev} {k : KIx} {vd : Int} {vq : Int} {clamped : Bool} (h_d : Ok d) : Ok (pllLock d k vd vq clamped) := by
  unfold pllLock
  extract_lets +onlyGivenNames v0 v1 v2 v3 v4 v5 v6 v7 v8 v9 v10 v11
  try clear_value v0
  try clear_value v1
  try clear_value v2
  try clear_value v3
  try clear_value v4
  try clear_value v5
  try clear_value v6
  try clear_value v7
  try clear_value v8
  try clear_value v9
  have h_v10 : Ok v10 := by
    unfold v10
    repeat'
      first
        | with_reducible assumption
        | intro _
        | with_reducible first | apply ok_flag | apply ok_putB | apply onK_ok | apply kernelEvent_ok | apply ok_ite
        | split
        | dsimp only
  try clear_value v10
  have h_v11 : Ok v11 := by
    unfold v11
    repeat'
      first
        | with_reducible assumption
        | intro _
        | with_reducible first | apply ok_flag | apply ok_putB | apply onK_ok | apply kernelEvent_ok | apply ok_ite
        | split
        | dsimp only
  try clear_value v11
  repeat'
    first
      | with_reducible assumption
      | intro _
      | with_reducible first | apply ok_flag | apply ok_putB | apply onK_ok | apply kernelEvent_ok | apply ok_ite
      | split
      | dsimp only

theorem runPll_ok {d : Dev} {k : KIx} (h_d : Ok d) : Ok (runPll d k) := by
  unfold runPll
  extract_lets +onlyGivenNames v0 v1 v2 v3 v4 v5 v6 v7 v8 v9 v10 v11 v12 v13 v14
  try clear_value v0
  try clear_value v1
  try clear_value v2
  try clear_value v3
  try clear_value v4
  try clear_value v5
  try clear_value v6
  try clear_value v7
  try clear_value v8
  try clear_value v9
  try clear_value v10
  have h_v11 : Ok v11 := by
    unfold v11
    repeat'
      first
        | with_reducible assumption
        | intro _
        | with_reducible first | apply onK_ok | apply kemitP_ok | apply pllLock_ok | apply ok_ite
        | split
        | dsimp only
  try clear_value v11
  try clear_value v12
  try clear_value v13
  have h_v14 : Ok v14 := by
    unfold v14
    repeat'
      first
        | with_reducible assumption
        | intro _
        | with_reducible first | apply onK_ok | apply kemitP_ok | apply pllLock_ok | apply ok_ite
        | split
        | dsimp only
  try clear_value v14
  repeat'
    first
      | with_reducible assumption
      | intro _
      | with_reducible first | apply onK_ok | apply kemitP_ok | apply pllLock_ok | apply ok_ite
      | split
      | dsimp only

theorem runGear_ok {d : Dev} {k : KIx} (h_d : Ok d) : Ok (runGear d k) := by
  unfold runGear
  extract_lets +onlyGivenNames v0 v1 v2 v3 v4 v5 v6 v7 v8 v9
  try clear_value v0
  try clear_value v1
  try clear_value v2
  try clear_value v3
  try clear_value v4
  try clear_value v5
  try clear_value v6
  try clear_value v7
  have h_v8 : Ok v8 := by
    unfold v8
    repeat'
      first
        | with_reducible assumption
        | intro _
        | with_reducible first | apply ok_flag | apply onK_ok | apply kemitP_ok | apply ok_ite
        | split
        | dsimp only
  try clear_value v8
  have h_v9 : Ok v9 := by
    unfold v9
    repeat'
      first
        | with_reducible assumption
        | intro _
        | with_reducible first | apply ok_flag | apply onK_ok | apply kemitP_ok | apply ok_ite
        | split
        | dsimp only
  try clear_value v9
  repeat'
    first
      | with_reducible assumption
      | intro _
      | with_reducible first | apply ok_flag | apply onK_ok | apply kemitP_ok | apply ok_ite
      | split
      | dsimp only

theorem segTake_ok {d : Dev} {k : KIx} (h_d : Ok d) : Ok (segTake d k) := by
  unfold segTake
  extract_lets +onlyGivenNames v0 v1 v2 v3 v4 v5 v6 v7 v8 v9
  try clear_value v0
  try clear_value v1
  try clear_value v2
  try clear_value v3
  try clear_value v4
  try clear_value v5
  try clear_value v6
  try clear_value v7
  try clear_value v8
  have h_v9 : Ok v9 := by
    unfold v9
    repeat'
      first
        | with_reducible assumption
        | intro _
        | with_reducible first | apply ok_put | apply ok_flag | apply onK_ok | apply ok_ite
        | split
        | dsimp only
  try clear_value v9
  repeat'
    first
      | with_reducible assumption
      | intro _
      | with_reducible first | apply ok_put | apply ok_flag | apply onK_ok | apply ok_ite
      | split
      | dsimp only

theorem segEnd_ok {d : Dev} {k : KIx} (h_d : Ok d) : Ok (segEnd d k) := by
  unfold segEnd
  extract_lets +onlyGivenNames v0 v1 v2 v3 v4 v5
  try clear_value v0
  try clear_value v1
  try clear_value v2
  have h_v3 : Ok v3 := by
    unfold v3
    repeat'
      first
        | with_reducible assumption
        | intro _
        | with_reducible first | apply ok_flag | apply ok_clr | apply ok_inc | apply onK_ok | apply kernelEvent_ok | apply ok_ite
        | split
        | dsimp only
  try clear_value v3
  have h_v4 : Ok v4 := by
    unfold v4
    repeat'
      first
        | with_reducible assumption
        | intro _
        | with_reducible first | apply ok_flag | apply ok_clr | apply ok_inc | apply onK_ok | apply kernelEvent_ok | apply ok_ite
        | split
        | dsimp only
  try clear_value v4
  have h_v5 : Ok v5 := by
    unfold v5
    repeat'
      first
        | with_reducible assumption
        | intro _
        | with_reducible first | apply ok_flag | apply ok_clr | apply ok_inc | apply onK_ok | apply kernelEvent_ok | apply ok_ite
        | split
        | dsimp only
  try clear_value v5
  repeat'
    first
      | with_reducible assumption
      | intro _
      | with_reducible first | apply ok_flag | apply ok_clr | apply ok_inc | apply onK_ok | apply kernelEvent_ok | apply ok_ite
      | split
      | dsimp only

theorem runInterp_ok {d : Dev} {k : KIx} (h_d : Ok d) : Ok (runInterp d k) := by
  unfold runInterp
  extract_lets +onlyGivenNames v0 v1
  have h_v0 : Ok v0 := by
    unfold v0
    repeat'
      first
        | with_reducible assumption
        | intro _
        | with_reducible first | apply onK_ok | apply kemitP_ok | apply segTake_ok | apply segEnd_ok | apply ok_ite
        | split
        | dsimp only
  try clear_value v0
  try clear_value v1
  repeat'
    first
      | with_reducible assumption
      | intro _
      | with_reducible first | apply onK_ok | apply kemitP_ok | apply segTake_ok | apply segEnd_ok | apply ok_ite
      | split
      | dsimp only

theorem runFfsum_ok {d : Dev} {k : KIx} (h_d : Ok d) : Ok (runFfsum d k) := by
  unfold runFfsum
  extract_lets +onlyGivenNames v0 v1 v2
  try clear_value v0
  try clear_value v1
  try clear_value v2
  repeat'
    first
      | with_reducible assumption
      | intro _
      | with_reducible first | apply kemit_ok | apply klim_ok | apply ok_ite
      | split
      | dsimp only

theorem runDroop_ok {d : Dev} {k : KIx} (h_d : Ok d) : Ok (runDroop d k) := by
  unfold runDroop
  extract_lets +onlyGivenNames v0 v1 v2 v3 v4
  try clear_value v0
  try clear_value v1
  try clear_value v2
  try clear_value v3
  try clear_value v4
  repeat'
    first
      | with_reducible assumption
      | intro _
      | with_reducible first | apply kemit_ok | apply klim_ok | apply ok_ite
      | split
      | dsimp only

theorem runBatlim_ok {d : Dev} {k : KIx} (h_d : Ok d) : Ok (runBatlim d k) := by
  unfold runBatlim
  extract_lets +onlyGivenNames v0 v1 v2 v3 v4 v5 v6 v7 v8 v9 v10
  try clear_value v0
  try clear_value v1
  try clear_value v2
  try clear_value v3
  try clear_value v4
  try clear_value v5
  try clear_value v6
  try clear_value v7
  try clear_value v8
  try clear_value v9
  try clear_value v10
  repeat'
    first
      | with_reducible assumption
      | intro _
      | with_reducible first | apply kemit_ok | apply klim_ok | apply ok_ite
      | split
      | dsimp only

theorem runAuto_ok {d : Dev} {k : KIx} (h_d : Ok d) : Ok (runAuto d k) := by
  unfold runAuto
  split
  all_goals
    repeat'
      first
        | with_reducible assumption
        | intro _
        | with_reducible first | apply runPi_ok | apply runLeadlag_ok | apply runBiquad_ok | apply runLimit_ok | apply runRamp_ok | apply runSlew_ok | apply runPark_ok | apply runIpark_ok | apply runPll_ok | apply runGear_ok | apply runInterp_ok | apply runFfsum_ok | apply runDroop_ok | apply runBatlim_ok | apply ok_ite
        | split
        | dsimp only

theorem presetOut_ok {d : Dev} {k : KIx} {kind : Nat} {v : Int} (h_d : Ok d) : Ok (presetOut d k kind v) := by
  unfold presetOut
  extract_lets +onlyGivenNames v0
  try clear_value v0
  repeat'
    first
      | with_reducible assumption
      | intro _
      | with_reducible first | apply kemit_ok | apply klim_ok | apply ok_ite
      | split
      | dsimp only

theorem presetState_ok {d : Dev} {k : KIx} {v : Int} (h_d : Ok d) : Ok (presetState d k v) := by
  unfold presetState
  split
  all_goals
    repeat'
      first
        | with_reducible assumption
        | intro _
        | with_reducible first | apply ok_clr | apply onK_ok | apply ok_ite
        | split
        | dsimp only

theorem runPreset_ok {d : Dev} {k : KIx} {v : Int} (h_d : Ok d) : Ok (runPreset d k v) := by
  unfold runPreset
  extract_lets +onlyGivenNames v0 v1
  try clear_value v0
  have h_v1 : Ok v1 := by
    unfold v1
    repeat'
      first
        | with_reducible assumption
        | intro _
        | with_reducible first | apply ok_clr | apply kemit_ok | apply kemitP_ok | apply presetOut_ok | apply presetState_ok | apply ok_ite
        | split
        | dsimp only
  try clear_value v1
  repeat'
    first
      | with_reducible assumption
      | intro _
      | with_reducible first | apply ok_clr | apply kemit_ok | apply kemitP_ok | apply presetOut_ok | apply presetState_ok | apply ok_ite
      | split
      | dsimp only

theorem runAutoPre_ok {d : Dev} {k : KIx} (h_d : Ok d) : Ok (runAutoPre d k) := by
  unfold runAutoPre
  repeat'
    first
      | with_reducible assumption
      | intro _
      | with_reducible first | apply ok_clr | apply kemitP_ok | apply runAuto_ok | apply presetOut_ok | apply presetState_ok | apply ok_ite
      | split
      | dsimp only

theorem runMode_ok {d : Dev} {k : KIx} (h_d : Ok d) : Ok (runMode d k) := by
  unfold runMode
  extract_lets +onlyGivenNames v0 v1 v2
  try clear_value v0
  have h_v1 : Ok v1 := by
    unfold v1
    repeat'
      first
        | with_reducible assumption
        | intro _
        | with_reducible first | apply ok_put | apply ok_inc | apply runPreset_ok | apply runAutoPre_ok | apply ok_ite
        | split
        | with_reducible apply ok_mk
  try clear_value v1
  have h_v2 : Ok v2 := by
    unfold v2
    repeat'
      first
        | with_reducible assumption
        | intro _
        | with_reducible first | apply ok_put | apply ok_inc | apply runPreset_ok | apply runAutoPre_ok | apply ok_ite
        | split
        | with_reducible apply ok_mk
  try clear_value v2
  repeat'
    first
      | with_reducible assumption
      | intro _
      | with_reducible first | apply ok_put | apply ok_inc | apply runPreset_ok | apply runAutoPre_ok | apply ok_ite
      | split
      | with_reducible apply ok_mk

theorem kFclr_ok {d : Dev} {k : KIx} (h_d : Ok d) : Ok (kFclr d k) := by
  unfold kFclr
  extract_lets +onlyGivenNames v0 v1 v2 v3
  try clear_value v0
  have h_v1 : Ok v1 := by
    unfold v1
    repeat'
      first
        | with_reducible assumption
        | intro _
        | with_reducible first | apply ok_put | apply ok_flag | apply ok_clr | apply ok_putB | apply onK_ok | apply ok_ite
        | split
        | dsimp only
  try clear_value v1
  have h_v2 : Ok v2 := by
    unfold v2
    repeat'
      first
        | with_reducible assumption
        | intro _
        | with_reducible first | apply ok_put | apply ok_flag | apply ok_clr | apply ok_putB | apply onK_ok | apply ok_ite
        | split
        | dsimp only
  try clear_value v2
  have h_v3 : Ok v3 := by
    unfold v3
    repeat'
      first
        | with_reducible assumption
        | intro _
        | with_reducible first | apply ok_put | apply ok_flag | apply ok_clr | apply ok_putB | apply onK_ok | apply ok_ite
        | split
        | dsimp only
  try clear_value v3
  repeat'
    first
      | with_reducible assumption
      | intro _
      | with_reducible first | apply ok_put | apply ok_flag | apply ok_clr | apply ok_putB | apply onK_ok | apply ok_ite
      | split
      | dsimp only

theorem kPload_ok {d : Dev} {k : KIx} (h_d : Ok d) : Ok (kPload d k) := by
  unfold kPload
  repeat'
    first
      | with_reducible assumption
      | intro _
      | with_reducible first | apply ok_put | apply ok_ite | apply ok_forAll
      | split
      | dsimp only

theorem kSnap_ok {d : Dev} {k : KIx} (h_d : Ok d) : Ok (kSnap d k) := by
  unfold kSnap
  repeat'
    first
      | with_reducible assumption
      | with_reducible first | apply ok_flag | apply ok_put

theorem kPre_ok {d : Dev} {k : KIx} (h_d : Ok d) : Ok (kPre d k) := by
  unfold kPre
  extract_lets +onlyGivenNames v0 v1 v2 v3
  have h_v0 : Ok v0 := by
    unfold v0
    repeat'
      first
        | with_reducible assumption
        | intro _
        | with_reducible first | apply ok_flag | apply ok_clr | apply ok_cmdDone | apply kFclr_ok | apply kPload_ok | apply ok_ite
        | split
        | dsimp only
  try clear_value v0
  have h_v1 : Ok v1 := by
    unfold v1
    repeat'
      first
        | with_reducible assumption
        | intro _
        | with_reducible first | apply ok_flag | apply ok_clr | apply ok_cmdDone | apply kFclr_ok | apply kPload_ok | apply ok_ite
        | split
        | dsimp only
  try clear_value v1
  have h_v2 : Ok v2 := by
    unfold v2
    repeat'
      first
        | with_reducible assumption
        | intro _
        | with_reducible first | apply ok_flag | apply ok_clr | apply ok_cmdDone | apply kFclr_ok | apply kPload_ok | apply ok_ite
        | split
        | dsimp only
  try clear_value v2
  have h_v3 : Ok v3 := by
    unfold v3
    repeat'
      first
        | with_reducible assumption
        | intro _
        | with_reducible first | apply ok_flag | apply ok_clr | apply ok_cmdDone | apply kFclr_ok | apply kPload_ok | apply ok_ite
        | split
        | dsimp only
  try clear_value v3
  repeat'
    first
      | with_reducible assumption
      | intro _
      | with_reducible first | apply ok_flag | apply ok_clr | apply ok_cmdDone | apply kFclr_ok | apply kPload_ok | apply ok_ite
      | split
      | dsimp only

theorem kPost_ok {d : Dev} {k : KIx} (h_d : Ok d) : Ok (kPost d k) := by
  unfold kPost
  repeat'
    first
      | with_reducible assumption
      | intro _
      | with_reducible first | apply ok_cmdDone | apply kSnap_ok | apply ok_ite
      | split
      | dsimp only

theorem kernelRun_ok {d : Dev} {k : KIx} (h_d : Ok d) : Ok (kernelRun d k) := by
  unfold kernelRun
  repeat'
    first
      | with_reducible assumption
      | intro _
      | with_reducible first | apply runMode_ok | apply kPre_ok | apply kPost_ok | apply ok_ite
      | split
      | dsimp only

theorem cellFault_ok {d : Dev} {k : KIx} (h_d : Ok d) : Ok (cellFault d k) := by
  unfold cellFault
  extract_lets +onlyGivenNames v0 v1 v2 v3
  have h_v0 : Ok v0 := by
    unfold v0
    repeat'
      first
        | with_reducible assumption
        | intro _
        | with_reducible first | apply ok_put | apply ok_flag | apply ok_incSat | apply quench_ok | apply kernelEvent_ok | apply ok_ite
        | split
        | dsimp only
  try clear_value v0
  have h_v1 : Ok v1 := by
    unfold v1
    repeat'
      first
        | with_reducible assumption
        | intro _
        | with_reducible first | apply ok_put | apply ok_flag | apply ok_incSat | apply quench_ok | apply kernelEvent_ok | apply ok_ite
        | split
        | dsimp only
  try clear_value v1
  have h_v2 : Ok v2 := by
    unfold v2
    repeat'
      first
        | with_reducible assumption
        | intro _
        | with_reducible first | apply ok_put | apply ok_flag | apply ok_incSat | apply quench_ok | apply kernelEvent_ok | apply ok_ite
        | split
        | dsimp only
  try clear_value v2
  have h_v3 : Ok v3 := by
    unfold v3
    repeat'
      first
        | with_reducible assumption
        | intro _
        | with_reducible first | apply ok_put | apply ok_flag | apply ok_incSat | apply quench_ok | apply kernelEvent_ok | apply ok_ite
        | split
        | dsimp only
  try clear_value v3
  repeat'
    first
      | with_reducible assumption
      | intro _
      | with_reducible first | apply ok_put | apply ok_flag | apply ok_incSat | apply quench_ok | apply kernelEvent_ok | apply ok_ite
      | split
      | dsimp only

theorem kSwapPreset_ok {d : Dev} {k : KIx} (h_d : Ok d) : Ok (kSwapPreset d k) := by
  unfold kSwapPreset
  extract_lets +onlyGivenNames v0 v1
  try clear_value v0
  have h_v1 : Ok v1 := by
    unfold v1
    repeat'
      first
        | with_reducible assumption
        | intro _
        | with_reducible first | apply ok_flag | apply onK_ok | apply ok_ite
        | split
        | dsimp only
  try clear_value v1
  repeat'
    first
      | with_reducible assumption
      | intro _
      | with_reducible first | apply ok_flag | apply onK_ok | apply ok_ite
      | split
      | dsimp only

theorem kRefuse_ok {d : Dev} {k : KIx} {reason : Nat} (h_d : Ok d) : Ok (kRefuse d k reason) := by
  unfold kRefuse
  repeat'
    first
      | with_reducible assumption
      | intro _
      | with_reducible first | apply ok_put | apply ok_flag | apply ok_ite
      | split
      | dsimp only

theorem kCtlWrite_ok {d : Dev} {k : KIx} {cmds : Nat} {shadow : Bool} (h_d : Ok d) : Ok (kCtlWrite d k cmds shadow) := by
  unfold kCtlWrite
  extract_lets +onlyGivenNames v0
  try clear_value v0
  repeat'
    first
      | with_reducible assumption
      | intro _
      | with_reducible first | apply ok_setReg | apply ok_cmdAgain | apply kPre_ok | apply kPost_ok | apply kRefuse_ok | apply ok_ite
      | split
      | dsimp only

end Sys2Proof.Machine
end

