-- ==== Sys2Proof/Laws/KeepPattern.lean ====
section
/-! SUPPORT. The invariant kept by every operation of Machine/Pattern.lean. -/

set_option linter.unreachableTactic false
set_option linter.unusedTactic false

namespace Sys2Proof.Machine

theorem phaseEvent_ok {d : Dev} {nn : Fin 16} (h_d : Ok d) : Ok (phaseEvent d nn) := by
  unfold phaseEvent
  repeat'
    first
      | with_reducible assumption
      | intro _
      | with_reducible first | apply ok_raise | apply ok_ite
      | split
      | dsimp only

theorem setSwapPend_ok {d : Dev} {nn : Fin 16} (h_d : Ok d) : Ok (setSwapPend d nn) := by
  unfold setSwapPend
  extract_lets +onlyGivenNames v0 v1
  try clear_value v0
  try clear_value v1
  repeat'
    first
      | with_reducible assumption
      | intro _
      | with_reducible first | apply ok_putB | apply ok_ite
      | split
      | dsimp only

theorem stallSeen_ok {d : Dev} {nn : Fin 16} (h_d : Ok d) : Ok (stallSeen d nn) := by
  unfold stallSeen
  repeat'
    first
      | with_reducible assumption
      | intro _
      | with_reducible first | apply ok_flag | apply ok_clr | apply phaseEvent_ok | apply ok_ite
      | split
      | dsimp only

theorem stallOwn_ok {d : Dev} {nn : Fin 16} (h_d : Ok d) : Ok (stallOwn d nn) := by
  unfold stallOwn
  extract_lets +onlyGivenNames v0 v1
  try clear_value v0
  try clear_value v1
  repeat'
    first
      | with_reducible assumption
      | intro _
      | with_reducible first | apply ok_flag | apply stallSeen_ok | apply ok_ite
      | (with_reducible refine ok_leg ?_ ?_ <;> first | with_reducible assumption | exact fun hg => leg_same hg rfl rfl rfl rfl | skip)
      | (with_reducible refine ok_legs ?_ ?_ <;> first | with_reducible assumption | exact fun _ hg => leg_same hg rfl rfl rfl rfl | skip)
      | (with_reducible refine ok_onB ?_ ?_ <;> first | with_reducible assumption | exact fun _ h => blk_same h rfl rfl rfl | exact fun _ h => blk_noClr h rfl rfl rfl | exact fun _ h => blk_map h rfl rfl rfl fun _ hg => leg_same hg rfl rfl rfl rfl | skip)
      | exact blk_same (by assumption) rfl rfl rfl
      | split
      | dsimp only

theorem declareStall_ok {d : Dev} {nn : Fin 16} (h_d : Ok d) : Ok (declareStall d nn) := by
  unfold declareStall
  repeat'
    first
      | with_reducible assumption
      | intro _
      | with_reducible first | apply setSwapPend_ok | apply stallSeen_ok | apply stallOwn_ok | apply ok_ite
      | (with_reducible refine ok_leg ?_ ?_ <;> first | with_reducible assumption | exact fun hg => leg_same hg rfl rfl rfl rfl | skip)
      | (with_reducible refine ok_legs ?_ ?_ <;> first | with_reducible assumption | exact fun _ hg => leg_same hg rfl rfl rfl rfl | skip)
      | (with_reducible refine ok_onB ?_ ?_ <;> first | with_reducible assumption | exact fun _ h => blk_same h rfl rfl rfl | exact fun _ h => blk_noClr h rfl rfl rfl | exact fun _ h => blk_map h rfl rfl rfl fun _ hg => leg_same hg rfl rfl rfl rfl | skip)
      | exact blk_same (by assumption) rfl rfl rfl
      | split
      | dsimp only

end Sys2Proof.Machine
end

