-- ==== Sys2Proof/Laws/KeepWindows.lean ====
section
/-! SUPPORT. The invariant kept by every operation of Machine/Windows.lean. -/

set_option linter.unreachableTactic false
set_option linter.unusedTactic false

namespace Sys2Proof.Machine

theorem onPort_ok {d : Dev} {p : Fin 4} {f : Port → Port} (h_d : Ok d) : Ok (onPort d p f) := by
  unfold onPort
  repeat'
    first
      | with_reducible assumption
      | intro _
      | with_reducible first | apply ok_ite
      | (with_reducible refine ok_onR ?_ ?_ <;> first | with_reducible assumption | exact fun _ h => rgn_same h rfl rfl rfl rfl rfl | skip)
      | exact rgn_same (by assumption) rfl rfl rfl rfl rfl
      | split
      | dsimp only

theorem ownerSend_ok {d : Dev} {m : TwMsg} (h_d : Ok d) : Ok (ownerSend d m) := by
  unfold ownerSend
  repeat'
    first
      | with_reducible assumption
      | intro _
      | with_reducible first | apply twSend_ok | apply ok_ite
      | split
      | dsimp only

theorem onW_ok {d : Dev} {p : Fin 4} {w : Fin 32} {f : Win → Win} (h_d : Ok d) : Ok (onW d p w f) := by
  unfold onW
  repeat'
    first
      | with_reducible assumption
      | intro _
      | with_reducible first | apply ok_ite
      | (with_reducible refine ok_onR ?_ ?_ <;> first | with_reducible assumption | exact fun _ h => rgn_same h rfl rfl rfl rfl rfl | skip)
      | exact rgn_same (by assumption) rfl rfl rfl rfl rfl
      | split
      | dsimp only

theorem winMiss_ok {d : Dev} {p : Fin 4} {w : Fin 32} {cause : Nat} (h_d : Ok d) : Ok (winMiss d p w cause) := by
  unfold winMiss
  extract_lets +onlyGivenNames v0 v1 v2
  have h_v0 : Ok v0 := by
    unfold v0
    repeat'
      first
        | with_reducible assumption
        | intro _
        | with_reducible first | apply ok_put | apply ok_flagBit | apply ok_flag | apply ok_inc | apply ok_raise | apply ok_ite
        | split
        | dsimp only
  try clear_value v0
  have h_v1 : Ok v1 := by
    unfold v1
    repeat'
      first
        | with_reducible assumption
        | intro _
        | with_reducible first | apply ok_put | apply ok_flagBit | apply ok_flag | apply ok_inc | apply ok_raise | apply ok_ite
        | split
        | dsimp only
  try clear_value v1
  have h_v2 : Ok v2 := by
    unfold v2
    repeat'
      first
        | with_reducible assumption
        | intro _
        | with_reducible first | apply ok_put | apply ok_flagBit | apply ok_flag | apply ok_inc | apply ok_raise | apply ok_ite
        | split
        | dsimp only
  try clear_value v2
  repeat'
    first
      | with_reducible assumption
      | intro _
      | with_reducible first | apply ok_put | apply ok_flagBit | apply ok_flag | apply ok_inc | apply ok_raise | apply ok_ite
      | split
      | dsimp only

theorem winFinal_ok {d : Dev} {p : Fin 4} {w : Fin 32} (h_d : Ok d) : Ok (winFinal d p w) := by
  unfold winFinal
  extract_lets +onlyGivenNames v0 v1
  try clear_value v0
  have h_v1 : Ok v1 := by
    unfold v1
    repeat'
      first
        | with_reducible assumption
        | intro _
        | with_reducible first | apply onW_ok | apply ownerSend_ok | apply winMiss_ok | apply ok_ite
        | split
        | dsimp only
  try clear_value v1
  repeat'
    first
      | with_reducible assumption
      | intro _
      | with_reducible first | apply onW_ok | apply ownerSend_ok | apply winMiss_ok | apply ok_ite
      | split
      | dsimp only

theorem winClose_ok {d : Dev} {p : Fin 4} {w : Fin 32} (h_d : Ok d) : Ok (winClose d p w) := by
  unfold winClose
  repeat'
    first
      | with_reducible assumption
      | intro _
      | with_reducible first | apply ok_clr | apply onW_ok | apply winFinal_ok | apply ok_ite
      | split
      | dsimp only

theorem winsInvalid_ok {d : Dev} {k : Fin 8} (h_d : Ok d) : Ok (winsInvalid d k) := by
  unfold winsInvalid
  repeat'
    first
      | with_reducible assumption
      | intro _
      | with_reducible first | apply winClose_ok | apply ok_ite | apply ok_forAll
      | split
      | dsimp only

end Sys2Proof.Machine
end

