-- ==== Sys2Proof/Laws/KeepPhase.lean ====
section
/-! SUPPORT. The invariant kept by every operation of Machine/Phase.lean. -/

set_option linter.unreachableTactic false
set_option linter.unusedTactic false

namespace Sys2Proof.Machine

theorem setSrc_ok {d : Dev} {k : Fin 8} {alt : Bool} {s : PSrc} (h_d : Ok d) : Ok (setSrc d k alt s) := by
  unfold setSrc
  repeat'
    first
      | with_reducible assumption
      | intro _
      | with_reducible first | apply ok_onPd | apply ok_ite
      | split
      | dsimp only

theorem setSeg_ok {d : Dev} {k : Fin 8} {base : Nat} {num : Nat} {den : Nat} (h_d : Ok d) : Ok (setSeg d k base num den) := by
  unfold setSeg
  repeat'
    first
      | with_reducible assumption
      | intro _
      | with_reducible first | apply ok_onPd | apply ok_ite
      | split
      | dsimp only

theorem holdPhase_ok {d : Dev} {k : Fin 8} (h_d : Ok d) : Ok (holdPhase d k) := by
  unfold holdPhase
  repeat'
    first
      | with_reducible assumption
      | intro _
      | with_reducible first | apply setSeg_ok | apply ok_ite
      | split
      | dsimp only

theorem setOfs_ok {d : Dev} {k : Fin 8} {o : Nat} (h_d : Ok d) : Ok (setOfs d k o) := by
  unfold setOfs
  repeat'
    first
      | with_reducible assumption
      | intro _
      | with_reducible first | apply ok_onPd | apply ok_ite
      | split
      | dsimp only

theorem runAtSource_ok {d : Dev} {k : Fin 8} {alt : Bool} {base : Nat} (h_d : Ok d) : Ok (runAtSource d k alt base) := by
  unfold runAtSource
  extract_lets +onlyGivenNames v0
  try clear_value v0
  repeat'
    first
      | with_reducible assumption
      | intro _
      | with_reducible first | apply setSeg_ok | apply ok_ite
      | split
      | dsimp only

theorem travFrom_ok {d : Dev} {k : Fin 8} {alt : Bool} {p : Nat} (h_d : Ok d) : Ok (travFrom d k alt p) := by
  unfold travFrom
  extract_lets +onlyGivenNames v0
  try clear_value v0
  repeat'
    first
      | with_reducible assumption
      | intro _
      | with_reducible first | apply setSrc_ok | apply ok_ite
      | split
      | dsimp only

theorem becomeValid_ok {d : Dev} {k : Fin 8} {alt : Bool} (h_d : Ok d) : Ok (becomeValid d k alt) := by
  unfold becomeValid
  extract_lets +onlyGivenNames v0 v1 v2 v3 v4 v5
  try clear_value v0
  try clear_value v1
  try clear_value v2
  try clear_value v3
  have h_v4 : Ok v4 := by
    unfold v4
    repeat'
      first
        | with_reducible assumption
        | intro _
        | with_reducible first | apply ok_flag | apply ok_clr | apply setOfs_ok | apply runAtSource_ok | apply travFrom_ok | apply ok_ite
        | split
        | dsimp only
  try clear_value v4
  have h_v5 : Ok v5 := by
    unfold v5
    repeat'
      first
        | with_reducible assumption
        | intro _
        | with_reducible first | apply ok_flag | apply ok_clr | apply setOfs_ok | apply runAtSource_ok | apply travFrom_ok | apply ok_ite
        | split
        | dsimp only
  try clear_value v5
  repeat'
    first
      | with_reducible assumption
      | intro _
      | with_reducible first | apply ok_flag | apply ok_clr | apply setOfs_ok | apply runAtSource_ok | apply travFrom_ok | apply ok_ite
      | split
      | dsimp only

theorem stallBound_ok {d : Dev} {k : Fin 8} (h_d : Ok d) : Ok (stallBound d k) := by
  unfold stallBound
  repeat'
    first
      | with_reducible assumption
      | intro _
      | with_reducible first | apply setSwapPend_ok | apply stallOwn_ok | apply declareStall_ok | apply ok_ite | apply ok_forAll
      | split
      | dsimp only

theorem becomeInvalid_ok {d : Dev} {k : Fin 8} (h_d : Ok d) : Ok (becomeInvalid d k) := by
  unfold becomeInvalid
  extract_lets +onlyGivenNames v0 v1
  have h_v0 : Ok v0 := by
    unfold v0
    repeat'
      first
        | with_reducible assumption
        | intro _
        | with_reducible first | apply ok_flag | apply ok_clr | apply ok_incSat | apply winsInvalid_ok | apply holdPhase_ok | apply stallBound_ok | apply ok_ite
        | split
        | dsimp only
  try clear_value v0
  have h_v1 : Ok v1 := by
    unfold v1
    repeat'
      first
        | with_reducible assumption
        | intro _
        | with_reducible first | apply ok_flag | apply ok_clr | apply ok_incSat | apply winsInvalid_ok | apply holdPhase_ok | apply stallBound_ok | apply ok_ite
        | split
        | dsimp only
  try clear_value v1
  repeat'
    first
      | with_reducible assumption
      | intro _
      | with_reducible first | apply ok_flag | apply ok_clr | apply ok_incSat | apply winsInvalid_ok | apply holdPhase_ok | apply stallBound_ok | apply ok_ite
      | split
      | dsimp only

theorem switchTo_ok {d : Dev} {k : Fin 8} {alt : Bool} (h_d : Ok d) : Ok (switchTo d k alt) := by
  unfold switchTo
  extract_lets +onlyGivenNames v0 v1 v2
  try clear_value v0
  have h_v1 : Ok v1 := by
    unfold v1
    repeat'
      first
        | with_reducible assumption
        | intro _
        | with_reducible first | apply ok_putB | apply setOfs_ok | apply runAtSource_ok | apply travFrom_ok | apply becomeValid_ok | apply ok_ite
        | split
        | dsimp only
  try clear_value v1
  try clear_value v2
  repeat'
    first
      | with_reducible assumption
      | intro _
      | with_reducible first | apply ok_putB | apply setOfs_ok | apply runAtSource_ok | apply travFrom_ok | apply becomeValid_ok | apply ok_ite
      | split
      | dsimp only

theorem domRecheck_ok {d : Dev} {k : Fin 8} (h_d : Ok d) : Ok (domRecheck d k) := by
  unfold domRecheck
  extract_lets +onlyGivenNames v0 v1
  try clear_value v0
  try clear_value v1
  repeat'
    first
      | with_reducible assumption
      | intro _
      | with_reducible first | apply ok_flag | apply becomeValid_ok | apply becomeInvalid_ok | apply switchTo_ok | apply ok_ite
      | split
      | dsimp only

theorem domRecheckAll_ok {d : Dev} (h_d : Ok d) : Ok (domRecheckAll d) := by
  unfold domRecheckAll
  repeat'
    first
      | with_reducible assumption
      | intro _
      | with_reducible first | apply domRecheck_ok | apply ok_ite | apply ok_forAll
      | split
      | dsimp only

theorem aim_ok {d : Dev} {k : Fin 8} {alt : Bool} (h_d : Ok d) : Ok (aim d k alt) := by
  unfold aim
  extract_lets +onlyGivenNames v0
  try clear_value v0
  repeat'
    first
      | with_reducible assumption
      | intro _
      | with_reducible first | apply ok_clr | apply setSeg_ok | apply setOfs_ok | apply ok_ite
      | split
      | dsimp only

theorem followAnew_ok {d : Dev} {k : Fin 8} {alt : Bool} (h_d : Ok d) : Ok (followAnew d k alt) := by
  unfold followAnew
  repeat'
    first
      | with_reducible assumption
      | intro _
      | with_reducible first | apply setSrc_ok | apply ok_ite
      | split
      | dsimp only

theorem phaseSet_ok {d : Dev} {k : Fin 8} {p : Nat} (h_d : Ok d) : Ok (phaseSet d k p) := by
  unfold phaseSet
  extract_lets +onlyGivenNames v0 v1 v2 v3 v4
  have h_v0 : Ok v0 := by
    unfold v0
    repeat'
      first
        | with_reducible assumption
        | intro _
        | with_reducible first | apply ok_onPd | apply setOfs_ok | apply travFrom_ok | apply followAnew_ok | apply ok_ite
        | split
        | dsimp only
  try clear_value v0
  try clear_value v1
  try clear_value v2
  try clear_value v3
  have h_v4 : Ok v4 := by
    unfold v4
    repeat'
      first
        | with_reducible assumption
        | intro _
        | with_reducible first | apply ok_onPd | apply setOfs_ok | apply travFrom_ok | apply followAnew_ok | apply ok_ite
        | split
        | dsimp only
  try clear_value v4
  repeat'
    first
      | with_reducible assumption
      | intro _
      | with_reducible first | apply ok_onPd | apply setOfs_ok | apply travFrom_ok | apply followAnew_ok | apply ok_ite
      | split
      | dsimp only

theorem srcRejoin_ok {d : Dev} {k : Fin 8} {alt : Bool} {c : Nat} {s : Nat} (h_d : Ok d) : Ok (srcRejoin d k alt c s) := by
  unfold srcRejoin
  repeat'
    first
      | with_reducible assumption
      | intro _
      | with_reducible first | apply setOfs_ok | apply ok_ite
      | split
      | dsimp only

theorem srcUpdateAt_ok {d : Dev} {k : Fin 8} {alt : Bool} {c : Nat} {v : Nat} (h_d : Ok d) : Ok (srcUpdateAt d k alt c v) := by
  unfold srcUpdateAt
  extract_lets +onlyGivenNames v0 v1
  try clear_value v0
  try clear_value v1
  repeat'
    first
      | with_reducible assumption
      | intro _
      | with_reducible first | apply ok_putB | apply setSrc_ok | apply domRecheck_ok | apply aim_ok | apply srcRejoin_ok | apply ok_ite
      | split
      | dsimp only

theorem srcUpdate_ok {d : Dev} {k : Fin 8} {alt : Bool} {v : Nat} (h_d : Ok d) : Ok (srcUpdate d k alt v) := by
  unfold srcUpdate
  repeat'
    first
      | with_reducible assumption
      | intro _
      | with_reducible first | apply srcUpdateAt_ok | apply ok_ite
      | split
      | dsimp only

theorem encMoved_ok {d : Dev} {nn : Fin 16} {dp : Int} (h_d : Ok d) : Ok (encMoved d nn dp) := by
  unfold encMoved
  repeat'
    first
      | with_reducible assumption
      | intro _
      | with_reducible first | apply ok_putB | apply ok_onPd | apply setSeg_ok | apply ok_ite | apply ok_forAll
      | split
      | dsimp only

theorem pairUpdate_ok {d : Dev} {nn : Fin 16} {j : Nat} {v : Nat} (h_d : Ok d) : Ok (pairUpdate d nn j v) := by
  unfold pairUpdate
  repeat'
    first
      | with_reducible assumption
      | intro _
      | with_reducible first | apply srcUpdate_ok | apply ok_ite | apply ok_forAll
      | split
      | dsimp only

theorem twinSourcesLost_ok {d : Dev} (h_d : Ok d) : Ok (twinSourcesLost d) := by
  unfold twinSourcesLost
  extract_lets +onlyGivenNames v0
  have h_v0 : Ok v0 := by
    unfold v0
    repeat'
      first
        | with_reducible assumption
        | intro _
        | with_reducible first | apply setSrc_ok | apply domRecheckAll_ok | apply ok_ite | apply ok_forAll
        | split
        | dsimp only
  try clear_value v0
  repeat'
    first
      | with_reducible assumption
      | intro _
      | with_reducible first | apply setSrc_ok | apply domRecheckAll_ok | apply ok_ite | apply ok_forAll
      | split
      | dsimp only

theorem domsInit_ok {d : Dev} (h_d : Ok d) : Ok (domsInit d) := by
  unfold domsInit
  extract_lets +onlyGivenNames v0 v1 v2
  try clear_value v0
  have h_v1 : Ok v1 := by
    unfold v1
    repeat'
      first
        | with_reducible assumption
        | intro _
        | with_reducible first | apply ok_setReg | apply domRecheckAll_ok | apply ok_ite | apply ok_forAll
        | split
        | with_reducible apply ok_mk
  try clear_value v1
  have h_v2 : Ok v2 := by
    unfold v2
    repeat'
      first
        | with_reducible assumption
        | intro _
        | with_reducible first | apply ok_setReg | apply domRecheckAll_ok | apply ok_ite | apply ok_forAll
        | split
        | with_reducible apply ok_mk
  try clear_value v2
  repeat'
    first
      | with_reducible assumption
      | intro _
      | with_reducible first | apply ok_setReg | apply domRecheckAll_ok | apply ok_ite | apply ok_forAll
      | split
      | with_reducible apply ok_mk

theorem execPhaseSourceUpdate_ok {k : Fin 8} {alt : Bool} {v : BitVec 40} {s : State} (h_s : Ok s.dev) : Good s (execPhaseSourceUpdate k alt v s) := by
  unfold execPhaseSourceUpdate
  repeat'
    first
      | with_reducible assumption
      | intro _
      | with_reducible first | apply srcUpdate_ok | apply ok_ite | apply good_stay | apply good_onDev | apply good_onUnit | apply good_onBlock | apply good_onRegion | apply good_onChip | apply good_ite
      | split
      | dsimp only

theorem execSourceTimeout_ok {k : Fin 8} {alt : Bool} {s : State} (h_s : Ok s.dev) : Good s (execSourceTimeout k alt s) := by
  unfold execSourceTimeout
  repeat'
    first
      | with_reducible assumption
      | intro _
      | with_reducible first | apply setSrc_ok | apply domRecheck_ok | apply ok_ite | apply good_stay | apply good_onDev | apply good_onUnit | apply good_onBlock | apply good_onRegion | apply good_onChip | apply good_ite
      | split
      | dsimp only

theorem doSwitch_ok {d : Dev} {k : Fin 8} (h_d : Ok d) : Ok (doSwitch d k) := by
  unfold doSwitch
  extract_lets +onlyGivenNames v0 v1
  try clear_value v0
  have h_v1 : Ok v1 := by
    unfold v1
    repeat'
      first
        | with_reducible assumption
        | intro _
        | with_reducible first | apply ok_flag | apply ok_clr | apply switchTo_ok | apply ok_ite
        | split
        | dsimp only
  try clear_value v1
  repeat'
    first
      | with_reducible assumption
      | intro _
      | with_reducible first | apply ok_flag | apply ok_clr | apply switchTo_ok | apply ok_ite
      | split
      | dsimp only

end Sys2Proof.Machine
end

