-- ==== Sys2Proof/Laws/KeepHostCmd.lean ====
section
/-! SUPPORT. The invariant kept by every operation of Machine/HostCmd.lean. -/

set_option linter.unreachableTactic false
set_option linter.unusedTactic false

namespace Sys2Proof.Machine

theorem hostCmd_ok {s : State} {h : Master} {a : Nat} {priv : Bool} {u : Nat} {f : Dev → Dev} (h_s : Ok s.dev) (h_f : ∀ x0, Ok x0 → Ok (f x0)) : Good s (hostCmd s h a priv u f) := by
  unfold hostCmd
  repeat'
    first
      | with_reducible assumption
      | intro _
      | with_reducible first | apply h_f | apply Dev_hostErr_ok | apply ok_ite | apply good_stay | apply good_onDev | apply good_onUnit | apply good_onBlock | apply good_onRegion | apply good_onChip | apply good_ite
      | split
      | dsimp only

theorem hostRd_ok {s : State} {h : Master} {a : Nat} {u : Nat} {f : Dev → Dev} (h_s : Ok s.dev) (h_f : ∀ x0, Ok x0 → Ok (f x0)) : Good s (hostRd s h a u f) := by
  unfold hostRd
  repeat'
    first
      | with_reducible assumption
      | intro _
      | with_reducible first | apply h_f | apply answer_ok | apply ok_ite | apply good_stay | apply good_onDev | apply good_onUnit | apply good_onBlock | apply good_onRegion | apply good_onChip | apply good_ite
      | split
      | dsimp only

theorem unguard_ok {d : Dev} {u : Nat} {a : Nat} {chg : Nat} (h_d : Ok d) : Ok (unguard d u a chg) := by
  unfold unguard
  repeat'
    first
      | with_reducible assumption
      | intro _
      | with_reducible first | apply ok_setReg | apply ok_ite
      | split
      | with_reducible apply ok_mk

theorem hostW_ok {s : State} {h : Master} {a : Nat} {priv : Bool} {u : Nat} {chg : Nat} {f : Dev → Dev} (h_s : Ok s.dev) (h_f : ∀ x0, Ok x0 → Ok (f x0)) : Good s (hostW s h a priv u chg f) := by
  unfold hostW
  repeat'
    first
      | with_reducible assumption
      | intro _
      | with_reducible first | apply h_f | apply hostCmd_ok | apply unguard_ok | apply ok_ite | apply good_stay | apply good_onDev | apply good_onUnit | apply good_onBlock | apply good_onRegion | apply good_onChip | apply good_ite
      | split
      | dsimp only

theorem mCfg_ok {ι : Type} {d : Dev} {f : RF ι} {i : ι} {w : Word} (h_d : Ok d) : Ok (mCfg d f i w) := by
  unfold mCfg
  extract_lets +onlyGivenNames v0 v1
  try clear_value v0
  try clear_value v1
  repeat'
    first
      | with_reducible assumption
      | intro _
      | with_reducible first | apply ok_put | apply ok_ite
      | split
      | dsimp only

theorem mirSend_ok {d : Dev} {a : Nat} {w : Word} {blk : Option (Fin 16)} (h_d : Ok d) : Ok (mirSend d a w blk) := by
  unfold mirSend
  extract_lets +onlyGivenNames v0
  try clear_value v0
  repeat'
    first
      | with_reducible assumption
      | intro _
      | with_reducible first | apply ok_onTw | apply twSend_ok | apply ok_ite
      | split
      | dsimp only

theorem mirHost_ok {d : Dev} {a : Nat} {w : Word} {blk : Option (Fin 16)} {refused : Bool} {go : Dev → Dev} {turn : Dev → Dev} (h_d : Ok d) (h_go : ∀ x0, Ok x0 → Ok (go x0)) (h_turn : ∀ x0, Ok x0 → Ok (turn x0)) : Ok (mirHost d a w blk refused go turn) := by
  unfold mirHost
  extract_lets +onlyGivenNames v0
  try clear_value v0
  repeat'
    first
      | with_reducible assumption
      | intro _
      | with_reducible first | apply h_go | apply h_turn | apply ok_inc | apply mirSend_ok | apply ok_ite
      | split
      | dsimp only

theorem execSwitch_ok {h : Master} {k : Fin 8} {w : Word} {s : State} (h_s : Ok s.dev) : Good s (execSwitch h k w s) := by
  unfold execSwitch
  repeat'
    first
      | with_reducible assumption
      | intro _
      | with_reducible first | apply doSwitch_ok | apply hostW_ok | apply mirHost_ok | apply ok_ite | apply good_stay | apply good_onDev | apply good_onUnit | apply good_onBlock | apply good_onRegion | apply good_onChip | apply good_ite
      | split
      | dsimp only

end Sys2Proof.Machine
end

