-- ==== Sys2Proof/Laws/KeepSensing.lean ====
section
/-! SUPPORT. The invariant kept by every operation of Machine/Sensing.lean. -/

set_option linter.unreachableTactic false
set_option linter.unusedTactic false

namespace Sys2Proof.Machine

theorem senseEdge_ok {d : Dev} {nn : Fin 16} {i : Fin 10} {up : Bool} (h_d : Ok d) : Ok (senseEdge d nn i up) := by
  unfold senseEdge
  repeat'
    first
      | with_reducible assumption
      | intro _
      | with_reducible first | apply ok_ite
      | (with_reducible refine ok_leg ?_ ?_ <;> first | with_reducible assumption | exact fun hg => leg_same hg rfl rfl rfl rfl | skip)
      | (with_reducible refine ok_legs ?_ ?_ <;> first | with_reducible assumption | exact fun _ hg => leg_same hg rfl rfl rfl rfl | skip)
      | (with_reducible refine ok_onB ?_ ?_ <;> first | with_reducible assumption | exact fun _ h => blk_same h rfl rfl rfl | exact fun _ h => blk_noClr h rfl rfl rfl | exact fun _ h => blk_map h rfl rfl rfl fun _ hg => leg_same hg rfl rfl rfl rfl | skip)
      | exact blk_same (by assumption) rfl rfl rfl
      | split
      | dsimp only

theorem setCmp_ok {d : Dev} {nn : Fin 16} {f : Fin 4} {lo : Bool} {on : Bool} (h_d : Ok d) : Ok (setCmp d nn f lo on) := by
  unfold setCmp
  extract_lets +onlyGivenNames v0
  try clear_value v0
  repeat'
    first
      | with_reducible assumption
      | intro _
      | with_reducible first | apply ok_flag | apply ok_putB | apply ok_incSat | apply quench_ok | apply senseEdge_ok | apply ok_ite
      | split
      | dsimp only

theorem onF_ok {d : Dev} {nn : Fin 16} {f : Fin 4} {g : Flt → Flt} (h_d : Ok d) : Ok (onF d nn f g) := by
  unfold onF
  repeat'
    first
      | with_reducible assumption
      | intro _
      | with_reducible first | apply ok_ite
      | (with_reducible refine ok_leg ?_ ?_ <;> first | with_reducible assumption | exact fun hg => leg_same hg rfl rfl rfl rfl | skip)
      | (with_reducible refine ok_legs ?_ ?_ <;> first | with_reducible assumption | exact fun _ hg => leg_same hg rfl rfl rfl rfl | skip)
      | (with_reducible refine ok_onB ?_ ?_ <;> first | with_reducible assumption | exact fun _ h => blk_same h rfl rfl rfl | exact fun _ h => blk_noClr h rfl rfl rfl | exact fun _ h => blk_map h rfl rfl rfl fun _ hg => leg_same hg rfl rfl rfl rfl | skip)
      | exact blk_same (by assumption) rfl rfl rfl
      | split
      | dsimp only

theorem fcStop_ok {d : Dev} {nn : Fin 16} {f : Fin 4} (h_d : Ok d) : Ok (fcStop d nn f) := by
  unfold fcStop
  extract_lets +onlyGivenNames v0
  try clear_value v0
  repeat'
    first
      | with_reducible assumption
      | intro _
      | with_reducible first | apply ok_setReg | apply ok_flag | apply ok_clr | apply ok_raise | apply setCmp_ok | apply onF_ok | apply ok_ite
      | split
      | dsimp only

theorem fcResume_ok {d : Dev} {nn : Fin 16} {f : Fin 4} (h_d : Ok d) : Ok (fcResume d nn f) := by
  unfold fcResume
  extract_lets +onlyGivenNames v0
  try clear_value v0
  repeat'
    first
      | with_reducible assumption
      | intro _
      | with_reducible first | apply onF_ok | apply ok_ite
      | split
      | dsimp only

theorem fcFill_ok {d : Dev} {nn : Fin 16} {f : Fin 4} (h_d : Ok d) : Ok (fcFill d nn f) := by
  unfold fcFill
  extract_lets +onlyGivenNames v0 v1 v2
  try clear_value v0
  have h_v1 : Ok v1 := by
    unfold v1
    repeat'
      first
        | with_reducible assumption
        | intro _
        | with_reducible first | apply ok_setReg | apply ok_clr | apply onF_ok | apply ok_ite
        | split
        | dsimp only
  try clear_value v1
  have h_v2 : Ok v2 := by
    unfold v2
    repeat'
      first
        | with_reducible assumption
        | intro _
        | with_reducible first | apply ok_setReg | apply ok_clr | apply onF_ok | apply ok_ite
        | split
        | dsimp only
  try clear_value v2
  repeat'
    first
      | with_reducible assumption
      | intro _
      | with_reducible first | apply ok_setReg | apply ok_clr | apply onF_ok | apply ok_ite
      | split
      | dsimp only

theorem onClkCells_ok {d : Dev} {n : Fin 4} {x : Fin 2} {g : Dev → Fin 16 → Fin 4 → Dev} (h_d : Ok d) (h_g : ∀ x0 x1 x2, Ok x0 → Ok (g x0 x1 x2)) : Ok (onClkCells d n x g) := by
  unfold onClkCells
  repeat'
    first
      | with_reducible assumption
      | intro _
      | with_reducible first | apply h_g | apply ok_ite | apply ok_forAll
      | split
      | dsimp only

theorem execFilterResult_ok {nn : Fin 16} {f : Fin 4} {sum edge : Nat} {s : State} (h_s : Ok s.dev) : Good s (execFilterResult nn f sum edge s) := by
  unfold execFilterResult
  repeat'
    first
      | with_reducible assumption
      | intro _
      | with_reducible first | apply ok_flag | apply ok_putS | apply onF_ok | apply ok_ite | apply good_stay | apply good_onDev | apply good_onUnit | apply good_onBlock | apply good_onRegion | apply good_onChip | apply good_ite
      | split
      | dsimp only

theorem judgeCmp_ok {d : Dev} {nn : Fin 16} {f : Fin 4} {lo : Bool} {r : Int} (h_d : Ok d) : Ok (judgeCmp d nn f lo r) := by
  unfold judgeCmp
  extract_lets +onlyGivenNames v0 v1 v2 v3 v4 v5 v6 v7 v8
  try clear_value v0
  try clear_value v1
  try clear_value v2
  try clear_value v3
  try clear_value v4
  try clear_value v5
  try clear_value v6
  try clear_value v7
  have h_v8 : Ok v8 := by
    unfold v8
    repeat'
      first
        | with_reducible assumption
        | intro _
        | with_reducible first | apply setCmp_ok | apply onF_ok | apply ok_ite
        | split
        | dsimp only
  try clear_value v8
  repeat'
    first
      | with_reducible assumption
      | intro _
      | with_reducible first | apply setCmp_ok | apply onF_ok | apply ok_ite
      | split
      | dsimp only

theorem execFastResult_ok {nn : Fin 16} {f : Fin 4} {sum edge : Nat} {s : State} (h_s : Ok s.dev) : Good s (execFastResult nn f sum edge s) := by
  unfold execFastResult
  repeat'
    first
      | with_reducible assumption
      | intro _
      | with_reducible first | apply ok_putS | apply setCmp_ok | apply onF_ok | apply judgeCmp_ok | apply ok_ite | apply good_stay | apply good_onDev | apply good_onUnit | apply good_onBlock | apply good_onRegion | apply good_onChip | apply good_ite
      | split
      | dsimp only

theorem mclkTick_ok {d : Dev} {n : Fin 4} {x : Fin 2} (h_d : Ok d) : Ok (mclkTick d n x) := by
  unfold mclkTick
  repeat'
    first
      | with_reducible assumption
      | intro _
      | with_reducible first | apply ok_inc | apply ok_free | apply ok_ite
      | (with_reducible refine ok_onR ?_ ?_ <;> first | with_reducible assumption | exact fun _ h => rgn_same h rfl rfl rfl rfl rfl | skip)
      | with_reducible refine ok_snd (by assumption) ?_
      | exact rgn_same (by assumption) rfl rfl rfl rfl rfl
      | split
      | dsimp only

theorem mclkFail_ok {d : Dev} {n : Fin 4} {x : Fin 2} {loss : Bool} (h_d : Ok d) : Ok (mclkFail d n x loss) := by
  unfold mclkFail
  extract_lets +onlyGivenNames v0 v1 v2 v3 v4
  try clear_value v0
  try clear_value v1
  have h_v2 : Ok v2 := by
    unfold v2
    repeat'
      first
        | with_reducible assumption
        | intro _
        | with_reducible first | apply ok_flag | apply ok_raise | apply fcStop_ok | apply onClkCells_ok | apply ok_ite
        | split
        | dsimp only
  try clear_value v2
  have h_v3 : Ok v3 := by
    unfold v3
    repeat'
      first
        | with_reducible assumption
        | intro _
        | with_reducible first | apply ok_flag | apply ok_raise | apply fcStop_ok | apply onClkCells_ok | apply ok_ite
        | split
        | dsimp only
  try clear_value v3
  have h_v4 : Ok v4 := by
    unfold v4
    repeat'
      first
        | with_reducible assumption
        | intro _
        | with_reducible first | apply ok_flag | apply ok_raise | apply fcStop_ok | apply onClkCells_ok | apply ok_ite
        | split
        | dsimp only
  try clear_value v4
  repeat'
    first
      | with_reducible assumption
      | intro _
      | with_reducible first | apply ok_flag | apply ok_raise | apply fcStop_ok | apply onClkCells_ok | apply ok_ite
      | split
      | dsimp only

theorem execMclkLoss_ok {n : Fin 4} {x : Fin 2} {s : State} (h_s : Ok s.dev) : Good s (execMclkLoss n x s) := by
  unfold execMclkLoss
  repeat'
    first
      | with_reducible assumption
      | intro _
      | with_reducible first | apply mclkFail_ok | apply ok_ite | apply good_stay | apply good_onDev | apply good_onUnit | apply good_onBlock | apply good_onRegion | apply good_onChip | apply good_ite
      | split
      | dsimp only

theorem execMclkRange_ok {n : Fin 4} {x : Fin 2} {s : State} (h_s : Ok s.dev) : Good s (execMclkRange n x s) := by
  unfold execMclkRange
  repeat'
    first
      | with_reducible assumption
      | intro _
      | with_reducible first | apply mclkFail_ok | apply ok_ite | apply good_stay | apply good_onDev | apply good_onUnit | apply good_onBlock | apply good_onRegion | apply good_onChip | apply good_ite
      | split
      | dsimp only

theorem execMclkRecover_ok {n : Fin 4} {x : Fin 2} {s : State} (h_s : Ok s.dev) : Good s (execMclkRecover n x s) := by
  unfold execMclkRecover
  repeat'
    first
      | with_reducible assumption
      | intro _
      | with_reducible first | apply ok_clr | apply fcResume_ok | apply onClkCells_ok | apply ok_ite | apply good_stay | apply good_onDev | apply good_onUnit | apply good_onBlock | apply good_onRegion | apply good_onChip | apply good_ite
      | split
      | dsimp only

theorem execBitstreamStuck_ok {nn : Fin 16} {f : Fin 4} {s : State} (h_s : Ok s.dev) : Good s (execBitstreamStuck nn f s) := by
  unfold execBitstreamStuck
  repeat'
    first
      | with_reducible assumption
      | intro _
      | with_reducible first | apply ok_flag | apply fcStop_ok | apply ok_ite | apply good_stay | apply good_onDev | apply good_onUnit | apply good_onBlock | apply good_onRegion | apply good_onChip | apply good_ite
      | split
      | dsimp only

theorem execBitstreamResume_ok {nn : Fin 16} {f : Fin 4} {s : State} (h_s : Ok s.dev) : Good s (execBitstreamResume nn f s) := by
  unfold execBitstreamResume
  repeat'
    first
      | with_reducible assumption
      | intro _
      | with_reducible first | apply ok_clr | apply fcResume_ok | apply ok_ite | apply good_stay | apply good_onDev | apply good_onUnit | apply good_onBlock | apply good_onRegion | apply good_onChip | apply good_ite
      | split
      | dsimp only

theorem onE_ok {d : Dev} {nn : Fin 16} {g : Enc → Enc} (h_d : Ok d) : Ok (onE d nn g) := by
  unfold onE
  repeat'
    first
      | with_reducible assumption
      | intro _
      | with_reducible first | apply ok_ite
      | (with_reducible refine ok_leg ?_ ?_ <;> first | with_reducible assumption | exact fun hg => leg_same hg rfl rfl rfl rfl | skip)
      | (with_reducible refine ok_legs ?_ ?_ <;> first | with_reducible assumption | exact fun _ hg => leg_same hg rfl rfl rfl rfl | skip)
      | (with_reducible refine ok_onB ?_ ?_ <;> first | with_reducible assumption | exact fun _ h => blk_same h rfl rfl rfl | exact fun _ h => blk_noClr h rfl rfl rfl | exact fun _ h => blk_map h rfl rfl rfl fun _ hg => leg_same hg rfl rfl rfl rfl | skip)
      | exact blk_same (by assumption) rfl rfl rfl
      | split
      | dsimp only

theorem encInvalid_ok {d : Dev} {nn : Fin 16} (h_d : Ok d) : Ok (encInvalid d nn) := by
  unfold encInvalid
  repeat'
    first
      | with_reducible assumption
      | intro _
      | with_reducible first | apply ok_flag | apply ok_clr | apply domRecheckAll_ok | apply ok_ite
      | split
      | dsimp only

theorem encCond_ok {d : Dev} {nn : Fin 16} (h_d : Ok d) : Ok (encCond d nn) := by
  unfold encCond
  repeat'
    first
      | with_reducible assumption
      | intro _
      | with_reducible first | apply onE_ok | apply encInvalid_ok | apply ok_ite
      | split
      | dsimp only

theorem encPut_ok {d : Dev} {nn : Fin 16} {pos : Int} (h_d : Ok d) : Ok (encPut d nn pos) := by
  unfold encPut
  repeat'
    first
      | with_reducible assumption
      | intro _
      | with_reducible first | apply onE_ok | apply ok_ite
      | split
      | dsimp only

theorem encOk_ok {d : Dev} {nn : Fin 16} (h_d : Ok d) : Ok (encOk d nn) := by
  unfold encOk
  repeat'
    first
      | with_reducible assumption
      | intro _
      | with_reducible first | apply ok_flag | apply ok_clr | apply domRecheckAll_ok | apply ok_ite
      | split
      | dsimp only

theorem encValid_ok {d : Dev} {nn : Fin 16} {pos : Int} (h_d : Ok d) : Ok (encValid d nn pos) := by
  unfold encValid
  repeat'
    first
      | with_reducible assumption
      | intro _
      | with_reducible first | apply encPut_ok | apply encOk_ok | apply ok_ite
      | split
      | dsimp only

theorem encEvent_ok {d : Dev} {nn : Fin 16} (h_d : Ok d) : Ok (encEvent d nn) := by
  unfold encEvent
  repeat'
    first
      | with_reducible assumption
      | intro _
      | with_reducible first | apply ok_raise | apply ok_ite
      | split
      | dsimp only

theorem encAdvance_ok {d : Dev} {nn : Fin 16} {dp : Int} (h_d : Ok d) : Ok (encAdvance d nn dp) := by
  unfold encAdvance
  repeat'
    first
      | with_reducible assumption
      | intro _
      | with_reducible first | apply ok_flag | apply encMoved_ok | apply encCond_ok | apply encPut_ok | apply ok_ite
      | split
      | dsimp only

theorem encCount_ok {d : Dev} {nn : Fin 16} {up : Bool} (h_d : Ok d) : Ok (encCount d nn up) := by
  unfold encCount
  extract_lets +onlyGivenNames v0 v1
  try clear_value v0
  try clear_value v1
  repeat'
    first
      | with_reducible assumption
      | intro _
      | with_reducible first | apply ok_putB | apply encAdvance_ok | apply ok_ite
      | split
      | dsimp only

theorem encLevels_ok {d : Dev} {nn : Fin 16} {a : Bool} {b : Bool} (h_d : Ok d) : Ok (encLevels d nn a b) := by
  unfold encLevels
  extract_lets +onlyGivenNames v0 v1 v2
  try clear_value v0
  try clear_value v1
  try clear_value v2
  repeat'
    first
      | with_reducible assumption
      | intro _
      | with_reducible first | apply ok_putB | apply onE_ok | apply ok_ite
      | split
      | dsimp only

theorem execQuadCount_ok {nn : Fin 16} {a : Bool} {b : Bool} {s : State} (h_s : Ok s.dev) : Good s (execQuadCount nn a b s) := by
  unfold execQuadCount
  repeat'
    first
      | with_reducible assumption
      | intro _
      | with_reducible first | apply ok_flag | apply ok_inc | apply onE_ok | apply encCond_ok | apply encEvent_ok | apply encCount_ok | apply encLevels_ok | apply ok_ite | apply good_stay | apply good_onDev | apply good_onUnit | apply good_onBlock | apply good_onRegion | apply good_onChip | apply good_ite
      | split
      | dsimp only

theorem execStepEdge_ok {nn : Fin 16} {eb : Bool} {settled : Bool} {s : State} (h_s : Ok s.dev) : Good s (execStepEdge nn eb settled s) := by
  unfold execStepEdge
  repeat'
    first
      | with_reducible assumption
      | intro _
      | with_reducible first | apply ok_free | apply onE_ok | apply encCount_ok | apply encLevels_ok | apply ok_ite | apply good_stay | apply good_onDev | apply good_onUnit | apply good_onBlock | apply good_onRegion | apply good_onChip | apply good_ite
      | with_reducible refine ok_snd (by assumption) ?_
      | split
      | dsimp only

theorem encIndex_ok {d : Dev} {nn : Fin 16} {z : Bool} (h_d : Ok d) : Ok (encIndex d nn z) := by
  unfold encIndex
  extract_lets +onlyGivenNames v0
  have h_v0 : Ok v0 := by
    unfold v0
    repeat'
      first
        | with_reducible assumption
        | intro _
        | with_reducible first | apply ok_putB | apply senseEdge_ok | apply onE_ok | apply ok_ite
        | split
        | dsimp only
  try clear_value v0
  repeat'
    first
      | with_reducible assumption
      | intro _
      | with_reducible first | apply ok_putB | apply senseEdge_ok | apply onE_ok | apply ok_ite
      | split
      | dsimp only

theorem execIndexEdge_ok {nn : Fin 16} {s : State} (h_s : Ok s.dev) : Good s (execIndexEdge nn s) := by
  unfold execIndexEdge
  repeat'
    first
      | with_reducible assumption
      | intro _
      | with_reducible first | apply ok_flag | apply encValid_ok | apply encIndex_ok | apply ok_ite | apply good_stay | apply good_onDev | apply good_onUnit | apply good_onBlock | apply good_onRegion | apply good_onChip | apply good_ite
      | split
      | dsimp only

theorem indexTick_ok {d : Dev} {nn : Fin 16} (h_d : Ok d) : Ok (indexTick d nn) := by
  unfold indexTick
  repeat'
    first
      | with_reducible assumption
      | intro _
      | with_reducible first | apply ok_free | apply encIndex_ok | apply ok_ite
      | with_reducible refine ok_snd (by assumption) ?_
      | split
      | dsimp only

theorem encFill_ok {d : Dev} {nn : Fin 16} (h_d : Ok d) : Ok (encFill d nn) := by
  unfold encFill
  extract_lets +onlyGivenNames v0 v1
  try clear_value v0
  have h_v1 : Ok v1 := by
    unfold v1
    repeat'
      first
        | with_reducible assumption
        | intro _
        | with_reducible first | apply ok_putB | apply onE_ok | apply ok_ite
        | split
        | dsimp only
  try clear_value v1
  repeat'
    first
      | with_reducible assumption
      | intro _
      | with_reducible first | apply ok_putB | apply onE_ok | apply ok_ite
      | split
      | dsimp only

theorem execSsiTransferStart_ok {nn : Fin 16} {idleHigh : Bool} {s : State} (h_s : Ok s.dev) : Good s (execSsiTransferStart nn idleHigh s) := by
  unfold execSsiTransferStart
  repeat'
    first
      | with_reducible assumption
      | intro _
      | with_reducible first | apply onE_ok | apply ok_ite | apply good_stay | apply good_onDev | apply good_onUnit | apply good_onBlock | apply good_onRegion | apply good_onChip | apply good_ite
      | split
      | dsimp only

theorem ssiDiscard_ok {d : Dev} {nn : Fin 16} (h_d : Ok d) : Ok (ssiDiscard d nn) := by
  unfold ssiDiscard
  extract_lets +onlyGivenNames v0 v1 v2 v3
  have h_v0 : Ok v0 := by
    unfold v0
    repeat'
      first
        | with_reducible assumption
        | intro _
        | with_reducible first | apply ok_inc | apply onE_ok | apply encInvalid_ok | apply encEvent_ok | apply ok_ite
        | split
        | dsimp only
  try clear_value v0
  try clear_value v1
  try clear_value v2
  have h_v3 : Ok v3 := by
    unfold v3
    repeat'
      first
        | with_reducible assumption
        | intro _
        | with_reducible first | apply ok_inc | apply onE_ok | apply encInvalid_ok | apply encEvent_ok | apply ok_ite
        | split
        | dsimp only
  try clear_value v3
  repeat'
    first
      | with_reducible assumption
      | intro _
      | with_reducible first | apply ok_inc | apply onE_ok | apply encInvalid_ok | apply encEvent_ok | apply ok_ite
      | split
      | dsimp only

theorem ssiTake_ok {d : Dev} {nn : Fin 16} {w : Nat} {ok : Bool} (h_d : Ok d) : Ok (ssiTake d nn w ok) := by
  unfold ssiTake
  extract_lets +onlyGivenNames v0 v1 v2 v3 v4
  try clear_value v0
  try clear_value v1
  try clear_value v2
  try clear_value v3
  try clear_value v4
  repeat'
    first
      | with_reducible assumption
      | intro _
      | with_reducible first | apply ok_flag | apply ok_putB | apply onE_ok | apply encCond_ok | apply encValid_ok | apply encAdvance_ok | apply ssiDiscard_ok | apply ok_ite
      | split
      | dsimp only

theorem execSsiTransferEnd_ok {nn : Fin 16} {w : BitVec 40} {stopLow : Bool} {s : State} (h_s : Ok s.dev) : Good s (execSsiTransferEnd nn w stopLow s) := by
  unfold execSsiTransferEnd
  repeat'
    first
      | with_reducible assumption
      | intro _
      | with_reducible first | apply twSend_ok | apply onE_ok | apply ssiTake_ok | apply ok_ite | apply good_stay | apply good_onDev | apply good_onUnit | apply good_onBlock | apply good_onRegion | apply good_onChip | apply good_ite
      | split
      | dsimp only

theorem doReval_ok {d : Dev} {nn : Fin 16} (h_d : Ok d) : Ok (doReval d nn) := by
  unfold doReval
  extract_lets +onlyGivenNames v0 v1
  have h_v0 : Ok v0 := by
    unfold v0
    repeat'
      first
        | with_reducible assumption
        | intro _
        | with_reducible first | apply ok_clr | apply encOk_ok | apply ok_ite
        | split
        | dsimp only
  try clear_value v0
  try clear_value v1
  repeat'
    first
      | with_reducible assumption
      | intro _
      | with_reducible first | apply ok_clr | apply encOk_ok | apply ok_ite
      | split
      | dsimp only

theorem execReval_ok {h : Master} {nn : Fin 16} {w : Word} {s : State} (h_s : Ok s.dev) : Good s (execReval h nn w s) := by
  unfold execReval
  repeat'
    first
      | with_reducible assumption
      | intro _
      | with_reducible first | apply hostW_ok | apply mirHost_ok | apply doReval_ok | apply ok_ite | apply good_stay | apply good_onDev | apply good_onUnit | apply good_onBlock | apply good_onRegion | apply good_onChip | apply good_ite
      | split
      | dsimp only

theorem putWide_ok {ι : Type} {d : Dev} {hi : RF ι} {lo : RF ι} {i : ι} {v : Nat} {signed : Bool} (h_d : Ok d) : Ok (putWide d hi lo i v signed) := by
  unfold putWide
  extract_lets +onlyGivenNames v0 v1
  try clear_value v0
  have h_v1 : Ok v1 := by
    unfold v1
    repeat'
      first
        | with_reducible assumption
        | intro _
        | with_reducible first | apply ok_setReg | apply ok_putS | apply ok_ite
        | split
        | dsimp only
  try clear_value v1
  repeat'
    first
      | with_reducible assumption
      | intro _
      | with_reducible first | apply ok_setReg | apply ok_putS | apply ok_ite
      | split
      | dsimp only

theorem execProbeEdge_ok {nn : Fin 16} {rising : Bool} {s : State} (h_s : Ok s.dev) : Good s (execProbeEdge nn rising s) := by
  unfold execProbeEdge
  repeat'
    first
      | with_reducible assumption
      | intro _
      | with_reducible first | apply ok_flag | apply ok_clr | apply ok_putB | apply ok_inc | apply ok_raise | apply senseEdge_ok | apply putWide_ok | apply ok_ite | apply good_stay | apply good_onDev | apply good_onUnit | apply good_onBlock | apply good_onRegion | apply good_onChip | apply good_ite
      | (with_reducible refine ok_leg ?_ ?_ <;> first | with_reducible assumption | exact fun hg => leg_same hg rfl rfl rfl rfl | skip)
      | (with_reducible refine ok_legs ?_ ?_ <;> first | with_reducible assumption | exact fun _ hg => leg_same hg rfl rfl rfl rfl | skip)
      | (with_reducible refine ok_onB ?_ ?_ <;> first | with_reducible assumption | exact fun _ h => blk_same h rfl rfl rfl | exact fun _ h => blk_noClr h rfl rfl rfl | exact fun _ h => blk_map h rfl rfl rfl fun _ hg => leg_same hg rfl rfl rfl rfl | skip)
      | exact blk_same (by assumption) rfl rfl rfl
      | split
      | dsimp only

theorem doRearm_ok {d : Dev} {nn : Fin 16} (h_d : Ok d) : Ok (doRearm d nn) := by
  unfold doRearm
  repeat'
    first
      | with_reducible assumption
      | intro _
      | with_reducible first | apply ok_flag | apply ok_clr | apply ok_ite
      | split
      | dsimp only

theorem execRearm_ok {h : Master} {nn : Fin 16} {w : Word} {s : State} (h_s : Ok s.dev) : Good s (execRearm h nn w s) := by
  unfold execRearm
  repeat'
    first
      | with_reducible assumption
      | intro _
      | with_reducible first | apply hostW_ok | apply mirHost_ok | apply doRearm_ok | apply ok_ite | apply good_stay | apply good_onDev | apply good_onUnit | apply good_onBlock | apply good_onRegion | apply good_onChip | apply good_ite
      | split
      | dsimp only

theorem senseFlag_ok {d : Dev} {nn : Fin 16} {i : Fin 10} {stuck : Bool} (h_d : Ok d) : Ok (senseFlag d nn i stuck) := by
  unfold senseFlag
  repeat'
    first
      | with_reducible assumption
      | intro _
      | with_reducible first | apply ok_flag | apply ok_ite
      | split
      | dsimp only

theorem execSenseInterval_ok {nn : Fin 16} {i : Fin 10} {lvl : Bool} {s : State} (h_s : Ok s.dev) : Good s (execSenseInterval nn i lvl s) := by
  unfold execSenseInterval
  repeat'
    first
      | with_reducible assumption
      | intro _
      | with_reducible first | apply ok_sendMsg | apply ok_raise | apply senseFlag_ok | apply actRun_ok | apply ok_ite | apply good_stay | apply good_onDev | apply good_onUnit | apply good_onBlock | apply good_onRegion | apply good_onChip | apply good_ite
      | (with_reducible refine ok_leg ?_ ?_ <;> first | with_reducible assumption | exact fun hg => leg_same hg rfl rfl rfl rfl | skip)
      | (with_reducible refine ok_legs ?_ ?_ <;> first | with_reducible assumption | exact fun _ hg => leg_same hg rfl rfl rfl rfl | skip)
      | (with_reducible refine ok_onB ?_ ?_ <;> first | with_reducible assumption | exact fun _ h => blk_same h rfl rfl rfl | exact fun _ h => blk_noClr h rfl rfl rfl | exact fun _ h => blk_map h rfl rfl rfl fun _ hg => leg_same hg rfl rfl rfl rfl | skip)
      | with_reducible refine ok_snd (by assumption) ?_
      | exact blk_same (by assumption) rfl rfl rfl
      | split
      | dsimp only

end Sys2Proof.Machine
end

