-- ==== Sys2Proof/Laws/KeepLegs.lean ====
section
/-! SUPPORT. The invariant kept by every operation of Machine/Legs.lean. -/

set_option linter.unreachableTactic false
set_option linter.unusedTactic false

namespace Sys2Proof.Machine

theorem onL_ok {d : Dev} {k : LIx} {f : Leg → Leg} (h_d : Ok d)
    (hf : Leg.safe (legOf d k) = true → Leg.safe (f (legOf d k)) = true) : Ok (onL d k f) := ok_leg h_d hf

/-- The two outputs are not HIGH together. -/
def apart (gh gl : Lvl) : Prop := ¬ (gh = .high ∧ gl = .high)

theorem edgesSafe_apart {gh gl : Lvl} {es : List LegEdge} (h : edgesSafe gh gl es = true) : apart gh gl := by
  unfold apart
  rintro ⟨rfl, rfl⟩
  cases es <;> simp [edgesSafe] at h

theorem safe_apart {g : Leg} (h : Leg.safe g = true) : apart g.gh g.gl := by
  simp only [Leg.safe, Bool.and_eq_true] at h
  exact edgesSafe_apart h.1

theorem safe_of_edges {g : Leg} (ht : g.tda = false) (h : edgesSafe g.gh g.gl g.edges = true) : Leg.safe g = true := by
  simp [Leg.safe, ht, h]

/-- Edges of the high output alone are safe while the low output is off. -/
theorem edgesSafe_hi {gh gl : Lvl} {es : List LegEdge} (hl : gl ≠ .high) (h : ∀ e ∈ es, e.hi = true) :
    edgesSafe gh gl es = true := by
  induction es generalizing gh with
  | nil => simp [edgesSafe, hl]
  | cons e es ih =>
    have he := h e (by simp)
    simp only [edgesSafe, he, if_true, Bool.and_eq_true]
    exact ⟨by simp [hl], ih fun x hx => h x (by simp [hx])⟩

theorem planEdges_safe {gh gl : Lvl} {dt tot h l : Nat} {t : Option Nat} (ha : apart gh gl) :
    edgesSafe gh gl (planEdges dt tot h l (gh == .high) (gl == .high) t) = true := by
  unfold planEdges apart at *
  revert ha
  cases gh <;> cases gl <;> split_ifs <;> simp_all [edgesSafe, edgeLvl]

theorem refreshEdges_safe {gh gl : Lvl} {dt w : Nat} (ha : apart gh gl) : edgesSafe gh gl (refreshEdges dt w) = true := by
  unfold refreshEdges apart at *
  revert ha
  cases gh <;> cases gl <;> simp [edgesSafe, edgeLvl]

theorem edge_tda (g : Leg) (e : LegEdge) : (g.edge e).tda = g.tda := by
  unfold Leg.edge; dsimp only; split <;> rfl

theorem edge_lvls (g : Leg) (e : LegEdge) :
    (g.edge e).gh = (if e.hi then edgeLvl e.rise else g.gh) ∧ (g.edge e).gl = (if e.hi then g.gl else edgeLvl e.rise) := by
  unfold Leg.edge edgeLvl
  cases e.hi <;> simp

theorem start_tda (g : Leg) (es : List LegEdge) : (Leg.start g es).tda = g.tda := by
  simp only [Leg.start]
  generalize (es.takeWhile fun e => e.step == 0) = now
  induction now generalizing g with
  | nil => rfl
  | cons e now ih => rw [List.foldl_cons, ih, edge_tda]

theorem start_safe {g : Leg} {es : List LegEdge} (h : edgesSafe g.gh g.gl es = true) :
    edgesSafe (Leg.start g es).gh (Leg.start g es).gl (Leg.start g es).edges = true := by
  simp only [Leg.start]
  induction es generalizing g with
  | nil => simpa using h
  | cons e es ih =>
    by_cases hs : e.step = 0
    · simp only [List.takeWhile_cons, List.dropWhile_cons, hs, beq_self_eq_true, if_true, List.foldl_cons]
      refine ih ?_
      simp only [edgesSafe, Bool.and_eq_true] at h
      rw [(edge_lvls g e).1, (edge_lvls g e).2]
      cases he : e.hi <;> simpa [he] using h.2
    · simp only [List.takeWhile_cons, List.dropWhile_cons, beq_iff_eq, hs, if_false, List.foldl_nil]
      exact h

theorem start_edges_mem {g : Leg} {es : List LegEdge} {e : LegEdge} (h : e ∈ (Leg.start g es).edges) : e ∈ es := by
  simp only [Leg.start] at h
  exact List.dropWhile_sublist _ |>.subset h

theorem driven_apart {g : Leg} (h : apart g.gh g.gl) : apart g.driven.gh g.driven.gl := by
  unfold apart Leg.driven at *
  revert h
  cases g.gh <;> cases g.gl <;> simp

/-- A change of a leg that keeps its outputs apart, with no edge to come and TDA not running. -/
theorem onL_ok_same {d : Dev} {k : LIx} {f : Leg → Leg} (h_d : Ok d) (h1 : (f (legOf d k)).gh = (legOf d k).gh)
    (h2 : (f (legOf d k)).gl = (legOf d k).gl) (h3 : (f (legOf d k)).edges = (legOf d k).edges)
    (h4 : (f (legOf d k)).tda = (legOf d k).tda) : Ok (onL d k f) := onL_ok h_d fun h => leg_same h h1 h2 h3 h4

theorem carrierLen_ok {d : Dev} {nn : Fin 16} (h_d : Ok d) : Ok (carrierLen d nn).1 := by
  unfold carrierLen
  dsimp only
  repeat'
    first
      | with_reducible assumption
      | with_reducible first | apply ok_putB | apply ok_putI | apply ok_flag | apply phaseEvent_ok | apply ok_ite
      | split

/-- A chopper's leg: edges of the high output alone (R257). -/
theorem chop_safe {g : Leg} {es : List LegEdge} {gl0 : Lvl} (hg0 : gl0 ≠ .high) (ht : g.tda = false)
    (h : ∀ e ∈ es, e.hi = true) : Leg.safe { Leg.start g es with gl := gl0, on := true } = true :=
  safe_of_edges ((start_tda _ _).trans ht) (edgesSafe_hi hg0 fun _ he => h _ (start_edges_mem (g := g) he))

/-- What a leg does at the start of a period of PWM keeps its outputs apart (R253, R256, R257). -/
theorem pwmLeg_safe {g : Leg} {refresh chop : Bool} {dt w tot h l : Nat} {gl0 : Lvl} (hg0 : gl0 ≠ .high)
    (hs : Leg.safe g = true) :
    Leg.safe (
      let g := g.driven
      let es := if refresh then refreshEdges dt w else planEdges dt tot h l (g.gh == .high) (g.gl == .high) g.tail
      let g := { g with tail := if refresh || chop then none else glTail dt tot h l }
      if chop then
        let es := if h = 0 then [⟨0, true, false⟩] else es.filter fun e => e.hi
        { Leg.start g es with gl := gl0, on := true }
      else { Leg.start g es with on := true }) = true := by
  have ha := driven_apart (safe_apart hs)
  have ht : g.driven.tda = false := rfl
  generalize g.driven = g at *
  dsimp only
  split
  · refine chop_safe hg0 ht fun e he => ?_
    split at he
    · simp only [List.mem_singleton] at he
      subst he; rfl
    · simpa using (List.mem_filter.1 he).2
  · refine safe_of_edges ?_ ?_
    · exact (start_tda _ _).trans ht
    · refine start_safe ?_
      cases refresh
      · exact planEdges_safe ha
      · exact refreshEdges_safe ha

theorem pwmStart_ok {d : Dev} {k : LIx} {len : Nat} (h_d : Ok d) : Ok (pwmStart d k len) := by
  unfold pwmStart
  refine onL_ok ?_ (pwmLeg_safe (s0Low_ne _ _ _))
  repeat'
    first
      | with_reducible assumption
      | with_reducible first | apply ok_setReg | apply ok_put | apply ok_putB | apply ok_flag | apply ok_inc | apply ok_ite

theorem legStopped_ok {d : Dev} {k : LIx} (h_d : Ok d) : Ok (legStopped d k) := by
  unfold legStopped
  exact onL_ok_same (ok_clr (ok_clr (ok_clr (legSafe_ok h_d)))) rfl rfl rfl rfl

theorem stopDone_ok {d : Dev} {nn : Fin 16} (h_d : Ok d) : Ok (stopDone d nn) := by
  unfold stopDone
  repeat'
    first
      | with_reducible assumption
      | intro _
      | with_reducible first | apply ok_put | apply ok_putB | apply blkDone_ok | apply ok_ite
      | split
      | dsimp only

theorem noteResume_ok {d : Dev} {k : LIx} (h_d : Ok d) : Ok (noteResume d k) := by
  unfold noteResume
  repeat'
    first
      | with_reducible assumption
      | intro _
      | with_reducible first | apply ok_put | apply ok_onTw | apply ok_ite
      | split
      | dsimp only

theorem periodStart_ok {d : Dev} {k : LIx} (h_d : Ok d) : Ok (periodStart d k) := by
  unfold periodStart
  extract_lets +onlyGivenNames v0
  try clear_value v0
  repeat'
    first
      | with_reducible assumption
      | intro _
      | with_reducible first | apply ok_inc | apply carrierLen_ok | apply pwmStart_ok | apply legStopped_ok | apply stopDone_ok | apply noteResume_ok | apply ok_ite
      | (with_reducible refine ok_leg ?_ ?_ <;> first | with_reducible assumption | exact fun hg => leg_same hg rfl rfl rfl rfl | skip)
      | (with_reducible refine ok_legs ?_ ?_ <;> first | with_reducible assumption | exact fun _ hg => leg_same hg rfl rfl rfl rfl | skip)
      | (with_reducible refine ok_onB ?_ ?_ <;> first | with_reducible assumption | exact fun _ h => blk_same h rfl rfl rfl | exact fun _ h => blk_noClr h rfl rfl rfl | exact fun _ h => blk_map h rfl rfl rfl fun _ hg => leg_same hg rfl rfl rfl rfl | skip)
      | with_reducible refine ok_fst (by assumption) ?_
      | exact blk_same (by assumption) rfl rfl rfl
      | split
      | dsimp only

theorem execCarrierPeriodStart_ok {nn : Fin 16} {l : Fin 3} {s : State} (h_s : Ok s.dev) : Good s (execCarrierPeriodStart nn l s) := by
  unfold execCarrierPeriodStart
  repeat'
    first
      | with_reducible assumption
      | intro _
      | with_reducible first | apply periodStart_ok | apply ok_ite | apply good_stay | apply good_onDev | apply good_onUnit | apply good_onBlock | apply good_onRegion | apply good_onChip | apply good_ite
      | split
      | dsimp only

theorem nextEdge_ok {d : Dev} {k : LIx} {rise : Bool} (h_d : Ok d) : Ok (nextEdge d k rise) := by
  unfold nextEdge
  refine onL_ok h_d fun hs => ?_
  generalize legOf d k = g at *
  dsimp only
  split
  · rename_i e es he
    split
    · simp only [Leg.safe, he, Bool.and_eq_true, List.isEmpty_cons, Bool.and_false, Bool.or_false, Bool.not_eq_true'] at hs
      refine safe_of_edges ?_ ?_
      · exact (edge_tda g e).trans hs.2
      · have h := hs.1
        simp only [edgesSafe, Bool.and_eq_true] at h
        dsimp only
        rw [(edge_lvls g e).1, (edge_lvls g e).2]
        cases hh : e.hi <;> simpa [hh] using h.2
    · exact hs
  · exact hs

theorem execCompareEdge_ok {nn : Fin 16} {l : Fin 3} {s : State} (h_s : Ok s.dev) : Good s (execCompareEdge nn l s) := by
  unfold execCompareEdge
  repeat'
    first
      | with_reducible assumption
      | intro _
      | with_reducible first | apply nextEdge_ok | apply ok_ite | apply good_stay | apply good_onDev | apply good_onUnit | apply good_onBlock | apply good_onRegion | apply good_onChip | apply good_ite
      | split
      | dsimp only

theorem execDeadTimeExpire_ok {nn : Fin 16} {l : Fin 3} {s : State} (h_s : Ok s.dev) : Good s (execDeadTimeExpire nn l s) := by
  unfold execDeadTimeExpire
  repeat'
    first
      | with_reducible assumption
      | intro _
      | with_reducible first | apply nextEdge_ok | apply ok_ite | apply good_stay | apply good_onDev | apply good_onUnit | apply good_onBlock | apply good_onRegion | apply good_onChip | apply good_ite
      | split
      | dsimp only

/-- Only which outputs are HIGH counts. -/
theorem edgesSafe_congr {gh gh' gl gl' : Lvl} {es : List LegEdge} (h1 : (gh == .high) = (gh' == .high))
    (h2 : (gl == .high) = (gl' == .high)) : edgesSafe gh gl es = edgesSafe gh' gl' es := by
  induction es generalizing gh gh' gl gl' with
  | nil => simp only [edgesSafe, h1, h2]
  | cons e es ih =>
    simp only [edgesSafe, h1, h2]
    cases e.hi
    · simp only [Bool.false_eq_true, if_false, ih h1 rfl]
    · simp only [if_true, ih rfl h2]

/-- One output falls before the other rises (R253). -/
theorem edgesSafe_swap {gh gl : Lvl} {es : List LegEdge} {a b : Nat} {v : Bool} (h : edgesSafe gh gl es = true) :
    edgesSafe gh gl (es ++ [⟨a, !v, false⟩, ⟨b, v, true⟩]) = true := by
  induction es generalizing gh gl with
  | nil =>
    revert h
    cases v <;> cases gh <;> cases gl <;> simp [edgesSafe, edgeLvl]
  | cons e es ih =>
    simp only [edgesSafe, List.cons_append, Bool.and_eq_true] at h ⊢
    refine ⟨h.1, ?_⟩
    cases he : e.hi <;> simp only [he, Bool.false_eq_true, if_false, if_true] at h ⊢ <;> exact ih h.2

theorem driven_high (g : Leg) : (g.driven.gh == .high) = (g.gh == .high) ∧ (g.driven.gl == .high) = (g.gl == .high) := by
  unfold Leg.driven
  cases g.gh <;> cases g.gl <;> simp

theorem setReq_ok {d : Dev} {k : LIx} {v : Bool} {wait : Nat} (h_d : Ok d) : Ok (setReq d k v wait) := by
  unfold setReq
  refine onL_ok h_d fun hs => ?_
  generalize legOf d k = g at *
  dsimp only
  split
  · exact hs
  · refine safe_of_edges ((start_tda _ _).trans rfl) ?_
    have he : edgesSafe g.driven.gh g.driven.gl g.edges = true := by
      rw [edgesSafe_congr (driven_high g).1 (driven_high g).2]
      simp only [Leg.safe, Bool.and_eq_true] at hs
      exact hs.1
    by_cases hw : wait = 0
    · simp only [hw, if_true]
      refine start_safe (edgesSafe_swap (es := []) ?_)
      have ha := edgesSafe_apart he
      unfold apart at ha
      revert ha
      cases g.driven.gh <;> cases g.driven.gl <;> simp [edgesSafe]
    · have hs : ∀ es : List LegEdge, (∀ e ∈ es, e.step ≠ 0) → Leg.start g.driven es = { g.driven with edges := es } := by
        intro es h
        cases es with
        | nil => rfl
        | cons e es => simp [Leg.start, h e (by simp)]
      rw [hs _ (by simp [hw])]
      simp only [hw, if_false]
      exact edgesSafe_swap he

/-- A leg with its planned edges dropped (R259). -/
theorem safe_noEdges {g : Leg} (h : Leg.safe g = true) : Leg.safe { g with edges := [] } = true := by
  have ha := safe_apart h
  unfold apart at ha
  simp only [Leg.safe, Bool.and_eq_true] at h ⊢
  refine ⟨?_, ?_⟩
  · simp only [edgesSafe]
    revert ha
    cases g.gh <;> cases g.gl <;> simp
  · have := h.2
    revert this
    cases g.tda <;> simp
    intro h1 _; exact h1

theorem execPulseRowTake_ok {nn : Fin 16} {s : State} (h_s : Ok s.dev) : Good s (execPulseRowTake nn s) := by
  unfold execPulseRowTake
  refine good_onBlock h_s fun d hd => ?_
  repeat'
    first
      | with_reducible assumption
      | intro _
      | with_reducible first | apply ok_put | apply ok_clr | apply ok_flag | apply ok_ite | apply ok_forAll | apply stopDone_ok | apply legStopped_ok | apply legsForget_ok | apply noteResume_ok | apply setReq_ok
      | (with_reducible refine ok_onB ?_ ?_ <;> first | with_reducible assumption | exact fun _ h => blk_same h rfl rfl rfl | exact fun _ h => blk_noClr h rfl rfl rfl | exact fun _ h => blk_map h rfl rfl rfl fun _ hg => leg_same (safe_noEdges hg) rfl rfl rfl rfl | exact fun _ h => blk_map h rfl rfl rfl fun _ hg => leg_same hg rfl rfl rfl rfl | skip)
      | split
      | dsimp only

theorem execPulseTableEdge_ok {nn : Fin 16} {s : State} (h_s : Ok s.dev) : Good s (execPulseTableEdge nn s) := by
  unfold execPulseTableEdge
  repeat'
    first
      | with_reducible assumption
      | intro _
      | with_reducible first | apply setReq_ok | apply ok_ite | apply good_stay | apply good_onDev | apply good_onUnit | apply good_onBlock | apply good_onRegion | apply good_onChip | apply good_ite
      | (with_reducible refine ok_leg ?_ ?_ <;> first | with_reducible assumption | exact fun hg => leg_same hg rfl rfl rfl rfl | skip)
      | (with_reducible refine ok_legs ?_ ?_ <;> first | with_reducible assumption | exact fun _ hg => leg_same hg rfl rfl rfl rfl | skip)
      | (with_reducible refine ok_onB ?_ ?_ <;> first | with_reducible assumption | exact fun _ h => blk_same h rfl rfl rfl | exact fun _ h => blk_noClr h rfl rfl rfl | exact fun _ h => blk_map h rfl rfl rfl fun _ hg => leg_same hg rfl rfl rfl rfl | skip)
      | exact blk_same (by assumption) rfl rfl rfl
      | split
      | (refine onL_ok_same ?_ rfl rfl rfl rfl)
      | dsimp only

end Sys2Proof.Machine
end

