-- ==== Sys2Proof/Laws/KeepQuench.lean ====
section
/-! SUPPORT. The invariant kept by every operation of Machine/Quench.lean. -/

set_option linter.unreachableTactic false
set_option linter.unusedTactic false

namespace Sys2Proof.Machine

theorem actSync_ok {d : Dev} {nn : Fin 16} (h_d : Ok d) : Ok (actSync d nn) := by
  unfold actSync
  repeat'
    first
      | with_reducible assumption
      | intro _
      | with_reducible first | apply quench_ok | apply ok_ite
      | split
      | dsimp only

theorem tripBall_ok {d : Dev} {nn : Fin 16} {b : Bool} {lvl : Bool} (h_d : Ok d) : Ok (tripBall d nn b lvl) := by
  unfold tripBall
  repeat'
    first
      | with_reducible assumption
      | intro _
      | with_reducible first | apply ok_ite
      | (with_reducible refine ok_leg ?_ ?_ <;> first | with_reducible assumption | exact fun hg => leg_same hg rfl rfl rfl rfl | skip)
      | (with_reducible refine ok_legs ?_ ?_ <;> first | with_reducible assumption | exact fun _ hg => leg_same hg rfl rfl rfl rfl | skip)
      | (with_reducible refine ok_onB ?_ ?_ <;> first | with_reducible assumption | exact fun _ h => blk_same h rfl rfl rfl | exact fun _ h => blk_noClr h rfl rfl rfl | exact fun _ h => blk_map h rfl rfl rfl fun _ hg => leg_same hg rfl rfl rfl rfl | skip)
      | exact blk_same (by assumption) rfl rfl rfl
      | split
      | dsimp only

theorem execTripInput_ok {nn : Fin 16} {b : Bool} {s : State} (h_s : Ok s.dev) : Good s (execTripInput nn b s) := by
  unfold execTripInput
  repeat'
    first
      | with_reducible assumption
      | intro _
      | with_reducible first | apply quench_ok | apply tripBall_ok | apply ok_ite | apply good_stay | apply good_onDev | apply good_onUnit | apply good_onBlock | apply good_onRegion | apply good_onChip | apply good_ite
      | split
      | dsimp only

theorem execQinInput_ok {s : State} (h_s : Ok s.dev) : Good s (execQinInput s) := by
  unfold execQinInput
  repeat'
    first
      | with_reducible assumption
      | intro _
      | with_reducible first | apply quench_ok | apply ok_ite | apply ok_forAll | apply good_stay | apply good_onDev | apply good_onUnit | apply good_onBlock | apply good_onRegion | apply good_onChip | apply good_ite
      | split
      | with_reducible apply ok_mk

theorem execTwqInput_ok {s : State} (h_s : Ok s.dev) : Good s (execTwqInput s) := by
  unfold execTwqInput
  repeat'
    first
      | with_reducible assumption
      | intro _
      | with_reducible first | apply ok_onTw | apply quench_ok | apply ok_ite | apply ok_forAll | apply good_stay | apply good_onDev | apply good_onUnit | apply good_onBlock | apply good_onRegion | apply good_onChip | apply good_ite
      | split
      | dsimp only

theorem execDbgHalt_ok {s : State} (h_s : Ok s.dev) : Good s (execDbgHalt s) := by
  unfold execDbgHalt
  repeat'
    first
      | with_reducible assumption
      | intro _
      | with_reducible first | apply quench_ok | apply ok_ite | apply ok_forAll | apply good_stay | apply good_onDev | apply good_onUnit | apply good_onBlock | apply good_onRegion | apply good_onChip | apply good_ite
      | split
      | with_reducible apply ok_mk

theorem execJtagHalt_ok {s : State} (h_s : Ok s.dev) : Good s (execJtagHalt s) := by
  unfold execJtagHalt
  repeat'
    first
      | with_reducible assumption
      | intro _
      | with_reducible first | apply quench_ok | apply ok_ite | apply ok_forAll | apply good_stay | apply good_onDev | apply good_onUnit | apply good_onBlock | apply good_onRegion | apply good_onChip | apply good_ite
      | split
      | with_reducible apply ok_mk

theorem execQuenchInputRelease_ok {i : QInput} {s : State} (h_s : Ok s.dev) : Good s (execQuenchInputRelease i s) := by
  unfold execQuenchInputRelease
  repeat'
    first
      | with_reducible assumption
      | intro _
      | with_reducible first | apply ok_onTw | apply tripBall_ok | apply ok_ite | apply good_stay | apply good_onDev | apply good_onUnit | apply good_onBlock | apply good_onRegion | apply good_onChip | apply good_ite
      | split
      | with_reducible apply ok_mk

theorem execTdaExpire_ok {nn : Fin 16} {l : Fin 3} {s : State} (h_s : Ok s.dev) : Good s (execTdaExpire nn l s) := by
  unfold execTdaExpire
  refine good_onDev h_s fun d hd => ?_
  split
  · rename_i hc
    refine onL_ok hd fun hs => ?_
    have ht := hc.1
    generalize legOf d (nn, l) = g at *
    simp only [Leg.safe, ht, Bool.not_true, Bool.false_or, Bool.and_eq_true, bne_iff_ne, ne_eq, List.isEmpty_iff] at hs
    refine safe_of_edges rfl ?_
    simp [edgesSafe, hs.2.1, hs.2.2]
  · exact hd

theorem clearNote_ok {d : Dev} {nn : Fin 16} (h_d : Ok d) : Ok (clearNote d nn) := by
  refine ok_onB h_d fun b hb => ?_
  have h := blk_iff.1 hb
  refine blk_iff.2 ⟨h.1, h.2.1, fun e he => ?_⟩
  simp only [Option.some.injEq] at he
  subst he
  exact h.1

theorem latchClear_ok {d : Dev} {nn : Fin 16} (h_d : Ok d) : Ok (latchClear d nn) := by
  unfold latchClear
  extract_lets +onlyGivenNames v0 v1
  have h_v0 : Ok v0 := by
    unfold v0
    repeat'
      first
        | with_reducible assumption
        | intro _
        | with_reducible first | apply ok_put | apply ok_clr | apply legsSafe_ok | apply clearNote_ok | apply ok_ite
        | split
        | dsimp only
  try clear_value v0
  have h_v1 : Ok v1 := by
    unfold v1
    repeat'
      first
        | with_reducible assumption
        | intro _
        | with_reducible first | apply ok_put | apply ok_clr | apply legsSafe_ok | apply clearNote_ok | apply ok_ite
        | split
        | dsimp only
  try clear_value v1
  repeat'
    first
      | with_reducible assumption
      | intro _
      | with_reducible first | apply ok_put | apply ok_clr | apply legsSafe_ok | apply clearNote_ok | apply ok_ite
      | split
      | dsimp only

theorem tryClear_ok {d : Dev} {nn : Fin 16} {act : Nat} (h_d : Ok d) : Ok (tryClear d nn act) := by
  unfold tryClear
  repeat'
    first
      | with_reducible assumption
      | intro _
      | with_reducible first | apply ok_flag | apply latchClear_ok | apply ok_ite
      | split
      | dsimp only

theorem qctlWrite_ok {d : Dev} {nn : Fin 16} {cmds : Nat} {mir : Bool} (h_d : Ok d) : Ok (qctlWrite d nn cmds mir) := by
  unfold qctlWrite
  extract_lets +onlyGivenNames v0 v1 v2
  have h_v0 : Ok v0 := by
    unfold v0
    repeat'
      first
        | with_reducible assumption
        | intro _
        | with_reducible first | apply ok_clr | apply quench_ok | apply tryClear_ok | apply ok_ite
        | split
        | dsimp only
  try clear_value v0
  try clear_value v1
  have h_v2 : Ok v2 := by
    unfold v2
    repeat'
      first
        | with_reducible assumption
        | intro _
        | with_reducible first | apply ok_clr | apply quench_ok | apply tryClear_ok | apply ok_ite
        | split
        | dsimp only
  try clear_value v2
  repeat'
    first
      | with_reducible assumption
      | intro _
      | with_reducible first | apply ok_clr | apply quench_ok | apply tryClear_ok | apply ok_ite
      | split
      | dsimp only

theorem qctlHost_ok {s : State} {h : Master} {nn : Fin 16} {w : Word} (h_s : Ok s.dev) : Good s (qctlHost s h nn w) := by
  unfold qctlHost
  repeat'
    first
      | with_reducible assumption
      | intro _
      | with_reducible first | apply hostCmd_ok | apply unguard_ok | apply mirHost_ok | apply qctlWrite_ok | apply ok_ite | apply good_stay | apply good_onDev | apply good_onUnit | apply good_onBlock | apply good_onRegion | apply good_onChip | apply good_ite
      | split
      | dsimp only

theorem execSoftQuench_ok {h : Master} {nn : Fin 16} {w : Word} {s : State} (h_s : Ok s.dev) : Good s (execSoftQuench h nn w s) := by
  unfold execSoftQuench
  repeat'
    first
      | with_reducible assumption
      | intro _
      | with_reducible first | apply qctlHost_ok | apply ok_ite | apply good_stay | apply good_onDev | apply good_onUnit | apply good_onBlock | apply good_onRegion | apply good_onChip | apply good_ite
      | split
      | dsimp only

theorem execQuenchClear_ok {h : Master} {nn : Fin 16} {w : Word} {s : State} (h_s : Ok s.dev) : Good s (execQuenchClear h nn w s) := by
  unfold execQuenchClear
  repeat'
    first
      | with_reducible assumption
      | intro _
      | with_reducible first | apply qctlHost_ok | apply ok_ite | apply good_stay | apply good_onDev | apply good_onUnit | apply good_onBlock | apply good_onRegion | apply good_onChip | apply good_ite
      | split
      | dsimp only

end Sys2Proof.Machine
end

