-- ==== Sys2Proof/Laws/KeepRunner.lean ====
section
/-! SUPPORT. The invariant kept by every operation of Machine/Runner.lean. -/

set_option linter.unreachableTactic false
set_option linter.unusedTactic false

namespace Sys2Proof.Machine

theorem setPending_ok {d : Dev} {nn : Fin 16} (h_d : Ok d) : Ok (setPending d nn) := by
  unfold setPending
  repeat'
    first
      | with_reducible assumption
      | intro _
      | with_reducible first | apply ok_putB | apply ok_ite
      | split
      | dsimp only

theorem dropHost_ok {d : Dev} {nn : Fin 16} {ref : Bool} (h_d : Ok d) : Ok (dropHost d nn ref) := by
  unfold dropHost
  repeat'
    first
      | with_reducible assumption
      | intro _
      | with_reducible first | apply ok_flag | apply ok_clr | apply ok_ite
      | (with_reducible refine ok_leg ?_ ?_ <;> first | with_reducible assumption | exact fun hg => leg_same hg rfl rfl rfl rfl | skip)
      | (with_reducible refine ok_legs ?_ ?_ <;> first | with_reducible assumption | exact fun _ hg => leg_same hg rfl rfl rfl rfl | skip)
      | (with_reducible refine ok_onB ?_ ?_ <;> first | with_reducible assumption | exact fun _ h => blk_same h rfl rfl rfl | exact fun _ h => blk_noClr h rfl rfl rfl | exact fun _ h => blk_map h rfl rfl rfl fun _ hg => leg_same hg rfl rfl rfl rfl | skip)
      | exact blk_same (by assumption) rfl rfl rfl
      | split
      | dsimp only

theorem dropTrig_ok {d : Dev} {nn : Fin 16} {ref : Bool} (h_d : Ok d) : Ok (dropTrig d nn ref) := by
  unfold dropTrig
  repeat'
    first
      | with_reducible assumption
      | intro _
      | with_reducible first | apply ok_flag | apply ok_ite
      | (with_reducible refine ok_leg ?_ ?_ <;> first | with_reducible assumption | exact fun hg => leg_same hg rfl rfl rfl rfl | skip)
      | (with_reducible refine ok_legs ?_ ?_ <;> first | with_reducible assumption | exact fun _ hg => leg_same hg rfl rfl rfl rfl | skip)
      | (with_reducible refine ok_onB ?_ ?_ <;> first | with_reducible assumption | exact fun _ h => blk_same h rfl rfl rfl | exact fun _ h => blk_noClr h rfl rfl rfl | exact fun _ h => blk_map h rfl rfl rfl fun _ hg => leg_same hg rfl rfl rfl rfl | skip)
      | exact blk_same (by assumption) rfl rfl rfl
      | split
      | dsimp only

theorem hspCopy_ok {d : Dev} {nn : Fin 16} (h_d : Ok d) : Ok (hspCopy d nn) := by
  unfold hspCopy
  repeat'
    first
      | with_reducible assumption
      | intro _
      | with_reducible first | apply ok_ite | apply ok_forAll
      | (with_reducible refine ok_leg ?_ ?_ <;> first | with_reducible assumption | exact fun hg => leg_same hg rfl rfl rfl rfl | skip)
      | (with_reducible refine ok_legs ?_ ?_ <;> first | with_reducible assumption | exact fun _ hg => leg_same hg rfl rfl rfl rfl | skip)
      | (with_reducible refine ok_onB ?_ ?_ <;> first | with_reducible assumption | exact fun _ h => blk_same h rfl rfl rfl | exact fun _ h => blk_noClr h rfl rfl rfl | exact fun _ h => blk_map h rfl rfl rfl fun _ hg => leg_same hg rfl rfl rfl rfl | skip)
      | exact blk_same (by assumption) rfl rfl rfl
      | split
      | dsimp only

theorem hspCommit_ok {d : Dev} {nn : Fin 16} (h_d : Ok d) : Ok (hspCommit d nn) := by
  unfold hspCommit
  repeat'
    first
      | with_reducible assumption
      | intro _
      | with_reducible first | apply ok_inc | apply ok_cmdDone | apply hspCopy_ok | apply ok_ite
      | split
      | dsimp only

theorem hspHeld_ok {d : Dev} {nn : Fin 16} (h_d : Ok d) : Ok (hspHeld d nn) := by
  unfold hspHeld
  extract_lets +onlyGivenNames v0
  have h_v0 : Ok v0 := by
    unfold v0
    repeat'
      first
        | with_reducible assumption
        | intro _
        | with_reducible first | apply hspCommit_ok | apply ok_ite
        | split
        | dsimp only
  try clear_value v0
  repeat'
    first
      | with_reducible assumption
      | intro _
      | with_reducible first | apply hspCommit_ok | apply ok_ite
      | split
      | dsimp only

theorem heldEntry_ok {d : Dev} {nn : Fin 16} (h_d : Ok d) : Ok (heldEntry d nn) := by
  unfold heldEntry
  extract_lets +onlyGivenNames v0 v1 v2 v3 v4
  have h_v0 : Ok v0 := by
    unfold v0
    repeat'
      first
        | with_reducible assumption
        | intro _
        | with_reducible first | apply ok_put | apply ok_clr | apply setSwapPend_ok | apply dropHost_ok | apply dropTrig_ok | apply hspHeld_ok | apply ok_ite
        | (with_reducible refine ok_leg ?_ ?_ <;> first | with_reducible assumption | exact fun hg => leg_same hg rfl rfl rfl rfl | skip)
        | (with_reducible refine ok_legs ?_ ?_ <;> first | with_reducible assumption | exact fun _ hg => leg_same hg rfl rfl rfl rfl | skip)
        | (with_reducible refine ok_onB ?_ ?_ <;> first | with_reducible assumption | exact fun _ h => blk_same h rfl rfl rfl | exact fun _ h => blk_noClr h rfl rfl rfl | exact fun _ h => blk_map h rfl rfl rfl fun _ hg => leg_same hg rfl rfl rfl rfl | skip)
        | exact blk_same (by assumption) rfl rfl rfl
        | split
        | dsimp only
  try clear_value v0
  have h_v1 : Ok v1 := by
    unfold v1
    repeat'
      first
        | with_reducible assumption
        | intro _
        | with_reducible first | apply ok_put | apply ok_clr | apply setSwapPend_ok | apply dropHost_ok | apply dropTrig_ok | apply hspHeld_ok | apply ok_ite
        | (with_reducible refine ok_leg ?_ ?_ <;> first | with_reducible assumption | exact fun hg => leg_same hg rfl rfl rfl rfl | skip)
        | (with_reducible refine ok_legs ?_ ?_ <;> first | with_reducible assumption | exact fun _ hg => leg_same hg rfl rfl rfl rfl | skip)
        | (with_reducible refine ok_onB ?_ ?_ <;> first | with_reducible assumption | exact fun _ h => blk_same h rfl rfl rfl | exact fun _ h => blk_noClr h rfl rfl rfl | exact fun _ h => blk_map h rfl rfl rfl fun _ hg => leg_same hg rfl rfl rfl rfl | skip)
        | exact blk_same (by assumption) rfl rfl rfl
        | split
        | dsimp only
  try clear_value v1
  have h_v2 : Ok v2 := by
    unfold v2
    repeat'
      first
        | with_reducible assumption
        | intro _
        | with_reducible first | apply ok_put | apply ok_clr | apply setSwapPend_ok | apply dropHost_ok | apply dropTrig_ok | apply hspHeld_ok | apply ok_ite
        | (with_reducible refine ok_leg ?_ ?_ <;> first | with_reducible assumption | exact fun hg => leg_same hg rfl rfl rfl rfl | skip)
        | (with_reducible refine ok_legs ?_ ?_ <;> first | with_reducible assumption | exact fun _ hg => leg_same hg rfl rfl rfl rfl | skip)
        | (with_reducible refine ok_onB ?_ ?_ <;> first | with_reducible assumption | exact fun _ h => blk_same h rfl rfl rfl | exact fun _ h => blk_noClr h rfl rfl rfl | exact fun _ h => blk_map h rfl rfl rfl fun _ hg => leg_same hg rfl rfl rfl rfl | skip)
        | exact blk_same (by assumption) rfl rfl rfl
        | split
        | dsimp only
  try clear_value v2
  have h_v3 : Ok v3 := by
    unfold v3
    repeat'
      first
        | with_reducible assumption
        | intro _
        | with_reducible first | apply ok_put | apply ok_clr | apply setSwapPend_ok | apply dropHost_ok | apply dropTrig_ok | apply hspHeld_ok | apply ok_ite
        | (with_reducible refine ok_leg ?_ ?_ <;> first | with_reducible assumption | exact fun hg => leg_same hg rfl rfl rfl rfl | skip)
        | (with_reducible refine ok_legs ?_ ?_ <;> first | with_reducible assumption | exact fun _ hg => leg_same hg rfl rfl rfl rfl | skip)
        | (with_reducible refine ok_onB ?_ ?_ <;> first | with_reducible assumption | exact fun _ h => blk_same h rfl rfl rfl | exact fun _ h => blk_noClr h rfl rfl rfl | exact fun _ h => blk_map h rfl rfl rfl fun _ hg => leg_same hg rfl rfl rfl rfl | skip)
        | exact blk_same (by assumption) rfl rfl rfl
        | split
        | dsimp only
  try clear_value v3
  have h_v4 : Ok v4 := by
    unfold v4
    repeat'
      first
        | with_reducible assumption
        | intro _
        | with_reducible first | apply ok_put | apply ok_clr | apply setSwapPend_ok | apply dropHost_ok | apply dropTrig_ok | apply hspHeld_ok | apply ok_ite
        | (with_reducible refine ok_leg ?_ ?_ <;> first | with_reducible assumption | exact fun hg => leg_same hg rfl rfl rfl rfl | skip)
        | (with_reducible refine ok_legs ?_ ?_ <;> first | with_reducible assumption | exact fun _ hg => leg_same hg rfl rfl rfl rfl | skip)
        | (with_reducible refine ok_onB ?_ ?_ <;> first | with_reducible assumption | exact fun _ h => blk_same h rfl rfl rfl | exact fun _ h => blk_noClr h rfl rfl rfl | exact fun _ h => blk_map h rfl rfl rfl fun _ hg => leg_same hg rfl rfl rfl rfl | skip)
        | exact blk_same (by assumption) rfl rfl rfl
        | split
        | dsimp only
  try clear_value v4
  repeat'
    first
      | with_reducible assumption
      | intro _
      | with_reducible first | apply ok_put | apply ok_clr | apply setSwapPend_ok | apply dropHost_ok | apply dropTrig_ok | apply hspHeld_ok | apply ok_ite
      | (with_reducible refine ok_leg ?_ ?_ <;> first | with_reducible assumption | exact fun hg => leg_same hg rfl rfl rfl rfl | skip)
      | (with_reducible refine ok_legs ?_ ?_ <;> first | with_reducible assumption | exact fun _ hg => leg_same hg rfl rfl rfl rfl | skip)
      | (with_reducible refine ok_onB ?_ ?_ <;> first | with_reducible assumption | exact fun _ h => blk_same h rfl rfl rfl | exact fun _ h => blk_noClr h rfl rfl rfl | exact fun _ h => blk_map h rfl rfl rfl fun _ hg => leg_same hg rfl rfl rfl rfl | skip)
      | exact blk_same (by assumption) rfl rfl rfl
      | split
      | dsimp only

theorem disarmDone_ok {d : Dev} {nn : Fin 16} (h_d : Ok d) : Ok (disarmDone d nn) := by
  unfold disarmDone
  repeat'
    first
      | with_reducible assumption
      | intro _
      | with_reducible first | apply blkDone_ok | apply setPending_ok | apply heldEntry_ok | apply ok_ite
      | split
      | dsimp only

theorem evalTrigger_ok {d : Dev} {nn : Fin 16} (h_d : Ok d) : Ok (evalTrigger d nn) := by
  unfold evalTrigger
  extract_lets +onlyGivenNames v0 v1
  try clear_value v0
  try clear_value v1
  repeat'
    first
      | with_reducible assumption
      | intro _
      | with_reducible first | apply setSwapPend_ok | apply ok_ite
      | (with_reducible refine ok_leg ?_ ?_ <;> first | with_reducible assumption | exact fun hg => leg_same hg rfl rfl rfl rfl | skip)
      | (with_reducible refine ok_legs ?_ ?_ <;> first | with_reducible assumption | exact fun _ hg => leg_same hg rfl rfl rfl rfl | skip)
      | (with_reducible refine ok_onB ?_ ?_ <;> first | with_reducible assumption | exact fun _ h => blk_same h rfl rfl rfl | exact fun _ h => blk_noClr h rfl rfl rfl | exact fun _ h => blk_map h rfl rfl rfl fun _ hg => leg_same hg rfl rfl rfl rfl | skip)
      | exact blk_same (by assumption) rfl rfl rfl
      | split
      | dsimp only

theorem suspectClear_ok {d : Dev} (h_d : Ok d) : Ok (suspectClear d) := by
  unfold suspectClear
  repeat'
    first
      | with_reducible assumption
      | intro _
      | with_reducible first | apply ok_clr | apply ok_onTw | apply ok_ite
      | split
      | dsimp only

theorem matched_ok {d : Dev} {nn : Fin 16} (h_d : Ok d) : Ok (matched d nn) := by
  unfold matched
  repeat'
    first
      | with_reducible assumption
      | intro _
      | with_reducible first | apply ok_clr | apply ok_onTw | apply suspectClear_ok | apply ok_ite
      | split
      | dsimp only

theorem sendDigest_ok {d : Dev} {nn : Fin 16} (h_d : Ok d) : Ok (sendDigest d nn) := by
  unfold sendDigest
  split
  all_goals
    repeat'
      first
        | with_reducible assumption
        | intro _
        | with_reducible first | apply ok_onTw | apply twSend_ok | apply matched_ok | apply ok_ite
        | (with_reducible refine ok_leg ?_ ?_ <;> first | with_reducible assumption | exact fun hg => leg_same hg rfl rfl rfl rfl | skip)
        | (with_reducible refine ok_legs ?_ ?_ <;> first | with_reducible assumption | exact fun _ hg => leg_same hg rfl rfl rfl rfl | skip)
        | (with_reducible refine ok_onB ?_ ?_ <;> first | with_reducible assumption | exact fun _ h => blk_same h rfl rfl rfl | exact fun _ h => blk_noClr h rfl rfl rfl | exact fun _ h => blk_map h rfl rfl rfl fun _ hg => leg_same hg rfl rfl rfl rfl | skip)
        | exact blk_same (by assumption) rfl rfl rfl
        | split
        | dsimp only

theorem rsyStart_ok {d : Dev} {nn : Fin 16} (h_d : Ok d) : Ok (rsyStart d nn) := by
  unfold rsyStart
  repeat'
    first
      | with_reducible assumption
      | intro _
      | with_reducible first | apply ok_onTw | apply twSend_ok | apply ok_ite
      | split
      | dsimp only

theorem onLog_ok {d : Dev} {nn : Fin 16} {f : CycLog → CycLog} (h_d : Ok d) : Ok (onLog d nn f) := by
  unfold onLog
  repeat'
    first
      | with_reducible assumption
      | intro _
      | with_reducible first | apply ok_onTw | apply ok_ite
      | split
      | dsimp only

theorem logIn_ok {d : Dev} {nn : Fin 16} {es : List Nat} (h_d : Ok d) : Ok (logIn d nn es) := by
  unfold logIn
  extract_lets +onlyGivenNames v0
  try clear_value v0
  repeat'
    first
      | with_reducible assumption
      | intro _
      | with_reducible first | apply onLog_ok | apply ok_ite
      | (with_reducible refine ok_leg ?_ ?_ <;> first | with_reducible assumption | exact fun hg => leg_same hg rfl rfl rfl rfl | skip)
      | (with_reducible refine ok_legs ?_ ?_ <;> first | with_reducible assumption | exact fun _ hg => leg_same hg rfl rfl rfl rfl | skip)
      | split
      | dsimp only

theorem logCycle_ok {d : Dev} {nn : Fin 16} (h_d : Ok d) : Ok (logCycle d nn) := by
  unfold logCycle
  split
  all_goals
    repeat'
      first
        | with_reducible assumption
        | intro _
        | with_reducible first | apply twSend_ok | apply onLog_ok | apply ok_ite
        | (with_reducible refine ok_leg ?_ ?_ <;> first | with_reducible assumption | exact fun hg => leg_same hg rfl rfl rfl rfl | skip)
        | (with_reducible refine ok_legs ?_ ?_ <;> first | with_reducible assumption | exact fun _ hg => leg_same hg rfl rfl rfl rfl | skip)
        | split
        | dsimp only

theorem cycleDone_ok {d : Dev} {nn : Fin 16} (h_d : Ok d) : Ok (cycleDone d nn) := by
  unfold cycleDone
  extract_lets +onlyGivenNames v0 v1 v2 v3 v4 v5 v6 v7
  try clear_value v0
  have h_v1 : Ok v1 := by
    unfold v1
    repeat'
      first
        | with_reducible assumption
        | intro _
        | with_reducible first | apply ok_flag | apply ok_clr | apply disarmDone_ok | apply evalTrigger_ok | apply logCycle_ok | apply ok_ite
        | (with_reducible refine ok_leg ?_ ?_ <;> first | with_reducible assumption | exact fun hg => leg_same hg rfl rfl rfl rfl | skip)
        | (with_reducible refine ok_legs ?_ ?_ <;> first | with_reducible assumption | exact fun _ hg => leg_same hg rfl rfl rfl rfl | skip)
        | (with_reducible refine ok_onB ?_ ?_ <;> first | with_reducible assumption | exact fun _ h => blk_same h rfl rfl rfl | exact fun _ h => blk_noClr h rfl rfl rfl | exact fun _ h => blk_map h rfl rfl rfl fun _ hg => leg_same hg rfl rfl rfl rfl | skip)
        | exact blk_same (by assumption) rfl rfl rfl
        | split
        | dsimp only
  try clear_value v1
  have h_v2 : Ok v2 := by
    unfold v2
    repeat'
      first
        | with_reducible assumption
        | intro _
        | with_reducible first | apply ok_flag | apply ok_clr | apply disarmDone_ok | apply evalTrigger_ok | apply logCycle_ok | apply ok_ite
        | (with_reducible refine ok_leg ?_ ?_ <;> first | with_reducible assumption | exact fun hg => leg_same hg rfl rfl rfl rfl | skip)
        | (with_reducible refine ok_legs ?_ ?_ <;> first | with_reducible assumption | exact fun _ hg => leg_same hg rfl rfl rfl rfl | skip)
        | (with_reducible refine ok_onB ?_ ?_ <;> first | with_reducible assumption | exact fun _ h => blk_same h rfl rfl rfl | exact fun _ h => blk_noClr h rfl rfl rfl | exact fun _ h => blk_map h rfl rfl rfl fun _ hg => leg_same hg rfl rfl rfl rfl | skip)
        | exact blk_same (by assumption) rfl rfl rfl
        | split
        | dsimp only
  try clear_value v2
  try clear_value v3
  try clear_value v4
  have h_v5 : Ok v5 := by
    unfold v5
    repeat'
      first
        | with_reducible assumption
        | intro _
        | with_reducible first | apply ok_flag | apply ok_clr | apply disarmDone_ok | apply evalTrigger_ok | apply logCycle_ok | apply ok_ite
        | (with_reducible refine ok_leg ?_ ?_ <;> first | with_reducible assumption | exact fun hg => leg_same hg rfl rfl rfl rfl | skip)
        | (with_reducible refine ok_legs ?_ ?_ <;> first | with_reducible assumption | exact fun _ hg => leg_same hg rfl rfl rfl rfl | skip)
        | (with_reducible refine ok_onB ?_ ?_ <;> first | with_reducible assumption | exact fun _ h => blk_same h rfl rfl rfl | exact fun _ h => blk_noClr h rfl rfl rfl | exact fun _ h => blk_map h rfl rfl rfl fun _ hg => leg_same hg rfl rfl rfl rfl | skip)
        | exact blk_same (by assumption) rfl rfl rfl
        | split
        | dsimp only
  try clear_value v5
  have h_v6 : Ok v6 := by
    unfold v6
    repeat'
      first
        | with_reducible assumption
        | intro _
        | with_reducible first | apply ok_flag | apply ok_clr | apply disarmDone_ok | apply evalTrigger_ok | apply logCycle_ok | apply ok_ite
        | (with_reducible refine ok_leg ?_ ?_ <;> first | with_reducible assumption | exact fun hg => leg_same hg rfl rfl rfl rfl | skip)
        | (with_reducible refine ok_legs ?_ ?_ <;> first | with_reducible assumption | exact fun _ hg => leg_same hg rfl rfl rfl rfl | skip)
        | (with_reducible refine ok_onB ?_ ?_ <;> first | with_reducible assumption | exact fun _ h => blk_same h rfl rfl rfl | exact fun _ h => blk_noClr h rfl rfl rfl | exact fun _ h => blk_map h rfl rfl rfl fun _ hg => leg_same hg rfl rfl rfl rfl | skip)
        | exact blk_same (by assumption) rfl rfl rfl
        | split
        | dsimp only
  try clear_value v6
  have h_v7 : Ok v7 := by
    unfold v7
    repeat'
      first
        | with_reducible assumption
        | intro _
        | with_reducible first | apply ok_flag | apply ok_clr | apply disarmDone_ok | apply evalTrigger_ok | apply logCycle_ok | apply ok_ite
        | (with_reducible refine ok_leg ?_ ?_ <;> first | with_reducible assumption | exact fun hg => leg_same hg rfl rfl rfl rfl | skip)
        | (with_reducible refine ok_legs ?_ ?_ <;> first | with_reducible assumption | exact fun _ hg => leg_same hg rfl rfl rfl rfl | skip)
        | (with_reducible refine ok_onB ?_ ?_ <;> first | with_reducible assumption | exact fun _ h => blk_same h rfl rfl rfl | exact fun _ h => blk_noClr h rfl rfl rfl | exact fun _ h => blk_map h rfl rfl rfl fun _ hg => leg_same hg rfl rfl rfl rfl | skip)
        | exact blk_same (by assumption) rfl rfl rfl
        | split
        | dsimp only
  try clear_value v7
  repeat'
    first
      | with_reducible assumption
      | intro _
      | with_reducible first | apply ok_flag | apply ok_clr | apply disarmDone_ok | apply evalTrigger_ok | apply logCycle_ok | apply ok_ite
      | (with_reducible refine ok_leg ?_ ?_ <;> first | with_reducible assumption | exact fun hg => leg_same hg rfl rfl rfl rfl | skip)
      | (with_reducible refine ok_legs ?_ ?_ <;> first | with_reducible assumption | exact fun _ hg => leg_same hg rfl rfl rfl rfl | skip)
      | (with_reducible refine ok_onB ?_ ?_ <;> first | with_reducible assumption | exact fun _ h => blk_same h rfl rfl rfl | exact fun _ h => blk_noClr h rfl rfl rfl | exact fun _ h => blk_map h rfl rfl rfl fun _ hg => leg_same hg rfl rfl rfl rfl | skip)
      | exact blk_same (by assumption) rfl rfl rfl
      | split
      | dsimp only

theorem skipDrops_ok {d : Dev} {nn : Fin 16} (h_d : Ok d) : Ok (skipDrops d nn) := by
  unfold skipDrops
  extract_lets +onlyGivenNames v0 v1 v2 v3 v4
  try clear_value v0
  try clear_value v1
  try clear_value v2
  try clear_value v3
  have h_v4 : Ok v4 := by
    unfold v4
    repeat'
      first
        | with_reducible assumption
        | intro _
        | with_reducible first | apply ok_put | apply ok_incBy | apply ok_putB | apply cycleDone_ok | apply ok_ite
        | split
        | dsimp only
  try clear_value v4
  repeat'
    first
      | with_reducible assumption
      | intro _
      | with_reducible first | apply ok_put | apply ok_incBy | apply ok_putB | apply cycleDone_ok | apply ok_ite
      | split
      | dsimp only

theorem slotNext_ok {d : Dev} {nn : Fin 16} (h_d : Ok d) : Ok (slotNext d nn) := by
  unfold slotNext
  extract_lets +onlyGivenNames v0
  try clear_value v0
  repeat'
    first
      | with_reducible assumption
      | intro _
      | with_reducible first | apply ok_put | apply cycleDone_ok | apply skipDrops_ok | apply ok_ite
      | split
      | dsimp only

theorem runSlotOf_ok {op : Nat} {nn : Fin 16} {late : Nat} {s : State} {f : Dev → DWord → Dev} (h_s : Ok s.dev) (h_f : ∀ x0 x1, Ok x0 → Ok (f x0 x1)) : Good s (runSlotOf op nn late s f) := by
  unfold runSlotOf
  repeat'
    first
      | with_reducible assumption
      | intro _
      | with_reducible first | apply h_f | apply ok_put | apply slotNext_ok | apply ok_ite | apply good_stay | apply good_onDev | apply good_onUnit | apply good_onBlock | apply good_onRegion | apply good_onChip | apply good_ite
      | split
      | dsimp only

theorem digAdd_ok {d : Dev} {nn : Fin 16} {vs : List Nat} (h_d : Ok d) : Ok (digAdd d nn vs) := by
  unfold digAdd
  repeat'
    first
      | with_reducible assumption
      | intro _
      | with_reducible first | apply ok_ite
      | (with_reducible refine ok_leg ?_ ?_ <;> first | with_reducible assumption | exact fun hg => leg_same hg rfl rfl rfl rfl | skip)
      | (with_reducible refine ok_legs ?_ ?_ <;> first | with_reducible assumption | exact fun _ hg => leg_same hg rfl rfl rfl rfl | skip)
      | (with_reducible refine ok_onB ?_ ?_ <;> first | with_reducible assumption | exact fun _ h => blk_same h rfl rfl rfl | exact fun _ h => blk_noClr h rfl rfl rfl | exact fun _ h => blk_map h rfl rfl rfl fun _ hg => leg_same hg rfl rfl rfl rfl | skip)
      | exact blk_same (by assumption) rfl rfl rfl
      | split
      | dsimp only

theorem execSampleSlot_ok {nn : Fin 16} {late : Nat} {s : State} (h_s : Ok s.dev) : Good s (execSampleSlot nn late s) := by
  unfold execSampleSlot
  repeat'
    first
      | with_reducible assumption
      | intro _
      | with_reducible first | apply logIn_ok | apply runSlotOf_ok | apply ok_ite | apply ok_forAll | apply good_stay | apply good_onDev | apply good_onUnit | apply good_onBlock | apply good_onRegion | apply good_onChip | apply good_ite
      | (with_reducible refine ok_leg ?_ ?_ <;> first | with_reducible assumption | exact fun hg => leg_same hg rfl rfl rfl rfl | skip)
      | (with_reducible refine ok_legs ?_ ?_ <;> first | with_reducible assumption | exact fun _ hg => leg_same hg rfl rfl rfl rfl | skip)
      | (with_reducible refine ok_onB ?_ ?_ <;> first | with_reducible assumption | exact fun _ h => blk_same h rfl rfl rfl | exact fun _ h => blk_noClr h rfl rfl rfl | exact fun _ h => blk_map h rfl rfl rfl fun _ hg => leg_same hg rfl rfl rfl rfl | skip)
      | exact blk_same (by assumption) rfl rfl rfl
      | split
      | dsimp only

theorem lockFollow_ok {d : Dev} {d' : Dev} {nn : Fin 16} (h_d : Ok d) (h_d' : Ok d') : Ok (lockFollow d d' nn) := by
  unfold lockFollow
  repeat'
    first
      | with_reducible assumption
      | intro _
      | with_reducible first | apply domRecheckAll_ok | apply ok_ite
      | split
      | dsimp only

theorem execRunSlot_ok {nn : Fin 16} {late : Nat} {s : State} (h_s : Ok s.dev) : Good s (execRunSlot nn late s) := by
  unfold execRunSlot
  repeat'
    first
      | with_reducible assumption
      | intro _
      | with_reducible first | apply kernelRun_ok | apply runSlotOf_ok | apply lockFollow_ok | apply ok_ite | apply good_stay | apply good_onDev | apply good_onUnit | apply good_onBlock | apply good_onRegion | apply good_onChip | apply good_ite
      | split
      | dsimp only

theorem execKernelAbort_ok {nn : Fin 16} {_parity : Bool} {late : Nat} {s : State} (h_s : Ok s.dev) : Good s (execKernelAbort nn _parity late s) := by
  unfold execKernelAbort
  repeat'
    first
      | with_reducible assumption
      | intro _
      | with_reducible first | apply ok_raise | apply kPre_ok | apply kPost_ok | apply cellFault_ok | apply runSlotOf_ok | apply ok_ite | apply good_stay | apply good_onDev | apply good_onUnit | apply good_onBlock | apply good_onRegion | apply good_onChip | apply good_ite
      | split
      | dsimp only

theorem noted_same (g : Leg) (t : Nat) :
    (g.noted t).gh = g.gh ∧ (g.noted t).gl = g.gl ∧ (g.noted t).edges = g.edges ∧ (g.noted t).tda = g.tda := by
  unfold Leg.noted
  split
  · split <;> simp
  · simp

/-- The note of an UPDATE leaves a leg safe. -/
theorem noted_safe {g g' : Leg} {t : Nat} (h : Leg.safe g = true) (h1 : g'.gh = (g.noted t).gh) (h2 : g'.gl = (g.noted t).gl)
    (h3 : g'.edges = (g.noted t).edges) (h4 : g'.tda = (g.noted t).tda) : Leg.safe g' = true := by
  obtain ⟨e1, e2, e3, e4⟩ := noted_same g t
  exact leg_same h (h1.trans e1) (h2.trans e2) (h3.trans e3) (h4.trans e4)

theorem updateDuty_ok {d : Dev} {nn : Fin 16} {mask : Nat} {base : Nat} (h_d : Ok d) : Ok (updateDuty d nn mask base) := by
  unfold updateDuty
  exact ok_forAll h_d fun d l h => ok_ite (digAdd_ok (onL_ok (ok_setReg h) fun hg => noted_safe hg rfl rfl rfl rfl)) h

theorem updateDo_ok {d : Dev} {nn : Fin 16} {w : DWord} (h_d : Ok d) : Ok (updateDo d nn w) := by
  unfold updateDo
  have h0 : Ok (if bkState d nn = 3 ∧ !(d.b nn).disarm then
      d.onB nn fun b => { b with leg := b.leg.map fun g => { g.noted d.clk with upd := true } } else d) :=
    ok_ite (ok_legs h_d fun _ hg => noted_safe hg rfl rfl rfl rfl) h_d
  dsimp only
  generalize (if bkState d nn = 3 ∧ !(d.b nn).disarm then
      d.onB nn fun b => { b with leg := b.leg.map fun g => { g.noted d.clk with upd := true } } else d) = x at h0
  have hb : ∀ {d : Dev} {p : Option Nat} {q : Bool}, Ok d → Ok (d.onB nn fun b => { b with ptPend := p, ptLeave := q }) :=
    fun h => ok_onB h fun _ h => blk_same h rfl rfl rfl
  refine ok_ite (hb (ok_clr (updateDuty_ok h0))) (ok_ite (ok_flag (digAdd_ok h0)) (hb (ok_ite ?_ (ok_put ?_)))) <;>
    exact ok_flag (digAdd_ok h0)

theorem execUpdateSlot_ok {nn : Fin 16} {late : Nat} {s : State} (h_s : Ok s.dev) : Good s (execUpdateSlot nn late s) := by
  unfold execUpdateSlot
  repeat'
    first
      | with_reducible assumption
      | intro _
      | with_reducible first | apply runSlotOf_ok | apply updateDo_ok | apply ok_ite | apply good_stay | apply good_onDev | apply good_onUnit | apply good_onBlock | apply good_onRegion | apply good_onChip | apply good_ite
      | split
      | dsimp only

theorem vbWrite_ok {d : Dev} {nn : Fin 16} {v : Fin 16} {x : Nat} (h_d : Ok d) : Ok (vbWrite d nn v x) := by
  unfold vbWrite
  repeat'
    first
      | with_reducible assumption
      | intro _
      | with_reducible first | apply ok_setReg | apply ok_ite
      | split
      | dsimp only

theorem rowKeep_ok {d : Dev} {nn : Fin 16} (h_d : Ok d) : Ok (rowKeep d nn) := by
  unfold rowKeep
  extract_lets +onlyGivenNames v0
  try clear_value v0
  repeat'
    first
      | with_reducible assumption
      | intro _
      | with_reducible first | apply ok_ite
      | (with_reducible refine ok_leg ?_ ?_ <;> first | with_reducible assumption | exact fun hg => leg_same hg rfl rfl rfl rfl | skip)
      | (with_reducible refine ok_legs ?_ ?_ <;> first | with_reducible assumption | exact fun _ hg => leg_same hg rfl rfl rfl rfl | skip)
      | (with_reducible refine ok_onB ?_ ?_ <;> first | with_reducible assumption | exact fun _ h => blk_same h rfl rfl rfl | exact fun _ h => blk_noClr h rfl rfl rfl | exact fun _ h => blk_map h rfl rfl rfl fun _ hg => leg_same hg rfl rfl rfl rfl | skip)
      | exact blk_same (by assumption) rfl rfl rfl
      | split
      | dsimp only

theorem execPublishSlot_ok {nn : Fin 16} {late : Nat} {s : State} (h_s : Ok s.dev) : Good s (execPublishSlot nn late s) := by
  unfold execPublishSlot
  repeat'
    first
      | with_reducible assumption
      | intro _
      | with_reducible first | apply ok_inc | apply runSlotOf_ok | apply digAdd_ok | apply vbWrite_ok | apply rowKeep_ok | apply ok_ite | apply ok_forAll | apply good_stay | apply good_onDev | apply good_onUnit | apply good_onBlock | apply good_onRegion | apply good_onChip | apply good_ite
      | split
      | dsimp only

theorem execVbTransfer_ok {nn : Fin 16} {r : Fin 4} {s : State} (h_s : Ok s.dev) : Good s (execVbTransfer nn r s) := by
  unfold execVbTransfer
  refine good_onChip h_s fun d hd => ok_forAll hd fun d v hd => ok_onR hd fun x hx => ?_
  have h := rgn_iff.1 hx
  exact rgn_iff.2 ⟨h.1, h.2.1, h.2.2.1, h.2.2.2.1, tcanon_tset _ _ _ h.2.2.2.2⟩

theorem execConsumeSlot_ok {nn : Fin 16} {late : Nat} {s : State} (h_s : Ok s.dev) : Good s (execConsumeSlot nn late s) := by
  unfold execConsumeSlot
  repeat'
    first
      | with_reducible assumption
      | intro _
      | with_reducible first | apply logIn_ok | apply runSlotOf_ok | apply ok_ite | apply good_stay | apply good_onDev | apply good_onUnit | apply good_onBlock | apply good_onRegion | apply good_onChip | apply good_ite
      | (with_reducible refine ok_leg ?_ ?_ <;> first | with_reducible assumption | exact fun hg => leg_same hg rfl rfl rfl rfl | skip)
      | (with_reducible refine ok_legs ?_ ?_ <;> first | with_reducible assumption | exact fun _ hg => leg_same hg rfl rfl rfl rfl | skip)
      | (with_reducible refine ok_onB ?_ ?_ <;> first | with_reducible assumption | exact fun _ h => blk_same h rfl rfl rfl | exact fun _ h => blk_noClr h rfl rfl rfl | exact fun _ h => blk_map h rfl rfl rfl fun _ hg => leg_same hg rfl rfl rfl rfl | skip)
      | exact blk_same (by assumption) rfl rfl rfl
      | split
      | dsimp only

theorem standbyMove_ok {d : Dev} {a : Fin 4} {b : Fin 4} (h_d : Ok d) : Ok (standbyMove d a b) := by
  unfold standbyMove
  repeat'
    first
      | with_reducible assumption
      | intro _
      | with_reducible first | apply ok_flag | apply ok_clr | apply ok_ite
      | split
      | dsimp only

theorem standbyAway_ok {d : Dev} {p : Fin 4} (h_d : Ok d) : Ok (standbyAway d p).2 := by
  unfold standbyAway
  repeat'
    first
      | with_reducible assumption
      | intro _
      | with_reducible first | apply standbyMove_ok | apply ok_ite
      | split
      | dsimp only

theorem winDue_ok {d : Dev} {p : Fin 4} {w : Fin 32} (h_d : Ok d) : Ok (winDue d p w) := by
  unfold winDue
  extract_lets +onlyGivenNames v0
  try clear_value v0
  repeat'
    first
      | with_reducible assumption
      | intro _
      | with_reducible first | apply ok_flag | apply onW_ok | apply standbyAway_ok | apply ok_ite
      | (with_reducible refine ok_onR ?_ ?_ <;> first | with_reducible assumption | exact fun _ h => rgn_same h rfl rfl rfl rfl rfl | skip)
      | with_reducible refine ok_snd (by assumption) ?_
      | exact rgn_same (by assumption) rfl rfl rfl rfl rfl
      | split
      | dsimp only

theorem winFresh_ok {d : Dev} {p : Fin 4} {w : Fin 32} (h_d : Ok d) : Ok (winFresh d p w) := by
  unfold winFresh
  repeat'
    first
      | with_reducible assumption
      | intro _
      | with_reducible first | apply ok_flag | apply ok_inc | apply winDue_ok | apply ok_ite
      | split
      | dsimp only

theorem execOpenSlot_ok {nn : Fin 16} {late : Nat} {s : State} (h_s : Ok s.dev) : Good s (execOpenSlot nn late s) := by
  unfold execOpenSlot
  repeat'
    first
      | with_reducible assumption
      | intro _
      | with_reducible first | apply ok_setReg | apply runSlotOf_ok | apply digAdd_ok | apply winFresh_ok | apply ok_ite | apply ok_forAll | apply good_stay | apply good_onDev | apply good_onUnit | apply good_onBlock | apply good_onRegion | apply good_onChip | apply good_ite
      | split
      | dsimp only

theorem execCaptureSlot_ok {nn : Fin 16} {late : Nat} {s : State} (h_s : Ok s.dev) : Good s (execCaptureSlot nn late s) := by
  unfold execCaptureSlot
  repeat'
    first
      | with_reducible assumption
      | intro _
      | with_reducible first | apply ok_flag | apply ok_clr | apply putWide_ok | apply logIn_ok | apply runSlotOf_ok | apply ok_ite | apply good_stay | apply good_onDev | apply good_onUnit | apply good_onBlock | apply good_onRegion | apply good_onChip | apply good_ite
      | (with_reducible refine ok_leg ?_ ?_ <;> first | with_reducible assumption | exact fun hg => leg_same hg rfl rfl rfl rfl | skip)
      | (with_reducible refine ok_legs ?_ ?_ <;> first | with_reducible assumption | exact fun _ hg => leg_same hg rfl rfl rfl rfl | skip)
      | (with_reducible refine ok_onB ?_ ?_ <;> first | with_reducible assumption | exact fun _ h => blk_same h rfl rfl rfl | exact fun _ h => blk_noClr h rfl rfl rfl | exact fun _ h => blk_map h rfl rfl rfl fun _ hg => leg_same hg rfl rfl rfl rfl | skip)
      | exact blk_same (by assumption) rfl rfl rfl
      | split
      | dsimp only

theorem traceFull_ok {d : Dev} (h_d : Ok d) : Ok (traceFull d).2 := by
  unfold traceFull
  split
  · exact ok_free h_d
  · exact h_d

theorem traceAdd_ok {d : Dev} {clk : Nat} {w0 : Word} {cyc : Nat} (h_d : Ok d) : Ok (traceAdd d clk w0 cyc) := by
  unfold traceAdd
  extract_lets +onlyGivenNames v0 v1
  try clear_value v0
  try clear_value v1
  repeat'
    first
      | with_reducible assumption
      | intro _
      | with_reducible first | apply ok_inc | apply traceFull_ok | apply ok_ite
      | with_reducible refine ok_snd (by assumption) ?_
      | split
      | with_reducible apply ok_mk

theorem execMarkSlot_ok {nn : Fin 16} {late : Nat} {s : State} (h_s : Ok s.dev) : Good s (execMarkSlot nn late s) := by
  unfold execMarkSlot
  repeat'
    first
      | with_reducible assumption
      | intro _
      | with_reducible first | apply ok_raise | apply runSlotOf_ok | apply traceAdd_ok | apply ok_ite | apply good_stay | apply good_onDev | apply good_onUnit | apply good_onBlock | apply good_onRegion | apply good_onChip | apply good_ite
      | split
      | dsimp only

theorem doSwap_ok {d : Dev} {nn : Fin 16} {src : Nat} {t : Bool} (h_d : Ok d) : Ok (doSwap d nn src t) := by
  unfold doSwap
  extract_lets +onlyGivenNames v0 v1 v2 v3 v4 v5 v6
  try clear_value v0
  have h_v1 : Ok v1 := by
    unfold v1
    repeat'
      first
        | with_reducible assumption
        | intro _
        | with_reducible first | apply ok_put | apply ok_clr | apply ok_putB | apply ok_inc | apply kSwapPreset_ok | apply ok_ite | apply ok_forAll
        | (with_reducible refine ok_leg ?_ ?_ <;> first | with_reducible assumption | exact fun hg => leg_same hg rfl rfl rfl rfl | skip)
        | (with_reducible refine ok_legs ?_ ?_ <;> first | with_reducible assumption | exact fun _ hg => leg_same hg rfl rfl rfl rfl | skip)
        | (with_reducible refine ok_onB ?_ ?_ <;> first | with_reducible assumption | exact fun _ h => blk_same h rfl rfl rfl | exact fun _ h => blk_noClr h rfl rfl rfl | exact fun _ h => blk_map h rfl rfl rfl fun _ hg => leg_same hg rfl rfl rfl rfl | skip)
        | exact blk_same (by assumption) rfl rfl rfl
        | split
        | dsimp only
  try clear_value v1
  try clear_value v2
  have h_v3 : Ok v3 := by
    unfold v3
    repeat'
      first
        | with_reducible assumption
        | intro _
        | with_reducible first | apply ok_put | apply ok_clr | apply ok_putB | apply ok_inc | apply kSwapPreset_ok | apply ok_ite | apply ok_forAll
        | (with_reducible refine ok_leg ?_ ?_ <;> first | with_reducible assumption | exact fun hg => leg_same hg rfl rfl rfl rfl | skip)
        | (with_reducible refine ok_legs ?_ ?_ <;> first | with_reducible assumption | exact fun _ hg => leg_same hg rfl rfl rfl rfl | skip)
        | (with_reducible refine ok_onB ?_ ?_ <;> first | with_reducible assumption | exact fun _ h => blk_same h rfl rfl rfl | exact fun _ h => blk_noClr h rfl rfl rfl | exact fun _ h => blk_map h rfl rfl rfl fun _ hg => leg_same hg rfl rfl rfl rfl | skip)
        | exact blk_same (by assumption) rfl rfl rfl
        | split
        | dsimp only
  try clear_value v3
  have h_v4 : Ok v4 := by
    unfold v4
    repeat'
      first
        | with_reducible assumption
        | intro _
        | with_reducible first | apply ok_put | apply ok_clr | apply ok_putB | apply ok_inc | apply kSwapPreset_ok | apply ok_ite | apply ok_forAll
        | (with_reducible refine ok_leg ?_ ?_ <;> first | with_reducible assumption | exact fun hg => leg_same hg rfl rfl rfl rfl | skip)
        | (with_reducible refine ok_legs ?_ ?_ <;> first | with_reducible assumption | exact fun _ hg => leg_same hg rfl rfl rfl rfl | skip)
        | (with_reducible refine ok_onB ?_ ?_ <;> first | with_reducible assumption | exact fun _ h => blk_same h rfl rfl rfl | exact fun _ h => blk_noClr h rfl rfl rfl | exact fun _ h => blk_map h rfl rfl rfl fun _ hg => leg_same hg rfl rfl rfl rfl | skip)
        | exact blk_same (by assumption) rfl rfl rfl
        | split
        | dsimp only
  try clear_value v4
  have h_v5 : Ok v5 := by
    unfold v5
    repeat'
      first
        | with_reducible assumption
        | intro _
        | with_reducible first | apply ok_put | apply ok_clr | apply ok_putB | apply ok_inc | apply kSwapPreset_ok | apply ok_ite | apply ok_forAll
        | (with_reducible refine ok_leg ?_ ?_ <;> first | with_reducible assumption | exact fun hg => leg_same hg rfl rfl rfl rfl | skip)
        | (with_reducible refine ok_legs ?_ ?_ <;> first | with_reducible assumption | exact fun _ hg => leg_same hg rfl rfl rfl rfl | skip)
        | (with_reducible refine ok_onB ?_ ?_ <;> first | with_reducible assumption | exact fun _ h => blk_same h rfl rfl rfl | exact fun _ h => blk_noClr h rfl rfl rfl | exact fun _ h => blk_map h rfl rfl rfl fun _ hg => leg_same hg rfl rfl rfl rfl | skip)
        | exact blk_same (by assumption) rfl rfl rfl
        | split
        | dsimp only
  try clear_value v5
  have h_v6 : Ok v6 := by
    unfold v6
    repeat'
      first
        | with_reducible assumption
        | intro _
        | with_reducible first | apply ok_put | apply ok_clr | apply ok_putB | apply ok_inc | apply kSwapPreset_ok | apply ok_ite | apply ok_forAll
        | (with_reducible refine ok_leg ?_ ?_ <;> first | with_reducible assumption | exact fun hg => leg_same hg rfl rfl rfl rfl | skip)
        | (with_reducible refine ok_legs ?_ ?_ <;> first | with_reducible assumption | exact fun _ hg => leg_same hg rfl rfl rfl rfl | skip)
        | (with_reducible refine ok_onB ?_ ?_ <;> first | with_reducible assumption | exact fun _ h => blk_same h rfl rfl rfl | exact fun _ h => blk_noClr h rfl rfl rfl | exact fun _ h => blk_map h rfl rfl rfl fun _ hg => leg_same hg rfl rfl rfl rfl | skip)
        | exact blk_same (by assumption) rfl rfl rfl
        | split
        | dsimp only
  try clear_value v6
  repeat'
    first
      | with_reducible assumption
      | intro _
      | with_reducible first | apply ok_put | apply ok_clr | apply ok_putB | apply ok_inc | apply kSwapPreset_ok | apply ok_ite | apply ok_forAll
      | (with_reducible refine ok_leg ?_ ?_ <;> first | with_reducible assumption | exact fun hg => leg_same hg rfl rfl rfl rfl | skip)
      | (with_reducible refine ok_legs ?_ ?_ <;> first | with_reducible assumption | exact fun _ hg => leg_same hg rfl rfl rfl rfl | skip)
      | (with_reducible refine ok_onB ?_ ?_ <;> first | with_reducible assumption | exact fun _ h => blk_same h rfl rfl rfl | exact fun _ h => blk_noClr h rfl rfl rfl | exact fun _ h => blk_map h rfl rfl rfl fun _ hg => leg_same hg rfl rfl rfl rfl | skip)
      | exact blk_same (by assumption) rfl rfl rfl
      | split
      | dsimp only

theorem takeHost_ok {d : Dev} {nn : Fin 16} {won : Bool} (h_d : Ok d) : Ok (takeHost d nn won).1 := by
  unfold takeHost
  extract_lets +onlyGivenNames v0
  try clear_value v0
  repeat'
    first
      | with_reducible assumption
      | intro _
      | with_reducible first | apply dropHost_ok | apply ok_ite
      | (with_reducible refine ok_leg ?_ ?_ <;> first | with_reducible assumption | exact fun hg => leg_same hg rfl rfl rfl rfl | skip)
      | (with_reducible refine ok_legs ?_ ?_ <;> first | with_reducible assumption | exact fun _ hg => leg_same hg rfl rfl rfl rfl | skip)
      | (with_reducible refine ok_onB ?_ ?_ <;> first | with_reducible assumption | exact fun _ h => blk_same h rfl rfl rfl | exact fun _ h => blk_noClr h rfl rfl rfl | exact fun _ h => blk_map h rfl rfl rfl fun _ hg => leg_same hg rfl rfl rfl rfl | skip)
      | exact blk_same (by assumption) rfl rfl rfl
      | split
      | dsimp only

theorem takeTrig_ok {d : Dev} {nn : Fin 16} {won : Bool} (h_d : Ok d) : Ok (takeTrig d nn won).1 := by
  unfold takeTrig
  split
  all_goals
    repeat'
      first
        | with_reducible assumption
        | intro _
        | with_reducible first | apply dropTrig_ok | apply ok_ite
        | split
        | dsimp only

theorem takeSwap_ok {d : Dev} {nn : Fin 16} (h_d : Ok d) : Ok (takeSwap d nn) := by
  unfold takeSwap
  extract_lets ret h t d1
  have ht : Ok t.1 := takeTrig_ok (takeHost_ok h_d)
  have h1 : Ok d1 := by
    unfold d1
    clear_value ret t
    clear d1
    split
    · exact doSwap_ok ht
    · exact doSwap_ok ht
    · exact doSwap_ok ht
    · exact ht
  exact setSwapPend_ok h1

theorem runTakes_ok {d : Dev} {nn : Fin 16} (h_d : Ok d) : Ok (runTakes d nn) := by
  unfold runTakes
  repeat'
    first
      | with_reducible assumption
      | intro _
      | with_reducible first | apply ok_put | apply blkDone_ok | apply setPending_ok | apply ok_ite
      | (with_reducible refine ok_leg ?_ ?_ <;> first | with_reducible assumption | exact fun hg => leg_same hg rfl rfl rfl rfl | skip)
      | (with_reducible refine ok_legs ?_ ?_ <;> first | with_reducible assumption | exact fun _ hg => leg_same hg rfl rfl rfl rfl | skip)
      | (with_reducible refine ok_onB ?_ ?_ <;> first | with_reducible assumption | exact fun _ h => blk_same h rfl rfl rfl | exact fun _ h => blk_noClr h rfl rfl rfl | exact fun _ h => blk_map h rfl rfl rfl fun _ hg => leg_same hg rfl rfl rfl rfl | skip)
      | exact blk_same (by assumption) rfl rfl rfl
      | split
      | dsimp only

theorem hspToEntries_ok {d : Dev} {nn : Fin 16} (h_d : Ok d) : Ok (hspToEntries d nn) := by
  unfold hspToEntries
  extract_lets +onlyGivenNames v0 v1
  try clear_value v0
  try clear_value v1
  repeat'
    first
      | with_reducible assumption
      | intro _
      | with_reducible first | apply ok_ite | apply ok_forAll
      | (with_reducible refine ok_leg ?_ ?_ <;> first | with_reducible assumption | exact fun hg => leg_same hg rfl rfl rfl rfl | skip)
      | (with_reducible refine ok_legs ?_ ?_ <;> first | with_reducible assumption | exact fun _ hg => leg_same hg rfl rfl rfl rfl | skip)
      | (with_reducible refine ok_onB ?_ ?_ <;> first | with_reducible assumption | exact fun _ h => blk_same h rfl rfl rfl | exact fun _ h => blk_noClr h rfl rfl rfl | exact fun _ h => blk_map h rfl rfl rfl fun _ hg => leg_same hg rfl rfl rfl rfl | skip)
      | exact blk_same (by assumption) rfl rfl rfl
      | split
      | dsimp only

theorem cycleBegin_ok {d : Dev} {nn : Fin 16} (h_d : Ok d) : Ok (cycleBegin d nn) := by
  unfold cycleBegin
  extract_lets ovs d1 d2 d3 d4 d5 d6 arr d7
  have h2 : Ok d2 := ok_ite (ok_flag (ok_putB h_d)) (ok_putB h_d)
  have h3 : Ok d3 := ok_ite (hspCommit_ok h2) h2
  have h6 : Ok d6 := ok_clr (ok_inc (ok_put (hspToEntries_ok h3)))
  have ha : tcanon (fun _ => 0#20) arr = true := (rgn_iff.1 (h6.rgn _)).2.2.2.2
  have h7 : Ok d7 := ok_onB h6 fun b hb => blk_iff.2 ⟨(blk_iff.1 hb).1, ha, (blk_iff.1 hb).2.2⟩
  exact skipDrops_ok (onLog_ok h7)

theorem cycleExec_ok {d : Dev} {nn : Fin 16} (h_d : Ok d) : Ok (cycleExec d nn) := by
  unfold cycleExec
  extract_lets +onlyGivenNames v0 v1 v2
  have h_v0 : Ok v0 := by
    unfold v0
    repeat'
      first
        | with_reducible assumption
        | intro _
        | with_reducible first | apply sendDigest_ok | apply rsyStart_ok | apply takeSwap_ok | apply runTakes_ok | apply cycleBegin_ok | apply ok_ite
        | (with_reducible refine ok_leg ?_ ?_ <;> first | with_reducible assumption | exact fun hg => leg_same hg rfl rfl rfl rfl | skip)
        | (with_reducible refine ok_legs ?_ ?_ <;> first | with_reducible assumption | exact fun _ hg => leg_same hg rfl rfl rfl rfl | skip)
        | (with_reducible refine ok_onB ?_ ?_ <;> first | with_reducible assumption | exact fun _ h => blk_same h rfl rfl rfl | exact fun _ h => blk_noClr h rfl rfl rfl | exact fun _ h => blk_map h rfl rfl rfl fun _ hg => leg_same hg rfl rfl rfl rfl | skip)
        | exact blk_same (by assumption) rfl rfl rfl
        | split
        | dsimp only
  try clear_value v0
  have h_v1 : Ok v1 := by
    unfold v1
    repeat'
      first
        | with_reducible assumption
        | intro _
        | with_reducible first | apply sendDigest_ok | apply rsyStart_ok | apply takeSwap_ok | apply runTakes_ok | apply cycleBegin_ok | apply ok_ite
        | (with_reducible refine ok_leg ?_ ?_ <;> first | with_reducible assumption | exact fun hg => leg_same hg rfl rfl rfl rfl | skip)
        | (with_reducible refine ok_legs ?_ ?_ <;> first | with_reducible assumption | exact fun _ hg => leg_same hg rfl rfl rfl rfl | skip)
        | (with_reducible refine ok_onB ?_ ?_ <;> first | with_reducible assumption | exact fun _ h => blk_same h rfl rfl rfl | exact fun _ h => blk_noClr h rfl rfl rfl | exact fun _ h => blk_map h rfl rfl rfl fun _ hg => leg_same hg rfl rfl rfl rfl | skip)
        | exact blk_same (by assumption) rfl rfl rfl
        | split
        | dsimp only
  try clear_value v1
  have h_v2 : Ok v2 := by
    unfold v2
    repeat'
      first
        | with_reducible assumption
        | intro _
        | with_reducible first | apply sendDigest_ok | apply rsyStart_ok | apply takeSwap_ok | apply runTakes_ok | apply cycleBegin_ok | apply ok_ite
        | (with_reducible refine ok_leg ?_ ?_ <;> first | with_reducible assumption | exact fun hg => leg_same hg rfl rfl rfl rfl | skip)
        | (with_reducible refine ok_legs ?_ ?_ <;> first | with_reducible assumption | exact fun _ hg => leg_same hg rfl rfl rfl rfl | skip)
        | (with_reducible refine ok_onB ?_ ?_ <;> first | with_reducible assumption | exact fun _ h => blk_same h rfl rfl rfl | exact fun _ h => blk_noClr h rfl rfl rfl | exact fun _ h => blk_map h rfl rfl rfl fun _ hg => leg_same hg rfl rfl rfl rfl | skip)
        | exact blk_same (by assumption) rfl rfl rfl
        | split
        | dsimp only
  try clear_value v2
  repeat'
    first
      | with_reducible assumption
      | intro _
      | with_reducible first | apply sendDigest_ok | apply rsyStart_ok | apply takeSwap_ok | apply runTakes_ok | apply cycleBegin_ok | apply ok_ite
      | (with_reducible refine ok_leg ?_ ?_ <;> first | with_reducible assumption | exact fun hg => leg_same hg rfl rfl rfl rfl | skip)
      | (with_reducible refine ok_legs ?_ ?_ <;> first | with_reducible assumption | exact fun _ hg => leg_same hg rfl rfl rfl rfl | skip)
      | (with_reducible refine ok_onB ?_ ?_ <;> first | with_reducible assumption | exact fun _ h => blk_same h rfl rfl rfl | exact fun _ h => blk_noClr h rfl rfl rfl | exact fun _ h => blk_map h rfl rfl rfl fun _ hg => leg_same hg rfl rfl rfl rfl | skip)
      | exact blk_same (by assumption) rfl rfl rfl
      | split
      | dsimp only

theorem cycleMiss_ok {d : Dev} {nn : Fin 16} (h_d : Ok d) : Ok (cycleMiss d nn) := by
  unfold cycleMiss
  extract_lets +onlyGivenNames v0 v1 v2 v3 v4
  try clear_value v0
  have h_v1 : Ok v1 := by
    unfold v1
    repeat'
      first
        | with_reducible assumption
        | intro _
        | with_reducible first | apply ok_put | apply ok_flag | apply ok_inc | apply quench_ok | apply phaseEvent_ok | apply skipDrops_ok | apply runTakes_ok | apply ok_ite
        | (with_reducible refine ok_leg ?_ ?_ <;> first | with_reducible assumption | exact fun hg => leg_same hg rfl rfl rfl rfl | skip)
        | (with_reducible refine ok_legs ?_ ?_ <;> first | with_reducible assumption | exact fun _ hg => leg_same hg rfl rfl rfl rfl | skip)
        | (with_reducible refine ok_onB ?_ ?_ <;> first | with_reducible assumption | exact fun _ h => blk_same h rfl rfl rfl | exact fun _ h => blk_noClr h rfl rfl rfl | exact fun _ h => blk_map h rfl rfl rfl fun _ hg => leg_same hg rfl rfl rfl rfl | skip)
        | exact blk_same (by assumption) rfl rfl rfl
        | split
        | dsimp only
  try clear_value v1
  have h_v2 : Ok v2 := by
    unfold v2
    repeat'
      first
        | with_reducible assumption
        | intro _
        | with_reducible first | apply ok_put | apply ok_flag | apply ok_inc | apply quench_ok | apply phaseEvent_ok | apply skipDrops_ok | apply runTakes_ok | apply ok_ite
        | (with_reducible refine ok_leg ?_ ?_ <;> first | with_reducible assumption | exact fun hg => leg_same hg rfl rfl rfl rfl | skip)
        | (with_reducible refine ok_legs ?_ ?_ <;> first | with_reducible assumption | exact fun _ hg => leg_same hg rfl rfl rfl rfl | skip)
        | (with_reducible refine ok_onB ?_ ?_ <;> first | with_reducible assumption | exact fun _ h => blk_same h rfl rfl rfl | exact fun _ h => blk_noClr h rfl rfl rfl | exact fun _ h => blk_map h rfl rfl rfl fun _ hg => leg_same hg rfl rfl rfl rfl | skip)
        | exact blk_same (by assumption) rfl rfl rfl
        | split
        | dsimp only
  try clear_value v2
  have h_v3 : Ok v3 := by
    unfold v3
    repeat'
      first
        | with_reducible assumption
        | intro _
        | with_reducible first | apply ok_put | apply ok_flag | apply ok_inc | apply quench_ok | apply phaseEvent_ok | apply skipDrops_ok | apply runTakes_ok | apply ok_ite
        | (with_reducible refine ok_leg ?_ ?_ <;> first | with_reducible assumption | exact fun hg => leg_same hg rfl rfl rfl rfl | skip)
        | (with_reducible refine ok_legs ?_ ?_ <;> first | with_reducible assumption | exact fun _ hg => leg_same hg rfl rfl rfl rfl | skip)
        | (with_reducible refine ok_onB ?_ ?_ <;> first | with_reducible assumption | exact fun _ h => blk_same h rfl rfl rfl | exact fun _ h => blk_noClr h rfl rfl rfl | exact fun _ h => blk_map h rfl rfl rfl fun _ hg => leg_same hg rfl rfl rfl rfl | skip)
        | exact blk_same (by assumption) rfl rfl rfl
        | split
        | dsimp only
  try clear_value v3
  have h_v4 : Ok v4 := by
    unfold v4
    repeat'
      first
        | with_reducible assumption
        | intro _
        | with_reducible first | apply ok_put | apply ok_flag | apply ok_inc | apply quench_ok | apply phaseEvent_ok | apply skipDrops_ok | apply runTakes_ok | apply ok_ite
        | (with_reducible refine ok_leg ?_ ?_ <;> first | with_reducible assumption | exact fun hg => leg_same hg rfl rfl rfl rfl | skip)
        | (with_reducible refine ok_legs ?_ ?_ <;> first | with_reducible assumption | exact fun _ hg => leg_same hg rfl rfl rfl rfl | skip)
        | (with_reducible refine ok_onB ?_ ?_ <;> first | with_reducible assumption | exact fun _ h => blk_same h rfl rfl rfl | exact fun _ h => blk_noClr h rfl rfl rfl | exact fun _ h => blk_map h rfl rfl rfl fun _ hg => leg_same hg rfl rfl rfl rfl | skip)
        | exact blk_same (by assumption) rfl rfl rfl
        | split
        | dsimp only
  try clear_value v4
  repeat'
    first
      | with_reducible assumption
      | intro _
      | with_reducible first | apply ok_put | apply ok_flag | apply ok_inc | apply quench_ok | apply phaseEvent_ok | apply skipDrops_ok | apply runTakes_ok | apply ok_ite
      | (with_reducible refine ok_leg ?_ ?_ <;> first | with_reducible assumption | exact fun hg => leg_same hg rfl rfl rfl rfl | skip)
      | (with_reducible refine ok_legs ?_ ?_ <;> first | with_reducible assumption | exact fun _ hg => leg_same hg rfl rfl rfl rfl | skip)
      | (with_reducible refine ok_onB ?_ ?_ <;> first | with_reducible assumption | exact fun _ h => blk_same h rfl rfl rfl | exact fun _ h => blk_noClr h rfl rfl rfl | exact fun _ h => blk_map h rfl rfl rfl fun _ hg => leg_same hg rfl rfl rfl rfl | skip)
      | exact blk_same (by assumption) rfl rfl rfl
      | split
      | dsimp only

theorem armTakes_ok {d : Dev} {nn : Fin 16} (h_d : Ok d) : Ok (armTakes d nn) := by
  unfold armTakes
  extract_lets +onlyGivenNames v0
  have h_v0 : Ok v0 := by
    unfold v0
    repeat'
      first
        | with_reducible assumption
        | intro _
        | with_reducible first | apply ok_put | apply ok_clr | apply blkDone_ok | apply setPending_ok | apply ok_ite
        | (with_reducible refine ok_leg ?_ ?_ <;> first | with_reducible assumption | exact fun hg => leg_same hg rfl rfl rfl rfl | skip)
        | (with_reducible refine ok_legs ?_ ?_ <;> first | with_reducible assumption | exact fun _ hg => leg_same hg rfl rfl rfl rfl | skip)
        | (with_reducible refine ok_onB ?_ ?_ <;> first | with_reducible assumption | exact fun _ h => blk_same h rfl rfl rfl | exact fun _ h => blk_noClr h rfl rfl rfl | exact fun _ h => blk_map h rfl rfl rfl fun _ hg => leg_same hg rfl rfl rfl rfl | skip)
        | exact blk_same (by assumption) rfl rfl rfl
        | split
        | dsimp only
  try clear_value v0
  repeat'
    first
      | with_reducible assumption
      | intro _
      | with_reducible first | apply ok_put | apply ok_clr | apply blkDone_ok | apply setPending_ok | apply ok_ite
      | (with_reducible refine ok_leg ?_ ?_ <;> first | with_reducible assumption | exact fun hg => leg_same hg rfl rfl rfl rfl | skip)
      | (with_reducible refine ok_legs ?_ ?_ <;> first | with_reducible assumption | exact fun _ hg => leg_same hg rfl rfl rfl rfl | skip)
      | (with_reducible refine ok_onB ?_ ?_ <;> first | with_reducible assumption | exact fun _ h => blk_same h rfl rfl rfl | exact fun _ h => blk_noClr h rfl rfl rfl | exact fun _ h => blk_map h rfl rfl rfl fun _ hg => leg_same hg rfl rfl rfl rfl | skip)
      | exact blk_same (by assumption) rfl rfl rfl
      | split
      | dsimp only

theorem execCycleStart_ok {nn : Fin 16} {s : State} (h_s : Ok s.dev) : Good s (execCycleStart nn s) := by
  unfold execCycleStart
  repeat'
    first
      | with_reducible assumption
      | intro _
      | with_reducible first | apply disarmDone_ok | apply cycleExec_ok | apply cycleMiss_ok | apply armTakes_ok | apply ok_ite | apply good_stay | apply good_onDev | apply good_onUnit | apply good_onBlock | apply good_onRegion | apply good_onChip | apply good_ite
      | (with_reducible refine ok_leg ?_ ?_ <;> first | with_reducible assumption | exact fun hg => leg_same hg rfl rfl rfl rfl | skip)
      | (with_reducible refine ok_legs ?_ ?_ <;> first | with_reducible assumption | exact fun _ hg => leg_same hg rfl rfl rfl rfl | skip)
      | (with_reducible refine ok_onB ?_ ?_ <;> first | with_reducible assumption | exact fun _ h => blk_same h rfl rfl rfl | exact fun _ h => blk_noClr h rfl rfl rfl | exact fun _ h => blk_map h rfl rfl rfl fun _ hg => leg_same hg rfl rfl rfl rfl | skip)
      | exact blk_same (by assumption) rfl rfl rfl
      | split
      | dsimp only

theorem execStallDeclared_ok {nn : Fin 16} {s : State} (h_s : Ok s.dev) : Good s (execStallDeclared nn s) := by
  unfold execStallDeclared
  repeat'
    first
      | with_reducible assumption
      | intro _
      | with_reducible first | apply declareStall_ok | apply ok_ite | apply good_stay | apply good_onDev | apply good_onUnit | apply good_onBlock | apply good_onRegion | apply good_onChip | apply good_ite
      | split
      | dsimp only

theorem execFallbackSwap_ok {nn : Fin 16} {s : State} (h_s : Ok s.dev) : Good s (execFallbackSwap nn s) := by
  unfold execFallbackSwap
  repeat'
    first
      | with_reducible assumption
      | intro _
      | with_reducible first | apply setSwapPend_ok | apply dropHost_ok | apply dropTrig_ok | apply doSwap_ok | apply ok_ite | apply good_stay | apply good_onDev | apply good_onUnit | apply good_onBlock | apply good_onRegion | apply good_onChip | apply good_ite
      | (with_reducible refine ok_leg ?_ ?_ <;> first | with_reducible assumption | exact fun hg => leg_same hg rfl rfl rfl rfl | skip)
      | (with_reducible refine ok_legs ?_ ?_ <;> first | with_reducible assumption | exact fun _ hg => leg_same hg rfl rfl rfl rfl | skip)
      | (with_reducible refine ok_onB ?_ ?_ <;> first | with_reducible assumption | exact fun _ h => blk_same h rfl rfl rfl | exact fun _ h => blk_noClr h rfl rfl rfl | exact fun _ h => blk_map h rfl rfl rfl fun _ hg => leg_same hg rfl rfl rfl rfl | skip)
      | exact blk_same (by assumption) rfl rfl rfl
      | split
      | dsimp only

theorem execStallRecovery_ok {nn : Fin 16} {s : State} (h_s : Ok s.dev) : Good s (execStallRecovery nn s) := by
  unfold execStallRecovery
  repeat'
    first
      | with_reducible assumption
      | intro _
      | with_reducible first | apply ok_flag | apply ok_clr | apply setSwapPend_ok | apply ok_ite | apply good_stay | apply good_onDev | apply good_onUnit | apply good_onBlock | apply good_onRegion | apply good_onChip | apply good_ite
      | (with_reducible refine ok_leg ?_ ?_ <;> first | with_reducible assumption | exact fun hg => leg_same hg rfl rfl rfl rfl | skip)
      | (with_reducible refine ok_legs ?_ ?_ <;> first | with_reducible assumption | exact fun _ hg => leg_same hg rfl rfl rfl rfl | skip)
      | (with_reducible refine ok_onB ?_ ?_ <;> first | with_reducible assumption | exact fun _ h => blk_same h rfl rfl rfl | exact fun _ h => blk_noClr h rfl rfl rfl | exact fun _ h => blk_map h rfl rfl rfl fun _ hg => leg_same hg rfl rfl rfl rfl | skip)
      | exact blk_same (by assumption) rfl rfl rfl
      | split
      | dsimp only

theorem execWatchdogTrip_ok {nn : Fin 16} {s : State} (h_s : Ok s.dev) : Good s (execWatchdogTrip nn s) := by
  unfold execWatchdogTrip
  repeat'
    first
      | with_reducible assumption
      | intro _
      | with_reducible first | apply ok_put | apply ok_flag | apply ok_clr | apply ok_incSat | apply ok_raise | apply quench_ok | apply disarmDone_ok | apply ok_ite | apply good_stay | apply good_onDev | apply good_onUnit | apply good_onBlock | apply good_onRegion | apply good_onChip | apply good_ite
      | (with_reducible refine ok_leg ?_ ?_ <;> first | with_reducible assumption | exact fun hg => leg_same hg rfl rfl rfl rfl | skip)
      | (with_reducible refine ok_legs ?_ ?_ <;> first | with_reducible assumption | exact fun _ hg => leg_same hg rfl rfl rfl rfl | skip)
      | (with_reducible refine ok_onB ?_ ?_ <;> first | with_reducible assumption | exact fun _ h => blk_same h rfl rfl rfl | exact fun _ h => blk_noClr h rfl rfl rfl | exact fun _ h => blk_map h rfl rfl rfl fun _ hg => leg_same hg rfl rfl rfl rfl | skip)
      | exact blk_same (by assumption) rfl rfl rfl
      | split
      | dsimp only

end Sys2Proof.Machine
end

