-- ==== Sys2Proof/Laws/KeepBlocks.lean ====
section
/-! SUPPORT. The invariant kept by every operation of Machine/Blocks.lean. -/

set_option linter.unreachableTactic false
set_option linter.unusedTactic false

namespace Sys2Proof.Machine

theorem supersede_ok {d : Dev} {nn : Fin 16} (h_d : Ok d) : Ok (supersede d nn) := by
  unfold supersede
  extract_lets +onlyGivenNames v0
  try clear_value v0
  repeat'
    first
      | with_reducible assumption
      | intro _
      | with_reducible first | apply ok_clr | apply blkRefuse_ok | apply ok_ite
      | split
      | dsimp only

theorem legsRelease_ok {d : Dev} {nn : Fin 16} (h_d : Ok d) : Ok (legsRelease d nn) := by
  unfold legsRelease
  extract_lets +onlyGivenNames v0 v1
  have h_v0 : Ok v0 := by
    unfold v0
    repeat'
      first
        | with_reducible assumption
        | intro _
        | with_reducible first | apply legsSafe_ok | apply legsForget_ok | apply ok_ite
        | (with_reducible refine ok_leg ?_ ?_ <;> first | with_reducible assumption | exact fun hg => leg_same hg rfl rfl rfl rfl | skip)
        | (with_reducible refine ok_legs ?_ ?_ <;> first | with_reducible assumption | exact fun _ hg => leg_same hg rfl rfl rfl rfl | skip)
        | (with_reducible refine ok_onB ?_ ?_ <;> first | with_reducible assumption | exact fun _ h => blk_same h rfl rfl rfl | exact fun _ h => blk_noClr h rfl rfl rfl | exact fun _ h => blk_map h rfl rfl rfl fun _ hg => leg_same hg rfl rfl rfl rfl | skip)
        | exact blk_same (by assumption) rfl rfl rfl
        | split
        | dsimp only
  try clear_value v0
  have h_v1 : Ok v1 := by
    unfold v1
    repeat'
      first
        | with_reducible assumption
        | intro _
        | with_reducible first | apply legsSafe_ok | apply legsForget_ok | apply ok_ite
        | (with_reducible refine ok_leg ?_ ?_ <;> first | with_reducible assumption | exact fun hg => leg_same hg rfl rfl rfl rfl | skip)
        | (with_reducible refine ok_legs ?_ ?_ <;> first | with_reducible assumption | exact fun _ hg => leg_same hg rfl rfl rfl rfl | skip)
        | (with_reducible refine ok_onB ?_ ?_ <;> first | with_reducible assumption | exact fun _ h => blk_same h rfl rfl rfl | exact fun _ h => blk_noClr h rfl rfl rfl | exact fun _ h => blk_map h rfl rfl rfl fun _ hg => leg_same hg rfl rfl rfl rfl | skip)
        | exact blk_same (by assumption) rfl rfl rfl
        | split
        | dsimp only
  try clear_value v1
  repeat'
    first
      | with_reducible assumption
      | intro _
      | with_reducible first | apply legsSafe_ok | apply legsForget_ok | apply ok_ite
      | (with_reducible refine ok_leg ?_ ?_ <;> first | with_reducible assumption | exact fun hg => leg_same hg rfl rfl rfl rfl | skip)
      | (with_reducible refine ok_legs ?_ ?_ <;> first | with_reducible assumption | exact fun _ hg => leg_same hg rfl rfl rfl rfl | skip)
      | (with_reducible refine ok_onB ?_ ?_ <;> first | with_reducible assumption | exact fun _ h => blk_same h rfl rfl rfl | exact fun _ h => blk_noClr h rfl rfl rfl | exact fun _ h => blk_map h rfl rfl rfl fun _ hg => leg_same hg rfl rfl rfl rfl | skip)
      | exact blk_same (by assumption) rfl rfl rfl
      | split
      | dsimp only

theorem armChoose_ok {d : Dev} {nn : Fin 16} (h_d : Ok d) : Ok (armChoose d nn) := by
  unfold armChoose
  extract_lets +onlyGivenNames v0 v1
  try clear_value v0
  have h_v1 : Ok v1 := by
    unfold v1
    repeat'
      first
        | with_reducible assumption
        | intro _
        | with_reducible first | apply ok_put | apply ok_putB | apply ok_ite
        | (with_reducible refine ok_leg ?_ ?_ <;> first | with_reducible assumption | exact fun hg => leg_same hg rfl rfl rfl rfl | skip)
        | (with_reducible refine ok_legs ?_ ?_ <;> first | with_reducible assumption | exact fun _ hg => leg_same hg rfl rfl rfl rfl | skip)
        | (with_reducible refine ok_onB ?_ ?_ <;> first | with_reducible assumption | exact fun _ h => blk_same h rfl rfl rfl | exact fun _ h => blk_noClr h rfl rfl rfl | exact fun _ h => blk_map h rfl rfl rfl fun _ hg => leg_same hg rfl rfl rfl rfl | skip)
        | exact blk_same (by assumption) rfl rfl rfl
        | split
        | dsimp only
  try clear_value v1
  repeat'
    first
      | with_reducible assumption
      | intro _
      | with_reducible first | apply ok_put | apply ok_putB | apply ok_ite
      | (with_reducible refine ok_leg ?_ ?_ <;> first | with_reducible assumption | exact fun hg => leg_same hg rfl rfl rfl rfl | skip)
      | (with_reducible refine ok_legs ?_ ?_ <;> first | with_reducible assumption | exact fun _ hg => leg_same hg rfl rfl rfl rfl | skip)
      | (with_reducible refine ok_onB ?_ ?_ <;> first | with_reducible assumption | exact fun _ h => blk_same h rfl rfl rfl | exact fun _ h => blk_noClr h rfl rfl rfl | exact fun _ h => blk_map h rfl rfl rfl fun _ hg => leg_same hg rfl rfl rfl rfl | skip)
      | exact blk_same (by assumption) rfl rfl rfl
      | split
      | dsimp only

theorem startCmd_ok {d : Dev} {nn : Fin 16} {cmd : Nat} (h_d : Ok d) : Ok (startCmd d nn cmd) := by
  unfold startCmd
  refine setPending_ok ?_
  split
  all_goals
    repeat'
      first
        | with_reducible assumption
        | with_reducible first | apply ok_setReg | apply ok_put | apply ok_putB | apply legsRelease_ok | apply armChoose_ok | apply disarmDone_ok | apply chanBlockGone_ok | apply ok_ite
        | (with_reducible refine ok_legs ?_ ?_ <;> first | with_reducible assumption | exact fun _ hg => leg_same hg rfl rfl rfl rfl | skip)
        | (with_reducible refine ok_onB ?_ ?_ <;> first | with_reducible assumption | exact fun _ h => blk_same h rfl rfl rfl | exact fun _ h => blk_noClr h rfl rfl rfl | skip)

theorem bkCtlWrite_ok {d : Dev} {nn : Fin 16} {wait : Nat} {cmds : Nat} (h_d : Ok d) : Ok (bkCtlWrite d nn wait cmds) := by
  unfold bkCtlWrite
  repeat'
    first
      | with_reducible assumption
      | intro _
      | with_reducible first | apply ok_cmdAgain | apply blkRefuse_ok | apply supersede_ok | apply startCmd_ok | apply ok_ite
      | split
      | dsimp only

theorem bkCtlHost_ok {s : State} {h : Master} {nn : Fin 16} {w : Word} (h_s : Ok s.dev) : Good s (bkCtlHost s h nn w) := by
  unfold bkCtlHost
  repeat'
    first
      | with_reducible assumption
      | intro _
      | with_reducible first | apply blkRefuse_ok | apply hostCmd_ok | apply unguard_ok | apply mirHost_ok | apply bkCtlWrite_ok | apply ok_ite | apply good_stay | apply good_onDev | apply good_onUnit | apply good_onBlock | apply good_onRegion | apply good_onChip | apply good_ite
      | split
      | dsimp only

theorem execBlockArm_ok {h : Master} {nn : Fin 16} {w : Word} {s : State} (h_s : Ok s.dev) : Good s (execBlockArm h nn w s) := by
  unfold execBlockArm
  repeat'
    first
      | with_reducible assumption
      | intro _
      | with_reducible first | apply bkCtlHost_ok | apply ok_ite | apply good_stay | apply good_onDev | apply good_onUnit | apply good_onBlock | apply good_onRegion | apply good_onChip | apply good_ite
      | split
      | dsimp only

theorem execBlockRun_ok {h : Master} {nn : Fin 16} {w : Word} {s : State} (h_s : Ok s.dev) : Good s (execBlockRun h nn w s) := by
  unfold execBlockRun
  repeat'
    first
      | with_reducible assumption
      | intro _
      | with_reducible first | apply bkCtlHost_ok | apply ok_ite | apply good_stay | apply good_onDev | apply good_onUnit | apply good_onBlock | apply good_onRegion | apply good_onChip | apply good_ite
      | split
      | dsimp only

theorem execBlockStop_ok {h : Master} {nn : Fin 16} {w : Word} {s : State} (h_s : Ok s.dev) : Good s (execBlockStop h nn w s) := by
  unfold execBlockStop
  repeat'
    first
      | with_reducible assumption
      | intro _
      | with_reducible first | apply bkCtlHost_ok | apply ok_ite | apply good_stay | apply good_onDev | apply good_onUnit | apply good_onBlock | apply good_onRegion | apply good_onChip | apply good_ite
      | split
      | dsimp only

theorem execBlockDisarm_ok {h : Master} {nn : Fin 16} {w : Word} {s : State} (h_s : Ok s.dev) : Good s (execBlockDisarm h nn w s) := by
  unfold execBlockDisarm
  repeat'
    first
      | with_reducible assumption
      | intro _
      | with_reducible first | apply bkCtlHost_ok | apply ok_ite | apply good_stay | apply good_onDev | apply good_onUnit | apply good_onBlock | apply good_onRegion | apply good_onChip | apply good_ite
      | split
      | dsimp only

theorem execBlockReset_ok {h : Master} {nn : Fin 16} {w : Word} {s : State} (h_s : Ok s.dev) : Good s (execBlockReset h nn w s) := by
  unfold execBlockReset
  repeat'
    first
      | with_reducible assumption
      | intro _
      | with_reducible first | apply bkCtlHost_ok | apply ok_ite | apply good_stay | apply good_onDev | apply good_onUnit | apply good_onBlock | apply good_onRegion | apply good_onChip | apply good_ite
      | split
      | dsimp only

theorem regsClear_map {t : Tab Word} {f : Nat × Word → Nat × Word} {c : Nat → Bool} (hf : ∀ e, (f e).1 = e.1)
    (hc : tcanon resetWord t = true) :
    tcanon resetWord ((t.map fun e => if c e.1 then e else f e).filter fun e => e.2 != resetWord e.1) = true := by
  refine tcanon_map_filter _ _ _ (fun e => ?_) (fun e he => ?_) hc
  · split
    · rfl
    · exact hf e
  · simpa using he

theorem blockRegsClear_ok {d : Dev} {nn : Fin 16} {reset : Bool} (h_d : Ok d) : Ok (blockRegsClear d nn reset) := by
  unfold blockRegsClear
  extract_lets mask one keep rs
  have h1 : ∀ e, (one e).1 = e.1 := fun _ => rfl
  exact ok_regs h_d fun _ => regsClear_map h1 h_d.regs

theorem loadRegs_ok {d : Dev} {base : Nat} {lim : Nat} {keep : Nat → Bool} {rs : List (Nat × Word)} (h_d : Ok d) : Ok (loadRegs d base lim keep rs) := by
  unfold loadRegs
  repeat'
    first
      | with_reducible assumption
      | intro _
      | with_reducible first | apply ok_setReg | apply ok_ite | apply ok_foldl | apply ok_foldl_fst | apply ok_foldl_snd
      | split
      | dsimp only

theorem calApply_ok {d : Dev} {nn : Fin 16} (h_d : Ok d) : Ok (calApply d nn) := by
  unfold calApply
  split
  all_goals
    repeat'
      first
        | with_reducible assumption
        | intro _
        | with_reducible first | apply ok_put | apply ok_inc | apply ok_ite | apply ok_foldl | apply ok_foldl_fst | apply ok_foldl_snd
        | split
        | dsimp only

theorem blk_reset_wf : Blk.wf Blk.reset = true := by decide

/-- A block filled anew is safe, whatever its operand file. -/
theorem filled_wf {b b' : Blk} (h1 : b'.leg = b.filled.leg) (h2 : b'.snap = b.filled.snap) (h3 : b'.qClr = b.filled.qClr) :
    Blk.wf b' = true := blk_same blk_reset_wf h1 h2 h3

theorem fillBlock_ok {d : Dev} {nn : Fin 16} {s : BlockSec} {reset : Bool} (h_d : Ok d) : Ok (fillBlock d nn s reset) := by
  unfold fillBlock
  extract_lets +onlyGivenNames d1 d2 d3 d4 d5 st d6 d7 d8
  have h1 : Ok d1 := blockRegsClear_ok h_d
  clear_value d1
  have h2 : Ok d2 := loadRegs_ok h1
  clear_value d2
  have h4 : Ok d4 := ok_putB (ok_putB h2)
  clear_value d4
  have h5 : Ok d5 := ok_ite h4 (ok_setReg h4)
  clear_value d5
  have h6 : Ok d6 := ok_ite (ok_setReg h5) h5
  clear_value d6
  have h7 : Ok d7 := ok_put (ok_putB h6)
  clear_value d7
  have h8 : Ok d8 := ok_onB h7 fun b _ => filled_wf (b := b) rfl rfl rfl
  clear_value d8
  repeat'
    first
      | with_reducible assumption
      | with_reducible first | apply domRecheckAll_ok | apply setPending_ok | apply actSync_ok | apply setSafe_ok | apply legsSafe_ok | apply hspCopy_ok | apply fcFill_ok | apply onK_ok | apply calApply_ok | apply ok_flag | apply encFill_ok | apply ok_ite | apply ok_forAll
      | intro _

theorem tdaTrims_ok {d : Dev} {nn : Fin 16} (h_d : Ok d) : Ok (tdaTrims d nn) := by
  unfold tdaTrims
  repeat'
    first
      | with_reducible assumption
      | intro _
      | with_reducible first | apply ok_put | apply ok_free | apply ok_ite | apply ok_forAll
      | with_reducible refine ok_snd (by assumption) ?_
      | split
      | dsimp only

theorem execBlockResetDone_ok {nn : Fin 16} {s : State} (h_s : Ok s.dev) : Good s (execBlockResetDone nn s) := by
  unfold execBlockResetDone
  repeat'
    first
      | with_reducible assumption
      | intro _
      | with_reducible first | apply ok_clr | apply ok_cmdDone | apply startCmd_ok | apply fillBlock_ok | apply ok_ite | apply good_stay | apply good_onDev | apply good_onUnit | apply good_onBlock | apply good_onRegion | apply good_onChip | apply good_ite
      | split
      | with_reducible apply ok_mk

theorem hostSwap_ok {d : Dev} {nn : Fin 16} {wait : Bool} (h_d : Ok d) : Ok (hostSwap d nn wait) := by
  unfold hostSwap
  extract_lets +onlyGivenNames v0 v1 v2
  try clear_value v0
  try clear_value v1
  try clear_value v2
  repeat'
    first
      | with_reducible assumption
      | intro _
      | with_reducible first | apply ok_flag | apply ok_clr | apply setSwapPend_ok | apply armChoose_ok | apply ok_ite
      | (with_reducible refine ok_leg ?_ ?_ <;> first | with_reducible assumption | exact fun hg => leg_same hg rfl rfl rfl rfl | skip)
      | (with_reducible refine ok_legs ?_ ?_ <;> first | with_reducible assumption | exact fun _ hg => leg_same hg rfl rfl rfl rfl | skip)
      | (with_reducible refine ok_onB ?_ ?_ <;> first | with_reducible assumption | exact fun _ h => blk_same h rfl rfl rfl | exact fun _ h => blk_noClr h rfl rfl rfl | exact fun _ h => blk_map h rfl rfl rfl fun _ hg => leg_same hg rfl rfl rfl rfl | skip)
      | exact blk_same (by assumption) rfl rfl rfl
      | split
      | dsimp only

theorem rctlWrite_ok {d : Dev} {nn : Fin 16} {wait : Bool} {w : Word} (h_d : Ok d) : Ok (rctlWrite d nn wait w) := by
  unfold rctlWrite
  extract_lets +onlyGivenNames v0 v1 v2
  try clear_value v0
  have h_v1 : Ok v1 := by
    unfold v1
    repeat'
      first
        | with_reducible assumption
        | intro _
        | with_reducible first | apply ok_clr | apply mCfg_ok | apply hostSwap_ok | apply ok_ite
        | split
        | dsimp only
  try clear_value v1
  have h_v2 : Ok v2 := by
    unfold v2
    repeat'
      first
        | with_reducible assumption
        | intro _
        | with_reducible first | apply ok_clr | apply mCfg_ok | apply hostSwap_ok | apply ok_ite
        | split
        | dsimp only
  try clear_value v2
  repeat'
    first
      | with_reducible assumption
      | intro _
      | with_reducible first | apply ok_clr | apply mCfg_ok | apply hostSwap_ok | apply ok_ite
      | split
      | dsimp only

theorem rctlHost_ok {s : State} {h : Master} {nn : Fin 16} {w : Word} (h_s : Ok s.dev) : Good s (rctlHost s h nn w) := by
  unfold rctlHost
  repeat'
    first
      | with_reducible assumption
      | intro _
      | with_reducible first | apply hostW_ok | apply mCfg_ok | apply mirHost_ok | apply rctlWrite_ok | apply ok_ite | apply good_stay | apply good_onDev | apply good_onUnit | apply good_onBlock | apply good_onRegion | apply good_onChip | apply good_ite
      | split
      | dsimp only

theorem execSwap_ok {h : Master} {nn : Fin 16} {w : Word} {s : State} (h_s : Ok s.dev) : Good s (execSwap h nn w s) := by
  unfold execSwap
  repeat'
    first
      | with_reducible assumption
      | intro _
      | with_reducible first | apply rctlHost_ok | apply ok_ite | apply good_stay | apply good_onDev | apply good_onUnit | apply good_onBlock | apply good_onRegion | apply good_onChip | apply good_ite
      | split
      | dsimp only

theorem execLclr_ok {h : Master} {nn : Fin 16} {w : Word} {s : State} (h_s : Ok s.dev) : Good s (execLclr h nn w s) := by
  unfold execLclr
  repeat'
    first
      | with_reducible assumption
      | intro _
      | with_reducible first | apply rctlHost_ok | apply ok_ite | apply good_stay | apply good_onDev | apply good_onUnit | apply good_onBlock | apply good_onRegion | apply good_onChip | apply good_ite
      | split
      | dsimp only

theorem hspCtlWrite_ok {d : Dev} {nn : Fin 16} {c : Nat} (h_d : Ok d) : Ok (hspCtlWrite d nn c) := by
  unfold hspCtlWrite
  repeat'
    first
      | with_reducible assumption
      | intro _
      | with_reducible first | apply ok_flag | apply ok_cmdAgain | apply hspHeld_ok | apply ok_ite
      | split
      | dsimp only

theorem execHspCommit_ok {h : Master} {nn : Fin 16} {w : Word} {s : State} (h_s : Ok s.dev) : Good s (execHspCommit h nn w s) := by
  unfold execHspCommit
  repeat'
    first
      | with_reducible assumption
      | intro _
      | with_reducible first | apply hostW_ok | apply mirHost_ok | apply hspCtlWrite_ok | apply ok_ite | apply good_stay | apply good_onDev | apply good_onUnit | apply good_onBlock | apply good_onRegion | apply good_onChip | apply good_ite
      | split
      | dsimp only

theorem segwrDo_ok {d : Dev} {nn : Fin 16} {v : Nat} (h_d : Ok d) : Ok (segwrDo d nn v) := by
  unfold segwrDo
  extract_lets +onlyGivenNames v0 v1
  try clear_value v0
  try clear_value v1
  repeat'
    first
      | with_reducible assumption
      | intro _
      | with_reducible first | apply ok_put | apply ok_flag | apply ok_ite
      | split
      | dsimp only

theorem execSegwrWrite_ok {h : Master} {nn : Fin 16} {w : Word} {s : State} (h_s : Ok s.dev) : Good s (execSegwrWrite h nn w s) := by
  unfold execSegwrWrite
  repeat'
    first
      | with_reducible assumption
      | intro _
      | with_reducible first | apply hostW_ok | apply mirHost_ok | apply segwrDo_ok | apply ok_ite | apply good_stay | apply good_onDev | apply good_onUnit | apply good_onBlock | apply good_onRegion | apply good_onChip | apply good_ite
      | split
      | dsimp only

theorem segmentDo_ok {d : Dev} {nn : Fin 16} {g : Fin 32} {i : Fin 8} {w : Word} (h_d : Ok d) : Ok (segmentDo d nn g i w) := by
  unfold segmentDo
  extract_lets +onlyGivenNames v0
  try clear_value v0
  repeat'
    first
      | with_reducible assumption
      | intro _
      | with_reducible first | apply ok_put | apply ok_flag | apply ok_ite
      | split
      | dsimp only

theorem execSegmentWrite_ok {h : Master} {nn : Fin 16} {g : Fin 32} {i : Fin 8} {w : Word} {s : State} (h_s : Ok s.dev) : Good s (execSegmentWrite h nn g i w s) := by
  unfold execSegmentWrite
  repeat'
    first
      | with_reducible assumption
      | intro _
      | with_reducible first | apply hostCmd_ok | apply mirHost_ok | apply segmentDo_ok | apply ok_ite | apply good_stay | apply good_onDev | apply good_onUnit | apply good_onBlock | apply good_onRegion | apply good_onChip | apply good_ite
      | split
      | dsimp only

theorem kCtlHost_ok {s : State} {h : Master} {k : KIx} {w : Word} (h_s : Ok s.dev) : Good s (kCtlHost s h k w) := by
  unfold kCtlHost
  repeat'
    first
      | with_reducible assumption
      | intro _
      | with_reducible first | apply kCtlWrite_ok | apply hostW_ok | apply mirHost_ok | apply ok_ite | apply good_stay | apply good_onDev | apply good_onUnit | apply good_onBlock | apply good_onRegion | apply good_onChip | apply good_ite
      | split
      | dsimp only

theorem execGoman_ok {h : Master} {nn : Fin 16} {m : Fin 12} {w : Word} {s : State} (h_s : Ok s.dev) : Good s (execGoman h nn m w s) := by
  unfold execGoman
  repeat'
    first
      | with_reducible assumption
      | intro _
      | with_reducible first | apply kCtlHost_ok | apply ok_ite | apply good_stay | apply good_onDev | apply good_onUnit | apply good_onBlock | apply good_onRegion | apply good_onChip | apply good_ite
      | split
      | dsimp only

theorem execGoauto_ok {h : Master} {nn : Fin 16} {m : Fin 12} {w : Word} {s : State} (h_s : Ok s.dev) : Good s (execGoauto h nn m w s) := by
  unfold execGoauto
  repeat'
    first
      | with_reducible assumption
      | intro _
      | with_reducible first | apply kCtlHost_ok | apply ok_ite | apply good_stay | apply good_onDev | apply good_onUnit | apply good_onBlock | apply good_onRegion | apply good_onChip | apply good_ite
      | split
      | dsimp only

theorem execPload_ok {h : Master} {nn : Fin 16} {m : Fin 12} {w : Word} {s : State} (h_s : Ok s.dev) : Good s (execPload h nn m w s) := by
  unfold execPload
  repeat'
    first
      | with_reducible assumption
      | intro _
      | with_reducible first | apply kCtlHost_ok | apply ok_ite | apply good_stay | apply good_onDev | apply good_onUnit | apply good_onBlock | apply good_onRegion | apply good_onChip | apply good_ite
      | split
      | dsimp only

theorem execPreset_ok {h : Master} {nn : Fin 16} {m : Fin 12} {w : Word} {s : State} (h_s : Ok s.dev) : Good s (execPreset h nn m w s) := by
  unfold execPreset
  repeat'
    first
      | with_reducible assumption
      | intro _
      | with_reducible first | apply kCtlHost_ok | apply ok_ite | apply good_stay | apply good_onDev | apply good_onUnit | apply good_onBlock | apply good_onRegion | apply good_onChip | apply good_ite
      | split
      | dsimp only

theorem execSnap_ok {h : Master} {nn : Fin 16} {m : Fin 12} {w : Word} {s : State} (h_s : Ok s.dev) : Good s (execSnap h nn m w s) := by
  unfold execSnap
  repeat'
    first
      | with_reducible assumption
      | intro _
      | with_reducible first | apply kCtlHost_ok | apply ok_ite | apply good_stay | apply good_onDev | apply good_onUnit | apply good_onBlock | apply good_onRegion | apply good_onChip | apply good_ite
      | split
      | dsimp only

theorem execFclr_ok {h : Master} {nn : Fin 16} {m : Fin 12} {w : Word} {s : State} (h_s : Ok s.dev) : Good s (execFclr h nn m w s) := by
  unfold execFclr
  repeat'
    first
      | with_reducible assumption
      | intro _
      | with_reducible first | apply kCtlHost_ok | apply ok_ite | apply good_stay | apply good_onDev | apply good_onUnit | apply good_onBlock | apply good_onRegion | apply good_onChip | apply good_ite
      | split
      | dsimp only

end Sys2Proof.Machine
end

