-- ==== Sys2Proof/Laws/KeepImages.lean ====
section
/-! SUPPORT. The invariant kept by every operation of Machine/Images.lean. -/

set_option linter.unreachableTactic false
set_option linter.unusedTactic false

namespace Sys2Proof.Machine

theorem bootCause_ok {d : Dev} {code : Nat} {img : Nat} {bank : Bool} (h_d : Ok d) : Ok (bootCause d code img bank) := by
  unfold bootCause
  repeat'
    first
      | with_reducible assumption
      | intro _
      | with_reducible first | apply ok_put | apply ok_putB | apply ok_ite
      | split
      | dsimp only

theorem onBank_ok {d : Dev} {b : Bool} {f : Bank → Bank} (h_d : Ok d) : Ok (onBank d b f) := by
  unfold onBank
  repeat'
    first
      | with_reducible assumption
      | intro _
      | with_reducible first | apply ok_ite
      | split
      | with_reducible apply ok_mk

theorem recPut_ok {d : Dev} {f : BankRec → BankRec} (h_d : Ok d) : Ok (recPut d f).2 := by
  unfold recPut
  extract_lets +onlyGivenNames v0 v1 v2 v3
  try clear_value v0
  try clear_value v1
  try clear_value v2
  try clear_value v3
  repeat'
    first
      | with_reducible assumption
      | intro _
      | with_reducible first | apply ok_free | apply onBank_ok | apply ok_ite
      | with_reducible refine ok_snd (by assumption) ?_
      | split
      | dsimp only

theorem recWrite_ok {d : Dev} {f : BankRec → BankRec} (h_d : Ok d) : Ok (recWrite d f) := by
  unfold recWrite
  repeat'
    first
      | with_reducible assumption
      | intro _
      | with_reducible first | apply recPut_ok | apply ok_ite
      | with_reducible refine ok_snd (by assumption) ?_
      | split
      | dsimp only

end Sys2Proof.Machine
end

