-- ==== Sys2Proof/Laws/KeepQueues.lean ====
section
/-! SUPPORT. The invariant kept by every operation of Machine/Queues.lean. -/

set_option linter.unreachableTactic false
set_option linter.unusedTactic false

namespace Sys2Proof.Machine

theorem onQ_ok {d : Dev} {n : Fin 4} {q : Fin 64} {f : Queue → Queue} (h_d : Ok d) : Ok (onQ d n q f) := by
  unfold onQ
  repeat'
    first
      | with_reducible assumption
      | intro _
      | with_reducible first | apply ok_ite
      | (with_reducible refine ok_onR ?_ ?_ <;> first | with_reducible assumption | exact fun _ h => rgn_same h rfl rfl rfl rfl rfl | skip)
      | exact rgn_same (by assumption) rfl rfl rfl rfl rfl
      | split
      | dsimp only

theorem regionErr_ok {d : Dev} {n : Fin 4} {cause : Nat} (h_d : Ok d) : Ok (regionErr d n cause) := by
  unfold regionErr
  extract_lets +onlyGivenNames v0 v1 v2
  have h_v0 : Ok v0 := by
    unfold v0
    repeat'
      first
        | with_reducible assumption
        | intro _
        | with_reducible first | apply ok_put | apply ok_flag | apply ok_inc | apply ok_incSat | apply ok_raise | apply ok_ite
        | split
        | with_reducible apply ok_mk
  try clear_value v0
  have h_v1 : Ok v1 := by
    unfold v1
    repeat'
      first
        | with_reducible assumption
        | intro _
        | with_reducible first | apply ok_put | apply ok_flag | apply ok_inc | apply ok_incSat | apply ok_raise | apply ok_ite
        | split
        | with_reducible apply ok_mk
  try clear_value v1
  have h_v2 : Ok v2 := by
    unfold v2
    repeat'
      first
        | with_reducible assumption
        | intro _
        | with_reducible first | apply ok_put | apply ok_flag | apply ok_inc | apply ok_incSat | apply ok_raise | apply ok_ite
        | split
        | with_reducible apply ok_mk
  try clear_value v2
  repeat'
    first
      | with_reducible assumption
      | intro _
      | with_reducible first | apply ok_put | apply ok_flag | apply ok_inc | apply ok_incSat | apply ok_raise | apply ok_ite
      | split
      | with_reducible apply ok_mk

theorem qerr_ok {d : Dev} {n : Fin 4} (h_d : Ok d) : Ok (qerr d n) := by
  unfold qerr
  extract_lets +onlyGivenNames v0 v1
  have h_v0 : Ok v0 := by
    unfold v0
    repeat'
      first
        | with_reducible assumption
        | intro _
        | with_reducible first | apply ok_flag | apply ok_incSat | apply regionErr_ok | apply ok_ite
        | (with_reducible refine ok_onR ?_ ?_ <;> first | with_reducible assumption | exact fun _ h => rgn_same h rfl rfl rfl rfl rfl | skip)
        | exact rgn_same (by assumption) rfl rfl rfl rfl rfl
        | split
        | dsimp only
  try clear_value v0
  try clear_value v1
  repeat'
    first
      | with_reducible assumption
      | intro _
      | with_reducible first | apply ok_flag | apply ok_incSat | apply regionErr_ok | apply ok_ite
      | (with_reducible refine ok_onR ?_ ?_ <;> first | with_reducible assumption | exact fun _ h => rgn_same h rfl rfl rfl rfl rfl | skip)
      | exact rgn_same (by assumption) rfl rfl rfl rfl rfl
      | split
      | dsimp only

theorem queueEvent_ok {d : Dev} {n : Fin 4} {q : Fin 64} (h_d : Ok d) : Ok (queueEvent d n q) := by
  unfold queueEvent
  repeat'
    first
      | with_reducible assumption
      | intro _
      | with_reducible first | apply ok_raise | apply ok_ite
      | split
      | dsimp only

theorem takeCell_ok {d : Dev} {n : Fin 4} {q : Fin 64} {prev : Option Nat} (h_d : Ok d) : Ok (takeCell d n q prev).2 := by
  unfold takeCell
  refine ok_onR (ok_free h_d) fun r hr => ?_
  have h := rgn_iff.1 hr
  refine rgn_iff.2 ⟨tcanon_tset _ _ _ h.1, h.2.1, ?_, h.2.2.2⟩
  dsimp only
  split
  · exact tcanon_tset _ _ _ (tcanon_tset _ _ _ h.2.2.1)
  · exact tcanon_tset _ _ _ h.2.2.1

theorem takeCells_ok {d : Dev} {n : Fin 4} {q : Fin 64} {k : Nat} (h_d : Ok d) : Ok (takeCells d n q k).2 := by
  unfold takeCells
  exact ok_foldl_snd h_d fun _ _ h => takeCell_ok h

theorem freeCell_ok {d : Dev} {n : Fin 4} {c : Nat} (h_d : Ok d) : Ok (freeCell d n c) := by
  unfold freeCell
  refine ok_onR (ok_free h_d) fun r hr => ?_
  have h := rgn_iff.1 hr
  exact rgn_iff.2 ⟨tcanon_tset _ _ _ h.1, h.2.1, tcanon_tset _ _ _ h.2.2.1, h.2.2.2⟩

theorem freeCells_ok {d : Dev} {n : Fin 4} {cs : List Nat} (h_d : Ok d) : Ok (freeCells d n cs) := by
  unfold freeCells
  repeat'
    first
      | with_reducible assumption
      | intro _
      | with_reducible first | apply freeCell_ok | apply ok_ite | apply ok_foldl | apply ok_foldl_fst | apply ok_foldl_snd
      | with_reducible refine ok_snd (by assumption) ?_
      | split
      | dsimp only

theorem genUp_ok {d : Dev} {n : Fin 4} {c : Nat} (h_d : Ok d) : Ok (genUp d n c) := by
  unfold genUp
  refine ok_onR h_d fun r hr => ?_
  have h := rgn_iff.1 hr
  exact rgn_iff.2 ⟨h.1, tcanon_tset _ _ _ h.2.1, h.2.2⟩

theorem putCell_ok {d : Dev} {n : Fin 4} {cells : List Nat} {i : Nat} {w : Word} (h_d : Ok d) : Ok (putCell d n cells i w) := by
  unfold putCell
  refine ok_onR h_d fun r hr => ?_
  have h := rgn_iff.1 hr
  exact rgn_iff.2 ⟨h.1, h.2.1, h.2.2.1, tcanon_tset _ _ _ h.2.2.2.1, h.2.2.2.2⟩

theorem putCells_ok {d : Dev} {n : Fin 4} {cells : List Nat} {i : Nat} {ws : List Word} (h_d : Ok d) : Ok (putCells d n cells i ws) := by
  unfold putCells
  exact ok_foldl_fst h_d fun _ _ h => putCell_ok h

theorem qDropped_ok {d : Dev} {n : Fin 4} {q : Fin 64} (h_d : Ok d) : Ok (qDropped d n q) := by
  unfold qDropped
  repeat'
    first
      | with_reducible assumption
      | intro _
      | with_reducible first | apply ok_flag | apply ok_inc | apply ok_ite
      | split
      | dsimp only

theorem qDropEvent_ok {d : Dev} {n : Fin 4} {q : Fin 64} (h_d : Ok d) : Ok (qDropEvent d n q) := by
  unfold qDropEvent
  repeat'
    first
      | with_reducible assumption
      | intro _
      | with_reducible first | apply queueEvent_ok | apply qDropped_ok | apply ok_ite
      | split
      | dsimp only

theorem popReply_ok {d : Dev} {e : Master × Option Word} {w : Word} (h_d : Ok d) : Ok (popReply d e w) := by
  unfold popReply
  repeat'
    first
      | with_reducible assumption
      | intro _
      | with_reducible first | apply answer_ok | apply ok_ite
      | split
      | dsimp only

theorem stallsEnd_ok {d : Dev} {n : Fin 4} {q : Fin 64} (h_d : Ok d) : Ok (stallsEnd d n q) := by
  unfold stallsEnd
  repeat'
    first
      | with_reducible assumption
      | intro _
      | with_reducible first | apply ok_flag | apply popReply_ok | apply ok_ite | apply ok_foldl | apply ok_foldl_fst | apply ok_foldl_snd
      | split
      | dsimp only

theorem resetQueue_ok {d : Dev} {n : Fin 4} {q : Fin 64} {mismatch : Bool} (h_d : Ok d) : Ok (resetQueue d n q mismatch) := by
  unfold resetQueue
  extract_lets +onlyGivenNames v0 v1 v2 v3 v4 v5 v6 v7
  try clear_value v0
  have h_v1 : Ok v1 := by
    unfold v1
    repeat'
      first
        | with_reducible assumption
        | intro _
        | with_reducible first | apply ok_put | apply ok_flag | apply ok_clr | apply ok_inc | apply chanQueueGone_ok | apply onQ_ok | apply qerr_ok | apply queueEvent_ok | apply qDropEvent_ok | apply stallsEnd_ok | apply mismatch_ok | apply ok_ite
        | (with_reducible refine ok_onR ?_ ?_ <;> first | with_reducible assumption | exact fun _ h => rgn_same h rfl rfl rfl rfl rfl | skip)
        | exact rgn_same (by assumption) rfl rfl rfl rfl rfl
        | split
        | dsimp only
  try clear_value v1
  have h_v2 : Ok v2 := by
    unfold v2
    repeat'
      first
        | with_reducible assumption
        | intro _
        | with_reducible first | apply ok_put | apply ok_flag | apply ok_clr | apply ok_inc | apply chanQueueGone_ok | apply onQ_ok | apply qerr_ok | apply queueEvent_ok | apply qDropEvent_ok | apply stallsEnd_ok | apply mismatch_ok | apply ok_ite
        | (with_reducible refine ok_onR ?_ ?_ <;> first | with_reducible assumption | exact fun _ h => rgn_same h rfl rfl rfl rfl rfl | skip)
        | exact rgn_same (by assumption) rfl rfl rfl rfl rfl
        | split
        | dsimp only
  try clear_value v2
  have h_v3 : Ok v3 := by
    unfold v3
    repeat'
      first
        | with_reducible assumption
        | intro _
        | with_reducible first | apply ok_put | apply ok_flag | apply ok_clr | apply ok_inc | apply chanQueueGone_ok | apply onQ_ok | apply qerr_ok | apply queueEvent_ok | apply qDropEvent_ok | apply stallsEnd_ok | apply mismatch_ok | apply ok_ite
        | (with_reducible refine ok_onR ?_ ?_ <;> first | with_reducible assumption | exact fun _ h => rgn_same h rfl rfl rfl rfl rfl | skip)
        | exact rgn_same (by assumption) rfl rfl rfl rfl rfl
        | split
        | dsimp only
  try clear_value v3
  have h_v4 : Ok v4 := by
    unfold v4
    repeat'
      first
        | with_reducible assumption
        | intro _
        | with_reducible first | apply ok_put | apply ok_flag | apply ok_clr | apply ok_inc | apply chanQueueGone_ok | apply onQ_ok | apply qerr_ok | apply queueEvent_ok | apply qDropEvent_ok | apply stallsEnd_ok | apply mismatch_ok | apply ok_ite
        | (with_reducible refine ok_onR ?_ ?_ <;> first | with_reducible assumption | exact fun _ h => rgn_same h rfl rfl rfl rfl rfl | skip)
        | exact rgn_same (by assumption) rfl rfl rfl rfl rfl
        | split
        | dsimp only
  try clear_value v4
  have h_v5 : Ok v5 := by
    unfold v5
    repeat'
      first
        | with_reducible assumption
        | intro _
        | with_reducible first | apply ok_put | apply ok_flag | apply ok_clr | apply ok_inc | apply chanQueueGone_ok | apply onQ_ok | apply qerr_ok | apply queueEvent_ok | apply qDropEvent_ok | apply stallsEnd_ok | apply mismatch_ok | apply ok_ite
        | (with_reducible refine ok_onR ?_ ?_ <;> first | with_reducible assumption | exact fun _ h => rgn_same h rfl rfl rfl rfl rfl | skip)
        | exact rgn_same (by assumption) rfl rfl rfl rfl rfl
        | split
        | dsimp only
  try clear_value v5
  have h_v6 : Ok v6 := by
    unfold v6
    repeat'
      first
        | with_reducible assumption
        | intro _
        | with_reducible first | apply ok_put | apply ok_flag | apply ok_clr | apply ok_inc | apply chanQueueGone_ok | apply onQ_ok | apply qerr_ok | apply queueEvent_ok | apply qDropEvent_ok | apply stallsEnd_ok | apply mismatch_ok | apply ok_ite
        | (with_reducible refine ok_onR ?_ ?_ <;> first | with_reducible assumption | exact fun _ h => rgn_same h rfl rfl rfl rfl rfl | skip)
        | exact rgn_same (by assumption) rfl rfl rfl rfl rfl
        | split
        | dsimp only
  try clear_value v6
  have h_v7 : Ok v7 := by
    unfold v7
    repeat'
      first
        | with_reducible assumption
        | intro _
        | with_reducible first | apply ok_put | apply ok_flag | apply ok_clr | apply ok_inc | apply chanQueueGone_ok | apply onQ_ok | apply qerr_ok | apply queueEvent_ok | apply qDropEvent_ok | apply stallsEnd_ok | apply mismatch_ok | apply ok_ite
        | (with_reducible refine ok_onR ?_ ?_ <;> first | with_reducible assumption | exact fun _ h => rgn_same h rfl rfl rfl rfl rfl | skip)
        | exact rgn_same (by assumption) rfl rfl rfl rfl rfl
        | split
        | dsimp only
  try clear_value v7
  repeat'
    first
      | with_reducible assumption
      | intro _
      | with_reducible first | apply ok_put | apply ok_flag | apply ok_clr | apply ok_inc | apply chanQueueGone_ok | apply onQ_ok | apply qerr_ok | apply queueEvent_ok | apply qDropEvent_ok | apply stallsEnd_ok | apply mismatch_ok | apply ok_ite
      | (with_reducible refine ok_onR ?_ ?_ <;> first | with_reducible assumption | exact fun _ h => rgn_same h rfl rfl rfl rfl rfl | skip)
      | exact rgn_same (by assumption) rfl rfl rfl rfl rfl
      | split
      | dsimp only

theorem badGone_ok {d : Dev} {n : Fin 4} {q : Fin 64} (h_d : Ok d) : Ok (badGone d n q) := by
  unfold badGone
  repeat'
    first
      | with_reducible assumption
      | intro _
      | with_reducible first | apply ok_ite
      | (with_reducible refine ok_onR ?_ ?_ <;> first | with_reducible assumption | exact fun _ h => rgn_same h rfl rfl rfl rfl rfl | skip)
      | exact rgn_same (by assumption) rfl rfl rfl rfl rfl
      | split
      | dsimp only

theorem touchQ_ok {d : Dev} {n : Fin 4} {q : Fin 64} (h_d : Ok d) : Ok (touchQ d n q) := by
  unfold touchQ
  repeat'
    first
      | with_reducible assumption
      | intro _
      | with_reducible first | apply resetQueue_ok | apply badGone_ok | apply ok_ite | apply ok_foldl | apply ok_foldl_fst | apply ok_foldl_snd
      | split
      | dsimp only

theorem touchFree_ok {d : Dev} {n : Fin 4} (h_d : Ok d) : Ok (touchFree d n) := by
  unfold touchFree
  repeat'
    first
      | with_reducible assumption
      | intro _
      | with_reducible first | apply ok_flag | apply qerr_ok | apply ok_ite
      | (with_reducible refine ok_onR ?_ ?_ <;> first | with_reducible assumption | exact fun _ h => rgn_same h rfl rfl rfl rfl rfl | skip)
      | exact rgn_same (by assumption) rfl rfl rfl rfl rfl
      | split
      | dsimp only

theorem popTake_ok {d : Dev} {n : Fin 4} {q : Fin 64} (h_d : Ok d) : Ok (popTake d n q).2 := by
  unfold popTake
  extract_lets +onlyGivenNames v0
  try clear_value v0
  repeat'
    first
      | with_reducible assumption
      | intro _
      | with_reducible first | apply ok_flag | apply onQ_ok | apply freeCell_ok | apply ok_ite
      | with_reducible refine ok_snd (by assumption) ?_
      | split
      | dsimp only

theorem wake_ok {d : Dev} {n : Fin 4} {q : Fin 64} (h_d : Ok d) : Ok (wake d n q) := by
  unfold wake
  extract_lets +onlyGivenNames v0
  try clear_value v0
  repeat'
    first
      | with_reducible assumption
      | intro _
      | with_reducible first | apply onQ_ok | apply popReply_ok | apply popTake_ok | apply ok_ite | apply ok_foldl | apply ok_foldl_fst | apply ok_foldl_snd
      | with_reducible refine ok_snd (by assumption) ?_
      | split
      | dsimp only

theorem linkPkt_ok {d : Dev} {n : Fin 4} {q : Fin 64} {p : Pkt} (h_d : Ok d) : Ok (linkPkt d n q p) := by
  unfold linkPkt
  repeat'
    first
      | with_reducible assumption
      | intro _
      | with_reducible first | apply onQ_ok | apply wake_ok | apply ok_ite
      | split
      | dsimp only

theorem storePkt_ok {d : Dev} {n : Fin 4} {q : Fin 64} {pri : Nat} {len : Nat} {ws : List Word} (h_d : Ok d) : Ok (storePkt d n q pri len ws).2 := by
  unfold storePkt
  extract_lets +onlyGivenNames v0 v1
  have h_v0 : Ok v0 := by
    unfold v0
    repeat'
      first
        | with_reducible assumption
        | intro _
        | with_reducible first | apply takeCells_ok | apply putCells_ok | apply touchQ_ok | apply touchFree_ok | apply linkPkt_ok | apply ok_ite
        | with_reducible refine ok_snd (by assumption) ?_
        | split
        | dsimp only
  try clear_value v0
  try clear_value v1
  repeat'
    first
      | with_reducible assumption
      | intro _
      | with_reducible first | apply takeCells_ok | apply putCells_ok | apply touchQ_ok | apply touchFree_ok | apply linkPkt_ok | apply ok_ite
      | with_reducible refine ok_snd (by assumption) ?_
      | split
      | dsimp only

theorem dropOpen_ok {d : Dev} {n : Fin 4} {q : Fin 64} (h_d : Ok d) : Ok (dropOpen d n q) := by
  unfold dropOpen
  extract_lets +onlyGivenNames v0
  have h_v0 : Ok v0 := by
    unfold v0
    repeat'
      first
        | with_reducible assumption
        | intro _
        | with_reducible first | apply onQ_ok | apply freeCells_ok | apply qDropEvent_ok | apply ok_ite
        | with_reducible refine ok_snd (by assumption) ?_
        | split
        | dsimp only
  try clear_value v0
  repeat'
    first
      | with_reducible assumption
      | intro _
      | with_reducible first | apply onQ_ok | apply freeCells_ok | apply qDropEvent_ok | apply ok_ite
      | with_reducible refine ok_snd (by assumption) ?_
      | split
      | dsimp only

theorem openPkt_ok {d : Dev} {n : Fin 4} {q : Fin 64} {d' : Dev} (e : openPkt d n q = some d') (h_d : Ok d) : Ok d' := by
  unfold openPkt at e
  dsimp only at e
  split at e
  · injection e with e; exact e ▸ h_d
  · split at e
    · injection e with e
      exact e ▸ onQ_ok (takeCell_ok h_d)
    · injection e

theorem pushWord_ok {d : Dev} {n : Fin 4} {q : Fin 64} {who : Nat} {w : Word} (h_d : Ok d) : Ok (pushWord d n q who w) := by
  unfold pushWord
  extract_lets +onlyGivenNames v0
  have h_v0 : Ok v0 := by
    unfold v0
    repeat'
      first
        | with_reducible assumption
        | intro _
        | with_reducible first | apply ok_inc | apply onQ_ok | apply takeCell_ok | apply putCell_ok | apply touchQ_ok | apply touchFree_ok | apply dropOpen_ok | apply ok_ite
        | (with_reducible refine ok_onR ?_ ?_ <;> first | with_reducible assumption | exact fun _ h => rgn_same h rfl rfl rfl rfl rfl | skip)
        | with_reducible refine openPkt_ok (by assumption) ?_
        | with_reducible refine ok_snd (by assumption) ?_
        | exact rgn_same (by assumption) rfl rfl rfl rfl rfl
        | split
        | dsimp only
  try clear_value v0
  repeat'
    first
      | with_reducible assumption
      | intro _
      | with_reducible first | apply ok_inc | apply onQ_ok | apply takeCell_ok | apply putCell_ok | apply touchQ_ok | apply touchFree_ok | apply dropOpen_ok | apply ok_ite
      | (with_reducible refine ok_onR ?_ ?_ <;> first | with_reducible assumption | exact fun _ h => rgn_same h rfl rfl rfl rfl rfl | skip)
      | with_reducible refine openPkt_ok (by assumption) ?_
      | with_reducible refine ok_snd (by assumption) ?_
      | exact rgn_same (by assumption) rfl rfl rfl rfl rfl
      | split
      | dsimp only

theorem closePkt_ok {d : Dev} {n : Fin 4} {q : Fin 64} {who : Nat} {w : Word} (h_d : Ok d) : Ok (closePkt d n q who w) := by
  unfold closePkt
  extract_lets +onlyGivenNames v0
  have h_v0 : Ok v0 := by
    unfold v0
    repeat'
      first
        | with_reducible assumption
        | intro _
        | with_reducible first | apply ok_inc | apply onQ_ok | apply putCells_ok | apply touchQ_ok | apply touchFree_ok | apply linkPkt_ok | apply dropOpen_ok | apply ok_ite
        | (with_reducible refine ok_onR ?_ ?_ <;> first | with_reducible assumption | exact fun _ h => rgn_same h rfl rfl rfl rfl rfl | skip)
        | with_reducible refine openPkt_ok (by assumption) ?_
        | exact rgn_same (by assumption) rfl rfl rfl rfl rfl
        | split
        | dsimp only
  try clear_value v0
  repeat'
    first
      | with_reducible assumption
      | intro _
      | with_reducible first | apply ok_inc | apply onQ_ok | apply putCells_ok | apply touchQ_ok | apply touchFree_ok | apply linkPkt_ok | apply dropOpen_ok | apply ok_ite
      | (with_reducible refine ok_onR ?_ ?_ <;> first | with_reducible assumption | exact fun _ h => rgn_same h rfl rfl rfl rfl rfl | skip)
      | with_reducible refine openPkt_ok (by assumption) ?_
      | exact rgn_same (by assumption) rfl rfl rfl rfl rfl
      | split
      | dsimp only

theorem popTry_ok {d : Dev} {n : Fin 4} {q : Fin 64} {m : Master} (h_d : Ok d) : Ok (popTry d n q m).2 := by
  unfold popTry
  extract_lets +onlyGivenNames v0 v1
  have h_v0 : Ok v0 := by
    unfold v0
    repeat'
      first
        | with_reducible assumption
        | intro _
        | with_reducible first | apply ok_flag | apply touchQ_ok | apply touchFree_ok | apply popTake_ok | apply ok_ite
        | with_reducible refine ok_snd (by assumption) ?_
        | split
        | dsimp only
  try clear_value v0
  try clear_value v1
  repeat'
    first
      | with_reducible assumption
      | intro _
      | with_reducible first | apply ok_flag | apply touchQ_ok | apply touchFree_ok | apply popTake_ok | apply ok_ite
      | with_reducible refine ok_snd (by assumption) ?_
      | split
      | dsimp only

theorem popStall_ok {d : Dev} {n : Fin 4} {q : Fin 64} {m : Master} {low : Option Word} (h_d : Ok d) : Ok (popStall d n q m low) := by
  unfold popStall
  repeat'
    first
      | with_reducible assumption
      | intro _
      | with_reducible first | apply onQ_ok | apply ok_ite
      | split
      | dsimp only

theorem popBy_ok {d : Dev} {n : Fin 4} {q : Fin 64} {m : Master} (h_d : Ok d) : Ok (popBy d n q m) := by
  unfold popBy
  split
  all_goals
    repeat'
      first
        | with_reducible assumption
        | intro _
        | with_reducible first | apply answer_ok | apply popTry_ok | apply popStall_ok | apply ok_ite
        | with_reducible refine ok_snd (by assumption) ?_
        | split
        | dsimp only

theorem popExpire_ok {d : Dev} {n : Fin 4} {q : Fin 64} (h_d : Ok d) : Ok (popExpire d n q) := by
  unfold popExpire
  split
  all_goals
    repeat'
      first
        | with_reducible assumption
        | intro _
        | with_reducible first | apply ok_flag | apply onQ_ok | apply popReply_ok | apply ok_ite
        | split
        | dsimp only

theorem freeOwned_ok {d : Dev} {n : Fin 4} {q : Fin 64} {p : Pkt} (h_d : Ok d) : Ok (freeOwned d n q p) := by
  unfold freeOwned
  extract_lets +onlyGivenNames v0
  have h_v0 : Ok v0 := by
    unfold v0
    repeat'
      first
        | with_reducible assumption
        | intro _
        | with_reducible first | apply onQ_ok | apply freeCells_ok | apply genUp_ok | apply ok_ite
        | with_reducible refine ok_snd (by assumption) ?_
        | split
        | dsimp only
  try clear_value v0
  repeat'
    first
      | with_reducible assumption
      | intro _
      | with_reducible first | apply onQ_ok | apply freeCells_ok | apply genUp_ok | apply ok_ite
      | with_reducible refine ok_snd (by assumption) ?_
      | split
      | dsimp only

theorem ackEntry_ok {d : Dev} {n : Fin 4} {q : Fin 64} {w : Word} (h_d : Ok d) : Ok (ackEntry d n q w) := by
  unfold ackEntry
  extract_lets +onlyGivenNames v0 v1
  have h_v0 : Ok v0 := by
    unfold v0
    repeat'
      first
        | with_reducible assumption
        | intro _
        | with_reducible first | apply ok_flag | apply touchQ_ok | apply touchFree_ok | apply freeOwned_ok | apply ok_ite
        | with_reducible refine ok_snd (by assumption) ?_
        | split
        | dsimp only
  try clear_value v0
  try clear_value v1
  repeat'
    first
      | with_reducible assumption
      | intro _
      | with_reducible first | apply ok_flag | apply touchQ_ok | apply touchFree_ok | apply freeOwned_ok | apply ok_ite
      | with_reducible refine ok_snd (by assumption) ?_
      | split
      | dsimp only

theorem reclaim_ok {d : Dev} {n : Fin 4} {q : Fin 64} {c : Nat} (h_d : Ok d) : Ok (reclaim d n q c) := by
  unfold reclaim
  extract_lets +onlyGivenNames v0
  have h_v0 : Ok v0 := by
    unfold v0
    repeat'
      first
        | with_reducible assumption
        | intro _
        | with_reducible first | apply ok_flag | apply ok_inc | apply queueEvent_ok | apply touchQ_ok | apply touchFree_ok | apply freeOwned_ok | apply ok_ite
        | with_reducible refine ok_snd (by assumption) ?_
        | split
        | dsimp only
  try clear_value v0
  repeat'
    first
      | with_reducible assumption
      | intro _
      | with_reducible first | apply ok_flag | apply ok_inc | apply queueEvent_ok | apply touchQ_ok | apply touchFree_ok | apply freeOwned_ok | apply ok_ite
      | with_reducible refine ok_snd (by assumption) ?_
      | split
      | dsimp only

theorem slag_ok {d : Dev} {n : Fin 4} {q : Fin 64} (h_d : Ok d) : Ok (slag d n q) := by
  unfold slag
  extract_lets +onlyGivenNames v0
  have h_v0 : Ok v0 := by
    unfold v0
    repeat'
      first
        | with_reducible assumption
        | intro _
        | with_reducible first | apply ok_flag | apply onQ_ok | apply freeCells_ok | apply touchQ_ok | apply touchFree_ok | apply ok_ite
        | with_reducible refine ok_snd (by assumption) ?_
        | split
        | dsimp only
  try clear_value v0
  repeat'
    first
      | with_reducible assumption
      | intro _
      | with_reducible first | apply ok_flag | apply onQ_ok | apply freeCells_ok | apply touchQ_ok | apply touchFree_ok | apply ok_ite
      | with_reducible refine ok_snd (by assumption) ?_
      | split
      | dsimp only

theorem scrubEnd_ok {d : Dev} {n : Fin 4} {q : Fin 64} (h_d : Ok d) : Ok (scrubEnd d n q) := by
  unfold scrubEnd
  extract_lets +onlyGivenNames v0 v1 v2 v3 v4
  have h_v0 : Ok v0 := by
    unfold v0
    repeat'
      first
        | with_reducible assumption
        | intro _
        | with_reducible first | apply ok_clr | apply onQ_ok | apply freeCells_ok | apply genUp_ok | apply putCells_ok | apply resetQueue_ok | apply badGone_ok | apply touchFree_ok | apply ok_ite | apply ok_foldl | apply ok_foldl_fst | apply ok_foldl_snd
        | with_reducible refine ok_snd (by assumption) ?_
        | split
        | dsimp only
  try clear_value v0
  try clear_value v1
  have h_v2 : Ok v2 := by
    unfold v2
    repeat'
      first
        | with_reducible assumption
        | intro _
        | with_reducible first | apply ok_clr | apply onQ_ok | apply freeCells_ok | apply genUp_ok | apply putCells_ok | apply resetQueue_ok | apply badGone_ok | apply touchFree_ok | apply ok_ite | apply ok_foldl | apply ok_foldl_fst | apply ok_foldl_snd
        | with_reducible refine ok_snd (by assumption) ?_
        | split
        | dsimp only
  try clear_value v2
  have h_v3 : Ok v3 := by
    unfold v3
    repeat'
      first
        | with_reducible assumption
        | intro _
        | with_reducible first | apply ok_clr | apply onQ_ok | apply freeCells_ok | apply genUp_ok | apply putCells_ok | apply resetQueue_ok | apply badGone_ok | apply touchFree_ok | apply ok_ite | apply ok_foldl | apply ok_foldl_fst | apply ok_foldl_snd
        | with_reducible refine ok_snd (by assumption) ?_
        | split
        | dsimp only
  try clear_value v3
  have h_v4 : Ok v4 := by
    unfold v4
    repeat'
      first
        | with_reducible assumption
        | intro _
        | with_reducible first | apply ok_clr | apply onQ_ok | apply freeCells_ok | apply genUp_ok | apply putCells_ok | apply resetQueue_ok | apply badGone_ok | apply touchFree_ok | apply ok_ite | apply ok_foldl | apply ok_foldl_fst | apply ok_foldl_snd
        | with_reducible refine ok_snd (by assumption) ?_
        | split
        | dsimp only
  try clear_value v4
  repeat'
    first
      | with_reducible assumption
      | intro _
      | with_reducible first | apply ok_clr | apply onQ_ok | apply freeCells_ok | apply genUp_ok | apply putCells_ok | apply resetQueue_ok | apply badGone_ok | apply touchFree_ok | apply ok_ite | apply ok_foldl | apply ok_foldl_fst | apply ok_foldl_snd
      | with_reducible refine ok_snd (by assumption) ?_
      | split
      | dsimp only

end Sys2Proof.Machine
end

