-- ==== Sys2Proof/Laws/KeepTransmit.lean ====
section
/-! SUPPORT. The invariant kept by every operation of Machine/Transmit.lean. -/

set_option linter.unreachableTactic false
set_option linter.unusedTactic false

namespace Sys2Proof.Machine

theorem txRecord_ok {d : Dev} {p : Fin 4} {k : Pkt} {status : Nat} {sof : Nat} (h_d : Ok d) : Ok (txRecord d p k status sof) := by
  unfold txRecord
  repeat'
    first
      | with_reducible assumption
      | intro _
      | with_reducible first | apply qDropEvent_ok | apply storePkt_ok | apply ok_ite
      | with_reducible refine ok_snd (by assumption) ?_
      | split
      | dsimp only

theorem headReport_ok {d : Dev} {p : Fin 4} {k : Pkt} {status : Nat} {sof : Nat} (h_d : Ok d) : Ok (headReport d p k status sof) := by
  unfold headReport
  extract_lets +onlyGivenNames v0
  try clear_value v0
  repeat'
    first
      | with_reducible assumption
      | intro _
      | with_reducible first | apply ownerSend_ok | apply ok_ite
      | split
      | dsimp only

theorem headGone_ok {d : Dev} {p : Fin 4} {k : Pkt} (h_d : Ok d) : Ok (headGone d p k) := by
  unfold headGone
  repeat'
    first
      | with_reducible assumption
      | intro _
      | with_reducible first | apply ok_clr | apply onQ_ok | apply freeCells_ok | apply ok_ite
      | with_reducible refine ok_snd (by assumption) ?_
      | split
      | dsimp only

theorem headCounts_ok {d : Dev} {p : Fin 4} {status : Nat} (h_d : Ok d) : Ok (headCounts d p status) := by
  unfold headCounts
  split
  all_goals
    repeat'
      first
        | with_reducible assumption
        | intro _
        | with_reducible first | apply ok_flag | apply ok_incSat | apply ok_ite
        | split
        | dsimp only

theorem touchTq_ok {d : Dev} {p : Fin 4} (h_d : Ok d) : Ok (touchTq d p) := by
  unfold touchTq
  repeat'
    first
      | with_reducible assumption
      | intro _
      | with_reducible first | apply touchQ_ok | apply touchFree_ok | apply ok_ite
      | split
      | dsimp only

theorem headLeaves_ok {d : Dev} {p : Fin 4} {k : Pkt} {status : Nat} {sof : Nat} (h_d : Ok d) : Ok (headLeaves d p k status sof) := by
  unfold headLeaves
  extract_lets +onlyGivenNames v0
  have h_v0 : Ok v0 := by
    unfold v0
    repeat'
      first
        | with_reducible assumption
        | intro _
        | with_reducible first | apply txRecord_ok | apply headReport_ok | apply headGone_ok | apply headCounts_ok | apply touchTq_ok | apply ok_ite
        | split
        | dsimp only
  try clear_value v0
  repeat'
    first
      | with_reducible assumption
      | intro _
      | with_reducible first | apply txRecord_ok | apply headReport_ok | apply headGone_ok | apply headCounts_ok | apply touchTq_ok | apply ok_ite
      | split
      | dsimp only

theorem headCheck_ok {d : Dev} {p : Fin 4} (h_d : Ok d) : Ok (headCheck d p) := by
  unfold headCheck
  repeat'
    first
      | with_reducible assumption
      | intro _
      | with_reducible first | apply headLeaves_ok | apply ok_ite | apply ok_foldl | apply ok_foldl_fst | apply ok_foldl_snd
      | split
      | dsimp only

theorem pendWord_ok {d : Dev} {n : Fin 4} {q : Fin 64} {who : Nat} {w : Word} (h_d : Ok d) : Ok (pendWord d n q who w) := by
  unfold pendWord
  extract_lets +onlyGivenNames v0 v1
  try clear_value v0
  have h_v1 : Ok v1 := by
    unfold v1
    repeat'
      first
        | with_reducible assumption
        | intro _
        | with_reducible first | apply closePkt_ok | apply headCheck_ok | apply ok_ite
        | split
        | dsimp only
  try clear_value v1
  repeat'
    first
      | with_reducible assumption
      | intro _
      | with_reducible first | apply closePkt_ok | apply headCheck_ok | apply ok_ite
      | split
      | dsimp only

theorem headAbort_ok {d : Dev} {p : Fin 4} (h_d : Ok d) : Ok (headAbort d p) := by
  unfold headAbort
  split
  all_goals
    repeat'
      first
        | with_reducible assumption
        | intro _
        | with_reducible first | apply headLeaves_ok | apply headCheck_ok | apply ok_ite
        | split
        | dsimp only

theorem headRotate_ok {d : Dev} {p : Fin 4} {k : Pkt} (h_d : Ok d) : Ok (headRotate d p k) := by
  unfold headRotate
  extract_lets +onlyGivenNames v0
  have h_v0 : Ok v0 := by
    unfold v0
    repeat'
      first
        | with_reducible assumption
        | intro _
        | with_reducible first | apply ok_flag | apply ok_clr | apply ok_inc | apply onQ_ok | apply touchTq_ok | apply headCheck_ok | apply ok_ite
        | split
        | dsimp only
  try clear_value v0
  repeat'
    first
      | with_reducible assumption
      | intro _
      | with_reducible first | apply ok_flag | apply ok_clr | apply ok_inc | apply onQ_ok | apply touchTq_ok | apply headCheck_ok | apply ok_ite
      | split
      | dsimp only

theorem winsSendable_ok {d : Dev} {p : Fin 4} (h_d : Ok d) : Ok (winsSendable d p) := by
  unfold winsSendable
  repeat'
    first
      | with_reducible assumption
      | intro _
      | with_reducible first | apply onW_ok | apply ok_ite | apply ok_forAll
      | split
      | dsimp only

theorem txClear_ok {d : Dev} {p : Fin 4} (h_d : Ok d) : Ok (txClear d p) := by
  unfold txClear
  extract_lets +onlyGivenNames v0
  have h_v0 : Ok v0 := by
    unfold v0
    repeat'
      first
        | with_reducible assumption
        | intro _
        | with_reducible first | apply ok_clr | apply onPort_ok | apply ok_ite
        | split
        | dsimp only
  try clear_value v0
  repeat'
    first
      | with_reducible assumption
      | intro _
      | with_reducible first | apply ok_clr | apply onPort_ok | apply ok_ite
      | split
      | dsimp only

theorem abortEnd_ok {d : Dev} {p : Fin 4} (h_d : Ok d) : Ok (abortEnd d p) := by
  unfold abortEnd
  extract_lets +onlyGivenNames v0
  have h_v0 : Ok v0 := by
    unfold v0
    repeat'
      first
        | with_reducible assumption
        | intro _
        | with_reducible first | apply ok_clr | apply ok_cmdDone | apply headAbort_ok | apply ok_ite
        | split
        | dsimp only
  try clear_value v0
  repeat'
    first
      | with_reducible assumption
      | intro _
      | with_reducible first | apply ok_clr | apply ok_cmdDone | apply headAbort_ok | apply ok_ite
      | split
      | dsimp only

theorem headFailed_ok {d : Dev} {p : Fin 4} {collision : Bool} {lost : Bool} (h_d : Ok d) : Ok (headFailed d p collision lost) := by
  unfold headFailed
  split
  all_goals
    repeat'
      first
        | with_reducible assumption
        | intro _
        | with_reducible first | apply ok_put | apply headLeaves_ok | apply headCheck_ok | apply headAbort_ok | apply headRotate_ok | apply abortEnd_ok | apply ok_ite
        | split
        | dsimp only

theorem txFailed_ok {d : Dev} {p : Fin 4} {collision : Bool} {lost : Bool} (h_d : Ok d) : Ok (txFailed d p collision lost) := by
  unfold txFailed
  extract_lets +onlyGivenNames v0 v1
  try clear_value v0
  have h_v1 : Ok v1 := by
    unfold v1
    repeat'
      first
        | with_reducible assumption
        | intro _
        | with_reducible first | apply ok_clr | apply ownerSend_ok | apply onW_ok | apply winFinal_ok | apply txClear_ok | apply headFailed_ok | apply ok_ite
        | split
        | dsimp only
  try clear_value v1
  repeat'
    first
      | with_reducible assumption
      | intro _
      | with_reducible first | apply ok_clr | apply ownerSend_ok | apply onW_ok | apply winFinal_ok | apply txClear_ok | apply headFailed_ok | apply ok_ite
      | split
      | dsimp only

theorem txSent_ok {d : Dev} {p : Fin 4} (h_d : Ok d) : Ok (txSent d p) := by
  unfold txSent
  extract_lets +onlyGivenNames v0 v1
  try clear_value v0
  have h_v1 : Ok v1 := by
    unfold v1
    repeat'
      first
        | with_reducible assumption
        | intro _
        | with_reducible first | apply ok_clr | apply ok_inc | apply ownerSend_ok | apply onW_ok | apply winFinal_ok | apply headLeaves_ok | apply headCheck_ok | apply txClear_ok | apply abortEnd_ok | apply ok_ite
        | split
        | dsimp only
  try clear_value v1
  repeat'
    first
      | with_reducible assumption
      | intro _
      | with_reducible first | apply ok_clr | apply ok_inc | apply ownerSend_ok | apply onW_ok | apply winFinal_ok | apply headLeaves_ok | apply headCheck_ok | apply txClear_ok | apply abortEnd_ok | apply ok_ite
      | split
      | dsimp only

theorem abortHead_ok {d : Dev} {p : Fin 4} (h_d : Ok d) : Ok (abortHead d p) := by
  unfold abortHead
  repeat'
    first
      | with_reducible assumption
      | intro _
      | with_reducible first | apply ok_flag | apply ok_cmdAgain | apply headAbort_ok | apply ok_ite
      | split
      | dsimp only

end Sys2Proof.Machine
end

