-- ==== Sys2Proof/Laws/KeepPorts.lean ====
section
/-! SUPPORT. The invariant kept by every operation of Machine/Ports.lean. -/

set_option linter.unreachableTactic false
set_option linter.unusedTactic false

namespace Sys2Proof.Machine

theorem portEvent_ok {d : Dev} {p : Fin 4} (h_d : Ok d) : Ok (portEvent d p) := by
  unfold portEvent
  repeat'
    first
      | with_reducible assumption
      | intro _
      | with_reducible first | apply ok_raise | apply ok_ite
      | split
      | dsimp only

theorem goState_ok {d : Dev} {p : Fin 4} {st : Nat} (h_d : Ok d) : Ok (goState d p st) := by
  unfold goState
  repeat'
    first
      | with_reducible assumption
      | intro _
      | with_reducible first | apply ok_put | apply ok_flag | apply ok_inc | apply onPort_ok | apply winsSendable_ok | apply portEvent_ok | apply ok_ite
      | split
      | dsimp only

theorem confine_ok {d : Dev} {p : Fin 4} (h_d : Ok d) : Ok (confine d p) := by
  unfold confine
  repeat'
    first
      | with_reducible assumption
      | intro _
      | with_reducible first | apply goState_ok | apply ok_ite
      | split
      | dsimp only

theorem setMode_ok {d : Dev} {p : Fin 4} {m : Nat} (h_d : Ok d) : Ok (setMode d p m) := by
  unfold setMode
  extract_lets +onlyGivenNames v0 v1
  have h_v0 : Ok v0 := by
    unfold v0
    repeat'
      first
        | with_reducible assumption
        | intro _
        | with_reducible first | apply ok_put | apply ok_clr | apply winsSendable_ok | apply ok_ite
        | split
        | dsimp only
  try clear_value v0
  have h_v1 : Ok v1 := by
    unfold v1
    repeat'
      first
        | with_reducible assumption
        | intro _
        | with_reducible first | apply ok_put | apply ok_clr | apply winsSendable_ok | apply ok_ite
        | split
        | dsimp only
  try clear_value v1
  repeat'
    first
      | with_reducible assumption
      | intro _
      | with_reducible first | apply ok_put | apply ok_clr | apply winsSendable_ok | apply ok_ite
      | split
      | dsimp only

theorem frameOn_ok {d : Dev} {p : Fin 4} (h_d : Ok d) : Ok (frameOn d p).2 := by
  unfold frameOn
  repeat'
    first
      | with_reducible assumption
      | intro _
      | with_reducible first | apply ok_free | apply ok_ite
      | with_reducible refine ok_snd (by assumption) ?_
      | split
      | dsimp only

theorem portStopNow_ok {d : Dev} {p : Fin 4} (h_d : Ok d) : Ok (portStopNow d p) := by
  unfold portStopNow
  extract_lets +onlyGivenNames v0 v1 v2
  try clear_value v0
  have h_v1 : Ok v1 := by
    unfold v1
    repeat'
      first
        | with_reducible assumption
        | intro _
        | with_reducible first | apply ok_clr | apply onPort_ok | apply goState_ok | apply ok_ite
        | split
        | dsimp only
  try clear_value v1
  have h_v2 : Ok v2 := by
    unfold v2
    repeat'
      first
        | with_reducible assumption
        | intro _
        | with_reducible first | apply ok_clr | apply onPort_ok | apply goState_ok | apply ok_ite
        | split
        | dsimp only
  try clear_value v2
  repeat'
    first
      | with_reducible assumption
      | intro _
      | with_reducible first | apply ok_clr | apply onPort_ok | apply goState_ok | apply ok_ite
      | split
      | dsimp only

theorem portRefuse_ok {d : Dev} {p : Fin 4} {r : Nat} (h_d : Ok d) : Ok (portRefuse d p r) := by
  unfold portRefuse
  repeat'
    first
      | with_reducible assumption
      | intro _
      | with_reducible first | apply ok_put | apply ok_flag | apply ok_ite
      | split
      | dsimp only

theorem portDone_ok {d : Dev} {f : RF (Fin 4)} {p : Fin 4} (h_d : Ok d) : Ok (portDone d f p) := by
  unfold portDone
  repeat'
    first
      | with_reducible assumption
      | intro _
      | with_reducible first | apply ok_clr | apply ok_cmdDone | apply portRefuse_ok | apply ok_ite
      | split
      | dsimp only

theorem portPend_ok {d : Dev} {p : Fin 4} (h_d : Ok d) : Ok (portPend d p) := by
  unfold portPend
  repeat'
    first
      | with_reducible assumption
      | intro _
      | with_reducible first | apply onPort_ok | apply setMode_ok | apply portStopNow_ok | apply portDone_ok | apply ok_ite
      | split
      | dsimp only

theorem modeAtIdle_ok {d : Dev} {p : Fin 4} {m : Nat} (h_d : Ok d) : Ok (modeAtIdle d p m) := by
  unfold modeAtIdle
  repeat'
    first
      | with_reducible assumption
      | intro _
      | with_reducible first | apply onPort_ok | apply frameOn_ok | apply portPend_ok | apply ok_ite
      | with_reducible refine ok_snd (by assumption) ?_
      | split
      | dsimp only

theorem ardTry_ok {d : Dev} {p : Fin 4} {c : Fin 4} (h_d : Ok d) : Ok (ardTry d p c) := by
  unfold ardTry
  extract_lets +onlyGivenNames v0
  have h_v0 : Ok v0 := by
    unfold v0
    repeat'
      first
        | with_reducible assumption
        | intro _
        | with_reducible first | apply ok_put | apply ok_clr | apply onPort_ok | apply ok_ite
        | split
        | dsimp only
  try clear_value v0
  repeat'
    first
      | with_reducible assumption
      | intro _
      | with_reducible first | apply ok_put | apply ok_clr | apply onPort_ok | apply ok_ite
      | split
      | dsimp only

theorem ardStart_ok {d : Dev} {p : Fin 4} (h_d : Ok d) : Ok (ardStart d p) := by
  unfold ardStart
  extract_lets +onlyGivenNames v0
  have h_v0 : Ok v0 := by
    unfold v0
    repeat'
      first
        | with_reducible assumption
        | intro _
        | with_reducible first | apply ok_flag | apply ok_clr | apply ardTry_ok | apply ok_ite
        | split
        | dsimp only
  try clear_value v0
  repeat'
    first
      | with_reducible assumption
      | intro _
      | with_reducible first | apply ok_flag | apply ok_clr | apply ardTry_ok | apply ok_ite
      | split
      | dsimp only

theorem ardNext_ok {d : Dev} {p : Fin 4} (h_d : Ok d) : Ok (ardNext d p) := by
  unfold ardNext
  split
  all_goals
    repeat'
      first
        | with_reducible assumption
        | intro _
        | with_reducible first | apply ok_clr | apply ardTry_ok | apply ok_ite
        | split
        | dsimp only

theorem ardLock_ok {d : Dev} {p : Fin 4} (h_d : Ok d) : Ok (ardLock d p) := by
  unfold ardLock
  extract_lets +onlyGivenNames v0 v1 v2 v3
  try clear_value v0
  have h_v1 : Ok v1 := by
    unfold v1
    repeat'
      first
        | with_reducible assumption
        | intro _
        | with_reducible first | apply ok_setReg | apply ok_flag | apply ok_clr | apply ok_raise | apply onPort_ok | apply ok_ite
        | split
        | dsimp only
  try clear_value v1
  have h_v2 : Ok v2 := by
    unfold v2
    repeat'
      first
        | with_reducible assumption
        | intro _
        | with_reducible first | apply ok_setReg | apply ok_flag | apply ok_clr | apply ok_raise | apply onPort_ok | apply ok_ite
        | split
        | dsimp only
  try clear_value v2
  have h_v3 : Ok v3 := by
    unfold v3
    repeat'
      first
        | with_reducible assumption
        | intro _
        | with_reducible first | apply ok_setReg | apply ok_flag | apply ok_clr | apply ok_raise | apply onPort_ok | apply ok_ite
        | split
        | dsimp only
  try clear_value v3
  repeat'
    first
      | with_reducible assumption
      | intro _
      | with_reducible first | apply ok_setReg | apply ok_flag | apply ok_clr | apply ok_raise | apply onPort_ok | apply ok_ite
      | split
      | dsimp only

theorem ardFrame_ok {d : Dev} {p : Fin 4} {f : Frame} (h_d : Ok d) : Ok (ardFrame d p f) := by
  unfold ardFrame
  extract_lets +onlyGivenNames v0 v1
  try clear_value v0
  try clear_value v1
  repeat'
    first
      | with_reducible assumption
      | intro _
      | with_reducible first | apply ok_inc | apply ardLock_ok | apply ok_ite
      | split
      | dsimp only

theorem ardDefaults_ok {d : Dev} {p : Fin 4} (h_d : Ok d) : Ok (ardDefaults d p) := by
  unfold ardDefaults
  extract_lets +onlyGivenNames v0 v1
  try clear_value v0
  have h_v1 : Ok v1 := by
    unfold v1
    repeat'
      first
        | with_reducible assumption
        | intro _
        | with_reducible first | apply ok_setReg | apply ok_put | apply ok_ite | apply ok_forAll
        | split
        | dsimp only
  try clear_value v1
  repeat'
    first
      | with_reducible assumption
      | intro _
      | with_reducible first | apply ok_setReg | apply ok_put | apply ok_ite | apply ok_forAll
      | split
      | dsimp only

theorem portIdle_ok {d : Dev} {p : Fin 4} (h_d : Ok d) : Ok (portIdle d p) := by
  unfold portIdle
  extract_lets +onlyGivenNames v0 v1
  have h_v0 : Ok v0 := by
    unfold v0
    repeat'
      first
        | with_reducible assumption
        | intro _
        | with_reducible first | apply ok_clr | apply onPort_ok | apply txFailed_ok | apply ok_ite
        | split
        | dsimp only
  try clear_value v0
  have h_v1 : Ok v1 := by
    unfold v1
    repeat'
      first
        | with_reducible assumption
        | intro _
        | with_reducible first | apply ok_clr | apply onPort_ok | apply txFailed_ok | apply ok_ite
        | split
        | dsimp only
  try clear_value v1
  repeat'
    first
      | with_reducible assumption
      | intro _
      | with_reducible first | apply ok_clr | apply onPort_ok | apply txFailed_ok | apply ok_ite
      | split
      | dsimp only

theorem portOff_ok {d : Dev} {p : Fin 4} (h_d : Ok d) : Ok (portOff d p) := by
  unfold portOff
  extract_lets +onlyGivenNames v0 v1 v2
  try clear_value v0
  have h_v1 : Ok v1 := by
    unfold v1
    repeat'
      first
        | with_reducible assumption
        | intro _
        | with_reducible first | apply ok_clr | apply onPort_ok | apply goState_ok | apply portIdle_ok | apply ok_ite
        | split
        | dsimp only
  try clear_value v1
  have h_v2 : Ok v2 := by
    unfold v2
    repeat'
      first
        | with_reducible assumption
        | intro _
        | with_reducible first | apply ok_clr | apply onPort_ok | apply goState_ok | apply portIdle_ok | apply ok_ite
        | split
        | dsimp only
  try clear_value v2
  repeat'
    first
      | with_reducible assumption
      | intro _
      | with_reducible first | apply ok_clr | apply onPort_ok | apply goState_ok | apply portIdle_ok | apply ok_ite
      | split
      | dsimp only

theorem portsOff_ok {d : Dev} (h_d : Ok d) : Ok (portsOff d) := by
  unfold portsOff
  repeat'
    first
      | with_reducible assumption
      | intro _
      | with_reducible first | apply portOff_ok | apply ok_ite | apply ok_forAll
      | split
      | dsimp only

theorem portNoPat_ok {d : Dev} {p : Fin 4} (h_d : Ok d) : Ok (portNoPat d p) := by
  unfold portNoPat
  repeat'
    first
      | with_reducible assumption
      | intro _
      | with_reducible first | apply ok_clr | apply onPort_ok | apply goState_ok | apply setMode_ok | apply ardStart_ok | apply ardDefaults_ok | apply portIdle_ok | apply portOff_ok | apply ok_ite
      | split
      | dsimp only

theorem restartRegs_ok {d : Dev} {p : Fin 4} {rs : List (Nat × Word)} (h_d : Ok d) : Ok (restartRegs d p rs) := by
  unfold restartRegs
  extract_lets +onlyGivenNames v0
  try clear_value v0
  repeat'
    first
      | with_reducible assumption
      | intro _
      | with_reducible first | apply loadRegs_ok | apply ok_ite
      | split
      | dsimp only

theorem portRestart_ok {d : Dev} {p : Fin 4} {keepBoff : Bool} (h_d : Ok d) : Ok (portRestart d p keepBoff) := by
  unfold portRestart
  split
  all_goals
    repeat'
      first
        | with_reducible assumption
        | intro _
        | with_reducible first | apply ok_put | apply ok_clr | apply onPort_ok | apply goState_ok | apply setMode_ok | apply portIdle_ok | apply portOff_ok | apply portNoPat_ok | apply restartRegs_ok | apply ok_ite
        | split
        | dsimp only

theorem portListen_ok {d : Dev} {p : Fin 4} (h_d : Ok d) : Ok (portListen d p) := by
  unfold portListen
  repeat'
    first
      | with_reducible assumption
      | intro _
      | with_reducible first | apply modeAtIdle_ok | apply ok_ite
      | split
      | dsimp only

theorem portDo_ok {d : Dev} {p : Fin 4} {cmd : Nat} (h_d : Ok d) : Ok (portDo d p cmd) := by
  unfold portDo
  split
  all_goals
    repeat'
      first
        | with_reducible assumption
        | intro _
        | with_reducible first | apply ok_flag | apply ok_clr | apply ok_cmdAgain | apply goState_ok | apply setMode_ok | apply frameOn_ok | apply portPend_ok | apply ardStart_ok | apply ok_ite
        | with_reducible refine ok_snd (by assumption) ?_
        | split
        | dsimp only

theorem bpCtlWrite_ok {d : Dev} {p : Fin 4} {w : Word} (h_d : Ok d) : Ok (bpCtlWrite d p w) := by
  unfold bpCtlWrite
  extract_lets +onlyGivenNames v0 v1
  have h_v0 : Ok v0 := by
    unfold v0
    repeat'
      first
        | with_reducible assumption
        | intro _
        | with_reducible first | apply mCfg_ok | apply portDo_ok | apply portRefuse_ok | apply ok_ite
        | split
        | dsimp only
  try clear_value v0
  try clear_value v1
  repeat'
    first
      | with_reducible assumption
      | intro _
      | with_reducible first | apply mCfg_ok | apply portDo_ok | apply portRefuse_ok | apply ok_ite
      | split
      | dsimp only

theorem bpCtlHost_ok {s : State} {h : Master} {p : Fin 4} {w : Word} (h_s : Ok s.dev) : Good s (bpCtlHost s h p w) := by
  unfold bpCtlHost
  repeat'
    first
      | with_reducible assumption
      | intro _
      | with_reducible first | apply hostW_ok | apply mirSend_ok | apply mirHost_ok | apply portRefuse_ok | apply bpCtlWrite_ok | apply ok_ite | apply good_stay | apply good_onDev | apply good_onUnit | apply good_onBlock | apply good_onRegion | apply good_onChip | apply good_ite
      | split
      | dsimp only

theorem execPortStart_ok {h : Master} {p : Fin 4} {w : Word} {s : State} (h_s : Ok s.dev) : Good s (execPortStart h p w s) := by
  unfold execPortStart
  repeat'
    first
      | with_reducible assumption
      | intro _
      | with_reducible first | apply bpCtlHost_ok | apply ok_ite | apply good_stay | apply good_onDev | apply good_onUnit | apply good_onBlock | apply good_onRegion | apply good_onChip | apply good_ite
      | split
      | dsimp only

theorem execPortStop_ok {h : Master} {p : Fin 4} {w : Word} {s : State} (h_s : Ok s.dev) : Good s (execPortStop h p w s) := by
  unfold execPortStop
  repeat'
    first
      | with_reducible assumption
      | intro _
      | with_reducible first | apply bpCtlHost_ok | apply ok_ite | apply good_stay | apply good_onDev | apply good_onUnit | apply good_onBlock | apply good_onRegion | apply good_onChip | apply good_ite
      | split
      | dsimp only

theorem execRecover_ok {h : Master} {p : Fin 4} {w : Word} {s : State} (h_s : Ok s.dev) : Good s (execRecover h p w s) := by
  unfold execRecover
  repeat'
    first
      | with_reducible assumption
      | intro _
      | with_reducible first | apply bpCtlHost_ok | apply ok_ite | apply good_stay | apply good_onDev | apply good_onUnit | apply good_onBlock | apply good_onRegion | apply good_onChip | apply good_ite
      | split
      | dsimp only

theorem execArd_ok {h : Master} {p : Fin 4} {w : Word} {s : State} (h_s : Ok s.dev) : Good s (execArd h p w s) := by
  unfold execArd
  repeat'
    first
      | with_reducible assumption
      | intro _
      | with_reducible first | apply bpCtlHost_ok | apply ok_ite | apply good_stay | apply good_onDev | apply good_onUnit | apply good_onBlock | apply good_onRegion | apply good_onChip | apply good_ite
      | split
      | dsimp only

theorem execGonormal_ok {h : Master} {p : Fin 4} {w : Word} {s : State} (h_s : Ok s.dev) : Good s (execGonormal h p w s) := by
  unfold execGonormal
  repeat'
    first
      | with_reducible assumption
      | intro _
      | with_reducible first | apply bpCtlHost_ok | apply ok_ite | apply good_stay | apply good_onDev | apply good_onUnit | apply good_onBlock | apply good_onRegion | apply good_onChip | apply good_ite
      | split
      | dsimp only

theorem execGolisten_ok {h : Master} {p : Fin 4} {w : Word} {s : State} (h_s : Ok s.dev) : Good s (execGolisten h p w s) := by
  unfold execGolisten
  repeat'
    first
      | with_reducible assumption
      | intro _
      | with_reducible first | apply bpCtlHost_ok | apply ok_ite | apply good_stay | apply good_onDev | apply good_onUnit | apply good_onBlock | apply good_onRegion | apply good_onChip | apply good_ite
      | split
      | dsimp only

theorem execArdstop_ok {h : Master} {p : Fin 4} {w : Word} {s : State} (h_s : Ok s.dev) : Good s (execArdstop h p w s) := by
  unfold execArdstop
  repeat'
    first
      | with_reducible assumption
      | intro _
      | with_reducible first | apply bpCtlHost_ok | apply ok_ite | apply good_stay | apply good_onDev | apply good_onUnit | apply good_onBlock | apply good_onRegion | apply good_onChip | apply good_ite
      | split
      | dsimp only

theorem timingDo_ok {d : Dev} {p : Fin 4} {r : Fin 3} {w : Word} (h_d : Ok d) : Ok (timingDo d p r w) := by
  unfold timingDo
  repeat'
    first
      | with_reducible assumption
      | intro _
      | with_reducible first | apply ok_setReg | apply ok_flag | apply onPort_ok | apply ok_ite
      | split
      | dsimp only

theorem execTimingWrite_ok {h : Master} {p : Fin 4} {r : Fin 3} {w : Word} {s : State} (h_s : Ok s.dev) : Good s (execTimingWrite h p r w s) := by
  unfold execTimingWrite
  repeat'
    first
      | with_reducible assumption
      | intro _
      | with_reducible first | apply hostW_ok | apply timingDo_ok | apply ok_ite | apply good_stay | apply good_onDev | apply good_onUnit | apply good_onBlock | apply good_onRegion | apply good_onChip | apply good_ite
      | split
      | dsimp only

theorem tqCtlWrite_ok {d : Dev} {p : Fin 4} {w : Word} (h_d : Ok d) : Ok (tqCtlWrite d p w) := by
  unfold tqCtlWrite
  extract_lets +onlyGivenNames v0
  have h_v0 : Ok v0 := by
    unfold v0
    repeat'
      first
        | with_reducible assumption
        | intro _
        | with_reducible first | apply mCfg_ok | apply abortHead_ok | apply ok_ite
        | split
        | dsimp only
  try clear_value v0
  repeat'
    first
      | with_reducible assumption
      | intro _
      | with_reducible first | apply mCfg_ok | apply abortHead_ok | apply ok_ite
      | split
      | dsimp only

theorem feWrite_ok {d : Dev} {p : Fin 4} {i : Fin 128} {r : Fin 4} {w : Word} (h_d : Ok d) : Ok (feWrite d p i r w) := by
  unfold feWrite
  repeat'
    first
      | with_reducible assumption
      | intro _
      | with_reducible first | apply ok_setReg | apply ok_flag | apply ok_ite
      | split
      | dsimp only

theorem execFilterEntryWrite_ok {h : Master} {p : Fin 4} {i : Fin 128} {r : Fin 4} {w : Word} {s : State} (h_s : Ok s.dev) : Good s (execFilterEntryWrite h p i r w s) := by
  unfold execFilterEntryWrite
  repeat'
    first
      | with_reducible assumption
      | intro _
      | with_reducible first | apply hostCmd_ok | apply mirHost_ok | apply feWrite_ok | apply ok_ite | apply good_stay | apply good_onDev | apply good_onUnit | apply good_onBlock | apply good_onRegion | apply good_onChip | apply good_ite
      | split
      | dsimp only

end Sys2Proof.Machine
end

