-- ==== Sys2Proof/Laws/KeepRoles.lean ====
section
/-! SUPPORT. The invariant kept by every operation of Machine/Roles.lean. -/

set_option linter.unreachableTactic false
set_option linter.unusedTactic false

namespace Sys2Proof.Machine

theorem followStart_ok {d : Dev} {k : Fin 8} {alt : Bool} (h_d : Ok d) : Ok (followStart d k alt) := by
  unfold followStart
  extract_lets +onlyGivenNames v0
  try clear_value v0
  repeat'
    first
      | with_reducible assumption
      | intro _
      | with_reducible first | apply setSrc_ok | apply setOfs_ok | apply ok_ite
      | split
      | dsimp only

theorem enterShadow_ok {d : Dev} (h_d : Ok d) : Ok (enterShadow d) := by
  unfold enterShadow
  repeat'
    first
      | with_reducible assumption
      | intro _
      | with_reducible first | apply followStart_ok | apply ok_ite | apply ok_forAll
      | split
      | dsimp only

theorem followEnd_ok {d : Dev} {k : Fin 8} {alt : Bool} (h_d : Ok d) : Ok (followEnd d k alt) := by
  unfold followEnd
  extract_lets +onlyGivenNames v0
  try clear_value v0
  repeat'
    first
      | with_reducible assumption
      | intro _
      | with_reducible first | apply setSrc_ok | apply runAtSource_ok | apply ok_ite
      | split
      | dsimp only

theorem leaveShadow_ok {d : Dev} (h_d : Ok d) : Ok (leaveShadow d) := by
  unfold leaveShadow
  repeat'
    first
      | with_reducible assumption
      | intro _
      | with_reducible first | apply domRecheckAll_ok | apply followEnd_ok | apply ok_ite | apply ok_forAll
      | split
      | dsimp only

theorem setRole_ok {d : Dev} {r : Nat} {hreason : Nat} (h_d : Ok d) : Ok (setRole d r hreason) := by
  unfold setRole
  extract_lets +onlyGivenNames v0 v1
  try clear_value v0
  have h_v1 : Ok v1 := by
    unfold v1
    repeat'
      first
        | with_reducible assumption
        | intro _
        | with_reducible first | apply ok_put | apply ok_flag | apply enterShadow_ok | apply leaveShadow_ok | apply ok_ite
        | split
        | dsimp only
  try clear_value v1
  repeat'
    first
      | with_reducible assumption
      | intro _
      | with_reducible first | apply ok_put | apply ok_flag | apply enterShadow_ok | apply leaveShadow_ok | apply ok_ite
      | split
      | dsimp only

theorem ownDrop_ok {d : Dev} (h_d : Ok d) : Ok (ownDrop d) := by
  unfold ownDrop
  repeat'
    first
      | with_reducible assumption
      | intro _
      | with_reducible first | apply ok_clr | apply ok_onTw | apply ok_ite
      | split
      | dsimp only

theorem ownRaise_ok {d : Dev} (h_d : Ok d) : Ok (ownRaise d) := by
  unfold ownRaise
  repeat'
    first
      | with_reducible assumption
      | intro _
      | with_reducible first | apply ok_flag | apply ok_onTw | apply ok_ite
      | split
      | dsimp only

theorem blockHeld_ok {d : Dev} {nn : Fin 16} (h_d : Ok d) : Ok (blockHeld d nn) := by
  unfold blockHeld
  extract_lets st ref d1 d2 d3
  have h1 : Ok d1 := ok_ite (blkRefuse_ok (ok_clr (ok_clr (ok_clr h_d)))) h_d
  have h2 : Ok d2 := ok_clr (legsRelease_ok h1)
  have h3 : Ok d3 := ok_ite (ok_ite (ok_onB h2 fun _ h => blk_same h rfl rfl rfl) (heldEntry_ok h2)) h1
  exact setPending_ok h3

theorem roleHeld_ok {d : Dev} {hreason : Nat} (h_d : Ok d) : Ok (roleHeld d hreason) := by
  unfold roleHeld
  extract_lets +onlyGivenNames v0 v1 v2
  try clear_value v0
  have h_v1 : Ok v1 := by
    unfold v1
    repeat'
      first
        | with_reducible assumption
        | intro _
        | with_reducible first | apply ok_onTw | apply ok_raise | apply portListen_ok | apply setRole_ok | apply ownDrop_ok | apply blockHeld_ok | apply ok_ite | apply ok_forAll
        | split
        | dsimp only
  try clear_value v1
  have h_v2 : Ok v2 := by
    unfold v2
    repeat'
      first
        | with_reducible assumption
        | intro _
        | with_reducible first | apply ok_onTw | apply ok_raise | apply portListen_ok | apply setRole_ok | apply ownDrop_ok | apply blockHeld_ok | apply ok_ite | apply ok_forAll
        | split
        | dsimp only
  try clear_value v2
  repeat'
    first
      | with_reducible assumption
      | intro _
      | with_reducible first | apply ok_onTw | apply ok_raise | apply portListen_ok | apply setRole_ok | apply ownDrop_ok | apply blockHeld_ok | apply ok_ite | apply ok_forAll
      | split
      | dsimp only

theorem chipHeld_ok {d : Dev} (h_d : Ok d) : Ok (chipHeld d) := by
  unfold chipHeld
  extract_lets +onlyGivenNames v0 v1 v2 v3 v4
  have h_v0 : Ok v0 := by
    unfold v0
    repeat'
      first
        | with_reducible assumption
        | intro _
        | with_reducible first | apply ok_put | apply ok_flag | apply ok_raise | apply portListen_ok | apply blockHeld_ok | apply roleHeld_ok | apply ok_ite | apply ok_forAll
        | split
        | dsimp only
  try clear_value v0
  have h_v1 : Ok v1 := by
    unfold v1
    repeat'
      first
        | with_reducible assumption
        | intro _
        | with_reducible first | apply ok_put | apply ok_flag | apply ok_raise | apply portListen_ok | apply blockHeld_ok | apply roleHeld_ok | apply ok_ite | apply ok_forAll
        | split
        | dsimp only
  try clear_value v1
  have h_v2 : Ok v2 := by
    unfold v2
    repeat'
      first
        | with_reducible assumption
        | intro _
        | with_reducible first | apply ok_put | apply ok_flag | apply ok_raise | apply portListen_ok | apply blockHeld_ok | apply roleHeld_ok | apply ok_ite | apply ok_forAll
        | split
        | dsimp only
  try clear_value v2
  have h_v3 : Ok v3 := by
    unfold v3
    repeat'
      first
        | with_reducible assumption
        | intro _
        | with_reducible first | apply ok_put | apply ok_flag | apply ok_raise | apply portListen_ok | apply blockHeld_ok | apply roleHeld_ok | apply ok_ite | apply ok_forAll
        | split
        | dsimp only
  try clear_value v3
  have h_v4 : Ok v4 := by
    unfold v4
    repeat'
      first
        | with_reducible assumption
        | intro _
        | with_reducible first | apply ok_put | apply ok_flag | apply ok_raise | apply portListen_ok | apply blockHeld_ok | apply roleHeld_ok | apply ok_ite | apply ok_forAll
        | split
        | dsimp only
  try clear_value v4
  repeat'
    first
      | with_reducible assumption
      | intro _
      | with_reducible first | apply ok_put | apply ok_flag | apply ok_raise | apply portListen_ok | apply blockHeld_ok | apply roleHeld_ok | apply ok_ite | apply ok_forAll
      | split
      | dsimp only

theorem chipFail_ok {d : Dev} {cause : Nat} {n : Fin 4} (h_d : Ok d) : Ok (chipFail d cause n) := by
  unfold chipFail
  repeat'
    first
      | with_reducible assumption
      | intro _
      | with_reducible first | apply ok_put | apply ok_incSat | apply ok_onTw | apply quench_ok | apply portsOff_ok | apply ownDrop_ok | apply ok_ite | apply ok_forAll
      | split
      | with_reducible apply ok_mk

theorem failCheck_ok {d : Dev} (h_d : Ok d) : Ok (failCheck d) := by
  unfold failCheck
  split
  all_goals
    repeat'
      first
        | with_reducible assumption
        | intro _
        | with_reducible first | apply chipFail_ok | apply ok_ite
        | split
        | with_reducible apply ok_mk

theorem onRegionF_ok {n : Fin 4} {s : State} {f : Dev → Dev} (h_s : Ok s.dev) (h_f : ∀ x0, Ok x0 → Ok (f x0)) : Good s (onRegionF n s f) := by
  unfold onRegionF
  repeat'
    first
      | with_reducible assumption
      | intro _
      | with_reducible first | apply h_f | apply failCheck_ok | apply ok_ite | apply good_stay | apply good_onDev | apply good_onUnit | apply good_onBlock | apply good_onRegion | apply good_onChip | apply good_ite
      | split
      | dsimp only

end Sys2Proof.Machine
end

