-- ==== Sys2Proof/Laws/KeepBus.lean ====
section
/-! SUPPORT. The invariant kept by every operation of Machine/Bus.lean. -/

set_option linter.unreachableTactic false
set_option linter.unusedTactic false

namespace Sys2Proof.Machine

theorem dupCheck_ok {d : Dev} {p : Fin 4} {f : Frame} (h_d : Ok d) : Ok (dupCheck d p f).2 := by
  unfold dupCheck
  extract_lets +onlyGivenNames v0
  try clear_value v0
  repeat'
    first
      | with_reducible assumption
      | intro _
      | with_reducible first | apply ok_inc | apply onPort_ok | apply ok_ite
      | split
      | dsimp only

theorem frameDrop_ok {d : Dev} {p : Fin 4} {q : Fin 64} (h_d : Ok d) : Ok (frameDrop d p q) := by
  unfold frameDrop
  repeat'
    first
      | with_reducible assumption
      | intro _
      | with_reducible first | apply ok_inc | apply ok_raise | apply qDropped_ok | apply ok_ite
      | split
      | dsimp only

theorem frameStore_ok {d : Dev} {p : Fin 4} {q : Fin 64} {pri : Nat} {len : Nat} {ws : List Word} (h_d : Ok d) : Ok (frameStore d p q pri len ws).2 := by
  unfold frameStore
  extract_lets +onlyGivenNames v0
  have h_v0 : Ok v0 := by
    unfold v0
    repeat'
      first
        | with_reducible assumption
        | intro _
        | with_reducible first | apply touchQ_ok | apply touchFree_ok | apply storePkt_ok | apply onPort_ok | apply frameDrop_ok | apply ok_ite
        | with_reducible refine ok_snd (by assumption) ?_
        | split
        | dsimp only
  try clear_value v0
  repeat'
    first
      | with_reducible assumption
      | intro _
      | with_reducible first | apply touchQ_ok | apply touchFree_ok | apply storePkt_ok | apply onPort_ok | apply frameDrop_ok | apply ok_ite
      | with_reducible refine ok_snd (by assumption) ?_
      | split
      | dsimp only

theorem phaseCast_ok {d : Dev} {p : Fin 4} {k : Fin 8} {f : Frame} {sof : Nat} (h_d : Ok d) : Ok (phaseCast d p k f sof).2 := by
  unfold phaseCast
  extract_lets +onlyGivenNames v0
  try clear_value v0
  repeat'
    first
      | with_reducible assumption
      | intro _
      | with_reducible first | apply srcUpdateAt_ok | apply ok_ite
      | split
      | dsimp only

theorem rxKeep_ok {d : Dev} {p : Fin 4} {f : Frame} {self : Bool} {fe : Option (Fin 128)} {q : Fin 64} {pri : Nat} {sof : Nat} {fseq : Nat} (h_d : Ok d) : Ok (rxKeep d p f self fe q pri sof fseq).2 := by
  unfold rxKeep
  split
  all_goals
    repeat'
      first
        | with_reducible assumption
        | intro _
        | with_reducible first | apply frameStore_ok | apply ok_ite
        | with_reducible refine ok_snd (by assumption) ?_
        | split
        | dsimp only

theorem castCount_ok {d : Dev} {p : Fin 4} {k : Fin 8} {f : Frame} {sof : Nat} (h_d : Ok d) : Ok (castCount d p k f sof) := by
  unfold castCount
  split
  all_goals
    repeat'
      first
        | with_reducible assumption
        | intro _
        | with_reducible first | apply ok_inc | apply phaseCast_ok | apply ok_ite
        | with_reducible refine ok_snd (by assumption) ?_
        | split
        | dsimp only

theorem rxAct_ok {d : Dev} {p : Fin 4} {f : Frame} {self : Bool} {sof : Nat} {fseq : Nat} {act : Nat} {pri : Nat} {fe : Option (Fin 128)} (h_d : Ok d) : Ok (rxAct d p f self sof fseq act pri fe).2 := by
  unfold rxAct
  split
  all_goals
    repeat'
      first
        | with_reducible assumption
        | intro _
        | with_reducible first | apply ok_inc | apply rxKeep_ok | apply castCount_ok | apply ok_ite
        | with_reducible refine ok_snd (by assumption) ?_
        | split
        | dsimp only

theorem rxFilter_ok {d : Dev} {p : Fin 4} {f : Frame} {self : Bool} {sof : Nat} (h_d : Ok d) : Ok (rxFilter d p f self sof) := by
  unfold rxFilter
  extract_lets fseq d1 fe a r d2
  have h2 : Ok d2 := rxAct_ok (onPort_ok h_d)
  clear_value d2 r
  split
  · exact ownerSend_ok (onPort_ok h2)
  · exact h2

theorem rxFrame_ok {d : Dev} {p : Fin 4} {f : Frame} {self : Bool} {sof : Nat} (h_d : Ok d) : Ok (rxFrame d p f self sof) := by
  unfold rxFrame
  repeat'
    first
      | with_reducible assumption
      | intro _
      | with_reducible first | apply onPort_ok | apply dupCheck_ok | apply rxFilter_ok | apply ok_ite
      | with_reducible refine ok_snd (by assumption) ?_
      | split
      | dsimp only

theorem recGood_ok {d : Dev} {p : Fin 4} (h_d : Ok d) : Ok (recGood d p) := by
  unfold recGood
  extract_lets +onlyGivenNames v0
  try clear_value v0
  repeat'
    first
      | with_reducible assumption
      | intro _
      | with_reducible first | apply ok_put | apply ok_free | apply ok_ite
      | with_reducible refine ok_snd (by assumption) ?_
      | split
      | dsimp only

theorem sendFlag_ok {d : Dev} {p : Fin 4} {x : BusFlag} (h_d : Ok d) : Ok (sendFlag d p x) := by
  unfold sendFlag
  repeat'
    first
      | with_reducible assumption
      | intro _
      | with_reducible first | apply onPort_ok | apply ok_ite
      | split
      | dsimp only

theorem execFrameReceived_ok {p : Fin 4} {f : Frame} {self : Bool} {sof : Nat} {s : State} (h_s : Ok s.dev) : Good s (execFrameReceived p f self sof s) := by
  unfold execFrameReceived
  repeat'
    first
      | with_reducible assumption
      | intro _
      | with_reducible first | apply ok_inc | apply confine_ok | apply portPend_ok | apply ardFrame_ok | apply onRegionF_ok | apply rxFrame_ok | apply recGood_ok | apply sendFlag_ok | apply ok_ite | apply good_stay | apply good_onDev | apply good_onUnit | apply good_onBlock | apply good_onRegion | apply good_onChip | apply good_ite
      | split
      | dsimp only

theorem errRecord_ok {d : Dev} {p : Fin 4} {lec : Nat} {data : Bool} (h_d : Ok d) : Ok (errRecord d p lec data) := by
  unfold errRecord
  repeat'
    first
      | with_reducible assumption
      | intro _
      | with_reducible first | apply ok_put | apply ok_putB | apply ok_incSat | apply ok_ite
      | split
      | dsimp only

theorem errCount_ok {d : Dev} {p : Fin 4} {steps : Nat × Nat} (h_d : Ok d) : Ok (errCount d p steps) := by
  unfold errCount
  repeat'
    first
      | with_reducible assumption
      | intro _
      | with_reducible first | apply ok_put | apply onPort_ok | apply confine_ok | apply sendFlag_ok | apply ok_ite
      | split
      | dsimp only

theorem execProtocolException_ok {p : Fin 4} {xl : Bool} {s : State} (h_s : Ok s.dev) : Good s (execProtocolException p xl s) := by
  unfold execProtocolException
  repeat'
    first
      | with_reducible assumption
      | intro _
      | with_reducible first | apply ok_flag | apply onPort_ok | apply portPend_ok | apply ardNext_ok | apply onRegionF_ok | apply errRecord_ok | apply errCount_ok | apply ok_ite | apply good_stay | apply good_onDev | apply good_onUnit | apply good_onBlock | apply good_onRegion | apply good_onChip | apply good_ite
      | split
      | dsimp only

theorem execTransmitDecision_ok {p : Fin 4} {s : State} (h_s : Ok s.dev) : Good s (execTransmitDecision p s) := by
  unfold execTransmitDecision
  repeat'
    first
      | with_reducible assumption
      | intro _
      | with_reducible first | apply ok_flag | apply ok_free | apply onPort_ok | apply headCheck_ok | apply portPend_ok | apply onRegionF_ok | apply ok_ite | apply good_stay | apply good_onDev | apply good_onUnit | apply good_onBlock | apply good_onRegion | apply good_onChip | apply good_ite
      | with_reducible refine ok_snd (by assumption) ?_
      | split
      | dsimp only

theorem portTick_ok {d : Dev} {p : Fin 4} (h_d : Ok d) : Ok (portTick d p) := by
  unfold portTick
  extract_lets +onlyGivenNames v0
  try clear_value v0
  repeat'
    first
      | with_reducible assumption
      | intro _
      | with_reducible first | apply ok_free | apply onPort_ok | apply ok_ite
      | with_reducible refine ok_snd (by assumption) ?_
      | split
      | dsimp only

theorem idcSent_ok {d : Dev} {p : Fin 4} {f : Frame} (h_d : Ok d) : Ok (idcSent d p f) := by
  unfold idcSent
  repeat'
    first
      | with_reducible assumption
      | intro _
      | with_reducible first | apply ok_clr | apply ok_ite
      | split
      | dsimp only

theorem tdcMeasure_ok {d : Dev} {p : Fin 4} {f : Frame} (h_d : Ok d) : Ok (tdcMeasure d p f) := by
  unfold tdcMeasure
  repeat'
    first
      | with_reducible assumption
      | intro _
      | with_reducible first | apply ok_put | apply ok_free | apply ok_ite
      | with_reducible refine ok_snd (by assumption) ?_
      | split
      | dsimp only

theorem execFrameTransmitted_ok {p : Fin 4} {s : State} (h_s : Ok s.dev) : Good s (execFrameTransmitted p s) := by
  unfold execFrameTransmitted
  repeat'
    first
      | with_reducible assumption
      | intro _
      | with_reducible first | apply ok_put | apply ok_inc | apply txSent_ok | apply confine_ok | apply portPend_ok | apply onRegionF_ok | apply rxFrame_ok | apply idcSent_ok | apply tdcMeasure_ok | apply ok_ite | apply good_stay | apply good_onDev | apply good_onUnit | apply good_onBlock | apply good_onRegion | apply good_onChip | apply good_ite
      | split
      | dsimp only

theorem execArbitrationLost_ok {p : Fin 4} {s : State} (h_s : Ok s.dev) : Good s (execArbitrationLost p s) := by
  unfold execArbitrationLost
  repeat'
    first
      | with_reducible assumption
      | intro _
      | with_reducible first | apply txFailed_ok | apply onRegionF_ok | apply ok_ite | apply good_stay | apply good_onDev | apply good_onUnit | apply good_onBlock | apply good_onRegion | apply good_onChip | apply good_ite
      | split
      | dsimp only

theorem idcCount_ok {d : Dev} {p : Fin 4} {f : Frame} (h_d : Ok d) : Ok (idcCount d p f).2 := by
  unfold idcCount
  extract_lets +onlyGivenNames v0 v1 v2 v3 v4
  try clear_value v0
  try clear_value v1
  try clear_value v2
  have h_v3 : Ok v3 := by
    unfold v3
    repeat'
      first
        | with_reducible assumption
        | intro _
        | with_reducible first | apply ok_put | apply ok_flag | apply ok_clr | apply ok_putB | apply ok_raise | apply onPort_ok | apply ok_ite
        | split
        | dsimp only
  try clear_value v3
  have h_v4 : Ok v4 := by
    unfold v4
    repeat'
      first
        | with_reducible assumption
        | intro _
        | with_reducible first | apply ok_put | apply ok_flag | apply ok_clr | apply ok_putB | apply ok_raise | apply onPort_ok | apply ok_ite
        | split
        | dsimp only
  try clear_value v4
  repeat'
    first
      | with_reducible assumption
      | intro _
      | with_reducible first | apply ok_put | apply ok_flag | apply ok_clr | apply ok_putB | apply ok_raise | apply onPort_ok | apply ok_ite
      | split
      | dsimp only

theorem execBusError_ok {p : Fin 4} {e : BusErr} {s : State} (h_s : Ok s.dev) : Good s (execBusError p e s) := by
  unfold execBusError
  repeat'
    first
      | with_reducible assumption
      | intro _
      | with_reducible first | apply ok_flag | apply txFailed_ok | apply portPend_ok | apply ardNext_ok | apply onRegionF_ok | apply errRecord_ok | apply errCount_ok | apply tdcMeasure_ok | apply idcCount_ok | apply ok_ite | apply good_stay | apply good_onDev | apply good_onUnit | apply good_onBlock | apply good_onRegion | apply good_onChip | apply good_ite
      | with_reducible refine ok_snd (by assumption) ?_
      | split
      | dsimp only

theorem execIntegrationDone_ok {p : Fin 4} {s : State} (h_s : Ok s.dev) : Good s (execIntegrationDone p s) := by
  unfold execIntegrationDone
  repeat'
    first
      | with_reducible assumption
      | intro _
      | with_reducible first | apply onPort_ok | apply goState_ok | apply portPend_ok | apply ok_ite | apply good_stay | apply good_onDev | apply good_onUnit | apply good_onBlock | apply good_onRegion | apply good_onChip | apply good_ite
      | split
      | dsimp only

theorem execRecoverySequence_ok {p : Fin 4} {s : State} (h_s : Ok s.dev) : Good s (execRecoverySequence p s) := by
  unfold execRecoverySequence
  repeat'
    first
      | with_reducible assumption
      | intro _
      | with_reducible first | apply ok_put | apply ok_flag | apply ok_clr | apply portEvent_ok | apply goState_ok | apply setMode_ok | apply portPend_ok | apply ok_ite | apply good_stay | apply good_onDev | apply good_onUnit | apply good_onBlock | apply good_onRegion | apply good_onChip | apply good_ite
      | split
      | dsimp only

theorem execArdDwellExpire_ok {p : Fin 4} {s : State} (h_s : Ok s.dev) : Good s (execArdDwellExpire p s) := by
  unfold execArdDwellExpire
  repeat'
    first
      | with_reducible assumption
      | intro _
      | with_reducible first | apply ardNext_ok | apply ok_ite | apply good_stay | apply good_onDev | apply good_onUnit | apply good_onBlock | apply good_onRegion | apply good_onChip | apply good_ite
      | split
      | dsimp only

theorem execRxDominant_ok {p : Fin 4} {s : State} (h_s : Ok s.dev) : Good s (execRxDominant p s) := by
  unfold execRxDominant
  repeat'
    first
      | with_reducible assumption
      | intro _
      | with_reducible first | apply ok_flag | apply portEvent_ok | apply ok_ite | apply good_stay | apply good_onDev | apply good_onUnit | apply good_onBlock | apply good_onRegion | apply good_onChip | apply good_ite
      | split
      | dsimp only

theorem tqCtlHost_ok {s : State} {h : Master} {p : Fin 4} {w : Word} (h_s : Ok s.dev) : Good s (tqCtlHost s h p w) := by
  unfold tqCtlHost
  repeat'
    first
      | with_reducible assumption
      | intro _
      | with_reducible first | apply hostW_ok | apply mirHost_ok | apply tqCtlWrite_ok | apply failCheck_ok | apply ok_ite | apply good_stay | apply good_onDev | apply good_onUnit | apply good_onBlock | apply good_onRegion | apply good_onChip | apply good_ite
      | split
      | dsimp only

theorem execAbortHead_ok {h : Master} {p : Fin 4} {w : Word} {s : State} (h_s : Ok s.dev) : Good s (execAbortHead h p w s) := by
  unfold execAbortHead
  repeat'
    first
      | with_reducible assumption
      | intro _
      | with_reducible first | apply tqCtlHost_ok | apply ok_ite | apply good_stay | apply good_onDev | apply good_onUnit | apply good_onBlock | apply good_onRegion | apply good_onChip | apply good_ite
      | split
      | dsimp only

theorem execWindowOpen_ok {p : Fin 4} {i : Fin 32} {s : State} (h_s : Ok s.dev) : Good s (execWindowOpen p i s) := by
  unfold execWindowOpen
  repeat'
    first
      | with_reducible assumption
      | intro _
      | with_reducible first | apply onW_ok | apply winDue_ok | apply winFinal_ok | apply onRegionF_ok | apply ok_ite | apply good_stay | apply good_onDev | apply good_onUnit | apply good_onBlock | apply good_onRegion | apply good_onChip | apply good_ite
      | split
      | dsimp only

theorem execWindowClose_ok {p : Fin 4} {i : Fin 32} {s : State} (h_s : Ok s.dev) : Good s (execWindowClose p i s) := by
  unfold execWindowClose
  repeat'
    first
      | with_reducible assumption
      | intro _
      | with_reducible first | apply winClose_ok | apply onRegionF_ok | apply ok_ite | apply good_stay | apply good_onDev | apply good_onUnit | apply good_onBlock | apply good_onRegion | apply good_onChip | apply good_ite
      | split
      | dsimp only

theorem hostRgn_ok {s : State} {h : Master} {a : Nat} {n : Fin 4} {chg : Nat} {f : Dev → Dev} (h_s : Ok s.dev) (h_f : ∀ x0, Ok x0 → Ok (f x0)) : Good s (hostRgn s h a n chg f) := by
  unfold hostRgn
  repeat'
    first
      | with_reducible assumption
      | intro _
      | with_reducible first | apply h_f | apply hostW_ok | apply failCheck_ok | apply ok_ite | apply good_stay | apply good_onDev | apply good_onUnit | apply good_onBlock | apply good_onRegion | apply good_onChip | apply good_ite
      | split
      | dsimp only

theorem pushHost_ok {d : Dev} {n : Fin 4} {q : Fin 64} {h : Master} {a : Nat} {w : Word} {go : Dev → Dev} (h_d : Ok d) (h_go : ∀ x0, Ok x0 → Ok (go x0)) : Ok (pushHost d n q h a w go) := by
  unfold pushHost
  repeat'
    first
      | with_reducible assumption
      | intro _
      | with_reducible first | apply h_go | apply ok_inc | apply mirHost_ok | apply ok_ite
      | split
      | dsimp only

theorem execPdata_ok {h : Master} {n : Fin 4} {q : Fin 64} {w : Word} {s : State} (h_s : Ok s.dev) : Good s (execPdata h n q w s) := by
  unfold execPdata
  repeat'
    first
      | with_reducible assumption
      | intro _
      | with_reducible first | apply pushWord_ok | apply hostRgn_ok | apply pushHost_ok | apply ok_ite | apply good_stay | apply good_onDev | apply good_onUnit | apply good_onBlock | apply good_onRegion | apply good_onChip | apply good_ite
      | split
      | dsimp only

theorem execPend_ok {h : Master} {n : Fin 4} {q : Fin 64} {w : Word} {s : State} (h_s : Ok s.dev) : Good s (execPend h n q w s) := by
  unfold execPend
  repeat'
    first
      | with_reducible assumption
      | intro _
      | with_reducible first | apply pendWord_ok | apply hostRgn_ok | apply pushHost_ok | apply ok_ite | apply good_stay | apply good_onDev | apply good_onUnit | apply good_onBlock | apply good_onRegion | apply good_onChip | apply good_ite
      | split
      | dsimp only

theorem execPop_ok {h : Master} {n : Fin 4} {q : Fin 64} {s : State} (h_s : Ok s.dev) : Good s (execPop h n q s) := by
  unfold execPop
  repeat'
    first
      | with_reducible assumption
      | intro _
      | with_reducible first | apply hostRd_ok | apply popBy_ok | apply failCheck_ok | apply ok_ite | apply good_stay | apply good_onDev | apply good_onUnit | apply good_onBlock | apply good_onRegion | apply good_onChip | apply good_ite
      | split
      | dsimp only

theorem execPopStallTimeout_ok {n : Fin 4} {q : Fin 64} {s : State} (h_s : Ok s.dev) : Good s (execPopStallTimeout n q s) := by
  unfold execPopStallTimeout
  repeat'
    first
      | with_reducible assumption
      | intro _
      | with_reducible first | apply popExpire_ok | apply ok_ite | apply good_stay | apply good_onDev | apply good_onUnit | apply good_onBlock | apply good_onRegion | apply good_onChip | apply good_ite
      | split
      | dsimp only

theorem execAck_ok {h : Master} {n : Fin 4} {q : Fin 64} {w : Word} {s : State} (h_s : Ok s.dev) : Good s (execAck h n q w s) := by
  unfold execAck
  repeat'
    first
      | with_reducible assumption
      | intro _
      | with_reducible first | apply ackEntry_ok | apply hostRgn_ok | apply ok_ite | apply good_stay | apply good_onDev | apply good_onUnit | apply good_onBlock | apply good_onRegion | apply good_onChip | apply good_ite
      | split
      | dsimp only

theorem execOwntmoExpire_ok {n : Fin 4} {q : Fin 64} {cell : Nat} {s : State} (h_s : Ok s.dev) : Good s (execOwntmoExpire n q cell s) := by
  unfold execOwntmoExpire
  repeat'
    first
      | with_reducible assumption
      | intro _
      | with_reducible first | apply reclaim_ok | apply onRegionF_ok | apply ok_ite | apply good_stay | apply good_onDev | apply good_onUnit | apply good_onBlock | apply good_onRegion | apply good_onChip | apply good_ite
      | split
      | dsimp only

theorem qCtlWrite_ok {d : Dev} {n : Fin 4} {q : Fin 64} {w : Word} (h_d : Ok d) : Ok (qCtlWrite d n q w) := by
  unfold qCtlWrite
  extract_lets +onlyGivenNames v0 v1
  try clear_value v0
  have h_v1 : Ok v1 := by
    unfold v1
    repeat'
      first
        | with_reducible assumption
        | intro _
        | with_reducible first | apply resetQueue_ok | apply touchQ_ok | apply slag_ok | apply ok_ite
        | split
        | dsimp only
  try clear_value v1
  repeat'
    first
      | with_reducible assumption
      | intro _
      | with_reducible first | apply resetQueue_ok | apply touchQ_ok | apply slag_ok | apply ok_ite
      | split
      | dsimp only

theorem qCtlHost_ok {s : State} {h : Master} {n : Fin 4} {q : Fin 64} {w : Word} (h_s : Ok s.dev) : Good s (qCtlHost s h n q w) := by
  unfold qCtlHost
  repeat'
    first
      | with_reducible assumption
      | intro _
      | with_reducible first | apply hostRgn_ok | apply qCtlWrite_ok | apply ok_ite | apply good_stay | apply good_onDev | apply good_onUnit | apply good_onBlock | apply good_onRegion | apply good_onChip | apply good_ite
      | split
      | dsimp only

theorem execSlag_ok {h : Master} {n : Fin 4} {q : Fin 64} {w : Word} {s : State} (h_s : Ok s.dev) : Good s (execSlag h n q w s) := by
  unfold execSlag
  repeat'
    first
      | with_reducible assumption
      | intro _
      | with_reducible first | apply qCtlHost_ok | apply ok_ite | apply good_stay | apply good_onDev | apply good_onUnit | apply good_onBlock | apply good_onRegion | apply good_onChip | apply good_ite
      | split
      | dsimp only

theorem execFlush_ok {h : Master} {n : Fin 4} {q : Fin 64} {w : Word} {s : State} (h_s : Ok s.dev) : Good s (execFlush h n q w s) := by
  unfold execFlush
  repeat'
    first
      | with_reducible assumption
      | intro _
      | with_reducible first | apply qCtlHost_ok | apply ok_ite | apply good_stay | apply good_onDev | apply good_onUnit | apply good_onBlock | apply good_onRegion | apply good_onChip | apply good_ite
      | split
      | dsimp only

theorem execStaleExpire_ok {n : Fin 4} {q : Fin 64} {s : State} (h_s : Ok s.dev) : Good s (execStaleExpire n q s) := by
  unfold execStaleExpire
  repeat'
    first
      | with_reducible assumption
      | intro _
      | with_reducible first | apply ok_flag | apply queueEvent_ok | apply ok_ite | apply good_stay | apply good_onDev | apply good_onUnit | apply good_onBlock | apply good_onRegion | apply good_onChip | apply good_ite
      | split
      | dsimp only

theorem execScrubDone_ok {n : Fin 4} {q : Fin 64} {s : State} (h_s : Ok s.dev) : Good s (execScrubDone n q s) := by
  unfold execScrubDone
  repeat'
    first
      | with_reducible assumption
      | intro _
      | with_reducible first | apply scrubEnd_ok | apply onRegionF_ok | apply ok_ite | apply good_stay | apply good_onDev | apply good_onUnit | apply good_onBlock | apply good_onRegion | apply good_onChip | apply good_ite
      | split
      | dsimp only

theorem heldFrames_ok {d : Dev} {n : Fin 4} (h_d : Ok d) : Ok (heldFrames d n) := by
  unfold heldFrames
  extract_lets +onlyGivenNames v0
  try clear_value v0
  repeat'
    first
      | with_reducible assumption
      | intro _
      | with_reducible first | apply onPort_ok | apply frameStore_ok | apply ok_ite | apply ok_foldl | apply ok_foldl_fst | apply ok_foldl_snd
      | with_reducible refine ok_snd (by assumption) ?_
      | split
      | dsimp only

theorem heldPushes_ok {d : Dev} {n : Fin 4} (h_d : Ok d) : Ok (heldPushes d n) := by
  unfold heldPushes
  extract_lets +onlyGivenNames v0
  try clear_value v0
  repeat'
    first
      | with_reducible assumption
      | intro _
      | with_reducible first | apply pushWord_ok | apply pendWord_ok | apply ok_ite | apply ok_foldl | apply ok_foldl_fst | apply ok_foldl_snd
      | (with_reducible refine ok_onR ?_ ?_ <;> first | with_reducible assumption | exact fun _ h => rgn_same h rfl rfl rfl rfl rfl | skip)
      | exact rgn_same (by assumption) rfl rfl rfl rfl rfl
      | split
      | dsimp only

theorem execRebuildDone_ok {n : Fin 4} {s : State} (h_s : Ok s.dev) : Good s (execRebuildDone n s) := by
  unfold execRebuildDone
  repeat'
    first
      | with_reducible assumption
      | intro _
      | with_reducible first | apply ok_clr | apply onRegionF_ok | apply heldFrames_ok | apply heldPushes_ok | apply ok_ite | apply good_stay | apply good_onDev | apply good_onUnit | apply good_onBlock | apply good_onRegion | apply good_onChip | apply good_ite
      | split
      | dsimp only

theorem hostDropped_ok {d : Dev} {n : Fin 4} (h_d : Ok d) : Ok (hostDropped d n) := by
  unfold hostDropped
  repeat'
    first
      | with_reducible assumption
      | intro _
      | with_reducible first | apply ok_free | apply Dev_hostErr_ok | apply shpSay_ok | apply answer_ok | apply aerLog_ok | apply ok_ite
      | with_reducible refine ok_snd (by assumption) ?_
      | split
      | dsimp only

theorem execCrossbarTimeout_ok {n : Fin 4} {req : Fin 8} {s : State} (h_s : Ok s.dev) : Good s (execCrossbarTimeout n req s) := by
  unfold execCrossbarTimeout
  repeat'
    first
      | with_reducible assumption
      | intro _
      | with_reducible first | apply ok_put | apply ok_flag | apply ok_free | apply ok_raise | apply onPort_ok | apply slotNext_ok | apply regionErr_ok | apply onRegionF_ok | apply hostDropped_ok | apply ok_ite | apply good_stay | apply good_onDev | apply good_onUnit | apply good_onBlock | apply good_onRegion | apply good_onChip | apply good_ite
      | with_reducible refine ok_snd (by assumption) ?_
      | split
      | dsimp only

theorem execPoolTimeout_ok {n : Fin 4} {q : Fin 64} {s : State} (h_s : Ok s.dev) : Good s (execPoolTimeout n q s) := by
  unfold execPoolTimeout
  repeat'
    first
      | with_reducible assumption
      | intro _
      | with_reducible first | apply ok_free | apply regionErr_ok | apply resetQueue_ok | apply onRegionF_ok | apply hostDropped_ok | apply ok_ite | apply good_stay | apply good_onDev | apply good_onUnit | apply good_onBlock | apply good_onRegion | apply good_onChip | apply good_ite
      | with_reducible refine ok_snd (by assumption) ?_
      | split
      | dsimp only

theorem execPortStall_ok {n : Fin 4} {s : State} (h_s : Ok s.dev) : Good s (execPortStall n s) := by
  unfold execPortStall
  repeat'
    first
      | with_reducible assumption
      | intro _
      | with_reducible first | apply regionErr_ok | apply portRestart_ok | apply onRegionF_ok | apply ok_ite | apply good_stay | apply good_onDev | apply good_onUnit | apply good_onBlock | apply good_onRegion | apply good_onChip | apply good_ite
      | split
      | dsimp only

theorem execRegionWindowExpire_ok {n : Fin 4} {s : State} (h_s : Ok s.dev) : Good s (execRegionWindowExpire n s) := by
  unfold execRegionWindowExpire
  repeat'
    first
      | with_reducible assumption
      | intro _
      | with_reducible first | apply ok_clr | apply ok_ite | apply good_stay | apply good_onDev | apply good_onUnit | apply good_onBlock | apply good_onRegion | apply good_onChip | apply good_ite
      | split
      | dsimp only

theorem execQerrWindowExpire_ok {n : Fin 4} {s : State} (h_s : Ok s.dev) : Good s (execQerrWindowExpire n s) := by
  unfold execQerrWindowExpire
  repeat'
    first
      | with_reducible assumption
      | intro _
      | with_reducible first | apply ok_ite | apply good_stay | apply good_onDev | apply good_onUnit | apply good_onBlock | apply good_onRegion | apply good_onChip | apply good_ite
      | (with_reducible refine ok_onR ?_ ?_ <;> first | with_reducible assumption | exact fun _ h => rgn_same h rfl rfl rfl rfl rfl | skip)
      | exact rgn_same (by assumption) rfl rfl rfl rfl rfl
      | split
      | dsimp only

end Sys2Proof.Machine
end

