-- ==== Sys2Proof/Laws/KeepGather.lean ====
section
/-! SUPPORT. The invariant kept by every operation of Machine/Gather.lean. -/

set_option linter.unreachableTactic false
set_option linter.unusedTactic false

namespace Sys2Proof.Machine

theorem sbitPut_ok {d : Dev} {f : RF (Fin 32)} {s : Nat} {v : Bool} (h_d : Ok d) : Ok (sbitPut d f s v) := by
  unfold sbitPut
  extract_lets +onlyGivenNames v0 v1
  try clear_value v0
  try clear_value v1
  repeat'
    first
      | with_reducible assumption
      | intro _
      | with_reducible first | apply ok_setReg | apply ok_ite
      | split
      | dsimp only

theorem onSrc_ok {d : Dev} {s : Nat} {f : SrcSt → SrcSt} (h_d : Ok d) : Ok (onSrc d s f) :=
  ⟨h_d.regs, h_d.hwin, h_d.rgn, tcanon_tset _ _ _ h_d.src, h_d.targ, h_d.blk⟩

theorem onTarg_ok {d : Dev} {t : Fin 4} {f : Targ → Targ} (h_d : Ok d)
    (hf : ∀ x, tcanon (fun _ => Rec.empty) x.ring = true → tcanon (fun _ => Rec.empty) (f x).ring = true) :
    Ok (onTarg d t f) := by
  refine ⟨h_d.regs, h_d.hwin, h_d.rgn, h_d.src, fun j => ?_, h_d.blk⟩
  simp only [onTarg, vget_vmod]
  split
  · exact hf _ (h_d.targ t)
  · exact h_d.targ j

theorem onRec_ok {d : Dev} {t : Fin 4} {k : Nat} {f : Rec → Rec} (h_d : Ok d) : Ok (onRec d t k f) :=
  onTarg_ok h_d fun _ h => tcanon_tset _ _ _ h

theorem frPut_ok {d : Dev} {i : FrIx} {lo : Nat} {len : Nat} {v : Nat} (h_d : Ok d) : Ok (frPut d i lo len v) := by
  unfold frPut
  repeat'
    first
      | with_reducible assumption
      | intro _
      | with_reducible first | apply ok_setReg | apply ok_ite
      | split
      | dsimp only

theorem msiReq_ok {d : Dev} {f : Fin 2} {vec : Nat} (h_d : Ok d) : Ok (msiReq d f vec) := by
  unfold msiReq
  extract_lets +onlyGivenNames v0
  try clear_value v0
  repeat'
    first
      | with_reducible assumption
      | intro _
      | with_reducible first | apply ok_say | apply ok_ite
      | split
      | with_reducible apply ok_mk

theorem wakeTarg_ok {d : Dev} {t : Fin 4} (h_d : Ok d) : Ok (wakeTarg d t) := by
  unfold wakeTarg
  extract_lets +onlyGivenNames v0
  have h_v0 : Ok v0 := by
    unfold v0
    repeat'
      first
        | with_reducible assumption
        | intro _
        | with_reducible first | apply ok_flag | apply ok_clr | apply ok_incSat | apply ok_say | apply onTarg_ok | apply ok_ite
        | split
        | dsimp only
  try clear_value v0
  repeat'
    first
      | with_reducible assumption
      | intro _
      | with_reducible first | apply ok_flag | apply ok_clr | apply ok_incSat | apply ok_say | apply onTarg_ok | apply ok_ite
      | split
      | dsimp only

theorem stewardNap_ok {d : Dev} {t : Fin 4} (h_d : Ok d) : Ok (stewardNap d t) := by
  unfold stewardNap
  repeat'
    first
      | with_reducible assumption
      | intro _
      | with_reducible first | apply ok_free | apply onTarg_ok | apply ok_ite
      | with_reducible refine ok_snd (by assumption) ?_
      | split
      | dsimp only

theorem wakeCheck_ok {d : Dev} {t : Fin 4} (h_d : Ok d) : Ok (wakeCheck d t) := by
  unfold wakeCheck
  extract_lets +onlyGivenNames v0
  have h_v0 : Ok v0 := by
    unfold v0
    repeat'
      first
        | with_reducible assumption
        | intro _
        | with_reducible first | apply wakeTarg_ok | apply stewardNap_ok | apply ok_ite
        | split
        | dsimp only
  try clear_value v0
  repeat'
    first
      | with_reducible assumption
      | intro _
      | with_reducible first | apply wakeTarg_ok | apply stewardNap_ok | apply ok_ite
      | split
      | dsimp only

theorem signal_ok {d : Dev} {t : Fin 4} {n : Bool} {f : Bool} (h_d : Ok d) : Ok (signal d t n f) := by
  unfold signal
  extract_lets +onlyGivenNames v0 v1 v2 v3
  have h_v0 : Ok v0 := by
    unfold v0
    repeat'
      first
        | with_reducible assumption
        | intro _
        | with_reducible first | apply onTarg_ok | apply msiReq_ok | apply wakeCheck_ok | apply ok_ite
        | split
        | dsimp only
  try clear_value v0
  try clear_value v1
  try clear_value v2
  have h_v3 : Ok v3 := by
    unfold v3
    repeat'
      first
        | with_reducible assumption
        | intro _
        | with_reducible first | apply onTarg_ok | apply msiReq_ok | apply wakeCheck_ok | apply ok_ite
        | split
        | dsimp only
  try clear_value v3
  repeat'
    first
      | with_reducible assumption
      | intro _
      | with_reducible first | apply onTarg_ok | apply msiReq_ok | apply wakeCheck_ok | apply ok_ite
      | split
      | dsimp only

theorem signalAll_ok {d : Dev} (h_d : Ok d) : Ok (signalAll d) := by
  unfold signalAll
  repeat'
    first
      | with_reducible assumption
      | intro _
      | with_reducible first | apply signal_ok | apply ok_ite | apply ok_forAll
      | split
      | dsimp only

theorem freeSlot_ok {d : Dev} {t : Fin 4} (h_d : Ok d) : Ok (freeSlot d t).2 := by
  unfold freeSlot
  extract_lets +onlyGivenNames v0
  try clear_value v0
  repeat'
    first
      | with_reducible assumption
      | intro _
      | with_reducible first | apply ok_free | apply ok_ite
      | with_reducible refine ok_snd (by assumption) ?_
      | split
      | dsimp only

theorem writeRec_ok {d : Dev} {s : Nat} (h_d : Ok d) : Ok (writeRec d s) := by
  unfold writeRec
  extract_lets +onlyGivenNames v0
  try clear_value v0
  repeat'
    first
      | with_reducible assumption
      | intro _
      | with_reducible first | apply sbitPut_ok | apply onTarg_ok | apply onRec_ok | apply signal_ok | apply freeSlot_ok | apply ok_ite
      | with_reducible refine ok_snd (by assumption) ?_
      | split
      | dsimp only

theorem holdStart_ok {d : Dev} {g : Fin 64} (h_d : Ok d) : Ok (holdStart d g) := by
  unfold holdStart
  repeat'
    first
      | with_reducible assumption
      | intro _
      | with_reducible first | apply ok_flag | apply ok_ite
      | split
      | dsimp only

theorem present_ok {d : Dev} {p : Nat → Bool} (h_d : Ok d) : Ok (present d p) := by
  unfold present
  refine ok_foldl (ok_foldl_fst h_d fun x s h => ?_) fun _ _ h => holdStart_ok h
  split
  · exact writeRec_ok h
  · exact h

theorem presentFree_ok {d : Dev} (h_d : Ok d) : Ok (presentFree d) := by
  unfold presentFree
  repeat'
    first
      | with_reducible assumption
      | intro _
      | with_reducible first | apply present_ok | apply ok_ite
      | split
      | dsimp only

theorem assertN_ok {d : Dev} {s : Nat} (h_d : Ok d) : Ok (assertN d s) := by
  unfold assertN
  extract_lets +onlyGivenNames v0 v1
  try clear_value v0
  try clear_value v1
  repeat'
    first
      | with_reducible assumption
      | intro _
      | with_reducible first | apply ok_flag | apply ok_incSat | apply sbitPut_ok | apply onRec_ok | apply writeRec_ok | apply holdStart_ok | apply ok_ite
      | split
      | dsimp only

theorem assertF_ok {d : Dev} {s : Nat} (h_d : Ok d) : Ok (assertF d s) := by
  unfold assertF
  extract_lets +onlyGivenNames v0 v1 v2 v3 v4
  try clear_value v0
  try clear_value v1
  have h_v2 : Ok v2 := by
    unfold v2
    repeat'
      first
        | with_reducible assumption
        | intro _
        | with_reducible first | apply frPut_ok | apply signal_ok | apply ok_ite
        | split
        | dsimp only
  try clear_value v2
  have h_v3 : Ok v3 := by
    unfold v3
    repeat'
      first
        | with_reducible assumption
        | intro _
        | with_reducible first | apply frPut_ok | apply signal_ok | apply ok_ite
        | split
        | dsimp only
  try clear_value v3
  have h_v4 : Ok v4 := by
    unfold v4
    repeat'
      first
        | with_reducible assumption
        | intro _
        | with_reducible first | apply frPut_ok | apply signal_ok | apply ok_ite
        | split
        | dsimp only
  try clear_value v4
  repeat'
    first
      | with_reducible assumption
      | intro _
      | with_reducible first | apply frPut_ok | apply signal_ok | apply ok_ite
      | split
      | dsimp only

theorem withdraw_ok {d : Dev} {s : Nat} (h_d : Ok d) : Ok (withdraw d s) := by
  unfold withdraw
  extract_lets +onlyGivenNames v0
  have h_v0 : Ok v0 := by
    unfold v0
    repeat'
      first
        | with_reducible assumption
        | intro _
        | with_reducible first | apply sbitPut_ok | apply onSrc_ok | apply onRec_ok | apply frPut_ok | apply ok_ite | apply ok_forAll | apply ok_foldl | apply ok_foldl_fst | apply ok_foldl_snd
        | split
        | dsimp only
  try clear_value v0
  repeat'
    first
      | with_reducible assumption
      | intro _
      | with_reducible first | apply sbitPut_ok | apply onSrc_ok | apply onRec_ok | apply frPut_ok | apply ok_ite | apply ok_forAll | apply ok_foldl | apply ok_foldl_fst | apply ok_foldl_snd
      | split
      | dsimp only

theorem takeMsg_ok {d : Dev} {m : Msg} (h_d : Ok d) : Ok (takeMsg d m) := by
  unfold takeMsg
  extract_lets +onlyGivenNames v0 v1 v2 v3 v4
  try clear_value v0
  have h_v1 : Ok v1 := by
    unfold v1
    repeat'
      first
        | with_reducible assumption
        | intro _
        | with_reducible first | apply ok_inc | apply traceAdd_ok | apply sbitPut_ok | apply onSrc_ok | apply assertN_ok | apply assertF_ok | apply withdraw_ok | apply ok_ite
        | split
        | dsimp only
  try clear_value v1
  have h_v2 : Ok v2 := by
    unfold v2
    repeat'
      first
        | with_reducible assumption
        | intro _
        | with_reducible first | apply ok_inc | apply traceAdd_ok | apply sbitPut_ok | apply onSrc_ok | apply assertN_ok | apply assertF_ok | apply withdraw_ok | apply ok_ite
        | split
        | dsimp only
  try clear_value v2
  try clear_value v3
  have h_v4 : Ok v4 := by
    unfold v4
    repeat'
      first
        | with_reducible assumption
        | intro _
        | with_reducible first | apply ok_inc | apply traceAdd_ok | apply sbitPut_ok | apply onSrc_ok | apply assertN_ok | apply assertF_ok | apply withdraw_ok | apply ok_ite
        | split
        | dsimp only
  try clear_value v4
  repeat'
    first
      | with_reducible assumption
      | intro _
      | with_reducible first | apply ok_inc | apply traceAdd_ok | apply sbitPut_ok | apply onSrc_ok | apply assertN_ok | apply assertF_ok | apply withdraw_ok | apply ok_ite
      | split
      | dsimp only

theorem execEvgMessage_ok {s : State} (h_s : Ok s.dev) : Good s (execEvgMessage s) := by
  unfold execEvgMessage
  repeat'
    first
      | with_reducible assumption
      | intro _
      | with_reducible first | apply takeMsg_ok | apply ok_ite | apply good_stay | apply good_onDev | apply good_onUnit | apply good_onBlock | apply good_onRegion | apply good_onChip | apply good_ite
      | split
      | with_reducible apply ok_mk

theorem execDoorbellWrite_ok {h : Master} {w : Word} {s : State} (h_s : Ok s.dev) : Good s (execDoorbellWrite h w s) := by
  unfold execDoorbellWrite
  repeat'
    first
      | with_reducible assumption
      | intro _
      | with_reducible first | apply ok_inc | apply Dev_hostErr_ok | apply hostW_ok | apply ok_ite | apply good_stay | apply good_onDev | apply good_onUnit | apply good_onBlock | apply good_onRegion | apply good_onChip | apply good_ite
      | split
      | with_reducible apply ok_mk

theorem execHoldoffExpire_ok {g : Fin 64} {s : State} (h_s : Ok s.dev) : Good s (execHoldoffExpire g s) := by
  unfold execHoldoffExpire
  repeat'
    first
      | with_reducible assumption
      | intro _
      | with_reducible first | apply ok_clr | apply present_ok | apply ok_ite | apply good_stay | apply good_onDev | apply good_onUnit | apply good_onBlock | apply good_onRegion | apply good_onChip | apply good_ite
      | split
      | dsimp only

theorem wakeRead_ok {d : Dev} {t : Fin 4} (h_d : Ok d) : Ok (wakeRead d t) := by
  unfold wakeRead
  repeat'
    first
      | with_reducible assumption
      | intro _
      | with_reducible first | apply onTarg_ok | apply ok_ite
      | split
      | dsimp only

theorem targRd_ok {s : State} {h : Master} {a : Nat} {t : Fin 4} {f : Dev → Dev} (h_s : Ok s.dev) (h_f : ∀ x0, Ok x0 → Ok (f x0)) : Good s (targRd s h a t f) := by
  unfold targRd
  repeat'
    first
      | with_reducible assumption
      | intro _
      | with_reducible first | apply h_f | apply Dev_hostErr_ok | apply hostRd_ok | apply answer_ok | apply ok_ite | apply good_stay | apply good_onDev | apply good_onUnit | apply good_onBlock | apply good_onRegion | apply good_onChip | apply good_ite
      | split
      | dsimp only

theorem claimTake_ok {d : Dev} {t : Fin 4} (h_d : Ok d) : Ok (claimTake d t).2 := by
  unfold claimTake
  extract_lets +onlyGivenNames v0 v1 v2
  have h_v0 : Ok v0 := by
    unfold v0
    repeat'
      first
        | with_reducible assumption
        | intro _
        | with_reducible first | apply ok_flag | apply onRec_ok | apply signal_ok | apply wakeRead_ok | apply ok_ite
        | split
        | dsimp only
  try clear_value v0
  try clear_value v1
  have h_v2 : Ok v2 := by
    unfold v2
    repeat'
      first
        | with_reducible assumption
        | intro _
        | with_reducible first | apply ok_flag | apply onRec_ok | apply signal_ok | apply wakeRead_ok | apply ok_ite
        | split
        | dsimp only
  try clear_value v2
  repeat'
    first
      | with_reducible assumption
      | intro _
      | with_reducible first | apply ok_flag | apply onRec_ok | apply signal_ok | apply wakeRead_ok | apply ok_ite
      | split
      | dsimp only

theorem doClaim_ok {d : Dev} {h : Master} {t : Fin 4} (h_d : Ok d) : Ok (doClaim d h t) := by
  unfold doClaim
  repeat'
    first
      | with_reducible assumption
      | intro _
      | with_reducible first | apply answer_ok | apply claimTake_ok | apply ok_ite
      | with_reducible refine ok_snd (by assumption) ?_
      | split
      | dsimp only

theorem execClaim_ok {h : Master} {t : Fin 4} {s : State} (h_s : Ok s.dev) : Good s (execClaim h t s) := by
  unfold execClaim
  repeat'
    first
      | with_reducible assumption
      | intro _
      | with_reducible first | apply targRd_ok | apply doClaim_ok | apply ok_ite | apply good_stay | apply good_onDev | apply good_onUnit | apply good_onBlock | apply good_onRegion | apply good_onChip | apply good_ite
      | split
      | dsimp only

theorem dropRec_ok {d : Dev} {t : Fin 4} {k : Nat} (h_d : Ok d) : Ok (dropRec d t k) := by
  unfold dropRec
  repeat'
    first
      | with_reducible assumption
      | intro _
      | with_reducible first | apply onTarg_ok | apply onRec_ok | apply ok_ite
      | split
      | dsimp only

theorem represent_ok {d : Dev} {s : Nat} (h_d : Ok d) : Ok (represent d s) := by
  unfold represent
  extract_lets +onlyGivenNames v0
  try clear_value v0
  repeat'
    first
      | with_reducible assumption
      | intro _
      | with_reducible first | apply ok_flagBit | apply sbitPut_ok | apply onSrc_ok | apply ok_ite
      | split
      | dsimp only

theorem doComplete_ok {d : Dev} {t : Fin 4} {w : Word} (h_d : Ok d) : Ok (doComplete d t w) := by
  unfold doComplete
  extract_lets +onlyGivenNames v0 v1 v2 v3
  try clear_value v0
  try clear_value v1
  have h_v2 : Ok v2 := by
    unfold v2
    repeat'
      first
        | with_reducible assumption
        | intro _
        | with_reducible first | apply ok_flag | apply ok_inc | apply signal_ok | apply presentFree_ok | apply dropRec_ok | apply represent_ok | apply ok_ite
        | split
        | dsimp only
  try clear_value v2
  have h_v3 : Ok v3 := by
    unfold v3
    repeat'
      first
        | with_reducible assumption
        | intro _
        | with_reducible first | apply ok_flag | apply ok_inc | apply signal_ok | apply presentFree_ok | apply dropRec_ok | apply represent_ok | apply ok_ite
        | split
        | dsimp only
  try clear_value v3
  repeat'
    first
      | with_reducible assumption
      | intro _
      | with_reducible first | apply ok_flag | apply ok_inc | apply signal_ok | apply presentFree_ok | apply dropRec_ok | apply represent_ok | apply ok_ite
      | split
      | dsimp only

theorem execComplete_ok {h : Master} {t : Fin 4} {w : Word} {s : State} (h_s : Ok s.dev) : Good s (execComplete h t w s) := by
  unfold execComplete
  repeat'
    first
      | with_reducible assumption
      | intro _
      | with_reducible first | apply hostW_ok | apply doComplete_ok | apply ok_ite | apply good_stay | apply good_onDev | apply good_onUnit | apply good_onBlock | apply good_onRegion | apply good_onChip | apply good_ite
      | split
      | dsimp only

theorem frTake_ok {d : Dev} {i : FrIx} (h_d : Ok d) : Ok (frTake d i).2 := by
  unfold frTake
  extract_lets +onlyGivenNames v0
  have h_v0 : Ok v0 := by
    unfold v0
    repeat'
      first
        | with_reducible assumption
        | intro _
        | with_reducible first | apply frPut_ok | apply signal_ok | apply wakeRead_ok | apply ok_ite
        | split
        | dsimp only
  try clear_value v0
  repeat'
    first
      | with_reducible assumption
      | intro _
      | with_reducible first | apply frPut_ok | apply signal_ok | apply wakeRead_ok | apply ok_ite
      | split
      | dsimp only

theorem doFrRead_ok {d : Dev} {h : Master} {i : FrIx} (h_d : Ok d) : Ok (doFrRead d h i) := by
  unfold doFrRead
  repeat'
    first
      | with_reducible assumption
      | intro _
      | with_reducible first | apply answer_ok | apply frTake_ok | apply ok_ite
      | with_reducible refine ok_snd (by assumption) ?_
      | split
      | dsimp only

theorem execFastRecordRead_ok {h : Master} {t : Fin 4} {i : Fin 8} {s : State} (h_s : Ok s.dev) : Good s (execFastRecordRead h t i s) := by
  unfold execFastRecordRead
  repeat'
    first
      | with_reducible assumption
      | intro _
      | with_reducible first | apply targRd_ok | apply doFrRead_ok | apply ok_ite | apply good_stay | apply good_onDev | apply good_onUnit | apply good_onBlock | apply good_onRegion | apply good_onChip | apply good_ite
      | split
      | dsimp only

theorem execWakeReleaseRead_ok {h : Master} {a : BitVec 27} {s : State} (h_s : Ok s.dev) : Good s (execWakeReleaseRead h a s) := by
  unfold execWakeReleaseRead
  repeat'
    first
      | with_reducible assumption
      | intro _
      | with_reducible first | apply answer_ok | apply wakeRead_ok | apply targRd_ok | apply execClaim_ok | apply execFastRecordRead_ok | apply ok_ite | apply good_stay | apply good_onDev | apply good_onUnit | apply good_onBlock | apply good_onRegion | apply good_onChip | apply good_ite
      | split
      | dsimp only

theorem tCfgWrite_ok {d : Dev} {t : Fin 4} {w : Word} (h_d : Ok d) : Ok (tCfgWrite d t w) := by
  unfold tCfgWrite
  extract_lets +onlyGivenNames v0 v1 v2
  try clear_value v0
  try clear_value v1
  try clear_value v2
  repeat'
    first
      | with_reducible assumption
      | intro _
      | with_reducible first | apply ok_setReg | apply signal_ok | apply ok_ite
      | split
      | dsimp only

theorem execSleepWrite_ok {h : Master} {w : Word} {s : State} (h_s : Ok s.dev) : Good s (execSleepWrite h w s) := by
  unfold execSleepWrite
  repeat'
    first
      | with_reducible assumption
      | intro _
      | with_reducible first | apply hostW_ok | apply tCfgWrite_ok | apply ok_ite | apply good_stay | apply good_onDev | apply good_onUnit | apply good_onBlock | apply good_onRegion | apply good_onChip | apply good_ite
      | split
      | dsimp only

theorem execSourceRoutingWrite_ok {h : Master} {i : Fin 1024} {w : Word} {s : State} (h_s : Ok s.dev) : Good s (execSourceRoutingWrite h i w s) := by
  unfold execSourceRoutingWrite
  repeat'
    first
      | with_reducible assumption
      | intro _
      | with_reducible first | apply ok_setReg | apply hostW_ok | apply signalAll_ok | apply ok_ite | apply good_stay | apply good_onDev | apply good_onUnit | apply good_onBlock | apply good_onRegion | apply good_onChip | apply good_ite
      | split
      | dsimp only

theorem execHoldoffWrite_ok {h : Master} {g : Fin 64} {w : Word} {s : State} (h_s : Ok s.dev) : Good s (execHoldoffWrite h g w s) := by
  unfold execHoldoffWrite
  repeat'
    first
      | with_reducible assumption
      | intro _
      | with_reducible first | apply ok_put | apply hostW_ok | apply ok_ite | apply good_stay | apply good_onDev | apply good_onUnit | apply good_onBlock | apply good_onRegion | apply good_onChip | apply good_ite
      | split
      | dsimp only

theorem unclaimH0_ok {d : Dev} (h_d : Ok d) : Ok (unclaimH0 d) := by
  unfold unclaimH0
  extract_lets +onlyGivenNames v0
  have h_v0 : Ok v0 := by
    unfold v0
    repeat'
      first
        | with_reducible assumption
        | intro _
        | with_reducible first | apply onTarg_ok | apply onRec_ok | apply signal_ok | apply ok_ite | apply ok_foldl | apply ok_foldl_fst | apply ok_foldl_snd
        | split
        | dsimp only
  try clear_value v0
  repeat'
    first
      | with_reducible assumption
      | intro _
      | with_reducible first | apply onTarg_ok | apply onRec_ok | apply signal_ok | apply ok_ite | apply ok_foldl | apply ok_foldl_fst | apply ok_foldl_snd
      | split
      | dsimp only

theorem gatherStewards_ok {d : Dev} (h_d : Ok d) : Ok (gatherStewards d) := by
  unfold gatherStewards
  refine present_ok ?_
  refine ok_forAll (onTarg_ok (ok_forAll (onTarg_ok h_d fun _ _ => rfl) fun _ _ h => ok_setReg h) fun _ _ => rfl) fun _ _ h => ok_setReg h

end Sys2Proof.Machine
end

