-- ==== Sys2Proof/Laws/KeepPairing.lean ====
section
/-! SUPPORT. The invariant kept by every operation of Machine/Pairing.lean. -/

set_option linter.unreachableTactic false
set_option linter.unusedTactic false

namespace Sys2Proof.Machine

theorem startMs_ok {d : Dev} (h_d : Ok d) : Ok (startMs d) := by
  unfold startMs
  repeat'
    first
      | with_reducible assumption
      | intro _
      | with_reducible first | apply ok_put | apply ok_ite
      | split
      | dsimp only

theorem trialEnds_ok {d : Dev} (h_d : Ok d) : Ok (trialEnds d) := by
  unfold trialEnds
  extract_lets +onlyGivenNames v0
  have h_v0 : Ok v0 := by
    unfold v0
    repeat'
      first
        | with_reducible assumption
        | intro _
        | with_reducible first | apply ok_flag | apply ok_raise | apply recWrite_ok | apply ok_ite
        | split
        | with_reducible apply ok_mk
  try clear_value v0
  repeat'
    first
      | with_reducible assumption
      | intro _
      | with_reducible first | apply ok_flag | apply ok_raise | apply recWrite_ok | apply ok_ite
      | split
      | with_reducible apply ok_mk

theorem startHeld_ok {d : Dev} (h_d : Ok d) : Ok (startHeld d) := by
  unfold startHeld
  extract_lets +onlyGivenNames v0
  have h_v0 : Ok v0 := by
    unfold v0
    repeat'
      first
        | with_reducible assumption
        | intro _
        | with_reducible first | apply ok_put | apply startMs_ok | apply trialEnds_ok | apply ok_ite
        | split
        | dsimp only
  try clear_value v0
  repeat'
    first
      | with_reducible assumption
      | intro _
      | with_reducible first | apply ok_put | apply startMs_ok | apply trialEnds_ok | apply ok_ite
      | split
      | dsimp only

theorem unpair_ok {d : Dev} (h_d : Ok d) : Ok (unpair d) := by
  unfold unpair
  repeat'
    first
      | with_reducible assumption
      | intro _
      | with_reducible first | apply ok_onTw | apply twinSourcesLost_ok | apply ok_ite
      | split
      | dsimp only

theorem linkDown_ok {d : Dev} (h_d : Ok d) : Ok (linkDown d) := by
  unfold linkDown
  extract_lets +onlyGivenNames v0 v1 v2
  have h_v0 : Ok v0 := by
    unfold v0
    repeat'
      first
        | with_reducible assumption
        | intro _
        | with_reducible first | apply ok_flag | apply ok_clr | apply ok_incSat | apply ok_onTw | apply ok_raise | apply startHeld_ok | apply unpair_ok | apply ok_ite
        | split
        | dsimp only
  try clear_value v0
  have h_v1 : Ok v1 := by
    unfold v1
    repeat'
      first
        | with_reducible assumption
        | intro _
        | with_reducible first | apply ok_flag | apply ok_clr | apply ok_incSat | apply ok_onTw | apply ok_raise | apply startHeld_ok | apply unpair_ok | apply ok_ite
        | split
        | dsimp only
  try clear_value v1
  have h_v2 : Ok v2 := by
    unfold v2
    repeat'
      first
        | with_reducible assumption
        | intro _
        | with_reducible first | apply ok_flag | apply ok_clr | apply ok_incSat | apply ok_onTw | apply ok_raise | apply startHeld_ok | apply unpair_ok | apply ok_ite
        | split
        | dsimp only
  try clear_value v2
  repeat'
    first
      | with_reducible assumption
      | intro _
      | with_reducible first | apply ok_flag | apply ok_clr | apply ok_incSat | apply ok_onTw | apply ok_raise | apply startHeld_ok | apply unpair_ok | apply ok_ite
      | split
      | dsimp only

theorem claimStart_ok {d : Dev} (h_d : Ok d) : Ok (claimStart d) := by
  unfold claimStart
  repeat'
    first
      | with_reducible assumption
      | intro _
      | with_reducible first | apply ok_onTw | apply roleHeld_ok | apply ok_ite
      | split
      | dsimp only

theorem pairOk_ok {d : Dev} {h : Hello} (h_d : Ok d) : Ok (pairOk d h) := by
  unfold pairOk
  extract_lets +onlyGivenNames v0 v1
  have h_v0 : Ok v0 := by
    unfold v0
    repeat'
      first
        | with_reducible assumption
        | intro _
        | with_reducible first | apply ok_put | apply ok_clr | apply ok_putB | apply ok_onTw | apply ok_raise | apply twSend_ok | apply setRole_ok | apply roleHeld_ok | apply ok_ite
        | split
        | dsimp only
  try clear_value v0
  have h_v1 : Ok v1 := by
    unfold v1
    repeat'
      first
        | with_reducible assumption
        | intro _
        | with_reducible first | apply ok_put | apply ok_clr | apply ok_putB | apply ok_onTw | apply ok_raise | apply twSend_ok | apply setRole_ok | apply roleHeld_ok | apply ok_ite
        | split
        | dsimp only
  try clear_value v1
  repeat'
    first
      | with_reducible assumption
      | intro _
      | with_reducible first | apply ok_put | apply ok_clr | apply ok_putB | apply ok_onTw | apply ok_raise | apply twSend_ok | apply setRole_ok | apply roleHeld_ok | apply ok_ite
      | split
      | dsimp only

theorem pairCheck_ok {d : Dev} (h_d : Ok d) : Ok (pairCheck d) := by
  unfold pairCheck
  split
  all_goals
    repeat'
      first
        | with_reducible assumption
        | intro _
        | with_reducible first | apply ok_put | apply ok_onTw | apply ok_raise | apply unpair_ok | apply pairOk_ok | apply ok_ite
        | split
        | dsimp only

end Sys2Proof.Machine
end

