-- ==== Sys2Proof/Laws/KeepLoad.lean ====
section
/-! SUPPORT. The invariant kept by every operation of Machine/Load.lean. -/

set_option linter.unreachableTactic false
set_option linter.unusedTactic false

namespace Sys2Proof.Machine

theorem blockOff_ok {d : Dev} {nn : Fin 16} (h_d : Ok d) : Ok (blockOff d nn) := by
  unfold blockOff
  refine setPending_ok (legsSafe_ok (ok_onB (ok_setReg (ok_setReg (blockRegsClear_ok h_d))) ?_))
  exact fun _ _ => blk_same blk_reset_wf rfl rfl rfl

theorem clearPat_ok {d : Dev} (h_d : Ok d) : Ok (clearPat d) := by
  unfold clearPat
  extract_lets one inB rs
  have h1 : ∀ e, (one e).1 = e.1 := fun _ => rfl
  clear_value one
  refine ok_regs h_d fun h => tcanon_map_filter _ _ _ (fun e => ?_) (fun e he => by simpa using he) h
  split
  · rfl
  · exact h1 e

theorem rgn_reset_wf : Rgn.wf Rgn.reset = true := by decide

theorem poolEmpty_ok {d : Dev} {n : Fin 4} (h_d : Ok d) : Ok (poolEmpty d n) := by
  unfold poolEmpty
  extract_lets d1 d2 d3
  have h1 : Ok d1 := ok_forAll h_d fun _ _ h => ok_clr (ok_foldl h fun _ _ h => popReply_ok (ok_flag h))
  have h2 : Ok d2 := ok_clr (ok_clr (ok_clr (ok_clr h1)))
  have h3 : Ok d3 := ok_forAll h2 fun _ _ h => ok_clr (ok_clr (ok_clr h))
  exact ok_onR h3 fun _ _ => rgn_same rgn_reset_wf rfl rfl rfl rfl rfl

theorem boardClear_ok {d : Dev} (h_d : Ok d) : Ok (boardClear d) := by
  unfold boardClear
  extract_lets d1
  have h1 : Ok d1 := ok_regs h_d fun h => tcanon_filter _ _ h
  refine ok_forAll h1 fun _ _ h => ok_onR h fun r hr => ?_
  have h := rgn_iff.1 hr
  exact rgn_iff.2 ⟨h.1, h.2.1, h.2.2.1, h.2.2.2.1, rfl⟩

theorem patShow_ok {d : Dev} (h_d : Ok d) : Ok (patShow d) := by
  unfold patShow
  extract_lets +onlyGivenNames v0
  try clear_value v0
  repeat'
    first
      | with_reducible assumption
      | intro _
      | with_reducible first | apply ok_setReg | apply ok_put | apply ok_ite
      | split
      | dsimp only

theorem patGone_ok {d : Dev} (h_d : Ok d) : Ok (patGone d) := by
  unfold patGone
  refine patShow_ok (domsInit_ok (boardClear_ok ?_))
  refine ok_forAll (ok_forAll (clearPat_ok (ok_mk ?_)) fun _ _ h => txClear_ok h) fun _ _ h => poolEmpty_ok h
  exact ok_forAll (chanLoad_ok h_d) fun _ _ h => blockOff_ok h

theorem noPattern_ok {d : Dev} (h_d : Ok d) : Ok (noPattern d) := by
  unfold noPattern
  extract_lets +onlyGivenNames v0 v1
  have h_v0 : Ok v0 := by
    unfold v0
    repeat'
      first
        | with_reducible assumption
        | intro _
        | with_reducible first | apply ok_put | apply actSync_ok | apply portNoPat_ok | apply patGone_ok | apply ok_ite | apply ok_forAll
        | split
        | dsimp only
  try clear_value v0
  have h_v1 : Ok v1 := by
    unfold v1
    repeat'
      first
        | with_reducible assumption
        | intro _
        | with_reducible first | apply ok_put | apply actSync_ok | apply portNoPat_ok | apply patGone_ok | apply ok_ite | apply ok_forAll
        | split
        | dsimp only
  try clear_value v1
  repeat'
    first
      | with_reducible assumption
      | intro _
      | with_reducible first | apply ok_put | apply actSync_ok | apply portNoPat_ok | apply patGone_ok | apply ok_ite | apply ok_forAll
      | split
      | dsimp only

theorem applyChip_ok {d : Dev} {p : PatImage} (h_d : Ok d) : Ok (applyChip d p) := by
  unfold applyChip
  repeat'
    first
      | with_reducible assumption
      | intro _
      | with_reducible first | apply loadRegs_ok | apply ok_ite
      | split
      | dsimp only

theorem applyRegion_ok {d : Dev} {p : PatImage} {n : Fin 4} (h_d : Ok d) : Ok (applyRegion d p n) := by
  unfold applyRegion
  split
  all_goals
    repeat'
      first
        | with_reducible assumption
        | intro _
        | with_reducible first | apply loadRegs_ok | apply ok_ite
        | split
        | dsimp only

theorem calOff_ok {d : Dev} (h_d : Ok d) : Ok (calOff d) := by
  unfold calOff
  split
  all_goals
    repeat'
      first
        | with_reducible assumption
        | intro _
        | with_reducible first | apply ok_inc | apply ok_ite | apply ok_foldl | apply ok_foldl_fst | apply ok_foldl_snd
        | split
        | dsimp only

theorem heatShift_ok {d : Dev} {num : Nat} {den : Nat} (h_d : Ok d) : Ok (heatShift d num den) := by
  unfold heatShift
  extract_lets +onlyGivenNames v0
  try clear_value v0
  repeat'
    first
      | with_reducible assumption
      | intro _
      | with_reducible first | apply ok_onTw | apply ok_ite
      | split
      | dsimp only

theorem heatLink_ok {d : Dev} (h_d : Ok d) : Ok (heatLink d) := by
  unfold heatLink
  repeat'
    first
      | with_reducible assumption
      | intro _
      | with_reducible first | apply ok_incSat | apply linkDown_ok | apply ok_ite
      | split
      | dsimp only

theorem relock_ok {d : Dev} (h_d : Ok d) : Ok (relock d) := by
  unfold relock
  repeat'
    first
      | with_reducible assumption
      | intro _
      | with_reducible first | apply ok_put | apply portsOff_ok | apply heatShift_ok | apply heatLink_ok | apply ok_ite
      | split
      | dsimp only

theorem loadApply_ok {d : Dev} {p : PatImage} (h_d : Ok d) : Ok (loadApply d p) := by
  unfold loadApply
  extract_lets d0 d1 d2 d3 d4 d5 d6 d7
  have h0 : Ok d0 := patGone_ok h_d
  clear_value d0
  have h1 : Ok d1 := ok_mk h0
  clear_value d1
  have h2 : Ok d2 := by unfold d2; with_reducible exact ok_put (applyChip_ok h1)
  clear_value d2
  have h3 : Ok d3 := by unfold d3; with_reducible exact ok_forAll h2 fun _ _ h => applyRegion_ok h
  clear_value d3
  have h4 : Ok d4 := by unfold d4; with_reducible exact domsInit_ok h3
  clear_value d4
  have h5 : Ok d5 := by unfold d5; with_reducible exact ok_forAll h4 fun _ _ h => portRestart_ok h
  clear_value d5
  have h6 : Ok d6 := by unfold d6; with_reducible exact calOff_ok h5
  clear_value d6
  have h7 : Ok d7 := by
    unfold d7
    refine ok_forAll h6 fun d nn h => ?_
    split
    · exact tdaTrims_ok (fillBlock_ok h)
    · exact actSync_ok h
  clear_value d7
  exact patShow_ok (ok_clr (ok_clr h7))

theorem opEnd_ok {d : Dev} (h_d : Ok d) : Ok (opEnd d) := by
  unfold opEnd
  refine ok_clr (ok_clr (ok_clr (ok_mk ?_)))
  split
  · dsimp only
    refine ok_ite ?_ (ok_put ?_) <;> exact ok_onB (ok_clr h_d) fun _ h => blk_same h rfl rfl rfl
  · exact h_d

theorem calTake_ok {d : Dev} {bank : Bool} (h_d : Ok d) : Ok (calTake d bank).2 := by
  unfold calTake
  split
  all_goals
    repeat'
      first
        | with_reducible assumption
        | intro _
        | with_reducible first | apply ok_put | apply bootCause_ok | apply ok_ite
        | split
        | with_reducible apply ok_mk

theorem startNone_ok {d : Dev} (h_d : Ok d) : Ok (startNone d) := by
  unfold startNone
  split
  all_goals
    repeat'
      first
        | with_reducible assumption
        | intro _
        | with_reducible first | apply chipHeld_ok | apply startMs_ok | apply noPattern_ok | apply calTake_ok | apply ok_ite
        | with_reducible refine ok_snd (by assumption) ?_
        | split
        | dsimp only

theorem opRefuse_ok {d : Dev} {code : Nat} {blk : Nat} {slot : Nat} {bankB : Bool} (h_d : Ok d) : Ok (opRefuse d code blk slot bankB) := by
  unfold opRefuse
  extract_lets +onlyGivenNames v0 v1
  try clear_value v0
  have h_v1 : Ok v1 := by
    unfold v1
    repeat'
      first
        | with_reducible assumption
        | intro _
        | with_reducible first | apply patRefuse_ok | apply opEnd_ok | apply startNone_ok | apply ok_ite
        | split
        | dsimp only
  try clear_value v1
  repeat'
    first
      | with_reducible assumption
      | intro _
      | with_reducible first | apply patRefuse_ok | apply opEnd_ok | apply startNone_ok | apply ok_ite
      | split
      | dsimp only

theorem opCause_ok {d : Dev} {code : Nat} (h_d : Ok d) : Ok (opCause d code) := by
  unfold opCause
  extract_lets +onlyGivenNames v0
  try clear_value v0
  repeat'
    first
      | with_reducible assumption
      | intro _
      | with_reducible first | apply bootCause_ok | apply ok_ite
      | split
      | dsimp only

theorem opCheck_ok {d : Dev} {op : PatOp} {d' : Dev} (e : opCheck d op = .inl d') (h_d : Ok d) : Ok d' := by
  have key : ∀ code, Ok (opRefuse (opCause d code) 1 0 0 false) := fun _ => opRefuse_ok (opCause_ok h_d)
  unfold opCheck at e
  split at e
  · injection e with e; exact e ▸ key _
  · split at e
    · split at e
      · injection e with e; exact e ▸ opRefuse_ok (opCause_ok h_d)
      · injection e
    · injection e with e
      rw [← e]
      split
      · exact chipHeld_ok (key _)
      · exact key _

theorem startStage_ok {d : Dev} (h_d : Ok d) : Ok (startStage d) := by
  unfold startStage
  repeat'
    first
      | with_reducible assumption
      | intro _
      | with_reducible first | apply ok_put | apply startHeld_ok | apply ok_ite
      | split
      | dsimp only

theorem loadEnd_ok {d : Dev} {op : PatOp} {p : PatImage} {readOk : Bool} (h_d : Ok d) : Ok (loadEnd d op p readOk).2 := by
  unfold loadEnd
  extract_lets +onlyGivenNames v0
  have h_v0 : Ok v0 := by
    unfold v0
    repeat'
      first
        | with_reducible assumption
        | intro _
        | with_reducible first | apply patRefuse_ok | apply patDone_ok | apply chipHeld_ok | apply pairCheck_ok | apply noPattern_ok | apply relock_ok | apply loadApply_ok | apply opEnd_ok | apply calTake_ok | apply startNone_ok | apply opCause_ok | apply startStage_ok | apply ok_ite
        | with_reducible refine ok_snd (by assumption) ?_
        | split
        | dsimp only
  try clear_value v0
  repeat'
    first
      | with_reducible assumption
      | intro _
      | with_reducible first | apply patRefuse_ok | apply patDone_ok | apply chipHeld_ok | apply pairCheck_ok | apply noPattern_ok | apply relock_ok | apply loadApply_ok | apply opEnd_ok | apply calTake_ok | apply startNone_ok | apply opCause_ok | apply startStage_ok | apply ok_ite
      | with_reducible refine ok_snd (by assumption) ?_
      | split
      | dsimp only

theorem loadStep_ok {d : Dev} {op : PatOp} {readOk : Bool} (h_d : Ok d) : Ok (loadStep d op readOk).2 := by
  unfold loadStep
  split
  all_goals
    repeat'
      first
        | with_reducible assumption
        | intro _
        | with_reducible first | apply loadEnd_ok | apply ok_ite
        | with_reducible refine opCheck_ok (by assumption) ?_
        | with_reducible refine ok_snd (by assumption) ?_
        | split
        | dsimp only

theorem startLoad_ok {d : Dev} (h_d : Ok d) : Ok (startLoad d) := by
  unfold startLoad
  extract_lets +onlyGivenNames v0
  have h_v0 : Ok v0 := by
    unfold v0
    repeat'
      first
        | with_reducible assumption
        | intro _
        | with_reducible first | apply ok_put | apply ok_flag | apply ok_putB | apply bootCause_ok | apply startNone_ok | apply ok_ite
        | split
        | with_reducible apply ok_mk
  try clear_value v0
  repeat'
    first
      | with_reducible assumption
      | intro _
      | with_reducible first | apply ok_put | apply ok_flag | apply ok_putB | apply bootCause_ok | apply startNone_ok | apply ok_ite
      | split
      | with_reducible apply ok_mk

theorem opBegin_ok {d : Dev} {repour : Option (Fin 16)} {src : Nat} (h_d : Ok d) : Ok (opBegin d repour src) := by
  unfold opBegin
  extract_lets +onlyGivenNames v0 v1
  try clear_value v0
  have h_v1 : Ok v1 := by
    unfold v1
    repeat'
      first
        | with_reducible assumption
        | intro _
        | with_reducible first | apply ok_put | apply ok_flag | apply chanBlockGone_ok | apply ok_ite
        | (with_reducible refine ok_leg ?_ ?_ <;> first | with_reducible assumption | exact fun hg => leg_same hg rfl rfl rfl rfl | skip)
        | (with_reducible refine ok_legs ?_ ?_ <;> first | with_reducible assumption | exact fun _ hg => leg_same hg rfl rfl rfl rfl | skip)
        | (with_reducible refine ok_onB ?_ ?_ <;> first | with_reducible assumption | exact fun _ h => blk_same h rfl rfl rfl | exact fun _ h => blk_noClr h rfl rfl rfl | exact fun _ h => blk_map h rfl rfl rfl fun _ hg => leg_same hg rfl rfl rfl rfl | skip)
        | exact blk_same (by assumption) rfl rfl rfl
        | split
        | with_reducible apply ok_mk
  try clear_value v1
  repeat'
    first
      | with_reducible assumption
      | intro _
      | with_reducible first | apply ok_put | apply ok_flag | apply chanBlockGone_ok | apply ok_ite
      | (with_reducible refine ok_leg ?_ ?_ <;> first | with_reducible assumption | exact fun hg => leg_same hg rfl rfl rfl rfl | skip)
      | (with_reducible refine ok_legs ?_ ?_ <;> first | with_reducible assumption | exact fun _ hg => leg_same hg rfl rfl rfl rfl | skip)
      | (with_reducible refine ok_onB ?_ ?_ <;> first | with_reducible assumption | exact fun _ h => blk_same h rfl rfl rfl | exact fun _ h => blk_noClr h rfl rfl rfl | exact fun _ h => blk_map h rfl rfl rfl fun _ hg => leg_same hg rfl rfl rfl rfl | skip)
      | exact blk_same (by assumption) rfl rfl rfl
      | split
      | with_reducible apply ok_mk

theorem patCtlWrite_ok {d : Dev} {w : Word} (h_d : Ok d) : Ok (patCtlWrite d w) := by
  unfold patCtlWrite
  extract_lets +onlyGivenNames v0 v1 v2 v3
  have h_v0 : Ok v0 := by
    unfold v0
    repeat'
      first
        | with_reducible assumption
        | intro _
        | with_reducible first | apply twSend_ok | apply patRefuse_ok | apply mCfg_ok | apply opBegin_ok | apply ok_ite
        | split
        | dsimp only
  try clear_value v0
  try clear_value v1
  try clear_value v2
  try clear_value v3
  repeat'
    first
      | with_reducible assumption
      | intro _
      | with_reducible first | apply twSend_ok | apply patRefuse_ok | apply mCfg_ok | apply opBegin_ok | apply ok_ite
      | split
      | dsimp only

theorem patCtlHost_ok {s : State} {h : Master} {w : Word} (h_s : Ok s.dev) : Good s (patCtlHost s h w) := by
  unfold patCtlHost
  repeat'
    first
      | with_reducible assumption
      | intro _
      | with_reducible first | apply hostW_ok | apply patCtlWrite_ok | apply ok_ite | apply good_stay | apply good_onDev | apply good_onUnit | apply good_onBlock | apply good_onRegion | apply good_onChip | apply good_ite
      | split
      | dsimp only

theorem execPatternLoad_ok {h : Master} {w : Word} {s : State} (h_s : Ok s.dev) : Good s (execPatternLoad h w s) := by
  unfold execPatternLoad
  repeat'
    first
      | with_reducible assumption
      | intro _
      | with_reducible first | apply patCtlHost_ok | apply ok_ite | apply good_stay | apply good_onDev | apply good_onUnit | apply good_onBlock | apply good_onRegion | apply good_onChip | apply good_ite
      | split
      | dsimp only

theorem execRepour_ok {h : Master} {w : Word} {s : State} (h_s : Ok s.dev) : Good s (execRepour h w s) := by
  unfold execRepour
  repeat'
    first
      | with_reducible assumption
      | intro _
      | with_reducible first | apply patCtlHost_ok | apply ok_ite | apply good_stay | apply good_onDev | apply good_onUnit | apply good_onBlock | apply good_onRegion | apply good_onChip | apply good_ite
      | split
      | dsimp only

theorem execRepourDone_ok {s : State} (h_s : Ok s.dev) : Good s (execRepourDone s) := by
  unfold execRepourDone
  repeat'
    first
      | with_reducible assumption
      | intro _
      | with_reducible first | apply ok_clr | apply patDone_ok | apply fillBlock_ok | apply tdaTrims_ok | apply patShow_ok | apply opEnd_ok | apply opRefuse_ok | apply opCause_ok | apply ok_ite | apply good_stay | apply good_onDev | apply good_onUnit | apply good_onBlock | apply good_onRegion | apply good_onChip | apply good_ite
      | with_reducible refine opCheck_ok (by assumption) ?_
      | split
      | with_reducible apply ok_mk

end Sys2Proof.Machine
end

