-- ==== Sys2Proof/Laws/KeepFaults.lean ====
section
/-! SUPPORT. The invariant kept by every operation of Machine/Faults.lean. -/

set_option linter.unreachableTactic false
set_option linter.unusedTactic false

namespace Sys2Proof.Machine

theorem runmemFetch_ok {d : Dev} {nn : Fin 16} (h_d : Ok d) : Ok (runmemFetch d nn) := by
  unfold runmemFetch
  extract_lets +onlyGivenNames v0 v1 v2 v3 v4 v5 v6
  try clear_value v0
  have h_v1 : Ok v1 := by
    unfold v1
    repeat'
      first
        | with_reducible assumption
        | intro _
        | with_reducible first | apply ok_flagBit | apply ok_flag | apply ok_clr | apply ok_incSat | apply ok_raise | apply quench_ok | apply chipFail_ok | apply ok_ite
        | (with_reducible refine ok_leg ?_ ?_ <;> first | with_reducible assumption | exact fun hg => leg_same hg rfl rfl rfl rfl | skip)
        | (with_reducible refine ok_legs ?_ ?_ <;> first | with_reducible assumption | exact fun _ hg => leg_same hg rfl rfl rfl rfl | skip)
        | (with_reducible refine ok_onB ?_ ?_ <;> first | with_reducible assumption | exact fun _ h => blk_same h rfl rfl rfl | exact fun _ h => blk_noClr h rfl rfl rfl | exact fun _ h => blk_map h rfl rfl rfl fun _ hg => leg_same hg rfl rfl rfl rfl | skip)
        | exact blk_same (by assumption) rfl rfl rfl
        | split
        | dsimp only
  try clear_value v1
  have h_v2 : Ok v2 := by
    unfold v2
    repeat'
      first
        | with_reducible assumption
        | intro _
        | with_reducible first | apply ok_flagBit | apply ok_flag | apply ok_clr | apply ok_incSat | apply ok_raise | apply quench_ok | apply chipFail_ok | apply ok_ite
        | (with_reducible refine ok_leg ?_ ?_ <;> first | with_reducible assumption | exact fun hg => leg_same hg rfl rfl rfl rfl | skip)
        | (with_reducible refine ok_legs ?_ ?_ <;> first | with_reducible assumption | exact fun _ hg => leg_same hg rfl rfl rfl rfl | skip)
        | (with_reducible refine ok_onB ?_ ?_ <;> first | with_reducible assumption | exact fun _ h => blk_same h rfl rfl rfl | exact fun _ h => blk_noClr h rfl rfl rfl | exact fun _ h => blk_map h rfl rfl rfl fun _ hg => leg_same hg rfl rfl rfl rfl | skip)
        | exact blk_same (by assumption) rfl rfl rfl
        | split
        | dsimp only
  try clear_value v2
  have h_v3 : Ok v3 := by
    unfold v3
    repeat'
      first
        | with_reducible assumption
        | intro _
        | with_reducible first | apply ok_flagBit | apply ok_flag | apply ok_clr | apply ok_incSat | apply ok_raise | apply quench_ok | apply chipFail_ok | apply ok_ite
        | (with_reducible refine ok_leg ?_ ?_ <;> first | with_reducible assumption | exact fun hg => leg_same hg rfl rfl rfl rfl | skip)
        | (with_reducible refine ok_legs ?_ ?_ <;> first | with_reducible assumption | exact fun _ hg => leg_same hg rfl rfl rfl rfl | skip)
        | (with_reducible refine ok_onB ?_ ?_ <;> first | with_reducible assumption | exact fun _ h => blk_same h rfl rfl rfl | exact fun _ h => blk_noClr h rfl rfl rfl | exact fun _ h => blk_map h rfl rfl rfl fun _ hg => leg_same hg rfl rfl rfl rfl | skip)
        | exact blk_same (by assumption) rfl rfl rfl
        | split
        | dsimp only
  try clear_value v3
  try clear_value v4
  have h_v5 : Ok v5 := by
    unfold v5
    repeat'
      first
        | with_reducible assumption
        | intro _
        | with_reducible first | apply ok_flagBit | apply ok_flag | apply ok_clr | apply ok_incSat | apply ok_raise | apply quench_ok | apply chipFail_ok | apply ok_ite
        | (with_reducible refine ok_leg ?_ ?_ <;> first | with_reducible assumption | exact fun hg => leg_same hg rfl rfl rfl rfl | skip)
        | (with_reducible refine ok_legs ?_ ?_ <;> first | with_reducible assumption | exact fun _ hg => leg_same hg rfl rfl rfl rfl | skip)
        | (with_reducible refine ok_onB ?_ ?_ <;> first | with_reducible assumption | exact fun _ h => blk_same h rfl rfl rfl | exact fun _ h => blk_noClr h rfl rfl rfl | exact fun _ h => blk_map h rfl rfl rfl fun _ hg => leg_same hg rfl rfl rfl rfl | skip)
        | exact blk_same (by assumption) rfl rfl rfl
        | split
        | dsimp only
  try clear_value v5
  have h_v6 : Ok v6 := by
    unfold v6
    repeat'
      first
        | with_reducible assumption
        | intro _
        | with_reducible first | apply ok_flagBit | apply ok_flag | apply ok_clr | apply ok_incSat | apply ok_raise | apply quench_ok | apply chipFail_ok | apply ok_ite
        | (with_reducible refine ok_leg ?_ ?_ <;> first | with_reducible assumption | exact fun hg => leg_same hg rfl rfl rfl rfl | skip)
        | (with_reducible refine ok_legs ?_ ?_ <;> first | with_reducible assumption | exact fun _ hg => leg_same hg rfl rfl rfl rfl | skip)
        | (with_reducible refine ok_onB ?_ ?_ <;> first | with_reducible assumption | exact fun _ h => blk_same h rfl rfl rfl | exact fun _ h => blk_noClr h rfl rfl rfl | exact fun _ h => blk_map h rfl rfl rfl fun _ hg => leg_same hg rfl rfl rfl rfl | skip)
        | exact blk_same (by assumption) rfl rfl rfl
        | split
        | dsimp only
  try clear_value v6
  repeat'
    first
      | with_reducible assumption
      | intro _
      | with_reducible first | apply ok_flagBit | apply ok_flag | apply ok_clr | apply ok_incSat | apply ok_raise | apply quench_ok | apply chipFail_ok | apply ok_ite
      | (with_reducible refine ok_leg ?_ ?_ <;> first | with_reducible assumption | exact fun hg => leg_same hg rfl rfl rfl rfl | skip)
      | (with_reducible refine ok_legs ?_ ?_ <;> first | with_reducible assumption | exact fun _ hg => leg_same hg rfl rfl rfl rfl | skip)
      | (with_reducible refine ok_onB ?_ ?_ <;> first | with_reducible assumption | exact fun _ h => blk_same h rfl rfl rfl | exact fun _ h => blk_noClr h rfl rfl rfl | exact fun _ h => blk_map h rfl rfl rfl fun _ hg => leg_same hg rfl rfl rfl rfl | skip)
      | exact blk_same (by assumption) rfl rfl rfl
      | split
      | dsimp only

theorem execRunmemError_ok {nn : Fin 16} {e : RmErr} {s : State} (h_s : Ok s.dev) : Good s (execRunmemError nn e s) := by
  unfold execRunmemError
  repeat'
    first
      | with_reducible assumption
      | intro _
      | with_reducible first | apply ok_incSat | apply runmemFetch_ok | apply ok_ite | apply good_stay | apply good_onDev | apply good_onUnit | apply good_onBlock | apply good_onRegion | apply good_onChip | apply good_ite
      | split
      | dsimp only

theorem execRunmemRewriteDone_ok {nn : Fin 16} {s : State} (h_s : Ok s.dev) : Good s (execRunmemRewriteDone nn s) := by
  unfold execRunmemRewriteDone
  repeat'
    first
      | with_reducible assumption
      | intro _
      | with_reducible first | apply ok_ite | apply good_stay | apply good_onDev | apply good_onUnit | apply good_onBlock | apply good_onRegion | apply good_onChip | apply good_ite
      | (with_reducible refine ok_leg ?_ ?_ <;> first | with_reducible assumption | exact fun hg => leg_same hg rfl rfl rfl rfl | skip)
      | (with_reducible refine ok_legs ?_ ?_ <;> first | with_reducible assumption | exact fun _ hg => leg_same hg rfl rfl rfl rfl | skip)
      | (with_reducible refine ok_onB ?_ ?_ <;> first | with_reducible assumption | exact fun _ h => blk_same h rfl rfl rfl | exact fun _ h => blk_noClr h rfl rfl rfl | exact fun _ h => blk_map h rfl rfl rfl fun _ hg => leg_same hg rfl rfl rfl rfl | skip)
      | exact blk_same (by assumption) rfl rfl rfl
      | split
      | dsimp only

theorem execRunmemSpanExpire_ok {nn : Fin 16} {s : State} (h_s : Ok s.dev) : Good s (execRunmemSpanExpire nn s) := by
  unfold execRunmemSpanExpire
  repeat'
    first
      | with_reducible assumption
      | intro _
      | with_reducible first | apply ok_ite | apply good_stay | apply good_onDev | apply good_onUnit | apply good_onBlock | apply good_onRegion | apply good_onChip | apply good_ite
      | (with_reducible refine ok_leg ?_ ?_ <;> first | with_reducible assumption | exact fun hg => leg_same hg rfl rfl rfl rfl | skip)
      | (with_reducible refine ok_legs ?_ ?_ <;> first | with_reducible assumption | exact fun _ hg => leg_same hg rfl rfl rfl rfl | skip)
      | (with_reducible refine ok_onB ?_ ?_ <;> first | with_reducible assumption | exact fun _ h => blk_same h rfl rfl rfl | exact fun _ h => blk_noClr h rfl rfl rfl | exact fun _ h => blk_map h rfl rfl rfl fun _ hg => leg_same hg rfl rfl rfl rfl | skip)
      | exact blk_same (by assumption) rfl rfl rfl
      | split
      | dsimp only

theorem opStewards_ok {d : Dev} (h_d : Ok d) : Ok (opStewards d) := by
  unfold opStewards
  repeat'
    first
      | with_reducible assumption
      | intro _
      | with_reducible first | apply opRefuse_ok | apply opCause_ok | apply ok_ite
      | split
      | dsimp only

theorem stewardsStop_ok {d : Dev} (h_d : Ok d) : Ok (stewardsStop d) := by
  unfold stewardsStop
  extract_lets +onlyGivenNames v0 v1 v2
  have h_v0 : Ok v0 := by
    unfold v0
    repeat'
      first
        | with_reducible assumption
        | intro _
        | with_reducible first | apply ok_flag | apply ok_clr | apply ok_incSat | apply chanEndAll_ok | apply gatherStewards_ok | apply opStewards_ok | apply ok_ite
        | split
        | with_reducible apply ok_mk
  try clear_value v0
  have h_v1 : Ok v1 := by
    unfold v1
    repeat'
      first
        | with_reducible assumption
        | intro _
        | with_reducible first | apply ok_flag | apply ok_clr | apply ok_incSat | apply chanEndAll_ok | apply gatherStewards_ok | apply opStewards_ok | apply ok_ite
        | split
        | with_reducible apply ok_mk
  try clear_value v1
  have h_v2 : Ok v2 := by
    unfold v2
    repeat'
      first
        | with_reducible assumption
        | intro _
        | with_reducible first | apply ok_flag | apply ok_clr | apply ok_incSat | apply chanEndAll_ok | apply gatherStewards_ok | apply opStewards_ok | apply ok_ite
        | split
        | with_reducible apply ok_mk
  try clear_value v2
  repeat'
    first
      | with_reducible assumption
      | intro _
      | with_reducible first | apply ok_flag | apply ok_clr | apply ok_incSat | apply chanEndAll_ok | apply gatherStewards_ok | apply opStewards_ok | apply ok_ite
      | split
      | with_reducible apply ok_mk

theorem stewardRestart_ok {d : Dev} {info : Nat} (h_d : Ok d) : Ok (stewardRestart d info) := by
  unfold stewardRestart
  extract_lets +onlyGivenNames v0 v1
  have h_v0 : Ok v0 := by
    unfold v0
    repeat'
      first
        | with_reducible assumption
        | intro _
        | with_reducible first | apply ok_flag | apply ok_inc | apply ok_incSat | apply ok_raise | apply stewardsStop_ok | apply ok_ite
        | split
        | dsimp only
  try clear_value v0
  have h_v1 : Ok v1 := by
    unfold v1
    repeat'
      first
        | with_reducible assumption
        | intro _
        | with_reducible first | apply ok_flag | apply ok_inc | apply ok_incSat | apply ok_raise | apply stewardsStop_ok | apply ok_ite
        | split
        | dsimp only
  try clear_value v1
  repeat'
    first
      | with_reducible assumption
      | intro _
      | with_reducible first | apply ok_flag | apply ok_inc | apply ok_incSat | apply ok_raise | apply stewardsStop_ok | apply ok_ite
      | split
      | dsimp only

theorem execStewardHeartbeatMiss_ok {st : Fin 2} {s : State} (h_s : Ok s.dev) : Good s (execStewardHeartbeatMiss st s) := by
  unfold execStewardHeartbeatMiss
  repeat'
    first
      | with_reducible assumption
      | intro _
      | with_reducible first | apply ok_flag | apply stewardRestart_ok | apply ok_ite | apply good_stay | apply good_onDev | apply good_onUnit | apply good_onBlock | apply good_onRegion | apply good_onChip | apply good_ite
      | split
      | dsimp only

theorem execStewardCmdTimeout_ok {s : State} (h_s : Ok s.dev) : Good s (execStewardCmdTimeout s) := by
  unfold execStewardCmdTimeout
  repeat'
    first
      | with_reducible assumption
      | intro _
      | with_reducible first | apply ok_flag | apply stewardRestart_ok | apply ok_ite | apply good_stay | apply good_onDev | apply good_onUnit | apply good_onBlock | apply good_onRegion | apply good_onChip | apply good_ite
      | split
      | dsimp only

theorem execStewardWindowExpire_ok {s : State} (h_s : Ok s.dev) : Good s (execStewardWindowExpire s) := by
  unfold execStewardWindowExpire
  repeat'
    first
      | with_reducible assumption
      | intro _
      | with_reducible first | apply ok_clr | apply ok_ite | apply good_stay | apply good_onDev | apply good_onUnit | apply good_onBlock | apply good_onRegion | apply good_onChip | apply good_ite
      | split
      | dsimp only

theorem execChipFailure_ok {cause : Fin 8} {n : Fin 4} {s : State} (h_s : Ok s.dev) : Good s (execChipFailure cause n s) := by
  unfold execChipFailure
  repeat'
    first
      | with_reducible assumption
      | intro _
      | with_reducible first | apply chipFail_ok | apply ok_ite | apply good_stay | apply good_onDev | apply good_onUnit | apply good_onBlock | apply good_onRegion | apply good_onChip | apply good_ite
      | split
      | dsimp only

theorem execFailWindowExpire_ok {s : State} (h_s : Ok s.dev) : Good s (execFailWindowExpire s) := by
  unfold execFailWindowExpire
  repeat'
    first
      | with_reducible assumption
      | intro _
      | with_reducible first | apply ok_ite | apply good_stay | apply good_onDev | apply good_onUnit | apply good_onBlock | apply good_onRegion | apply good_onChip | apply good_ite
      | split
      | with_reducible apply ok_mk

end Sys2Proof.Machine
end

