-- ==== Sys2Proof/Laws/KeepUpdate.lean ====
section
/-! SUPPORT. The invariant kept by every operation of Machine/Update.lean. -/

set_option linter.unreachableTactic false
set_option linter.unusedTactic false

namespace Sys2Proof.Machine

theorem updEvent_ok {d : Dev} {info : Nat} (h_d : Ok d) : Ok (updEvent d info) := by
  unfold updEvent
  repeat'
    first
      | with_reducible assumption
      | intro _
      | with_reducible first | apply ok_raise | apply ok_ite
      | split
      | dsimp only

theorem updCode_ok {d : Dev} {code : Nat} (h_d : Ok d) : Ok (updCode d code) := by
  unfold updCode
  repeat'
    first
      | with_reducible assumption
      | intro _
      | with_reducible first | apply ok_put | apply ok_ite
      | split
      | dsimp only

theorem updRefuse_ok {d : Dev} {code : Nat} (h_d : Ok d) : Ok (updRefuse d code) := by
  unfold updRefuse
  repeat'
    first
      | with_reducible assumption
      | intro _
      | with_reducible first | apply ok_flag | apply updCode_ok | apply ok_ite
      | split
      | dsimp only

theorem billetRefuse_ok {d : Dev} {code : Nat} (h_d : Ok d) : Ok (billetRefuse d code) := by
  unfold billetRefuse
  repeat'
    first
      | with_reducible assumption
      | intro _
      | with_reducible first | apply updEvent_ok | apply updRefuse_ok | apply ok_ite
      | split
      | dsimp only

theorem onSess_ok {d : Dev} {f : Sess → Sess} (h_d : Ok d) : Ok (onSess d f) := by
  unfold onSess
  repeat'
    first
      | with_reducible assumption
      | intro _
      | with_reducible first | apply ok_ite
      | split
      | with_reducible apply ok_mk

theorem imageRefuse_ok {d : Dev} {x : Nat × Nat} (h_d : Ok d) : Ok (imageRefuse d x) := by
  unfold imageRefuse
  repeat'
    first
      | with_reducible assumption
      | intro _
      | with_reducible first | apply bootCause_ok | apply ok_ite
      | split
      | dsimp only

theorem updForward_ok {d : Dev} {m : UpdMsg} (h_d : Ok d) : Ok (updForward d m) := by
  unfold updForward
  repeat'
    first
      | with_reducible assumption
      | intro _
      | with_reducible first | apply ownerSend_ok | apply ok_ite
      | split
      | dsimp only

theorem billetStore_ok {d : Dev} {b : Billet} (h_d : Ok d) : Ok (billetStore d b) := by
  unfold billetStore
  extract_lets +onlyGivenNames v0
  have h_v0 : Ok v0 := by
    unfold v0
    repeat'
      first
        | with_reducible assumption
        | intro _
        | with_reducible first | apply updEvent_ok | apply onSess_ok | apply ok_ite
        | split
        | dsimp only
  try clear_value v0
  repeat'
    first
      | with_reducible assumption
      | intro _
      | with_reducible first | apply updEvent_ok | apply onSess_ok | apply ok_ite
      | split
      | dsimp only

theorem takeBillet_ok {d : Dev} {b : Billet} (h_d : Ok d) : Ok (takeBillet d b) := by
  unfold takeBillet
  extract_lets +onlyGivenNames v0
  try clear_value v0
  repeat'
    first
      | with_reducible assumption
      | intro _
      | with_reducible first | apply ok_incSat | apply updEvent_ok | apply billetRefuse_ok | apply imageRefuse_ok | apply updForward_ok | apply billetStore_ok | apply ok_ite
      | split
      | with_reducible apply ok_mk

theorem billetIn_ok {d : Dev} {b : Billet} (h_d : Ok d) : Ok (billetIn d b) := by
  unfold billetIn
  repeat'
    first
      | with_reducible assumption
      | intro _
      | with_reducible first | apply ok_incSat | apply takeBillet_ok | apply ok_ite
      | split
      | dsimp only

theorem submitCopy_ok {d : Dev} (h_d : Ok d) : Ok (submitCopy d) := by
  unfold submitCopy
  split
  all_goals
    repeat'
      first
        | with_reducible assumption
        | intro _
        | with_reducible first | apply ok_clr | apply ok_ite
        | with_reducible refine ok_snd (by assumption) ?_
        | split
        | with_reducible apply ok_mk

theorem submitRefuse_ok {d : Dev} (h_d : Ok d) : Ok (submitRefuse d) := by
  unfold submitRefuse
  repeat'
    first
      | with_reducible assumption
      | intro _
      | with_reducible first | apply ok_flag | apply ok_clr | apply ok_incSat | apply ok_ite
      | split
      | with_reducible apply ok_mk

theorem submitWrite_ok {d : Dev} {w : Word} (h_d : Ok d) : Ok (submitWrite d w) := by
  unfold submitWrite
  extract_lets +onlyGivenNames v0
  have h_v0 : Ok v0 := by
    unfold v0
    repeat'
      first
        | with_reducible assumption
        | intro _
        | with_reducible first | apply ok_put | apply ok_flag | apply ok_incSat | apply updRefuse_ok | apply submitCopy_ok | apply submitRefuse_ok | apply ok_ite
        | split
        | with_reducible apply ok_mk
  try clear_value v0
  repeat'
    first
      | with_reducible assumption
      | intro _
      | with_reducible first | apply ok_put | apply ok_flag | apply ok_incSat | apply updRefuse_ok | apply submitCopy_ok | apply submitRefuse_ok | apply ok_ite
      | split
      | with_reducible apply ok_mk

theorem submitHost_ok {s : State} {h : Master} {w : Word} (h_s : Ok s.dev) : Good s (submitHost s h w) := by
  unfold submitHost
  repeat'
    first
      | with_reducible assumption
      | intro _
      | with_reducible first | apply hostW_ok | apply submitWrite_ok | apply ok_ite | apply good_stay | apply good_onDev | apply good_onUnit | apply good_onBlock | apply good_onRegion | apply good_onChip | apply good_ite
      | split
      | dsimp only

theorem execSubmit_ok {h : Master} {w : Word} {s : State} (h_s : Ok s.dev) : Good s (execSubmit h w s) := by
  unfold execSubmit
  repeat'
    first
      | with_reducible assumption
      | intro _
      | with_reducible first | apply submitHost_ok | apply ok_ite | apply good_stay | apply good_onDev | apply good_onUnit | apply good_onBlock | apply good_onRegion | apply good_onChip | apply good_ite
      | split
      | dsimp only

theorem execSubmitTimeout_ok {s : State} (h_s : Ok s.dev) : Good s (execSubmitTimeout s) := by
  unfold execSubmitTimeout
  repeat'
    first
      | with_reducible assumption
      | intro _
      | with_reducible first | apply submitRefuse_ok | apply ok_ite | apply good_stay | apply good_onDev | apply good_onUnit | apply good_onBlock | apply good_onRegion | apply good_onChip | apply good_ite
      | split
      | dsimp only

theorem execBilletTaken_ok {i : Fin 16} {s : State} (h_s : Ok s.dev) : Good s (execBilletTaken i s) := by
  unfold execBilletTaken
  repeat'
    first
      | with_reducible assumption
      | intro _
      | with_reducible first | apply billetIn_ok | apply submitCopy_ok | apply ok_ite | apply good_stay | apply good_onDev | apply good_onUnit | apply good_onBlock | apply good_onRegion | apply good_onChip | apply good_ite
      | split
      | with_reducible apply ok_mk

theorem execBusBillet_ok {p : Fin 4} {f : Frame} {sof : Nat} {s : State} (h_s : Ok s.dev) : Good s (execBusBillet p f sof s) := by
  unfold execBusBillet
  repeat'
    first
      | with_reducible assumption
      | intro _
      | with_reducible first | apply ok_inc | apply confine_ok | apply portPend_ok | apply ardFrame_ok | apply onRegionF_ok | apply recGood_ok | apply sendFlag_ok | apply billetIn_ok | apply ok_ite | apply good_stay | apply good_onDev | apply good_onUnit | apply good_onBlock | apply good_onRegion | apply good_onChip | apply good_ite
      | split
      | dsimp only

theorem buildBank_ok {d : Dev} {es : List ManEntry} (h_d : Ok d) : Ok (buildBank d es) := by
  unfold buildBank
  extract_lets +onlyGivenNames v0
  try clear_value v0
  repeat'
    first
      | with_reducible assumption
      | intro _
      | with_reducible first | apply onBank_ok | apply ok_ite
      | split
      | dsimp only

theorem execBuildDone_ok {s : State} (h_s : Ok s.dev) : Good s (execBuildDone s) := by
  unfold execBuildDone
  repeat'
    first
      | with_reducible assumption
      | intro _
      | with_reducible first | apply updEvent_ok | apply updCode_ok | apply onSess_ok | apply imageRefuse_ok | apply buildBank_ok | apply ok_ite | apply good_stay | apply good_onDev | apply good_onUnit | apply good_onBlock | apply good_onRegion | apply good_onChip | apply good_ite
      | split
      | dsimp only

theorem setSfw_ok {d : Dev} {f : SfwImage} (h_d : Ok d) : Ok (setSfw d f) := by
  unfold setSfw
  repeat'
    first
      | with_reducible assumption
      | intro _
      | with_reducible first | apply ok_put | apply ok_ite
      | split
      | with_reducible apply ok_mk

theorem calMigrate_ok {d : Dev} (h_d : Ok d) : Ok (calMigrate d).2 := by
  unfold calMigrate
  extract_lets bk
  split
  · extract_lets c
    split
    · exact h_d
    · split
      · exact h_d
      · extract_lets x' d1
        have h1 : Ok d1 := onBank_ok h_d
        exact updEvent_ok (ok_put (ok_same h1 rfl rfl rfl rfl rfl rfl))
  · exact h_d

theorem recSwitch_ok {d : Dev} (h_d : Ok d) : Ok (recSwitch d).2 := by
  unfold recSwitch
  repeat'
    first
      | with_reducible assumption
      | intro _
      | with_reducible first | apply recPut_ok | apply ok_ite
      | with_reducible refine ok_snd (by assumption) ?_
      | split
      | dsimp only

theorem actEnd_ok {d : Dev} (h_d : Ok d) : Ok (actEnd d) := by
  unfold actEnd
  repeat'
    first
      | with_reducible assumption
      | intro _
      | with_reducible first | apply ok_clr | apply ok_ite
      | split
      | with_reducible apply ok_mk

theorem actClose_ok {d : Dev} {a : Activ} (h_d : Ok d) : Ok (actClose d a) := by
  unfold actClose
  extract_lets +onlyGivenNames v0 v1 v2
  have h_v0 : Ok v0 := by
    unfold v0
    repeat'
      first
        | with_reducible assumption
        | intro _
        | with_reducible first | apply ok_flag | apply ok_clr | apply ok_onTw | apply recWrite_ok | apply unpair_ok | apply updEvent_ok | apply updCode_ok | apply onSess_ok | apply actEnd_ok | apply ok_ite
        | split
        | with_reducible apply ok_mk
  try clear_value v0
  have h_v1 : Ok v1 := by
    unfold v1
    repeat'
      first
        | with_reducible assumption
        | intro _
        | with_reducible first | apply ok_flag | apply ok_clr | apply ok_onTw | apply recWrite_ok | apply unpair_ok | apply updEvent_ok | apply updCode_ok | apply onSess_ok | apply actEnd_ok | apply ok_ite
        | split
        | with_reducible apply ok_mk
  try clear_value v1
  have h_v2 : Ok v2 := by
    unfold v2
    repeat'
      first
        | with_reducible assumption
        | intro _
        | with_reducible first | apply ok_flag | apply ok_clr | apply ok_onTw | apply recWrite_ok | apply unpair_ok | apply updEvent_ok | apply updCode_ok | apply onSess_ok | apply actEnd_ok | apply ok_ite
        | split
        | with_reducible apply ok_mk
  try clear_value v2
  repeat'
    first
      | with_reducible assumption
      | intro _
      | with_reducible first | apply ok_flag | apply ok_clr | apply ok_onTw | apply recWrite_ok | apply unpair_ok | apply updEvent_ok | apply updCode_ok | apply onSess_ok | apply actEnd_ok | apply ok_ite
      | split
      | with_reducible apply ok_mk

theorem actFinish_ok {d : Dev} {a : Activ} (h_d : Ok d) : Ok (actFinish d a).2 := by
  unfold actFinish
  split
  all_goals
    repeat'
      first
        | with_reducible assumption
        | intro _
        | with_reducible first | apply calMigrate_ok | apply actClose_ok | apply ok_ite
        | with_reducible refine ok_snd (by assumption) ?_
        | split
        | dsimp only

theorem actLoad_ok {d : Dev} {a : Activ} (h_d : Ok d) : Ok (actLoad d a).2 := by
  unfold actLoad
  split
  all_goals
    repeat'
      first
        | with_reducible assumption
        | intro _
        | with_reducible first | apply ok_flag | apply calApply_ok | apply calOff_ok | apply calTake_ok | apply actFinish_ok | apply ok_ite | apply ok_forAll
        | with_reducible refine ok_snd (by assumption) ?_
        | split
        | with_reducible apply ok_mk

theorem actRun_ok {d : Dev} {a : Activ} (h_d : Ok d) : Ok (actRun d a).2 := by
  unfold actRun
  repeat'
    first
      | with_reducible assumption
      | intro _
      | with_reducible first | apply ok_flag | apply ok_incSat | apply stewardsStop_ok | apply actLoad_ok | apply ok_ite
      | with_reducible refine ok_snd (by assumption) ?_
      | split
      | with_reducible apply ok_mk

theorem actDead_ok {d : Dev} {code : Nat} (h_d : Ok d) : Ok (actDead d code) := by
  unfold actDead
  repeat'
    first
      | with_reducible assumption
      | intro _
      | with_reducible first | apply chipHeld_ok | apply updCode_ok | apply onSess_ok | apply actEnd_ok | apply ok_ite
      | split
      | dsimp only

theorem actSettle_ok {a : Activ} {x : Nat × Dev} (h_x : Ok x.2) : Ok (actSettle a x) := by
  unfold actSettle
  refine ok_ite h_x (ok_ite (actDead_ok h_x) ?_)
  split
  · rename_i e; exact actDead_ok (ok_snd e (recSwitch_ok h_x))
  · rename_i e
    have h := ok_snd e (recSwitch_ok h_x)
    split
    · rename_i e2; exact ok_snd e2 (actRun_ok h)
    · rename_i e2; exact actDead_ok (ok_snd e2 (actRun_ok h))

theorem actStart_ok {d : Dev} {a : Activ} (h_d : Ok d) : Ok (actStart d a) := by
  unfold actStart
  split
  · rename_i e; exact actSettle_ok (actRun_ok (ok_snd e (recSwitch_ok h_d)))
  · rename_i e
    have h := ok_snd e (recSwitch_ok h_d)
    extract_lets d1
    have h1 : Ok d1 := ok_onTw (updCode_ok (onSess_ok (actEnd_ok h)))
    exact updEvent_ok h1

theorem execPatternLoadDone_ok {readBackOk : Bool} {s : State} (h_s : Ok s.dev) : Good s (execPatternLoadDone readBackOk s) := by
  unfold execPatternLoadDone
  refine good_onChip h_s fun d hd => ?_
  split
  · have h := fun op => loadStep_ok (op := op) (readOk := readBackOk) hd
    split
    · rename_i e
      have h' := ok_snd e (h _)
      split
      · refine ok_ite h' (actSettle_ok ?_)
        split
        · exact actFinish_ok h'
        · exact h'
      · exact h'
  · exact hd

theorem restartSfw_ok {d : Dev} (h_d : Ok d) : Ok (restartSfw d).2 := by
  unfold restartSfw
  extract_lets code bk take d'
  have ht : ∀ b, Ok (take b) := by
    intro b
    unfold take
    split
    · exact setSfw_ok h_d
    · exact h_d
  have h' : Ok d' := ok_ite (ht _) h_d
  clear_value d'
  split
  · exact ht _
  · exact bootCause_ok h'

theorem srcServe_ok {d : Dev} (h_d : Ok d) : Ok (srcServe d) := by
  unfold srcServe
  split
  all_goals
    repeat'
      first
        | with_reducible assumption
        | intro _
        | with_reducible first | apply ok_setReg | apply ok_ite | apply ok_foldl | apply ok_foldl_fst | apply ok_foldl_snd
        | split
        | dsimp only

theorem restartEnd_ok {d : Dev} {code : Nat} (h_d : Ok d) : Ok (restartEnd d code) := by
  unfold restartEnd
  split
  · exact ok_ite (actSettle_ok h_d) (ok_ite (actSettle_ok h_d) (actSettle_ok (actLoad_ok h_d)))
  · split
    · exact h_d
    · extract_lets d1
      have h1 : Ok d1 := chipHeld_ok (bootCause_ok h_d)
      exact ok_ite (noPattern_ok h1) h1

theorem execStewardRestartDone_ok {s : State} (h_s : Ok s.dev) : Good s (execStewardRestartDone s) := by
  unfold execStewardRestartDone
  repeat'
    first
      | with_reducible assumption
      | intro _
      | with_reducible first | apply restartSfw_ok | apply srcServe_ok | apply restartEnd_ok | apply ok_ite | apply good_stay | apply good_onDev | apply good_onUnit | apply good_onBlock | apply good_onRegion | apply good_onChip | apply good_ite
      | with_reducible refine ok_snd (by assumption) ?_
      | split
      | with_reducible apply ok_mk

theorem depart_ok {d : Dev} {c : Coord} (h_d : Ok d) : Ok (depart d c) := by
  unfold depart
  repeat'
    first
      | with_reducible assumption
      | intro _
      | with_reducible first | apply ok_clr | apply ok_onTw | apply twSend_ok | apply roleHeld_ok | apply unpair_ok | apply ok_ite
      | split
      | dsimp only

theorem activateDue_ok {d : Dev} (h_d : Ok d) : Ok (activateDue d) := by
  unfold activateDue
  extract_lets +onlyGivenNames v0 v1
  try clear_value v0
  try clear_value v1
  repeat'
    first
      | with_reducible assumption
      | intro _
      | with_reducible first | apply ok_onTw | apply updEvent_ok | apply updRefuse_ok | apply onSess_ok | apply actStart_ok | apply depart_ok | apply ok_ite
      | split
      | dsimp only

theorem execActivationDue_ok {s : State} (h_s : Ok s.dev) : Good s (execActivationDue s) := by
  unfold execActivationDue
  repeat'
    first
      | with_reducible assumption
      | intro _
      | with_reducible first | apply activateDue_ok | apply ok_ite | apply good_stay | apply good_onDev | apply good_onUnit | apply good_onBlock | apply good_onRegion | apply good_onChip | apply good_ite
      | split
      | dsimp only

theorem buildAborted_ok {d : Dev} (h_d : Ok d) : Ok (buildAborted d) := by
  unfold buildAborted
  repeat'
    first
      | with_reducible assumption
      | intro _
      | with_reducible first | apply onBank_ok | apply ok_free
      | with_reducible refine ok_snd (by assumption) ?_
      | split
      | dsimp only

theorem updDo_ok {d : Dev} {cmd : Nat} {dom : Fin 8} {epoch : Nat} (h_d : Ok d) : Ok (updDo d cmd dom epoch).2 := by
  have hs : ∀ f, Ok (onSess d f) := fun _ => onSess_ok h_d
  unfold updDo
  extract_lets st busy no
  have h_n : Ok no.2 := h_d
  clear_value no
  split
  · exact h_n
  · split
    · split
      · exact h_n
      · exact ok_mk (buildAborted_ok h_d)
    · split
      · exact h_n
      · split
        · exact h_d
        · exact updEvent_ok (hs _)
    · split
      · exact activateDue_ok h_d
      · exact h_n
    · split
      · exact h_n
      · dsimp only
        exact onBank_ok (recWrite_ok h_d)
    · split
      · exact h_n
      · split
        · exact h_d
        · split
          · exact h_d
          · exact actStart_ok (hs _)

theorem updShown_ok {d : Dev} {cmd : Nat} (h_d : Ok d) : Ok (updShown d cmd) := by
  unfold updShown
  repeat'
    first
      | with_reducible assumption
      | intro _
      | with_reducible first | apply ok_flag | apply ok_ite
      | split
      | dsimp only

theorem updNo_ok {d : Dev} {cmd : Nat} {code : Nat} (h_d : Ok d) : Ok (updNo d cmd code) := by
  unfold updNo
  extract_lets +onlyGivenNames v0
  have h_v0 : Ok v0 := by
    unfold v0
    repeat'
      first
        | with_reducible assumption
        | intro _
        | with_reducible first | apply updEvent_ok | apply updRefuse_ok | apply ok_ite
        | split
        | dsimp only
  try clear_value v0
  repeat'
    first
      | with_reducible assumption
      | intro _
      | with_reducible first | apply updEvent_ok | apply updRefuse_ok | apply ok_ite
      | split
      | dsimp only

theorem updWrite_ok {d : Dev} {c : Nat} (h_d : Ok d) : Ok (updWrite d c) := by
  unfold updWrite
  extract_lets +onlyGivenNames v0 v1
  try clear_value v0
  try clear_value v1
  repeat'
    first
      | with_reducible assumption
      | intro _
      | with_reducible first | apply updRefuse_ok | apply updForward_ok | apply updDo_ok | apply updShown_ok | apply updNo_ok | apply ok_ite
      | with_reducible refine ok_snd (by assumption) ?_
      | split
      | dsimp only

theorem updHost_ok {s : State} {h : Master} {w : Word} (h_s : Ok s.dev) : Good s (updHost s h w) := by
  unfold updHost
  repeat'
    first
      | with_reducible assumption
      | intro _
      | with_reducible first | apply hostW_ok | apply updWrite_ok | apply ok_ite | apply good_stay | apply good_onDev | apply good_onUnit | apply good_onBlock | apply good_onRegion | apply good_onChip | apply good_ite
      | split
      | dsimp only

theorem execUpdAbort_ok {h : Master} {w : Word} {s : State} (h_s : Ok s.dev) : Good s (execUpdAbort h w s) := by
  unfold execUpdAbort
  repeat'
    first
      | with_reducible assumption
      | intro _
      | with_reducible first | apply updHost_ok | apply ok_ite | apply good_stay | apply good_onDev | apply good_onUnit | apply good_onBlock | apply good_onRegion | apply good_onChip | apply good_ite
      | split
      | dsimp only

theorem execUpdCommit_ok {h : Master} {w : Word} {s : State} (h_s : Ok s.dev) : Good s (execUpdCommit h w s) := by
  unfold execUpdCommit
  repeat'
    first
      | with_reducible assumption
      | intro _
      | with_reducible first | apply updHost_ok | apply ok_ite | apply good_stay | apply good_onDev | apply good_onUnit | apply good_onBlock | apply good_onRegion | apply good_onChip | apply good_ite
      | split
      | dsimp only

theorem execActnow_ok {h : Master} {w : Word} {s : State} (h_s : Ok s.dev) : Good s (execActnow h w s) := by
  unfold execActnow
  repeat'
    first
      | with_reducible assumption
      | intro _
      | with_reducible first | apply updHost_ok | apply ok_ite | apply good_stay | apply good_onDev | apply good_onUnit | apply good_onBlock | apply good_onRegion | apply good_onChip | apply good_ite
      | split
      | dsimp only

theorem execConfirm_ok {h : Master} {w : Word} {s : State} (h_s : Ok s.dev) : Good s (execConfirm h w s) := by
  unfold execConfirm
  repeat'
    first
      | with_reducible assumption
      | intro _
      | with_reducible first | apply updHost_ok | apply ok_ite | apply good_stay | apply good_onDev | apply good_onUnit | apply good_onBlock | apply good_onRegion | apply good_onChip | apply good_ite
      | split
      | dsimp only

theorem execRevert_ok {h : Master} {w : Word} {s : State} (h_s : Ok s.dev) : Good s (execRevert h w s) := by
  unfold execRevert
  repeat'
    first
      | with_reducible assumption
      | intro _
      | with_reducible first | apply updHost_ok | apply ok_ite | apply good_stay | apply good_onDev | apply good_onUnit | apply good_onBlock | apply good_onRegion | apply good_onChip | apply good_ite
      | split
      | dsimp only

theorem partnerDeparts_ok {d : Dev} (h_d : Ok d) : Ok (partnerDeparts d) := by
  unfold partnerDeparts
  repeat'
    first
      | with_reducible assumption
      | intro _
      | with_reducible first | apply ok_clr | apply ok_onTw | apply setRole_ok | apply unpair_ok | apply onSess_ok | apply ok_ite
      | split
      | dsimp only

theorem execUpdReceived_ok {u : UpdMsg} {s : State} (h_s : Ok s.dev) : Good s (execUpdReceived u s) := by
  unfold execUpdReceived
  repeat'
    first
      | with_reducible assumption
      | intro _
      | with_reducible first | apply takeBillet_ok | apply depart_ok | apply updDo_ok | apply updShown_ok | apply updNo_ok | apply partnerDeparts_ok | apply ok_ite | apply good_stay | apply good_onDev | apply good_onUnit | apply good_onBlock | apply good_onRegion | apply good_onChip | apply good_ite
      | with_reducible refine ok_snd (by assumption) ?_
      | split
      | dsimp only

theorem verifyFail_ok {d : Dev} (h_d : Ok d) : Ok (verifyFail d) := by
  unfold verifyFail
  repeat'
    first
      | with_reducible assumption
      | intro _
      | with_reducible first | apply ok_onTw | apply updCode_ok | apply onSess_ok | apply actStart_ok | apply depart_ok | apply ok_ite
      | split
      | dsimp only

theorem execTwinVerifyTimeout_ok {s : State} (h_s : Ok s.dev) : Good s (execTwinVerifyTimeout s) := by
  unfold execTwinVerifyTimeout
  repeat'
    first
      | with_reducible assumption
      | intro _
      | with_reducible first | apply verifyFail_ok | apply ok_ite | apply good_stay | apply good_onDev | apply good_onUnit | apply good_onBlock | apply good_onRegion | apply good_onChip | apply good_ite
      | split
      | dsimp only

end Sys2Proof.Machine
end

