-- ==== Sys2Proof/Laws/KeepLadle.lean ====
section
/-! SUPPORT. The invariant kept by every operation of Machine/Ladle.lean. -/

set_option linter.unreachableTactic false
set_option linter.unusedTactic false

namespace Sys2Proof.Machine

theorem queuePop_ok {d : Dev} {x : List Word} {p : Pkt} (h_d : Ok d) : Ok (queuePop d x p).2 := by
  unfold queuePop
  extract_lets +onlyGivenNames v0 v1
  try clear_value v0
  try clear_value v1
  repeat'
    first
      | with_reducible assumption
      | intro _
      | with_reducible first | apply onQ_ok | apply freeCells_ok | apply popTake_ok | apply ok_ite
      | with_reducible refine ok_snd (by assumption) ?_
      | split
      | dsimp only

theorem chanNext_ok {d : Dev} {c : Fin 8} {x : List Word} (h_d : Ok d) : Ok (chanNext d c x).2 := by
  unfold chanNext
  extract_lets +onlyGivenNames v0 v1
  try clear_value v0
  try clear_value v1
  repeat'
    first
      | with_reducible assumption
      | intro _
      | with_reducible first | apply ok_put | apply onChan_ok | apply touchQ_ok | apply touchFree_ok | apply queuePop_ok | apply ok_ite
      | with_reducible refine ok_snd (by assumption) ?_
      | split
      | dsimp only

theorem shadowCount_ok {d : Dev} {x : List Word} (h_d : Ok d) : Ok (shadowCount d x) := by
  unfold shadowCount
  repeat'
    first
      | with_reducible assumption
      | intro _
      | with_reducible first | apply ok_incSat | apply ok_ite
      | split
      | dsimp only

theorem chanHead_ok {k : Nat} {d : Dev} {c : Fin 8} (h_d : Ok d) : Ok (chanHead k d c) := by
  induction k generalizing d with
  | zero => exact h_d
  | succ k ih =>
    unfold chanHead
    extract_lets m a x d1
    have h1 : Ok d1 := onChan_ok (ok_put h_d)
    clear_value d1
    split
    · exact onChan_ok (ok_put h_d)
    · split
      · exact chanEnd_ok h_d
      · split
        · exact ih (chanEnd_ok (shadowCount_ok h1))
        · split
          · have h := chanNext_ok (c := c) (x := x) h1
            split
            · rename_i e; exact ih (chanEnd_ok (ok_snd e h))
            · rename_i e; exact ok_snd e h
          · exact h1

theorem chanGo_ok {d : Dev} {c : Fin 8} (h_d : Ok d) : Ok (chanGo d c) := chanHead_ok (ok_put h_d)

theorem stopNext_ok {d : Dev} {c : Fin 8} (h_d : Ok d) : Ok (stopNext d c) := by
  unfold stopNext
  extract_lets +onlyGivenNames v0
  try clear_value v0
  repeat'
    first
      | with_reducible assumption
      | intro _
      | with_reducible first | apply ok_put | apply ok_clr | apply onChan_ok | apply chanEnd_ok | apply ok_ite
      | split
      | dsimp only

theorem chanDone_ok {d : Dev} {c : Fin 8} {status : Nat} (h_d : Ok d) : Ok (chanDone d c status) := by
  unfold chanDone
  repeat'
    first
      | with_reducible assumption
      | intro _
      | with_reducible first | apply chanEnd_ok | apply chanGo_ok | apply stopNext_ok | apply ok_ite
      | split
      | dsimp only

theorem chanIdle_ok {d : Dev} {c : Fin 8} (h_d : Ok d) : Ok (chanIdle d c) := by
  unfold chanIdle
  repeat'
    first
      | with_reducible assumption
      | intro _
      | with_reducible first | apply ok_put | apply chanEnd_ok | apply ok_ite
      | split
      | dsimp only

theorem ladleMirror_ok {d : Dev} {a : Nat} {w : Word} {blk : Option (Fin 16)} {go : Dev → Dev} (h_d : Ok d) (h_go : ∀ x0, Ok x0 → Ok (go x0)) : Ok (ladleMirror d a w blk go) := by
  unfold ladleMirror
  repeat'
    first
      | with_reducible assumption
      | intro _
      | with_reducible first | apply h_go | apply mirSend_ok | apply ok_ite
      | split
      | dsimp only

theorem segStore_ok {d : Dev} {nn : Fin 16} {ws : List Word} (h_d : Ok d) : Ok (segStore d nn ws) := by
  unfold segStore
  extract_lets +onlyGivenNames v0 v1 v2 v3
  try clear_value v0
  try clear_value v1
  have h_v2 : Ok v2 := by
    unfold v2
    repeat'
      first
        | with_reducible assumption
        | intro _
        | with_reducible first | apply segwrDo_ok | apply segmentDo_ok | apply ladleMirror_ok | apply ok_ite | apply ok_forAll
        | split
        | dsimp only
  try clear_value v2
  try clear_value v3
  repeat'
    first
      | with_reducible assumption
      | intro _
      | with_reducible first | apply segwrDo_ok | apply segmentDo_ok | apply ladleMirror_ok | apply ok_ite | apply ok_forAll
      | split
      | dsimp only

theorem pushPkts_ok {k : Nat} {d : Dev} {c : Fin 8} {n : Fin 4} {q : Fin 64} {acc : List Word} (h_d : Ok d) : Ok (pushPkts k d c n q acc).2.2 := by
  induction k generalizing d acc with
  | zero => exact h_d
  | succ k ih =>
    unfold pushPkts
    split
    · exact h_d
    split
    · exact h_d
    · rename_i h t
      extract_lets len nw e was da db d1 good r
      have h1 : Ok d1 := by
        unfold d1
        split
        · exact mirSend_ok (ok_foldl h_d fun _ _ h => mirSend_ok h)
        · exact pendWord_ok (ok_foldl h_d fun _ _ h => pushWord_ok h)
      clear_value d1
      split
      · exact h_d
      · exact ih h1

theorem destWrite_ok {d : Dev} {c : Fin 8} {x : List Word} {ws : List Word} (h_d : Ok d) : Ok (destWrite d c x ws) := by
  unfold destWrite
  extract_lets y n d1 d2 acc r
  have h2 : Ok d2 := onChan_ok (ok_incBy h_d)
  clear_value d2
  split
  · exact ok_mk h2
  · exact hwPut_ok h2
  · have hp := pushPkts_ok (k := acc.length) (c := c) (n := dRgn (dDaddr x)) (q := dQueue (dDaddr x)) (acc := acc) h2
    exact ok_ite hp (onChan_ok hp)
  · exact onChan_ok (segStore_ok h2)
  · exact onChan_ok h2

theorem lastByte_ok {d : Dev} {c : Fin 8} {x : List Word} (h_d : Ok d) : Ok (lastByte d c x) := by
  unfold lastByte
  repeat'
    first
      | with_reducible assumption
      | intro _
      | with_reducible first | apply chanEnd_ok | apply chanDone_ok | apply ok_ite
      | split
      | with_reducible apply ok_mk

theorem unitBytes_ok {d : Dev} {c : Fin 8} {x : List Word} {hostData : List Byte} (h_d : Ok d) : Ok (unitBytes d c x hostData) := by
  unfold unitBytes
  extract_lets +onlyGivenNames v0 v1
  try clear_value v0
  try clear_value v1
  repeat'
    first
      | with_reducible assumption
      | intro _
      | with_reducible first | apply ok_free | apply onChan_ok | apply chanEnd_ok | apply destWrite_ok | apply lastByte_ok | apply ok_ite
      | with_reducible refine ok_snd (by assumption) ?_
      | split
      | dsimp only

theorem itemDone_ok {d : Dev} {c : Fin 8} {x : List Word} (h_d : Ok d) : Ok (itemDone d c x) := by
  unfold itemDone
  extract_lets +onlyGivenNames v0
  have h_v0 : Ok v0 := by
    unfold v0
    repeat'
      first
        | with_reducible assumption
        | intro _
        | with_reducible first | apply onChan_ok | apply ackEntry_ok | apply ok_ite
        | split
        | dsimp only
  try clear_value v0
  repeat'
    first
      | with_reducible assumption
      | intro _
      | with_reducible first | apply onChan_ok | apply ackEntry_ok | apply ok_ite
      | split
      | dsimp only

theorem itemNext_ok {d : Dev} {c : Fin 8} {x : List Word} (h_d : Ok d) : Ok (itemNext d c x) := by
  unfold itemNext
  repeat'
    first
      | with_reducible assumption
      | intro _
      | with_reducible first | apply chanEnd_ok | apply chanNext_ok | apply chanDone_ok | apply ok_ite
      | with_reducible refine ok_snd (by assumption) ?_
      | split
      | dsimp only

theorem unitItem_ok {d : Dev} {c : Fin 8} {x : List Word} (h_d : Ok d) : Ok (unitItem d c x) := by
  unfold unitItem
  extract_lets y moved
  have hm : ∀ d n, Ok d → Ok (moved d n) := fun d n h => onChan_ok h
  clear_value moved
  split
  · split
    · exact chanIdle_ok h_d
    · have hf : Ok d.free.2 := ok_free h_d
      revert hf
      generalize d.free = z
      intro hf
      cases z
      dsimp only at hf ⊢
      have hw : ∀ l, Ok (destWrite _ c x l) := fun l => destWrite_ok (ws := l) hf
      exact ok_ite (hw _) (ok_ite (ok_ite (chanEnd_ok (onChan_ok (hm _ _ (hw _)))) (onChan_ok (hm _ _ (hw _))))
        (itemNext_ok (itemDone_ok (hm _ _ (hw _)))))
  · dsimp only
    split
    · exact chanIdle_ok h_d
    · exact itemNext_ok (onChan_ok (signal_ok (presentFree_ok (dropRec_ok (hm _ _ (destWrite_ok h_d))))))
  · split
    · exact chanIdle_ok h_d
    · exact itemNext_ok (onChan_ok (hm _ _ (destWrite_ok (ok_mk h_d))))

theorem ladleUnit_ok {d : Dev} {c : Fin 8} {x : List Word} {hostData : List Byte} (h_d : Ok d) : Ok (ladleUnit d c x hostData) := by
  unfold ladleUnit
  repeat'
    first
      | with_reducible assumption
      | intro _
      | with_reducible first | apply chanEnd_ok | apply shadowCount_ok | apply chanDone_ok | apply unitBytes_ok | apply unitItem_ok | apply ok_ite
      | split
      | dsimp only

theorem execLadleUnitDone_ok {c : Fin 8} {hostData : List Byte} {s : State} (h_s : Ok s.dev) : Good s (execLadleUnitDone c hostData s) := by
  unfold execLadleUnitDone
  repeat'
    first
      | with_reducible assumption
      | intro _
      | with_reducible first | apply failCheck_ok | apply ladleUnit_ok | apply ok_ite | apply good_stay | apply good_onDev | apply good_onUnit | apply good_onBlock | apply good_onRegion | apply good_onChip | apply good_ite
      | split
      | with_reducible apply ok_mk

theorem execLadleItemAvailable_ok {c : Fin 8} {s : State} (h_s : Ok s.dev) : Good s (execLadleItemAvailable c s) := by
  unfold execLadleItemAvailable
  repeat'
    first
      | with_reducible assumption
      | intro _
      | with_reducible first | apply failCheck_ok | apply chanNext_ok | apply chanDone_ok | apply ok_ite | apply good_stay | apply good_onDev | apply good_onUnit | apply good_onBlock | apply good_onRegion | apply good_onChip | apply good_ite
      | with_reducible refine ok_snd (by assumption) ?_
      | split
      | dsimp only

theorem execGatherExpire_ok {c : Fin 8} {s : State} (h_s : Ok s.dev) : Good s (execGatherExpire c s) := by
  unfold execGatherExpire
  repeat'
    first
      | with_reducible assumption
      | intro _
      | with_reducible first | apply failCheck_ok | apply chanDone_ok | apply ok_ite | apply good_stay | apply good_onDev | apply good_onUnit | apply good_onBlock | apply good_onRegion | apply good_onChip | apply good_ite
      | split
      | dsimp only

theorem execDescriptorTimeout_ok {c : Fin 8} {s : State} (h_s : Ok s.dev) : Good s (execDescriptorTimeout c s) := by
  unfold execDescriptorTimeout
  repeat'
    first
      | with_reducible assumption
      | intro _
      | with_reducible first | apply chanEnd_ok | apply idle_ok | apply ok_ite | apply good_stay | apply good_onDev | apply good_onUnit | apply good_onBlock | apply good_onRegion | apply good_onChip | apply good_ite
      | split
      | dsimp only

theorem execPcieError_ok {c : Fin 8} {s : State} (h_s : Ok s.dev) : Good s (execPcieError c s) := by
  unfold execPcieError
  repeat'
    first
      | with_reducible assumption
      | intro _
      | with_reducible first | apply chanEnd_ok | apply ok_ite | apply good_stay | apply good_onDev | apply good_onUnit | apply good_onBlock | apply good_onRegion | apply good_onChip | apply good_ite
      | split
      | dsimp only

theorem chanRefuse_ok {d : Dev} {c : Fin 8} (h_d : Ok d) : Ok (chanRefuse d c) := by
  unfold chanRefuse
  repeat'
    first
      | with_reducible assumption
      | intro _
      | with_reducible first | apply ok_flag | apply ok_ite
      | split
      | dsimp only

theorem chanStop_ok {d : Dev} {c : Fin 8} (h_d : Ok d) : Ok (chanStop d c) := by
  unfold chanStop
  split
  all_goals
    repeat'
      first
        | with_reducible assumption
        | intro _
        | with_reducible first | apply ok_put | apply ok_flag | apply ok_cmdAgain | apply chanEnd_ok | apply ok_ite
        | split
        | dsimp only

theorem chanCtlWrite_ok {d : Dev} {c : Fin 8} {cmds : Nat} (h_d : Ok d) : Ok (chanCtlWrite d c cmds) := by
  unfold chanCtlWrite
  extract_lets +onlyGivenNames v0
  try clear_value v0
  repeat'
    first
      | with_reducible assumption
      | intro _
      | with_reducible first | apply chanGo_ok | apply chanRefuse_ok | apply chanStop_ok | apply ok_ite
      | split
      | dsimp only

theorem chanCtlHost_ok {s : State} {h : Master} {c : Fin 8} {w : Word} (h_s : Ok s.dev) : Good s (chanCtlHost s h c w) := by
  unfold chanCtlHost
  repeat'
    first
      | with_reducible assumption
      | intro _
      | with_reducible first | apply hostW_ok | apply failCheck_ok | apply chanCtlWrite_ok | apply ok_ite | apply good_stay | apply good_onDev | apply good_onUnit | apply good_onBlock | apply good_onRegion | apply good_onChip | apply good_ite
      | split
      | dsimp only

theorem execChannelStart_ok {h : Master} {c : Fin 8} {w : Word} {s : State} (h_s : Ok s.dev) : Good s (execChannelStart h c w s) := by
  unfold execChannelStart
  repeat'
    first
      | with_reducible assumption
      | intro _
      | with_reducible first | apply chanCtlHost_ok | apply ok_ite | apply good_stay | apply good_onDev | apply good_onUnit | apply good_onBlock | apply good_onRegion | apply good_onChip | apply good_ite
      | split
      | dsimp only

theorem execChannelStop_ok {h : Master} {c : Fin 8} {w : Word} {s : State} (h_s : Ok s.dev) : Good s (execChannelStop h c w s) := by
  unfold execChannelStop
  repeat'
    first
      | with_reducible assumption
      | intro _
      | with_reducible first | apply chanCtlHost_ok | apply ok_ite | apply good_stay | apply good_onDev | apply good_onUnit | apply good_onBlock | apply good_onRegion | apply good_onChip | apply good_ite
      | split
      | dsimp only

theorem chanCfgDo_ok {d : Dev} {c : Fin 8} {w : Word} (h_d : Ok d) : Ok (chanCfgDo d c w) := by
  unfold chanCfgDo
  extract_lets +onlyGivenNames v0 v1
  try clear_value v0
  try clear_value v1
  repeat'
    first
      | with_reducible assumption
      | intro _
      | with_reducible first | apply ok_setReg | apply ok_put | apply ok_clr | apply onChan_ok | apply chanRefuse_ok | apply chanStop_ok | apply ok_ite
      | split
      | dsimp only

theorem execChannelCfgWrite_ok {h : Master} {c : Fin 8} {w : Word} {s : State} (h_s : Ok s.dev) : Good s (execChannelCfgWrite h c w s) := by
  unfold execChannelCfgWrite
  repeat'
    first
      | with_reducible assumption
      | intro _
      | with_reducible first | apply hostW_ok | apply chanCfgDo_ok | apply ok_ite | apply good_stay | apply good_onDev | apply good_onUnit | apply good_onBlock | apply good_onRegion | apply good_onChip | apply good_ite
      | split
      | dsimp only

theorem tailDo_ok {d : Dev} {c : Fin 8} {w : Word} (h_d : Ok d) : Ok (tailDo d c w) := by
  unfold tailDo
  extract_lets +onlyGivenNames v0 v1 v2 v3
  try clear_value v0
  try clear_value v1
  try clear_value v2
  try clear_value v3
  repeat'
    first
      | with_reducible assumption
      | intro _
      | with_reducible first | apply ok_put | apply chanGo_ok | apply chanRefuse_ok | apply ok_ite
      | split
      | dsimp only

theorem execTailWrite_ok {h : Master} {c : Fin 8} {w : Word} {s : State} (h_s : Ok s.dev) : Good s (execTailWrite h c w s) := by
  unfold execTailWrite
  repeat'
    first
      | with_reducible assumption
      | intro _
      | with_reducible first | apply hostW_ok | apply failCheck_ok | apply tailDo_ok | apply ok_ite | apply good_stay | apply good_onDev | apply good_onUnit | apply good_onBlock | apply good_onRegion | apply good_onChip | apply good_ite
      | split
      | dsimp only

theorem traceClear_ok {d : Dev} (h_d : Ok d) : Ok (traceClear d) := by
  unfold traceClear
  repeat'
    first
      | with_reducible assumption
      | intro _
      | with_reducible first | apply chanIdle_ok | apply ok_ite | apply ok_forAll
      | split
      | with_reducible apply ok_mk

theorem execTraceClear_ok {h : Master} {w : Word} {s : State} (h_s : Ok s.dev) : Good s (execTraceClear h w s) := by
  unfold execTraceClear
  repeat'
    first
      | with_reducible assumption
      | intro _
      | with_reducible first | apply hostW_ok | apply traceClear_ok | apply ok_ite | apply good_stay | apply good_onDev | apply good_onUnit | apply good_onBlock | apply good_onRegion | apply good_onChip | apply good_ite
      | split
      | dsimp only

end Sys2Proof.Machine
end

