-- ==== Sys2Proof/Laws/KeepRegWrite.lean ====
section
/-! SUPPORT. The invariant kept by every operation of Machine/RegWrite.lean. -/

set_option linter.unreachableTactic false
set_option linter.unusedTactic false

namespace Sys2Proof.Machine

theorem plainWrite_ok {d : Dev} {f : RegFam} {a : Nat} {w : Word} (h_d : Ok d) : Ok (plainWrite d f a w) := by
  unfold plainWrite
  extract_lets +onlyGivenNames v0
  have h_v0 : Ok v0 := by
    unfold v0
    repeat'
      first
        | with_reducible assumption
        | intro _
        | with_reducible first | apply ok_setReg | apply hostErrAgain_ok | apply ok_ite
        | split
        | dsimp only
  try clear_value v0
  repeat'
    first
      | with_reducible assumption
      | intro _
      | with_reducible first | apply ok_setReg | apply hostErrAgain_ok | apply ok_ite
      | split
      | dsimp only

theorem mirBlock_ok {d : Dev} {id : RegId} {ix : List Nat} {w : Word} {d' : Dev} (e : (mirBlock d id ix w) = some d') (h_d : Ok d) : Ok d' := by
  unfold mirBlock at e
  split at e
  all_goals first | injection e with e | injection e
  all_goals subst e
  all_goals first
    | exact bkCtlWrite_ok h_d
    | exact rctlWrite_ok h_d
    | exact qctlWrite_ok h_d
    | exact hspCtlWrite_ok h_d
    | exact kCtlWrite_ok h_d
    | exact segwrDo_ok h_d
    | exact segmentDo_ok h_d
    | exact ok_ite (doReval_ok h_d) h_d
    | exact ok_ite (doRearm_ok h_d) h_d

theorem mirPort_ok {d : Dev} {id : RegId} {ix : List Nat} {w : Word} {d' : Dev} (e : (mirPort d id ix w) = some d') (h_d : Ok d) : Ok d' := by
  unfold mirPort at e
  extract_lets p q i at e
  clear_value p q i
  split at e
  all_goals first | injection e with e | injection e
  all_goals subst e
  all_goals first
    | exact ok_ite (doSwitch_ok h_d) h_d
    | exact bpCtlWrite_ok h_d
    | exact tqCtlWrite_ok h_d
    | exact feWrite_ok h_d
    | exact pushWord_ok h_d
    | exact pendWord_ok h_d

theorem mirDo_ok {d : Dev} {m : MirWr} (h_d : Ok d) : Ok (mirDo d m) := by
  unfold mirDo
  split
  · exact h_d
  · rename_i f ix _
    dsimp only
    split
    · exact ok_ite h_d (opBegin_ok h_d)
    · cases h1 : mirBlock d f.id ix m.word with
      | some x => simpa using mirBlock_ok h1 h_d
      | none => cases h2 : mirPort d f.id ix m.word with
        | some x => simpa using mirPort_ok h2 h_d
        | none => simpa using plainWrite_ok h_d

theorem execMwrApply_ok {s : State} (h_s : Ok s.dev) : Good s (execMwrApply s) := by
  unfold execMwrApply
  repeat'
    first
      | with_reducible assumption
      | intro _
      | with_reducible first | apply ok_onTw | apply failCheck_ok | apply mirDo_ok | apply ok_ite | apply good_stay | apply good_onDev | apply good_onUnit | apply good_onBlock | apply good_onRegion | apply good_onChip | apply good_ite
      | split
      | dsimp only

end Sys2Proof.Machine
end

