-- ==== Sys2Proof/Laws/KeepTwinLink.lean ====
section
/-! SUPPORT. The invariant kept by every operation of Machine/TwinLink.lean. -/

set_option linter.unreachableTactic false
set_option linter.unusedTactic false

namespace Sys2Proof.Machine

theorem twEvent_ok {d : Dev} {info : Nat} (h_d : Ok d) : Ok (twEvent d info) := by
  unfold twEvent
  repeat'
    first
      | with_reducible assumption
      | intro _
      | with_reducible first | apply ok_raise | apply ok_ite
      | split
      | dsimp only

theorem execLinkUp_ok {p : Hello} {s : State} (h_s : Ok s.dev) : Good s (execLinkUp p s) := by
  unfold execLinkUp
  repeat'
    first
      | with_reducible assumption
      | intro _
      | with_reducible first | apply ok_put | apply ok_flag | apply ok_onTw | apply pairCheck_ok | apply startLoad_ok | apply ok_ite | apply good_stay | apply good_onDev | apply good_onUnit | apply good_onBlock | apply good_onRegion | apply good_onChip | apply good_ite
      | split
      | dsimp only

theorem execLinkRetrain_ok {s : State} (h_s : Ok s.dev) : Good s (execLinkRetrain s) := by
  unfold execLinkRetrain
  repeat'
    first
      | with_reducible assumption
      | intro _
      | with_reducible first | apply ok_put | apply ok_incSat | apply ok_ite | apply good_stay | apply good_onDev | apply good_onUnit | apply good_onBlock | apply good_onRegion | apply good_onChip | apply good_ite
      | split
      | dsimp only

theorem execLaneLoss_ok {s : State} (h_s : Ok s.dev) : Good s (execLaneLoss s) := by
  unfold execLaneLoss
  repeat'
    first
      | with_reducible assumption
      | intro _
      | with_reducible first | apply ok_put | apply ok_ite | apply good_stay | apply good_onDev | apply good_onUnit | apply good_onBlock | apply good_onRegion | apply good_onChip | apply good_ite
      | split
      | dsimp only

theorem resyncDrop_ok {d : Dev} (h_d : Ok d) : Ok (resyncDrop d) := by
  unfold resyncDrop
  repeat'
    first
      | with_reducible assumption
      | intro _
      | with_reducible first | apply ok_clr | apply ok_onTw | apply ok_ite | apply ok_forAll
      | split
      | dsimp only

theorem partnerFails_ok {d : Dev} {cause : Nat} (h_d : Ok d) : Ok (partnerFails d cause) := by
  unfold partnerFails
  extract_lets +onlyGivenNames v0
  have h_v0 : Ok v0 := by
    unfold v0
    repeat'
      first
        | with_reducible assumption
        | intro _
        | with_reducible first | apply ok_put | apply ok_clr | apply ok_onTw | apply legsSafe_ok | apply roleHeld_ok | apply twEvent_ok | apply resyncDrop_ok | apply ok_ite | apply ok_forAll
        | (with_reducible refine ok_leg ?_ ?_ <;> first | with_reducible assumption | exact fun hg => leg_same hg rfl rfl rfl rfl | skip)
        | (with_reducible refine ok_legs ?_ ?_ <;> first | with_reducible assumption | exact fun _ hg => leg_same hg rfl rfl rfl rfl | skip)
        | (with_reducible refine ok_onB ?_ ?_ <;> first | with_reducible assumption | exact fun _ h => blk_same h rfl rfl rfl | exact fun _ h => blk_noClr h rfl rfl rfl | exact fun _ h => blk_map h rfl rfl rfl fun _ hg => leg_same hg rfl rfl rfl rfl | skip)
        | exact blk_same (by assumption) rfl rfl rfl
        | split
        | dsimp only
  try clear_value v0
  repeat'
    first
      | with_reducible assumption
      | intro _
      | with_reducible first | apply ok_put | apply ok_clr | apply ok_onTw | apply legsSafe_ok | apply roleHeld_ok | apply twEvent_ok | apply resyncDrop_ok | apply ok_ite | apply ok_forAll
      | (with_reducible refine ok_leg ?_ ?_ <;> first | with_reducible assumption | exact fun hg => leg_same hg rfl rfl rfl rfl | skip)
      | (with_reducible refine ok_legs ?_ ?_ <;> first | with_reducible assumption | exact fun _ hg => leg_same hg rfl rfl rfl rfl | skip)
      | (with_reducible refine ok_onB ?_ ?_ <;> first | with_reducible assumption | exact fun _ h => blk_same h rfl rfl rfl | exact fun _ h => blk_noClr h rfl rfl rfl | exact fun _ h => blk_map h rfl rfl rfl fun _ hg => leg_same hg rfl rfl rfl rfl | skip)
      | exact blk_same (by assumption) rfl rfl rfl
      | split
      | dsimp only

theorem linkLost_ok {d : Dev} (h_d : Ok d) : Ok (linkLost d) := by
  unfold linkLost
  repeat'
    first
      | with_reducible assumption
      | intro _
      | with_reducible first | apply ok_clr | apply ok_onTw | apply setRole_ok | apply linkDown_ok | apply resyncDrop_ok | apply partnerFails_ok | apply ok_ite
      | split
      | dsimp only

theorem execLinkLost_ok {s : State} (h_s : Ok s.dev) : Good s (execLinkLost s) := by
  unfold execLinkLost
  repeat'
    first
      | with_reducible assumption
      | intro _
      | with_reducible first | apply linkLost_ok | apply ok_ite | apply good_stay | apply good_onDev | apply good_onUnit | apply good_onBlock | apply good_onRegion | apply good_onChip | apply good_ite
      | split
      | dsimp only

theorem execLinkFault_ok {s : State} (h_s : Ok s.dev) : Good s (execLinkFault s) := by
  unfold execLinkFault
  repeat'
    first
      | with_reducible assumption
      | intro _
      | with_reducible first | apply ok_onTw | apply roleHeld_ok | apply resyncDrop_ok | apply ok_ite | apply good_stay | apply good_onDev | apply good_onUnit | apply good_onBlock | apply good_onRegion | apply good_onChip | apply good_ite
      | split
      | dsimp only

theorem execHbSend_ok {s : State} (h_s : Ok s.dev) : Good s (execHbSend s) := by
  unfold execHbSend
  repeat'
    first
      | with_reducible assumption
      | intro _
      | with_reducible first | apply ok_put | apply ok_free | apply ok_onTw | apply twSend_ok | apply ok_ite | apply good_stay | apply good_onDev | apply good_onUnit | apply good_onBlock | apply good_onRegion | apply good_onChip | apply good_ite
      | with_reducible refine ok_snd (by assumption) ?_
      | split
      | dsimp only

theorem mismatch_ok {d : Dev} {nn : Fin 16} (h_d : Ok d) : Ok (mismatch d nn) := by
  unfold mismatch
  extract_lets +onlyGivenNames v0 v1 v2 v3 v4
  try clear_value v0
  have h_v1 : Ok v1 := by
    unfold v1
    repeat'
      first
        | with_reducible assumption
        | intro _
        | with_reducible first | apply ok_put | apply ok_flag | apply ok_inc | apply ok_incSat | apply ok_onTw | apply verifyFail_ok | apply twEvent_ok | apply ok_ite
        | split
        | dsimp only
  try clear_value v1
  have h_v2 : Ok v2 := by
    unfold v2
    repeat'
      first
        | with_reducible assumption
        | intro _
        | with_reducible first | apply ok_put | apply ok_flag | apply ok_inc | apply ok_incSat | apply ok_onTw | apply verifyFail_ok | apply twEvent_ok | apply ok_ite
        | split
        | dsimp only
  try clear_value v2
  have h_v3 : Ok v3 := by
    unfold v3
    repeat'
      first
        | with_reducible assumption
        | intro _
        | with_reducible first | apply ok_put | apply ok_flag | apply ok_inc | apply ok_incSat | apply ok_onTw | apply verifyFail_ok | apply twEvent_ok | apply ok_ite
        | split
        | dsimp only
  try clear_value v3
  have h_v4 : Ok v4 := by
    unfold v4
    repeat'
      first
        | with_reducible assumption
        | intro _
        | with_reducible first | apply ok_put | apply ok_flag | apply ok_inc | apply ok_incSat | apply ok_onTw | apply verifyFail_ok | apply twEvent_ok | apply ok_ite
        | split
        | dsimp only
  try clear_value v4
  repeat'
    first
      | with_reducible assumption
      | intro _
      | with_reducible first | apply ok_put | apply ok_flag | apply ok_inc | apply ok_incSat | apply ok_onTw | apply verifyFail_ok | apply twEvent_ok | apply ok_ite
      | split
      | dsimp only

theorem mismatchHere_ok {d : Dev} {nn : Fin 16} (h_d : Ok d) : Ok (mismatchHere d nn) := by
  unfold mismatchHere
  repeat'
    first
      | with_reducible assumption
      | intro _
      | with_reducible first | apply twSend_ok | apply mismatch_ok | apply ok_ite
      | split
      | dsimp only

theorem reconcile_ok {d : Dev} {nn : Fin 16} {own : Bool} (h_d : Ok d) : Ok (reconcile d nn own) := by
  unfold reconcile
  extract_lets +onlyGivenNames v0 v1
  try clear_value v0
  try clear_value v1
  repeat'
    first
      | with_reducible assumption
      | intro _
      | with_reducible first | apply quench_ok | apply tryClear_ok | apply mismatchHere_ok | apply ok_ite
      | split
      | dsimp only

theorem mirrorPort_ok {d : Dev} {p : Fin 4} {st : Nat} {tec : Nat} {recN : Nat} (h_d : Ok d) : Ok (mirrorPort d p st tec recN) := by
  unfold mirrorPort
  extract_lets +onlyGivenNames v0
  have h_v0 : Ok v0 := by
    unfold v0
    repeat'
      first
        | with_reducible assumption
        | intro _
        | with_reducible first | apply ok_put | apply onPort_ok | apply ok_ite
        | split
        | dsimp only
  try clear_value v0
  repeat'
    first
      | with_reducible assumption
      | intro _
      | with_reducible first | apply ok_put | apply onPort_ok | apply ok_ite
      | split
      | dsimp only

theorem mirrorPorts_ok {d : Dev} {ps : List (Nat × Nat × Nat)} (h_d : Ok d) : Ok (mirrorPorts d ps) := by
  unfold mirrorPorts
  repeat'
    first
      | with_reducible assumption
      | intro _
      | with_reducible first | apply mirrorPort_ok | apply ok_ite | apply ok_forAll
      | split
      | dsimp only

theorem takePhases_ok {d : Dev} {ph : List (Nat × Nat)} (h_d : Ok d) : Ok (takePhases d ph) := by
  unfold takePhases
  repeat'
    first
      | with_reducible assumption
      | intro _
      | with_reducible first | apply srcUpdate_ok | apply ok_ite | apply ok_forAll
      | split
      | dsimp only

theorem compareDigs_ok {k : Nat} {d : Dev} {nn : Fin 16} (h_d : Ok d) : Ok (compareDigs k d nn) := by
  induction k generalizing d with
  | zero => exact h_d
  | succ k ih =>
    unfold compareDigs
    dsimp only
    split
    · exact ok_onTw h_d
    · split
      · exact ih (ok_ite (matched_ok (ok_onTw h_d)) (mismatchHere_ok (ok_onTw h_d)))
      · exact h_d

theorem twRefuse_ok {d : Dev} {r : Nat} (h_d : Ok d) : Ok (twRefuse d r) := by
  unfold twRefuse
  repeat'
    first
      | with_reducible assumption
      | intro _
      | with_reducible first | apply ok_put | apply ok_flag | apply ok_ite
      | split
      | dsimp only

theorem handoverDo_ok {d : Dev} (h_d : Ok d) : Ok (handoverDo d) := by
  unfold handoverDo
  repeat'
    first
      | with_reducible assumption
      | intro _
      | with_reducible first | apply ok_flag | apply ok_onTw | apply twRefuse_ok | apply ok_ite
      | split
      | dsimp only

theorem coordHandover_ok {d : Dev} (h_d : Ok d) : Ok (coordHandover d) := by
  unfold coordHandover
  repeat'
    first
      | with_reducible assumption
      | intro _
      | with_reducible first | apply handoverDo_ok | apply ok_ite
      | split
      | dsimp only

theorem execHbReceived_ok {m : Hb} {s : State} (h_s : Ok s.dev) : Good s (execHbReceived m s) := by
  unfold execHbReceived
  repeat'
    first
      | with_reducible assumption
      | intro _
      | with_reducible first | apply ok_putB | apply ok_onTw | apply reconcile_ok | apply mirrorPorts_ok | apply takePhases_ok | apply compareDigs_ok | apply coordHandover_ok | apply ok_ite | apply ok_forAll | apply good_stay | apply good_onDev | apply good_onUnit | apply good_onBlock | apply good_onRegion | apply good_onChip | apply good_ite
      | split
      | dsimp only

theorem compareOwn_ok {d : Dev} {nn : Fin 16} {cyc : Nat} {crc : Word} (h_d : Ok d) : Ok (compareOwn d nn cyc crc) := by
  unfold compareOwn
  split
  all_goals
    repeat'
      first
        | with_reducible assumption
        | intro _
        | with_reducible first | apply ok_onTw | apply matched_ok | apply mismatch_ok | apply ok_ite
        | split
        | dsimp only

theorem execDigReceived_ok {nn : Fin 16} {cyc : Nat} {crc : Word} {s : State} (h_s : Ok s.dev) : Good s (execDigReceived nn cyc crc s) := by
  unfold execDigReceived
  repeat'
    first
      | with_reducible assumption
      | intro _
      | with_reducible first | apply ok_onTw | apply compareDigs_ok | apply compareOwn_ok | apply ok_ite | apply good_stay | apply good_onDev | apply good_onUnit | apply good_onBlock | apply good_onRegion | apply good_onChip | apply good_ite
      | split
      | dsimp only

end Sys2Proof.Machine
end

