-- ==== Sys2Proof/Laws/KeepTwinSync.lean ====
section
/-! SUPPORT. The invariant kept by every operation of Machine/TwinSync.lean. -/

set_option linter.unreachableTactic false
set_option linter.unusedTactic false

namespace Sys2Proof.Machine

theorem onShadow_ok {s : State} {f : Dev → Dev} (h_s : Ok s.dev) (h_f : ∀ d, Ok d → Ok (f d)) : Good s (onShadow s f) :=
  good_onChip h_s fun d hd => ok_ite (h_f d hd) hd

theorem execMwrReceived_ok {m : MirWr} {s : State} (h_s : Ok s.dev) : Good s (execMwrReceived m s) := by
  unfold execMwrReceived
  repeat'
    first
      | with_reducible assumption
      | intro _
      | with_reducible first | apply ok_onTw | apply onShadow_ok | apply ok_ite | apply good_stay | apply good_onDev | apply good_onUnit | apply good_onBlock | apply good_onRegion | apply good_onChip | apply good_ite
      | split
      | dsimp only

theorem rxAsOwner_ok {d : Dev} {p : Fin 4} {f : Frame} {self : Bool} {sof : Nat} {fseq : Nat} {o : RxOut} (h_d : Ok d) : Ok (rxAsOwner d p f self sof fseq o) := by
  unfold rxAsOwner
  extract_lets +onlyGivenNames v0 v1
  have h_v0 : Ok v0 := by
    unfold v0
    repeat'
      first
        | with_reducible assumption
        | intro _
        | with_reducible first | apply ok_inc | apply onPort_ok | apply frameDrop_ok | apply rxKeep_ok | apply ok_ite
        | with_reducible refine ok_snd (by assumption) ?_
        | split
        | dsimp only
  try clear_value v0
  try clear_value v1
  repeat'
    first
      | with_reducible assumption
      | intro _
      | with_reducible first | apply ok_inc | apply onPort_ok | apply frameDrop_ok | apply rxKeep_ok | apply ok_ite
      | with_reducible refine ok_snd (by assumption) ?_
      | split
      | dsimp only

theorem execRxrReceived_ok {p : Fin 4} {sof : Nat} {fseq : Nat} {crc : Word} {o : RxOut} {s : State} (h_s : Ok s.dev) : Good s (execRxrReceived p sof fseq crc o s) := by
  unfold execRxrReceived
  repeat'
    first
      | with_reducible assumption
      | intro _
      | with_reducible first | apply onPort_ok | apply failCheck_ok | apply onShadow_ok | apply twSend_ok | apply rxAsOwner_ok | apply ok_ite | apply good_stay | apply good_onDev | apply good_onUnit | apply good_onBlock | apply good_onRegion | apply good_onChip | apply good_ite
      | split
      | dsimp only

theorem execRxfReceived_ok {p : Fin 4} {f : Frame} {self : Bool} {sof : Nat} {fseq : Nat} {o : RxOut} {s : State} (h_s : Ok s.dev) : Good s (execRxfReceived p f self sof fseq o s) := by
  unfold execRxfReceived
  repeat'
    first
      | with_reducible assumption
      | intro _
      | with_reducible first | apply failCheck_ok | apply onShadow_ok | apply rxAsOwner_ok | apply ok_ite | apply good_stay | apply good_onDev | apply good_onUnit | apply good_onBlock | apply good_onRegion | apply good_onChip | apply good_ite
      | split
      | dsimp only

theorem execProvisionalTimeout_ok {p : Fin 4} {s : State} (h_s : Ok s.dev) : Good s (execProvisionalTimeout p s) := by
  unfold execProvisionalTimeout
  repeat'
    first
      | with_reducible assumption
      | intro _
      | with_reducible first | apply ok_inc | apply onPort_ok | apply ok_ite | apply good_stay | apply good_onDev | apply good_onUnit | apply good_onBlock | apply good_onRegion | apply good_onChip | apply good_ite
      | split
      | dsimp only

theorem txrApply_ok {d : Dev} {t : TxRep} (h_d : Ok d) : Ok (txrApply d t) := by
  unfold txrApply
  split
  all_goals
    repeat'
      first
        | with_reducible assumption
        | intro _
        | with_reducible first | apply ok_clr | apply ok_inc | apply ok_free | apply onW_ok | apply headLeaves_ok | apply winMiss_ok | apply twSend_ok | apply ok_ite
        | with_reducible refine ok_snd (by assumption) ?_
        | split
        | dsimp only

theorem execTxrReceived_ok {t : TxRep} {s : State} (h_s : Ok s.dev) : Good s (execTxrReceived t s) := by
  unfold execTxrReceived
  repeat'
    first
      | with_reducible assumption
      | intro _
      | with_reducible first | apply failCheck_ok | apply onShadow_ok | apply txrApply_ok | apply ok_ite | apply good_stay | apply good_onDev | apply good_onUnit | apply good_onBlock | apply good_onRegion | apply good_onChip | apply good_ite
      | split
      | dsimp only

theorem execSsiMessage_ok {nn : Fin 16} {m : Option (BitVec 40 × Bool)} {s : State} (h_s : Ok s.dev) : Good s (execSsiMessage nn m s) := by
  unfold execSsiMessage
  repeat'
    first
      | with_reducible assumption
      | intro _
      | with_reducible first | apply onE_ok | apply ssiDiscard_ok | apply ssiTake_ok | apply ok_ite | apply good_stay | apply good_onDev | apply good_onUnit | apply good_onBlock | apply good_onRegion | apply good_onChip | apply good_ite
      | split
      | dsimp only

theorem snapReg_ok {d : Dev} {a : Nat} {w : Word} (h_d : Ok d) : Ok (snapReg d a w) := by
  unfold snapReg
  split
  all_goals
    repeat'
      first
        | with_reducible assumption
        | intro _
        | with_reducible first | apply ok_setReg | apply ok_ite
        | split
        | dsimp only

theorem regsSome_map {t : Tab Word} {f : Nat × Word → Nat × Word} {c : Nat → Bool} (hf : ∀ e, (f e).1 = e.1)
    (hc : tcanon resetWord t = true) :
    tcanon resetWord ((t.map fun e => if c e.1 then f e else e).filter fun e => e.2 != resetWord e.1) = true := by
  refine tcanon_map_filter _ _ _ (fun e => ?_) (fun e he => ?_) hc
  · split
    · exact hf e
    · rfl
  · simpa using he

theorem snapClear_ok {d : Dev} {nn : Fin 16} (h_d : Ok d) : Ok (snapClear d nn) := by
  unfold snapClear
  extract_lets one rs
  have h1 : ∀ e, (one e).1 = e.1 := fun _ => rfl
  exact ok_regs h_d fun _ => regsSome_map h1 h_d.regs

theorem snapLoad_ok {d : Dev} {nn : Fin 16} {b : BlkSnap} (hb : Blk.wf b.blk = true) (h_d : Ok d) : Ok (snapLoad d nn b) := by
  unfold snapLoad
  extract_lets d1 src enc d2 d3
  have h1 : Ok d1 := ok_foldl (snapClear_ok h_d) fun _ _ h => ok_ite (snapReg_ok h) h
  have h2 : Ok d2 := by
    refine ok_onB h1 fun x _ => ?_
    have hm : Blk.wf { b.blk with leg := b.blk.leg.map fun g => { g with prior := none } } = true :=
      blk_map hb rfl rfl rfl fun _ hg => leg_same hg rfl rfl rfl rfl
    exact blk_noClr hm rfl rfl rfl
  clear_value d2
  exact domRecheckAll_ok (setPending_ok (ok_ite (legsSafe_ok h2) h2))

theorem catchSlot_ok {d : Dev} {nn : Fin 16} {c : CycLog} {k : Nat} {w : DWord} (h_d : Ok d) : Ok (catchSlot d nn c k w) := by
  unfold catchSlot
  split
  all_goals
    repeat'
      first
        | with_reducible assumption
        | intro _
        | with_reducible first | apply kernelRun_ok | apply updateDo_ok | apply ok_ite | apply ok_foldl | apply ok_foldl_fst | apply ok_foldl_snd
        | (with_reducible refine ok_leg ?_ ?_ <;> first | with_reducible assumption | exact fun hg => leg_same hg rfl rfl rfl rfl | skip)
        | (with_reducible refine ok_legs ?_ ?_ <;> first | with_reducible assumption | exact fun _ hg => leg_same hg rfl rfl rfl rfl | skip)
        | (with_reducible refine ok_onB ?_ ?_ <;> first | with_reducible assumption | exact fun _ h => blk_same h rfl rfl rfl | exact fun _ h => blk_noClr h rfl rfl rfl | exact fun _ h => blk_map h rfl rfl rfl fun _ hg => leg_same hg rfl rfl rfl rfl | skip)
        | exact blk_same (by assumption) rfl rfl rfl
        | split
        | dsimp only

theorem catchCycle_ok {d : Dev} {nn : Fin 16} {c : CycLog} (h_d : Ok d) : Ok (catchCycle d nn c) := by
  unfold catchCycle
  extract_lets +onlyGivenNames v0 v1 v2 v3 v4
  have h_v0 : Ok v0 := by
    unfold v0
    repeat'
      first
        | with_reducible assumption
        | intro _
        | with_reducible first | apply ok_inc | apply domRecheckAll_ok | apply hspCommit_ok | apply vbWrite_ok | apply takeSwap_ok | apply runTakes_ok | apply hspToEntries_ok | apply catchSlot_ok | apply ok_ite | apply ok_foldl | apply ok_foldl_fst | apply ok_foldl_snd
        | (with_reducible refine ok_leg ?_ ?_ <;> first | with_reducible assumption | exact fun hg => leg_same hg rfl rfl rfl rfl | skip)
        | (with_reducible refine ok_legs ?_ ?_ <;> first | with_reducible assumption | exact fun _ hg => leg_same hg rfl rfl rfl rfl | skip)
        | (with_reducible refine ok_onB ?_ ?_ <;> first | with_reducible assumption | exact fun _ h => blk_same h rfl rfl rfl | exact fun _ h => blk_noClr h rfl rfl rfl | exact fun _ h => blk_map h rfl rfl rfl fun _ hg => leg_same hg rfl rfl rfl rfl | skip)
        | exact blk_same (by assumption) rfl rfl rfl
        | split
        | dsimp only
  try clear_value v0
  have h_v1 : Ok v1 := by
    unfold v1
    repeat'
      first
        | with_reducible assumption
        | intro _
        | with_reducible first | apply ok_inc | apply domRecheckAll_ok | apply hspCommit_ok | apply vbWrite_ok | apply takeSwap_ok | apply runTakes_ok | apply hspToEntries_ok | apply catchSlot_ok | apply ok_ite | apply ok_foldl | apply ok_foldl_fst | apply ok_foldl_snd
        | (with_reducible refine ok_leg ?_ ?_ <;> first | with_reducible assumption | exact fun hg => leg_same hg rfl rfl rfl rfl | skip)
        | (with_reducible refine ok_legs ?_ ?_ <;> first | with_reducible assumption | exact fun _ hg => leg_same hg rfl rfl rfl rfl | skip)
        | (with_reducible refine ok_onB ?_ ?_ <;> first | with_reducible assumption | exact fun _ h => blk_same h rfl rfl rfl | exact fun _ h => blk_noClr h rfl rfl rfl | exact fun _ h => blk_map h rfl rfl rfl fun _ hg => leg_same hg rfl rfl rfl rfl | skip)
        | exact blk_same (by assumption) rfl rfl rfl
        | split
        | dsimp only
  try clear_value v1
  have h_v2 : Ok v2 := by
    unfold v2
    repeat'
      first
        | with_reducible assumption
        | intro _
        | with_reducible first | apply ok_inc | apply domRecheckAll_ok | apply hspCommit_ok | apply vbWrite_ok | apply takeSwap_ok | apply runTakes_ok | apply hspToEntries_ok | apply catchSlot_ok | apply ok_ite | apply ok_foldl | apply ok_foldl_fst | apply ok_foldl_snd
        | (with_reducible refine ok_leg ?_ ?_ <;> first | with_reducible assumption | exact fun hg => leg_same hg rfl rfl rfl rfl | skip)
        | (with_reducible refine ok_legs ?_ ?_ <;> first | with_reducible assumption | exact fun _ hg => leg_same hg rfl rfl rfl rfl | skip)
        | (with_reducible refine ok_onB ?_ ?_ <;> first | with_reducible assumption | exact fun _ h => blk_same h rfl rfl rfl | exact fun _ h => blk_noClr h rfl rfl rfl | exact fun _ h => blk_map h rfl rfl rfl fun _ hg => leg_same hg rfl rfl rfl rfl | skip)
        | exact blk_same (by assumption) rfl rfl rfl
        | split
        | dsimp only
  try clear_value v2
  have h_v3 : Ok v3 := by
    unfold v3
    repeat'
      first
        | with_reducible assumption
        | intro _
        | with_reducible first | apply ok_inc | apply domRecheckAll_ok | apply hspCommit_ok | apply vbWrite_ok | apply takeSwap_ok | apply runTakes_ok | apply hspToEntries_ok | apply catchSlot_ok | apply ok_ite | apply ok_foldl | apply ok_foldl_fst | apply ok_foldl_snd
        | (with_reducible refine ok_leg ?_ ?_ <;> first | with_reducible assumption | exact fun hg => leg_same hg rfl rfl rfl rfl | skip)
        | (with_reducible refine ok_legs ?_ ?_ <;> first | with_reducible assumption | exact fun _ hg => leg_same hg rfl rfl rfl rfl | skip)
        | (with_reducible refine ok_onB ?_ ?_ <;> first | with_reducible assumption | exact fun _ h => blk_same h rfl rfl rfl | exact fun _ h => blk_noClr h rfl rfl rfl | exact fun _ h => blk_map h rfl rfl rfl fun _ hg => leg_same hg rfl rfl rfl rfl | skip)
        | exact blk_same (by assumption) rfl rfl rfl
        | split
        | dsimp only
  try clear_value v3
  have h_v4 : Ok v4 := by
    unfold v4
    repeat'
      first
        | with_reducible assumption
        | intro _
        | with_reducible first | apply ok_inc | apply domRecheckAll_ok | apply hspCommit_ok | apply vbWrite_ok | apply takeSwap_ok | apply runTakes_ok | apply hspToEntries_ok | apply catchSlot_ok | apply ok_ite | apply ok_foldl | apply ok_foldl_fst | apply ok_foldl_snd
        | (with_reducible refine ok_leg ?_ ?_ <;> first | with_reducible assumption | exact fun hg => leg_same hg rfl rfl rfl rfl | skip)
        | (with_reducible refine ok_legs ?_ ?_ <;> first | with_reducible assumption | exact fun _ hg => leg_same hg rfl rfl rfl rfl | skip)
        | (with_reducible refine ok_onB ?_ ?_ <;> first | with_reducible assumption | exact fun _ h => blk_same h rfl rfl rfl | exact fun _ h => blk_noClr h rfl rfl rfl | exact fun _ h => blk_map h rfl rfl rfl fun _ hg => leg_same hg rfl rfl rfl rfl | skip)
        | exact blk_same (by assumption) rfl rfl rfl
        | split
        | dsimp only
  try clear_value v4
  repeat'
    first
      | with_reducible assumption
      | intro _
      | with_reducible first | apply ok_inc | apply domRecheckAll_ok | apply hspCommit_ok | apply vbWrite_ok | apply takeSwap_ok | apply runTakes_ok | apply hspToEntries_ok | apply catchSlot_ok | apply ok_ite | apply ok_foldl | apply ok_foldl_fst | apply ok_foldl_snd
      | (with_reducible refine ok_leg ?_ ?_ <;> first | with_reducible assumption | exact fun hg => leg_same hg rfl rfl rfl rfl | skip)
      | (with_reducible refine ok_legs ?_ ?_ <;> first | with_reducible assumption | exact fun _ hg => leg_same hg rfl rfl rfl rfl | skip)
      | (with_reducible refine ok_onB ?_ ?_ <;> first | with_reducible assumption | exact fun _ h => blk_same h rfl rfl rfl | exact fun _ h => blk_noClr h rfl rfl rfl | exact fun _ h => blk_map h rfl rfl rfl fun _ hg => leg_same hg rfl rfl rfl rfl | skip)
      | exact blk_same (by assumption) rfl rfl rfl
      | split
      | dsimp only

theorem tqReplace_ok {d : Dev} {p : Fin 4} {ps : List Pkt} (h_d : Ok d) : Ok (tqReplace d p ps) := by
  unfold tqReplace
  extract_lets +onlyGivenNames v0 v1 v2
  try clear_value v0
  try clear_value v1
  have h_v2 : Ok v2 := by
    unfold v2
    repeat'
      first
        | with_reducible assumption
        | intro _
        | with_reducible first | apply onQ_ok | apply freeCells_ok | apply storePkt_ok | apply ok_ite | apply ok_foldl | apply ok_foldl_fst | apply ok_foldl_snd
        | with_reducible refine ok_snd (by assumption) ?_
        | split
        | dsimp only
  try clear_value v2
  repeat'
    first
      | with_reducible assumption
      | intro _
      | with_reducible first | apply onQ_ok | apply freeCells_ok | apply storePkt_ok | apply ok_ite | apply ok_foldl | apply ok_foldl_fst | apply ok_foldl_snd
      | with_reducible refine ok_snd (by assumption) ?_
      | split
      | dsimp only

theorem execRsyReceived_ok {b : RsyBody} {s : State} (hb : carriesWf (.rsyReceived b) = true) (h_s : Ok s.dev) :
    Good s (execRsyReceived b s) := by
  unfold execRsyReceived
  refine onShadow_ok h_s fun d hd => ?_
  split
  · exact ok_ite (ok_foldl (snapLoad_ok hb hd) fun _ _ h => catchCycle_ok h) hd
  · exact ok_ite (catchCycle_ok hd) hd
  · exact failCheck_ok (twEvent_ok (tqReplace_ok hd))
  · exact ok_onTw hd

theorem blockAsked_ok {d : Dev} {nn : Fin 16} (h_d : Ok d) : Ok (blockAsked d nn) := by
  unfold blockAsked
  repeat'
    first
      | with_reducible assumption
      | intro _
      | with_reducible first | apply ok_onTw | apply mismatch_ok | apply ok_ite
      | split
      | dsimp only

theorem fullSend_ok {d : Dev} (h_d : Ok d) : Ok (fullSend d) := by
  unfold fullSend
  repeat'
    first
      | with_reducible assumption
      | intro _
      | with_reducible first | apply ok_onTw | apply twSend_ok | apply ok_ite
      | split
      | dsimp only

theorem execReqReceived_ok {r : TwReq} {s : State} (h_s : Ok s.dev) : Good s (execReqReceived r s) := by
  unfold execReqReceived
  repeat'
    first
      | with_reducible assumption
      | intro _
      | with_reducible first | apply twSend_ok | apply blockAsked_ok | apply fullSend_ok | apply ok_ite | apply good_stay | apply good_onDev | apply good_onUnit | apply good_onBlock | apply good_onRegion | apply good_onChip | apply good_ite
      | split
      | dsimp only

theorem execResyncDone_ok {nn : Fin 16} {s : State} (h_s : Ok s.dev) : Good s (execResyncDone nn s) := by
  unfold execResyncDone
  repeat'
    first
      | with_reducible assumption
      | intro _
      | with_reducible first | apply ok_clr | apply ok_onTw | apply ok_ite | apply good_stay | apply good_onDev | apply good_onUnit | apply good_onBlock | apply good_onRegion | apply good_onChip | apply good_ite
      | split
      | dsimp only

theorem execResyncTimeout_ok {nn : Fin 16} {s : State} (h_s : Ok s.dev) : Good s (execResyncTimeout nn s) := by
  unfold execResyncTimeout
  repeat'
    first
      | with_reducible assumption
      | intro _
      | with_reducible first | apply mismatchHere_ok | apply ok_ite | apply good_stay | apply good_onDev | apply good_onUnit | apply good_onBlock | apply good_onRegion | apply good_onChip | apply good_ite
      | split
      | dsimp only

theorem snapChipReg_ok {d : Dev} {a : Nat} {w : Word} (h_d : Ok d) : Ok (snapChipReg d a w) := by
  unfold snapChipReg
  split
  all_goals
    repeat'
      first
        | with_reducible assumption
        | intro _
        | with_reducible first | apply mirrorPort_ok | apply snapReg_ok | apply ok_ite
        | split
        | dsimp only

theorem clkShift_ok {d : Dev} {k : Nat} (h_d : Ok d) : Ok (clkShift d k) := by
  unfold clkShift
  extract_lets r d1 q m d2
  have h1 : Ok d1 := by
    refine ⟨h_d.regs, h_d.hwin, fun n => ?_, h_d.src, h_d.targ, fun nn => ?_⟩
    · have e : d1.r n = { d.r n with port := portShift k (d.r n).port } := by simp [d1, r, Dev.r, vget]
      rw [e]; exact rgn_same (h_d.rgn n) rfl rfl rfl rfl rfl
    · have e : d1.b nn = blkShift k (d.b nn) := by simp [d1, Dev.b, vget]
      rw [e]; exact blk_noClr (h_d.blk nn) rfl rfl rfl
  clear_value d1
  exact ok_onTw (ok_mk h1)

theorem clkAlign_ok {d : Dev} {c : Nat} (h_d : Ok d) : Ok (clkAlign d c) := by
  unfold clkAlign
  extract_lets +onlyGivenNames v0
  have h_v0 : Ok v0 := by
    unfold v0
    repeat'
      first
        | with_reducible assumption
        | intro _
        | with_reducible first | apply clkShift_ok | apply ok_ite
        | split
        | with_reducible apply ok_mk
  try clear_value v0
  repeat'
    first
      | with_reducible assumption
      | intro _
      | with_reducible first | apply clkShift_ok | apply ok_ite
      | split
      | with_reducible apply ok_mk

theorem phasesAlign_ok {d : Dev} {ph : List (Fin 8 × Nat)} (h_d : Ok d) : Ok (phasesAlign d ph) := by
  unfold phasesAlign
  repeat'
    first
      | with_reducible assumption
      | intro _
      | with_reducible first | apply phaseSet_ok | apply ok_ite | apply ok_foldl | apply ok_foldl_fst | apply ok_foldl_snd
      | split
      | dsimp only

theorem queuesEmpty_ok {d : Dev} (h_d : Ok d) : Ok (queuesEmpty d) := by
  unfold queuesEmpty
  repeat'
    first
      | with_reducible assumption
      | intro _
      | with_reducible first | apply scrubEnd_ok | apply ok_ite | apply ok_forAll
      | split
      | dsimp only

theorem fullEnd_ok {d : Dev} {rejoin : Bool} (h_d : Ok d) : Ok (fullEnd d rejoin) := by
  unfold fullEnd
  extract_lets +onlyGivenNames v0 v1 v2
  have h_v0 : Ok v0 := by
    unfold v0
    repeat'
      first
        | with_reducible assumption
        | intro _
        | with_reducible first | apply ok_flag | apply ok_clr | apply ok_onTw | apply suspectClear_ok | apply resyncDrop_ok | apply ok_ite | apply ok_forAll
        | split
        | dsimp only
  try clear_value v0
  have h_v1 : Ok v1 := by
    unfold v1
    repeat'
      first
        | with_reducible assumption
        | intro _
        | with_reducible first | apply ok_flag | apply ok_clr | apply ok_onTw | apply suspectClear_ok | apply resyncDrop_ok | apply ok_ite | apply ok_forAll
        | split
        | dsimp only
  try clear_value v1
  try clear_value v2
  repeat'
    first
      | with_reducible assumption
      | intro _
      | with_reducible first | apply ok_flag | apply ok_clr | apply ok_onTw | apply suspectClear_ok | apply resyncDrop_ok | apply ok_ite | apply ok_forAll
      | split
      | dsimp only

theorem snapsLoad_ok {es : List (Fin 16 × BlkSnap)} {d : Dev} (he : (es.all fun e => Blk.wf e.2.blk) = true) (h_d : Ok d) :
    Ok (es.foldl (fun d e => snapLoad d e.1 e.2) d) := by
  induction es generalizing d with
  | nil => exact h_d
  | cons e es ih =>
    simp only [List.all_cons, Bool.and_eq_true] at he
    rw [List.foldl_cons]
    exact ih he.2 (snapLoad_ok he.1 h_d)

theorem joinTakes_ok {d : Dev} {x : FullSnap} (he : (x.blks.all fun e => Blk.wf e.2.blk) = true) (h_d : Ok d) :
    Ok (joinTakes d x) := by
  unfold joinTakes
  extract_lets was d1 d2 d3 d4 d5 d6 d7 d8
  have h2 : Ok d2 := snapsLoad_ok he (phasesAlign_ok (clkAlign_ok h_d))
  have h3 : Ok d3 := ok_foldl h2 fun _ _ h => snapChipReg_ok h
  have h4 : Ok d4 := ok_ite h3 (queuesEmpty_ok h3)
  have h6 : Ok d6 := fullEnd_ok (setRole_ok (ok_foldl h4 fun _ _ h => tqReplace_ok h))
  have h7 : Ok d7 := ok_ite (ok_onTw h6) h6
  have h8 : Ok d8 := ok_ite (updEvent_ok (ok_clr (ok_flag (ok_onTw (ok_mk h7))))) h7
  exact ok_ite h8 (ok_forAll h8 fun _ _ h => ok_ite h (modeAtIdle_ok h))

theorem ownerJoined_ok {d : Dev} (h_d : Ok d) : Ok (ownerJoined d) := by
  unfold ownerJoined
  extract_lets +onlyGivenNames v0
  have h_v0 : Ok v0 := by
    unfold v0
    repeat'
      first
        | with_reducible assumption
        | intro _
        | with_reducible first | apply ok_flag | apply ok_clr | apply ok_onTw | apply updEvent_ok | apply fullEnd_ok | apply ok_ite
        | split
        | with_reducible apply ok_mk
  try clear_value v0
  repeat'
    first
      | with_reducible assumption
      | intro _
      | with_reducible first | apply ok_flag | apply ok_clr | apply ok_onTw | apply updEvent_ok | apply fullEnd_ok | apply ok_ite
      | split
      | with_reducible apply ok_mk

theorem startAlign_ok {d : Dev} {x : FullSnap} (h_d : Ok d) : Ok (startAlign d x) := by
  unfold startAlign
  extract_lets +onlyGivenNames v0 v1
  try clear_value v0
  have h_v1 : Ok v1 := by
    unfold v1
    repeat'
      first
        | with_reducible assumption
        | intro _
        | with_reducible first | apply startHeld_ok | apply snapChipReg_ok | apply clkAlign_ok | apply phasesAlign_ok | apply fullEnd_ok | apply ok_ite | apply ok_foldl | apply ok_foldl_fst | apply ok_foldl_snd
        | split
        | dsimp only
  try clear_value v1
  repeat'
    first
      | with_reducible assumption
      | intro _
      | with_reducible first | apply startHeld_ok | apply snapChipReg_ok | apply clkAlign_ok | apply phasesAlign_ok | apply fullEnd_ok | apply ok_ite | apply ok_foldl | apply ok_foldl_fst | apply ok_foldl_snd
      | split
      | dsimp only

theorem execFullResyncDone_ok {x : FullSnap} {s : State} (hb : carriesWf (.fullResyncDone x) = true) (h_s : Ok s.dev) :
    Good s (execFullResyncDone x s) := by
  unfold execFullResyncDone
  refine good_onChip h_s fun d hd => ?_
  exact ok_ite hd (ok_ite (startAlign_ok hd) (ok_ite hd (ok_ite (ownerJoined_ok hd) (ok_ite (failCheck_ok (joinTakes_ok hb hd)) hd))))

end Sys2Proof.Machine
end

