-- ==== Sys2Proof/Laws/KeepTwinOwn.lean ====
section
/-! SUPPORT. The invariant kept by every operation of Machine/TwinOwn.lean. -/

set_option linter.unreachableTactic false
set_option linter.unusedTactic false

namespace Sys2Proof.Machine

theorem portsOwn_ok {d : Dev} (h_d : Ok d) : Ok (portsOwn d) := by
  unfold portsOwn
  repeat'
    first
      | with_reducible assumption
      | intro _
      | with_reducible first | apply modeAtIdle_ok | apply ok_ite | apply ok_forAll
      | split
      | dsimp only

theorem portsYield_ok {d : Dev} (h_d : Ok d) : Ok (portsYield d) := by
  unfold portsYield
  repeat'
    first
      | with_reducible assumption
      | intro _
      | with_reducible first | apply modeAtIdle_ok | apply ok_ite | apply ok_forAll
      | split
      | dsimp only

theorem provOwn_ok {d : Dev} {p : Fin 4} (h_d : Ok d) : Ok (provOwn d p) := by
  unfold provOwn
  extract_lets +onlyGivenNames v0
  try clear_value v0
  repeat'
    first
      | with_reducible assumption
      | intro _
      | with_reducible first | apply onPort_ok | apply rxFilter_ok | apply ok_ite | apply ok_foldl | apply ok_foldl_fst | apply ok_foldl_snd
      | split
      | dsimp only

theorem takeOver_ok {d : Dev} (h_d : Ok d) : Ok (takeOver d) := by
  unfold takeOver
  extract_lets +onlyGivenNames v0
  have h_v0 : Ok v0 := by
    unfold v0
    repeat'
      first
        | with_reducible assumption
        | intro _
        | with_reducible first | apply ok_flag | apply ok_incSat | apply ok_free | apply ok_onTw | apply setMode_ok | apply setRole_ok | apply ownRaise_ok | apply roleHeld_ok | apply twEvent_ok | apply provOwn_ok | apply ok_ite | apply ok_forAll
        | with_reducible refine ok_snd (by assumption) ?_
        | split
        | dsimp only
  try clear_value v0
  repeat'
    first
      | with_reducible assumption
      | intro _
      | with_reducible first | apply ok_flag | apply ok_incSat | apply ok_free | apply ok_onTw | apply setMode_ok | apply setRole_ok | apply ownRaise_ok | apply roleHeld_ok | apply twEvent_ok | apply provOwn_ok | apply ok_ite | apply ok_forAll
      | with_reducible refine ok_snd (by assumption) ?_
      | split
      | dsimp only

theorem claimWon_ok {d : Dev} (h_d : Ok d) : Ok (claimWon d) := by
  unfold claimWon
  extract_lets +onlyGivenNames v0
  try clear_value v0
  repeat'
    first
      | with_reducible assumption
      | intro _
      | with_reducible first | apply setRole_ok | apply ownRaise_ok | apply portsOwn_ok | apply ok_ite
      | split
      | dsimp only

theorem forceWon_ok {d : Dev} (h_d : Ok d) : Ok (forceWon d) := by
  unfold forceWon
  extract_lets +onlyGivenNames v0 v1
  have h_v0 : Ok v0 := by
    unfold v0
    repeat'
      first
        | with_reducible assumption
        | intro _
        | with_reducible first | apply ok_clr | apply quench_ok | apply setRole_ok | apply ownRaise_ok | apply portsOwn_ok | apply ok_ite | apply ok_forAll
        | split
        | dsimp only
  try clear_value v0
  have h_v1 : Ok v1 := by
    unfold v1
    repeat'
      first
        | with_reducible assumption
        | intro _
        | with_reducible first | apply ok_clr | apply quench_ok | apply setRole_ok | apply ownRaise_ok | apply portsOwn_ok | apply ok_ite | apply ok_forAll
        | split
        | dsimp only
  try clear_value v1
  repeat'
    first
      | with_reducible assumption
      | intro _
      | with_reducible first | apply ok_clr | apply quench_ok | apply setRole_ok | apply ownRaise_ok | apply portsOwn_ok | apply ok_ite | apply ok_forAll
      | split
      | dsimp only

theorem execOwnGuardExpire_ok {s : State} (h_s : Ok s.dev) : Good s (execOwnGuardExpire s) := by
  unfold execOwnGuardExpire
  repeat'
    first
      | with_reducible assumption
      | intro _
      | with_reducible first | apply failCheck_ok | apply takeOver_ok | apply claimWon_ok | apply forceWon_ok | apply ok_ite | apply good_stay | apply good_onDev | apply good_onUnit | apply good_onBlock | apply good_onRegion | apply good_onChip | apply good_ite
      | split
      | dsimp only

theorem execOwnIRise_ok {s : State} (h_s : Ok s.dev) : Good s (execOwnIRise s) := by
  unfold execOwnIRise
  repeat'
    first
      | with_reducible assumption
      | intro _
      | with_reducible first | apply ok_clr | apply ok_onTw | apply roleHeld_ok | apply ok_ite | apply good_stay | apply good_onDev | apply good_onUnit | apply good_onBlock | apply good_onRegion | apply good_onChip | apply good_ite
      | split
      | dsimp only

theorem execOwnIFall_ok {s : State} (h_s : Ok s.dev) : Good s (execOwnIFall s) := by
  unfold execOwnIFall
  repeat'
    first
      | with_reducible assumption
      | intro _
      | with_reducible first | apply ok_onTw | apply partnerFails_ok | apply ok_ite | apply good_stay | apply good_onDev | apply good_onUnit | apply good_onBlock | apply good_onRegion | apply good_onChip | apply good_ite
      | split
      | dsimp only

theorem execTwqPulseEnd_ok {s : State} (h_s : Ok s.dev) : Good s (execTwqPulseEnd s) := by
  unfold execTwqPulseEnd
  repeat'
    first
      | with_reducible assumption
      | intro _
      | with_reducible first | apply ok_clr | apply ok_onTw | apply ok_ite | apply good_stay | apply good_onDev | apply good_onUnit | apply good_onBlock | apply good_onRegion | apply good_onChip | apply good_ite
      | split
      | dsimp only

theorem repairDo_ok {d : Dev} (h_d : Ok d) : Ok (repairDo d) := by
  unfold repairDo
  extract_lets +onlyGivenNames v0
  try clear_value v0
  repeat'
    first
      | with_reducible assumption
      | intro _
      | with_reducible first | apply ok_flag | apply ok_onTw | apply twSend_ok | apply twRefuse_ok | apply fullSend_ok | apply ok_ite
      | split
      | dsimp only

theorem forceDo_ok {d : Dev} (h_d : Ok d) : Ok (forceDo d) := by
  unfold forceDo
  repeat'
    first
      | with_reducible assumption
      | intro _
      | with_reducible first | apply ok_flag | apply ok_onTw | apply twRefuse_ok | apply ok_ite
      | split
      | dsimp only

theorem twCtlWrite_ok {d : Dev} {c : Nat} (h_d : Ok d) : Ok (twCtlWrite d c) := by
  unfold twCtlWrite
  split
  all_goals
    repeat'
      first
        | with_reducible assumption
        | intro _
        | with_reducible first | apply twRefuse_ok | apply handoverDo_ok | apply repairDo_ok | apply forceDo_ok | apply ok_ite
        | split
        | dsimp only

theorem twCtlHost_ok {s : State} {h : Master} {w : Word} (h_s : Ok s.dev) : Good s (twCtlHost s h w) := by
  unfold twCtlHost
  repeat'
    first
      | with_reducible assumption
      | intro _
      | with_reducible first | apply hostW_ok | apply twCtlWrite_ok | apply ok_ite | apply good_stay | apply good_onDev | apply good_onUnit | apply good_onBlock | apply good_onRegion | apply good_onChip | apply good_ite
      | split
      | dsimp only

theorem execHandover_ok {h : Master} {w : Word} {s : State} (h_s : Ok s.dev) : Good s (execHandover h w s) := by
  unfold execHandover
  repeat'
    first
      | with_reducible assumption
      | intro _
      | with_reducible first | apply twCtlHost_ok | apply ok_ite | apply good_stay | apply good_onDev | apply good_onUnit | apply good_onBlock | apply good_onRegion | apply good_onChip | apply good_ite
      | split
      | dsimp only

theorem execRepair_ok {h : Master} {w : Word} {s : State} (h_s : Ok s.dev) : Good s (execRepair h w s) := by
  unfold execRepair
  repeat'
    first
      | with_reducible assumption
      | intro _
      | with_reducible first | apply twCtlHost_ok | apply ok_ite | apply good_stay | apply good_onDev | apply good_onUnit | apply good_onBlock | apply good_onRegion | apply good_onChip | apply good_ite
      | split
      | dsimp only

theorem execForce_ok {h : Master} {w : Word} {s : State} (h_s : Ok s.dev) : Good s (execForce h w s) := by
  unfold execForce
  repeat'
    first
      | with_reducible assumption
      | intro _
      | with_reducible first | apply twCtlHost_ok | apply ok_ite | apply good_stay | apply good_onDev | apply good_onUnit | apply good_onBlock | apply good_onRegion | apply good_onChip | apply good_ite
      | split
      | dsimp only

theorem execHandoverOwnRaise_ok {s : State} (h_s : Ok s.dev) : Good s (execHandoverOwnRaise s) := by
  unfold execHandoverOwnRaise
  repeat'
    first
      | with_reducible assumption
      | intro _
      | with_reducible first | apply ok_flag | apply ok_onTw | apply leaveShadow_ok | apply ok_ite | apply good_stay | apply good_onDev | apply good_onUnit | apply good_onBlock | apply good_onRegion | apply good_onChip | apply good_ite
      | split
      | dsimp only

theorem handOut_ok {d : Dev} (h_d : Ok d) : Ok (handOut d) := by
  unfold handOut
  extract_lets +onlyGivenNames v0 v1
  have h_v0 : Ok v0 := by
    unfold v0
    repeat'
      first
        | with_reducible assumption
        | intro _
        | with_reducible first | apply ok_clr | apply ok_onTw | apply setRole_ok | apply ownDrop_ok | apply roleHeld_ok | apply updEvent_ok | apply actStart_ok | apply depart_ok | apply twEvent_ok | apply portsYield_ok | apply ok_ite
        | split
        | dsimp only
  try clear_value v0
  have h_v1 : Ok v1 := by
    unfold v1
    repeat'
      first
        | with_reducible assumption
        | intro _
        | with_reducible first | apply ok_clr | apply ok_onTw | apply setRole_ok | apply ownDrop_ok | apply roleHeld_ok | apply updEvent_ok | apply actStart_ok | apply depart_ok | apply twEvent_ok | apply portsYield_ok | apply ok_ite
        | split
        | dsimp only
  try clear_value v1
  repeat'
    first
      | with_reducible assumption
      | intro _
      | with_reducible first | apply ok_clr | apply ok_onTw | apply setRole_ok | apply ownDrop_ok | apply roleHeld_ok | apply updEvent_ok | apply actStart_ok | apply depart_ok | apply twEvent_ok | apply portsYield_ok | apply ok_ite
      | split
      | dsimp only

theorem handIn_ok {d : Dev} (h_d : Ok d) : Ok (handIn d) := by
  unfold handIn
  extract_lets +onlyGivenNames v0 v1
  have h_v0 : Ok v0 := by
    unfold v0
    repeat'
      first
        | with_reducible assumption
        | intro _
        | with_reducible first | apply ok_onTw | apply setRole_ok | apply updEvent_ok | apply twEvent_ok | apply portsOwn_ok | apply ok_ite
        | split
        | dsimp only
  try clear_value v0
  have h_v1 : Ok v1 := by
    unfold v1
    repeat'
      first
        | with_reducible assumption
        | intro _
        | with_reducible first | apply ok_onTw | apply setRole_ok | apply updEvent_ok | apply twEvent_ok | apply portsOwn_ok | apply ok_ite
        | split
        | dsimp only
  try clear_value v1
  repeat'
    first
      | with_reducible assumption
      | intro _
      | with_reducible first | apply ok_onTw | apply setRole_ok | apply updEvent_ok | apply twEvent_ok | apply portsOwn_ok | apply ok_ite
      | split
      | dsimp only

theorem execHandoverCompletes_ok {s : State} (h_s : Ok s.dev) : Good s (execHandoverCompletes s) := by
  unfold execHandoverCompletes
  repeat'
    first
      | with_reducible assumption
      | intro _
      | with_reducible first | apply handOut_ok | apply handIn_ok | apply ok_ite | apply good_stay | apply good_onDev | apply good_onUnit | apply good_onBlock | apply good_onRegion | apply good_onChip | apply good_ite
      | split
      | dsimp only

end Sys2Proof.Machine
end

