-- ==== Sys2Proof/Laws/KeepStart.lean ====
section
/-! SUPPORT. The invariant kept by every operation of Machine/Start.lean. -/

set_option linter.unreachableTactic false
set_option linter.unusedTactic false

namespace Sys2Proof.Machine

theorem softErr_ok {d : Dev} {v : Nat} (h_d : Ok d) : Ok (softErr d v) := by
  unfold softErr
  extract_lets +onlyGivenNames v0 v1
  try clear_value v0
  try clear_value v1
  repeat'
    first
      | with_reducible assumption
      | intro _
      | with_reducible first | apply ok_ite | apply ok_forAll
      | (with_reducible refine ok_onR ?_ ?_ <;> first | with_reducible assumption | exact fun _ h => rgn_same h rfl rfl rfl rfl rfl | skip)
      | exact rgn_same (by assumption) rfl rfl rfl rfl rfl
      | split
      | dsimp only

theorem idle_ok {d : Dev} (h_d : Ok d) : Ok (idle d) := by
  unfold idle
  extract_lets +onlyGivenNames v0
  have h_v0 : Ok v0 := by
    unfold v0
    repeat'
      first
        | with_reducible assumption
        | intro _
        | with_reducible first | apply ok_free | apply ok_onTw | apply mclkTick_ok | apply indexTick_ok | apply portTick_ok | apply softErr_ok | apply ok_ite | apply ok_forAll
        | with_reducible refine ok_snd (by assumption) ?_
        | split
        | with_reducible apply ok_mk
  try clear_value v0
  repeat'
    first
      | with_reducible assumption
      | intro _
      | with_reducible first | apply ok_free | apply ok_onTw | apply mclkTick_ok | apply indexTick_ok | apply portTick_ok | apply softErr_ok | apply ok_ite | apply ok_forAll
      | with_reducible refine ok_snd (by assumption) ?_
      | split
      | with_reducible apply ok_mk

theorem levelsAct_ok {d : Dev} (h_d : Ok d) : Ok (levelsAct d) := by
  unfold levelsAct
  repeat'
    first
      | with_reducible assumption
      | intro _
      | with_reducible first | apply quench_ok | apply ok_ite | apply ok_forAll
      | split
      | dsimp only

theorem legSafe_reset : ∀ l : Fin 3, Leg.safe (vget Blk.reset.leg l) = true := by decide

/-- The device right after reset keeps the invariant. -/
theorem ok_reset : Ok Dev.reset := by
  refine ⟨rfl, rfl, fun n => ?_, rfl, fun t => ?_, fun nn => ?_⟩
  · have e : Dev.reset.r n = Rgn.reset := by simp [Dev.r, Dev.reset, vget]
    rw [e]; exact rgn_reset_wf
  · have e : (vget Dev.reset.targ t).ring = [] := by simp [Dev.reset, vget, Targ.reset]
    rw [e]; rfl
  · have e : Dev.reset.b nn = Blk.reset := by simp [Dev.b, Dev.reset, vget]
    rw [e]; exact blk_reset_wf

theorem chipFresh_ok {d : Dev} {hard : Bool} {power : Bool} : Ok (chipFresh d hard power) := by
  refine ⟨ok_reset.regs, ok_reset.hwin, ok_reset.rgn, ok_reset.src, ok_reset.targ, fun nn => ?_⟩
  have e : (chipFresh d hard power).b nn = blkFresh (d.b nn) := by
    simp [chipFresh, Dev.b, vget]
  rw [e]
  exact blk_same blk_reset_wf rfl rfl rfl

theorem chipReset_ok {d : Dev} {hard : Bool} {power : Bool} : Ok (chipReset d hard power) :=
  levelsAct_ok (ok_foldl chipFresh_ok fun _ _ h => ok_setReg h)

theorem romStart_ok {d : Dev} (h_d : Ok d) : Ok (romStart d) := by
  unfold romStart
  extract_lets +onlyGivenNames v0
  have h_v0 : Ok v0 := by
    unfold v0
    repeat'
      first
        | with_reducible assumption
        | intro _
        | with_reducible first | apply ok_put | apply ok_ite
        | split
        | with_reducible apply ok_mk
  try clear_value v0
  repeat'
    first
      | with_reducible assumption
      | intro _
      | with_reducible first | apply ok_put | apply ok_ite
      | split
      | with_reducible apply ok_mk

theorem powerOn_ok {d : Dev} {c : CoreSupply} (h_d : Ok d) : Ok (powerOn d c) := by
  unfold powerOn
  extract_lets +onlyGivenNames v0 v1
  have h_v0 : Ok v0 := by
    unfold v0
    repeat'
      first
        | with_reducible assumption
        | intro _
        | with_reducible first | apply ok_flag | apply ok_clr | apply chipReset_ok | apply ok_ite
        | split
        | with_reducible apply ok_mk
  try clear_value v0
  have h_v1 : Ok v1 := by
    unfold v1
    repeat'
      first
        | with_reducible assumption
        | intro _
        | with_reducible first | apply ok_flag | apply ok_clr | apply chipReset_ok | apply ok_ite
        | split
        | with_reducible apply ok_mk
  try clear_value v1
  repeat'
    first
      | with_reducible assumption
      | intro _
      | with_reducible first | apply ok_flag | apply ok_clr | apply chipReset_ok | apply ok_ite
      | split
      | with_reducible apply ok_mk

theorem execPowerOn_ok {c : CoreSupply} {s : State} (h_s : Ok s.dev) : Good s (execPowerOn c s) := by
  unfold execPowerOn
  repeat'
    first
      | with_reducible assumption
      | intro _
      | with_reducible first | apply powerOn_ok | apply ok_ite | apply good_stay | apply good_onDev | apply good_onUnit | apply good_onBlock | apply good_onRegion | apply good_onChip | apply good_ite
      | split
      | dsimp only

theorem execRstNLow_ok {ns : Nat} {s : State} (h_s : Ok s.dev) : Good s (execRstNLow ns s) := by
  unfold execRstNLow
  repeat'
    first
      | with_reducible assumption
      | intro _
      | with_reducible first | apply ok_flag | apply ok_free | apply chipReset_ok | apply ok_ite | apply good_stay | apply good_onDev | apply good_onUnit | apply good_onBlock | apply good_onRegion | apply good_onChip | apply good_ite
      | with_reducible refine ok_snd (by assumption) ?_
      | split
      | with_reducible apply ok_mk

theorem strapSample_ok {d : Dev} {b : Straps} (h_d : Ok d) : Ok (strapSample d b) := by
  unfold strapSample
  repeat'
    first
      | with_reducible assumption
      | intro _
      | with_reducible first | apply ok_setReg | apply ok_ite
      | split
      | dsimp only

theorem execRstNRise_ok {balls : Straps} {s : State} (h_s : Ok s.dev) : Good s (execRstNRise balls s) := by
  unfold execRstNRise
  repeat'
    first
      | with_reducible assumption
      | intro _
      | with_reducible first | apply romStart_ok | apply strapSample_ok | apply ok_ite | apply good_stay | apply good_onDev | apply good_onUnit | apply good_onBlock | apply good_onRegion | apply good_onChip | apply good_ite
      | split
      | dsimp only

theorem execStrapChange_ok {balls : Straps} {s : State} (h_s : Ok s.dev) : Good s (execStrapChange balls s) := by
  unfold execStrapChange
  repeat'
    first
      | with_reducible assumption
      | intro _
      | with_reducible first | apply ok_flag | apply strapSample_ok | apply ok_ite | apply good_stay | apply good_onDev | apply good_onUnit | apply good_onBlock | apply good_onRegion | apply good_onChip | apply good_ite
      | split
      | dsimp only

theorem swRstDo_ok {d : Dev} {w : Word} (h_d : Ok d) : Ok (swRstDo d w) := by
  unfold swRstDo
  repeat'
    first
      | with_reducible assumption
      | intro _
      | with_reducible first | apply ok_put | apply ok_flag | apply chipReset_ok | apply romStart_ok | apply ok_ite
      | split
      | dsimp only

theorem swRstHost_ok {s : State} {h : Master} {w : Word} (h_s : Ok s.dev) : Good s (swRstHost s h w) := by
  unfold swRstHost
  repeat'
    first
      | with_reducible assumption
      | intro _
      | with_reducible first | apply hostCmd_ok | apply unguard_ok | apply swRstDo_ok | apply ok_ite | apply good_stay | apply good_onDev | apply good_onUnit | apply good_onBlock | apply good_onRegion | apply good_onChip | apply good_ite
      | split
      | dsimp only

theorem execSoftwareChipReset_ok {h : Master} {w : Word} {s : State} (h_s : Ok s.dev) : Good s (execSoftwareChipReset h w s) := by
  unfold execSoftwareChipReset
  repeat'
    first
      | with_reducible assumption
      | intro _
      | with_reducible first | apply swRstHost_ok | apply ok_ite | apply good_stay | apply good_onDev | apply good_onUnit | apply good_onBlock | apply good_onRegion | apply good_onChip | apply good_ite
      | split
      | dsimp only

theorem execFailureReset_ok {s : State} (h_s : Ok s.dev) : Good s (execFailureReset s) := by
  unfold execFailureReset
  repeat'
    first
      | with_reducible assumption
      | intro _
      | with_reducible first | apply ok_flag | apply chipReset_ok | apply romStart_ok | apply ok_ite | apply good_stay | apply good_onDev | apply good_onUnit | apply good_onBlock | apply good_onRegion | apply good_onChip | apply good_ite
      | split
      | with_reducible apply ok_mk

theorem classPut_ok {d : Dev} {b : Fin 5} {good : Bool} {v3 : Bool} (h_d : Ok d) : Ok (classPut d b good v3) := by
  unfold classPut
  repeat'
    first
      | with_reducible assumption
      | intro _
      | with_reducible first | apply ok_put | apply ok_putB | apply ok_ite
      | split
      | dsimp only

theorem gatesFollow_ok {d : Dev} {n : Fin 4} (h_d : Ok d) : Ok (gatesFollow d n) := by
  unfold gatesFollow
  repeat'
    first
      | with_reducible assumption
      | intro _
      | with_reducible first | apply legsSafe_ok | apply setSafe_ok | apply ok_ite | apply ok_forAll
      | (with_reducible refine ok_leg ?_ ?_ <;> first | with_reducible assumption | exact fun hg => leg_same hg rfl rfl rfl rfl | skip)
      | (with_reducible refine ok_legs ?_ ?_ <;> first | with_reducible assumption | exact fun _ hg => leg_same hg rfl rfl rfl rfl | skip)
      | (with_reducible refine ok_onB ?_ ?_ <;> first | with_reducible assumption | exact fun _ h => blk_same h rfl rfl rfl | exact fun _ h => blk_noClr h rfl rfl rfl | exact fun _ h => blk_map h rfl rfl rfl fun _ hg => leg_same hg rfl rfl rfl rfl | skip)
      | exact blk_same (by assumption) rfl rfl rfl
      | split
      | dsimp only

theorem execSupplyFall_ok {v : Supply} {s : State} (h_s : Ok s.dev) : Good s (execSupplyFall v s) := by
  unfold execSupplyFall
  repeat'
    first
      | with_reducible assumption
      | intro _
      | with_reducible first | apply ok_put | apply powerOn_ok | apply classPut_ok | apply gatesFollow_ok | apply ok_ite | apply good_stay | apply good_onDev | apply good_onUnit | apply good_onBlock | apply good_onRegion | apply good_onChip | apply good_ite
      | split
      | with_reducible apply ok_mk

theorem execSupplyRise_ok {v : Supply} {s : State} (h_s : Ok s.dev) : Good s (execSupplyRise v s) := by
  unfold execSupplyRise
  repeat'
    first
      | with_reducible assumption
      | intro _
      | with_reducible first | apply ok_put | apply ok_flag | apply gatesFollow_ok | apply ok_ite | apply ok_forAll | apply good_stay | apply good_onDev | apply good_onUnit | apply good_onBlock | apply good_onRegion | apply good_onChip | apply good_ite
      | split
      | with_reducible apply ok_mk

theorem execBankClassing_ok {b : Fin 5} {is3v3 : Bool} {s : State} (h_s : Ok s.dev) : Good s (execBankClassing b is3v3 s) := by
  unfold execBankClassing
  repeat'
    first
      | with_reducible assumption
      | intro _
      | with_reducible first | apply classPut_ok | apply ok_ite | apply good_stay | apply good_onDev | apply good_onUnit | apply good_onBlock | apply good_onRegion | apply good_onChip | apply good_ite
      | split
      | with_reducible apply ok_mk

theorem execPllLock_ok {s : State} (h_s : Ok s.dev) : Good s (execPllLock s) := by
  unfold execPllLock
  repeat'
    first
      | with_reducible assumption
      | intro _
      | with_reducible first | apply ok_flag | apply ok_ite | apply good_stay | apply good_onDev | apply good_onUnit | apply good_onBlock | apply good_onRegion | apply good_onChip | apply good_ite
      | split
      | with_reducible apply ok_mk

theorem clockRole_ok {d : Dev} (h_d : Ok d) : Ok (clockRole d) := by
  unfold clockRole
  extract_lets +onlyGivenNames v0 v1 v2 v3
  try clear_value v0
  have h_v1 : Ok v1 := by
    unfold v1
    repeat'
      first
        | with_reducible assumption
        | intro _
        | with_reducible first | apply ok_clr | apply ok_onTw | apply ok_raise | apply setRole_ok | apply ownDrop_ok | apply linkLost_ok | apply ok_ite
        | split
        | dsimp only
  try clear_value v1
  have h_v2 : Ok v2 := by
    unfold v2
    repeat'
      first
        | with_reducible assumption
        | intro _
        | with_reducible first | apply ok_clr | apply ok_onTw | apply ok_raise | apply setRole_ok | apply ownDrop_ok | apply linkLost_ok | apply ok_ite
        | split
        | dsimp only
  try clear_value v2
  have h_v3 : Ok v3 := by
    unfold v3
    repeat'
      first
        | with_reducible assumption
        | intro _
        | with_reducible first | apply ok_clr | apply ok_onTw | apply ok_raise | apply setRole_ok | apply ownDrop_ok | apply linkLost_ok | apply ok_ite
        | split
        | dsimp only
  try clear_value v3
  repeat'
    first
      | with_reducible assumption
      | intro _
      | with_reducible first | apply ok_clr | apply ok_onTw | apply ok_raise | apply setRole_ok | apply ownDrop_ok | apply linkLost_ok | apply ok_ite
      | split
      | dsimp only

theorem clockLoss_ok {d : Dev} {f : RF Unit} (h_d : Ok d) : Ok (clockLoss d f) := by
  unfold clockLoss
  repeat'
    first
      | with_reducible assumption
      | intro _
      | with_reducible first | apply ok_put | apply ok_flag | apply ok_clr | apply ok_incSat | apply ok_raise | apply quench_ok | apply domRecheckAll_ok | apply portsOff_ok | apply clockRole_ok | apply ok_ite | apply ok_forAll
      | split
      | with_reducible apply ok_mk

theorem execRefclkLoss_ok {s : State} (h_s : Ok s.dev) : Good s (execRefclkLoss s) := by
  unfold execRefclkLoss
  repeat'
    first
      | with_reducible assumption
      | intro _
      | with_reducible first | apply clockLoss_ok | apply ok_ite | apply good_stay | apply good_onDev | apply good_onUnit | apply good_onBlock | apply good_onRegion | apply good_onChip | apply good_ite
      | split
      | dsimp only

theorem execPllUnlock_ok {s : State} (h_s : Ok s.dev) : Good s (execPllUnlock s) := by
  unfold execPllUnlock
  repeat'
    first
      | with_reducible assumption
      | intro _
      | with_reducible first | apply clockLoss_ok | apply ok_ite | apply good_stay | apply good_onDev | apply good_onUnit | apply good_onBlock | apply good_onRegion | apply good_onChip | apply good_ite
      | split
      | dsimp only

theorem execClockRecovery_ok {s : State} (h_s : Ok s.dev) : Good s (execClockRecovery s) := by
  unfold execClockRecovery
  repeat'
    first
      | with_reducible assumption
      | intro _
      | with_reducible first | apply ok_flag | apply ok_onTw | apply domRecheckAll_ok | apply portRestart_ok | apply ok_ite | apply ok_forAll | apply good_stay | apply good_onDev | apply good_onUnit | apply good_onBlock | apply good_onRegion | apply good_onChip | apply good_ite
      | split
      | with_reducible apply ok_mk

theorem sfwRun_ok {d : Dev} {f : SfwImage} (h_d : Ok d) : Ok (sfwRun d f) := by
  unfold sfwRun
  extract_lets +onlyGivenNames v0 v1 v2
  have h_v0 : Ok v0 := by
    unfold v0
    repeat'
      first
        | with_reducible assumption
        | intro _
        | with_reducible first | apply ok_put | apply ok_clr | apply ok_raise | apply setSfw_ok | apply ok_ite | apply ok_foldl | apply ok_foldl_fst | apply ok_foldl_snd
        | split
        | with_reducible apply ok_mk
  try clear_value v0
  have h_v1 : Ok v1 := by
    unfold v1
    repeat'
      first
        | with_reducible assumption
        | intro _
        | with_reducible first | apply ok_put | apply ok_clr | apply ok_raise | apply setSfw_ok | apply ok_ite | apply ok_foldl | apply ok_foldl_fst | apply ok_foldl_snd
        | split
        | with_reducible apply ok_mk
  try clear_value v1
  try clear_value v2
  repeat'
    first
      | with_reducible assumption
      | intro _
      | with_reducible first | apply ok_put | apply ok_clr | apply ok_raise | apply setSfw_ok | apply ok_ite | apply ok_foldl | apply ok_foldl_fst | apply ok_foldl_snd
      | split
      | with_reducible apply ok_mk

theorem sfwFrom_ok {d : Dev} {b : Bool} {fb : Bool} (h_d : Ok d) : Ok (sfwFrom d b fb) := by
  unfold sfwFrom
  split
  all_goals
    repeat'
      first
        | with_reducible assumption
        | intro _
        | with_reducible first | apply ok_putB | apply sfwRun_ok | apply ok_ite
        | split
        | dsimp only

theorem sfwPick_ok {d : Dev} {b : Bool} (h_d : Ok d) : Ok (sfwPick d b) := by
  unfold sfwPick
  split
  · exact sfwFrom_ok h_d
  · exact ok_ite (sfwFrom_ok (bootCause_ok h_d)) (ok_mk (bootCause_ok h_d))

theorem trialRevert_ok {d : Dev} {code : Nat} (h_d : Ok d) : Ok (trialRevert d code) := by
  unfold trialRevert
  extract_lets +onlyGivenNames v0 v1 v2 v3
  have h_v0 : Ok v0 := by
    unfold v0
    repeat'
      first
        | with_reducible assumption
        | intro _
        | with_reducible first | apply ok_raise | apply bootCause_ok | apply recWrite_ok | apply chipHeld_ok | apply ok_ite
        | split
        | with_reducible apply ok_mk
  try clear_value v0
  have h_v1 : Ok v1 := by
    unfold v1
    repeat'
      first
        | with_reducible assumption
        | intro _
        | with_reducible first | apply ok_raise | apply bootCause_ok | apply recWrite_ok | apply chipHeld_ok | apply ok_ite
        | split
        | with_reducible apply ok_mk
  try clear_value v1
  have h_v2 : Ok v2 := by
    unfold v2
    repeat'
      first
        | with_reducible assumption
        | intro _
        | with_reducible first | apply ok_raise | apply bootCause_ok | apply recWrite_ok | apply chipHeld_ok | apply ok_ite
        | split
        | with_reducible apply ok_mk
  try clear_value v2
  have h_v3 : Ok v3 := by
    unfold v3
    repeat'
      first
        | with_reducible assumption
        | intro _
        | with_reducible first | apply ok_raise | apply bootCause_ok | apply recWrite_ok | apply chipHeld_ok | apply ok_ite
        | split
        | with_reducible apply ok_mk
  try clear_value v3
  repeat'
    first
      | with_reducible assumption
      | intro _
      | with_reducible first | apply ok_raise | apply bootCause_ok | apply recWrite_ok | apply chipHeld_ok | apply ok_ite
      | split
      | with_reducible apply ok_mk

theorem sfwTrial_ok {d : Dev} (h_d : Ok d) : Ok (sfwTrial d) := by
  unfold sfwTrial
  repeat'
    first
      | with_reducible assumption
      | intro _
      | with_reducible first | apply recWrite_ok | apply setSfw_ok | apply calMigrate_ok | apply sfwPick_ok | apply trialRevert_ok | apply ok_ite
      | with_reducible refine ok_snd (by assumption) ?_
      | split
      | dsimp only

theorem flTrain_ok {d : Dev} {b : Bool} (h_d : Ok d) : Ok (flTrain d b) := by
  unfold flTrain
  repeat'
    first
      | with_reducible assumption
      | intro _
      | with_reducible first | apply ok_free | apply bootCause_ok | apply ok_ite
      | with_reducible refine ok_snd (by assumption) ?_
      | split
      | dsimp only

theorem sfwSelect_ok {d : Dev} (h_d : Ok d) : Ok (sfwSelect d) := by
  unfold sfwSelect
  split
  all_goals
    repeat'
      first
        | with_reducible assumption
        | intro _
        | with_reducible first | apply bootCause_ok | apply sfwPick_ok | apply sfwTrial_ok | apply flTrain_ok | apply ok_ite
        | split
        | dsimp only

theorem sfwServes_ok {d : Dev} (h_d : Ok d) : Ok (sfwServes d) := by
  unfold sfwServes
  repeat'
    first
      | with_reducible assumption
      | intro _
      | with_reducible first | apply srcServe_ok | apply ok_ite
      | split
      | dsimp only

theorem execSfwStart_ok {s : State} (h_s : Ok s.dev) : Good s (execSfwStart s) := by
  unfold execSfwStart
  repeat'
    first
      | with_reducible assumption
      | intro _
      | with_reducible first | apply sfwSelect_ok | apply sfwServes_ok | apply ok_ite | apply good_stay | apply good_onDev | apply good_onUnit | apply good_onBlock | apply good_onRegion | apply good_onChip | apply good_ite
      | split
      | dsimp only

theorem startGoDo_ok {d : Dev} (h_d : Ok d) : Ok (startGoDo d) := by
  unfold startGoDo
  repeat'
    first
      | with_reducible assumption
      | intro _
      | with_reducible first | apply ok_flag | apply bootCause_ok | apply sfwRun_ok | apply flTrain_ok | apply sfwServes_ok | apply ok_ite
      | split
      | dsimp only

theorem startGoHost_ok {s : State} {h : Master} {chg : Nat} (h_s : Ok s.dev) : Good s (startGoHost s h chg) := by
  unfold startGoHost
  repeat'
    first
      | with_reducible assumption
      | intro _
      | with_reducible first | apply hostCmd_ok | apply unguard_ok | apply startGoDo_ok | apply ok_ite | apply good_stay | apply good_onDev | apply good_onUnit | apply good_onBlock | apply good_onRegion | apply good_onChip | apply good_ite
      | split
      | dsimp only

theorem execStartGo_ok {h : Master} {s : State} (h_s : Ok s.dev) : Good s (execStartGo h s) := by
  unfold execStartGo
  repeat'
    first
      | with_reducible assumption
      | intro _
      | with_reducible first | apply startGoHost_ok | apply ok_ite | apply good_stay | apply good_onDev | apply good_onUnit | apply good_onBlock | apply good_onRegion | apply good_onChip | apply good_ite
      | split
      | dsimp only

theorem execTwinTrainTimeout_ok {s : State} (h_s : Ok s.dev) : Good s (execTwinTrainTimeout s) := by
  unfold execTwinTrainTimeout
  repeat'
    first
      | with_reducible assumption
      | intro _
      | with_reducible first | apply ok_onTw | apply claimStart_ok | apply startLoad_ok | apply ok_ite | apply good_stay | apply good_onDev | apply good_onUnit | apply good_onBlock | apply good_onRegion | apply good_onChip | apply good_ite
      | split
      | dsimp only

theorem modeWrite_ok {d : Dev} {w : Word} (h_d : Ok d) : Ok (modeWrite d w) := by
  unfold modeWrite
  extract_lets +onlyGivenNames v0 v1 v2 v3
  try clear_value v0
  have h_v1 : Ok v1 := by
    unfold v1
    repeat'
      first
        | with_reducible assumption
        | intro _
        | with_reducible first | apply ok_flag | apply ok_clr | apply mCfg_ok | apply ok_ite
        | split
        | dsimp only
  try clear_value v1
  have h_v2 : Ok v2 := by
    unfold v2
    repeat'
      first
        | with_reducible assumption
        | intro _
        | with_reducible first | apply ok_flag | apply ok_clr | apply mCfg_ok | apply ok_ite
        | split
        | dsimp only
  try clear_value v2
  have h_v3 : Ok v3 := by
    unfold v3
    repeat'
      first
        | with_reducible assumption
        | intro _
        | with_reducible first | apply ok_flag | apply ok_clr | apply mCfg_ok | apply ok_ite
        | split
        | dsimp only
  try clear_value v3
  repeat'
    first
      | with_reducible assumption
      | intro _
      | with_reducible first | apply ok_flag | apply ok_clr | apply mCfg_ok | apply ok_ite
      | split
      | dsimp only

theorem modeHost_ok {s : State} {h : Master} {w : Word} (h_s : Ok s.dev) : Good s (modeHost s h w) := by
  unfold modeHost
  repeat'
    first
      | with_reducible assumption
      | intro _
      | with_reducible first | apply hostW_ok | apply modeWrite_ok | apply ok_ite | apply good_stay | apply good_onDev | apply good_onUnit | apply good_onBlock | apply good_onRegion | apply good_onChip | apply good_ite
      | split
      | dsimp only

theorem execHeatWrite_ok {h : Master} {w : Word} {s : State} (h_s : Ok s.dev) : Good s (execHeatWrite h w s) := by
  unfold execHeatWrite
  repeat'
    first
      | with_reducible assumption
      | intro _
      | with_reducible first | apply modeHost_ok | apply ok_ite | apply good_stay | apply good_onDev | apply good_onUnit | apply good_onBlock | apply good_onRegion | apply good_onChip | apply good_ite
      | split
      | dsimp only

theorem execLegacyWrite_ok {h : Master} {w : Word} {s : State} (h_s : Ok s.dev) : Good s (execLegacyWrite h w s) := by
  unfold execLegacyWrite
  repeat'
    first
      | with_reducible assumption
      | intro _
      | with_reducible first | apply modeHost_ok | apply ok_ite | apply good_stay | apply good_onDev | apply good_onUnit | apply good_onBlock | apply good_onRegion | apply good_onChip | apply good_ite
      | split
      | dsimp only

theorem stallsGone_ok {d : Dev} {m : Master} (h_d : Ok d) : Ok (stallsGone d m) := by
  refine ⟨h_d.regs, h_d.hwin, fun n => ?_, h_d.src, h_d.targ, h_d.blk⟩
  have h := h_d.rgn n
  rw [show (stallsGone d m).r n = { d.r n with queue := (d.r n).queue.map fun x =>
    { x with stalls := x.stalls.filter fun e => e.1 != m } } from by simp [stallsGone, Dev.r, vget]]
  exact rgn_same h rfl rfl rfl rfl rfl

theorem fnReset_ok {d : Dev} {f : Fin 2} (h_d : Ok d) : Ok (fnReset d f) := by
  unfold fnReset
  extract_lets +onlyGivenNames v0
  have h_v0 : Ok v0 := by
    unfold v0
    repeat'
      first
        | with_reducible assumption
        | intro _
        | with_reducible first | apply chanFnGone_ok | apply unclaimH0_ok | apply stallsGone_ok | apply ok_ite
        | split
        | with_reducible apply ok_mk
  try clear_value v0
  repeat'
    first
      | with_reducible assumption
      | intro _
      | with_reducible first | apply chanFnGone_ok | apply unclaimH0_ok | apply stallsGone_ok | apply ok_ite
      | split
      | with_reducible apply ok_mk

theorem execPerstN_ok {s : State} (h_s : Ok s.dev) : Good s (execPerstN s) := by
  unfold execPerstN
  repeat'
    first
      | with_reducible assumption
      | intro _
      | with_reducible first | apply fnReset_ok | apply ok_ite | apply good_stay | apply good_onDev | apply good_onUnit | apply good_onBlock | apply good_onRegion | apply good_onChip | apply good_ite
      | split
      | with_reducible apply ok_mk

theorem execPerstNRise_ok {s : State} (h_s : Ok s.dev) : Good s (execPerstNRise s) := by
  unfold execPerstNRise
  repeat'
    first
      | with_reducible assumption
      | intro _
      | with_reducible first | apply ok_ite | apply good_stay | apply good_onDev | apply good_onUnit | apply good_onBlock | apply good_onRegion | apply good_onChip | apply good_ite
      | split
      | with_reducible apply ok_mk

theorem execFunctionLevelReset_ok {f : Fin 2} {s : State} (h_s : Ok s.dev) : Good s (execFunctionLevelReset f s) := by
  unfold execFunctionLevelReset
  repeat'
    first
      | with_reducible assumption
      | intro _
      | with_reducible first | apply fnReset_ok | apply ok_ite | apply good_stay | apply good_onDev | apply good_onUnit | apply good_onBlock | apply good_onRegion | apply good_onChip | apply good_ite
      | split
      | dsimp only

theorem d3Enter_ok {d : Dev} {f : Fin 2} (h_d : Ok d) : Ok (d3Enter d f) := by
  unfold d3Enter
  repeat'
    first
      | with_reducible assumption
      | intro _
      | with_reducible first | apply chanFnGone_ok | apply signal_ok | apply ok_ite
      | split
      | with_reducible apply ok_mk

theorem execD3hotEntry_ok {f : Fin 2} {s : State} (h_s : Ok s.dev) : Good s (execD3hotEntry f s) := by
  unfold execD3hotEntry
  repeat'
    first
      | with_reducible assumption
      | intro _
      | with_reducible first | apply d3Enter_ok | apply ok_ite | apply good_stay | apply good_onDev | apply good_onUnit | apply good_onBlock | apply good_onRegion | apply good_onChip | apply good_ite
      | split
      | dsimp only

theorem d0Enter_ok {d : Dev} {f : Fin 2} (h_d : Ok d) : Ok (d0Enter d f) := by
  unfold d0Enter
  repeat'
    first
      | with_reducible assumption
      | intro _
      | with_reducible first | apply onTarg_ok | apply signal_ok | apply ok_ite
      | split
      | with_reducible apply ok_mk

theorem msiEnable_ok {d : Dev} {f : Fin 2} {on : Bool} (h_d : Ok d) : Ok (msiEnable d f on) := by
  unfold msiEnable
  extract_lets +onlyGivenNames v0 v1
  try clear_value v0
  have h_v1 : Ok v1 := by
    unfold v1
    repeat'
      first
        | with_reducible assumption
        | intro _
        | with_reducible first | apply onTarg_ok | apply msiReq_ok | apply ok_ite
        | split
        | with_reducible apply ok_mk
  try clear_value v1
  repeat'
    first
      | with_reducible assumption
      | intro _
      | with_reducible first | apply onTarg_ok | apply msiReq_ok | apply ok_ite
      | split
      | with_reducible apply ok_mk

theorem msiMaskPut_ok {d : Dev} {f : Fin 2} {m : BitVec 32} (h_d : Ok d) : Ok (msiMaskPut d f m) := by
  unfold msiMaskPut
  extract_lets +onlyGivenNames v0 v1 v2 v3
  try clear_value v0
  try clear_value v1
  try clear_value v2
  have h_v3 : Ok v3 := by
    unfold v3
    repeat'
      first
        | with_reducible assumption
        | intro _
        | with_reducible first | apply ok_say | apply ok_ite | apply ok_foldl | apply ok_foldl_fst | apply ok_foldl_snd
        | split
        | with_reducible apply ok_mk
  try clear_value v3
  repeat'
    first
      | with_reducible assumption
      | intro _
      | with_reducible first | apply ok_say | apply ok_ite | apply ok_foldl | apply ok_foldl_fst | apply ok_foldl_snd
      | split
      | with_reducible apply ok_mk

theorem execPcieConfigRequest_ok {f : Fin 2} {r : CfgReq} {s : State} (h_s : Ok s.dev) : Good s (execPcieConfigRequest f r s) := by
  unfold execPcieConfigRequest
  repeat'
    first
      | with_reducible assumption
      | intro _
      | with_reducible first | apply chanFnGone_ok | apply d3Enter_ok | apply d0Enter_ok | apply msiEnable_ok | apply msiMaskPut_ok | apply ok_ite | apply good_stay | apply good_onDev | apply good_onUnit | apply good_onBlock | apply good_onRegion | apply good_onChip | apply good_ite
      | split
      | with_reducible apply ok_mk

theorem execTrstN_ok {s : State} (h_s : Ok s.dev) : Good s (execTrstN s) := by
  unfold execTrstN
  repeat'
    first
      | with_reducible assumption
      | intro _
      | with_reducible first | apply ok_ite | apply good_stay | apply good_onDev | apply good_onUnit | apply good_onBlock | apply good_onRegion | apply good_onChip | apply good_ite
      | split
      | with_reducible apply ok_mk

end Sys2Proof.Machine
end

