-- ==== Sys2Proof/Laws/KeepHostAccess.lean ====
section
/-! SUPPORT. The invariant kept by every operation of Machine/HostAccess.lean. -/

set_option linter.unreachableTactic false
set_option linter.unusedTactic false

namespace Sys2Proof.Machine

theorem good_trans {s t : State} {r : Res} (h : t.pending = s.pending) (hr : Good t r) : Good s r := by
  refine ⟨fun u e => ?_⟩
  obtain ⟨h1, h2⟩ := hr.next u e
  exact ⟨h1.trans h, h2⟩

theorem good_next {s t : State} (h : t.pending = s.pending) (ht : Ok t.dev) : Good s (.next t) := good_trans h (good_stay ht)

theorem thenDo_ok {s : State} {r : Res} {f : State → Res} (hr : Good s r) (hf : ∀ t, Ok t.dev → Good t (f t)) :
    Good s (thenDo r f) := by
  unfold thenDo
  split
  · obtain ⟨h1, h2⟩ := hr.next _ rfl
    exact good_trans h1 (hf _ h2)
  · refine ⟨?_⟩; rintro t ⟨⟩
  · refine ⟨?_⟩; rintro t ⟨⟩

theorem rsvOnly_ok {s : State} {h : Master} {a : Nat} {u : Nat} {chg : Nat} (h_s : Ok s.dev) : Good s (rsvOnly s h a u chg) := by
  unfold rsvOnly
  repeat'
    first
      | with_reducible assumption
      | intro _
      | with_reducible first | apply hostW_ok | apply ok_ite | apply good_stay | apply good_onDev | apply good_onUnit | apply good_onBlock | apply good_onRegion | apply good_onChip | apply good_ite
      | split
      | dsimp only

theorem plainHost_ok {s : State} {h : Master} {f : RegFam} {a : Nat} {w : Word} (h_s : Ok s.dev) : Good s (plainHost s h f a w) := by
  unfold plainHost
  repeat'
    first
      | with_reducible assumption
      | intro _
      | with_reducible first | apply hostW_ok | apply plainWrite_ok | apply ok_ite | apply good_stay | apply good_onDev | apply good_onUnit | apply good_onBlock | apply good_onRegion | apply good_onChip | apply good_ite
      | split
      | dsimp only

theorem plainMir_ok {s : State} {h : Master} {f : RegFam} {a : Nat} {w : Word} {blk : Option (Fin 16)} (h_s : Ok s.dev) : Good s (plainMir s h f a w blk) := by
  unfold plainMir
  repeat'
    first
      | with_reducible assumption
      | intro _
      | with_reducible first | apply hostW_ok | apply mirHost_ok | apply plainWrite_ok | apply ok_ite | apply good_stay | apply good_onDev | apply good_onUnit | apply good_onBlock | apply good_onRegion | apply good_onChip | apply good_ite
      | split
      | dsimp only

theorem cmdBit_ok {s : State} {h : Master} {a bit rsv : Nat} {w : Word} {go : State → Res} (h_s : Ok s.dev)
    (h_go : Good s (go s)) : Good s (cmdBit s h a bit rsv w go) := good_ite h_go (rsvOnly_ok h_s)

theorem cmdBitMir_ok {s : State} {h : Master} {a bit rsv : Nat} {w : Word} {go : State → Res} (h_s : Ok s.dev)
    (h_go : Good s (go s)) : Good s (cmdBitMir s h a bit rsv w go) :=
  good_ite h_go (hostW_ok h_s fun _ h => ok_ite (ok_inc h) h)

theorem good_some {s : State} {r x : Res} (e : some x = some r) (h : Good s x) : Good s r := by
  injection e with e; exact e ▸ h

theorem writeBlock_ok {s : State} {h : Master} {f : RegFam} {ix : List Nat} {a : Nat} {w : Word} {r : Res}
    (e : writeBlock s h f ix a w = some r) (h_s : Ok s.dev) : Good s r := by
  unfold writeBlock at e
  extract_lets nn at e
  clear_value nn
  split at e
  all_goals first
    | refine good_some e ?_
    | injection e
  all_goals first
    | with_reducible exact bkCtlHost_ok h_s
    | with_reducible exact rctlHost_ok h_s
    | with_reducible exact qctlHost_ok h_s
    | with_reducible exact kCtlHost_ok h_s
    | with_reducible exact cmdBitMir_ok h_s (execHspCommit_ok h_s)
    | with_reducible exact cmdBitMir_ok h_s (execReval_ok h_s)
    | with_reducible exact cmdBitMir_ok h_s (execRearm_ok h_s)
    | with_reducible exact execSegwrWrite_ok h_s
    | with_reducible exact execSegmentWrite_ok h_s
    | with_reducible exact plainMir_ok h_s

theorem writeRgn_ok {s : State} {h : Master} {f : RegFam} {ix : List Nat} {a : Nat} {w : Word} {r : Res}
    (e : writeRgn s h f ix a w = some r) (h_s : Ok s.dev) : Good s r := by
  unfold writeRgn at e
  extract_lets p q i at e
  clear_value p q i
  split at e
  all_goals first
    | refine good_some e ?_
    | injection e
  all_goals first
    | with_reducible exact bpCtlHost_ok h_s
    | with_reducible exact execTimingWrite_ok h_s
    | with_reducible exact tqCtlHost_ok h_s
    | with_reducible exact execFilterEntryWrite_ok h_s
    | with_reducible exact plainMir_ok h_s
    | with_reducible exact execPdata_ok h_s
    | with_reducible exact execPend_ok h_s
    | with_reducible exact execAck_ok h_s
    | with_reducible exact qCtlHost_ok h_s
    | with_reducible exact hostCmd_ok h_s fun _ h => ok_inc h

theorem writeChip_ok {s : State} {h : Master} {f : RegFam} {ix : List Nat} {a : Nat} {w : Word} {r : Res}
    (e : writeChip s h f ix a w = some r) (h_s : Ok s.dev) : Good s r := by
  unfold writeChip at e
  extract_lets t c at e
  clear_value t c
  split at e
  all_goals first
    | refine good_some e ?_
    | injection e
  all_goals first
    | with_reducible exact modeHost_ok h_s
    | with_reducible exact good_ite (startGoHost_ok h_s) (rsvOnly_ok h_s)
    | with_reducible exact swRstHost_ok h_s
    | with_reducible exact patCtlHost_ok h_s
    | with_reducible exact cmdBitMir_ok h_s (execSwitch_ok h_s)
    | with_reducible exact execDoorbellWrite_ok h_s
    | with_reducible exact execHoldoffWrite_ok h_s
    | with_reducible exact execSourceRoutingWrite_ok h_s
    | with_reducible exact hostW_ok h_s fun _ h => tCfgWrite_ok h
    | with_reducible exact execComplete_ok h_s
    | with_reducible exact hostW_ok h_s fun _ h => plainWrite_ok h
    | with_reducible exact execChannelCfgWrite_ok h_s
    | with_reducible exact chanCtlHost_ok h_s
    | with_reducible exact execTailWrite_ok h_s
    | with_reducible exact cmdBit_ok h_s (execTraceClear_ok h_s)
    | with_reducible exact twCtlHost_ok h_s
    | with_reducible exact updHost_ok h_s
    | with_reducible exact submitHost_ok h_s

theorem regWrite_ok {s : State} {h : Master} {f : RegFam} {ix : List Nat} {a : Nat} {w : Word} (h_s : Ok s.dev) :
    Good s (regWrite s h f ix a w) := by
  unfold regWrite
  cases h1 : writeBlock s h f ix a w with
  | some x => simpa using writeBlock_ok h1 h_s
  | none => cases h2 : writeRgn s h f ix a w with
    | some x => simpa using writeRgn_ok h2 h_s
    | none => cases h3 : writeChip s h f ix a w with
      | some x => simpa using writeChip_ok h3 h_s
      | none => simpa using plainHost_ok h_s

theorem writeNone_ok {s : State} {h : Master} {a : Nat} {be : Nat} (h_s : Ok s.dev) : Good s (writeNone s h a be) := by
  unfold writeNone
  exact good_onDev h_s fun d hd => ok_ite (Dev_hostErr_ok hd) (ok_ite hd (Dev_hostErr_ok hd))

theorem wordWrite_ok {s : State} {h : Master} {a : Nat} {w : Word} (h_s : Ok s.dev) : Good s (wordWrite s h a w) := by
  unfold wordWrite
  repeat'
    first
      | with_reducible assumption
      | intro _
      | with_reducible first | apply regWrite_ok | apply writeNone_ok | apply ok_ite | apply good_stay | apply good_onDev | apply good_onUnit | apply good_onBlock | apply good_onRegion | apply good_onChip | apply good_ite
      | split
      | dsimp only

theorem narrowWrite_ok {s : State} {h : Master} {a : Nat} {off : Nat} {be : Nat} {bytes : List Byte} (h_s : Ok s.dev) : Good s (narrowWrite s h a off be bytes) := by
  unfold narrowWrite
  repeat'
    first
      | with_reducible assumption
      | intro _
      | with_reducible first | apply Dev_hostErr_ok | apply regWrite_ok | apply writeNone_ok | apply ok_ite | apply good_stay | apply good_onDev | apply good_onUnit | apply good_onBlock | apply good_onRegion | apply good_onChip | apply good_ite
      | split
      | dsimp only

theorem memWrite_ok {s : State} {h : Master} {m : Mem} {o : Nat} {bytes : List Byte} (h_s : Ok s.dev) : Good s (memWrite s h m o bytes) := by
  unfold memWrite
  split
  all_goals
    repeat'
      first
        | with_reducible assumption
        | intro _
        | with_reducible first | apply ok_inc | apply ok_incSat | apply hwPut_ok | apply ok_ite | apply good_stay | apply good_onDev | apply good_onUnit | apply good_onBlock | apply good_onRegion | apply good_onChip | apply good_ite
        | split
        | dsimp only

/-- Words written in turn keep the invariant. -/
theorem wordsWrite_ok {s : State} {h : Master} {a : Nat} {ws : List Word} (h_s : Ok s.dev) :
    Good s (wordsWrite s h a ws).2 := by
  unfold wordsWrite
  generalize ws.zipIdx = l
  generalize hx : ((false, .next s) : Bool × Res) = x
  have h : Good s x.2 := by rw [← hx]; exact good_stay h_s
  clear hx
  induction l generalizing x with
  | nil => exact h
  | cons e l ih =>
    refine ih _ ?_
    dsimp only
    split
    · rename_i t ht
      obtain ⟨h1, h2⟩ := h.next t ht
      exact good_trans h1 (wordWrite_ok h2)
    · exact h

theorem goodWrite_ok {s : State} {h : Master} {a : Nat} {bytes : List Byte} (h_s : Ok s.dev) : Good s (goodWrite s h a bytes) := by
  unfold goodWrite
  extract_lets k word
  clear_value word
  split
  · exact memWrite_ok h_s
  · rename_i r _ _
    have hr : Good s r.2 := by
      unfold r
      split
      · exact wordsWrite_ok h_s
      · split
        · exact wordsWrite_ok h_s
        · exact narrowWrite_ok h_s
    exact thenDo_ok hr fun t ht => good_ite (good_onDev ht fun _ h => aerLog_ok h) (good_stay ht)

theorem execRegisterWrite_ok {h : Master} {a : BitVec 27} {lanes : List (Option Byte)} {s : State} (h_s : Ok s.dev) : Good s (execRegisterWrite h a lanes s) := by
  unfold execRegisterWrite
  repeat'
    first
      | with_reducible assumption
      | intro _
      | with_reducible first | apply Dev_hostErr_ok | apply aerLog_ok | apply goodWrite_ok | apply ok_ite | apply good_stay | apply good_onDev | apply good_onUnit | apply good_onBlock | apply good_onRegion | apply good_onChip | apply good_ite
      | split
      | dsimp only

theorem popRead_ok {d : Dev} {h : Master} {f : RegFam} {ix : List Nat} (h_d : Ok d) : Ok (popRead d h f ix).2 := by
  unfold popRead
  extract_lets +onlyGivenNames v0
  try clear_value v0
  repeat'
    first
      | with_reducible assumption
      | intro _
      | with_reducible first | apply popTry_ok | apply claimTake_ok | apply frTake_ok | apply ok_ite
      | with_reducible refine ok_snd (by assumption) ?_
      | split
      | dsimp only

theorem wordRead_ok {d : Dev} {h : Master} {a : Nat} {be : Nat} {low : Option Word} (h_d : Ok d) : Ok (wordRead d h a be low).2.2 := by
  unfold wordRead
  repeat'
    first
      | with_reducible assumption
      | intro _
      | with_reducible first | apply Dev_hostErr_ok | apply wake_ok | apply popStall_ok | apply wakeRead_ok | apply popRead_ok | apply ok_ite
      | with_reducible refine ok_snd (by assumption) ?_
      | split
      | dsimp only

theorem wordsRead_ok {d : Dev} {h : Master} {a : Nat} {n : Nat} {be : Nat} (h_d : Ok d) : Ok (wordsRead d h a n be).2.2 := by
  unfold wordsRead
  generalize List.range n = l
  generalize hx : ((some [], false, d) : Option (List Word) × Bool × Dev) = x
  have h : Ok x.2.2 := by rw [← hx]; exact h_d
  clear hx
  induction l generalizing x with
  | nil => exact h
  | cons i l ih =>
    refine ih _ ?_
    dsimp only
    split
    · exact h
    · exact wordRead_ok h

/-- A stop in a read answers no state. -/
theorem good_fault {s : State} {e : Fault} : Good s (.fault e) := by
  refine ⟨?_⟩; rintro t ⟨⟩

theorem onRead_ok {s : State} {a n : Nat} {f : Dev → Dev} (h_s : Ok s.dev) (hf : ∀ d, Ok d → Ok (f d)) :
    Good s (onRead s a n f) := by
  unfold onRead
  split
  · exact good_fault
  · exact good_onDev h_s hf

theorem execHostReadError_ok {h : Master} {a : BitVec 27} {bytes : Nat} {contig : Bool} {s : State} (h_s : Ok s.dev) :
    Good s (execHostReadError h a bytes contig s) := by
  unfold execHostReadError
  extract_lets a1 a4 n
  refine good_ite (good_stay h_s) (good_ite (good_onDev h_s fun _ h => answer_ok h) (good_ite ?_ (good_ite ?_ ?_)))
  · exact good_onDev h_s fun _ h => answer_ok (Dev_hostErr_ok (ok_free h))
  · exact good_onDev h_s fun _ h => answer_ok (Dev_hostErr_ok h)
  · refine onRead_ok h_s fun d hd => ?_
    have h1 : Ok (wordsRead d h a4 n (beOf a1 bytes)).2.2 := wordsRead_ok hd
    generalize wordsRead d h a4 n (beOf a1 bytes) = x at h1
    obtain ⟨ws, bad, d⟩ := x
    refine failCheck_ok ?_
    split
    · exact answer_ok h1
    · exact h1

theorem shpErr_ok {d : Dev} {kind : Nat} {write : Bool} {a : Word} (h_d : Ok d) : Ok (shpErr d kind write a) := by
  unfold shpErr
  repeat'
    first
      | with_reducible assumption
      | intro _
      | with_reducible first | apply Dev_hostErr_ok | apply ok_ite
      | split
      | dsimp only

theorem shpWords_ok {s : State} {a : Nat} {ws : List Word} (h_s : Ok s.dev) : Good s (shpWords s a ws).2 := by
  unfold shpWords
  generalize ws.zipIdx = l
  generalize hx : ((0, .next s) : Nat × Res) = x
  have h : Good s x.2 := by rw [← hx]; exact good_stay h_s
  clear hx
  induction l generalizing x with
  | nil => exact h
  | cons e l ih =>
    refine ih _ ?_
    dsimp only
    split
    · rename_i t ht
      obtain ⟨h1, h2⟩ := h.next t ht
      split
      · exact good_trans h1 (good_onDev h2 fun _ h => Dev_hostErr_ok h)
      · dsimp only
        refine good_trans h1 ?_
        split
        · exact good_ite (memWrite_ok h2) (good_stay h2)
        · exact wordWrite_ok h2
    · exact h

theorem shpWrite_ok {a : Word} {ws : List Word} {crc : Byte} {say : Bool} {s : State} (h_s : Ok s.dev) : Good s (shpWrite a ws crc say s) := by
  unfold shpWrite
  extract_lets n reply
  have hr : ∀ d c, Ok d → Ok (reply d c) := fun d c h => ok_ite (shpSay_ok h) h
  clear_value reply
  refine good_ite (good_stay h_s) (good_ite (good_onDev h_s fun _ h => shpErr_ok h) (good_ite ?_ (good_ite ?_ ?_)))
  · exact good_onDev h_s fun _ h => hr _ _ (shpErr_ok h)
  · exact good_onDev h_s fun _ h => hr _ _ (shpErr_ok h)
  · exact thenDo_ok (shpWords_ok h_s) fun _ ht => good_onDev ht fun _ h => hr _ _ h

theorem execShpWriteFrame_ok {a : Word} {words : List Word} {crc : Byte} {s : State} (h_s : Ok s.dev) : Good s (execShpWriteFrame a words crc s) := by
  unfold execShpWriteFrame
  repeat'
    first
      | with_reducible assumption
      | intro _
      | with_reducible first | apply shpWrite_ok | apply ok_ite | apply good_stay | apply good_onDev | apply good_onUnit | apply good_onBlock | apply good_onRegion | apply good_onChip | apply good_ite
      | split
      | dsimp only

theorem shpWordsRead_ok {d : Dev} {a len : Nat} (h_d : Ok d) : Ok (shpWordsRead d a len) := by
  unfold shpWordsRead
  extract_lets fit
  have h1 : Ok (wordsRead d .shp a fit 15).2.2 := wordsRead_ok h_d
  generalize wordsRead d .shp a fit 15 = x at h1
  obtain ⟨ws, bad, d⟩ := x
  cases ws with
  | none => exact h1
  | some ws => exact ok_ite (shpSay_ok (Dev_hostErr_ok h1)) (shpSay_ok h1)

theorem shpRead_ok {a : Word} {len : Nat} {crc : Byte} {s : State} (h_s : Ok s.dev) : Good s (shpRead a len crc s) := by
  unfold shpRead
  extract_lets zeros
  refine good_ite ?_ (good_ite ?_ (good_ite ?_ (good_ite ?_ ?_)))
  · exact good_onDev h_s fun _ h => shpErr_ok h
  · exact good_onDev h_s fun _ h => shpSay_ok (shpErr_ok h)
  · exact good_onDev h_s fun _ h => shpSay_ok (shpErr_ok h)
  · exact good_onDev h_s fun _ h => shpSay_ok h
  · exact onRead_ok h_s fun _ h => failCheck_ok (shpWordsRead_ok h)

theorem execShpReadFrame_ok {a : Word} {len : Nat} {crc : Byte} {s : State} (h_s : Ok s.dev) : Good s (execShpReadFrame a len crc s) := by
  unfold execShpReadFrame
  repeat'
    first
      | with_reducible assumption
      | intro _
      | with_reducible first | apply shpRead_ok | apply ok_ite | apply good_stay | apply good_onDev | apply good_onUnit | apply good_onBlock | apply good_onRegion | apply good_onChip | apply good_ite
      | split
      | dsimp only

theorem execShpBadCommand_ok {cmd : Byte} {len : Byte} {s : State} (h_s : Ok s.dev) : Good s (execShpBadCommand cmd len s) := by
  unfold execShpBadCommand
  repeat'
    first
      | with_reducible assumption
      | intro _
      | with_reducible first | apply ok_free | apply shpErr_ok | apply ok_ite | apply good_stay | apply good_onDev | apply good_onUnit | apply good_onBlock | apply good_onRegion | apply good_onChip | apply good_ite
      | with_reducible refine ok_snd (by assumption) ?_
      | split
      | dsimp only

theorem shpPopCut_ok {d : Dev} {a : Word} (h_d : Ok d) : Ok (shpPopCut d a) := by
  unfold shpPopCut
  repeat'
    first
      | with_reducible assumption
      | intro _
      | with_reducible first | apply Dev_hostErr_ok | apply popRead_ok | apply shpErr_ok | apply ok_ite
      | with_reducible refine ok_snd (by assumption) ?_
      | split
      | dsimp only

theorem shpReplyCut_ok {d : Dev} {a : Word} (h_d : Ok d) : Ok (shpReplyCut d a) := by
  unfold shpReplyCut
  split
  all_goals
    repeat'
      first
        | with_reducible assumption
        | intro _
        | with_reducible first | apply shpErr_ok | apply ok_ite
        | split
        | with_reducible apply ok_mk

theorem execShpFrameCut_ok {c : ShpCut} {s : State} (h_s : Ok s.dev) : Good s (execShpFrameCut c s) := by
  unfold execShpFrameCut
  repeat'
    first
      | with_reducible assumption
      | intro _
      | with_reducible first | apply onQ_ok | apply failCheck_ok | apply onRead_ok | apply shpWrite_ok | apply shpPopCut_ok | apply shpReplyCut_ok | apply ok_ite | apply good_stay | apply good_onDev | apply good_onUnit | apply good_onBlock | apply good_onRegion | apply good_onChip | apply good_ite
      | split
      | dsimp only

end Sys2Proof.Machine
end

