-- ==== Sys2Proof/Laws/PerInstr.lean ====
section
/-! SUPPORT. What is shown of every command as syntax, one lemma per command: only the commands that carry an operand wider than the hardware can bring can be ill-formed. -/

namespace Sys2Proof.Laws.WellFormed

/-- The commands with an operand that has a bound beside its type. -/
def bounded : Instr → Bool
  | .rstNLow _ => true
  | .registerWrite _ _ _ => true
  | .shpWriteFrame _ _ _ => true
  | .shpReadFrame _ _ _ => true
  | .shpBadCommand _ _ => true
  | .shpFrameCut _ => true
  | .frameReceived _ _ _ _ => true
  | .busBillet _ _ _ => true
  | .busError _ _ => true
  | .owntmoExpire _ _ _ => true
  | .ladleUnitDone _ _ => true
  | .linkUp _ => true
  | .digReceived _ _ _ => true
  | .mwrReceived _ => true
  | .updReceived _ => true
  | .rxfReceived _ _ _ _ _ _ => true
  | .hostReadError _ _ _ _ => true
  | _ => false

/-- A command without such an operand is well-formed whatever its operands are. -/
def Statement (i : Instr) : Prop := bounded i = false → i.wellFormed = true

theorem powerOn : ∀ x0, Statement (.powerOn x0) := fun _ => fun _ => rfl
theorem rstNLow : ∀ x0, Statement (.rstNLow x0) := fun _ => nofun
theorem rstNRise : ∀ x0, Statement (.rstNRise x0) := fun _ => fun _ => rfl
theorem strapChange : ∀ x0, Statement (.strapChange x0) := fun _ => fun _ => rfl
theorem perstN : Statement (.perstN) := fun _ => rfl
theorem functionLevelReset : ∀ x0, Statement (.functionLevelReset x0) := fun _ => fun _ => rfl
theorem d3hotEntry : ∀ x0, Statement (.d3hotEntry x0) := fun _ => fun _ => rfl
theorem trstN : Statement (.trstN) := fun _ => rfl
theorem supplyFall : ∀ x0, Statement (.supplyFall x0) := fun _ => fun _ => rfl
theorem bankClassing : ∀ x0 x1, Statement (.bankClassing x0 x1) := fun _ _ => fun _ => rfl
theorem pllLock : Statement (.pllLock) := fun _ => rfl
theorem refclkLoss : Statement (.refclkLoss) := fun _ => rfl
theorem pllUnlock : Statement (.pllUnlock) := fun _ => rfl
theorem clockRecovery : Statement (.clockRecovery) := fun _ => rfl
theorem sfwStart : Statement (.sfwStart) := fun _ => rfl
theorem startGo : ∀ x0, Statement (.startGo x0) := fun _ => fun _ => rfl
theorem twinTrainTimeout : Statement (.twinTrainTimeout) := fun _ => rfl
theorem softwareChipReset : ∀ x0 x1, Statement (.softwareChipReset x0 x1) := fun _ _ => fun _ => rfl
theorem heatWrite : ∀ x0 x1, Statement (.heatWrite x0 x1) := fun _ _ => fun _ => rfl
theorem legacyWrite : ∀ x0 x1, Statement (.legacyWrite x0 x1) := fun _ _ => fun _ => rfl
theorem registerWrite : ∀ x0 x1 x2, Statement (.registerWrite x0 x1 x2) := fun _ _ _ => nofun
theorem shpWriteFrame : ∀ x0 x1 x2, Statement (.shpWriteFrame x0 x1 x2) := fun _ _ _ => nofun
theorem shpReadFrame : ∀ x0 x1 x2, Statement (.shpReadFrame x0 x1 x2) := fun _ _ _ => nofun
theorem shpBadCommand : ∀ x0 x1, Statement (.shpBadCommand x0 x1) := fun _ _ => nofun
theorem shpFrameCut : ∀ x0, Statement (.shpFrameCut x0) := fun _ => nofun
theorem blockArm : ∀ x0 x1 x2, Statement (.blockArm x0 x1 x2) := fun _ _ _ => fun _ => rfl
theorem blockRun : ∀ x0 x1 x2, Statement (.blockRun x0 x1 x2) := fun _ _ _ => fun _ => rfl
theorem blockStop : ∀ x0 x1 x2, Statement (.blockStop x0 x1 x2) := fun _ _ _ => fun _ => rfl
theorem blockDisarm : ∀ x0 x1 x2, Statement (.blockDisarm x0 x1 x2) := fun _ _ _ => fun _ => rfl
theorem blockReset : ∀ x0 x1 x2, Statement (.blockReset x0 x1 x2) := fun _ _ _ => fun _ => rfl
theorem blockResetDone : ∀ x0, Statement (.blockResetDone x0) := fun _ => fun _ => rfl
theorem patternLoad : ∀ x0 x1, Statement (.patternLoad x0 x1) := fun _ _ => fun _ => rfl
theorem patternLoadDone : ∀ x0, Statement (.patternLoadDone x0) := fun _ => fun _ => rfl
theorem repour : ∀ x0 x1, Statement (.repour x0 x1) := fun _ _ => fun _ => rfl
theorem repourDone : Statement (.repourDone) := fun _ => rfl
theorem swap : ∀ x0 x1 x2, Statement (.swap x0 x1 x2) := fun _ _ _ => fun _ => rfl
theorem lclr : ∀ x0 x1 x2, Statement (.lclr x0 x1 x2) := fun _ _ _ => fun _ => rfl
theorem cycleStart : ∀ x0, Statement (.cycleStart x0) := fun _ => fun _ => rfl
theorem sampleSlot : ∀ x0 x1, Statement (.sampleSlot x0 x1) := fun _ _ => fun _ => rfl
theorem runSlot : ∀ x0 x1, Statement (.runSlot x0 x1) := fun _ _ => fun _ => rfl
theorem kernelAbort : ∀ x0 x1 x2, Statement (.kernelAbort x0 x1 x2) := fun _ _ _ => fun _ => rfl
theorem updateSlot : ∀ x0 x1, Statement (.updateSlot x0 x1) := fun _ _ => fun _ => rfl
theorem publishSlot : ∀ x0 x1, Statement (.publishSlot x0 x1) := fun _ _ => fun _ => rfl
theorem vbTransfer : ∀ x0 x1, Statement (.vbTransfer x0 x1) := fun _ _ => fun _ => rfl
theorem consumeSlot : ∀ x0 x1, Statement (.consumeSlot x0 x1) := fun _ _ => fun _ => rfl
theorem openSlot : ∀ x0 x1, Statement (.openSlot x0 x1) := fun _ _ => fun _ => rfl
theorem captureSlot : ∀ x0 x1, Statement (.captureSlot x0 x1) := fun _ _ => fun _ => rfl
theorem markSlot : ∀ x0 x1, Statement (.markSlot x0 x1) := fun _ _ => fun _ => rfl
theorem watchdogTrip : ∀ x0, Statement (.watchdogTrip x0) := fun _ => fun _ => rfl
theorem runmemError : ∀ x0 x1, Statement (.runmemError x0 x1) := fun _ _ => fun _ => rfl
theorem runmemRewriteDone : ∀ x0, Statement (.runmemRewriteDone x0) := fun _ => fun _ => rfl
theorem stallDeclared : ∀ x0, Statement (.stallDeclared x0) := fun _ => fun _ => rfl
theorem fallbackSwap : ∀ x0, Statement (.fallbackSwap x0) := fun _ => fun _ => rfl
theorem stallRecovery : ∀ x0, Statement (.stallRecovery x0) := fun _ => fun _ => rfl
theorem phaseSourceUpdate : ∀ x0 x1 x2, Statement (.phaseSourceUpdate x0 x1 x2) := fun _ _ _ => fun _ => rfl
theorem sourceTimeout : ∀ x0 x1, Statement (.sourceTimeout x0 x1) := fun _ _ => fun _ => rfl
theorem switch : ∀ x0 x1 x2, Statement (.switch x0 x1 x2) := fun _ _ _ => fun _ => rfl
theorem carrierPeriodStart : ∀ x0 x1, Statement (.carrierPeriodStart x0 x1) := fun _ _ => fun _ => rfl
theorem compareEdge : ∀ x0 x1, Statement (.compareEdge x0 x1) := fun _ _ => fun _ => rfl
theorem deadTimeExpire : ∀ x0 x1, Statement (.deadTimeExpire x0 x1) := fun _ _ => fun _ => rfl
theorem pulseRowTake : ∀ x0, Statement (.pulseRowTake x0) := fun _ => fun _ => rfl
theorem pulseTableEdge : ∀ x0, Statement (.pulseTableEdge x0) := fun _ => fun _ => rfl
theorem tripInput : ∀ x0 x1, Statement (.tripInput x0 x1) := fun _ _ => fun _ => rfl
theorem qinInput : Statement (.qinInput) := fun _ => rfl
theorem twqInput : Statement (.twqInput) := fun _ => rfl
theorem dbgHalt : Statement (.dbgHalt) := fun _ => rfl
theorem jtagHalt : Statement (.jtagHalt) := fun _ => rfl
theorem tdaExpire : ∀ x0 x1, Statement (.tdaExpire x0 x1) := fun _ _ => fun _ => rfl
theorem softQuench : ∀ x0 x1 x2, Statement (.softQuench x0 x1 x2) := fun _ _ _ => fun _ => rfl
theorem quenchClear : ∀ x0 x1 x2, Statement (.quenchClear x0 x1 x2) := fun _ _ _ => fun _ => rfl
theorem filterResult : ∀ x0 x1 x2 x3, Statement (.filterResult x0 x1 x2 x3) := fun _ _ _ _ => fun _ => rfl
theorem fastResult : ∀ x0 x1 x2 x3, Statement (.fastResult x0 x1 x2 x3) := fun _ _ _ _ => fun _ => rfl
theorem mclkLoss : ∀ x0 x1, Statement (.mclkLoss x0 x1) := fun _ _ => fun _ => rfl
theorem mclkRange : ∀ x0 x1, Statement (.mclkRange x0 x1) := fun _ _ => fun _ => rfl
theorem mclkRecover : ∀ x0 x1, Statement (.mclkRecover x0 x1) := fun _ _ => fun _ => rfl
theorem bitstreamStuck : ∀ x0 x1, Statement (.bitstreamStuck x0 x1) := fun _ _ => fun _ => rfl
theorem bitstreamResume : ∀ x0 x1, Statement (.bitstreamResume x0 x1) := fun _ _ => fun _ => rfl
theorem quadCount : ∀ x0 x1 x2, Statement (.quadCount x0 x1 x2) := fun _ _ _ => fun _ => rfl
theorem stepEdge : ∀ x0 x1 x2, Statement (.stepEdge x0 x1 x2) := fun _ _ _ => fun _ => rfl
theorem indexEdge : ∀ x0, Statement (.indexEdge x0) := fun _ => fun _ => rfl
theorem ssiTransferStart : ∀ x0 x1, Statement (.ssiTransferStart x0 x1) := fun _ _ => fun _ => rfl
theorem ssiTransferEnd : ∀ x0 x1 x2, Statement (.ssiTransferEnd x0 x1 x2) := fun _ _ _ => fun _ => rfl
theorem reval : ∀ x0 x1 x2, Statement (.reval x0 x1 x2) := fun _ _ _ => fun _ => rfl
theorem probeEdge : ∀ x0 x1, Statement (.probeEdge x0 x1) := fun _ _ => fun _ => rfl
theorem rearm : ∀ x0 x1 x2, Statement (.rearm x0 x1 x2) := fun _ _ _ => fun _ => rfl
theorem senseInterval : ∀ x0 x1 x2, Statement (.senseInterval x0 x1 x2) := fun _ _ _ => fun _ => rfl
theorem goman : ∀ x0 x1 x2 x3, Statement (.goman x0 x1 x2 x3) := fun _ _ _ _ => fun _ => rfl
theorem goauto : ∀ x0 x1 x2 x3, Statement (.goauto x0 x1 x2 x3) := fun _ _ _ _ => fun _ => rfl
theorem pload : ∀ x0 x1 x2 x3, Statement (.pload x0 x1 x2 x3) := fun _ _ _ _ => fun _ => rfl
theorem preset : ∀ x0 x1 x2 x3, Statement (.preset x0 x1 x2 x3) := fun _ _ _ _ => fun _ => rfl
theorem snap : ∀ x0 x1 x2 x3, Statement (.snap x0 x1 x2 x3) := fun _ _ _ _ => fun _ => rfl
theorem fclr : ∀ x0 x1 x2 x3, Statement (.fclr x0 x1 x2 x3) := fun _ _ _ _ => fun _ => rfl
theorem hspCommit : ∀ x0 x1 x2, Statement (.hspCommit x0 x1 x2) := fun _ _ _ => fun _ => rfl
theorem segwrWrite : ∀ x0 x1 x2, Statement (.segwrWrite x0 x1 x2) := fun _ _ _ => fun _ => rfl
theorem segmentWrite : ∀ x0 x1 x2 x3 x4, Statement (.segmentWrite x0 x1 x2 x3 x4) := fun _ _ _ _ _ => fun _ => rfl
theorem crossbarTimeout : ∀ x0 x1, Statement (.crossbarTimeout x0 x1) := fun _ _ => fun _ => rfl
theorem poolTimeout : ∀ x0 x1, Statement (.poolTimeout x0 x1) := fun _ _ => fun _ => rfl
theorem portStall : ∀ x0, Statement (.portStall x0) := fun _ => fun _ => rfl
theorem regionWindowExpire : ∀ x0, Statement (.regionWindowExpire x0) := fun _ => fun _ => rfl
theorem stewardHeartbeatMiss : ∀ x0, Statement (.stewardHeartbeatMiss x0) := fun _ => fun _ => rfl
theorem stewardCmdTimeout : Statement (.stewardCmdTimeout) := fun _ => rfl
theorem stewardRestartDone : Statement (.stewardRestartDone) := fun _ => rfl
theorem chipFailure : ∀ x0 x1, Statement (.chipFailure x0 x1) := fun _ _ => fun _ => rfl
theorem failureReset : Statement (.failureReset) := fun _ => rfl
theorem failWindowExpire : Statement (.failWindowExpire) := fun _ => rfl
theorem frameReceived : ∀ x0 x1 x2 x3, Statement (.frameReceived x0 x1 x2 x3) := fun _ _ _ _ => nofun
theorem busBillet : ∀ x0 x1 x2, Statement (.busBillet x0 x1 x2) := fun _ _ _ => nofun
theorem protocolException : ∀ x0 x1, Statement (.protocolException x0 x1) := fun _ _ => fun _ => rfl
theorem transmitDecision : ∀ x0, Statement (.transmitDecision x0) := fun _ => fun _ => rfl
theorem frameTransmitted : ∀ x0, Statement (.frameTransmitted x0) := fun _ => fun _ => rfl
theorem arbitrationLost : ∀ x0, Statement (.arbitrationLost x0) := fun _ => fun _ => rfl
theorem busError : ∀ x0 x1, Statement (.busError x0 x1) := fun _ _ => nofun
theorem integrationDone : ∀ x0, Statement (.integrationDone x0) := fun _ => fun _ => rfl
theorem recoverySequence : ∀ x0, Statement (.recoverySequence x0) := fun _ => fun _ => rfl
theorem ardDwellExpire : ∀ x0, Statement (.ardDwellExpire x0) := fun _ => fun _ => rfl
theorem rxDominant : ∀ x0, Statement (.rxDominant x0) := fun _ => fun _ => rfl
theorem portStart : ∀ x0 x1 x2, Statement (.portStart x0 x1 x2) := fun _ _ _ => fun _ => rfl
theorem portStop : ∀ x0 x1 x2, Statement (.portStop x0 x1 x2) := fun _ _ _ => fun _ => rfl
theorem recover : ∀ x0 x1 x2, Statement (.recover x0 x1 x2) := fun _ _ _ => fun _ => rfl
theorem ard : ∀ x0 x1 x2, Statement (.ard x0 x1 x2) := fun _ _ _ => fun _ => rfl
theorem ardstop : ∀ x0 x1 x2, Statement (.ardstop x0 x1 x2) := fun _ _ _ => fun _ => rfl
theorem gonormal : ∀ x0 x1 x2, Statement (.gonormal x0 x1 x2) := fun _ _ _ => fun _ => rfl
theorem golisten : ∀ x0 x1 x2, Statement (.golisten x0 x1 x2) := fun _ _ _ => fun _ => rfl
theorem timingWrite : ∀ x0 x1 x2 x3, Statement (.timingWrite x0 x1 x2 x3) := fun _ _ _ _ => fun _ => rfl
theorem filterEntryWrite : ∀ x0 x1 x2 x3 x4, Statement (.filterEntryWrite x0 x1 x2 x3 x4) := fun _ _ _ _ _ => fun _ => rfl
theorem abortHead : ∀ x0 x1 x2, Statement (.abortHead x0 x1 x2) := fun _ _ _ => fun _ => rfl
theorem windowOpen : ∀ x0 x1, Statement (.windowOpen x0 x1) := fun _ _ => fun _ => rfl
theorem windowClose : ∀ x0 x1, Statement (.windowClose x0 x1) := fun _ _ => fun _ => rfl
theorem pdata : ∀ x0 x1 x2 x3, Statement (.pdata x0 x1 x2 x3) := fun _ _ _ _ => fun _ => rfl
theorem pend : ∀ x0 x1 x2 x3, Statement (.pend x0 x1 x2 x3) := fun _ _ _ _ => fun _ => rfl
theorem pop : ∀ x0 x1 x2, Statement (.pop x0 x1 x2) := fun _ _ _ => fun _ => rfl
theorem popStallTimeout : ∀ x0 x1, Statement (.popStallTimeout x0 x1) := fun _ _ => fun _ => rfl
theorem ack : ∀ x0 x1 x2 x3, Statement (.ack x0 x1 x2 x3) := fun _ _ _ _ => fun _ => rfl
theorem owntmoExpire : ∀ x0 x1 x2, Statement (.owntmoExpire x0 x1 x2) := fun _ _ _ => nofun
theorem slag : ∀ x0 x1 x2 x3, Statement (.slag x0 x1 x2 x3) := fun _ _ _ _ => fun _ => rfl
theorem flush : ∀ x0 x1 x2 x3, Statement (.flush x0 x1 x2 x3) := fun _ _ _ _ => fun _ => rfl
theorem staleExpire : ∀ x0 x1, Statement (.staleExpire x0 x1) := fun _ _ => fun _ => rfl
theorem scrubDone : ∀ x0 x1, Statement (.scrubDone x0 x1) := fun _ _ => fun _ => rfl
theorem rebuildDone : ∀ x0, Statement (.rebuildDone x0) := fun _ => fun _ => rfl
theorem evgMessage : Statement (.evgMessage) := fun _ => rfl
theorem doorbellWrite : ∀ x0 x1, Statement (.doorbellWrite x0 x1) := fun _ _ => fun _ => rfl
theorem holdoffExpire : ∀ x0, Statement (.holdoffExpire x0) := fun _ => fun _ => rfl
theorem claim : ∀ x0 x1, Statement (.claim x0 x1) := fun _ _ => fun _ => rfl
theorem complete : ∀ x0 x1 x2, Statement (.complete x0 x1 x2) := fun _ _ _ => fun _ => rfl
theorem fastRecordRead : ∀ x0 x1 x2, Statement (.fastRecordRead x0 x1 x2) := fun _ _ _ => fun _ => rfl
theorem wakeReleaseRead : ∀ x0 x1, Statement (.wakeReleaseRead x0 x1) := fun _ _ => fun _ => rfl
theorem sleepWrite : ∀ x0 x1, Statement (.sleepWrite x0 x1) := fun _ _ => fun _ => rfl
theorem sourceRoutingWrite : ∀ x0 x1 x2, Statement (.sourceRoutingWrite x0 x1 x2) := fun _ _ _ => fun _ => rfl
theorem holdoffWrite : ∀ x0 x1 x2, Statement (.holdoffWrite x0 x1 x2) := fun _ _ _ => fun _ => rfl
theorem channelStart : ∀ x0 x1 x2, Statement (.channelStart x0 x1 x2) := fun _ _ _ => fun _ => rfl
theorem channelStop : ∀ x0 x1 x2, Statement (.channelStop x0 x1 x2) := fun _ _ _ => fun _ => rfl
theorem channelCfgWrite : ∀ x0 x1 x2, Statement (.channelCfgWrite x0 x1 x2) := fun _ _ _ => fun _ => rfl
theorem tailWrite : ∀ x0 x1 x2, Statement (.tailWrite x0 x1 x2) := fun _ _ _ => fun _ => rfl
theorem ladleItemAvailable : ∀ x0, Statement (.ladleItemAvailable x0) := fun _ => fun _ => rfl
theorem ladleUnitDone : ∀ x0 x1, Statement (.ladleUnitDone x0 x1) := fun _ _ => nofun
theorem gatherExpire : ∀ x0, Statement (.gatherExpire x0) := fun _ => fun _ => rfl
theorem descriptorTimeout : ∀ x0, Statement (.descriptorTimeout x0) := fun _ => fun _ => rfl
theorem pcieError : ∀ x0, Statement (.pcieError x0) := fun _ => fun _ => rfl
theorem traceClear : ∀ x0 x1, Statement (.traceClear x0 x1) := fun _ _ => fun _ => rfl
theorem linkUp : ∀ x0, Statement (.linkUp x0) := fun _ => nofun
theorem linkRetrain : Statement (.linkRetrain) := fun _ => rfl
theorem linkLost : Statement (.linkLost) := fun _ => rfl
theorem hbSend : Statement (.hbSend) := fun _ => rfl
theorem hbReceived : ∀ x0, Statement (.hbReceived x0) := fun _ => fun _ => rfl
theorem digReceived : ∀ x0 x1 x2, Statement (.digReceived x0 x1 x2) := fun _ _ _ => nofun
theorem mwrReceived : ∀ x0, Statement (.mwrReceived x0) := fun _ => nofun
theorem mwrApply : Statement (.mwrApply) := fun _ => rfl
theorem rxrReceived : ∀ x0 x1 x2 x3 x4, Statement (.rxrReceived x0 x1 x2 x3 x4) := fun _ _ _ _ _ => fun _ => rfl
theorem rxfReceived : ∀ x0 x1 x2 x3 x4 x5, Statement (.rxfReceived x0 x1 x2 x3 x4 x5) := fun _ _ _ _ _ _ => nofun
theorem provisionalTimeout : ∀ x0, Statement (.provisionalTimeout x0) := fun _ => fun _ => rfl
theorem txrReceived : ∀ x0, Statement (.txrReceived x0) := fun _ => fun _ => rfl
theorem ssiMessage : ∀ x0 x1, Statement (.ssiMessage x0 x1) := fun _ _ => fun _ => rfl
theorem rsyReceived : ∀ x0, Statement (.rsyReceived x0) := fun _ => fun _ => rfl
theorem reqReceived : ∀ x0, Statement (.reqReceived x0) := fun _ => fun _ => rfl
theorem resyncDone : ∀ x0, Statement (.resyncDone x0) := fun _ => fun _ => rfl
theorem resyncTimeout : ∀ x0, Statement (.resyncTimeout x0) := fun _ => fun _ => rfl
theorem fullResyncDone : ∀ x0, Statement (.fullResyncDone x0) := fun _ => fun _ => rfl
theorem ownGuardExpire : Statement (.ownGuardExpire) := fun _ => rfl
theorem ownIRise : Statement (.ownIRise) := fun _ => rfl
theorem ownIFall : Statement (.ownIFall) := fun _ => rfl
theorem twqPulseEnd : Statement (.twqPulseEnd) := fun _ => rfl
theorem handover : ∀ x0 x1, Statement (.handover x0 x1) := fun _ _ => fun _ => rfl
theorem repair : ∀ x0 x1, Statement (.repair x0 x1) := fun _ _ => fun _ => rfl
theorem force : ∀ x0 x1, Statement (.force x0 x1) := fun _ _ => fun _ => rfl
theorem submit : ∀ x0 x1, Statement (.submit x0 x1) := fun _ _ => fun _ => rfl
theorem submitTimeout : Statement (.submitTimeout) := fun _ => rfl
theorem billetTaken : ∀ x0, Statement (.billetTaken x0) := fun _ => fun _ => rfl
theorem updReceived : ∀ x0, Statement (.updReceived x0) := fun _ => nofun
theorem buildDone : Statement (.buildDone) := fun _ => rfl
theorem updAbort : ∀ x0 x1, Statement (.updAbort x0 x1) := fun _ _ => fun _ => rfl
theorem updCommit : ∀ x0 x1, Statement (.updCommit x0 x1) := fun _ _ => fun _ => rfl
theorem actnow : ∀ x0 x1, Statement (.actnow x0 x1) := fun _ _ => fun _ => rfl
theorem confirm : ∀ x0 x1, Statement (.confirm x0 x1) := fun _ _ => fun _ => rfl
theorem revert : ∀ x0 x1, Statement (.revert x0 x1) := fun _ _ => fun _ => rfl
theorem activationDue : Statement (.activationDue) := fun _ => rfl
theorem twinVerifyTimeout : Statement (.twinVerifyTimeout) := fun _ => rfl
theorem supplyRise : ∀ x0, Statement (.supplyRise x0) := fun _ => fun _ => rfl
theorem perstNRise : Statement (.perstNRise) := fun _ => rfl
theorem pcieConfigRequest : ∀ x0 x1, Statement (.pcieConfigRequest x0 x1) := fun _ _ => fun _ => rfl
theorem hostReadError : ∀ x0 x1 x2 x3, Statement (.hostReadError x0 x1 x2 x3) := fun _ _ _ _ => nofun
theorem quenchInputRelease : ∀ x0, Statement (.quenchInputRelease x0) := fun _ => fun _ => rfl
theorem laneLoss : Statement (.laneLoss) := fun _ => rfl
theorem linkFault : Statement (.linkFault) := fun _ => rfl
theorem handoverOwnRaise : Statement (.handoverOwnRaise) := fun _ => rfl
theorem handoverCompletes : Statement (.handoverCompletes) := fun _ => rfl
theorem stewardWindowExpire : Statement (.stewardWindowExpire) := fun _ => rfl
theorem qerrWindowExpire : ∀ x0, Statement (.qerrWindowExpire x0) := fun _ => fun _ => rfl
theorem runmemSpanExpire : ∀ x0, Statement (.runmemSpanExpire x0) := fun _ => fun _ => rfl

end Sys2Proof.Laws.WellFormed
end

