-- ==== Sys2Proof/Laws/State.lean ====
section
/-! SUPPORT. What each named update of the device leaves of each of its fields, and what it makes of the one it writes: every lemma holds by rfl. -/

namespace Sys2Proof.Machine.Dev

variable (d : Dev)

theorem setReg_regs (a : Nat) (w : Word) : (d.setReg a w).regs = tset resetWord d.regs a w := rfl
@[simp] theorem setReg_hwin (a : Nat) (w : Word) : (d.setReg a w).hwin = d.hwin := rfl
@[simp] theorem setReg_hw (a : Nat) (w : Word) : (d.setReg a w).hw = d.hw := rfl
@[simp] theorem setReg_redo (a : Nat) (w : Word) : (d.setReg a w).redo = d.redo := rfl
@[simp] theorem setReg_errNow (a : Nat) (w : Word) : (d.setReg a w).errNow = d.errNow := rfl
@[simp] theorem setReg_clk (a : Nat) (w : Word) : (d.setReg a w).clk = d.clk := rfl
@[simp] theorem setReg_t0 (a : Nat) (w : Word) : (d.setReg a w).t0 = d.t0 := rfl
@[simp] theorem setReg_patT (a : Nat) (w : Word) : (d.setReg a w).patT = d.patT := rfl
@[simp] theorem setReg_fresh (a : Nat) (w : Word) : (d.setReg a w).fresh = d.fresh := rfl
@[simp] theorem setReg_undef (a : Nat) (w : Word) : (d.setReg a w).undef = d.undef := rfl
@[simp] theorem setReg_supply (a : Nat) (w : Word) : (d.setReg a w).supply = d.supply := rfl
@[simp] theorem setReg_rstN (a : Nat) (w : Word) : (d.setReg a w).rstN = d.rstN := rfl
@[simp] theorem setReg_perstN (a : Nat) (w : Word) : (d.setReg a w).perstN = d.perstN := rfl
@[simp] theorem setReg_fn (a : Nat) (w : Word) : (d.setReg a w).fn = d.fn := rfl
@[simp] theorem setReg_out (a : Nat) (w : Word) : (d.setReg a w).out = d.out := rfl
@[simp] theorem setReg_jtagTap (a : Nat) (w : Word) : (d.setReg a w).jtagTap = d.jtagTap := rfl
@[simp] theorem setReg_jtagHalt (a : Nat) (w : Word) : (d.setReg a w).jtagHalt = d.jtagHalt := rfl
@[simp] theorem setReg_dbgHalt (a : Nat) (w : Word) : (d.setReg a w).dbgHalt = d.dbgHalt := rfl
@[simp] theorem setReg_qinBall (a : Nat) (w : Word) : (d.setReg a w).qinBall = d.qinBall := rfl
@[simp] theorem setReg_clkLost (a : Nat) (w : Word) : (d.setReg a w).clkLost = d.clkLost := rfl
@[simp] theorem setReg_rcOsc (a : Nat) (w : Word) : (d.setReg a w).rcOsc = d.rcOsc := rfl
@[simp] theorem setReg_stwRun (a : Nat) (w : Word) : (d.setReg a w).stwRun = d.stwRun := rfl
@[simp] theorem setReg_waitSfw (a : Nat) (w : Word) : (d.setReg a w).waitSfw = d.waitSfw := rfl
@[simp] theorem setReg_sfw (a : Nat) (w : Word) : (d.setReg a w).sfw = d.sfw := rfl
@[simp] theorem setReg_cal (a : Nat) (w : Word) : (d.setReg a w).cal = d.cal := rfl
@[simp] theorem setReg_pat (a : Nat) (w : Word) : (d.setReg a w).pat = d.pat := rfl
@[simp] theorem setReg_patOp (a : Nat) (w : Word) : (d.setReg a w).patOp = d.patOp := rfl
@[simp] theorem setReg_keys (a : Nat) (w : Word) : (d.setReg a w).keys = d.keys := rfl
@[simp] theorem setReg_bank0 (a : Nat) (w : Word) : (d.setReg a w).bank0 = d.bank0 := rfl
@[simp] theorem setReg_bank1 (a : Nat) (w : Word) : (d.setReg a w).bank1 = d.bank1 := rfl
@[simp] theorem setReg_sess (a : Nat) (w : Word) : (d.setReg a w).sess = d.sess := rfl
@[simp] theorem setReg_stage (a : Nat) (w : Word) : (d.setReg a w).stage = d.stage := rfl
@[simp] theorem setReg_submit (a : Nat) (w : Word) : (d.setReg a w).submit = d.submit := rfl
@[simp] theorem setReg_act (a : Nat) (w : Word) : (d.setReg a w).act = d.act := rfl
@[simp] theorem setReg_blk (a : Nat) (w : Word) : (d.setReg a w).blk = d.blk := rfl
@[simp] theorem setReg_dom (a : Nat) (w : Word) : (d.setReg a w).dom = d.dom := rfl
@[simp] theorem setReg_rgn (a : Nat) (w : Word) : (d.setReg a w).rgn = d.rgn := rfl
@[simp] theorem setReg_evq (a : Nat) (w : Word) : (d.setReg a w).evq = d.evq := rfl
@[simp] theorem setReg_src (a : Nat) (w : Word) : (d.setReg a w).src = d.src := rfl
@[simp] theorem setReg_targ (a : Nat) (w : Word) : (d.setReg a w).targ = d.targ := rfl
@[simp] theorem setReg_chan (a : Nat) (w : Word) : (d.setReg a w).chan = d.chan := rfl
@[simp] theorem setReg_turn (a : Nat) (w : Word) : (d.setReg a w).turn = d.turn := rfl
@[simp] theorem setReg_trace (a : Nat) (w : Word) : (d.setReg a w).trace = d.trace := rfl
@[simp] theorem setReg_tseq (a : Nat) (w : Word) : (d.setReg a w).tseq = d.tseq := rfl
@[simp] theorem setReg_hostWr (a : Nat) (w : Word) : (d.setReg a w).hostWr = d.hostWr := rfl
@[simp] theorem setReg_twin (a : Nat) (w : Word) : (d.setReg a w).twin = d.twin := rfl
@[simp] theorem setReg_failT (a : Nat) (w : Word) : (d.setReg a w).failT = d.failT := rfl
@[simp] theorem setReg_failWin (a : Nat) (w : Word) : (d.setReg a w).failWin = d.failWin := rfl
@[simp] theorem setReg_failOpen (a : Nat) (w : Word) : (d.setReg a w).failOpen = d.failOpen := rfl
@[simp] theorem setReg_failDue (a : Nat) (w : Word) : (d.setReg a w).failDue = d.failDue := rfl
@[simp] theorem setReg_failNote (a : Nat) (w : Word) : (d.setReg a w).failNote = d.failNote := rfl

@[simp] theorem put_hwin {ι : Type} (f : RF ι) (i : ι) (v : Nat) : (d.put f i v).hwin = d.hwin := rfl
@[simp] theorem put_hw {ι : Type} (f : RF ι) (i : ι) (v : Nat) : (d.put f i v).hw = d.hw := rfl
@[simp] theorem put_redo {ι : Type} (f : RF ι) (i : ι) (v : Nat) : (d.put f i v).redo = d.redo := rfl
@[simp] theorem put_errNow {ι : Type} (f : RF ι) (i : ι) (v : Nat) : (d.put f i v).errNow = d.errNow := rfl
@[simp] theorem put_clk {ι : Type} (f : RF ι) (i : ι) (v : Nat) : (d.put f i v).clk = d.clk := rfl
@[simp] theorem put_t0 {ι : Type} (f : RF ι) (i : ι) (v : Nat) : (d.put f i v).t0 = d.t0 := rfl
@[simp] theorem put_patT {ι : Type} (f : RF ι) (i : ι) (v : Nat) : (d.put f i v).patT = d.patT := rfl
@[simp] theorem put_fresh {ι : Type} (f : RF ι) (i : ι) (v : Nat) : (d.put f i v).fresh = d.fresh := rfl
@[simp] theorem put_undef {ι : Type} (f : RF ι) (i : ι) (v : Nat) : (d.put f i v).undef = d.undef := rfl
@[simp] theorem put_supply {ι : Type} (f : RF ι) (i : ι) (v : Nat) : (d.put f i v).supply = d.supply := rfl
@[simp] theorem put_rstN {ι : Type} (f : RF ι) (i : ι) (v : Nat) : (d.put f i v).rstN = d.rstN := rfl
@[simp] theorem put_perstN {ι : Type} (f : RF ι) (i : ι) (v : Nat) : (d.put f i v).perstN = d.perstN := rfl
@[simp] theorem put_fn {ι : Type} (f : RF ι) (i : ι) (v : Nat) : (d.put f i v).fn = d.fn := rfl
@[simp] theorem put_out {ι : Type} (f : RF ι) (i : ι) (v : Nat) : (d.put f i v).out = d.out := rfl
@[simp] theorem put_jtagTap {ι : Type} (f : RF ι) (i : ι) (v : Nat) : (d.put f i v).jtagTap = d.jtagTap := rfl
@[simp] theorem put_jtagHalt {ι : Type} (f : RF ι) (i : ι) (v : Nat) : (d.put f i v).jtagHalt = d.jtagHalt := rfl
@[simp] theorem put_dbgHalt {ι : Type} (f : RF ι) (i : ι) (v : Nat) : (d.put f i v).dbgHalt = d.dbgHalt := rfl
@[simp] theorem put_qinBall {ι : Type} (f : RF ι) (i : ι) (v : Nat) : (d.put f i v).qinBall = d.qinBall := rfl
@[simp] theorem put_clkLost {ι : Type} (f : RF ι) (i : ι) (v : Nat) : (d.put f i v).clkLost = d.clkLost := rfl
@[simp] theorem put_rcOsc {ι : Type} (f : RF ι) (i : ι) (v : Nat) : (d.put f i v).rcOsc = d.rcOsc := rfl
@[simp] theorem put_stwRun {ι : Type} (f : RF ι) (i : ι) (v : Nat) : (d.put f i v).stwRun = d.stwRun := rfl
@[simp] theorem put_waitSfw {ι : Type} (f : RF ι) (i : ι) (v : Nat) : (d.put f i v).waitSfw = d.waitSfw := rfl
@[simp] theorem put_sfw {ι : Type} (f : RF ι) (i : ι) (v : Nat) : (d.put f i v).sfw = d.sfw := rfl
@[simp] theorem put_cal {ι : Type} (f : RF ι) (i : ι) (v : Nat) : (d.put f i v).cal = d.cal := rfl
@[simp] theorem put_pat {ι : Type} (f : RF ι) (i : ι) (v : Nat) : (d.put f i v).pat = d.pat := rfl
@[simp] theorem put_patOp {ι : Type} (f : RF ι) (i : ι) (v : Nat) : (d.put f i v).patOp = d.patOp := rfl
@[simp] theorem put_keys {ι : Type} (f : RF ι) (i : ι) (v : Nat) : (d.put f i v).keys = d.keys := rfl
@[simp] theorem put_bank0 {ι : Type} (f : RF ι) (i : ι) (v : Nat) : (d.put f i v).bank0 = d.bank0 := rfl
@[simp] theorem put_bank1 {ι : Type} (f : RF ι) (i : ι) (v : Nat) : (d.put f i v).bank1 = d.bank1 := rfl
@[simp] theorem put_sess {ι : Type} (f : RF ι) (i : ι) (v : Nat) : (d.put f i v).sess = d.sess := rfl
@[simp] theorem put_stage {ι : Type} (f : RF ι) (i : ι) (v : Nat) : (d.put f i v).stage = d.stage := rfl
@[simp] theorem put_submit {ι : Type} (f : RF ι) (i : ι) (v : Nat) : (d.put f i v).submit = d.submit := rfl
@[simp] theorem put_act {ι : Type} (f : RF ι) (i : ι) (v : Nat) : (d.put f i v).act = d.act := rfl
@[simp] theorem put_blk {ι : Type} (f : RF ι) (i : ι) (v : Nat) : (d.put f i v).blk = d.blk := rfl
@[simp] theorem put_dom {ι : Type} (f : RF ι) (i : ι) (v : Nat) : (d.put f i v).dom = d.dom := rfl
@[simp] theorem put_rgn {ι : Type} (f : RF ι) (i : ι) (v : Nat) : (d.put f i v).rgn = d.rgn := rfl
@[simp] theorem put_evq {ι : Type} (f : RF ι) (i : ι) (v : Nat) : (d.put f i v).evq = d.evq := rfl
@[simp] theorem put_src {ι : Type} (f : RF ι) (i : ι) (v : Nat) : (d.put f i v).src = d.src := rfl
@[simp] theorem put_targ {ι : Type} (f : RF ι) (i : ι) (v : Nat) : (d.put f i v).targ = d.targ := rfl
@[simp] theorem put_chan {ι : Type} (f : RF ι) (i : ι) (v : Nat) : (d.put f i v).chan = d.chan := rfl
@[simp] theorem put_turn {ι : Type} (f : RF ι) (i : ι) (v : Nat) : (d.put f i v).turn = d.turn := rfl
@[simp] theorem put_trace {ι : Type} (f : RF ι) (i : ι) (v : Nat) : (d.put f i v).trace = d.trace := rfl
@[simp] theorem put_tseq {ι : Type} (f : RF ι) (i : ι) (v : Nat) : (d.put f i v).tseq = d.tseq := rfl
@[simp] theorem put_hostWr {ι : Type} (f : RF ι) (i : ι) (v : Nat) : (d.put f i v).hostWr = d.hostWr := rfl
@[simp] theorem put_twin {ι : Type} (f : RF ι) (i : ι) (v : Nat) : (d.put f i v).twin = d.twin := rfl
@[simp] theorem put_failT {ι : Type} (f : RF ι) (i : ι) (v : Nat) : (d.put f i v).failT = d.failT := rfl
@[simp] theorem put_failWin {ι : Type} (f : RF ι) (i : ι) (v : Nat) : (d.put f i v).failWin = d.failWin := rfl
@[simp] theorem put_failOpen {ι : Type} (f : RF ι) (i : ι) (v : Nat) : (d.put f i v).failOpen = d.failOpen := rfl
@[simp] theorem put_failDue {ι : Type} (f : RF ι) (i : ι) (v : Nat) : (d.put f i v).failDue = d.failDue := rfl
@[simp] theorem put_failNote {ι : Type} (f : RF ι) (i : ι) (v : Nat) : (d.put f i v).failNote = d.failNote := rfl

@[simp] theorem flag_hwin {ι : Type} (f : RF ι) (i : ι) : (d.flag f i).hwin = d.hwin := rfl
@[simp] theorem flag_redo {ι : Type} (f : RF ι) (i : ι) : (d.flag f i).redo = d.redo := rfl
@[simp] theorem flag_errNow {ι : Type} (f : RF ι) (i : ι) : (d.flag f i).errNow = d.errNow := rfl
@[simp] theorem flag_hw {ι : Type} (f : RF ι) (i : ι) : (d.flag f i).hw = (f.addr i, f.lo, true) :: d.hw := rfl
@[simp] theorem flag_clk {ι : Type} (f : RF ι) (i : ι) : (d.flag f i).clk = d.clk := rfl
@[simp] theorem flag_t0 {ι : Type} (f : RF ι) (i : ι) : (d.flag f i).t0 = d.t0 := rfl
@[simp] theorem flag_patT {ι : Type} (f : RF ι) (i : ι) : (d.flag f i).patT = d.patT := rfl
@[simp] theorem flag_fresh {ι : Type} (f : RF ι) (i : ι) : (d.flag f i).fresh = d.fresh := rfl
@[simp] theorem flag_undef {ι : Type} (f : RF ι) (i : ι) : (d.flag f i).undef = d.undef := rfl
@[simp] theorem flag_supply {ι : Type} (f : RF ι) (i : ι) : (d.flag f i).supply = d.supply := rfl
@[simp] theorem flag_rstN {ι : Type} (f : RF ι) (i : ι) : (d.flag f i).rstN = d.rstN := rfl
@[simp] theorem flag_perstN {ι : Type} (f : RF ι) (i : ι) : (d.flag f i).perstN = d.perstN := rfl
@[simp] theorem flag_fn {ι : Type} (f : RF ι) (i : ι) : (d.flag f i).fn = d.fn := rfl
@[simp] theorem flag_out {ι : Type} (f : RF ι) (i : ι) : (d.flag f i).out = d.out := rfl
@[simp] theorem flag_jtagTap {ι : Type} (f : RF ι) (i : ι) : (d.flag f i).jtagTap = d.jtagTap := rfl
@[simp] theorem flag_jtagHalt {ι : Type} (f : RF ι) (i : ι) : (d.flag f i).jtagHalt = d.jtagHalt := rfl
@[simp] theorem flag_dbgHalt {ι : Type} (f : RF ι) (i : ι) : (d.flag f i).dbgHalt = d.dbgHalt := rfl
@[simp] theorem flag_qinBall {ι : Type} (f : RF ι) (i : ι) : (d.flag f i).qinBall = d.qinBall := rfl
@[simp] theorem flag_clkLost {ι : Type} (f : RF ι) (i : ι) : (d.flag f i).clkLost = d.clkLost := rfl
@[simp] theorem flag_rcOsc {ι : Type} (f : RF ι) (i : ι) : (d.flag f i).rcOsc = d.rcOsc := rfl
@[simp] theorem flag_stwRun {ι : Type} (f : RF ι) (i : ι) : (d.flag f i).stwRun = d.stwRun := rfl
@[simp] theorem flag_waitSfw {ι : Type} (f : RF ι) (i : ι) : (d.flag f i).waitSfw = d.waitSfw := rfl
@[simp] theorem flag_sfw {ι : Type} (f : RF ι) (i : ι) : (d.flag f i).sfw = d.sfw := rfl
@[simp] theorem flag_cal {ι : Type} (f : RF ι) (i : ι) : (d.flag f i).cal = d.cal := rfl
@[simp] theorem flag_pat {ι : Type} (f : RF ι) (i : ι) : (d.flag f i).pat = d.pat := rfl
@[simp] theorem flag_patOp {ι : Type} (f : RF ι) (i : ι) : (d.flag f i).patOp = d.patOp := rfl
@[simp] theorem flag_keys {ι : Type} (f : RF ι) (i : ι) : (d.flag f i).keys = d.keys := rfl
@[simp] theorem flag_bank0 {ι : Type} (f : RF ι) (i : ι) : (d.flag f i).bank0 = d.bank0 := rfl
@[simp] theorem flag_bank1 {ι : Type} (f : RF ι) (i : ι) : (d.flag f i).bank1 = d.bank1 := rfl
@[simp] theorem flag_sess {ι : Type} (f : RF ι) (i : ι) : (d.flag f i).sess = d.sess := rfl
@[simp] theorem flag_stage {ι : Type} (f : RF ι) (i : ι) : (d.flag f i).stage = d.stage := rfl
@[simp] theorem flag_submit {ι : Type} (f : RF ι) (i : ι) : (d.flag f i).submit = d.submit := rfl
@[simp] theorem flag_act {ι : Type} (f : RF ι) (i : ι) : (d.flag f i).act = d.act := rfl
@[simp] theorem flag_blk {ι : Type} (f : RF ι) (i : ι) : (d.flag f i).blk = d.blk := rfl
@[simp] theorem flag_dom {ι : Type} (f : RF ι) (i : ι) : (d.flag f i).dom = d.dom := rfl
@[simp] theorem flag_rgn {ι : Type} (f : RF ι) (i : ι) : (d.flag f i).rgn = d.rgn := rfl
@[simp] theorem flag_evq {ι : Type} (f : RF ι) (i : ι) : (d.flag f i).evq = d.evq := rfl
@[simp] theorem flag_src {ι : Type} (f : RF ι) (i : ι) : (d.flag f i).src = d.src := rfl
@[simp] theorem flag_targ {ι : Type} (f : RF ι) (i : ι) : (d.flag f i).targ = d.targ := rfl
@[simp] theorem flag_chan {ι : Type} (f : RF ι) (i : ι) : (d.flag f i).chan = d.chan := rfl
@[simp] theorem flag_turn {ι : Type} (f : RF ι) (i : ι) : (d.flag f i).turn = d.turn := rfl
@[simp] theorem flag_trace {ι : Type} (f : RF ι) (i : ι) : (d.flag f i).trace = d.trace := rfl
@[simp] theorem flag_tseq {ι : Type} (f : RF ι) (i : ι) : (d.flag f i).tseq = d.tseq := rfl
@[simp] theorem flag_hostWr {ι : Type} (f : RF ι) (i : ι) : (d.flag f i).hostWr = d.hostWr := rfl
@[simp] theorem flag_twin {ι : Type} (f : RF ι) (i : ι) : (d.flag f i).twin = d.twin := rfl
@[simp] theorem flag_failT {ι : Type} (f : RF ι) (i : ι) : (d.flag f i).failT = d.failT := rfl
@[simp] theorem flag_failWin {ι : Type} (f : RF ι) (i : ι) : (d.flag f i).failWin = d.failWin := rfl
@[simp] theorem flag_failOpen {ι : Type} (f : RF ι) (i : ι) : (d.flag f i).failOpen = d.failOpen := rfl
@[simp] theorem flag_failDue {ι : Type} (f : RF ι) (i : ι) : (d.flag f i).failDue = d.failDue := rfl
@[simp] theorem flag_failNote {ι : Type} (f : RF ι) (i : ι) : (d.flag f i).failNote = d.failNote := rfl

@[simp] theorem mark_hwin (a b : Nat) (sat : Bool) : (d.mark a b sat).hwin = d.hwin := rfl
@[simp] theorem mark_redo (a b : Nat) (sat : Bool) : (d.mark a b sat).redo = d.redo := rfl
@[simp] theorem mark_errNow (a b : Nat) (sat : Bool) : (d.mark a b sat).errNow = d.errNow := rfl
@[simp] theorem mark_hw (a b : Nat) (sat : Bool) : (d.mark a b sat).hw = (a, b, sat) :: d.hw := rfl
@[simp] theorem mark_clk (a b : Nat) (sat : Bool) : (d.mark a b sat).clk = d.clk := rfl
@[simp] theorem mark_t0 (a b : Nat) (sat : Bool) : (d.mark a b sat).t0 = d.t0 := rfl
@[simp] theorem mark_patT (a b : Nat) (sat : Bool) : (d.mark a b sat).patT = d.patT := rfl
@[simp] theorem mark_fresh (a b : Nat) (sat : Bool) : (d.mark a b sat).fresh = d.fresh := rfl
@[simp] theorem mark_undef (a b : Nat) (sat : Bool) : (d.mark a b sat).undef = d.undef := rfl
@[simp] theorem mark_supply (a b : Nat) (sat : Bool) : (d.mark a b sat).supply = d.supply := rfl
@[simp] theorem mark_rstN (a b : Nat) (sat : Bool) : (d.mark a b sat).rstN = d.rstN := rfl
@[simp] theorem mark_perstN (a b : Nat) (sat : Bool) : (d.mark a b sat).perstN = d.perstN := rfl
@[simp] theorem mark_fn (a b : Nat) (sat : Bool) : (d.mark a b sat).fn = d.fn := rfl
@[simp] theorem mark_out (a b : Nat) (sat : Bool) : (d.mark a b sat).out = d.out := rfl
@[simp] theorem mark_jtagTap (a b : Nat) (sat : Bool) : (d.mark a b sat).jtagTap = d.jtagTap := rfl
@[simp] theorem mark_jtagHalt (a b : Nat) (sat : Bool) : (d.mark a b sat).jtagHalt = d.jtagHalt := rfl
@[simp] theorem mark_dbgHalt (a b : Nat) (sat : Bool) : (d.mark a b sat).dbgHalt = d.dbgHalt := rfl
@[simp] theorem mark_qinBall (a b : Nat) (sat : Bool) : (d.mark a b sat).qinBall = d.qinBall := rfl
@[simp] theorem mark_clkLost (a b : Nat) (sat : Bool) : (d.mark a b sat).clkLost = d.clkLost := rfl
@[simp] theorem mark_rcOsc (a b : Nat) (sat : Bool) : (d.mark a b sat).rcOsc = d.rcOsc := rfl
@[simp] theorem mark_stwRun (a b : Nat) (sat : Bool) : (d.mark a b sat).stwRun = d.stwRun := rfl
@[simp] theorem mark_waitSfw (a b : Nat) (sat : Bool) : (d.mark a b sat).waitSfw = d.waitSfw := rfl
@[simp] theorem mark_sfw (a b : Nat) (sat : Bool) : (d.mark a b sat).sfw = d.sfw := rfl
@[simp] theorem mark_cal (a b : Nat) (sat : Bool) : (d.mark a b sat).cal = d.cal := rfl
@[simp] theorem mark_pat (a b : Nat) (sat : Bool) : (d.mark a b sat).pat = d.pat := rfl
@[simp] theorem mark_patOp (a b : Nat) (sat : Bool) : (d.mark a b sat).patOp = d.patOp := rfl
@[simp] theorem mark_keys (a b : Nat) (sat : Bool) : (d.mark a b sat).keys = d.keys := rfl
@[simp] theorem mark_bank0 (a b : Nat) (sat : Bool) : (d.mark a b sat).bank0 = d.bank0 := rfl
@[simp] theorem mark_bank1 (a b : Nat) (sat : Bool) : (d.mark a b sat).bank1 = d.bank1 := rfl
@[simp] theorem mark_sess (a b : Nat) (sat : Bool) : (d.mark a b sat).sess = d.sess := rfl
@[simp] theorem mark_stage (a b : Nat) (sat : Bool) : (d.mark a b sat).stage = d.stage := rfl
@[simp] theorem mark_submit (a b : Nat) (sat : Bool) : (d.mark a b sat).submit = d.submit := rfl
@[simp] theorem mark_act (a b : Nat) (sat : Bool) : (d.mark a b sat).act = d.act := rfl
@[simp] theorem mark_blk (a b : Nat) (sat : Bool) : (d.mark a b sat).blk = d.blk := rfl
@[simp] theorem mark_dom (a b : Nat) (sat : Bool) : (d.mark a b sat).dom = d.dom := rfl
@[simp] theorem mark_rgn (a b : Nat) (sat : Bool) : (d.mark a b sat).rgn = d.rgn := rfl
@[simp] theorem mark_evq (a b : Nat) (sat : Bool) : (d.mark a b sat).evq = d.evq := rfl
@[simp] theorem mark_src (a b : Nat) (sat : Bool) : (d.mark a b sat).src = d.src := rfl
@[simp] theorem mark_targ (a b : Nat) (sat : Bool) : (d.mark a b sat).targ = d.targ := rfl
@[simp] theorem mark_chan (a b : Nat) (sat : Bool) : (d.mark a b sat).chan = d.chan := rfl
@[simp] theorem mark_turn (a b : Nat) (sat : Bool) : (d.mark a b sat).turn = d.turn := rfl
@[simp] theorem mark_trace (a b : Nat) (sat : Bool) : (d.mark a b sat).trace = d.trace := rfl
@[simp] theorem mark_tseq (a b : Nat) (sat : Bool) : (d.mark a b sat).tseq = d.tseq := rfl
@[simp] theorem mark_hostWr (a b : Nat) (sat : Bool) : (d.mark a b sat).hostWr = d.hostWr := rfl
@[simp] theorem mark_twin (a b : Nat) (sat : Bool) : (d.mark a b sat).twin = d.twin := rfl
@[simp] theorem mark_failT (a b : Nat) (sat : Bool) : (d.mark a b sat).failT = d.failT := rfl
@[simp] theorem mark_failWin (a b : Nat) (sat : Bool) : (d.mark a b sat).failWin = d.failWin := rfl
@[simp] theorem mark_failOpen (a b : Nat) (sat : Bool) : (d.mark a b sat).failOpen = d.failOpen := rfl
@[simp] theorem mark_failDue (a b : Nat) (sat : Bool) : (d.mark a b sat).failDue = d.failDue := rfl
@[simp] theorem mark_failNote (a b : Nat) (sat : Bool) : (d.mark a b sat).failNote = d.failNote := rfl
@[simp] theorem mark_regs (a b : Nat) (sat : Bool) : (d.mark a b sat).regs = d.regs := rfl

@[simp] theorem flagBit_hwin {ι : Type} (f : RF ι) (i : ι) (b : Nat) : (d.flagBit f i b).hwin = d.hwin := rfl
@[simp] theorem flagBit_redo {ι : Type} (f : RF ι) (i : ι) (b : Nat) : (d.flagBit f i b).redo = d.redo := rfl
@[simp] theorem flagBit_errNow {ι : Type} (f : RF ι) (i : ι) (b : Nat) : (d.flagBit f i b).errNow = d.errNow := rfl
@[simp] theorem flagBit_hw {ι : Type} (f : RF ι) (i : ι) (b : Nat) : (d.flagBit f i b).hw = (f.addr i, f.lo + b, true) :: d.hw := rfl
@[simp] theorem flagBit_clk {ι : Type} (f : RF ι) (i : ι) (b : Nat) : (d.flagBit f i b).clk = d.clk := rfl
@[simp] theorem flagBit_t0 {ι : Type} (f : RF ι) (i : ι) (b : Nat) : (d.flagBit f i b).t0 = d.t0 := rfl
@[simp] theorem flagBit_patT {ι : Type} (f : RF ι) (i : ι) (b : Nat) : (d.flagBit f i b).patT = d.patT := rfl
@[simp] theorem flagBit_fresh {ι : Type} (f : RF ι) (i : ι) (b : Nat) : (d.flagBit f i b).fresh = d.fresh := rfl
@[simp] theorem flagBit_undef {ι : Type} (f : RF ι) (i : ι) (b : Nat) : (d.flagBit f i b).undef = d.undef := rfl
@[simp] theorem flagBit_supply {ι : Type} (f : RF ι) (i : ι) (b : Nat) : (d.flagBit f i b).supply = d.supply := rfl
@[simp] theorem flagBit_rstN {ι : Type} (f : RF ι) (i : ι) (b : Nat) : (d.flagBit f i b).rstN = d.rstN := rfl
@[simp] theorem flagBit_perstN {ι : Type} (f : RF ι) (i : ι) (b : Nat) : (d.flagBit f i b).perstN = d.perstN := rfl
@[simp] theorem flagBit_fn {ι : Type} (f : RF ι) (i : ι) (b : Nat) : (d.flagBit f i b).fn = d.fn := rfl
@[simp] theorem flagBit_out {ι : Type} (f : RF ι) (i : ι) (b : Nat) : (d.flagBit f i b).out = d.out := rfl
@[simp] theorem flagBit_jtagTap {ι : Type} (f : RF ι) (i : ι) (b : Nat) : (d.flagBit f i b).jtagTap = d.jtagTap := rfl
@[simp] theorem flagBit_jtagHalt {ι : Type} (f : RF ι) (i : ι) (b : Nat) : (d.flagBit f i b).jtagHalt = d.jtagHalt := rfl
@[simp] theorem flagBit_dbgHalt {ι : Type} (f : RF ι) (i : ι) (b : Nat) : (d.flagBit f i b).dbgHalt = d.dbgHalt := rfl
@[simp] theorem flagBit_qinBall {ι : Type} (f : RF ι) (i : ι) (b : Nat) : (d.flagBit f i b).qinBall = d.qinBall := rfl
@[simp] theorem flagBit_clkLost {ι : Type} (f : RF ι) (i : ι) (b : Nat) : (d.flagBit f i b).clkLost = d.clkLost := rfl
@[simp] theorem flagBit_rcOsc {ι : Type} (f : RF ι) (i : ι) (b : Nat) : (d.flagBit f i b).rcOsc = d.rcOsc := rfl
@[simp] theorem flagBit_stwRun {ι : Type} (f : RF ι) (i : ι) (b : Nat) : (d.flagBit f i b).stwRun = d.stwRun := rfl
@[simp] theorem flagBit_waitSfw {ι : Type} (f : RF ι) (i : ι) (b : Nat) : (d.flagBit f i b).waitSfw = d.waitSfw := rfl
@[simp] theorem flagBit_sfw {ι : Type} (f : RF ι) (i : ι) (b : Nat) : (d.flagBit f i b).sfw = d.sfw := rfl
@[simp] theorem flagBit_cal {ι : Type} (f : RF ι) (i : ι) (b : Nat) : (d.flagBit f i b).cal = d.cal := rfl
@[simp] theorem flagBit_pat {ι : Type} (f : RF ι) (i : ι) (b : Nat) : (d.flagBit f i b).pat = d.pat := rfl
@[simp] theorem flagBit_patOp {ι : Type} (f : RF ι) (i : ι) (b : Nat) : (d.flagBit f i b).patOp = d.patOp := rfl
@[simp] theorem flagBit_keys {ι : Type} (f : RF ι) (i : ι) (b : Nat) : (d.flagBit f i b).keys = d.keys := rfl
@[simp] theorem flagBit_bank0 {ι : Type} (f : RF ι) (i : ι) (b : Nat) : (d.flagBit f i b).bank0 = d.bank0 := rfl
@[simp] theorem flagBit_bank1 {ι : Type} (f : RF ι) (i : ι) (b : Nat) : (d.flagBit f i b).bank1 = d.bank1 := rfl
@[simp] theorem flagBit_sess {ι : Type} (f : RF ι) (i : ι) (b : Nat) : (d.flagBit f i b).sess = d.sess := rfl
@[simp] theorem flagBit_stage {ι : Type} (f : RF ι) (i : ι) (b : Nat) : (d.flagBit f i b).stage = d.stage := rfl
@[simp] theorem flagBit_submit {ι : Type} (f : RF ι) (i : ι) (b : Nat) : (d.flagBit f i b).submit = d.submit := rfl
@[simp] theorem flagBit_act {ι : Type} (f : RF ι) (i : ι) (b : Nat) : (d.flagBit f i b).act = d.act := rfl
@[simp] theorem flagBit_blk {ι : Type} (f : RF ι) (i : ι) (b : Nat) : (d.flagBit f i b).blk = d.blk := rfl
@[simp] theorem flagBit_dom {ι : Type} (f : RF ι) (i : ι) (b : Nat) : (d.flagBit f i b).dom = d.dom := rfl
@[simp] theorem flagBit_rgn {ι : Type} (f : RF ι) (i : ι) (b : Nat) : (d.flagBit f i b).rgn = d.rgn := rfl
@[simp] theorem flagBit_evq {ι : Type} (f : RF ι) (i : ι) (b : Nat) : (d.flagBit f i b).evq = d.evq := rfl
@[simp] theorem flagBit_src {ι : Type} (f : RF ι) (i : ι) (b : Nat) : (d.flagBit f i b).src = d.src := rfl
@[simp] theorem flagBit_targ {ι : Type} (f : RF ι) (i : ι) (b : Nat) : (d.flagBit f i b).targ = d.targ := rfl
@[simp] theorem flagBit_chan {ι : Type} (f : RF ι) (i : ι) (b : Nat) : (d.flagBit f i b).chan = d.chan := rfl
@[simp] theorem flagBit_turn {ι : Type} (f : RF ι) (i : ι) (b : Nat) : (d.flagBit f i b).turn = d.turn := rfl
@[simp] theorem flagBit_trace {ι : Type} (f : RF ι) (i : ι) (b : Nat) : (d.flagBit f i b).trace = d.trace := rfl
@[simp] theorem flagBit_tseq {ι : Type} (f : RF ι) (i : ι) (b : Nat) : (d.flagBit f i b).tseq = d.tseq := rfl
@[simp] theorem flagBit_hostWr {ι : Type} (f : RF ι) (i : ι) (b : Nat) : (d.flagBit f i b).hostWr = d.hostWr := rfl
@[simp] theorem flagBit_twin {ι : Type} (f : RF ι) (i : ι) (b : Nat) : (d.flagBit f i b).twin = d.twin := rfl
@[simp] theorem flagBit_failT {ι : Type} (f : RF ι) (i : ι) (b : Nat) : (d.flagBit f i b).failT = d.failT := rfl
@[simp] theorem flagBit_failWin {ι : Type} (f : RF ι) (i : ι) (b : Nat) : (d.flagBit f i b).failWin = d.failWin := rfl
@[simp] theorem flagBit_failOpen {ι : Type} (f : RF ι) (i : ι) (b : Nat) : (d.flagBit f i b).failOpen = d.failOpen := rfl
@[simp] theorem flagBit_failDue {ι : Type} (f : RF ι) (i : ι) (b : Nat) : (d.flagBit f i b).failDue = d.failDue := rfl
@[simp] theorem flagBit_failNote {ι : Type} (f : RF ι) (i : ι) (b : Nat) : (d.flagBit f i b).failNote = d.failNote := rfl

@[simp] theorem incBy_hwin {ι : Type} (f : RF ι) (i : ι) (n : Nat) : (d.incBy f i n).hwin = d.hwin := rfl
@[simp] theorem incBy_redo {ι : Type} (f : RF ι) (i : ι) (n : Nat) : (d.incBy f i n).redo = d.redo := rfl
@[simp] theorem incBy_errNow {ι : Type} (f : RF ι) (i : ι) (n : Nat) : (d.incBy f i n).errNow = d.errNow := rfl
@[simp] theorem incBy_hw {ι : Type} (f : RF ι) (i : ι) (n : Nat) : (d.incBy f i n).hw = List.replicate n (f.addr i, f.lo, false) ++ d.hw := rfl
@[simp] theorem incBy_clk {ι : Type} (f : RF ι) (i : ι) (n : Nat) : (d.incBy f i n).clk = d.clk := rfl
@[simp] theorem incBy_t0 {ι : Type} (f : RF ι) (i : ι) (n : Nat) : (d.incBy f i n).t0 = d.t0 := rfl
@[simp] theorem incBy_patT {ι : Type} (f : RF ι) (i : ι) (n : Nat) : (d.incBy f i n).patT = d.patT := rfl
@[simp] theorem incBy_fresh {ι : Type} (f : RF ι) (i : ι) (n : Nat) : (d.incBy f i n).fresh = d.fresh := rfl
@[simp] theorem incBy_undef {ι : Type} (f : RF ι) (i : ι) (n : Nat) : (d.incBy f i n).undef = d.undef := rfl
@[simp] theorem incBy_supply {ι : Type} (f : RF ι) (i : ι) (n : Nat) : (d.incBy f i n).supply = d.supply := rfl
@[simp] theorem incBy_rstN {ι : Type} (f : RF ι) (i : ι) (n : Nat) : (d.incBy f i n).rstN = d.rstN := rfl
@[simp] theorem incBy_perstN {ι : Type} (f : RF ι) (i : ι) (n : Nat) : (d.incBy f i n).perstN = d.perstN := rfl
@[simp] theorem incBy_fn {ι : Type} (f : RF ι) (i : ι) (n : Nat) : (d.incBy f i n).fn = d.fn := rfl
@[simp] theorem incBy_out {ι : Type} (f : RF ι) (i : ι) (n : Nat) : (d.incBy f i n).out = d.out := rfl
@[simp] theorem incBy_jtagTap {ι : Type} (f : RF ι) (i : ι) (n : Nat) : (d.incBy f i n).jtagTap = d.jtagTap := rfl
@[simp] theorem incBy_jtagHalt {ι : Type} (f : RF ι) (i : ι) (n : Nat) : (d.incBy f i n).jtagHalt = d.jtagHalt := rfl
@[simp] theorem incBy_dbgHalt {ι : Type} (f : RF ι) (i : ι) (n : Nat) : (d.incBy f i n).dbgHalt = d.dbgHalt := rfl
@[simp] theorem incBy_qinBall {ι : Type} (f : RF ι) (i : ι) (n : Nat) : (d.incBy f i n).qinBall = d.qinBall := rfl
@[simp] theorem incBy_clkLost {ι : Type} (f : RF ι) (i : ι) (n : Nat) : (d.incBy f i n).clkLost = d.clkLost := rfl
@[simp] theorem incBy_rcOsc {ι : Type} (f : RF ι) (i : ι) (n : Nat) : (d.incBy f i n).rcOsc = d.rcOsc := rfl
@[simp] theorem incBy_stwRun {ι : Type} (f : RF ι) (i : ι) (n : Nat) : (d.incBy f i n).stwRun = d.stwRun := rfl
@[simp] theorem incBy_waitSfw {ι : Type} (f : RF ι) (i : ι) (n : Nat) : (d.incBy f i n).waitSfw = d.waitSfw := rfl
@[simp] theorem incBy_sfw {ι : Type} (f : RF ι) (i : ι) (n : Nat) : (d.incBy f i n).sfw = d.sfw := rfl
@[simp] theorem incBy_cal {ι : Type} (f : RF ι) (i : ι) (n : Nat) : (d.incBy f i n).cal = d.cal := rfl
@[simp] theorem incBy_pat {ι : Type} (f : RF ι) (i : ι) (n : Nat) : (d.incBy f i n).pat = d.pat := rfl
@[simp] theorem incBy_patOp {ι : Type} (f : RF ι) (i : ι) (n : Nat) : (d.incBy f i n).patOp = d.patOp := rfl
@[simp] theorem incBy_keys {ι : Type} (f : RF ι) (i : ι) (n : Nat) : (d.incBy f i n).keys = d.keys := rfl
@[simp] theorem incBy_bank0 {ι : Type} (f : RF ι) (i : ι) (n : Nat) : (d.incBy f i n).bank0 = d.bank0 := rfl
@[simp] theorem incBy_bank1 {ι : Type} (f : RF ι) (i : ι) (n : Nat) : (d.incBy f i n).bank1 = d.bank1 := rfl
@[simp] theorem incBy_sess {ι : Type} (f : RF ι) (i : ι) (n : Nat) : (d.incBy f i n).sess = d.sess := rfl
@[simp] theorem incBy_stage {ι : Type} (f : RF ι) (i : ι) (n : Nat) : (d.incBy f i n).stage = d.stage := rfl
@[simp] theorem incBy_submit {ι : Type} (f : RF ι) (i : ι) (n : Nat) : (d.incBy f i n).submit = d.submit := rfl
@[simp] theorem incBy_act {ι : Type} (f : RF ι) (i : ι) (n : Nat) : (d.incBy f i n).act = d.act := rfl
@[simp] theorem incBy_blk {ι : Type} (f : RF ι) (i : ι) (n : Nat) : (d.incBy f i n).blk = d.blk := rfl
@[simp] theorem incBy_dom {ι : Type} (f : RF ι) (i : ι) (n : Nat) : (d.incBy f i n).dom = d.dom := rfl
@[simp] theorem incBy_rgn {ι : Type} (f : RF ι) (i : ι) (n : Nat) : (d.incBy f i n).rgn = d.rgn := rfl
@[simp] theorem incBy_evq {ι : Type} (f : RF ι) (i : ι) (n : Nat) : (d.incBy f i n).evq = d.evq := rfl
@[simp] theorem incBy_src {ι : Type} (f : RF ι) (i : ι) (n : Nat) : (d.incBy f i n).src = d.src := rfl
@[simp] theorem incBy_targ {ι : Type} (f : RF ι) (i : ι) (n : Nat) : (d.incBy f i n).targ = d.targ := rfl
@[simp] theorem incBy_chan {ι : Type} (f : RF ι) (i : ι) (n : Nat) : (d.incBy f i n).chan = d.chan := rfl
@[simp] theorem incBy_turn {ι : Type} (f : RF ι) (i : ι) (n : Nat) : (d.incBy f i n).turn = d.turn := rfl
@[simp] theorem incBy_trace {ι : Type} (f : RF ι) (i : ι) (n : Nat) : (d.incBy f i n).trace = d.trace := rfl
@[simp] theorem incBy_tseq {ι : Type} (f : RF ι) (i : ι) (n : Nat) : (d.incBy f i n).tseq = d.tseq := rfl
@[simp] theorem incBy_hostWr {ι : Type} (f : RF ι) (i : ι) (n : Nat) : (d.incBy f i n).hostWr = d.hostWr := rfl
@[simp] theorem incBy_twin {ι : Type} (f : RF ι) (i : ι) (n : Nat) : (d.incBy f i n).twin = d.twin := rfl
@[simp] theorem incBy_failT {ι : Type} (f : RF ι) (i : ι) (n : Nat) : (d.incBy f i n).failT = d.failT := rfl
@[simp] theorem incBy_failWin {ι : Type} (f : RF ι) (i : ι) (n : Nat) : (d.incBy f i n).failWin = d.failWin := rfl
@[simp] theorem incBy_failOpen {ι : Type} (f : RF ι) (i : ι) (n : Nat) : (d.incBy f i n).failOpen = d.failOpen := rfl
@[simp] theorem incBy_failDue {ι : Type} (f : RF ι) (i : ι) (n : Nat) : (d.incBy f i n).failDue = d.failDue := rfl
@[simp] theorem incBy_failNote {ι : Type} (f : RF ι) (i : ι) (n : Nat) : (d.incBy f i n).failNote = d.failNote := rfl

@[simp] theorem clr_hwin {ι : Type} (f : RF ι) (i : ι) : (d.clr f i).hwin = d.hwin := rfl
@[simp] theorem clr_hw {ι : Type} (f : RF ι) (i : ι) : (d.clr f i).hw = d.hw := rfl
@[simp] theorem clr_redo {ι : Type} (f : RF ι) (i : ι) : (d.clr f i).redo = d.redo := rfl
@[simp] theorem clr_errNow {ι : Type} (f : RF ι) (i : ι) : (d.clr f i).errNow = d.errNow := rfl
@[simp] theorem clr_clk {ι : Type} (f : RF ι) (i : ι) : (d.clr f i).clk = d.clk := rfl
@[simp] theorem clr_t0 {ι : Type} (f : RF ι) (i : ι) : (d.clr f i).t0 = d.t0 := rfl
@[simp] theorem clr_patT {ι : Type} (f : RF ι) (i : ι) : (d.clr f i).patT = d.patT := rfl
@[simp] theorem clr_fresh {ι : Type} (f : RF ι) (i : ι) : (d.clr f i).fresh = d.fresh := rfl
@[simp] theorem clr_undef {ι : Type} (f : RF ι) (i : ι) : (d.clr f i).undef = d.undef := rfl
@[simp] theorem clr_supply {ι : Type} (f : RF ι) (i : ι) : (d.clr f i).supply = d.supply := rfl
@[simp] theorem clr_rstN {ι : Type} (f : RF ι) (i : ι) : (d.clr f i).rstN = d.rstN := rfl
@[simp] theorem clr_perstN {ι : Type} (f : RF ι) (i : ι) : (d.clr f i).perstN = d.perstN := rfl
@[simp] theorem clr_fn {ι : Type} (f : RF ι) (i : ι) : (d.clr f i).fn = d.fn := rfl
@[simp] theorem clr_out {ι : Type} (f : RF ι) (i : ι) : (d.clr f i).out = d.out := rfl
@[simp] theorem clr_jtagTap {ι : Type} (f : RF ι) (i : ι) : (d.clr f i).jtagTap = d.jtagTap := rfl
@[simp] theorem clr_jtagHalt {ι : Type} (f : RF ι) (i : ι) : (d.clr f i).jtagHalt = d.jtagHalt := rfl
@[simp] theorem clr_dbgHalt {ι : Type} (f : RF ι) (i : ι) : (d.clr f i).dbgHalt = d.dbgHalt := rfl
@[simp] theorem clr_qinBall {ι : Type} (f : RF ι) (i : ι) : (d.clr f i).qinBall = d.qinBall := rfl
@[simp] theorem clr_clkLost {ι : Type} (f : RF ι) (i : ι) : (d.clr f i).clkLost = d.clkLost := rfl
@[simp] theorem clr_rcOsc {ι : Type} (f : RF ι) (i : ι) : (d.clr f i).rcOsc = d.rcOsc := rfl
@[simp] theorem clr_stwRun {ι : Type} (f : RF ι) (i : ι) : (d.clr f i).stwRun = d.stwRun := rfl
@[simp] theorem clr_waitSfw {ι : Type} (f : RF ι) (i : ι) : (d.clr f i).waitSfw = d.waitSfw := rfl
@[simp] theorem clr_sfw {ι : Type} (f : RF ι) (i : ι) : (d.clr f i).sfw = d.sfw := rfl
@[simp] theorem clr_cal {ι : Type} (f : RF ι) (i : ι) : (d.clr f i).cal = d.cal := rfl
@[simp] theorem clr_pat {ι : Type} (f : RF ι) (i : ι) : (d.clr f i).pat = d.pat := rfl
@[simp] theorem clr_patOp {ι : Type} (f : RF ι) (i : ι) : (d.clr f i).patOp = d.patOp := rfl
@[simp] theorem clr_keys {ι : Type} (f : RF ι) (i : ι) : (d.clr f i).keys = d.keys := rfl
@[simp] theorem clr_bank0 {ι : Type} (f : RF ι) (i : ι) : (d.clr f i).bank0 = d.bank0 := rfl
@[simp] theorem clr_bank1 {ι : Type} (f : RF ι) (i : ι) : (d.clr f i).bank1 = d.bank1 := rfl
@[simp] theorem clr_sess {ι : Type} (f : RF ι) (i : ι) : (d.clr f i).sess = d.sess := rfl
@[simp] theorem clr_stage {ι : Type} (f : RF ι) (i : ι) : (d.clr f i).stage = d.stage := rfl
@[simp] theorem clr_submit {ι : Type} (f : RF ι) (i : ι) : (d.clr f i).submit = d.submit := rfl
@[simp] theorem clr_act {ι : Type} (f : RF ι) (i : ι) : (d.clr f i).act = d.act := rfl
@[simp] theorem clr_blk {ι : Type} (f : RF ι) (i : ι) : (d.clr f i).blk = d.blk := rfl
@[simp] theorem clr_dom {ι : Type} (f : RF ι) (i : ι) : (d.clr f i).dom = d.dom := rfl
@[simp] theorem clr_rgn {ι : Type} (f : RF ι) (i : ι) : (d.clr f i).rgn = d.rgn := rfl
@[simp] theorem clr_evq {ι : Type} (f : RF ι) (i : ι) : (d.clr f i).evq = d.evq := rfl
@[simp] theorem clr_src {ι : Type} (f : RF ι) (i : ι) : (d.clr f i).src = d.src := rfl
@[simp] theorem clr_targ {ι : Type} (f : RF ι) (i : ι) : (d.clr f i).targ = d.targ := rfl
@[simp] theorem clr_chan {ι : Type} (f : RF ι) (i : ι) : (d.clr f i).chan = d.chan := rfl
@[simp] theorem clr_turn {ι : Type} (f : RF ι) (i : ι) : (d.clr f i).turn = d.turn := rfl
@[simp] theorem clr_trace {ι : Type} (f : RF ι) (i : ι) : (d.clr f i).trace = d.trace := rfl
@[simp] theorem clr_tseq {ι : Type} (f : RF ι) (i : ι) : (d.clr f i).tseq = d.tseq := rfl
@[simp] theorem clr_hostWr {ι : Type} (f : RF ι) (i : ι) : (d.clr f i).hostWr = d.hostWr := rfl
@[simp] theorem clr_twin {ι : Type} (f : RF ι) (i : ι) : (d.clr f i).twin = d.twin := rfl
@[simp] theorem clr_failT {ι : Type} (f : RF ι) (i : ι) : (d.clr f i).failT = d.failT := rfl
@[simp] theorem clr_failWin {ι : Type} (f : RF ι) (i : ι) : (d.clr f i).failWin = d.failWin := rfl
@[simp] theorem clr_failOpen {ι : Type} (f : RF ι) (i : ι) : (d.clr f i).failOpen = d.failOpen := rfl
@[simp] theorem clr_failDue {ι : Type} (f : RF ι) (i : ι) : (d.clr f i).failDue = d.failDue := rfl
@[simp] theorem clr_failNote {ι : Type} (f : RF ι) (i : ι) : (d.clr f i).failNote = d.failNote := rfl

@[simp] theorem putB_hwin {ι : Type} (f : RF ι) (i : ι) (b : Bool) : (d.putB f i b).hwin = d.hwin := rfl
@[simp] theorem putB_hw {ι : Type} (f : RF ι) (i : ι) (b : Bool) : (d.putB f i b).hw = d.hw := rfl
@[simp] theorem putB_redo {ι : Type} (f : RF ι) (i : ι) (b : Bool) : (d.putB f i b).redo = d.redo := rfl
@[simp] theorem putB_errNow {ι : Type} (f : RF ι) (i : ι) (b : Bool) : (d.putB f i b).errNow = d.errNow := rfl
@[simp] theorem putB_clk {ι : Type} (f : RF ι) (i : ι) (b : Bool) : (d.putB f i b).clk = d.clk := rfl
@[simp] theorem putB_t0 {ι : Type} (f : RF ι) (i : ι) (b : Bool) : (d.putB f i b).t0 = d.t0 := rfl
@[simp] theorem putB_patT {ι : Type} (f : RF ι) (i : ι) (b : Bool) : (d.putB f i b).patT = d.patT := rfl
@[simp] theorem putB_fresh {ι : Type} (f : RF ι) (i : ι) (b : Bool) : (d.putB f i b).fresh = d.fresh := rfl
@[simp] theorem putB_undef {ι : Type} (f : RF ι) (i : ι) (b : Bool) : (d.putB f i b).undef = d.undef := rfl
@[simp] theorem putB_supply {ι : Type} (f : RF ι) (i : ι) (b : Bool) : (d.putB f i b).supply = d.supply := rfl
@[simp] theorem putB_rstN {ι : Type} (f : RF ι) (i : ι) (b : Bool) : (d.putB f i b).rstN = d.rstN := rfl
@[simp] theorem putB_perstN {ι : Type} (f : RF ι) (i : ι) (b : Bool) : (d.putB f i b).perstN = d.perstN := rfl
@[simp] theorem putB_fn {ι : Type} (f : RF ι) (i : ι) (b : Bool) : (d.putB f i b).fn = d.fn := rfl
@[simp] theorem putB_out {ι : Type} (f : RF ι) (i : ι) (b : Bool) : (d.putB f i b).out = d.out := rfl
@[simp] theorem putB_jtagTap {ι : Type} (f : RF ι) (i : ι) (b : Bool) : (d.putB f i b).jtagTap = d.jtagTap := rfl
@[simp] theorem putB_jtagHalt {ι : Type} (f : RF ι) (i : ι) (b : Bool) : (d.putB f i b).jtagHalt = d.jtagHalt := rfl
@[simp] theorem putB_dbgHalt {ι : Type} (f : RF ι) (i : ι) (b : Bool) : (d.putB f i b).dbgHalt = d.dbgHalt := rfl
@[simp] theorem putB_qinBall {ι : Type} (f : RF ι) (i : ι) (b : Bool) : (d.putB f i b).qinBall = d.qinBall := rfl
@[simp] theorem putB_clkLost {ι : Type} (f : RF ι) (i : ι) (b : Bool) : (d.putB f i b).clkLost = d.clkLost := rfl
@[simp] theorem putB_rcOsc {ι : Type} (f : RF ι) (i : ι) (b : Bool) : (d.putB f i b).rcOsc = d.rcOsc := rfl
@[simp] theorem putB_stwRun {ι : Type} (f : RF ι) (i : ι) (b : Bool) : (d.putB f i b).stwRun = d.stwRun := rfl
@[simp] theorem putB_waitSfw {ι : Type} (f : RF ι) (i : ι) (b : Bool) : (d.putB f i b).waitSfw = d.waitSfw := rfl
@[simp] theorem putB_sfw {ι : Type} (f : RF ι) (i : ι) (b : Bool) : (d.putB f i b).sfw = d.sfw := rfl
@[simp] theorem putB_cal {ι : Type} (f : RF ι) (i : ι) (b : Bool) : (d.putB f i b).cal = d.cal := rfl
@[simp] theorem putB_pat {ι : Type} (f : RF ι) (i : ι) (b : Bool) : (d.putB f i b).pat = d.pat := rfl
@[simp] theorem putB_patOp {ι : Type} (f : RF ι) (i : ι) (b : Bool) : (d.putB f i b).patOp = d.patOp := rfl
@[simp] theorem putB_keys {ι : Type} (f : RF ι) (i : ι) (b : Bool) : (d.putB f i b).keys = d.keys := rfl
@[simp] theorem putB_bank0 {ι : Type} (f : RF ι) (i : ι) (b : Bool) : (d.putB f i b).bank0 = d.bank0 := rfl
@[simp] theorem putB_bank1 {ι : Type} (f : RF ι) (i : ι) (b : Bool) : (d.putB f i b).bank1 = d.bank1 := rfl
@[simp] theorem putB_sess {ι : Type} (f : RF ι) (i : ι) (b : Bool) : (d.putB f i b).sess = d.sess := rfl
@[simp] theorem putB_stage {ι : Type} (f : RF ι) (i : ι) (b : Bool) : (d.putB f i b).stage = d.stage := rfl
@[simp] theorem putB_submit {ι : Type} (f : RF ι) (i : ι) (b : Bool) : (d.putB f i b).submit = d.submit := rfl
@[simp] theorem putB_act {ι : Type} (f : RF ι) (i : ι) (b : Bool) : (d.putB f i b).act = d.act := rfl
@[simp] theorem putB_blk {ι : Type} (f : RF ι) (i : ι) (b : Bool) : (d.putB f i b).blk = d.blk := rfl
@[simp] theorem putB_dom {ι : Type} (f : RF ι) (i : ι) (b : Bool) : (d.putB f i b).dom = d.dom := rfl
@[simp] theorem putB_rgn {ι : Type} (f : RF ι) (i : ι) (b : Bool) : (d.putB f i b).rgn = d.rgn := rfl
@[simp] theorem putB_evq {ι : Type} (f : RF ι) (i : ι) (b : Bool) : (d.putB f i b).evq = d.evq := rfl
@[simp] theorem putB_src {ι : Type} (f : RF ι) (i : ι) (b : Bool) : (d.putB f i b).src = d.src := rfl
@[simp] theorem putB_targ {ι : Type} (f : RF ι) (i : ι) (b : Bool) : (d.putB f i b).targ = d.targ := rfl
@[simp] theorem putB_chan {ι : Type} (f : RF ι) (i : ι) (b : Bool) : (d.putB f i b).chan = d.chan := rfl
@[simp] theorem putB_turn {ι : Type} (f : RF ι) (i : ι) (b : Bool) : (d.putB f i b).turn = d.turn := rfl
@[simp] theorem putB_trace {ι : Type} (f : RF ι) (i : ι) (b : Bool) : (d.putB f i b).trace = d.trace := rfl
@[simp] theorem putB_tseq {ι : Type} (f : RF ι) (i : ι) (b : Bool) : (d.putB f i b).tseq = d.tseq := rfl
@[simp] theorem putB_hostWr {ι : Type} (f : RF ι) (i : ι) (b : Bool) : (d.putB f i b).hostWr = d.hostWr := rfl
@[simp] theorem putB_twin {ι : Type} (f : RF ι) (i : ι) (b : Bool) : (d.putB f i b).twin = d.twin := rfl
@[simp] theorem putB_failT {ι : Type} (f : RF ι) (i : ι) (b : Bool) : (d.putB f i b).failT = d.failT := rfl
@[simp] theorem putB_failWin {ι : Type} (f : RF ι) (i : ι) (b : Bool) : (d.putB f i b).failWin = d.failWin := rfl
@[simp] theorem putB_failOpen {ι : Type} (f : RF ι) (i : ι) (b : Bool) : (d.putB f i b).failOpen = d.failOpen := rfl
@[simp] theorem putB_failDue {ι : Type} (f : RF ι) (i : ι) (b : Bool) : (d.putB f i b).failDue = d.failDue := rfl
@[simp] theorem putB_failNote {ι : Type} (f : RF ι) (i : ι) (b : Bool) : (d.putB f i b).failNote = d.failNote := rfl

@[simp] theorem putI_hwin {ι : Type} (f : RF ι) (i : ι) (v : Int) : (d.putI f i v).hwin = d.hwin := rfl
@[simp] theorem putI_hw {ι : Type} (f : RF ι) (i : ι) (v : Int) : (d.putI f i v).hw = d.hw := rfl
@[simp] theorem putI_redo {ι : Type} (f : RF ι) (i : ι) (v : Int) : (d.putI f i v).redo = d.redo := rfl
@[simp] theorem putI_errNow {ι : Type} (f : RF ι) (i : ι) (v : Int) : (d.putI f i v).errNow = d.errNow := rfl
@[simp] theorem putI_clk {ι : Type} (f : RF ι) (i : ι) (v : Int) : (d.putI f i v).clk = d.clk := rfl
@[simp] theorem putI_t0 {ι : Type} (f : RF ι) (i : ι) (v : Int) : (d.putI f i v).t0 = d.t0 := rfl
@[simp] theorem putI_patT {ι : Type} (f : RF ι) (i : ι) (v : Int) : (d.putI f i v).patT = d.patT := rfl
@[simp] theorem putI_fresh {ι : Type} (f : RF ι) (i : ι) (v : Int) : (d.putI f i v).fresh = d.fresh := rfl
@[simp] theorem putI_undef {ι : Type} (f : RF ι) (i : ι) (v : Int) : (d.putI f i v).undef = d.undef := rfl
@[simp] theorem putI_supply {ι : Type} (f : RF ι) (i : ι) (v : Int) : (d.putI f i v).supply = d.supply := rfl
@[simp] theorem putI_rstN {ι : Type} (f : RF ι) (i : ι) (v : Int) : (d.putI f i v).rstN = d.rstN := rfl
@[simp] theorem putI_perstN {ι : Type} (f : RF ι) (i : ι) (v : Int) : (d.putI f i v).perstN = d.perstN := rfl
@[simp] theorem putI_fn {ι : Type} (f : RF ι) (i : ι) (v : Int) : (d.putI f i v).fn = d.fn := rfl
@[simp] theorem putI_out {ι : Type} (f : RF ι) (i : ι) (v : Int) : (d.putI f i v).out = d.out := rfl
@[simp] theorem putI_jtagTap {ι : Type} (f : RF ι) (i : ι) (v : Int) : (d.putI f i v).jtagTap = d.jtagTap := rfl
@[simp] theorem putI_jtagHalt {ι : Type} (f : RF ι) (i : ι) (v : Int) : (d.putI f i v).jtagHalt = d.jtagHalt := rfl
@[simp] theorem putI_dbgHalt {ι : Type} (f : RF ι) (i : ι) (v : Int) : (d.putI f i v).dbgHalt = d.dbgHalt := rfl
@[simp] theorem putI_qinBall {ι : Type} (f : RF ι) (i : ι) (v : Int) : (d.putI f i v).qinBall = d.qinBall := rfl
@[simp] theorem putI_clkLost {ι : Type} (f : RF ι) (i : ι) (v : Int) : (d.putI f i v).clkLost = d.clkLost := rfl
@[simp] theorem putI_rcOsc {ι : Type} (f : RF ι) (i : ι) (v : Int) : (d.putI f i v).rcOsc = d.rcOsc := rfl
@[simp] theorem putI_stwRun {ι : Type} (f : RF ι) (i : ι) (v : Int) : (d.putI f i v).stwRun = d.stwRun := rfl
@[simp] theorem putI_waitSfw {ι : Type} (f : RF ι) (i : ι) (v : Int) : (d.putI f i v).waitSfw = d.waitSfw := rfl
@[simp] theorem putI_sfw {ι : Type} (f : RF ι) (i : ι) (v : Int) : (d.putI f i v).sfw = d.sfw := rfl
@[simp] theorem putI_cal {ι : Type} (f : RF ι) (i : ι) (v : Int) : (d.putI f i v).cal = d.cal := rfl
@[simp] theorem putI_pat {ι : Type} (f : RF ι) (i : ι) (v : Int) : (d.putI f i v).pat = d.pat := rfl
@[simp] theorem putI_patOp {ι : Type} (f : RF ι) (i : ι) (v : Int) : (d.putI f i v).patOp = d.patOp := rfl
@[simp] theorem putI_keys {ι : Type} (f : RF ι) (i : ι) (v : Int) : (d.putI f i v).keys = d.keys := rfl
@[simp] theorem putI_bank0 {ι : Type} (f : RF ι) (i : ι) (v : Int) : (d.putI f i v).bank0 = d.bank0 := rfl
@[simp] theorem putI_bank1 {ι : Type} (f : RF ι) (i : ι) (v : Int) : (d.putI f i v).bank1 = d.bank1 := rfl
@[simp] theorem putI_sess {ι : Type} (f : RF ι) (i : ι) (v : Int) : (d.putI f i v).sess = d.sess := rfl
@[simp] theorem putI_stage {ι : Type} (f : RF ι) (i : ι) (v : Int) : (d.putI f i v).stage = d.stage := rfl
@[simp] theorem putI_submit {ι : Type} (f : RF ι) (i : ι) (v : Int) : (d.putI f i v).submit = d.submit := rfl
@[simp] theorem putI_act {ι : Type} (f : RF ι) (i : ι) (v : Int) : (d.putI f i v).act = d.act := rfl
@[simp] theorem putI_blk {ι : Type} (f : RF ι) (i : ι) (v : Int) : (d.putI f i v).blk = d.blk := rfl
@[simp] theorem putI_dom {ι : Type} (f : RF ι) (i : ι) (v : Int) : (d.putI f i v).dom = d.dom := rfl
@[simp] theorem putI_rgn {ι : Type} (f : RF ι) (i : ι) (v : Int) : (d.putI f i v).rgn = d.rgn := rfl
@[simp] theorem putI_evq {ι : Type} (f : RF ι) (i : ι) (v : Int) : (d.putI f i v).evq = d.evq := rfl
@[simp] theorem putI_src {ι : Type} (f : RF ι) (i : ι) (v : Int) : (d.putI f i v).src = d.src := rfl
@[simp] theorem putI_targ {ι : Type} (f : RF ι) (i : ι) (v : Int) : (d.putI f i v).targ = d.targ := rfl
@[simp] theorem putI_chan {ι : Type} (f : RF ι) (i : ι) (v : Int) : (d.putI f i v).chan = d.chan := rfl
@[simp] theorem putI_turn {ι : Type} (f : RF ι) (i : ι) (v : Int) : (d.putI f i v).turn = d.turn := rfl
@[simp] theorem putI_trace {ι : Type} (f : RF ι) (i : ι) (v : Int) : (d.putI f i v).trace = d.trace := rfl
@[simp] theorem putI_tseq {ι : Type} (f : RF ι) (i : ι) (v : Int) : (d.putI f i v).tseq = d.tseq := rfl
@[simp] theorem putI_hostWr {ι : Type} (f : RF ι) (i : ι) (v : Int) : (d.putI f i v).hostWr = d.hostWr := rfl
@[simp] theorem putI_twin {ι : Type} (f : RF ι) (i : ι) (v : Int) : (d.putI f i v).twin = d.twin := rfl
@[simp] theorem putI_failT {ι : Type} (f : RF ι) (i : ι) (v : Int) : (d.putI f i v).failT = d.failT := rfl
@[simp] theorem putI_failWin {ι : Type} (f : RF ι) (i : ι) (v : Int) : (d.putI f i v).failWin = d.failWin := rfl
@[simp] theorem putI_failOpen {ι : Type} (f : RF ι) (i : ι) (v : Int) : (d.putI f i v).failOpen = d.failOpen := rfl
@[simp] theorem putI_failDue {ι : Type} (f : RF ι) (i : ι) (v : Int) : (d.putI f i v).failDue = d.failDue := rfl
@[simp] theorem putI_failNote {ι : Type} (f : RF ι) (i : ι) (v : Int) : (d.putI f i v).failNote = d.failNote := rfl

@[simp] theorem putS_hwin {ι : Type} (f : RF ι) (i : ι) (v : Int) : (d.putS f i v).hwin = d.hwin := rfl
@[simp] theorem putS_hw {ι : Type} (f : RF ι) (i : ι) (v : Int) : (d.putS f i v).hw = d.hw := rfl
@[simp] theorem putS_redo {ι : Type} (f : RF ι) (i : ι) (v : Int) : (d.putS f i v).redo = d.redo := rfl
@[simp] theorem putS_errNow {ι : Type} (f : RF ι) (i : ι) (v : Int) : (d.putS f i v).errNow = d.errNow := rfl
@[simp] theorem putS_clk {ι : Type} (f : RF ι) (i : ι) (v : Int) : (d.putS f i v).clk = d.clk := rfl
@[simp] theorem putS_t0 {ι : Type} (f : RF ι) (i : ι) (v : Int) : (d.putS f i v).t0 = d.t0 := rfl
@[simp] theorem putS_patT {ι : Type} (f : RF ι) (i : ι) (v : Int) : (d.putS f i v).patT = d.patT := rfl
@[simp] theorem putS_fresh {ι : Type} (f : RF ι) (i : ι) (v : Int) : (d.putS f i v).fresh = d.fresh := rfl
@[simp] theorem putS_undef {ι : Type} (f : RF ι) (i : ι) (v : Int) : (d.putS f i v).undef = d.undef := rfl
@[simp] theorem putS_supply {ι : Type} (f : RF ι) (i : ι) (v : Int) : (d.putS f i v).supply = d.supply := rfl
@[simp] theorem putS_rstN {ι : Type} (f : RF ι) (i : ι) (v : Int) : (d.putS f i v).rstN = d.rstN := rfl
@[simp] theorem putS_perstN {ι : Type} (f : RF ι) (i : ι) (v : Int) : (d.putS f i v).perstN = d.perstN := rfl
@[simp] theorem putS_fn {ι : Type} (f : RF ι) (i : ι) (v : Int) : (d.putS f i v).fn = d.fn := rfl
@[simp] theorem putS_out {ι : Type} (f : RF ι) (i : ι) (v : Int) : (d.putS f i v).out = d.out := rfl
@[simp] theorem putS_jtagTap {ι : Type} (f : RF ι) (i : ι) (v : Int) : (d.putS f i v).jtagTap = d.jtagTap := rfl
@[simp] theorem putS_jtagHalt {ι : Type} (f : RF ι) (i : ι) (v : Int) : (d.putS f i v).jtagHalt = d.jtagHalt := rfl
@[simp] theorem putS_dbgHalt {ι : Type} (f : RF ι) (i : ι) (v : Int) : (d.putS f i v).dbgHalt = d.dbgHalt := rfl
@[simp] theorem putS_qinBall {ι : Type} (f : RF ι) (i : ι) (v : Int) : (d.putS f i v).qinBall = d.qinBall := rfl
@[simp] theorem putS_clkLost {ι : Type} (f : RF ι) (i : ι) (v : Int) : (d.putS f i v).clkLost = d.clkLost := rfl
@[simp] theorem putS_rcOsc {ι : Type} (f : RF ι) (i : ι) (v : Int) : (d.putS f i v).rcOsc = d.rcOsc := rfl
@[simp] theorem putS_stwRun {ι : Type} (f : RF ι) (i : ι) (v : Int) : (d.putS f i v).stwRun = d.stwRun := rfl
@[simp] theorem putS_waitSfw {ι : Type} (f : RF ι) (i : ι) (v : Int) : (d.putS f i v).waitSfw = d.waitSfw := rfl
@[simp] theorem putS_sfw {ι : Type} (f : RF ι) (i : ι) (v : Int) : (d.putS f i v).sfw = d.sfw := rfl
@[simp] theorem putS_cal {ι : Type} (f : RF ι) (i : ι) (v : Int) : (d.putS f i v).cal = d.cal := rfl
@[simp] theorem putS_pat {ι : Type} (f : RF ι) (i : ι) (v : Int) : (d.putS f i v).pat = d.pat := rfl
@[simp] theorem putS_patOp {ι : Type} (f : RF ι) (i : ι) (v : Int) : (d.putS f i v).patOp = d.patOp := rfl
@[simp] theorem putS_keys {ι : Type} (f : RF ι) (i : ι) (v : Int) : (d.putS f i v).keys = d.keys := rfl
@[simp] theorem putS_bank0 {ι : Type} (f : RF ι) (i : ι) (v : Int) : (d.putS f i v).bank0 = d.bank0 := rfl
@[simp] theorem putS_bank1 {ι : Type} (f : RF ι) (i : ι) (v : Int) : (d.putS f i v).bank1 = d.bank1 := rfl
@[simp] theorem putS_sess {ι : Type} (f : RF ι) (i : ι) (v : Int) : (d.putS f i v).sess = d.sess := rfl
@[simp] theorem putS_stage {ι : Type} (f : RF ι) (i : ι) (v : Int) : (d.putS f i v).stage = d.stage := rfl
@[simp] theorem putS_submit {ι : Type} (f : RF ι) (i : ι) (v : Int) : (d.putS f i v).submit = d.submit := rfl
@[simp] theorem putS_act {ι : Type} (f : RF ι) (i : ι) (v : Int) : (d.putS f i v).act = d.act := rfl
@[simp] theorem putS_blk {ι : Type} (f : RF ι) (i : ι) (v : Int) : (d.putS f i v).blk = d.blk := rfl
@[simp] theorem putS_dom {ι : Type} (f : RF ι) (i : ι) (v : Int) : (d.putS f i v).dom = d.dom := rfl
@[simp] theorem putS_rgn {ι : Type} (f : RF ι) (i : ι) (v : Int) : (d.putS f i v).rgn = d.rgn := rfl
@[simp] theorem putS_evq {ι : Type} (f : RF ι) (i : ι) (v : Int) : (d.putS f i v).evq = d.evq := rfl
@[simp] theorem putS_src {ι : Type} (f : RF ι) (i : ι) (v : Int) : (d.putS f i v).src = d.src := rfl
@[simp] theorem putS_targ {ι : Type} (f : RF ι) (i : ι) (v : Int) : (d.putS f i v).targ = d.targ := rfl
@[simp] theorem putS_chan {ι : Type} (f : RF ι) (i : ι) (v : Int) : (d.putS f i v).chan = d.chan := rfl
@[simp] theorem putS_turn {ι : Type} (f : RF ι) (i : ι) (v : Int) : (d.putS f i v).turn = d.turn := rfl
@[simp] theorem putS_trace {ι : Type} (f : RF ι) (i : ι) (v : Int) : (d.putS f i v).trace = d.trace := rfl
@[simp] theorem putS_tseq {ι : Type} (f : RF ι) (i : ι) (v : Int) : (d.putS f i v).tseq = d.tseq := rfl
@[simp] theorem putS_hostWr {ι : Type} (f : RF ι) (i : ι) (v : Int) : (d.putS f i v).hostWr = d.hostWr := rfl
@[simp] theorem putS_twin {ι : Type} (f : RF ι) (i : ι) (v : Int) : (d.putS f i v).twin = d.twin := rfl
@[simp] theorem putS_failT {ι : Type} (f : RF ι) (i : ι) (v : Int) : (d.putS f i v).failT = d.failT := rfl
@[simp] theorem putS_failWin {ι : Type} (f : RF ι) (i : ι) (v : Int) : (d.putS f i v).failWin = d.failWin := rfl
@[simp] theorem putS_failOpen {ι : Type} (f : RF ι) (i : ι) (v : Int) : (d.putS f i v).failOpen = d.failOpen := rfl
@[simp] theorem putS_failDue {ι : Type} (f : RF ι) (i : ι) (v : Int) : (d.putS f i v).failDue = d.failDue := rfl
@[simp] theorem putS_failNote {ι : Type} (f : RF ι) (i : ι) (v : Int) : (d.putS f i v).failNote = d.failNote := rfl

@[simp] theorem inc_hwin {ι : Type} (f : RF ι) (i : ι) : (d.inc f i).hwin = d.hwin := rfl
@[simp] theorem inc_redo {ι : Type} (f : RF ι) (i : ι) : (d.inc f i).redo = d.redo := rfl
@[simp] theorem inc_errNow {ι : Type} (f : RF ι) (i : ι) : (d.inc f i).errNow = d.errNow := rfl
@[simp] theorem inc_hw {ι : Type} (f : RF ι) (i : ι) : (d.inc f i).hw = (f.addr i, f.lo, false) :: d.hw := rfl
@[simp] theorem inc_clk {ι : Type} (f : RF ι) (i : ι) : (d.inc f i).clk = d.clk := rfl
@[simp] theorem inc_t0 {ι : Type} (f : RF ι) (i : ι) : (d.inc f i).t0 = d.t0 := rfl
@[simp] theorem inc_patT {ι : Type} (f : RF ι) (i : ι) : (d.inc f i).patT = d.patT := rfl
@[simp] theorem inc_fresh {ι : Type} (f : RF ι) (i : ι) : (d.inc f i).fresh = d.fresh := rfl
@[simp] theorem inc_undef {ι : Type} (f : RF ι) (i : ι) : (d.inc f i).undef = d.undef := rfl
@[simp] theorem inc_supply {ι : Type} (f : RF ι) (i : ι) : (d.inc f i).supply = d.supply := rfl
@[simp] theorem inc_rstN {ι : Type} (f : RF ι) (i : ι) : (d.inc f i).rstN = d.rstN := rfl
@[simp] theorem inc_perstN {ι : Type} (f : RF ι) (i : ι) : (d.inc f i).perstN = d.perstN := rfl
@[simp] theorem inc_fn {ι : Type} (f : RF ι) (i : ι) : (d.inc f i).fn = d.fn := rfl
@[simp] theorem inc_out {ι : Type} (f : RF ι) (i : ι) : (d.inc f i).out = d.out := rfl
@[simp] theorem inc_jtagTap {ι : Type} (f : RF ι) (i : ι) : (d.inc f i).jtagTap = d.jtagTap := rfl
@[simp] theorem inc_jtagHalt {ι : Type} (f : RF ι) (i : ι) : (d.inc f i).jtagHalt = d.jtagHalt := rfl
@[simp] theorem inc_dbgHalt {ι : Type} (f : RF ι) (i : ι) : (d.inc f i).dbgHalt = d.dbgHalt := rfl
@[simp] theorem inc_qinBall {ι : Type} (f : RF ι) (i : ι) : (d.inc f i).qinBall = d.qinBall := rfl
@[simp] theorem inc_clkLost {ι : Type} (f : RF ι) (i : ι) : (d.inc f i).clkLost = d.clkLost := rfl
@[simp] theorem inc_rcOsc {ι : Type} (f : RF ι) (i : ι) : (d.inc f i).rcOsc = d.rcOsc := rfl
@[simp] theorem inc_stwRun {ι : Type} (f : RF ι) (i : ι) : (d.inc f i).stwRun = d.stwRun := rfl
@[simp] theorem inc_waitSfw {ι : Type} (f : RF ι) (i : ι) : (d.inc f i).waitSfw = d.waitSfw := rfl
@[simp] theorem inc_sfw {ι : Type} (f : RF ι) (i : ι) : (d.inc f i).sfw = d.sfw := rfl
@[simp] theorem inc_cal {ι : Type} (f : RF ι) (i : ι) : (d.inc f i).cal = d.cal := rfl
@[simp] theorem inc_pat {ι : Type} (f : RF ι) (i : ι) : (d.inc f i).pat = d.pat := rfl
@[simp] theorem inc_patOp {ι : Type} (f : RF ι) (i : ι) : (d.inc f i).patOp = d.patOp := rfl
@[simp] theorem inc_keys {ι : Type} (f : RF ι) (i : ι) : (d.inc f i).keys = d.keys := rfl
@[simp] theorem inc_bank0 {ι : Type} (f : RF ι) (i : ι) : (d.inc f i).bank0 = d.bank0 := rfl
@[simp] theorem inc_bank1 {ι : Type} (f : RF ι) (i : ι) : (d.inc f i).bank1 = d.bank1 := rfl
@[simp] theorem inc_sess {ι : Type} (f : RF ι) (i : ι) : (d.inc f i).sess = d.sess := rfl
@[simp] theorem inc_stage {ι : Type} (f : RF ι) (i : ι) : (d.inc f i).stage = d.stage := rfl
@[simp] theorem inc_submit {ι : Type} (f : RF ι) (i : ι) : (d.inc f i).submit = d.submit := rfl
@[simp] theorem inc_act {ι : Type} (f : RF ι) (i : ι) : (d.inc f i).act = d.act := rfl
@[simp] theorem inc_blk {ι : Type} (f : RF ι) (i : ι) : (d.inc f i).blk = d.blk := rfl
@[simp] theorem inc_dom {ι : Type} (f : RF ι) (i : ι) : (d.inc f i).dom = d.dom := rfl
@[simp] theorem inc_rgn {ι : Type} (f : RF ι) (i : ι) : (d.inc f i).rgn = d.rgn := rfl
@[simp] theorem inc_evq {ι : Type} (f : RF ι) (i : ι) : (d.inc f i).evq = d.evq := rfl
@[simp] theorem inc_src {ι : Type} (f : RF ι) (i : ι) : (d.inc f i).src = d.src := rfl
@[simp] theorem inc_targ {ι : Type} (f : RF ι) (i : ι) : (d.inc f i).targ = d.targ := rfl
@[simp] theorem inc_chan {ι : Type} (f : RF ι) (i : ι) : (d.inc f i).chan = d.chan := rfl
@[simp] theorem inc_turn {ι : Type} (f : RF ι) (i : ι) : (d.inc f i).turn = d.turn := rfl
@[simp] theorem inc_trace {ι : Type} (f : RF ι) (i : ι) : (d.inc f i).trace = d.trace := rfl
@[simp] theorem inc_tseq {ι : Type} (f : RF ι) (i : ι) : (d.inc f i).tseq = d.tseq := rfl
@[simp] theorem inc_hostWr {ι : Type} (f : RF ι) (i : ι) : (d.inc f i).hostWr = d.hostWr := rfl
@[simp] theorem inc_twin {ι : Type} (f : RF ι) (i : ι) : (d.inc f i).twin = d.twin := rfl
@[simp] theorem inc_failT {ι : Type} (f : RF ι) (i : ι) : (d.inc f i).failT = d.failT := rfl
@[simp] theorem inc_failWin {ι : Type} (f : RF ι) (i : ι) : (d.inc f i).failWin = d.failWin := rfl
@[simp] theorem inc_failOpen {ι : Type} (f : RF ι) (i : ι) : (d.inc f i).failOpen = d.failOpen := rfl
@[simp] theorem inc_failDue {ι : Type} (f : RF ι) (i : ι) : (d.inc f i).failDue = d.failDue := rfl
@[simp] theorem inc_failNote {ι : Type} (f : RF ι) (i : ι) : (d.inc f i).failNote = d.failNote := rfl

@[simp] theorem incSat_hwin {ι : Type} (f : RF ι) (i : ι) : (d.incSat f i).hwin = d.hwin := rfl
@[simp] theorem incSat_redo {ι : Type} (f : RF ι) (i : ι) : (d.incSat f i).redo = d.redo := rfl
@[simp] theorem incSat_errNow {ι : Type} (f : RF ι) (i : ι) : (d.incSat f i).errNow = d.errNow := rfl
@[simp] theorem incSat_hw {ι : Type} (f : RF ι) (i : ι) : (d.incSat f i).hw = (f.addr i, f.lo, true) :: d.hw := rfl
@[simp] theorem incSat_clk {ι : Type} (f : RF ι) (i : ι) : (d.incSat f i).clk = d.clk := rfl
@[simp] theorem incSat_t0 {ι : Type} (f : RF ι) (i : ι) : (d.incSat f i).t0 = d.t0 := rfl
@[simp] theorem incSat_patT {ι : Type} (f : RF ι) (i : ι) : (d.incSat f i).patT = d.patT := rfl
@[simp] theorem incSat_fresh {ι : Type} (f : RF ι) (i : ι) : (d.incSat f i).fresh = d.fresh := rfl
@[simp] theorem incSat_undef {ι : Type} (f : RF ι) (i : ι) : (d.incSat f i).undef = d.undef := rfl
@[simp] theorem incSat_supply {ι : Type} (f : RF ι) (i : ι) : (d.incSat f i).supply = d.supply := rfl
@[simp] theorem incSat_rstN {ι : Type} (f : RF ι) (i : ι) : (d.incSat f i).rstN = d.rstN := rfl
@[simp] theorem incSat_perstN {ι : Type} (f : RF ι) (i : ι) : (d.incSat f i).perstN = d.perstN := rfl
@[simp] theorem incSat_fn {ι : Type} (f : RF ι) (i : ι) : (d.incSat f i).fn = d.fn := rfl
@[simp] theorem incSat_out {ι : Type} (f : RF ι) (i : ι) : (d.incSat f i).out = d.out := rfl
@[simp] theorem incSat_jtagTap {ι : Type} (f : RF ι) (i : ι) : (d.incSat f i).jtagTap = d.jtagTap := rfl
@[simp] theorem incSat_jtagHalt {ι : Type} (f : RF ι) (i : ι) : (d.incSat f i).jtagHalt = d.jtagHalt := rfl
@[simp] theorem incSat_dbgHalt {ι : Type} (f : RF ι) (i : ι) : (d.incSat f i).dbgHalt = d.dbgHalt := rfl
@[simp] theorem incSat_qinBall {ι : Type} (f : RF ι) (i : ι) : (d.incSat f i).qinBall = d.qinBall := rfl
@[simp] theorem incSat_clkLost {ι : Type} (f : RF ι) (i : ι) : (d.incSat f i).clkLost = d.clkLost := rfl
@[simp] theorem incSat_rcOsc {ι : Type} (f : RF ι) (i : ι) : (d.incSat f i).rcOsc = d.rcOsc := rfl
@[simp] theorem incSat_stwRun {ι : Type} (f : RF ι) (i : ι) : (d.incSat f i).stwRun = d.stwRun := rfl
@[simp] theorem incSat_waitSfw {ι : Type} (f : RF ι) (i : ι) : (d.incSat f i).waitSfw = d.waitSfw := rfl
@[simp] theorem incSat_sfw {ι : Type} (f : RF ι) (i : ι) : (d.incSat f i).sfw = d.sfw := rfl
@[simp] theorem incSat_cal {ι : Type} (f : RF ι) (i : ι) : (d.incSat f i).cal = d.cal := rfl
@[simp] theorem incSat_pat {ι : Type} (f : RF ι) (i : ι) : (d.incSat f i).pat = d.pat := rfl
@[simp] theorem incSat_patOp {ι : Type} (f : RF ι) (i : ι) : (d.incSat f i).patOp = d.patOp := rfl
@[simp] theorem incSat_keys {ι : Type} (f : RF ι) (i : ι) : (d.incSat f i).keys = d.keys := rfl
@[simp] theorem incSat_bank0 {ι : Type} (f : RF ι) (i : ι) : (d.incSat f i).bank0 = d.bank0 := rfl
@[simp] theorem incSat_bank1 {ι : Type} (f : RF ι) (i : ι) : (d.incSat f i).bank1 = d.bank1 := rfl
@[simp] theorem incSat_sess {ι : Type} (f : RF ι) (i : ι) : (d.incSat f i).sess = d.sess := rfl
@[simp] theorem incSat_stage {ι : Type} (f : RF ι) (i : ι) : (d.incSat f i).stage = d.stage := rfl
@[simp] theorem incSat_submit {ι : Type} (f : RF ι) (i : ι) : (d.incSat f i).submit = d.submit := rfl
@[simp] theorem incSat_act {ι : Type} (f : RF ι) (i : ι) : (d.incSat f i).act = d.act := rfl
@[simp] theorem incSat_blk {ι : Type} (f : RF ι) (i : ι) : (d.incSat f i).blk = d.blk := rfl
@[simp] theorem incSat_dom {ι : Type} (f : RF ι) (i : ι) : (d.incSat f i).dom = d.dom := rfl
@[simp] theorem incSat_rgn {ι : Type} (f : RF ι) (i : ι) : (d.incSat f i).rgn = d.rgn := rfl
@[simp] theorem incSat_evq {ι : Type} (f : RF ι) (i : ι) : (d.incSat f i).evq = d.evq := rfl
@[simp] theorem incSat_src {ι : Type} (f : RF ι) (i : ι) : (d.incSat f i).src = d.src := rfl
@[simp] theorem incSat_targ {ι : Type} (f : RF ι) (i : ι) : (d.incSat f i).targ = d.targ := rfl
@[simp] theorem incSat_chan {ι : Type} (f : RF ι) (i : ι) : (d.incSat f i).chan = d.chan := rfl
@[simp] theorem incSat_turn {ι : Type} (f : RF ι) (i : ι) : (d.incSat f i).turn = d.turn := rfl
@[simp] theorem incSat_trace {ι : Type} (f : RF ι) (i : ι) : (d.incSat f i).trace = d.trace := rfl
@[simp] theorem incSat_tseq {ι : Type} (f : RF ι) (i : ι) : (d.incSat f i).tseq = d.tseq := rfl
@[simp] theorem incSat_hostWr {ι : Type} (f : RF ι) (i : ι) : (d.incSat f i).hostWr = d.hostWr := rfl
@[simp] theorem incSat_twin {ι : Type} (f : RF ι) (i : ι) : (d.incSat f i).twin = d.twin := rfl
@[simp] theorem incSat_failT {ι : Type} (f : RF ι) (i : ι) : (d.incSat f i).failT = d.failT := rfl
@[simp] theorem incSat_failWin {ι : Type} (f : RF ι) (i : ι) : (d.incSat f i).failWin = d.failWin := rfl
@[simp] theorem incSat_failOpen {ι : Type} (f : RF ι) (i : ι) : (d.incSat f i).failOpen = d.failOpen := rfl
@[simp] theorem incSat_failDue {ι : Type} (f : RF ι) (i : ι) : (d.incSat f i).failDue = d.failDue := rfl
@[simp] theorem incSat_failNote {ι : Type} (f : RF ι) (i : ι) : (d.incSat f i).failNote = d.failNote := rfl

@[simp] theorem cmdAgain_hwin (a v : Nat) : (d.cmdAgain a v).hwin = d.hwin := rfl
@[simp] theorem cmdAgain_hw (a v : Nat) : (d.cmdAgain a v).hw = d.hw := rfl
@[simp] theorem cmdAgain_errNow (a v : Nat) : (d.cmdAgain a v).errNow = d.errNow := rfl
@[simp] theorem cmdAgain_clk (a v : Nat) : (d.cmdAgain a v).clk = d.clk := rfl
@[simp] theorem cmdAgain_t0 (a v : Nat) : (d.cmdAgain a v).t0 = d.t0 := rfl
@[simp] theorem cmdAgain_patT (a v : Nat) : (d.cmdAgain a v).patT = d.patT := rfl
@[simp] theorem cmdAgain_fresh (a v : Nat) : (d.cmdAgain a v).fresh = d.fresh := rfl
@[simp] theorem cmdAgain_undef (a v : Nat) : (d.cmdAgain a v).undef = d.undef := rfl
@[simp] theorem cmdAgain_supply (a v : Nat) : (d.cmdAgain a v).supply = d.supply := rfl
@[simp] theorem cmdAgain_rstN (a v : Nat) : (d.cmdAgain a v).rstN = d.rstN := rfl
@[simp] theorem cmdAgain_perstN (a v : Nat) : (d.cmdAgain a v).perstN = d.perstN := rfl
@[simp] theorem cmdAgain_fn (a v : Nat) : (d.cmdAgain a v).fn = d.fn := rfl
@[simp] theorem cmdAgain_out (a v : Nat) : (d.cmdAgain a v).out = d.out := rfl
@[simp] theorem cmdAgain_jtagTap (a v : Nat) : (d.cmdAgain a v).jtagTap = d.jtagTap := rfl
@[simp] theorem cmdAgain_jtagHalt (a v : Nat) : (d.cmdAgain a v).jtagHalt = d.jtagHalt := rfl
@[simp] theorem cmdAgain_dbgHalt (a v : Nat) : (d.cmdAgain a v).dbgHalt = d.dbgHalt := rfl
@[simp] theorem cmdAgain_qinBall (a v : Nat) : (d.cmdAgain a v).qinBall = d.qinBall := rfl
@[simp] theorem cmdAgain_clkLost (a v : Nat) : (d.cmdAgain a v).clkLost = d.clkLost := rfl
@[simp] theorem cmdAgain_rcOsc (a v : Nat) : (d.cmdAgain a v).rcOsc = d.rcOsc := rfl
@[simp] theorem cmdAgain_stwRun (a v : Nat) : (d.cmdAgain a v).stwRun = d.stwRun := rfl
@[simp] theorem cmdAgain_waitSfw (a v : Nat) : (d.cmdAgain a v).waitSfw = d.waitSfw := rfl
@[simp] theorem cmdAgain_sfw (a v : Nat) : (d.cmdAgain a v).sfw = d.sfw := rfl
@[simp] theorem cmdAgain_cal (a v : Nat) : (d.cmdAgain a v).cal = d.cal := rfl
@[simp] theorem cmdAgain_pat (a v : Nat) : (d.cmdAgain a v).pat = d.pat := rfl
@[simp] theorem cmdAgain_patOp (a v : Nat) : (d.cmdAgain a v).patOp = d.patOp := rfl
@[simp] theorem cmdAgain_keys (a v : Nat) : (d.cmdAgain a v).keys = d.keys := rfl
@[simp] theorem cmdAgain_bank0 (a v : Nat) : (d.cmdAgain a v).bank0 = d.bank0 := rfl
@[simp] theorem cmdAgain_bank1 (a v : Nat) : (d.cmdAgain a v).bank1 = d.bank1 := rfl
@[simp] theorem cmdAgain_sess (a v : Nat) : (d.cmdAgain a v).sess = d.sess := rfl
@[simp] theorem cmdAgain_stage (a v : Nat) : (d.cmdAgain a v).stage = d.stage := rfl
@[simp] theorem cmdAgain_submit (a v : Nat) : (d.cmdAgain a v).submit = d.submit := rfl
@[simp] theorem cmdAgain_act (a v : Nat) : (d.cmdAgain a v).act = d.act := rfl
@[simp] theorem cmdAgain_blk (a v : Nat) : (d.cmdAgain a v).blk = d.blk := rfl
@[simp] theorem cmdAgain_dom (a v : Nat) : (d.cmdAgain a v).dom = d.dom := rfl
@[simp] theorem cmdAgain_rgn (a v : Nat) : (d.cmdAgain a v).rgn = d.rgn := rfl
@[simp] theorem cmdAgain_evq (a v : Nat) : (d.cmdAgain a v).evq = d.evq := rfl
@[simp] theorem cmdAgain_src (a v : Nat) : (d.cmdAgain a v).src = d.src := rfl
@[simp] theorem cmdAgain_targ (a v : Nat) : (d.cmdAgain a v).targ = d.targ := rfl
@[simp] theorem cmdAgain_chan (a v : Nat) : (d.cmdAgain a v).chan = d.chan := rfl
@[simp] theorem cmdAgain_turn (a v : Nat) : (d.cmdAgain a v).turn = d.turn := rfl
@[simp] theorem cmdAgain_trace (a v : Nat) : (d.cmdAgain a v).trace = d.trace := rfl
@[simp] theorem cmdAgain_tseq (a v : Nat) : (d.cmdAgain a v).tseq = d.tseq := rfl
@[simp] theorem cmdAgain_hostWr (a v : Nat) : (d.cmdAgain a v).hostWr = d.hostWr := rfl
@[simp] theorem cmdAgain_twin (a v : Nat) : (d.cmdAgain a v).twin = d.twin := rfl
@[simp] theorem cmdAgain_failT (a v : Nat) : (d.cmdAgain a v).failT = d.failT := rfl
@[simp] theorem cmdAgain_failWin (a v : Nat) : (d.cmdAgain a v).failWin = d.failWin := rfl
@[simp] theorem cmdAgain_failOpen (a v : Nat) : (d.cmdAgain a v).failOpen = d.failOpen := rfl
@[simp] theorem cmdAgain_failDue (a v : Nat) : (d.cmdAgain a v).failDue = d.failDue := rfl
@[simp] theorem cmdAgain_failNote (a v : Nat) : (d.cmdAgain a v).failNote = d.failNote := rfl
@[simp] theorem cmdAgain_regs (a v : Nat) : (d.cmdAgain a v).regs = d.regs := rfl
@[simp] theorem cmdAgain_redo (a v : Nat) : (d.cmdAgain a v).redo = (a, v &&& (d.reg a).toNat) :: d.redo := rfl

@[simp] theorem free_regs : (d.free.2).regs = d.regs := rfl
@[simp] theorem free_hwin : (d.free.2).hwin = d.hwin := rfl
@[simp] theorem free_hw : (d.free.2).hw = d.hw := rfl
@[simp] theorem free_redo : (d.free.2).redo = d.redo := rfl
@[simp] theorem free_errNow : (d.free.2).errNow = d.errNow := rfl
@[simp] theorem free_clk : (d.free.2).clk = d.clk := rfl
@[simp] theorem free_t0 : (d.free.2).t0 = d.t0 := rfl
@[simp] theorem free_patT : (d.free.2).patT = d.patT := rfl
@[simp] theorem free_fresh : (d.free.2).fresh = d.fresh + 1 := rfl
@[simp] theorem free_undef : (d.free.2).undef = d.undef := rfl
@[simp] theorem free_supply : (d.free.2).supply = d.supply := rfl
@[simp] theorem free_rstN : (d.free.2).rstN = d.rstN := rfl
@[simp] theorem free_perstN : (d.free.2).perstN = d.perstN := rfl
@[simp] theorem free_fn : (d.free.2).fn = d.fn := rfl
@[simp] theorem free_out : (d.free.2).out = d.out := rfl
@[simp] theorem free_jtagTap : (d.free.2).jtagTap = d.jtagTap := rfl
@[simp] theorem free_jtagHalt : (d.free.2).jtagHalt = d.jtagHalt := rfl
@[simp] theorem free_dbgHalt : (d.free.2).dbgHalt = d.dbgHalt := rfl
@[simp] theorem free_qinBall : (d.free.2).qinBall = d.qinBall := rfl
@[simp] theorem free_clkLost : (d.free.2).clkLost = d.clkLost := rfl
@[simp] theorem free_rcOsc : (d.free.2).rcOsc = d.rcOsc := rfl
@[simp] theorem free_stwRun : (d.free.2).stwRun = d.stwRun := rfl
@[simp] theorem free_waitSfw : (d.free.2).waitSfw = d.waitSfw := rfl
@[simp] theorem free_sfw : (d.free.2).sfw = d.sfw := rfl
@[simp] theorem free_cal : (d.free.2).cal = d.cal := rfl
@[simp] theorem free_pat : (d.free.2).pat = d.pat := rfl
@[simp] theorem free_patOp : (d.free.2).patOp = d.patOp := rfl
@[simp] theorem free_keys : (d.free.2).keys = d.keys := rfl
@[simp] theorem free_bank0 : (d.free.2).bank0 = d.bank0 := rfl
@[simp] theorem free_bank1 : (d.free.2).bank1 = d.bank1 := rfl
@[simp] theorem free_sess : (d.free.2).sess = d.sess := rfl
@[simp] theorem free_stage : (d.free.2).stage = d.stage := rfl
@[simp] theorem free_submit : (d.free.2).submit = d.submit := rfl
@[simp] theorem free_act : (d.free.2).act = d.act := rfl
@[simp] theorem free_blk : (d.free.2).blk = d.blk := rfl
@[simp] theorem free_dom : (d.free.2).dom = d.dom := rfl
@[simp] theorem free_rgn : (d.free.2).rgn = d.rgn := rfl
@[simp] theorem free_evq : (d.free.2).evq = d.evq := rfl
@[simp] theorem free_src : (d.free.2).src = d.src := rfl
@[simp] theorem free_targ : (d.free.2).targ = d.targ := rfl
@[simp] theorem free_chan : (d.free.2).chan = d.chan := rfl
@[simp] theorem free_turn : (d.free.2).turn = d.turn := rfl
@[simp] theorem free_trace : (d.free.2).trace = d.trace := rfl
@[simp] theorem free_tseq : (d.free.2).tseq = d.tseq := rfl
@[simp] theorem free_hostWr : (d.free.2).hostWr = d.hostWr := rfl
@[simp] theorem free_twin : (d.free.2).twin = d.twin := rfl
@[simp] theorem free_failT : (d.free.2).failT = d.failT := rfl
@[simp] theorem free_failWin : (d.free.2).failWin = d.failWin := rfl
@[simp] theorem free_failOpen : (d.free.2).failOpen = d.failOpen := rfl
@[simp] theorem free_failDue : (d.free.2).failDue = d.failDue := rfl
@[simp] theorem free_failNote : (d.free.2).failNote = d.failNote := rfl
@[simp] theorem free_reg  (x : Nat) : (d.free.2).reg x = d.reg x := rfl
@[simp] theorem free_fld  {κ : Type} (g : RF κ) (j : κ) : (d.free.2).fld g j = d.fld g j := rfl
@[simp] theorem free_bit  {κ : Type} (g : RF κ) (j : κ) : (d.free.2).bit g j = d.bit g j := rfl

@[simp] theorem onB_regs (nn : Fin 16) (f : Blk → Blk) : (d.onB nn f).regs = d.regs := rfl
@[simp] theorem onB_hwin (nn : Fin 16) (f : Blk → Blk) : (d.onB nn f).hwin = d.hwin := rfl
@[simp] theorem onB_hw (nn : Fin 16) (f : Blk → Blk) : (d.onB nn f).hw = d.hw := rfl
@[simp] theorem onB_redo (nn : Fin 16) (f : Blk → Blk) : (d.onB nn f).redo = d.redo := rfl
@[simp] theorem onB_errNow (nn : Fin 16) (f : Blk → Blk) : (d.onB nn f).errNow = d.errNow := rfl
@[simp] theorem onB_clk (nn : Fin 16) (f : Blk → Blk) : (d.onB nn f).clk = d.clk := rfl
@[simp] theorem onB_t0 (nn : Fin 16) (f : Blk → Blk) : (d.onB nn f).t0 = d.t0 := rfl
@[simp] theorem onB_patT (nn : Fin 16) (f : Blk → Blk) : (d.onB nn f).patT = d.patT := rfl
@[simp] theorem onB_fresh (nn : Fin 16) (f : Blk → Blk) : (d.onB nn f).fresh = d.fresh := rfl
@[simp] theorem onB_undef (nn : Fin 16) (f : Blk → Blk) : (d.onB nn f).undef = d.undef := rfl
@[simp] theorem onB_supply (nn : Fin 16) (f : Blk → Blk) : (d.onB nn f).supply = d.supply := rfl
@[simp] theorem onB_rstN (nn : Fin 16) (f : Blk → Blk) : (d.onB nn f).rstN = d.rstN := rfl
@[simp] theorem onB_perstN (nn : Fin 16) (f : Blk → Blk) : (d.onB nn f).perstN = d.perstN := rfl
@[simp] theorem onB_fn (nn : Fin 16) (f : Blk → Blk) : (d.onB nn f).fn = d.fn := rfl
@[simp] theorem onB_out (nn : Fin 16) (f : Blk → Blk) : (d.onB nn f).out = d.out := rfl
@[simp] theorem onB_jtagTap (nn : Fin 16) (f : Blk → Blk) : (d.onB nn f).jtagTap = d.jtagTap := rfl
@[simp] theorem onB_jtagHalt (nn : Fin 16) (f : Blk → Blk) : (d.onB nn f).jtagHalt = d.jtagHalt := rfl
@[simp] theorem onB_dbgHalt (nn : Fin 16) (f : Blk → Blk) : (d.onB nn f).dbgHalt = d.dbgHalt := rfl
@[simp] theorem onB_qinBall (nn : Fin 16) (f : Blk → Blk) : (d.onB nn f).qinBall = d.qinBall := rfl
@[simp] theorem onB_clkLost (nn : Fin 16) (f : Blk → Blk) : (d.onB nn f).clkLost = d.clkLost := rfl
@[simp] theorem onB_rcOsc (nn : Fin 16) (f : Blk → Blk) : (d.onB nn f).rcOsc = d.rcOsc := rfl
@[simp] theorem onB_stwRun (nn : Fin 16) (f : Blk → Blk) : (d.onB nn f).stwRun = d.stwRun := rfl
@[simp] theorem onB_waitSfw (nn : Fin 16) (f : Blk → Blk) : (d.onB nn f).waitSfw = d.waitSfw := rfl
@[simp] theorem onB_sfw (nn : Fin 16) (f : Blk → Blk) : (d.onB nn f).sfw = d.sfw := rfl
@[simp] theorem onB_cal (nn : Fin 16) (f : Blk → Blk) : (d.onB nn f).cal = d.cal := rfl
@[simp] theorem onB_pat (nn : Fin 16) (f : Blk → Blk) : (d.onB nn f).pat = d.pat := rfl
@[simp] theorem onB_patOp (nn : Fin 16) (f : Blk → Blk) : (d.onB nn f).patOp = d.patOp := rfl
@[simp] theorem onB_keys (nn : Fin 16) (f : Blk → Blk) : (d.onB nn f).keys = d.keys := rfl
@[simp] theorem onB_bank0 (nn : Fin 16) (f : Blk → Blk) : (d.onB nn f).bank0 = d.bank0 := rfl
@[simp] theorem onB_bank1 (nn : Fin 16) (f : Blk → Blk) : (d.onB nn f).bank1 = d.bank1 := rfl
@[simp] theorem onB_sess (nn : Fin 16) (f : Blk → Blk) : (d.onB nn f).sess = d.sess := rfl
@[simp] theorem onB_stage (nn : Fin 16) (f : Blk → Blk) : (d.onB nn f).stage = d.stage := rfl
@[simp] theorem onB_submit (nn : Fin 16) (f : Blk → Blk) : (d.onB nn f).submit = d.submit := rfl
@[simp] theorem onB_act (nn : Fin 16) (f : Blk → Blk) : (d.onB nn f).act = d.act := rfl
@[simp] theorem onB_blk (nn : Fin 16) (f : Blk → Blk) : (d.onB nn f).blk = vmod d.blk nn f := rfl
@[simp] theorem onB_dom (nn : Fin 16) (f : Blk → Blk) : (d.onB nn f).dom = d.dom := rfl
@[simp] theorem onB_rgn (nn : Fin 16) (f : Blk → Blk) : (d.onB nn f).rgn = d.rgn := rfl
@[simp] theorem onB_evq (nn : Fin 16) (f : Blk → Blk) : (d.onB nn f).evq = d.evq := rfl
@[simp] theorem onB_src (nn : Fin 16) (f : Blk → Blk) : (d.onB nn f).src = d.src := rfl
@[simp] theorem onB_targ (nn : Fin 16) (f : Blk → Blk) : (d.onB nn f).targ = d.targ := rfl
@[simp] theorem onB_chan (nn : Fin 16) (f : Blk → Blk) : (d.onB nn f).chan = d.chan := rfl
@[simp] theorem onB_turn (nn : Fin 16) (f : Blk → Blk) : (d.onB nn f).turn = d.turn := rfl
@[simp] theorem onB_trace (nn : Fin 16) (f : Blk → Blk) : (d.onB nn f).trace = d.trace := rfl
@[simp] theorem onB_tseq (nn : Fin 16) (f : Blk → Blk) : (d.onB nn f).tseq = d.tseq := rfl
@[simp] theorem onB_hostWr (nn : Fin 16) (f : Blk → Blk) : (d.onB nn f).hostWr = d.hostWr := rfl
@[simp] theorem onB_twin (nn : Fin 16) (f : Blk → Blk) : (d.onB nn f).twin = d.twin := rfl
@[simp] theorem onB_failT (nn : Fin 16) (f : Blk → Blk) : (d.onB nn f).failT = d.failT := rfl
@[simp] theorem onB_failWin (nn : Fin 16) (f : Blk → Blk) : (d.onB nn f).failWin = d.failWin := rfl
@[simp] theorem onB_failOpen (nn : Fin 16) (f : Blk → Blk) : (d.onB nn f).failOpen = d.failOpen := rfl
@[simp] theorem onB_failDue (nn : Fin 16) (f : Blk → Blk) : (d.onB nn f).failDue = d.failDue := rfl
@[simp] theorem onB_failNote (nn : Fin 16) (f : Blk → Blk) : (d.onB nn f).failNote = d.failNote := rfl
@[simp] theorem onB_reg (nn : Fin 16) (f : Blk → Blk) (x : Nat) : (d.onB nn f).reg x = d.reg x := rfl
@[simp] theorem onB_fld (nn : Fin 16) (f : Blk → Blk) {κ : Type} (g : RF κ) (j : κ) : (d.onB nn f).fld g j = d.fld g j := rfl
@[simp] theorem onB_bit (nn : Fin 16) (f : Blk → Blk) {κ : Type} (g : RF κ) (j : κ) : (d.onB nn f).bit g j = d.bit g j := rfl

@[simp] theorem onR_regs (n : Fin 4) (f : Rgn → Rgn) : (d.onR n f).regs = d.regs := rfl
@[simp] theorem onR_hwin (n : Fin 4) (f : Rgn → Rgn) : (d.onR n f).hwin = d.hwin := rfl
@[simp] theorem onR_hw (n : Fin 4) (f : Rgn → Rgn) : (d.onR n f).hw = d.hw := rfl
@[simp] theorem onR_redo (n : Fin 4) (f : Rgn → Rgn) : (d.onR n f).redo = d.redo := rfl
@[simp] theorem onR_errNow (n : Fin 4) (f : Rgn → Rgn) : (d.onR n f).errNow = d.errNow := rfl
@[simp] theorem onR_clk (n : Fin 4) (f : Rgn → Rgn) : (d.onR n f).clk = d.clk := rfl
@[simp] theorem onR_t0 (n : Fin 4) (f : Rgn → Rgn) : (d.onR n f).t0 = d.t0 := rfl
@[simp] theorem onR_patT (n : Fin 4) (f : Rgn → Rgn) : (d.onR n f).patT = d.patT := rfl
@[simp] theorem onR_fresh (n : Fin 4) (f : Rgn → Rgn) : (d.onR n f).fresh = d.fresh := rfl
@[simp] theorem onR_undef (n : Fin 4) (f : Rgn → Rgn) : (d.onR n f).undef = d.undef := rfl
@[simp] theorem onR_supply (n : Fin 4) (f : Rgn → Rgn) : (d.onR n f).supply = d.supply := rfl
@[simp] theorem onR_rstN (n : Fin 4) (f : Rgn → Rgn) : (d.onR n f).rstN = d.rstN := rfl
@[simp] theorem onR_perstN (n : Fin 4) (f : Rgn → Rgn) : (d.onR n f).perstN = d.perstN := rfl
@[simp] theorem onR_fn (n : Fin 4) (f : Rgn → Rgn) : (d.onR n f).fn = d.fn := rfl
@[simp] theorem onR_out (n : Fin 4) (f : Rgn → Rgn) : (d.onR n f).out = d.out := rfl
@[simp] theorem onR_jtagTap (n : Fin 4) (f : Rgn → Rgn) : (d.onR n f).jtagTap = d.jtagTap := rfl
@[simp] theorem onR_jtagHalt (n : Fin 4) (f : Rgn → Rgn) : (d.onR n f).jtagHalt = d.jtagHalt := rfl
@[simp] theorem onR_dbgHalt (n : Fin 4) (f : Rgn → Rgn) : (d.onR n f).dbgHalt = d.dbgHalt := rfl
@[simp] theorem onR_qinBall (n : Fin 4) (f : Rgn → Rgn) : (d.onR n f).qinBall = d.qinBall := rfl
@[simp] theorem onR_clkLost (n : Fin 4) (f : Rgn → Rgn) : (d.onR n f).clkLost = d.clkLost := rfl
@[simp] theorem onR_rcOsc (n : Fin 4) (f : Rgn → Rgn) : (d.onR n f).rcOsc = d.rcOsc := rfl
@[simp] theorem onR_stwRun (n : Fin 4) (f : Rgn → Rgn) : (d.onR n f).stwRun = d.stwRun := rfl
@[simp] theorem onR_waitSfw (n : Fin 4) (f : Rgn → Rgn) : (d.onR n f).waitSfw = d.waitSfw := rfl
@[simp] theorem onR_sfw (n : Fin 4) (f : Rgn → Rgn) : (d.onR n f).sfw = d.sfw := rfl
@[simp] theorem onR_cal (n : Fin 4) (f : Rgn → Rgn) : (d.onR n f).cal = d.cal := rfl
@[simp] theorem onR_pat (n : Fin 4) (f : Rgn → Rgn) : (d.onR n f).pat = d.pat := rfl
@[simp] theorem onR_patOp (n : Fin 4) (f : Rgn → Rgn) : (d.onR n f).patOp = d.patOp := rfl
@[simp] theorem onR_keys (n : Fin 4) (f : Rgn → Rgn) : (d.onR n f).keys = d.keys := rfl
@[simp] theorem onR_bank0 (n : Fin 4) (f : Rgn → Rgn) : (d.onR n f).bank0 = d.bank0 := rfl
@[simp] theorem onR_bank1 (n : Fin 4) (f : Rgn → Rgn) : (d.onR n f).bank1 = d.bank1 := rfl
@[simp] theorem onR_sess (n : Fin 4) (f : Rgn → Rgn) : (d.onR n f).sess = d.sess := rfl
@[simp] theorem onR_stage (n : Fin 4) (f : Rgn → Rgn) : (d.onR n f).stage = d.stage := rfl
@[simp] theorem onR_submit (n : Fin 4) (f : Rgn → Rgn) : (d.onR n f).submit = d.submit := rfl
@[simp] theorem onR_act (n : Fin 4) (f : Rgn → Rgn) : (d.onR n f).act = d.act := rfl
@[simp] theorem onR_blk (n : Fin 4) (f : Rgn → Rgn) : (d.onR n f).blk = d.blk := rfl
@[simp] theorem onR_dom (n : Fin 4) (f : Rgn → Rgn) : (d.onR n f).dom = d.dom := rfl
@[simp] theorem onR_rgn (n : Fin 4) (f : Rgn → Rgn) : (d.onR n f).rgn = vmod d.rgn n f := rfl
@[simp] theorem onR_evq (n : Fin 4) (f : Rgn → Rgn) : (d.onR n f).evq = d.evq := rfl
@[simp] theorem onR_src (n : Fin 4) (f : Rgn → Rgn) : (d.onR n f).src = d.src := rfl
@[simp] theorem onR_targ (n : Fin 4) (f : Rgn → Rgn) : (d.onR n f).targ = d.targ := rfl
@[simp] theorem onR_chan (n : Fin 4) (f : Rgn → Rgn) : (d.onR n f).chan = d.chan := rfl
@[simp] theorem onR_turn (n : Fin 4) (f : Rgn → Rgn) : (d.onR n f).turn = d.turn := rfl
@[simp] theorem onR_trace (n : Fin 4) (f : Rgn → Rgn) : (d.onR n f).trace = d.trace := rfl
@[simp] theorem onR_tseq (n : Fin 4) (f : Rgn → Rgn) : (d.onR n f).tseq = d.tseq := rfl
@[simp] theorem onR_hostWr (n : Fin 4) (f : Rgn → Rgn) : (d.onR n f).hostWr = d.hostWr := rfl
@[simp] theorem onR_twin (n : Fin 4) (f : Rgn → Rgn) : (d.onR n f).twin = d.twin := rfl
@[simp] theorem onR_failT (n : Fin 4) (f : Rgn → Rgn) : (d.onR n f).failT = d.failT := rfl
@[simp] theorem onR_failWin (n : Fin 4) (f : Rgn → Rgn) : (d.onR n f).failWin = d.failWin := rfl
@[simp] theorem onR_failOpen (n : Fin 4) (f : Rgn → Rgn) : (d.onR n f).failOpen = d.failOpen := rfl
@[simp] theorem onR_failDue (n : Fin 4) (f : Rgn → Rgn) : (d.onR n f).failDue = d.failDue := rfl
@[simp] theorem onR_failNote (n : Fin 4) (f : Rgn → Rgn) : (d.onR n f).failNote = d.failNote := rfl
@[simp] theorem onR_reg (n : Fin 4) (f : Rgn → Rgn) (x : Nat) : (d.onR n f).reg x = d.reg x := rfl
@[simp] theorem onR_fld (n : Fin 4) (f : Rgn → Rgn) {κ : Type} (g : RF κ) (j : κ) : (d.onR n f).fld g j = d.fld g j := rfl
@[simp] theorem onR_bit (n : Fin 4) (f : Rgn → Rgn) {κ : Type} (g : RF κ) (j : κ) : (d.onR n f).bit g j = d.bit g j := rfl

@[simp] theorem onPd_regs (k : Fin 8) (f : Domn → Domn) : (d.onPd k f).regs = d.regs := rfl
@[simp] theorem onPd_hwin (k : Fin 8) (f : Domn → Domn) : (d.onPd k f).hwin = d.hwin := rfl
@[simp] theorem onPd_hw (k : Fin 8) (f : Domn → Domn) : (d.onPd k f).hw = d.hw := rfl
@[simp] theorem onPd_redo (k : Fin 8) (f : Domn → Domn) : (d.onPd k f).redo = d.redo := rfl
@[simp] theorem onPd_errNow (k : Fin 8) (f : Domn → Domn) : (d.onPd k f).errNow = d.errNow := rfl
@[simp] theorem onPd_clk (k : Fin 8) (f : Domn → Domn) : (d.onPd k f).clk = d.clk := rfl
@[simp] theorem onPd_t0 (k : Fin 8) (f : Domn → Domn) : (d.onPd k f).t0 = d.t0 := rfl
@[simp] theorem onPd_patT (k : Fin 8) (f : Domn → Domn) : (d.onPd k f).patT = d.patT := rfl
@[simp] theorem onPd_fresh (k : Fin 8) (f : Domn → Domn) : (d.onPd k f).fresh = d.fresh := rfl
@[simp] theorem onPd_undef (k : Fin 8) (f : Domn → Domn) : (d.onPd k f).undef = d.undef := rfl
@[simp] theorem onPd_supply (k : Fin 8) (f : Domn → Domn) : (d.onPd k f).supply = d.supply := rfl
@[simp] theorem onPd_rstN (k : Fin 8) (f : Domn → Domn) : (d.onPd k f).rstN = d.rstN := rfl
@[simp] theorem onPd_perstN (k : Fin 8) (f : Domn → Domn) : (d.onPd k f).perstN = d.perstN := rfl
@[simp] theorem onPd_fn (k : Fin 8) (f : Domn → Domn) : (d.onPd k f).fn = d.fn := rfl
@[simp] theorem onPd_out (k : Fin 8) (f : Domn → Domn) : (d.onPd k f).out = d.out := rfl
@[simp] theorem onPd_jtagTap (k : Fin 8) (f : Domn → Domn) : (d.onPd k f).jtagTap = d.jtagTap := rfl
@[simp] theorem onPd_jtagHalt (k : Fin 8) (f : Domn → Domn) : (d.onPd k f).jtagHalt = d.jtagHalt := rfl
@[simp] theorem onPd_dbgHalt (k : Fin 8) (f : Domn → Domn) : (d.onPd k f).dbgHalt = d.dbgHalt := rfl
@[simp] theorem onPd_qinBall (k : Fin 8) (f : Domn → Domn) : (d.onPd k f).qinBall = d.qinBall := rfl
@[simp] theorem onPd_clkLost (k : Fin 8) (f : Domn → Domn) : (d.onPd k f).clkLost = d.clkLost := rfl
@[simp] theorem onPd_rcOsc (k : Fin 8) (f : Domn → Domn) : (d.onPd k f).rcOsc = d.rcOsc := rfl
@[simp] theorem onPd_stwRun (k : Fin 8) (f : Domn → Domn) : (d.onPd k f).stwRun = d.stwRun := rfl
@[simp] theorem onPd_waitSfw (k : Fin 8) (f : Domn → Domn) : (d.onPd k f).waitSfw = d.waitSfw := rfl
@[simp] theorem onPd_sfw (k : Fin 8) (f : Domn → Domn) : (d.onPd k f).sfw = d.sfw := rfl
@[simp] theorem onPd_cal (k : Fin 8) (f : Domn → Domn) : (d.onPd k f).cal = d.cal := rfl
@[simp] theorem onPd_pat (k : Fin 8) (f : Domn → Domn) : (d.onPd k f).pat = d.pat := rfl
@[simp] theorem onPd_patOp (k : Fin 8) (f : Domn → Domn) : (d.onPd k f).patOp = d.patOp := rfl
@[simp] theorem onPd_keys (k : Fin 8) (f : Domn → Domn) : (d.onPd k f).keys = d.keys := rfl
@[simp] theorem onPd_bank0 (k : Fin 8) (f : Domn → Domn) : (d.onPd k f).bank0 = d.bank0 := rfl
@[simp] theorem onPd_bank1 (k : Fin 8) (f : Domn → Domn) : (d.onPd k f).bank1 = d.bank1 := rfl
@[simp] theorem onPd_sess (k : Fin 8) (f : Domn → Domn) : (d.onPd k f).sess = d.sess := rfl
@[simp] theorem onPd_stage (k : Fin 8) (f : Domn → Domn) : (d.onPd k f).stage = d.stage := rfl
@[simp] theorem onPd_submit (k : Fin 8) (f : Domn → Domn) : (d.onPd k f).submit = d.submit := rfl
@[simp] theorem onPd_act (k : Fin 8) (f : Domn → Domn) : (d.onPd k f).act = d.act := rfl
@[simp] theorem onPd_blk (k : Fin 8) (f : Domn → Domn) : (d.onPd k f).blk = d.blk := rfl
@[simp] theorem onPd_dom (k : Fin 8) (f : Domn → Domn) : (d.onPd k f).dom = vmod d.dom k f := rfl
@[simp] theorem onPd_rgn (k : Fin 8) (f : Domn → Domn) : (d.onPd k f).rgn = d.rgn := rfl
@[simp] theorem onPd_evq (k : Fin 8) (f : Domn → Domn) : (d.onPd k f).evq = d.evq := rfl
@[simp] theorem onPd_src (k : Fin 8) (f : Domn → Domn) : (d.onPd k f).src = d.src := rfl
@[simp] theorem onPd_targ (k : Fin 8) (f : Domn → Domn) : (d.onPd k f).targ = d.targ := rfl
@[simp] theorem onPd_chan (k : Fin 8) (f : Domn → Domn) : (d.onPd k f).chan = d.chan := rfl
@[simp] theorem onPd_turn (k : Fin 8) (f : Domn → Domn) : (d.onPd k f).turn = d.turn := rfl
@[simp] theorem onPd_trace (k : Fin 8) (f : Domn → Domn) : (d.onPd k f).trace = d.trace := rfl
@[simp] theorem onPd_tseq (k : Fin 8) (f : Domn → Domn) : (d.onPd k f).tseq = d.tseq := rfl
@[simp] theorem onPd_hostWr (k : Fin 8) (f : Domn → Domn) : (d.onPd k f).hostWr = d.hostWr := rfl
@[simp] theorem onPd_twin (k : Fin 8) (f : Domn → Domn) : (d.onPd k f).twin = d.twin := rfl
@[simp] theorem onPd_failT (k : Fin 8) (f : Domn → Domn) : (d.onPd k f).failT = d.failT := rfl
@[simp] theorem onPd_failWin (k : Fin 8) (f : Domn → Domn) : (d.onPd k f).failWin = d.failWin := rfl
@[simp] theorem onPd_failOpen (k : Fin 8) (f : Domn → Domn) : (d.onPd k f).failOpen = d.failOpen := rfl
@[simp] theorem onPd_failDue (k : Fin 8) (f : Domn → Domn) : (d.onPd k f).failDue = d.failDue := rfl
@[simp] theorem onPd_failNote (k : Fin 8) (f : Domn → Domn) : (d.onPd k f).failNote = d.failNote := rfl
@[simp] theorem onPd_reg (k : Fin 8) (f : Domn → Domn) (x : Nat) : (d.onPd k f).reg x = d.reg x := rfl
@[simp] theorem onPd_fld (k : Fin 8) (f : Domn → Domn) {κ : Type} (g : RF κ) (j : κ) : (d.onPd k f).fld g j = d.fld g j := rfl
@[simp] theorem onPd_bit (k : Fin 8) (f : Domn → Domn) {κ : Type} (g : RF κ) (j : κ) : (d.onPd k f).bit g j = d.bit g j := rfl

@[simp] theorem onTw_regs (f : Twin → Twin) : (d.onTw f).regs = d.regs := rfl
@[simp] theorem onTw_hwin (f : Twin → Twin) : (d.onTw f).hwin = d.hwin := rfl
@[simp] theorem onTw_hw (f : Twin → Twin) : (d.onTw f).hw = d.hw := rfl
@[simp] theorem onTw_redo (f : Twin → Twin) : (d.onTw f).redo = d.redo := rfl
@[simp] theorem onTw_errNow (f : Twin → Twin) : (d.onTw f).errNow = d.errNow := rfl
@[simp] theorem onTw_clk (f : Twin → Twin) : (d.onTw f).clk = d.clk := rfl
@[simp] theorem onTw_t0 (f : Twin → Twin) : (d.onTw f).t0 = d.t0 := rfl
@[simp] theorem onTw_patT (f : Twin → Twin) : (d.onTw f).patT = d.patT := rfl
@[simp] theorem onTw_fresh (f : Twin → Twin) : (d.onTw f).fresh = d.fresh := rfl
@[simp] theorem onTw_undef (f : Twin → Twin) : (d.onTw f).undef = d.undef := rfl
@[simp] theorem onTw_supply (f : Twin → Twin) : (d.onTw f).supply = d.supply := rfl
@[simp] theorem onTw_rstN (f : Twin → Twin) : (d.onTw f).rstN = d.rstN := rfl
@[simp] theorem onTw_perstN (f : Twin → Twin) : (d.onTw f).perstN = d.perstN := rfl
@[simp] theorem onTw_fn (f : Twin → Twin) : (d.onTw f).fn = d.fn := rfl
@[simp] theorem onTw_out (f : Twin → Twin) : (d.onTw f).out = d.out := rfl
@[simp] theorem onTw_jtagTap (f : Twin → Twin) : (d.onTw f).jtagTap = d.jtagTap := rfl
@[simp] theorem onTw_jtagHalt (f : Twin → Twin) : (d.onTw f).jtagHalt = d.jtagHalt := rfl
@[simp] theorem onTw_dbgHalt (f : Twin → Twin) : (d.onTw f).dbgHalt = d.dbgHalt := rfl
@[simp] theorem onTw_qinBall (f : Twin → Twin) : (d.onTw f).qinBall = d.qinBall := rfl
@[simp] theorem onTw_clkLost (f : Twin → Twin) : (d.onTw f).clkLost = d.clkLost := rfl
@[simp] theorem onTw_rcOsc (f : Twin → Twin) : (d.onTw f).rcOsc = d.rcOsc := rfl
@[simp] theorem onTw_stwRun (f : Twin → Twin) : (d.onTw f).stwRun = d.stwRun := rfl
@[simp] theorem onTw_waitSfw (f : Twin → Twin) : (d.onTw f).waitSfw = d.waitSfw := rfl
@[simp] theorem onTw_sfw (f : Twin → Twin) : (d.onTw f).sfw = d.sfw := rfl
@[simp] theorem onTw_cal (f : Twin → Twin) : (d.onTw f).cal = d.cal := rfl
@[simp] theorem onTw_pat (f : Twin → Twin) : (d.onTw f).pat = d.pat := rfl
@[simp] theorem onTw_patOp (f : Twin → Twin) : (d.onTw f).patOp = d.patOp := rfl
@[simp] theorem onTw_keys (f : Twin → Twin) : (d.onTw f).keys = d.keys := rfl
@[simp] theorem onTw_bank0 (f : Twin → Twin) : (d.onTw f).bank0 = d.bank0 := rfl
@[simp] theorem onTw_bank1 (f : Twin → Twin) : (d.onTw f).bank1 = d.bank1 := rfl
@[simp] theorem onTw_sess (f : Twin → Twin) : (d.onTw f).sess = d.sess := rfl
@[simp] theorem onTw_stage (f : Twin → Twin) : (d.onTw f).stage = d.stage := rfl
@[simp] theorem onTw_submit (f : Twin → Twin) : (d.onTw f).submit = d.submit := rfl
@[simp] theorem onTw_act (f : Twin → Twin) : (d.onTw f).act = d.act := rfl
@[simp] theorem onTw_blk (f : Twin → Twin) : (d.onTw f).blk = d.blk := rfl
@[simp] theorem onTw_dom (f : Twin → Twin) : (d.onTw f).dom = d.dom := rfl
@[simp] theorem onTw_rgn (f : Twin → Twin) : (d.onTw f).rgn = d.rgn := rfl
@[simp] theorem onTw_evq (f : Twin → Twin) : (d.onTw f).evq = d.evq := rfl
@[simp] theorem onTw_src (f : Twin → Twin) : (d.onTw f).src = d.src := rfl
@[simp] theorem onTw_targ (f : Twin → Twin) : (d.onTw f).targ = d.targ := rfl
@[simp] theorem onTw_chan (f : Twin → Twin) : (d.onTw f).chan = d.chan := rfl
@[simp] theorem onTw_turn (f : Twin → Twin) : (d.onTw f).turn = d.turn := rfl
@[simp] theorem onTw_trace (f : Twin → Twin) : (d.onTw f).trace = d.trace := rfl
@[simp] theorem onTw_tseq (f : Twin → Twin) : (d.onTw f).tseq = d.tseq := rfl
@[simp] theorem onTw_hostWr (f : Twin → Twin) : (d.onTw f).hostWr = d.hostWr := rfl
@[simp] theorem onTw_twin (f : Twin → Twin) : (d.onTw f).twin = f d.twin := rfl
@[simp] theorem onTw_failT (f : Twin → Twin) : (d.onTw f).failT = d.failT := rfl
@[simp] theorem onTw_failWin (f : Twin → Twin) : (d.onTw f).failWin = d.failWin := rfl
@[simp] theorem onTw_failOpen (f : Twin → Twin) : (d.onTw f).failOpen = d.failOpen := rfl
@[simp] theorem onTw_failDue (f : Twin → Twin) : (d.onTw f).failDue = d.failDue := rfl
@[simp] theorem onTw_failNote (f : Twin → Twin) : (d.onTw f).failNote = d.failNote := rfl
@[simp] theorem onTw_reg (f : Twin → Twin) (x : Nat) : (d.onTw f).reg x = d.reg x := rfl
@[simp] theorem onTw_fld (f : Twin → Twin) {κ : Type} (g : RF κ) (j : κ) : (d.onTw f).fld g j = d.fld g j := rfl
@[simp] theorem onTw_bit (f : Twin → Twin) {κ : Type} (g : RF κ) (j : κ) : (d.onTw f).bit g j = d.bit g j := rfl

@[simp] theorem say_regs (o : HostOut) : (d.say o).regs = d.regs := rfl
@[simp] theorem say_hwin (o : HostOut) : (d.say o).hwin = d.hwin := rfl
@[simp] theorem say_hw (o : HostOut) : (d.say o).hw = d.hw := rfl
@[simp] theorem say_redo (o : HostOut) : (d.say o).redo = d.redo := rfl
@[simp] theorem say_errNow (o : HostOut) : (d.say o).errNow = d.errNow := rfl
@[simp] theorem say_clk (o : HostOut) : (d.say o).clk = d.clk := rfl
@[simp] theorem say_t0 (o : HostOut) : (d.say o).t0 = d.t0 := rfl
@[simp] theorem say_patT (o : HostOut) : (d.say o).patT = d.patT := rfl
@[simp] theorem say_fresh (o : HostOut) : (d.say o).fresh = d.fresh := rfl
@[simp] theorem say_undef (o : HostOut) : (d.say o).undef = d.undef := rfl
@[simp] theorem say_supply (o : HostOut) : (d.say o).supply = d.supply := rfl
@[simp] theorem say_rstN (o : HostOut) : (d.say o).rstN = d.rstN := rfl
@[simp] theorem say_perstN (o : HostOut) : (d.say o).perstN = d.perstN := rfl
@[simp] theorem say_fn (o : HostOut) : (d.say o).fn = d.fn := rfl
@[simp] theorem say_out (o : HostOut) : (d.say o).out = o :: d.out := rfl
@[simp] theorem say_jtagTap (o : HostOut) : (d.say o).jtagTap = d.jtagTap := rfl
@[simp] theorem say_jtagHalt (o : HostOut) : (d.say o).jtagHalt = d.jtagHalt := rfl
@[simp] theorem say_dbgHalt (o : HostOut) : (d.say o).dbgHalt = d.dbgHalt := rfl
@[simp] theorem say_qinBall (o : HostOut) : (d.say o).qinBall = d.qinBall := rfl
@[simp] theorem say_clkLost (o : HostOut) : (d.say o).clkLost = d.clkLost := rfl
@[simp] theorem say_rcOsc (o : HostOut) : (d.say o).rcOsc = d.rcOsc := rfl
@[simp] theorem say_stwRun (o : HostOut) : (d.say o).stwRun = d.stwRun := rfl
@[simp] theorem say_waitSfw (o : HostOut) : (d.say o).waitSfw = d.waitSfw := rfl
@[simp] theorem say_sfw (o : HostOut) : (d.say o).sfw = d.sfw := rfl
@[simp] theorem say_cal (o : HostOut) : (d.say o).cal = d.cal := rfl
@[simp] theorem say_pat (o : HostOut) : (d.say o).pat = d.pat := rfl
@[simp] theorem say_patOp (o : HostOut) : (d.say o).patOp = d.patOp := rfl
@[simp] theorem say_keys (o : HostOut) : (d.say o).keys = d.keys := rfl
@[simp] theorem say_bank0 (o : HostOut) : (d.say o).bank0 = d.bank0 := rfl
@[simp] theorem say_bank1 (o : HostOut) : (d.say o).bank1 = d.bank1 := rfl
@[simp] theorem say_sess (o : HostOut) : (d.say o).sess = d.sess := rfl
@[simp] theorem say_stage (o : HostOut) : (d.say o).stage = d.stage := rfl
@[simp] theorem say_submit (o : HostOut) : (d.say o).submit = d.submit := rfl
@[simp] theorem say_act (o : HostOut) : (d.say o).act = d.act := rfl
@[simp] theorem say_blk (o : HostOut) : (d.say o).blk = d.blk := rfl
@[simp] theorem say_dom (o : HostOut) : (d.say o).dom = d.dom := rfl
@[simp] theorem say_rgn (o : HostOut) : (d.say o).rgn = d.rgn := rfl
@[simp] theorem say_evq (o : HostOut) : (d.say o).evq = d.evq := rfl
@[simp] theorem say_src (o : HostOut) : (d.say o).src = d.src := rfl
@[simp] theorem say_targ (o : HostOut) : (d.say o).targ = d.targ := rfl
@[simp] theorem say_chan (o : HostOut) : (d.say o).chan = d.chan := rfl
@[simp] theorem say_turn (o : HostOut) : (d.say o).turn = d.turn := rfl
@[simp] theorem say_trace (o : HostOut) : (d.say o).trace = d.trace := rfl
@[simp] theorem say_tseq (o : HostOut) : (d.say o).tseq = d.tseq := rfl
@[simp] theorem say_hostWr (o : HostOut) : (d.say o).hostWr = d.hostWr := rfl
@[simp] theorem say_twin (o : HostOut) : (d.say o).twin = d.twin := rfl
@[simp] theorem say_failT (o : HostOut) : (d.say o).failT = d.failT := rfl
@[simp] theorem say_failWin (o : HostOut) : (d.say o).failWin = d.failWin := rfl
@[simp] theorem say_failOpen (o : HostOut) : (d.say o).failOpen = d.failOpen := rfl
@[simp] theorem say_failDue (o : HostOut) : (d.say o).failDue = d.failDue := rfl
@[simp] theorem say_failNote (o : HostOut) : (d.say o).failNote = d.failNote := rfl
@[simp] theorem say_reg (o : HostOut) (x : Nat) : (d.say o).reg x = d.reg x := rfl
@[simp] theorem say_fld (o : HostOut) {κ : Type} (g : RF κ) (j : κ) : (d.say o).fld g j = d.fld g j := rfl
@[simp] theorem say_bit (o : HostOut) {κ : Type} (g : RF κ) (j : κ) : (d.say o).bit g j = d.bit g j := rfl

@[simp] theorem sendMsg_regs (src : Nat) (on : Bool) (info : Nat) : (d.sendMsg src on info).regs = d.regs := rfl
@[simp] theorem sendMsg_hwin (src : Nat) (on : Bool) (info : Nat) : (d.sendMsg src on info).hwin = d.hwin := rfl
@[simp] theorem sendMsg_hw (src : Nat) (on : Bool) (info : Nat) : (d.sendMsg src on info).hw = d.hw := rfl
@[simp] theorem sendMsg_redo (src : Nat) (on : Bool) (info : Nat) : (d.sendMsg src on info).redo = d.redo := rfl
@[simp] theorem sendMsg_errNow (src : Nat) (on : Bool) (info : Nat) : (d.sendMsg src on info).errNow = d.errNow := rfl
@[simp] theorem sendMsg_clk (src : Nat) (on : Bool) (info : Nat) : (d.sendMsg src on info).clk = d.clk := rfl
@[simp] theorem sendMsg_t0 (src : Nat) (on : Bool) (info : Nat) : (d.sendMsg src on info).t0 = d.t0 := rfl
@[simp] theorem sendMsg_patT (src : Nat) (on : Bool) (info : Nat) : (d.sendMsg src on info).patT = d.patT := rfl
@[simp] theorem sendMsg_fresh (src : Nat) (on : Bool) (info : Nat) : (d.sendMsg src on info).fresh = d.fresh := rfl
@[simp] theorem sendMsg_undef (src : Nat) (on : Bool) (info : Nat) : (d.sendMsg src on info).undef = d.undef := rfl
@[simp] theorem sendMsg_supply (src : Nat) (on : Bool) (info : Nat) : (d.sendMsg src on info).supply = d.supply := rfl
@[simp] theorem sendMsg_rstN (src : Nat) (on : Bool) (info : Nat) : (d.sendMsg src on info).rstN = d.rstN := rfl
@[simp] theorem sendMsg_perstN (src : Nat) (on : Bool) (info : Nat) : (d.sendMsg src on info).perstN = d.perstN := rfl
@[simp] theorem sendMsg_fn (src : Nat) (on : Bool) (info : Nat) : (d.sendMsg src on info).fn = d.fn := rfl
@[simp] theorem sendMsg_out (src : Nat) (on : Bool) (info : Nat) : (d.sendMsg src on info).out = d.out := rfl
@[simp] theorem sendMsg_jtagTap (src : Nat) (on : Bool) (info : Nat) : (d.sendMsg src on info).jtagTap = d.jtagTap := rfl
@[simp] theorem sendMsg_jtagHalt (src : Nat) (on : Bool) (info : Nat) : (d.sendMsg src on info).jtagHalt = d.jtagHalt := rfl
@[simp] theorem sendMsg_dbgHalt (src : Nat) (on : Bool) (info : Nat) : (d.sendMsg src on info).dbgHalt = d.dbgHalt := rfl
@[simp] theorem sendMsg_qinBall (src : Nat) (on : Bool) (info : Nat) : (d.sendMsg src on info).qinBall = d.qinBall := rfl
@[simp] theorem sendMsg_clkLost (src : Nat) (on : Bool) (info : Nat) : (d.sendMsg src on info).clkLost = d.clkLost := rfl
@[simp] theorem sendMsg_rcOsc (src : Nat) (on : Bool) (info : Nat) : (d.sendMsg src on info).rcOsc = d.rcOsc := rfl
@[simp] theorem sendMsg_stwRun (src : Nat) (on : Bool) (info : Nat) : (d.sendMsg src on info).stwRun = d.stwRun := rfl
@[simp] theorem sendMsg_waitSfw (src : Nat) (on : Bool) (info : Nat) : (d.sendMsg src on info).waitSfw = d.waitSfw := rfl
@[simp] theorem sendMsg_sfw (src : Nat) (on : Bool) (info : Nat) : (d.sendMsg src on info).sfw = d.sfw := rfl
@[simp] theorem sendMsg_cal (src : Nat) (on : Bool) (info : Nat) : (d.sendMsg src on info).cal = d.cal := rfl
@[simp] theorem sendMsg_pat (src : Nat) (on : Bool) (info : Nat) : (d.sendMsg src on info).pat = d.pat := rfl
@[simp] theorem sendMsg_patOp (src : Nat) (on : Bool) (info : Nat) : (d.sendMsg src on info).patOp = d.patOp := rfl
@[simp] theorem sendMsg_keys (src : Nat) (on : Bool) (info : Nat) : (d.sendMsg src on info).keys = d.keys := rfl
@[simp] theorem sendMsg_bank0 (src : Nat) (on : Bool) (info : Nat) : (d.sendMsg src on info).bank0 = d.bank0 := rfl
@[simp] theorem sendMsg_bank1 (src : Nat) (on : Bool) (info : Nat) : (d.sendMsg src on info).bank1 = d.bank1 := rfl
@[simp] theorem sendMsg_sess (src : Nat) (on : Bool) (info : Nat) : (d.sendMsg src on info).sess = d.sess := rfl
@[simp] theorem sendMsg_stage (src : Nat) (on : Bool) (info : Nat) : (d.sendMsg src on info).stage = d.stage := rfl
@[simp] theorem sendMsg_submit (src : Nat) (on : Bool) (info : Nat) : (d.sendMsg src on info).submit = d.submit := rfl
@[simp] theorem sendMsg_act (src : Nat) (on : Bool) (info : Nat) : (d.sendMsg src on info).act = d.act := rfl
@[simp] theorem sendMsg_blk (src : Nat) (on : Bool) (info : Nat) : (d.sendMsg src on info).blk = d.blk := rfl
@[simp] theorem sendMsg_dom (src : Nat) (on : Bool) (info : Nat) : (d.sendMsg src on info).dom = d.dom := rfl
@[simp] theorem sendMsg_rgn (src : Nat) (on : Bool) (info : Nat) : (d.sendMsg src on info).rgn = d.rgn := rfl
@[simp] theorem sendMsg_evq (src : Nat) (on : Bool) (info : Nat) : (d.sendMsg src on info).evq = msgInsert ⟨d.clk, src, on, info % 65536, false⟩ d.evq := rfl
@[simp] theorem sendMsg_src (src : Nat) (on : Bool) (info : Nat) : (d.sendMsg src on info).src = d.src := rfl
@[simp] theorem sendMsg_targ (src : Nat) (on : Bool) (info : Nat) : (d.sendMsg src on info).targ = d.targ := rfl
@[simp] theorem sendMsg_chan (src : Nat) (on : Bool) (info : Nat) : (d.sendMsg src on info).chan = d.chan := rfl
@[simp] theorem sendMsg_turn (src : Nat) (on : Bool) (info : Nat) : (d.sendMsg src on info).turn = d.turn := rfl
@[simp] theorem sendMsg_trace (src : Nat) (on : Bool) (info : Nat) : (d.sendMsg src on info).trace = d.trace := rfl
@[simp] theorem sendMsg_tseq (src : Nat) (on : Bool) (info : Nat) : (d.sendMsg src on info).tseq = d.tseq := rfl
@[simp] theorem sendMsg_hostWr (src : Nat) (on : Bool) (info : Nat) : (d.sendMsg src on info).hostWr = d.hostWr := rfl
@[simp] theorem sendMsg_twin (src : Nat) (on : Bool) (info : Nat) : (d.sendMsg src on info).twin = d.twin := rfl
@[simp] theorem sendMsg_failT (src : Nat) (on : Bool) (info : Nat) : (d.sendMsg src on info).failT = d.failT := rfl
@[simp] theorem sendMsg_failWin (src : Nat) (on : Bool) (info : Nat) : (d.sendMsg src on info).failWin = d.failWin := rfl
@[simp] theorem sendMsg_failOpen (src : Nat) (on : Bool) (info : Nat) : (d.sendMsg src on info).failOpen = d.failOpen := rfl
@[simp] theorem sendMsg_failDue (src : Nat) (on : Bool) (info : Nat) : (d.sendMsg src on info).failDue = d.failDue := rfl
@[simp] theorem sendMsg_failNote (src : Nat) (on : Bool) (info : Nat) : (d.sendMsg src on info).failNote = d.failNote := rfl
@[simp] theorem sendMsg_reg (src : Nat) (on : Bool) (info : Nat) (x : Nat) : (d.sendMsg src on info).reg x = d.reg x := rfl
@[simp] theorem sendMsg_fld (src : Nat) (on : Bool) (info : Nat) {κ : Type} (g : RF κ) (j : κ) : (d.sendMsg src on info).fld g j = d.fld g j := rfl
@[simp] theorem sendMsg_bit (src : Nat) (on : Bool) (info : Nat) {κ : Type} (g : RF κ) (j : κ) : (d.sendMsg src on info).bit g j = d.bit g j := rfl

@[simp] theorem raise_regs (src info : Nat) : (d.raise src info).regs = d.regs := rfl
@[simp] theorem raise_hwin (src info : Nat) : (d.raise src info).hwin = d.hwin := rfl
@[simp] theorem raise_hw (src info : Nat) : (d.raise src info).hw = d.hw := rfl
@[simp] theorem raise_redo (src info : Nat) : (d.raise src info).redo = d.redo := rfl
@[simp] theorem raise_errNow (src info : Nat) : (d.raise src info).errNow = d.errNow := rfl
@[simp] theorem raise_clk (src info : Nat) : (d.raise src info).clk = d.clk := rfl
@[simp] theorem raise_t0 (src info : Nat) : (d.raise src info).t0 = d.t0 := rfl
@[simp] theorem raise_patT (src info : Nat) : (d.raise src info).patT = d.patT := rfl
@[simp] theorem raise_fresh (src info : Nat) : (d.raise src info).fresh = d.fresh := rfl
@[simp] theorem raise_undef (src info : Nat) : (d.raise src info).undef = d.undef := rfl
@[simp] theorem raise_supply (src info : Nat) : (d.raise src info).supply = d.supply := rfl
@[simp] theorem raise_rstN (src info : Nat) : (d.raise src info).rstN = d.rstN := rfl
@[simp] theorem raise_perstN (src info : Nat) : (d.raise src info).perstN = d.perstN := rfl
@[simp] theorem raise_fn (src info : Nat) : (d.raise src info).fn = d.fn := rfl
@[simp] theorem raise_out (src info : Nat) : (d.raise src info).out = d.out := rfl
@[simp] theorem raise_jtagTap (src info : Nat) : (d.raise src info).jtagTap = d.jtagTap := rfl
@[simp] theorem raise_jtagHalt (src info : Nat) : (d.raise src info).jtagHalt = d.jtagHalt := rfl
@[simp] theorem raise_dbgHalt (src info : Nat) : (d.raise src info).dbgHalt = d.dbgHalt := rfl
@[simp] theorem raise_qinBall (src info : Nat) : (d.raise src info).qinBall = d.qinBall := rfl
@[simp] theorem raise_clkLost (src info : Nat) : (d.raise src info).clkLost = d.clkLost := rfl
@[simp] theorem raise_rcOsc (src info : Nat) : (d.raise src info).rcOsc = d.rcOsc := rfl
@[simp] theorem raise_stwRun (src info : Nat) : (d.raise src info).stwRun = d.stwRun := rfl
@[simp] theorem raise_waitSfw (src info : Nat) : (d.raise src info).waitSfw = d.waitSfw := rfl
@[simp] theorem raise_sfw (src info : Nat) : (d.raise src info).sfw = d.sfw := rfl
@[simp] theorem raise_cal (src info : Nat) : (d.raise src info).cal = d.cal := rfl
@[simp] theorem raise_pat (src info : Nat) : (d.raise src info).pat = d.pat := rfl
@[simp] theorem raise_patOp (src info : Nat) : (d.raise src info).patOp = d.patOp := rfl
@[simp] theorem raise_keys (src info : Nat) : (d.raise src info).keys = d.keys := rfl
@[simp] theorem raise_bank0 (src info : Nat) : (d.raise src info).bank0 = d.bank0 := rfl
@[simp] theorem raise_bank1 (src info : Nat) : (d.raise src info).bank1 = d.bank1 := rfl
@[simp] theorem raise_sess (src info : Nat) : (d.raise src info).sess = d.sess := rfl
@[simp] theorem raise_stage (src info : Nat) : (d.raise src info).stage = d.stage := rfl
@[simp] theorem raise_submit (src info : Nat) : (d.raise src info).submit = d.submit := rfl
@[simp] theorem raise_act (src info : Nat) : (d.raise src info).act = d.act := rfl
@[simp] theorem raise_blk (src info : Nat) : (d.raise src info).blk = d.blk := rfl
@[simp] theorem raise_dom (src info : Nat) : (d.raise src info).dom = d.dom := rfl
@[simp] theorem raise_rgn (src info : Nat) : (d.raise src info).rgn = d.rgn := rfl
@[simp] theorem raise_evq (src info : Nat) : (d.raise src info).evq = msgInsert ⟨d.clk, src, true, info % 65536, false⟩ d.evq := rfl
@[simp] theorem raise_src (src info : Nat) : (d.raise src info).src = d.src := rfl
@[simp] theorem raise_targ (src info : Nat) : (d.raise src info).targ = d.targ := rfl
@[simp] theorem raise_chan (src info : Nat) : (d.raise src info).chan = d.chan := rfl
@[simp] theorem raise_turn (src info : Nat) : (d.raise src info).turn = d.turn := rfl
@[simp] theorem raise_trace (src info : Nat) : (d.raise src info).trace = d.trace := rfl
@[simp] theorem raise_tseq (src info : Nat) : (d.raise src info).tseq = d.tseq := rfl
@[simp] theorem raise_hostWr (src info : Nat) : (d.raise src info).hostWr = d.hostWr := rfl
@[simp] theorem raise_twin (src info : Nat) : (d.raise src info).twin = d.twin := rfl
@[simp] theorem raise_failT (src info : Nat) : (d.raise src info).failT = d.failT := rfl
@[simp] theorem raise_failWin (src info : Nat) : (d.raise src info).failWin = d.failWin := rfl
@[simp] theorem raise_failOpen (src info : Nat) : (d.raise src info).failOpen = d.failOpen := rfl
@[simp] theorem raise_failDue (src info : Nat) : (d.raise src info).failDue = d.failDue := rfl
@[simp] theorem raise_failNote (src info : Nat) : (d.raise src info).failNote = d.failNote := rfl
@[simp] theorem raise_reg (src info : Nat) (x : Nat) : (d.raise src info).reg x = d.reg x := rfl
@[simp] theorem raise_fld (src info : Nat) {κ : Type} (g : RF κ) (j : κ) : (d.raise src info).fld g j = d.fld g j := rfl
@[simp] theorem raise_bit (src info : Nat) {κ : Type} (g : RF κ) (j : κ) : (d.raise src info).bit g j = d.bit g j := rfl

@[simp] theorem free_fst : d.free.1 = d.fresh := rfl

end Sys2Proof.Machine.Dev
end

