-- ==== Sys2Proof/Tests/Slice0.lean ====
section
/-! SUPPORT. Tests: ill-formed commands refused, small steps against the spec, and for every statement a state and operands that meet its hypotheses. -/

namespace Sys2Proof.Tests

open Sys2Proof Sys2Proof.Machine

set_option Elab.async false
set_option maxRecDepth 100000

/-- A unit whose start-up is over, HELD, with its stewards running and bank H classed. -/
def up : Dev := { State.reset.dev with rstN := true, perstN := true, stwRun := true, supply := .h :: State.reset.dev.supply }.put Start.STAGE () 5

/-- The same unit in ROM, waiting for the host window's firmware. -/
def inRom : Dev := { up with stwRun := false, waitSfw := true }.put Start.STAGE () 1

/-- A unit that runs ALONE. -/
def alone : Dev := (up.put TwStat.ROLE () 0).flag TwStat.OWNO ()

/-- A unit of a pair with a live link, in a role. -/
def pair (role : Nat) : Dev :=
  ((up.put TwStat.ROLE () role).flag TwStat.LINKUP ()).put TwStat.LANES () 2 |>.onTw fun t => { t with paired := true }

/-- An image header that passes every check that does not look at the body. -/
def hdr (typ : Nat) : ImgHdr :=
  ⟨0x52484F43#32, typ, 1, memberCode, 0, BitVec.allOnes 16, 0, 1, 0, 9, 0, 0, 64, 0, 0, 0, 0, true, true, true, true⟩

/-- A bank header with its HCRC. -/
def crcd (h : BankHdr) : BankHdr := { h with hcrc := hdrCrc h }

/-- A bank header of n slots on domain 0. -/
def bank (n : Nat) : BankHdr := crcd ⟨n, 0, 1, true, true, false, 0, 0, 0, 0, 0, 0, 0, false, 0, 0, 0, 0, 0, 0⟩

/-- The section of a block with given slots in both banks. -/
def sec (slots : List DWord) : BlockSec := ⟨[], 0, bank slots.length, bank slots.length, slots, slots, [], [], [], false, 0⟩

/-- A pattern with a section for block 3. -/
def pat (slots : List DWord) : PatImage :=
  ⟨hdr 2, 4096, 2, [⟨1, 0, 1, 0, 0, 0, [], .chip []⟩, ⟨3, 3, 1, 0, 0, 0, [], .block (sec slots)⟩]⟩

/-- Block 3 with a section, in a state, its domain 0 valid. -/
def blk3 (st : Nat) : Dev := (({ alone with pat := some (pat []) }.put BkStat.STATE 3 st).flag PdStat.VALID 0)

/-- A frame of another node. -/
def frame : Frame := ⟨0, 5, false, false, false, 2, [1, 2], 0, 0, 0, false⟩

/-- The device that a command leaves. -/
def after (c : Instr) (d : Dev) : Dev :=
  match exec c ⟨[], d⟩ with
  | .next t => t.dev
  | _ => State.reset.dev

theorem hwRev_ok : (BitVec.allOnes 16).getLsbD Config.hwRev.toNat = true := by
  have := Config.hwRev.isLt
  rw [BitVec.getLsbD_allOnes]
  exact decide_eq_true this

/-- A pattern that passes every check: domain 0 LOCAL, region 0 with a nominal timing of 80 quanta, and block 3 with one MARK slot. -/
def goodPat : PatImage :=
  let h : BankHdr := crcd { bank 1 with rateMax := 1000, cost := 17 }
  let s : BlockSec := { sec [0x0000070000000005#64] with hdrA := h, hdrB := crcd { h with valid := false, start := false }, regs := [(0x60, 4000#32), (0x3000, 4#32), (0x3400, 4#32)] }
  ⟨hdr 2, 4096, 4,
   [⟨1, 0, 1, 0, 64, 0, [], .chip [(0x30000, 1#32)]⟩, ⟨2, 0, 1, 64, 64, 0, [], .region [(0x10018, 0x0040503F#32), (0x1001C, 0x420B#32), (0x10020, 0x420B#32)]⟩,
    ⟨3, 3, 1, 128, 64, 0, [], .block s⟩, ⟨0x0F, 0, 1, 0, 0, 0, [], .none⟩]⟩

/-- An image of a type with no body as it lies in flash (R431): MAGIC, TYPE, HFMT, MEMBER, HWREVS, EPOCH 1, EMAX 9, the DIGEST of no bytes and HCRC; its keys' verdicts are good. -/
def image (typ crc : Nat) : FlashImg :=
  let b := leBytes 4 0x52484F43 ++ [typ, 1, memberCode, 0, 0xFF, 0xFF, 0, 0] ++ leBytes 4 1 ++ leBytes 4 0 ++ leBytes 4 9 ++ List.replicate 24 0 ++
    leBytes 48 0x5bb99848f1d21ad5fb656fe7bfde4e27dae1f663bfc70c4c4307be1411b7fd216ae3b1b17e32d94c3896ac51a760b038 ++ List.replicate 156 0 ++ leBytes 4 crc
  ⟨b.map (BitVec.ofNat 8), true, true, []⟩

/-- Firmware, a pattern with no sections, and settings with no records. -/
def sfwImage : FlashImg := image 1 0x19c9b195
def patImage : FlashImg := image 2 0xf95c8147
def calImage : FlashImg := image 3 0x10009336

/-- A unit in ROM with firmware in bank 0 and nothing in bank 1. -/
def flashed : Dev := { inRom with waitSfw := false, bank0 := ⟨recCopyOf ⟨false, false, 0, true, 1, true⟩, some sfwImage, some patImage, none, none⟩ }

theorem sfwImage_hdr : (imgHdr sfwImage).magic = 0x52484F43#32 ∧ (imgHdr sfwImage).typ = 1 ∧ (imgHdr sfwImage).hfmt = 1 ∧ (imgHdr sfwImage).member = memberCode ∧
    (imgHdr sfwImage).hwRevs = BitVec.allOnes 16 ∧ (imgHdr sfwImage).bind = 0 ∧ (imgHdr sfwImage).hcrcOk = true ∧ (imgHdr sfwImage).sigOk = true ∧
    (imgHdr sfwImage).digestOk = true ∧ (imgHdr sfwImage).pagesOk = true := by
  (repeat' refine And.intro ?_ ?_) <;> decide +kernel
theorem sfwImage_check (d : Dev) : hdrCheck d 1 (imgHdr sfwImage) none true false = 0 := by
  obtain ⟨h0, h1, h2, h3, h4, h5, h6, h7, h8, h9⟩ := sfwImage_hdr
  have h : (imgHdr sfwImage).hwRevs.getLsbD Config.hwRev.toNat = true := by rw [h4]; exact hwRev_ok
  simp [hdrCheck, h0, h1, h2, h3, h, h5, h6, h7, h8, h9, firstFail]

theorem goodPat_ok : patCheck alone goodPat = none := by decide +kernel
/-- Its header passes too, whatever revision the silicon has. -/
theorem goodPat_hdr : hdrCheck alone 2 goodPat.hdr (sfwHdr alone) true false = 0 := by
  rw [show hdrCheck alone 2 goodPat.hdr (sfwHdr alone) true false = firstFail [(true, 1), (true, 2), (true, 3), ((BitVec.allOnes 16).getLsbD Config.hwRev.toNat, 4), (true, 5),
    (true, 6), (true, 7), (true, 8), (true, 9), (true, 10), (true, 11)] from rfl, hwRev_ok]
  decide +kernel

/-- A pattern runs; region 0 drives its first modulator clock with MDIV 40 from a powered bank. -/
def drv : Dev := { ((blk3 2).flag MclkCfg.DIR0 0).put MclkCfg.MDIV0 0 40 with supply := .s 0 :: alone.supply }

theorem witness_emptyQueueTicks : State.reset.dev.rstN = false ∧ alone.rstN = true ∧ mclkDrive drv 0 0 = true ∧
    (vget (drv.r 0).mph 0) + 1 < mclkDiv drv 0 0 ∧ ¬ (vget ((drv.onR 0 fun r => { r with mph := vset r.mph 0 39 }).r 0).mph 0) + 1 < mclkDiv drv 0 0 ∧
    mclkDrive drv 0 1 = false ∧ drv.bit EcStat.Z 15 = false := by
  (repeat' refine And.intro ?_ ?_) <;> decide +kernel
theorem witness_stateWfKept : State.wf State.reset = true ∧ step State.reset = .next ⟨[], idle State.reset.dev⟩ := ⟨by decide +kernel, rfl⟩
theorem witness_outputsNeverBothHigh : Memory.wf alone = true ∧ Legs.wf alone = true ∧ carriesWf .twqPulseEnd = true ∧
    exec .twqPulseEnd ⟨[], alone⟩ = .next ⟨[], (alone.clr TwStat.TWQO ()).onTw fun t => { t with twqPulse := false }⟩ :=
  ⟨by decide +kernel, by decide +kernel, by decide +kernel, rfl⟩
theorem witness_guaranteedDeviceCompletes : alone.undef = [] ∧ wordByWord .pllLock = false := by decide +kernel
theorem witness_onlyUnguaranteedFaults :
    exec .sfwStart ⟨[], { alone with undef := [20] }⟩ = .fault (.unitUnguaranteed 20) ∧ wordByWord .sfwStart = false := ⟨rfl, rfl⟩
theorem witness_resetsDiscardThePattern : (1000 ≤ 1000 ∧ 99 < 100 ∧ 100 ≤ 999 ∧ 999 < 1000) ∧
    ReachesPriv alone .pf0 (SwRst.addr ()) unitNone ∧ fget 0 16 (0xC0DE#32) = 0xC0DE ∧
    (fget 17 15 (0xC0DF#32) = 0 ∧ fget 0 16 (0xC0DF#32) ≠ 0xC0DE) ∧ { alone with failT := true }.failT = true := by
  (repeat' refine And.intro ?_ ?_) <;> decide +kernel
theorem witness_strapsAndSupplies : State.reset.dev.rstN = false ∧ coreGood State.reset.dev = true ∧
    Supply.s 3 ∉ alone.supply ∧ Supply.h ∉ State.reset.dev.supply ∧ classSupply 4 ∈ alone.supply ∧
    Supply.vddl ∉ ([] : List Supply) ∧ Supply.c ∉ ([] : List Supply) ∧ Supply.g 3 ∉ ([] : List Supply) := by decide +kernel
theorem witness_clockLossAndRecovery : alone.fld Start.STAGE () ≠ 0 ∧ alone.clkLost = false ∧
    { alone with clkLost := true }.fld Start.STAGE () ≠ 0 ∧ { alone with clkLost := true }.clkLost = true := by decide +kernel

theorem witness_startUpRunsFirmware_good : unitChip ∉ flashed.undef ∧ flashed.fld Start.STAGE () = 1 ∧ flashed.waitSfw = false ∧
    flashed.clkLost = false ∧ flashed.fld Strap.BOOT_SRC () = false.toNat ∧
    (let d := flashed.put Strap.BOOT_SRC () 2
     d.fld Strap.BOOT_SRC () = 2 ∧ false = activeBank d ∧ (recOf d).trial = false) := by decide +kernel
theorem witness_startUpRunsFirmware_code : sfwCode flashed false = 0 := sfwImage_check flashed
/-- Bank 1 holds the good firmware and bank 0 nothing. -/
def second : Dev := { flashed with bank0 := { Bank.empty with rcd := flashed.bank0.rcd }, bank1 := { flashed.bank0 with rcd := { flashed.bank0.rcd with crc := 0 } } }
theorem witness_startUpRunsFirmware_other : sfwCode second false ≠ 0 ∧ sfwCode second (!false) = 0 := ⟨by decide +kernel, sfwImage_check second⟩
theorem witness_startUpRunsFirmware_bad : sfwCode { flashed with bank0 := Bank.empty } false ≠ 0 ∧
    sfwCode { flashed with bank0 := Bank.empty } (!false) ≠ 0 := by decide +kernel
/-- The same unit, which reads the active bank in a trial: its record says how often it has tried. -/
def trial (n : Nat) : Dev := { flashed.put Strap.BOOT_SRC () 2 with bank0 := { flashed.bank0 with rcd := recCopyOf ⟨false, true, n, false, 1, true⟩ }, bank1 := { flashed.bank0 with rcd := { flashed.bank0.rcd with crc := 0 } } }
theorem witness_startUpRunsFirmware_trial : (trial 0).fld Strap.BOOT_SRC () = 2 ∧ (recOf (trial 0)).trial = true ∧ (recOf (trial 0)).tries < 2 ∧ 2 ≤ (recOf (trial 2)).tries ∧
    calIn (trial 0) (activeBank (trial 0)) = none ∧ unitChip ∉ (trial 2).undef ∧ (trial 2).fld Start.STAGE () = 1 ∧ (trial 2).waitSfw = false ∧ (trial 2).clkLost = false := by
  (repeat' refine And.intro ?_ ?_) <;> decide +kernel
theorem witness_startUpRunsFirmware_trialCode : sfwCode (trial 2) (!activeBank (trial 2)) = 0 := by
  rw [show activeBank (trial 2) = false from by decide +kernel]
  exact sfwImage_check (trial 2)
theorem witness_startUpRunsFirmware_wait : (flashed.put Strap.BOOT_SRC () 3).fld Strap.BOOT_SRC () = 3 ∧
    ReachesPriv inRom .pf0 (Start.addr ()) unitChip ∧ inRom.fld Start.STAGE () = 1 ∧ inRom.waitSfw = true ∧
    ReachesPriv up .pf0 (Start.addr ()) unitChip ∧ up.fld Start.STAGE () ≠ 1 := by
  (repeat' refine And.intro ?_ ?_) <;> decide +kernel
theorem witness_startUpRunsFirmware_train : let d := flashed.put Start.STAGE () 3
    unitChip ∉ d.undef ∧ d.bit TwStat.LINKUP () = false ∧ d.fld Start.STAGE () = 3 ∧ d.bit Fail.LOCK () = false ∧
    (patIn d (activeBank d)).isSome = true ∧ d.failT = false ∧ calIn d (activeBank d) = none ∧ patIn { d with bank0 := { d.bank0 with pat := none } } false = none ∧ (d.flag Fail.LOCK ()).bit Fail.LOCK () = true ∧ d.twin.ownI = false ∧
    d.bit BootCause.HELD () = false ∧ (d.onTw fun t => { t with ownI := true }).twin.ownI = true ∧
    (d.flag TwStat.LINKUP ()).bit TwStat.LINKUP () = true ∧ alone.fld Start.STAGE () ≠ 3 ∧ alone.twin.recov = false := by decide +kernel
theorem witness_pcieFunctionsAndMode : alone.perstN = true ∧ alone.rstN = true ∧ { alone with perstN := false }.perstN = false ∧
    Reaches alone .pf0 (ChipMode.addr ()) unitChip ∧ mRsv 0xFFF0 (0x30003#32) = 0 ∧ (0x30003#32).getLsbD 17 = true ∧
    (0x30003#32).getLsbD 16 = true ∧ (0x10001#32).getLsbD 17 = false ∧ ((0x20002#32).getLsbD 1).toNat ≠ (blk3 2).fld ChipMode.HEAT () ∧
    blocksIdle (blk3 2) = false ∧ blocksIdle (blk3 1) = true := by
  (repeat' refine And.intro ?_ ?_) <;> decide +kernel
theorem witness_registerWritesByClass : ∃ f ix, regAt (TwCfg.addr ()) = some (f, ix) ∧ memAt (TwCfg.addr ()) = none ∧
    TwCfg.addr () % 4 = 0 ∧ NoRule .pf0 f ix (TwCfg.addr ()) 3 ∧ Reaches alone .pf0 (TwCfg.addr ()) (unitOf (TwCfg.addr ())) ∧
    privileged alone .pf0 = true ∧ rsvHit f 3 (2 ^ 32 - 1) = 0 ∧ marksAt alone (TwCfg.addr ()) = [] ∧ f.fields ≠ [] :=
  ⟨_, _, rfl, by decide +kernel, by decide +kernel, fun _ => ⟨rfl, rfl, rfl⟩, ⟨by decide +kernel, by decide +kernel, by decide +kernel⟩, by decide +kernel, by decide +kernel, by decide +kernel, by decide +kernel⟩
theorem witness_registerWritesByClass_signed :
    (regAt (FcThrHi.addr (3, 0))).map (fun x => x.1.id) = some .fcThrHi ∧ (regAt (EcZhi.addr 15)).map (fun x => x.1.id) = some .ecZhi ∧
    (regAt (KcManv.addr (0, 11))).map (fun x => x.1.id) = some .kcManv ∧ Alone alone .pf0 (Hsp.addr (15, 7)) (unitBlk 15) ∧
    (regAt (Hsp.addr (15, 7))).isSome = true := by
  (repeat' refine And.intro ?_ ?_) <;> decide +kernel
theorem witness_hostErrors : (6 < 7 ∧ 0x7FFFFFC < 2 ^ 27 ∧ 15 < 16) ∧ alone.fld HostErrInfo.VALID () = 0 ∧
    (alone.flag HostErrInfo.VALID ()).fld HostErrInfo.VALID () = 1 ∧ HostErr.PRIV.lo ≠ (hostErrFld 1).lo := by decide +kernel
theorem witness_hostWritesJudged_window : (hwinSize - 8 + 8 ≤ hwinSize ∧ (hwinSize - 8) % 8 = 0) ∧
    (8 < 12 ∧ 12 ≤ 256 ∧ 12 % 4 = 0 ∧ 4 % 4 = 0 ∧ 4 + 12 ≤ hwinSize) ∧ Reaches alone .pf0 (0x800000 + (hwinSize - 8)) unitChip := by
  (repeat' refine And.intro ?_ ?_) <;> decide +kernel
theorem witness_hostWritesJudged : masterUp alone .pf1 = true ∧ stageOpen alone 0x60002 = true ∧ alone.fld Start.STAGE () ≠ 0 ∧
    0x60002 % 4 ≠ 0 ∧ memAt 0x6FFFC = none ∧ regAt 0x6FFFC = none ∧ recAt 0x6FFFC = none ∧ secArea 0x6FFFC = false ∧
    privileged alone .pf1 = false ∧ memAt 0x60000 = none ∧ alone.bit ChipMode.LEGACY () = false ∧ 0x60000 % 8 = 0 := by decide +kernel
theorem witness_hostWritesJudged_priv : ∃ f ix, regAt (EvgCtl.addr ()) = some (f, ix) ∧ f.priv = true ∧ memAt (EvgCtl.addr ()) = none ∧
    NoRule .pf1 f ix (EvgCtl.addr ()) 0 := ⟨_, _, rfl, by decide +kernel, by decide +kernel, fun _ => ⟨rfl, rfl, rfl⟩⟩
theorem witness_hostWritesJudged_narrow : memAt (BkCtl.addr 3) = none ∧
    (regAt (BkCtl.addr 3 / 4 * 4)).map (fun x => (x.1.mtype, x.1.priv, stewardTarg x.1.id x.2)) = some (true, false, false) := by decide +kernel
theorem witness_hostReadsAnswered : (regAt (BkStat.addr 3)).map (fun x => (x.1.id, x.1.pop)) = some (.bkStat, false) ∧
    privAt (BkStat.addr 3) = false ∧ memAt (BkStat.addr 3) = none ∧ recAt (BkStat.addr 3) = none ∧
    stageOpen alone (BkStat.addr 3) = true ∧ masterUp alone .pf0 = true ∧ alone.fld Start.STAGE () ≠ 0 ∧ unitOf (BkStat.addr 3) ∉ alone.undef := by decide +kernel
theorem witness_hostReadsAnswered_window : (hwinSize - 4) % 4 = 0 ∧ hwinSize - 4 < hwinSize ∧ stageOpen alone (0x800000 + (hwinSize - 4)) = true ∧
    privAt (0x800000 + (hwinSize - 4)) = false ∧ unitChip ∉ alone.undef := by decide +kernel
theorem witness_hostReadsAnswered_pop : isPop alone (QPop.addr (0, 5)) = true ∧ QPop.addr (0, 5) % 2 = 0 ∧ masterUp alone .pf1 = true ∧
    stageOpen alone (QPop.addr (0, 5)) = true := by decide +kernel
theorem witness_hostReadsAnswered_priv : privAt (EvgCtl.addr ()) = true ∧ (regAt (EvgCtl.addr ())).map (fun x => x.1.pop) = some false ∧
    privileged alone .pf1 = false ∧ unitOf (EvgCtl.addr ()) ∉ alone.undef := by decide +kernel
theorem witness_hostReadsAnswered_closed : stageOpen inRom (BkStat.addr 3) = false ∧ masterUp inRom .pf0 = true ∧ inRom.fld Start.STAGE () ≠ 0 := by decide +kernel

/-- A pool with one packet in queue 5 of region 0 that the queue has taken for its consumer. -/
def pkd : Dev :=
  let k : Pkt := ⟨0, 20, [10], [1, 2, 3, 4, 5]⟩
  (((alone.flag QCfg0.USED (0, 5)).put QCfg0.QUOTA (0, 5) 40).onR 0 fun r => { r with used := [(10, 6)] }) |> fun d => onQ d 0 5 fun x => { x with pkts := [k] }

theorem witness_serialHostPort : alone.fld Start.STAGE () ≠ 0 ∧ State.reset.dev.fld Start.STAGE () = 0 ∧ alone.supply.contains .h = true ∧ State.reset.dev.supply.contains .h = false ∧ stalled alone .shp = false ∧
    crc8 (shpHead 2 2 0x83FFF8#32 [1, 2]) ≠ 0 ∧ 0x83FFF8 % 4 = 0 ∧ 0x800000 ≤ 0x83FFF8 ∧ 0x83FFF8 + 4 * 2 ≤ 0x840000 ∧
    stageOpen alone 0x83FFF8 = true ∧ unitChip ∉ alone.undef ∧ (∀ i < 2, privAt (0x83FFF8 + 4 * i) = false) ∧
    popIn alone 0x83FFF8 2 = false := by
  (repeat' refine And.intro ?_ ?_) <;> decide +kernel
theorem witness_serialHostPort_register : ∃ f ix, regAt (TwCfg.addr ()) = some (f, ix) ∧ NoRule .shp f ix (TwCfg.addr ()) 3 ∧
    rsvHit f 3 (2 ^ 32 - 1) = 0 ∧ f.priv = false ∧ TwCfg.addr () < 2 ^ 27 ∧ memAt (TwCfg.addr ()) = none ∧
    legacyErr alone .shp (TwCfg.addr ()) = false ∧ unitOf (TwCfg.addr ()) ∉ alone.undef := by
  refine ⟨_, _, rfl, fun _ => ⟨rfl, rfl, rfl⟩, ?_⟩
  (repeat' refine And.intro ?_ ?_) <;> decide +kernel
theorem witness_serialHostPort_anyWord : ∃ t, wordWrite ⟨[], alone⟩ .shp (TrcCfg.addr ()) 0 = .next ⟨[], t⟩ := ⟨_, rfl⟩
theorem witness_serialHostPort_pop : popIn alone (QPop.addr (0, 5)) 2 = true ∧ QPop.addr (0, 5) < 2 ^ 27 ∧ QPop.addr (0, 5) % 4 = 0 := by decide +kernel
/-- The worked example of R119, its word 1: an unprivileged serial host port writes CHIP.SWRST. -/
theorem test_shpWriteFrame_priv :
    let t := after (.shpWriteFrame 0x70040#32 [0x1C0DE#32] (crc8 (shpHead 2 1 0x70040#32 [0x1C0DE#32]))) alone
    t.out = [.shpFrame [0x80, crc8 [0x80]]] ∧ t.fld HostErr.PRIV () = 1 ∧ t.fld HostErrInfo.MASTER () = 2 ∧ t.fld HostErrInfo.WRITE () = 1 ∧
    t.fld HostErrInfo.KIND () = 0 ∧ t.fld HostErrAddr.ADDR () = 0x70040 ∧ t.fld Start.STAGE () = 5 := by decide +kernel
/-- The same example, its word 0: 8 written to BK06.STAT clears REFUSED. -/
theorem test_shpWriteFrame_w1c :
    (after (.shpWriteFrame 0x2180004#32 [8#32] (crc8 (shpHead 2 1 0x2180004#32 [8#32]))) (alone.put BkStat.REFUSED 6 1)).bit BkStat.REFUSED 6 = false := by
  decide +kernel
theorem witness_serialHostPortBad : ¬ ((3#8 = 2 ∨ 3#8 = 0x0B) ∧ 1 ≤ (4#8).toNat ∧ (4#8).toNat ≤ 64) ∧
    ((0x0B#8 = 2 ∨ 0x0B#8 = 0x0B) ∧ 1 ≤ (64#8).toNat ∧ (64#8).toNat ≤ 64) ∧ ¬ ((2#8 = 2 ∨ 2#8 = 0x0B) ∧ 1 ≤ (65#8).toNat ∧ (65#8).toNat ≤ 64) := by decide
theorem witness_serialHostPortCut : pkd.fld Start.STAGE () ≠ 0 ∧ stalled pkd .shp = false ∧ stageOpen pkd (QPop.addr (0, 5)) = true ∧ unitRgn 0 ∉ pkd.undef ∧
    (popTry pkd 0 5 .shp).1.isSome = true ∧
    { pkd with out := [.shpFrame ([0x80] ++ byte4 5 ++ [1])] }.out = .shpFrame ([0x80] ++ byte4 5 ++ [1]) :: [] ∧ (5#32) ≠ 0xFFFFFFFF := by
  (repeat' refine And.intro ?_ ?_) <;> decide +kernel

theorem witness_blockCommands : CmdFree (blk3 1) .pf0 3 (unitBlk 3) 1 (ownM 0 0) ∧ CmdFree (blk3 2) .shp 3 (unitBlk 3) 2 (ownM 1 0) ∧
    CmdFree (blk3 3) .pf1 3 (unitBlk 3) 4 (ownM 2 0) ∧ CmdFree (blk3 4) .st0 3 (unitBlk 3) 8 (ownM 3 0) ∧ CmdFree (blk3 1) .pf0 3 unitNone 16 (ownM 4 0) := by
  refine ⟨⟨?_, ?_, ?_, ?_, ?_⟩, ⟨?_, ?_, ?_, ?_, ?_⟩, ⟨?_, ?_, ?_, ?_, ?_⟩, ⟨?_, ?_, ?_, ?_, ?_⟩, ⟨?_, ?_, ?_, ?_, ?_⟩⟩ <;>
    (repeat' refine And.intro ?_ ?_) <;> decide +kernel
theorem witness_blockCommands_states : (blk3 1).fld BkStat.STATE 3 = 1 ∧ (blk3 1).bit Qstat.LATCH 3 = false ∧
    domValid (blk3 1) (hdrOf (blk3 1) 3 (armBank (blk3 1) 3).1).domain = true ∧ (blk3 2).fld BkStat.STATE 3 = 2 ∧
    (blk3 3).fld BkStat.STATE 3 = 3 ∧ 2 ≤ (blk3 4).fld BkStat.STATE 3 ∧ (blk3 4).fld BkStat.STATE 3 ≤ 4 := by decide +kernel
/-- Block 3 while the stewards reload it after RESET. -/
def reload : Dev := ((blk3 1).put BkCtl.RESET 3 1).onB 3 fun b => { b with resetting := true }
theorem witness_blockReloadEnds : (alone.b 15).resetting = false ∧ (reload.b 3).resetting = true ∧ (secOf reload 3).isSome = true ∧
    pendCmds reload 3 = 16 := by decide +kernel
theorem witness_blockRefused : mRsv 0xFFE0 (ownM 4 0x1F001F) = 0 ∧ masterUp (blk3 1) .shp = true ∧ stageOpen (blk3 1) (BkCtl.addr 3) = true ∧
    unitBlk 3 ∉ (blk3 1).undef ∧ unitNone ∉ (blk3 1).undef ∧ (blk3 1).fld TwStat.ROLE () = 0 ∧
    (let d := (blk3 1).put BkCtl.ARM 3 1
     let pend := pendCmds d 3 ||| mirBits d (BkCtl.addr 3) % 32
     1 &&& pend = 1 ∧ (3 &&& pend ≠ 3 ∧ 3 &&& pend ≠ 0) ∧ (pend ≠ 0 ∧ 2 &&& pend = 0 ∧ 8 &&& pend = 0 ∧ pend = 1 ∧ pendCmds d 3 = pend)) ∧
    chipTakes (alone.flag BootCause.HELD ()) = false ∧ mOnes (ownM 4 0x1F001F) % 32 ≠ 2 ^ 4 ∧ mOnes (ownM 4 0) % 32 = 2 ^ 4 ∧
    (((blk3 1).onB 3 fun b => { b with repouring := true }).b 3).repouring = true ∧ 2 ≤ up.fld TwStat.ROLE () ∧
    ((blk3 1).flag Qstat.LATCH 3).bit Qstat.LATCH 3 = true ∧ domValid ((blk3 1).clr PdStat.VALID 0) 0 = false ∧
    (blk3 2).fld BkStat.STATE 3 ≠ 1 ∧ (blk3 1).fld BkStat.STATE 3 ≤ 1 ∧ (blk3 0).fld BkStat.STATE 3 = 0 := by
  (repeat' refine And.intro ?_ ?_) <;> decide +kernel
theorem witness_swaps : Alone (blk3 2) .pf0 (Rctl.addr 3) (unitBlk 3) ∧ mRsv 0xFFF0 (ownM 0 0xF000F) = 0 ∧
    (((blk3 2).onB 3 fun b => { b with swHost := some true }).b 3).swHost.isSome = true ∧ (mirBits (blk3 2) (Rctl.addr 3)).testBit 0 = false ∧
    ((blk3 2).b 3).swHost.isSome = false ∧ (2 ≤ (blk3 2).fld BkStat.STATE 3 ∧ (blk3 2).bit Rctl.TARGET 3 = curBank (blk3 2) 3) ∧
    (hdrOf (blk3 2) 3 true).valid = true ∧ domValid (blk3 2) (hdrOf (blk3 2) 3 true).domain = true ∧ ((blk3 2).b 3).repouring = false ∧
    domValid ((blk3 2).clr PdStat.VALID 0) 0 = false ∧ (blk3 1).fld BkStat.STATE 3 = 1 ∧ (mOnes (ownM 3 1)).testBit 3 = true ∧
    mRsv 0xFFF0 (ownM 3 0xF000F) = 0 ∧ (mOnes (ownM 3 0x10001)).testBit 0 = true ∧ (mOnes (ownM 3 0)).testBit 0 = false := by
  (repeat' refine And.intro ?_ ?_) <;> decide +kernel
theorem witness_setPoints : Alone (blk3 4) .pf0 (HspCtl.addr 3) (unitBlk 3) ∧ mRsv 0xFFFE 0x10001 = 0 ∧ (blk3 1).fld BkStat.STATE 3 < 2 ∧
    (2 ≤ (blk3 4).fld BkStat.STATE 3 ∧ (blk3 4).fld BkStat.STATE 3 ≤ 4) ∧ Alone (blk3 3) .pf0 (SegWr.addr 3) (unitBlk 3) ∧
    wRsv 0xFFFFFFC0 63 = 0 ∧ Alone (blk3 3) .shp (Seg.addr (3, 31, 7)) (unitBlk 3) := by
  (repeat' refine And.intro ?_ ?_) <;> decide +kernel

/-- A slot without POS: opcode and operands. -/
def slot (op arg : Nat) : DWord := BitVec.ofNat 64 (op * 2 ^ 40 + arg)

/-- One slot of each opcode, among them an UPDATE of a pulse row, a CONSUME of a pair and a MARK with event and trace. -/
def slotL : List DWord := [slot 0 (0xB + 5 * 16), slot 1 5, slot 2 (5 + 7 * 8), slot 2 (0x200 + 62 * 8), slot 3 (2 + 3 * 16 + 10 * 256),
  slot 4 (4 + 3 * 16 + 256 + 63 * 512), slot 5 (2 + 5 * 32 + 7 * 2048), slot 6 (2 + 4 * 4 + 62 * 32), slot 7 0x3ABCD]

/-- Block 3 within a cycle, at slot i, in a state. -/
def runner (i st : Nat) : Dev :=
  (({ alone with pat := some (pat slotL) }.put BkStat.STATE 3 st).flag PdStat.VALID 0 |>.put Rstat.SLOT 3 i |>.put TrcCfg.BLK () 8).onB 3 fun b => { b with inCycle := true }

/-- The kernel cell 5 of block 3 of a kind, its RUN slot due, its output 0 enabled. -/
def kcell (kind st : Nat) : Dev := (((runner 1 st).put KcCfg.KIND (3, 5) kind).put KcIo1.OUTEN (3, 5) 1).put KcIo1.OUT0 (3, 5) 63

theorem witness_kernelCommands : masterUp (blk3 3) .st0 = true ∧ stageOpen (blk3 3) (KcCtl.addr (3, 11)) = true ∧ unitBlk 3 ∉ (blk3 3).undef ∧
    mRsv 0xFFC0 (ownM 5 0x3F003F) = 0 ∧ (blk3 3).fld TwStat.ROLE () = 0 ∧ (blk3 3).fld BkStat.STATE 3 ≠ 1 ∧ mOnes (ownM 5 0x3F003F) % 64 = 63 ∧
    ((5#6).getLsbD 0 = true) ∧ (blk3 1).fld BkStat.STATE 3 = 1 ∧ mOnes (ownM 5 0) % 64 = 2 ^ 5 ∧ mOnes (ownM 0 0) % 64 = 2 ^ 0 ∧
    fget 0 6 ((blk3 1).reg (KcCtl.addr (3, 5))) = 0 ∧ isController ((kcell 2 3).fld KcCfg.KIND (3, 5)) = true ∧ isController ((kcell 9 3).fld KcCfg.KIND (3, 5)) = false ∧
    (pair 2).fld TwStat.ROLE () = 2 := by
  (repeat' refine And.intro ?_ ?_) <;> decide +kernel
/-- The opcodes of the slots that stand in turn, each with the commands that carry them out. -/
theorem witness_slots : (List.range 9).map (fun i => (slotNow (runner i 3) 3).map sOp) = [some 0, some 1, some 2, some 2, some 3, some 4, some 5, some 6, some 7] ∧
    slotNow (blk3 2) 3 = none ∧ unitBlk 3 ∉ (runner 0 3).undef ∧ (curSlots (runner 0 3) 3).length ≤ 256 := by
  (repeat' refine And.intro ?_ ?_) <;> decide +kernel
theorem witness_slots_next : (runner 7 3).fld Rstat.SLOT 3 + 1 < (curSlots (runner 7 3) 3).length ∧ ((runner 7 3).b 3).ovs = false ∧
    ((runner 7 3).b 3).late = false ∧ (runner 8 3).fld Rstat.SLOT 3 + 1 = (curSlots (runner 8 3) 3).length := by
  (repeat' refine And.intro ?_ ?_) <;> decide +kernel
theorem witness_slotEffects : (slotL.map fun w => (sOp w, sf w 9 1)) = [(0, 0), (1, 0), (2, 0), (2, 1), (3, 1), (4, 1), (5, 0), (6, 1), (7, 1)] ∧
    sf (slot 2 (5 + 7 * 8)) 9 1 = 0 ∧ (sf (slot 0 (0xB + 5 * 16)) 0 4).testBit 3 = true ∧ sf (slot 4 (4 + 3 * 16 + 256 + 63 * 512)) 9 6 = 63 ∧
    pairB (runner 6 3) (rgnOf 3) = none ∧ sf (slot 5 (2 + 5 * 32)) 11 5 = 0 ∧ sf (slot 7 0x3ABCD) 17 1 = 1 ∧
    (sf (slot 7 0x3ABCD) 16 1 = 1 ∧ ((runner 8 3).fld TrcCfg.BLK ()).testBit 3 = true ∧ (runner 8 3).trace.length < 65536 ∧ traceWaits (runner 8 3) < 64) ∧
    ((runner 8 3).b 3).ofU 62 ≤ 63 ∧ (((runner 8 3).onB 3 fun b => { b with opf := vset b.opf 62 64 }).b 3).ofU 62 > 63 := by
  (repeat' refine And.intro ?_ ?_) <;> decide +kernel
theorem witness_slew : unitBlk 3 ∉ (kcell 7 3).undef ∧ (slotNow (kcell 7 3) 3).map sOp = some 1 ∧ (slotNow (kcell 7 3) 3).map (fun w => kcIx (sf w 0 4)) = some 5 ∧
    (kcell 7 3).fld KcCfg.KIND (3, 5) = 7 ∧ fget 0 6 ((kcell 7 3).reg (KcCtl.addr (3, 5))) = 0 ∧ effMode (kcell 7 3) (3, 5) = 0 ∧
    (kcell 7 3).bit KcStat.PRE (3, 5) = false ∧ ((kcell 7 3).fld KcIo1.OUTEN (3, 5)).testBit 0 = true := by
  (repeat' refine And.intro ?_ ?_) <;> decide +kernel
theorem witness_kernelModes : 3 ≤ effMode ((kcell 2 2).put KcCfg.HOLD (3, 5) 2) (3, 5) ∧ effMode (kcell 2 3) (3, 5) ≤ 2 ∧
    effMode ((kcell 2 3).flag KcStat.MANSEL (3, 5)) (3, 5) = 1 ∧ effMode ((kcell 2 2).put KcCfg.HOLD (3, 5) 1) (3, 5) = 2 ∧
    isController 2 = true ∧ (kcell 5 3).fld KcCfg.KIND (3, 5) = 5 ∧ (kcell 5 3).fld KcCfg.VAR (3, 5) % 4 = 0 ∧ effMode (kcell 5 3) (3, 5) = 0 ∧
    ((kcell 2 3).flag KcCfg.FACT (3, 5)).bit KcCfg.FACT (3, 5) = true := by
  (repeat' refine And.intro ?_ ?_) <;> decide +kernel

theorem witness_cycleStarts : unitBlk 3 ∉ (blk3 1).undef ∧ ((reload.b 3).resetting = true) ∧ (blk3 0).fld BkStat.STATE 3 = 0 ∧
    ((blk3 1).fld BkStat.STATE 3 = 1 ∧ (blk3 1).bit BkCtl.ARM 3 = false) ∧
    (let d := (blk3 1).put BkCtl.ARM 3 1
     (d.b 3).resetting = false ∧ (d.b 3).repouring = false ∧ d.fld BkStat.STATE 3 = 1 ∧ d.bit BkCtl.ARM 3 = true ∧ d.bit BkCtl.RUN 3 = false) ∧
    (let d := (blk3 2).onB 3 fun b => { b with disarm := true }
     2 ≤ d.fld BkStat.STATE 3 ∧ d.fld BkStat.STATE 3 ≤ 4 ∧ (d.b 3).disarm = true ∧ (d.b 3).inCycle = false) ∧
    (let d := (blk3 4).onB 3 fun b => { b with rewrite := true }
     d.fld BkStat.STATE 3 ≤ 4 ∧ (d.b 3).disarm = false ∧ (d.b 3).rewrite = true) ∧
    (let d := (blk3 3).onB 3 fun b => { b with awaitBank := true, swFall := some true }
     (d.b 3).awaitBank = true ∧ (d.b 3).swFall.isSome = true) := by
  (repeat' refine And.intro ?_ ?_) <;> decide +kernel
theorem witness_cycleStarts_begin : let d := (blk3 2).put BkCtl.RUN 3 1
    (d.b 3).resetting = false ∧ (d.b 3).repouring = false ∧ (d.b 3).rewrite = false ∧ (d.b 3).disarm = false ∧ d.bit Pstat.HOLD 3 = false ∧ (d.b 3).swFall = none ∧
    d.fld BkStat.STATE 3 = 2 ∧ d.bit BkCtl.RUN 3 = true ∧ (d.b 3).swHost = none ∧ (d.b 3).swTrig = none ∧ (d.fld Pstat.MISSRUN 3 < 2 ∨ (d.b 3).inCycle = false) ∧
    (d.b 3).inCycle = false ∧ (d.bit HspCtl.COMMIT 3 = false ∧ (d.flag HspCtl.COMMIT 3).bit HspCtl.COMMIT 3 = true) ∧ (d.put HspMap0.EN 3 1).fld HspMap0.EN 3 = 1 := by
  (repeat' refine And.intro ?_ ?_) <;> decide +kernel
theorem witness_cycleStarts_miss : ((runner 1 3).b 3).inCycle = true ∧ ((runner 1 3).b 3).swFall = none ∧ (runner 1 3).fld Pstat.MISSRUN 3 < 2 ∧
    ((runner 1 3).put Pstat.MISSRUN 3 2).fld Pstat.MISSRUN 3 ≥ 2 := by
  (repeat' refine And.intro ?_ ?_) <;> decide +kernel
theorem witness_cycleStarts_swap : let d := (blk3 3).onB 3 fun b => { b with swHost := some true }
    (d.b 3).inCycle = false ∧ (d.b 3).awaitBank = false ∧ (d.b 3).swHost = some true ∧ (d.b 3).swWait = false ∧ true ≠ curBank d 3 ∧
    domValid d (hdrOf d 3 true).domain = true := by
  (repeat' refine And.intro ?_ ?_) <;> decide +kernel

/-- Block 3 with a lowest rate, its bank B the fallback of bank A. -/
def slow (st : Nat) : Dev :=
  let h : BankHdr := { bank 1 with rateMin := 5, rateMax := 7 }
  let s : BlockSec := { sec [slot 7 0] with hdrA := h, hdrB := { h with fallback := true } }
  { blk3 st with pat := some ⟨hdr 2, 4096, 2, [⟨3, 3, 1, 0, 0, 0, [], .block s⟩]⟩ }
theorem witness_runnerFaults : runnerOn (blk3 1) 3 = false ∧ ((runner 1 3).b 3).inCycle = true ∧ runnerOn (runner 1 3) 3 = true ∧
    (runner 1 3).fld Wdog.WDRUN 3 < 2 ∧ ((runner 1 3).put Wdog.WDRUN 3 2).fld Wdog.WDRUN 3 ≥ 2 ∧ hasSec (blk3 3) 2 = false ∧ hasSec (blk3 3) 3 = true ∧
    ((blk3 3).b 3).rewrite = false ∧ ((blk3 3).b 3).rmSpan = false ∧ (blk3 3).fld BkStat.STATE 3 = 3 ∧ (blk3 3).failT = false ∧
    (((blk3 3).onB 3 fun b => { b with rmSpan := true }).b 3).rmSpan = true := by
  (repeat' refine And.intro ?_ ?_) <;> decide +kernel
theorem witness_stalls : 2 ≤ (slow 4).fld BkStat.STATE 3 ∧ (slow 4).fld BkStat.STATE 3 ≤ 4 ∧ (hdrOf (slow 4) 3 (curBank (slow 4) 3)).rateMin ≠ 0 ∧
    (slow 4).bit Pstat.HOLD 3 = false ∧ ((slow 4).b 3).stalled = none ∧ hasFallback (slow 4) 3 (curBank (slow 4) 3) = true ∧
    (let d := ((slow 3).put BkStat.BANK 3 1).onB 3 fun b => { b with stalled := some false }
     hasFallback d 3 (curBank d 3) = false ∧ (d.b 3).stalled = some (!curBank d 3) ∧ (d.b 3).swFall = none ∧ (hdrOf d 3 (curBank d 3)).rateMin ≠ 0) ∧
    (let d := (slow 3).onB 3 fun b => { b with stalled := some false, swFall := some true, awaitBank := true, swHost := some true }
     runnerOn d 3 = true ∧ (d.b 3).inCycle = false ∧ (d.b 3).awaitBank = true ∧ (d.b 3).stalled = some (!true) ∧ true ≠ curBank d 3) ∧
    (slow 3).bit Pstat.STALL 3 = false ∧ ((slow 3).flag Pstat.STALL 3).bit Pstat.STALL 3 = true := by
  (repeat' refine And.intro ?_ ?_) <;> decide +kernel

/-- Domain 2 with a primary and an alternate source of given kinds, both valid. -/
def dom2 (src asrc : Nat) : Dev :=
  let d := ((alone.put PdCfg.SRC 2 src).put PdCfg.ASRC 2 asrc).flag PdStat.VALID 2
  { d.onPd 2 fun x => { x with pri := { PSrc.reset with valid := true }, alt := { PSrc.reset with valid := true } } with clk := 2000 }

theorem witness_phaseDomains : unitChip ∉ alone.undef ∧ srcKind (dom2 2 0) 2 false < 3 ∧ 6 < srcKind (dom2 7 0) 2 false ∧
    (4 ≤ srcKind (dom2 4 6) 2 false ∧ srcKind (dom2 4 6) 2 true ≤ 6) ∧ srcKind (dom2 3 0) 2 false = 3 ∧
    (3 ≤ srcKind (dom2 3 5) 2 false ∧ srcKind (dom2 3 5) 2 true ≤ 5) ∧ altInUse (dom2 3 5) 2 = false ∧ domValid (dom2 3 5) 2 = true ∧
    (dom2 3 5).bit PdCfg.AUTO 2 = false ∧ ((dom2 3 5).flag PdCfg.AUTO 2).bit PdCfg.AUTO 2 = true ∧ (dom2 3 5).fld PdCfg.ASRC 2 ≠ 0 ∧
    srcValid (dom2 3 5) 2 true = true ∧ Alone (dom2 3 5) .pf1 (PdCtl.addr 2) unitChip ∧ mRsv 0xFFFE 0x10001 = 0 ∧
    (dom2 3 0).fld PdCfg.ASRC 2 = 0 ∧ srcValid (dom2 3 5) 2 (!altInUse (dom2 3 5) 2) = true := by
  (repeat' refine And.intro ?_ ?_) <;> decide +kernel
theorem witness_phaseDomains_step : ∃ t, exec (.switch .pf0 2 0) ⟨[], dom2 3 0⟩ = .next t := ⟨_, rfl⟩

/-- Block 3 in a state, PER 4000, DTIME 30, every leg with its shadow written and its low side on. -/
def legs (st : Nat) : Dev :=
  let s : BlockSec := { sec [slot 7 0] with pulse := [⟨2, 2#3, [⟨100, 0, true⟩, ⟨900000, 0, false⟩], true⟩] }
  let d := { (blk3 st).put Pwm.PER 3 4000 with pat := some ⟨hdr 2, 4096, 2, [⟨3, 3, 1, 0, 0, 0, [], .block s⟩]⟩, clk := 5000 }
  let d := (((List.finRange 3).foldl (fun d l => (d.put LcCfg.DTIME (3, l) 30).put LcCfg.MINP (3, l) 40) d).put BankV.G_GOOD () 15)
  d.onB 3 fun b => { b with leg := b.leg.map fun g => { g with upd := true, on := true, duty := 500000, gh := .low, gl := .high } }
theorem witness_legs_periods : unitBlk 3 ∉ (legs 3).undef ∧ (legs 1).fld BkStat.STATE 3 ≤ 1 ∧ (2 ≤ (legs 4).fld BkStat.STATE 3 ∧ (legs 4).fld BkStat.STATE 3 ≤ 4) ∧
    (let d := (onL (legs 3) (3, 1) fun g => { g with stop := true }).flag BkCtl.STOP 3
     (legOf d (3, 1)).stop = true ∧ (∀ j, j ≠ 1 → (legOf d (3, j)).stop = false) ∧ d.fld BkStat.STATE 3 = 3 ∧ d.bit BkCtl.STOP 3 = true) ∧
    (legOf (legs 2) (3, 0)).stop = false ∧ (legs 2).fld BkStat.STATE 3 ≠ 3 := by
  (repeat' refine And.intro ?_ ?_) <;> decide +kernel
theorem witness_legs_plan : let d := legs 3
    let c := min (cmpOf ((legOf d (3, 2)).taken d.clk).1 (d.fld Pwm.PER 3)) (8 * d.fld Pwm.PER 3)
    d.fld BkStat.STATE 3 = 3 ∧ (legOf d (3, 2)).stop = false ∧ d.bit Qstat.LATCH 3 = false ∧ d.bit PwmStat.PTMODE 3 = false ∧
    ((legOf d (3, 2)).taken d.clk).2 = true ∧ mayDrive d 3 = true ∧ d.bit Csync.EN 3 = false ∧ d.bit Csync.LOCKED 3 = false ∧ isChopper d (3, 2) = false ∧
    legM d (3, 2) ≤ c ∧ c + legM d (3, 2) ≤ 8 * d.fld Pwm.PER 3 ∧ 8 * d.fld Pwm.PER 3 < 2 ^ 23 ∧ d.fld LcAcc.A (3, 2) = 0 ∧ 0 < d.fld LcCfg.DTIME (3, 2) ∧
    d.fld LcCfg.DTIME (3, 2) < c ∧ c + d.fld LcCfg.DTIME (3, 2) < 8 * d.fld Pwm.PER 3 ∧ (legOf d (3, 2)).gh = .low ∧ (legOf d (3, 2)).gl = .high := by
  (repeat' refine And.intro ?_ ?_) <;> decide +kernel
theorem witness_legs_edges : (legOf (onL (legs 3) (3, 0) fun g => { g with edges := [⟨7, true, false⟩] }) (3, 0)).edges = [⟨7, true, false⟩] ∧
    (legOf (onL (legs 3) (3, 0) fun g => { g with edges := [⟨7, true, true⟩] }) (3, 0)).edges = [⟨7, true, true⟩] ∧ (legOf (legs 3) (3, 0)).edges = [] := by decide +kernel
theorem witness_legs_rows : (legs 2).fld BkStat.STATE 3 ≠ 3 ∧ (legOf (onL (legs 3) (3, 0) fun g => { g with upd := false }) (3, 0)).upd = false ∧
    (let d := (legs 3).flag Csync.LOCKED 3 |>.onB 3 fun b => { b with ptPend := some 0 }
     d.fld BkStat.STATE 3 = 3 ∧ (d.b 3).disarm = false ∧ ((d.b 3).leg.toList.any fun g => g.stop) = false ∧ mayDrive d 3 = true ∧ (d.b 3).ptLeave = false ∧
     (d.b 3).ptPend = some 0 ∧ (∀ j, (legOf d (3, j)).upd = true) ∧ d.bit Csync.LOCKED 3 = true ∧ (ptRows d 3)[0]?.isSome = true ∧
     ((legOf d (3, 2)).req ≠ rowLevel0 ⟨2, 4#3, [], true⟩ 2)) ∧ (legs 3).bit PwmStat.PTMODE 3 = false := by
  (repeat' refine And.intro ?_ ?_) <;> decide +kernel
theorem witness_legs_table : let d := (legs 3).flag PwmStat.PTMODE 3 |>.put Pwm.PER 3 4000 |>.onB 3 (fun b => { b with ptRow := some 0 }) |>.onPd 0 fun x => { x with seg := ⟨1000, 77, 2 ^ 32, 4000⟩ }
    d.fld BkStat.STATE 3 = 3 ∧ (d.b 3).disarm = false ∧ d.bit PwmStat.PTMODE 3 = true ∧ mayDrive d 3 = true ∧ (d.twin.resume.any fun k => k.1 == 3) = false ∧
    (ptRowOf d 3).map (fun r => r.edges[(d.b 3).ptNext]?.map (·.leg)) = some (some 0) ∧ (legOf d (3, 0)).on = true ∧ (legOf d (3, 0)).skip = false ∧ (legOf d (3, 0)).stretch = none ∧
    (ptRowOf d 3).any (fun r => fracStep d 3 100 / 8 ≠ (fracStep d 3 100 + pulseWidth d 3 r 0 ⟨100, 0, true⟩) / 8) = true ∧ (legOf d (3, 0)).req ≠ true ∧
    (ptRowOf d 3).any (fun r => decide (legM d (3, 0) ≤ pulseWidth d 3 r 0 ⟨100, 0, true⟩)) = true := by
  (repeat' refine And.intro ?_ ?_) <;> decide +kernel

/-- Block 3 with its trip inputs and the shared inputs routed to it. -/
def routed (st : Nat) : Dev := (((legs st).flag Qcfg.TAEN 3).flag Qcfg.TBEN 3 |>.put Qroute.QIN () 8).put Qroute.TWQ () 8
theorem witness_quenchInputs : tripEn (routed 3) 3 false = true ∧ tripEn (routed 3) 3 true = true ∧ qinEn (routed 3) 3 = true ∧ twqEn (routed 3) 3 = true ∧
    qinEn (routed 3) 4 = false ∧ (∀ k, ((routed 3).b k).qClr = none) ∧ (routed 3).bit Qstat.LATCH 3 = false ∧
    ((routed 4).put Qstat.LATCH 3 1).bit Qstat.LATCH 3 = true ∧ (routed 2).fld BkStat.STATE 3 = 2 := by
  (repeat' refine And.intro ?_ ?_) <;> decide +kernel
theorem witness_quenchInputs_sameClk : (((routed 2).onB 3 fun b => { b with qClr := some ((routed 2).clk, 0, 2, b.leg) }).b 3).qClr.map (·.1) = some (routed 2).clk := by decide +kernel
theorem witness_quenchControl : Alone (routed 3) .shp (Qctl.addr 3) (unitBlk 3) ∧ mRsv 0xFFFC (ownM 1 0x30001) = 0 ∧ (mOnes (ownM 1 0x30001)).testBit 0 = true ∧
    (mOnes (ownM 1 0)).testBit 0 = false ∧ mRsv 0xFFFC (ownM 0 0) = 0 ∧ (mOnes (ownM 0 0)).testBit 1 = false ∧
    actMask (((routed 4).put Qstat.LATCH 3 1).onB 3 fun b => { b with ballA := true, ballB := true }) 3 = 0 ∨
    actMask ((routed 4).put Qstat.LATCH 3 1) 3 ≠ 0 := by
  refine Or.inl ?_
  (repeat' refine And.intro ?_ ?_) <;> decide +kernel
/-- A trip at TRIPA quenches a running block with code 1 (R262, R268). -/
theorem test_tripInput : let t := after (.tripInput 3 false) (routed 3)
    t.bit Qstat.LATCH 3 = true ∧ t.fld Qcause.CAUSE 3 = 1 ∧ t.fld Qstat.FIRST 3 = 1 ∧ t.fld BkStat.STATE 3 = 4 := by decide +kernel

/-- Filter cell 1 of block 3, OSR 32, fast path FOSR 8, its clock at a boundary of both. -/
def cell (mode : Nat) : Dev :=
  ((((blk3 3).put FcCfg.MODE (3, 1) mode).put FcCfg.OSR (3, 1) 32).put FcCfg.FOSR (3, 1) 8).put Mcnt.CNT (0, 0) 64
theorem witness_filterCells : unitBlk 3 ∉ (cell 1).undef ∧ (cell 0).fld FcCfg.MODE (3, 1) = 0 ∧ (cell 1).fld FcCfg.MODE (3, 1) = 1 ∧
    (cell 1).fld FcCfg.OSR (3, 1) ≠ 0 ∧ 63 ≠ fcEdge (cell 1) 3 1 ∧ true ≠ senseLevel (cell 1) 3 9 ∧ fcEdge (cell 1) 3 1 % 32 = 0 ∧ fcDown (cell 1) 3 1 = false ∧ (vget ((cell 1).b 3).flt 1).mainWait = false ∧
    (let d := (cell 1).onB 3 fun b => { b with flt := b.flt.map fun x => { x with mainWait := true, fastWait := true, fromEdge := 33 } }
     edgesSince 33 (fcEdge d 3 1) < 3 * 32) ∧ 3 * 21 ≤ edgesSince 1 64 ∧ (vget ((cell 1).b 3).flt 1).fastWait = false ∧
    (cell 1).bit FcStat.CMPHI (3, 1) = false ∧ (0 : Nat) + 1 ≤ (vget ((cell 1).b 3).flt 1).upHi + 1 ∧ ((cell 1).flag FcCfg.QHI (3, 1)).bit FcCfg.QHI (3, 1) = true ∧
    sincRes 64 (8 * 8) > (cell 1).sfld FcThrHi.V (3, 1) ∧ sincRes 0 (8 * 8) < (cell 1).sfld FcThrLo.V (3, 1) := by
  (repeat' refine And.intro ?_ ?_) <;> decide +kernel
theorem witness_modulatorClocks : unitRgn 0 ∉ (cell 1).undef ∧ mclkBad (cell 1) 0 0 = false ∧ rgnOf 3 = 0 ∧ fcClk (cell 1) 3 1 = 0 ∧ hasSec (cell 1) 3 = true ∧
    (cell 1).fld FcCfg.MODE (3, 1) ≠ 0 ∧ (cell 1).bit FcStat.BSTK (3, 1) = false ∧ mclkBad ((cell 1).flag MclkStat.BAD0 0) 0 0 = true ∧
    ((cell 1).flag FcStat.BSTK (3, 1)).bit FcStat.BSTK (3, 1) = true := by
  (repeat' refine And.intro ?_ ?_) <;> decide +kernel
theorem witness_senseInputs : (vget (alone.b 15).sense 9).sent = false ∧ (vget (alone.b 15).sense 9).muted = false ∧ (vget (alone.b 15).sense 9).rises = 0 ∧
    senseLevel (alone.put PcStat.LEVEL 15 1) 15 9 = true ∧
    (let d := (alone.put PcStat.LEVEL 15 1).onB 15 fun b => { b with sense := vmod b.sense 9 fun x => { x with sent := true, actRun := 254, sawLow := false } }
     (vget (d.b 15).sense 9).sawLow = false ∧ (vget (d.b 15).sense 9).rises = 0 ∧ (vget (d.b 15).sense 9).sent = true ∧ senseLevel d 15 9 = true ∧
     (d.put Sense.STUCKN 15 255).fld Sense.STUCKN 15 = 254 + 1 ∧ d.fld Sense.STUCKN 15 = 0) := by
  (repeat' refine And.intro ?_ ?_) <;> decide +kernel

/-- The encoder cell of block 3 in a mode, its inputs quiet since long. -/
def enc (mode : Nat) : Dev := { ((blk3 3).put EcCfg.MODE 3 mode).put EcCfg.SBITS 3 13 with clk := 100000 }
theorem witness_encoder_quad : unitBlk 3 ∉ (enc 1).undef ∧ (enc 1).bit EcStat.A 3 = false ∧ (enc 1).bit EcStat.B 3 = false ∧
    inputReady (enc 1) (encOf (enc 1) 3).tA (encFlt (enc 1) 3) = true ∧ inputReady (enc 1) (encOf (enc 1) 3).tB 1 = true ∧
    inputReady ((enc 1).put EcCfg.FLT 3 15) (some 99999) (encFlt ((enc 1).put EcCfg.FLT 3 15) 3) = false ∧ (enc 1).fld EcCfg.MODE 3 = 1 ∧ (enc 3).fld EcCfg.MODE 3 ≠ 1 ∧
    (enc 1).bit EcStat.SAT 3 = false ∧ ((enc 1).put EcStat.SAT 3 1).bit EcStat.SAT 3 = true ∧ ((enc 1).flag EcStat.PVALID 3).bit EcStat.PVALID 3 = true := by
  (repeat' refine And.intro ?_ ?_) <;> decide +kernel
theorem witness_encoder_index : inputReady (enc 1) (encOf (enc 1) 3).tZ (encFlt (enc 1) 3) = true ∧ encCondNow (enc 1) 3 = false ∧
    ((enc 1).flag EcCfg.ZMODE 3).bit EcCfg.ZMODE 3 = true ∧ (enc 1).bit EcStat.PVALID 3 = false ∧ inputReady (enc 3) (encOf (enc 3) 3).tA (encFlt (enc 3) 3) = true ∧
    Alone (enc 1) .pf0 (EcCtl.addr 3) (unitBlk 3) ∧ mRsv 0xFFFE 0x10001 = 0 := by
  (repeat' refine And.intro ?_ ?_) <;> decide +kernel
theorem witness_encoder_ssi : (enc 2).fld EcCfg.MODE 3 = 2 ∧ (enc 2).fld TwStat.ROLE () = 0 ∧ ((enc 2).put TwStat.ROLE () 1).fld TwStat.ROLE () = 1 ∧ (pair 2).fld TwStat.ROLE () = 2 ∧
    (let d := (((enc 2).flag EcStat.PVALID 3).put EcJmax.V 3 20).onB 3 fun b => { b with enc := { b.enc with last := some 5, idleOk := true } }
     (encOf d 3).idleOk = true ∧ d.bit EcStat.PVALID 3 = true ∧ (encOf d 3).last = some 5 ∧ d.fld EcJmax.V 3 ≠ 0 ∧ (sx 13 ((26 + 2 ^ 13 - 5) % 2 ^ 13)).natAbs > d.fld EcJmax.V 3 ∧
     (sx 13 ((25 + 2 ^ 13 - 5) % 2 ^ 13)).natAbs ≤ d.fld EcJmax.V 3 ∧ d.bit EcStat.SAT 3 = false) ∧ (encOf (enc 2) 3).idleOk = false := by
  (repeat' refine And.intro ?_ ?_) <;> decide +kernel
theorem witness_probe : (enc 0).bit PcStat.LEVEL 3 ≠ true ∧ inputReady (enc 0) ((enc 0).b 3).prbEdge ((enc 0).fld PcCfg.FLT 3 + 1) = true ∧
    ((enc 0).put PcCfg.EDGE 3 1).fld PcCfg.EDGE 3 = 1 ∧ 2 ≤ ((enc 0).put PcCfg.EDGE 3 2).fld PcCfg.EDGE 3 ∧ ((enc 0).b 3).prbLast = none ∧
    99999 + nsClk (enc 0) 10000 > (enc 0).clk ∧ (((enc 0).flag PcCfg.ONCE 3).bit PcCfg.ONCE 3 = true ∧ (enc 0).bit PcStat.ARMED 3 = false) ∧
    Alone (enc 0) .pf1 (PcCtl.addr 3) (unitBlk 3) ∧ mRsv 0xFFFE 0 = 0 := by
  (repeat' refine And.intro ?_ ?_) <;> decide +kernel
theorem witness_regionErrors : unitRgn 3 ∉ alone.undef ∧ alone.failT = false ∧ alone.failDue = none ∧ (alone.r 3).badQ = [] ∧ (alone.r 3).badFree = false ∧
    (alone.r 3).qerrWin < 7 ∧ 2 ≤ (alone.put BpStat.STATE 3 2).fld BpStat.STATE 3 ∧ alone.fld Rerr.WIN 3 < 3 ∧ (alone.put Rerr.WIN 3 3).fld Rerr.WIN 3 = 3 ∧
    alone.fld BpStat.STATE 3 < 2 ∧ alone.fld Start.STAGE () ≠ 0 ∧ State.reset.dev.fld Start.STAGE () = 0 := by
  (repeat' refine And.intro ?_ ?_) <;> decide +kernel

theorem witness_stewards : unitChip ∉ alone.undef ∧ alone.stwRun = true ∧ { alone with stwRun := false }.stwRun = false ∧ stewardBusy alone = false ∧
    stewardBusy { alone with submit := some 4 } = true ∧ alone.fld Stw.WIN () ≠ 3 ∧ (alone.put Stw.WIN () 3).fld Stw.WIN () = 3 ∧ alone.patOp = none ∧
    (alone.flag Stw.DOWN ()).bit Stw.DOWN () = true ∧
    (let d := flashed.put Start.STAGE () 2
     d.bit Stw.DOWN () = false ∧ d.stwRun = false ∧ 2 ≤ d.fld Start.STAGE () ∧ d.act = none ∧ sfwIn d (activeBank d) ≠ none) := by
  (repeat' refine And.intro ?_ ?_) <;> decide +kernel
theorem witness_stewards_sfw : sfwCode (flashed.put Start.STAGE () 2) false = 0 := sfwImage_check _

/-- The same when the new firmware runs; the pattern that is in effect has an epoch. -/
def renewed (e : Nat) : Dev := setSfw { flashed.put Start.STAGE () 2 with stwRun := true, pat := some { pat [] with hdr := { hdr 2 with epoch := e } } } (imgSfw sfwImage)
theorem witness_stewards_effect : effectCheck (renewed 1) = 0 ∧ effectCheck (renewed 20) = 10 := by decide +kernel

/-- A cell of four words that packets are held in. -/
def pk (len c : Nat) (ws : List Word) : Pkt := ⟨0, len, [c], ws⟩

/-- Region 0 with a running pattern, its bus port in a state, its queues 0 to 5 in use. -/
def port (st : Nat) : Dev :=
  let d := (List.finRange 64).foldl (fun (d : Dev) q => if q.val < 6 then ((d.flag QCfg0.USED (0, q)).put QCfg0.QUOTA (0, q) 40).put QCfg0.RESV (0, q) 4 else d) (blk3 3)
  ((d.put BpStat.STATE 0 st).put BpArd.CEN 0 10).put BankV.C_GOOD () 1

/-- The same with one packet, whose identifier the port may send, at the head of the transmit queue. -/
def headed (st : Nat) : Dev :=
  let d := ((port st).flag VnLo.EN (0, 16)).put VnHi.ID (0, 16) 2047
  (onQ d 0 tq fun x => { x with pkts := [pk 20 10 [5, 4864, 0x5A5A, 0, 0]] }).onR 0 fun r => { r with used := [(10, 3)] }

/-- The port sends what tx names. -/
def sending (d : Dev) (x : TxWhat) : Dev := d.onR 0 fun r => { r with port := { r.port with tx := some x, txFrame := some frame } }

theorem witness_portCommands : Alone (port 1) .pf0 (BpCtl.addr 0) (unitRgn 0) ∧ mRsv 0xFC00 (ownM 6 0x3FF03FF) = 0 ∧ mOnes (ownM 6 0x3FF03FF) % 128 ≠ 2 ^ 6 ∧
    (mOnes (ownM 0 0) % 128 = 2 ^ 0 ∧ mOnes (ownM 6 0) % 128 = 2 ^ 6) ∧ { port 1 with pat := none }.pat = none ∧
    ((port 1).pat ≠ none ∧ chipHeldOn (port 1) = false) ∧ portCmdOk (port 3) 0 0 = false ∧ portCmdOk (port 1) 0 0 = true ∧ portCmdOk (port 3) 0 1 = true ∧
    portCmdOk (port 5) 0 2 = true ∧ portCmdOk ((port 4).put BpStat.OPMODE 0 2) 0 3 = true ∧ portCmdOk ((port 3).put BpStat.OPMODE 0 2) 0 4 = true ∧ portCmdOk (port 3) 0 5 = true ∧
    portCmdOk ((port 2).flag BpStat.ARDRUN 0) 0 6 = true ∧ ((port 1).port 0).fromBoff = false ∧ ((sending (port 3) .head).port 0).tx.isSome = true ∧
    (((port 3).port 0).tx = none ∧ ((port 3).port 0).modePend = none ∧ (port 3).bit BpCtl.STOP 0 = false ∧ (port 3).bit BpCtl.GONORMAL 0 = false ∧
      (port 3).bit BpCtl.GOLISTEN 0 = false) ∧ (port 1).fld BpArd.CEN 0 ≠ 0 := by
  (repeat' refine And.intro ?_ ?_) <;> decide +kernel
theorem witness_portTimingAndFilters : Reaches (port 1) .pf0 (timingAddr 0 2) (unitRgn 0) ∧ (0x7FFFF#32) &&& ~~~ timingMask 2 = 0 ∧ (port 1).fld BpStat.STATE 0 ≤ 1 ∧
    2 ≤ (port 2).fld BpStat.STATE 0 ∧ Alone (port 1) .shp (feAddr 0 127 3) (unitRgn 0) ∧ Alone (port 3) .pf0 (TqCtl.addr 0) (unitRgn 0) ∧
    mRsv 0xFFC0 (ownM 0 0x3F003F) = 0 ∧ tqHead (port 3) 0 = none ∧ (tqHead (headed 3) 0).isSome = true ∧ ((sending (headed 3) .head).port 0).tx = some .head ∧
    ((headed 3).port 0).tx ≠ some .head ∧ (qGet (headed 3) 0 tq).pkts.length = 1 ∧ ((headed 3).r 0).badQ = [] ∧ ((headed 3).r 0).badFree = false := by
  (repeat' refine And.intro ?_ ?_) <;> decide +kernel

/-- A port on the bus whose default action stores in receive queue 0 or 1. -/
def recv (act : Nat) : Dev := (port 3).put Fdef.ACT 0 act
theorem witness_framesReceived : unitRgn 0 ∉ (port 3).undef ∧ (port 3).failDue = none ∧ takesPart (port 1) 0 = false ∧ fmtOn (port 3) 0 4 = false ∧
    (takesPart (port 3) 0 = true ∧ fmtOn (port 3) 0 frame.fmt.val = true ∧ ardGone (port 3) 0 0 = false) ∧ (port 3).bit Fdef.SREN 0 = false ∧
    (port 3).fld BpStat.REC 0 = 0 ∧ (0 < ((port 3).put BpStat.REC 0 127).fld BpStat.REC 0 ∧ ((port 3).put BpStat.REC 0 127).fld BpStat.REC 0 ≤ 127) ∧
    127 < ((port 3).put BpStat.REC 0 128).fld BpStat.REC 0 ∧ ((port 3).flag BpStat.ARDRUN 0).bit BpStat.ARDRUN 0 = true ∧ takesPart ((port 3).flag BpStat.ARDRUN 0) 0 = true ∧
    ((port 2).put BpArd.VALIDN 0 2).fld BpArd.VALIDN 0 = 2 ∧ (port 3).pat ≠ none := by
  (repeat' refine And.intro ?_ ?_) <;> decide +kernel
theorem witness_framesReceived_copy : let d := (((port 3).flag BpPair.PAIRED 0).put BpPair.DUPW 0 50 |>.put BpPair.PARTNER 0 1).onR 1 fun r => { r with port := { r.port with recent := [(0, frame)] } }
    d.bit BpPair.PAIRED 0 = true ∧ 0 < d.fld BpPair.DUPW 0 ∧ d.fld BpPair.PARTNER 0 = 1 ∧
    (d.port 1).recent.any (fun e => decide (d.clk ≤ e.1 + usClk d (d.fld BpPair.DUPW 0)) && sameFrame e.2 frame) = true := by
  (repeat' refine And.intro ?_ ?_) <;> decide +kernel
theorem witness_framesReceived_actions : (feAction (recv 0) 0 none).1 = 0 ∧ feFor (recv 0) 0 frame false = none ∧
    (feAction (((port 3).flag FeCtl.EN (0, 127)).put FeCtl.ACT (0, 127) 3) 0 (some 127)).1 = 3 ∧
    (feAction (recv 1) 0 none).1 = 1 ∧ (feAction (recv 2) 0 none).1 = 2 ∧ ((recv 1).r 0).badQ = [] ∧ (recv 1).bit RQstat.REBUILD 0 = false ∧ qLive (recv 1) 0 rq0 = true ∧
    canTake (recv 1) 0 rq0 (cellsFor 30) = true ∧ (qGet (recv 1) 0 rq0).stalls = [] ∧
    canTake (((recv 1).put QCfg0.QUOTA (0, rq0) 0).put QCfg0.RESV (0, rq0) 0) 0 rq0 (cellsFor 30) = false ∧ (pair 2).fld TwStat.ROLE () = 2 ∧ (recv 1).fld TwStat.ROLE () ≠ 2 := by
  (repeat' refine And.intro ?_ ?_) <;> decide +kernel

theorem witness_portBusEvents : unitRgn 0 ∉ (port 3).undef ∧ (port 3).failDue = none ∧ ((port 3).r 0).badQ = [] ∧ ((port 3).r 0).badFree = false ∧
    takesPart (port 1) 0 = false ∧ takesPart (port 4) 0 = true ∧ (port 3).fld BpStat.OPMODE 0 = 0 ∧ ((port 3).put BpStat.OPMODE 0 2).fld BpStat.OPMODE 0 ≠ 0 ∧
    (port 3).bit BpCtl.STOP 0 = false ∧ fmtOn (port 3) 0 4 = false ∧ fmtOn ((port 3).flag BpCfg.FDEN 0) 0 2 = true ∧ ((port 3).flag BpCfg.PXHEN 0).bit BpCfg.PXHEN 0 = true ∧
    (port 3).bit BpCfg.PXHEN 0 = false ∧ (port 2).fld BpStat.STATE 0 = 2 ∧
    (((port 6).port 0).modePend = none ∧ (port 6).bit BpCtl.GONORMAL 0 = false ∧ (port 6).bit BpCtl.GOLISTEN 0 = false) ∧ (port 6).fld BpStat.STATE 0 = 6 ∧
    ((port 6).put BpErr.RECOVN 0 126).fld BpErr.RECOVN 0 < 127 ∧ 127 ≤ ((port 6).put BpErr.RECOVN 0 127).fld BpErr.RECOVN 0 ∧ (port 3).bit BpStat.ARDRUN 0 = false ∧
    (let d := (port 2).flag BpStat.ARDRUN 0
     d.bit BpStat.ARDRUN 0 = true ∧ d.fld BpArd.VALIDN 0 = 0 ∧ d.fld BpArd.CEN 0 ≠ 0) := by
  (repeat' refine And.intro ?_ ?_) <;> decide +kernel
theorem witness_portBusEvents_tdc : (((sending (port 3) .head).onR 0 fun r => { r with port := { r.port with txFrame := some { frame with fmt := 3 } } }).port 0).txFrame.map (fun f => f.fmt.val) = some 3 ∧
    ((port 3).flag BpCfg.TDCEN 0).bit BpCfg.TDCEN 0 = true := by decide +kernel

/-- A window of port 0 on a valid domain. -/
def win (d : Dev) (w : Fin 32) : Dev := (d.put WCfg1.EVERY (0, w) 1).put WCfg1.DLEN (0, w) 4
theorem witness_transmit : unitRgn 0 ∉ (headed 3).undef ∧ (headed 3).failDue = none ∧
    (((headed 3).port 0).modePend = none ∧ (headed 3).bit BpCtl.STOP 0 = false ∧ (headed 3).bit BpCtl.GONORMAL 0 = false ∧ (headed 3).bit BpCtl.GOLISTEN 0 = false) ∧
    portCanSend (port 2) 0 = false ∧ (portCanSend (headed 3) 0 = true ∧ ((headed 3).port 0).waitIdle = false ∧ ((headed 3).port 0).tx = none) ∧
    ((headed 3).put WStat.DUE (0, 31) 1).bit WStat.DUE (0, 31) = true ∧ (∀ w, (headed 3).bit WStat.DUE (0, w) = false) ∧ tqHead (port 3) 0 = none ∧
    (tqHead (headed 3) 0).map (headOk (headed 3) 0) = some true ∧ (tqHead ((headed 3).clr VnLo.EN (0, 16)) 0).map (headOk ((headed 3).clr VnLo.EN (0, 16)) 0) = some false ∧
    (qGet (headed 3) 0 tq).pkts.length = 1 ∧ (headed 3).fld TwStat.ROLE () ≠ 2 := by
  (repeat' refine And.intro ?_ ?_) <;> decide +kernel
theorem witness_transmit_sent : let d := sending (headed 3) .head
    (d.port 0).txFrame = some frame ∧ d.bit Fdef.SREN 0 = false ∧ (d.port 0).tx = some .head ∧ (d.port 0).orphan = false ∧ (tqHead d 0).isSome = true ∧
    (tqHead d 0).map (fun h => fget 9 1 (pw h 2)) = some 1 ∧ (qGet d 0 txc).stalls = [] ∧ ((sending (headed 3) (.window 31)).port 0).tx = some (.window 31) ∧
    ((port 3).port 0).txFrame = none ∧ d.bit TqStat.ABORTPEND 0 = false ∧
    ¬ (d.bit TqCtl.ROTATE 0 = true ∧ max 1 (d.fld TqCtl.ROTN 0) ≤ d.fld TqStat.LOSTN 0 + 1) ∧
    (let e := ((d.flag TqCtl.ROTATE 0).put TqCtl.ROTN 0 3).put TqStat.LOSTN 0 2
     e.bit TqCtl.ROTATE 0 = true ∧ max 1 (e.fld TqCtl.ROTN 0) ≤ e.fld TqStat.LOSTN 0 + 1 ∧ ∀ k ∈ (qGet e 0 tq).pkts, headOk e 0 k = true) := by
  (repeat' refine And.intro ?_ ?_) <;> decide +kernel
theorem witness_windows : (port 3).fld WCfg1.EVERY (bufPort (port 3) 0, 31) = 0 ∧ (win (port 3) 31).fld WCfg1.EVERY (bufPort (port 3) 0, 31) ≠ 0 ∧
    domValid (win (port 3) 31) (winDom (win (port 3) 31) 0 31) = true ∧ (winOf (port 3) 0 31).isOpen = false ∧ (winOf (port 3) 0 31).closing = false ∧
    (port 3).bit BpPair.PAIRED 0 = false ∧ domValid ((win (port 3) 31).clr PdStat.VALID 0) 0 = false := by
  (repeat' refine And.intro ?_ ?_) <;> decide +kernel
theorem witness_windows_close : let d := (win (port 3) 31).onR 0 fun r => { r with win := vset r.win 31 ⟨true, true, true, false, false, false, false⟩ }
    (winOf d 0 31).isOpen = true ∧ ((sending d (.window 31)).port 0).tx = some (.window 31) ∧ (d.port 0).tx = none ∧ (winOf d 0 31).sent = false ∧
    (winOf d 0 31).away = false ∧ (winOf d 0 31).wasDue = true ∧ standbyOther d 0 = false ∧ d.fld TwStat.ROLE () ≠ 2 := by
  (repeat' refine And.intro ?_ ?_) <;> decide +kernel
theorem witness_popForTheConsumer : Reaches (port 3) .pf0 (QPop.addr (0, 5)) (unitRgn 0) ∧ (port 3).failDue = none ∧ (port 3).bit QCfg0.USED (0, 5) = true ∧
    ((port 3).put QCfg1.CONS (0, 5) 1).fld QCfg1.CONS (0, 5) ≠ 0 ∧ (port 3).fld QCfg1.CONS (0, 5) ≠ 1 := by
  (repeat' refine And.intro ?_ ?_) <;> decide +kernel

/-- A queue with fields changed. -/
def qd (q : Fin 64) (f : Queue → Queue) : Dev := onQ (port 3) 0 q f
/-- A packet of n words. -/
def pn (n : Nat) : Pkt := ⟨0, 0, (List.range ((n + 16) / 16)).map (· + 30), List.replicate n 7⟩
theorem witness_pushes : (port 3).failDue = none ∧ ((port 3).r 0).badQ = [] ∧ ((port 3).r 0).badFree = false ∧ Alone (port 3) .pf0 (QPdata.addr (0, 5)) (unitRgn 0) ∧
    notProd ((port 3).put QCfg1.PROD (0, 5) 1) 0 5 (whoOf .pf0) = true ∧ notProd (port 3) 0 5 (whoOf .pf0) = false ∧ ((port 3).flag RQstat.REBUILD 0).bit RQstat.REBUILD 0 = true ∧
    (port 3).bit RQstat.REBUILD 0 = false ∧ (qGet (qd 5 fun x => { x with dropping := true }) 0 5).dropping = true ∧ (qGet (port 3) 0 5).dropping = false ∧
    qLive (port 3) 0 6 = false ∧ qLive (port 3) 0 5 = true ∧ (qGet (port 3) 0 5).opn = none ∧ canTake (port 3) 0 5 1 = true ∧
    canTake (((port 3).put QCfg0.QUOTA (0, 5) 0).put QCfg0.RESV (0, 5) 0) 0 5 1 = false ∧
    ((pn 1022).words.length < 1023 ∧ ((pn 1022).words.length + 1) % 16 ≠ 0) ∧ ((pn 1007).words.length < 1023 ∧ ((pn 1007).words.length + 1) % 16 = 0) ∧
    1023 ≤ (pn 1023).words.length ∧ (qGet (qd 5 fun x => { x with opn := some (pn 15) }) 0 5).opn = some (pn 15) ∧
    Alone (port 3) .pf0 (QPend.addr (0, 5)) (unitRgn 0) ∧ 0x3F#32 &&& 0xFFFFFFC0 = 0 ∧ 5 ≠ tq ∧ (qGet (port 3) 0 5).stalls = [] := by
  (repeat' refine And.intro ?_ ?_) <;> decide +kernel
theorem witness_pops : Reaches (port 3) .pf0 (QPop.addr (0, 5)) (unitRgn 0) ∧ (port 3).fld QCfg1.CONS (0, 5) = whoOf .pf0 ∧ qLive (port 3) 0 6 = false ∧
    qLive (port 3) 0 5 = true ∧ ((port 3).flag QCfg0.MODE (0, 5)).bit QCfg0.MODE (0, 5) = true ∧
    16 ≤ (qGet (qd 5 fun x => { x with owned := List.replicate 16 (pn 1) }) 0 5).owned.length ∧ (qGet (port 3) 0 5).owned.length < 16 ∧ (qGet (port 3) 0 5).cur = none ∧
    (qGet (port 3) 0 5).pkts = [] ∧ (qGet (qd 5 fun x => { x with cur := some (pn 3, 0), pkts := [pn 3] }) 0 5).cur = some (pn 3, 0) ∧
    (qGet (qd 5 fun x => { x with pkts := [pn 3] }) 0 5).pkts ≠ [] ∧ (qGet (qd 5 fun x => { x with stalls := [(.st1, some 7)] }) 0 5).stalls = [(.st1, some 7)] := by
  (repeat' refine And.intro ?_ ?_) <;> decide +kernel
theorem witness_acks : Reaches (port 3) .pf1 (QAck.addr (0, 4)) (unitRgn 0) ∧ 0xFFFF#32 &&& 0xFFFF0000 = 0 ∧ fget 0 13 (30#32) = 30 ∧
    (let d := (qd 4 fun x => { x with owned := [pn 1] }).put QCfg1.OWNTMO (0, 4) 3
     pn 1 ∈ (qGet d 0 4).owned ∧ d.bit QStat.RST (0, 4) = false ∧ (pn 1).cells.head? = some 30 ∧ (∀ j ∈ (qGet d 0 4).owned, j.cells.head? = some 30 → j = pn 1) ∧
     tz (d.r 0).gen 30 % 8 = fget 13 3 (30#32) ∧ chanHolds d 0 4 30 = false ∧ d.fld QCfg1.OWNTMO (0, 4) ≠ 0 ∧ Rgn.wf (d.r 0) = true) ∧
    (∀ k ∈ (qGet (port 3) 0 4).owned, k.cells.head? ≠ some 30) ∧ (port 3).fld QCfg1.OWNTMO (0, 4) = 0 := by
  (repeat' refine And.intro ?_ ?_) <;> decide +kernel
theorem witness_queueUpkeep : unitRgn 0 ∉ (port 3).undef ∧ Reaches (port 3) .pf1 (QCtl.addr (0, 5)) (unitRgn 0) ∧ mRsv 0xFFFC (ownM 0 0) = 0 ∧ mOnes (ownM 0 0) % 4 = 1 ∧
    mRsv 0xFFFC (ownM 1 0) = 0 ∧ mOnes (ownM 1 0) % 4 = 2 ∧ (port 3).bit QCfg0.MODE (0, 5) = false ∧ ((port 3).flag QCfg0.MODE (0, 5)).bit QCfg0.MODE (0, 5) = true ∧
    Rgn.wf ((port 3).r 0) = true ∧ ((port 3).put QCfg1.QSTALE (0, 5) 3).fld QCfg1.QSTALE (0, 5) ≠ 0 ∧ (qGet (qd 5 fun x => { x with pkts := [pn 3] }) 0 5).pkts ≠ [] ∧
    (port 3).fld QCfg1.QSTALE (0, 5) = 0 ∧ (port 3).bit QStat.RST (0, 5) = false ∧ ((port 3).flag QStat.RST (0, 5)).bit QStat.RST (0, 5) = true := by
  (repeat' refine And.intro ?_ ?_) <;> decide +kernel
theorem witness_queueUpkeep_rebuild : let d := ((qd 5 fun x => { x with opn := some (pn 1) }).flag RQstat.REBUILD 0).onR 0 fun r => { r with heldPush := [(5, false, 0, 77)] }
    d.bit RQstat.REBUILD 0 = true ∧ (d.r 0).heldPush = [(5, false, 0, 77)] ∧ (d.port 0).held = [] ∧ notProd d 0 5 0 = false ∧ (qGet d 0 5).dropping = false ∧
    qLive d 0 5 = true ∧ (qGet d 0 5).opn = some (pn 1) ∧ (pn 1).words.length < 1023 ∧ ((pn 1).words.length + 1) % 16 ≠ 0 := by
  (repeat' refine And.intro ?_ ?_) <;> decide +kernel
theorem witness_narrowing : 0 < 8192 ∧ 2 * ((4096 : Int) - 1 * 8192).natAbs = 8192 ∧ satS 20 (rdiv 4096 8192) = 1 ∧ satS 20 (rdiv (-4096) 8192) = -1 := by decide

/-- A message of source 961 waits at the gatherer; the source is enabled for target T, its group 7. -/
def gath (T : Nat) (up : Bool) : Dev :=
  { (((alone.flag Src.EN (srcIx 961)).put Src.TGT (srcIx 961) T).put Src.GROUP (srcIx 961) 7) with evq := [⟨3, 961, up, 5, true⟩], clk := 5000 }
/-- One record of source 961 held in slot 3 of the target. -/
def held (d : Dev) (T : Fin 4) (cl : Bool) : Dev := onTarg d T fun x => { x with ring := [(3, ⟨961, true, false, false, false, cl, 0, 9, 5, 6⟩)], ord := [3] }
theorem witness_eventMessages : unitChip ∉ alone.undef ∧ alone.evq = [] ∧ (gath 1 true).evq = [⟨3, 961, true, 5, true⟩] ∧ 961 < 1024 ∧ Memory.wf (gath 1 true) = true ∧
    alone.bit Src.EN (srcIx 961) = false ∧ (gath 1 true).bit Src.EN (srcIx 961) = true ∧ (gath 1 true).bit Src.CLASS (srcIx 961) = false ∧
    (unclaimed (held (gath 1 true) 1 false) 1).find? (fun k => (recOfSlot (held (gath 1 true) 1 false) 1 k).src == 961) = some 3 ∧
    (∀ k ∈ unclaimed (gath 1 true) 1, (recOfSlot (gath 1 true) 1 k).src ≠ 961) ∧ (srcSt (gath 1 true) 961).sup = false ∧
    (srcSt (onSrc (gath 1 true) 961 fun x => { x with sup := true }) 961).sup = true ∧ (gath 1 true).bit Hog.RUN (srcGrp (gath 1 true) 961) = false ∧
    ((gath 1 true).flag Hog.RUN 7).bit Hog.RUN (srcGrp (gath 1 true) 961) = true ∧ (targOf (gath 1 true) 1).ord.length < 128 ∧
    128 ≤ (targOf (onTarg (gath 1 true) 1 fun x => { x with ord := List.range 128 }) 1).ord.length ∧
    ((gath 1 true).flag Src.CLASS (srcIx 961)).bit Src.CLASS (srcIx 961) = true := by
  (repeat' refine And.intro ?_ ?_) <;> decide +kernel
theorem witness_doorbell : Reaches alone .pf1 (Doorbell.addr ()) unitChip ∧ 0x83FF#32 &&& 0x7C00 = 0 ∧ (srcExists 1023 = true ∧ 960 ≤ 1023) ∧
    privileged alone .st0 = true ∧ privileged alone .pf1 = false ∧ srcExists 900 = false := by
  (repeat' refine And.intro ?_ ?_) <;> decide +kernel
theorem witness_holdoff : alone.bit Hog.RUN 7 = false ∧ (∀ s < 1024, sbit alone Spnd.V s = false) ∧
    (let d := sbitPut ((gath 1 true).flag Hog.RUN 7) Spnd.V 961 true
     d.bit Hog.RUN 7 = true ∧ sbit d Spnd.V 961 = true ∧ srcGrp d 961 = 7 ∧ (∀ v < 1024, v ≠ 961 → sbit d Spnd.V v = true → srcGrp d v ≠ 7) ∧
     (targOf d (srcTgt d 961)).ord.length < 128) := by
  (repeat' refine And.intro ?_ ?_) <;> decide +kernel
theorem witness_eventTargets : 2 ≤ (2 : Fin 4).val ∧ privileged alone .pf1 = false ∧ Reaches alone .pf1 (TFr.addr (2, 7)) unitChip ∧ Reaches alone .pf1 (TClaim.addr 3) unitChip ∧
    Reaches alone .pf1 (TComplete.addr 3) unitChip ∧ Memory.wf (held (gath 1 true) 1 false) = true ∧ 16 ≤ heldCount (onTarg alone 1 fun x => { x with
      ring := (List.range 16).map fun k => (k, ⟨961, true, false, false, false, true, 0, 9, 5, 6⟩), ord := List.range 16 }) 1 ∧ unclaimed alone 1 = [] ∧
    heldCount (held (gath 1 true) 1 false) 1 < 16 ∧ ¬ ((1 : Fin 4).val < 2 ∧ (gath 1 true).bit TCfg.LADLE 1 = true) ∧ unclaimed (held (gath 1 true) 1 false) 1 = [3] ∧
    0x10903#32 &&& 0xFFFE0080 = 0 := by
  (repeat' refine And.intro ?_ ?_) <;> decide +kernel
theorem witness_eventTargets_complete : let d := held (gath 1 true) 1 true
    3 ∈ (targOf d 1).ord ∧ (recOfSlot d 1 3).claimed = true ∧ (recOfSlot d 1 3).seq = fget 8 8 (0x10903#32) ∧ (∀ s < 1024, sbit d Spnd.V s = false) ∧
    ¬ (srcLevel d 961 = true ∧ sbit d Sact.V 961 = true) := by
  (repeat' refine And.intro ?_ ?_) <;> decide +kernel
theorem witness_eventTargets_again : let d := (sbitPut (held (gath 1 true) 1 true) Sact.V 961 true).flag Src.SWKIND (srcIx 961) |>.flag Hog.RUN 7
    srcLevel d 961 = true ∧ sbit d Sact.V 961 = true ∧ d.bit Src.EN (srcIx 961) = true ∧ d.bit Src.CLASS (srcIx 961) = false ∧ (srcSt d 961).sup = false ∧
    d.bit Hog.RUN (srcGrp d 961) = true ∧ (d.put EvgCtl.STUCKN () 1).fld EvgCtl.STUCKN () = (srcSt d 961).rep + 1 ∧ d.fld EvgCtl.STUCKN () ≠ (srcSt d 961).rep + 1 := by
  (repeat' refine And.intro ?_ ?_) <;> decide +kernel
theorem witness_eventTargets_wake : Reaches alone .pf0 (TStat.addr 1) unitChip ∧ Reaches alone .pf0 (TFsum.addr 1) unitChip ∧ Reaches alone .pf0 (TClaim.addr 1) unitChip ∧
    Reaches alone .pf0 (TFr.addr (1, 7)) unitChip ∧ 0 ≠ TStat.addr 1 ∧ Reaches alone .pf1 (TCfg.addr 1) unitChip ∧ 0x3FFFF#32 &&& 0xFFFC0000 = 0 ∧ wakeable alone 1 = false ∧
    (let d := held ((gath 1 true).flag Src.WAKE (srcIx 961)) 1 false
     wakeable d 1 = true ∧ (targOf d 1).woken = false) := by
  (repeat' refine And.intro ?_ ?_) <;> decide +kernel
theorem witness_eventRouting : Reaches alone .pf1 (Src.addr 1023) unitChip ∧ ReachesPriv alone .st0 (Src.addr 1023) unitChip ∧ 0xFFFF#32 &&& 0xFFFF0000 = 0 ∧
    Reaches alone .pf1 (Hog.addr 63) unitChip ∧ ReachesPriv alone .st0 (Hog.addr 63) unitChip ∧ 0x1FFFF#32 &&& 0xFFFE0000 = 0 := by
  (repeat' refine And.intro ?_ ?_) <;> decide +kernel

/-- A descriptor of eight words, its last two for the status. -/
def dsc (sk dk len sa da : Nat) : List Word := [sk + dk * 8 + 64, len, sa % 2 ^ 32, sa / 2 ^ 32, da % 2 ^ 32, da / 2 ^ 32].map fun x => BitVec.ofNat 32 x
/-- Channel 1 enabled in a state, with a descriptor in the host window at the head of its ring. -/
def chan (x : List Word) (st : Nat) : Dev :=
  let d := { port 3 with fn := alone.fn.map fun (f : PcieFn) => { f with busMaster := true } }
  let d := (((d.flag ChCfg.EN 1).put ChCfg.RSIZE 1 3).put ChTail.TAIL 1 1).put ChStat.STATE 1 st
  x.zipIdx.foldl (fun d f => hwPutWord d (4 * f.2) f.1) d
/-- The same while the descriptor is carried out. -/
def running (x : List Word) (st : Nat) : Dev := onChan (chan x st) 1 fun y => { y with desc := some x }
theorem witness_ladleStart : let d := chan (dsc 0 1 512 0 0) 4
    let x := (List.range 6).map fun i => hwWord d (headAddr d 1 + 4 * i)
    Reaches d .pf0 (ChCtl.addr 1) unitChip ∧ mRsv 0xFFFC (ownM 0 0x30003) = 0 ∧ mOnes (ownM 0 0x20002) % 4 = 3 ∧ mOnes (ownM 0 0) % 4 = 1 ∧ d.fld ChStat.STATE 1 = 4 ∧
    d.bit ChCfg.EN 1 = true ∧ ringValid d 1 = true ∧ d.fld ChHead.HEAD 1 % 16 ≠ d.fld ChTail.TAIL 1 % 16 ∧ descOk d 1 x = true ∧ shadowSkips d x = false ∧ dSk x < 2 ∧
    ((d.put ChTail.TAIL 1 0).fld ChHead.HEAD 1 % 16 = (d.put ChTail.TAIL 1 0).fld ChTail.TAIL 1 % 16) ∧ ringValid (d.put ChCfg.RSIZE 1 15) 1 = false := by
  (repeat' refine And.intro ?_ ?_) <;> decide +kernel
theorem witness_ladleStart_bad : let d := chan (dsc 7 0 4 0 0) 0
    d.fld ChHead.HEAD 1 % 16 ≠ d.fld ChTail.TAIL 1 % 16 ∧ descOk d 1 ((List.range 6).map fun i => hwWord d (headAddr d 1 + 4 * i)) = false := by
  (repeat' refine And.intro ?_ ?_) <;> decide +kernel
theorem witness_ladleControl : let d := chan (dsc 0 1 512 0 0) 1
    mRsv 0xFFFC (ownM 1 0) = 0 ∧ mOnes (ownM 1 0) % 4 = 2 ∧ d.fld ChStat.STATE 1 = 1 ∧ (d.put ChStat.STATE 1 2).fld ChStat.STATE 1 = 2 ∧
    Reaches d .pf1 (ChCfg.addr 1) unitChip ∧ privileged d .pf1 = false ∧ ReachesPriv d .st0 (ChCfg.addr 1) unitChip ∧ (0x7FFFFFF#32) &&& 0xF8000000 = 0 ∧
    (0x7FFFFFF#32).getLsbD 0 = true ∧ (0#32).getLsbD 0 = false ∧ Reaches d .pf0 (ChTail.addr 1) unitChip ∧ 0x7FF#32 &&& 0xFFFFF800 = 0 ∧
    (let old := (d.fld ChTail.TAIL 1 % 16 + 16 - d.fld ChHead.HEAD 1 % 16) % 16
     old = 1 ∧ (0 < old ∨ 8 < 0) ∧ old ≤ 8 ∧ 8 ≤ 16 / 2 ∧ 16 / 2 < 9) ∧ (chanOf (onChan (d.put ChStat.STATE 1 0) 1 fun y => { y with drained := true }) 1).drained = true ∧
    Reaches d .pf0 (TrcCtl.addr ()) unitChip ∧ mRsv 0xFFFE (ownM 0 0) = 0 := by
  (repeat' refine And.intro ?_ ?_) <;> decide +kernel
theorem witness_ladleUnits : (chanOf alone 1).desc = none ∧ alone.fld ChStat.STATE 1 ≠ 2 ∧
    (let x := dsc 0 1 512 0 0
     let d := running x 1
     (chanOf d 1).desc = some x ∧ Memory.wf d = true ∧ usesHost x = true ∧ usesHost (dsc 2 1 512 0 0) = false ∧ fnUsable d (chanFn d 1) = true ∧ d.fld ChStat.STATE 1 = 1 ∧
     fnUsable { d with fn := alone.fn } (chanFn d 1) = false ∧ dSk x = 0 ∧ dDk x = 1 ∧ (dLen x - (chanOf d 1).moved) % 4 = 0 ∧ 4 ≤ 64 ∧ min 256 (64 / 4 * 4) < dLen x) ∧
    (let d := onChan (running (dsc 3 0 64 0 0) 2) 1 fun y => { y with nrec := 1 }
     d.fld ChStat.STATE 1 = 2 ∧ (chanOf d 1).nrec ≠ 0 ∧ d.fld ChTail.TAIL 1 % 16 = (d.fld ChHead.HEAD 1 + 1) % 16 ∧ d.fld ChCfg.RSIZE 1 ≤ 10 ∧ dSk (dsc 3 0 64 0 0) = 3 ∧ 16 ≤ 64) := by
  (repeat' refine And.intro ?_ ?_) <;> decide +kernel
theorem witness_ladleUnits_sources : dSk (dsc 4 0 64 0 0) = 4 ∧ dDk (dsc 4 0 64 0 0) = 0 ∧ dSk (dsc 1 0 64 0 0) = 1 ∧ dSk (dsc 2 0 64 5 0) = 2 ∧
    (let d := onQ (running (dsc 2 0 64 5 0) 2) 0 5 fun x => { x with pkts := [pn 3] }
     queueNext d (dsc 2 0 64 5 0) = some (pn 3) ∧ 4 * (1 + (pn 3).words.length) ≤ 64 ∧ d.bit QCfg0.MODE (dRgn (dSaddr (dsc 2 0 64 5 0)), dQueue (dSaddr (dsc 2 0 64 5 0))) = false ∧ (chanOf d 1).kept = []) ∧
    (let d := onTarg (running (dsc 3 0 64 0 0) 1) 0 fun x => { x with ring := [(3, ⟨9, true, false, false, false, false, 0, 3, 5, 6⟩)], ord := [3] }
     (targOf d 0).ord = [3] ∧ 3 ∉ ([] : List Nat) ∧ ∀ s < 1024, sbit d Spnd.V s = false) ∧
    { running (dsc 4 0 64 0 0) 3 with trace := [(1, 2, 3, 4)] }.trace = [(1, 2, 3, 4)] ∧
    (let d := onChan (running (dsc 2 0 64 5 0) 1) 1 fun y => { y with item := some ⟨5, [1, 2], none⟩ }
     (chanOf d 1).item = some ⟨5, [1, 2], none⟩ ∧ (chanOf d 1).sent < 2) := by
  (repeat' refine And.intro ?_ ?_) <;> decide +kernel

/-- A running unit with a good pattern in effect and an operation on a pattern in progress. -/
def oper (img : Option PatImage) (b : Option (Fin 16)) (start : Bool) : Dev :=
  { alone.put BkStat.STATE 3 1 with pat := some goodPat, patOp := some ⟨img, b, start, 0, false⟩ }
theorem witness_patternCommands : ReachesPriv alone .st0 (PatCtl.addr ()) unitChip ∧ mRsv 0xFF00 (ownM 1 0xFF00FF) = 0 ∧ mOnes (ownM 1 0x10001) % 4 = 3 ∧
    mOnes (ownM 0 0) % 4 = 0 + 1 ∧ mOnes (ownM 1 0) % 4 = 1 + 1 ∧ 2 ≤ (blk3 2).fld BkStat.STATE 3 ∧ (∀ j : Fin 16, j < 3 → (blk3 2).fld BkStat.STATE j < 2) ∧
    ¬ (∃ k, 2 ≤ alone.fld BkStat.STATE k) ∧ (oper none none false).patOp ≠ none ∧ alone.patOp = none ∧ { alone with stwRun := false }.stwRun = false ∧ alone.stwRun = true ∧
    ({ pair 1 with pat := some goodPat }.twin.paired = true ∧ { pair 1 with pat := some goodPat }.pat ≠ none ∧ (pair 1).bit BootCause.HELD () = false) ∧
    (pair 2).fld TwStat.ROLE () = 2 ∧ (alone.put PatCtl.SRC () 3).fld PatCtl.SRC () = 3 ∧ (alone.put PatCtl.SRC () 2).fld PatCtl.SRC () = 2 ∧ alone.sess.st = 0 ∧
    { alone with sess := { alone.sess with st := 1 } }.sess.st ≠ 0 ∧ alone.pat = none ∧ (blk3 1).pat ≠ none := by
  (repeat' refine And.intro ?_ ?_) <;> decide +kernel
theorem witness_patternLoad : unitChip ∉ alone.undef ∧ (oper none none true).patOp = some ⟨none, none, true, 0, false⟩ ∧ (oper none none true).act = none ∧
    (oper (some goodPat) none false).patOp = some ⟨some goodPat, none, false, 0, false⟩ ∧ patCheck (oper (some goodPat) none false) goodPat = none ∧
    (patCheck (oper (some (pat [])) none false) (pat [])).isSome = true ∧ hdrCheck alone 2 { hdr 2 with magic := 0 } none true false ≠ 0 := by
  (repeat' refine And.intro ?_ ?_) <;> decide +kernel
theorem witness_repour : (oper (some goodPat) (some 3) false).patOp = some ⟨some goodPat, some 3, false, 0, false⟩ ∧ (oper (some goodPat) (some 3) false).pat = some goodPat ∧
    sharedSame goodPat goodPat 3 = true ∧ sharedSame goodPat { goodPat with dir := goodPat.dir.map fun e => if e.typ = 1 then { e with crc := 77 } else e } 3 = false ∧
    (patEntry goodPat 3 3).isSome = true ∧ (PatImage.sec goodPat 3).isSome = true := by
  (repeat' refine And.intro ?_ ?_) <;> decide +kernel

/-- A unit of a pair whose link is up, in a role, with its block 3 and its port 0 running. -/
def twin (role : Nat) (f : Twin → Twin) : Dev :=
  ((((port 3).put TwStat.ROLE () role).putB TwStat.OWNO () (role < 2)).flag TwStat.LINKUP () |>.put TwStat.LANES () 2).onTw fun t => f { t with paired := true }
/-- What a partner with the same identity says. -/
def hello (al : Bool) : Hello := { drag := true, sfwDigest := 0, patDigest := 0, heat := false, ssf := 0, session := false, alone := al, clk := 77, lat := 70000, lanes := 4 }
/-- A heartbeat with port 0 error-passive and blocks 3 and 4 latched. -/
def beat : Hb := ⟨2, true, List.replicate 8 (12345, 9), [(5, 300, 20)], 0x18, true⟩

theorem witness_mirroredWrites : Reaches (twin 1 id) .pf0 (HspCtl.addr 3) (unitBlk 3) ∧ Reaches (twin 3 id) .st0 (Seg.addr (3, 63, 7)) (unitBlk 3) ∧
    Reaches (twin 2 id) .shp (feAddr 0 127 3) (unitRgn 0) ∧ mRsv 0xFFFE 0x10001 = 0 ∧ 0x3F#32 &&& 0xFFFFFFC0 = 0 ∧ (twin 1 id).fld EcCfg.MODE 3 ≠ 2 ∧
    switchRefused { dom2 3 5 with twin := alone.twin } 2 = false ∧ (twin 1 id).bit FeCtl.EN (0, 5) = false ∧ mRsv 0xFFC0 (ownM 0 0x3F003F) = 0 ∧
    mRsv 0xFFFC (ownM 1 0x20002) = 0 ∧ mOnes (ownM 1 0x20002) % 4 = 2 ∧ (twin 1 id).fld TwStat.ROLE () = 1 ∧ 2 ≤ (twin 2 id).fld TwStat.ROLE () := by
  (repeat' refine And.intro ?_ ?_) <;> decide +kernel
theorem witness_mirroredWrites_queue : Reaches (twin 1 id) .pf1 (QPdata.addr (0, tq)) (unitRgn 0) ∧ Reaches (twin 2 id) .pf1 (QPend.addr (0, tq)) (unitRgn 0) ∧ (twin 1 id).failDue = none ∧
    notProd (twin 1 id) 0 tq (whoOf .pf0) = false ∧ (twin 3 id).fld TwStat.ROLE () = 3 := by
  (repeat' refine And.intro ?_ ?_) <;> decide +kernel
theorem witness_mirroredWrites_block : Reaches (twin 1 id) .pf0 (BkCtl.addr 3) (unitBlk 3) ∧ Reaches (twin 1 id) .pf0 (BkCtl.addr 3) unitNone ∧ mRsv 0xFFE0 (ownM 4 0x10001F) = 0 ∧
    mOnes (ownM 4 0) % 32 = 2 ^ 4 ∧ judgeCmds (twin 1 id) 3 (mirBits (twin 1 id) (BkCtl.addr 3)) (2 ^ 2) = some 0 ∧
    judgeCmds ((twin 1 id).put BkStat.STATE 3 1) 3 0 (2 ^ 0) = some 0 := by
  (repeat' refine And.intro ?_ ?_) <;> decide +kernel

theorem witness_twinLink : unitChip ∉ up.undef ∧ linkOpen State.reset.dev = false ∧ linkOpen up = true ∧ up.fld Start.STAGE () = 5 ∧ (hello true).lanes ≠ 0 ∧ up.bit TwStat.LINKUP () = false ∧
    up.bit BootCause.HELD () = false ∧ pairRefusal up { hello true with drag := identDrag up } ≠ 0 ∧ alone.bit TwStat.OWNO () = true ∧ up.bit TwStat.OWNO () = false ∧
    (up.put Start.STAGE () 3).fld Start.STAGE () = 3 ∧ (pair 1).fld TwStat.LANES () = 2 ∧ (pair 1).bit TwStat.LINKUP () = true := by
  (repeat' refine And.intro ?_ ?_) <;> decide +kernel
/-- A partner that passes every pairing check of a unit with no pattern. -/
theorem witness_twinLink_pairs : pairRefusal { up with sfw := some ⟨hdr 1⟩ } { hello true with drag := !identDrag up, sfwDigest := (hdr 1).digest } = 0 := by decide +kernel
theorem witness_twinLink_lost : let t := twin 2 id
    t.fld TwStat.ROLE () = 2 ∧ t.twin.takeover = false ∧ t.bit TwStat.OWNO () = false ∧ t.twin.ownI = false ∧ t.bit TwStat.SUSPECT () = false ∧ t.twin.repair = false ∧
    t.bit TwCtl.REPAIR () = false ∧ (t.flag TwStat.SUSPECT ()).bit TwStat.SUSPECT () = true ∧ (twin 2 fun t => { t with ownI := true, faultWait := true }).twin.ownI = true ∧
    (twin 2 fun t => { t with ownI := true, faultWait := true }).twin.faultWait = true := by
  (repeat' refine And.intro ?_ ?_) <;> decide +kernel
theorem witness_twinShadowing : let t := twin 2 id
    unitChip ∉ t.undef ∧ t.clkLost = false ∧ t.twin.paired = true ∧ t.twin.coord = .none ∧ (∀ k alt, srcKind t k alt ≠ 6) ∧ beat.ports[(0 : Fin 4).val]? = some (5, 300, 20) ∧
    beat.latch.getLsbD 3 = true ∧ t.bit Qstat.LATCH 3 = false ∧ beat.latch.getLsbD 5 = false ∧ (t.flag Qstat.LATCH 5).bit Qstat.LATCH 5 = true ∧
    ((t.put Qcause.CAUSE 5 8).fld Qcause.CAUSE 5 &&& 0x8008 = (t.put Qcause.CAUSE 5 8).fld Qcause.CAUSE 5) ∧ actMask t 5 &&& 0xFFF7 = 0 ∧
    ((t.put Qcause.CAUSE 5 1).fld Qcause.CAUSE 5 &&& 0x8008 ≠ (t.put Qcause.CAUSE 5 1).fld Qcause.CAUSE 5) ∧ noCompare t 3 = false ∧ (t.flag TwBk.NOCMP 3).bit TwBk.NOCMP 3 = true := by
  (repeat' refine And.intro ?_ ?_) <;> decide +kernel
theorem witness_twinShadowing_digests : noCompare (twin 2 id) 3 = false ∧ noCompare ((twin 2 id).flag TwBk.NOCMP 3) 3 = true ∧ (∀ e ∈ (twin 2 id).twin.digs, e.1 ≠ 3) ∧
    (twin 2 fun t => { t with digs := [(3, 7, 99)] }).twin.digs = [(3, 7, 99)] ∧ (∀ e ∈ (twin 2 id).twin.digO, e.1 ≠ 3) ∧ ((twin 2 id).put TwBk.MISRUN 3 2).fld TwBk.MISRUN 3 = 2 ∧
    (twin 2 fun t => { t with mirror := [⟨Qctl.addr 3, 0x00010001, some 3, 0⟩] }).twin.mirror = [⟨Qctl.addr 3, 0x00010001, some 3, 0⟩] ∧ (twin 2 id).failDue = none ∧
    (pair 3).fld TwStat.ROLE () = 3 ∧ (twin 1 fun t => { t with coord := .waits }).twin.coord = .waits ∧ (twin 2 fun t => { t with coord := .verifying }).twin.coord = .verifying := by
  (repeat' refine And.intro ?_ ?_) <;> decide +kernel
theorem witness_twinShadowing_ssi : let t := ((twin 2 id).put EcCfg.MODE 3 2).flag EcStat.PVALID 3
    unitBlk 3 ∉ t.undef ∧ t.fld EcCfg.MODE 3 = 2 ∧ t.fld TwStat.ROLE () = 2 ∧ t.bit EcStat.PVALID 3 = true ∧ t.fld EcJmax.V 3 = 0 ∧ t.bit EcCfg.GRAY 3 = false ∧
    (alone.fld EcCfg.MODE 3 ≠ 2) := by
  (repeat' refine And.intro ?_ ?_) <;> decide +kernel

/-- A shadow's port 0 with a provisional frame. -/
def provis : Dev := (twin 2 id).onR 0 fun r => { r with port := { r.port with prov := [(frame, false, 1000, 50)] } }
theorem witness_shadowReception : provis.failDue = none ∧ (provis.r 0).badQ = [] ∧ (provis.r 0).badFree = false ∧ unitChip ∉ provis.undef ∧ unitRgn 0 ∉ provis.undef ∧
    (provis.port 0).prov = [(frame, false, 1000, 50)] ∧ 1000 ≤ 1040 + 40 ∧ 1040 ≤ 1000 + 40 ∧ 1000 + 40 < 1041 ∧ qLive provis 0 rq0 = true ∧
    provis.bit RQstat.REBUILD 0 = false ∧ canTake provis 0 rq0 (cellsFor (28 + frame.data.length)) = true ∧ (qGet provis 0 rq0).stalls = [] ∧ (twin 2 id).port 0 = (twin 2 id).port 0 ∧
    ((twin 2 id).port 0).prov = [] := by
  (repeat' refine And.intro ?_ ?_) <;> decide +kernel
theorem witness_shadowReception_head : let t := onQ (twin 2 id) 0 tq fun x => { x with pkts := [pk 20 10 [5, 4864, 0x205A5A, 0, 0]] }
    tqHead t 0 = some (pk 20 10 [5, 4864, 0x205A5A, 0, 0]) ∧ (qGet t 0 tq).pkts = [pk 20 10 [5, 4864, 0x205A5A, 0, 0]] ∧ tqHead (twin 2 id) 0 = none ∧
    (fget 9 1 (pw (pk 20 10 [5, 0, 0x0, 0, 0]) 2) = 0 ∧ fget 9 1 (pw (pk 20 10 [5, 0x200, 0, 0, 0]) 2) = 1) ∧ (qGet t 0 txc).stalls = [] := by
  (repeat' refine And.intro ?_ ?_) <;> decide +kernel

theorem witness_resynchronisation : let t := twin 2 id
    unitChip ∉ t.undef ∧ Memory.wf t = true ∧ Memory.wf alone = true ∧ t.bit TwBk.RESYNC 3 = false ∧ (t.flag TwBk.RESYNC 3).bit TwBk.RESYNC 3 = true ∧
    (blk3 3).bit Qstat.LATCH 3 = false ∧ (blk3 3).fld BkStat.STATE 3 = 3 ∧ (alone.flag Qstat.LATCH 3).bit Qstat.LATCH 3 = true ∧ inBlock 3 (BkCtl.addr 3) = true ∧
    BkCtl.addr 3 ≠ BkStat.addr 3 ∧ (regAt (BkCtl.addr 3)).isSome = true ∧ inBlock 3 (BkCtl.addr 4) = false := by
  (repeat' refine And.intro ?_ ?_) <;> decide +kernel
theorem witness_resynchronisation_queue : let t := twin 2 id
    t.failDue = none ∧ (t.r 0).badQ = [] ∧ (t.r 0).badFree = false ∧ (qGet t 0 tq).stalls = [] ∧ (qGet t 0 tq).pkts = [] ∧ (qGet t 0 tq).opn = none ∧ qLive t 0 tq = true ∧
    t.bit RQstat.REBUILD 0 = false ∧ canTake t 0 tq (cellsFor (pk 20 10 [5, 4864, 0x205A5A, 0, 0]).len) = true ∧ (pair 3).fld TwStat.ROLE () ≠ 2 := by
  (repeat' refine And.intro ?_ ?_) <;> decide +kernel
theorem witness_resynchronisation_requests : let t := (twin 1 id).onR 0 fun r => { r with port := { r.port with sentRx := [(frame, false, 5, 6, .discard)] } }
    t.fld TwStat.ROLE () = 1 ∧ t.bit TwStat.LINKUP () = true ∧ t.twin.coord = .none ∧ (t.port 0).sentRx = [] ++ [(frame, false, 5, 6, .discard)] ∧ (∀ e ∈ (t.port 0).sentRx, e.2.2.1 ≠ 7) ∧
    (t.put TwBk.MISRUN 3 2).fld TwBk.MISRUN 3 = 2 := by
  (repeat' refine And.intro ?_ ?_) <;> decide +kernel
theorem witness_resynchronisation_full : let j := (twin 3 fun t => { t with joining := true }).clr TwStat.OWNO ()
    j.fld Start.STAGE () = 5 ∧ j.twin.joining = true ∧ j.bit TwStat.OWNO () = false ∧ j.failDue = none ∧ (∀ n, (j.r n).badQ = [] ∧ (j.r n).badFree = false) ∧ (0 ≤ j.clk) ∧
    (twin 0 id).bit TwStat.OWNO () = true ∧ (twin 1 fun t => { t with coord := .last }).twin.coord = .last ∧ ((twin 3 id).clr TwStat.OWNO ()).twin.joining = false ∧
    (twin 3 fun t => { t with joining := true, coord := .departedLast }).twin.coord = .departedLast := by
  (repeat' refine And.intro ?_ ?_) <;> decide +kernel

theorem witness_ownership : let t := twin 2 fun t => { t with takeover := true, guard := .takeover }
    unitChip ∉ t.undef ∧ t.twin.ownI = false ∧ t.clkLost = false ∧ t.twin.guard = .takeover ∧ t.failDue = none ∧ (∀ n, (t.r n).badQ = [] ∧ (t.r n).badFree = false) ∧
    (up.onTw fun t => { t with guard := .start }).twin.guard = .start ∧ up.bit BootCause.HELD () = false ∧ (up.onTw fun t => { t with guard := .force }).twin.guard = .force ∧
    hasSec t 3 = true ∧ t.bit TwStat.LINKUP () = true := by
  (repeat' refine And.intro ?_ ?_) <;> decide +kernel
theorem witness_ownership_race : let t := (alone.onTw fun t => { t with ownT := some alone.clk }).put Strap.CD_SEL () (if identDrag alone then 0 else 1)
    (identDrag t = true ∧ t.bit TwStat.OWNO () = true ∧ t.twin.handing = false ∧ t.twin.ownT = some t.clk ∧ t.clk ≤ t.clk + nsClk t 1000) ∨ identDrag t = false := by decide +kernel
theorem witness_ownership_lines : let t := twin 2 id
    t.fld TwStat.ROLE () = 2 ∧ t.bit TwStat.LINKUP () = true ∧ t.twin.handing = false ∧ t.twin.takeover = false ∧ t.twin.faultWait = false ∧ t.bit TwStat.SUSPECT () = false ∧
    t.twin.repair = false ∧ t.bit TwCtl.REPAIR () = false ∧ (t.flag TwStat.SUSPECT ()).bit TwStat.SUSPECT () = true ∧
    (let x := (twin 2 fun t => { t with handing := true }).flag TwStat.OWNO ()
     x.twin.handing = true ∧ x.fld TwStat.ROLE () = 2 ∧ x.bit TwStat.OWNO () = true) ∧
    (let x := (twin 1 fun t => { t with handing := true }).flag TwCtl.HANDOVER ()
     x.twin.handing = true ∧ x.fld TwStat.ROLE () ≤ 1 ∧ x.bit TwCtl.HANDOVER () = true ∧ (x.clr TwStat.LINKUP ()).bit TwStat.LINKUP () = false) := by
  (repeat' refine And.intro ?_ ?_) <;> decide +kernel
theorem witness_ownership_commands : let t := (twin 1 fun t => { t with hb := some (beat, 5) }).flag TwStat.SYNCED ()
    ReachesPriv t .st0 (TwCtl.addr ()) unitChip ∧ mRsv 0xFFF8 (ownM 2 0x70007) = 0 ∧ mOnes (ownM 2 0x70007) % 8 ≠ 2 ^ 2 ∧ mOnes (ownM 2 0) % 8 = 2 ^ 2 ∧
    (t.flag TwCtl.FORCE ()).bit TwCtl.FORCE () = true ∧ (t.bit TwStat.LINKUP () = true ∧ t.twin.paired = true ∧ t.bit TwStat.SYNCED () = true ∧ t.bit TwStat.SUSPECT () = false ∧
      beat.role = 2 ∧ ∀ nn, t.bit TwBk.RESYNC nn = false) ∧
    (let x := up.put TwStat.ROLE () 3
     x.fld TwStat.ROLE () = 3 ∧ x.bit TwStat.LINKUP () = false ∧ x.twin.ownI = false ∧ x.bit BootCause.HELD () = false ∧ x.clkLost = false) := by
  (repeat' refine And.intro ?_ ?_) <;> decide +kernel

/-- A manifest entry for an image of a type at another version. -/
def ent (t : Nat) : ManEntry := ⟨t, 0, { hdr t with version := 5 }⟩
/-- A session in a state over the billets 0 to 2. -/
def sess (st : Nat) (es : List ManEntry) : Sess := ⟨st, 7, 3, 0, es, if st = 1 then [0] else [0, 1, 2], st ≥ 3, 1, 500, []⟩
/-- The billet i of that session. -/
def bil (i : Nat) : Billet := ⟨7, i, 3, if i = 2 then 10 else 992, 0, true, true, [3, 4], if i = 0 then some [ent 2] else none, true⟩
/-- A unit that owns, firmware in both banks, a session in a state. -/
def upd (role st : Nat) (es : List ManEntry) : Dev :=
  { (alone.put TwStat.ROLE () role).put PdCfg.SRC 1 1 with
    pat := some (pat [])
    sfw := some ⟨hdr 1⟩
    bank0 := { flashed.bank0 with rcd := recCopyOf ⟨false, false, 0, false, 1, true⟩ }
    bank1 := { flashed.bank0 with rcd := recCopyOf ⟨false, false, 0, false, 0, true⟩ }
    sess := if st = 0 then Sess.empty else sess st es }
theorem witness_updateSession : billetForm (bil 1) = true ∧ billetForm { bil 1 with crcOk := false } = false ∧ (upd 0 0 []).sess.st = 0 ∧ (bil 0).index = 0 ∧
    (manifestCode (upd 0 0 []) { bil 0 with manOk := false }).1 ≠ 0 ∧ (bil 0).sid = (upd 0 1 [ent 2]).sess.sid ∧ (bil 1).index < 3 ∧ (bil 1).index ∉ (upd 0 1 [ent 2]).sess.got ∧
    (upd 0 1 [ent 2]).sess.got = [0] ∧ ReachesPriv (upd 0 0 []) .st0 (UpdSubmit.addr ()) unitChip ∧ wRsv 0x7FFC0000 (ownBit 31 4096) = 0 ∧
    (∃ i, vget (upd 0 0 []).stage i = none) ∧ ¬ (∀ i, vget (upd 0 0 []).stage i ≠ none) ∧ { upd 0 0 [] with submit := some 4 }.submit ≠ none ∧
    vget { upd 0 1 [ent 2] with stage := vset alone.stage 3 (some (bil 1)) }.stage 3 = some (bil 1) ∧ (upd 0 1 [ent 2]).stwRun = true := by
  (repeat' refine And.intro ?_ ?_) <;> decide +kernel
theorem witness_updateSession_full : ∀ i, vget { upd 0 1 [] with stage := Vector.replicate 16 (some (bil 1)) }.stage i ≠ none := by decide +kernel
theorem witness_updateSession_image : manifestCode (upd 0 0 []) { bil 0 with manifest := some [{ ent 2 with hdr := { hdr 2 with magic := 0 } }] } = (1, 2) := by decide +kernel
/-- The firmware of the manifest passes the checks on its header alone. -/
theorem witness_updateSession_manifest : hdrCheck (upd 0 0 []) 3 (ent 3).hdr (some (hdr 1)) false false = 0 := by
  have h : (ent 3).hdr.hwRevs.getLsbD Config.hwRev.toNat = true := hwRev_ok
  rw [hdrCheck, h]
  decide +kernel
/-- A session whose one image is written whole by its difference stream, and one whose stream has no END. -/
def built (stop : List Byte) : Dev :=
  let data := calImage.bytes
  { upd 0 2 [ent 3] with sess := { sess 2 [ent 3] with staging := [(0, 2 :: (leBytes 4 data.length).map (BitVec.ofNat 8)), (992, data ++ stop)] } }
theorem witness_updateSession_build : (built [3]).sess.st = 2 ∧ (built [3]).sess.entries = [ent 3] ∧ calImage.bytes.length < 2 ^ 32 ∧
    (built [3]).sess.staging.flatMap (·.2) = 2 :: (leBytes 4 calImage.bytes.length).map (BitVec.ofNat 8) ++ calImage.bytes ++ [3] ∧
    (∃ x ∈ buildAll (built []) [ent 3], x.2.2 = false) ∧ (buildCode (buildBank (built []) [ent 3]) [ent 3] (buildAll (built []) [ent 3])).1 ≠ 0 ∧ (([ent 3].map (·.typ)).Nodup) ∧
    (let d := ((port 3).flag BpCfg.XLEN 0).flag UpdBusid.EN 0 |>.put UpdBusid.ID 0 5
     takesPart d 0 = true ∧ ardGone d 0 0 = false ∧ d.bit BpStat.ARDRUN 0 = false ∧ d.bit BpCfg.XLEN 0 = true ∧ d.bit UpdBusid.EN 0 = true ∧ ({ frame with fmt := 4 }.id.toNat % 2048 = d.fld UpdBusid.ID 0) ∧
     takesPart (port 0) 0 = false) := by
  (repeat' refine And.intro ?_ ?_) <;> decide +kernel
theorem witness_updateCommands : ReachesPriv (upd 0 3 [ent 3]) .st0 (UpdCtl.addr ()) unitChip ∧ mRsv 0xFFE0 (ownM 4 0x1F001F) = 0 ∧ mOnes (ownM 4 0x1F001F) % 32 ≠ 2 ^ 4 ∧
    mOnes (ownM 4 0) % 32 = 2 ^ 4 ∧ (upd 0 3 [ent 3]).sess.st = 3 ∧ (upd 0 3 [ent 3]).act = none ∧ (upd 0 3 [ent 3]).fld PdCfg.SRC 1 ≠ 0 ∧ epochDue (upd 0 3 [ent 3]) 1 500 = false ∧
    epochDue (upd 0 3 [ent 3]) 0 0 = true ∧ (recOf (upd 0 3 [ent 3])).confirmed = false ∧ (∀ nn, (upd 0 3 [ent 3]).fld BkStat.STATE nn ≤ 1) ∧ sessSet (upd 0 3 [ent 1]).sess % 2 = 1 ∧
    (sessSet (upd 0 3 [ent 2]).sess % 2 = 0 ∧ sessSet (upd 0 3 [ent 2]).sess / 2 % 2 = 1) ∧ (recOf (upd 0 3 [ent 2])).seq + 1 < 2 ^ 32 ∧ calIn (upd 0 3 [ent 2]) (!activeBank (upd 0 3 [ent 2])) = none ∧
    (upd 0 3 [ent 3]).twin.paired = false ∧ bankDiff (upd 0 3 []) = 0 := by
  (repeat' refine And.intro ?_ ?_) <;> decide +kernel
theorem witness_updateCommands_pair : let d := { (upd 1 3 [ent 3]).flag TwStat.SYNCED () |>.flag TwStat.LINKUP () with twin := { alone.twin with paired := true } }
    d.twin.paired = true ∧ d.bit TwStat.SYNCED () = true ∧ d.bit TwStat.SUSPECT () = false ∧ d.sess.swappable = true ∧ changedIdle d d.sess.entries = true ∧ d.fld TwStat.ROLE () ≠ 2 ∧
    (d.put TwStat.ROLE () 2).fld TwStat.ROLE () = 2 ∧ ¬ ((d.clr TwStat.SYNCED ()).bit TwStat.SYNCED () = true) := by
  (repeat' refine And.intro ?_ ?_) <;> decide +kernel
theorem witness_updateCommands_due : let d := { (upd 0 4 [ent 3]).flag PdStat.VALID 1 with sess := { sess 4 [ent 3] with epoch := 0 } }
    d.stwRun = true ∧ d.sess.st = 4 ∧ d.clkLost = false ∧ domValid d d.sess.dom = true ∧ epochDue d d.sess.dom d.sess.epoch = true := by
  (repeat' refine And.intro ?_ ?_) <;> decide +kernel
theorem witness_rowReaches : Memory.wf (blk3 3) = true ∧ unitChip ∉ (blk3 3).undef := by (repeat' refine And.intro ?_ ?_) <;> decide +kernel
/-- Every supply good. -/
def full (d : Dev) : Dev := { d with supply := [.vdd, .vddaPll, .vddl, .g 0, .g 1, .g 2, .g 3, .s 0, .s 1, .s 2, .s 3, .c, .h] }
theorem witness_outputBalls : bankUp State.reset.dev (ballBank (.mclk 0 0)) = false ∧
    (let d := full (sending (port 3) .head)
     (∀ n, bankUp d (ballBank (.mclk n 0)) = true ∧ bankUp d (ballBank (.btx n)) = true) ∧ bankUp d (ballBank (.gh 3 1)) = true ∧ bankUp d (ballBank .qoutN) = true ∧
     bankUp d (ballBank .pcieTx) = true ∧ bankUp d (ballBank .flash) = true ∧ d.fld BpStat.STATE 0 = 3 ∧ (d.port 0).txFrame = some frame) ∧
    State.reset.dev.rstN = false ∧ State.reset.dev.fld Start.STAGE () < 5 ∧ (Supply.s 2) ∈ [Supply.vdd, .vddaPll, .s 2, .g 2] ∧
    (full ((sending (port 3) .head).onR 0 fun r => { r with port := { r.port with xlPhase := 1, txFrame := some { frame with fmt := 4 } } }) |>.port 0).xlPhase = 1 := by
  (repeat' refine And.intro ?_ ?_) <;> decide +kernel

/-! Ill-formed terms, one for each check of WellFormed, refused; and the same terms mended, accepted. -/
theorem test_lanes_none : (Instr.registerWrite .pf0 0 [none, none]).wellFormed = false := by decide
theorem test_lanes_many : (Instr.registerWrite .pf0 0 (List.replicate 257 (some 1))).wellFormed = false := by decide +kernel
theorem test_shpWrite_empty : (Instr.shpWriteFrame 0 [] 0).wellFormed = false := by decide
theorem test_shpWrite_long : (Instr.shpWriteFrame 0 (List.replicate 65 1) 0).wellFormed = false := by decide
theorem test_shpRead_empty : (Instr.shpReadFrame 0 0 0).wellFormed = false ∧ (Instr.shpReadFrame 0 65 0).wellFormed = false := by decide
theorem test_shpBadCommand_good : (Instr.shpBadCommand 0x0B 64).wellFormed = false ∧ (Instr.shpBadCommand 0x0B 65).wellFormed = true := by decide
theorem test_shpFrameCut_long : (Instr.shpFrameCut (.writeAfterCheck 0 (List.replicate 65 1) 0)).wellFormed = false := by decide
theorem test_frame_long : (Instr.frameReceived 0 { frame with data := List.replicate 65 1 } false 0).wellFormed = false := by decide
theorem test_frame_classic_long : (Instr.frameReceived 0 { frame with fmt := 0, data := List.replicate 9 1 } false 0).wellFormed = false := by decide
theorem test_frame_xl_empty : (Instr.frameReceived 0 { frame with fmt := 4, data := [] } false 0).wellFormed = false := by decide
theorem test_frame_identifier : (Instr.rxfReceived 0 { frame with id := 2048 } false 0 0 .drop).wellFormed = false := by decide
theorem test_frame_sec : (Instr.frameReceived 0 { frame with sec := true } false 0).wellFormed = false ∧ (Instr.frameReceived 0 frame false 0).wellFormed = true := by decide
theorem test_billet_index : (Instr.updReceived (.billet { bil 3 with payload := List.replicate 992 0 })).wellFormed = false := by decide +kernel
theorem test_billet_length : (Instr.updReceived (.billet (bil 1))).wellFormed = false ∧
    (Instr.updReceived (.billet { bil 1 with payload := List.replicate 992 0 })).wellFormed = true := by decide +kernel
theorem test_busBillet_empty : (Instr.busBillet 0 { frame with fmt := 4, data := [] } 0).wellFormed = false := by decide
theorem test_busError_steps : (Instr.busError 0 ⟨.stuff, false, false, false, 65, false, false⟩).wellFormed = false := by decide
theorem test_owntmo_cell : (Instr.owntmoExpire 0 0 8192).wellFormed = false := by decide
theorem test_ladleUnit_long : (Instr.ladleUnitDone 0 (List.replicate 257 0)).wellFormed = false := by decide +kernel
theorem test_linkUp_lanes : (Instr.linkUp { hello true with lanes := 5 }).wellFormed = false ∧ (Instr.linkUp (hello true)).wellFormed = true := by decide
theorem test_mwr_address : (Instr.mwrReceived ⟨2, 0, none, 0⟩).wellFormed = false ∧ (Instr.mwrReceived ⟨2 ^ 27, 0, none, 0⟩).wellFormed = false := by decide
theorem test_hostRead_none : (Instr.hostReadError .pf0 0 0 true).wellFormed = false ∧ (Instr.hostReadError .pf0 0 513 true).wellFormed = false := by decide
theorem test_dig_cycle : (Instr.digReceived 0 (2 ^ 32) 0).wellFormed = false := by decide
theorem test_rstNLow_none : (Instr.rstNLow 0).wellFormed = false := by decide

/-- R33's example: CHIP.VB.BK06.V3 lies at 0x004018C. -/
theorem test_boardAddress : VbV.addr (6, 3) = 0x4018C := by decide
/-- R8 on the example of the number formats (00_scope.md): 0.5 in F20 times 1.5 in K20 is 0x0000C0000000 in A48, narrowed 0.75; a tie goes away from zero; the sum of two halves saturates. -/
theorem test_narrow : narrow (0x40000 * 0x3000) = 0x60000 ∧ narrow 4096 = 1 ∧ narrow (-4096) = -1 ∧ narrow (0x80000 * 0x2000) = 0x7FFFF := by decide
/-- R291: the first default candidate at heat NORMAL. -/
theorem test_ardDefault : (ardDefaults alone 0).reg (BpArdN.addr (0, 0)) = 0x40403F#32 ∧ (ardDefaults alone 0).fld BpArd.DWELL 0 = 100 := by
  (repeat' refine And.intro ?_ ?_) <;> decide +kernel

/-! Witnesses of further hypotheses: each one is a condition of a clause that the theorems above do not meet. -/
theorem witness_hostWritesJudged_oversize : memAt (TwCfg.addr ()) = none ∧ 8 < (List.replicate 12 (0 : Byte)).length ∧ 256 < (List.replicate 257 (0 : Byte)).length ∧
    masterUp alone .pf0 = true ∧ stageOpen alone (TwCfg.addr ()) = true := by
  (repeat' refine And.intro ?_ ?_) <;> decide +kernel
theorem witness_serialHostPortCut_after : isShp (.msi false 3) = false ∧ ({ alone with out := [HostOut.msi false 3] ++ HostOut.shpFrame ([0x80] ++ byte4 7 ++ [0x55]) :: [] }).out =
    [HostOut.msi false 3] ++ HostOut.shpFrame ([0x80] ++ byte4 7 ++ [0x55]) :: [] ∧ (7 : Word) ≠ 0xFFFFFFFF := by
  (repeat' refine And.intro ?_ ?_) <;> decide +kernel
/-- The RUN slot of cell 5 stands at the runner with the cell in AUTO, for every kind. -/
theorem witness_autoRun : ∀ kind ∈ List.range 16, AutoRun (kcell kind 3) 3 5 (slot 1 5) kind := by
  intro kind h
  have : ∀ kind ∈ List.range 16, unitBlk 3 ∉ (kcell kind 3).undef ∧ (slotNow (kcell kind 3) 3 = some (slot 1 5) ∧ sOp (slot 1 5) = 1 ∧ kcIx (sf (slot 1 5) 0 4) = 5) ∧
      (kcell kind 3).fld KcCfg.KIND (3, 5) = kind ∧ effMode (kcell kind 3) (3, 5) = 0 ∧ fget 0 6 ((kcell kind 3).reg (KcCtl.addr (3, 5))) = 0 ∧
      (kcell kind 3).bit KcStat.PRE (3, 5) = false := by decide +kernel
  have h := this kind h
  exact ⟨h.1, h.2.1, h.2.2.1, h.2.2.2⟩
theorem witness_kernelRunsByMode_kinds : let v := fun (kind n : Nat) => (kcell kind 3).put KcCfg.VAR (3, 5) n
    (v 5 1).fld KcCfg.VAR (3, 5) % 4 = 1 ∧ effMode (v 5 1) (3, 5) = 0 ∧ (v 5 2).fld KcCfg.VAR (3, 5) % 4 = 2 ∧ koutEn (kcell 9 3) (3, 5) 0 = true ∧
    ((kcell 10 3).flag KcStat.LOCK (3, 5)).bit KcStat.LOCK (3, 5) = true := by
  (repeat' refine And.intro ?_ ?_) <;> decide +kernel
/-- The interpolator of block 3 with segments to take, the next one of a head word. -/
def interp (wr head : Nat) : Dev := ((kcell 12 3).put SegWr.WR 3 wr).setReg (Seg.addr (3, 0, 0)) (BitVec.ofNat 32 head)
theorem witness_kernelRunsByMode_interp : (kst (interp 0 0) (3, 5)).rem = 0 ∧ ((interp 0 0).fld SegWr.WR 3 + 64 - (interp 0 0).fld SegRd.RD 3) % 64 = 0 ∧
    ((interp 1 5).fld SegWr.WR 3 + 64 - (interp 1 5).fld SegRd.RD 3) % 64 ≠ 0 ∧ segW (interp 1 0) 3 0 0 % 2 ^ 20 = 0 ∧ segW (interp 1 0x300005) 3 0 0 / 2 ^ 20 % 4 = 3 ∧
    (segW (interp 1 0x200005) 3 0 0 / 2 ^ 20 % 4 ≠ 3 ∧ segW (interp 1 0x200005) 3 0 0 % 2 ^ 20 ≠ 0) ∧
    0 < (kst ((interp 0 0).onB 3 fun b => { b with kern := b.kern.map fun x => { x with rem := 1 } }) (3, 5)).rem := by
  (repeat' refine And.intro ?_ ?_) <;> decide +kernel
theorem witness_cycleStarts_requests :
    (((blk3 1).put BkCtl.ARM 3 1 |>.cmdAgain (BkCtl.addr 3) (2 ^ BkCtl.ARM.lo)).cmdRedo BkCtl.ARM 3 = true) ∧
    (let d := (blk3 3).onB 3 fun b => { b with awaitBank := true, swFall := some false, stalled := some false }
     (d.b 3).rewrite = false ∧ (d.b 3).awaitBank = true ∧ (d.b 3).swFall.isSome = true ∧ (d.b 3).stalled = some (curBank d 3)) ∧
    ((blk3 3).flag Pstat.HOLD 3).bit Pstat.HOLD 3 = true ∧
    (let d := (blk3 3).onB 3 fun b => { b with swTrig := some true }
     (d.b 3).inCycle = false ∧ (d.b 3).swHost = none ∧ (d.b 3).swTrig = some true ∧ true ≠ curBank d 3 ∧ domValid d (hdrOf d 3 true).domain = true) ∧
    (let d := (blk3 3).onB 3 fun b => { b with swHost := some false }
     (d.b 3).swHost = some false ∧ (d.b 3).swWait = false ∧ (d.b 3).swTrig = none ∧ false = curBank d 3) ∧
    (let d := ((blk3 3).onB 3 fun b => { b with swTrig := some true }).clr PdStat.VALID 0
     (d.b 3).swHost = none ∧ (d.b 3).swTrig = some true ∧ domValid d (hdrOf d 3 true).domain = false) := by
  (repeat' refine And.intro ?_ ?_) <;> decide +kernel
/-- A return to bank B is due; the domain runs since clk t. -/
def due (t : Nat) : Dev := { ((slow 3).onB 3 fun b => { b with swFall := some true, stalled := none }) with clk := 5000 }.onPd 0 fun x => { x with seg := ⟨t, 0, 2 ^ 32, 100000⟩ }
theorem witness_cycleStarts_return : let d := due
    ((d 0).b 3).rewrite = false ∧ ((d 0).b 3).disarm = false ∧ (d 0).bit Pstat.HOLD 3 = false ∧ ((d 0).b 3).inCycle = false ∧ ((d 0).b 3).swFall = some true ∧
    ((d 0).b 3).stalled ≠ some (curBank (d 0) 3) ∧ true ≠ curBank (d 0) 3 ∧ ((d 0).b 3).swHost = none ∧ ((d 0).b 3).swTrig = none ∧
    (2 ^ 20 - blkPhase (d 0) 3 true) * 16 * (hdrOf (d 0) 3 true).rateMax ≤ 2 ^ 20 * blkRate (d 0) 3 true ∧
    2 ^ 20 * blkRate (d 5000) 3 true < (2 ^ 20 - blkPhase (d 5000) 3 true) * 16 * (hdrOf (d 5000) 3 true).rateMax := by
  (repeat' refine And.intro ?_ ?_) <;> decide +kernel
theorem witness_runnerFaults_hold : let d := ((slow 3).flag Pstat.HOLD 3).onB 3 fun b => { b with swHost := some true }
    runnerOn d 3 = true ∧ d.bit Pstat.HOLD 3 = true ∧ (d.b 3).swHost = some true ∧ true ≠ curBank d 3 ∧ domValid d (hdrOf d 3 true).domain = true ∧
    domValid (d.clr PdStat.VALID 0) (hdrOf (d.clr PdStat.VALID 0) 3 true).domain = false ∧ runnerOn (d.clr PdStat.VALID 0) 3 = true ∧
    (let e := ((slow 3).flag Pstat.STALL 3).onB 3 fun b => { b with stalled := some false }
     e.bit Pstat.STALL 3 = true ∧ e.bit Pstat.HOLD 3 = false ∧ (e.b 3).stalled = some (curBank e 3)) ∧
    (let e := ((slow 3).flag Pstat.STALL 3).onB 3 fun b => { b with stalled := some true }
     e.bit Pstat.STALL 3 = true ∧ ¬ (e.bit Pstat.HOLD 3 = false ∧ (e.b 3).stalled = some (curBank e 3)) ∧ (e.b 3).stalled = some true) ∧
    (let e := (blk3 3).onB 3 fun b => { b with rewrite := true }
     (e.b 3).rewrite = true ∧ e.failT = false) := by
  (repeat' refine And.intro ?_ ?_) <;> decide +kernel

/-- The legs of block 3, leg 0 with its duty pending as `duty` and a short-pulse mode. -/
def duty (n sp : Nat) : Dev := ((legs 3).put LcCfg.SPMODE (3, 0) sp).onB 3 fun b => { b with leg := b.leg.map fun g => { g with duty := n } }
/-- The compare value of leg 0 and the least width. -/
def cmp0 (d : Dev) : Nat := min (cmpOf ((legOf d (3, 0)).taken d.clk).1 (d.fld Pwm.PER 3)) (8 * d.fld Pwm.PER 3)
theorem witness_legs_plan_short : (∀ sp ∈ [0, 1, 2], (duty 500 sp).fld LcCfg.SPMODE (3, 0) = sp ∧ 0 < cmp0 (duty 500 sp) ∧ cmp0 (duty 500 sp) < legM (duty 500 sp) (3, 0)) ∧
    2 * legM (duty 500 0) (3, 0) ≤ 8 * (duty 500 0).fld Pwm.PER 3 ∧ isChopper (duty 500 0) (3, 0) = false ∧
    (let d := ((duty 1048575 0).put LcCfg.REN (3, 0) 1)
     d.bit LcCfg.REN (3, 0) = true ∧ cmp0 d = 8 * d.fld Pwm.PER 3 ∧ d.fld LcCfg.RN (3, 0) ≤ d.fld LcAcc.FULLRUN (3, 0)) ∧
    (let d := (duty 200000 2).put LcAcc.A (3, 0) 100
     0 < d.fld LcAcc.A (3, 0) ∧ cmp0 d ≠ 0 ∧ cmp0 d + d.fld LcAcc.A (3, 0) + legM d (3, 0) ≤ 8 * d.fld Pwm.PER 3 ∧ ¬ (cmp0 d < legM d (3, 0))) := by
  (repeat' refine And.intro ?_ ?_) <;> decide +kernel
theorem witness_legs_plan_chopper : isChopper ((legs 3).put BkType.TYPE 3 1) (3, 2) = true ∧ ((legs 3).put BkType.TYPE 3 1).bit LcAcc.SIDE (3, 2) = false := by decide +kernel
theorem witness_legs_lock : let d := ((legs 3).flag Csync.EN 3).put Csync.N 3 4
    2 ≤ d.fld BkStat.STATE 3 ∧ d.bit Csync.EN 3 = true ∧ d.bit Csync.LOCKED 3 = false ∧ (d.flag Csync.LOCKED 3).bit Csync.LOCKED 3 = true ∧ domValid d (curHdr d 3).domain = true ∧
    (legOf d (3, 0)).stop = false ∧ d.fld CsyncF.FLOCK 3 * 17 ≤ d.fld Csync.N 3 * domRate d (curHdr d 3).domain ∧ domValid (d.clr PdStat.VALID 0) 0 = false := by
  (repeat' refine And.intro ?_ ?_) <;> decide +kernel
theorem witness_legs_table_more : let d := (legs 3).flag PwmStat.PTMODE 3 |>.onB 3 fun b => { b with ptRow := some 0 }
    (let e := onL d (3, 1) fun g => { g with stop := true }
     ((e.b 3).leg.toList.any fun g => g.stop) = true ∧ (∀ j, (legOf e (3, j)).upd = true) ∧ e.bit PwmStat.PTMODE 3 = true) ∧
    (let e := d.onB 3 fun b => { b with ptLeave := true }
     ((e.b 3).leg.toList.any fun g => g.stop) = false ∧ mayDrive e 3 = true ∧ (e.b 3).ptLeave = true) ∧
    (let e := onL d (3, 0) fun g => { g with skip := true }
     (legOf e (3, 0)).skip = true ∧ (legOf e (3, 0)).on = true ∧ (ptRowOf e 3).map (fun r => r.edges[(e.b 3).ptNext]?.map (·.leg)) = some (some 0)) ∧
    ((ptRows d 3)[5]?).isNone = true ∧ ((d.onB 3 fun b => { b with ptPend := some 5 }).b 3).ptPend = some 5 := by
  (repeat' refine And.intro ?_ ?_) <;> decide +kernel
theorem witness_quenchControl_both : mRsv 0xFFFC (ownM 1 0x30003) = 0 ∧ (mOnes (ownM 1 0x30003)).testBit 0 = true ∧ (∀ e, ((routed 3).b 3).qClr = some e → e.1 ≠ (routed 3).clk) := by
  (repeat' refine And.intro ?_ ?_) <;> decide +kernel
/-- The port of region 0 with a section in its pattern. -/
def sect (st : Nat) : Dev := { port st with pat := some ⟨hdr 2, 4096, 2, [⟨2, 0, 1, 0, 0, 0, [], .region [(0x10014, 0x0000003F#32)]⟩]⟩ }
theorem witness_regionErrors_restart : (sect 3).pat.isSome = true ∧ (portSec (sect 3) 0).isSome = true ∧ 2 ≤ (sect 3).fld BpStat.STATE 0 ∧ (sect 6).fld BpStat.STATE 0 = 6 ∧
    (sect 5).fld BpStat.STATE 0 = 5 ∧ ((sect 3).r 0).badQ = [] ∧ ((sect 3).r 0).badFree = false := by
  (repeat' refine And.intro ?_ ?_) <;> decide +kernel
theorem witness_portCommands_lock : let d := onPort (port 3) 0 fun x => { x with lockT := some (port 3).clk }
    (d.port 0).lockT = some d.clk ∧ mOnes (ownM 4 0) % 128 = 16 ∧ d.pat ≠ none ∧ chipHeldOn d = false ∧ (∀ e ∈ d.redo, e.1 ≠ BpCtl.addr 0) ∧
    (((headed 3).flag TqStat.ABORTPEND 0).bit TqStat.ABORTPEND 0 = true) := by
  (repeat' refine And.intro ?_ ?_) <;> decide +kernel
theorem witness_framesReceived_more : let d := recv 1
    ((onPort d 0 fun x => { x with xbStore := true }).port 0).xbStore = true ∧
    (let e := d.flag RQstat.REBUILD 0
     e.bit RQstat.REBUILD 0 = true ∧ (e.port 0).xbStore = false ∧ qLive e 0 rq0 = true ∧ (e.port 0).held.length < 2) ∧
    (let e := (((port 3).flag FeCtl.EN (0, 127)).put FeCtl.ACT (0, 127) 3).put FeCtl.DOM (0, 127) 2
     (feAction e 0 (some 127)).1 = 3 ∧ e.bit FeCtl.COPY (0, 127) = false ∧ e.fld FeCtl.DOM (0, 127) = 2 ∧ feFor e 0 frame false = some 127 ∧
     (e.flag FeCtl.COPY (0, 127)).bit FeCtl.COPY (0, 127) = true ∧ srcKind (e.put PdCfg.SRC 2 5) 2 false = 5) := by
  (repeat' refine And.intro ?_ ?_) <;> decide +kernel
theorem witness_transmit_more : let d := headed 3
    ((onPort d 0 fun x => { x with xbFetch := true }).port 0).xbFetch = true ∧
    (let e := (sending d .head).flag TqStat.ABORTPEND 0
     (e.port 0).tx = some .head ∧ (e.port 0).orphan = false ∧ (qGet e 0 tq).pkts.length = 1 ∧ e.bit TqStat.ABORTPEND 0 = true ∧ (tqHead e 0).map (headOk e 0) = some true) ∧
    (let e := ((win (port 3) 31).onR 0 fun r => { r with win := vset r.win 31 ⟨true, true, true, false, false, false, false⟩ }).clr PdStat.VALID 0
     (winOf e 0 31).isOpen = true ∧ domValid e (winDom e 0 31) = false) := by
  (repeat' refine And.intro ?_ ?_) <;> decide +kernel
theorem witness_queueUpkeep_mismatch : (port 3).failDue = none ∧ ((port 3).r 0).qerrWin < 7 ∧
    (∀ r ∈ [(5 : Fin 64), 4], (((port 3).onR 0 fun x => { x with badQ := [(5, r)] }).r 0).badQ = [(5, r)]) ∧ (((port 3).onR 0 fun x => { x with badFree := true }).r 0).badFree = true ∧
    (((port 3).onR 0 fun x => { x with badFree := true }).r 0).badQ = [] ∧ notProd ((port 3).onR 0 fun x => { x with badFree := true }) 0 5 (whoOf .pf0) = false ∧
    Alone ((port 3).onR 0 fun x => { x with badFree := true }) .pf0 (QPdata.addr (0, 5)) (unitRgn 0) := by
  (repeat' refine And.intro ?_ ?_) <;> decide +kernel
theorem witness_eventMessages_withdraw : (gath 1 false).evq = [⟨3, 961, false, 5, true⟩] ∧ srcLevel ((gath 1 false).flag Src.SWKIND (srcIx 961)) 961 = true ∧
    srcLevel (gath 1 false) 961 = false ∧ ((gath 1 false).clr Src.EN (srcIx 961)).bit Src.EN (srcIx 961) = false ∧ Memory.wf ((gath 1 false).clr Src.EN (srcIx 961)) = true := by
  (repeat' refine And.intro ?_ ?_) <;> decide +kernel
theorem witness_eventTargets_signal : let d := { held (alone.clr TCfg.NMASK 0) 0 false with fn := vmod alone.fn (h0Fn alone) fun f => { f with msiEn := true } }
    (sigNow d 0).1 = true ∧ fint d 0 = false ∧ (vget d.fn (h0Fn d)).msiEn = true ∧ (vget d.fn (h0Fn d)).msiMask.getLsbD (d.fld TCfg.NVEC 0) = false ∧
    fget 16 1 (0x10000#32) = 1 ∧ (0x10000#32) &&& 0xFFFE0080 = 0 := by
  (repeat' refine And.intro ?_ ?_) <;> decide +kernel

theorem witness_ladleControl_clear : let x := dsc 4 0 64 0 0
    (chanOf (running x 1) 1).desc = some x ∧ dSk x = 4 ∧ (running x 1).fld ChStat.STATE 1 = 1 ∧ (running x 3).fld ChStat.STATE 1 = 3 ∧ dSk (dsc 0 1 64 0 0) ≠ 4 := by
  (repeat' refine And.intro ?_ ?_) <;> decide +kernel
/-- It is this channel's turn, and the unit is no SHADOW that leaves the descriptor to its partner. -/
theorem witness_ladleUnits_turn : ladleTurn (running (dsc 0 1 512 0 0) 1) 1 = true ∧ ladleTurn { onChan ((running (dsc 0 1 512 0 0) 1).put ChStat.STATE 2 1) 2 (fun y => { y with desc := some (dsc 1 0 512 0 0) }) with turn := 2 } 1 = false ∧
    shadowSkips (running (dsc 0 2 512 0 63) 1) (dsc 0 2 512 0 63) = false ∧
    (let d := (running (dsc 1 3 64 0 3) 1).put TwStat.ROLE () 2
     shadowSkips d (dsc 1 3 64 0 3) = true ∧ ladleTurn d 1 = true) ∧
    (((running (dsc 0 1 64 0 0) 3).flag ChCtl.STOP 1).cmdAgain (ChCtl.addr 1) 2).cmdRedo ChCtl.STOP 1 = true ∧ (running (dsc 0 1 512 0 0) 1).cmdRedo ChCtl.STOP 1 = false ∧
    (let d := onChan (running (dsc 4 0 64 0 0) 2) 1 fun y => { y with moved := 16 }
     d.fld ChStat.STATE 1 = 2 ∧ (chanOf d 1).moved ≠ 0) := by
  (repeat' refine And.intro ?_ ?_) <;> decide +kernel
theorem witness_ladleUnits_kept : let x := dsc 2 0 64 5 0
    let d := onChan (running x 2) 1 fun y => { y with kept := [⟨queueKey x, [1, 2], none⟩] }
    (chanOf d 1).kept.find? (fun i => i.key == queueKey x) = some ⟨queueKey x, [1, 2], none⟩ ∧ itemBytes ⟨queueKey x, [1, 2], none⟩ ≤ dLen x - (chanOf d 1).moved ∧
    d.fld ChStat.STATE 1 = 2 ∧ (d.r (dRgn (dSaddr x))).badQ = [] ∧ (d.r (dRgn (dSaddr x))).badFree = false := by
  (repeat' refine And.intro ?_ ?_) <;> decide +kernel
theorem witness_ladleUnits_segments : let x := dsc 1 3 64 0 3
    let d := running x 1
    dSk x = 1 ∧ dDk x = 3 ∧ shadowSkips d x = false ∧ d.twin.mirror = [] ∧ d.fld TwStat.ROLE () ≠ 2 ∧ 32 < dLen x - (chanOf d 1).moved ∧
    ¬ (32 ≤ (d.fld SegWr.WR 3 + 64 - d.fld SegRd.RD 3) % 64) ∧ 32 ≤ ((d.put SegWr.WR 3 32).fld SegWr.WR 3 + 64 - (d.put SegWr.WR 3 32).fld SegRd.RD 3) % 64 ∧
    (d.put TwStat.ROLE () 1).fld TwStat.ROLE () = 1 ∧ shadowSkips (d.put TwStat.ROLE () 1) x = false ∧ (running x 3).fld ChStat.STATE 1 = 3 := by
  (repeat' refine And.intro ?_ ?_) <;> decide +kernel
theorem witness_ladleUnits_packet : let x := dsc 0 2 512 0 5
    let d := (running x 1).put QCfg1.PROD (0, 5) 2
    let hd := (leBytes 4 5 ++ leBytes 4 7 ++ leBytes 4 8).map (BitVec.ofNat 8)
    dSk x = 0 ∧ dDk x = 2 ∧ usesHost x = true ∧ fnUsable d (chanFn d 1) = true ∧ wordsOf hd = 5#32 :: [7#32, 8#32] ∧ hd.length = 4 + 4 * 2 ∧ hd.length ≤ 4 * unitMax d 1 x ∧
    hd.length < dLen x - (chanOf d 1).moved ∧ (chanOf d 1).acc = [] ∧ 2 = (fget 0 13 (5#32) + 3) / 4 ∧ dRgn (dDaddr x) = 0 ∧ dQueue (dDaddr x) = 5 ∧ (d.r 0).badQ = [] ∧
    (d.r 0).badFree = false ∧ d.bit RQstat.REBUILD 0 = false ∧ notProd d 0 5 2 = false ∧ qLive d 0 5 = true ∧ (qGet d 0 5).dropping = false ∧ (qGet d 0 5).opn = none ∧
    (qGet d 0 5).stalls = [] ∧ canTake d 0 5 1 = true ∧ canTake ((d.put QCfg0.QUOTA (0, 5) 0).put QCfg0.RESV (0, 5) 0) 0 5 1 = false := by
  (repeat' refine And.intro ?_ ?_) <;> decide +kernel
theorem witness_ladleUnits_stage : let x := dsc 0 4 1024 0 2
    let d := running x 1
    let y := fun (n : Nat) => onChan d 1 fun y => { y with moved := n }
    dSk x = 0 ∧ dDk x = 4 ∧ d.stwRun = true ∧ vget d.stage (stageSlot x) = none ∧ dLen x ≤ 4096 ∧ (dLen x - (chanOf d 1).moved) % 4 = 0 ∧
    min (dLen x) (min (4 * unitMax d 1 x) (64 / 4 * 4)) < dLen x ∧
    (min (dLen x - (chanOf (y 960) 1).moved) (min (4 * unitMax (y 960) 1 x) (64 / 4 * 4)) = dLen x - (chanOf (y 960) 1).moved) ∧
    { d with stwRun := false }.stwRun = false ∧ shadowSkips d x = false ∧ usesHost x = true ∧ fnUsable d (chanFn d 1) = true := by
  (repeat' refine And.intro ?_ ?_) <;> decide +kernel
theorem witness_pair_repour : { oper (some goodPat) (some 3) false with patOp := some ⟨some goodPat, some 3, false, 0, true⟩, twin := (pair 1).twin }.twin.paired = true ∧
    { oper (some goodPat) (some 3) false with patOp := some ⟨some goodPat, some 3, false, 0, true⟩, twin := (pair 1).twin }.pat = some goodPat := ⟨by decide +kernel, rfl⟩
theorem witness_twinLink_heartbeat : linkOpen (pair 1) = true ∧ (pair 1).clkLost = false ∧ linkOpen { pair 1 with clkLost := true } = false ∧
    (pair 1).failT = false ∧ (pair 1).twin.refull = false := by
  (repeat' refine And.intro ?_ ?_) <;> decide +kernel
theorem witness_twinShadowing_owner : let t := (twin 1 fun t => { t with digs := [(3, 7, 99)] }).flag TwStat.SYNCED ()
    t.fld TwStat.ROLE () = 1 ∧ t.twin.paired = true ∧ t.twin.coord = .none ∧ t.twin.digs = (3, 7, 99) :: [] ∧ noCompare t 3 = false ∧ noCompare (t.flag TwBk.NOCMP 3) 3 = true ∧
    (∀ e ∈ t.twin.digs, e.1 = 4 → e.2.1 ≠ 7) ∧ (t.put TwBk.MISRUN 3 2).fld TwBk.MISRUN 3 = 2 ∧ t.twin.dead = false ∧
    (let w := (twin 1 fun t => { t with coord := .waits, good := Vector.replicate 16 16 }).flag TwStat.SYNCED ()
     w.twin.coord = .waits ∧ beat.role = 2 ∧ w.bit TwStat.SYNCED () = true ∧ w.bit TwStat.SUSPECT () = false ∧ (∀ nn, w.bit TwBk.RESYNC nn = false) ∧
      (∀ nn, 16 ≤ vget w.twin.good nn) ∧ (∀ k alt, srcKind w k alt ≠ 6) ∧ w.fld BkStat.STATE 3 = 3 ∧ w.bit TwCtl.HANDOVER () = false) ∧
    vget (twin 1 id).twin.good 3 < 16 := by
  (repeat' refine And.intro ?_ ?_) <;> decide +kernel
/-- A mirrored write waits on the SHADOW. -/
def waits (m : MirWr) : Dev := twin 2 fun t => { t with mirror := [m], hbT := some 5 }
theorem witness_twinShadowing_due : let m : MirWr := ⟨HspCtl.addr 3, 0x00010001, some 3, 5⟩
    let at5 := fun (d : Dev) => { d with clk := 5 }
    let d := at5 ((waits m).onB 3 fun b => { b with cycT := some 5 })
    d.fld TwStat.ROLE () ≠ 3 ∧ d.twin.mirror = [] ++ m :: [] ∧ m.t ≤ d.clk ∧ hasSec d 3 = true ∧ (d.b 3).cycT = some d.clk ∧ d.failDue = none ∧
    (at5 (waits { m with blk := none })).twin.hbT = some (at5 (waits { m with blk := none })).clk ∧ hasSec d 4 = false ∧
    ¬ ((at5 (waits m)).b 3).cycT = some (at5 (waits m)).clk ∧ ¬ { m with t := 6 }.t ≤ d.clk := by
  (repeat' refine And.intro ?_ ?_) <;> decide +kernel
theorem witness_twinShadowing_wait : ((twin 1 id).put EcCfg.MODE 3 2).fld EcCfg.MODE 3 = 2 ∧ (encOf (twin 1 id) 3).wait = none := by
  (repeat' refine And.intro ?_ ?_) <;> decide +kernel
theorem witness_resynchronisation_waits : let t := twin 1 fun t => { t with rsyWait := [3] }
    let d := t.put BkStat.STATE 3 2
    unitBlk 3 ∉ d.undef ∧ d.twin.dead = false ∧ d.fld TwStat.ROLE () = 1 ∧ 3 ∈ d.twin.rsyWait ∧ (d.b 3).resetting = false ∧ (d.b 3).repouring = false ∧ d.fld BkStat.STATE 3 = 2 ∧
    (d.b 3).rewrite = false ∧ (d.b 3).disarm = false ∧ d.bit Pstat.HOLD 3 = false ∧ (d.b 3).swFall = none ∧ (d.b 3).inCycle = false ∧
    (let e := (twin 2 id).flag TwBk.RESYNC 3
     e.bit TwBk.RESYNC 3 = true ∧ e.fld TwStat.ROLE () = 2 ∧ e.twin.coord = .none) ∧ gateSupply { t with supply := [] } 3 = false ∧ gateSupply t 3 = true := by
  (repeat' refine And.intro ?_ ?_) <;> decide +kernel
theorem witness_resynchronisation_aligns : let d := { (twin 3 id).put Start.STAGE () 4 with pat := some goodPat }
    d.fld Start.STAGE () = 4 ∧ d.patOp = none ∧ d.pat ≠ none ∧ d.bit TwStat.LINKUP () = true ∧ d.twin.paired = true ∧ ((d.clr TwStat.OWNO ()).bit TwStat.OWNO () = false) ∧
    (d.flag TwStat.OWNO ()).bit TwStat.OWNO () = true := by
  (repeat' refine And.intro ?_ ?_) <;> decide +kernel
theorem witness_ownership_more : let w := fun (f : Twin → Twin) => twin 2 fun t => f { t with faultWait := true }
    (w id).fld TwStat.ROLE () = 2 ∧ (w id).failT = false ∧ (w id).twin.faultWait = true ∧ (w id).twin.refull = false ∧ ((w fun t => { t with refull := true }).twin.refull = true) ∧
    (twin 2 fun t => { t with handing := true, coord := .verifying }).twin.coord = .verifying ∧ (twin 1 fun t => { t with handing := true, coord := .waits }).twin.coord = .waits ∧
    (let x := twin 1 fun t => { t with coord := .waits, hb := some (beat, 5) }
     x.fld BkStat.STATE 3 = 3 ∧ vget x.twin.good 3 < 16) := by
  (repeat' refine And.intro ?_ ?_) <;> decide +kernel
/-- Every supply is good, in reset, with no pattern, and with a pattern whose blocks drive their SSI clocks. -/
theorem witness_outputBalls_up : (∀ n, bankUp (full State.reset.dev) (ballBank (.mclk n 0)) = true ∧ bankUp (full State.reset.dev) (ballBank (.bstb n)) = true) ∧
    bankUp (full State.reset.dev) (ballBank .shpIo) = true ∧ bankUp (full State.reset.dev) (ballBank .tdo) = true ∧ bankUp (full State.reset.dev) (ballBank .tlTx) = true ∧
    (∀ nn l, bankUp (full State.reset.dev) (ballBank (.gh nn l)) = true ∧ bankUp (full State.reset.dev) (ballBank (.ea nn)) = true) ∧ 1000 ≤ 1000 ∧ (full up).pat = none ∧
    (full up).rstN = true ∧ ((full (blk3 3)).flag MclkCfg.DIR0 0).bit MclkCfg.DIR0 0 = true ∧ (full (blk3 3)).bit MclkCfg.DIR1 0 = false ∧
    { full (blk3 3) with clkLost := true }.clkLost = true ∧
    (let d := { (((full (blk3 3)).put EcCfg.MODE 3 2).put EcSsi.SPER 3 1000).put EcSsi.SDIV 3 10 with clk := 1015 }
     d.fld EcCfg.MODE 3 = 2 ∧ d.fld EcSsi.SPER 3 ≤ d.clk - d.patT ∧ 0 < d.fld EcCfg.SBITS 3 + 2 ∧ (d.clk - d.patT) % d.fld EcSsi.SPER 3 = 15 ∧ d.fld EcSsi.SDIV 3 = 10) := by
  (repeat' refine And.intro ?_ ?_) <;> decide +kernel

end Sys2Proof.Tests
end

/-! ### A command that a master writes, where it reaches its register (R82, R109, R409) -/

namespace Sys2Proof.Machine

/-- What a command that completes leaves is what exec computes with nothing behind it. -/
theorem Completes.of_exec {c : Instr} {d t : Dev} {P : Dev → Prop} (h : Completes c d P)
    (e : exec c ⟨[], d⟩ = .next ⟨[], t⟩) : P t := by
  obtain ⟨u, hu, hp⟩ := h []
  rw [e] at hu
  cases hu
  exact hp

/-- A command that gives a device completes with whatever holds of that device. -/
theorem Gives.completes {c : Instr} {d t : Dev} {P : Dev → Prop} (h : Gives c d t) (hp : P t) : Completes c d P :=
  fun rest => ⟨t, h rest, hp⟩

/-- A block of which everything is guaranteed carries out its command. -/
theorem onBlock_known {nn : Fin 16} {s : State} {f : Dev → Dev} (hu : unitBlk nn ∉ s.dev.undef) :
    onBlock nn s f = .next { s with dev := f s.dev } := by
  simp [onBlock, onUnit, onDev, hu]

/-- A write that reaches its unit, by a master that the register admits, takes effect. -/
theorem hostCmd_reaches {s : State} {h : Master} {a u : Nat} {priv : Bool} {f : Dev → Dev} (hr : Reaches s.dev h a u)
    (hp : priv = true → privileged s.dev h = true) : hostCmd s h a priv u f = .next { s with dev := f s.dev } := by
  obtain ⟨hup, hopen, hu⟩ := hr
  cases priv <;> simp_all [hostCmd, onUnit, onDev]

/-- A write that changes no reserved bit keeps the guarantee of its unit (R95). -/
@[simp] theorem unguard_zero (d : Dev) (u a : Nat) : unguard d u a 0 = d := rfl

/-- As hostCmd_reaches, for a write that changes no reserved bit. -/
theorem hostW_reaches {s : State} {h : Master} {a u chg : Nat} {priv : Bool} {f : Dev → Dev} (hr : Reaches s.dev h a u)
    (hp : priv = true → privileged s.dev h = true) (hc : chg = 0) :
    hostW s h a priv u chg f = .next { s with dev := f s.dev } := by
  subst hc
  exact hostCmd_reaches hr hp

/-- On an ALONE unit a write to a mirrored register takes effect at once (R409). -/
theorem mirHost_alone {d : Dev} {a : Nat} {w : Word} {blk : Option (Fin 16)} {refused : Bool} {go turn : Dev → Dev}
    (h : d.fld TwStat.ROLE () = 0) : mirHost d a w blk refused go turn = go d := by
  simp [mirHost, h]

/-- On a SHADOW or HELD unit it is turned away and counted in SHWR (R410). -/
theorem mirHost_turned {d : Dev} {a : Nat} {w : Word} {blk : Option (Fin 16)} {refused : Bool} {go turn : Dev → Dev}
    (h : 2 ≤ d.fld TwStat.ROLE ()) : mirHost d a w blk refused go turn = (turn d).inc TwCnt.SHWR () := by
  have hlt : d.fld TwStat.ROLE () < 4 := Dev.fld_lt d TwStat.ROLE ()
  have h23 : d.fld TwStat.ROLE () = 2 ∨ d.fld TwStat.ROLE () = 3 := by omega
  simp [mirHost, h23]

end Sys2Proof.Machine

/-! ### Narrowing to a 20-bit format (R8) -/

namespace Sys2Proof.Machine

/-- The quotient of a number that is not negative: half a unit is added, so that a tie goes up. -/
theorem rdiv_natCast (n b : Nat) : rdiv n b = ((2 * n + b) / (2 * b) : Nat) := by
  simp [rdiv]

/-- Rounding with ties away from zero is symmetric about zero. -/
theorem rdiv_neg (n b : Nat) (hb : 0 < b) : rdiv (-n) b = -rdiv n b := by
  rcases Nat.eq_zero_or_pos n with rfl | hn
  · simp [rdiv, Nat.div_eq_of_lt (show b < 2 * b by omega)]
  · simp [rdiv, hn]

/-- The product of a natural quotient with its divisor brackets the dividend: the core of rdiv_nearest. -/
theorem rdiv_natCast_nearest (n b : Nat) (hb : 0 < b) :
    2 * (n - rdiv n b * b).natAbs ≤ b ∧ (2 * (n - rdiv n b * b).natAbs = b → n < (rdiv n b * b).natAbs) := by
  rw [rdiv_natCast]
  have hdiv := Nat.div_add_mod (2 * n + b) (2 * b)
  have hlt := Nat.mod_lt (2 * n + b) (show 0 < 2 * b by omega)
  rw [mul_assoc, mul_comm b] at hdiv
  rw [← Nat.cast_mul]
  generalize (2 * n + b) / (2 * b) * b = m at *
  omega

/-- rdiv is the nearest integer to a / b, and of two equally near the one farther from zero (R8). -/
theorem rdiv_nearest (a : Int) (b : Nat) (hb : 0 < b) :
    2 * (a - rdiv a b * b).natAbs ≤ b ∧ (2 * (a - rdiv a b * b).natAbs = b → a.natAbs < (rdiv a b * b).natAbs) := by
  obtain ⟨n, rfl | rfl⟩ := a.eq_nat_or_neg
  · exact rdiv_natCast_nearest n b hb
  · have hneg : -(n : Int) - rdiv (-n) b * b = -(n - rdiv n b * b) := by rw [rdiv_neg n b hb]; ring
    rw [hneg, rdiv_neg n b hb, neg_mul, Int.natAbs_neg, Int.natAbs_neg, Int.natAbs_neg]
    exact rdiv_natCast_nearest n b hb

/-- Saturation to 20 bits (R7). -/
theorem satS_20 (r : Int) : satS 20 r = if r < -524288 then -524288 else if 524287 < r then 524287 else r := by
  unfold satS clampI
  split
  · omega
  · split <;> omega

/-- Settles O45: rdiv is the nearest integer with ties away from zero, and satS 20 its saturation. -/
theorem narrowingRoundsToNearest : Obligations.NarrowingRoundsToNearest := by
  unfold Obligations.NarrowingRoundsToNearest
  refine ⟨fun a => rfl, fun a b hb => ⟨rdiv a b, ?_⟩⟩
  obtain ⟨hnear, htie⟩ := rdiv_nearest a b hb
  exact ⟨hnear, htie, satS_20 _⟩

/-! ### The state in reset (R11) -/

/-- Refutes O3: RGN0.BPARDC0.N at 0x1010030 holds the default candidate of R291 in reset, and is none of the registers named. -/
theorem not_resetState : ¬ Obligations.ResetState := by
  unfold Obligations.ResetState
  rintro ⟨_, _, _, _, _, _, _, _, _, _, hreg⟩
  have hval : State.reset.dev.reg 0x1010030 = 0x40403F := by decide
  have hq : ¬ ∃ n, 0x1010030 = RQcfg.addr n := by decide
  have ht : ¬ ∃ t, 0x1010030 = TCfg.addr t := by decide
  have h0 := hreg 0x1010030
  rw [hval, if_neg (by decide), if_neg (by decide), if_neg (by decide), if_neg hq, if_neg ht] at h0
  exact absurd h0 (by decide)

end Sys2Proof.Machine

/-! ### Block commands: a counterexample to O22 (R10, R87) -/

namespace Sys2Proof.Machine

/-- A write to BKnn.CTL that changes no reserved bit is carried out at once on an ALONE unit. -/
theorem bkCtlHost_alone {d : Dev} {h : Master} {nn : Fin 16} {w : Word} {rest : List Instr}
    (hr : Alone d h (BkCtl.addr nn) (if mOnes w % 32 = 16 then unitNone else unitBlk nn)) (hc : mRsv 0xFFE0 w = 0) :
    bkCtlHost ⟨rest, d⟩ h nn w = .next ⟨rest, bkCtlWrite d nn (mirBits d (BkCtl.addr nn)) (mOnes w % 32)⟩ := by
  obtain ⟨hreach, hrole⟩ := hr
  rw [bkCtlHost, hostCmd_reaches hreach (by simp)]
  simp [hc, mirHost_alone hrole]

/-- BLOCK_DISARM is a write to BKnn.CTL with bit 3 written under its mask (assumption log 13). -/
theorem exec_blockDisarm (h : Master) (nn : Fin 16) (w : Word) (s : State) :
    exec (.blockDisarm h nn w) s = bkCtlHost s h nn (ownM 3 w) := by rfl

/-- Block 0 stands in HELD with an ARM pending; a DISARM of the block was written again earlier in this clk (R10) and has not
run since. -/
def armPendingDisarmRewritten : Dev :=
  { (((State.reset.dev.put Start.STAGE () 5).put TwStat.ROLE () 0).put BkStat.STATE 0 1).put BkCtl.ARM 0 1 with
    rstN := true, redo := [(BkCtl.addr 0, 8)] }

/-- Refutes O22: DISARM takes the place of the pending ARM and completes at once; the rewritten DISARM then runs again and is
refused with REASON 1 (R10), which overwrites the REASON 5 of the ARM. -/
theorem not_blockCommandsRefused : ¬ Obligations.BlockCommandsRefused := by
  unfold Obligations.BlockCommandsRefused
  intro h
  let d := armPendingDisarmRewritten
  obtain ⟨-, -, -, -, -, -, hsecond, -⟩ := h (.blockDisarm .pf0 0 0) d .pf0 0 0 3 (by simp) (by decide +kernel)
    (by decide +kernel) (by decide +kernel) (by decide +kernel) (by decide +kernel)
  have hsuper := hsecond (by decide +kernel) (by decide +kernel) (by decide +kernel) (by decide +kernel) (by decide +kernel)
    (by decide +kernel)
  rw [if_pos (by decide +kernel)] at hsuper
  have hexec : exec (.blockDisarm .pf0 0 0) ⟨[], d⟩ = .next ⟨[], bkCtlWrite d 0 (mirBits d (BkCtl.addr 0)) (mOnes (ownM 3 0) % 32)⟩ :=
    (exec_blockDisarm _ _ _ _).trans (bkCtlHost_alone (by unfold Alone Reaches; decide +kernel) (by decide +kernel))
  obtain ⟨-, hreason, -⟩ := (hsuper (by decide +kernel)).of_exec hexec
  exact absurd hreason (by decide +kernel)

end Sys2Proof.Machine

/-! ### Cycle starts: a counterexample to O29 (R135, R136, R167) -/

namespace Sys2Proof.Machine

/-- A cycle start of a block of which everything is guaranteed, that runs and is neither disarmed, rewritten, awaiting its
fallback bank nor held, is executed where the cycle before has ended (R129). -/
theorem exec_cycleStart_executed {d : Dev} {nn : Fin 16} {rest : List Instr} (hu : unitBlk nn ∉ d.undef)
    (hst : 2 ≤ bkState d nn ∧ bkState d nn ≤ 4) (hfree : (d.b nn).resetting = false ∧ (d.b nn).repouring = false)
    (hcyc : (d.b nn).inCycle = false ∧ (d.b nn).disarm = false ∧ (d.b nn).rewrite = false ∧ (d.b nn).awaitBank = false)
    (hhold : d.bit Pstat.HOLD nn = false) :
    exec (.cycleStart nn) ⟨rest, d⟩ = .next ⟨rest, cycleExec (d.onB nn fun b => { b with cycT := some d.clk }) nn⟩ := by
  obtain ⟨hlo, hhi⟩ := hst
  obtain ⟨hreset, hpour⟩ := hfree
  obtain ⟨hin, hdis, hrew, hawait⟩ := hcyc
  have hst : bkState d nn = 2 ∨ bkState d nn = 3 ∨ bkState d nn = 4 := by omega
  have hb : (d.onB nn fun b => { b with cycT := some d.clk }).b nn = { d.b nn with cycT := some d.clk } := by
    simp [Dev.b, Dev.onB]
  have hs : bkState (d.onB nn fun b => { b with cycT := some d.clk }) nn = bkState d nn := rfl
  have hh : (d.onB nn fun b => { b with cycT := some d.clk }).bit Pstat.HOLD nn = false := hhold
  show execCycleStart nn ⟨rest, d⟩ = _
  rw [execCycleStart, onBlock_known hu]
  simp only [hb, hs, hh, hreset, hpour, hin, hdis, hrew, hawait]
  rcases hst with h | h | h <;> simp [h]

/-- A bank with one slot, droppable, and RATE_MAX 1000 Hz, whose trigger asks for the other bank while value 0 of row 0 lies
below 1 (R128, R130, R136). -/
def droppableBank : BankHdr := ⟨1, 0, 1, true, true, false, 0, 1000, 0, 0, 0, 0, 0, true, 1, 0, 0, 0, 0, 0⟩

/-- A pattern whose block 0 has that bank twice. -/
def droppablePattern : PatImage :=
  ⟨⟨0, 2, 1, 0, 0, 0, 0, 0, 0, 0, 0, 0, 0, 0, 0, 0, 0, true, true, true, true⟩, 4096, 1,
   [⟨3, 0, 1, 0, 0, 0, [], .block ⟨[], 0, droppableBank, droppableBank, [1 <<< 43], [1 <<< 43], [], [], [], false, 0⟩⟩]⟩

/-- Block 0 runs in bank A with its last cycle complete, its domain at 97.6 kHz, and a host SWAP to bank A, the bank in use, is
due. -/
def overspeedSwapToSameBank : Dev :=
  (({ (((State.reset.dev.put Start.STAGE () 5).put TwStat.ROLE () 0).put BkStat.STATE 0 3).put Rctl.TRIG_EN 0 1 with
      rstN := true, clk := 4096, pat := some droppablePattern }.flag PdStat.VALID 0).onPd 0 fun x =>
        { x with seg := ⟨0, 0, 2 ^ 20, 1⟩ }).onB 0 fun b => { b with swHost := some false }

/-- Refutes O29: the request for the bank in use goes, the cycle starts in overspeed and its only slot, a droppable one, is
skipped; that was the last slot, so the trigger is evaluated (R136) and its request for bank B stands after the cycle start,
where the statement has none. -/
theorem not_cycleStarts : ¬ Obligations.CycleStarts := by
  unfold Obligations.CycleStarts
  intro h
  let d := overspeedSwapToSameBank
  obtain ⟨-, -, -, hrun⟩ := h d 0 (by decide +kernel)
  obtain ⟨-, -, hfree, -⟩ := hrun (by decide +kernel) (by decide +kernel) (by decide +kernel) (by decide +kernel)
  obtain ⟨-, -, -, -, -, hsame⟩ := hfree (by decide +kernel) (by decide +kernel) (by decide +kernel) (by decide +kernel)
  have hdone := hsame false (by decide +kernel) (Or.inl (by decide +kernel)) (Or.inl (by decide +kernel))
  have hexec : exec (.cycleStart 0) ⟨[], d⟩ = .next ⟨[], cycleExec (d.onB 0 fun b => { b with cycT := some d.clk }) 0⟩ :=
    exec_cycleStart_executed (by decide +kernel) (by decide +kernel) (by decide +kernel) (by decide +kernel) (by decide +kernel)
  obtain ⟨-, -, -, htrig, -⟩ := hdone.of_exec hexec
  exact absurd htrig (by decide +kernel)

end Sys2Proof.Machine

/-! ### Frames: what the named updates leave of registers and blocks -/

namespace Sys2Proof.Machine

namespace Dev

variable {ι κ : Type} (d : Dev) (f : RF ι) (i : ι) (g : RF κ) (j : κ)

@[simp] theorem fld_clr : (d.clr f i).fld g j = (d.put f i 0).fld g j := rfl
@[simp] theorem fld_putB (b : Bool) : (d.putB f i b).fld g j = (d.put f i b.toNat).fld g j := rfl

/-- What a write to a field makes of its register depends on that register alone. -/
theorem reg_put_congr {d x : Dev} {f : RF ι} {i : ι} {v : Nat} (h : x.reg (f.addr i) = d.reg (f.addr i)) :
    (x.put f i v).reg (f.addr i) = (d.put f i v).reg (f.addr i) := by
  simp [put, h]

theorem bit_eq : d.bit f i = (d.fld f i != 0) := rfl

/-- A one-bit field holds the truth value written. -/
theorem bit_putB_self (b : Bool) (h : f.lo + f.len ≤ 32) (hl : f.len = 1) : (d.putB f i b).bit f i = b := by
  cases b <;> simp [bit_eq, fld_put_self _ _ _ _ h, hl]

/-- A flag set reads as set. -/
theorem bit_flag_self (h : f.lo + f.len ≤ 32) (hl : f.len = 1) : (d.flag f i).bit f i = true := bit_putB_self d f i true h hl

/-- A flag cleared reads as clear. -/
theorem bit_clr_self (h : f.lo + f.len ≤ 32) : (d.clr f i).bit f i = false := by
  simp [bit_eq, fld_put_self _ _ _ _ h]

@[simp] theorem b_onB_self (nn : Fin 16) (u : Blk → Blk) : (d.onB nn u).b nn = u (d.b nn) := by simp [b, onB]

theorem b_onB_ne (nn k : Fin 16) (u : Blk → Blk) (h : k ≠ nn) : (d.onB nn u).b k = d.b k := by simp [b, onB, vget_vmod_ne _ _ _ _ h]

end Dev

/-! #### Only some registers -/

section OnlyRegs

variable {as bs : List Nat} {d x y : Dev} {ι : Type} {f : RF ι} {i : ι}

theorem OnlyRegs.refl : OnlyRegs as d d := ⟨rfl, fun _ _ => rfl⟩

theorem OnlyRegs.mono (h : OnlyRegs as d x) (hs : as ⊆ bs) : OnlyRegs bs d x := ⟨h.1, fun a ha => h.2 a fun hin => ha (hs hin)⟩

theorem OnlyRegs.trans (h1 : OnlyRegs as d x) (h2 : OnlyRegs as x y) : OnlyRegs as d y :=
  ⟨h2.1.trans (congrArg (fun z : Dev => { z with regs := y.regs, hw := y.hw }) h1.1), fun a ha => (h2.2 a ha).trans (h1.2 a ha)⟩

theorem OnlyRegs.reg (h : OnlyRegs as d x) {a : Nat} (ha : a ∉ as) : x.reg a = d.reg a := h.2 a ha

theorem OnlyRegs.fld (h : OnlyRegs as d x) (ha : f.addr i ∉ as) : x.fld f i = d.fld f i := by
  simp only [Dev.fld, h.reg ha]

theorem OnlyRegs.bit (h : OnlyRegs as d x) (ha : f.addr i ∉ as) : x.bit f i = d.bit f i := by
  simp only [Dev.bit, h.fld ha]

theorem OnlyRegs.blk (h : OnlyRegs as d x) : x.blk = d.blk := (congrArg Dev.blk h.1 :)
theorem OnlyRegs.pat (h : OnlyRegs as d x) : x.pat = d.pat := (congrArg Dev.pat h.1 :)
theorem OnlyRegs.evq (h : OnlyRegs as d x) : x.evq = d.evq := (congrArg Dev.evq h.1 :)
theorem OnlyRegs.redo (h : OnlyRegs as d x) : x.redo = d.redo := (congrArg Dev.redo h.1 :)
theorem OnlyRegs.b (h : OnlyRegs as d x) (k : Fin 16) : x.b k = d.b k := by simp only [Dev.b, h.blk]

theorem onlyRegs_setReg {a : Nat} {w : Word} (ha : a ∈ as) : OnlyRegs as d (d.setReg a w) :=
  ⟨rfl, fun _ hb => Dev.reg_setReg_ne _ _ _ _ fun e => hb (e ▸ ha)⟩

variable (ha : f.addr i ∈ as)
include ha

theorem onlyRegs_put {v : Nat} : OnlyRegs as d (d.put f i v) := onlyRegs_setReg ha
theorem onlyRegs_clr : OnlyRegs as d (d.clr f i) := onlyRegs_put ha
theorem onlyRegs_putB {b : Bool} : OnlyRegs as d (d.putB f i b) := onlyRegs_put ha
theorem onlyRegs_flag : OnlyRegs as d (d.flag f i) := ⟨rfl, (onlyRegs_put (v := 1) ha).2⟩
theorem onlyRegs_inc : OnlyRegs as d (d.inc f i) := ⟨rfl, (onlyRegs_put (v := d.fld f i + 1) ha).2⟩
theorem onlyRegs_mCfg {w : Word} : OnlyRegs as d (mCfg d f i w) := onlyRegs_put ha

end OnlyRegs

/-! #### Only some registers and one block -/

section OnlyBlock

variable {as : List Nat} {d x y : Dev} {nn : Fin 16} {ι : Type} {f : RF ι} {i : ι}

theorem OnlyRegs.onlyBlock (h : OnlyRegs as d x) : OnlyBlock nn as d x :=
  ⟨h.1.trans (by rw [h.blk, h.evq]), h.2, fun k _ => h.b k⟩

theorem OnlyBlock.trans (h1 : OnlyBlock nn as d x) (h2 : OnlyBlock nn as x y) : OnlyBlock nn as d y :=
  ⟨h2.1.trans (congrArg (fun z : Dev => { z with regs := y.regs, hw := y.hw, blk := y.blk, evq := y.evq }) h1.1),
    fun a ha => (h2.2.1 a ha).trans (h1.2.1 a ha), fun k hk => (h2.2.2 k hk).trans (h1.2.2 k hk)⟩

theorem onlyBlock_onB {u : Blk → Blk} : OnlyBlock nn as d (d.onB nn u) :=
  ⟨rfl, fun _ _ => rfl, fun _ hk => Dev.b_onB_ne _ _ _ _ hk⟩

end OnlyBlock

/-! #### The command bits that a master writes (R93) -/

/-- Bit i counts as written 1 where both it and its mask bit are 1. -/
theorem mOnes_testBit (w : Word) (i : Nat) (hi : i < 16) : (mOnes w).testBit i = (w.getLsbD i && w.getLsbD (i + 16)) := by
  rw [mOnes, mMask, Nat.testBit_and, show 65536 = 2 ^ 16 by rfl, Nat.testBit_mod_two_pow, Nat.testBit_div_two_pow, Nat.add_comm i 16,
    BitVec.testBit_toNat, BitVec.testBit_toNat]
  simp [hi]

end Sys2Proof.Machine

/-! ### Host swap, set-points and the segment ring (R140, R141, R153, R235, R240) -/

namespace Sys2Proof.Machine

/-- What a write to BKnn.RCTL does before its SWAP is judged (R141, R153): TARGET and TRIG_EN, and LCLR. -/
def rctlSet (d : Dev) (nn : Fin 16) (w : Word) : Dev :=
  let c := mCfg (mCfg d Rctl.TARGET nn w) Rctl.TRIG_EN nn w
  if (mOnes w).testBit 3 then (c.clr Rlate.MAXLATE nn).clr Rctl.LCLR nn else c

theorem rctlWrite_swap {d : Dev} {nn : Fin 16} {wait : Bool} {w : Word} (h : (mOnes w).testBit 0 = true) :
    rctlWrite d nn wait w = hostSwap (rctlSet d nn w) nn wait := by
  simp [rctlWrite, rctlSet, h]

theorem rctlWrite_noSwap {d : Dev} {nn : Fin 16} {wait : Bool} {w : Word} (h : (mOnes w).testBit 0 = false) :
    rctlWrite d nn wait w = rctlSet d nn w := by
  simp [rctlWrite, rctlSet, h]

theorem rctlSet_onlyRegs (d : Dev) (nn : Fin 16) (w : Word) : OnlyRegs [Rctl.addr nn, Rlate.addr nn] d (rctlSet d nn w) := by
  have hcfg : OnlyRegs [Rctl.addr nn, Rlate.addr nn] d (mCfg (mCfg d Rctl.TARGET nn w) Rctl.TRIG_EN nn w) :=
    (onlyRegs_mCfg (by simp [Rctl.TARGET])).trans (onlyRegs_mCfg (by simp [Rctl.TRIG_EN]))
  unfold rctlSet
  split
  · exact hcfg.trans ((onlyRegs_clr (by simp [Rlate.MAXLATE])).trans (onlyRegs_clr (by simp [Rctl.LCLR])))
  · exact hcfg

theorem rctlHost_alone {d : Dev} {h : Master} {nn : Fin 16} {w : Word} {rest : List Instr}
    (ha : Alone d h (Rctl.addr nn) (unitBlk nn)) (hr : mRsv 0xFFF0 w = 0) :
    rctlHost ⟨rest, d⟩ h nn w = .next ⟨rest, rctlWrite d nn ((mirBits d (Rctl.addr nn)).testBit 0) w⟩ := by
  obtain ⟨hreach, hrole⟩ := ha
  rw [rctlHost, hostW_reaches hreach (by simp) hr]
  simp [mirHost_alone hrole]

theorem exec_swap (h : Master) (nn : Fin 16) (w : Word) (s : State) : exec (.swap h nn w) s = rctlHost s h nn (ownM 0 w) := by rfl

theorem exec_lclr (h : Master) (nn : Fin 16) (w : Word) (s : State) : exec (.lclr h nn w) s = rctlHost s h nn (ownM 3 w) := by rfl

/-- The bank headers come from the pattern alone. -/
theorem hdrOf_congr {d x : Dev} (h : x.pat = d.pat) : hdrOf x = hdrOf d := by
  funext nn b
  simp only [hdrOf, secOf, h]

/-- A host SWAP is judged by what a write to RCTL and RLATE leaves alone: the block, its state, its pattern and its domains. -/
theorem hostSwap_of_onlyRegs {d x : Dev} {nn : Fin 16} {wait : Bool} (h : OnlyRegs [Rctl.addr nn, Rlate.addr nn] d x) :
    hostSwap x nn wait =
      let t := x.bit Rctl.TARGET nn
      if (d.b nn).swHost.isSome || wait then x.flag Rstat.SWAP_REF nn
      else if 2 ≤ d.fld BkStat.STATE nn ∧ t = curBank d nn then x.clr Rctl.SWAP nn
      else if d.fld BkStat.STATE nn = 0 ∨ (d.b nn).repouring ∨ !(hdrOf d nn t).valid ∨
          (d.fld BkStat.STATE nn ≠ 1 ∧ !domValid d (hdrOf d nn t).domain) then (x.clr Rctl.SWAP nn).flag Rstat.SWAP_REF nn
      else if d.fld BkStat.STATE nn = 1 then
        let y := (x.clr Rctl.SWAP nn).onB nn fun b => { b with hostStart := some t }
        if d.bit BkCtl.ARM nn then armChoose y nn else y
      else setSwapPend ((x.flag Rctl.SWAP nn).onB nn fun b => { b with swHost := some t, swWait := !b.inCycle }) nn := by
  have hst : bkState x nn = d.fld BkStat.STATE nn := h.fld (by simp [BkStat.STATE, BkStat.addr, Rctl.addr, Rlate.addr])
  have hbank : curBank x nn = curBank d nn := h.bit (by simp [BkStat.BANK, BkStat.addr, Rctl.addr, Rlate.addr])
  have hdom (k : Fin 8) : domValid x k = domValid d k := h.bit (by
    simp [PdStat.VALID, PdStat.addr, Rctl.addr, Rlate.addr, blockBase]; omega)
  have harm (u : Blk → Blk) : ((x.clr Rctl.SWAP nn).onB nn u).bit BkCtl.ARM nn = d.bit BkCtl.ARM nn :=
    (h.trans (onlyRegs_clr (f := Rctl.SWAP) (by simp [Rctl.SWAP]))).bit (by simp [BkCtl.ARM, BkCtl.addr, Rctl.addr, Rlate.addr])
  simp only [hostSwap, hst, hbank, hdom, h.b, hdrOf_congr h.pat, harm]

theorem setSwapPend_onlyRegs (d : Dev) (nn : Fin 16) : OnlyRegs [Rstat.addr nn] d (setSwapPend d nn) :=
  (onlyRegs_putB (by simp [Rstat.SWAP_PEND])).trans (onlyRegs_putB (by simp [Rstat.PEND_TGT]))

/-- SWAP_PEND and PEND_TGT show a pending host request, behind a return that is pending (R137). -/
theorem setSwapPend_host {d : Dev} {nn : Fin 16} {t : Bool} (h : (d.b nn).swHost = some t) :
    (setSwapPend d nn).bit Rstat.SWAP_PEND nn = true ∧ (setSwapPend d nn).bit Rstat.PEND_TGT nn = (d.b nn).swFall.getD t := by
  have hset (y : Dev) (v : Bool) : (y.putB Rstat.PEND_TGT nn v).bit Rstat.SWAP_PEND nn = y.bit Rstat.SWAP_PEND nn := by
    simp only [Dev.bit_eq, Dev.fld_putB, Dev.fld_put_bits y Rstat.PEND_TGT nn Rstat.SWAP_PEND nn _ (by decide) (by decide)]
  cases hf : (d.b nn).swFall <;>
    simp [setSwapPend, hf, h, hset, Dev.bit_putB_self _ _ _ _ (show Rstat.SWAP_PEND.lo + Rstat.SWAP_PEND.len ≤ 32 by decide) rfl,
      Dev.bit_putB_self _ _ _ _ (show Rstat.PEND_TGT.lo + Rstat.PEND_TGT.len ≤ 32 by decide) rfl]

/-- A host request that is taken up: SWAP stands, the request is the block's, and RSTAT shows it (R137, R140). -/
theorem swapTakenUp {d x : Dev} {nn : Fin 16} {t : Bool} (h : OnlyRegs [Rctl.addr nn, Rlate.addr nn] d x) :
    let u := setSwapPend ((x.flag Rctl.SWAP nn).onB nn fun b => { b with swHost := some t, swWait := !b.inCycle }) nn
    OnlyBlock nn [Rctl.addr nn, Rlate.addr nn, Rstat.addr nn] d u ∧ u.evq = d.evq ∧
      u.b nn = { d.b nn with swHost := some t, swWait := !(d.b nn).inCycle } ∧ u.bit Rctl.SWAP nn = true ∧
      u.bit Rstat.SWAP_PEND nn = true ∧ u.bit Rstat.PEND_TGT nn = ((d.b nn).swFall.getD t) := by
  intro u
  let y := (x.flag Rctl.SWAP nn).onB nn fun b => { b with swHost := some t, swWait := !b.inCycle }
  have hy : y.b nn = { d.b nn with swHost := some t, swWait := !(d.b nn).inCycle } := by
    rw [← h.b nn]
    exact Dev.b_onB_self _ _ _
  have hu := setSwapPend_onlyRegs y nn
  have hflag : OnlyRegs [Rctl.addr nn, Rlate.addr nn] x (x.flag Rctl.SWAP nn) := onlyRegs_flag (by simp [Rctl.SWAP])
  obtain ⟨hpend, htgt⟩ := setSwapPend_host (d := y) (nn := nn) (t := t) (by rw [hy])
  refine ⟨?_, hu.evq.trans h.evq, (hu.b nn).trans hy, ?_, hpend, ?_⟩
  · exact (((h.trans hflag).mono (by simp)).onlyBlock.trans onlyBlock_onB).trans (hu.mono (by simp)).onlyBlock
  · rw [hu.bit (by simp [Rctl.SWAP, Rctl.addr, Rstat.addr])]
    exact Dev.bit_flag_self x Rctl.SWAP nn (by decide) rfl
  · rw [hy] at htgt
    exact htgt

/-- A row's own command bit b is written 1 with its mask bit (assumption log 13). -/
theorem ownM_getLsbD (b : Fin 16) (w : Word) (i : Fin 32) :
    (ownM b.val w).getLsbD i.val = (w.getLsbD i.val || (i.val == b.val || i.val == b.val + 16)) := by
  have hbits : ∀ (b : Fin 16) (i : Fin 32),
      (BitVec.ofNat 32 (2 ^ b.val + 2 ^ (b.val + 16))).getLsbD i.val = (i.val == b.val || i.val == b.val + 16) := by decide
  rw [ownM, BitVec.getLsbD_or, hbits]

/-- So the command b is written. -/
theorem mOnes_ownM_self (b : Fin 16) (w : Word) : (mOnes (ownM b.val w)).testBit b.val = true := by
  rw [mOnes_testBit _ _ b.isLt, ownM_getLsbD b w ⟨b.val, by omega⟩, ownM_getLsbD b w ⟨b.val + 16, by omega⟩]
  simp

/-- Where the command b is written already, the row's own bit adds nothing. -/
theorem ownM_of_testBit {b : Fin 16} {v : Word} (h : (mOnes v).testBit b.val = true) : ownM b.val v = v := by
  rw [mOnes_testBit _ _ b.isLt, Bool.and_eq_true] at h
  obtain ⟨hbit, hmask⟩ := h
  refine BitVec.eq_of_getLsbD_eq fun i hi => ?_
  rw [ownM_getLsbD b v ⟨i, hi⟩]
  rcases eq_or_ne i b.val with rfl | hne
  · simp [hbit]
  · rcases eq_or_ne i (b.val + 16) with rfl | hne'
    · simp [hmask]
    · simp [hne, hne']

end Sys2Proof.Machine

namespace Sys2Proof.Machine

/-! #### Changes made for every index, and commands written again (R10) -/

/-- A change made for every index in turn: what holds before the first and is passed on by each holds after the last. -/
theorem forAll_induction {n : Nat} {d : Dev} {f : Dev → Fin n → Dev} (P : Nat → Dev → Prop) (h0 : P 0 d)
    (hs : ∀ (i : Fin n) (x : Dev), P i.val x → P (i.val + 1) (f x i)) : P n (forAll d f) := by
  have hk : ∀ k ≤ n, P k (((List.finRange n).take k).foldl f d) := by
    intro k
    induction k with
    | zero => exact fun _ => h0
    | succ k ih =>
      intro hk
      rw [List.take_add_one, List.foldl_append, List.getElem?_eq_getElem (by simpa using hk), List.getElem_finRange]
      exact hs ⟨k, hk⟩ _ (ih (by omega))
  have hn := hk n le_rfl
  rwa [List.take_of_length_le (by simp)] at hn

theorem vset_vset {α : Type} {n : Nat} (v : Vector α n) (i : Fin n) (x y : α) : vset (vset v i x) i y = vset v i y := by
  simp [vset]

theorem Dev.onB_onB (d : Dev) (nn : Fin 16) (u v : Blk → Blk) : (d.onB nn u).onB nn v = d.onB nn fun b => v (u b) := by
  simp [Dev.onB, vmod, vset_vset]

/-- A change of a block that changes nothing. -/
theorem Dev.onB_same {d : Dev} {nn : Fin 16} {u : Blk → Blk} (h : u (d.b nn) = d.b nn) : d.onB nn u = d := by
  have hv : vmod d.blk nn u = d.blk := by
    rw [vmod, show u (vget d.blk nn) = vget d.blk nn from h]
    simp [vset, vget]
  rw [Dev.onB, hv]

/-- A one-bit field is a bit of its register. -/
theorem Dev.bit_eq_testBit {ι : Type} (d : Dev) (f : RF ι) (i : ι) (hl : f.len = 1) :
    d.bit f i = (d.reg (f.addr i)).toNat.testBit f.lo := by
  have hmod : d.fld f i = (d.reg (f.addr i)).toNat / 2 ^ f.lo % 2 := by
    simp [Dev.fld, fget, hl, BitVec.extractLsb'_toNat, Nat.shiftRight_eq_div_pow]
  rw [Dev.bit, hmod, Nat.testBit_eq_decide_div_mod_eq]
  rcases Nat.mod_two_eq_zero_or_one ((d.reg (f.addr i)).toNat / 2 ^ f.lo) with h | h <;> simp [h]

/-- Command bits written while none of them stands: nothing runs again (R10). -/
theorem Dev.cmdAgain_of_clear {d : Dev} {a v : Nat} (h : v &&& (d.reg a).toNat = 0) :
    d.cmdAgain a v = { d with redo := (a, 0) :: d.redo } := by
  simp [Dev.cmdAgain, h]

theorem Dev.cmdDone_of_noRedo {ι : Type} {d : Dev} {f : RF ι} {i : ι} (h : d.cmdRedo f i = false) : d.cmdDone f i = d.clr f i := by
  simp [Dev.cmdDone, h]

/-- An entry without bits makes no command run again. -/
theorem Dev.cmdRedo_consZero {ι : Type} (d : Dev) (f : RF ι) (i : ι) (a : Nat) :
    ({ d with redo := (a, 0) :: d.redo } : Dev).cmdRedo f i = d.cmdRedo f i := by
  simp [Dev.cmdRedo]

theorem Dev.reg_inc_congr {ι : Type} {d x : Dev} {f : RF ι} {i : ι} (h : x.reg (f.addr i) = d.reg (f.addr i)) :
    (x.inc f i).reg (f.addr i) = (d.inc f i).reg (f.addr i) := by
  show (x.put f i (x.fld f i + 1)).reg (f.addr i) = (d.put f i (d.fld f i + 1)).reg (f.addr i)
  simp [Dev.put, Dev.fld, h]

/-! #### COMMIT of the set-points (R235) -/

/-- The live set-points become HSP0 to HSP7. -/
theorem hspCopy_eq (d : Dev) (nn : Fin 16) :
    ∃ v, hspCopy d nn = d.onB nn (fun b => { b with live := v }) ∧ ∀ j : Fin 8, vget v j = BitVec.ofNat 20 (d.fld Hsp.V (nn, j)) := by
  obtain ⟨v, hv, hj⟩ := forAll_induction (d := d)
    (f := fun d (j : Fin 8) => d.onB nn fun b => { b with live := vset b.live j (BitVec.ofNat 20 (d.fld Hsp.V (nn, j))) })
    (fun k x => ∃ v, x = d.onB nn (fun b => { b with live := v }) ∧ ∀ j : Fin 8, j.val < k → vget v j = BitVec.ofNat 20 (d.fld Hsp.V (nn, j)))
    ⟨(d.b nn).live, (Dev.onB_same rfl).symm, fun j hj => absurd hj (by omega)⟩ (by
      rintro i x ⟨v, rfl, hj⟩
      refine ⟨vset v i (BitVec.ofNat 20 (d.fld Hsp.V (nn, i))), Dev.onB_onB _ _ _ _, fun j hlt => ?_⟩
      rcases eq_or_ne j i with rfl | hne
      · simp
      · rw [vget_vset_ne _ _ _ _ hne]
        exact hj j (by omega))
  exact ⟨v, hv, fun j => hj j j.isLt⟩

theorem bkState_flag_commit (d : Dev) (nn : Fin 16) : bkState (d.flag HspCtl.COMMIT nn) nn = d.fld BkStat.STATE nn :=
  (onlyRegs_flag (as := [HspCtl.addr nn]) (by simp [HspCtl.COMMIT])).fld (by simp [BkStat.STATE, BkStat.addr, HspCtl.addr])

/-- A COMMIT of a running block waits for its next cycle start. -/
theorem hspCtlWrite_running {d : Dev} {nn : Fin 16} (h : 2 ≤ d.fld BkStat.STATE nn ∧ d.fld BkStat.STATE nn ≤ 4) :
    hspCtlWrite d nn 1 = (d.cmdAgain (HspCtl.addr nn) 1).flag HspCtl.COMMIT nn := by
  have hst : bkState ((d.cmdAgain (HspCtl.addr nn) 1).flag HspCtl.COMMIT nn) nn = d.fld BkStat.STATE nn := bkState_flag_commit _ nn
  have h234 : d.fld BkStat.STATE nn = 2 ∨ d.fld BkStat.STATE nn = 3 ∨ d.fld BkStat.STATE nn = 4 := by omega
  simp only [hspCtlWrite, hst, if_pos h234]
  rfl

/-- A COMMIT carried out at once, with none standing and none written again in this clk. -/
theorem hspCtlWrite_held {d : Dev} {nn : Fin 16} (h : d.fld BkStat.STATE nn < 2) (hc : d.bit HspCtl.COMMIT nn = false)
    (hr : d.cmdRedo HspCtl.COMMIT nn = false) :
    hspCtlWrite d nn 1 =
      ((hspCopy ({ d with redo := (HspCtl.addr nn, 0) :: d.redo }.flag HspCtl.COMMIT nn) nn).clr HspCtl.COMMIT nn).inc Kstat.COMMITS nn := by
  let y : Dev := { d with redo := (HspCtl.addr nn, 0) :: d.redo }.flag HspCtl.COMMIT nn
  have hnone : 1 &&& (d.reg (HspCtl.addr nn)).toNat = 0 := by
    rw [Dev.bit_eq_testBit _ _ _ rfl] at hc
    rw [show (1 : Nat) = 2 ^ 0 from rfl, Nat.two_pow_and]
    simp [show (d.reg (HspCtl.addr nn)).toNat.testBit 0 = false from hc]
  have hst : bkState y nn = d.fld BkStat.STATE nn := bkState_flag_commit _ nn
  have hne : ¬ (d.fld BkStat.STATE nn = 2 ∨ d.fld BkStat.STATE nn = 3 ∨ d.fld BkStat.STATE nn = 4) := by omega
  have hstand : y.bit HspCtl.COMMIT nn = true := Dev.bit_flag_self _ _ _ (by decide) rfl
  have hredo : (hspCopy y nn).cmdRedo HspCtl.COMMIT nn = false := by
    obtain ⟨v, hv, -⟩ := hspCopy_eq y nn
    rw [hv]
    exact (Dev.cmdRedo_consZero d _ _ _).trans hr
  have hdone : hspCommit y nn = ((hspCopy y nn).clr HspCtl.COMMIT nn).inc Kstat.COMMITS nn := by
    rw [hspCommit, Dev.cmdDone_of_noRedo hredo]
  have hgone : (hspCommit y nn).bit HspCtl.COMMIT nn = false := by
    rw [hdone, (onlyRegs_inc (as := [Kstat.addr nn]) (by simp [Kstat.COMMITS])).bit (by simp [HspCtl.COMMIT, HspCtl.addr, Kstat.addr])]
    exact Dev.bit_clr_self _ _ _ (by decide)
  have hwrite : hspCtlWrite d nn 1 = hspHeld y nn := by
    simp only [hspCtlWrite, Dev.cmdAgain_of_clear hnone]
    show (if bkState y nn = 2 ∨ bkState y nn = 3 ∨ bkState y nn = 4 then y else hspHeld y nn) = _
    rw [hst, if_neg hne]
  rw [hwrite, hspHeld, if_pos hstand]
  exact (if_neg (by simp [hgone])).trans hdone

/-- What that COMMIT leaves. -/
theorem hspCommit_held_effect (d : Dev) (nn : Fin 16) :
    let t := ((hspCopy (d.flag HspCtl.COMMIT nn) nn).clr HspCtl.COMMIT nn).inc Kstat.COMMITS nn
    OnlyBlock nn [HspCtl.addr nn, Kstat.addr nn] d t ∧ t.evq = d.evq ∧ t.bit HspCtl.COMMIT nn = false ∧
      t.b nn = { d.b nn with live := (t.b nn).live } ∧ t.reg (Kstat.addr nn) = (d.inc Kstat.COMMITS nn).reg (Kstat.addr nn) ∧
      ∀ j : Fin 8, vget (t.b nn).live j = BitVec.ofNat 20 (d.fld Hsp.V (nn, j)) := by
  intro t
  obtain ⟨v, hv, hlive⟩ := hspCopy_eq (d.flag HspCtl.COMMIT nn) nn
  let y := (d.flag HspCtl.COMMIT nn).onB nn fun b => { b with live := v }
  have ht : t = (y.clr HspCtl.COMMIT nn).inc Kstat.COMMITS nn := by simp only [t, hv, y]
  have hflag : OnlyRegs [HspCtl.addr nn] d (d.flag HspCtl.COMMIT nn) := onlyRegs_flag (by simp [HspCtl.COMMIT])
  have hclr : OnlyRegs [HspCtl.addr nn] y (y.clr HspCtl.COMMIT nn) := onlyRegs_clr (by simp [HspCtl.COMMIT])
  have hinc : OnlyRegs [Kstat.addr nn] (y.clr HspCtl.COMMIT nn) t := ht ▸ onlyRegs_inc (by simp [Kstat.COMMITS])
  have hb : t.b nn = { d.b nn with live := v } := by
    rw [hinc.b, hclr.b, Dev.b_onB_self, hflag.b]
  refine ⟨?_, ?_, ?_, by rw [hb], ?_, fun j => ?_⟩
  · exact ((((hflag.mono (by simp)).onlyBlock.trans onlyBlock_onB).trans (hclr.mono (by simp)).onlyBlock).trans
      (hinc.mono (by simp)).onlyBlock)
  · exact hinc.evq.trans hclr.evq
  · rw [hinc.bit (by simp [HspCtl.COMMIT, HspCtl.addr, Kstat.addr])]
    exact Dev.bit_clr_self _ _ _ (by decide)
  · rw [ht]
    refine Dev.reg_inc_congr (f := Kstat.COMMITS) (i := nn) ?_
    exact (hclr.reg (by simp [Kstat.COMMITS, Kstat.addr, HspCtl.addr])).trans (hflag.reg (by simp [Kstat.COMMITS, Kstat.addr, HspCtl.addr]))
  · rw [hb]
    refine (hlive j).trans (congrArg _ ?_)
    exact hflag.fld (by simp [Hsp.V, Hsp.addr, HspCtl.addr]; omega)

theorem exec_hspCommit_alone {d : Dev} {h : Master} {nn : Fin 16} {w : Word} (ha : Alone d h (HspCtl.addr nn) (unitBlk nn))
    (hr : mRsv 0xFFFE w = 0) : Gives (.hspCommit h nn w) d (hspCtlWrite d nn 1) := by
  intro rest
  show execHspCommit h nn w ⟨rest, d⟩ = _
  rw [execHspCommit, hostW_reaches ha.1 (by simp) hr]
  simp [mirHost_alone ha.2]

/-! #### The segment ring (R240) -/

theorem exec_segwrWrite_alone {d : Dev} {h : Master} {nn : Fin 16} {w : Word} (ha : Alone d h (SegWr.addr nn) (unitBlk nn))
    (hr : wRsv 0xFFFFFFC0 w = 0) : Gives (.segwrWrite h nn w) d (segwrDo d nn (w.toNat % 64)) := by
  intro rest
  show execSegwrWrite h nn w ⟨rest, d⟩ = _
  rw [execSegwrWrite, hostW_reaches ha.1 (by simp) hr]
  simp [mirHost_alone ha.2]

theorem exec_segmentWrite_alone {d : Dev} {h : Master} {nn : Fin 16} {g : Fin 32} {i : Fin 8} {w : Word}
    (ha : Alone d h (Seg.addr (nn, g, i)) (unitBlk nn)) : Gives (.segmentWrite h nn g i w) d (segmentDo d nn g i w) := by
  intro rest
  show execSegmentWrite h nn g i w ⟨rest, d⟩ = _
  rw [execSegmentWrite, hostCmd_reaches ha.1 (by simp)]
  simp [mirHost_alone ha.2]

/-- Settles O23: each write goes to its own rule of the model, whose cases are those of the statement. -/
theorem swapsSetPointsAndSegments : Obligations.SwapsSetPointsAndSegments := by
  unfold Obligations.SwapsSetPointsAndSegments
  refine ⟨?swap, ?lclr, ?commit, ?segwr, fun d h nn g i w ha => exec_segmentWrite_alone ha⟩
  case swap =>
    intro d h nn w ha hr c x t used wait no
    have hx : OnlyRegs [Rctl.addr nn, Rlate.addr nn] d x := rctlSet_onlyRegs d nn (ownM 0 w)
    have hown : (mOnes (ownM 0 w)).testBit 0 = true := mOnes_ownM_self 0 w
    have hexec : Gives (.swap h nn w) d (hostSwap x nn ((mirBits d (Rctl.addr nn)).testBit 0)) := fun rest => by
      rw [exec_swap, rctlHost_alone ha hr, rctlWrite_swap hown]
      rfl
    rw [hostSwap_of_onlyRegs hx] at hexec
    have hwait : ((d.b nn).swHost.isSome || (mirBits d (Rctl.addr nn)).testBit 0) = true ↔ wait := by simp [wait]
    have hno : (d.fld BkStat.STATE nn = 0 ∨ (d.b nn).repouring = true ∨ (!(hdrOf d nn (x.bit Rctl.TARGET nn)).valid) = true ∨
        (d.fld BkStat.STATE nn ≠ 1 ∧ (!domValid d (hdrOf d nn (x.bit Rctl.TARGET nn)).domain) = true)) ↔ no := by simp [no, t]
    simp only [hwait, hno] at hexec
    refine ⟨fun h1 => ?_, fun h1 h2 => ?_, fun h1 h2 h3 => ?_, fun h1 h2 h3 h4 => ?_, fun h1 h2 h3 h4 => ?_⟩
    · rwa [if_pos h1] at hexec
    · rwa [if_neg h1, if_pos h2] at hexec
    · rwa [if_neg h1, if_neg h2, if_pos h3] at hexec
    · rwa [if_neg h1, if_neg h2, if_neg h3, if_pos h4] at hexec
    · rw [if_neg h1, if_neg h2, if_neg h3, if_neg h4] at hexec
      exact hexec.completes (swapTakenUp hx)
  case lclr =>
    intro d h nn w ha hr
    split
    · next hswap =>
      intro rest
      rw [exec_lclr, exec_swap]
      exact congrArg _ (ownM_of_testBit (b := 0) hswap).symm
    · next hswap =>
      have hown : (mOnes (ownM 3 w)).testBit 3 = true := mOnes_ownM_self 3 w
      intro rest
      rw [exec_lclr, rctlHost_alone ha hr, rctlWrite_noSwap (by simpa using hswap), rctlSet, if_pos hown]
  case commit =>
    intro d h nn w ha hr
    refine ⟨fun hlo hhi => ?_, fun hst hc hredo => ?_⟩
    · rw [← hspCtlWrite_running ⟨hlo, hhi⟩]
      exact exec_hspCommit_alone ha hr
    · refine (exec_hspCommit_alone ha hr).completes ?_
      rw [hspCtlWrite_held hst hc hredo]
      exact hspCommit_held_effect _ nn
  case segwr =>
    intro d h nn w ha hr
    exact exec_segwrWrite_alone ha hr

end Sys2Proof.Machine

/-! ### Kernel commands: which of one write are refused (R232) -/

namespace Sys2Proof.Machine

/-- The six kernel commands are writes to KCm.CTL with their own bit. -/
theorem exec_kernelCommand {c : Instr} {h : Master} {nn : Fin 16} {m : Fin 12} {w : Word} {b : Fin 6}
    (hc : (c = .goman h nn m w ∧ b = 0) ∨ (c = .goauto h nn m w ∧ b = 1) ∨ (c = .pload h nn m w ∧ b = 2) ∨
      (c = .preset h nn m w ∧ b = 3) ∨ (c = .snap h nn m w ∧ b = 4) ∨ (c = .fclr h nn m w ∧ b = 5)) (s : State) :
    exec c s = kCtlHost s h (nn, m) (ownM b.val w) := by
  rcases hc with ⟨rfl, rfl⟩ | ⟨rfl, rfl⟩ | ⟨rfl, rfl⟩ | ⟨rfl, rfl⟩ | ⟨rfl, rfl⟩ | ⟨rfl, rfl⟩ <;> rfl

theorem kCtlHost_alone {d : Dev} {h : Master} {k : KIx} {w : Word} {rest : List Instr} (ha : Alone d h (KcCtl.addr k) (unitBlk k.1))
    (hr : mRsv 0xFFC0 w = 0) : kCtlHost ⟨rest, d⟩ h k w = .next ⟨rest, kCtlWrite d k (mOnes w % 64) false⟩ := by
  rw [kCtlHost, hostW_reaches ha.1 (by simp) hr]
  simp [mirHost_alone ha.2]

theorem kCtlHost_shadow {d : Dev} {h : Master} {k : KIx} {w : Word} {rest : List Instr} (ha : Reaches d h (KcCtl.addr k) (unitBlk k.1))
    (hr : mRsv 0xFFC0 w = 0) (hrole : d.fld TwStat.ROLE () = 2) (hc : mOnes w % 64 ≠ 0) :
    kCtlHost ⟨rest, d⟩ h k w = .next ⟨rest, (kRefuse d k 2).inc TwCnt.SHWR ()⟩ := by
  rw [kCtlHost, hostW_reaches ha (by simp) hr]
  simp [mirHost_turned (show 2 ≤ d.fld TwStat.ROLE () by omega), hrole, kCtlWrite, hc]

/-- Command i of a write is refused with REASON 3: in OFF, GOMAN beside GOAUTO, or on a faulted cell without FCLR. -/
def kWrong (d : Dev) (k : KIx) (cmds : Nat) (i : Fin 6) : Bool :=
  cmds.testBit i.val && (d.fld BkStat.STATE k.1 == 0 || (decide (i.val ≤ 1) && cmds.testBit 0 && cmds.testBit 1) ||
    (decide (i.val ≤ 3) && d.bit KcStat.FAULT k && !cmds.testBit 5))

/-- Command i of a write is refused with REASON 1: GOMAN or GOAUTO on a kind without MAN. -/
def kNoMan (d : Dev) (k : KIx) (cmds : Nat) (i : Fin 6) : Bool :=
  cmds.testBit i.val && decide (i.val ≤ 1) && !isController (d.fld KcCfg.KIND k)

theorem testBit_ite_zero (p : Prop) [Decidable p] (m i : Nat) : (if p then m else 0).testBit i = (decide p && m.testBit i) := by
  split <;> simp [*]

/-- The masks by which the model groups the commands, bit by bit. -/
theorem kernelMasks_testBit : ∀ i : Fin 6, (63).testBit i.val = true ∧ (3).testBit i.val = decide (i.val ≤ 1) ∧
    (15).testBit i.val = decide (i.val ≤ 3) := by decide

theorem kCtlBad_wrong (d : Dev) (k : KIx) (cmds : Nat) (i : Fin 6) : (kCtlBad d k cmds).1.testBit i.val = kWrong d k cmds i := by
  obtain ⟨h63, h3, h15⟩ := kernelMasks_testBit i
  simp only [kCtlBad, kWrong, Nat.testBit_and, Nat.testBit_or, testBit_ite_zero, h63, h3, h15]
  grind

theorem kCtlBad_noMan (d : Dev) (k : KIx) (cmds : Nat) (i : Fin 6) : (kCtlBad d k cmds).2.testBit i.val = kNoMan d k cmds i := by
  obtain ⟨-, h3, -⟩ := kernelMasks_testBit i
  simp only [kCtlBad, kNoMan, Nat.testBit_and]
  cases isController (d.fld KcCfg.KIND k) <;> simp [h3]

/-- A number below 64 is zero when its six bits are. -/
theorem eq_zero_iff_bits {x : Nat} (hx : x < 64) : x = 0 ↔ (List.finRange 6).any (fun i => x.testBit i.val) = false := by
  have hall : ∀ x : Fin 64, x.val = 0 ↔ (List.finRange 6).any (fun i => x.val.testBit i.val) = false := by decide
  exact hall ⟨x, hx⟩

theorem kCtlBad_lt {d : Dev} {k : KIx} {cmds : Nat} (h : cmds < 64) : (kCtlBad d k cmds).1 < 64 ∧ (kCtlBad d k cmds).2 < 64 :=
  ⟨Nat.lt_of_le_of_lt Nat.and_le_left h, Nat.lt_of_le_of_lt Nat.and_le_left h⟩

/-- The cell after the refusals of one write (R232): REASON keeps 3 where both reasons occur. -/
def kRefused (d : Dev) (k : KIx) (cmds : Nat) : Dev :=
  let x1 := if (List.finRange 6).any (kNoMan d k cmds) then kRefuse d k 1 else d
  if (List.finRange 6).any (kWrong d k cmds) then kRefuse x1 k 3 else x1

/-- The commands that a write leaves to be carried out, bit by bit. -/
theorem kCtlGood_eq {d : Dev} {k : KIx} {cmds : Nat} (hc : cmds < 64) {good : BitVec 6}
    (hg : ∀ i : Fin 6, good.getLsbD i.val = (cmds.testBit i.val && !kWrong d k cmds i && !kNoMan d k cmds i)) :
    cmds &&& (63 - ((kCtlBad d k cmds).1 ||| (kCtlBad d k cmds).2)) = good.toNat := by
  obtain ⟨h1, h2⟩ := kCtlBad_lt (d := d) (k := k) hc
  refine Nat.eq_of_testBit_eq fun i => ?_
  rw [show 63 - ((kCtlBad d k cmds).1 ||| (kCtlBad d k cmds).2) = 2 ^ 6 - (((kCtlBad d k cmds).1 ||| (kCtlBad d k cmds).2) + 1) by omega,
    Nat.testBit_and, Nat.testBit_two_pow_sub_succ (Nat.or_lt_two_pow h1 h2), Nat.testBit_or, BitVec.testBit_toNat]
  by_cases hi : i < 6
  · rw [hg ⟨i, hi⟩, ← kCtlBad_wrong, ← kCtlBad_noMan]
    simp [hi, Bool.and_assoc]
  · simp [hi, BitVec.getLsbD_of_ge good i (by omega)]

/-- One write to KCm.CTL on a unit that takes it: the refusals, and the commands left, which run at once in HELD. -/
theorem kCtlWrite_eq {d : Dev} {k : KIx} {cmds : Nat} (hc : cmds < 64) (hc0 : cmds ≠ 0) {good : BitVec 6}
    (hg : ∀ i : Fin 6, good.getLsbD i.val = (cmds.testBit i.val && !kWrong d k cmds i && !kNoMan d k cmds i)) :
    kCtlWrite d k cmds false =
      let x := kRefused d k cmds
      let y := (x.cmdAgain (KcCtl.addr k) good.toNat).setReg (KcCtl.addr k) (x.reg (KcCtl.addr k) ||| good.setWidth 32)
      if good = 0 then x else if d.fld BkStat.STATE k.1 = 1 then kPost (kPre y k) k else y := by
  have hmod : cmds % 64 = cmds := Nat.mod_eq_of_lt hc
  obtain ⟨h1, h2⟩ := kCtlBad_lt (d := d) (k := k) hc
  have hx : (if (kCtlBad d k cmds).1 = 0 then (if (kCtlBad d k cmds).2 = 0 then d else kRefuse d k 1)
      else kRefuse (if (kCtlBad d k cmds).2 = 0 then d else kRefuse d k 1) k 3) = kRefused d k cmds := by
    simp only [kRefused, eq_zero_iff_bits h1, eq_zero_iff_bits h2, kCtlBad_wrong, kCtlBad_noMan]
    cases (List.finRange 6).any fun i => kWrong d k cmds i <;> cases (List.finRange 6).any fun i => kNoMan d k cmds i <;> rfl
  have hst (y : Dev) (w : Word) (hy : y = kRefused d k cmds) : ((y.cmdAgain (KcCtl.addr k) good.toNat).setReg (KcCtl.addr k) w).fld BkStat.STATE k.1 =
      d.fld BkStat.STATE k.1 := by
    have href (x : Dev) (r : Nat) : OnlyRegs [KcStat.addr k] x (kRefuse x k r) :=
      (onlyRegs_flag (by simp [KcStat.REF])).trans (onlyRegs_put (by simp [KcStat.REASON]))
    have hx1 : OnlyRegs [KcStat.addr k] d (kRefused d k cmds) := by
      unfold kRefused
      split <;> split
      · exact (href _ _).trans (href _ _)
      · exact href _ _
      · exact href _ _
      · exact OnlyRegs.refl
    rw [Dev.fld_setReg_addr _ _ _ _ _ (by simp [BkStat.STATE, BkStat.addr, KcCtl.addr]; omega)]
    exact hy ▸ hx1.fld (by simp [BkStat.STATE, BkStat.addr, KcStat.addr]; omega)
  have hzero : (good.toNat = 0) = (good = 0) := by simp [BitVec.toNat_eq]
  have hword : BitVec.ofNat 32 good.toNat = good.setWidth 32 := BitVec.eq_of_toNat_eq (by simp)
  simp only [kCtlWrite, hmod, if_neg hc0, hx, kCtlGood_eq hc hg, hst _ _ rfl, hzero, hword]
  rfl

end Sys2Proof.Machine

/-! ### Kernel commands: one carried out in HELD (R232, R246, R247) -/

namespace Sys2Proof.Machine

/-- The command bits of KCm.CTL. -/
def kCmd : Fin 6 → RF KIx
  | 0 => KcCtl.GOMAN | 1 => KcCtl.GOAUTO | 2 => KcCtl.PLOAD | 3 => KcCtl.PRESET | 4 => KcCtl.SNAP | 5 => KcCtl.FCLR

/-- What each command does to its cell. -/
def kAct (b : Fin 6) (d : Dev) (k : KIx) : Dev :=
  match b with
  | 0 => d.flag KcStat.MANSEL k
  | 1 => d.clr KcStat.MANSEL k
  | 2 => kPload d k
  | 3 => d.flag KcStat.PRE k
  | 4 => kSnap d k
  | 5 => kFclr d k

theorem kCmd_addr (b : Fin 6) (k : KIx) : (kCmd b).addr k = KcCtl.addr k ∧ (kCmd b).lo = b.val ∧ (kCmd b).len = 1 := by
  match b with
  | 0 | 1 | 2 | 3 | 4 | 5 => exact ⟨rfl, rfl, rfl⟩

/-! #### The effects, one command at a time -/

section Effects

variable (y : Dev) (nn : Fin 16) (m : Fin 12)

/-- The parameters P0 to P15 of a cell. -/
def kcPRegs (nn : Fin 16) (m : Fin 12) : List Nat := (List.finRange 16).map fun i => KcP.addr (nn, m, i)

/-- PLOAD changes the parameters alone, and makes each the value prepared for it. -/
theorem kPload_effect : OnlyRegs (kcPRegs nn m) y (kPload y (nn, m)) ∧ ∀ i, (kPload y (nn, m)).fld KcP.V (nn, m, i) = y.fld KcPs.V (nn, m, i) := by
  have hps (i : Fin 16) : KcPs.V.addr (nn, m, i) ∉ kcPRegs nn m := by
    simp [kcPRegs, KcPs.V, KcPs.addr, KcP.addr]; omega
  have hne {i j : Fin 16} (h : j ≠ i) : KcP.V.addr (nn, m, j) ≠ KcP.V.addr (nn, m, i) := by
    simp [KcP.V, KcP.addr]; omega
  obtain ⟨honly, hval⟩ := forAll_induction (d := y)
    (f := fun d (i : Fin 16) => d.put KcP.V (nn, m, i) (d.fld KcPs.V (nn, m, i)))
    (fun j x => OnlyRegs (kcPRegs nn m) y x ∧ ∀ i : Fin 16, i.val < j → x.fld KcP.V (nn, m, i) = y.fld KcPs.V (nn, m, i))
    ⟨OnlyRegs.refl, fun i hi => absurd hi (by omega)⟩ (by
      rintro i x ⟨hx, hval⟩
      refine ⟨hx.trans (onlyRegs_put (by simp [kcPRegs, KcP.V])), fun j hj => ?_⟩
      rcases eq_or_ne j i with rfl | hji
      · rw [Dev.fld_put_self _ _ _ _ (by decide), hx.fld (hps j)]
        exact Nat.mod_eq_of_lt (Dev.fld_lt y KcPs.V (nn, m, j))
      · rw [Dev.fld_put_addr _ _ _ _ _ _ (hne hji)]
        exact hval j (by omega))
  exact ⟨honly, fun i => hval i i.isLt⟩

/-- The snapshot words S0 to S7 of a cell. -/
def kcSRegs (nn : Fin 16) (m : Fin 12) : List Nat := (List.finRange 8).map fun i => KcS.addr (nn, m, i)

/-- What SNAP writes to them (R247). -/
def kSnapVal (y : Dev) (nn : Fin 16) (m : Fin 12) : Fin 8 → Int
  | 0 => sx 48 (ux 48 (kS0 y (nn, m)))
  | 1 => sx 48 (ux 48 (kS0 y (nn, m))) / 2 ^ 32
  | 2 => sx 48 (ux 48 (kst y (nn, m)).s2)
  | 3 => sx 48 (ux 48 (kst y (nn, m)).s2) / 2 ^ 32
  | 4 => (kst y (nn, m)).out0
  | 5 => (kst y (nn, m)).out1
  | 6 => (kst y (nn, m)).out2
  | 7 => Int.ofNat (y.fld KcStat.RUNS (nn, m))

theorem runs_put_kcS (x : Dev) (i : Fin 8) (v : Nat) :
    (x.put KcS.V (nn, m, i) v).fld KcStat.RUNS (nn, m) = x.fld KcStat.RUNS (nn, m) :=
  Dev.fld_put_addr _ _ _ _ _ _ (by simp [KcS.V, KcS.addr, KcStat.RUNS, KcStat.addr]; omega)

theorem kSnap_eq : kSnap y (nn, m) =
    (forAll y fun d (i : Fin 8) => d.put KcS.V (nn, m, i) (ux 32 (kSnapVal y nn m i))).flag KcStat.SNAPV (nn, m) := by
  simp only [kSnap, runs_put_kcS]
  rfl

theorem ux_lt (n : Nat) (v : Int) : ux n v < 2 ^ n := by
  have := Int.emod_lt_of_pos v (show (0 : Int) < 2 ^ n by positivity)
  have := Int.emod_nonneg v (show (2 : Int) ^ n ≠ 0 by positivity)
  unfold ux
  zify
  omega

/-- SNAP changes the snapshot words and sets SNAPV. -/
theorem kSnap_effect : OnlyRegs (KcStat.addr (nn, m) :: kcSRegs nn m) y (kSnap y (nn, m)) ∧
    (kSnap y (nn, m)).reg (KcStat.addr (nn, m)) = (y.flag KcStat.SNAPV (nn, m)).reg (KcStat.addr (nn, m)) ∧
    ∀ i, (kSnap y (nn, m)).fld KcS.V (nn, m, i) = ux 32 (kSnapVal y nn m i) := by
  have hne {i j : Fin 8} (h : j ≠ i) : KcS.V.addr (nn, m, j) ≠ KcS.V.addr (nn, m, i) := by
    simp [KcS.V, KcS.addr]; omega
  have hstat : KcStat.addr (nn, m) ∉ kcSRegs nn m := by
    simp [kcSRegs, KcS.addr, KcStat.addr]; omega
  obtain ⟨honly, hval⟩ := forAll_induction (d := y) (f := fun d (i : Fin 8) => d.put KcS.V (nn, m, i) (ux 32 (kSnapVal y nn m i)))
    (fun j x => OnlyRegs (kcSRegs nn m) y x ∧ ∀ i : Fin 8, i.val < j → x.fld KcS.V (nn, m, i) = ux 32 (kSnapVal y nn m i))
    ⟨OnlyRegs.refl, fun i hi => absurd hi (by omega)⟩ (by
      rintro i x ⟨hx, hval⟩
      refine ⟨hx.trans (onlyRegs_put (by simp [kcSRegs, KcS.V])), fun j hj => ?_⟩
      rcases eq_or_ne j i with rfl | hji
      · rw [Dev.fld_put_self _ _ _ _ (by decide)]
        exact Nat.mod_eq_of_lt (ux_lt 32 _)
      · rw [Dev.fld_put_addr _ _ _ _ _ _ (hne hji)]
        exact hval j (by omega))
  have hflag : OnlyRegs [KcStat.addr (nn, m)] _ (kSnap y (nn, m)) := kSnap_eq y nn m ▸ onlyRegs_flag (by simp [KcStat.SNAPV])
  refine ⟨(honly.mono (by simp)).trans (hflag.mono (by simp)), ?_, fun i => ?_⟩
  · rw [kSnap_eq]
    exact Dev.reg_put_congr (f := KcStat.SNAPV) (i := (nn, m)) (honly.reg hstat)
  · rw [hflag.fld (by simp [KcS.V, KcS.addr, KcStat.addr]; omega)]
    exact hval i i.isLt

/-- The state of a cell as FCLR reloads it depends on the pattern and on the cell's KIND. -/
theorem kernInit_congr {d x : Dev} {k : KIx} (hp : x.pat = d.pat) (hk : x.fld KcCfg.KIND k = d.fld KcCfg.KIND k) : kernInit x k = kernInit d k := by
  simp only [kernInit, hp, hk]

theorem kst_onK_self (x : Dev) (k : KIx) (u : Kern → Kern) : kst (onK x k u) k = u (kst x k) := by
  simp [kst, onK]

theorem kst_onK_ne (x : Dev) (k : KIx) (j : Fin 12) (u : Kern → Kern) (h : j ≠ k.2) : kst (onK x k u) (k.1, j) = kst x (k.1, j) := by
  simp [kst, onK, vget_vmod_ne _ _ _ _ h]

/-- FCLR reloads the state, clears FAULT with its bit of KSTAT, sets PRE, and in an INTERP cell follows the image's segment. -/
theorem kFclr_effect : OnlyBlock nn [KcStat.addr (nn, m), Kstat.addr nn, SegStat.addr nn] y (kFclr y (nn, m)) ∧ (kFclr y (nn, m)).evq = y.evq ∧
    (kFclr y (nn, m)).reg (SegStat.addr nn) =
      (if y.fld KcCfg.KIND (nn, m) = 12 then y.putB SegStat.ACTIVE nn ((kernInit y (nn, m)).rem != 0) else y).reg (SegStat.addr nn) ∧
    (kFclr y (nn, m)).fld Kstat.FAULT nn = y.fld Kstat.FAULT nn &&& (4095 - 2 ^ m.val) ∧
    (kFclr y (nn, m)).reg (KcStat.addr (nn, m)) = ((y.clr KcStat.FAULT (nn, m)).flag KcStat.PRE (nn, m)).reg (KcStat.addr (nn, m)) ∧
    kst (kFclr y (nn, m)) (nn, m) = kernInit y (nn, m) ∧ ∀ m', m' ≠ m → kst (kFclr y (nn, m)) (nn, m') = kst y (nn, m') := by
  let k : KIx := (nn, m)
  let z1 := onK y k fun _ => kernInit y k
  let z2 := if y.fld KcCfg.KIND k = 12 then z1.putB SegStat.ACTIVE nn ((kernInit y k).rem != 0) else z1
  let z3 := (z2.clr KcStat.FAULT k).flag KcStat.PRE k
  have heq : kFclr y k = z3.put Kstat.FAULT nn (z3.fld Kstat.FAULT nn &&& (4095 - 2 ^ m.val)) := rfl
  have h12 : OnlyRegs [SegStat.addr nn] z1 z2 := by
    simp only [z2]
    split
    · exact onlyRegs_putB (by simp [SegStat.ACTIVE])
    · exact OnlyRegs.refl
  have h23 : OnlyRegs [KcStat.addr k] z2 z3 := (onlyRegs_clr (by simp [KcStat.FAULT])).trans (onlyRegs_flag (by simp [KcStat.PRE]))
  have h34 : OnlyRegs [Kstat.addr nn] z3 (kFclr y k) := heq ▸ onlyRegs_put (by simp [Kstat.FAULT])
  have hkern (j : KIx) : kst (kFclr y k) j = kst z1 j := by
    simp only [kst, h34.b, h23.b, h12.b]
  have hfault : z3.fld Kstat.FAULT nn = y.fld Kstat.FAULT nn :=
    (h23.fld (by simp [Kstat.FAULT, Kstat.addr, KcStat.addr, k]; omega)).trans (h12.fld (by simp [Kstat.FAULT, Kstat.addr, SegStat.addr]))
  refine ⟨?_, h34.evq.trans (h23.evq.trans h12.evq), ?_, ?_, ?_, (hkern _).trans (kst_onK_self _ _ _), fun j hj => (hkern _).trans (kst_onK_ne _ _ _ _ hj)⟩
  · exact ((onlyBlock_onB.trans (h12.mono (by simp)).onlyBlock).trans (h23.mono (by simp [k])).onlyBlock).trans (h34.mono (by simp)).onlyBlock
  · rw [h34.reg (by simp [SegStat.addr, Kstat.addr]), h23.reg (by simp [SegStat.addr, KcStat.addr, k]; omega)]
    simp only [z2, k]
    split <;> rfl
  · rw [heq, Dev.fld_put_self _ _ _ _ (by decide), hfault]
    exact Nat.mod_eq_of_lt (Nat.lt_of_le_of_lt Nat.and_le_left (Dev.fld_lt y Kstat.FAULT nn))
  · rw [h34.reg (by simp [KcStat.addr, Kstat.addr]; omega)]
    refine Dev.reg_put_congr (f := KcStat.PRE) (i := k) (Dev.reg_put_congr (f := KcStat.FAULT) (i := k) ?_)
    exact h12.reg (by simp [KcStat.FAULT, KcStat.addr, SegStat.addr, k]; omega)

end Effects

end Sys2Proof.Machine

namespace Sys2Proof.Machine

/-! #### The command bit set, the command carried out, the bit cleared -/

/-- A command leaves KCm.CTL and what is written again in this clk as they are. -/
theorem kAct_ctl (b : Fin 6) (y : Dev) (k : KIx) : (kAct b y k).reg (KcCtl.addr k) = y.reg (KcCtl.addr k) ∧ (kAct b y k).redo = y.redo := by
  obtain ⟨nn, m⟩ := k
  have hstat : KcCtl.addr (nn, m) ∉ [KcStat.addr (nn, m)] := by simp [KcCtl.addr, KcStat.addr]
  match b with
  | 0 =>
    have h : OnlyRegs [KcStat.addr (nn, m)] y (y.flag KcStat.MANSEL (nn, m)) := onlyRegs_flag (by simp [KcStat.MANSEL])
    exact ⟨h.reg hstat, rfl⟩
  | 1 =>
    have h : OnlyRegs [KcStat.addr (nn, m)] y (y.clr KcStat.MANSEL (nn, m)) := onlyRegs_clr (by simp [KcStat.MANSEL])
    exact ⟨h.reg hstat, rfl⟩
  | 2 =>
    obtain ⟨h, -⟩ := kPload_effect y nn m
    exact ⟨h.reg (by simp [kcPRegs, KcCtl.addr, KcP.addr]; omega), h.redo⟩
  | 3 =>
    have h : OnlyRegs [KcStat.addr (nn, m)] y (y.flag KcStat.PRE (nn, m)) := onlyRegs_flag (by simp [KcStat.PRE])
    exact ⟨h.reg hstat, rfl⟩
  | 4 =>
    obtain ⟨h, -⟩ := kSnap_effect y nn m
    exact ⟨h.reg (by simp [kcSRegs, KcCtl.addr, KcS.addr, KcStat.addr]; omega), h.redo⟩
  | 5 =>
    obtain ⟨h, -⟩ := kFclr_effect y nn m
    exact ⟨h.2.1 _ (by simp [KcCtl.addr, KcStat.addr, Kstat.addr, SegStat.addr]; omega), (congrArg Dev.redo h.1 :)⟩

/-- A command bit that stands is carried out and clears. -/
def kStep (k : KIx) (d : Dev) (b : Fin 6) : Dev := if d.bit (kCmd b) k then (kAct b d k).cmdDone (kCmd b) k else d

/-- The order of R232. -/
theorem kPost_kPre (y : Dev) (k : KIx) : kPost (kPre y k) k = [5, 2, 0, 1, 3, 4].foldl (kStep k) y := by rfl

/-- With command b alone standing and not written again, the commands before and after the run come to command b alone. -/
theorem kPost_kPre_single {y : Dev} {k : KIx} {b : Fin 6} (hbits : ∀ i, y.bit (kCmd i) k = decide (i = b)) (hredo : y.cmdRedo (kCmd b) k = false) :
    kPost (kPre y k) k = (kAct b y k).clr (kCmd b) k := by
  obtain ⟨hctl, hre⟩ := kAct_ctl b y k
  have hdone : (kAct b y k).cmdDone (kCmd b) k = (kAct b y k).clr (kCmd b) k :=
    Dev.cmdDone_of_noRedo (by simpa only [Dev.cmdRedo, hre] using hredo)
  have hclear (i : Fin 6) : ((kAct b y k).clr (kCmd b) k).bit (kCmd i) k = false := by
    obtain ⟨hai, hlo, hlen⟩ := kCmd_addr i k
    obtain ⟨hab, hlob, hlenb⟩ := kCmd_addr b k
    rcases eq_or_ne i b with rfl | hne
    · exact Dev.bit_clr_self _ _ _ (by omega)
    · have hsame : (kAct b y k).bit (kCmd i) k = y.bit (kCmd i) k := by simp only [Dev.bit, Dev.fld, hai, hctl]
      rw [Dev.bit_eq, Dev.fld_clr, Dev.fld_put_bits _ _ _ _ _ _ (by omega) (by omega), ← Dev.bit_eq, hsame, hbits]
      simpa using hne
  have hself : kStep k y b = (kAct b y k).clr (kCmd b) k := by simp [kStep, hbits, hdone]
  have hother (i : Fin 6) (hne : i ≠ b) : kStep k y i = y := by simp [kStep, hbits, hne]
  have hdry (i : Fin 6) : kStep k ((kAct b y k).clr (kCmd b) k) i = (kAct b y k).clr (kCmd b) k := by simp [kStep, hclear]
  generalize (kAct b y k).clr (kCmd b) k = z at hself hdry ⊢
  have hrest (l : List (Fin 6)) : l.foldl (kStep k) z = z := by induction l <;> simp [*]
  have hfold (l : List (Fin 6)) (hb : b ∈ l) : l.foldl (kStep k) y = z := by
    induction l with
    | nil => simp at hb
    | cons i l ih =>
      rcases eq_or_ne i b with rfl | hne
      · rw [List.foldl_cons, hself, hrest]
      · rw [List.foldl_cons, hother i hne, ih ((List.mem_cons.mp hb).resolve_left hne.symm)]
  rw [kPost_kPre]
  have hall : ∀ b : Fin 6, b ∈ [5, 2, 0, 1, 3, 4] := by decide
  exact hfold _ (hall b)

end Sys2Proof.Machine

namespace Sys2Proof.Machine

/-! #### A register that an update leaves as it was -/

theorem OnlyRegs.drop {a : Nat} {as : List Nat} {d x : Dev} (h : OnlyRegs (a :: as) d x) (ha : x.reg a = d.reg a) : OnlyRegs as d x :=
  ⟨h.1, fun c hc => by
    rcases eq_or_ne c a with rfl | hne
    · exact ha
    · exact h.2 c (by simp [hne, hc])⟩

theorem OnlyBlock.mono {as bs : List Nat} {d x : Dev} {nn : Fin 16} (h : OnlyBlock nn as d x) (hs : as ⊆ bs) : OnlyBlock nn bs d x :=
  ⟨h.1, fun a ha => h.2.1 a fun hin => ha (hs hin), h.2.2⟩

theorem OnlyBlock.drop {a : Nat} {as : List Nat} {d x : Dev} {nn : Fin 16} (h : OnlyBlock nn (a :: as) d x) (ha : x.reg a = d.reg a) : OnlyBlock nn as d x :=
  ⟨h.1, fun c hc => by
    rcases eq_or_ne c a with rfl | hne
    · exact ha
    · exact h.2.1 c (by simp [hne, hc]), h.2.2⟩

/-! #### The command written, carried out and gone -/

/-- A word with a field replaced, bit by bit. -/
theorem fset_getLsbD {lo len v : Nat} {w : Word} (h : lo + len ≤ 32) (i : Nat) :
    (fset lo len v w).getLsbD i = if lo ≤ i ∧ i < lo + len then v.testBit (i - lo) else w.getLsbD i := by
  rw [fset, BitVec.getLsbD_or, BitVec.getLsbD_and, BitVec.getLsbD_not, fmask_getLsbD _ _ _ h, BitVec.getLsbD_shiftLeft,
    BitVec.getLsbD_setWidth, BitVec.getLsbD_ofNat]
  by_cases hin : lo ≤ i ∧ i < lo + len
  · have h32 : i < 32 := by omega
    have hk : i - lo < len := by omega
    simp [hin, h32, hk, show ¬ i < lo by omega, show i - lo < 32 by omega]
  · by_cases h32 : i < 32
    · rw [if_neg hin]
      by_cases hlo : i < lo
      · simp [h32, hlo]
      · simp [h32, hlo, show ¬ i < lo + len by omega, show ¬ i - lo < len by omega]
    · simp [hin, h32, BitVec.getLsbD_of_ge w i (by omega)]

/-- The bit of one command in a word. -/
theorem commandBit_getLsbD (b : Fin 6) (i : Nat) : ((BitVec.ofNat 6 (2 ^ b.val)).setWidth 32).getLsbD i = decide (b.val = i) := by
  rw [BitVec.getLsbD_setWidth, BitVec.getLsbD_ofNat, Nat.testBit_two_pow]
  grind

/-- A bit that was clear, set and cleared again. -/
theorem fset_or_bit {w : Word} {b : Fin 6} (h : w.getLsbD b.val = false) : fset b.val 1 0 (w ||| (BitVec.ofNat 6 (2 ^ b.val)).setWidth 32) = w := by
  refine BitVec.eq_of_getLsbD_eq fun i _ => ?_
  rw [fset_getLsbD (by omega), BitVec.getLsbD_or, commandBit_getLsbD]
  rcases eq_or_ne b.val i with rfl | hne
  · simp [h]
  · rw [if_neg (by omega)]
    simp [hne]

/-- No command of the cell stands. -/
theorem kcCtl_clear {d : Dev} {k : KIx} (h : fget 0 6 (d.reg (KcCtl.addr k)) = 0) (i : Fin 6) : (d.reg (KcCtl.addr k)).getLsbD i.val = false := by
  have hz : (d.reg (KcCtl.addr k)).extractLsb' 0 6 = 0 := BitVec.eq_of_toNat_eq h
  have hi := congrArg (fun v : BitVec 6 => v.getLsbD i.val) hz
  simpa using hi

/-- KCm.CTL with command b written while no command stands. -/
def kWritten (d : Dev) (k : KIx) (b : Fin 6) : Dev :=
  ({ d with redo := (KcCtl.addr k, 0) :: d.redo } : Dev).setReg (KcCtl.addr k) (d.reg (KcCtl.addr k) ||| (BitVec.ofNat 6 (2 ^ b.val)).setWidth 32)

theorem kCtlWrite_held {d : Dev} {k : KIx} {b : Fin 6} {cmds : Nat} (hone : cmds = 2 ^ b.val) (h3 : (List.finRange 6).any (kWrong d k cmds) = false)
    (h1 : (List.finRange 6).any (kNoMan d k cmds) = false) (hst : d.fld BkStat.STATE k.1 = 1) (hclear : fget 0 6 (d.reg (KcCtl.addr k)) = 0)
    (hredo : ∀ e ∈ d.redo, e.1 ≠ KcCtl.addr k) :
    kCtlWrite d k cmds false = (kAct b (kWritten d k b) k).clr (kCmd b) k := by
  subst hone
  have hlt : 2 ^ b.val < 64 := Nat.pow_lt_pow_right (by decide) b.isLt
  have hbit (i : Fin 6) : (BitVec.ofNat 6 (2 ^ b.val)).getLsbD i.val = (2 ^ b.val).testBit i.val := by
    rw [BitVec.getLsbD_ofNat]; simp
  have hx : kRefused d k (2 ^ b.val) = d := by simp [kRefused, h1, h3]
  have hgood : ∀ b : Fin 6, BitVec.ofNat 6 (2 ^ b.val) ≠ 0 := by decide
  rw [List.any_eq_false] at h1 h3
  rw [kCtlWrite_eq (good := BitVec.ofNat 6 (2 ^ b.val)) hlt (by positivity) (fun i => by
    rw [hbit, Bool.eq_false_iff.mpr (h1 i (List.mem_finRange i)), Bool.eq_false_iff.mpr (h3 i (List.mem_finRange i))]; simp)]
  simp only [hx, if_neg (hgood b), if_pos hst]
  have hnone : (BitVec.ofNat 6 (2 ^ b.val)).toNat &&& (d.reg (KcCtl.addr k)).toNat = 0 := by
    rw [BitVec.toNat_ofNat, Nat.mod_eq_of_lt hlt, Nat.two_pow_and, BitVec.testBit_toNat, kcCtl_clear hclear]
    rfl
  rw [Dev.cmdAgain_of_clear hnone]
  refine kPost_kPre_single (y := kWritten d k b) (fun i => ?_) ?_
  · obtain ⟨ha, hlo, hlen⟩ := kCmd_addr i k
    rw [Dev.bit_eq_testBit _ _ _ hlen, ha, hlo, kWritten, Dev.reg_setReg_self, BitVec.testBit_toNat, BitVec.getLsbD_or, kcCtl_clear hclear,
      commandBit_getLsbD]
    simp [Fin.ext_iff, eq_comm]
  · obtain ⟨ha, -, -⟩ := kCmd_addr b k
    refine (Dev.cmdRedo_consZero d _ _ _).trans ?_
    simp only [Dev.cmdRedo, List.any_eq_false, ha]
    intro e he
    simp [hredo e he]

section Held

variable {d : Dev} {nn : Fin 16} {m : Fin 12} {b : Fin 6}

theorem onlyRegs_kWritten (k : KIx) : OnlyRegs [KcCtl.addr k] { d with redo := (KcCtl.addr k, 0) :: d.redo } (kWritten d k b) := onlyRegs_setReg (by simp)

theorem onlyRegs_kDone (z : Dev) (k : KIx) : OnlyRegs [KcCtl.addr k] z (z.clr (kCmd b) k) :=
  onlyRegs_clr (by simp [(kCmd_addr b k).1])

/-- KCm.CTL reads as before once the command is carried out. -/
theorem kDone_ctl {k : KIx} (hclear : fget 0 6 (d.reg (KcCtl.addr k)) = 0) :
    ((kAct b (kWritten d k b) k).clr (kCmd b) k).reg (KcCtl.addr k) = d.reg (KcCtl.addr k) := by
  obtain ⟨ha, hlo, hlen⟩ := kCmd_addr b k
  have hput (z : Dev) : (z.clr (kCmd b) k).reg (KcCtl.addr k) = fset b.val 1 0 (z.reg (KcCtl.addr k)) := by
    rw [← ha, ← hlo, ← hlen]
    exact Dev.reg_setReg_self _ _ _
  rw [hput, (kAct_ctl b _ k).1, kWritten, Dev.reg_setReg_self, fset_or_bit (kcCtl_clear hclear b)]

/-- A command that writes only registers, in HELD. -/
theorem kDone_onlyRegs {k : KIx} {as : List Nat} (hclear : fget 0 6 (d.reg (KcCtl.addr k)) = 0) (h : OnlyRegs as (kWritten d k b) (kAct b (kWritten d k b) k)) :
    OnlyRegs as { d with redo := (KcCtl.addr k, 0) :: d.redo } ((kAct b (kWritten d k b) k).clr (kCmd b) k) :=
  OnlyRegs.drop (a := KcCtl.addr k)
    ((((onlyRegs_kWritten k).mono (by simp)).trans (h.mono (by simp))).trans ((onlyRegs_kDone _ k).mono (by simp))) (kDone_ctl hclear)

/-- KCm.STAT after a command that writes it, from a cell whose KCm.STAT is as before. -/
theorem kDone_stat : ((kAct b (kWritten d (nn, m) b) (nn, m)).clr (kCmd b) (nn, m)).reg (KcStat.addr (nn, m)) =
    (kAct b (kWritten d (nn, m) b) (nn, m)).reg (KcStat.addr (nn, m)) :=
  (onlyRegs_kDone _ (nn, m)).reg (by simp [KcStat.addr, KcCtl.addr])

theorem kWritten_stat : (kWritten d (nn, m) b).reg (KcStat.addr (nn, m)) = d.reg (KcStat.addr (nn, m)) :=
  (onlyRegs_kWritten (nn, m)).reg (by simp [KcStat.addr, KcCtl.addr])

end Held

/-! #### The snapshot words (R247) -/

theorem ux_cast (n : Nat) (v : Int) : (ux n v : Int) = v % 2 ^ n :=
  Int.toNat_of_nonneg (Int.emod_nonneg v (by positivity))

theorem sx_emod (n v : Nat) : sx n v % 2 ^ n = (v : Int) % 2 ^ n := by
  unfold sx
  split <;> simp

/-- The low bits of a number kept in a signed format of k bits. -/
theorem ux_sx {n k : Nat} (v : Int) (h : n ≤ k) : ux n (sx k (ux k v)) = ux n v := by
  have hdvd : (2 : Int) ^ n ∣ 2 ^ k := pow_dvd_pow 2 h
  rw [ux, ← Int.emod_emod_of_dvd _ hdvd, sx_emod, ux_cast, Int.emod_emod_of_dvd _ (dvd_refl _), Int.emod_emod_of_dvd _ hdvd, ux]

/-- The high word of a 48-bit state shows its bits [47:32] with their sign. -/
theorem sx_high {v : Nat} (h : v < 2 ^ 48) : sx 32 (ux 32 (sx 48 v / 2 ^ 32)) = sx 16 (v / 2 ^ 32) := by
  simp only [sx, ux]
  norm_num
  split <;> split <;> split <;> omega

/-- S0 to S7 of a snapshot, as R247 gives them. -/
theorem kSnapVal_spec (y : Dev) (nn : Fin 16) (m : Fin 12) :
    ux 32 (kSnapVal y nn m 0) = ux 32 (kS0 y (nn, m)) ∧ sx 32 (ux 32 (kSnapVal y nn m 1)) = sx 16 (ux 48 (kS0 y (nn, m)) / 2 ^ 32) ∧
    ux 32 (kSnapVal y nn m 2) = ux 32 (kst y (nn, m)).s2 ∧ sx 32 (ux 32 (kSnapVal y nn m 3)) = sx 16 (ux 48 (kst y (nn, m)).s2 / 2 ^ 32) ∧
    ux 32 (kSnapVal y nn m 7) = y.fld KcStat.RUNS (nn, m) := by
  refine ⟨ux_sx _ (by omega), sx_high (ux_lt 48 _), ux_sx _ (by omega), sx_high (ux_lt 48 _), ?_⟩
  have hlt : y.fld KcStat.RUNS (nn, m) < 2 ^ 32 :=
    Nat.lt_of_lt_of_le (Dev.fld_lt y KcStat.RUNS (nn, m)) (Nat.pow_le_pow_right (by decide) (by decide))
  simp only [kSnapVal, ux, Int.ofNat_eq_natCast]
  omega

end Sys2Proof.Machine

namespace Sys2Proof.Machine

/-! #### The command of one write on a held block, by command -/

section HeldEffects

variable {d : Dev} {nn : Fin 16} {m : Fin 12} (hclear : fget 0 6 (d.reg (KcCtl.addr (nn, m))) = 0)
include hclear

/-- A command that changes KCm.STAT alone. -/
theorem kDone_statOnly {b : Fin 6} {f : RF KIx} {v : Nat} (hf : f.addr (nn, m) = KcStat.addr (nn, m))
    (hact : ∀ y, OnlyRegs [KcStat.addr (nn, m)] y (kAct b y (nn, m)) ∧ (kAct b y (nn, m)).reg (KcStat.addr (nn, m)) = (y.put f (nn, m) v).reg (KcStat.addr (nn, m))) :
    let t := (kAct b (kWritten d (nn, m) b) (nn, m)).clr (kCmd b) (nn, m)
    OnlyRegs [KcStat.addr (nn, m)] { d with redo := (KcCtl.addr (nn, m), 0) :: d.redo } t ∧
      t.reg (KcStat.addr (nn, m)) = (d.put f (nn, m) v).reg (KcStat.addr (nn, m)) := by
  obtain ⟨honly, hreg⟩ := hact (kWritten d (nn, m) b)
  refine ⟨kDone_onlyRegs hclear honly, ?_⟩
  rw [kDone_stat, hreg, ← hf]
  refine Dev.reg_put_congr ?_
  rw [hf, kWritten_stat]

theorem kDone_pload :
    let t := (kAct 2 (kWritten d (nn, m) 2) (nn, m)).clr (kCmd 2) (nn, m)
    OnlyRegs (kcPRegs nn m) { d with redo := (KcCtl.addr (nn, m), 0) :: d.redo } t ∧ ∀ i, t.fld KcP.V (nn, m, i) = d.fld KcPs.V (nn, m, i) := by
  obtain ⟨honly, hval⟩ := kPload_effect (kWritten d (nn, m) 2) nn m
  refine ⟨kDone_onlyRegs hclear honly, fun i => ?_⟩
  rw [(onlyRegs_kDone _ (nn, m)).fld (by simp [KcP.V, KcP.addr, KcCtl.addr]; omega)]
  exact (hval i).trans ((onlyRegs_kWritten (nn, m)).fld (by simp [KcPs.V, KcPs.addr, KcCtl.addr]; omega))

theorem kDone_snap :
    let t := (kAct 4 (kWritten d (nn, m) 4) (nn, m)).clr (kCmd 4) (nn, m)
    OnlyRegs (KcStat.addr (nn, m) :: kcSRegs nn m) { d with redo := (KcCtl.addr (nn, m), 0) :: d.redo } t ∧
      t.reg (KcStat.addr (nn, m)) = (d.flag KcStat.SNAPV (nn, m)).reg (KcStat.addr (nn, m)) ∧
      ∀ i, t.fld KcS.V (nn, m, i) = ux 32 (kSnapVal d nn m i) := by
  let y := kWritten d (nn, m) 4
  obtain ⟨honly, hstat, hval⟩ := kSnap_effect y nn m
  have hy : OnlyRegs [KcCtl.addr (nn, m)] { d with redo := (KcCtl.addr (nn, m), 0) :: d.redo } y := onlyRegs_kWritten (nn, m)
  have hsame : kSnapVal y nn m = kSnapVal d nn m := by
    have hkst : kst y (nn, m) = kst d (nn, m) := rfl
    have hkind : y.fld KcCfg.KIND (nn, m) = d.fld KcCfg.KIND (nn, m) := hy.fld (by simp [KcCfg.KIND, KcCfg.addr, KcCtl.addr])
    have hruns : y.fld KcStat.RUNS (nn, m) = d.fld KcStat.RUNS (nn, m) := hy.fld (by simp [KcStat.RUNS, KcStat.addr, KcCtl.addr])
    funext i
    simp only [kSnapVal, kS0, hkst, hkind, hruns]
  refine ⟨kDone_onlyRegs hclear honly, ?_, fun i => ?_⟩
  · rw [kDone_stat]
    exact hstat.trans (Dev.reg_put_congr (f := KcStat.SNAPV) (i := (nn, m)) kWritten_stat)
  · rw [(onlyRegs_kDone _ (nn, m)).fld (by simp [KcS.V, KcS.addr, KcCtl.addr]; omega), ← hsame]
    exact hval i

theorem kDone_fclr :
    let t := (kAct 5 (kWritten d (nn, m) 5) (nn, m)).clr (kCmd 5) (nn, m)
    OnlyBlock nn [KcStat.addr (nn, m), Kstat.addr nn, SegStat.addr nn] { d with redo := (KcCtl.addr (nn, m), 0) :: d.redo } t ∧ t.evq = d.evq ∧
      t.reg (SegStat.addr nn) = (if d.fld KcCfg.KIND (nn, m) = 12 then d.putB SegStat.ACTIVE nn ((kernInit d (nn, m)).rem != 0) else d).reg (SegStat.addr nn) ∧
      t.fld Kstat.FAULT nn = d.fld Kstat.FAULT nn &&& (4095 - 2 ^ m.val) ∧
      t.reg (KcStat.addr (nn, m)) = ((d.clr KcStat.FAULT (nn, m)).flag KcStat.PRE (nn, m)).reg (KcStat.addr (nn, m)) ∧
      kst t (nn, m) = kernInit d (nn, m) ∧ ∀ m', m' ≠ m → kst t (nn, m') = kst d (nn, m') := by
  let y := kWritten d (nn, m) 5
  let k : KIx := (nn, m)
  obtain ⟨honly, hevq, hseg, hkstat, hstat, hst, hother⟩ := kFclr_effect y nn m
  have hy : OnlyRegs [KcCtl.addr k] { d with redo := (KcCtl.addr k, 0) :: d.redo } y := onlyRegs_kWritten k
  have hdone : OnlyRegs [KcCtl.addr k] (kFclr y k) ((kFclr y k).clr (kCmd 5) k) := onlyRegs_kDone _ k
  have hseg0 : y.reg (SegStat.addr nn) = d.reg (SegStat.addr nn) := hy.reg (by simp [SegStat.addr, KcCtl.addr, k]; omega)
  have hkind : y.fld KcCfg.KIND k = d.fld KcCfg.KIND k := hy.fld (by simp [KcCfg.KIND, KcCfg.addr, KcCtl.addr])
  have hinit : kernInit y k = kernInit d k := kernInit_congr hy.pat hkind
  have hkern (j : KIx) : kst ((kFclr y k).clr (kCmd 5) k) j = kst (kFclr y k) j := by simp only [kst, hdone.b]
  refine ⟨?_, hdone.evq.trans hevq, ?_, ?_, ?_, ?_, fun j hj => (hkern _).trans (hother j hj)⟩
  · refine OnlyBlock.drop (a := KcCtl.addr k) ?_ (kDone_ctl hclear)
    exact ((hy.mono (by simp)).onlyBlock.trans (OnlyBlock.mono honly (by simp))).trans (hdone.mono (by simp)).onlyBlock
  · refine (hdone.reg (by simp [SegStat.addr, KcCtl.addr, k]; omega)).trans (hseg.trans ?_)
    simp only [k] at hkind hinit
    rw [hkind, hinit]
    split
    · exact Dev.reg_put_congr (f := SegStat.ACTIVE) (i := nn) hseg0
    · exact hseg0
  · refine (hdone.fld (by simp [Kstat.FAULT, Kstat.addr, KcCtl.addr, k]; omega)).trans (hkstat.trans ?_)
    rw [hy.fld (by simp [Kstat.FAULT, Kstat.addr, KcCtl.addr, k]; omega)]
    rfl
  · refine (hdone.reg (by simp [KcStat.addr, KcCtl.addr, k])).trans (hstat.trans ?_)
    exact Dev.reg_put_congr (f := KcStat.PRE) (i := k) (Dev.reg_put_congr (f := KcStat.FAULT) (i := k) kWritten_stat)
  · exact (hkern _).trans (hst.trans hinit)

end HeldEffects

/-- Settles O24: the refusals of one write are judged bit by bit; the commands left stand in KCm.CTL and run at once in HELD. -/
theorem kernelCommandsJudged : Obligations.KernelCommandsJudged := by
  unfold Obligations.KernelCommandsJudged
  intro c d h nn m w b hc v cmds no3 no1 any x1 x hup hopen hdef hrsv
  have hreach : Reaches d h (KcCtl.addr (nn, m)) (unitBlk nn) := ⟨hup, hopen, hdef⟩
  have hown : cmds.testBit b.val = true := by
    have hb : (mOnes v).testBit b.val = true := mOnes_ownM_self ⟨b.val, by omega⟩ w
    rw [show cmds = mOnes v % 2 ^ 6 from rfl, Nat.testBit_mod_two_pow, hb]
    simp
  have hc0 : cmds ≠ 0 := fun h0 => by simp [h0] at hown
  have hlt : cmds < 64 := Nat.mod_lt _ (by decide)
  have hgives (t : Dev) (hrole : d.fld TwStat.ROLE () = 0) (ht : kCtlWrite d (nn, m) cmds false = t) : Gives c d t := fun rest => by
    rw [exec_kernelCommand hc, kCtlHost_alone ⟨hreach, hrole⟩ hrsv, ← ht]
  refine ⟨fun good hrole hgood => ?judged, fun hrole h3 h1 hst hone hclear hredo => ?held, fun hrole rest => ?shadow⟩
  case judged =>
    have hw := kCtlWrite_eq (d := d) (k := (nn, m)) hlt hc0 hgood
    refine ⟨fun hg => hgives _ hrole ?_, fun hg hst => hgives _ hrole ?_⟩
    · rw [hw, if_pos hg]
      rfl
    · rw [hw, if_neg hg, if_neg hst]
      rfl
  case held =>
    refine (hgives _ hrole (kCtlWrite_held hone h3 h1 hst hclear hredo)).completes ⟨kDone_ctl hclear, ?_, ?_, ?_, ?_, ?_, ?_⟩
    · rintro rfl
      exact kDone_statOnly hclear (f := KcStat.MANSEL) (v := 1) rfl fun y => ⟨onlyRegs_flag (by simp [KcStat.MANSEL]), rfl⟩
    · rintro rfl
      exact kDone_statOnly hclear (f := KcStat.MANSEL) (v := 0) rfl fun y => ⟨onlyRegs_clr (by simp [KcStat.MANSEL]), rfl⟩
    · rintro rfl
      exact kDone_pload hclear
    · rintro rfl
      exact kDone_statOnly hclear (f := KcStat.PRE) (v := 1) rfl fun y => ⟨onlyRegs_flag (by simp [KcStat.PRE]), rfl⟩
    · rintro rfl
      obtain ⟨honly, hstat, hval⟩ := kDone_snap (m := m) hclear
      obtain ⟨h0, h1, h2, h3, h7⟩ := kSnapVal_spec d nn m
      refine ⟨honly, hstat, ?_, ?_, ?_, ?_, ?_, ?_, ?_, ?_⟩
      · rw [hval, h0]
      · rw [hval, h1]
      · rw [hval, h2]
      · rw [hval, h3]
      · exact hval 4
      · exact hval 5
      · exact hval 6
      · rw [hval, h7]
    · rintro rfl
      exact kDone_fclr hclear
  case shadow =>
    rw [exec_kernelCommand hc, kCtlHost_shadow hreach hrsv hrole hc0]

end Sys2Proof.Machine

/-! ### A 32-bit write to a register without a rule of its own (R93, R94) -/

namespace Sys2Proof.Machine

/-! #### The access -/

/-- The four bytes of a word make the word. -/
theorem ofNat_leVal_byte4 (w : Word) : BitVec.ofNat 32 (leVal ((byte4 w).map fun b => b.toNat)) = w := by
  have hw : w.toNat < 2 ^ 32 := w.isLt
  refine BitVec.eq_of_toNat_eq ?_
  simp [byte4, List.range_succ, leVal]
  omega

/-- A write of all four bytes selects them all, from the first on. -/
theorem laneBytes_byte4 (w : Word) : laneBytes ((byte4 w).map some) = (0, byte4 w, true) := by rfl

theorem stage_of_stageOpen {d : Dev} {a : Nat} (h : stageOpen d a = true) : d.fld Start.STAGE () ≠ 0 := by
  intro h0
  simp [stageOpen, h0] at h

/-- A write of a whole word to a register that a master reaches is judged as a write to that register. -/
theorem exec_registerWrite_word {s t : State} {h : Master} {a : BitVec 27} {n : Nat} {f : RegFam} {ix : List Nat} {w : Word} {u : Nat} (ha : a.toNat = n)
    (hreg : regAt n = some (f, ix)) (hmem : memAt n = none) (hal : n % 4 = 0) (hr : Reaches s.dev h n u)
    (hw : regWrite s h f ix n w = .next t) : exec (.registerWrite h a ((byte4 w).map some)) s = .next t := by
  subst ha
  obtain ⟨hup, hopen, -⟩ := hr
  have hform : formOk a.toNat 4 false = true := by simp [formOk, hmem, hal]
  have hok : accErr s.dev h a.toNat = false := by simp [accErr, legacyErr, reservedAt, hreg]
  have hword : wordWrite s h a.toNat w = .next t := by simp [wordWrite, hopen, hreg, hw]
  have hgood : goodWrite s h a.toNat (byte4 w) = .next t := by
    have hlen : (byte4 w).length = 4 := rfl
    have htake : (byte4 w).take 4 = byte4 w := rfl
    simp [goodWrite, hmem, hlen, -List.map_take, htake, ofNat_leVal_byte4, wordsWrite, thenDo, hok, hword]
  show execRegisterWrite h a ((byte4 w).map some) s = .next t
  simp only [execRegisterWrite, laneBytes_byte4]
  rw [if_neg (by simp [hup, hopen, stage_of_stageOpen hopen, byte4]), if_neg (by simpa [byte4] using hform)]
  exact hgood

/-- A register without a rule of its own, written by the classes of its fields. -/
theorem regWrite_noRule {d : Dev} {rest : List Instr} {h : Master} {a : Nat} {f : RegFam} {ix : List Nat} {w : Word} (hn : NoRule h f ix a w)
    (hr : Reaches d h a (unitOf a)) (hp : f.priv = true → privileged d h = true) (hz : rsvHit f w (2 ^ 32 - 1) = 0) :
    regWrite ⟨rest, d⟩ h f ix a w = .next ⟨rest, plainWrite d f a w⟩ := by
  obtain ⟨hb, hg, hc⟩ := hn ⟨rest, d⟩
  rw [regWrite, hb, hg, hc]
  exact hostW_reaches hr hp hz

/-! #### The register map -/

/-- The fields of a register lie in its 32 bits, and apart. -/
def fieldsApart (f : RegFam) : Bool :=
  (f.fields.all fun x => decide (x.1 + x.2.1 ≤ 32)) &&
    decide (f.fields.Pairwise fun x y => x.1 + x.2.1 ≤ y.1 ∨ y.1 + y.2.1 ≤ x.1)

/-- The registers that show a signed 20-bit value (R9). -/
def signed20 (id : RegId) : Bool :=
  id == .fcThrHi || id == .fcThrLo || id == .fcHys || id == .ecZhi || id == .hsp || id == .kcManv

theorem regFams_sound : (regFams.all fun f => fieldsApart f && !(signed20 f.id && f.mtype)) = true := by decide +kernel

theorem mem_of_regAt {a : Nat} {f : RegFam} {ix : List Nat} (h : regAt a = some (f, ix)) : f ∈ regFams := by
  obtain ⟨g, hg, he⟩ := List.exists_of_findSome?_eq_some h
  split at he
  · obtain ⟨i, -, hi⟩ := Option.map_eq_some_iff.mp he
    cases hi
    exact hg
  · cases he

end Sys2Proof.Machine

namespace Sys2Proof.Machine

/-! #### The word that such a write leaves, bit by bit (R10, R94) -/

/-- Field x holds bit j. -/
def inField (x : Nat × Nat × Cls) (j : Nat) : Bool := decide (x.1 ≤ j ∧ j < x.1 + x.2.1)

theorem fieldMask_testBit (lo len j : Nat) : ((2 ^ len - 1) * 2 ^ lo).testBit j = decide (lo ≤ j ∧ j < lo + len) := by
  rw [Nat.testBit_mul_two_pow, Nat.testBit_two_pow_sub_one]
  grind

theorem foldl_or_testBit {α : Type} (l : List α) (p : α → Bool) (v : α → Nat) (m j : Nat) :
    (l.foldl (fun m x => if p x then m ||| v x else m) m).testBit j = (m.testBit j || l.any fun x => p x && (v x).testBit j) := by
  induction l generalizing m with
  | nil => simp
  | cons x l ih =>
    rw [List.foldl_cons, ih]
    cases hp : p x <;> simp [hp, Bool.or_assoc]

theorem clsMask_testBit (f : RegFam) (p : Cls → Bool) (j : Nat) : (clsMask f p).testBit j = f.fields.any fun x => p x.2.2 && inField x j := by
  rw [clsMask, foldl_or_testBit f.fields (fun x => p x.2.2)]
  simp [fieldMask_testBit, inField]

theorem markBits_testBit (ms : List (Nat × Bool)) (j : Nat) : (markBits ms).testBit j = ms.any fun m => decide (m.1 = j) := by
  have h := foldl_or_testBit ms (fun _ => true) (fun m => 2 ^ m.1) 0 j
  simpa [markBits, Nat.testBit_two_pow] using h

/-- A bit kept out of a mask of 32. -/
theorem compl_testBit (m j : Nat) (hj : j < 32) (hm : m < 2 ^ 32) : (2 ^ 32 - 1 - m).testBit j = !m.testBit j := by
  rw [show 2 ^ 32 - 1 - m = 2 ^ 32 - (m + 1) by omega, Nat.testBit_two_pow_sub_succ hm]
  simp [hj]

theorem compl_testBit_false {m j : Nat} (h : m.testBit j = true) : (2 ^ 32 - 1 - m).testBit j = false := by
  by_cases hm : m < 2 ^ 32
  · by_cases hj : j < 32
    · rw [compl_testBit m j hj hm, h, Bool.not_true]
    · exact Nat.testBit_eq_false_of_lt (Nat.lt_of_lt_of_le (by omega) (Nat.pow_le_pow_right (n := 2) (by decide) (Nat.le_of_not_lt hj)))
  · rw [show 2 ^ 32 - 1 - m = 0 by omega, Nat.zero_testBit]

section Field

variable {f : RegFam} (hf : fieldsApart f = true) {x : Nat × Nat × Cls} (hx : x ∈ f.fields)
include hf hx

theorem field_le : x.1 + x.2.1 ≤ 32 := by
  simp only [fieldsApart, Bool.and_eq_true, List.all_eq_true, decide_eq_true_eq] at hf
  exact hf.1 x hx

/-- A bit lies in one field at most. -/
theorem field_unique {y : Nat × Nat × Cls} (hy : y ∈ f.fields) {j : Nat} (hxj : inField x j = true) (hyj : inField y j = true) : y = x := by
  simp only [fieldsApart, Bool.and_eq_true, decide_eq_true_eq] at hf
  simp only [inField, decide_eq_true_eq] at hxj hyj
  by_contra hne
  have : Std.Symm fun x y : Nat × Nat × Cls => x.1 + x.2.1 ≤ y.1 ∨ y.1 + y.2.1 ≤ x.1 := ⟨fun _ _ h => h.symm⟩
  have := hf.2.forall hy hx hne
  omega

/-- So the mask of some classes says of each bit what its field's class says. -/
theorem clsMask_field {j : Nat} (hj : inField x j = true) (p : Cls → Bool) : (clsMask f p).testBit j = p x.2.2 := by
  rw [clsMask_testBit]
  cases hp : p x.2.2
  · rw [List.any_eq_false]
    intro y hy hyj
    rw [Bool.and_eq_true] at hyj
    rw [field_unique hf hx hy hj hyj.2, hp] at hyj
    exact absurd hyj.1 (by simp)
  · exact List.any_eq_true.mpr ⟨x, hx, by simp [hp, hj]⟩

end Field

theorem clsMask_lt {f : RegFam} (hf : fieldsApart f = true) (p : Cls → Bool) : clsMask f p < 2 ^ 32 := by
  refine Nat.lt_pow_two_of_testBit _ fun j hj => ?_
  rw [clsMask_testBit, List.any_eq_false]
  intro x hx hxj
  have := field_le hf hx
  simp only [inField, Bool.and_eq_true, decide_eq_true_eq] at hxj
  omega

end Sys2Proof.Machine

namespace Sys2Proof.Machine

/-! #### Counts that go on in the clk of a write (R10) -/

theorem cntAgain_nil (f : RegFam) (written : Nat) (w : Word) : cntAgain f written [] w = w := by
  simp [cntAgain]

/-- A field replaced, over and over, leaves the bits beside it. -/
theorem foldl_fset_getLsbD {α : Type} {lo len j : Nat} (h : lo + len ≤ 32) (hj : ¬ (lo ≤ j ∧ j < lo + len)) (v : Word → α → Nat) (l : List α) (w : Word) :
    (l.foldl (fun w m => fset lo len (v w m) w) w).getLsbD j = w.getLsbD j := by
  induction l generalizing w with
  | nil => rfl
  | cons m l ih => rw [List.foldl_cons, ih, fset_getLsbD h, if_neg hj]

section Field

variable {f : RegFam} (hf : fieldsApart f = true) {x : Nat × Nat × Cls} (hx : x ∈ f.fields) {j : Nat} (hj : inField x j = true)
include hf hx hj

/-- They change no bit of a field of another class. -/
theorem cntAgain_getLsbD (hc : x.2.2 ≠ .cnt) (written : Nat) (ms : List (Nat × Bool)) (w : Word) :
    (cntAgain f written ms w).getLsbD j = w.getLsbD j := by
  have hstep (l : List (Nat × Nat × Cls)) (hl : l ⊆ f.fields) (w : Word) :
      (l.foldl (fun w x => if x.2.2 == .cnt && written.testBit x.1 then
        (ms.filter fun m => m.1 == x.1).foldl (fun w m =>
          fset x.1 x.2.1 (if m.2 then min (fget x.1 x.2.1 w + 1) (2 ^ x.2.1 - 1) else fget x.1 x.2.1 w + 1) w) w else w) w).getLsbD j = w.getLsbD j := by
    induction l generalizing w with
    | nil => rfl
    | cons y l ih =>
      obtain ⟨hy, hl⟩ := List.cons_subset.mp hl
      rw [List.foldl_cons, ih hl]
      split
      · next hcnt =>
        have hne : ¬ inField y j = true := fun hyj => by
          rw [field_unique hf hx hy hj hyj] at hcnt
          simp [hc] at hcnt
        exact foldl_fset_getLsbD (field_le hf hy) (by simpa [inField] using hne) _ _ _
      · rfl
  exact hstep f.fields (fun _ h => h) w

/-- Each bit of a field after a write of the whole register: as it was where the mask or an action of the hardware keeps it, else by its class. -/
theorem plainWord_getLsbD {ms : List (Nat × Bool)} (hms : ms = [] ∨ x.2.2 ≠ .cnt) (old w : Word) :
    (plainWord f ms old w (2 ^ 32 - 1)).getLsbD j =
      if (f.mtype && !w.getLsbD (16 + j)) || (x.2.2 == .w1c && !(2 ^ 32 - 1 - markBits ms).testBit j) then old.getLsbD j
      else bitAfter x.2.2 (!f.mtype && w.toNat &&& clsMask f (fun c => c == .w1c || c == .cmd) != 0) (old.getLsbD j) (w.getLsbD j) := by
  have hj32 : j < 32 := by
    have := field_le hf hx
    simp only [inField, decide_eq_true_eq] at hj
    omega
  have hcnt (written : Nat) (v : Word) : (cntAgain f written ms v).getLsbD j = v.getLsbD j := by
    rcases hms with rfl | hc
    · rw [cntAgain_nil]
    · exact cntAgain_getLsbD hf hx hj hc written ms v
  have hlt (p : Cls → Bool) (m : Nat) : clsMask f p &&& m < 2 ^ 32 := Nat.lt_of_le_of_lt Nat.and_le_left (clsMask_lt hf p)
  have hones : (2 ^ 32 - 1).testBit j = true := by rw [Nat.testBit_two_pow_sub_one, decide_eq_true hj32]
  have hmask : (if f.mtype then mMask w else 2 ^ 32 - 1).testBit j = !(f.mtype && !w.getLsbD (16 + j)) := by
    cases f.mtype
    · rw [if_neg (by simp), hones, Bool.false_and, Bool.not_false]
    · rw [if_pos rfl, mMask, show 65536 = 2 ^ 16 by rfl, Nat.testBit_div_two_pow, Nat.add_comm, BitVec.testBit_toNat]
      simp
  have hcls := clsMask_field hf hx hj
  generalize hM : (if f.mtype then mMask w else 2 ^ 32 - 1) = m at hmask
  generalize hS : (!f.mtype && w.toNat &&& clsMask f (fun c => c == .w1c || c == .cmd) != 0) = stop
  have hset : (clsMask f (fun c => c == .cfg) &&& m) ||| (if stop then 0 else clsMask f (fun c => c == .cnt) &&& m) < 2 ^ 32 := by
    refine Nat.or_lt_two_pow (hlt _ _) ?_
    split
    · decide
    · exact hlt _ _
  have hw1c : w.toNat &&& (clsMask f (fun c => c == .w1c) &&& m &&& (2 ^ 32 - 1 - markBits ms)) < 2 ^ 32 :=
    Nat.lt_of_le_of_lt Nat.and_le_left w.isLt
  simp only [plainWord, hcnt, hM, hS, BitVec.getLsbD_ofNat, Nat.testBit_and, Nat.testBit_or, compl_testBit _ _ hj32 hset, compl_testBit _ _ hj32 hw1c,
    apply_ite (Nat.testBit · j), hcls, hmask, BitVec.testBit_toNat]
  rw [Nat.zero_testBit, decide_eq_true hj32]
  clear hcls hmask hM hS hset hw1c hones hms hcnt hlt
  generalize (f.mtype && !w.getLsbD (16 + j)) = keep, (2 ^ 32 - 1 - markBits ms).testBit j = free, old.getLsbD j = o, w.getLsbD j = v, x.2.2 = c
  cases c <;> revert keep free o v stop <;> decide

end Field

end Sys2Proof.Machine

namespace Sys2Proof.Machine

/-! #### Registers of the map -/

theorem fieldsApart_of_regAt {a : Nat} {f : RegFam} {ix : List Nat} (h : regAt a = some (f, ix)) : fieldsApart f = true := by
  have hall := List.all_eq_true.mp regFams_sound f (mem_of_regAt h)
  exact (Bool.and_eq_true _ _ ▸ hall).1

theorem notMType_of_signed20 {a : Nat} {f : RegFam} {ix : List Nat} (h : regAt a = some (f, ix)) (hs : signed20 f.id = true) : f.mtype = false := by
  have hall := List.all_eq_true.mp regFams_sound f (mem_of_regAt h)
  have h2 := (Bool.and_eq_true _ _ ▸ hall).2
  simpa [hs] using h2

theorem sx_mod (n v : Nat) : sx n (v % 2 ^ n) = sx n v := by simp [sx]

/-- A signed 20-bit register reads as the sign extension of its bits [19:0] (R9). -/
theorem viewWord_signed20 {d : Dev} {a : Nat} {f : RegFam} {ix : List Nat} (h : regAt a = some (f, ix)) (hs : signed20 f.id = true) :
    viewWord d f ix a = BitVec.ofNat 32 (ux 32 (sx 20 ((d.reg a).toNat % 2 ^ 20))) := by
  have hm : f.mtype = false := notMType_of_signed20 h hs
  have hid : f.id = .fcThrHi ∨ f.id = .fcThrLo ∨ f.id = .fcHys ∨ f.id = .ecZhi ∨ f.id = .hsp ∨ f.id = .kcManv := by
    simpa [signed20, or_assoc] using hs
  rw [sx_mod]
  rcases hid with e | e | e | e | e | e <;> simp only [viewWord, cmdShown, hm, e, viewBlock] <;> rfl

/-! #### The write of a set-point (R235) -/

/-- The register kind of the set-points. -/
def hspFam : RegFam := ⟨.hsp, 0x1100100, [(4, 0x1000000), (4, 0x40000), (8, 0x4)], false, false, false, [(0, 20, .cfg), (20, 12, .live)], 0xfffff⟩

theorem regAt_hsp : ∀ (nn : Fin 16) (j : Fin 8), regAt (Hsp.addr (nn, j)) = some (hspFam, [nn.val / 4, nn.val % 4, j.val]) := by
  decide +kernel

theorem hsp_place (nn : Fin 16) (j : Fin 8) : Hsp.addr (nn, j) < 2 ^ 27 ∧ Hsp.addr (nn, j) % 4 = 0 ∧ memAt (Hsp.addr (nn, j)) = none ∧
    unitOf (Hsp.addr (nn, j)) = unitBlk nn := by
  revert nn j
  decide +kernel

theorem hsp_rsvHit (w : Word) : rsvHit hspFam w (2 ^ 32 - 1) = 0 := by
  show w.toNat &&& 0 = 0
  exact Nat.and_zero _

/-- A register of which no error of this clk is to be logged takes what its fields make of the write. -/
theorem plainWrite_eq {d : Dev} {f : RegFam} {a : Nat} {w : Word} (h : f.id = .hostErrInfo → d.errNow = none) :
    plainWrite d f a w = d.setReg a (plainWord f (marksAt d a) (d.reg a) w (2 ^ 32 - 1)) := by
  rw [plainWrite]
  split
  · next he =>
    have hnone : (d.setReg a (plainWord f (marksAt d a) (d.reg a) w (2 ^ 32 - 1))).errNow = none := h he
    rw [hostErrAgain, hnone]
  · rfl

/-- A CFG field of a register that is not M-type takes the written value, whatever the hardware did in this clk. -/
theorem plainWord_cfg {f : RegFam} (hf : fieldsApart f = true) {lo len : Nat} (hx : (lo, len, Cls.cfg) ∈ f.fields) (hm : f.mtype = false)
    (ms : List (Nat × Bool)) (old w : Word) : fget lo len (plainWord f ms old w (2 ^ 32 - 1)) = fget lo len w := by
  refine congrArg BitVec.toNat (BitVec.eq_of_getLsbD_eq fun i hi => ?_)
  rw [BitVec.getLsbD_extractLsb', BitVec.getLsbD_extractLsb',
    plainWord_getLsbD hf hx (j := lo + i) (by simp [inField, hi]) (.inr (by simp)), hm, if_neg (by simp), bitAfter]

/-- A set-point holds bits [19:0] of what is written. -/
theorem hsp_written (ms : List (Nat × Bool)) (old w : Word) : fget 0 20 (plainWord hspFam ms old w (2 ^ 32 - 1)) = w.toNat % 2 ^ 20 := by
  rw [plainWord_cfg (by decide) (by simp [hspFam]) rfl, fget]
  simp

/-- A write to a set-point of an ALONE unit takes effect at once. -/
theorem exec_hsp_alone {d : Dev} {h : Master} {nn : Fin 16} {j : Fin 8} {w : Word} (ha : Alone d h (Hsp.addr (nn, j)) (unitBlk nn)) :
    Gives (.registerWrite h (BitVec.ofNat 27 (Hsp.addr (nn, j))) ((byte4 w).map some)) d
      (d.setReg (Hsp.addr (nn, j)) (plainWord hspFam (marksAt d (Hsp.addr (nn, j))) (d.reg (Hsp.addr (nn, j))) w (2 ^ 32 - 1))) := by
  obtain ⟨hlt, hal, hmem, hunit⟩ := hsp_place nn j
  obtain ⟨hr, hrole⟩ := ha
  intro rest
  refine exec_registerWrite_word (by rw [BitVec.toNat_ofNat, Nat.mod_eq_of_lt hlt]) (regAt_hsp nn j) hmem hal hr ?_
  show plainMir ⟨rest, d⟩ h hspFam (Hsp.addr (nn, j)) w (some _) = _
  rw [plainMir, hunit, hostW_reaches hr (by simp [hspFam]) (hsp_rsvHit w)]
  simp [mirHost_alone hrole, plainWrite_eq (f := hspFam) (d := d) (by simp [hspFam])]

/-! #### VALID of the error log cleared in the clk of an error (R110) -/

/-- The register kind of HOSTERR_INFO. -/
def hostErrInfoFam : RegFam := ⟨.hostErrInfo, 0x38, [], false, false, false, [(0, 3, .live), (3, 1, .live), (4, 3, .live), (8, 4, .live), (31, 1, .w1c)], 0x0⟩

/-- An error that waits is logged once VALID is clear. -/
theorem hostErrAgain_of_waiting {d : Dev} {x y : Word} (herr : d.errNow = some (x, y)) (hv : d.bit HostErrInfo.VALID () = false) :
    hostErrAgain d = (d.setReg (HostErrAddr.addr ()) x).setReg (HostErrInfo.addr ()) y := by
  simp [hostErrAgain, herr, hv]

/-- VALID written 1 clears, and the error that waited is logged in its place. -/
theorem plainWrite_hostErrInfo {d : Dev} {x y : Word} (herr : d.errNow = some (x, y)) (hms : marksAt d (HostErrInfo.addr ()) = []) :
    ∃ v, plainWrite d hostErrInfoFam (HostErrInfo.addr ()) 0x80000000 =
      ((d.setReg (HostErrInfo.addr ()) v).setReg (HostErrAddr.addr ()) x).setReg (HostErrInfo.addr ()) y := by
  let v := plainWord hostErrInfoFam [] (d.reg (HostErrInfo.addr ())) 0x80000000 (2 ^ 32 - 1)
  have hclear : v.getLsbD 31 = false := by
    rw [plainWord_getLsbD (f := hostErrInfoFam) (x := (31, 1, .w1c)) (by decide) (by simp [hostErrInfoFam]) (by decide) (.inl rfl),
      if_neg (by decide), bitAfter]
    simp
  have hvalid : (d.setReg (HostErrInfo.addr ()) v).bit HostErrInfo.VALID () = false := by
    rw [Dev.bit_eq_testBit _ _ _ rfl]
    show ((d.setReg (HostErrInfo.addr ()) v).reg (HostErrInfo.addr ())).toNat.testBit 31 = false
    rw [Dev.reg_setReg_self, BitVec.testBit_toNat, hclear]
  refine ⟨v, ?_⟩
  rw [plainWrite, if_pos (show hostErrInfoFam.id = .hostErrInfo from rfl), hms]
  exact hostErrAgain_of_waiting (d := d.setReg (HostErrInfo.addr ()) v) herr hvalid

/-- Settles O14: a register without a rule of its own takes plainWord, which is settled bit by bit. -/
theorem registerWritesByClass : Obligations.RegisterWritesByClass := by
  unfold Obligations.RegisterWritesByClass
  refine ⟨?byClass, ?signed, ?setPoint, ?hostErr⟩
  case byClass =>
    intro d h a f ix w hreg hmem hal hn hr hp hz herr rest
    have hf := fieldsApart_of_regAt hreg
    refine ⟨_, exec_registerWrite_word rfl hreg hmem hal hr (regWrite_noRule hn hr hp hz), ?_⟩
    rw [plainWrite_eq herr]
    refine ⟨onlyRegs_setReg (by simp), fun hms x hx i hi => ?_, fun x hx hc m hm hlo hhi => ?_⟩
    · have hj : inField x (x.1 + i) = true := by simp [inField, hi]
      have hones : x.1 + i < 32 := by
        have := field_le hf hx
        omega
      rw [Dev.reg_setReg_self, hms, plainWord_getLsbD hf hx hj (.inl rfl), compl_testBit _ _ hones (by decide)]
      simp [markBits]
    · have hj : inField x m.1 = true := by simp [inField, hlo, hhi]
      have hmark : (markBits (marksAt d a.toNat)).testBit m.1 = true := by
        rw [markBits_testBit]
        exact List.any_eq_true.mpr ⟨m, hm, by simp⟩
      rw [Dev.reg_setReg_self, plainWord_getLsbD hf hx hj (.inr (by simp [hc])), compl_testBit_false hmark, if_pos (by simp [hc])]
  case signed =>
    intro d a f ix hreg hid
    exact viewWord_signed20 hreg (by simpa [signed20, or_assoc] using hid)
  case setPoint =>
    intro d h nn j w ha rest
    refine ⟨_, exec_hsp_alone ha rest, onlyRegs_setReg (by simp), ?_, fun f ix hfx => ?_⟩
    · show fget 0 20 _ = _
      rw [Hsp.V, Dev.reg_setReg_self, hsp_written]
    · cases (regAt_hsp nn j).symm.trans hfx
      rw [viewWord_signed20 (regAt_hsp nn j) rfl, Dev.reg_setReg_self, ← hsp_written (marksAt d (Hsp.addr (nn, j))) (d.reg (Hsp.addr (nn, j))) w, fget]
      simp
  case hostErr =>
    intro d h x y hr herr hms rest
    have hreg : regAt (HostErrInfo.addr ()) = some (hostErrInfoFam, []) := by decide +kernel
    have hw : regWrite ⟨rest, d⟩ h hostErrInfoFam [] (HostErrInfo.addr ()) 0x80000000 =
        .next ⟨rest, plainWrite d hostErrInfoFam (HostErrInfo.addr ()) 0x80000000⟩ :=
      regWrite_noRule (fun _ => ⟨rfl, rfl, rfl⟩) hr (by simp [hostErrInfoFam]) (by decide)
    obtain ⟨v, hv⟩ := plainWrite_hostErrInfo herr hms
    rw [hv] at hw
    refine ⟨_, exec_registerWrite_word rfl hreg (by decide) (by decide) hr hw, ?_, Dev.reg_setReg_self _ _ _, ?_⟩
    · rw [Dev.reg_setReg_ne _ _ _ _ (by simp [HostErrAddr.addr, HostErrInfo.addr])]
      exact Dev.reg_setReg_self _ _ _
    · exact (onlyRegs_setReg (by simp)).trans ((onlyRegs_setReg (by simp)).trans (onlyRegs_setReg (by simp)))

end Sys2Proof.Machine

/-! ### Port commands: a counterexample to O38 (R327, R386) -/

namespace Sys2Proof.Machine

/-- ABORT_HEAD on an ALONE unit, with no reserved bit changed; a chip failure that is due is carried out with it (R386). -/
theorem exec_abortHead_alone {d : Dev} {h : Master} {p : Fin 4} {w : Word} (ha : Alone d h (TqCtl.addr p) (unitRgn p))
    (hr : mRsv 0xFFC0 (ownM 0 w) = 0) : Gives (.abortHead h p w) d (failCheck (tqCtlWrite d p (ownM 0 w))) := by
  intro rest
  show tqCtlHost ⟨rest, d⟩ h p (ownM 0 w) = _
  rw [tqCtlHost, hostW_reaches ha.1 (by simp) hr]
  simp [mirHost_alone ha.2]

/-- An ALONE unit with an empty transmit queue, on which the fourth error of region 0 has made a chip failure due (R386). -/
def failureDue : Dev := { (State.reset.dev.put Start.STAGE () 5).put TwStat.ROLE () 0 with rstN := true, failDue := some 0 }

/-- Refutes O38: the statement on ABORT_HEAD does not ask that no chip failure is due. Where one is, the command that finds no
head in TQ still carries the failure out, and so leaves more than ROTATE and ROTN changed: FAIL.CAUSE reads 2. -/
theorem not_portCommands : ¬ Obligations.PortCommands := by
  unfold Obligations.PortCommands
  rintro ⟨-, -, -, habort⟩
  let d := failureDue
  have ha : Alone d .pf0 (TqCtl.addr 0) (unitRgn 0) := by unfold Alone Reaches; decide +kernel
  have hr : mRsv 0xFFC0 (ownM 0 0) = 0 := by decide +kernel
  obtain ⟨hnone, -, -⟩ := habort d .pf0 0 0 ha hr
  have hstays := hnone (by decide +kernel) []
  rw [exec_abortHead_alone ha hr []] at hstays
  have hcause := congrArg (fun s : State => s.dev.fld Fail.CAUSE ()) (Host.Outcome.next.inj hstays)
  exact absurd hcause (by decide +kernel)

end Sys2Proof.Machine

/-! ### Chip failures: a counterexample to O36 (R265, R270, R390) -/

namespace Sys2Proof.Machine

/-- Block 0 stands QUENCHED in active short (set S1): every GL is HIGH, and S1 is selected for every cause (R265, R266). -/
def latchedInActiveShort : Dev :=
  let d := { ((State.reset.dev.put Start.STAGE () 5).put TwStat.ROLE () 0) with rstN := true, pat := some droppablePattern }
  let d := (((d.put BkStat.STATE 0 4).flag BkType.ASHORT 0).put S1sel.SEL 0 0xFFFF).put Qcause.CAUSE 0 1
  ((d.flag Qstat.LATCH 0).flag Qstat.SAFESET 0).onB 0 fun b =>
    { b with leg := Vector.replicate 3 { Leg.reset with gh := .low, gl := .high } }

/-- A chip failure with one of the causes 2 to 5 is decided at once. -/
theorem exec_chipFailure_decided {d : Dev} {cause : Fin 8} {n : Fin 4} (hlo : 2 ≤ cause.val) (hhi : cause.val ≤ 5)
    (hstage : d.fld Start.STAGE () ≠ 0) : Gives (.chipFailure cause n) d (chipFail d cause.val n) := by
  intro rest
  show execChipFailure cause n ⟨rest, d⟩ = _
  simp [execChipFailure, onDev, hlo, hhi, hstage]

/-- Refutes O36: the latch of block 0 is cleared, and in the same clk a chip failure comes. Its cause undoes the clear (R270), so that
the block is back in active short with every GL HIGH, although its latch read 0 when the failure came. -/
theorem not_regionErrorsAndChipFailure : ¬ Obligations.RegionErrorsAndChipFailure := by
  unfold Obligations.RegionErrorsAndChipFailure
  rintro ⟨-, -, -, hfail⟩
  let d := latchClear latchedInActiveShort 0
  obtain ⟨-, hdecided⟩ := hfail d 3 0
  have hstage : d.fld Start.STAGE () ≠ 0 := by decide +kernel
  obtain ⟨-, -, -, -, -, -, -, -, hblocks⟩ := hdecided (by decide) (by decide) hstage (by decide +kernel)
    |>.of_exec (exec_chipFailure_decided (by decide) (by decide) hstage [])
  obtain ⟨-, -, hoff⟩ := hblocks 0
  obtain ⟨-, hlow⟩ := hoff (by decide +kernel) 0
  exact absurd hlow (by decide +kernel)

end Sys2Proof.Machine

/-! ### Pattern operations: a counterexample to O50 (R147, R156, R171, R199) -/

namespace Sys2Proof.Machine

/-- The header of a pattern image that passes the checks of R432. -/
def patternHeader : ImgHdr :=
  ⟨0x52484F43#32, 2, 1, memberCode, 0, BitVec.allOnes 16, 0, 1, 0, 9, 0, 0, 64, 0, 0, 0, 0, true, true, true, true⟩

/-- A bank of one slot on domain 0, with or without a section behind it, whose rate may not fall below 1 / 16 Hz (R128, R171). -/
def ratedBank (present : Bool) : BankHdr :=
  let h : BankHdr := ⟨1, 0, 1, present, present, false, 0, 1000, 1, 0, 0, 0, 0, false, 0, 0, 17, 0, 0, 0⟩
  { h with hcrc := hdrCrc h }

/-- A block whose bank A holds one MARK slot. -/
def markSection : BlockSec :=
  ⟨[(0x60, 4000#32), (0x3000, 4#32), (0x3400, 4#32)], 0, ratedBank true, ratedBank false, [0x0000070000000005#64], [], [], [], [], false, 0⟩

/-- A pattern with blocks 0 and 3, whose domain 0 is led by the encoder of block 3. -/
def encoderLedPattern : PatImage :=
  ⟨patternHeader, 4096, 5,
   [⟨1, 0, 1, 0, 64, 0, [], .chip [(0x30000, 0x32#32)]⟩,
    ⟨2, 0, 1, 64, 64, 0, [], .region [(0x10018, 0x0040503F#32), (0x1001C, 0x420B#32), (0x10020, 0x420B#32)]⟩,
    ⟨3, 0, 1, 128, 64, 0, [], .block markSection⟩, ⟨3, 3, 1, 192, 64, 0, [], .block markSection⟩,
    ⟨0x0F, 0, 1, 0, 0, 0, [], .none⟩]⟩

/-- Block 0 runs, its domain valid on the encoder of block 3, which is HELD and has been re-poured with its own section (R147). -/
def leaderRepoured : Dev :=
  let d := { ((State.reset.dev.put Start.STAGE () 5).put TwStat.ROLE () 0) with
    rstN := true, stwRun := true, pat := some encoderLedPattern, patOp := some ⟨some encoderLedPattern, some 3, false, 1, false⟩ }
  let d := ((d.setReg (PdCfg.addr 0) 0x32).flag PdStat.VALID 0).flag EcStat.PVALID 3
  (d.put BkStat.STATE 0 3).put BkStat.STATE 3 1 |>.onB 3 fun b => { b with repouring := true }

/-- The image passes the checks of its header, whatever the hardware revision is. -/
theorem patternHeader_passes {d : Dev} (hsfw : d.sfw = none) (hheat : d.fld ChipMode.HEAT () = 0) (hkeys : d.keys = 15) :
    hdrCheck d 2 patternHeader (sfwHdr d) true false = 0 := by
  have hrev : (65535#16).getLsbD Config.hwRev.toNat = true := by
    rw [show 65535#16 = BitVec.allOnes 16 from rfl, BitVec.getLsbD_allOnes]
    exact decide_eq_true Config.hwRev.isLt
  simp [hdrCheck, patternHeader, sfwHdr, hsfw, loadClk, hheat, hkeys, hrev, firstFail]

/-- An image that passes every check is the answer of the checks. -/
theorem opCheck_passes {d : Dev} {op : PatOp} {p : PatImage} (himg : op.img = some p)
    (hhdr : hdrCheck d 2 p.hdr (sfwHdr d) true false = 0) (hpat : patCheck d p = none) : opCheck d op = .inr p := by
  simp only [opCheck, himg, hhdr, hpat]

/-- What a re-pour that passes its checks makes of the device (R147, R149). -/
def repoured (d : Dev) (cur : PatImage) (nn : Fin 16) (e : DirEntry) (sec : BlockSec) : Dev :=
  patDone (patShow ((tdaTrims (fillBlock (opEnd { d with pat := some (withBlock cur nn e) }) nn sec false) nn).clr PcStat.ARMED nn))

/-- The end of a re-pour that awaits no shadow and passes its checks: the section of the image is the block's. -/
theorem exec_repourDone_passes {d : Dev} {p cur : PatImage} {nn : Fin 16} {start : Bool} {src : Nat} {e : DirEntry} {sec : BlockSec}
    (hu : unitChip ∉ d.undef) (hop : d.patOp = some ⟨some p, some nn, start, src, false⟩) (hcur : d.pat = some cur)
    (hhdr : hdrCheck d 2 p.hdr (sfwHdr d) true false = 0) (hpat : patCheck d p = none) (hsame : sharedSame p cur nn = true)
    (he : patEntry p 3 nn.val = some e) (hsec : PatImage.sec p nn = some sec) :
    Gives .repourDone d (repoured d cur nn e sec) := by
  intro rest
  show execRepourDone ⟨rest, d⟩ = _
  have hcheck : opCheck d ⟨some p, some nn, false, src, false⟩ = .inr p := opCheck_passes rfl hhdr hpat
  simp [execRepourDone, onChip, onUnit, onDev, hu, hop, hcur, hcheck, hsame, he, hsec, repoured]

/-- Refutes O50: the re-pour of block 3 makes its encoder's position invalid (R199), and with it domain 0 (R156); block 0, which runs on
that domain, stalls in the same clk (R171), so that another block than the re-poured one does not stay as it was. -/
theorem not_patternOperations : ¬ Obligations.PatternOperations := by
  unfold Obligations.PatternOperations
  rintro ⟨-, -, hrepour⟩
  let d := leaderRepoured
  let entry : DirEntry := ⟨3, 3, 1, 192, 64, 0, [], .block markSection⟩
  have hu : unitChip ∉ d.undef := by decide +kernel
  have hhdr : hdrCheck d 2 encoderLedPattern.hdr (sfwHdr d) true false = 0 :=
    patternHeader_passes (by decide +kernel) (by decide +kernel) (by decide +kernel)
  have hpat : patCheck d encoderLedPattern = none := by decide +kernel
  have hsame : sharedSame encoderLedPattern encoderLedPattern 3 = true := by decide +kernel
  have he : patEntry encoderLedPattern 3 3 = some entry := by decide +kernel
  have hsec : PatImage.sec encoderLedPattern 3 = some markSection := by decide +kernel
  obtain ⟨-, -, hpasses⟩ := hrepour d hu
  obtain ⟨-, -, htakes⟩ := hpasses encoderLedPattern 3 1 encoderLedPattern false rfl (.inl rfl) rfl hhdr
  obtain ⟨⟨-, -, -, -, hkept⟩, -⟩ := (htakes entry markSection hpat hsame he hsec).of_exec
    (exec_repourDone_passes hu rfl rfl hhdr hpat hsame he hsec [])
  obtain ⟨hblock, -⟩ := hkept 0 (by decide)
  have hstall := congrArg Blk.stalled hblock
  exact absurd hstall (by decide +kernel)

end Sys2Proof.Machine


/-! ### A row of the value board reaches a region (R21, R23) -/

namespace Sys2Proof.Machine

@[simp] theorem Dev.r_onR_self (d : Dev) (n : Fin 4) (u : Rgn → Rgn) : (d.onR n u).r n = u (d.r n) := by simp [r, onR]

theorem Dev.r_onR_ne (d : Dev) (n k : Fin 4) (u : Rgn → Rgn) (h : k ≠ n) : (d.onR n u).r k = d.r k := by
  simp [r, onR, vget_vmod_ne _ _ _ _ h]

/-- The memories are canonical where nothing but the regions has changed, and each of those is. -/
theorem Memory.wf_of_rgn {d x : Dev} (hw : Memory.wf d = true) (hx : x = { d with rgn := x.rgn }) (hr : ∀ n, Rgn.wf (x.r n) = true) :
    Memory.wf x = true := by
  rw [hx]
  simp only [Memory.wf, Bool.and_eq_true, List.all_eq_true, List.mem_finRange, forall_const] at hw ⊢
  obtain ⟨⟨⟨⟨hregs, hhwin⟩, -⟩, hsrc⟩, htarg⟩ := hw
  exact ⟨⟨⟨⟨hregs, hhwin⟩, fun n => hr n⟩, hsrc⟩, htarg⟩

theorem Rgn.wf_of_memory {d : Dev} (hw : Memory.wf d = true) (n : Fin 4) : Rgn.wf (d.r n) = true := by
  simp only [Memory.wf, Bool.and_eq_true, List.all_eq_true, List.mem_finRange, forall_const] at hw
  obtain ⟨⟨⟨-, hrgn⟩, -⟩, -⟩ := hw
  exact hrgn n

/-- Device x is d but for region r's copy of the board, which is canonical and in which the first k values of row nn are those of the
row as it stands, with every other row as it was. -/
structure RowCopied (d : Dev) (nn : Fin 16) (r : Fin 4) (k : Nat) (x : Dev) : Prop where
  rest : x = { d with rgn := x.rgn }
  others : ∀ n, n ≠ r → x.r n = d.r n
  region : x.r r = { d.r r with vbArr := (x.r r).vbArr }
  canon : tcanon (fun _ => 0#20) (x.r r).vbArr = true
  row : ∀ v : Fin 16, v.val < k → tget (fun _ => 0#20) (x.r r).vbArr (16 * nn.val + v.val) = BitVec.ofNat 20 (d.fld VbV.VAL (nn, v))
  rows : ∀ a, a / 16 ≠ nn.val → tget (fun _ => 0#20) (x.r r).vbArr a = tget (fun _ => 0#20) (d.r r).vbArr a

/-- One value of the row written to the region's copy. -/
def rowValueTo (nn : Fin 16) (r : Fin 4) (d : Dev) (v : Fin 16) : Dev :=
  d.onR r fun x => { x with vbArr := tset (fun _ => 0#20) x.vbArr (16 * nn.val + v.val) (BitVec.ofNat 20 (d.fld VbV.VAL (nn, v))) }

theorem rowCopied_step {d x : Dev} {nn v : Fin 16} {r : Fin 4} (h : RowCopied d nn r v.val x) :
    RowCopied d nn r (v.val + 1) (rowValueTo nn r x v) := by
  have hval : x.fld VbV.VAL (nn, v) = d.fld VbV.VAL (nn, v) := by rw [h.rest]; rfl
  have hr : (rowValueTo nn r x v).r r =
      { x.r r with vbArr := tset (fun _ => 0#20) (x.r r).vbArr (16 * nn.val + v.val) (BitVec.ofNat 20 (d.fld VbV.VAL (nn, v))) } := by
    rw [rowValueTo, Dev.r_onR_self, hval]
  refine ⟨?_, fun n hn => ?_, ?_, ?_, fun u hu => ?_, fun a ha => ?_⟩
  · exact congrArg (fun z : Dev => { z with rgn := (rowValueTo nn r x v).rgn }) h.rest
  · exact (Dev.r_onR_ne _ _ _ _ hn).trans (h.others n hn)
  · rw [hr]
    generalize tset (fun _ => 0#20) (x.r r).vbArr _ _ = c
    exact congrArg (fun z : Rgn => { z with vbArr := c }) h.region
  · rw [hr]
    exact tcanon_tset _ _ _ h.canon
  · rw [hr]
    rcases eq_or_ne u v with rfl | hne
    · exact tget_tset_self _ _ _
    · have huv : u.val < v.val := by omega
      rw [tget_tset_ne _ _ _ _ (by omega)]
      exact h.row u huv
  · rw [hr, tget_tset_ne _ _ _ _ (by omega)]
    exact h.rows a ha

/-- Settles O59: value by value the row comes to stand in the region's copy. -/
theorem rowReachesRegion : Obligations.RowReachesRegion := by
  unfold Obligations.RowReachesRegion
  intro d nn r hw hu rest
  have hcanon : tcanon (fun _ => 0#20) (d.r r).vbArr = true := by
    obtain ⟨-, -, -, -, hvb⟩ := rgn_iff.mp (Rgn.wf_of_memory hw r)
    exact hvb
  have hcopied : RowCopied d nn r 16 (forAll d (rowValueTo nn r)) :=
    forAll_induction (RowCopied d nn r) ⟨rfl, fun _ _ => rfl, rfl, hcanon, fun v hv => absurd hv (by omega), fun _ _ => rfl⟩
      fun v x hx => rowCopied_step hx
  have hexec : exec (.vbTransfer nn r) ⟨rest, d⟩ = .next ⟨rest, forAll d (rowValueTo nn r)⟩ := by
    show execVbTransfer nn r ⟨rest, d⟩ = _
    simp only [execVbTransfer, onChip, onUnit, if_neg hu]
    rfl
  refine ⟨_, hexec, ?_⟩
  clear hexec
  generalize forAll d (rowValueTo nn r) = t at hcopied ⊢
  refine ⟨hcopied.rest, hcopied.others, hcopied.region, Memory.wf_of_rgn hw hcopied.rest fun n => ?_,
    fun v => hcopied.row v v.isLt, hcopied.rows⟩
  rcases eq_or_ne n r with rfl | hne
  · obtain ⟨hused, hgen, hlink, hcell, -⟩ := rgn_iff.mp (Rgn.wf_of_memory hw n)
    rw [rgn_iff, hcopied.region]
    exact ⟨hused, hgen, hlink, hcell, hcopied.canon⟩
  · rw [hcopied.others n hne]
    exact Rgn.wf_of_memory hw n

end Sys2Proof.Machine

/-! ### What happens beside blocks, regions, domains and pattern (R71, R75, R111) -/

namespace Sys2Proof.Machine

/-- Blocks, regions, domains, pattern and PCIe functions stand, and so does the function that H0 belongs to. -/
structure Beside (d x : Dev) : Prop where
  blk : x.blk = d.blk
  rgn : x.rgn = d.rgn
  dom : x.dom = d.dom
  pat : x.pat = d.pat
  perstN : x.perstN = d.perstN
  fn : x.fn = d.fn
  h0 : x.reg (TCfg.addr 0) = d.reg (TCfg.addr 0)

/-- As Beside, but for vectors that have come to wait in the functions. -/
structure BesideMsi (d x : Dev) : Prop where
  blk : x.blk = d.blk
  rgn : x.rgn = d.rgn
  dom : x.dom = d.dom
  pat : x.pat = d.pat
  fn : ∀ g, ∃ p, vget x.fn g = { vget d.fn g with msiPend := p }

section Beside

variable {d x y : Dev}

theorem Beside.refl : Beside d d := ⟨rfl, rfl, rfl, rfl, rfl, rfl, rfl⟩

theorem Beside.trans (h1 : Beside d x) (h2 : Beside x y) : Beside d y :=
  ⟨h2.blk.trans h1.blk, h2.rgn.trans h1.rgn, h2.dom.trans h1.dom, h2.pat.trans h1.pat, h2.perstN.trans h1.perstN,
    h2.fn.trans h1.fn, h2.h0.trans h1.h0⟩

theorem Beside.foldl {α : Type} {f : Dev → α → Dev} (h : ∀ x a, Beside x (f x a)) (l : List α) : Beside d (l.foldl f d) := by
  induction l generalizing d with
  | nil => exact Beside.refl
  | cons a l ih => exact (h d a).trans ih

theorem Beside.ite {c : Prop} [Decidable c] (hx : Beside d x) (hy : Beside d y) : Beside d (if c then x else y) := by
  split <;> assumption

theorem Beside.setReg {a : Nat} {w : Word} (ha : TCfg.addr 0 ≠ a) : Beside d (d.setReg a w) :=
  ⟨rfl, rfl, rfl, rfl, rfl, rfl, Dev.reg_setReg_ne _ _ _ _ ha⟩

section Field

variable {ι : Type} {f : RF ι} {i : ι} (ha : TCfg.addr 0 ≠ f.addr i)
include ha

theorem Beside.put {v : Nat} : Beside d (d.put f i v) := Beside.setReg ha
theorem Beside.clr : Beside d (d.clr f i) := Beside.setReg ha
theorem Beside.flag : Beside d (d.flag f i) := (Beside.put (v := 1) ha).trans ⟨rfl, rfl, rfl, rfl, rfl, rfl, rfl⟩
theorem Beside.inc : Beside d (d.inc f i) := (Beside.put (v := d.fld f i + 1) ha).trans ⟨rfl, rfl, rfl, rfl, rfl, rfl, rfl⟩
theorem Beside.incSat : Beside d (d.incSat f i) :=
  (Beside.put (v := min (d.fld f i + 1) (2 ^ f.len - 1)) ha).trans ⟨rfl, rfl, rfl, rfl, rfl, rfl, rfl⟩

end Field

theorem Beside.raise {s i : Nat} : Beside d (d.raise s i) := ⟨rfl, rfl, rfl, rfl, rfl, rfl, rfl⟩
theorem Beside.say {o : HostOut} : Beside d (d.say o) := ⟨rfl, rfl, rfl, rfl, rfl, rfl, rfl⟩
theorem Beside.onChan {c : Fin 8} {u : Chan → Chan} : Beside d (onChan d c u) := ⟨rfl, rfl, rfl, rfl, rfl, rfl, rfl⟩
theorem Beside.onTarg {t : Fin 4} {u : Targ → Targ} : Beside d (onTarg d t u) := ⟨rfl, rfl, rfl, rfl, rfl, rfl, rfl⟩

theorem Beside.h0Fn (h : Beside d x) : h0Fn x = h0Fn d := by
  have hf : x.fld TCfg.FUNC 0 = d.fld TCfg.FUNC 0 := congrArg (fget TCfg.FUNC.lo TCfg.FUNC.len) h.h0
  unfold Machine.h0Fn Dev.bit
  rw [hf]

theorem Beside.msi (h : Beside d x) : BesideMsi d x :=
  ⟨h.blk, h.rgn, h.dom, h.pat, fun g => ⟨(vget d.fn g).msiPend, by rw [h.fn]⟩⟩

theorem BesideMsi.trans (h1 : BesideMsi d x) (h2 : BesideMsi x y) : BesideMsi d y := by
  refine ⟨h2.blk.trans h1.blk, h2.rgn.trans h1.rgn, h2.dom.trans h1.dom, h2.pat.trans h1.pat, fun g => ?_⟩
  obtain ⟨p, hp⟩ := h1.fn g
  obtain ⟨q, hq⟩ := h2.fn g
  exact ⟨q, by rw [hq, hp]⟩

/-! #### Ladle loses a function (R369) -/

/-- Bytes written to the host window change nothing else. -/
theorem hwPut_eq (d : Dev) (o : Nat) (bs : List Byte) : ∃ w, hwPut d o bs = { d with hwin := w } := by
  have hfold : ∀ (bs : List Byte) (e : Dev × Nat),
      ∃ w, (bs.foldl (fun x b => (hwSet x.1 x.2 b, x.2 + 1)) e).1 = { e.1 with hwin := w } := by
    intro bs
    induction bs with
    | nil => exact fun e => ⟨e.1.hwin, rfl⟩
    | cons b bs ih =>
      intro e
      obtain ⟨w, hw⟩ := ih (hwSet e.1 e.2 b, e.2 + 1)
      exact ⟨w, hw⟩
  exact hfold bs (d, o)

theorem Beside.hwPutWord {o : Nat} {w : Word} : Beside d (hwPutWord d o w) := by
  obtain ⟨b, hb⟩ := hwPut_eq d o (byte4 w)
  rw [Machine.hwPutWord, hb]
  exact ⟨rfl, rfl, rfl, rfl, rfl, rfl, rfl⟩

/-- No register of a channel is that of a target. -/
theorem chanReg_ne (c : Fin 8) : TCfg.addr 0 ≠ ChHead.addr c ∧ TCfg.addr 0 ≠ ChStat.addr c ∧ TCfg.addr 0 ≠ ChCtl.addr c := by
  revert c
  decide

theorem chanEnd_beside (d : Dev) (c : Fin 8) (status : Nat) : Beside d (chanEnd d c status) := by
  obtain ⟨hhead, hstat, hctl⟩ := chanReg_ne c
  unfold chanEnd
  extract_lets ch a record word head count done stop
  have hdone : Beside d done :=
    (((Beside.hwPutWord.trans Beside.hwPutWord).trans (Beside.put hhead)).trans
      (((Beside.inc hstat).trans (Beside.flag hstat)).trans (Beside.put hstat))).trans Beside.onChan
  have hstop : Beside d stop :=
    Beside.ite (hdone.trans ((Beside.put hstat).trans (Beside.clr hctl))) hdone
  have herr : Beside d ((((done.put ChStat.STATE c 4).flag ChStat.ERR_SEEN c).clr ChCtl.STOP c).raise (646 + c.val) status) :=
    hdone.trans ((((Beside.put hstat).trans (Beside.flag hstat)).trans (Beside.clr hctl)).trans Beside.raise)
  exact Beside.ite (Beside.ite (hstop.trans Beside.raise) hstop) herr

theorem chanFnGone_beside (d : Dev) (f : Fin 2) : Beside d (chanFnGone d f) := by
  refine Beside.foldl (fun x c => ?_) _
  split
  · exact Beside.ite (chanEnd_beside _ _ _) Beside.refl
  · exact Beside.refl

/-! #### What H0 signals (R353, R354) -/

theorem wakeCheck_H0 (d : Dev) : Beside d (wakeCheck d 0) := by
  have hnap : stewardNap d 0 = d := by simp [stewardNap]
  have hwake : Beside d (wakeTarg d 0) :=
    (((Beside.flag (by decide)).trans (Beside.incSat (by decide))).trans Beside.onTarg).trans Beside.say
  unfold wakeCheck
  rw [hnap]
  exact Beside.ite hwake Beside.refl

theorem msiReq_off {f : Fin 2} {v : Nat} (h : (vget d.fn f).msiEn = false) : msiReq d f v = d := by
  simp [msiReq, h]

theorem msiReq_besideMsi (d : Dev) (f : Fin 2) (v : Nat) : BesideMsi d (msiReq d f v) ∧ (msiReq d f v).regs = d.regs := by
  unfold msiReq
  dsimp only
  split
  · exact ⟨Beside.refl.msi, rfl⟩
  · split
    · refine ⟨⟨rfl, rfl, rfl, rfl, fun g => ?_⟩, rfl⟩
      rcases eq_or_ne g f with rfl | hne
      · exact ⟨_, vget_vset_self _ _ _⟩
      · exact ⟨_, vget_vset_ne _ _ _ _ hne⟩
    · exact ⟨Beside.say.msi, rfl⟩

theorem signal_H0_besideMsi (d : Dev) (n f : Bool) : BesideMsi d (signal d 0 n f) := by
  have hreq {c : Prop} [Decidable c] (z : Dev) (g : Fin 2) (v : Nat) : BesideMsi z (if c then msiReq z g v else z) := by
    split
    · exact (msiReq_besideMsi z g v).1
    · exact Beside.refl.msi
  unfold signal
  dsimp only
  rw [if_pos rfl]
  exact ((((wakeCheck_H0 d).trans Beside.onTarg).msi.trans (hreq _ _ _)).trans (hreq _ _ _))

/-- With MSI disabled in its function H0 requests no vector. -/
theorem signal_H0_off (n f : Bool) (h : (vget d.fn (h0Fn d)).msiEn = false) : Beside d (signal d 0 n f) := by
  unfold signal
  dsimp only
  rw [if_pos rfl]
  generalize hz : onTarg (wakeCheck d 0) 0 _ = z
  have hbz : Beside d z := hz ▸ (wakeCheck_H0 d).trans Beside.onTarg
  have hoff (v : Nat) : msiReq z (h0Fn z) v = z := msiReq_off (by rw [hbz.h0Fn, hbz.fn, h])
  simp only [hoff, ite_self]
  exact hbz

theorem unclaimH0_beside (h : (vget d.fn (h0Fn d)).msiEn = false) : Beside d (unclaimH0 d) := by
  have hrec : Beside d ((targOf d 0).ord.foldl (fun d k => onRec d 0 k fun r => { r with claimed := false }) d) :=
    Beside.foldl (fun _ _ => Beside.onTarg) _
  have hdue := hrec.trans (Beside.onTarg (t := 0) (u := fun x => { x with nDue := true }))
  exact hdue.trans (signal_H0_off _ _ (by rw [hdue.h0Fn, hdue.fn, h]))

end Beside

end Sys2Proof.Machine

/-! ### PCIe resets, power states and configuration requests (R71, R75, R83, R111) -/

namespace Sys2Proof.Machine

/-- The master that a function is. -/
def fnMaster (f : Fin 2) : Master := if f = 0 then .pf0 else .pf1

theorem stallsGone_rgn_congr {d x : Dev} {m : Master} (h : x.rgn = d.rgn) : (stallsGone x m).rgn = (stallsGone d m).rgn := by
  simp only [stallsGone, h]

/-- A function reset: the function is as at reset, its stalled pops are withdrawn, and nothing of blocks, domains and pattern changes. -/
theorem fnReset_effect (d : Dev) (f : Fin 2) :
    let t := fnReset d f
    t.blk = d.blk ∧ t.rgn = (stallsGone d (fnMaster f)).rgn ∧ t.dom = d.dom ∧ t.pat = d.pat ∧ t.perstN = d.perstN ∧
      t.fn = vset d.fn f (PcieFn.reset f) := by
  intro t
  have hgone := chanFnGone_beside { d with fn := vset d.fn f (PcieFn.reset f) } f
  have hdef : t = (let y := stallsGone (chanFnGone { d with fn := vset d.fn f (PcieFn.reset f) } f) (fnMaster f)
    if h0Fn y = f then unclaimH0 y else y) := rfl
  clear_value t
  generalize chanFnGone { d with fn := vset d.fn f (PcieFn.reset f) } f = x at hgone hdef
  have hfn : (stallsGone x (fnMaster f)).fn = vset d.fn f (PcieFn.reset f) := hgone.fn
  have ht : Beside (stallsGone x (fnMaster f)) t := by
    rw [hdef]
    dsimp only
    split
    · next h0 => exact unclaimH0_beside (by rw [h0, hfn, vget_vset_self]; rfl)
    · exact Beside.refl
  exact ⟨ht.blk.trans hgone.blk, ht.rgn.trans (stallsGone_rgn_congr hgone.rgn), ht.dom.trans hgone.dom, ht.pat.trans hgone.pat,
    ht.perstN.trans hgone.perstN, ht.fn.trans hfn⟩

/-- The entry into D3hot, of a function that answers. -/
theorem d3Enter_effect {d : Dev} {f : Fin 2} (hp : d.perstN = true) (hr : d.rstN = true) :
    let t := d3Enter d f
    (vget t.fn f).d3 = true ∧ t.blk = d.blk ∧ t.rgn = d.rgn ∧ t.dom = d.dom ∧ t.pat = d.pat := by
  intro t
  have ht : BesideMsi { d with fn := vset d.fn f { vget d.fn f with d3 := true } } t := by
    simp only [t, d3Enter, hp, hr, Bool.not_true, Bool.or_self, Bool.false_eq_true, if_false]
    exact (chanFnGone_beside _ f).msi.trans (signal_H0_besideMsi _ _ _)
  obtain ⟨p, hfn⟩ := ht.fn f
  refine ⟨?_, ht.blk, ht.rgn, ht.dom, ht.pat⟩
  rw [hfn, vget_vset_self]

/-- The return to D0. -/
theorem d0Enter_effect (d : Dev) (f : Fin 2) :
    let t := d0Enter d f
    (vget t.fn f).d3 = false ∧ t.blk = d.blk ∧ t.rgn = d.rgn := by
  dsimp only [d0Enter]
  split
  · next h => exact ⟨by simpa using h, rfl, rfl⟩
  · split
    · exact ⟨by rw [vget_vset_self], rfl, rfl⟩
    · have hs := (Beside.onTarg (d := { d with fn := vset d.fn f { vget d.fn f with d3 := false } }) (t := 0)
        (u := fun x => { x with woken := false, nSig := false, fSig := false })).msi.trans (signal_H0_besideMsi _ false false)
      obtain ⟨p, hfn⟩ := hs.fn f
      exact ⟨by rw [hfn, vget_vset_self], hs.blk, hs.rgn⟩

/-- MSI of a function enabled or disabled: no register changes. -/
theorem msiEnable_effect (d : Dev) (f : Fin 2) (on : Bool) : (vget (msiEnable d f on).fn f).msiEn = on ∧ (msiEnable d f on).regs = d.regs := by
  let z : Dev := onTarg { d with fn := vset d.fn f { vget d.fn f with msiEn := on } } 0 fun x => { x with nDue := false }
  have hz : (vget z.fn f).msiEn = on := by
    show (vget (vset d.fn f { vget d.fn f with msiEn := on }) f).msiEn = on
    rw [vget_vset_self]
  dsimp only [msiEnable]
  split
  · split
    · obtain ⟨hmsi, hregs⟩ := msiReq_besideMsi z f (z.fld TCfg.NVEC 0)
      obtain ⟨p, hfn⟩ := hmsi.fn f
      exact ⟨(congrArg PcieFn.msiEn hfn).trans hz, hregs⟩
    · exact ⟨hz, rfl⟩
  · exact ⟨hz, rfl⟩

/-- Messages to the host change no function and no register. -/
theorem foldl_say_kept {α : Type} (o : α → HostOut) (l : List α) (d : Dev) :
    (l.foldl (fun d v => d.say (o v)) d).fn = d.fn ∧ (l.foldl (fun d v => d.say (o v)) d).regs = d.regs := by
  induction l generalizing d with
  | nil => exact ⟨rfl, rfl⟩
  | cons v l ih => exact ih (d.say (o v))

theorem msiMaskPut_effect (d : Dev) (f : Fin 2) (m : BitVec 32) :
    (vget (msiMaskPut d f m).fn f).msiMask = m ∧ (msiMaskPut d f m).regs = d.regs := by
  obtain ⟨hfn, hregs⟩ := foldl_say_kept (fun v => HostOut.msi (f == 1) v)
    ((List.range 32).filter fun v => (vget d.fn f).msiEn && (vget d.fn f).msiPend.getLsbD v && !m.getLsbD v)
    { d with fn := vset d.fn f { vget d.fn f with msiMask := m, msiPend := if (vget d.fn f).msiEn then (vget d.fn f).msiPend &&& m else (vget d.fn f).msiPend } }
  refine ⟨(congrArg (fun v => (vget v f).msiMask) hfn).trans ?_, hregs⟩
  show (vget (vset d.fn f _) f).msiMask = m
  rw [vget_vset_self]

end Sys2Proof.Machine

/-! ### CHIP.MODE (R34, R35, R93, R103) -/

namespace Sys2Proof.Machine

/-- A one-bit CFG field of an M-type register takes its bit under its mask bit. -/
theorem fld_mCfg_bit {ι : Type} (d : Dev) (f : RF ι) (i : ι) (w : Word) (hlo : f.lo < 16) (hl : f.len = 1) :
    (mCfg d f i w).fld f i = if w.getLsbD (16 + f.lo) then (w.getLsbD f.lo).toNat else d.fld f i := by
  have hmask : mMask w / 2 ^ f.lo % 2 = (w.getLsbD (16 + f.lo)).toNat := by
    rw [← Nat.toNat_testBit, mMask, show 65536 = 2 ^ 16 by rfl, Nat.testBit_div_two_pow, BitVec.testBit_toNat, Nat.add_comm]
  have hval : w.toNat % 65536 / 2 ^ f.lo % 2 = (w.getLsbD f.lo).toNat := by
    rw [← Nat.toNat_testBit, show 65536 = 2 ^ 16 by rfl, Nat.testBit_mod_two_pow, BitVec.testBit_toNat, decide_eq_true hlo, Bool.true_and]
  have hlt : d.fld f i < 2 := by simpa [hl] using Dev.fld_lt d f i
  rw [mCfg, Dev.fld_put_self _ _ _ _ (by omega), hl, Nat.pow_one, hmask, hval]
  cases w.getLsbD (16 + f.lo) <;> cases w.getLsbD f.lo <;> interval_cases d.fld f i <;> rfl

/-- Fields of other bits stay. -/
theorem fld_mCfg_bits {ι : Type} (d : Dev) (f g : RF ι) (i : ι) (w : Word) (hf : f.lo + f.len ≤ 32)
    (h : f.lo + f.len ≤ g.lo ∨ g.lo + g.len ≤ f.lo) : (mCfg d f i w).fld g i = d.fld g i :=
  Dev.fld_put_bits _ _ _ _ _ _ hf h

/-- What a write to CHIP.MODE does before HEAT is judged: HEAT_REFUSED is cleared where it is written 1, and LEGACY taken. -/
def modeSet (d : Dev) (w : Word) : Dev :=
  mCfg (if (mOnes w).testBit 3 && !(d.hw.any fun m => m.1 == ChipMode.addr () && m.2.1 == 3) then d.clr ChipMode.HEAT_REFUSED () else d)
    ChipMode.LEGACY () w

theorem modeSet_onlyRegs (d : Dev) (w : Word) : OnlyRegs [ChipMode.addr ()] d (modeSet d w) := by
  unfold modeSet
  split
  · exact (onlyRegs_clr (by simp [ChipMode.HEAT_REFUSED])).trans (onlyRegs_mCfg (by simp [ChipMode.LEGACY]))
  · exact onlyRegs_mCfg (by simp [ChipMode.LEGACY])

theorem blocksIdle_of_onlyRegs {d x : Dev} (h : OnlyRegs [ChipMode.addr ()] d x) : blocksIdle x = blocksIdle d := by
  have hst (nn : Fin 16) : bkState x nn = bkState d nn :=
    h.fld (by simp [BkStat.STATE, BkStat.addr, ChipMode.addr, blockBase])
  simp only [blocksIdle, hst]

theorem marksAt_any (d : Dev) (a i : Nat) :
    (marksAt d a).any (fun m => m.1 == i) = d.hw.any fun m => m.1 == a && m.2.1 == i := by
  simp only [marksAt, List.any_map, List.any_filter, Function.comp_def]

theorem modeSet_fields (d : Dev) (w : Word) :
    (modeSet d w).fld ChipMode.LEGACY () = (if w.getLsbD 16 then (w.getLsbD 0).toNat else d.fld ChipMode.LEGACY ()) ∧
    (modeSet d w).fld ChipMode.HEAT () = d.fld ChipMode.HEAT () ∧
    (modeSet d w).fld ChipMode.HEAT_ACT () = d.fld ChipMode.HEAT_ACT () ∧
    (modeSet d w).fld ChipMode.HEAT_REFUSED () =
      if w.getLsbD 3 && w.getLsbD 19 && !((marksAt d (ChipMode.addr ())).any fun m => m.1 == 3) then 0 else d.fld ChipMode.HEAT_REFUSED () := by
  have hclr (g : RF Unit) (h : g.lo + g.len ≤ 3) : (d.clr ChipMode.HEAT_REFUSED ()).fld g () = d.fld g () := by
    rw [Dev.fld_clr]
    exact Dev.fld_put_bits _ _ _ _ _ _ (by decide) (Or.inr h)
  have hzero : (d.clr ChipMode.HEAT_REFUSED ()).fld ChipMode.HEAT_REFUSED () = 0 := by
    rw [Dev.fld_clr, Dev.fld_put_self _ _ _ _ (by decide)]
    rfl
  unfold modeSet
  rw [fld_mCfg_bit _ _ _ _ (by decide) rfl, fld_mCfg_bits _ _ ChipMode.HEAT _ _ (by decide) (by decide),
    fld_mCfg_bits _ _ ChipMode.HEAT_ACT _ _ (by decide) (by decide),
    fld_mCfg_bits _ _ ChipMode.HEAT_REFUSED _ _ (by decide) (by decide), mOnes_testBit _ _ (by decide), marksAt_any,
    show 3 + 16 = 19 by rfl, show 16 + ChipMode.LEGACY.lo = 16 by rfl, show ChipMode.LEGACY.lo = 0 by rfl]
  cases (w.getLsbD 3 && w.getLsbD 19 && !d.hw.any fun m => m.1 == ChipMode.addr () && m.2.1 == 3) with
  | false => exact ⟨rfl, rfl, rfl, rfl⟩
  | true => exact ⟨by rw [if_pos rfl, hclr _ (by decide)], hclr _ (by decide), hclr _ (by decide), hzero⟩

theorem modeSet_heat (d : Dev) (w : Word) : (mCfg (modeSet d w) ChipMode.HEAT () w).fld ChipMode.HEAT () =
    if w.getLsbD 17 then (w.getLsbD 1).toNat else d.fld ChipMode.HEAT () := by
  obtain ⟨-, hheat, -⟩ := modeSet_fields d w
  rw [fld_mCfg_bit _ _ _ _ (by decide) rfl, hheat, show 16 + ChipMode.HEAT.lo = 17 by rfl, show ChipMode.HEAT.lo = 1 by rfl]

/-- A write to CHIP.MODE takes HEAT where it may change. -/
theorem modeWrite_effect (d : Dev) (w : Word) :
    modeWrite d w =
      if w.getLsbD 17 = false ∨ (w.getLsbD 1).toNat = d.fld ChipMode.HEAT () ∨ blocksIdle d = true then mCfg (modeSet d w) ChipMode.HEAT () w
      else (modeSet d w).flag ChipMode.HEAT_REFUSED () := by
  obtain ⟨-, hheat, -⟩ := modeSet_fields d w
  have hidle := blocksIdle_of_onlyRegs (modeSet_onlyRegs d w)
  have hdef : modeWrite d w =
      if (mCfg (modeSet d w) ChipMode.HEAT () w).fld ChipMode.HEAT () ≠ (modeSet d w).fld ChipMode.HEAT () ∧ !blocksIdle (modeSet d w) then
        (modeSet d w).flag ChipMode.HEAT_REFUSED ()
      else mCfg (modeSet d w) ChipMode.HEAT () w := rfl
  rw [hdef, modeSet_heat, hheat, hidle]
  cases w.getLsbD 17 <;> cases blocksIdle d <;> simp

theorem modeWrite_onlyRegs (d : Dev) (w : Word) : OnlyRegs [ChipMode.addr ()] d (modeWrite d w) := by
  rw [modeWrite_effect]
  split
  · exact (modeSet_onlyRegs d w).trans (onlyRegs_mCfg (by simp [ChipMode.HEAT]))
  · exact (modeSet_onlyRegs d w).trans (onlyRegs_flag (by simp [ChipMode.HEAT_REFUSED]))

/-- The fields of CHIP.MODE after a write. -/
theorem modeWrite_fields (d : Dev) (w : Word) :
    (modeWrite d w).fld ChipMode.HEAT_ACT () = d.fld ChipMode.HEAT_ACT () ∧
    (modeWrite d w).fld ChipMode.LEGACY () = (if w.getLsbD 16 then (w.getLsbD 0).toNat else d.fld ChipMode.LEGACY ()) ∧
    (w.getLsbD 17 = false ∨ (w.getLsbD 1).toNat = d.fld ChipMode.HEAT () ∨ blocksIdle d = true →
      (modeWrite d w).fld ChipMode.HEAT () = (if w.getLsbD 17 then (w.getLsbD 1).toNat else d.fld ChipMode.HEAT ()) ∧
      (modeWrite d w).fld ChipMode.HEAT_REFUSED () =
        (if w.getLsbD 3 && w.getLsbD 19 && !((marksAt d (ChipMode.addr ())).any fun m => m.1 == 3) then 0 else d.fld ChipMode.HEAT_REFUSED ())) ∧
    (w.getLsbD 17 = true → (w.getLsbD 1).toNat ≠ d.fld ChipMode.HEAT () → blocksIdle d = false →
      (modeWrite d w).fld ChipMode.HEAT () = d.fld ChipMode.HEAT () ∧ (modeWrite d w).fld ChipMode.HEAT_REFUSED () = 1) := by
  obtain ⟨hlegacy, hheat, hact, href⟩ := modeSet_fields d w
  have hkeep (g : RF Unit) (h : 2 ≤ g.lo ∨ g.lo + g.len ≤ 1) : (mCfg (modeSet d w) ChipMode.HEAT () w).fld g () = (modeSet d w).fld g () :=
    fld_mCfg_bits _ _ g _ _ (by decide) h
  have hflag (g : RF Unit) (h : g.lo + g.len ≤ 3) : ((modeSet d w).flag ChipMode.HEAT_REFUSED ()).fld g () = (modeSet d w).fld g () :=
    Dev.fld_put_bits _ _ _ g () 1 (by decide) (Or.inr h)
  rw [modeWrite_effect]
  split
  · next htake =>
    refine ⟨(hkeep _ (by decide)).trans hact, (hkeep _ (by decide)).trans hlegacy, fun _ => ⟨?_, (hkeep _ (by decide)).trans href⟩, ?_⟩
    · exact modeSet_heat d w
    · intro hmask hne hbusy
      exact absurd htake (not_or.2 ⟨by rw [hmask]; decide, not_or.2 ⟨hne, by rw [hbusy]; decide⟩⟩)
  · next hturn =>
    refine ⟨(hflag _ (by decide)).trans hact, (hflag _ (by decide)).trans hlegacy, fun h => absurd h hturn, fun _ _ _ => ⟨(hflag _ (by decide)).trans hheat, ?_⟩⟩
    exact Dev.fld_put_self _ _ _ _ (by decide)

/-- A mask bit that is written counts once. -/
theorem or_bit_of_getLsbD {w : Word} {b : Fin 32} (h : w.getLsbD b.val = true) : w ||| BitVec.ofNat 32 (2 ^ b.val) = w := by
  have hbits : ∀ b i : Fin 32, (BitVec.ofNat 32 (2 ^ b.val)).getLsbD i.val = (i.val == b.val) := by decide
  refine BitVec.eq_of_getLsbD_eq fun i hi => ?_
  rw [BitVec.getLsbD_or, hbits b ⟨i, hi⟩]
  by_cases he : i = b.val <;> simp [he, h]

theorem modeHost_reaches {d : Dev} {h : Master} {w : Word} {rest : List Instr} (hr : Reaches d h (ChipMode.addr ()) unitChip)
    (hrsv : mRsv 0xFFF0 w = 0) : modeHost ⟨rest, d⟩ h w = .next ⟨rest, modeWrite d w⟩ :=
  hostW_reaches hr (by simp) hrsv

/-- Either command of CHIP.MODE with its own mask bit written. -/
theorem gives_modeWrite {d : Dev} {h : Master} {w : Word} {c : Instr} (hr : Reaches d h (ChipMode.addr ()) unitChip) (hrsv : mRsv 0xFFF0 w = 0)
    (hc : (c = .heatWrite h w ∧ w.getLsbD 17 = true) ∨ (c = .legacyWrite h w ∧ w.getLsbD 16 = true)) : Gives c d (modeWrite d w) := by
  intro rest
  rcases hc with ⟨rfl, hbit⟩ | ⟨rfl, hbit⟩
  · show modeHost ⟨rest, d⟩ h (w ||| 0x20000) = _
    rw [show w ||| 0x20000 = w from or_bit_of_getLsbD (b := 17) hbit]
    exact modeHost_reaches hr hrsv
  · show modeHost ⟨rest, d⟩ h (w ||| 0x10000) = _
    rw [show w ||| 0x10000 = w from or_bit_of_getLsbD (b := 16) hbit]
    exact modeHost_reaches hr hrsv

end Sys2Proof.Machine

/-! ### PCIe resets, configuration requests and CHIP.MODE together (O13) -/

namespace Sys2Proof.Machine

/-- What a configuration request does to a function that answers (R83, R111). -/
def cfgReqDone (d : Dev) (f : Fin 2) : CfgReq → Dev
  | .busMaster true => { d with fn := vset d.fn f { vget d.fn f with busMaster := true } }
  | .busMaster false => chanFnGone { d with fn := vset d.fn f { vget d.fn f with busMaster := false } } f
  | .msiEnable on => msiEnable d f on
  | .msiMask m => msiMaskPut d f m
  | .errReport on => { d with fn := vset d.fn f { vget d.fn f with errEn := on } }
  | .aerClear => { d with fn := vset d.fn f { vget d.fn f with aerCA := false } }
  | .bar0 w => { d with fn := vset d.fn f { vget d.fn f with bar0 := w &&& 0xF8000000 } }
  | .toD0 => d0Enter d f
  | .toD3hot => d3Enter d f
  | .maxPayload c => { d with fn := vset d.fn f { vget d.fn f with maxPay := c } }
  | .maxReadRequest c => { d with fn := vset d.fn f { vget d.fn f with maxRead := c } }

/-- While PERST_N and RST_N are high a request is carried out. -/
theorem gives_pcieConfigRequest {d : Dev} (f : Fin 2) (r : CfgReq) (hp : d.perstN = true) (hr : d.rstN = true) :
    Gives (.pcieConfigRequest f r) d (cfgReqDone d f r) := by
  intro rest
  show execPcieConfigRequest f r ⟨rest, d⟩ = _
  have hon : (!d.perstN || !d.rstN) = false := by rw [hp, hr]; rfl
  simp only [execPcieConfigRequest, onDev, hon, Bool.false_eq_true, if_false]
  cases r with
  | busMaster on => cases on <;> rfl
  | _ => rfl

theorem perstN_effect (d : Dev) : Completes .perstN d fun t => t.perstN = false ∧ (∀ f, vget t.fn f = PcieFn.reset f) ∧
    t.blk = d.blk ∧ t.rgn = (stallsGone (stallsGone d .pf0) .pf1).rgn ∧ t.dom = d.dom ∧ t.pat = d.pat := by
  let x := fnReset { d with perstN := false } 0
  obtain ⟨hblk, hrgn, hdom, hpat, hperst, hfn⟩ := fnReset_effect { d with perstN := false } 0
  obtain ⟨hblk', hrgn', hdom', hpat', hperst', hfn'⟩ := fnReset_effect x 1
  refine fun rest => ⟨fnReset x 1, rfl, hperst'.trans hperst, fun f => ?_, hblk'.trans hblk,
    hrgn'.trans (stallsGone_rgn_congr hrgn), hdom'.trans hdom, hpat'.trans hpat⟩
  rw [hfn', show x.fn = _ from hfn]
  fin_cases f
  · exact (vget_vset_ne _ _ _ _ (by decide)).trans (vget_vset_self _ _ _)
  · exact vget_vset_self _ _ _

theorem functionLevelReset_effect (d : Dev) (f : Fin 2) : Completes (.functionLevelReset f) d fun t => vget t.fn f = PcieFn.reset f ∧
    (∀ g, g ≠ f → vget t.fn g = vget d.fn g) ∧ t.perstN = d.perstN ∧ t.blk = d.blk ∧
    t.rgn = (stallsGone d (if f = 0 then .pf0 else .pf1)).rgn ∧ t.dom = d.dom ∧ t.pat = d.pat := by
  obtain ⟨hblk, hrgn, hdom, hpat, hperst, hfn⟩ := fnReset_effect d f
  refine fun rest => ⟨fnReset d f, rfl, ?_, fun g hg => ?_, hperst, hblk, hrgn, hdom, hpat⟩
  · rw [hfn, vget_vset_self]
  · rw [hfn, vget_vset_ne _ _ _ _ hg]

/-- Settles O13: a function reset and D3hot touch the functions and what Ladle, the host window and the targets hold of them,
a configuration request its own function, and a write to CHIP.MODE that register. -/
theorem pcieFunctionsAndMode : Obligations.PcieFunctionsAndMode := by
  unfold Obligations.PcieFunctionsAndMode
  refine ⟨fun d rest => rfl, fun d rest => rfl, perstN_effect, functionLevelReset_effect, fun d f hp hr rest => ?_, fun d f hp hr => ?_,
    fun d f r hoff => ?_, fun d h w c hreach hrsv hc => ?_, fun h w s => ⟨?_, ?_⟩⟩
  · exact ⟨d3Enter d f, rfl, d3Enter_effect hp hr⟩
  · have hreq (r : CfgReq) := gives_pcieConfigRequest f r hp hr
    obtain ⟨hd3, hblk3, hrgn3, -⟩ := d3Enter_effect (f := f) hp hr
    have hgone := chanFnGone_beside { d with fn := vset d.fn f { vget d.fn f with busMaster := false } } f
    have hmaster : (vget (cfgReqDone d f (.busMaster false)).fn f).busMaster = false :=
      (congrArg (fun v => (vget v f).busMaster) hgone.fn).trans (by rw [vget_vset_self])
    exact ⟨hreq (.busMaster true), (hreq _).completes ⟨hmaster, hgone.blk, hgone.rgn⟩, fun on => (hreq _).completes (msiEnable_effect d f on),
      fun m => (hreq _).completes (msiMaskPut_effect d f m), fun on => hreq (.errReport on), hreq .aerClear, fun c => hreq (.maxPayload c),
      fun c => hreq (.maxReadRequest c), fun w => hreq (.bar0 w), (hreq _).completes (d0Enter_effect d f),
      (hreq _).completes ⟨hd3, hblk3, hrgn3⟩⟩
  · have hno : (!d.perstN || !d.rstN) = true := by rcases hoff with h | h <;> simp [h]
    refine ⟨fun rest => ?_, fun rest => ?_⟩
    · show execPcieConfigRequest f r ⟨rest, d⟩ = _
      simp [execPcieConfigRequest, onDev, hno]
    · show execD3hotEntry f ⟨rest, d⟩ = _
      simp [execD3hotEntry, d3Enter, onDev, hno]
  · exact (gives_modeWrite hreach hrsv hc).completes ⟨modeWrite_onlyRegs d w, modeWrite_fields d w⟩
  · show modeHost s h (w ||| 0x20000) = modeHost s h ((w ||| 0x20000) ||| 0x20000)
    rw [BitVec.or_assoc, BitVec.or_self]
  · show modeHost s h (w ||| 0x10000) = modeHost s h ((w ||| 0x10000) ||| 0x10000)
    rw [BitVec.or_assoc, BitVec.or_self]

end Sys2Proof.Machine

/-! ### What the runner's step to the next slot leaves alone (R131, R133, R135) -/

namespace Sys2Proof.Machine

/-- The registers of block nn that its runner writes when it goes on, the end of the table, a trigger and a DISARM included. -/
def runnerRegs (nn : Fin 16) : List Nat :=
  [Rlate.addr nn, Rstat.addr nn, Rcnt.addr nn, Rctl.addr nn, Pstat.addr nn, Wdog.addr nn, BkCtl.addr nn, BkStat.addr nn, HspCtl.addr nn,
    Kstat.addr nn]

/-- Of what slots work on, all stands but the runner's registers: operand file, pulse-table row pending, duties, messages and trace. -/
structure RunnerStep (nn : Fin 16) (x t : Dev) : Prop where
  regs : RegsKept (runnerRegs nn) x t
  opf : (t.b nn).opf = (x.b nn).opf
  ptPend : (t.b nn).ptPend = (x.b nn).ptPend
  duty : ∀ l, (legOf t (nn, l)).duty = (legOf x (nn, l)).duty
  evq : t.evq = x.evq
  trace : t.trace = x.trace
  tseq : t.tseq = x.tseq

section RunnerStep

variable {nn : Fin 16} {x y z : Dev}

theorem RunnerStep.refl : RunnerStep nn x x := ⟨fun _ _ => rfl, rfl, rfl, fun _ => rfl, rfl, rfl, rfl⟩

theorem RunnerStep.trans (h1 : RunnerStep nn x y) (h2 : RunnerStep nn y z) : RunnerStep nn x z :=
  ⟨fun a ha => (h2.regs a ha).trans (h1.regs a ha), h2.opf.trans h1.opf, h2.ptPend.trans h1.ptPend, fun l => (h2.duty l).trans (h1.duty l),
    h2.evq.trans h1.evq, h2.trace.trans h1.trace, h2.tseq.trans h1.tseq⟩

theorem RunnerStep.ite {c : Prop} [Decidable c] (hy : RunnerStep nn x y) (hz : RunnerStep nn x z) : RunnerStep nn x (if c then y else z) := by
  split <;> assumption

theorem RunnerStep.fld {ι : Type} {f : RF ι} {i : ι} (h : RunnerStep nn x y) (ha : f.addr i ∉ runnerRegs nn) : y.fld f i = x.fld f i :=
  congrArg (fget f.lo f.len) (h.regs _ ha)

theorem RunnerStep.bit {ι : Type} {f : RF ι} {i : ι} (h : RunnerStep nn x y) (ha : f.addr i ∉ runnerRegs nn) : y.bit f i = x.bit f i := by
  rw [Dev.bit, h.fld ha, Dev.bit]

theorem RunnerStep.ofU (h : RunnerStep nn x y) (i : Nat) : (y.b nn).ofU i = (x.b nn).ofU i := by
  rw [Blk.ofU, h.opf, Blk.ofU]

theorem runnerStep_of_onlyRegs {as : List Nat} (h : OnlyRegs as x y) (hs : as ⊆ runnerRegs nn) : RunnerStep nn x y where
  regs a ha := h.2 a fun hin => ha (hs hin)
  opf := congrArg Blk.opf (h.b nn)
  ptPend := congrArg Blk.ptPend (h.b nn)
  duty l := congrArg (fun b : Blk => (vget b.leg l).duty) (h.b nn)
  evq := h.evq
  trace := (congrArg Dev.trace h.1 :)
  tseq := (congrArg Dev.tseq h.1 :)

/-- A change of block nn that leaves operand file, row pending and duties. -/
theorem runnerStep_onB {u : Blk → Blk} (hopf : (u (x.b nn)).opf = (x.b nn).opf) (hpend : (u (x.b nn)).ptPend = (x.b nn).ptPend)
    (hduty : ∀ l, (vget (u (x.b nn)).leg l).duty = (vget (x.b nn).leg l).duty) : RunnerStep nn x (x.onB nn u) where
  regs _ _ := rfl
  opf := by rw [Dev.b_onB_self, hopf]
  ptPend := by rw [Dev.b_onB_self, hpend]
  duty l := by rw [legOf, Dev.b_onB_self, hduty, legOf]
  evq := rfl
  trace := rfl
  tseq := rfl

theorem runnerStep_onTw {u : Twin → Twin} : RunnerStep nn x (x.onTw u) := ⟨fun _ _ => rfl, rfl, rfl, fun _ => rfl, rfl, rfl, rfl⟩

theorem runnerStep_twSend {m : TwMsg} : RunnerStep nn x (twSend x m) := RunnerStep.refl.ite runnerStep_onTw

section Field

variable {f : RF (Fin 16)} (ha : f.addr nn ∈ runnerRegs nn)
include ha

theorem runnerStep_put {v : Nat} : RunnerStep nn x (x.put f nn v) := runnerStep_of_onlyRegs (onlyRegs_put (List.mem_singleton_self _)) (by simpa using ha)
theorem runnerStep_clr : RunnerStep nn x (x.clr f nn) := runnerStep_put ha
theorem runnerStep_putB {b : Bool} : RunnerStep nn x (x.putB f nn b) := runnerStep_put ha
theorem runnerStep_flag : RunnerStep nn x (x.flag f nn) := (runnerStep_put ha (v := 1)).trans ⟨fun _ _ => rfl, rfl, rfl, fun _ => rfl, rfl, rfl, rfl⟩
theorem runnerStep_inc : RunnerStep nn x (x.inc f nn) :=
  (runnerStep_put ha (v := x.fld f nn + 1)).trans ⟨fun _ _ => rfl, rfl, rfl, fun _ => rfl, rfl, rfl, rfl⟩
theorem runnerStep_incBy {n : Nat} : RunnerStep nn x (x.incBy f nn n) :=
  (runnerStep_put ha (v := x.fld f nn + n)).trans ⟨fun _ _ => rfl, rfl, rfl, fun _ => rfl, rfl, rfl, rfl⟩
theorem runnerStep_cmdDone : RunnerStep nn x (x.cmdDone f nn) :=
  RunnerStep.ite ⟨fun _ _ => rfl, rfl, rfl, fun _ => rfl, rfl, rfl, rfl⟩ (runnerStep_clr ha)

end Field

/-- Entries of the runner's registers. -/
theorem mem_runnerRegs (nn : Fin 16) : Rlate.addr nn ∈ runnerRegs nn ∧ Rstat.addr nn ∈ runnerRegs nn ∧ Rcnt.addr nn ∈ runnerRegs nn ∧
    Rctl.addr nn ∈ runnerRegs nn ∧ Pstat.addr nn ∈ runnerRegs nn ∧ Wdog.addr nn ∈ runnerRegs nn ∧ BkCtl.addr nn ∈ runnerRegs nn ∧
    BkStat.addr nn ∈ runnerRegs nn ∧ HspCtl.addr nn ∈ runnerRegs nn ∧ Kstat.addr nn ∈ runnerRegs nn := by
  simp [runnerRegs]

theorem setSwapPend_runnerStep (x : Dev) (nn : Fin 16) : RunnerStep nn x (setSwapPend x nn) :=
  runnerStep_of_onlyRegs (setSwapPend_onlyRegs x nn) (by simp [runnerRegs])

/-! #### DISARM that completes at the end of the table (R85) -/

theorem blkDone_runnerStep (x : Dev) (nn : Fin 16) : RunnerStep nn x (blkDone x BkCtl.DISARM nn) := by
  obtain ⟨-, -, -, -, -, -, hctl, hstat, -⟩ := mem_runnerRegs nn
  exact RunnerStep.ite (((runnerStep_cmdDone hctl).trans (runnerStep_clr hctl)).trans
    ((runnerStep_flag hstat).trans (runnerStep_put hstat))) (runnerStep_clr hctl)

theorem dropHost_runnerStep (x : Dev) (nn : Fin 16) : RunnerStep nn x (dropHost x nn true) := by
  obtain ⟨-, hrstat, -, hrctl, -⟩ := mem_runnerRegs nn
  exact RunnerStep.ite RunnerStep.refl (((runnerStep_clr hrctl).trans (runnerStep_onB rfl rfl fun _ => rfl)).trans (runnerStep_flag hrstat))

theorem dropTrig_runnerStep (x : Dev) (nn : Fin 16) : RunnerStep nn x (dropTrig x nn true) := by
  obtain ⟨-, hrstat, -⟩ := mem_runnerRegs nn
  exact RunnerStep.ite RunnerStep.refl ((runnerStep_onB rfl rfl fun _ => rfl).trans (runnerStep_flag hrstat))

theorem hspCopy_runnerStep (x : Dev) (nn : Fin 16) : RunnerStep nn x (hspCopy x nn) :=
  forAll_induction (fun _ y => RunnerStep nn x y) RunnerStep.refl fun _ _ h => h.trans (runnerStep_onB rfl rfl fun _ => rfl)

theorem hspHeld_runnerStep (x : Dev) (nn : Fin 16) : RunnerStep nn x (hspHeld x nn) := by
  obtain ⟨-, -, -, -, -, -, -, -, hhsp, hkstat⟩ := mem_runnerRegs nn
  have hcommit (y : Dev) : RunnerStep nn y (if y.bit HspCtl.COMMIT nn then hspCommit y nn else y) :=
    RunnerStep.ite (((hspCopy_runnerStep y nn).trans (runnerStep_cmdDone hhsp)).trans (runnerStep_inc hkstat)) RunnerStep.refl
  exact (hcommit x).trans (hcommit _)

theorem heldEntry_runnerStep (x : Dev) (nn : Fin 16) : RunnerStep nn x (heldEntry x nn) := by
  obtain ⟨-, hrstat, -, -, hpstat, -, -, hstat, -⟩ := mem_runnerRegs nn
  unfold heldEntry
  extract_lets lapsed held flags state boundary
  have hlapsed : RunnerStep nn x lapsed := (dropHost_runnerStep x nn).trans (dropTrig_runnerStep _ nn)
  have hheld : RunnerStep nn x held := hlapsed.trans (hspHeld_runnerStep _ nn)
  have hflags : RunnerStep nn x flags :=
    hheld.trans (((runnerStep_clr hpstat).trans (runnerStep_clr hpstat)).trans (runnerStep_clr hpstat))
  have hstate : RunnerStep nn x state :=
    hflags.trans (((runnerStep_clr hrstat).trans (runnerStep_clr hrstat)).trans (runnerStep_put hstat))
  have hboundary : RunnerStep nn x boundary := hstate.trans (runnerStep_onB rfl rfl fun l => by simp [vget])
  exact hboundary.trans (setSwapPend_runnerStep _ nn)

theorem disarmDone_runnerStep (x : Dev) (nn : Fin 16) : RunnerStep nn x (disarmDone x nn) := by
  obtain ⟨-, -, -, -, -, -, -, hstat, -⟩ := mem_runnerRegs nn
  exact ((blkDone_runnerStep x nn).trans (heldEntry_runnerStep _ nn)).trans (runnerStep_putB hstat)

/-! #### The end of the table and the next slot -/

theorem evalTrigger_runnerStep (x : Dev) (nn : Fin 16) : RunnerStep nn x (evalTrigger x nn) := by
  have hset (y : Dev) (q : Option Bool) : RunnerStep nn y (setSwapPend (y.onB nn fun b => { b with swTrig := q }) nn) :=
    (runnerStep_onB rfl rfl fun _ => rfl).trans (setSwapPend_runnerStep _ nn)
  exact RunnerStep.ite RunnerStep.refl (RunnerStep.ite (hset _ _) RunnerStep.refl)

theorem logCycle_runnerStep (x : Dev) (nn : Fin 16) : RunnerStep nn x (logCycle x nn) := by
  unfold logCycle
  split
  · exact RunnerStep.refl
  · exact runnerStep_onTw.trans runnerStep_twSend

theorem cycleDone_runnerStep (x : Dev) (nn : Fin 16) : RunnerStep nn x (cycleDone x nn) := by
  obtain ⟨-, hrstat, -, -, hpstat, hwdog, -⟩ := mem_runnerRegs nn
  unfold cycleDone
  extract_lets b miss wd dig cyc stat bound trig
  have hmiss : RunnerStep nn x miss := RunnerStep.ite RunnerStep.refl (runnerStep_clr hpstat)
  have hstat : RunnerStep nn x stat := (hmiss.trans (runnerStep_clr hwdog)).trans ((runnerStep_clr hrstat).trans (runnerStep_flag hrstat))
  have hbound : RunnerStep nn x bound := hstat.trans (runnerStep_onB rfl rfl fun _ => rfl)
  have htrig : RunnerStep nn x trig := (hbound.trans (evalTrigger_runnerStep _ nn)).trans (logCycle_runnerStep _ nn)
  exact RunnerStep.ite (htrig.trans (disarmDone_runnerStep _ nn)) htrig

theorem skipDrops_runnerStep (x : Dev) (nn : Fin 16) : RunnerStep nn x (skipDrops x nn) := by
  obtain ⟨-, hrstat, hrcnt, -⟩ := mem_runnerRegs nn
  unfold skipDrops
  extract_lets b k slots n counted next
  have hcounted : RunnerStep nn x counted := runnerStep_incBy hrcnt
  exact RunnerStep.ite (hcounted.trans ((runnerStep_put hrstat).trans (runnerStep_putB hrstat))) (hcounted.trans (cycleDone_runnerStep _ nn))

theorem slotNext_runnerStep (x : Dev) (nn : Fin 16) : RunnerStep nn x (slotNext x nn) := by
  obtain ⟨-, hrstat, -⟩ := mem_runnerRegs nn
  exact RunnerStep.ite ((runnerStep_put hrstat).trans (skipDrops_runnerStep _ nn)) (cycleDone_runnerStep x nn)

end RunnerStep

/-- A slot command whose opcode is that of the slot at the pointer completes with what holds after the slot's own work and the step to the
next slot. -/
theorem completes_of_runSlotOf {c : Instr} {op : Nat} {nn : Fin 16} {late : Nat} {f : Dev → DWord → Dev} {d : Dev} {w : DWord} {P : Dev → Prop}
    (hexec : ∀ s, exec c s = runSlotOf op nn late s f) (hu : unitBlk nn ∉ d.undef) (hw : slotNow d nn = some w) (hop : sOp w = op)
    (h : ∀ e t, OnlyRegs [Rlate.addr nn] d e → RunnerStep nn (f e w) t → P t) : Completes c d P := by
  intro rest
  let e := d.put Rlate.MAXLATE nn (min (max (d.fld Rlate.MAXLATE nn) late) (2 ^ 20 - 1))
  refine ⟨slotNext (f e w) nn, ?_, h e _ (onlyRegs_put (List.mem_singleton_self _)) (slotNext_runnerStep _ nn)⟩
  rw [hexec, runSlotOf, onBlock_known hu]
  simp only [hw, hop, if_true, e]

end Sys2Proof.Machine

/-! ### What the slots do to the operand file, the board, legs, windows and trace -/

namespace Sys2Proof.Machine

/-! #### Entries of the operand file (R130) -/

theorem sf_lt (w : DWord) (lo len : Nat) : sf w lo len < 2 ^ len := (w.extractLsb' lo len).isLt

theorem Blk.ofU_lt (b : Blk) (i : Nat) : b.ofU i < 2 ^ 20 := (vget b.opf _).isLt

theorem Blk.ofU_congr {b c : Blk} (h : c.opf = b.opf) (i : Nat) : c.ofU i = b.ofU i := by rw [ofU, h, ofU]

/-- An entry after one of them is written. -/
theorem Blk.ofU_putU (b : Blk) (i j v : Nat) : (b.putU i v).ofU j = if j % 64 = i % 64 then v % 2 ^ 20 else b.ofU j := by
  unfold ofU putU
  split
  · next h =>
    rw [show (⟨j % 64, Nat.mod_lt _ (by omega)⟩ : Fin 64) = ⟨i % 64, Nat.mod_lt _ (by omega)⟩ from Fin.ext h, vget_vset_self, BitVec.toNat_ofNat]
  · next h => rw [vget_vset_ne _ _ _ _ fun e => h (congrArg Fin.val e)]

/-- A pair written holds the 40 bits of its value, high entry even; the other entries stand. -/
theorem Blk.ofU_putP (b : Blk) (dest j v : Nat) (hj : j < 64) (hd : dest < 64) : (b.putP dest (Int.ofNat v)).ofU j =
    if j = dest / 2 * 2 + 1 then v % 2 ^ 20 else if j = dest / 2 * 2 then v / 2 ^ 20 % 2 ^ 20 else b.ofU j := by
  have hux : ux 40 (Int.ofNat v) = v % 2 ^ 40 := by
    unfold ux
    rw [show (Int.ofNat v) % 2 ^ 40 = ((v % 2 ^ 40 : Nat) : Int) by simp, Int.toNat_natCast]
  rw [Blk.putP, Blk.ofU_putU, Blk.ofU_putU, hux, Nat.mod_eq_of_lt hj, Nat.mod_eq_of_lt (show dest / 2 * 2 + 1 < 64 by omega),
    Nat.mod_eq_of_lt (show dest / 2 * 2 < 64 by omega)]
  congr 1
  · omega
  · congr 1
    omega

theorem Blk.ofPH_putP (b : Blk) {dest v : Nat} (hd : dest < 64) (hv : v < 2 ^ 40) :
    (b.putP dest (Int.ofNat v)).ofPH (dest / 2 * 2) = v := by
  rw [Blk.ofPH, show dest / 2 * 2 / 2 * 2 = dest / 2 * 2 by omega, Blk.ofU_putP _ _ _ _ (by omega) hd, Blk.ofU_putP _ _ _ _ (by omega) hd,
    if_neg (by omega), if_pos rfl, if_pos rfl]
  omega

/-! #### The work of each slot by name -/

/-- The work of a SAMPLE slot (R131, R184). -/
def sampleDo (d : Dev) (nn : Fin 16) (w : DWord) : Dev :=
  logIn (forAll d fun d (f : Fin 4) =>
    if (sf w 0 4).testBit f.val then d.onB nn fun b => b.putU (sf w 4 6 + f.val) (d.fld FcRes.V (nn, f)) else d)
    nn (((List.range 4).filter fun f => (sf w 0 4).testBit f).map fun f => sf w 4 6 + f)

/-- The row of a block with COUNT values from OF(BASE) on written at VAL (R19). -/
def publishRow (d : Dev) (nn : Fin 16) (v n : Nat) (vals : List Nat) : Dev :=
  forAll d fun d (j : Fin 16) => if v ≤ j.val ∧ j.val < v + n then vbWrite d nn j ((vals[j.val - v]?).getD 0) else d

/-- The values that a PUBLISH slot puts on the board. -/
def publishVals (d : Dev) (nn : Fin 16) (w : DWord) : List Nat :=
  (List.range (sf w 4 4 + 1)).map fun i => (d.b nn).ofU (sf w 8 6 + i)

/-- The work of a PUBLISH slot (R19, R21, R25). -/
def publishDo (d : Dev) (nn : Fin 16) (w : DWord) : Dev :=
  digAdd ((publishRow (rowKeep d nn) nn (sf w 0 4) (sf w 4 4 + 1) (publishVals d nn w)).inc VbSeq.SEQ nn) nn (publishVals d nn w)

/-- Value i that a CONSUME slot reads (R21 to R24). -/
def consumeVal (d : Dev) (nn : Fin 16) (w : DWord) (i : Nat) : Nat :=
  boardVal d nn ⟨sf w 0 4 % 16, Nat.mod_lt _ (by omega)⟩ ⟨(sf w 4 4 + i) % 16, Nat.mod_lt _ (by omega)⟩

/-- The work of a CONSUME slot (R131). -/
def consumeDo (d : Dev) (nn : Fin 16) (w : DWord) : Dev :=
  let one := d.onB nn fun b => b.putU (sf w 9 6) (consumeVal d nn w 0)
  logIn (if sf w 8 1 = 1 then one.onB nn fun b => b.putU (sf w 9 6 + 1) (consumeVal d nn w 1) else one) nn
    (if sf w 8 1 = 1 then [sf w 9 6, sf w 9 6 + 1] else [sf w 9 6])

/-- The window of an OPEN slot. -/
def openWin (w : DWord) : Fin 32 := ⟨sf w 0 5 % 32, Nat.mod_lt _ (by omega)⟩

/-- The entries that an OPEN slot puts into its window. -/
def openEnts (d : Dev) (nn : Fin 16) (w : DWord) : List Nat := (List.range (sf w 11 5)).map fun i => (d.b nn).ofU (sf w 5 6 + i)

/-- The buffer of a window filled with a payload (R330). -/
def openFill (d : Dev) (p : Fin 4) (w : Fin 32) (v : Nat) : Dev :=
  forAll d fun d (i : Fin 16) => d.setReg (WBuf.addr (p, w, i)) (BitVec.ofNat 32 (v / 2 ^ (32 * i.val)))

/-- FRESH and OPENS of the window in both ports of a pair (R299, R332). -/
def openFresh (d : Dev) (p : Fin 4) (w : Fin 32) : Dev :=
  match pairB (winFresh d p w) p with
  | some q => winFresh (winFresh d p w) q w
  | none => winFresh d p w

/-- The work of an OPEN slot (R330). -/
def openDo (d : Dev) (nn : Fin 16) (w : DWord) : Dev :=
  let v := winPack (d.bit WCfg1.PACK (rgnOf nn, openWin w)) (openEnts d nn w)
  openFresh (digAdd (if sf w 11 5 = 0 then d else openFill d (rgnOf nn) (openWin w) v) nn (openEnts d nn w)) (rgnOf nn) (openWin w)

/-- The 40 bits that a CAPTURE slot latches (R205, R208). -/
def captureVal (d : Dev) (nn : Fin 16) (w : DWord) : Nat :=
  match sf w 0 2 with
  | 0 => ux 40 (encOf d nn).pos
  | 1 => domPH40 d (curHdr d nn).domain
  | 2 => domPH40 d ⟨sf w 2 3 % 8, Nat.mod_lt _ (by omega)⟩
  | _ => (if d.bit PcCfg.WHAT nn then d.fld PcPhHi.V nn else d.fld PcPosHi.V nn) * 2 ^ 20 +
      if d.bit PcCfg.WHAT nn then d.fld PcPhLo.V nn else d.fld PcPosLo.V nn

/-- The registers of the cell that a CAPTURE slot reads, after it (R205, R207). -/
def captureCell (d : Dev) (nn : Fin 16) (w : DWord) : Dev :=
  match sf w 0 2 with
  | 0 => putWide d EcLhi.V EcLlo.V nn (ux 40 (encOf d nn).pos) true
  | 1 => d
  | 2 => d
  | _ => (d.clr PcStat.NEW nn).flag PcStat.ARMED nn

/-- The work of a CAPTURE slot (R131). -/
def captureDo (d : Dev) (nn : Fin 16) (w : DWord) : Dev :=
  logIn ((captureCell d nn w).onB nn fun b => b.putP (sf w 5 6) (Int.ofNat (captureVal d nn w))) nn
    [sf w 5 6 / 2 * 2, sf w 5 6 / 2 * 2 + 1]

/-- The trace record that a MARK slot of an enabled block offers (R374). -/
def markTrace (d : Dev) (nn : Fin 16) (w : DWord) : Dev :=
  if sf w 16 1 = 1 ∧ (d.fld TrcCfg.BLK ()).testBit nn.val then
    traceAdd d d.clk (BitVec.ofNat 32 (sf w 0 16 + nn.val * 2 ^ 16 + d.fld Rstat.SLOT nn * 2 ^ 21 + (curBank d nn).toNat * 2 ^ 29)) (d.fld BkStat.CYC nn)
  else d

/-- The work of a MARK slot (R131, R358, R374). -/
def markDo (d : Dev) (nn : Fin 16) (w : DWord) : Dev :=
  if sf w 17 1 = 1 then (markTrace d nn w).raise (bkSrc nn 3) (sf w 0 16) else markTrace d nn w

section Exec

variable (nn : Fin 16) (late : Nat) (s : State)

theorem exec_sampleSlot : exec (.sampleSlot nn late) s = runSlotOf 0 nn late s fun d w => sampleDo d nn w := rfl
theorem exec_updateSlot : exec (.updateSlot nn late) s = runSlotOf 2 nn late s fun d w => updateDo d nn w := rfl
theorem exec_publishSlot : exec (.publishSlot nn late) s = runSlotOf 3 nn late s fun d w => publishDo d nn w := rfl
theorem exec_consumeSlot : exec (.consumeSlot nn late) s = runSlotOf 4 nn late s fun d w => consumeDo d nn w := rfl
theorem exec_openSlot : exec (.openSlot nn late) s = runSlotOf 5 nn late s fun d w => openDo d nn w := rfl
theorem exec_markSlot : exec (.markSlot nn late) s = runSlotOf 7 nn late s fun d w => markDo d nn w := rfl

theorem exec_captureSlot : exec (.captureSlot nn late) s = runSlotOf 6 nn late s fun d w => captureDo d nn w := by
  show execCaptureSlot nn late s = _
  unfold execCaptureSlot
  congr 1
  funext d w
  unfold captureDo captureCell captureVal
  generalize sf w 0 2 = k
  match k with
  | 0 => rfl
  | 1 => rfl
  | 2 => rfl
  | _ + 3 => rfl

end Exec

/-- The low bits of a number as a word. -/
theorem fget_ofNat {len : Nat} (h : len ≤ 32) (v : Nat) : fget 0 len (BitVec.ofNat 32 v) = v % 2 ^ len := by
  simp only [fget, BitVec.extractLsb'_toNat, BitVec.toNat_ofNat, Nat.shiftRight_zero]
  exact Nat.mod_mod_of_dvd _ (Nat.pow_dvd_pow 2 h)

/-! #### Registers that are not the runner's -/

section Addresses

variable (nn : Fin 16)

theorem fcRes_notMem (f : Fin 4) : FcRes.V.addr (nn, f) ∉ [Rlate.addr nn] := by
  simp [FcRes.V, FcRes.addr, Rlate.addr]
  omega

theorem lcShadow_notMem (l : Fin 3) : LcShadow.V.addr (nn, l) ∉ runnerRegs nn := by
  simp [runnerRegs, LcShadow.V, LcShadow.addr, Rlate.addr, Rstat.addr, Rcnt.addr, Rctl.addr, Pstat.addr, Wdog.addr, BkCtl.addr, BkStat.addr,
    HspCtl.addr, Kstat.addr]
  omega

theorem lcShadow_ne {l m : Fin 3} (h : l ≠ m) : LcShadow.V.addr (nn, l) ≠ LcShadow.addr (nn, m) := by
  have := Fin.val_ne_of_ne h
  simp [LcShadow.V, LcShadow.addr]
  omega

theorem lcShadow_ne_pwmStat (l : Fin 3) : LcShadow.V.addr (nn, l) ≠ PwmStat.addr nn := by
  simp [LcShadow.V, LcShadow.addr, PwmStat.addr]
  omega

theorem pwmStat_notMem : PwmStat.addr nn ∉ runnerRegs nn := by
  simp [runnerRegs, PwmStat.addr, Rlate.addr, Rstat.addr, Rcnt.addr, Rctl.addr, Pstat.addr, Wdog.addr, BkCtl.addr, BkStat.addr,
    HspCtl.addr, Kstat.addr]

theorem pwmPer_ne : Pwm.PER.addr nn ∉ [Rlate.addr nn] := by
  simp [Pwm.PER, Pwm.addr, Rlate.addr]

theorem rlate_mem : [Rlate.addr nn] ⊆ runnerRegs nn := by simp [runnerRegs]

end Addresses

/-! #### SAMPLE (R131, R184) -/

/-- The loop of SAMPLE over the filter cells. -/
theorem sampleAll_effect (e : Dev) (nn : Fin 16) (mask base : Nat) :
    let t := forAll e fun d (f : Fin 4) =>
      if mask.testBit f.val then d.onB nn fun b => b.putU (base + f.val) (d.fld FcRes.V (nn, f)) else d
    (∀ f : Fin 4, mask.testBit f.val = true → (t.b nn).ofU (base + f.val) = e.fld FcRes.V (nn, f) % 2 ^ 20) ∧
    ∀ i < 64, (∀ f : Fin 4, mask.testBit f.val = true → i ≠ (base + f.val) % 64) → (t.b nn).ofU i = (e.b nn).ofU i := by
  let P : Nat → Dev → Prop := fun k y => y.regs = e.regs ∧
    (∀ f : Fin 4, f.val < k → mask.testBit f.val = true → (y.b nn).ofU (base + f.val) = e.fld FcRes.V (nn, f) % 2 ^ 20) ∧
    ∀ i < 64, (∀ f : Fin 4, mask.testBit f.val = true → i ≠ (base + f.val) % 64) → (y.b nn).ofU i = (e.b nn).ofU i
  intro t
  obtain ⟨-, hmain, hrest⟩ : P 4 t := by
    refine forAll_induction P ⟨rfl, fun f hf => absurd hf (by omega), fun _ _ _ => rfl⟩ fun f y ⟨hregs, hdone, hrest⟩ => ?_
    have hres : y.fld FcRes.V (nn, f) = e.fld FcRes.V (nn, f) := by unfold Dev.fld Dev.reg; rw [hregs]
    by_cases hf : mask.testBit f.val = true
    · rw [if_pos hf, hres]
      refine ⟨hregs, fun g hg hbit => ?_, fun i hi hne => ?_⟩
      · rw [Dev.b_onB_self, Blk.ofU_putU]
        by_cases hgf : g = f
        · rw [if_pos (by rw [hgf]), hgf]
        · rw [if_neg (by have := Fin.val_ne_of_ne hgf; omega), hdone g (by have := Fin.val_ne_of_ne hgf; omega) hbit]
      · rw [Dev.b_onB_self, Blk.ofU_putU, if_neg (by have := hne f hf; omega), hrest i hi hne]
    · rw [if_neg hf]
      refine ⟨hregs, fun g hg hbit => hdone g ?_ hbit, hrest⟩
      rcases eq_or_ne g f with rfl | hgf
      · exact absurd hbit hf
      · have := Fin.val_ne_of_ne hgf
        omega
  exact ⟨fun f => hmain f f.isLt, hrest⟩

theorem sampleSlot_effect {d : Dev} {nn : Fin 16} {late : Nat} {w : DWord} (hu : unitBlk nn ∉ d.undef) (hw : slotNow d nn = some w)
    (hop : sOp w = 0) : Completes (.sampleSlot nn late) d fun t =>
      (∀ f : Fin 4, (sf w 0 4).testBit f.val = true → (t.b nn).ofU (sf w 4 6 + f.val) = d.fld FcRes.V (nn, f) % 2 ^ 20) ∧
      ∀ i < 64, (∀ f : Fin 4, (sf w 0 4).testBit f.val = true → i ≠ (sf w 4 6 + f.val) % 64) → (t.b nn).ofU i = (d.b nn).ofU i := by
  refine completes_of_runSlotOf (exec_sampleSlot nn late) hu hw hop fun e t he ht => ?_
  obtain ⟨hmain, hrest⟩ := sampleAll_effect e nn (sf w 0 4) (sf w 4 6)
  refine ⟨fun f hf => ?_, fun i hi hne => ?_⟩
  · rw [← he.fld (f := FcRes.V) (i := (nn, f)) (fcRes_notMem nn f)]
    exact (ht.ofU _).trans (hmain f hf)
  · rw [← he.b nn]
    exact (ht.ofU _).trans (hrest i hi hne)

/-! #### UPDATE (R250, R251, R259) -/

@[simp] theorem Leg.noted_duty (g : Leg) (now : Nat) : (g.noted now).duty = g.duty := by
  unfold Leg.noted
  split
  · split <;> rfl
  · rfl

/-- The loop over the legs of an UPDATE with SRC 0. -/
theorem updateDuty_effect (e : Dev) (nn : Fin 16) (mask base : Nat) :
    let t := updateDuty e nn mask base
    (t.b nn).opf = (e.b nn).opf ∧ ∀ l : Fin 3, if mask.testBit l.val then
        (legOf t (nn, l)).duty = (e.b nn).ofU (base + l.val) ∧ t.fld LcShadow.V (nn, l) = cmpOf ((e.b nn).ofU (base + l.val)) (e.fld Pwm.PER nn) % 2 ^ 23
      else (legOf t (nn, l)).duty = (legOf e (nn, l)).duty ∧ t.fld LcShadow.V (nn, l) = e.fld LcShadow.V (nn, l) := by
  let P : Nat → Dev → Prop := fun k y => (y.b nn).opf = (e.b nn).opf ∧ ∀ l : Fin 3, if l.val < k ∧ mask.testBit l.val then
        (legOf y (nn, l)).duty = (e.b nn).ofU (base + l.val) ∧ y.fld LcShadow.V (nn, l) = cmpOf ((e.b nn).ofU (base + l.val)) (e.fld Pwm.PER nn) % 2 ^ 23
      else (legOf y (nn, l)).duty = (legOf e (nn, l)).duty ∧ y.fld LcShadow.V (nn, l) = e.fld LcShadow.V (nn, l)
  intro t
  obtain ⟨hopf, hlegs⟩ : P 3 t := by
    refine forAll_induction P ⟨rfl, fun l => by rw [if_neg (by omega)]; exact ⟨rfl, rfl⟩⟩ fun i y ⟨hopf, hlegs⟩ => ?_
    by_cases hi : mask.testBit i.val = true
    · rw [if_pos hi]
      extract_lets u c loaded
      have hu : u = (e.b nn).ofU (base + i.val) := Blk.ofU_congr hopf _
      have hleg (l : Fin 3) : legOf (digAdd (onL loaded (nn, i) fun g => { g.noted loaded.clk with duty := u }) nn [c]) (nn, l) =
          vget (vmod (y.b nn).leg i fun g => { g.noted loaded.clk with duty := u }) l := by
        simp only [digAdd, onL, legOf, Dev.b_onB_self]
        rfl
      refine ⟨?_, fun l => ?_⟩
      · simp only [digAdd, onL, Dev.b_onB_self]
        exact hopf
      · have hshadow : (digAdd (onL loaded (nn, i) fun g => { g.noted loaded.clk with duty := u }) nn [c]).fld LcShadow.V (nn, l) =
            loaded.fld LcShadow.V (nn, l) := rfl
        rw [hleg, hshadow]
        rcases eq_or_ne l i with rfl | hne
        · rw [if_pos ⟨by omega, hi⟩, vget_vmod_self, ← hu]
          refine ⟨rfl, (Dev.fld_setReg_self y (BitVec.ofNat 32 c) LcShadow.V (nn, l)).trans ?_⟩
          exact (fget_ofNat (by decide) c).trans (Nat.mod_mod _ _)
        · have := Fin.val_ne_of_ne hne
          rw [vget_vmod_ne _ _ _ _ hne, show loaded.fld LcShadow.V (nn, l) = y.fld LcShadow.V (nn, l) from
            Dev.fld_setReg_addr _ _ _ _ _ (lcShadow_ne nn hne)]
          simpa only [legOf, show l.val < i.val + 1 ↔ l.val < i.val by omega] using hlegs l
    · rw [if_neg hi]
      refine ⟨hopf, fun l => ?_⟩
      have hiff : (l.val < i.val + 1 ∧ mask.testBit l.val = true) ↔ (l.val < i.val ∧ mask.testBit l.val = true) := by
        rcases eq_or_ne l i with rfl | hne
        · simp [hi]
        · have := Fin.val_ne_of_ne hne
          exact and_congr_left fun _ => by omega
      simpa only [hiff] using hlegs l
  refine ⟨hopf, fun l => ?_⟩
  simpa only [l.isLt, true_and] using hlegs l

/-- The first UPDATE of a block in RUN lets its legs start (R85): the duties stand. -/
def updateStart (d : Dev) (nn : Fin 16) : Dev :=
  if bkState d nn = 3 ∧ !(d.b nn).disarm then
    d.onB nn fun b => { b with leg := b.leg.map fun g => { g.noted d.clk with upd := true } } else d

theorem updateStart_runnerStep (d : Dev) (nn : Fin 16) : RunnerStep nn d (updateStart d nn) := by
  refine RunnerStep.ite (runnerStep_onB rfl rfl fun l => ?_) RunnerStep.refl
  simp [vget]

theorem updateStart_regs (d : Dev) (nn : Fin 16) : (updateStart d nn).regs = d.regs := by
  unfold updateStart
  split <;> rfl

/-- UPDATE with SRC 0. -/
theorem updateDo_duty {d : Dev} {nn : Fin 16} {w : DWord} (h : sf w 9 1 = 0) :
    updateDo d nn w = ((updateDuty (updateStart d nn) nn (sf w 0 3) (sf w 3 6)).clr PwmStat.PTPEND nn).onB nn fun b =>
      { b with ptPend := none, ptLeave := ((updateDuty (updateStart d nn) nn (sf w 0 3) (sf w 3 6)).clr PwmStat.PTPEND nn).bit PwmStat.PTMODE nn } := by
  unfold updateDo
  rw [if_pos h]
  rfl

theorem updateDutySlot_effect {d : Dev} {nn : Fin 16} {late : Nat} {w : DWord} (hu : unitBlk nn ∉ d.undef) (hw : slotNow d nn = some w)
    (hop : sOp w = 2) (hsrc : sf w 9 1 = 0) : Completes (.updateSlot nn late) d fun t =>
      (t.b nn).opf = (d.b nn).opf ∧ ∀ l : Fin 3, if (sf w 0 3).testBit l.val then
          (legOf t (nn, l)).duty = (d.b nn).ofU (sf w 3 6 + l.val) ∧
          t.fld LcShadow.V (nn, l) = cmpOf ((d.b nn).ofU (sf w 3 6 + l.val)) (d.fld Pwm.PER nn) % 2 ^ 23
        else (legOf t (nn, l)).duty = (legOf d (nn, l)).duty ∧ t.fld LcShadow.V (nn, l) = d.fld LcShadow.V (nn, l) := by
  refine completes_of_runSlotOf (exec_updateSlot nn late) hu hw hop fun e t he ht => ?_
  have hstart := (runnerStep_of_onlyRegs he (rlate_mem nn)).trans (updateStart_runnerStep e nn)
  have hper : (updateStart e nn).fld Pwm.PER nn = d.fld Pwm.PER nn := by
    rw [← he.fld (pwmPer_ne nn), Dev.fld, Dev.reg, updateStart_regs]
    rfl
  obtain ⟨hopf, hlegs⟩ := updateDuty_effect (updateStart e nn) nn (sf w 0 3) (sf w 3 6)
  rw [updateDo_duty hsrc] at ht
  generalize updateDuty (updateStart e nn) nn (sf w 0 3) (sf w 3 6) = y at hopf hlegs ht
  have hduty (l : Fin 3) : (legOf t (nn, l)).duty = (legOf y (nn, l)).duty := by
    rw [ht.duty, legOf, Dev.b_onB_self]
    rfl
  have hshadow (l : Fin 3) : t.fld LcShadow.V (nn, l) = y.fld LcShadow.V (nn, l) :=
    (ht.fld (lcShadow_notMem nn l)).trans (Dev.fld_put_addr y PwmStat.PTPEND nn _ _ 0 (lcShadow_ne_pwmStat nn l))
  refine ⟨?_, fun l => ?_⟩
  · rw [ht.opf, Dev.b_onB_self]
    exact hopf.trans hstart.opf
  · rw [hduty, hshadow]
    simpa only [hstart.ofU, hper, hstart.duty, hstart.fld (lcShadow_notMem nn l)] using hlegs l

/-- UPDATE with SRC 1 (R259). -/
theorem updateDo_row {d : Dev} {nn : Fin 16} {w : DWord} (h : sf w 9 1 = 1) :
    let u := updateStart d nn
    let r := (u.b nn).ofU (sf w 3 6)
    updateDo d nn w = if r > 63 then (digAdd u nn [r]).flag PwmStat.PTERR nn else
      let p := (digAdd u nn [r]).flag PwmStat.PTPEND nn
      (if p.bit PwmStat.PTMODE nn then p else p.put PwmStat.PTROW nn r).onB nn fun b => { b with ptPend := some r, ptLeave := false } := by
  intro u r
  unfold updateDo
  rw [if_neg (by rw [h]; decide)]
  rfl

theorem updateRowSlot_effect {d : Dev} {nn : Fin 16} {late : Nat} {w : DWord} (hu : unitBlk nn ∉ d.undef) (hw : slotNow d nn = some w)
    (hop : sOp w = 2) (hsrc : sf w 9 1 = 1) : Completes (.updateSlot nn late) d fun t =>
      (t.b nn).opf = (d.b nn).opf ∧ if (d.b nn).ofU (sf w 3 6) > 63 then
          t.bit PwmStat.PTERR nn = true ∧ (t.b nn).ptPend = (d.b nn).ptPend
        else (t.b nn).ptPend = some ((d.b nn).ofU (sf w 3 6)) ∧ t.bit PwmStat.PTPEND nn = true ∧ t.bit PwmStat.PTERR nn = d.bit PwmStat.PTERR nn := by
  refine completes_of_runSlotOf (exec_updateSlot nn late) hu hw hop fun e t he ht => ?_
  have hstart := (runnerStep_of_onlyRegs he (rlate_mem nn)).trans (updateStart_runnerStep e nn)
  simp only [updateDo_row hsrc, hstart.ofU] at ht
  generalize (d.b nn).ofU (sf w 3 6) = r at ht ⊢
  have hdig : RunnerStep nn d (digAdd (updateStart e nn) nn [r]) := hstart.trans (runnerStep_onB rfl rfl fun _ => rfl)
  generalize digAdd (updateStart e nn) nn [r] = y at ht hdig
  split at ht
  · next hr =>
    refine ⟨ht.opf.trans hdig.opf, ?_⟩
    rw [if_pos hr]
    exact ⟨(ht.bit (pwmStat_notMem nn)).trans (Dev.bit_flag_self y PwmStat.PTERR nn (by decide) rfl), ht.ptPend.trans hdig.ptPend⟩
  · next hr =>
    let p := y.flag PwmStat.PTPEND nn
    let row := if p.bit PwmStat.PTMODE nn then p else p.put PwmStat.PTROW nn r
    have hrow : row.blk = y.blk := by
      simp only [row]
      split <;> rfl
    have hbit (g : RF (Fin 16)) (hg : PwmStat.PTROW.lo + PwmStat.PTROW.len ≤ g.lo ∨ g.lo + g.len ≤ PwmStat.PTROW.lo) :
        row.bit g nn = p.bit g nn := by
      simp only [row]
      split
      · rfl
      · simp only [Dev.bit, Dev.fld_put_bits p PwmStat.PTROW nn g nn r (by decide) hg]
    have hb : row.b nn = y.b nn := congrArg (vget · nn) hrow
    refine ⟨?_, ?_⟩
    · rw [ht.opf, Dev.b_onB_self]
      exact (congrArg Blk.opf hb).trans hdig.opf
    · rw [if_neg hr]
      refine ⟨?_, ?_, ?_⟩
      · rw [ht.ptPend, Dev.b_onB_self]
      · exact ((ht.bit (pwmStat_notMem nn)).trans (hbit PwmStat.PTPEND (by decide))).trans (Dev.bit_flag_self y PwmStat.PTPEND nn (by decide) rfl)
      · refine ((ht.bit (pwmStat_notMem nn)).trans (hbit PwmStat.PTERR (by decide))).trans (Eq.trans ?_ (hdig.bit (pwmStat_notMem nn)))
        exact congrArg (· != 0) (Dev.fld_put_bits y PwmStat.PTPEND nn PwmStat.PTERR nn 1 (by decide) (by decide))

end Sys2Proof.Machine

namespace Sys2Proof.Machine

/-! #### PUBLISH (R19, R21) -/

section BoardAddresses

variable (nn : Fin 16)

theorem blockBase_le : 0x1100000 ≤ blockBase nn := by
  unfold blockBase
  omega

/-- The board lies below every block. -/
theorem notMem_of_low {a : Nat} (h : a < 0x1000000) : a ∉ runnerRegs nn := by
  have := blockBase_le nn
  simp [runnerRegs, Rlate.addr, Rstat.addr, Rcnt.addr, Rctl.addr, Pstat.addr, Wdog.addr, BkCtl.addr, BkStat.addr, HspCtl.addr, Kstat.addr]
  omega

theorem vbV_low (k j : Fin 16) : VbV.addr (k, j) < 0x1000000 := by
  simp [VbV.addr]
  omega

theorem vbSeq_low (k : Fin 16) : VbSeq.addr k < 0x1000000 := by
  simp [VbSeq.addr]
  omega

theorem vbV_inj {k k' j j' : Fin 16} (h : k ≠ k' ∨ j ≠ j') : VbV.addr (k, j) ≠ VbV.addr (k', j') := by
  simp only [VbV.addr, Fin.ext_iff, ne_eq] at *
  omega

theorem vbV_ne_vbSeq (k j n : Fin 16) : VbV.addr (k, j) ≠ VbSeq.addr n := by
  simp only [VbV.addr, VbSeq.addr]
  omega

theorem vbSeq_inj {k n : Fin 16} (h : k ≠ n) : VbSeq.addr k ≠ VbSeq.addr n := by
  have := Fin.val_ne_of_ne h
  simp only [VbSeq.addr]
  omega

end BoardAddresses

/-- Row nn after the loop of PUBLISH. -/
theorem publishRow_effect (d : Dev) (nn : Fin 16) (v n : Nat) (vals : List Nat) :
    let t := publishRow d nn v n vals
    t.blk = d.blk ∧ (∀ j : Fin 16, t.fld VbV.VAL (nn, j) = if v ≤ j.val ∧ j.val < v + n then ((vals[j.val - v]?).getD 0) % 2 ^ 20 else d.fld VbV.VAL (nn, j)) ∧
    ∀ a, (∀ j, a ≠ VbV.addr (nn, j)) → t.reg a = d.reg a := by
  let P : Nat → Dev → Prop := fun k y => y.blk = d.blk ∧
    (∀ j : Fin 16, y.fld VbV.VAL (nn, j) = if j.val < k ∧ v ≤ j.val ∧ j.val < v + n then ((vals[j.val - v]?).getD 0) % 2 ^ 20 else d.fld VbV.VAL (nn, j)) ∧
    ∀ a, (∀ j, a ≠ VbV.addr (nn, j)) → y.reg a = d.reg a
  intro t
  obtain ⟨hblk, hrow, hkept⟩ : P 16 t := by
    refine forAll_induction P ⟨rfl, fun j => by rw [if_neg (by omega)], fun _ _ => rfl⟩ fun i y ⟨hblk, hrow, hkept⟩ => ?_
    by_cases hi : v ≤ i.val ∧ i.val < v + n
    · rw [if_pos hi]
      refine ⟨hblk, fun j => ?_, fun a ha => (Dev.reg_setReg_ne _ _ _ _ (ha i)).trans (hkept a ha)⟩
      rcases eq_or_ne j i with rfl | hne
      · rw [if_pos ⟨by omega, hi⟩]
        exact (Dev.fld_setReg_self y _ VbV.VAL (nn, j)).trans ((fget_ofNat (by decide) _).trans (Nat.mod_mod _ _))
      · have := Fin.val_ne_of_ne hne
        rw [vbWrite, Dev.fld_setReg_addr _ _ _ _ _ (vbV_inj (Or.inr hne)), hrow]
        simp only [show j.val < i.val + 1 ↔ j.val < i.val by omega]
    · rw [if_neg hi]
      refine ⟨hblk, fun j => ?_, hkept⟩
      rw [hrow]
      have hiff : (j.val < i.val + 1 ∧ v ≤ j.val ∧ j.val < v + n) ↔ (j.val < i.val ∧ v ≤ j.val ∧ j.val < v + n) := by
        omega
      simp only [hiff]
  refine ⟨hblk, fun j => ?_, hkept⟩
  simpa only [j.isLt, true_and] using hrow j

theorem rowKeep_effect (d : Dev) (nn : Fin 16) : ((rowKeep d nn).b nn).opf = (d.b nn).opf ∧ (rowKeep d nn).regs = d.regs := by
  unfold rowKeep
  extract_lets now
  split
  · exact ⟨rfl, rfl⟩
  · exact ⟨by rw [Dev.b_onB_self], rfl⟩

theorem publishSlot_effect {d : Dev} {nn : Fin 16} {late : Nat} {w : DWord} (hu : unitBlk nn ∉ d.undef) (hw : slotNow d nn = some w)
    (hop : sOp w = 3) : Completes (.publishSlot nn late) d fun t =>
      (t.b nn).opf = (d.b nn).opf ∧ t.fld VbSeq.SEQ nn = (d.fld VbSeq.SEQ nn + 1) % 2 ^ 16 ∧
      (∀ j : Fin 16, t.fld VbV.VAL (nn, j) = if sf w 0 4 ≤ j.val ∧ j.val ≤ sf w 0 4 + sf w 4 4 then
        (d.b nn).ofU (sf w 8 6 + (j.val - sf w 0 4)) else d.fld VbV.VAL (nn, j)) ∧
      ∀ (k j : Fin 16), k ≠ nn → t.reg (VbV.addr (k, j)) = d.reg (VbV.addr (k, j)) ∧ t.reg (VbSeq.addr k) = d.reg (VbSeq.addr k) := by
  refine completes_of_runSlotOf (exec_publishSlot nn late) hu hw hop fun e t he ht => ?_
  obtain ⟨hkopf, hkregs⟩ := rowKeep_effect e nn
  obtain ⟨hblk, hrow, hkept⟩ := publishRow_effect (rowKeep e nn) nn (sf w 0 4) (sf w 4 4 + 1) (publishVals e nn w)
  have hreg {a : Nat} (ha : a < 0x1000000) : (rowKeep e nn).reg a = d.reg a := by
    rw [Dev.reg, hkregs]
    exact he.reg fun hin => notMem_of_low nn ha (rlate_mem nn hin)
  unfold publishDo at ht
  generalize hy : publishRow (rowKeep e nn) nn (sf w 0 4) (sf w 4 4 + 1) (publishVals e nn w) = y at hblk hrow hkept ht
  have htreg {a : Nat} (ha : a < 0x1000000) : t.reg a = (y.inc VbSeq.SEQ nn).reg a := ht.regs a (notMem_of_low nn ha)
  refine ⟨?_, ?_, fun j => ?_, fun k j hk => ⟨?_, ?_⟩⟩
  · rw [ht.opf, digAdd, Dev.b_onB_self]
    exact ((congrArg Blk.opf (congrArg (vget · nn) hblk)).trans hkopf).trans (congrArg Blk.opf (he.b nn))
  · have hseq : y.fld VbSeq.SEQ nn = d.fld VbSeq.SEQ nn :=
      congrArg (fget 0 16) ((hkept _ fun j => (vbV_ne_vbSeq nn j nn).symm).trans (hreg (vbSeq_low nn)))
    calc t.fld VbSeq.SEQ nn = (y.put VbSeq.SEQ nn (y.fld VbSeq.SEQ nn + 1)).fld VbSeq.SEQ nn := congrArg (fget 0 16) (htreg (vbSeq_low nn))
      _ = _ := by rw [Dev.fld_put_self _ _ _ _ (by decide), hseq]; rfl
  · have hval : t.fld VbV.VAL (nn, j) = y.fld VbV.VAL (nn, j) :=
      congrArg (fget 0 20) ((htreg (vbV_low nn j)).trans (Dev.reg_put_ne _ _ _ _ _ (vbV_ne_vbSeq nn j nn)))
    have hold : (rowKeep e nn).fld VbV.VAL (nn, j) = d.fld VbV.VAL (nn, j) := congrArg (fget 0 20) (hreg (vbV_low nn j))
    rw [hval, hrow, hold]
    simp only [show j.val < sf w 0 4 + (sf w 4 4 + 1) ↔ j.val ≤ sf w 0 4 + sf w 4 4 by omega]
    split
    · next hj =>
      have hlt : j.val - sf w 0 4 < sf w 4 4 + 1 := by omega
      simp only [publishVals, List.getElem?_map, List.getElem?_range hlt, Option.map_some, Option.getD_some, he.b]
      exact Nat.mod_eq_of_lt (Blk.ofU_lt _ _)
    · rfl
  · exact (((htreg (vbV_low k j)).trans (Dev.reg_put_ne _ _ _ _ _ (vbV_ne_vbSeq k j nn))).trans
      (hkept _ fun i => vbV_inj (Or.inl hk))).trans (hreg (vbV_low k j))
  · exact (((htreg (vbSeq_low k)).trans (Dev.reg_put_ne _ _ _ _ _ (vbSeq_inj hk))).trans
      (hkept _ fun i => (vbV_ne_vbSeq nn i k).symm)).trans (hreg (vbSeq_low k))

/-! #### CONSUME (R21 to R24) -/

/-- The board reads as before when only the runner's registers of a block change. -/
theorem boardVal_of_onlyRegs {d e : Dev} {nn : Fin 16} (h : OnlyRegs [Rlate.addr nn] d e) (r v : Fin 16) : boardVal e nn r v = boardVal d nn r v := by
  have hval : e.fld VbV.VAL (r, v) = d.fld VbV.VAL (r, v) :=
    h.fld fun hin => notMem_of_low nn (vbV_low r v) (rlate_mem nn hin)
  have hclk : e.clk = d.clk := (congrArg Dev.clk h.1 :)
  simp only [boardVal, rowVal, h.b, hval, hclk]

theorem consumeSlot_effect {d : Dev} {nn : Fin 16} {late : Nat} {w : DWord} (hu : unitBlk nn ∉ d.undef) (hw : slotNow d nn = some w)
    (hop : sOp w = 4) : Completes (.consumeSlot nn late) d fun t =>
      if sf w 8 1 = 1 then
        (t.b nn).ofU (sf w 9 6) = consumeVal d nn w 0 % 2 ^ 20 ∧ (t.b nn).ofU (sf w 9 6 + 1) = consumeVal d nn w 1 % 2 ^ 20 ∧
        ∀ i < 64, i ≠ sf w 9 6 → i ≠ (sf w 9 6 + 1) % 64 → (t.b nn).ofU i = (d.b nn).ofU i
      else (t.b nn).ofU (sf w 9 6) = consumeVal d nn w 0 % 2 ^ 20 ∧ ∀ i < 64, i ≠ sf w 9 6 → (t.b nn).ofU i = (d.b nn).ofU i := by
  refine completes_of_runSlotOf (exec_consumeSlot nn late) hu hw hop fun e t he ht => ?_
  have hdest : sf w 9 6 < 64 := sf_lt w 9 6
  have hval (i : Nat) : consumeVal e nn w i = consumeVal d nn w i := boardVal_of_onlyRegs he _ _
  simp only [consumeDo, hval] at ht
  generalize sf w 9 6 = dest at ht hdest ⊢
  generalize consumeVal d nn w 0 = v0 at ht ⊢
  generalize consumeVal d nn w 1 = v1 at ht ⊢
  by_cases h2 : sf w 8 1 = 1
  · rw [if_pos h2] at ht ⊢
    have hof (i : Nat) : (t.b nn).ofU i = (((d.b nn).putU dest v0).putU (dest + 1) v1).ofU i := by
      rw [ht.ofU, ← he.b nn]
      simp only [logIn, onLog, Dev.onB_onB]
      exact congrArg (·.ofU i) (Dev.b_onB_self e nn _)
    refine ⟨?_, ?_, fun i hi h0 h1 => ?_⟩
    · rw [hof, Blk.ofU_putU, if_neg (by omega), Blk.ofU_putU, if_pos rfl]
    · rw [hof, Blk.ofU_putU, if_pos rfl]
    · rw [hof, Blk.ofU_putU, if_neg (by omega), Blk.ofU_putU, if_neg (by omega)]
  · rw [if_neg h2] at ht ⊢
    have hof (i : Nat) : (t.b nn).ofU i = ((d.b nn).putU dest v0).ofU i := by
      rw [ht.ofU, ← he.b nn]
      exact congrArg (·.ofU i) (Dev.b_onB_self e nn _)
    refine ⟨?_, fun i hi h0 => ?_⟩
    · rw [hof, Blk.ofU_putU, if_pos rfl]
    · rw [hof, Blk.ofU_putU, if_neg (by omega)]

end Sys2Proof.Machine

namespace Sys2Proof.Machine

/-! #### CAPTURE (R205, R208) -/

theorem captureCell_blk (d : Dev) (nn : Fin 16) (w : DWord) : (captureCell d nn w).blk = d.blk := by
  unfold captureCell
  split <;> rfl

theorem Dev.pair_lt {ι κ : Type} (d : Dev) (hi : RF ι) (lo : RF κ) (i : ι) (j : κ) (h1 : hi.len = 20) (h2 : lo.len = 20) :
    d.fld hi i * 2 ^ 20 + d.fld lo j < 2 ^ 40 := by
  have hhi := d.fld_lt hi i
  have hlo := d.fld_lt lo j
  rw [h1] at hhi
  rw [h2] at hlo
  omega

theorem captureVal_lt (d : Dev) (nn : Fin 16) (w : DWord) : captureVal d nn w < 2 ^ 40 := by
  unfold captureVal
  split
  · exact ux_lt 40 _
  · exact Nat.mod_lt _ (by decide)
  · exact Nat.mod_lt _ (by decide)
  · split
    · exact Dev.pair_lt d PcPhHi.V PcPhLo.V nn nn rfl rfl
    · exact Dev.pair_lt d PcPosHi.V PcPosLo.V nn nn rfl rfl

theorem captureVal_of_onlyRegs {d e : Dev} {nn : Fin 16} (h : OnlyRegs [Rlate.addr nn] d e) (w : DWord) : captureVal e nn w = captureVal d nn w := by
  have hpos : encOf e nn = encOf d nn := congrArg Blk.enc (h.b nn)
  have hdom (k : Fin 8) : domPH40 e k = domPH40 d k := by
    have hpd : e.dom = d.dom := (congrArg Dev.dom h.1 :)
    have hclk : e.clk = d.clk := (congrArg Dev.clk h.1 :)
    simp only [domPH40, domPhase, Dev.pd, hpd, hclk]
  have hbank : curBank e nn = curBank d nn := h.bit (by simp [BkStat.BANK, BkStat.addr, Rlate.addr])
  have hhdr : curHdr e nn = curHdr d nn := by simp only [curHdr, hdrOf_congr h.pat, hbank]
  have hwhat : e.bit PcCfg.WHAT nn = d.bit PcCfg.WHAT nn := h.bit (by simp [PcCfg.WHAT, PcCfg.addr, Rlate.addr])
  have hphhi : e.fld PcPhHi.V nn = d.fld PcPhHi.V nn := h.fld (by simp [PcPhHi.V, PcPhHi.addr, Rlate.addr])
  have hphlo : e.fld PcPhLo.V nn = d.fld PcPhLo.V nn := h.fld (by simp [PcPhLo.V, PcPhLo.addr, Rlate.addr])
  have hposhi : e.fld PcPosHi.V nn = d.fld PcPosHi.V nn := h.fld (by simp [PcPosHi.V, PcPosHi.addr, Rlate.addr])
  have hposlo : e.fld PcPosLo.V nn = d.fld PcPosLo.V nn := h.fld (by simp [PcPosLo.V, PcPosLo.addr, Rlate.addr])
  simp only [captureVal, hpos, hdom, hhdr, hwhat, hphhi, hphlo, hposhi, hposlo]

theorem captureSlot_effect {d : Dev} {nn : Fin 16} {late : Nat} {w : DWord} (hu : unitBlk nn ∉ d.undef) (hw : slotNow d nn = some w)
    (hop : sOp w = 6) : Completes (.captureSlot nn late) d fun t =>
      (∀ i < 64, i ≠ sf w 5 6 / 2 * 2 → i ≠ sf w 5 6 / 2 * 2 + 1 → (t.b nn).ofU i = (d.b nn).ofU i) ∧
      (t.b nn).ofPH (sf w 5 6 / 2 * 2) = captureVal d nn w := by
  refine completes_of_runSlotOf (exec_captureSlot nn late) hu hw hop fun e t he ht => ?_
  have hdest : sf w 5 6 < 64 := sf_lt w 5 6
  have hlt := captureVal_lt d nn w
  have hof (i : Nat) : (t.b nn).ofU i = ((d.b nn).putP (sf w 5 6) (Int.ofNat (captureVal d nn w))).ofU i := by
    have hcell : (captureCell e nn w).b nn = d.b nn := (congrArg (vget · nn) (captureCell_blk e nn w)).trans (he.b nn)
    rw [ht.ofU, ← captureVal_of_onlyRegs he w, ← hcell]
    exact congrArg (·.ofU i) (Dev.b_onB_self _ nn _)
  generalize captureVal d nn w = v at hlt hof ⊢
  generalize sf w 5 6 = dest at hdest hof ⊢
  refine ⟨fun i hi h0 h1 => ?_, ?_⟩
  · rw [hof, Blk.ofU_putP _ _ _ _ hi hdest, if_neg h1, if_neg h0]
  · rw [Blk.ofPH, hof, hof]
    exact Blk.ofPH_putP _ hdest hlt

/-! #### MARK (R358, R374) -/

/-- A trace record that meets neither a full wait buffer nor a full trace buffer is appended. -/
theorem traceAdd_room {d : Dev} {clk cyc : Nat} {w0 : Word} (hlen : d.trace.length < 65536) (hwait : traceWaits d < 64) :
    traceAdd d clk w0 cyc = { d with
      tseq := (d.tseq + 1) % 65536
      trace := d.trace ++ [(w0, BitVec.ofNat 32 (clk - d.patT), BitVec.ofNat 32 ((clk - d.patT) / 2 ^ 32),
        BitVec.ofNat 32 (cyc % 65536 + 65536 * d.tseq))] } := by
  have hfull : traceFull { d with tseq := (d.tseq + 1) % 65536 } = (false, { d with tseq := (d.tseq + 1) % 65536 }) :=
    if_neg (show ¬ 64 ≤ traceWaits d by omega)
  simp only [traceAdd, hfull, Bool.false_eq_true, if_false, hlen, if_true]

/-- A record offered changes no block and raises nothing. -/
theorem traceAdd_kept (d : Dev) (clk cyc : Nat) (w0 : Word) : (traceAdd d clk w0 cyc).blk = d.blk ∧ (traceAdd d clk w0 cyc).evq = d.evq ∧ (traceAdd d clk w0 cyc).clk = d.clk := by
  have hfull (x : Dev) : (traceFull x).2.blk = x.blk ∧ (traceFull x).2.evq = x.evq ∧ (traceFull x).2.clk = x.clk := by
    unfold traceFull
    split <;> exact ⟨rfl, rfl, rfl⟩
  obtain ⟨hblk, hevq, hclk⟩ := hfull { d with tseq := (d.tseq + 1) % 65536 }
  unfold traceAdd
  dsimp only
  generalize traceFull { d with tseq := (d.tseq + 1) % 65536 } = r at hblk hevq hclk ⊢
  obtain ⟨full, y⟩ := r
  dsimp only at hblk hevq hclk ⊢
  split
  · exact ⟨hblk, hevq, hclk⟩
  · split
    · exact ⟨hblk, hevq, hclk⟩
    · split <;> exact ⟨hblk, hevq, hclk⟩

theorem markTrace_kept (d : Dev) (nn : Fin 16) (w : DWord) : (markTrace d nn w).blk = d.blk ∧ (markTrace d nn w).evq = d.evq ∧ (markTrace d nn w).clk = d.clk := by
  unfold markTrace
  split
  · exact traceAdd_kept _ _ _ _
  · exact ⟨rfl, rfl, rfl⟩

theorem markSlot_effect {d : Dev} {nn : Fin 16} {late : Nat} {w : DWord} (hu : unitBlk nn ∉ d.undef) (hw : slotNow d nn = some w)
    (hop : sOp w = 7) : Completes (.markSlot nn late) d fun t =>
      (t.b nn).opf = (d.b nn).opf ∧
      t.evq = (if sf w 17 1 = 1 then (d.raise (bkSrc nn 3) (sf w 0 16)).evq else d.evq) ∧
      (sf w 16 1 = 1 ∧ (d.fld TrcCfg.BLK ()).testBit nn.val = true ∧ d.trace.length < 65536 ∧ traceWaits d < 64 →
        t.trace = d.trace ++ [(BitVec.ofNat 32 (sf w 0 16 + nn.val * 2 ^ 16 + d.fld Rstat.SLOT nn * 2 ^ 21 + (curBank d nn).toNat * 2 ^ 29),
          BitVec.ofNat 32 (d.clk - d.patT), BitVec.ofNat 32 ((d.clk - d.patT) / 2 ^ 32),
          BitVec.ofNat 32 (d.fld BkStat.CYC nn + 65536 * d.tseq))]) ∧
      (sf w 16 1 = 0 ∨ (d.fld TrcCfg.BLK ()).testBit nn.val = false → t.trace = d.trace ∧ t.tseq = d.tseq) := by
  refine completes_of_runSlotOf (exec_markSlot nn late) hu hw hop fun e t he ht => ?_
  obtain ⟨hblk, hevq, hclk⟩ := markTrace_kept e nn w
  have heclk : e.clk = d.clk := (congrArg Dev.clk he.1 :)
  have hpatT : e.patT = d.patT := (congrArg Dev.patT he.1 :)
  have htrace : e.trace = d.trace := (congrArg Dev.trace he.1 :)
  have htseq : e.tseq = d.tseq := (congrArg Dev.tseq he.1 :)
  have hbits : e.fld TrcCfg.BLK () = d.fld TrcCfg.BLK () := he.fld fun hin => notMem_of_low nn (by decide) (rlate_mem nn hin)
  obtain ⟨hmblk, hmtrace, hmtseq⟩ : (markDo e nn w).blk = e.blk ∧ (markDo e nn w).trace = (markTrace e nn w).trace ∧ (markDo e nn w).tseq = (markTrace e nn w).tseq := by
    unfold markDo
    split <;> exact ⟨hblk, rfl, rfl⟩
  refine ⟨?_, ?_, ?_, fun hoff => ?_⟩
  · exact ht.opf.trans ((congrArg (fun v => (vget v nn).opf) hmblk).trans (congrArg Blk.opf (he.b nn)))
  · rw [ht.evq, markDo]
    split
    · simp only [Dev.raise, Dev.sendMsg, hevq, hclk, he.evq, heclk]
    · exact hevq.trans he.evq
  · rintro ⟨hon, hen, hlen, hwait⟩
    have hwaits : traceWaits e = traceWaits d := by simp only [traceWaits, htrace, heclk, hpatT]
    have hslot : e.fld Rstat.SLOT nn = d.fld Rstat.SLOT nn := he.fld (by simp [Rstat.SLOT, Rstat.addr, Rlate.addr])
    have hcyc : e.fld BkStat.CYC nn = d.fld BkStat.CYC nn := he.fld (by simp [BkStat.CYC, BkStat.addr, Rlate.addr])
    have hbank : curBank e nn = curBank d nn := he.bit (by simp [BkStat.BANK, BkStat.addr, Rlate.addr])
    have hcyclt : d.fld BkStat.CYC nn < 65536 := Dev.fld_lt d BkStat.CYC nn
    rw [ht.trace, hmtrace, markTrace, if_pos ⟨hon, by rw [hbits]; exact hen⟩, traceAdd_room (by rw [htrace]; exact hlen) (by rw [hwaits]; exact hwait)]
    simp only [htrace, heclk, hpatT, hslot, hcyc, hbank, htseq, Nat.mod_eq_of_lt hcyclt]
  · have hno : markTrace e nn w = e := by
      refine if_neg fun ⟨hon, hen⟩ => ?_
      rw [hbits] at hen
      rcases hoff with h | h
      · rw [h] at hon
        exact absurd hon (by decide)
      · rw [h] at hen
        exact absurd hen (by decide)
    rw [ht.trace, ht.tseq, hmtrace, hmtseq, hno]
    exact ⟨htrace, htseq⟩

end Sys2Proof.Machine

namespace Sys2Proof.Machine

/-! #### OPEN (R330 to R332, R301) -/

section WindowAddresses

/-- The area of a port lies below the blocks of its region and above the regions before. -/
theorem notMem_of_port {p : Fin 4} {a : Nat} (hlo : portBase p ≤ a) (hhi : a < portBase p + 0x10000) (nn : Fin 16) : a ∉ runnerRegs nn := by
  simp only [portBase, regionBase] at hlo hhi
  simp [runnerRegs, Rlate.addr, Rstat.addr, Rcnt.addr, Rctl.addr, Pstat.addr, Wdog.addr, BkCtl.addr, BkStat.addr, HspCtl.addr, Kstat.addr, blockBase]
  omega

theorem wStat_notMem (i : Fin 4 × Fin 32) (nn : Fin 16) : WStat.addr i ∉ runnerRegs nn :=
  notMem_of_port (p := i.1) (by simp only [WStat.addr]; omega) (by simp only [WStat.addr]; omega) nn

theorem wBuf_notMem (i : Fin 4 × Fin 32 × Fin 16) (nn : Fin 16) : WBuf.addr i ∉ runnerRegs nn :=
  notMem_of_port (p := i.1) (by simp only [WBuf.addr]; omega) (by simp only [WBuf.addr]; omega) nn

theorem bpPair_notMem (p : Fin 4) (nn : Fin 16) : BpPair.addr p ∉ runnerRegs nn :=
  notMem_of_port (p := p) (by simp only [BpPair.addr]; omega) (by simp only [BpPair.addr]; omega) nn

theorem wCfg1_notMem (i : Fin 4 × Fin 32) (nn : Fin 16) : WCfg1.addr i ∉ runnerRegs nn :=
  notMem_of_port (p := i.1) (by simp only [WCfg1.addr]; omega) (by simp only [WCfg1.addr]; omega) nn

theorem wStat_ne_bpPair (i : Fin 4 × Fin 32) (p : Fin 4) : WStat.addr i ≠ BpPair.addr p := by
  simp only [WStat.addr, BpPair.addr, portBase, regionBase]
  omega

theorem wBuf_ne_wStat (i : Fin 4 × Fin 32 × Fin 16) (k : Fin 4 × Fin 32) : WBuf.addr i ≠ WStat.addr k := by
  simp only [WBuf.addr, WStat.addr, portBase, regionBase]
  omega

theorem wBuf_ne_bpPair (i : Fin 4 × Fin 32 × Fin 16) (p : Fin 4) : WBuf.addr i ≠ BpPair.addr p := by
  simp only [WBuf.addr, BpPair.addr, portBase, regionBase]
  omega

theorem wBuf_inj {p : Fin 4} {w : Fin 32} {i j : Fin 16} (h : i ≠ j) : WBuf.addr (p, w, i) ≠ WBuf.addr (p, w, j) := by
  have := Fin.val_ne_of_ne h
  simp only [WBuf.addr]
  omega

end WindowAddresses

/-- A frame that becomes due, on a port of a pair or not, moves DUE of windows and the STANDBY pair's side: blocks, window buffers, the
other bits of the windows and the pairing stand. -/
structure DueOnly (x t : Dev) : Prop where
  blk : t.blk = x.blk
  wbuf : ∀ i, t.reg (WBuf.addr i) = x.reg (WBuf.addr i)
  wstat : ∀ g : RF (Fin 4 × Fin 32), g.addr = WStat.addr → 2 ≤ g.lo ∨ g.lo + g.len ≤ 1 → ∀ i, t.fld g i = x.fld g i
  pair : ∀ g : RF (Fin 4), g.addr = BpPair.addr → g.lo + g.len ≤ 5 → ∀ p, t.fld g p = x.fld g p

section DueOnly

variable {x y z : Dev}

theorem DueOnly.refl : DueOnly x x := ⟨rfl, fun _ => rfl, fun _ _ _ _ => rfl, fun _ _ _ _ => rfl⟩

theorem DueOnly.trans (h1 : DueOnly x y) (h2 : DueOnly y z) : DueOnly x z :=
  ⟨h2.blk.trans h1.blk, fun i => (h2.wbuf i).trans (h1.wbuf i), fun g hg hb i => (h2.wstat g hg hb i).trans (h1.wstat g hg hb i),
    fun g hg hb p => (h2.pair g hg hb p).trans (h1.pair g hg hb p)⟩

theorem DueOnly.ite {c : Prop} [Decidable c] (hy : DueOnly x y) (hz : DueOnly x z) : DueOnly x (if c then y else z) := by
  split <;> assumption

/-- The partner of a port comes from three fields of its PAIR register. -/
theorem pairB_congr {p : Fin 4} (h : ∀ g : RF (Fin 4), g.addr = BpPair.addr → g.lo + g.len ≤ 5 → y.fld g p = x.fld g p) : pairB y p = pairB x p := by
  have hpaired : y.bit BpPair.PAIRED p = x.bit BpPair.PAIRED p := congrArg (· != 0) (h BpPair.PAIRED rfl (by decide))
  have hrole : y.bit BpPair.ROLE p = x.bit BpPair.ROLE p := congrArg (· != 0) (h BpPair.ROLE rfl (by decide))
  have hpartner := h BpPair.PARTNER rfl (by decide)
  simp only [pairB, hpaired, hrole, hpartner]

theorem DueOnly.pairB (h : DueOnly x y) (p : Fin 4) : pairB y p = pairB x p := pairB_congr fun g hg hb => h.pair g hg hb p

/-- A write to the side of a pair. -/
theorem dueOnly_putPair {f : RF (Fin 4)} {p : Fin 4} {v : Nat} (hf : f.addr = BpPair.addr) (hlo : 5 ≤ f.lo) (hhi : f.lo + f.len ≤ 32) :
    DueOnly x (x.put f p v) where
  blk := rfl
  wbuf i := Dev.reg_put_ne _ _ _ _ _ (by rw [hf]; exact wBuf_ne_bpPair i p)
  wstat g hg _ i := Dev.fld_put_addr _ _ _ _ _ _ (by rw [hg, hf]; exact wStat_ne_bpPair i p)
  pair g _ hb q := Dev.fld_put_bits _ _ _ _ _ _ hhi (Or.inr (by omega))

theorem dueOnly_flagPair {f : RF (Fin 4)} {p : Fin 4} (hf : f.addr = BpPair.addr) (hlo : 5 ≤ f.lo) (hhi : f.lo + f.len ≤ 32) :
    DueOnly x (x.flag f p) :=
  (dueOnly_putPair (v := 1) hf hlo hhi).trans ⟨rfl, fun _ => rfl, fun _ _ _ _ => rfl, fun _ _ _ _ => rfl⟩

theorem dueOnly_flagDue (i : Fin 4 × Fin 32) : DueOnly x (x.flag WStat.DUE i) where
  blk := rfl
  wbuf k := Dev.reg_put_ne x WStat.DUE i 1 _ (wBuf_ne_wStat k i)
  wstat g _ hb k := Dev.fld_put_bits x WStat.DUE i g k 1 (by decide) hb
  pair g hg _ p := Dev.fld_put_addr x WStat.DUE i g p 1 (by rw [hg]; exact (wStat_ne_bpPair i p).symm)

theorem dueOnly_onR {p : Fin 4} {u : Rgn → Rgn} : DueOnly x (x.onR p u) := ⟨rfl, fun _ => rfl, fun _ _ _ _ => rfl, fun _ _ _ _ => rfl⟩

theorem standbyMove_dueOnly (x : Dev) (a b : Fin 4) : DueOnly x (standbyMove x a b) := by
  have hclr (y : Dev) (p : Fin 4) : DueOnly y (y.clr BpPair.ONB p) := dueOnly_putPair rfl (by decide) (by decide)
  have honb (y : Dev) (p : Fin 4) : DueOnly y (y.flag BpPair.ONB p) := dueOnly_flagPair rfl (by decide) (by decide)
  have hmoved (y : Dev) (p : Fin 4) : DueOnly y (y.flag BpPair.MOVED_SEEN p) := dueOnly_flagPair rfl (by decide) (by decide)
  exact DueOnly.ite (DueOnly.ite ((hclr _ _).trans (hclr _ _)) DueOnly.refl)
    (DueOnly.ite ((((honb _ _).trans (honb _ _)).trans (hmoved _ _)).trans (hmoved _ _)) DueOnly.refl)

theorem standbyAway_dueOnly (x : Dev) (p : Fin 4) : DueOnly x (standbyAway x p).2 := by
  unfold standbyAway
  split
  · exact DueOnly.refl
  · split
    · exact standbyMove_dueOnly _ _ _
    · exact standbyMove_dueOnly _ _ _

theorem winDue_dueOnly (x : Dev) (p : Fin 4) (w : Fin 32) : DueOnly x (winDue x p w) := by
  unfold winDue
  extract_lets win
  split
  · have hmove : DueOnly x (if win.wasDue then (false, x) else standbyAway x p).2 := by
      split
      · exact DueOnly.refl
      · exact standbyAway_dueOnly x p
    generalize (if win.wasDue then (false, x) else standbyAway x p) = m at hmove
    obtain ⟨away, y⟩ := m
    exact hmove.trans (DueOnly.ite dueOnly_onR ((dueOnly_flagDue _).trans dueOnly_onR))
  · exact DueOnly.refl

end DueOnly

/-- FRESH and OPENS of a window that has opened. -/
theorem winFresh_effect (x : Dev) (p : Fin 4) (w : Fin 32) :
    (winFresh x p w).fld WStat.FRESH (p, w) = 1 ∧ (winFresh x p w).fld WStat.OPENS (p, w) = (x.fld WStat.OPENS (p, w) + 1) % 2 ^ 16 := by
  have hdue := winDue_dueOnly ((x.flag WStat.FRESH (p, w)).inc WStat.OPENS (p, w)) p w
  constructor
  · refine (hdue.wstat WStat.FRESH rfl (by decide) (p, w)).trans ?_
    exact (Dev.fld_put_bits _ WStat.OPENS (p, w) WStat.FRESH (p, w) _ (by decide) (by decide)).trans (Dev.fld_put_self x WStat.FRESH (p, w) 1 (by decide))
  · refine (hdue.wstat WStat.OPENS rfl (by decide) (p, w)).trans ((Dev.fld_put_self _ WStat.OPENS (p, w) _ (by decide)).trans ?_)
    have hopens : (x.flag WStat.FRESH (p, w)).fld WStat.OPENS (p, w) = x.fld WStat.OPENS (p, w) :=
      Dev.fld_put_bits x WStat.FRESH (p, w) WStat.OPENS (p, w) 1 (by decide) (by decide)
    rw [hopens]
    rfl

/-- Blocks, buffers, pairing and windows that are already FRESH stand. -/
theorem winFresh_kept (x : Dev) (p : Fin 4) (w : Fin 32) : (winFresh x p w).blk = x.blk ∧
    (∀ i, (winFresh x p w).reg (WBuf.addr i) = x.reg (WBuf.addr i)) ∧ (∀ q, pairB (winFresh x p w) q = pairB x q) ∧
    ∀ i, x.fld WStat.FRESH i = 1 → (winFresh x p w).fld WStat.FRESH i = 1 := by
  let y := (x.flag WStat.FRESH (p, w)).inc WStat.OPENS (p, w)
  have hdue : DueOnly y (winFresh x p w) := winDue_dueOnly y p w
  have hput (z : Dev) (f : RF (Fin 4 × Fin 32)) (hf : f.addr = WStat.addr) (v : Nat) {ι : Type} (g : RF ι) (k : ι) (hk : g.addr k ≠ WStat.addr (p, w)) :
      (z.put f (p, w) v).fld g k = z.fld g k := Dev.fld_put_addr _ _ _ _ _ _ (by rw [hf]; exact hk)
  refine ⟨hdue.blk, fun i => ?_, fun q => ?_, fun i hi => ?_⟩
  · refine (hdue.wbuf i).trans ((Dev.reg_put_ne _ WStat.OPENS (p, w) _ _ (wBuf_ne_wStat i (p, w))).trans ?_)
    exact Dev.reg_put_ne x WStat.FRESH (p, w) 1 _ (wBuf_ne_wStat i (p, w))
  · have hfield (g : RF (Fin 4)) (hg : g.addr = BpPair.addr) : y.fld g q = x.fld g q := by
      have hne : g.addr q ≠ WStat.addr (p, w) := by rw [hg]; exact (wStat_ne_bpPair (p, w) q).symm
      exact (hput (x.flag WStat.FRESH (p, w)) WStat.OPENS rfl _ g q hne).trans (hput x WStat.FRESH rfl 1 g q hne)
    exact (hdue.pairB q).trans (pairB_congr fun g hg _ => hfield g hg)
  · refine (hdue.wstat WStat.FRESH rfl (by decide) i).trans ?_
    refine (Dev.fld_put_bits _ WStat.OPENS (p, w) WStat.FRESH i _ (by decide) (by decide)).trans ?_
    by_cases ha : WStat.addr i = WStat.addr (p, w)
    · exact (congrArg (fun a => fget 0 1 ((x.flag WStat.FRESH (p, w)).reg a)) ha).trans (Dev.fld_put_self x WStat.FRESH (p, w) 1 (by decide))
    · exact (hput x WStat.FRESH rfl 1 WStat.FRESH i ha).trans hi

/-- The buffer of the window after it is filled. -/
theorem openFill_effect (d : Dev) (p : Fin 4) (w : Fin 32) (v : Nat) :
    (openFill d p w v).blk = d.blk ∧ (∀ i : Fin 16, ((openFill d p w v).reg (WBuf.addr (p, w, i))).toNat = v / 2 ^ (32 * i.val) % 2 ^ 32) ∧
    ∀ a, (∀ i, a ≠ WBuf.addr i) → (openFill d p w v).reg a = d.reg a := by
  let P : Nat → Dev → Prop := fun k y => y.blk = d.blk ∧
    (∀ i : Fin 16, i.val < k → (y.reg (WBuf.addr (p, w, i))).toNat = v / 2 ^ (32 * i.val) % 2 ^ 32) ∧
    ∀ a, (∀ i, a ≠ WBuf.addr i) → y.reg a = d.reg a
  obtain ⟨hblk, hbuf, hkept⟩ : P 16 (openFill d p w v) := by
    refine forAll_induction P ⟨rfl, fun i hi => absurd hi (by omega), fun _ _ => rfl⟩ fun i y ⟨hblk, hbuf, hkept⟩ => ?_
    refine ⟨hblk, fun j hj => ?_, fun a ha => (Dev.reg_setReg_ne _ _ _ _ (ha _)).trans (hkept a ha)⟩
    rcases eq_or_ne j i with rfl | hne
    · rw [Dev.reg_setReg_self, BitVec.toNat_ofNat]
    · have := Fin.val_ne_of_ne hne
      rw [Dev.reg_setReg_ne _ _ _ _ (wBuf_inj hne), hbuf j (by omega)]
  exact ⟨hblk, fun i => hbuf i i.isLt, hkept⟩

/-- FRESH and OPENS after the windows of a port, and of its pair, have opened. -/
theorem openFresh_effect (x : Dev) (p : Fin 4) (w : Fin 32) :
    (openFresh x p w).blk = x.blk ∧ (∀ i, (openFresh x p w).reg (WBuf.addr i) = x.reg (WBuf.addr i)) ∧
    (openFresh x p w).fld WStat.FRESH (p, w) = 1 ∧
    (pairB x p = none → (openFresh x p w).fld WStat.OPENS (p, w) = (x.fld WStat.OPENS (p, w) + 1) % 2 ^ 16) := by
  obtain ⟨hblk, hbuf, hpair, -⟩ := winFresh_kept x p w
  obtain ⟨hfresh, hopens⟩ := winFresh_effect x p w
  unfold openFresh
  rw [hpair]
  cases pairB x p with
  | none => exact ⟨hblk, hbuf, hfresh, fun _ => hopens⟩
  | some q =>
    obtain ⟨hblk', hbuf', -, hfresh'⟩ := winFresh_kept (winFresh x p w) q w
    exact ⟨hblk'.trans hblk, fun i => (hbuf' i).trans (hbuf i), hfresh' _ hfresh, fun h => absurd h (by simp)⟩

theorem openSlot_effect {d : Dev} {nn : Fin 16} {late : Nat} {w : DWord} (hu : unitBlk nn ∉ d.undef) (hw : slotNow d nn = some w)
    (hop : sOp w = 5) : Completes (.openSlot nn late) d fun t =>
      (t.b nn).opf = (d.b nn).opf ∧ t.bit WStat.FRESH (rgnOf nn, openWin w) = true ∧
      (pairB d (rgnOf nn) = none → t.fld WStat.OPENS (rgnOf nn, openWin w) = (d.fld WStat.OPENS (rgnOf nn, openWin w) + 1) % 2 ^ 16) ∧
      (sf w 11 5 = 0 → ∀ i : Fin 16, t.reg (WBuf.addr (rgnOf nn, openWin w, i)) = d.reg (WBuf.addr (rgnOf nn, openWin w, i))) ∧
      (sf w 11 5 ≠ 0 → ∀ i : Fin 16, (t.reg (WBuf.addr (rgnOf nn, openWin w, i))).toNat =
        winPack (d.bit WCfg1.PACK (rgnOf nn, openWin w)) (openEnts d nn w) / 2 ^ (32 * i.val) % 2 ^ 32) := by
  refine completes_of_runSlotOf (exec_openSlot nn late) hu hw hop fun e t he ht => ?_
  have hreg {a : Nat} (ha : a ∉ runnerRegs nn) : e.reg a = d.reg a := he.reg fun hin => ha (rlate_mem nn hin)
  have hpack : e.bit WCfg1.PACK (rgnOf nn, openWin w) = d.bit WCfg1.PACK (rgnOf nn, openWin w) :=
    congrArg (fun r => fget 9 1 r != 0) (hreg (wCfg1_notMem _ nn))
  have hents : openEnts e nn w = openEnts d nn w := by simp only [openEnts, he.b]
  simp only [openDo, hpack, hents] at ht
  generalize winPack (d.bit WCfg1.PACK (rgnOf nn, openWin w)) (openEnts d nn w) = v at ht ⊢
  generalize openEnts d nn w = ents at ht
  generalize openWin w = win at ht ⊢
  generalize rgnOf nn = p at ht ⊢
  obtain ⟨hfblk, hfbuf, hfkept⟩ := openFill_effect e p win v
  let y := if sf w 11 5 = 0 then e else openFill e p win v
  have hyblk : y.blk = e.blk := by
    simp only [y]
    split
    · rfl
    · exact hfblk
  have hykept {a : Nat} (ha : ∀ i, a ≠ WBuf.addr i) : y.reg a = e.reg a := by
    simp only [y]
    split
    · rfl
    · exact hfkept a ha
  obtain ⟨hblk, hbuf, hfresh, hopens⟩ := openFresh_effect (digAdd y nn ents) p win
  have hpair : pairB (digAdd y nn ents) p = pairB d p := pairB_congr fun g hg _ => by
    refine congrArg (fget g.lo g.len) ?_
    rw [hg]
    exact (hykept fun i => (wBuf_ne_bpPair i p).symm).trans (hreg (bpPair_notMem p nn))
  have hcount : (digAdd y nn ents).fld WStat.OPENS (p, win) = d.fld WStat.OPENS (p, win) :=
    congrArg (fget 16 16) ((hykept fun i => (wBuf_ne_wStat i _).symm).trans (hreg (wStat_notMem _ nn)))
  have htbuf (i : Fin 16) : t.reg (WBuf.addr (p, win, i)) = y.reg (WBuf.addr (p, win, i)) := (ht.regs _ (wBuf_notMem _ nn)).trans (hbuf _)
  refine ⟨?_, ?_, fun hnone => ?_, fun h0 i => ?_, fun h0 i => ?_⟩
  · have hdig : ((digAdd y nn ents).b nn).opf = (y.b nn).opf := by rw [digAdd, Dev.b_onB_self]
    rw [ht.opf]
    exact ((congrArg (fun b => (vget b nn).opf) hblk).trans hdig).trans ((congrArg (fun b => (vget b nn).opf) hyblk).trans (congrArg Blk.opf (he.b nn)))
  · exact congrArg (· != 0) ((ht.fld (wStat_notMem _ nn)).trans hfresh)
  · rw [ht.fld (f := WStat.OPENS) (i := (p, win)) (wStat_notMem _ nn), ← hcount]
    exact hopens (hpair.trans hnone)
  · rw [htbuf, show y = e from if_pos h0]
    exact hreg (wBuf_notMem _ nn)
  · rw [htbuf, show y = openFill e p win v from if_neg h0]
    exact hfbuf i

/-! #### Every slot but RUN together (O26) -/

/-- Settles O26: each slot's work, by the lemma for its opcode, and the runner's step to the next slot, which leaves all of it. -/
theorem slotEffects : Obligations.SlotEffects := by
  unfold Obligations.SlotEffects
  intro d nn late w hu hw
  refine ⟨sampleSlot_effect hu hw, updateDutySlot_effect hu hw, updateRowSlot_effect hu hw, publishSlot_effect hu hw, consumeSlot_effect hu hw,
    openSlot_effect hu hw, fun hop => ?_, markSlot_effect hu hw⟩
  intro rest
  obtain ⟨t, hexec, hkept, hval⟩ := captureSlot_effect (late := late) hu hw hop rest
  refine ⟨t, hexec, hkept, hval.trans ?_⟩
  have hpos : d.fld PcPosHi.V nn % 2 ^ 20 = d.fld PcPosHi.V nn := Nat.mod_eq_of_lt (Dev.fld_lt d PcPosHi.V nn)
  unfold captureVal
  generalize sf w 0 2 = k
  match k with
  | 0 | 1 | 2 => rfl
  | _ + 3 =>
    rw [hpos]
    cases d.bit PcCfg.WHAT nn <;> rfl

end Sys2Proof.Machine

/-! ### Straps, supplies and the gate outputs that follow them (R50 to R56, O10) -/

namespace Sys2Proof.Machine

/-! #### Changes of one block that send no message -/

/-- As OnlyBlock, and no message is sent. -/
def QuietBlock (nn : Fin 16) (as : List Nat) (d t : Dev) : Prop := OnlyBlock nn as d t ∧ t.evq = d.evq

section QuietBlock

variable {nn : Fin 16} {as : List Nat} {d x y : Dev}

theorem OnlyRegs.quietBlock (h : OnlyRegs as d x) : QuietBlock nn as d x := ⟨h.onlyBlock, h.evq⟩

theorem QuietBlock.trans (h1 : QuietBlock nn as d x) (h2 : QuietBlock nn as x y) : QuietBlock nn as d y :=
  ⟨h1.1.trans h2.1, h2.2.trans h1.2⟩

theorem QuietBlock.ite {c : Prop} [Decidable c] (hx : QuietBlock nn as d x) (hy : QuietBlock nn as d y) :
    QuietBlock nn as d (if c then x else y) := by
  split <;> assumption

theorem quietBlock_onB {u : Blk → Blk} : QuietBlock nn as d (d.onB nn u) := ⟨onlyBlock_onB, rfl⟩

theorem quietBlock_forAll {n : Nat} {f : Dev → Fin n → Dev} (h : ∀ x i, QuietBlock nn as x (f x i)) : QuietBlock nn as d (forAll d f) :=
  forAll_induction (fun _ x => QuietBlock nn as d x) OnlyRegs.refl.quietBlock fun i x hx => hx.trans (h x i)

/-- Nothing but the block's registers and the block: what else the device holds is as it was. -/
theorem OnlyBlock.rest (h : OnlyBlock nn as d x) : x = { d with regs := x.regs, hw := x.hw, blk := x.blk, evq := x.evq } := h.1

theorem OnlyBlock.reg (h : OnlyBlock nn as d x) {a : Nat} (ha : a ∉ as) : x.reg a = d.reg a := h.2.1 a ha

theorem OnlyBlock.fld {ι : Type} {f : RF ι} {i : ι} (h : OnlyBlock nn as d x) (ha : f.addr i ∉ as) : x.fld f i = d.fld f i :=
  congrArg (fget f.lo f.len) (h.reg ha)

theorem OnlyBlock.bit {ι : Type} {f : RF ι} {i : ι} (h : OnlyBlock nn as d x) (ha : f.addr i ∉ as) : x.bit f i = d.bit f i := by
  simp only [Dev.bit, h.fld ha]

theorem OnlyBlock.pat (h : OnlyBlock nn as d x) : x.pat = d.pat := (congrArg Dev.pat h.rest :)

theorem OnlyBlock.others (h : OnlyBlock nn as d x) {k : Fin 16} (hk : k ≠ nn) : x.b k = d.b k := h.2.2 k hk

end QuietBlock

/-! #### The safe levels of a block (R57, R261, R265) -/

theorem legsSafe_eq (d : Dev) (nn : Fin 16) :
    ∃ v, legsSafe d nn = d.onB nn (fun b => { b with leg := v }) ∧
      ∀ l, (vget v l).gh = (if outputsDriven d nn then s0High d nn l else .hiz) ∧
        (vget v l).gl = (if outputsDriven d nn then s0Low d nn l else .hiz) := by
  obtain ⟨v, hv, hl⟩ := forAll_induction (d := d) (f := fun x (l : Fin 3) => legSafe x nn l)
    (fun k x => ∃ v, x = d.onB nn (fun b => { b with leg := v }) ∧ ∀ l : Fin 3, l.val < k →
      (vget v l).gh = (if outputsDriven d nn then s0High d nn l else .hiz) ∧
      (vget v l).gl = (if outputsDriven d nn then s0Low d nn l else .hiz))
    ⟨(d.b nn).leg, (Dev.onB_same rfl).symm, fun l hl => absurd hl (by omega)⟩ (by
      rintro i x ⟨v, rfl, hl⟩
      refine ⟨_, Dev.onB_onB _ _ _ _, fun l hlt => ?_⟩
      rcases eq_or_ne l i with rfl | hne
      · rw [vget_vmod_self]
        exact ⟨rfl, rfl⟩
      · rw [vget_vmod_ne _ _ _ _ hne]
        exact hl l (by omega))
  exact ⟨v, hv, fun l => hl l l.isLt⟩

theorem legsSafe_quietBlock (d : Dev) (nn : Fin 16) (as : List Nat) : QuietBlock nn as d (legsSafe d nn) := by
  obtain ⟨v, hv, -⟩ := legsSafe_eq d nn
  rw [hv]
  exact quietBlock_onB

theorem legsSafe_hiz {d : Dev} {nn : Fin 16} (h : outputsDriven d nn = false) : outputsHiz ((legsSafe d nn).b nn) := by
  obtain ⟨v, hv, hl⟩ := legsSafe_eq d nn
  rw [hv, Dev.b_onB_self]
  intro l
  simpa [h] using hl l

/-- A block whose gate supplies are not good is not driven (R53). -/
theorem outputsDriven_of_noSupply {d : Dev} {nn : Fin 16} (h : gateSupply d nn = false) : outputsDriven d nn = false := by
  simp [outputsDriven, h]

theorem outputsDriven_of_noPattern {d : Dev} {nn : Fin 16} (h : d.pat = none) : outputsDriven d nn = false := by
  simp [outputsDriven, h]

theorem outputsDriven_putB_safeSet (d : Dev) (nn : Fin 16) (b : Bool) : outputsDriven (d.putB Qstat.SAFESET nn b) nn = outputsDriven d nn := by
  have hst : (d.putB Qstat.SAFESET nn b).fld BkStat.STATE nn = d.fld BkStat.STATE nn :=
    Dev.fld_put_addr _ _ _ _ _ _ (by simp [BkStat.STATE, BkStat.addr, Qstat.SAFESET, Qstat.addr])
  rw [outputsDriven, hst]
  rfl

theorem setSafe_quietBlock (d : Dev) (nn : Fin 16) (fromClear : Bool) : QuietBlock nn [Qstat.addr nn] d (setSafe d nn fromClear) := by
  have hset : QuietBlock nn [Qstat.addr nn] d (d.putB Qstat.SAFESET nn (s1Wanted d nn)) :=
    (onlyRegs_putB (by simp [Qstat.SAFESET])).quietBlock
  have hsafe := hset.trans (legsSafe_quietBlock (d.putB Qstat.SAFESET nn (s1Wanted d nn)) nn [Qstat.addr nn])
  unfold setSafe
  refine QuietBlock.ite ?_ (QuietBlock.ite hsafe hset)
  exact QuietBlock.ite (hsafe.trans (quietBlock_forAll fun x l => quietBlock_onB)) hsafe

/-- Where no pattern drives the outputs, they are at most made high-impedance. -/
theorem setSafe_of_undriven {d : Dev} {nn : Fin 16} (h : outputsDriven d nn = false) (fromClear : Bool) :
    let x := d.putB Qstat.SAFESET nn (s1Wanted d nn)
    setSafe d nn fromClear = if fromClear || (d.bit Qstat.SAFESET nn && !s1Wanted d nn) then legsSafe x nn else x := by
  intro x
  obtain ⟨v, hv, -⟩ := legsSafe_eq x nn
  have hoff : outputsDriven (legsSafe x nn) nn = false := by
    rw [hv]
    exact (outputsDriven_putB_safeSet d nn _).trans h
  cases fromClear with
  | true => simp [setSafe, x, hoff]
  | false => rfl

/-! #### A gate supply goes or comes (R51, R53) -/

/-- What one block does of it: PWM goes on with the next period, and the outputs take their levels. -/
def gateFollow (d : Dev) (nn : Fin 16) : Dev :=
  let x := d.onB nn fun b => { b with leg := b.leg.map fun g => { g with on := false } }
  if x.bit Qstat.LATCH nn then setSafe x nn true else legsSafe x nn

theorem gatesFollow_eq (d : Dev) (n : Fin 4) : gatesFollow d n = forAll d fun x b => gateFollow x (blkAt n b) := rfl

theorem gateFollow_quietBlock (d : Dev) (nn : Fin 16) : QuietBlock nn [Qstat.addr nn] d (gateFollow d nn) :=
  quietBlock_onB.trans (QuietBlock.ite (setSafe_quietBlock _ _ _) (legsSafe_quietBlock _ _ _))

theorem gateFollow_hiz {d : Dev} {nn : Fin 16} (h : gateSupply d nn = false) : outputsHiz ((gateFollow d nn).b nn) := by
  have hoff : outputsDriven (d.onB nn fun b => { b with leg := b.leg.map fun g => { g with on := false } }) nn = false :=
    outputsDriven_of_noSupply h
  unfold gateFollow
  dsimp only
  split
  · rw [setSafe_of_undriven hoff]
    exact legsSafe_hiz ((outputsDriven_putB_safeSet _ _ _).trans hoff)
  · exact legsSafe_hiz hoff

theorem blkAt_inj {n b c : Fin 4} (h : b ≠ c) : blkAt n b ≠ blkAt n c := by
  simp only [blkAt, ne_eq, Fin.mk.injEq]
  omega

theorem rgnOf_blkAt (n b : Fin 4) : rgnOf (blkAt n b) = n := by
  simp only [rgnOf, blkAt, Fin.ext_iff]
  omega

/-- Device x is d after the first k blocks of region n have followed its gate supply: nothing but the region's blocks and their QSTAT
differs, and where a supply of theirs is missing the outputs of those k are high-impedance. -/
structure GatesMoved (d : Dev) (n : Fin 4) (k : Nat) (x : Dev) : Prop where
  rest : x = { d with regs := x.regs, hw := x.hw, blk := x.blk }
  regs : RegsKept ((List.finRange 4).map fun b => Qstat.addr (blkAt n b)) d x
  others : ∀ nn, rgnOf nn ≠ n → x.b nn = d.b nn
  hiz : (∀ b, gateSupply d (blkAt n b) = false) → ∀ b : Fin 4, b.val < k → outputsHiz (x.b (blkAt n b))

theorem gatesMoved_step {d x : Dev} {n i : Fin 4} (h : GatesMoved d n i.val x) : GatesMoved d n (i.val + 1) (gateFollow x (blkAt n i)) := by
  obtain ⟨hq, hevq⟩ := gateFollow_quietBlock x (blkAt n i)
  have hsame : gateSupply x (blkAt n i) = gateSupply d (blkAt n i) := by rw [h.rest]; rfl
  have hhiz : gateSupply x (blkAt n i) = false → _ := gateFollow_hiz
  generalize gateFollow x (blkAt n i) = y at hq hevq hhiz ⊢
  refine ⟨?_, fun a ha => ?_, fun nn hn => ?_, fun hsup b hb => ?_⟩
  · have hx := hq.rest
    rw [hevq] at hx
    exact hx.trans (congrArg (fun z : Dev => { z with regs := y.regs, hw := y.hw, blk := y.blk }) h.rest)
  · refine (hq.reg fun hin => ha ?_).trans (h.regs a ha)
    rw [List.mem_singleton.1 hin]
    exact List.mem_map_of_mem (List.mem_finRange i)
  · refine (hq.others ?_).trans (h.others nn hn)
    rintro rfl
    exact hn (rgnOf_blkAt n i)
  · rcases eq_or_ne b i with rfl | hne
    · exact hhiz (hsame.trans (hsup b))
    · rw [hq.others (blkAt_inj hne)]
      exact h.hiz hsup b (by omega)

theorem gatesFollow_moved (d : Dev) (n : Fin 4) : GatesMoved d n 4 (gatesFollow d n) := by
  rw [gatesFollow_eq]
  exact forAll_induction (GatesMoved d n) ⟨rfl, fun _ _ => rfl, fun _ _ => rfl, fun _ b hb => absurd hb (by omega)⟩
    fun i x hx => gatesMoved_step hx

/-- The supply of a region's gates stands anew in the list, and its G_GOOD bit with it: what the blocks make of it. -/
theorem gatesFollow_of_supply {d : Dev} {n : Fin 4} {sup : List Supply} {good : Nat} :
    let t := gatesFollow ({ d with supply := sup }.put BankV.G_GOOD () good) n
    t.supply = sup ∧ t.fld BankV.G_GOOD () = good % 16 ∧ (∀ nn, rgnOf nn ≠ n → t.b nn = d.b nn) ∧
      t = { d with regs := t.regs, hw := t.hw, blk := t.blk, supply := t.supply } ∧
      RegsKept (BankV.addr () :: (List.finRange 4).map fun b => Qstat.addr (blkAt n b)) d t := by
  intro t
  have h := gatesFollow_moved ({ d with supply := sup }.put BankV.G_GOOD () good) n
  have hsup : t.supply = sup := (congrArg Dev.supply h.rest :)
  refine ⟨hsup, ?_, h.others, ?_, fun a ha => ?_⟩
  · refine (congrArg (fget 20 4) (h.regs (BankV.addr ()) ?_)).trans (Dev.fld_put_self _ _ _ _ (by decide))
    simp [BankV.addr, Qstat.addr, blockBase]
  · rw [hsup]
    exact h.rest
  · rw [List.mem_cons, not_or] at ha
    obtain ⟨hbank, hstat⟩ := ha
    exact (h.regs a hstat).trans (Dev.reg_put_ne _ _ _ _ _ hbank)

/-! #### The straps (R34, R54 to R56) -/

theorem strapWord_fields (b : Straps) :
    let w := BitVec.ofNat 32 (b.cdSel.toNat + b.shpPriv.toNat * 2 + b.bootSrc.toNat * 4 + b.legacyEn.toNat * 16)
    fget 0 1 w = b.cdSel.toNat ∧ fget 1 1 w = b.shpPriv.toNat ∧ fget 2 2 w = b.bootSrc.toNat ∧ fget 4 1 w = b.legacyEn.toNat ∧
      fget 8 1 w = 0 := by
  obtain ⟨cd, shp, src, leg⟩ := b
  revert cd shp src leg
  decide

theorem strapSample_onlyRegs (d : Dev) (b : Straps) : OnlyRegs [Strap.addr ()] d (strapSample d b) := onlyRegs_setReg (by simp)

/-- The sampled straps read as the balls, and CHANGED as 0. -/
theorem strapSample_fields (d : Dev) (b : Straps) :
    (strapSample d b).fld Strap.CD_SEL () = b.cdSel.toNat ∧ (strapSample d b).fld Strap.SHP_PRIV () = b.shpPriv.toNat ∧
    (strapSample d b).fld Strap.BOOT_SRC () = b.bootSrc.toNat ∧ (strapSample d b).fld Strap.LEGACY_EN () = b.legacyEn.toNat ∧
    (strapSample d b).fld Strap.CHANGED () = 0 := by
  obtain ⟨hcd, hshp, hsrc, hleg, hchg⟩ := strapWord_fields b
  exact ⟨(Dev.fld_setReg_self d _ Strap.CD_SEL ()).trans hcd, (Dev.fld_setReg_self d _ Strap.SHP_PRIV ()).trans hshp,
    (Dev.fld_setReg_self d _ Strap.BOOT_SRC ()).trans hsrc, (Dev.fld_setReg_self d _ Strap.LEGACY_EN ()).trans hleg,
    (Dev.fld_setReg_self d _ Strap.CHANGED ()).trans hchg⟩

/-- The start-up writes STAGE and LEGACY and no other register (R76). -/
theorem romStart_reg (d : Dev) {a : Nat} (ha : a ∉ [Start.addr (), ChipMode.addr ()]) : (romStart d).reg a = d.reg a := by
  simp only [List.mem_cons, List.not_mem_nil, or_false, not_or] at ha
  obtain ⟨hstart, hmode⟩ := ha
  exact (Dev.reg_put_ne _ _ _ _ _ hmode).trans (Dev.reg_put_ne _ _ _ _ _ hstart)

theorem romStart_stage (d : Dev) : (romStart d).fld Start.STAGE () = 1 :=
  (Dev.fld_put_addr _ _ _ _ _ _ (by decide)).trans (Dev.fld_put_self _ _ _ _ (by decide))

/-- LEGACY is taken from its strap (R34, R54). -/
theorem romStart_legacy (d : Dev) : (romStart d).fld ChipMode.LEGACY () = d.fld Strap.LEGACY_EN () :=
  (Dev.fld_put_self _ ChipMode.LEGACY _ _ (by decide)).trans (Nat.mod_eq_of_lt (Dev.fld_lt d Strap.LEGACY_EN ()))

theorem rstNRise_effect {d : Dev} (b : Straps) (hr : d.rstN = false) (hc : coreGood d = true) : Completes (.rstNRise b) d fun t =>
    t = { d with regs := t.regs, hw := t.hw, rstN := true, t0 := d.clk, patT := d.clk } ∧
    RegsKept [Strap.addr (), Start.addr (), ChipMode.addr ()] d t ∧
    t.fld Strap.CD_SEL () = b.cdSel.toNat ∧ t.fld Strap.SHP_PRIV () = b.shpPriv.toNat ∧
    t.fld Strap.BOOT_SRC () = b.bootSrc.toNat ∧ t.fld Strap.LEGACY_EN () = b.legacyEn.toNat ∧
    t.fld Strap.CHANGED () = 0 ∧ t.fld Start.STAGE () = 1 ∧ t.fld ChipMode.LEGACY () = b.legacyEn.toNat := by
  intro rest
  have hexec : exec (.rstNRise b) ⟨rest, d⟩ = .next ⟨rest, romStart (strapSample d b)⟩ := by
    show execRstNRise b ⟨rest, d⟩ = _
    simp [execRstNRise, onDev, hr, hc]
  obtain ⟨hcd, hshp, hsrc, hleg, hchg⟩ := strapSample_fields d b
  have hstrap : (romStart (strapSample d b)).reg (Strap.addr ()) = (strapSample d b).reg (Strap.addr ()) := romStart_reg _ (by decide)
  refine ⟨_, hexec, rfl, fun a ha => ?_, (congrArg (fget 0 1) hstrap).trans hcd, (congrArg (fget 1 1) hstrap).trans hshp,
    (congrArg (fget 2 2) hstrap).trans hsrc, (congrArg (fget 4 1) hstrap).trans hleg, (congrArg (fget 8 1) hstrap).trans hchg, romStart_stage _,
    (romStart_legacy _).trans hleg⟩
  rw [List.mem_cons, not_or] at ha
  exact (romStart_reg _ ha.2).trans ((strapSample_onlyRegs d b).reg (by simpa using ha.1))

theorem gives_strapChange (d : Dev) (b : Straps) : Gives (.strapChange b) d
    (if d.fld Start.STAGE () = 0 ∨ BitVec.ofNat 32 (b.cdSel.toNat + b.shpPriv.toNat * 2 + b.bootSrc.toNat * 4 + b.legacyEn.toNat * 16)
        = d.reg (Strap.addr ()) &&& 0x1F then d
      else d.flag Strap.CHANGED ()) := by
  intro rest
  show execStrapChange b ⟨rest, d⟩ = _
  have hword : (strapSample d b).reg (Strap.addr ()) = _ := Dev.reg_setReg_self _ _ _
  simp only [execStrapChange, onDev, hword]
  by_cases hst : d.fld Start.STAGE () = 0 <;> simp [hst]

/-! #### The supplies of the banks (R50, R51, R53) -/

/-- A bank S0 to S3 shows in its bit whether it is good, and its class. -/
theorem classPut_s (d : Dev) (b : Fin 4) (good v3 : Bool) : classPut d ⟨b.val, by omega⟩ good v3 =
    (d.put BankV.S_GOOD () ((d.fld BankV.S_GOOD () &&& (15 - 2 ^ b.val)) + good.toNat * 2 ^ b.val)).put
      BankV.S_3V3 () ((d.fld BankV.S_3V3 () &&& (15 - 2 ^ b.val)) + v3.toNat * 2 ^ b.val) := by
  have hbits (v : Nat) : (d.put BankV.S_GOOD () v).fld BankV.S_3V3 () = d.fld BankV.S_3V3 () :=
    Dev.fld_put_bits _ _ _ _ _ _ (by decide) (by decide)
  simp only [classPut, b.isLt, if_true, hbits]

theorem gives_bankClassing {d : Dev} {b : Fin 5} (v3 : Bool) (h : classSupply b ∉ d.supply) :
    Gives (.bankClassing b v3) d (classPut { d with supply := classSupply b :: d.supply } b true v3) := by
  intro rest
  show execBankClassing b v3 ⟨rest, d⟩ = _
  simp [execBankClassing, onDev, h]

theorem gives_bankClassing_classed {d : Dev} {b : Fin 5} (v3 : Bool) (h : classSupply b ∈ d.supply) : Gives (.bankClassing b v3) d d := by
  intro rest
  show execBankClassing b v3 ⟨rest, d⟩ = _
  simp [execBankClassing, onDev, h]

theorem classSupply_s (b : Fin 4) : classSupply ⟨b.val, by omega⟩ = .s b := by
  simp [classSupply]

theorem gives_supplyFall_s (d : Dev) (n : Fin 4) : Gives (.supplyFall (.s n)) d
    (({ d with supply := d.supply.filter fun x => x != Supply.s n }.put BankV.S_GOOD () (d.fld BankV.S_GOOD () &&& (15 - 2 ^ n.val))).put
      BankV.S_3V3 () (d.fld BankV.S_3V3 () &&& (15 - 2 ^ n.val))) := by
  intro rest
  have hexec : exec (.supplyFall (.s n)) ⟨rest, d⟩ =
      .next ⟨rest, classPut { d with supply := d.supply.filter fun x => x != Supply.s n } ⟨n.val, by omega⟩ false false⟩ := rfl
  rw [hexec, classPut_s, Bool.toNat_false, zero_mul]
  rfl

theorem supplyFall_g_effect (d : Dev) (n : Fin 4) : Completes (.supplyFall (.g n)) d fun t =>
    t.supply = d.supply.filter (fun x => x != Supply.g n) ∧ (t.fld BankV.G_GOOD ()).testBit n.val = false ∧
    (∀ b, outputsHiz (t.b (blkAt n b))) ∧ (∀ nn, rgnOf nn ≠ n → t.b nn = d.b nn) ∧
    t = { d with regs := t.regs, hw := t.hw, blk := t.blk, supply := t.supply } ∧
    RegsKept (BankV.addr () :: (List.finRange 4).map fun b => Qstat.addr (blkAt n b)) d t := by
  let gone := d.supply.filter fun x => x != Supply.g n
  let good := d.fld BankV.G_GOOD () &&& (15 - 2 ^ n.val)
  intro rest
  have hexec : exec (.supplyFall (.g n)) ⟨rest, d⟩ = .next ⟨rest, gatesFollow ({ d with supply := gone }.put BankV.G_GOOD () good) n⟩ := by
    show execSupplyFall (.g n) ⟨rest, d⟩ = _
    simp only [execSupplyFall, onDev]
    rfl
  obtain ⟨hsup, hfld, hothers, hrest, hregs⟩ := gatesFollow_of_supply (d := d) (n := n) (sup := gone) (good := good)
  have hlost (b : Fin 4) : gateSupply ({ d with supply := gone }.put BankV.G_GOOD () good) (blkAt n b) = false := by
    simp [gateSupply, rgnOf_blkAt, gone]
  have hmask : ∀ n : Fin 4, (15 - 2 ^ n.val).testBit n.val = false := by decide
  refine ⟨_, hexec, hsup, ?_, fun b => (gatesFollow_moved _ n).hiz hlost b b.isLt, hothers, hrest, hregs⟩
  rw [hfld, show (16 : Nat) = 2 ^ 4 from rfl, Nat.testBit_mod_two_pow, Nat.testBit_and, hmask, Bool.and_false, Bool.and_false]

theorem supplyRise_g_effect {d : Dev} {n : Fin 4} (h : Supply.g n ∉ d.supply) : Completes (.supplyRise (.g n)) d fun t =>
    t.supply = Supply.g n :: d.supply ∧ (t.fld BankV.G_GOOD ()).testBit n.val = true ∧ (∀ nn, rgnOf nn ≠ n → t.b nn = d.b nn) ∧
    t = { d with regs := t.regs, hw := t.hw, blk := t.blk, supply := t.supply } ∧
    RegsKept (BankV.addr () :: (List.finRange 4).map fun b => Qstat.addr (blkAt n b)) d t := by
  let good := d.fld BankV.G_GOOD () ||| 2 ^ n.val
  intro rest
  have hexec : exec (.supplyRise (.g n)) ⟨rest, d⟩ =
      .next ⟨rest, gatesFollow ({ d with supply := .g n :: d.supply }.put BankV.G_GOOD () good) n⟩ := by
    show execSupplyRise (.g n) ⟨rest, d⟩ = _
    simp only [execSupplyRise, onDev, List.contains_eq_mem, h, decide_false, Bool.false_eq_true, if_false]
    rfl
  obtain ⟨hsup, hfld, hothers, hrest, hregs⟩ := gatesFollow_of_supply (d := d) (n := n) (sup := .g n :: d.supply) (good := good)
  refine ⟨_, hexec, hsup, ?_, hothers, hrest, hregs⟩
  rw [hfld, show (16 : Nat) = 2 ^ 4 from rfl, Nat.testBit_mod_two_pow, Nat.testBit_or, Nat.testBit_two_pow_self, Bool.or_true,
    decide_eq_true n.isLt, Bool.and_true]

/-- Settles O10: the straps are one register, sampled where the start-up begins; a bank's supply stands in the list of the good ones
and in CHIP.BANKV, and the blocks of a region follow the supply of their gates one by one. -/
theorem strapsAndSupplies : Obligations.StrapsAndSupplies := by
  unfold Obligations.StrapsAndSupplies
  refine ⟨fun d b hr hc => rstNRise_effect b hr hc, gives_strapChange, fun d b v3 h => ?_, fun d v3 h => gives_bankClassing v3 h,
    fun d b v3 h => gives_bankClassing_classed v3 h, fun d rest => ⟨rfl, rfl, rfl⟩, fun d rest => rfl, supplyFall_g_effect, gives_supplyFall_s,
    fun d rest => rfl, fun d h rest => ?_, fun d h rest => ?_, fun d n h => supplyRise_g_effect h⟩
  · have hexec := gives_bankClassing (b := ⟨b.val, by omega⟩) v3 (by rwa [classSupply_s])
    rw [classPut_s, classSupply_s, Bool.toNat_true, one_mul] at hexec
    exact hexec
  · show execSupplyRise .vddl ⟨rest, d⟩ = _
    simp [execSupplyRise, onDev, h]
  · show execSupplyRise .c ⟨rest, d⟩ = _
    simp [execSupplyRise, onDev, h]

end Sys2Proof.Machine

/-! ### A quench of a block that no pattern drives (R58, R262) -/

namespace Sys2Proof.Machine

/-- The registers that a quench of a block in OFF writes, while no command is pending and OWN_O is low. -/
def quenchRegs (nn : Fin 16) : List Nat :=
  Qcause.addr nn :: Qstat.addr nn :: FltCnt.addr () :: (List.finRange 3).map fun l => LcAcc.addr (nn, l)

theorem low_notMem_quenchRegs {a : Nat} (hlo : a < 0x1000000) (hne : a ≠ FltCnt.addr ()) (nn : Fin 16) : a ∉ quenchRegs nn := by
  simp only [quenchRegs, Qcause.addr, Qstat.addr, LcAcc.addr, blockBase, List.mem_cons, List.mem_map, not_or, not_exists, not_and]
  exact ⟨by omega, by omega, hne, fun l _ => by omega⟩

theorem bkStat_notMem_quenchRegs (k nn : Fin 16) : BkStat.addr k ∉ quenchRegs nn := by
  simp only [quenchRegs, Qcause.addr, Qstat.addr, FltCnt.addr, LcAcc.addr, BkStat.addr, blockBase, List.mem_cons, List.mem_map, not_or,
    not_exists, not_and]
  exact ⟨by omega, by omega, by omega, fun l _ => by omega⟩

theorem bkCtl_notMem_quenchRegs (k nn : Fin 16) : BkCtl.addr k ∉ quenchRegs nn := by
  simp only [quenchRegs, Qcause.addr, Qstat.addr, FltCnt.addr, LcAcc.addr, BkCtl.addr, blockBase, List.mem_cons, List.mem_map, not_or,
    not_exists, not_and]
  exact ⟨by omega, by omega, by omega, fun l _ => by omega⟩

theorem bpStat_notMem_quenchRegs (p : Fin 4) (nn : Fin 16) : BpStat.addr p ∉ quenchRegs nn := by
  simp only [quenchRegs, Qcause.addr, Qstat.addr, FltCnt.addr, LcAcc.addr, BpStat.addr, portBase, regionBase, blockBase, List.mem_cons,
    List.mem_map, not_or, not_exists, not_and]
  exact ⟨by omega, by omega, by omega, fun l _ => by omega⟩

/-- A block of a unit without a pattern and without OWN_O: it is OFF with its outputs high-impedance, no command of it is pending and no
clear of its latch can be undone. -/
structure OffBlock (nn : Fin 16) (x : Dev) : Prop where
  pat : x.pat = none
  own : x.bit TwStat.OWNO () = false
  state : x.fld BkStat.STATE nn = 0
  cmds : x.bit BkCtl.ARM nn = false ∧ x.bit BkCtl.RUN nn = false ∧ x.bit BkCtl.STOP nn = false
  clr : (x.b nn).qClr = none
  hiz : outputsHiz (x.b nn)

/-- What a quench does to such a block: only its latch registers and the block change, and its outputs stay high-impedance. -/
structure StaysOff (nn : Fin 16) (x t : Dev) : Prop where
  only : OnlyBlock nn (quenchRegs nn) x t
  clr : (t.b nn).qClr = (x.b nn).qClr
  hiz : outputsHiz (x.b nn) → outputsHiz (t.b nn)

section StaysOff

variable {nn : Fin 16} {x y t : Dev}

theorem StaysOff.refl : StaysOff nn x x := ⟨OnlyRegs.refl.onlyBlock, rfl, id⟩

theorem StaysOff.trans (h1 : StaysOff nn x y) (h2 : StaysOff nn y t) : StaysOff nn x t :=
  ⟨h1.only.trans h2.only, h2.clr.trans h1.clr, fun h => h2.hiz (h1.hiz h)⟩

theorem StaysOff.ite {c : Prop} [Decidable c] (hy : StaysOff nn x y) (ht : StaysOff nn x t) : StaysOff nn x (if c then y else t) := by
  split <;> assumption

theorem OnlyRegs.staysOff {as : List Nat} (h : OnlyRegs as x t) (hs : as ⊆ quenchRegs nn) : StaysOff nn x t :=
  ⟨(h.mono hs).onlyBlock, by rw [h.b], fun hz => by rwa [h.b]⟩

theorem staysOff_onB {u : Blk → Blk} (hclr : (u (x.b nn)).qClr = (x.b nn).qClr) (hleg : (u (x.b nn)).leg = (x.b nn).leg) :
    StaysOff nn x (x.onB nn u) :=
  ⟨onlyBlock_onB, by rw [Dev.b_onB_self, hclr], fun hz => by rw [Dev.b_onB_self]; intro l; rw [hleg]; exact hz l⟩

theorem staysOff_raise {s i : Nat} : StaysOff nn x (x.raise s i) := ⟨⟨rfl, fun _ _ => rfl, fun _ _ => rfl⟩, rfl, id⟩

section Field

variable {ι : Type} {f : RF ι} {i : ι} (ha : f.addr i ∈ quenchRegs nn)
include ha

theorem staysOff_put {v : Nat} : StaysOff nn x (x.put f i v) :=
  (onlyRegs_put (List.mem_singleton_self _)).staysOff (by simpa using ha)

theorem staysOff_flag : StaysOff nn x (x.flag f i) := (onlyRegs_flag (List.mem_singleton_self _)).staysOff (by simpa using ha)

theorem staysOff_incSat : StaysOff nn x (x.incSat f i) :=
  (staysOff_put ha (v := min (x.fld f i + 1) (2 ^ f.len - 1))).trans ⟨⟨rfl, fun _ _ => rfl, fun _ _ => rfl⟩, rfl, id⟩

end Field

/-- What happens to one block leaves every block off. -/
theorem OffBlock.of_staysOff {k : Fin 16} (h : OffBlock nn x) (hs : StaysOff k x t) : OffBlock nn t where
  pat := hs.only.pat.trans h.pat
  own := (hs.only.bit (low_notMem_quenchRegs (by decide) (by decide) k)).trans h.own
  state := (hs.only.fld (bkStat_notMem_quenchRegs nn k)).trans h.state
  cmds := by
    obtain ⟨harm, hrun, hstop⟩ := h.cmds
    have hctl (f : RF (Fin 16)) (hf : f.addr = BkCtl.addr) : t.bit f nn = x.bit f nn :=
      hs.only.bit (by rw [hf]; exact bkCtl_notMem_quenchRegs nn k)
    exact ⟨(hctl _ rfl).trans harm, (hctl _ rfl).trans hrun, (hctl _ rfl).trans hstop⟩
  clr := by
    rcases eq_or_ne nn k with rfl | hne
    · exact hs.clr.trans h.clr
    · rw [hs.only.others hne, h.clr]
  hiz := by
    rcases eq_or_ne nn k with rfl | hne
    · exact hs.hiz h.hiz
    · rw [hs.only.others hne]
      exact h.hiz

end StaysOff

/-! #### The parts of a quench -/

/-- The latch sets anew (R266 to R268, R414). -/
def quenchNew (d : Dev) (nn : Fin 16) (mask : Nat) : Dev :=
  let x := (d.onB nn fun b => { b with qSet := some d.clk }).put Qstat.FIRST nn (causeCode (lowBit mask))
  let y := legsForget (((x.incSat Qstat.QCNT nn).flag Qstat.SET_SEEN nn).incSat FltCnt.QUENCH ()) nn
  if twqDue y nn mask then (y.flag TwStat.TWQO ()).onTw fun t => { t with twqPulse := true } else y

/-- A cause is recorded, up to the levels of the outputs (R262, R268). -/
def quenchRecord (x : Dev) (nn : Fin 16) (mask : Nat) : Dev :=
  let was := x.bit Qstat.LATCH nn
  let y := (x.put Qcause.CAUSE nn ((if was then x.fld Qcause.CAUSE nn else 0) ||| mask % 65536)).flag Qstat.LATCH nn
  if was then
    if was && (x.b nn).qSet == some x.clk then y.put Qstat.FIRST nn (min (y.fld Qstat.FIRST nn) (causeCode (lowBit mask))) else y
  else quenchNew y nn mask

theorem quench_eq (d : Dev) (nn : Fin 16) (mask : Nat) : quench d nn mask =
    if mask % 65536 = 0 then d
    else
      let x := causesNote (clearUndo d nn) nn mask
      let was := x.bit Qstat.LATCH nn
      let y := quenchState (setSafe (quenchRecord x nn mask) nn (!was)) nn
      if was then y else y.raise (bkSrc nn 0) (y.lo16 Qstat.word nn) := rfl

theorem clearUndo_of_noClear {d : Dev} {nn : Fin 16} (h : (d.b nn).qClr = none) : clearUndo d nn = d := by
  simp [clearUndo, h]

theorem quenchState_of_off {d : Dev} {nn : Fin 16} (h : OffBlock nn d) : quenchState d nn = d := by
  obtain ⟨harm, hrun, hstop⟩ := h.cmds
  simp [quenchState, h.state, harm, hrun, hstop]

theorem legsForget_staysOff (x : Dev) (nn : Fin 16) : StaysOff nn x (legsForget x nn) := by
  refine forAll_induction (fun _ y => StaysOff nn x y) StaysOff.refl fun l y hy => ?_
  have hin (f : RF (Fin 16 × Fin 3)) (hf : f.addr = LcAcc.addr) : f.addr (nn, l) ∈ quenchRegs nn := by simp [quenchRegs, hf]
  exact ((hy.trans (staysOff_put (f := LcAcc.A) (hin _ rfl))).trans (staysOff_put (f := LcAcc.SIDE) (hin _ rfl))).trans
    (staysOff_put (f := LcAcc.FULLRUN) (hin _ rfl))

theorem quenchNew_staysOff {x : Dev} {nn : Fin 16} {mask : Nat} (h : OffBlock nn x) : StaysOff nn x (quenchNew x nn mask) := by
  have hq (f : RF (Fin 16)) (hf : f.addr = Qstat.addr) : f.addr nn ∈ quenchRegs nn := by simp [quenchRegs, hf]
  let y := legsForget (((((x.onB nn fun b => { b with qSet := some x.clk }).put Qstat.FIRST nn (causeCode (lowBit mask))).incSat
    Qstat.QCNT nn).flag Qstat.SET_SEEN nn).incSat FltCnt.QUENCH ()) nn
  have hy : StaysOff nn x y :=
    ((((((staysOff_onB rfl rfl).trans (staysOff_put (hq _ rfl))).trans (staysOff_incSat (hq _ rfl))).trans (staysOff_flag (hq _ rfl))).trans
      (staysOff_incSat (by simp [quenchRegs, FltCnt.QUENCH]))).trans (legsForget_staysOff _ nn))
  have hdue : twqDue y nn mask = false := by simp [twqDue, (h.of_staysOff hy).own]
  have hnew : quenchNew x nn mask = y := if_neg (by rw [hdue]; decide)
  rwa [hnew]

theorem quenchRecord_staysOff {x : Dev} {nn : Fin 16} {mask : Nat} (h : OffBlock nn x) : StaysOff nn x (quenchRecord x nn mask) := by
  have hlatch (v : Nat) : StaysOff nn x ((x.put Qcause.CAUSE nn v).flag Qstat.LATCH nn) :=
    (staysOff_put (by simp [quenchRegs, Qcause.CAUSE])).trans (staysOff_flag (by simp [quenchRegs, Qstat.LATCH]))
  exact StaysOff.ite (StaysOff.ite ((hlatch _).trans (staysOff_put (by simp [quenchRegs, Qstat.FIRST]))) (hlatch _))
    ((hlatch _).trans (quenchNew_staysOff (h.of_staysOff (hlatch _))))

theorem setSafe_staysOff {x : Dev} {nn : Fin 16} (h : OffBlock nn x) (fromClear : Bool) : StaysOff nn x (setSafe x nn fromClear) := by
  have hset : StaysOff nn x (x.putB Qstat.SAFESET nn (s1Wanted x nn)) := staysOff_put (by simp [quenchRegs, Qstat.SAFESET])
  have hsafe : StaysOff nn x (legsSafe (x.putB Qstat.SAFESET nn (s1Wanted x nn)) nn) := by
    refine hset.trans ⟨(legsSafe_quietBlock _ _ _).1, ?_, fun _ => legsSafe_hiz (outputsDriven_of_noPattern h.pat)⟩
    obtain ⟨v, hv, -⟩ := legsSafe_eq (x.putB Qstat.SAFESET nn (s1Wanted x nn)) nn
    rw [hv, Dev.b_onB_self]
  rw [setSafe_of_undriven (outputsDriven_of_noPattern h.pat)]
  exact StaysOff.ite hsafe hset

theorem quench_staysOff {x : Dev} {nn : Fin 16} (mask : Nat) (h : OffBlock nn x) : StaysOff nn x (quench x nn mask) := by
  rw [quench_eq, clearUndo_of_noClear h.clr]
  refine StaysOff.ite StaysOff.refl ?_
  have hnote : StaysOff nn x (causesNote x nn mask) := staysOff_onB rfl rfl
  have hrec := hnote.trans (quenchRecord_staysOff (mask := mask) (h.of_staysOff hnote))
  have hsafe := hrec.trans (setSafe_staysOff (h.of_staysOff hrec) (!(causesNote x nn mask).bit Qstat.LATCH nn))
  dsimp only
  rw [quenchState_of_off (h.of_staysOff hsafe)]
  exact StaysOff.ite hsafe (hsafe.trans staysOff_raise)

end Sys2Proof.Machine

/-! ### Resets of the whole unit (R51, R55, R71 to R73, R390, O9) -/

namespace Sys2Proof.Machine

/-! #### What a chip reset leaves (R71) -/

/-- Device t is x after the quench inputs have acted on its fresh latches (R58). -/
structure LevelsActed (x t : Dev) : Prop where
  rest : t = { x with regs := t.regs, hw := t.hw, blk := t.blk, evq := t.evq }
  regs : ∀ a, (∀ nn, a ∉ quenchRegs nn) → t.reg a = x.reg a
  off : ∀ nn, OffBlock nn t

theorem levelsAct_effect {x : Dev} (h : ∀ nn, OffBlock nn x) : LevelsActed x (levelsAct x) := by
  refine forAll_induction (fun _ y => LevelsActed x y) ⟨rfl, fun _ _ => rfl, h⟩ fun nn y hy => ?_
  have hs := quench_staysOff (actMask y nn &&& 0x20FF) (hy.off nn)
  generalize quench y nn (actMask y nn &&& 0x20FF) = t at hs ⊢
  refine ⟨?_, fun a ha => (hs.only.reg (ha nn)).trans (hy.regs a ha), fun k => (hy.off k).of_staysOff hs⟩
  exact hs.only.rest.trans (congrArg (fun z : Dev => { z with regs := t.regs, hw := t.hw, blk := t.blk, evq := t.evq }) hy.rest)

/-- The device that a chip reset makes before its quench inputs act. -/
def chipBase (d : Dev) (hard power : Bool) : Dev :=
  keptRegs.foldl (fun r a => r.setReg a (d.reg a &&& keptMask a hard power)) (chipFresh d hard power)

theorem foldl_setReg_reg (l : List Nat) (v : Nat → Word) (x : Dev) (a : Nat) :
    (l.foldl (fun r a => r.setReg a (v a)) x).reg a = if a ∈ l then v a else x.reg a := by
  induction l generalizing x with
  | nil => simp
  | cons b l ih =>
    rw [List.foldl_cons, ih, Dev.reg_setReg]
    by_cases hl : a ∈ l
    · simp [hl]
    · rcases eq_or_ne a b with rfl | hne
      · simp [hl]
      · simp [hl, hne]

theorem chipBase_reg (d : Dev) (hard power : Bool) (a : Nat) :
    (chipBase d hard power).reg a = if a ∈ keptRegs then d.reg a &&& keptMask a hard power else resetWord a :=
  foldl_setReg_reg keptRegs (fun a => d.reg a &&& keptMask a hard power) _ a

theorem chipBase_b (d : Dev) (hard power : Bool) (nn : Fin 16) : (chipBase d hard power).b nn = blkFresh (d.b nn) := by
  have hblk : (chipBase d hard power).blk = d.blk.map blkFresh := rfl
  simp [Dev.b, vget, hblk]

theorem blkFresh_hiz (b : Blk) : outputsHiz (blkFresh b) := by
  intro l
  simp [blkFresh, Blk.reset, vget, Leg.reset]

theorem high_notMem_keptRegs {a : Nat} (h : 0x200 ≤ a) : a ∉ keptRegs := by
  simp only [keptRegs, BankV.addr, RstCause.addr, ClkStat.addr, Fail.addr, Strap.addr, List.mem_cons, List.not_mem_nil, or_false, not_or]
  omega

theorem bkStat_bkCtl_high (nn : Fin 16) : 0x200 ≤ BkStat.addr nn ∧ 0x200 ≤ BkCtl.addr nn := by
  simp only [BkStat.addr, BkCtl.addr, blockBase]
  omega

theorem chipBase_off (d : Dev) (hard power : Bool) (nn : Fin 16) : OffBlock nn (chipBase d hard power) := by
  obtain ⟨hstat, hctl⟩ := bkStat_bkCtl_high nn
  have hreg {a : Nat} (ha : 0x200 ≤ a) : (chipBase d hard power).reg a = resetWord a := by
    rw [chipBase_reg, if_neg (high_notMem_keptRegs ha)]
  have hzero : ∀ nn, resetWord (BkStat.addr nn) = 0 ∧ resetWord (BkCtl.addr nn) = 0 := by decide
  have hcmd (f : RF (Fin 16)) (hf : f.addr = BkCtl.addr) : (chipBase d hard power).bit f nn = false := by
    simp [Dev.bit, Dev.fld, hf, hreg hctl, hzero nn, fget]
  refine ⟨rfl, ?_, ?_, ⟨hcmd _ rfl, hcmd _ rfl, hcmd _ rfl⟩, ?_, ?_⟩
  · exact congrArg (fun w => fget 8 1 w != 0) (hreg (a := TwStat.addr ()) (by decide))
  · exact (congrArg (fget 0 3) ((hreg hstat).trans (hzero nn).1)).trans rfl
  · rw [chipBase_b]
    rfl
  · rw [chipBase_b]
    exact blkFresh_hiz _

theorem chipReset_acted (d : Dev) (hard power : Bool) : LevelsActed (chipBase d hard power) (chipReset d hard power) :=
  levelsAct_effect (chipBase_off d hard power)

/-- But for registers, blocks and messages a chip reset leaves what the fresh device holds. -/
theorem chipReset_rest (d : Dev) (hard power : Bool) :
    let t := chipReset d hard power
    t = { chipFresh d hard power with regs := t.regs, hw := t.hw, blk := t.blk, evq := t.evq } :=
  (chipReset_acted d hard power).rest

/-- A register that no quench writes keeps the bits of R56, R70, R71, R75 and R392, or stands as at reset. -/
theorem chipReset_reg (d : Dev) (hard power : Bool) {a : Nat} (ha : ∀ nn, a ∉ quenchRegs nn) :
    (chipReset d hard power).reg a = if a ∈ keptRegs then d.reg a &&& keptMask a hard power else resetWord a :=
  ((chipReset_acted d hard power).regs a ha).trans (chipBase_reg d hard power a)

theorem chipReset_fld {ι : Type} (d : Dev) (hard power : Bool) {f : RF ι} {i : ι} (ha : ∀ nn, f.addr i ∉ quenchRegs nn)
    (hk : f.addr i ∉ keptRegs) : (chipReset d hard power).fld f i = fget f.lo f.len (resetWord (f.addr i)) :=
  congrArg (fget f.lo f.len) ((chipReset_reg d hard power ha).trans (if_neg hk))

theorem chipReset_stage (d : Dev) (hard power : Bool) : (chipReset d hard power).fld Start.STAGE () = 0 :=
  chipReset_fld d hard power (low_notMem_quenchRegs (by decide) (by decide)) (by decide)

theorem chipReset_asReset (d : Dev) (hard power : Bool) : AsReset d (chipReset d hard power) := by
  have hoff := (chipReset_acted d hard power).off
  have hrest := chipReset_rest d hard power
  have hrole : (chipReset d hard power).fld TwStat.ROLE () = 3 :=
    chipReset_fld d hard power (low_notMem_quenchRegs (by decide) (by decide)) (by decide)
  generalize chipReset d hard power = t at hoff hrest hrole
  refine ⟨?_, ?_, fun nn => ⟨(hoff nn).hiz, (hoff nn).state⟩, fun n => ?_, fun k => ?_, ?_, ⟨hrole, (hoff 0).own, ?_⟩, ?_, ?_⟩ <;> rw [hrest]
  · exact ⟨rfl, rfl, rfl, rfl, rfl⟩
  · exact ⟨rfl, rfl⟩
  · simp [Dev.r, vget, chipFresh, Dev.reset]
  · simp [Dev.pd, vget, chipFresh, Dev.reset]
  · exact ⟨rfl, rfl, rfl, rfl, rfl, rfl⟩
  · rfl
  · exact ⟨rfl, rfl, rfl, rfl⟩
  · exact ⟨rfl, rfl⟩

/-! #### What follows a chip reset in the same command -/

section AsReset

variable {d x t : Dev}

/-- What is kept over a reset does not depend on registers, supplies and RST_N. -/
theorem AsReset.of_same (h : AsReset x t) (hx : x = { d with regs := x.regs, supply := x.supply, rstN := x.rstN, fresh := x.fresh }) :
    AsReset d t := by
  obtain ⟨hpat, hstw, hblk, hrgn, hdom, hserv, htwin, hflash, hclk⟩ := h
  rw [hx] at hflash hclk
  exact ⟨hpat, hstw, hblk, hrgn, hdom, hserv, htwin, hflash, hclk⟩

/-- A field of the chip's own registers but TWIN.STAT may be written. -/
theorem AsReset.put (h : AsReset d t) {f : RF Unit} {v : Nat} (hf : f.addr () < TwStat.addr ()) : AsReset d (t.put f () v) := by
  obtain ⟨hpat, hstw, hblk, hrgn, hdom, hserv, ⟨hrole, hown, hpair⟩, hflash, hclk⟩ := h
  have htwin (g : RF Unit) (hg : g.addr = TwStat.addr) : (t.put f () v).fld g () = t.fld g () :=
    Dev.fld_put_addr _ _ _ _ _ _ (by rw [hg]; exact Nat.ne_of_gt hf)
  have hstate (nn : Fin 16) : (t.put f () v).fld BkStat.STATE nn = t.fld BkStat.STATE nn :=
    Dev.fld_put_addr _ _ _ _ _ _ (by
      simp only [BkStat.STATE, BkStat.addr, blockBase]
      simp only [TwStat.addr] at hf
      omega)
  have hown' : (t.put f () v).bit TwStat.OWNO () = false := (congrArg (· != 0) (htwin TwStat.OWNO rfl)).trans hown
  exact ⟨hpat, hstw, fun nn => ⟨(hblk nn).1, (hstate nn).trans (hblk nn).2⟩, hrgn, hdom, hserv,
    ⟨(htwin TwStat.ROLE rfl).trans hrole, hown', hpair⟩, hflash, hclk⟩

theorem AsReset.flag (h : AsReset d t) {f : RF Unit} (hf : f.addr () < TwStat.addr ()) : AsReset d (t.flag f ()) := by
  obtain ⟨hpat, hstw, hblk, hrgn, hdom, hserv, htwin, hflash, hclk⟩ := h.put (v := 1) hf
  exact ⟨hpat, hstw, hblk, hrgn, hdom, hserv, htwin, hflash, hclk⟩

/-- The count of failures and what is noted of them are no part of it. -/
theorem AsReset.failNoted (h : AsReset d t) {o : Bool} {n : Nat} {l : List Nat} :
    AsReset d { t with failOpen := o, failWin := n, failNote := l } := by
  obtain ⟨hpat, hstw, hblk, hrgn, hdom, hserv, htwin, hflash, hclk⟩ := h
  exact ⟨hpat, hstw, hblk, hrgn, hdom, hserv, htwin, hflash, hclk⟩

theorem AsReset.romStart (h : AsReset d t) : AsReset d (romStart t) := by
  have hbegin : AsReset d { t with rstN := true, t0 := t.clk, patT := t.clk } := by
    obtain ⟨hpat, hstw, hblk, hrgn, hdom, hserv, htwin, hflash, ⟨hclk, -⟩⟩ := h
    exact ⟨hpat, hstw, hblk, hrgn, hdom, hserv, htwin, hflash, ⟨hclk, hclk⟩⟩
  exact (hbegin.put (f := Start.STAGE) (by decide)).put (f := ChipMode.LEGACY) (by decide)

end AsReset

/-- A flag set is its bit written 1. -/
theorem reg_flag_self {ι : Type} (d : Dev) (f : RF ι) (i : ι) (hl : f.len = 1) (h : f.lo < 32) :
    (d.flag f i).reg (f.addr i) = d.reg (f.addr i) ||| fmask f.lo 1 := by
  obtain ⟨addr, lo, len⟩ := f
  subst hl
  have hput : (d.flag ⟨addr, lo, 1⟩ i).reg (addr i) = fset lo 1 1 (d.reg (addr i)) := Dev.reg_setReg_self _ _ _
  refine hput.trans (BitVec.eq_of_getLsbD_eq fun j _ => ?_)
  rw [fset_getLsbD h, BitVec.getLsbD_or, fmask_getLsbD _ _ _ h]
  rcases eq_or_ne j lo with rfl | hne
  · simp
  · simp [show ¬ (lo ≤ j ∧ j ≤ lo) by omega]

/-- A reset of the whole unit, with the flag of its cause set in CHIP.RSTCAUSE (R71, R75). -/
theorem chipReset_flag_effect {d x : Dev} (hx : x = { d with regs := x.regs, supply := x.supply, rstN := x.rstN, fresh := x.fresh })
    (hard power : Bool) {f : RF Unit} (hf : f.addr = RstCause.addr) (hl : f.len = 1) (hlo : f.lo < 32) :
    let t := (chipReset x hard power).flag f ()
    AsReset d t ∧ t.fld Start.STAGE () = 0 ∧ t.rstN = x.rstN ∧ t.supply = x.supply ∧
      t.reg (RstCause.addr ()) = (x.reg (RstCause.addr ()) &&& keptMask (RstCause.addr ()) hard power) ||| fmask f.lo 1 ∧
      t.reg (Strap.addr ()) = x.reg (Strap.addr ()) &&& keptMask (Strap.addr ()) hard power := by
  intro t
  have hrest := chipReset_rest x hard power
  have hkept {a : Nat} (ha : a ∈ keptRegs) : (chipReset x hard power).reg a = x.reg a &&& keptMask a hard power := by
    have hlow : ∀ a ∈ keptRegs, a < 0x1000000 ∧ a ≠ FltCnt.addr () := by decide
    exact (chipReset_reg x hard power (low_notMem_quenchRegs (hlow a ha).1 (hlow a ha).2)).trans (if_pos ha)
  have hother {a : Nat} (ha : a ≠ RstCause.addr ()) : t.reg a = (chipReset x hard power).reg a :=
    Dev.reg_put_ne _ _ _ _ _ (by rwa [hf])
  refine ⟨((chipReset_asReset x hard power).of_same hx).flag (by rw [hf]; decide), ?_, (congrArg Dev.rstN hrest :), (congrArg Dev.supply hrest :),
    ?_, (hother (by decide)).trans (hkept (by decide))⟩
  · exact (congrArg (fget 0 3) (hother (by decide))).trans (chipReset_stage x hard power)
  · have hflag := reg_flag_self (chipReset x hard power) f () hl hlo
    rw [hf, hkept (by decide)] at hflag
    exact hflag

/-- POWER_ON: RSTCAUSE holds POR and nothing else (R71, R75). -/
theorem powerOn_effect (d : Dev) (c : CoreSupply) :
    let t := powerOn d c
    AsReset d t ∧ t.fld Start.STAGE () = 0 ∧ t.rstN = false ∧ t.supply = d.supply.filter (fun x => x != coreSupply c) ∧
      t.reg (RstCause.addr ()) = 1 := by
  let gone : Dev := { d with supply := d.supply.filter fun x => x != coreSupply c, rstN := false }
  let x := if c = .vddioC then gone.clr BankV.C_GOOD () else gone
  have hx : x = { gone with regs := x.regs } := by
    simp only [x]
    split <;> rfl
  have hsame : x = { d with regs := x.regs, supply := x.supply, rstN := x.rstN, fresh := x.fresh } := by
    rw [hx]
  obtain ⟨has, hstage, hrst, hsup, hcause, -⟩ := chipReset_flag_effect hsame true true (f := RstCause.POR) rfl rfl (by decide)
  refine ⟨has, hstage, hrst.trans (congrArg Dev.rstN hx), hsup.trans (congrArg Dev.supply hx), hcause.trans ?_⟩
  rw [show keptMask (RstCause.addr ()) true true = 0#32 from rfl, BitVec.and_zero]
  rfl

/-- RST_N low for long enough: PIN is set beside what RSTCAUSE held (R72, R75). -/
theorem pinReset_effect (d : Dev) (k : Nat) :
    let t := (chipReset { d with fresh := k, rstN := false } true false).flag RstCause.PIN ()
    AsReset d t ∧ t.fld Start.STAGE () = 0 ∧ t.rstN = false ∧ t.supply = d.supply ∧
      t.reg (RstCause.addr ()) = (d.reg (RstCause.addr ()) &&& 0xFF0F) ||| 2 := by
  obtain ⟨has, hstage, hrst, hsup, hcause, -⟩ := chipReset_flag_effect (d := d) (x := { d with fresh := k, rstN := false }) rfl true false
    (f := RstCause.PIN) rfl rfl (by decide)
  exact ⟨has, hstage, hrst, hsup, hcause⟩

/-- What a software chip reset and a failure reset leave, with the start-up going on at STAGE ROM. -/
structure SoftReset (d t : Dev) : Prop where
  asReset : AsReset d t
  strap : t.reg (Strap.addr ()) = d.reg (Strap.addr ()) &&& 0x1F
  cause : t.reg (RstCause.addr ()) = (d.reg (RstCause.addr ()) &&& 0xFF0F) ||| 4
  failT : t.failT = false

theorem softReset_chipReset (d : Dev) : SoftReset d ((chipReset d false false).flag RstCause.SOFT ()) := by
  obtain ⟨has, -, -, -, hcause, hstrap⟩ := chipReset_flag_effect (d := d) (x := d) rfl false false (f := RstCause.SOFT) rfl rfl (by decide)
  exact ⟨has, hstrap, hcause, (congrArg Dev.failT (chipReset_rest d false false) :)⟩

theorem SoftReset.flag {d t : Dev} (h : SoftReset d t) {f : RF Unit} (hf : f.addr = Fail.addr) : SoftReset d (t.flag f ()) where
  asReset := h.asReset.flag (by rw [hf]; decide)
  strap := (Dev.reg_put_ne _ _ _ _ _ (by rw [hf]; decide)).trans h.strap
  cause := (Dev.reg_put_ne _ _ _ _ _ (by rw [hf]; decide)).trans h.cause
  failT := h.failT

theorem SoftReset.failNoted {d t : Dev} (h : SoftReset d t) {o : Bool} {n : Nat} {l : List Nat} :
    SoftReset d { t with failOpen := o, failWin := n, failNote := l } :=
  ⟨h.asReset.failNoted, h.strap, h.cause, h.failT⟩

theorem SoftReset.romStart {d t : Dev} (h : SoftReset d t) : SoftReset d (romStart t) where
  asReset := h.asReset.romStart
  strap := (romStart_reg t (by decide)).trans h.strap
  cause := (romStart_reg t (by decide)).trans h.cause
  failT := h.failT

/-- What a write to CHIP.SWRST of a privileged master does (R73). -/
theorem exec_softwareChipReset_reaches {d : Dev} {h : Master} {w : Word} (hr : ReachesPriv d h (SwRst.addr ()) unitNone) :
    Gives (.softwareChipReset h w) d (unguard (swRstDo d (ownBit 16 w)) unitChip (SwRst.addr ())
      (if swRstGoes (ownBit 16 w) then 0 else wRsv 0xFFFE0000 (ownBit 16 w))) :=
  fun _ => hostCmd_reaches hr.1 fun _ => hr.2

/-- GO counts as written, and the KEY and the reserved bits are those of the word (assumption log 13). -/
theorem ownBit_swRst (w : Word) : (ownBit 16 w).getLsbD 16 = true ∧ fget 0 16 (ownBit 16 w) = fget 0 16 w ∧
    (fget 17 15 w = 0 → wRsv 0xFFFE0000 (ownBit 16 w) = 0) := by
  have hget (lo len : Nat) (h : (BitVec.ofNat 32 (2 ^ 16)).extractLsb' lo len = 0#len) : fget lo len (ownBit 16 w) = fget lo len w := by
    rw [fget, fget, ownBit, BitVec.extractLsb'_or, h, BitVec.or_zero]
  refine ⟨by simp [ownBit], hget 0 16 rfl, fun hzero => ?_⟩
  rw [← hget 17 15 rfl, fget, BitVec.extractLsb'_toNat, Nat.shiftRight_eq_div_pow] at hzero
  have hlow : (ownBit 16 w).toNat < 2 ^ 17 := by omega
  refine Nat.eq_of_testBit_eq fun j => ?_
  rw [wRsv, Nat.testBit_and, show 0xFFFE0000 = (2 ^ 15 - 1) * 2 ^ 17 by rfl, fieldMask_testBit, Nat.zero_testBit]
  by_cases hj : 17 ≤ j
  · rw [Nat.testBit_lt_two_pow (hlow.trans_le (Nat.pow_le_pow_right (by omega) hj)), Bool.false_and]
  · simp [hj]

/-- A failure reset of a unit whose restart is due (R390, R391). -/
theorem failureReset_effect {d : Dev} (h : d.failT = true) : Completes .failureReset d fun t =>
    SoftReset d t ∧ t.fld Start.STAGE () = 1 ∧ t.bit Fail.FAILRST () = true := by
  let n := if d.failOpen then d.failWin + 1 else 1
  let y := (chipReset d false false).flag RstCause.SOFT ()
  let x := { y with failOpen := true, failWin := n }.flag Fail.FAILRST ()
  let z := romStart x
  intro rest
  have hexec : exec .failureReset ⟨rest, d⟩ =
      .next ⟨rest, if 3 ≤ n then { z.flag Fail.LOCK () with failNote := [5, 6] } else { z with failNote := [5] }⟩ := by
    show execFailureReset ⟨rest, d⟩ = _
    simp only [execFailureReset, onDev, h, Bool.not_true, Bool.false_eq_true, if_false]
    rfl
  have hx : SoftReset d x := ((softReset_chipReset d).failNoted (l := y.failNote)).flag rfl
  have hz : SoftReset d z := hx.romStart
  have hstage : z.fld Start.STAGE () = 1 := romStart_stage x
  have hset : z.fld Fail.FAILRST () = 1 :=
    (congrArg (fget 6 1) (romStart_reg x (a := Fail.addr ()) (by decide))).trans (Dev.fld_put_self _ Fail.FAILRST () 1 (by decide))
  refine ⟨_, hexec, ?_⟩
  split
  · have hkept : (z.flag Fail.LOCK ()).fld Fail.FAILRST () = z.fld Fail.FAILRST () := Dev.fld_put_bits _ _ _ _ _ _ (by decide) (by decide)
    have hstays : (z.flag Fail.LOCK ()).fld Start.STAGE () = z.fld Start.STAGE () := Dev.fld_put_addr _ _ _ _ _ _ (by decide)
    exact ⟨(hz.flag rfl).failNoted (o := z.failOpen) (n := z.failWin), hstays.trans hstage, congrArg (· != 0) (hkept.trans hset)⟩
  · exact ⟨hz.failNoted (o := z.failOpen) (n := z.failWin), hstage, congrArg (· != 0) hset⟩

theorem gives_rstNLow_long (d : Dev) {ns : Nat} (h : 1000 ≤ ns) :
    Gives (.rstNLow ns) d ((chipReset { d with rstN := false } true false).flag RstCause.PIN ()) := by
  intro rest
  show execRstNLow ns ⟨rest, d⟩ = _
  simp [execRstNLow, onDev, h, show ¬ ns < 100 by omega]

/-- Settles O9: every reset of the whole unit is chipReset, after which the quench inputs find no pattern and no driven output;
a software chip reset and a failure reset then begin the start-up. -/
theorem resetsDiscardThePattern : Obligations.ResetsDiscardThePattern := by
  unfold Obligations.ResetsDiscardThePattern
  refine ⟨fun d c rest => ⟨powerOn d c, rfl, powerOn_effect d c⟩, fun d ns hns => (gives_rstNLow_long d hns).completes (pinReset_effect d d.fresh),
    fun d ns hns rest => ?_, fun d ns hlo hhi rest => ?_,
    fun d h w hr hkey => ?_, fun d h w hr hrsv hkey => ?_, fun d hfail rest => ?_⟩
  · show execRstNLow ns ⟨rest, d⟩ = _
    simp [execRstNLow, onDev, hns]
  · have hexec : exec (.rstNLow ns) ⟨rest, d⟩ = .next ⟨rest, if Config.choice d.fresh then
        (chipReset { d with fresh := d.fresh + 1, rstN := false } true false).flag RstCause.PIN () else { d with fresh := d.fresh + 1 }⟩ := by
      show execRstNLow ns ⟨rest, d⟩ = _
      simp only [execRstNLow, onDev, show ¬ ns < 100 by omega, show ¬ 1000 ≤ ns by omega, if_false]
      rfl
    refine ⟨_, hexec, ?_⟩
    split
    · obtain ⟨has, hstage, hrst, -, hcause⟩ := pinReset_effect d (d.fresh + 1)
      exact ⟨has, hstage, hrst, hcause⟩
    · rfl
  · have hgives := exec_softwareChipReset_reaches (w := w) hr
    obtain ⟨hgo, hown, -⟩ := ownBit_swRst w
    have hgoes : swRstGoes (ownBit 16 w) = true := by simp [swRstGoes, hgo, hown, hkey]
    have hdo : swRstDo d (ownBit 16 w) = romStart ((chipReset d false false).flag RstCause.SOFT ()) := by simp [swRstDo, hgo, hown, hkey]
    rw [if_pos hgoes, unguard_zero, hdo] at hgives
    have hs := (softReset_chipReset d).romStart
    exact hgives.completes ⟨hs.asReset, romStart_stage _, hs.strap, hs.cause⟩
  · have hgives := exec_softwareChipReset_reaches (w := w) hr
    obtain ⟨hgo, hown, hzero⟩ := ownBit_swRst w
    have hdo : swRstDo d (ownBit 16 w) = d := by simp [swRstDo, hgo, hown, hkey]
    rwa [hzero hrsv, ite_self, unguard_zero, hdo] at hgives
  · obtain ⟨t, hexec, hs, hstage, hrst⟩ := failureReset_effect hfail rest
    exact ⟨t, hexec, hs.asReset, hstage, hrst, hs.failT, hs.strap, hs.cause⟩

end Sys2Proof.Machine

/-! ### The output balls (R51, R53, R57, R201, R276, R279 to R281, O60) -/

namespace Sys2Proof.Machine

/-! #### A ball whose supplies are good, and one where a supply is missing (R51, R53) -/

theorem ballOut_up {d : Dev} {b : Ball} (h : bankUp d (ballBank b) = true) : ballOut d b = ballOn d b := if_pos h

theorem ballOut_down {d : Dev} {b : Ball} (h : bankUp d (ballBank b) = false) : ballOut d b = .hiz := by
  simp [ballOut, h]

theorem bankUp_eq_false {d : Dev} {own s : Supply} (hs : s = .vdd ∨ s = .vddaPll ∨ s = own) (h : s ∉ d.supply) : bankUp d own = false := by
  rcases hs with rfl | rfl | rfl <;> simp [bankUp, h]

theorem bankUp_congr {d t : Dev} (h : t.supply = d.supply) : bankUp t = bankUp d := by
  funext own
  simp only [bankUp, h]

theorem pinOf_eq (v : Bool) : pinOf v = if v = true then .high else .low := rfl

/-! #### QOUT_N (R276) -/

theorem foldl_add_eq_sum {α : Type} (l : List α) (f : α → Nat) (m : Nat) : l.foldl (fun a x => a + f x) m = m + (l.map f).sum := by
  induction l generalizing m with
  | nil => simp
  | cons x l ih => rw [List.foldl_cons, ih, List.map_cons, List.sum_cons, Nat.add_assoc]

/-- CHIP.QSUM names a block exactly where a latch is set. -/
theorem qsumLatch_ne_zero (d : Dev) : qsumLatch d ≠ 0 ↔ ∃ nn, d.bit Qstat.LATCH nn = true := by
  let f : Fin 16 → Nat := fun nn => (d.bit Qstat.LATCH nn).toNat * 2 ^ nn.val
  have hle : (allBlk.map f).sum ≤ (allBlk.map fun nn => 2 ^ nn.val).sum :=
    List.sum_le_sum fun nn _ => by simp only [f]; cases d.bit Qstat.LATCH nn <;> simp
  have hmax : (allBlk.map fun nn : Fin 16 => 2 ^ nn.val).sum = 65535 := by decide
  have hsum : qsumLatch d = BitVec.ofNat 16 (allBlk.map f).sum := by
    rw [qsumLatch, foldl_add_eq_sum, Nat.zero_add]
  have hzero : qsumLatch d = 0 ↔ (allBlk.map f).sum = 0 := by
    rw [hsum, ← BitVec.toNat_inj, BitVec.toNat_ofNat]
    show _ % 65536 = 0 ↔ _
    omega
  rw [ne_eq, hzero, List.sum_eq_zero_iff]
  simp [allBlk, f]

theorem qsumWord_bit16 (d : Dev) : (qsumWord d).getLsbD 16 = (d.pat.isNone || qsumLatch d != 0) := by
  have hlt := (qsumLatch d).isLt
  unfold qsumWord
  dsimp only
  generalize (d.pat.isNone || qsumLatch d != 0) = any
  generalize (qsumLatch d).toNat = m at hlt ⊢
  generalize (d.dbgHalt || d.jtagHalt) = halt
  rw [BitVec.getLsbD_ofNat, Nat.testBit_eq_decide_div_mod_eq]
  cases any <;> cases d.qinBall <;> cases d.twin.twqI <;> cases halt <;> simp <;> omega

/-- QOUT_N is low without a pattern, and with one while a latch is set. -/
theorem ballOn_qoutN (d : Dev) : ballOn d .qoutN = if d.pat.isNone || qsumLatch d != 0 then .low else .released := by
  rw [← qsumWord_bit16]
  rfl

/-! #### The modulator clocks (R57, R67) -/

theorem ballOn_mclk_noPattern {d : Dev} (h : d.pat = none) (n : Fin 4) (x : Fin 2) : ballOn d (.mclk n x) = .hiz := by
  simp [ballOn, h]

theorem mclkDrive_up {d : Dev} {n : Fin 4} {x : Fin 2} (hp : d.pat ≠ none) (h : bankUp d (.s n) = true) :
    mclkDrive d n x = (d.bit (if x = 0 then MclkCfg.DIR0 else MclkCfg.DIR1) n && !d.clkLost) := by
  simp only [bankUp, Bool.and_eq_true] at h
  obtain ⟨⟨hvdd, hpll⟩, hown⟩ := h
  simp only [mclkDrive, hvdd, hpll, hown, Option.isSome_iff_ne_none.2 hp, Bool.true_and, Bool.and_true]

theorem ballOn_mclk_pattern {d : Dev} (hp : d.pat ≠ none) (n : Fin 4) (x : Fin 2) : ballOn d (.mclk n x) =
    if mclkDrive d n x then (if vget (d.r n).mph x < (mclkDiv d n x + 1) / 2 then .high else .low) else .input := by
  have hnone : d.pat.isNone = false := by simpa [Option.isSome_iff_ne_none] using hp
  simp only [ballOn, hnone, mclkLevel]
  cases mclkDrive d n x <;> simp [pinOf_eq]

/-! #### The SSI clock (R201) -/

/-- Before the first transfer, and after the last of its periods, the clock is high. -/
theorem ssiClock_idle {d : Dev} {nn : Fin 16} (h : d.clk - d.patT < d.fld EcSsi.SPER nn ∨
    (d.fld EcCfg.SBITS nn + 2) * (2 * d.fld EcSsi.SDIV nn) ≤ (d.clk - d.patT) % d.fld EcSsi.SPER nn) : ssiClock d nn = true := by
  simp only [ssiClock, Bool.not_eq_true', decide_eq_false_iff_not]
  omega

/-- The place in period k of a transfer decides: low in its first half, high in its second. -/
theorem ssiClock_period {d : Dev} {nn : Fin 16} {k : Nat} (hk : k < d.fld EcCfg.SBITS nn + 2) (hs : d.fld EcSsi.SPER nn ≤ d.clk - d.patT)
    (hlo : k * (2 * d.fld EcSsi.SDIV nn) ≤ (d.clk - d.patT) % d.fld EcSsi.SPER nn)
    (hhi : (d.clk - d.patT) % d.fld EcSsi.SPER nn < (k + 1) * (2 * d.fld EcSsi.SDIV nn)) :
    ssiClock d nn = !decide ((d.clk - d.patT) % d.fld EcSsi.SPER nn < k * (2 * d.fld EcSsi.SDIV nn) + d.fld EcSsi.SDIV nn) := by
  have hlast : (k + 1) * (2 * d.fld EcSsi.SDIV nn) ≤ (d.fld EcCfg.SBITS nn + 2) * (2 * d.fld EcSsi.SDIV nn) := Nat.mul_le_mul_right _ hk
  have hmod : (d.clk - d.patT) % d.fld EcSsi.SPER nn % (2 * d.fld EcSsi.SDIV nn) =
      (d.clk - d.patT) % d.fld EcSsi.SPER nn - k * (2 * d.fld EcSsi.SDIV nn) := by
    rw [Nat.mod_eq_sub_mul_div, Nat.div_eq_of_lt_le hlo hhi, Nat.mul_comm]
  simp only [ssiClock, hmod]
  congr 1
  rw [decide_eq_decide]
  omega

theorem ballOn_ea_input {d : Dev} {nn : Fin 16} (h : d.pat = none ∨ d.fld EcCfg.MODE nn ≠ 2) : ballOn d (.ea nn) = .input := by
  have hmode : ssiMode d nn = false := by
    rcases h with h | h <;> simp [ssiMode, h]
  simp [ballOn, hmode]

theorem ballOn_ea_ssi {d : Dev} {nn : Fin 16} (hp : d.pat ≠ none) (h : d.fld EcCfg.MODE nn = 2) : ballOn d (.ea nn) = pinOf (ssiClock d nn) := by
  have hmode : ssiMode d nn = true := by simp [ssiMode, h, Option.isSome_iff_ne_none.2 hp]
  simp [ballOn, hmode]

/-! #### The balls of a bus port (R57, R279 to R281) -/

theorem xlData_of_frame {d : Dev} {p : Fin 4} {f : Frame} (h : (d.port p).txFrame = some f) (hf : f.fmt = 4) (hx : (d.port p).xlPhase = 1) :
    xlData d p = true := by
  simp [xlData, h, hf, hx]

theorem xlData_of_noFrame {d : Dev} {p : Fin 4} (h : (d.port p).txFrame = none) : xlData d p = false := by
  simp [xlData, h]

theorem ballOn_port (d : Dev) (p : Fin 4) :
    (ballOn d (.bstb p) = if d.fld BpStat.STATE p = 0 then .high else .low) ∧
    (¬ ((d.fld BpStat.STATE p = 3 ∨ d.fld BpStat.STATE p = 4) ∧ d.fld BpStat.OPMODE p = 0) → ballOn d (.btx p) = .high) ∧
    (∀ f, (d.port p).txFrame = some f → f.fmt = 4 → (d.port p).xlPhase = 1 →
      (d.bit BpCfg.XMSW p = false → ballOn d (.bxlm p) = .high) ∧
      (d.bit BpCfg.XMSW p = true → ballOn d (.bxlm p) = .low ∧
        (d.fld BpStat.STATE p = 3 → d.fld BpStat.OPMODE p = 0 → ballOn d (.btx p) = .symbols))) ∧
    ((d.port p).txFrame = none → ballOn d (.bxlm p) = .low) := by
  refine ⟨by simp [ballOn, pinOf_eq], fun hno => if_neg hno, fun f hf hfmt hxl => ?_, fun hnone => ?_⟩
  · have hdata := xlData_of_frame hf hfmt hxl
    exact ⟨fun hx => by simp [ballOn, hdata, hx, pinOf_eq], fun hx => ⟨by simp [ballOn, hdata, hx, pinOf_eq],
      fun hst hop => by simp [ballOn, btxPin, hdata, hx, hst, hop]⟩⟩
  · simp [ballOn, xlData_of_noFrame hnone, pinOf_eq]

/-! #### A supply that falls (R51, R53) -/

/-- Whatever else its fall does, the supply is no longer among the good ones. -/
theorem supplyFall_gone (d : Dev) (s : Supply) : Completes (.supplyFall s) d fun t => s ∉ t.supply := by
  have hgone : s ∉ d.supply.filter fun x => x != s := by simp
  have hpower (c : CoreSupply) (hc : coreSupply c = s) : s ∉ (powerOn d c).supply := by
    obtain ⟨-, -, -, hsup, -⟩ := powerOn_effect d c
    rwa [hsup, hc]
  intro rest
  cases s with
  | vdd => exact ⟨_, rfl, hpower .vdd rfl⟩
  | vddaPll => exact ⟨_, rfl, hpower .vddaPll rfl⟩
  | c => exact ⟨_, rfl, hpower .vddioC rfl⟩
  | vddl => exact ⟨_, rfl, hgone⟩
  | h => exact ⟨_, rfl, hgone⟩
  | s n => exact ⟨_, gives_supplyFall_s d n rest, hgone⟩
  | g n =>
    obtain ⟨t, hexec, hsup, -⟩ := supplyFall_g_effect d n rest
    exact ⟨t, hexec, fun h => hgone (hsup ▸ h)⟩

/-! #### The balls while RST_N is low (R57) -/

theorem ballOn_inReset {d t : Dev} (h : AsReset d t) (hr : t.rstN = false) (hst : t.fld Start.STAGE () = 0)
    (hport : ∀ p, t.fld BpStat.STATE p = 0) (htwq : t.twin.twqPulse = false) :
    (∀ nn l, ballOn t (.gh nn l) = .hiz ∧ ballOn t (.gl nn l) = .hiz) ∧ (∀ nn, ballOn t (.ea nn) = .input) ∧
    ballOn t .qoutN = .low ∧ ballOn t .ownO = .low ∧ ballOn t .twqO = .low ∧ (∀ n x, ballOn t (.mclk n x) = .hiz) ∧
    (∀ p, ballOn t (.btx p) = .high ∧ ballOn t (.bstb p) = .high ∧ ballOn t (.bxlm p) = .low) ∧
    ballOn t .shpIo = .hiz ∧ ballOn t .shpIrqN = .released ∧ ballOn t .flash = .hiz ∧ ballOn t .tdo = .hiz ∧ ballOn t .pcieTx = .idle ∧
    ballOn t .tlTx = .idle := by
  obtain ⟨hpat, -⟩ := h.pattern
  obtain ⟨-, hown, -⟩ := h.twin
  refine ⟨fun nn l => ?_, fun nn => ballOn_ea_input (Or.inl hpat), ?_, ?_, ?_, fun n x => ballOn_mclk_noPattern hpat n x, fun p => ?_, ?_⟩
  · obtain ⟨hlegs, -⟩ := h.blocks nn
    obtain ⟨hgh, hgl⟩ := hlegs l
    exact ⟨congrArg lvlPin hgh, congrArg lvlPin hgl⟩
  · simp [ballOn_qoutN, hpat]
  · simp [ballOn, hown, pinOf_eq]
  · simp [ballOn, htwq, pinOf_eq]
  · obtain ⟨hbstb, hbtx, -, hbxlm⟩ := ballOn_port t p
    have hnone : (t.port p).txFrame = none := congrArg (fun r : Rgn => r.port.txFrame) (h.regions p)
    exact ⟨hbtx (by simp [hport p]), hbstb.trans (if_pos (hport p)), hbxlm hnone⟩
  · simp [ballOn, hr, hst]

theorem rstNLow_balls {d : Dev} {ns : Nat} (hns : 1000 ≤ ns) (hup : ∀ b, bankUp d (ballBank b) = true) : Completes (.rstNLow ns) d fun t =>
    (∀ nn l, ballOut t (.gh nn l) = .hiz ∧ ballOut t (.gl nn l) = .hiz) ∧ (∀ nn, ballOut t (.ea nn) = .input) ∧
    ballOut t .qoutN = .low ∧ ballOut t .ownO = .low ∧ ballOut t .twqO = .low ∧ (∀ n x, ballOut t (.mclk n x) = .hiz) ∧
    (∀ p, ballOut t (.btx p) = .high ∧ ballOut t (.bstb p) = .high ∧ ballOut t (.bxlm p) = .low) ∧
    ballOut t .shpIo = .hiz ∧ ballOut t .shpIrqN = .released ∧ ballOut t .flash = .hiz ∧ ballOut t .tdo = .hiz ∧ ballOut t .pcieTx = .idle ∧
    ballOut t .tlTx = .idle := by
  refine (gives_rstNLow_long d hns).completes ?_
  obtain ⟨has, hstage, hrst, hsup, -⟩ := pinReset_effect d d.fresh
  have hport (p : Fin 4) : ((chipReset { d with rstN := false } true false).flag RstCause.PIN ()).fld BpStat.STATE p = 0 := by
    have hzero : ∀ p, fget 0 3 (resetWord (BpStat.addr p)) = 0 ∧ BpStat.addr p ≠ RstCause.addr () ∧ 0x200 ≤ BpStat.addr p := by decide
    obtain ⟨hreset, hne, hhigh⟩ := hzero p
    exact (Dev.fld_put_addr _ RstCause.PIN () BpStat.STATE p _ hne).trans
      ((chipReset_fld _ true false (bpStat_notMem_quenchRegs p) (high_notMem_keptRegs hhigh)).trans hreset)
  have htwq : ((chipReset { d with rstN := false } true false).flag RstCause.PIN ()).twin.twqPulse = false :=
    (congrArg (fun t : Dev => t.twin.twqPulse) (chipReset_rest { d with rstN := false } true false) :)
  generalize (chipReset { d with rstN := false } true false).flag RstCause.PIN () = t at *
  have hout : ballOut t = ballOn t := funext fun b => ballOut_up (by rw [bankUp_congr hsup]; exact hup b)
  rw [hout]
  exact ballOn_inReset has hrst hstage hport htwq

/-! #### All balls together -/

/-- The balls whose level the pattern decides, with a pattern in effect. -/
theorem ballOn_pattern {d : Dev} (hup : ∀ b, bankUp d (ballBank b) = true) (hp : d.pat ≠ none) :
    (ballOn d .qoutN = .low ↔ ∃ nn, d.bit Qstat.LATCH nn = true) ∧ ballOn d .tlTx = (if d.rstN = true then .link else .idle) ∧
      ∀ (n : Fin 4) (x : Fin 2), let drive := d.bit (if x = 0 then MclkCfg.DIR0 else MclkCfg.DIR1) n
        let div := d.fld (if x = 0 then MclkCfg.MDIV0 else MclkCfg.MDIV1) n
        (drive = false ∨ d.clkLost = true → ballOn d (.mclk n x) = .input) ∧
        (drive = true → d.clkLost = false → ballOn d (.mclk n x) = if vget (d.r n).mph x < (div + 1) / 2 then .high else .low) := by
  have hsome : d.pat.isSome = true := Option.isSome_iff_ne_none.2 hp
  have hnone : d.pat.isNone = false := by simp [hsome]
  refine ⟨?_, ?_, fun n x => ?_⟩
  · rw [ballOn_qoutN, ← qsumLatch_ne_zero, hnone, Bool.false_or]
    by_cases h0 : qsumLatch d = 0 <;> simp [h0]
  · cases hr : d.rstN <;> simp [ballOn, hr, hsome]
  · intro drive div
    rw [ballOn_mclk_pattern hp, mclkDrive_up hp (hup (.mclk n x))]
    refine ⟨fun h => ?_, fun h hc => ?_⟩
    · rcases h with h | h <;> simp [drive, h]
    · rw [if_pos (by simp only [drive] at h; rw [h, hc]; rfl)]
      rfl

theorem ballOn_ea (d : Dev) (nn : Fin 16) : (d.pat = none ∨ d.fld EcCfg.MODE nn ≠ 2 → ballOn d (.ea nn) = .input) ∧
      (d.pat ≠ none → d.fld EcCfg.MODE nn = 2 →
        let since := d.clk - d.patT
        let half := d.fld EcSsi.SDIV nn
        let into := since % d.fld EcSsi.SPER nn
        (since < d.fld EcSsi.SPER nn ∨ (d.fld EcCfg.SBITS nn + 2) * (2 * half) ≤ into → ballOn d (.ea nn) = .high) ∧
        ∀ k, k < d.fld EcCfg.SBITS nn + 2 → d.fld EcSsi.SPER nn ≤ since →
          (k * (2 * half) ≤ into → into < k * (2 * half) + half → ballOn d (.ea nn) = .low) ∧
          (k * (2 * half) + half ≤ into → into < (k + 1) * (2 * half) → ballOn d (.ea nn) = .high)) := by
  refine ⟨ballOn_ea_input, fun hp hmode => ?_⟩
  intro since half into
  rw [ballOn_ea_ssi hp hmode]
  refine ⟨fun h => by rw [ssiClock_idle h]; rfl, fun k hk hs => ?_⟩
  have hclock : k * (2 * half) ≤ into → into < (k + 1) * (2 * half) → ssiClock d nn = !decide (into < k * (2 * half) + half) :=
    ssiClock_period hk hs
  have hnext : (k + 1) * (2 * half) = k * (2 * half) + 2 * half := Nat.succ_mul _ _
  refine ⟨fun hlo hhi => ?_, fun hlo hhi => ?_⟩
  · rw [hclock hlo (by omega), decide_eq_true hhi]
    rfl
  · rw [hclock (by omega) hhi, decide_eq_false (by omega)]
    rfl

/-- Settles O60: a ball shows its function of the device exactly while the supplies of its bank are good; a supply that falls takes its
balls with it, and a reset leaves no pattern, no driven leg and no port on its bus. -/
theorem outputBalls : Obligations.OutputBalls := by
  unfold Obligations.OutputBalls
  refine ⟨fun d b h => ballOut_down h, fun d hup => ?up, fun d n s _ => ?fall, fun d ns hns hup => rstNLow_balls hns hup⟩
  case up =>
    rw [show ballOut d = ballOn d from funext fun b => ballOut_up (hup b)]
    refine ⟨fun nn l => ⟨rfl, rfl⟩, fun hp => ⟨?_, ballOn_mclk_noPattern hp⟩, ballOn_pattern hup, rfl, rfl, ballOn_ea d, fun hr => ?_, ?_, ?_,
      fun hst => ?_, fun hr => ?_, ballOn_port d⟩
    · simp [ballOn_qoutN, hp]
    · refine ⟨?_, ?_, fun hp hst => ?_, fun h => ?_, ?_⟩
      · simp [ballOn, hr]
      · simp [ballOn, hr]
      · simp [ballOn, hr, hp, hst]
      · rcases h with h | h <;> simp [ballOn, hr, h]
      · simp [ballOn, hr]
    · rw [ballOn_qoutN]
      split <;> simp
    · rw [qsumWord_bit16, ballOn_qoutN]
      cases d.pat.isNone || qsumLatch d != 0 <;> simp
    · simp [ballOn, show ¬ 5 ≤ d.fld Start.STAGE () by omega]
    · simp [ballOn, hr]
  case fall =>
    intro rest
    obtain ⟨t, hexec, hgone⟩ := supplyFall_gone d s rest
    refine ⟨t, hexec, ?_, ?_, fun hs b => ballOut_down (bankUp_eq_false (s := s) ?_ hgone)⟩
    · rintro rfl x
      have hdown : bankUp t (.s n) = false := bankUp_eq_false (Or.inr (Or.inr rfl)) hgone
      exact ⟨ballOut_down hdown, ballOut_down hdown, ballOut_down hdown, ballOut_down hdown⟩
    · rintro rfl nn l rfl
      have hdown : bankUp t (.g (rgnOf nn)) = false := bankUp_eq_false (Or.inr (Or.inr rfl)) hgone
      exact ⟨ballOut_down hdown, ballOut_down hdown⟩
    · rcases hs with h | h
      · exact Or.inl h
      · exact Or.inr (Or.inl h)

end Sys2Proof.Machine

/-! ### One clk with no command waiting (R67, R183, R195, R317, O2) -/

namespace Sys2Proof.Machine

/-! #### Changes made for every index, seen from one index -/

section ForAll

variable {n : Nat} {d : Dev} {f : Dev → Fin n → Dev}

/-- A preorder that every single change respects relates the device before to the one after all of them. -/
theorem forAll_rel {R : Dev → Dev → Prop} (hrefl : R d d) (htrans : ∀ {x y z}, R x y → R y z → R x z)
    (hstep : ∀ x i, R x (f x i)) : R d (forAll d f) :=
  forAll_induction (fun _ x => R d x) hrefl fun i x hx => htrans hx (hstep x i)

/-- What no single change touches is untouched after all of them. -/
theorem forAll_kept {σ : Type} {S : Dev → σ} (hstep : ∀ x i, S (f x i) = S x) : S (forAll d f) = S d :=
  forAll_rel (R := fun x y => S y = S x) rfl (fun h1 h2 => h2.trans h1) hstep

/-- What only the change for index j touches is what that change makes of it, from a device in which it still stands. -/
theorem forAll_slice {σ : Type} {R : Dev → Dev → Prop} (hrefl : R d d) (htrans : ∀ {x y z}, R x y → R y z → R x z)
    (hstep : ∀ x i, R x (f x i)) {S : Dev → σ} (j : Fin n) (hS : ∀ x i, i ≠ j → S (f x i) = S x) :
    ∃ y, R d y ∧ S y = S d ∧ S (forAll d f) = S (f y j) := by
  let P (k : Nat) (x : Dev) : Prop := R d x ∧ if k ≤ j.val then S x = S d else ∃ y, R d y ∧ S y = S d ∧ S x = S (f y j)
  have hP : P n (forAll d f) := by
    refine forAll_induction P ⟨hrefl, by simp⟩ fun i x ⟨hR, hx⟩ => ⟨htrans hR (hstep x i), ?_⟩
    rcases lt_trichotomy i j with hlt | rfl | hgt
    · rw [if_pos (by omega)] at hx ⊢
      exact (hS x i hlt.ne).trans hx
    · rw [if_pos le_rfl] at hx
      rw [if_neg (by omega)]
      exact ⟨x, hR, hx, rfl⟩
    · rw [if_neg (by omega)] at hx ⊢
      obtain ⟨y, hy, hyd, hxy⟩ := hx
      exact ⟨y, hy, hyd, (hS x i hgt.ne').trans hxy⟩
  obtain ⟨-, h⟩ := hP
  rwa [if_neg (by omega)] at h

end ForAll

/-! #### What a tick can change at all -/

/-- The registers in which edges of modulator clocks and at EZ show. -/
def tickRegs : List Nat :=
  ((List.finRange 4).flatMap fun n => (List.finRange 2).map fun x => Mcnt.addr (n, x)) ++ (List.finRange 16).map fun nn => EcStat.addr nn

/-- Device t is d after part of a clk. -/
structure Ticked (d t : Dev) : Prop where
  rest : t = { d with regs := t.regs, hw := t.hw, fresh := t.fresh, blk := t.blk, rgn := t.rgn }
  rgn : ∀ n, t.r n = { d.r n with mph := (t.r n).mph, badQ := (t.r n).badQ, badFree := (t.r n).badFree,
                                  port := { (d.r n).port with xlPhase := (t.r n).port.xlPhase } }
  regs : RegsKept tickRegs d t
  leg : ∀ nn, (t.b nn).leg = (d.b nn).leg

theorem Ticked.refl {d : Dev} : Ticked d d := ⟨rfl, fun _ => rfl, fun _ _ => rfl, fun _ => rfl⟩

theorem Ticked.trans {d x y : Dev} (h1 : Ticked d x) (h2 : Ticked x y) : Ticked d y where
  rest := h2.rest.trans (congrArg
    (fun z : Dev => { z with regs := y.regs, hw := y.hw, fresh := y.fresh, blk := y.blk, rgn := y.rgn }) h1.rest)
  rgn n := (h2.rgn n).trans (congrArg (fun z : Rgn => { z with
    mph := (y.r n).mph, badQ := (y.r n).badQ, badFree := (y.r n).badFree,
    port := { z.port with xlPhase := (y.r n).port.xlPhase } }) (h1.rgn n))
  regs a ha := (h2.regs a ha).trans (h1.regs a ha)
  leg nn := (h2.leg nn).trans (h1.leg nn)

theorem Ticked.onR {d : Dev} {n : Fin 4} {u : Rgn → Rgn}
    (h : u (d.r n) = { d.r n with mph := (u (d.r n)).mph, badQ := (u (d.r n)).badQ, badFree := (u (d.r n)).badFree,
                                  port := { (d.r n).port with xlPhase := (u (d.r n)).port.xlPhase } }) : Ticked d (d.onR n u) where
  rest := rfl
  rgn k := by
    rcases eq_or_ne k n with rfl | hne
    · rw [Dev.r_onR_self]; exact h
    · rw [Dev.r_onR_ne _ _ _ _ hne]
  regs _ _ := rfl
  leg _ := rfl

theorem Ticked.free {d : Dev} : Ticked d d.free.2 := ⟨rfl, fun _ => rfl, fun _ _ => rfl, fun _ => rfl⟩

theorem ticked_of_onlyRegs {d t : Dev} {a : Nat} (h : OnlyRegs [a] d t) (ha : a ∈ tickRegs) : Ticked d t where
  rest := h.1.trans (by rw [h.blk, show t.fresh = d.fresh from (congrArg Dev.fresh h.1 :), show t.rgn = d.rgn from (congrArg Dev.rgn h.1 :)])
  rgn n := by rw [show t.r n = d.r n by simp only [Dev.r, show t.rgn = d.rgn from (congrArg Dev.rgn h.1 :)]]
  regs b hb := h.reg (by rintro hin; exact hb (List.mem_singleton.mp hin ▸ ha))
  leg nn := by rw [h.b]

theorem mcnt_mem_tickRegs (n : Fin 4) (x : Fin 2) : Mcnt.addr (n, x) ∈ tickRegs :=
  List.mem_append_left _ (List.mem_flatMap.mpr ⟨n, List.mem_finRange n, List.mem_map_of_mem (List.mem_finRange x)⟩)

theorem ecStat_mem_tickRegs (nn : Fin 16) : EcStat.addr nn ∈ tickRegs :=
  List.mem_append_right _ (List.mem_map_of_mem (List.mem_finRange nn))

/-! #### The parts of a tick -/

/-- A region after one clk's soft error (R317). -/
def softErrRgn (v : Nat) (n : Fin 4) (r : Rgn) : Rgn :=
  let hit := v.testBit 0 && v / 2 % 4 == n.val
  { r with
    badQ := if hit && v.testBit 3 then (⟨v / 16 % 64, Nat.mod_lt _ (by omega)⟩, ⟨v / 1024 % 64, Nat.mod_lt _ (by omega)⟩) :: r.badQ else r.badQ,
    badFree := r.badFree || (hit && !v.testBit 3) }

theorem softErr_r (d : Dev) (v : Nat) (n : Fin 4) : (softErr d v).r n = softErrRgn v n (d.r n) := by
  obtain ⟨y, -, hy, hs⟩ := forAll_slice (d := d) (f := fun d n => d.onR n (softErrRgn v n)) (R := fun _ _ => True) trivial
    (fun _ _ => trivial) (fun _ _ => trivial) (S := fun x => x.r n) n fun x i hi => Dev.r_onR_ne _ _ _ _ hi.symm
  rw [Dev.r_onR_self, hy] at hs
  exact hs

theorem softErr_ticked (d : Dev) (v : Nat) : Ticked d (softErr d v) :=
  forAll_rel Ticked.refl Ticked.trans fun _ _ => Ticked.onR rfl

/-- The one region in which a soft error may strike. -/
theorem softErr_one {d : Dev} {v : Nat} {n : Fin 4}
    (h : ((softErr d v).r n).badQ ≠ (d.r n).badQ ∨ ((softErr d v).r n).badFree ≠ (d.r n).badFree) : v / 2 % 4 = n.val := by
  by_contra hne
  rw [softErr_r] at h
  simp [softErrRgn, hne] at h

/-- A modulator clock's count and the phase of its divider after one clk. -/
theorem mclkTick_effect (d : Dev) (n : Fin 4) (x : Fin 2) :
    (mclkDrive d n x = true →
      if (vget (d.r n).mph x) + 1 < mclkDiv d n x then
        (mclkTick d n x).fld Mcnt.CNT (n, x) = d.fld Mcnt.CNT (n, x) ∧ vget ((mclkTick d n x).r n).mph x = vget (d.r n).mph x + 1
      else (mclkTick d n x).fld Mcnt.CNT (n, x) = (d.fld Mcnt.CNT (n, x) + 1) % 2 ^ 32 ∧ vget ((mclkTick d n x).r n).mph x = 0) ∧
    (mclkDrive d n x = false → (mclkTick d n x).fld Mcnt.CNT (n, x) = d.fld Mcnt.CNT (n, x) ∨
      (mclkTick d n x).fld Mcnt.CNT (n, x) = (d.fld Mcnt.CNT (n, x) + 1) % 2 ^ 32) := by
  have hinc (y : Dev) : (y.inc Mcnt.CNT (n, x)).fld Mcnt.CNT (n, x) = (y.fld Mcnt.CNT (n, x) + 1) % 2 ^ 32 :=
    Dev.fld_put_self y Mcnt.CNT (n, x) _ (by decide)
  refine ⟨fun h => ?_, fun h => ?_⟩
  · simp only [mclkTick, if_pos h]
    split
    · exact ⟨rfl, by simp⟩
    · exact ⟨hinc d, by simp⟩
  · simp only [mclkTick, h, Bool.false_eq_true, if_false]
    split
    · exact Or.inr (hinc d.free.2)
    · exact Or.inl rfl

theorem mclkTick_ticked (d : Dev) (n : Fin 4) (x : Fin 2) : Ticked d (mclkTick d n x) := by
  have hinc (y : Dev) : Ticked y (y.inc Mcnt.CNT (n, x)) :=
    ticked_of_onlyRegs (onlyRegs_inc (List.mem_singleton_self _)) (mcnt_mem_tickRegs n x)
  simp only [mclkTick]
  split
  · split
    · exact Ticked.onR rfl
    · exact (hinc d).trans (Ticked.onR rfl)
  · split
    · exact Ticked.free.trans (hinc _)
    · exact Ticked.free

/-- What a tick of one clock leaves of the others, of the blocks and of what a soft error strikes. -/
structure ClockOnly (n : Fin 4) (x : Fin 2) (d t : Dev) : Prop where
  regs : RegsKept [Mcnt.addr (n, x)] d t
  blk : t.blk = d.blk
  mph : ∀ m y, (m, y) ≠ (n, x) → vget (t.r m).mph y = vget (d.r m).mph y
  bad : ∀ m, (t.r m).badQ = (d.r m).badQ ∧ (t.r m).badFree = (d.r m).badFree

theorem mclkTick_only (d : Dev) (n : Fin 4) (x : Fin 2) : ClockOnly n x d (mclkTick d n x) := by
  have hinc (y : Dev) : OnlyRegs [Mcnt.addr (n, x)] y (y.inc Mcnt.CNT (n, x)) := onlyRegs_inc (List.mem_singleton_self _)
  have hset (y : Dev) (p : Nat) : let t := y.onR n fun r => { r with mph := vset r.mph x p }
      (∀ m z, (m, z) ≠ (n, x) → vget (t.r m).mph z = vget (y.r m).mph z) ∧
        ∀ m, (t.r m).badQ = (y.r m).badQ ∧ (t.r m).badFree = (y.r m).badFree := by
    refine ⟨fun m z hne => ?_, fun m => ?_⟩ <;> rcases eq_or_ne m n with rfl | hm
    · rw [Dev.r_onR_self]
      exact vget_vset_ne _ _ _ _ fun h => hne (by rw [h])
    · rw [Dev.r_onR_ne _ _ _ _ hm]
    · rw [Dev.r_onR_self]
      exact ⟨rfl, rfl⟩
    · rw [Dev.r_onR_ne _ _ _ _ hm]
      exact ⟨rfl, rfl⟩
  simp only [mclkTick]
  split
  · split
    · exact ⟨fun _ _ => rfl, rfl, (hset d _).1, (hset d _).2⟩
    · exact ⟨(hinc d).2, rfl, (hset (d.inc Mcnt.CNT (n, x)) _).1, (hset (d.inc Mcnt.CNT (n, x)) _).2⟩
  · split
    · exact ⟨(hinc d.free.2).2, rfl, fun _ _ _ => rfl, fun _ => ⟨rfl, rfl⟩⟩
    · exact ⟨fun _ _ => rfl, rfl, fun _ _ _ => rfl, fun _ => ⟨rfl, rfl⟩⟩

/-- The count of a modulator clock and the phase of its divider. -/
def clockOf (n : Fin 4) (x : Fin 2) (d : Dev) : Nat × Nat := (d.fld Mcnt.CNT (n, x), vget (d.r n).mph x)

theorem mcnt_addr_inj {i j : Fin 4 × Fin 2} (h : Mcnt.addr i = Mcnt.addr j) : i = j := by
  revert i j
  decide

theorem clockOf_mclkTick_ne {d : Dev} {n m : Fin 4} {x y : Fin 2} (h : (m, y) ≠ (n, x)) :
    clockOf n x (mclkTick d m y) = clockOf n x d := by
  have ho := mclkTick_only d m y
  simp only [clockOf, Dev.fld, ho.mph n x h.symm]
  rw [ho.regs _ (by simpa [Mcnt.CNT] using fun e => h (mcnt_addr_inj e).symm)]

/-- All modulator clocks tick. -/
def clocksTick (d : Dev) : Dev := forAll d fun d (n : Fin 4) => forAll d fun d (x : Fin 2) => mclkTick d n x

theorem clocksTick_ticked (d : Dev) : Ticked d (clocksTick d) :=
  forAll_rel Ticked.refl Ticked.trans fun _ _ => forAll_rel Ticked.refl Ticked.trans fun y x => mclkTick_ticked y _ x

/-- Each clock ticks once, from a device in which it still stands and on which what drives it is the same. -/
theorem clocksTick_slice (d : Dev) (n : Fin 4) (x : Fin 2) :
    ∃ y, Ticked d y ∧ clockOf n x y = clockOf n x d ∧ clockOf n x (clocksTick d) = clockOf n x (mclkTick y n x) := by
  obtain ⟨y, hy, hyd, hs⟩ := forAll_slice (d := d) (f := fun d (n : Fin 4) => forAll d fun d (x : Fin 2) => mclkTick d n x)
    Ticked.refl Ticked.trans (fun y n => forAll_rel Ticked.refl Ticked.trans fun z x => mclkTick_ticked z n x) (S := clockOf n x) n
    fun y m hm => forAll_kept fun z w => clockOf_mclkTick_ne fun h => hm (Prod.mk.inj h).1
  obtain ⟨z, hz, hzy, hs'⟩ := forAll_slice (d := y) (f := fun d (x : Fin 2) => mclkTick d n x)
    Ticked.refl Ticked.trans (fun z x => mclkTick_ticked z n x) (S := clockOf n x) x
    fun z w hw => clockOf_mclkTick_ne fun h => hw (Prod.mk.inj h).2
  exact ⟨z, hy.trans hz, hzy.trans hyd, hs.trans hs'⟩

theorem mclkCfg_notMem_tickRegs : ∀ n, MclkCfg.addr n ∉ tickRegs := by decide

/-- What drives a clock is no register that ticks. -/
theorem Ticked.drive {d t : Dev} (h : Ticked d t) (n : Fin 4) (x : Fin 2) :
    mclkDrive t n x = mclkDrive d n x ∧ mclkDiv t n x = mclkDiv d n x := by
  have hf (f : RF (Fin 4)) (ha : f.addr = MclkCfg.addr) : t.fld f n = d.fld f n := by
    simp only [Dev.fld, ha, h.regs _ (mclkCfg_notMem_tickRegs n)]
  have hp : t.pat = d.pat := (congrArg Dev.pat h.rest :)
  have hc : t.clkLost = d.clkLost := (congrArg Dev.clkLost h.rest :)
  have hs : t.supply = d.supply := (congrArg Dev.supply h.rest :)
  constructor
  · simp only [mclkDrive, Dev.bit, hp, hc, hs]
    rw [hf _ (by split <;> rfl)]
  · exact hf _ (by split <;> rfl)

/-- A fall at EZ of one block (R195). -/
theorem indexTick_effect (d : Dev) (nn : Fin 16) :
    Ticked d (indexTick d nn) ∧ RegsKept [EcStat.addr nn] d (indexTick d nn) ∧ (indexTick d nn).rgn = d.rgn ∧
      (∀ k, k ≠ nn → (indexTick d nn).b k = d.b k) ∧ (d.bit EcStat.Z nn = false → indexTick d nn = d) := by
  have hput (y : Dev) : OnlyRegs [EcStat.addr nn] y (y.putB EcStat.Z nn false) := onlyRegs_putB (List.mem_singleton_self _)
  have honB (y : Dev) (u : Blk → Blk) (hu : ∀ b, (u b).leg = b.leg) :
      Ticked y (y.onB nn u) ∧ ∀ k, k ≠ nn → (y.onB nn u).b k = y.b k := by
    refine ⟨⟨rfl, fun _ => rfl, fun _ _ => rfl, fun k => ?_⟩, fun k hk => Dev.b_onB_ne _ _ _ _ hk⟩
    rcases eq_or_ne k nn with rfl | hk
    · rw [Dev.b_onB_self, hu]
    · rw [Dev.b_onB_ne _ _ _ _ hk]
  have hidx (y : Dev) : Ticked y (encIndex y nn false) ∧ RegsKept [EcStat.addr nn] y (encIndex y nn false) ∧
      (encIndex y nn false).rgn = y.rgn ∧ ∀ k, k ≠ nn → (encIndex y nn false).b k = y.b k := by
    have hp := hput y
    have h1 := honB (y.putB EcStat.Z nn false) (fun b => { b with enc := { b.enc with tZ := some y.clk } }) fun _ => rfl
    have h2 := ((ticked_of_onlyRegs hp (ecStat_mem_tickRegs nn)).trans h1.1)
    unfold encIndex
    simp only
    split
    · have h3 := honB ((y.putB EcStat.Z nn false).onB nn fun b => { b with enc := { b.enc with tZ := some y.clk } })
        (fun b => { b with sense := vmod b.sense 8 fun x => { x with lvl := false, rises := x.rises + false.toNat, sawLow := true, sawHigh := true } })
        fun _ => rfl
      exact ⟨h2.trans h3.1, hp.2, rfl, fun k hk => (h3.2 k hk).trans (h1.2 k hk)⟩
    · exact ⟨h2, hp.2, rfl, fun k hk => h1.2 k hk⟩
  simp only [indexTick]
  split
  case isTrue h =>
    refine (fun hz => ?_ : _ → _) (by simp at h; exact h.1 : d.bit EcStat.Z nn = true)
    split
    · obtain ⟨h1, h2, h3, h4⟩ := hidx d.free.2
      exact ⟨Ticked.free.trans h1, h2, h3, h4, by simp [hz]⟩
    · exact ⟨Ticked.free, fun _ _ => rfl, rfl, fun _ _ => rfl, by simp [hz]⟩
  case isFalse => exact ⟨Ticked.refl, fun _ _ => rfl, rfl, fun _ _ => rfl, fun _ => rfl⟩

theorem ite_ite_cases {α : Type} {p q : Prop} [Decidable p] [Decidable q] {x y z : α} :
    (if p then if q then x else y else z) = z ∨ (if p then if q then x else y else z) = y ∨
      (if p then if q then x else y else z) = x := by
  split_ifs <;> simp

theorem portTick_cases (d : Dev) (p : Fin 4) : portTick d p = d ∨ portTick d p = d.free.2 ∨
    portTick d p = onPort d.free.2 p fun y => { y with xlPhase := y.xlPhase + 1 } :=
  ite_ite_cases

/-- One clk of a port (R280). -/
theorem portTick_effect (d : Dev) (p : Fin 4) :
    Ticked d (portTick d p) ∧ (portTick d p).regs = d.regs ∧ (portTick d p).blk = d.blk ∧
      ∀ n, ((portTick d p).r n).mph = (d.r n).mph ∧ ((portTick d p).r n).badQ = (d.r n).badQ ∧
        ((portTick d p).r n).badFree = (d.r n).badFree := by
  rcases portTick_cases d p with h | h | h <;> rw [h]
  · exact ⟨Ticked.refl, rfl, rfl, fun _ => ⟨rfl, rfl, rfl⟩⟩
  · exact ⟨Ticked.free, rfl, rfl, fun _ => ⟨rfl, rfl, rfl⟩⟩
  · refine ⟨Ticked.free.trans (Ticked.onR rfl), rfl, rfl, fun n => ?_⟩
    rcases eq_or_ne n p with rfl | hn
    · rw [onPort, Dev.r_onR_self]
      exact ⟨rfl, rfl, rfl⟩
    · rw [onPort, Dev.r_onR_ne _ _ _ _ hn]
      exact ⟨rfl, rfl, rfl⟩

/-! #### A whole clk -/

/-- The inputs at EZ of all blocks. -/
def indexTicks (d : Dev) : Dev := forAll d fun d nn => indexTick d nn

/-- All ports. -/
def portTicks (d : Dev) : Dev := forAll d fun d p => portTick d p

/-- What counts as done when the clk begins (R10, R402). -/
def clkBegins (d : Dev) : Dev :=
  { d with clk := d.clk + 1, hw := [], redo := [], errNow := none, twin := { d.twin with txOld := d.twin.txq.length } }

theorem idle_reset {d : Dev} (h : d.rstN = false) : idle d = clkBegins d := by
  simp only [idle]
  exact if_pos (by simp [Dev.onTw, h])

theorem idle_running {d : Dev} (h : d.rstN = true) :
    idle d = portTicks (indexTicks (clocksTick (softErr (clkBegins d).free.2 (Config.freeNat d.fresh)))) := by
  simp only [idle]
  exact if_neg (by simp [Dev.onTw, h])

section Stages

variable (d : Dev)

theorem clocksTick_rest : (clocksTick d).blk = d.blk ∧ ((∀ nn, (clocksTick d).reg (EcStat.addr nn) = d.reg (EcStat.addr nn)) ∧
    ∀ n, ((clocksTick d).r n).badQ = (d.r n).badQ ∧ ((clocksTick d).r n).badFree = (d.r n).badFree) := by
  refine ⟨forAll_kept fun y n => forAll_kept fun z x => (mclkTick_only z n x).blk, fun nn => ?_, fun m => ?_⟩
  · refine forAll_kept (S := fun y => y.reg (EcStat.addr nn)) fun y n => ?_
    exact forAll_kept (S := fun y => y.reg (EcStat.addr nn)) fun z x => (mclkTick_only z n x).regs _ (by
      simp [EcStat.addr, Mcnt.addr, blockBase, regionBase]; omega)
  · have h := forAll_kept (d := d) (S := fun y => ((y.r m).badQ, (y.r m).badFree)) fun y n =>
      forAll_kept (S := fun y => ((y.r m).badQ, (y.r m).badFree)) fun z x => by rw [((mclkTick_only z n x).bad m).1, ((mclkTick_only z n x).bad m).2]
    exact Prod.mk.inj h

theorem indexTicks_ticked : Ticked d (indexTicks d) :=
  forAll_rel Ticked.refl Ticked.trans fun y nn => (indexTick_effect y nn).1

theorem indexTicks_rest : (indexTicks d).rgn = d.rgn ∧ (∀ i, (indexTicks d).fld Mcnt.CNT i = d.fld Mcnt.CNT i) ∧
    ∀ nn, d.bit EcStat.Z nn = false → (indexTicks d).b nn = d.b nn ∧ (indexTicks d).reg (EcStat.addr nn) = d.reg (EcStat.addr nn) := by
  refine ⟨forAll_kept fun y nn => (indexTick_effect y nn).2.2.1, fun i => ?_, fun nn hz => ?_⟩
  · refine forAll_kept (S := fun y => y.fld Mcnt.CNT i) fun y nn => ?_
    simp only [Dev.fld]
    rw [(indexTick_effect y nn).2.1 _ (by simp [Mcnt.CNT, EcStat.addr, Mcnt.addr, blockBase, regionBase]; omega)]
  · obtain ⟨y, -, hyd, hs⟩ := forAll_slice (d := d) (f := fun d nn => indexTick d nn) (R := fun _ _ => True) trivial
      (fun _ _ => trivial) (fun _ _ => trivial) (S := fun y => (y.b nn, y.reg (EcStat.addr nn))) nn fun y k hk => by
        obtain ⟨-, hregs, -, hb, -⟩ := indexTick_effect y k
        rw [hb nn hk.symm, hregs _ (by simp [EcStat.addr, blockBase]; omega)]
    obtain ⟨hb, hr⟩ := Prod.mk.inj hyd
    have hz' : y.bit EcStat.Z nn = false := by
      rw [← hz]
      simp only [Dev.bit, Dev.fld, EcStat.Z, hr]
    rw [(indexTick_effect y nn).2.2.2.2 hz', hyd] at hs
    exact Prod.mk.inj hs

theorem portTicks_ticked : Ticked d (portTicks d) :=
  forAll_rel Ticked.refl Ticked.trans fun y p => (portTick_effect y p).1

theorem portTicks_rest : (portTicks d).regs = d.regs ∧ (portTicks d).blk = d.blk ∧ ∀ n, ((portTicks d).r n).mph = (d.r n).mph ∧
    ((portTicks d).r n).badQ = (d.r n).badQ ∧ ((portTicks d).r n).badFree = (d.r n).badFree := by
  refine ⟨forAll_kept fun y p => (portTick_effect y p).2.1, forAll_kept fun y p => (portTick_effect y p).2.2.1, fun n => ?_⟩
  have h := forAll_kept (d := d) (f := fun d p => portTick d p) (S := fun y => ((y.r n).mph, (y.r n).badQ, (y.r n).badFree)) fun y p => by
    obtain ⟨hm, hq, hf⟩ := (portTick_effect y p).2.2.2 n
    rw [hm, hq, hf]
  obtain ⟨hm, h⟩ := Prod.mk.inj h
  exact ⟨hm, Prod.mk.inj h⟩

end Stages

/-- A clk out of reset, over all its parts. -/
structure ClkEffect (d t : Dev) : Prop where
  ticked : Ticked d t
  bad : ∀ n m, ((t.r n).badQ ≠ (d.r n).badQ ∨ (t.r n).badFree ≠ (d.r n).badFree) →
    ((t.r m).badQ ≠ (d.r m).badQ ∨ (t.r m).badFree ≠ (d.r m).badFree) → n = m
  clock : ∀ n x, ∃ y, Ticked d y ∧ clockOf n x y = clockOf n x d ∧ clockOf n x t = clockOf n x (mclkTick y n x)
  index : ∀ nn, d.bit EcStat.Z nn = false → t.b nn = d.b nn ∧ t.reg (EcStat.addr nn) = d.reg (EcStat.addr nn)

theorem clk_effect (d : Dev) (v : Nat) : ClkEffect d (portTicks (indexTicks (clocksTick (softErr d v)))) := by
  have hs := softErr_ticked d v
  have hsregs : (softErr d v).regs = d.regs := forAll_kept fun _ _ => rfl
  have hsblk : (softErr d v).blk = d.blk := forAll_kept fun _ _ => rfl
  obtain ⟨hcblk, hcreg, hcbad⟩ := clocksTick_rest (softErr d v)
  obtain ⟨hirgn, hicnt, hiidx⟩ := indexTicks_rest (clocksTick (softErr d v))
  obtain ⟨hpregs, hpblk, hprgn⟩ := portTicks_rest (indexTicks (clocksTick (softErr d v)))
  generalize ht : portTicks (indexTicks (clocksTick (softErr d v))) = t at *
  have hir (n : Fin 4) : (indexTicks (clocksTick (softErr d v))).r n = (clocksTick (softErr d v)).r n := by simp only [Dev.r, hirgn]
  have hbad (n : Fin 4) : (t.r n).badQ = ((softErr d v).r n).badQ ∧ (t.r n).badFree = ((softErr d v).r n).badFree := by
    obtain ⟨-, hq, hf⟩ := hprgn n
    rw [hq, hf, hir]
    exact hcbad n
  refine ⟨?_, fun n m hn hm => ?_, fun n x => ?_, fun nn hz => ?_⟩
  · rw [← ht]
    exact ((hs.trans (clocksTick_ticked _)).trans (indexTicks_ticked _)).trans (portTicks_ticked _)
  · rw [(hbad n).1, (hbad n).2] at hn
    rw [(hbad m).1, (hbad m).2] at hm
    exact Fin.ext ((softErr_one hn).symm.trans (softErr_one hm))
  · obtain ⟨y, hy, hyc, hc⟩ := clocksTick_slice (softErr d v) n x
    refine ⟨y, hs.trans hy, hyc.trans ?_, Eq.trans ?_ hc⟩
    · simp only [clockOf, Dev.fld, Dev.reg, hsregs, softErr_r, softErrRgn]
    · have hcnt : t.fld Mcnt.CNT (n, x) = (clocksTick (softErr d v)).fld Mcnt.CNT (n, x) := by
        rw [← hicnt]
        simp only [Dev.fld, Dev.reg, hpregs]
      simp only [clockOf, hcnt, (hprgn n).1, hir]
  · have hz' : (clocksTick (softErr d v)).bit EcStat.Z nn = false := by
      rw [← hz]
      simp only [Dev.bit, Dev.fld, EcStat.Z, hcreg]
      simp only [Dev.reg, hsregs]
    obtain ⟨hb, hr⟩ := hiidx nn hz'
    constructor
    · simp only [Dev.b, hpblk, hcblk, hsblk] at hb ⊢
      exact hb
    · have hsr : (softErr d v).reg (EcStat.addr nn) = d.reg (EcStat.addr nn) := by simp only [Dev.reg, hsregs]
      rw [← hsr, ← hcreg, ← hr]
      simp only [Dev.reg, hpregs]

/-- Settles O2: a clk in reset only counts; out of reset its parts are a soft error, the modulator clocks, the inputs at EZ and the
ports, each of which changes what is its own. -/
theorem emptyQueueTicks : Obligations.EmptyQueueTicks := by
  unfold Obligations.EmptyQueueTicks
  refine ⟨fun d h => ?_, fun d h => ?_⟩
  · show (Host.Outcome.next ⟨[], idle d⟩ : Res) = .next ⟨[], clkBegins d⟩
    rw [idle_reset h]
  obtain ⟨hticked, hbad, hclock, hindex⟩ := clk_effect (clkBegins d).free.2 (Config.freeNat d.fresh)
  rw [← idle_running h] at *
  have hclk : (idle d).clk = d.clk + 1 := (congrArg Dev.clk hticked.rest :)
  refine ⟨idle d, rfl, hclk, ?_, hticked.rgn, hbad, hticked.regs, fun n x hd => ?_, fun n x hd => ?_,
    fun nn => ⟨hticked.leg nn, hindex nn⟩⟩
  · rw [hclk]
    exact hticked.rest
  · obtain ⟨y, hy, hyc, htc⟩ := hclock n x
    obtain ⟨hdrv, hdiv⟩ := hy.drive n x
    obtain ⟨hcnt, hmph⟩ := Prod.mk.inj hyc
    obtain ⟨htcnt, htmph⟩ := Prod.mk.inj htc
    have he := (mclkTick_effect y n x).1 (hdrv.trans hd)
    rw [hdiv, hcnt, hmph, ← htcnt, ← htmph] at he
    exact he
  · obtain ⟨y, hy, hyc, htc⟩ := hclock n x
    obtain ⟨hdrv, -⟩ := hy.drive n x
    obtain ⟨hcnt, -⟩ := Prod.mk.inj hyc
    obtain ⟨htcnt, -⟩ := Prod.mk.inj htc
    have he := (mclkTick_effect y n x).2 (hdrv.trans hd)
    rw [hcnt, ← htcnt] at he
    exact he

end Sys2Proof.Machine

/-! ### Reads of the masters (R82, R91, R97 to R103, R109, R113, O17) -/

namespace Sys2Proof.Machine

section HostReads

variable {d : Dev} {h : Master} {a : BitVec 27} {k : Nat}

/-- A read of one word reaches its unit. -/
theorem onRead_one {s : State} {a : Nat} {f : Dev → Dev} (hu : reservedAt a = true ∨ unitOf a ∉ s.dev.undef) :
    onRead s a 1 f = onDev s f := by
  have hnone : (stageOpen s.dev a && !reservedAt a && decide (unitOf a ∈ s.dev.undef)) = false := by
    rcases hu with hu | hu <;> simp [hu]
  simp [onRead, List.range_succ, hnone]

theorem wordsRead_one (d : Dev) (h : Master) (a be : Nat) : wordsRead d h a 1 be =
    ((wordRead d h a be none).1.map fun v => [if (wordRead d h a be none).2.1 then 0 else v],
      (wordRead d h a be none).2.1, (wordRead d h a be none).2.2) := by
  simp [wordsRead, List.range_succ]

/-- A read that answers, at an open stage. -/
structure ReadOpen (d : Dev) (h : Master) (a : BitVec 27) : Prop where
  up : masterUp d h = true
  stage : stageOpen d a.toNat = true
  running : d.fld Start.STAGE () ≠ 0

/-- A read whose form its space does not take, or narrow at a pop register, is an error counted in FORM (R97, R99). -/
theorem gives_read_formError (hr : ReadOpen d h a) (hk : k ≠ 0)
    (hform : formOk a.toNat k true = false ∨ (k < 4 ∧ isPop d (a.toNat / 4 * 4) = true)) :
    Gives (.hostReadError h a k true) d (answer (d.hostErr 2 h false a.toNat (beOf a.toNat k)) h 2 []) := by
  intro rest
  obtain ⟨hup, hstage, hrun⟩ := hr
  have hbad : (!formOk a.toNat k true || (decide (k < 4) && isPop d (a.toNat / 4 * 4))) = true := by
    rcases hform with hf | ⟨hlt, hpop⟩
    · simp [hf]
    · simp [hlt, hpop]
  show execHostReadError h a k true ⟨rest, d⟩ = _
  simp only [execHostReadError, hup, hstage, hrun, hk, hbad]
  rfl

/-- A read of one word or a part of it, of a good form, is answered with what its word reads. -/
theorem gives_read_word {w : Word} {bad : Bool} {x : Dev} (hr : ReadOpen d h a) (hk : k = 1 ∨ k = 2 ∨ k = 4)
    (hform : formOk a.toNat k true = true) (hpop : k = 4 ∨ isPop d (a.toNat / 4 * 4) = false)
    (hu : reservedAt (a.toNat / 4 * 4) = true ∨ unitOf (a.toNat / 4 * 4) ∉ d.undef)
    (hw : wordRead d h (a.toNat / 4 * 4) (beOf a.toNat k) none = (some w, bad, x)) :
    Gives (.hostReadError h a k true) d
      (failCheck (answer x h (if bad then 3 else 0) (if bad then [] else [readBytes a.toNat k w]))) := by
  intro rest
  obtain ⟨hup, hstage, hrun⟩ := hr
  have hn : (k + 3) / 4 = 1 := by omega
  have hk0 : k ≠ 0 := by omega
  have hgood : (!formOk a.toNat k true || (decide (k < 4) && isPop d (a.toNat / 4 * 4))) = false := by
    rcases hpop with rfl | hpop
    · simp [hform]
    · simp [hform, hpop]
  have hle : decide (k ≤ 4) = true := by simp; omega
  show execHostReadError h a k true ⟨rest, d⟩ = _
  simp only [execHostReadError, hup, hstage, hrun, hk0, hgood, hn, onRead_one (s := ⟨rest, d⟩) hu, onDev, wordsRead_one, hw, hle]
  cases bad <;> rfl

/-- Aligned reads of 1, 2 or 4 bytes have a form that registers take (R97). -/
theorem formOk_reg (hk : k = 1 ∨ k = 2 ∨ k = 4) (hal : a.toNat % k = 0) (hmem : memAt a.toNat = none) : formOk a.toNat k true = true := by
  rcases hk with rfl | rfl | rfl <;> simp [formOk, hmem, hal]

theorem formOk_unaligned (hk : k = 2 ∨ k = 4 ∨ k = 8) (hal : a.toNat % k ≠ 0) : formOk a.toNat k true = false := by
  unfold formOk
  rcases hk with rfl | rfl | rfl <;> split <;> simp [hal]

theorem word_self {n : Nat} (h : n % 4 = 0) : n / 4 * 4 = n := by omega

/-- A read at a closed stage answers zero (R82). -/
theorem gives_read_closed (hup : masterUp d h = true) (hstage : stageOpen d a.toNat = false) (hrun : d.fld Start.STAGE () ≠ 0) :
    Gives (.hostReadError h a 4 true) d (answer d h 0 [0]) := by
  intro rest
  show execHostReadError h a 4 true ⟨rest, d⟩ = _
  simp only [execHostReadError, hup, hstage, hrun]
  rfl

end HostReads

/-! #### What one word reads (R82, R102, R103, R109) -/

section WordRead

variable {d : Dev} {h : Master} {a be : Nat} {low : Option Word}

theorem wordRead_register {f : RegFam} {ix : List Nat} (hs : stageOpen d a = true) (hp : privAt a = false ∨ privileged d h = true)
    (hmem : memAt a = none) (hrec : recAt a = none) (hreg : regAt a = some (f, ix)) (hpop : f.pop = false)
    (hwake : (f.id ≠ .tStat ∧ f.id ≠ .tFsum) ∨ (ix[0]?).getD 0 ≠ 1) :
    wordRead d h a be low = (some (viewWord d f ix a), false, d) := by
  have hpriv : (privAt a && !privileged d h) = false := by rcases hp with hp | hp <;> simp [hp]
  have hw : ((f.id == .tStat || f.id == .tFsum) && (ix[0]?).getD 0 == 1) = false := by
    rcases hwake with ⟨h1, h2⟩ | h1 <;> simp [*]
  simp [wordRead, hs, hpriv, hmem, hrec, hreg, hpop, hw]

theorem wordRead_memory {m : Mem} {o : Nat} (hs : stageOpen d a = true) (hp : privAt a = false ∨ privileged d h = true)
    (hmem : memAt a = some (m, o)) : wordRead d h a be low = (some (memWord d m o), false, d) := by
  have hpriv : (privAt a && !privileged d h) = false := by rcases hp with hp | hp <;> simp [hp]
  simp [wordRead, hs, hpriv, hmem]

theorem wordRead_unprivileged (hs : stageOpen d a = true) (hp : privAt a = true) (hh : privileged d h = false) :
    wordRead d h a be low = (some 0, false, d.hostErr 0 h false a be) := by
  simp [wordRead, hs, hp, hh]

theorem privAt_reserved (hrec : recAt a = none) (hreg : regAt a = none) : privAt a = secArea a := by
  simp [privAt, hrec, hreg]

theorem wordRead_reserved (hs : stageOpen d a = true) (hsec : secArea a = false) (hmem : memAt a = none) (hrec : recAt a = none)
    (hreg : regAt a = none) : wordRead d h a be low = (some 0, legacyErr d h a, d.hostErr 3 h false a be) := by
  simp [wordRead, hs, privAt_reserved hrec hreg, hsec, hmem, hrec, hreg]

end WordRead

/-! #### A word of the host window (R30) -/

theorem memAt_hwin {o : Nat} (h : o < hwinSize) : memAt (0x800000 + o) = some (.host, o) := by
  unfold hwinSize at h
  rw [memAt, if_pos (by omega)]
  simp

theorem formOk_hwin {o : Nat} (hal : o % 4 = 0) (h : o < hwinSize) : formOk (0x800000 + o) 4 true = true := by
  have hlast : memAt (0x800000 + o + 3) = some (.host, o + 3) := memAt_hwin (o := o + 3) (by unfold hwinSize at *; omega)
  rw [formOk, memAt_hwin h, show 0x800000 + o + 4 - 1 = 0x800000 + o + 3 by omega, hlast]
  simp [show (0x800000 + o) % 4 = 0 by omega]

theorem unitOf_chip {a : Nat} (h : a < 0x1000000) : unitOf a = unitChip := if_pos h

/-- Settles O17: a read is judged by its form, then by what its word reads. -/
theorem hostReadsAnswered : Obligations.HostReadsAnswered := by
  unfold Obligations.HostReadsAnswered
  refine ⟨?register, ?narrowPop, ?window, ?unaligned, ?reserved, ?privileged, fun d h a => gives_read_closed⟩
  case register =>
    intro d h a k f ix hk hal hmem hmem4 hrec hreg hpop hwake hp hup hs hs4 hu
    have hnopop : isPop d (a.toNat / 4 * 4) = false := by simp [isPop, hreg, hpop]
    have hread := gives_read_word ⟨hup, hs, stage_of_stageOpen hs⟩ hk (formOk_reg hk hal hmem) (Or.inr hnopop) (Or.inr hu)
      (wordRead_register hs4 hp hmem4 hrec hreg hpop hwake)
    exact hread
  case narrowPop =>
    intro d h a k hk _ hpop hup hs hrun
    exact gives_read_formError ⟨hup, hs, hrun⟩ (by omega) (Or.inr ⟨by omega, hpop⟩)
  case window =>
    intro d h o hal ho hup hs hp hrun hu
    have hn : (BitVec.ofNat 27 (0x800000 + o)).toNat = 0x800000 + o := by
      unfold hwinSize at ho
      simp only [BitVec.toNat_ofNat]
      omega
    have h4 : (0x800000 + o) / 4 * 4 = 0x800000 + o := word_self (by omega)
    have hchip : unitOf (0x800000 + o) = unitChip := unitOf_chip (by unfold hwinSize at ho; omega)
    have hread := gives_read_word (k := 4) (a := BitVec.ofNat 27 (0x800000 + o)) ⟨hup, by rwa [hn], hrun⟩ (by simp)
      (by rw [hn]; exact formOk_hwin hal ho) (Or.inl rfl) (Or.inr (by rwa [hn, h4, hchip]))
      (by rw [hn, h4]; exact wordRead_memory hs hp (memAt_hwin ho))
    rw [hn] at hread
    simpa [memWord, readBytes, word_self hal] using hread
  case unaligned =>
    intro d h a k hk hal hup hs hrun
    exact gives_read_formError ⟨hup, hs, hrun⟩ (by omega) (Or.inl (formOk_unaligned hk hal))
  case reserved =>
    intro d h a hal hmem hrec hreg hsec hup hs hrun
    have hres : reservedAt a.toNat = true := by simp [reservedAt, hmem, hrec, hreg]
    have hread := gives_read_word (k := 4) ⟨hup, hs, hrun⟩ (by simp) (formOk_reg (by simp) hal hmem) (Or.inl rfl)
      (by rw [word_self hal]; exact Or.inl hres) (by rw [word_self hal]; exact wordRead_reserved hs hsec hmem hrec hreg)
    have hbe : beOf a.toNat 4 = 15 := by simp [beOf, hal]
    have hl : legacyErr d h a.toNat = (d.bit ChipMode.LEGACY () && (h == .pf0 || h == .pf1 || h == .shp)) := by simp [legacyErr, hres]
    rw [hl, hbe] at hread
    split <;> simp_all [readBytes]
  case privileged =>
    intro d h a hal hmem hp hpop hh hup hs hu
    have hread := gives_read_word (k := 4) ⟨hup, hs, stage_of_stageOpen hs⟩ (by simp) (formOk_reg (by simp) hal hmem) (Or.inl rfl)
      (by rw [word_self hal]; exact Or.inr hu) (by rw [word_self hal]; exact wordRead_unprivileged hs hp hh)
    rw [show beOf a.toNat 4 = 15 by simp [beOf, hal]] at hread
    simpa [readBytes] using hread

end Sys2Proof.Machine

/-! ### Bad commands of the serial host port: a counterexample to O19 (R110, R117) -/

namespace Sys2Proof.Machine

/-- A form error that meets VALID set is kept for its clk, in which software may clear VALID (R110). -/
theorem hostErr_form_kept {d : Dev} {m : Master} {wr : Bool} {a be : Nat} (hv : d.bit HostErrInfo.VALID () = true) (hn : d.errNow = none) :
    (d.hostErr 2 m wr a be).errNow.isSome = true := by
  have hinc : (d.incSat HostErr.FORM ()).bit HostErrInfo.VALID () = true := by
    have hfld : (d.incSat HostErr.FORM ()).fld HostErrInfo.VALID () = d.fld HostErrInfo.VALID () :=
      Dev.fld_put_addr d HostErr.FORM () HostErrInfo.VALID () _ (by decide)
    rwa [Dev.bit, hfld]
  simp [Dev.hostErr, hostErrFld, hinc, hn]

/-- A bad command of the serial host port that is counted. -/
theorem exec_shpBadCommand_counted {d : Dev} {len : Byte} {rest : List Instr} (hrun : d.fld Start.STAGE () ≠ 0)
    (hh : d.supply.contains .h = true) (hst : stalled d .shp = false) (hlen : ¬ (1 ≤ len.toNat ∧ len.toNat ≤ 64)) :
    exec (.shpBadCommand 2 len) ⟨rest, d⟩ = .next ⟨rest, shpErr d.free.2 2 true (BitVec.ofNat 32 (Config.freeNat d.fresh))⟩ := by
  show execShpBadCommand 2 len ⟨rest, d⟩ = _
  simp [execShpBadCommand, shpUp, hrun, hst, hlen, onDev, List.contains_iff_mem.mp hh]

/-- The device runs with bank H classed, and an earlier host error stands in the log. -/
def errorLogged : Dev := { ((State.reset.dev.put Start.STAGE () 5).put HostErrInfo.VALID () 1) with supply := [.h] }

/-- Refutes O19: the form error of a bad command meets VALID set and is kept for its clk (R110), beside the registers. -/
theorem not_serialHostPortBadAndCutFrames : ¬ Obligations.SerialHostPortBadAndCutFrames := by
  unfold Obligations.SerialHostPortBadAndCutFrames
  rintro ⟨-, hbad, -⟩
  let d := errorLogged
  have hexec := exec_shpBadCommand_counted (d := d) (len := 0) (rest := []) (by decide +kernel) (by decide +kernel) (by decide +kernel)
    (by decide)
  obtain ⟨-, -, hrest, -⟩ := (hbad d 2 0 (by decide +kernel) (by decide +kernel) (by decide +kernel) (by decide)).of_exec hexec
  have hkept : (shpErr d.free.2 2 true (BitVec.ofNat 32 (Config.freeNat d.fresh))).errNow.isSome = true :=
    hostErr_form_kept (d := d.free.2) (by decide +kernel) (by decide +kernel)
  rw [hrest] at hkept
  exact absurd hkept (by decide +kernel)

end Sys2Proof.Machine

/-! ### Frames of the serial host port (R83, R110, R116, R117, R461, O18) -/

namespace Sys2Proof.Machine

/-! #### Bytes written to the host window (R30, R101) -/

theorem hwPut_cons (d : Dev) (o : Nat) (b : Byte) (bs : List Byte) : hwPut d o (b :: bs) = hwPut (hwSet d o b) (o + 1) bs := rfl

theorem hwPut_append (d : Dev) (o : Nat) (xs ys : List Byte) : hwPut d o (xs ++ ys) = hwPut (hwPut d o xs) (o + xs.length) ys := by
  induction xs generalizing d o with
  | nil => rfl
  | cons x xs ih =>
    rw [List.cons_append, hwPut_cons, hwPut_cons, ih, List.length_cons]
    congr 1
    omega

theorem length_flatMap_byte4 (ws : List Word) : (ws.flatMap byte4).length = 4 * ws.length := by
  induction ws with
  | nil => rfl
  | cons w ws ih =>
    have h4 : (byte4 w).length = 4 := rfl
    rw [List.flatMap_cons, List.length_append, ih, h4, List.length_cons]
    omega

theorem hwByte_hwSet (d : Dev) (o x : Nat) (b : Byte) : hwByte (hwSet d o b) x = if x = o then b else hwByte d x := by
  unfold hwByte hwSet
  split
  case isTrue h => rw [h, tget_tset_self]
  case isFalse h => exact tget_tset_ne _ _ _ _ h

theorem hwByte_hwPut (d : Dev) (o x : Nat) (bs : List Byte) :
    hwByte (hwPut d o bs) x = if o ≤ x ∧ x < o + bs.length then (bs[x - o]?).getD 0 else hwByte d x := by
  induction bs generalizing d o with
  | nil => rw [if_neg (by simp)]; rfl
  | cons b bs ih =>
    rw [hwPut_cons, ih, hwByte_hwSet, List.length_cons]
    rcases lt_trichotomy x o with hlt | rfl | hgt
    · rw [if_neg (by omega), if_neg (by omega), if_neg (by omega)]
    · rw [if_neg (by omega), if_pos rfl, if_pos (by omega)]
      simp
    · rw [if_neg (by omega : ¬ x = o), show x - o = x - (o + 1) + 1 by omega, List.getElem?_cons_succ]
      by_cases hin : x < o + 1 + bs.length
      · rw [if_pos (by omega), if_pos (by omega)]
      · rw [if_neg (by omega), if_neg (by omega)]

/-! #### Frames that the port takes (R116, R117) -/

section Frames

variable {d : Dev} {rest : List Instr} {a : Word} {ws : List Word} {crc : Byte}

/-- The port can begin a frame. -/
structure ShpOpen (d : Dev) : Prop where
  running : d.fld Start.STAGE () ≠ 0
  classed : d.supply.contains .h = true
  free : stalled d .shp = false

theorem ShpOpen.up (h : ShpOpen d) (rest : List Instr) : shpUp ⟨rest, d⟩ = true := by
  simp [shpUp, h.running, h.free, List.contains_iff_mem.mp h.classed]

theorem shpUp_closed (h : d.fld Start.STAGE () = 0 ∨ d.supply.contains .h = false) : shpUp ⟨rest, d⟩ = false := by
  rcases h with h | h
  · simp [shpUp, h]
  · simp only [shpUp, h, Bool.and_false, Bool.false_and]

/-- The status of a frame without data: CODE 0, and CODE 1 of a failed check (R116). -/
theorem shpSay_status (h : d.supply.contains .h = true) :
    shpSay d 0 [] = d.say (.shpFrame [0x80, crc8 [0x80]]) ∧ shpSay d 1 [] = d.say (.shpFrame [0xC8, crc8 [0xC8]]) :=
  ⟨if_pos h, if_pos h⟩

theorem hostErr_supply (d : Dev) (kind : Nat) (m : Master) (wr : Bool) (a be : Nat) : (d.hostErr kind m wr a be).supply = d.supply := by
  unfold Dev.hostErr
  dsimp only
  split_ifs <;> rfl

section Write

variable {say : Bool} (h : ShpOpen d) (h1 : 1 ≤ ws.length) (h64 : ws.length ≤ 64)
include h h1 h64

/-- A write frame with a good check and a good address applies its words. -/
theorem shpWrite_good (hcrc : crc8 (shpHead 2 ws.length a ws) = crc) (hal : a.toNat % 4 = 0) (hlt : a.toNat < 2 ^ 27) :
    shpWrite a ws crc say ⟨rest, d⟩ = thenDo (shpWords ⟨rest, d⟩ a.toNat ws).2 fun s => onDev s fun x =>
      if say then shpSay x (shpWords ⟨rest, d⟩ a.toNat ws).1 [] else x := by
  have haddr : shpBadAddr a = false := by simp [shpBadAddr, hal]; omega
  simp only [shpWrite, h.up rest, Bool.not_true, Bool.false_eq_true, if_false, hcrc, ne_eq, not_true, haddr]
  rw [if_neg (by omega)]

/-- With a failed check it writes nothing (R117; log 81). -/
theorem shpWrite_badCheck (hcrc : crc8 (shpHead 2 ws.length a ws) ≠ crc) :
    shpWrite a ws crc true ⟨rest, d⟩ = .next ⟨rest, shpSay (d.hostErr 5 .shp true (a.toNat % 2 ^ 27) 15) 1 []⟩ := by
  simp only [shpWrite, h.up rest, Bool.not_true, Bool.false_eq_true, if_false, if_pos hcrc, if_true]
  rw [if_neg (by omega)]
  rfl

end Write

/-- A read frame is judged where the port can begin one. -/
theorem exec_shpReadFrame_open {len : Nat} (h : ShpOpen d) :
    exec (.shpReadFrame a len crc) ⟨rest, d⟩ = shpRead a len crc ⟨rest, d⟩ := by
  show execShpReadFrame a len crc ⟨rest, d⟩ = _
  rw [execShpReadFrame, h.up rest]
  rfl

/-! #### The words of a frame (R117) -/

/-- A frame of one word does what the word does. -/
theorem shpWords_one {s : State} {n : Nat} {w : Word} (hlt : n < 2 ^ 27) (hmem : memAt n = none) (hok : legacyErr s.dev .shp n = false) :
    shpWords s n [w] = (0, wordWrite s .shp n w) := by
  have hacc : accErr s.dev .shp n = false := by simp [accErr, hok]
  have hge : ¬ 2 ^ 27 ≤ n := by omega
  simp [shpWords, hmem, hacc, -Nat.reducePow, hge]

/-- One word of a frame, at its own address, after those before it. -/
def shpWord (a : Nat) (x : Nat × Res) (e : Word × Nat) : Nat × Res :=
  let b := a + 4 * e.2
  match x.2 with
  | .next s =>
    if 2 ^ 27 ≤ b then (if x.1 = 0 then 2 else x.1, onDev s fun d => d.hostErr 2 .shp true b 15)
    else
      let c := if accErr s.dev .shp b then 3 else 0
      let r := match memAt b with
        | some (m, o) => if stageOpen s.dev b then memWrite s .shp m o (byte4 e.1) else .next s
        | none => wordWrite s .shp b e.1
      (if x.1 = 0 then c else x.1, r)
  | r => (x.1, r)

theorem shpWords_eq (s : State) (a : Nat) (ws : List Word) : shpWords s a ws = ws.zipIdx.foldl (shpWord a) (0, .next s) := by rfl

theorem stageOpen_hwin {d : Dev} {o o' : Nat} (ho : o < hwinSize) (ho' : o' < hwinSize) :
    stageOpen d (0x800000 + o) = stageOpen d (0x800000 + o') := by
  unfold hwinSize at ho ho'
  simp only [stageOpen]
  congr 2
  simp only [show ¬ 0x800000 + o < 0x10000 by omega, show ¬ 0x800000 + o' < 0x10000 by omega,
    show 0x800000 + o < 0x840000 by omega, show 0x800000 + o' < 0x840000 by omega, show 0x800000 ≤ 0x800000 + o by omega,
    show 0x800000 ≤ 0x800000 + o' by omega]
  simp

theorem shpWord_hwin {s : State} {o i : Nat} {w : Word} (ho : o + 4 * i < hwinSize) (hs : stageOpen s.dev (0x800000 + (o + 4 * i)) = true)
    (hu : unitChip ∉ s.dev.undef) :
    shpWord (0x800000 + o) (0, .next s) (w, i) = (0, .next { s with dev := hwPut s.dev (o + 4 * i) (byte4 w) }) := by
  have haddr : 0x800000 + o + 4 * i = 0x800000 + (o + 4 * i) := by omega
  have hmem := memAt_hwin ho
  have hacc : accErr s.dev .shp (0x800000 + (o + 4 * i)) = false := by simp [accErr, legacyErr, reservedAt, hmem]
  have hlt : ¬ 2 ^ 27 ≤ 0x800000 + (o + 4 * i) := by unfold hwinSize at ho; omega
  simp only [shpWord, haddr, if_neg hlt, hacc, hmem, hs, memWrite, onChip, onUnit, if_neg hu]
  rfl

/-- The words of a frame into the host window stand there in their order. -/
theorem shpWords_hwin {s : State} {o : Nat} {ws : List Word} (ho : o + 4 * ws.length ≤ hwinSize)
    (hs : stageOpen s.dev (0x800000 + o) = true) (hu : unitChip ∉ s.dev.undef) :
    shpWords s (0x800000 + o) ws = (0, .next { s with dev := hwPut s.dev o (ws.flatMap byte4) }) := by
  have hfold : ∀ (ws : List Word) (i : Nat) (s : State), o + 4 * i + 4 * ws.length ≤ hwinSize → stageOpen s.dev (0x800000 + o) = true →
      unitChip ∉ s.dev.undef → (ws.zipIdx i).foldl (shpWord (0x800000 + o)) (0, .next s) =
        (0, .next { s with dev := hwPut s.dev (o + 4 * i) (ws.flatMap byte4) }) := by
    intro ws
    induction ws with
    | nil => exact fun _ _ _ _ _ => rfl
    | cons w ws ih =>
      intro i s hle hs hu
      rw [List.length_cons] at hle
      have hsi : stageOpen s.dev (0x800000 + (o + 4 * i)) = true := (stageOpen_hwin (by omega) (by omega)).trans hs
      obtain ⟨m, hm⟩ := hwPut_eq s.dev (o + 4 * i) (byte4 w)
      have hrest := ih (i + 1) { s with dev := hwPut s.dev (o + 4 * i) (byte4 w) } (by omega) (by rw [hm]; exact hs) (by rw [hm]; exact hu)
      rw [List.zipIdx_cons, List.foldl_cons, shpWord_hwin (by omega) hsi hu, hrest, List.flatMap_cons, hwPut_append]
      rfl
  rw [shpWords_eq]
  exact hfold ws 0 s (by omega) hs hu

/-- A read of words each of which reads without error. -/
theorem wordsRead_words {d : Dev} {h : Master} {a n be : Nat} {v : Nat → Word}
    (hw : ∀ i low, i < n → wordRead d h (a + 4 * i) be low = (some (v i), false, d)) :
    wordsRead d h a n be = (some ((List.range n).map v), false, d) := by
  induction n with
  | zero => rfl
  | succ n ih =>
    have hn := ih fun i low hi => hw i low (by omega)
    unfold wordsRead at hn ⊢
    rw [List.range_succ, List.foldl_append, hn, List.map_append]
    simp [hw n _ (by omega)]

/-- A read all of whose words belong to units that are guaranteed. -/
theorem onRead_known {s : State} {a n : Nat} {f : Dev → Dev} (hu : ∀ i < n, unitOf (a + 4 * i) ∉ s.dev.undef) :
    onRead s a n f = onDev s f := by
  have hnone : (((List.range n).map fun i => a + 4 * i).find? fun b =>
      stageOpen s.dev b && !reservedAt b && decide (unitOf b ∈ s.dev.undef)) = none := by
    rw [List.find?_eq_none]
    rintro b hb
    obtain ⟨i, hi, rfl⟩ := List.mem_map.mp hb
    simp [hu i (List.mem_range.mp hi)]
  rw [onRead, hnone]

end Frames

/-- Settles O18: a frame is judged by its check and its address, and its words are then accesses in turn. -/
theorem serialHostPortFrames : Obligations.SerialHostPortFrames := by
  unfold Obligations.SerialHostPortFrames
  have hone : ∀ (d t : Dev) (a w : Word) (crc : Byte) (rest : List Instr), d.fld Start.STAGE () ≠ 0 → d.supply.contains .h = true →
      stalled d .shp = false → crc8 (shpHead 2 1 a [w]) = crc → a.toNat % 4 = 0 → a.toNat < 2 ^ 27 → memAt a.toNat = none →
      stageOpen d a.toNat = true → legacyErr d .shp a.toNat = false → wordWrite ⟨rest, d⟩ .shp a.toNat w = .next ⟨rest, t⟩ →
      exec (.shpWriteFrame a [w] crc) ⟨rest, d⟩ = .next ⟨rest, shpSay t 0 []⟩ := by
    intro d t a w crc rest hrun hh hst hcrc hal hlt hmem _ hok hw
    have hcheck : crc8 (shpHead 2 [w].length a [w]) = crc := by rw [List.length_singleton, hcrc]
    show shpWrite a [w] crc true ⟨rest, d⟩ = _
    rw [shpWrite_good ⟨hrun, hh, hst⟩ (by simp) (by simp) hcheck hal hlt, shpWords_one (s := ⟨rest, d⟩) hlt hmem hok, hw]
    simp only [thenDo, onDev, if_true]
  refine ⟨?window, ?register, hone, ?badCheck, ?readWindow, ?readBadCheck, ?readPop, ?closed⟩
  case window =>
    intro d a ws crc c status hc hrun hh hst h1 h64 hcrc hal hlo hhi hs hu rest
    obtain ⟨o, ho⟩ : ∃ o, a.toNat = 0x800000 + o := ⟨a.toNat - 0x800000, by omega⟩
    rw [ho] at hs hhi
    have hwords := shpWords_hwin (s := ⟨rest, d⟩) (ws := ws) (by unfold hwinSize; omega) hs hu
    have hwrite := shpWrite_good (say := status) (rest := rest) ⟨hrun, hh, hst⟩ h1 h64 hcrc hal (by omega)
    obtain ⟨m, hm⟩ := hwPut_eq d o (ws.flatMap byte4)
    rw [ho, hwords, hm] at hwrite
    have hexec : exec c ⟨rest, d⟩ = shpWrite a ws crc status ⟨rest, d⟩ := by
      rcases hc with ⟨rfl, rfl⟩ | ⟨rfl, rfl⟩
      · rfl
      · show execShpFrameCut (.writeAfterCheck a ws crc) ⟨rest, d⟩ = _
        have hup : ¬ (d.fld Start.STAGE () = 0 ∨ (!d.supply.contains .h) = true) := by simp [hrun, List.contains_iff_mem.mp hh]
        exact if_neg hup
    refine ⟨_, hexec.trans hwrite, ?_⟩
    have hbyte (x : Nat) := hwByte_hwPut d o x (ws.flatMap byte4)
    rw [hm, length_flatMap_byte4] at hbyte
    refine ⟨?_, ?_, fun x => ?_⟩
    · cases status <;> simp [(shpSay_status (d := { d with hwin := m }) hh).1, Dev.say]
    · cases status <;> simp [(shpSay_status (d := { d with hwin := m }) hh).1, Dev.say]
    · have hx : hwByte (if status then shpSay { d with hwin := m } 0 [] else { d with hwin := m }) x = hwByte { d with hwin := m } x := by
        cases status <;> simp [(shpSay_status (d := { d with hwin := m }) hh).1, Dev.say, hwByte]
      refine hx.trans ((hbyte x).trans ?_)
      rw [ho, show x + 0x800000 - (0x800000 + o) = x - o by omega]
      refine if_congr ?_ rfl rfl
      omega
  case register =>
    intro d a w crc f ix hrun hh hst hcrc hal hlt hmem hs hok hreg hn hu hz hp rest
    have hreach : Reaches d .shp a.toNat (unitOf a.toNat) := ⟨by simp [masterUp, hst], hs, hu⟩
    refine hone d _ a w crc rest hrun hh hst hcrc hal hlt hmem hs hok ?_
    simp only [wordWrite, hs, hreg, regWrite_noRule hn hreach hp hz]
    rfl
  case badCheck =>
    intro d a ws crc hrun hh hst h1 h64 hcrc rest
    show shpWrite a ws crc true ⟨rest, d⟩ = _
    have hh' : (d.hostErr 5 .shp true (a.toNat % 2 ^ 27) 15).supply.contains .h = true := by rwa [hostErr_supply]
    rw [shpWrite_badCheck ⟨hrun, hh, hst⟩ h1 h64 hcrc, (shpSay_status hh').2]
  case readWindow =>
    intro d a len hrun hh hst h1 h64 hal hlo hhi hs hp hu hpop rest
    have haddr : shpBadAddr a = false := by simp [shpBadAddr, hal]; omega
    obtain ⟨o, ho⟩ : ∃ o, a.toNat = 0x800000 + o := ⟨a.toNat - 0x800000, by omega⟩
    rw [ho] at hs hhi hp
    have hword (i : Nat) (low : Option Word) (hi : i < len) :
        wordRead d .shp (0x800000 + o + 4 * i) 15 low = (some (hwWord d (o + 4 * i)), false, d) := by
      have hp := hp i hi
      have hin : o + 4 * i < hwinSize := by unfold hwinSize; omega
      have hsi := (stageOpen_hwin (d := d) hin (o' := o) (by omega)).trans hs
      rw [show 0x800000 + o + 4 * i = 0x800000 + (o + 4 * i) by omega] at hp ⊢
      rw [wordRead_memory hsi (Or.inl hp) (memAt_hwin hin), memWord, word_self (by omega)]
    have hknown : ∀ i < len, unitOf (0x800000 + o + 4 * i) ∉ d.undef := fun i hi => by rwa [unitOf_chip (by omega)]
    have hfit : min len ((2 ^ 27 - (0x800000 + o)) / 4) = len := by omega
    rw [exec_shpReadFrame_open ⟨hrun, hh, hst⟩, shpRead, if_neg (by omega), if_neg (by simp), haddr, if_neg (by simp),
      if_neg (by simp [hpop]), ho, onRead_known hknown]
    simp only [onDev, shpWordsRead, hfit, wordsRead_words hword, lt_irrefl, if_false, show 0x800000 + o - 0x800000 = o by omega]
    rfl
  case readBadCheck =>
    intro d a len crc hrun hh hst h1 h64 hcrc rest
    rw [exec_shpReadFrame_open ⟨hrun, hh, hst⟩, shpRead, if_neg (by omega), if_pos hcrc]
    rfl
  case readPop =>
    intro d a len hrun hh hst h1 h64 hal hlt hpop rest
    have haddr : shpBadAddr a = false := by simp [shpBadAddr, hal]; omega
    rw [exec_shpReadFrame_open ⟨hrun, hh, hst⟩, shpRead, if_neg (by omega), if_neg (by simp), haddr, if_neg (by simp), if_pos ⟨h1, hpop⟩]
    rfl
  case closed =>
    rintro d c hclosed (⟨a, ws, crc, rfl⟩ | ⟨a, len, crc, rfl⟩) rest
    · show shpWrite a ws crc true ⟨rest, d⟩ = _
      simp [shpWrite, shpUp_closed hclosed]
    · show execShpReadFrame a len crc ⟨rest, d⟩ = _
      simp [execShpReadFrame, shpUp_closed hclosed]

end Sys2Proof.Machine

/-! ### Clock loss: a counterexample to O11 (R69, R265, R270, R272) -/

namespace Sys2Proof.Machine

theorem exec_refclkLoss (s : State) : exec .refclkLoss s = onDev s fun d => clockLoss d ClkStat.REFCLK_LOSS := rfl

/-- Refutes O11: the latch of block 0, in active short, is cleared, and in the same clk the clock is lost. That cause undoes the clear
(R270), so that every GL of the block is HIGH again, although its latch read 0 when the loss was declared. -/
theorem not_clockLossAndRecovery : ¬ Obligations.ClockLossAndRecovery := by
  unfold Obligations.ClockLossAndRecovery
  rintro ⟨-, hloss, -, -⟩
  let d := latchClear latchedInActiveShort 0
  obtain ⟨-, -, -, -, -, -, -, -, -, hblocks, -⟩ :=
    (hloss d .refclkLoss _ (Or.inl ⟨rfl, rfl⟩) (by decide +kernel) (by decide +kernel)).of_exec (exec_refclkLoss ⟨[], d⟩)
  obtain ⟨-, -, hoff⟩ := hblocks 0
  obtain ⟨-, hlow⟩ := hoff (by decide +kernel) 0
  exact absurd hlow (by decide +kernel)

end Sys2Proof.Machine

/-! ### Start-up: a counterexample to O12 (R397, R432, R451) -/

namespace Sys2Proof.Machine

/-- A CAL image without records in format 0, with the DIGEST of no bytes and its HCRC (R431). -/
def oldSettings : FlashImg :=
  let head := leBytes 4 0x52484F43 ++ [3, 1, memberCode, 0, 0xFF, 0xFF, 0, 0] ++ leBytes 4 1 ++ leBytes 4 0 ++ leBytes 4 9 ++ List.replicate 24 0
  let digest := leBytes 48 0x5bb99848f1d21ad5fb656fe7bfde4e27dae1f663bfc70c4c4307be1411b7fd216ae3b1b17e32d94c3896ac51a760b038
  ⟨(head ++ digest ++ List.replicate 156 0 ++ leBytes 4 0x10009336).map (BitVec.ofNat 8), true, true, []⟩

/-- Firmware that takes settings of format 1 and no others (R432). -/
def newFirmware : SfwImage := ⟨{ patternHeader with typ := 1, calMin := 1, calFmt := 1 }⟩

set_option maxRecDepth 100000 in
theorem oldSettings_hdr : (imgHdr oldSettings).magic = 0x52484F43#32 ∧ (imgHdr oldSettings).typ = 3 ∧ (imgHdr oldSettings).hfmt = 1 ∧
    (imgHdr oldSettings).member = memberCode ∧ (imgHdr oldSettings).hwRevs = BitVec.allOnes 16 ∧ (imgHdr oldSettings).bind = 0 ∧
    (imgHdr oldSettings).calFmt = 0 ∧ (imgHdr oldSettings).hcrcOk = true ∧ (imgHdr oldSettings).digestOk = true := by
  refine ⟨?_, ?_, ?_, ?_, ?_, ?_, ?_, ?_, ?_⟩ <;> decide +kernel

set_option maxRecDepth 100000 in
/-- That firmware rejects those settings with CODE 11, whatever the hardware revision is. -/
theorem oldSettings_rejected (d : Dev) : hdrCheck d 3 (imgHdr oldSettings) (some newFirmware.hdr) true false = 11 := by
  obtain ⟨hmagic, htyp, hhfmt, hmember, hrevs, hbind, hfmt, hcrc, hdigest⟩ := oldSettings_hdr
  have hrev : (imgHdr oldSettings).hwRevs.getLsbD Config.hwRev.toNat = true := by
    rw [hrevs, BitVec.getLsbD_allOnes]
    exact decide_eq_true Config.hwRev.isLt
  simp [hdrCheck, hmagic, htyp, hhfmt, hmember, hrev, hbind, hfmt, hcrc, hdigest, newFirmware, patternHeader, firstFail]

/-- A start-up at STAGE TWIN under that firmware, with those settings installed and LOCK set. -/
def startUpLocked : Dev :=
  let d := (State.reset.dev.put Start.STAGE () 3).flag Fail.LOCK ()
  { d with rstN := true, stwRun := true, sfw := some newFirmware, bank0 := { d.bank0 with cal := some oldSettings } }

/-- The device of that start-up with no pattern, as its settings are checked. -/
def settingsChecked : Dev := noPattern (startMs ((claimStart startUpLocked).put Start.STAGE () 4))

set_option maxRecDepth 100000 in
theorem settingsChecked_sfw : settingsChecked.sfw = some newFirmware := by decide +kernel

set_option maxRecDepth 100000 in
theorem settingsChecked_cal : (bankOf settingsChecked false).cal = some oldSettings := by decide +kernel

/-! #### The ports have no part in the twin -/

section PortTwin

variable (d : Dev) (p : Fin 4)

theorem winsSendable_twin : (winsSendable d p).twin = d.twin := by
  unfold winsSendable
  split
  · exact forAll_kept (S := Dev.twin) fun x w => by split <;> rfl
  · rfl

theorem setMode_twin (m : Nat) : (setMode d p m).twin = d.twin := by
  refine (winsSendable_twin _ p).trans ?_
  split <;> rfl

theorem goState_twin (st : Nat) : (goState d p st).twin = d.twin := by
  unfold goState
  split
  · rfl
  · refine (winsSendable_twin _ p).trans ?_
    split <;> rfl

theorem portDone_twin (f : RF (Fin 4)) : (portDone d f p).twin = d.twin := by
  unfold portDone Dev.cmdDone
  split_ifs <;> rfl

theorem portPend_twin : (portPend d p).twin = d.twin := by
  have hmode (x : Dev) (f : RF (Fin 4)) (m : Nat) :
      (if x.bit f p then setMode (portDone x f p) p m else x).twin = x.twin := by
    split
    · exact (setMode_twin _ p m).trans (portDone_twin x p f)
    · rfl
  have hpend (x : Dev) : (match (x.port p).modePend with
      | some m => setMode (onPort x p fun y => { y with modePend := none }) p m
      | none => x).twin = x.twin := by
    split
    · exact setMode_twin _ p _
    · rfl
  have hstop (x : Dev) : (if x.bit BpCtl.STOP p then portStopNow (portDone x BpCtl.STOP p) p else x).twin = x.twin := by
    split
    · exact (goState_twin _ p 1).trans (portDone_twin x p _)
    · rfl
  unfold portPend
  split
  · rfl
  · exact (hstop _).trans ((hpend _).trans ((hmode _ _ _).trans (hmode _ _ _)))

theorem portListen_twin : (portListen d p).twin = d.twin := by
  have hframe : (frameOn d p).2.twin = d.twin := by
    unfold frameOn
    split_ifs <;> rfl
  unfold portListen modeAtIdle
  split
  · rfl
  · dsimp only
    split
    · exact hframe
    · exact (portPend_twin _ p).trans hframe

end PortTwin

/-- The part of chipHeld before the ports. -/
def chipHeldBlocks (d : Dev) : Dev :=
  let d := if stageWaits d then d.put Start.STAGE () 5 else d
  let d := if d.bit BootCause.HELD () then d else d.raise 645 11
  let d := d.flag BootCause.HELD ()
  let d := roleHeld d (d.fld TwStat.HREASON ())
  forAll d fun d nn => blockHeld d nn

theorem chipHeld_twin (d : Dev) : (chipHeld d).twin = (chipHeldBlocks d).twin := forAll_kept (S := Dev.twin) portListen_twin

/-- The device with those settings refused. -/
def settingsRefused : Dev :=
  bootCause ({ settingsChecked with cal := none }.put UpdCalv.CALFMT () 0) 11 3 false

set_option maxRecDepth 100000 in
/-- The chip enters HELD, which ends the guard of the claim. -/
theorem settingsRefused_guard : (chipHeldBlocks settingsRefused).twin.guard = .none := by decide +kernel

/-- A start whose pattern load LOCK stops, and whose settings are rejected, ends in a chip held (R451). -/
theorem startLoad_locked {d x y : Dev} (hlock : (d.put Start.STAGE () 4).bit Fail.LOCK () = true)
    (hy : noPattern (startMs (d.put Start.STAGE () 4)) = y) (htake : calTake y (activeBank (d.put Start.STAGE () 4)) = (11, x)) :
    startLoad d = chipHeld x := by
  have hstart : startLoad d = startNone (d.put Start.STAGE () 4) := if_pos hlock
  simp only [hstart, startNone, hy, htake]

/-- The training timeout with the link down at STAGE TWIN. -/
theorem exec_twinTrainTimeout {d : Dev} (hu : unitChip ∉ d.undef) (hlink : d.bit TwStat.LINKUP () = false) (hpair : pairStage d = true) :
    exec .twinTrainTimeout ⟨[], d⟩ = .next ⟨[], startLoad (claimStart d)⟩ := by
  show execTwinTrainTimeout ⟨[], d⟩ = _
  simp only [execTwinTrainTimeout, onChip, onUnit, onDev, if_neg hu, hlink, hpair]
  rfl

/-- Settings that fail check 11 are taken out of use, and the failure is recorded (R451). -/
theorem calTake_rejected {d : Dev} {b : Bool} {g : FlashImg} {f : SfwImage} (hg : (bankOf d b).cal = some g) (hf : d.sfw = some f)
    (hcheck : hdrCheck d 3 (imgHdr g) (some f.hdr) true false = 11) :
    calTake d b = (11, bootCause ({ d with cal := none }.put UpdCalv.CALFMT () 0) 11 3 b) := by
  have hcal : calIn d b = some (imgCal g) := by rw [calIn, hg, Option.map_some]
  have hsfw : sfwHdr d = some f.hdr := by rw [sfwHdr, hf, Option.map_some]
  have hcode : hdrCheck d 3 (imgCal g).hdr (sfwHdr d) true false = 11 := by rw [hsfw]; exact hcheck
  simp only [calTake, hcal, hcode]

/-- Refutes O12: the unit claims with OWN_I low, so that the guard of its claim runs; with LOCK set no pattern is loaded, the installed
settings fail check 11, the chip enters HELD (R451), and the guard ends. -/
theorem not_startUpRunsFirmware : ¬ Obligations.StartUpRunsFirmware := by
  unfold Obligations.StartUpRunsFirmware
  rintro ⟨-, -, -, -, -, -, htimeout, -⟩
  have hexec := exec_twinTrainTimeout (d := startUpLocked) (by decide +kernel) (by decide +kernel) (by decide +kernel)
  obtain ⟨-, -, hguard, -⟩ := (htimeout startUpLocked (by decide +kernel) (by decide +kernel) (by decide +kernel)).of_exec hexec
  have hstart := hguard (by decide +kernel) (by decide +kernel) (by decide +kernel)
  have hbank : activeBank ((claimStart startUpLocked).put Start.STAGE () 4) = false := by decide +kernel
  have htake : calTake settingsChecked (activeBank ((claimStart startUpLocked).put Start.STAGE () 4)) = (11, settingsRefused) := by
    rw [hbank]
    exact calTake_rejected settingsChecked_cal settingsChecked_sfw (oldSettings_rejected settingsChecked)
  have hlock : ((claimStart startUpLocked).put Start.STAGE () 4).bit Fail.LOCK () = true := by decide +kernel
  have hchecked : noPattern (startMs ((claimStart startUpLocked).put Start.STAGE () 4)) = settingsChecked := by rw [settingsChecked]
  rw [startLoad_locked hlock hchecked htake, chipHeld_twin] at hstart
  cases settingsRefused_guard.symm.trans hstart

end Sys2Proof.Machine

/-! ### Mirrored writes of a pair: a counterexample to O51 (R95, R409) -/

namespace Sys2Proof.Machine

/-- The ACTIVE unit of a pair at STAGE RUN, on which the mark that stands for no unit is itself among the units no longer guaranteed. -/
def noUnitUnguaranteed : Dev :=
  { (State.reset.dev.put Start.STAGE () 5).put TwStat.ROLE () 1 with rstN := true, stwRun := true, undef := [unitNone] }

/-- A soft quench acts on the quench path, for which the model asks the guarantee of no unit by the mark unitNone (R95); a state in
which that mark is listed faults. -/
theorem exec_softQuench_unguaranteed {d : Dev} {h : Master} {nn : Fin 16} {w : Word} {rest : List Instr} (hup : masterUp d h = true)
    (hstage : stageOpen d (Qctl.addr nn) = true) (hu : unitNone ∈ d.undef) :
    exec (.softQuench h nn w) ⟨rest, d⟩ = .fault (.unitUnguaranteed unitNone) := by
  show qctlHost ⟨rest, d⟩ h nn (ownM 1 w) = _
  simp [qctlHost, hostCmd, onUnit, hup, hstage, hu]

/-- Refutes O51: for the soft quench the statement asks the guarantee of the block, where the command asks that of unitNone; the
statement is about every state, and in one that lists unitNone as not guaranteed the command faults. -/
theorem not_mirroredWritesOfAPair : ¬ Obligations.MirroredWritesOfAPair := by
  unfold Obligations.MirroredWritesOfAPair
  rintro ⟨hwrites, -, -⟩
  let d := noUnitUnguaranteed
  have hreach : Reaches d .st0 (Qctl.addr 0) (unitBlk 0) := by unfold Reaches; decide +kernel
  have hword : mRsv 0xFFFC (ownM 1 0) = 0 ∧ mOnes (ownM 1 0) % 4 = 2 := by decide
  obtain ⟨hactive, -⟩ := hwrites d .st0 (.softQuench .st0 0 0) (Qctl.addr 0) (unitBlk 0) (ownM 1 0) (some 0)
    (by iterate 8 apply Or.inr
        exact ⟨0, 0, rfl, rfl, rfl, rfl, rfl, hword.1, hword.2⟩) hreach
  have hqueued := hactive (by decide +kernel) []
  rw [exec_softQuench_unguaranteed hreach.1 hreach.2.1 (by decide +kernel)] at hqueued
  cases hqueued

end Sys2Proof.Machine

/-! ### Block commands and a reload: counterexamples to O20 and O21 (R10, R85, R235) -/

namespace Sys2Proof.Machine

/-- Block 0 stands ARMED in HOLD; a COMMIT of its set-points is pending and has been written again earlier in this clk (R10). -/
def heldCommitRewritten : Dev :=
  { (((((State.reset.dev.put Start.STAGE () 5).put TwStat.ROLE () 0).put BkStat.STATE 0 2).flag Pstat.HOLD 0).flag HspCtl.COMMIT 0) with
    rstN := true, stwRun := true, redo := [(HspCtl.addr 0, 1)] }

theorem heldCommitRewritten_free : CmdFree heldCommitRewritten .st0 0 (unitBlk 0) 8 (ownM 3 0) where
  alone := by unfold Alone Reaches; decide +kernel
  bits := by decide
  free := by decide +kernel
  takes := by decide +kernel
  still := by decide +kernel

/-- Refutes O20: DISARM completes at once in HOLD, and the block's entry into HELD carries out the COMMIT and what was written
again of it, which uses up the record of what was rewritten in this clk (R10). -/
theorem not_blockCommandsCarriedOut : ¬ Obligations.BlockCommandsCarriedOut := by
  unfold Obligations.BlockCommandsCarriedOut
  rintro ⟨-, -, -, hdisarm, -⟩
  let d := heldCommitRewritten
  have hfree := heldCommitRewritten_free
  have hexec : exec (.blockDisarm .st0 0 0) ⟨[], d⟩ = .next ⟨[], bkCtlWrite d 0 (mirBits d (BkCtl.addr 0)) (mOnes (ownM 3 0) % 32)⟩ :=
    (exec_blockDisarm _ _ _ _).trans (bkCtlHost_alone hfree.alone hfree.bits.1)
  obtain ⟨⟨hframe, -, -⟩, -, -⟩ :=
    (hdisarm d .st0 0 0 hfree (by decide +kernel) (by decide +kernel)).of_exec hexec
  have hredo := congrArg Dev.redo hframe
  exact absurd hredo (by decide +kernel)

/-- Block 0 is in its reload from the section of droppablePattern, and the RESET has been written again in this clk (R10). -/
def resetRewritten : Dev :=
  { (((State.reset.dev.put Start.STAGE () 5).put TwStat.ROLE () 0).put BkStat.STATE 0 1).put BkCtl.RESET 0 1 with
    rstN := true, pat := some droppablePattern, redo := [(BkCtl.addr 0, 16)] }.onB 0 fun b => { b with resetting := true }

/-- A reload that is complete fills the block, and a RESET rewritten in this clk starts the next one (R10, R85). -/
theorem exec_blockResetDone_redo {d : Dev} {nn : Fin 16} {sec : BlockSec} (hreset : (d.b nn).resetting = true)
    (hsec : secOf d nn = some sec) (hredo : d.cmdRedo BkCtl.RESET nn = true) : ∃ x, Gives (.blockResetDone nn) d (startCmd x nn 16) := by
  let done := ({ d with undef := d.undef.filter fun u => u != unitBlk nn }.cmdDone BkCtl.RESET nn).clr BkCtl.RESET nn
  refine ⟨fillBlock done nn sec true, fun rest => ?_⟩
  show execBlockResetDone nn ⟨rest, d⟩ = _
  simp only [execBlockResetDone, onDev, hreset, hsec, hredo]
  rfl

/-- A RESET that begins leaves its block in the reload. -/
theorem startCmd_reset_resetting (d : Dev) (nn : Fin 16) : ((startCmd d nn 16).b nn).resetting = true := by
  have hput (x : Dev) (g : Blk → Blk) (hg : ∀ b, (g b).resetting = true) : ((setPending (x.onB nn g) nn).b nn).resetting = true := by
    show (((x.onB nn g)).b nn).resetting = true
    simp [Dev.b, Dev.onB, hg]
  exact hput _ _ fun _ => rfl

/-- Refutes O21: where the RESET has been written again in the clk in which the reload ends, the next reload begins with it (R10). -/
theorem not_blockReloadEnds : ¬ Obligations.BlockReloadEnds := by
  unfold Obligations.BlockReloadEnds
  rintro ⟨-, hdone⟩
  let d := resetRewritten
  have hreset : (d.b 0).resetting = true := by decide +kernel
  have hsec : secOf d 0 = some ⟨[], 0, droppableBank, droppableBank, [1 <<< 43], [1 <<< 43], [], [], [], false, 0⟩ := by decide +kernel
  obtain ⟨x, hx⟩ := exec_blockResetDone_redo hreset hsec (by decide +kernel)
  obtain ⟨-, -, -, hended, -⟩ := (hdone d 0 _ hreset hsec (by decide +kernel)).of_exec (hx [])
  exact Bool.noConfusion ((startCmd_reset_resetting x 0).symm.trans hended)

end Sys2Proof.Machine

/-! ### A slot that ends a domain: a counterexample to O25 (R156, R171, R225) -/

namespace Sys2Proof.Machine

/-- A bank in domain 0 with one slot, without a fallback, that stalls below 1 Hz (R128, R171). -/
def pllBank : BankHdr := ⟨1, 0, 1, true, true, false, 0, 1000, 1, 0, 0, 0, 0, false, 0, 0, 0, 0, 0, 0⟩

/-- A section with that bank twice, whose slot runs kernel cell 0. -/
def pllSec : BlockSec := ⟨[], 0, pllBank, pllBank, [1 <<< 40], [1 <<< 40], [], [], [], false, 0⟩

/-- A pattern with that section for blocks 0 and 1. -/
def pllPattern : PatImage :=
  ⟨⟨0, 2, 1, 0, 0, 0, 0, 0, 0, 0, 0, 0, 0, 0, 0, 0, 0, true, true, true, true⟩, 4096, 2,
   [⟨3, 0, 1, 0, 0, 0, [], .block pllSec⟩, ⟨3, 1, 1, 0, 0, 0, [], .block pllSec⟩]⟩

/-- Blocks 0 and 1 run in domain 0, which is led by the PLL cell of block 0 (R156); the cell is locked, and its threshold of
lock is such that no angle error is within it (R225). -/
def pllLeads : Dev :=
  let d := { (State.reset.dev.put Start.STAGE () 5).put TwStat.ROLE () 0 with rstN := true, clk := 4096, pat := some pllPattern }
  let d := ((d.put BkStat.STATE 0 3).put BkStat.STATE 1 3).onB 0 fun b => { b with inCycle := true }
  let d := (((d.put KcCfg.KIND (0, 0) 10).flag KcStat.LOCK (0, 0)).put KcP.V (0, 0, 5) 0x80000)
  ((d.put PdCfg.SRC 0 4).flag PdStat.VALID 0).onPd 0 fun x => { x with pri := { x.pri with valid := true } }

/-- A RUN slot at the runner's pointer runs its cell, and the domains follow its lock. -/
theorem exec_runSlot_taken {d : Dev} {nn : Fin 16} {late : Nat} {w : DWord} (hu : unitBlk nn ∉ d.undef) (hw : slotNow d nn = some w)
    (hop : sOp w = 1) :
    let e := d.put Rlate.MAXLATE nn (min (max (d.fld Rlate.MAXLATE nn) late) (2 ^ 20 - 1))
    Gives (.runSlot nn late) d (slotNext (lockFollow e (kernelRun e (nn, kcIx (sf w 0 4))) nn) nn) := by
  intro e rest
  show execRunSlot nn late ⟨rest, d⟩ = _
  rw [execRunSlot, runSlotOf, onBlock_known hu]
  simp only [hw, hop, if_true, e]

/-- Refutes O25: the run of its PLL cell loses lock, the domain becomes invalid in the same clk (R156), and block 1, whose bank is
bound to it, stalls (R171): a RUN slot of block 0 has changed another block. -/
theorem not_slotsExecuteInTurn : ¬ Obligations.SlotsExecuteInTurn := by
  unfold Obligations.SlotsExecuteInTurn
  intro h
  let d := pllLeads
  have hslot : slotNow d 0 = some (1 <<< 40) := by decide +kernel
  obtain ⟨-, hruns⟩ := h (.runSlot 0 0) d 0 0 1 false (by simp) (by decide +kernel) (by decide +kernel)
  obtain ⟨-, -, -, -, -, -, -, hothers⟩ := (hruns (1 <<< 40) hslot (by decide)).of_exec (exec_runSlot_taken (by decide +kernel) hslot (by decide) [])
  have hstalled := congrArg Blk.stalled (hothers 1 (by decide))
  exact absurd hstalled (by decide +kernel)

end Sys2Proof.Machine

/-! ### The quench commands: a counterexample to O33 (R95, R262, R270) -/

namespace Sys2Proof.Machine

/-- Refutes O33: its statement of the soft quench asks the guarantee of the block, where the command, which acts on the quench path,
asks that of unitNone; in a state that lists unitNone as not guaranteed the command faults. -/
theorem not_quenchInputsAndClear : ¬ Obligations.QuenchInputsAndClear := by
  unfold Obligations.QuenchInputsAndClear
  rintro ⟨-, -, -, hcommands⟩
  let d := noUnitUnguaranteed.put TwStat.ROLE () 0
  have halone : Alone d .st0 (Qctl.addr 0) (unitBlk 0) := by unfold Alone Reaches; decide +kernel
  have hnew : (d.b 0).qClr = none := by decide +kernel
  obtain ⟨hsoft, -⟩ := hcommands d .st0 0 0 halone fun e he => by rw [hnew] at he; cases he
  obtain ⟨t, hdone, -⟩ := hsoft (by decide) (by decide) []
  rw [exec_softQuench_unguaranteed halone.1.1 halone.1.2.1 (by decide +kernel)] at hdone
  cases hdone

end Sys2Proof.Machine

/-! ### A carried width: a counterexample to O32 (R255) -/

namespace Sys2Proof.Machine

/-- Leg 1 of block 0 has had its first UPDATE in RUN and is due a period of 1 clk, 8 steps, in CARRY with m = 2 (R254); the width of
its duty is 1 step, and its accumulator holds 100 steps. -/
def carriedWidthLong : Dev :=
  let d := ((State.reset.dev.put Start.STAGE () 5).put TwStat.ROLE () 0).put BkStat.STATE 0 3
  let d := { d with rstN := true, supply := [.vdd, .vddaPll, .g 0] }
  let d := ((d.put Pwm.PER 0 1).put LcCfg.DTIME (0, 1) 1).put LcCfg.MINP (0, 1) 1
  let d := (d.put LcCfg.SPMODE (0, 1) 2).put LcAcc.A (0, 1) 100
  onL d (0, 1) fun _ => { Leg.reset with gh := .low, gl := .high, upd := true, duty := 2 ^ 17 }

theorem exec_carrierPeriodStart {d : Dev} {nn : Fin 16} (l : Fin 3) (hu : unitBlk nn ∉ d.undef) :
    Gives (.carrierPeriodStart nn l) d (periodStart d (nn, l)) := by
  intro rest
  show execCarrierPeriodStart nn l ⟨rest, d⟩ = _
  rw [execCarrierPeriodStart, onBlock_known hu]

/-- Refutes O32: the carried width of 101 steps exceeds the period, and the leg stays high through it; the statement, which bounds
the accumulator by nothing, has GH fall at step 101. -/
theorem not_legsEmitPeriodsAndEdges : ¬ Obligations.LegsEmitPeriodsAndEdges := by
  unfold Obligations.LegsEmitPeriodsAndEdges
  intro h
  let d := carriedWidthLong
  have hu : unitBlk 0 ∉ d.undef := by decide +kernel
  obtain ⟨-, -, hpwm, -⟩ := h d 0 1 hu
  have hperiod := hpwm (by decide +kernel) (by decide +kernel) (by decide +kernel) (by decide +kernel) (by decide +kernel)
    (by decide +kernel) (by decide +kernel) (by decide +kernel) (by decide +kernel) (by decide +kernel) (by decide +kernel)
    (by decide +kernel)
  obtain ⟨-, -, -, -, -, -, -, -, -, hlow, -⟩ := hperiod.of_exec (exec_carrierPeriodStart 1 hu [])
  obtain ⟨-, -, hedges⟩ := hlow (by decide +kernel) (by decide +kernel) (by decide +kernel)
  exact absurd hedges (by decide +kernel)

end Sys2Proof.Machine

/-! ### Frames: what stands beside chosen bits of registers and chosen blocks -/

namespace Sys2Proof.Machine

/-- What the device holds beside registers, blocks, domains, regions, messages, engines, host window, flash and twin. -/
def Dev.core (d : Dev) : Dev :=
  { d with regs := [], hw := [], redo := [], errNow := none, hwin := [], fresh := 0, out := [], cal := none, bank0 := Dev.reset.bank0,
           bank1 := Dev.reset.bank1, sess := Sess.empty, blk := Dev.reset.blk, dom := Dev.reset.dom, rgn := Dev.reset.rgn, evq := [],
           src := [], targ := Dev.reset.targ, chan := Dev.reset.chan, hostWr := [], twin := Twin.reset, failDue := none, failNote := [] }

/-- The register bits of K and the blocks of B stand, messages are at most added, and the core stands. -/
structure Aside (K : Nat → Nat → Prop) (B : Fin 16 → Prop) (d t : Dev) : Prop where
  bits : ∀ a b, K a b → (t.reg a).getLsbD b = (d.reg a).getLsbD b
  blks : ∀ k, B k → t.b k = d.b k
  evq : d.evq ⊆ t.evq
  core : t.core = d.core

/-- No bit of the register at a is among those that stand. -/
def Loose (K : Nat → Nat → Prop) (a : Nat) : Prop := ∀ b, ¬ K a b

section Aside

variable {K : Nat → Nat → Prop} {B : Fin 16 → Prop} {d x y : Dev} {ι : Type} {f : RF ι} {i : ι}

theorem Aside.refl : Aside K B d d := ⟨fun _ _ _ => rfl, fun _ _ => rfl, fun _ h => h, rfl⟩

theorem Aside.trans (h1 : Aside K B d x) (h2 : Aside K B x y) : Aside K B d y :=
  ⟨fun a b hK => (h2.bits a b hK).trans (h1.bits a b hK), fun k hB => (h2.blks k hB).trans (h1.blks k hB),
    fun _ hm => h2.evq (h1.evq hm), h2.core.trans h1.core⟩

theorem Aside.mono {K' : Nat → Nat → Prop} {B' : Fin 16 → Prop} (h : Aside K B d x) (hK : ∀ a b, K' a b → K a b) (hB : ∀ k, B' k → B k) :
    Aside K' B' d x :=
  ⟨fun a b hk => h.bits a b (hK a b hk), fun k hk => h.blks k (hB k hk), h.evq, h.core⟩

theorem Aside.ite {c : Prop} [Decidable c] (hx : Aside K B d x) (hy : Aside K B d y) : Aside K B d (if c then x else y) := by
  split <;> assumption

theorem Aside.forAll {n : Nat} {g : Dev → Fin n → Dev} (h : Aside K B d x) (hg : ∀ z j, Aside K B z (g z j)) :
    Aside K B d (Machine.forAll x g) :=
  forAll_induction (fun _ z => Aside K B d z) h fun j z hz => hz.trans (hg z j)

/-! #### What it keeps -/

theorem Aside.reg {a : Nat} (h : Aside K B d x) (ha : ∀ b, b < 32 → K a b) : x.reg a = d.reg a :=
  BitVec.eq_of_getLsbD_eq fun b hb => h.bits a b (ha b hb)

theorem Aside.fld (h : Aside K B d x) (ha : ∀ b, f.lo ≤ b → b < f.lo + f.len → K (f.addr i) b) : x.fld f i = d.fld f i := by
  refine congrArg BitVec.toNat (BitVec.eq_of_getLsbD_eq fun b hb => ?_)
  simp only [BitVec.getLsbD_extractLsb', hb, decide_true, Bool.true_and]
  exact h.bits _ _ (ha _ (by omega) (by omega))

theorem Aside.bit (h : Aside K B d x) (ha : ∀ b, f.lo ≤ b → b < f.lo + f.len → K (f.addr i) b) : x.bit f i = d.bit f i := by
  simp only [Dev.bit, h.fld ha]

theorem Aside.clk (h : Aside K B d x) : x.clk = d.clk := (congrArg Dev.clk h.core :)
theorem Aside.pat (h : Aside K B d x) : x.pat = d.pat := (congrArg Dev.pat h.core :)
theorem Aside.sent {m : Msg} (h : Aside K B d x) (hm : m ∈ d.evq) : m ∈ x.evq := h.evq hm

/-! #### The named updates -/

theorem Aside.setReg {a : Nat} {w : Word} (h : Aside K B d x) (ha : Loose K a) : Aside K B d (x.setReg a w) where
  bits a' b hK := by
    have hne : a' ≠ a := by
      rintro rfl
      exact ha b hK
    rw [Dev.reg_setReg_ne _ _ _ _ hne]
    exact h.bits a' b hK
  blks := h.blks
  evq := h.evq
  core := h.core

/-- A field written whose bits are not among those that stand. -/
theorem Aside.putBits {v : Nat} (h : Aside K B d x) (hl : f.lo + f.len ≤ 32)
    (ha : ∀ b, f.lo ≤ b → b < f.lo + f.len → ¬ K (f.addr i) b) : Aside K B d (x.put f i v) where
  bits a b hK := by
    rcases eq_or_ne a (f.addr i) with rfl | hne
    · rw [Dev.put, Dev.reg_setReg_self, fset_getLsbD hl, if_neg fun hb => ha b hb.1 hb.2 hK]
      exact h.bits _ b hK
    · rw [Dev.reg_put_ne _ _ _ _ _ hne]
      exact h.bits a b hK
  blks := h.blks
  evq := h.evq
  core := h.core

/-- What a device notes of this clk only stands beside all of it. -/
theorem Aside.hw {l : List (Nat × Nat × Bool)} (h : Aside K B d x) : Aside K B d { x with hw := l } := ⟨h.bits, h.blks, h.evq, h.core⟩

theorem Aside.flagBits (h : Aside K B d x) (hl : f.lo + f.len ≤ 32) (ha : ∀ b, f.lo ≤ b → b < f.lo + f.len → ¬ K (f.addr i) b) :
    Aside K B d (x.flag f i) := (h.putBits hl ha).hw

theorem Aside.incSatBits (h : Aside K B d x) (hl : f.lo + f.len ≤ 32) (ha : ∀ b, f.lo ≤ b → b < f.lo + f.len → ¬ K (f.addr i) b) :
    Aside K B d (x.incSat f i) := (h.putBits hl ha (v := min (x.fld f i + 1) (2 ^ f.len - 1))).hw

section Field

variable (h : Aside K B d x) (ha : Loose K (f.addr i))
include h ha

theorem Aside.put {v : Nat} : Aside K B d (x.put f i v) := h.setReg ha
theorem Aside.clr : Aside K B d (x.clr f i) := h.setReg ha
theorem Aside.putB {b : Bool} : Aside K B d (x.putB f i b) := h.setReg ha
theorem Aside.flag : Aside K B d (x.flag f i) := (h.put ha (v := 1)).hw
theorem Aside.incSat : Aside K B d (x.incSat f i) := (h.put ha (v := min (x.fld f i + 1) (2 ^ f.len - 1))).hw

end Field

theorem Aside.onB {nn : Fin 16} {u : Blk → Blk} (h : Aside K B d x) (hB : ¬ B nn) : Aside K B d (x.onB nn u) where
  bits := h.bits
  blks k hk := by
    have hne : k ≠ nn := by
      rintro rfl
      exact hB hk
    exact (Dev.b_onB_ne _ _ _ _ hne).trans (h.blks k hk)
  evq := h.evq
  core := h.core

theorem Aside.onTw {u : Twin → Twin} (h : Aside K B d x) : Aside K B d (x.onTw u) := ⟨h.bits, h.blks, h.evq, h.core⟩

theorem mem_msgInsert_self (m : Msg) (l : List Msg) : m ∈ msgInsert m l := by
  induction l with
  | nil => simp [msgInsert]
  | cons x xs ih =>
    rw [msgInsert]
    split <;> simp [ih]

theorem subset_msgInsert (m : Msg) (l : List Msg) : l ⊆ msgInsert m l := by
  induction l with
  | nil => simp
  | cons x xs ih =>
    rw [msgInsert]
    split
    · simp
    · exact List.cons_subset_cons x ih

theorem Aside.sendMsg {s j : Nat} {on : Bool} (h : Aside K B d x) : Aside K B d (x.sendMsg s on j) :=
  ⟨h.bits, h.blks, fun _ hm => subset_msgInsert _ _ (h.evq hm), h.core⟩

theorem Aside.raise {s j : Nat} (h : Aside K B d x) : Aside K B d (x.raise s j) := h.sendMsg

/-- A source that is raised sends its message. -/
theorem mem_evq_raise (x : Dev) (s j : Nat) : ⟨x.clk, s, true, j % 65536, false⟩ ∈ (x.raise s j).evq := mem_msgInsert_self _ _

end Aside

end Sys2Proof.Machine

/-! ### What a quench writes, and what it sets (R262, R266 to R268) -/

namespace Sys2Proof.Machine

/-- The registers of which a quench of block nn may write every field: those of a block in OFF, its state and its command bits. -/
def latchRegs (nn : Fin 16) : List Nat := quenchRegs nn ++ [BkStat.addr nn, BkCtl.addr nn]

/-- The latch of block nn is not among what stands. -/
structure LatchLoose (K : Nat → Nat → Prop) (nn : Fin 16) : Prop where
  regs : ∀ a ∈ latchRegs nn, Loose K a
  pulse : ¬ K (TwStat.addr ()) TwStat.TWQO.lo

section Latch

variable {K : Nat → Nat → Prop} {B : Fin 16 → Prop} {d x : Dev} {nn : Fin 16}

theorem aside_legSafe {l : Fin 3} (h : Aside K B d x) (hB : ¬ B nn) : Aside K B d (legSafe x nn l) := h.onB hB

theorem aside_legsSafe (h : Aside K B d x) (hB : ¬ B nn) : Aside K B d (legsSafe x nn) := h.forAll fun _ _ => aside_legSafe .refl hB

theorem LatchLoose.cause (hK : LatchLoose K nn) : Loose K (Qcause.addr nn) := hK.regs _ (by simp [latchRegs, quenchRegs])
theorem LatchLoose.stat (hK : LatchLoose K nn) : Loose K (Qstat.addr nn) := hK.regs _ (by simp [latchRegs, quenchRegs])
theorem LatchLoose.count (hK : LatchLoose K nn) : Loose K (FltCnt.addr ()) := hK.regs _ (by simp [latchRegs, quenchRegs])
theorem LatchLoose.acc (hK : LatchLoose K nn) (l : Fin 3) : Loose K (LcAcc.addr (nn, l)) := hK.regs _ (by simp [latchRegs, quenchRegs])
theorem LatchLoose.state (hK : LatchLoose K nn) : Loose K (BkStat.addr nn) := hK.regs _ (by simp [latchRegs])
theorem LatchLoose.cmd (hK : LatchLoose K nn) : Loose K (BkCtl.addr nn) := hK.regs _ (by simp [latchRegs])

theorem aside_legsForget (h : Aside K B d x) (hK : ∀ l, Loose K (LcAcc.addr (nn, l))) : Aside K B d (legsForget x nn) :=
  h.forAll fun _ l => ((Aside.refl.clr (hK l)).clr (hK l)).clr (hK l)

theorem aside_setSafe {c : Bool} (h : Aside K B d x) (hstat : ∀ b, Aside K B x (x.putB Qstat.SAFESET nn b)) (hB : ¬ B nn) :
    Aside K B d (setSafe x nn c) := by
  have hset := h.trans (hstat (s1Wanted x nn))
  have hsafe := aside_legsSafe hset hB
  exact Aside.ite (Aside.ite (hsafe.forAll fun _ _ => Aside.refl.onB hB) hsafe) (Aside.ite hsafe hset)

theorem aside_blkRefuse {r : Nat} (h : Aside K B d x) (hK : Loose K (BkStat.addr nn)) : Aside K B d (blkRefuse x nn r) :=
  (h.flag hK).put hK

theorem aside_quenchState (h : Aside K B d x) (hstat : Loose K (BkStat.addr nn)) (hcmd : Loose K (BkCtl.addr nn)) (hB : ¬ B nn) :
    Aside K B d (quenchState x nn) := by
  have hmove : Aside K B d (if x.fld BkStat.STATE nn = 2 ∨ x.fld BkStat.STATE nn = 3 then x.put BkStat.STATE nn 4 else x) :=
    Aside.ite (h.put hstat) h
  exact Aside.ite (((aside_blkRefuse (((hmove.clr hcmd).clr hcmd).clr hcmd) hstat).onB hB).putB hstat) hmove

theorem aside_causesNote {m : Nat} (h : Aside K B d x) (hB : ¬ B nn) : Aside K B d (causesNote x nn m) := h.onB hB

theorem aside_clearUndo (h : Aside K B d x) (hK : LatchLoose K nn) (hB : ¬ B nn) : Aside K B d (clearUndo x nn) := by
  unfold clearUndo
  split
  · exact Aside.ite h (((((h.flag hK.stat).putB hK.stat).flag hK.stat).put hK.state).onB hB)
  · exact h

theorem aside_quenchNew {m : Nat} (h : Aside K B d x) (hK : LatchLoose K nn) (hB : ¬ B nn) : Aside K B d (quenchNew x nn m) := by
  unfold quenchNew
  extract_lets first recorded
  have hfirst : Aside K B d first := (h.onB hB).put hK.stat
  have hrec : Aside K B d recorded := aside_legsForget (((hfirst.incSat hK.stat).flag hK.stat).incSat hK.count) hK.acc
  refine Aside.ite ((hrec.flagBits (f := TwStat.TWQO) (by decide) fun b hlo hhi => ?_).onTw) hrec
  obtain rfl : b = TwStat.TWQO.lo := by
    have : b < TwStat.TWQO.lo + 1 := hhi
    omega
  exact hK.pulse

theorem aside_quenchRecord {m : Nat} (h : Aside K B d x) (hK : LatchLoose K nn) (hB : ¬ B nn) : Aside K B d (quenchRecord x nn m) :=
  have hcause {v : Nat} : Aside K B d ((x.put Qcause.CAUSE nn v).flag Qstat.LATCH nn) := (h.put hK.cause).flag hK.stat
  Aside.ite (Aside.ite (hcause.put hK.stat) hcause) (aside_quenchNew hcause hK hB)

/-- A quench leaves all but the latch, the state and the command bits of its block, the outputs and TWQ_O. -/
theorem aside_quench {m : Nat} (h : Aside K B d x) (hK : LatchLoose K nn) (hB : ¬ B nn) : Aside K B d (quench x nn m) := by
  rw [quench_eq]
  refine Aside.ite h ?_
  have hrec := aside_quenchRecord (m := m) (aside_causesNote (m := m) (aside_clearUndo h hK hB) hB) hK hB
  have hstate := aside_quenchState (aside_setSafe (c := !(causesNote (clearUndo x nn) nn m).bit Qstat.LATCH nn) hrec
    (fun _ => Aside.refl.putB hK.stat) hB) hK.state hK.cmd hB
  exact Aside.ite hstate hstate.raise

end Latch

/-! #### The latch that a quench sets -/

/-- The recorded causes of block nn and its latch. -/
def latchBits (nn : Fin 16) (a b : Nat) : Prop := a = Qcause.addr nn ∨ a = Qstat.addr nn ∧ b = Qstat.LATCH.lo

theorem loose_latchBits {nn : Fin 16} {a : Nat} (hc : a ≠ Qcause.addr nn) (hs : a ≠ Qstat.addr nn) : Loose (latchBits nn) a := by
  rintro b (h | ⟨h, -⟩)
  · exact hc h
  · exact hs h

/-- No block. -/
abbrev noBlk : Fin 16 → Prop := fun _ => False

section LatchBits

variable {d x : Dev} {nn : Fin 16}

/-- Another field of QSTAT may be written. -/
theorem qstat_beside {f : RF (Fin 16)} (hf : f.addr = Qstat.addr) (hlo : 0 < f.lo) :
    ∀ b, f.lo ≤ b → b < f.lo + f.len → ¬ latchBits nn (f.addr nn) b := by
  rintro b hb - (h | ⟨-, h⟩)
  · rw [hf] at h
    simp only [Qstat.addr, Qcause.addr] at h
    omega
  · have h0 : b = 0 := h
    omega

theorem loose_latchBits_state : Loose (latchBits nn) (BkStat.addr nn) :=
  loose_latchBits (by simp [BkStat.addr, Qcause.addr]) (by simp [BkStat.addr, Qstat.addr])
theorem loose_latchBits_cmd : Loose (latchBits nn) (BkCtl.addr nn) :=
  loose_latchBits (by simp [BkCtl.addr, Qcause.addr]) (by simp [BkCtl.addr, Qstat.addr])
theorem loose_latchBits_acc (l : Fin 3) : Loose (latchBits nn) (LcAcc.addr (nn, l)) :=
  loose_latchBits (by simp only [LcAcc.addr, Qcause.addr]; omega) (by simp only [LcAcc.addr, Qstat.addr]; omega)

theorem quenchNew_latchBits {m : Nat} : Aside (latchBits nn) noBlk x (quenchNew x nn m) := by
  have hlow {a : Nat} (ha : a < 0x1000000) : Loose (latchBits nn) a :=
    loose_latchBits (by simp only [Qcause.addr, blockBase]; omega) (by simp only [Qstat.addr, blockBase]; omega)
  unfold quenchNew
  extract_lets first recorded
  have hfirst : Aside (latchBits nn) noBlk x first := (Aside.refl.onB not_false).putBits (by decide) (qstat_beside rfl (by decide))
  have hrec : Aside (latchBits nn) noBlk x recorded := aside_legsForget
    (((hfirst.incSatBits (by decide) (qstat_beside rfl (by decide))).flagBits (by decide) (qstat_beside rfl (by decide))).incSat
      (hlow (by decide))) loose_latchBits_acc
  exact Aside.ite ((hrec.flag (hlow (by decide))).onTw) hrec

/-- What follows the record of a cause in a quench leaves the causes and the latch. -/
theorem quenchEnd_latchBits {c : Bool} : Aside (latchBits nn) noBlk x (quenchState (setSafe x nn c) nn) :=
  aside_quenchState (aside_setSafe .refl (fun _ => Aside.refl.putBits (by decide) (qstat_beside rfl (by decide))) not_false)
    loose_latchBits_state loose_latchBits_cmd not_false

theorem Aside.latch (h : Aside (latchBits nn) noBlk d x) : x.bit Qstat.LATCH nn = d.bit Qstat.LATCH nn ∧ x.fld Qcause.CAUSE nn = d.fld Qcause.CAUSE nn :=
  ⟨h.bit fun b _ hb => .inr ⟨rfl, by simpa [Qstat.LATCH] using hb⟩, h.fld fun _ _ _ => .inl rfl⟩

/-- A cause that is recorded sets the latch and adds its bits. -/
theorem quenchRecord_latch (m : Nat) : (quenchRecord x nn m).bit Qstat.LATCH nn = true ∧
    (quenchRecord x nn m).fld Qcause.CAUSE nn = ((if x.bit Qstat.LATCH nn then x.fld Qcause.CAUSE nn else 0) ||| m % 65536) := by
  let v := (if x.bit Qstat.LATCH nn then x.fld Qcause.CAUSE nn else 0) ||| m % 65536
  let y := (x.put Qcause.CAUSE nn v).flag Qstat.LATCH nn
  have hv : v < 2 ^ 16 := by
    have hfld : x.fld Qcause.CAUSE nn < 2 ^ 16 := Dev.fld_lt _ _ _
    exact Nat.or_lt_two_pow (by split <;> omega) (Nat.mod_lt _ (by decide))
  have hy : y.bit Qstat.LATCH nn = true ∧ y.fld Qcause.CAUSE nn = v := by
    refine ⟨Dev.bit_flag_self _ _ _ (by decide) rfl, ?_⟩
    have hput : y.fld Qcause.CAUSE nn = (x.put Qcause.CAUSE nn v).fld Qcause.CAUSE nn :=
      Dev.fld_put_addr _ Qstat.LATCH nn _ _ _ (by simp [Qcause.CAUSE, Qcause.addr, Qstat.LATCH, Qstat.addr])
    rw [hput, Dev.fld_put_self _ _ _ _ (by decide)]
    exact Nat.mod_eq_of_lt hv
  have hrest : Aside (latchBits nn) noBlk y (quenchRecord x nn m) :=
    Aside.ite (Aside.ite (Aside.refl.putBits (by decide) (qstat_beside rfl (by decide))) .refl) quenchNew_latchBits
  exact ⟨hrest.latch.1.trans hy.1, hrest.latch.2.trans hy.2⟩

/-- A quench with a cause sets the latch and the cause's bit, and takes no recorded cause away. -/
theorem quench_sets {b : Nat} (hb : b < 16) : (quench d nn (2 ^ b)).bit Qstat.LATCH nn = true ∧
    ((quench d nn (2 ^ b)).fld Qcause.CAUSE nn).testBit b = true ∧
    (d.bit Qstat.LATCH nn = true → ∀ i, (d.fld Qcause.CAUSE nn).testBit i = true → ((quench d nn (2 ^ b)).fld Qcause.CAUSE nn).testBit i = true) := by
  have hm : 2 ^ b % 65536 = 2 ^ b := Nat.mod_eq_of_lt (Nat.pow_lt_pow_right (by decide) (show b < 16 from hb))
  let x := causesNote (clearUndo d nn) nn (2 ^ b)
  obtain ⟨hlatch, hcause⟩ := quenchRecord_latch (x := x) (nn := nn) (2 ^ b)
  have hend : Aside (latchBits nn) noBlk (quenchRecord x nn (2 ^ b)) (quench d nn (2 ^ b)) := by
    rw [quench_eq, if_neg (by rw [hm]; exact Nat.two_pow_pos b |>.ne')]
    exact Aside.ite quenchEnd_latchBits quenchEnd_latchBits.raise
  refine ⟨hend.latch.1.trans hlatch, ?_, fun hset i hi => ?_⟩ <;> rw [hend.latch.2, hcause, Nat.testBit_or, hm]
  · simp
  · have hundo : clearUndo d nn = d := by
      unfold clearUndo
      split
      · rw [if_pos (.inr hset)]
      · rfl
    have hx : x.bit Qstat.LATCH nn = true ∧ x.fld Qcause.CAUSE nn = d.fld Qcause.CAUSE nn := by
      simp only [x, hundo]
      exact ⟨hset, rfl⟩
    rw [hx.1, if_pos rfl, hx.2, hi, Bool.true_or]

end LatchBits

end Sys2Proof.Machine

/-! ### Filter cells: results and comparators (R182 to R190, O34) -/

namespace Sys2Proof.Machine

/-! #### Values of F20 in registers -/

theorem satF20_range (x : Int) : -524288 ≤ satF20 x ∧ satF20 x ≤ 524287 := by
  rw [satF20, satS_20]
  split_ifs <;> omega

/-- A value of F20 written with the sign extension of R9 reads as itself. -/
theorem Dev.sfld_putS {ι : Type} (d : Dev) (f : RF ι) (i : ι) {v : Int} (hlo : f.lo = 0) (hlen : f.len = 20)
    (hmin : -524288 ≤ v) (hmax : v ≤ 524287) :
    (d.putS f i v).sfld f i = v := by
  have hself : sx 20 (ux 20 v) = v := by
    simp only [sx, ux, Int.ofNat_eq_natCast]
    omega
  rw [Dev.sfld, Dev.putS, Dev.fld_setReg_self, hlo, hlen, hself, fget, BitVec.extractLsb'_toNat, BitVec.toNat_ofNat, Nat.shiftRight_zero,
    ← sx_mod, Nat.mod_mod_of_dvd _ (by decide), Nat.mod_mod_of_dvd _ (by decide)]
  simp only [sx, ux, Int.ofNat_eq_natCast]
  omega

section Filter

variable {d : Dev} {nn : Fin 16} {f : Fin 4} {sum edge : Nat}

/-- A result that comes at another edge than the last, to a cell that is not measuring or not enabled, or before the filter has settled. -/
theorem filterResult_none (hu : unitBlk nn ∉ d.undef)
    (h : edge ≠ fcEdge d nn f ∨ d.fld FcCfg.MODE (nn, f) = 0 ∨ d.fld FcCfg.OSR (nn, f) = 0 ∨
    edge % d.fld FcCfg.OSR (nn, f) ≠ 0 ∨ fcDown d nn f = true ∨
    ((vget (d.b nn).flt f).mainWait = true ∧ edgesSince (vget (d.b nn).flt f).fromEdge edge < 3 * d.fld FcCfg.OSR (nn, f))) :
    Gives (.filterResult nn f sum edge) d d := by
  intro rest
  show execFilterResult nn f sum edge ⟨rest, d⟩ = _
  rw [execFilterResult, onBlock_known hu]
  dsimp only
  split
  · rfl
  · next hgo =>
    push Not at hgo
    obtain ⟨rfl, hmode, hosr, hmod, hdown⟩ := hgo
    rw [if_pos (by simpa [hmode, hosr, hmod, hdown] using h)]

theorem fastResult_none (hu : unitBlk nn ∉ d.undef)
    (h : edge ≠ fcEdge d nn f ∨ d.fld FcCfg.MODE (nn, f) ≠ 1 ∨ d.fld FcCfg.FOSR (nn, f) = 0 ∨
    edge % d.fld FcCfg.FOSR (nn, f) ≠ 0 ∨ fcDown d nn f = true ∨
    ((vget (d.b nn).flt f).fastWait = true ∧ edgesSince (vget (d.b nn).flt f).fromEdge edge < 2 * d.fld FcCfg.FOSR (nn, f))) :
    Gives (.fastResult nn f sum edge) d d := by
  intro rest
  show execFastResult nn f sum edge ⟨rest, d⟩ = _
  rw [execFastResult, onBlock_known hu]
  dsimp only
  split
  · rfl
  · next hgo =>
    push Not at hgo
    obtain ⟨rfl, hmode, hosr, hmod, hdown⟩ := hgo
    rw [if_pos (by simpa [hmode, hosr, hmod, hdown] using h)]

/-- The device after a main result of a cell that has settled. -/
def resultStored (d : Dev) (nn : Fin 16) (f : Fin 4) (r : Int) : Dev :=
  ((onF d nn f fun x => { x with mainWait := false, fill := false }).putS FcRes.V (nn, f) r).flag FcStat.VALID (nn, f)

theorem filterResult_stored (hu : unitBlk nn ∉ d.undef) (hmode : d.fld FcCfg.MODE (nn, f) ≠ 0) (hosr : d.fld FcCfg.OSR (nn, f) ≠ 0)
    (hedge : fcEdge d nn f % d.fld FcCfg.OSR (nn, f) = 0) (hdown : fcDown d nn f = false)
    (hwait : (vget (d.b nn).flt f).mainWait = false ∨ 3 * d.fld FcCfg.OSR (nn, f) ≤ edgesSince (vget (d.b nn).flt f).fromEdge (fcEdge d nn f)) :
    let n := d.fld FcCfg.OSR (nn, f)
    Gives (.filterResult nn f sum (fcEdge d nn f)) d (resultStored d nn f (sincRes sum (n * n * n))) := by
  intro n rest
  show execFilterResult nn f sum (fcEdge d nn f) ⟨rest, d⟩ = _
  rw [execFilterResult, onBlock_known hu]
  dsimp only
  have hgo : ¬ ((vget (d.b nn).flt f).mainWait = true ∧
      edgesSince (vget (d.b nn).flt f).fromEdge (fcEdge d nn f) < 3 * d.fld FcCfg.OSR (nn, f)) := by
    rintro ⟨hw, hlt⟩
    rcases hwait with h | h
    · simp [h] at hw
    · omega
  rw [if_neg (by simp [hmode, hosr, hedge, hdown]), if_neg hgo]
  rfl

theorem resultStored_effect (d : Dev) (nn : Fin 16) (f : Fin 4) (x : Int) : let t := resultStored d nn f (satF20 x)
    t.sfld FcRes.V (nn, f) = satF20 x ∧ t.bit FcStat.VALID (nn, f) = true ∧ OnlyBlock nn [FcRes.addr (nn, f), FcStat.addr (nn, f)] d t ∧
    t.evq = d.evq ∧ t.reg (FcStat.addr (nn, f)) = (d.flag FcStat.VALID (nn, f)).reg (FcStat.addr (nn, f)) ∧ (t.b nn).leg = (d.b nn).leg := by
  intro t
  let y := onF d nn f fun x => { x with mainWait := false, fill := false }
  let z := y.putS FcRes.V (nn, f) (satF20 x)
  have hne : FcRes.addr (nn, f) ≠ FcStat.addr (nn, f) := by simp [FcRes.addr, FcStat.addr]
  have hz : OnlyBlock nn [FcRes.addr (nn, f), FcStat.addr (nn, f)] d z := onlyBlock_onB.trans (onlyRegs_setReg (by simp [FcRes.V])).onlyBlock
  have hstat : z.reg (FcStat.addr (nn, f)) = d.reg (FcStat.addr (nn, f)) := Dev.reg_setReg_ne _ _ _ _ hne.symm
  refine ⟨?_, Dev.bit_flag_self _ _ _ (by decide) rfl, hz.trans (onlyRegs_flag (by simp [FcStat.VALID])).onlyBlock, rfl,
    Dev.reg_put_congr (f := FcStat.VALID) (i := (nn, f)) hstat, ?_⟩
  · have hres : t.sfld FcRes.V (nn, f) = z.sfld FcRes.V (nn, f) := by
      rw [Dev.sfld, Dev.sfld, ← Dev.fld_put_addr z FcStat.VALID (nn, f) FcRes.V (nn, f) 1 hne]
      rfl
    obtain ⟨hmin, hmax⟩ := satF20_range x
    rw [hres, Dev.sfld_putS _ _ _ rfl rfl hmin hmax]
  · show ((d.onB nn _).b nn).leg = _
    rw [Dev.b_onB_self]

end Filter

end Sys2Proof.Machine

/-! ### Comparators of a filter cell (R186, R188) -/

namespace Sys2Proof.Machine

/-- The bits of FCf.STAT that belong to the low or to the high comparator. -/
def cmpBits (lo : Bool) (b : Nat) : Prop := if lo then b = 2 ∨ b = 5 ∨ 24 ≤ b else b = 1 ∨ b = 4 ∨ (16 ≤ b ∧ b < 24)

/-- What one comparator of a cell leaves: all but its own bits and what a quench writes. -/
def cmpKeep (nn : Fin 16) (f : Fin 4) (lo : Bool) (a b : Nat) : Prop :=
  a ∉ TwStat.addr () :: latchRegs nn ∧ (a = FcStat.addr (nn, f) → ¬ cmpBits lo b)

theorem latchLoose_cmpKeep (nn : Fin 16) (f : Fin 4) (lo : Bool) : LatchLoose (cmpKeep nn f lo) nn :=
  ⟨fun _ ha _ hK => hK.1 (List.mem_cons_of_mem _ ha), fun hK => hK.1 (by simp)⟩

/-- A register that no quench of block nn writes, by what it is not. -/
theorem notMem_latchRegs {nn : Fin 16} {a : Nat} (hlow : a ≠ 0x50000 ∧ a ≠ 0x188)
    (hblk : ∀ o, o < 0x2000 → a ≠ blockBase nn + o) : a ∉ TwStat.addr () :: latchRegs nn := by
  have hin (l : Fin 3) := hblk (0x1000 + l.val * 0x400 + 0x18) (by omega)
  have h0 := hblk 0 (by decide)
  have h4 := hblk 4 (by decide)
  have hc := hblk 0x78 (by decide)
  have hs := hblk 0x74 (by decide)
  simp only [latchRegs, quenchRegs, TwStat.addr, Qcause.addr, Qstat.addr, FltCnt.addr, LcAcc.addr, BkStat.addr, BkCtl.addr, List.mem_cons,
    List.mem_append, List.mem_map, List.not_mem_nil, or_false, not_or, not_exists, not_and]
  exact ⟨hlow.1, ⟨hc, hs, hlow.2, fun l _ => by have := hin l; omega⟩, h4, h0⟩

/-- Registers of a filter cell are none that a quench of their block writes. -/
theorem cell_notMem_latchRegs {nn : Fin 16} {a : Nat} (hlo : blockBase nn + 0x2000 ≤ a) : a ∉ TwStat.addr () :: latchRegs nn :=
  notMem_latchRegs (by unfold blockBase at hlo; omega) fun o ho => by omega

theorem fcStat_notMem_latchRegs (nn : Fin 16) (f : Fin 4) : FcStat.addr (nn, f) ∉ TwStat.addr () :: latchRegs nn :=
  cell_notMem_latchRegs (by simp only [FcStat.addr]; omega)

section Comparator

variable {d x : Dev} {nn : Fin 16} {f : Fin 4} {lo : Bool}

/-- The comparator's level, its flag and its count. -/
def cmpFld (lo : Bool) : RF (Fin 16 × Fin 4) := if lo then FcStat.CMPLO else FcStat.CMPHI
def cmpSeen (lo : Bool) : RF (Fin 16 × Fin 4) := if lo then FcStat.LO_SEEN else FcStat.HI_SEEN
def cmpCnt (lo : Bool) : RF (Fin 16 × Fin 4) := if lo then FcStat.LOCNT else FcStat.HICNT
def cmpMap (lo : Bool) : RF (Fin 16 × Fin 4) := if lo then FcCfg.QLO else FcCfg.QHI

/-- The comparator's level taken, as its inputs for a sense interval see it. -/
def cmpMoved (d : Dev) (nn : Fin 16) (f : Fin 4) (lo on : Bool) : Dev := senseEdge (d.putB (cmpFld lo) (nn, f) on) nn (cmpIx f lo) on

/-- An assertion counted. -/
def cmpCounted (d : Dev) (nn : Fin 16) (f : Fin 4) (lo : Bool) : Dev :=
  ((cmpMoved d nn f lo true).flag (cmpSeen lo) (nn, f)).incSat (cmpCnt lo) (nn, f)

theorem setCmp_eq (d : Dev) (nn : Fin 16) (f : Fin 4) (lo on : Bool) : setCmp d nn f lo on =
    if d.bit (cmpFld lo) (nn, f) == on then d else if !on then cmpMoved d nn f lo on
    else if (cmpCounted d nn f lo).bit (cmpMap lo) (nn, f) then quench (cmpCounted d nn f lo) nn (2 ^ (4 + f.val)) else cmpCounted d nn f lo := by
  rw [setCmp, cmpCounted]
  cases lo <;> cases on <;> rfl

theorem cmpFld_beside (g : RF (Fin 16 × Fin 4)) (hg : g = cmpFld lo ∨ g = cmpSeen lo ∨ g = cmpCnt lo) :
    g.lo + g.len ≤ 32 ∧ ∀ b, g.lo ≤ b → b < g.lo + g.len → ¬ cmpKeep nn f lo (g.addr (nn, f)) b := by
  rcases hg with rfl | rfl | rfl <;> cases lo <;>
    exact ⟨by decide, fun b hb hb' hK => hK.2 rfl (by simp [cmpFld, cmpSeen, cmpCnt, FcStat.CMPLO, FcStat.CMPHI, FcStat.LO_SEEN,
      FcStat.HI_SEEN, FcStat.LOCNT, FcStat.HICNT, cmpBits] at hb hb' ⊢; omega)⟩

theorem aside_cmpMoved {on : Bool} (h : Aside (cmpKeep nn f lo) (· ≠ nn) d x) : Aside (cmpKeep nn f lo) (· ≠ nn) d (cmpMoved x nn f lo on) := by
  obtain ⟨hl, ha⟩ := cmpFld_beside (nn := nn) (f := f) (cmpFld lo) (.inl rfl)
  exact (h.putBits hl ha).onB (by simp)

theorem aside_cmpCounted (h : Aside (cmpKeep nn f lo) (· ≠ nn) d x) : Aside (cmpKeep nn f lo) (· ≠ nn) d (cmpCounted x nn f lo) := by
  obtain ⟨hl, ha⟩ := cmpFld_beside (nn := nn) (f := f) (cmpSeen lo) (.inr (.inl rfl))
  obtain ⟨hl', ha'⟩ := cmpFld_beside (nn := nn) (f := f) (cmpCnt lo) (.inr (.inr rfl))
  exact ((aside_cmpMoved h).flagBits hl ha).incSatBits hl' ha'

theorem aside_setCmp {on : Bool} (h : Aside (cmpKeep nn f lo) (· ≠ nn) d x) : Aside (cmpKeep nn f lo) (· ≠ nn) d (setCmp x nn f lo on) := by
  rw [setCmp_eq]
  exact Aside.ite h (Aside.ite (aside_cmpMoved h)
    (Aside.ite (aside_quench (aside_cmpCounted h) (latchLoose_cmpKeep nn f lo) (by simp)) (aside_cmpCounted h)))

/-- An assertion sets the level and its flag and counts. -/
theorem cmpCounted_effect (d : Dev) (nn : Fin 16) (f : Fin 4) (lo : Bool) : let t := cmpCounted d nn f lo
    t.bit (cmpFld lo) (nn, f) = true ∧ t.bit (cmpSeen lo) (nn, f) = true ∧
    t.fld (cmpCnt lo) (nn, f) = min (d.fld (cmpCnt lo) (nn, f) + 1) (2 ^ (cmpCnt lo).len - 1) := by
  intro t
  let y := d.putB (cmpFld lo) (nn, f) true
  let z := (cmpMoved d nn f lo true).put (cmpSeen lo) (nn, f) 1
  have hlen : (cmpFld lo).len = 1 ∧ (cmpSeen lo).len = 1 ∧ (cmpCnt lo).len = 8 := by cases lo <;> exact ⟨rfl, rfl, rfl⟩
  have hin : (cmpFld lo).lo + 1 ≤ 32 ∧ (cmpSeen lo).lo + 1 ≤ 32 ∧ (cmpCnt lo).lo + 8 ≤ 32 := by cases lo <;> decide
  have happart : ((cmpSeen lo).lo + 1 ≤ (cmpFld lo).lo ∨ (cmpFld lo).lo + 1 ≤ (cmpSeen lo).lo) ∧
      (cmpCnt lo).lo + 8 ≤ (cmpFld lo).lo ∨ (cmpFld lo).lo + 1 ≤ (cmpCnt lo).lo := by cases lo <;> decide
  have h1 (v : Nat) : (z.put (cmpCnt lo) (nn, f) v).fld (cmpFld lo) (nn, f) = y.fld (cmpFld lo) (nn, f) := by
    rw [Dev.fld_put_bits _ _ _ _ _ _ (by omega) (by cases lo <;> decide)]
    exact Dev.fld_put_bits y _ _ _ _ _ (by omega) (by cases lo <;> decide)
  have h2 (v : Nat) : (z.put (cmpCnt lo) (nn, f) v).fld (cmpSeen lo) (nn, f) = z.fld (cmpSeen lo) (nn, f) :=
    Dev.fld_put_bits _ _ _ _ _ _ (by omega) (by cases lo <;> decide)
  have h3 : z.fld (cmpCnt lo) (nn, f) = d.fld (cmpCnt lo) (nn, f) := by
    refine (Dev.fld_put_bits y _ _ _ _ _ (by omega) (by cases lo <;> decide)).trans ?_
    exact Dev.fld_put_bits d _ _ _ _ _ (by omega) (by cases lo <;> decide)
  refine ⟨?_, ?_, ?_⟩
  · show ((z.put (cmpCnt lo) (nn, f) _).fld (cmpFld lo) (nn, f) != 0) = true
    rw [h1]
    exact Dev.bit_putB_self d _ _ true (by omega) hlen.1
  · show ((z.put (cmpCnt lo) (nn, f) _).fld (cmpSeen lo) (nn, f) != 0) = true
    rw [h2, Dev.fld_put_self _ _ _ _ (by omega), hlen.2.1]
    rfl
  · show (z.put (cmpCnt lo) (nn, f) (min (z.fld (cmpCnt lo) (nn, f) + 1) (2 ^ (cmpCnt lo).len - 1))).fld (cmpCnt lo) (nn, f) = _
    rw [Dev.fld_put_self _ _ _ _ (by omega), h3, hlen.2.2]
    omega

/-- What a cell's comparator leaves includes the whole of its status register where a quench follows. -/
theorem fcStat_quench (m : Nat) (g : RF (Fin 16 × Fin 4)) (hg : g.addr = FcStat.addr) : (quench d nn m).fld g (nn, f) = d.fld g (nn, f) := by
  have h : Aside (fun a _ => a ∉ TwStat.addr () :: latchRegs nn) noBlk d (quench d nn m) :=
    aside_quench .refl ⟨fun _ ha _ hK => hK (List.mem_cons_of_mem _ ha), fun hK => hK (by simp)⟩ not_false
  exact h.fld fun _ _ _ => by rw [hg]; exact fcStat_notMem_latchRegs nn f

/-- A comparator that asserts. -/
theorem setCmp_asserts (hoff : d.bit (cmpFld lo) (nn, f) = false) : let t := setCmp d nn f lo true
    t.bit (cmpFld lo) (nn, f) = true ∧ t.bit (cmpSeen lo) (nn, f) = true ∧
    t.fld (cmpCnt lo) (nn, f) = min (d.fld (cmpCnt lo) (nn, f) + 1) (2 ^ (cmpCnt lo).len - 1) ∧
    (d.bit (cmpMap lo) (nn, f) = true → t.bit Qstat.LATCH nn = true ∧ (t.fld Qcause.CAUSE nn).testBit (4 + f.val) = true) := by
  intro t
  obtain ⟨hlvl, hseen, hcnt⟩ := cmpCounted_effect d nn f lo
  have haddr : (cmpFld lo).addr = FcStat.addr ∧ (cmpSeen lo).addr = FcStat.addr ∧ (cmpCnt lo).addr = FcStat.addr := by
    cases lo <;> exact ⟨rfl, rfl, rfl⟩
  have hmap : (cmpCounted d nn f lo).bit (cmpMap lo) (nn, f) = d.bit (cmpMap lo) (nn, f) := by
    have hcfg : (cmpMap lo).addr (nn, f) = FcCfg.addr (nn, f) := by cases lo <;> rfl
    refine (aside_cmpCounted (.refl (K := cmpKeep nn f lo))).bit fun b _ _ => ⟨?_, ?_⟩ <;> rw [hcfg]
    · exact cell_notMem_latchRegs (by simp only [FcCfg.addr]; omega)
    · simp [FcCfg.addr, FcStat.addr]
  have ht : t = if d.bit (cmpMap lo) (nn, f) then quench (cmpCounted d nn f lo) nn (2 ^ (4 + f.val)) else cmpCounted d nn f lo := by
    simp [t, setCmp_eq, hoff, hmap]
  rw [ht]
  split
  · next hq =>
    obtain ⟨hlatch, hcause, -⟩ := quench_sets (d := cmpCounted d nn f lo) (nn := nn) (b := 4 + f.val) (by omega)
    refine ⟨?_, ?_, ?_, fun _ => ⟨hlatch, hcause⟩⟩
    · rw [Dev.bit_eq, fcStat_quench _ _ haddr.1]
      exact hlvl
    · rw [Dev.bit_eq, fcStat_quench _ _ haddr.2.1]
      exact hseen
    · rw [fcStat_quench _ _ haddr.2.2, hcnt]
  · next hq => exact ⟨hlvl, hseen, hcnt, fun h => absurd h hq⟩

end Comparator

end Sys2Proof.Machine

/-! ### A fast result judged by both comparators (R186) -/

namespace Sys2Proof.Machine

/-! #### A quench leaves the filter cells' counts -/

/-- The filter cells of block nn keep what they count. -/
structure SameFlt (nn : Fin 16) (d t : Dev) : Prop where
  flt : (t.b nn).flt = (d.b nn).flt

section Cells

variable {d x y : Dev} {nn : Fin 16}

theorem SameFlt.regs (h : SameFlt nn d x) (hb : y.blk = x.blk) : SameFlt nn d y :=
  ⟨(congrArg (fun v : Vector Blk 16 => (vget v nn).flt) hb).trans h.flt⟩

theorem SameFlt.raise {src j : Nat} (h : SameFlt nn d x) : SameFlt nn d (x.raise src j) := ⟨h.flt⟩

theorem SameFlt.refl : SameFlt nn d d := ⟨rfl⟩

theorem SameFlt.onB {u : Blk → Blk} (h : SameFlt nn d x) (hu : ∀ b, (u b).flt = b.flt) : SameFlt nn d (x.onB nn u) := by
  refine ⟨?_⟩
  rw [Dev.b_onB_self, hu]
  exact h.flt

theorem SameFlt.ite {c : Prop} [Decidable c] (hx : SameFlt nn d x) (hy : SameFlt nn d y) : SameFlt nn d (if c then x else y) := by
  split <;> assumption

theorem SameFlt.forAll {n : Nat} {g : Dev → Fin n → Dev} (h : SameFlt nn d x) (hg : ∀ z j, SameFlt nn z (g z j)) :
    SameFlt nn d (Machine.forAll x g) :=
  forAll_induction (fun _ z => SameFlt nn d z) h fun j z hz => ⟨(hg z j).flt.trans hz.flt⟩

theorem sameFlt_legsSafe (h : SameFlt nn d x) : SameFlt nn d (legsSafe x nn) := h.forAll fun _ _ => SameFlt.refl.onB fun _ => rfl

theorem sameFlt_setSafe {c : Bool} (h : SameFlt nn d x) : SameFlt nn d (setSafe x nn c) := by
  have hset : SameFlt nn d (x.putB Qstat.SAFESET nn (s1Wanted x nn)) := h.regs rfl
  have hsafe := sameFlt_legsSafe hset
  exact .ite (.ite (hsafe.forAll fun _ _ => SameFlt.refl.onB fun _ => rfl) hsafe) (.ite hsafe hset)

theorem sameFlt_quenchState (h : SameFlt nn d x) : SameFlt nn d (quenchState x nn) := by
  unfold quenchState
  extract_lets st y z w
  have hy : SameFlt nn d y := .ite (h.regs rfl) h
  have hw : SameFlt nn d w := (hy.regs (y := z) rfl).onB fun _ => rfl
  exact .ite (hw.regs rfl) hy

theorem sameFlt_clearUndo (h : SameFlt nn d x) : SameFlt nn d (clearUndo x nn) := by
  unfold clearUndo
  split
  · next t st set legs _ =>
    let z := (((x.flag Qstat.LATCH nn).putB Qstat.SAFESET nn set).flag Qstat.CLEAR_REFUSED nn).put BkStat.STATE nn st
    exact .ite h ((h.regs (y := z) rfl).onB fun _ => rfl)
  · exact h

theorem sameFlt_legsForget (h : SameFlt nn d x) : SameFlt nn d (legsForget x nn) := h.forAll fun _ _ => SameFlt.refl.regs rfl

theorem sameFlt_quenchNew {m : Nat} (h : SameFlt nn d x) : SameFlt nn d (quenchNew x nn m) := by
  unfold quenchNew
  extract_lets first recorded
  have hset : SameFlt nn d (x.onB nn fun b => { b with qSet := some x.clk }) := h.onB fun _ => rfl
  have hrec : SameFlt nn d recorded := sameFlt_legsForget (hset.regs rfl)
  exact .ite (hrec.regs rfl) hrec

theorem sameFlt_quenchRecord {m : Nat} (h : SameFlt nn d x) : SameFlt nn d (quenchRecord x nn m) := by
  unfold quenchRecord
  extract_lets was y
  have hy : SameFlt nn d y := h.regs rfl
  exact .ite (.ite (hy.regs rfl) hy) (sameFlt_quenchNew hy)

theorem sameFlt_quench {m : Nat} (h : SameFlt nn d x) : SameFlt nn d (quench x nn m) := by
  rw [quench_eq]
  refine SameFlt.ite h ?_
  have hnote : SameFlt nn d (causesNote (clearUndo x nn) nn m) := (sameFlt_clearUndo h).onB fun _ => rfl
  have hend := sameFlt_quenchState (sameFlt_setSafe (c := !(causesNote (clearUndo x nn) nn m).bit Qstat.LATCH nn)
    (sameFlt_quenchRecord (m := m) hnote))
  exact SameFlt.ite hend hend.raise

theorem sameFlt_setCmp {f : Fin 4} {lo on : Bool} (h : SameFlt nn d x) : SameFlt nn d (setCmp x nn f lo on) := by
  have hmoved (u : Bool) : SameFlt nn d (cmpMoved x nn f lo u) := (h.regs (y := x.putB (cmpFld lo) (nn, f) u) rfl).onB fun _ => rfl
  have hcounted : SameFlt nn d (cmpCounted x nn f lo) := (hmoved true).regs rfl
  rw [setCmp_eq]
  exact .ite h (.ite (hmoved on) (.ite (sameFlt_quench hcounted) hcounted))

end Cells

/-! #### One comparator judged -/

section Judge

variable {d x : Dev} {nn : Fin 16} {f : Fin 4} {lo : Bool} {r : Int}

/-- The threshold of a comparator, whether a result is beyond it, and how many results toward asserting it has counted. -/
def cmpThr (lo : Bool) : RF (Fin 16 × Fin 4) := if lo then FcThrLo.V else FcThrHi.V
def cmpOver (d : Dev) (nn : Fin 16) (f : Fin 4) (lo : Bool) (r : Int) : Bool :=
  if lo then decide (r < sx 20 (d.fld (cmpThr lo) (nn, f))) else decide (r > sx 20 (d.fld (cmpThr lo) (nn, f)))
def cmpUp (x : Flt) (lo : Bool) : Nat := if lo then x.upLo else x.upHi

/-- The counts of results that one comparator keeps, with the one judged now. -/
def cmpTallied (d : Dev) (nn : Fin 16) (f : Fin 4) (lo : Bool) (r : Int) : Dev :=
  let hys := sx 20 (d.fld FcHys.V (nn, f))
  let thr := sx 20 (d.fld (cmpThr lo) (nn, f))
  let rel := if lo then decide (r ≥ thr + hys) else decide (r ≤ thr - hys)
  let x := vget (d.b nn).flt f
  let up := if cmpOver d nn f lo r then min (cmpUp x lo + 1) 4 else 0
  let dn := if rel then min ((if lo then x.dnLo else x.dnHi) + 1) 4 else 0
  onF d nn f fun x => if lo then { x with upLo := up, dnLo := dn } else { x with upHi := up, dnHi := dn }

/-- A result judged is tallied, and may move the comparator: it asserts only where the result is beyond the threshold. -/
theorem judgeCmp_cases (d : Dev) (nn : Fin 16) (f : Fin 4) (lo : Bool) (r : Int) :
    (judgeCmp d nn f lo r = setCmp (cmpTallied d nn f lo r) nn f lo true ∧ cmpOver d nn f lo r = true) ∨
    ((judgeCmp d nn f lo r = setCmp (cmpTallied d nn f lo r) nn f lo false ∨ judgeCmp d nn f lo r = cmpTallied d nn f lo r) ∧
      ¬ (cmpOver d nn f lo r = true ∧ d.fld FcCfg.FQUAL (nn, f) + 1 ≤ cmpUp (vget (d.b nn).flt f) lo + 1)) := by
  have hq : d.fld FcCfg.FQUAL (nn, f) < 4 := Dev.fld_lt _ _ _
  unfold judgeCmp cmpTallied
  cases lo <;> simp only [cmpOver, cmpThr, cmpUp, Bool.false_eq_true, if_true, if_false] <;> split_ifs <;> simp_all

theorem aside_judgeCmp (h : Aside (cmpKeep nn f lo) (· ≠ nn) d x) : Aside (cmpKeep nn f lo) (· ≠ nn) d (judgeCmp x nn f lo r) := by
  have htally : Aside (cmpKeep nn f lo) (· ≠ nn) d (cmpTallied x nn f lo r) := h.onB (by simp)
  rcases judgeCmp_cases x nn f lo r with ⟨hj, -⟩ | ⟨hj | hj, -⟩ <;> rw [hj]
  · exact aside_setCmp htally
  · exact aside_setCmp htally
  · exact htally

theorem judgeCmp_asserts (hover : cmpOver d nn f lo r = true) (hq : d.fld FcCfg.FQUAL (nn, f) + 1 ≤ cmpUp (vget (d.b nn).flt f) lo + 1)
    (hoff : d.bit (cmpFld lo) (nn, f) = false) : let t := judgeCmp d nn f lo r
    t.bit (cmpFld lo) (nn, f) = true ∧ t.bit (cmpSeen lo) (nn, f) = true ∧
    t.fld (cmpCnt lo) (nn, f) = min (d.fld (cmpCnt lo) (nn, f) + 1) (2 ^ (cmpCnt lo).len - 1) ∧
    (d.bit (cmpMap lo) (nn, f) = true → t.bit Qstat.LATCH nn = true ∧ (t.fld Qcause.CAUSE nn).testBit (4 + f.val) = true) := by
  intro t
  rcases judgeCmp_cases d nn f lo r with ⟨hj, -⟩ | ⟨-, hno⟩
  · rw [show t = _ from hj]
    exact setCmp_asserts (d := cmpTallied d nn f lo r) hoff
  · exact absurd ⟨hover, hq⟩ hno

/-- A comparator that a result does not reach does not assert. -/
theorem judgeCmp_stays (hover : cmpOver d nn f lo r = false) (hoff : d.bit (cmpFld lo) (nn, f) = false) :
    (judgeCmp d nn f lo r).bit (cmpFld lo) (nn, f) = false := by
  rcases judgeCmp_cases d nn f lo r with ⟨-, hyes⟩ | ⟨hj | hj, -⟩
  · simp [hover] at hyes
  · have hoff' : (cmpTallied d nn f lo r).bit (cmpFld lo) (nn, f) = false := hoff
    rw [hj, setCmp_eq, hoff', if_pos BEq.rfl]
    exact hoff'
  · rw [hj]
    exact hoff

/-- No comparator takes a recorded cause away. -/
theorem setCmp_latched {on : Bool} {b : Nat} (hlatch : d.bit Qstat.LATCH nn = true) (hcause : (d.fld Qcause.CAUSE nn).testBit b = true) :
    (setCmp d nn f lo on).bit Qstat.LATCH nn = true ∧ ((setCmp d nn f lo on).fld Qcause.CAUSE nn).testBit b = true := by
  have hstat : FcStat.addr (nn, f) ≠ Qcause.addr nn ∧ FcStat.addr (nn, f) ≠ Qstat.addr nn := by
    simp only [FcStat.addr, Qcause.addr, Qstat.addr]
    omega
  have hloose : Loose (latchBits nn) (FcStat.addr (nn, f)) := loose_latchBits hstat.1 hstat.2
  have hfld (g : RF (Fin 16 × Fin 4)) (hg : g = cmpFld lo ∨ g = cmpSeen lo ∨ g = cmpCnt lo) : g.addr (nn, f) = FcStat.addr (nn, f) := by
    rcases hg with rfl | rfl | rfl <;> cases lo <;> rfl
  have hmoved (u : Bool) : Aside (latchBits nn) noBlk d (cmpMoved d nn f lo u) :=
    (Aside.refl.putB (by rw [hfld _ (.inl rfl)]; exact hloose)).onB not_false
  have hcounted : Aside (latchBits nn) noBlk d (cmpCounted d nn f lo) :=
    ((hmoved true).flag (by rw [hfld _ (.inr (.inl rfl))]; exact hloose)).incSat (by rw [hfld _ (.inr (.inr rfl))]; exact hloose)
  have hkept {x : Dev} (h : Aside (latchBits nn) noBlk d x) : x.bit Qstat.LATCH nn = true ∧ (x.fld Qcause.CAUSE nn).testBit b = true := by
    rw [h.latch.1, h.latch.2]
    exact ⟨hlatch, hcause⟩
  rw [setCmp_eq]
  split_ifs
  · exact ⟨hlatch, hcause⟩
  · exact hkept (hmoved on)
  · obtain ⟨hset, -, hold⟩ := quench_sets (d := cmpCounted d nn f lo) (nn := nn) (b := 4 + f.val) (by omega)
    exact ⟨hset, hold (hkept hcounted).1 b (hkept hcounted).2⟩
  · exact hkept hcounted

theorem judgeCmp_latched {b : Nat} (hlatch : d.bit Qstat.LATCH nn = true) (hcause : (d.fld Qcause.CAUSE nn).testBit b = true) :
    (judgeCmp d nn f lo r).bit Qstat.LATCH nn = true ∧ ((judgeCmp d nn f lo r).fld Qcause.CAUSE nn).testBit b = true := by
  rcases judgeCmp_cases d nn f lo r with ⟨hj, -⟩ | ⟨hj | hj, -⟩ <;> rw [hj]
  · exact setCmp_latched (d := cmpTallied d nn f lo r) hlatch hcause
  · exact setCmp_latched (d := cmpTallied d nn f lo r) hlatch hcause
  · exact ⟨hlatch, hcause⟩

/-- What the low comparator counts toward asserting is no matter of the high one. -/
theorem judgeCmp_upLo : (vget ((judgeCmp d nn f false r).b nn).flt f).upLo = (vget (d.b nn).flt f).upLo := by
  have htally : (vget ((cmpTallied d nn f false r).b nn).flt f).upLo = (vget (d.b nn).flt f).upLo := by
    unfold cmpTallied onF
    rw [Dev.b_onB_self, vget_vmod_self]
    rfl
  rcases judgeCmp_cases d nn f false r with ⟨hj, -⟩ | ⟨hj | hj, -⟩ <;> rw [hj]
  · rw [(sameFlt_setCmp (lo := false) (f := f) (on := true) .refl).flt]
    exact htally
  · rw [(sameFlt_setCmp (lo := false) (f := f) (on := false) .refl).flt]
    exact htally
  · exact htally

/-! #### A fast result -/

/-- The device after a fast result of a cell that has settled. -/
def fastStored (d : Dev) (nn : Fin 16) (f : Fin 4) (r : Int) : Dev :=
  judgeCmp (judgeCmp (d.putS FcFres.V (nn, f) r) nn f false r) nn f true r

theorem fastResult_stored {sum : Nat} (hu : unitBlk nn ∉ d.undef) (hmode : d.fld FcCfg.MODE (nn, f) = 1) (hosr : d.fld FcCfg.FOSR (nn, f) ≠ 0)
    (hedge : fcEdge d nn f % d.fld FcCfg.FOSR (nn, f) = 0) (hdown : fcDown d nn f = false) (hwait : (vget (d.b nn).flt f).fastWait = false) :
    let m := d.fld FcCfg.FOSR (nn, f)
    Gives (.fastResult nn f sum (fcEdge d nn f)) d (fastStored d nn f (sincRes sum (m * m))) := by
  intro m rest
  show execFastResult nn f sum (fcEdge d nn f) ⟨rest, d⟩ = _
  rw [execFastResult, onBlock_known hu]
  dsimp only
  rw [if_neg (by simp [hmode, hosr, hedge, hdown]), if_neg (by simp [hwait])]
  simp only [hwait, Bool.false_and, Bool.false_eq_true, if_false]
  rfl

/-- Registers of the cell that no comparator writes. -/
theorem fastStored_fld {g : RF (Fin 16 × Fin 4)} (hlo : blockBase nn + 0x2000 ≤ g.addr (nn, f))
    (hne : g.addr (nn, f) ≠ FcStat.addr (nn, f)) : (judgeCmp d nn f lo r).fld g (nn, f) = d.fld g (nn, f) :=
  (aside_judgeCmp (lo := lo) .refl).fld fun _ _ _ => ⟨cell_notMem_latchRegs hlo, fun h => absurd h hne⟩

theorem fastStored_effect (d : Dev) (nn : Fin 16) (f : Fin 4) (s : Int) : let r := satF20 s
    let t := fastStored d nn f r
    let q := d.fld FcCfg.FQUAL (nn, f) + 1
    t.sfld FcFres.V (nn, f) = r ∧ (∀ k, k ≠ nn → t.b k = d.b k) ∧
    (r > d.sfld FcThrHi.V (nn, f) → q ≤ (vget (d.b nn).flt f).upHi + 1 → d.bit FcStat.CMPHI (nn, f) = false →
      t.bit FcStat.CMPHI (nn, f) = true ∧ t.bit FcStat.HI_SEEN (nn, f) = true ∧
      t.fld FcStat.HICNT (nn, f) = min (d.fld FcStat.HICNT (nn, f) + 1) (2 ^ FcStat.HICNT.len - 1) ∧
      (d.bit FcCfg.QHI (nn, f) = true → t.bit Qstat.LATCH nn = true ∧ (t.fld Qcause.CAUSE nn).testBit (4 + f.val) = true)) ∧
    (r < d.sfld FcThrLo.V (nn, f) → q ≤ (vget (d.b nn).flt f).upLo + 1 → d.bit FcStat.CMPLO (nn, f) = false →
      t.bit FcStat.CMPLO (nn, f) = true ∧ t.bit FcStat.LO_SEEN (nn, f) = true ∧
      (d.bit FcCfg.QLO (nn, f) = true → t.bit Qstat.LATCH nn = true ∧ (t.fld Qcause.CAUSE nn).testBit (4 + f.val) = true)) ∧
    (r ≤ d.sfld FcThrHi.V (nn, f) → d.bit FcStat.CMPHI (nn, f) = false → t.bit FcStat.CMPHI (nn, f) = false) := by
  intro r t q
  let e := d.putS FcFres.V (nn, f) r
  let e1 := judgeCmp e nn f false r
  have hfres : e.sfld FcFres.V (nn, f) = r := Dev.sfld_putS _ _ _ rfl rfl (satF20_range s).1 (satF20_range s).2
  have hput (g : RF (Fin 16 × Fin 4)) (hg : g.addr (nn, f) ≠ FcFres.addr (nn, f)) : e.fld g (nn, f) = d.fld g (nn, f) :=
    Dev.fld_setReg_addr _ _ _ _ _ hg
  have hcfg (g : RF (Fin 16 × Fin 4)) (hg : g.addr = FcCfg.addr ∨ g.addr = FcThrHi.addr ∨ g.addr = FcThrLo.addr) :
      e.fld g (nn, f) = d.fld g (nn, f) ∧ e1.fld g (nn, f) = d.fld g (nn, f) := by
    have hat : blockBase nn + 0x2000 ≤ g.addr (nn, f) ∧ g.addr (nn, f) ≠ FcStat.addr (nn, f) ∧
        g.addr (nn, f) ≠ FcFres.addr (nn, f) := by
      rcases hg with hg | hg | hg <;> simp only [hg, FcCfg.addr, FcThrHi.addr, FcThrLo.addr, FcStat.addr, FcFres.addr] <;> omega
    obtain ⟨hlo, hstat, hres⟩ := hat
    exact ⟨hput g hres, (fastStored_fld hlo hstat).trans (hput g hres)⟩
  have hstat (g : RF (Fin 16 × Fin 4)) (hg : g.addr = FcStat.addr) : e.fld g (nn, f) = d.fld g (nn, f) :=
    hput g (by rw [hg]; simp [FcStat.addr, FcFres.addr])
  have hhigh : Aside (cmpKeep nn f false) (· ≠ nn) e e1 := aside_judgeCmp .refl
  have hlow : Aside (cmpKeep nn f true) (· ≠ nn) e1 t := aside_judgeCmp .refl
  have hback {g : RF (Fin 16 × Fin 4)} (hg : g = FcStat.CMPHI ∨ g = FcStat.HI_SEEN ∨ g = FcStat.HICNT) : t.fld g (nn, f) = e1.fld g (nn, f) :=
    hlow.fld fun b hb hb' => ⟨by rcases hg with rfl | rfl | rfl <;> exact fcStat_notMem_latchRegs nn f, fun _ hlo => by
      rcases hg with rfl | rfl | rfl <;> simp only [FcStat.CMPHI, FcStat.HI_SEEN, FcStat.HICNT, cmpBits, if_true] at hb hb' hlo <;> omega⟩
  have hfld : t.fld FcFres.V (nn, f) = e.fld FcFres.V (nn, f) := by
    have hne : FcFres.addr (nn, f) ≠ FcStat.addr (nn, f) := by simp [FcStat.addr, FcFres.addr]
    have hlo : blockBase nn + 0x2000 ≤ FcFres.addr (nn, f) := by
      simp only [FcFres.addr]
      omega
    exact (fastStored_fld hlo hne).trans (fastStored_fld hlo hne)
  have hquse : e.fld FcCfg.FQUAL (nn, f) + 1 = q ∧ e1.fld FcCfg.FQUAL (nn, f) + 1 = q := by
    obtain ⟨h1, h2⟩ := hcfg FcCfg.FQUAL (.inl rfl)
    rw [h1, h2]
    exact ⟨rfl, rfl⟩
  refine ⟨by rw [Dev.sfld, hfld]; exact hfres, fun k hk => (hlow.blks k hk).trans (hhigh.blks k hk), fun hr hq hoff => ?_, fun hr hq hoff => ?_,
    fun hr hoff => ?_⟩
  · have hover : cmpOver e nn f false r = true := by
      simp only [cmpOver, cmpThr, (hcfg FcThrHi.V (.inr (.inl rfl))).1, Bool.false_eq_true, if_false, decide_eq_true_eq]
      exact hr
    obtain ⟨hlvl, hseen, hcnt, hq'⟩ := judgeCmp_asserts (lo := false) hover (by rw [hquse.1]; exact hq)
      (by rw [Dev.bit_eq, hstat _ rfl]; exact hoff)
    refine ⟨?_, ?_, ?_, fun hmap => ?_⟩
    · rw [Dev.bit_eq, hback (.inl rfl)]
      exact hlvl
    · rw [Dev.bit_eq, hback (.inr (.inl rfl))]
      exact hseen
    · rw [hback (.inr (.inr rfl)), show e1.fld FcStat.HICNT (nn, f) = _ from hcnt]
      exact congrArg (fun x => min (x + 1) _) (hstat FcStat.HICNT rfl)
    · obtain ⟨hl, hc⟩ := hq' (by rw [Dev.bit_eq, (hcfg _ (.inl rfl)).1]; exact hmap)
      exact judgeCmp_latched hl hc
  · have hover : cmpOver e1 nn f true r = true := by
      simp only [cmpOver, cmpThr, (hcfg FcThrLo.V (.inr (.inr rfl))).2, if_true, decide_eq_true_eq]
      exact hr
    have hup : (vget (e1.b nn).flt f).upLo = (vget (d.b nn).flt f).upLo := judgeCmp_upLo
    have hlo1 : e1.fld FcStat.CMPLO (nn, f) = d.fld FcStat.CMPLO (nn, f) := by
      refine (hhigh.fld fun b hb hb' => ⟨fcStat_notMem_latchRegs nn f, fun _ hlo => ?_⟩).trans (hstat _ rfl)
      simp only [FcStat.CMPLO, cmpBits, Bool.false_eq_true, if_false] at hb hb' hlo
      omega
    obtain ⟨hlvl, hseen, -, hq'⟩ := judgeCmp_asserts (lo := true) hover (by rw [hquse.2]; exact hq.trans (by rw [← hup]; rfl))
      (by rw [Dev.bit_eq, show e1.fld (cmpFld true) (nn, f) = _ from hlo1]; exact hoff)
    exact ⟨hlvl, hseen, fun hmap => hq' (by rw [Dev.bit_eq, (hcfg _ (.inl rfl)).2]; exact hmap)⟩
  · have hover : cmpOver e nn f false r = false := by
      simp only [cmpOver, cmpThr, (hcfg FcThrHi.V (.inr (.inl rfl))).1, Bool.false_eq_true, if_false, decide_eq_false_iff_not]
      exact not_lt.2 hr
    rw [Dev.bit_eq, hback (.inl rfl)]
    exact judgeCmp_stays (lo := false) hover (by rw [Dev.bit_eq, hstat _ rfl]; exact hoff)

end Judge

end Sys2Proof.Machine

/-! ### Cells that stop and start measuring (R68, R189, R190) -/

namespace Sys2Proof.Machine

section Stop

variable {d x y : Dev} {nn : Fin 16} {f : Fin 4}

/-- What a cell that stops measuring leaves: all but its result, its status but BSTK, and what a quench writes. -/
def stopKeep (nn : Fin 16) (f : Fin 4) (a b : Nat) : Prop :=
  a ∉ TwStat.addr () :: latchRegs nn ∧ a ≠ FcRes.addr (nn, f) ∧ (a = FcStat.addr (nn, f) → b = 3)

/-- What the end of measuring leaves of the marks of a cell that it has set. -/
def markKeep (nn : Fin 16) (f : Fin 4) (a b : Nat) : Prop := a = FcStat.addr (nn, f) ∧ (b = 0 ∨ b = 6)

/-- The rest of the stop of a cell once it is marked. -/
def cellQuiet (d : Dev) (nn : Fin 16) (f : Fin 4) : Dev :=
  let x := onF d nn f fun x => { x with fill := false }
  let x := if d.fld FcCfg.MODE (nn, f) = 2 ∧ x.bit FcCfg.SPFAIL (nn, f) then x.setReg (FcRes.addr (nn, f)) 0 else x
  let x := x.raise (bkSrc nn (5 + f.val)) (x.lo16 FcStat.word (nn, f))
  if d.fld FcCfg.MODE (nn, f) = 1 ∧ x.bit FcCfg.CLKACT (nn, f) then setCmp (setCmp x nn f false true) nn f true true else x

/-- A cell marked as no longer valid. -/
def cellMarked (d : Dev) (nn : Fin 16) (f : Fin 4) : Dev := (d.clr FcStat.VALID (nn, f)).flag FcStat.INVAL_SEEN (nn, f)

theorem fcStop_eq (d : Dev) (nn : Fin 16) (f : Fin 4) :
    fcStop d nn f = if d.fld FcCfg.MODE (nn, f) = 0 ∨ !hasSec d nn then d else cellQuiet (cellMarked d nn f) nn f := by
  have hmode : (cellMarked d nn f).fld FcCfg.MODE (nn, f) = d.fld FcCfg.MODE (nn, f) := by
    have hne : FcCfg.MODE.addr (nn, f) ≠ FcStat.addr (nn, f) := by simp [FcCfg.MODE, FcCfg.addr, FcStat.addr]
    exact (Dev.fld_put_addr _ FcStat.INVAL_SEEN (nn, f) _ _ _ hne).trans (Dev.fld_put_addr _ FcStat.VALID (nn, f) _ _ _ hne)
  rw [fcStop, cellQuiet, hmode]
  rfl

theorem aside_cellQuiet {K : Nat → Nat → Prop} (hres : Loose K (FcRes.addr (nn, f))) (hcmp : ∀ lo a b, K a b → cmpKeep nn f lo a b) :
    Aside K (· ≠ nn) x (cellQuiet x nn f) := by
  unfold cellQuiet
  extract_lets filled zeroed raised
  have hfill : Aside K (· ≠ nn) x filled := Aside.refl.onB (by simp)
  have hraise : Aside K (· ≠ nn) x raised := (Aside.ite (hfill.setReg hres) hfill).raise
  have hmove {z : Dev} {lo : Bool} : Aside K (· ≠ nn) z (setCmp z nn f lo true) :=
    (aside_setCmp (lo := lo) .refl).mono (hcmp lo) fun _ h => h
  exact Aside.ite ((hraise.trans hmove).trans hmove) hraise

theorem aside_fcStop (h : Aside (stopKeep nn f) (· ≠ nn) d x) : Aside (stopKeep nn f) (· ≠ nn) d (fcStop x nn f) := by
  rw [fcStop_eq]
  have hmark : Aside (stopKeep nn f) (· ≠ nn) d (cellMarked x nn f) :=
    (h.putBits (f := FcStat.VALID) (by decide) fun b _ hb hK => absurd (hK.2.2 rfl) (by simp only [FcStat.VALID] at hb; omega)).flagBits
      (by decide) fun b hlo hb hK => absurd (hK.2.2 rfl) (by simp only [FcStat.INVAL_SEEN] at hlo; omega)
  refine Aside.ite h (hmark.trans (aside_cellQuiet (fun _ hK => hK.2.1 rfl) fun lo a b hK => ⟨hK.1, fun ha hb => ?_⟩))
  have h3 := hK.2.2 ha
  cases lo <;> simp only [cmpBits, Bool.false_eq_true, if_true, if_false] at hb <;> omega

/-- A cell in use that stops is marked as no longer valid. -/
theorem fcStop_marks (hmode : d.fld FcCfg.MODE (nn, f) ≠ 0) (hsec : hasSec d nn = true) :
    (fcStop d nn f).bit FcStat.VALID (nn, f) = false ∧ (fcStop d nn f).bit FcStat.INVAL_SEEN (nn, f) = true := by
  have hquiet : Aside (markKeep nn f) (· ≠ nn) (cellMarked d nn f) (cellQuiet (cellMarked d nn f) nn f) := by
    refine aside_cellQuiet (fun b hK => absurd hK.1 (by simp [FcRes.addr, FcStat.addr])) fun lo a b hK => ?_
    obtain ⟨rfl, hb⟩ := hK
    refine ⟨fcStat_notMem_latchRegs nn f, fun _ hcmp => ?_⟩
    cases lo <;> simp only [cmpBits, Bool.false_eq_true, if_true, if_false] at hcmp <;> omega
  rw [fcStop_eq, if_neg (by simp [hmode, hsec])]
  refine ⟨?_, ?_⟩
  · rw [hquiet.bit fun b _ hb => ⟨rfl, .inl (by simpa [FcStat.VALID] using hb)⟩, Dev.bit_eq, cellMarked,
      show ((d.clr FcStat.VALID (nn, f)).flag FcStat.INVAL_SEEN (nn, f)).fld FcStat.VALID (nn, f) = _ from
        Dev.fld_put_bits _ _ _ _ _ _ (by decide) (by decide)]
    exact Dev.bit_putB_self d FcStat.VALID (nn, f) false (by decide) rfl
  · rw [hquiet.bit fun b hlo hb => ⟨rfl, .inr (by simp [FcStat.INVAL_SEEN] at hlo hb; omega)⟩]
    exact Dev.bit_flag_self _ FcStat.INVAL_SEEN (nn, f) (by decide) rfl


/-! #### A bitstream that sticks (R189) -/

/-- BSTK stands through the stop of its cell, and so does what it was. -/
theorem fcStop_bstk : (fcStop x nn f).bit FcStat.BSTK (nn, f) = x.bit FcStat.BSTK (nn, f) :=
  (aside_fcStop .refl).bit fun b hlo hb => ⟨fcStat_notMem_latchRegs nn f, by simp [FcStat.BSTK, FcRes.addr, FcStat.addr], fun _ => by
    simp only [FcStat.BSTK] at hlo hb
    omega⟩

theorem bitstreamStuck_none (hu : unitBlk nn ∉ d.undef) (h : d.bit FcStat.BSTK (nn, f) = true) : Gives (.bitstreamStuck nn f) d d := by
  intro rest
  show execBitstreamStuck nn f ⟨rest, d⟩ = _
  rw [execBitstreamStuck, onBlock_known hu, if_pos h]

theorem bitstreamResume_none (hu : unitBlk nn ∉ d.undef) (h : d.bit FcStat.BSTK (nn, f) = false) : Gives (.bitstreamResume nn f) d d := by
  intro rest
  show execBitstreamResume nn f ⟨rest, d⟩ = _
  rw [execBitstreamResume, onBlock_known hu]
  dsimp only
  rw [if_pos (by simp [h])]

theorem bitstreamStuck_effect (hu : unitBlk nn ∉ d.undef) (h : d.bit FcStat.BSTK (nn, f) = false) :
    Completes (.bitstreamStuck nn f) d fun t => t.bit FcStat.BSTK (nn, f) = true ∧
      (fcDown d nn f = false → hasSec d nn = true → d.fld FcCfg.MODE (nn, f) ≠ 0 →
        t.bit FcStat.VALID (nn, f) = false ∧ t.bit FcStat.INVAL_SEEN (nn, f) = true) ∧ ∀ k, k ≠ nn → t.b k = d.b k := by
  let x := d.flag FcStat.BSTK (nn, f)
  have hset : x.bit FcStat.BSTK (nn, f) = true := Dev.bit_flag_self _ _ _ (by decide) rfl
  have hgives : Gives (.bitstreamStuck nn f) d (if fcDown d nn f then x else fcStop x nn f) := by
    intro rest
    show execBitstreamStuck nn f ⟨rest, d⟩ = _
    rw [execBitstreamStuck, onBlock_known hu]
    dsimp only
    rw [if_neg (by simp [h])]
  refine hgives.completes ?_
  split
  · next hdown => exact ⟨hset, fun hup => absurd hdown (by simp [hup]), fun _ _ => rfl⟩
  · refine ⟨fcStop_bstk.trans hset, fun _ hsec hmode => fcStop_marks ?_ hsec, (aside_fcStop .refl).blks⟩
    exact fun h0 => hmode ((Dev.fld_put_addr d FcStat.BSTK (nn, f) FcCfg.MODE (nn, f) 1
      (by simp [FcCfg.MODE, FcCfg.addr, FcStat.BSTK, FcStat.addr])).symm.trans h0)

theorem bitstreamResume_effect (hu : unitBlk nn ∉ d.undef) (h : d.bit FcStat.BSTK (nn, f) = true) :
    Completes (.bitstreamResume nn f) d fun t =>
      OnlyBlock nn [FcStat.addr (nn, f)] d t ∧ t.evq = d.evq ∧ t.reg (FcStat.addr (nn, f)) = (d.clr FcStat.BSTK (nn, f)).reg (FcStat.addr (nn, f)) ∧
      ∀ g, g ≠ f → vget (t.b nn).flt g = vget (d.b nn).flt g := by
  let x := d.clr FcStat.BSTK (nn, f)
  have hclr : OnlyBlock nn [FcStat.addr (nn, f)] d x := (onlyRegs_setReg (by simp [FcStat.BSTK])).onlyBlock
  have hgives : Gives (.bitstreamResume nn f) d (if fcDown x nn f then x else fcResume x nn f) := by
    intro rest
    show execBitstreamResume nn f ⟨rest, d⟩ = _
    rw [execBitstreamResume, onBlock_known hu]
    dsimp only
    rw [if_neg (by simp [h])]
  refine hgives.completes ?_
  split
  · exact ⟨hclr, rfl, rfl, fun _ _ => rfl⟩
  · refine ⟨hclr.trans onlyBlock_onB, rfl, rfl, fun g hg => ?_⟩
    rw [fcResume, onF, Dev.b_onB_self, vget_vmod_ne _ _ _ _ hg]
    rfl

end Stop

end Sys2Proof.Machine

/-! ### Modulator clocks that fail and recover (R68) -/

namespace Sys2Proof.Machine

/-- Every cell's configuration and BSTK, and the state of the modulator clocks. -/
def clockKeep (a b : Nat) : Prop :=
  (∃ k f, a = FcCfg.addr (k, f)) ∨ (∃ k f, a = FcStat.addr (k, f) ∧ b = 3) ∨ ∃ n, a = MclkStat.addr n

section Clock

variable {d x : Dev} {n : Fin 4} {c : Fin 2} {k nn : Fin 16} {f g : Fin 4}

theorem fcStat_inj (h : FcStat.addr (k, f) = FcStat.addr (nn, g)) : (k, f) = (nn, g) := by
  simp only [FcStat.addr, blockBase] at h
  simp only [Prod.mk.injEq, Fin.ext_iff]
  omega

/-- A quench of any block writes no register of a filter cell's. -/
theorem cellAddr_notMem_latchRegs {a : Nat} (h : a = FcCfg.addr (k, f) ∨ a = FcStat.addr (k, f)) : a ∉ TwStat.addr () :: latchRegs nn := by
  rcases h with rfl | rfl <;> refine notMem_latchRegs ?_ fun o ho => ?_ <;> simp only [FcCfg.addr, FcStat.addr, blockBase] <;> omega

theorem mclkStat_notMem_latchRegs : MclkStat.addr n ∉ TwStat.addr () :: latchRegs nn := by
  refine notMem_latchRegs ?_ fun o ho => ?_ <;> simp only [MclkStat.addr, regionBase, blockBase] <;> omega

theorem stopKeep_of_clockKeep {a b : Nat} (h : clockKeep a b) : stopKeep nn g a b := by
  rcases h with ⟨k, f, rfl⟩ | ⟨k, f, rfl, rfl⟩ | ⟨n, rfl⟩
  · refine ⟨cellAddr_notMem_latchRegs (.inl rfl), ?_, fun h => absurd h ?_⟩ <;>
      simp only [FcCfg.addr, FcRes.addr, FcStat.addr, blockBase] <;> omega
  · refine ⟨cellAddr_notMem_latchRegs (.inr rfl), ?_, fun _ => rfl⟩
    simp only [FcRes.addr, FcStat.addr, blockBase]
    omega
  · refine ⟨mclkStat_notMem_latchRegs, ?_, fun h => absurd h ?_⟩ <;>
      simp only [MclkStat.addr, regionBase, FcRes.addr, FcStat.addr, blockBase] <;> omega

/-- One cell on a clock that fails. -/
def cellFails (d : Dev) (nn : Fin 16) (f : Fin 4) : Dev := if d.bit FcStat.BSTK (nn, f) then d else fcStop d nn f

/-- One cell of the region as its clock c fails. -/
def clockFails (c : Fin 2) (d : Dev) (nn : Fin 16) (f : Fin 4) : Dev := if fcClk d nn f = c then cellFails d nn f else d

theorem clockFails_aside : Aside (stopKeep nn f) (· ≠ nn) d (clockFails c d nn f) := .ite (.ite .refl (aside_fcStop .refl)) .refl

/-- The clock's failure at a cell leaves the status of every other cell. -/
theorem clockFails_other (h : (k, f) ≠ (nn, g)) : (clockFails c d nn g).reg (FcStat.addr (k, f)) = d.reg (FcStat.addr (k, f)) :=
  clockFails_aside.reg fun b _ => ⟨cellAddr_notMem_latchRegs (.inr rfl), by simp only [FcRes.addr, FcStat.addr, blockBase]; omega,
    fun he => absurd (fcStat_inj he) h⟩

/-- What the clock's failure at a cell leaves of the whole region's cells. -/
theorem aside_clockFails {p : Fin 4} : Aside clockKeep (fun k => rgnOf k ≠ n) d (clockFails c d (blkAt n p) f) :=
  clockFails_aside.mono (fun _ _ hK => stopKeep_of_clockKeep hK) fun k hk => by
    rintro rfl
    exact hk (rgnOf_blkAt n p)

/-- The clock's failure at the cells of one block, and at those of the region. -/
def blockFails (c : Fin 2) (n : Fin 4) (d : Dev) (p : Fin 4) : Dev := forAll d fun x f => clockFails c x (blkAt n p) f
def regionFails (c : Fin 2) (n : Fin 4) (d : Dev) : Dev := forAll d (blockFails c n)

theorem aside_blockFails {p : Fin 4} : Aside clockKeep (fun k => rgnOf k ≠ n) d (blockFails c n d p) :=
  Aside.refl.forAll fun _ _ => aside_clockFails

theorem aside_regionFails : Aside clockKeep (fun k => rgnOf k ≠ n) d (regionFails c n d) := Aside.refl.forAll fun _ _ => aside_blockFails

/-- What the failure makes of a cell's status is what it makes of it alone, from a device that differs elsewhere. -/
theorem regionFails_slice (d : Dev) (c : Fin 2) (n p f : Fin 4) : ∃ z, Aside clockKeep (fun k => rgnOf k ≠ n) d z ∧
    (regionFails c n d).reg (FcStat.addr (blkAt n p, f)) = (clockFails c z (blkAt n p) f).reg (FcStat.addr (blkAt n p, f)) := by
  let S (x : Dev) := x.reg (FcStat.addr (blkAt n p, f))
  have hother (x : Dev) (q : Fin 4) (hq : q ≠ p) : S (blockFails c n x q) = S x := by
    refine forAll_kept (S := S) fun z g => clockFails_other fun h => ?_
    exact blkAt_inj hq (Prod.ext_iff.1 h).1.symm
  obtain ⟨y, hy, -, hSy⟩ := forAll_slice (R := Aside clockKeep fun k => rgnOf k ≠ n) (d := d) .refl (fun h1 h2 => h1.trans h2)
    (fun _ _ => aside_blockFails) (S := S) p hother
  have hcell (x : Dev) (g : Fin 4) (hg : g ≠ f) : S (clockFails c x (blkAt n p) g) = S x :=
    clockFails_other fun h => hg (Prod.ext_iff.1 h).2.symm
  obtain ⟨z, hz, -, hSz⟩ := forAll_slice (R := Aside clockKeep fun k => rgnOf k ≠ n) (d := y) .refl (fun h1 h2 => h1.trans h2)
    (fun _ _ => aside_clockFails) (S := S) f hcell
  exact ⟨z, hy.trans hz, hSy.trans hSz⟩

theorem fcStat_bit_congr {y : Dev} {fl : RF (Fin 16 × Fin 4)} (hfl : fl.addr = FcStat.addr)
    (h : x.reg (FcStat.addr (k, f)) = y.reg (FcStat.addr (k, f))) : x.bit fl (k, f) = y.bit fl (k, f) := by
  rw [Dev.bit, Dev.bit, Dev.fld, Dev.fld, hfl, h]

theorem fcClk_congr (h : Aside clockKeep (fun k => rgnOf k ≠ n) d x) : fcClk x k f = fcClk d k f := by
  simp only [fcClk, h.bit (f := FcCfg.MSEL) fun _ _ _ => .inl ⟨k, f, rfl⟩]

/-- A failing clock ends the validity of each cell in use on it whose bitstream is not stuck. -/
theorem regionFails_marks (hk : rgnOf k = n) (hclk : fcClk d k f = c) (hsec : hasSec d k = true) (hmode : d.fld FcCfg.MODE (k, f) ≠ 0)
    (hstk : d.bit FcStat.BSTK (k, f) = false) :
    (regionFails c n d).bit FcStat.VALID (k, f) = false ∧ (regionFails c n d).bit FcStat.INVAL_SEEN (k, f) = true := by
  obtain ⟨p, rfl⟩ : ∃ p, k = blkAt n p := ⟨posOf k, by
    subst hk
    simp only [blkAt, rgnOf, posOf, Fin.ext_iff]
    omega⟩
  obtain ⟨z, hz, hreg⟩ := regionFails_slice d c n p f
  have hbstk : z.bit FcStat.BSTK (blkAt n p, f) = false :=
    (hz.bit fun b hlo hb => .inr (.inl ⟨_, _, rfl, by simp only [FcStat.BSTK] at hlo hb; omega⟩)).trans hstk
  have hfail : clockFails c z (blkAt n p) f = fcStop z (blkAt n p) f := by
    rw [clockFails, if_pos ((fcClk_congr hz).trans hclk), cellFails, if_neg (by simp [hbstk])]
  rw [fcStat_bit_congr rfl hreg, fcStat_bit_congr rfl hreg, hfail]
  refine fcStop_marks ?_ ?_
  · rw [hz.fld fun _ _ _ => .inl ⟨_, f, rfl⟩]
    exact hmode
  · rw [hasSec, secOf, hz.pat]
    exact hsec

/-! #### The clock's own flags -/

/-- The flag of a failure of clock c, and its BAD. -/
def mclkFlag (c : Fin 2) (loss : Bool) : RF (Fin 4) :=
  match c, loss with
  | 0, true => MclkStat.LOSS0 | 0, false => MclkStat.RANGE0
  | _, true => MclkStat.LOSS1 | _, false => MclkStat.RANGE1
def mclkBadF (c : Fin 2) : RF (Fin 4) := if c = 0 then MclkStat.BAD0 else MclkStat.BAD1

/-- The flags of a failing clock, and the region's source. -/
def mclkMarked (d : Dev) (n : Fin 4) (c : Fin 2) (loss : Bool) : Dev :=
  let x := (d.flag (mclkFlag c loss) n).flag (mclkBadF c) n
  x.raise (rgSrc n 0) (x.lo16 MclkStat.word n)

theorem mclkFail_eq (d : Dev) (n : Fin 4) (c : Fin 2) (loss : Bool) : mclkFail d n c loss =
    if mclkBad d n c then mclkMarked d n c loss else regionFails c n (mclkMarked d n c loss) := rfl

theorem mclkFail_effect (loss : Bool) : let t := mclkFail d n c loss
    let fl := mclkFlag c loss
    let bad := mclkBadF c
    t.bit fl n = true ∧ t.bit bad n = true ∧
    ⟨d.clk, rgSrc n 0, true, ((d.flag fl n).flag bad n).lo16 MclkStat.word n, false⟩ ∈ t.evq ∧
    (∀ k, rgnOf k ≠ n → t.b k = d.b k) ∧
    (mclkBad d n c = false → ∀ k f, rgnOf k = n → fcClk d k f = c → hasSec d k = true → d.fld FcCfg.MODE (k, f) ≠ 0 →
      d.bit FcStat.BSTK (k, f) = false → t.bit FcStat.VALID (k, f) = false ∧ t.bit FcStat.INVAL_SEEN (k, f) = true) := by
  intro t fl bad
  let m := mclkMarked d n c loss
  have haddr : fl.addr = MclkStat.addr ∧ bad.addr = MclkStat.addr := by
    refine ⟨?_, ?_⟩ <;> fin_cases c <;> cases loss <;> rfl
  have hbits : fl.len = 1 ∧ bad.len = 1 ∧ fl.lo < 32 ∧ bad.lo < 32 ∧ (fl.lo + 1 ≤ bad.lo ∨ bad.lo + 1 ≤ fl.lo) := by
    fin_cases c <;> cases loss <;> decide
  obtain ⟨hlen, hlen', hlo, hlo', happart⟩ := hbits
  have hm : m.bit fl n = true ∧ m.bit bad n = true := by
    refine ⟨?_, Dev.bit_flag_self (d.flag fl n) bad n (by omega) hlen'⟩
    refine Eq.trans ?_ (Dev.bit_flag_self d fl n (by omega) hlen)
    exact congrArg (· != 0) (Dev.fld_put_bits (d.flag fl n) bad n fl n 1 (by omega) (by omega))
  have hsent : ⟨d.clk, rgSrc n 0, true, ((d.flag fl n).flag bad n).lo16 MclkStat.word n, false⟩ ∈ m.evq := by
    have h := mem_evq_raise ((d.flag fl n).flag bad n) (rgSrc n 0) (((d.flag fl n).flag bad n).lo16 MclkStat.word n)
    rwa [Dev.lo16, Nat.mod_mod] at h
  have hrest : Aside clockKeep (fun k => rgnOf k ≠ n) m t := by
    rw [show t = _ from mclkFail_eq d n c loss]
    exact .ite .refl aside_regionFails
  have hstat {g : RF (Fin 4)} (hg : g.addr = MclkStat.addr) : t.bit g n = m.bit g n := hrest.bit fun _ _ _ => .inr (.inr ⟨n, by rw [hg]⟩)
  have hcell {g : RF (Fin 16 × Fin 4)} {k : Fin 16} {f : Fin 4} (hg : g.addr = FcCfg.addr ∨ g.addr = FcStat.addr) :
      m.fld g (k, f) = d.fld g (k, f) := by
    have hne : g.addr (k, f) ≠ MclkStat.addr n := by
      rcases hg with hg | hg <;> simp only [hg, FcCfg.addr, FcStat.addr, MclkStat.addr, blockBase, regionBase] <;> omega
    exact (Dev.fld_put_addr (d.flag fl n) bad n g (k, f) 1 (by rw [haddr.2]; exact hne)).trans
      (Dev.fld_put_addr d fl n g (k, f) 1 (by rw [haddr.1]; exact hne))
  refine ⟨(hstat haddr.1).trans hm.1, (hstat haddr.2).trans hm.2, hrest.sent hsent, hrest.blks, fun hgood k f hk hclk hsec hmode hstk => ?_⟩
  rw [show t = regionFails c n m by rw [show t = _ from mclkFail_eq d n c loss, if_neg (by simp [hgood])]]
  refine regionFails_marks hk ?_ hsec ?_ ?_
  · rw [fcClk, Dev.bit_eq, hcell (.inl rfl)]
    exact hclk
  · rw [hcell (.inl rfl)]
    exact hmode
  · rw [Dev.bit_eq, hcell (.inr rfl)]
    exact hstk

/-! #### Recovery -/

/-- A region of which everything is guaranteed carries out its command. -/
theorem onRegion_known {s : State} {u : Dev → Dev} (hu : unitRgn n ∉ s.dev.undef) : onRegion n s u = .next { s with dev := u s.dev } := by
  simp [onRegion, onUnit, onDev, hu]

theorem mclkRecover_none (hu : unitRgn n ∉ d.undef) (h : mclkBad d n c = false) : Gives (.mclkRecover n c) d d := by
  intro rest
  show execMclkRecover n c ⟨rest, d⟩ = _
  rw [execMclkRecover, onRegion_known hu]
  dsimp only
  rw [if_pos (by simp [h])]

/-- Only blocks change as cells start again. -/
theorem onClkCells_resume (x : Dev) : let t := onClkCells x n c fun d nn f => if fcDown d nn f then d else fcResume d nn f
    t = { x with blk := t.blk } := by
  refine forAll_rel (R := fun x y : Dev => y = { x with blk := y.blk }) rfl (fun h1 h2 => ?_) fun y p =>
    forAll_rel (R := fun x y : Dev => y = { x with blk := y.blk }) rfl (fun h1 h2 => ?_) fun z f => ?_
  · rw [h2, h1]
  · rw [h2, h1]
  · dsimp only
    split
    · split <;> rfl
    · rfl

theorem mclkRecover_effect (hu : unitRgn n ∉ d.undef) (h : mclkBad d n c = true) : Completes (.mclkRecover n c) d fun t =>
    t = { d with regs := t.regs, hw := t.hw, blk := t.blk } ∧ OnlyRegs [MclkStat.addr n] { d with blk := t.blk } t ∧
    t.reg (MclkStat.addr n) = (d.clr (mclkBadF c) n).reg (MclkStat.addr n) := by
  let x := d.clr (mclkBadF c) n
  let t := onClkCells x n c fun d nn f => if fcDown d nn f then d else fcResume d nn f
  have hgives : Gives (.mclkRecover n c) d t := by
    intro rest
    show execMclkRecover n c ⟨rest, d⟩ = _
    rw [execMclkRecover, onRegion_known hu]
    dsimp only
    rw [if_neg (by simp [h])]
    rfl
  have ht : t = { x with blk := t.blk } := onClkCells_resume x
  have haddr : (mclkBadF c).addr n = MclkStat.addr n := by
    unfold mclkBadF
    split <;> rfl
  have hreg (a : Nat) : t.reg a = x.reg a := (congrArg (fun y : Dev => y.reg a) ht :)
  have hregs : t.regs = x.regs ∧ t.hw = x.hw := ⟨(congrArg Dev.regs ht :), (congrArg Dev.hw ht :)⟩
  refine hgives.completes ⟨?_, ⟨?_, fun a ha => (hreg a).trans (Dev.reg_setReg_ne _ _ _ _ (by simpa [haddr] using ha))⟩, hreg _⟩
  · rw [hregs.1, hregs.2]
    exact ht
  · rw [hregs.1, hregs.2]
    exact ht

end Clock

end Sys2Proof.Machine

/-! ### Sense intervals (R209, R210) -/

namespace Sys2Proof.Machine

section Sense

variable {d x : Dev} {nn : Fin 16} {i : Fin 10}

theorem senseInterval_none {lvl : Bool} (hu : unitBlk nn ∉ d.undef) (h : lvl ≠ senseLevel d nn i) : Gives (.senseInterval nn i lvl) d d := by
  intro rest
  show execSenseInterval nn i lvl ⟨rest, d⟩ = _
  rw [execSenseInterval, onBlock_known hu]
  dsimp only
  rw [if_pos h]

/-- A STUCK or CHATTER flag set leaves the messages. -/
theorem aside_senseFlag {u : Bool} : Aside (fun _ _ => False) noBlk x (senseFlag x nn i u) := by
  unfold senseFlag
  exact Aside.ite (Aside.refl.flag fun _ => not_false) (Aside.ite (Aside.refl.flag fun _ => not_false) (Aside.refl.flag fun _ => not_false))

/-! #### The stages of an interval's end -/

/-- Whether the interval asks for an assert message, and whether one stands after its messages. -/
def intervalAsk (d : Dev) (nn : Fin 16) (i : Fin 10) : Bool :=
  let x := vget (d.b nn).sense i
  (senseLevel d nn i || x.rises != 0) && !x.sent && !x.muted
def intervalSent (d : Dev) (nn : Fin 16) (i : Fin 10) : Bool :=
  ((vget (d.b nn).sense i).sent || intervalAsk d nn i) && senseLevel d nn i

/-- The messages of an interval: at most one assert and one withdrawal. -/
def intervalTold (d : Dev) (nn : Fin 16) (i : Fin 10) : Dev :=
  let x := if intervalAsk d nn i then d.sendMsg (senseSrc nn i) true 0 else d
  if ((vget (d.b nn).sense i).sent || intervalAsk d nn i) && !senseLevel d nn i then x.sendMsg (senseSrc nn i) false 0 else x

/-- The intervals in a row in which the input was active throughout, and whether the STUCKN-th of them ends. -/
def intervalRun (d : Dev) (nn : Fin 16) (i : Fin 10) : Nat :=
  let x := vget (d.b nn).sense i
  if senseLevel d nn i && !x.sawLow then min (x.actRun + 1) 255 else 0
def intervalStuck (d : Dev) (nn : Fin 16) (i : Fin 10) : Bool :=
  let n := (intervalTold d nn i).fld Sense.STUCKN nn
  n != 0 && intervalRun d nn i == n && decide ((vget (d.b nn).sense i).actRun < n)

/-- An input judged stuck. -/
def stuckTold (e : Dev) (nn : Fin 16) (i : Fin 10) (sent : Bool) : Dev :=
  (senseFlag (if sent then e.sendMsg (senseSrc nn i) false 0 else e) nn i true).raise (bkSrc nn 4) i.val

/-- The device after the judgement stuck. -/
def intervalJudged (d : Dev) (nn : Fin 16) (i : Fin 10) : Dev :=
  if intervalStuck d nn i then stuckTold (intervalTold d nn i) nn i (intervalSent d nn i) else intervalTold d nn i

/-- The intervals in a row with more than one rise, and whether the CHATN-th of them ends. -/
def intervalChat (d : Dev) (nn : Fin 16) (i : Fin 10) : Nat :=
  let x := vget (d.b nn).sense i
  if x.rises > 1 then min (x.chatRun + 1) 255 else 0
def intervalChatting (d : Dev) (nn : Fin 16) (i : Fin 10) : Bool :=
  let n := (intervalJudged d nn i).fld Sense.CHATN nn
  n != 0 && intervalChat d nn i == n && decide ((vget (d.b nn).sense i).chatRun < n)

/-- What the input carries into the next interval. -/
def intervalNext (d : Dev) (nn : Fin 16) (i : Fin 10) : SenseIn :=
  let x := vget (d.b nn).sense i
  let on := senseLevel d nn i
  ⟨0, on, !on, on, intervalRun d nn i, intervalChat d nn i, intervalSent d nn i && !intervalStuck d nn i,
    (x.muted || intervalStuck d nn i) && !(!on && !x.sawHigh)⟩

/-- The device after an interval of the input's level. -/
def intervalEnd (d : Dev) (nn : Fin 16) (i : Fin 10) : Dev :=
  let e := intervalJudged d nn i
  (if intervalChatting d nn i then (senseFlag e nn i false).raise (bkSrc nn 4) i.val else e).onB nn fun b =>
    { b with sense := vset b.sense i (intervalNext d nn i) }

theorem senseInterval_gives (hu : unitBlk nn ∉ d.undef) : Gives (.senseInterval nn i (senseLevel d nn i)) d (intervalEnd d nn i) := by
  intro rest
  show execSenseInterval nn i (senseLevel d nn i) ⟨rest, d⟩ = _
  rw [execSenseInterval, onBlock_known hu]
  dsimp only
  rw [if_neg (by simp)]
  rfl

theorem aside_stuckTold {sent : Bool} : Aside (fun _ _ => False) noBlk x (stuckTold x nn i sent) :=
  ((Aside.ite Aside.refl.sendMsg .refl).trans aside_senseFlag).raise

theorem aside_intervalEnd : Aside (fun _ _ => False) noBlk (intervalTold d nn i) (intervalEnd d nn i) := by
  have hjudged : Aside (fun _ _ => False) noBlk (intervalTold d nn i) (intervalJudged d nn i) := .ite aside_stuckTold .refl
  exact (Aside.ite (hjudged.trans aside_senseFlag).raise hjudged).onB not_false

/-- An interval with no message sent yet in which the input was active sends the assert message, and the withdrawal where it is active no more. -/
theorem intervalEnd_messages (hsent : (vget (d.b nn).sense i).sent = false) (hmuted : (vget (d.b nn).sense i).muted = false)
    (hact : senseLevel d nn i = true ∨ (vget (d.b nn).sense i).rises ≠ 0) :
    ⟨d.clk, senseSrc nn i, true, 0, false⟩ ∈ (intervalEnd d nn i).evq ∧
      (senseLevel d nn i = false → ⟨d.clk, senseSrc nn i, false, 0, false⟩ ∈ (intervalEnd d nn i).evq) := by
  have hask : intervalAsk d nn i = true := by
    rcases hact with h | h <;> simp [intervalAsk, hsent, hmuted, h]
  have htold : intervalTold d nn i =
      if senseLevel d nn i then d.sendMsg (senseSrc nn i) true 0 else (d.sendMsg (senseSrc nn i) true 0).sendMsg (senseSrc nn i) false 0 := by
    cases h : senseLevel d nn i <;> simp [intervalTold, hask, h]
  have hup : ⟨d.clk, senseSrc nn i, true, 0, false⟩ ∈ (d.sendMsg (senseSrc nn i) true 0).evq := mem_msgInsert_self _ _
  refine ⟨aside_intervalEnd.sent ?_, fun hoff => aside_intervalEnd.sent ?_⟩ <;> rw [htold]
  · split
    · exact hup
    · exact subset_msgInsert _ _ hup
  · rw [if_neg (by simp [hoff])]
    exact mem_msgInsert_self _ _

/-- A judgement stuck sets the flag of a probe cell's or an encoder cell's input. -/
theorem stuckTold_flag {e : Dev} {sent : Bool} (hi : ¬ i.val < 8) :
    (stuckTold e nn i sent).bit (if i.val = 8 then EcStat.STUCK else PcStat.STUCK) nn = true := by
  show (senseFlag _ nn i true).bit _ nn = true
  rw [senseFlag, if_neg hi]
  split <;> exact Dev.bit_flag_self _ _ _ (by decide) rfl

/-- The sense source that a judgement stuck raises. -/
theorem mem_evq_stuckTold {e : Dev} {sent : Bool} : ⟨e.clk, bkSrc nn 4, true, i.val, false⟩ ∈ (stuckTold e nn i sent).evq := by
  let y := senseFlag (if sent then e.sendMsg (senseSrc nn i) false 0 else e) nn i true
  have hclk : y.clk = e.clk := ((Aside.ite Aside.refl.sendMsg .refl).trans aside_senseFlag : Aside (fun _ _ => False) noBlk e y).clk
  have h := mem_evq_raise y (bkSrc nn 4) i.val
  rwa [hclk, Nat.mod_eq_of_lt (by omega)] at h

/-- An interval in which an input whose assert message has been sent stayed active. -/
theorem intervalEnd_active (hon : senseLevel d nn i = true) (hlow : (vget (d.b nn).sense i).sawLow = false)
    (hrise : (vget (d.b nn).sense i).rises = 0) (hsent : (vget (d.b nn).sense i).sent = true) :
    intervalTold d nn i = d ∧ intervalRun d nn i = min ((vget (d.b nn).sense i).actRun + 1) 255 ∧
    intervalEnd d nn i = (intervalJudged d nn i).onB nn (fun b => { b with sense := vset b.sense i (intervalNext d nn i) }) ∧
    (intervalNext d nn i).sent = !intervalStuck d nn i := by
  have hask : intervalAsk d nn i = false := by simp [intervalAsk, hsent]
  have hchat : intervalChatting d nn i = false := by
    have hnone : intervalChat d nn i = 0 := by simp [intervalChat, hrise]
    simp only [intervalChatting, hnone]
    cases (intervalJudged d nn i).fld Sense.CHATN nn <;> simp
  refine ⟨by simp [intervalTold, hask, hon], by simp [intervalRun, hon, hlow], ?_, by simp [intervalNext, intervalSent, hsent, hon]⟩
  simp [intervalEnd, hchat]

theorem intervalEnd_run (hon : senseLevel d nn i = true) (hlow : (vget (d.b nn).sense i).sawLow = false)
    (hrise : (vget (d.b nn).sense i).rises = 0) (hsent : (vget (d.b nn).sense i).sent = true) :
    let x := vget (d.b nn).sense i
    let t := intervalEnd d nn i
    (∀ k, k ≠ nn → t.b k = d.b k) ∧ (∀ j, j ≠ i → vget (t.b nn).sense j = vget (d.b nn).sense j) ∧
    (vget (t.b nn).sense i).actRun = min (x.actRun + 1) 255 ∧
    (d.fld Sense.STUCKN nn = x.actRun + 1 → x.actRun < 255 → t.bit (if i.val = 8 then EcStat.STUCK else PcStat.STUCK) nn = true ∨ i.val < 8) ∧
    (d.fld Sense.STUCKN nn = x.actRun + 1 → x.actRun < 255 → ⟨d.clk, bkSrc nn 4, true, i.val, false⟩ ∈ t.evq ∧ (vget (t.b nn).sense i).sent = false) ∧
    (d.fld Sense.STUCKN nn = 0 → t.evq = d.evq ∧ (vget (t.b nn).sense i).sent = true) := by
  intro x t
  obtain ⟨htold, hrun, hend, hnext⟩ := intervalEnd_active hon hlow hrise hsent
  have hblk : (intervalJudged d nn i).blk = d.blk := by
    rw [intervalJudged, htold]
    split
    · cases intervalSent d nn i <;> simp only [stuckTold, senseFlag] <;> split_ifs <;> rfl
    · rfl
  have hb (k : Fin 16) : (intervalJudged d nn i).b k = d.b k := congrArg (fun v : Vector Blk 16 => vget v k) hblk
  have hat : vget (t.b nn).sense i = intervalNext d nn i := by
    rw [show t = _ from hend, Dev.b_onB_self, vget_vset_self]
  have hstuck (hn : d.fld Sense.STUCKN nn = x.actRun + 1) (hlt : x.actRun < 255) : intervalStuck d nn i = true := by
    simp only [intervalStuck, htold, hn, hrun]
    simp [x] at hlt ⊢
    omega
  refine ⟨fun k hk => ?_, fun j hj => ?_, ?_, fun hn hlt => ?_, fun hn hlt => ?_, fun hn => ?_⟩
  · rw [show t = _ from hend, Dev.b_onB_ne _ _ _ _ hk, hb]
  · rw [show t = _ from hend, Dev.b_onB_self, vget_vset_ne _ _ _ _ hj, hb]
  · rw [hat, ← hrun]
    rfl
  · by_cases hi : i.val < 8
    · exact .inr hi
    · refine .inl ?_
      rw [show t = _ from hend, intervalJudged, if_pos (hstuck hn hlt)]
      exact stuckTold_flag hi
  · refine ⟨?_, by rw [hat, hnext, hstuck hn hlt]; rfl⟩
    rw [show t = _ from hend, intervalJudged, if_pos (hstuck hn hlt), htold]
    exact mem_evq_stuckTold
  · have hno : intervalStuck d nn i = false := by simp [intervalStuck, htold, hn]
    refine ⟨?_, by rw [hat, hnext, hno]; rfl⟩
    rw [show t = _ from hend, intervalJudged, if_neg (by simp [hno]), htold]
    rfl

end Sense

/-! #### Filter cells, comparators, clocks and intervals (O34) -/

/-- Settles O34: each command by the device it leaves; what a comparator, a stopped cell or a judged interval leaves alone is its frame. -/
theorem filterCellsAndModulatorClocks : Obligations.FilterCellsAndModulatorClocks := by
  unfold Obligations.FilterCellsAndModulatorClocks
  refine ⟨fun d nn f sum hu => ?_, fun c d n x fl bad hu hc hbad => ?_, fun d nn f hu => ?_, fun d nn i lvl hu h => senseInterval_none hu h,
    fun d nn i hu hsent hmuted hact => (senseInterval_gives hu).completes (intervalEnd_messages hsent hmuted hact),
    fun d nn i hu hon hlow hrise hsent => (senseInterval_gives hu).completes (intervalEnd_run hon hlow hrise hsent)⟩
  · exact ⟨fun e he => ⟨filterResult_none hu (.inl he), fastResult_none hu (.inl he)⟩, fun h => filterResult_none hu (.inr h),
      fun hmode hosr hedge hdown hwait =>
        (filterResult_stored hu hmode hosr hedge hdown hwait).completes (resultStored_effect d nn f _),
      fun h => fastResult_none hu (.inr h), fun hmode hosr hedge hdown hwait =>
        (fastResult_stored hu hmode hosr hedge hdown hwait).completes (fastStored_effect d nn f _)⟩
  · obtain rfl : bad = mclkBadF x := hbad
    refine ⟨?_, mclkRecover_none hu, mclkRecover_effect hu⟩
    have hfail (loss : Bool) (hfl : fl = mclkFlag x loss) (hexec : ∀ rest, exec c ⟨rest, d⟩ = onRegion n ⟨rest, d⟩ fun d => mclkFail d n x loss) :
        Gives c d (mclkFail d n x loss) ∧ fl = mclkFlag x loss :=
      ⟨fun rest => (hexec rest).trans (onRegion_known hu), hfl⟩
    obtain ⟨loss, hgives, rfl⟩ : ∃ loss, Gives c d (mclkFail d n x loss) ∧ fl = mclkFlag x loss := by
      rcases hc with ⟨rfl, rfl⟩ | ⟨rfl, rfl⟩
      · exact ⟨true, hfail true (by fin_cases x <;> rfl) fun _ => rfl⟩
      · exact ⟨false, hfail false (by fin_cases x <;> rfl) fun _ => rfl⟩
    exact hgives.completes (mclkFail_effect loss)
  · exact ⟨bitstreamStuck_none hu, bitstreamResume_none hu, bitstreamStuck_effect hu, bitstreamResume_effect hu⟩

end Sys2Proof.Machine

/-! ### The twin link: a counterexample to O52 (R76, R80, R401) -/

namespace Sys2Proof.Machine

/-- STAGE TWIN with a register table that is not in canonical form: the entry of the address after CHIP.TWIN.LINK holds that address's
unlisted value, and hides an entry of CHIP.TWIN.LINK with LAT 5 behind it. -/
def hiddenLatency : Dev := { State.reset.dev with rstN := true, regs := [(Start.addr (), 3), (TwLink.addr () + 1, 0), (TwLink.addr (), 5)] }

/-- What a partner with other firmware says, with a latency of 0. -/
def otherFirmware : Hello := ⟨true, 1, 0, false, 0, false, false, 0, 0, 2⟩

/-- The device as the link has trained at STAGE TWIN. -/
def linkTrained (d : Dev) (p : Hello) : Dev :=
  ((((d.flag TwStat.LINKUP ()).put TwStat.LANES () (min p.lanes 2)).put TwLink.LAT () (min p.lat 65535)).onTw
    fun t => { t with hello := some p, faultWait := false, recov := false }).flag Start.TWIN_TRAINED ()

theorem exec_linkUp {d : Dev} {p : Hello} (hu : unitChip ∉ d.undef) (hopen : linkOpen d = true) (hstage : d.fld Start.STAGE () = 3)
    (hlanes : p.lanes ≠ 0) (hlink : d.bit TwStat.LINKUP () = false) :
    exec (.linkUp p) ⟨[], d⟩ = .next ⟨[], startLoad (pairCheck (linkTrained d p))⟩ := by
  show execLinkUp p ⟨[], d⟩ = _
  have hlanes' : (p.lanes == 0) = false := by simpa using hlanes
  simp only [execLinkUp, onChip, onUnit, onDev, if_neg hu, hopen, hstage, hlanes', hlink, pairStage]
  rfl

set_option maxRecDepth 100000 in
/-- With no pattern installed the start-up ends at STAGE NOPAT; what drops the pattern's bits from the table uncovers the hidden entry. -/
theorem hiddenLatency_shown : (startLoad (pairCheck (linkTrained hiddenLatency otherFirmware))).fld TwLink.LAT () = 5 := by decide +kernel

/-- Refutes O52: the statement speaks of every register table, in canonical form or not; where LINK_UP writes LAT 0 over a hidden entry
of CHIP.TWIN.LINK, the end of the start-up uncovers the entry, and LAT reads 5. -/
theorem not_twinLinkUpAndDown : ¬ Obligations.TwinLinkUpAndDown := by
  unfold Obligations.TwinLinkUpAndDown
  intro h
  obtain ⟨hup, -⟩ := h hiddenLatency (by decide +kernel)
  have hexec := exec_linkUp (d := hiddenLatency) (p := otherFirmware) (by decide +kernel) (by decide +kernel) (by decide +kernel) (by decide)
    (by decide +kernel)
  obtain ⟨-, -, hlat, -⟩ := ((hup otherFirmware).2 (by decide +kernel) (by decide +kernel) (by decide) (by decide +kernel)).of_exec hexec
  exact absurd (hiddenLatency_shown.symm.trans hlat) (by decide)

end Sys2Proof.Machine

/-! ### Steward restarts: a counterexample to O37 (R74, R451) -/

namespace Sys2Proof.Machine

/-- A firmware image without a body that takes patterns of EPOCH 0 to 9, with the DIGEST of no bytes and its HCRC (R431). -/
def plainFirmware : FlashImg :=
  let head := leBytes 4 0x52484F43 ++ [1, 1, memberCode, 0, 0xFF, 0xFF, 0, 0] ++ leBytes 4 1 ++ leBytes 4 0 ++ leBytes 4 9 ++ List.replicate 24 0
  let digest := leBytes 48 0x5bb99848f1d21ad5fb656fe7bfde4e27dae1f663bfc70c4c4307be1411b7fd216ae3b1b17e32d94c3896ac51a760b038
  ⟨(head ++ digest ++ List.replicate 156 0 ++ leBytes 4 432648597).map (BitVec.ofNat 8), true, true, []⟩

set_option maxRecDepth 100000 in
theorem plainFirmware_hdr : (imgHdr plainFirmware).magic = 0x52484F43#32 ∧ (imgHdr plainFirmware).typ = 1 ∧ (imgHdr plainFirmware).hfmt = 1 ∧
    (imgHdr plainFirmware).member = memberCode ∧ (imgHdr plainFirmware).hwRevs = BitVec.allOnes 16 ∧ (imgHdr plainFirmware).bind = 0 ∧
    (imgHdr plainFirmware).hcrcOk = true ∧ (imgHdr plainFirmware).digestOk = true := by
  refine ⟨?_, ?_, ?_, ?_, ?_, ?_, ?_, ?_⟩ <;> decide +kernel

/-- A firmware header with every field good passes its checks, whatever the hardware revision is. -/
theorem hdrCheck_firmware (d : Dev) {h : ImgHdr} (hform : h.magic = 0x52484F43#32 ∧ h.typ = 1 ∧ h.hfmt = 1 ∧ h.member = memberCode ∧
    h.hwRevs = BitVec.allOnes 16 ∧ h.bind = 0 ∧ h.hcrcOk = true ∧ h.digestOk = true) (hsig : h.sigOk = true) (hpages : h.pagesOk = true) :
    hdrCheck d 1 h none true false = 0 := by
  obtain ⟨hmagic, htyp, hhfmt, hmember, hrevs, hbind, hcrc, hdigest⟩ := hform
  have hrev : h.hwRevs.getLsbD Config.hwRev.toNat = true := by
    rw [hrevs, BitVec.getLsbD_allOnes]
    exact decide_eq_true Config.hwRev.isLt
  simp [hdrCheck, hmagic, htyp, hhfmt, hmember, hrev, hbind, hcrc, hdigest, hsig, hpages, firstFail]

theorem plainFirmware_passes (d : Dev) : hdrCheck d 1 (imgSfw plainFirmware).hdr none true false = 0 :=
  hdrCheck_firmware d plainFirmware_hdr rfl rfl

/-- Stewards that restart with a pattern of EPOCH 10 in effect, and a register table that is not in canonical form: the entry of the address
after CHIP.TWIN.STAT holds that address's unlisted value, and hides an entry of CHIP.TWIN.STAT with ROLE 0 behind it. -/
def hiddenRole : Dev :=
  { State.reset.dev with
    rstN := true, pat := some { encoderLedPattern with hdr := { patternHeader with epoch := 10 }, dir := [] },
    bank0 := { State.reset.dev.bank0 with sfw := some plainFirmware }, regs := [(Start.addr (), 5), (TwStat.addr () + 1, 0), (TwStat.addr (), 0)] }

/-- The device with the firmware started. -/
def firmwareStarted : Dev := setSfw { hiddenRole with stwRun := true } (imgSfw plainFirmware)

/-- The device with the pattern rejected. -/
def patternRejected : Dev := noPattern (chipHeld (bootCause firmwareStarted 10 2 false))

set_option maxRecDepth 100000 in
theorem patternRejected_role : patternRejected.fld TwStat.ROLE () = 0 := by decide +kernel

set_option maxRecDepth 100000 in
theorem firmwareStarted_check : effectCheck firmwareStarted = 10 := by decide +kernel

/-- Which sources the firmware serves shows only in their own registers. -/
theorem srcServe_fld (d : Dev) {ι : Type} (f : RF ι) (i : ι) (hf : ∀ s, f.addr i ≠ Src.addr s) : (srcServe d).fld f i = d.fld f i := by
  unfold srcServe
  split
  · rfl
  · next g _ =>
    generalize List.finRange 1024 = l
    clear * - hf
    induction l generalizing d with
    | nil => rfl
    | cons s l ih =>
      rw [List.foldl_cons, ih]
      dsimp only
      split
      · exact Dev.fld_setReg_addr _ _ _ _ _ (hf s)
      · rfl

/-- A restart that ends with firmware that passes its checks, no activation under way and a pattern that the firmware rejects. -/
theorem exec_stewardRestartDone {d u : Dev} {f : SfwImage} (hu : unitChip ∉ d.undef) (hrun : d.stwRun = false) (hdown : d.bit Stw.DOWN () = false)
    (hstage : 2 ≤ d.fld Start.STAGE ()) (hact : u.act = none) (hf : sfwIn d (activeBank d) = some f)
    (hcode : hdrCheck { d with stwRun := true } 1 f.hdr none true false = 0) (hset : setSfw { d with stwRun := true } f = u)
    (hcheck : effectCheck u = 10) :
    exec .stewardRestartDone ⟨[], d⟩ = .next ⟨[], srcServe (noPattern (chipHeld (bootCause u 10 2 (activeBank u))))⟩ := by
  have hrestart : restartSfw { d with stwRun := true } = (0, u) := by
    have hf' : sfwIn { d with stwRun := true } (activeBank { d with stwRun := true }) = some f := hf
    simp [restartSfw, hf', hcode, hset]
  show execStewardRestartDone ⟨[], d⟩ = _
  simp only [execStewardRestartDone, onChip, onUnit, onDev, if_neg hu]
  rw [if_neg (by simp [hrun, hdown, Nat.not_lt.2 hstage]), hrestart]
  simp only [restartEnd, hact, hcheck, setImg, if_true]

/-- Refutes O37: the statement speaks of every register table, in canonical form or not; where the chip enters HELD over a hidden entry of
CHIP.TWIN.STAT, the end of the rejected pattern uncovers the entry, and ROLE reads 0. -/
theorem not_stewardRestarts : ¬ Obligations.StewardRestarts := by
  unfold Obligations.StewardRestarts
  rintro ⟨-, h⟩
  obtain ⟨-, -, -, hdone⟩ := h hiddenRole (by decide +kernel)
  have hpass : hdrCheck hiddenRole 1 (imgSfw plainFirmware).hdr none true false = 0 := plainFirmware_passes hiddenRole
  have hin : sfwIn hiddenRole (activeBank hiddenRole) = some (imgSfw plainFirmware) := rfl
  have hbank : activeBank firmwareStarted = false := by decide +kernel
  have hexec := exec_stewardRestartDone (d := hiddenRole) (u := firmwareStarted) (by decide +kernel) (by decide +kernel) (by decide +kernel)
    (by decide +kernel) (by decide +kernel) hin (plainFirmware_passes _) rfl firmwareStarted_check
  rw [hbank] at hexec
  obtain ⟨-, hrejects⟩ := hdone _ (by decide +kernel) (by decide +kernel) (by decide +kernel) (by decide +kernel) hin hpass
  have hne : effectCheck firmwareStarted ≠ 0 := by rw [firmwareStarted_check]; decide
  obtain ⟨-, -, -, hrole, -⟩ := (hrejects hne).of_exec hexec
  rw [srcServe_fld _ _ _ (by decide +kernel)] at hrole
  cases patternRejected_role.symm.trans hrole

end Sys2Proof.Machine

/-! ### How a command can end (R95, O7, O8) -/

namespace Sys2Proof.Machine

/-- How a meaning run with the queue q can end: in a next state with that queue, or in the fault of a unit of which nothing is guaranteed,
one that P names (R95). -/
inductive Ends (q : List Instr) (P : Nat → Prop) : Res → Prop
  | next (d : Dev) : Ends q P (.next ⟨q, d⟩)
  | fault {u : Nat} (hu : P u) : Ends q P (.fault (.unitUnguaranteed u))

/-- As Ends, by a unit that stood in the list of the state when the meaning began. -/
abbrev EndsKnown (s : State) (r : Res) : Prop := Ends s.pending (· ∈ s.dev.undef) r

/-- As Ends, by whatever unit. -/
abbrev EndsAny (q : List Instr) (r : Res) : Prop := Ends q (fun _ => True) r

section Ends

variable {q : List Instr} {P Q : Nat → Prop} {r : Res} {s : State}

theorem Ends.mono (h : Ends q P r) (hPQ : ∀ u, P u → Q u) : Ends q Q r := by
  cases h with
  | next d => exact .next d
  | fault hu => exact .fault (hPQ _ hu)

theorem Ends.any (h : Ends q P r) : EndsAny q r := h.mono fun _ _ => trivial

theorem Ends.not_refused {e : Refusal} (h : Ends q P r) : r ≠ .refused e := by
  cases h <;> nofun

theorem Ends.of_fault {f : Fault} (h : Ends q P (.fault f)) : ∃ u, f = .unitUnguaranteed u ∧ P u := by
  cases h with
  | fault hu => exact ⟨_, rfl, hu⟩

/-- Where no unit can fault, a next state is the answer. -/
theorem Ends.next_of_none (h : Ends q P r) (hP : ∀ u, ¬ P u) : ∃ d, r = .next ⟨q, d⟩ := by
  cases h with
  | next d => exact ⟨d, rfl⟩
  | fault hu => exact absurd hu (hP _)

theorem Ends.ite {c : Prop} [Decidable c] {r' : Res} (h : Ends q P r) (h' : Ends q P r') : Ends q P (if c then r else r') := by
  split <;> assumption

/-- One meaning after another ends as they do. -/
theorem Ends.thenDo {f : State → Res} (h : Ends q P r) (hf : ∀ d, Ends q P (f ⟨q, d⟩)) : Ends q P (Machine.thenDo r f) := by
  cases h with
  | next d => exact hf d
  | fault hu => exact .fault hu

/-- Meanings in turn, with a note beside each result, end as each of them does. -/
theorem Ends.foldl {α β : Type} {f : β × Res → α → β × Res} (hf : ∀ b r a, Ends q P r → Ends q P (f (b, r) a).2) (l : List α)
    {x : β × Res} (hx : Ends q P x.2) : Ends q P (l.foldl f x).2 := by
  induction l generalizing x with
  | nil => exact hx
  | cons a l ih => exact ih (hf x.1 x.2 a hx)

/-! #### The operations that every meaning is made of -/

theorem ends_stay : Ends s.pending P (.next s) := .next s.dev

theorem ends_onDev {f : Dev → Dev} : Ends s.pending P (onDev s f) := .next (f s.dev)

theorem ends_onUnit {u : Nat} {f : Dev → Dev} : EndsKnown s (onUnit u s f) := by
  unfold onUnit
  split
  case isTrue hu => exact .fault hu
  case isFalse => exact ends_onDev

theorem ends_hostCmd {h : Master} {a u : Nat} {priv : Bool} {f : Dev → Dev} : EndsKnown s (hostCmd s h a priv u f) :=
  .ite ends_stay (.ite ends_onDev ends_onUnit)

theorem ends_hostRd {h : Master} {a u : Nat} {f : Dev → Dev} : EndsKnown s (hostRd s h a u f) :=
  .ite ends_stay (.ite ends_onDev ends_onUnit)

/-- A read faults at the first of its words that belongs to such a unit. -/
theorem ends_onRead {a n : Nat} {f : Dev → Dev} : EndsKnown s (onRead s a n f) := by
  unfold onRead
  split
  case h_1 b hfind =>
    have hb := List.find?_some hfind
    simp only [Bool.and_eq_true, decide_eq_true_eq] at hb
    exact .fault hb.2
  case h_2 => exact ends_onDev

/-! #### A word written to a register -/

section WordWrite

variable {h : Master} {f : RegFam} {ix : List Nat} {a : Nat} {w : Word}

theorem ends_cmdBit {bit rsv : Nat} {go : State → Res} (hgo : EndsKnown s (go s)) : EndsKnown s (cmdBit s h a bit rsv w go) :=
  .ite hgo ends_hostCmd

theorem ends_cmdBitMir {bit rsv : Nat} {go : State → Res} (hgo : EndsKnown s (go s)) : EndsKnown s (cmdBitMir s h a bit rsv w go) :=
  .ite hgo ends_hostCmd

theorem ends_writeBlock : ∀ r ∈ writeBlock s h f ix a w, EndsKnown s r := by
  unfold writeBlock
  split <;> rintro _ ⟨⟩
  -- HSPCTL, EC.CTL and PC.CTL: a bit with a command of its own
  case h_5 | h_6 | h_7 => exact ends_cmdBitMir ends_hostCmd
  all_goals exact ends_hostCmd

theorem ends_writeRgn : ∀ r ∈ writeRgn s h f ix a w, EndsKnown s r := by
  unfold writeRgn
  split <;> rintro _ ⟨⟩
  all_goals exact ends_hostCmd

theorem ends_writeChip : ∀ r ∈ writeChip s h f ix a w, EndsKnown s r := by
  unfold writeChip
  split <;> rintro _ ⟨⟩
  -- CHIP.START, PD.CTL and TRC.CTL: a bit with a command of its own
  case h_2 => exact .ite ends_hostCmd ends_hostCmd
  case h_5 => exact ends_cmdBitMir ends_hostCmd
  case h_19 => exact ends_cmdBit ends_hostCmd
  all_goals exact ends_hostCmd

theorem ends_or {x y : Option Res} (hx : ∀ r ∈ x, Ends q P r) (hy : ∀ r ∈ y, Ends q P r) : ∀ r ∈ x.or y, Ends q P r := by
  cases x with
  | none => exact hy
  | some => exact hx

theorem ends_getD {x : Option Res} (hx : ∀ r ∈ x, Ends q P r) (hr : Ends q P r) : Ends q P (x.getD r) := by
  cases x with
  | none => exact hr
  | some r => exact hx r rfl

theorem ends_regWrite : EndsKnown s (regWrite s h f ix a w) :=
  ends_getD (ends_or (ends_or ends_writeBlock ends_writeRgn) ends_writeChip) ends_hostCmd

theorem ends_wordWrite : EndsKnown s (wordWrite s h a w) := by
  refine .ite ends_stay ?_
  split
  · exact ends_regWrite
  · exact ends_onDev

end WordWrite

/-! #### Writes of several words, and the frames of the serial host port -/

section Writes

variable {h : Master} {a : Nat}

theorem ends_memWrite {m : Mem} {o : Nat} {bytes : List Byte} : EndsKnown s (memWrite s h m o bytes) := by
  cases m <;> exact ends_onUnit

theorem ends_narrowWrite {off be : Nat} {bytes : List Byte} : EndsKnown s (narrowWrite s h a off be bytes) := by
  unfold narrowWrite
  split
  · exact ends_onDev
  · exact .ite ends_onDev (.ite ends_onDev ends_regWrite)

/-- The units that fault are those of the words reached, whose guarantee an earlier word may have ended. -/
theorem ends_wordsWrite {ws : List Word} : EndsAny s.pending (wordsWrite s h a ws).2 := by
  refine Ends.foldl (fun b r e hr => ?_) ws.zipIdx ends_stay
  cases hr with
  | next d => exact (ends_wordWrite (s := ⟨s.pending, d⟩)).any
  | fault hu => exact .fault hu

theorem ends_goodWrite {bytes : List Byte} : EndsAny s.pending (goodWrite s h a bytes) := by
  unfold goodWrite
  split
  · exact ends_memWrite.any
  · refine Ends.thenDo ?_ fun d => .ite (ends_onDev (s := ⟨s.pending, d⟩)) (.next d)
    rw [apply_ite Prod.snd, apply_ite Prod.snd]
    exact .ite ends_wordsWrite (.ite ends_wordsWrite ends_narrowWrite.any)

theorem ends_registerWrite {a : BitVec 27} {lanes : List (Option Byte)} : EndsAny s.pending (execRegisterWrite h a lanes s) :=
  .ite ends_stay (.ite ends_onDev ends_goodWrite)

theorem ends_shpWords {ws : List Word} : EndsAny s.pending (shpWords s a ws).2 := by
  refine Ends.foldl (fun b r e hr => ?_) ws.zipIdx ends_stay
  cases hr with
  | fault hu => exact .fault hu
  | next d =>
    dsimp only
    split
    · exact .next _
    · dsimp only
      split
      · exact .ite (ends_memWrite (s := ⟨s.pending, d⟩)).any (.next d)
      · exact (ends_wordWrite (s := ⟨s.pending, d⟩)).any

theorem ends_shpWrite {a : Word} {ws : List Word} {crc : Byte} {say : Bool} : EndsAny s.pending (shpWrite a ws crc say s) :=
  .ite ends_stay <| .ite ends_onDev <| .ite ends_onDev <| .ite ends_onDev <|
    Ends.thenDo ends_shpWords fun d => ends_onDev (s := ⟨s.pending, d⟩)

theorem ends_shpRead {a : Word} {len : Nat} {crc : Byte} : EndsKnown s (shpRead a len crc s) :=
  .ite ends_onDev <| .ite ends_onDev <| .ite ends_onDev <| .ite ends_onDev ends_onRead

theorem ends_shpFrameCut {c : ShpCut} : EndsAny s.pending (execShpFrameCut c s) := by
  refine .ite ends_stay ?_
  cases c with
  | writeBeforeCheck => exact ends_stay
  | writeAfterCheck => exact ends_shpWrite
  | readWhileStalled => exact ends_onDev
  | readAfterEntry => exact .ite ends_stay ends_onRead.any
  | readAfterStall => exact .ite ends_stay ends_onDev

end Writes

theorem ends_wakeReleaseRead {h : Master} {a : BitVec 27} : EndsKnown s (execWakeReleaseRead h a s) := by
  refine .ite ends_hostRd (.ite ends_hostRd (.ite ends_hostRd ?_))
  split
  · exact ends_hostRd
  · exact ends_stay

end Ends

/-! #### Every command -/

/-- A command other than a write of several words completes, or faults by a unit that already stood in the list. -/
theorem exec_endsKnown (c : Instr) (s : State) (hc : wordByWord c = false) : EndsKnown s (exec c s) := by
  cases c
  case registerWrite | shpWriteFrame | shpFrameCut => cases hc
  -- what happens to the chip as a whole, and to its quench path
  case powerOn | rstNLow | rstNRise | strapChange | perstN | functionLevelReset | d3hotEntry | trstN | supplyFall | bankClassing | pllLock |
    refclkLoss | pllUnlock | clockRecovery | blockResetDone | tripInput | qinInput | twqInput | dbgHalt | jtagHalt | tdaExpire | chipFailure
    | failureReset | mwrApply | twqPulseEnd | supplyRise | perstNRise | pcieConfigRequest | quenchInputRelease =>
    unfold exec
    exact ends_onDev
  -- what happens in one unit
  case sfwStart | twinTrainTimeout | patternLoadDone | repourDone | cycleStart | sampleSlot | runSlot | kernelAbort | updateSlot |
    publishSlot | vbTransfer | consumeSlot | openSlot | captureSlot | markSlot | watchdogTrip | runmemError | runmemRewriteDone |
    stallDeclared | fallbackSwap | stallRecovery | phaseSourceUpdate | sourceTimeout | carrierPeriodStart | compareEdge | deadTimeExpire |
    pulseRowTake | pulseTableEdge | filterResult | fastResult | mclkLoss | mclkRange | mclkRecover | bitstreamStuck | bitstreamResume |
    quadCount | stepEdge | indexEdge | ssiTransferStart | ssiTransferEnd | probeEdge | senseInterval | crossbarTimeout | poolTimeout |
    portStall | regionWindowExpire | stewardHeartbeatMiss | stewardCmdTimeout | stewardRestartDone | failWindowExpire | frameReceived |
    busBillet | protocolException | transmitDecision | frameTransmitted | arbitrationLost | busError | integrationDone | recoverySequence |
    ardDwellExpire | rxDominant | windowOpen | windowClose | popStallTimeout | owntmoExpire | staleExpire | scrubDone | rebuildDone |
    evgMessage | holdoffExpire | ladleItemAvailable | ladleUnitDone | gatherExpire | descriptorTimeout | pcieError | linkUp | linkRetrain |
    linkLost | hbSend | hbReceived | digReceived | mwrReceived | rxrReceived | rxfReceived | provisionalTimeout | txrReceived | ssiMessage |
    rsyReceived | reqReceived | resyncDone | resyncTimeout | fullResyncDone | ownGuardExpire | ownIRise | ownIFall | submitTimeout |
    billetTaken | updReceived | buildDone | activationDue | twinVerifyTimeout | laneLoss | linkFault | handoverOwnRaise | handoverCompletes
    | stewardWindowExpire | qerrWindowExpire | runmemSpanExpire =>
    unfold exec
    exact ends_onUnit
  -- what a master writes
  case startGo | softwareChipReset | heatWrite | legacyWrite | blockArm | blockRun | blockStop | blockDisarm | blockReset | patternLoad |
    repour | swap | lclr | switch | softQuench | quenchClear | reval | rearm | goman | goauto | pload | preset | snap | fclr | hspCommit |
    segwrWrite | segmentWrite | portStart | portStop | recover | ard | ardstop | gonormal | golisten | timingWrite | filterEntryWrite |
    abortHead | pdata | pend | ack | slag | flush | doorbellWrite | complete | sleepWrite | sourceRoutingWrite | holdoffWrite | channelStart
    | channelStop | channelCfgWrite | tailWrite | traceClear | handover | repair | force | submit | updAbort | updCommit | actnow | confirm
    | revert =>
    unfold exec
    exact ends_hostCmd
  -- what a master reads
  case pop | claim | fastRecordRead => exact ends_hostRd
  case wakeReleaseRead => exact ends_wakeReleaseRead
  case hostReadError => exact .ite ends_stay (.ite ends_onDev (.ite ends_onDev (.ite ends_onDev ends_onRead)))
  case shpReadFrame => exact .ite ends_stay ends_shpRead
  case shpBadCommand => exact .ite ends_stay ends_onDev

/-- Any command completes, or faults by some unit. -/
theorem exec_endsAny (c : Instr) (s : State) : EndsAny s.pending (exec c s) := by
  cases hc : wordByWord c with
  | false => exact (exec_endsKnown c s hc).any
  | true =>
    cases c with
    | registerWrite => exact ends_registerWrite
    | shpWriteFrame => exact ends_shpWrite
    | shpFrameCut => exact ends_shpFrameCut
    | _ => cases hc

/-- Settles O7: a unit that could fault stands in the list of those not guaranteed, which is empty. -/
theorem guaranteedDeviceCompletes : Obligations.GuaranteedDeviceCompletes := by
  unfold Obligations.GuaranteedDeviceCompletes
  intro c d hundef hc rest
  obtain ⟨t, ht⟩ := (exec_endsKnown c ⟨rest, d⟩ hc).next_of_none (by simp [hundef])
  exact ⟨t, ht, trivial⟩

/-- Settles O8: the units that a command finds in the list are those that can fault; only a write of several words can add one before. -/
theorem onlyUnguaranteedFaults : Obligations.OnlyUnguaranteedFaults := by
  unfold Obligations.OnlyUnguaranteedFaults
  refine fun c s => ⟨fun r => (exec_endsAny c s).not_refused, fun f hf => ?_⟩
  cases hc : wordByWord c with
  | false =>
    obtain ⟨u, hu, hmem⟩ := (hf ▸ exec_endsKnown c s hc).of_fault
    exact ⟨u, hu, fun _ => hmem⟩
  | true =>
    obtain ⟨u, hu, -⟩ := (hf ▸ exec_endsAny c s).of_fault
    exact ⟨u, hu, nofun⟩

end Sys2Proof.Machine

/-! ### Host-access errors counted and logged (R110, O15) -/

namespace Sys2Proof.Machine

/-- A field written shows in the whole of its register. -/
theorem Dev.reg_put_at {ι : Type} {d : Dev} {f : RF ι} {i : ι} {v a : Nat} (ha : f.addr i = a) :
    (d.put f i v).reg a = fset f.lo f.len v (d.reg a) := by
  subst ha
  exact Dev.reg_setReg_self _ _ _

/-- CHIP.HOSTERR_ADDR and CHIP.HOSTERR_INFO show this access as the one logged. -/
structure HostErrShown (t : Dev) (kind : Nat) (h : Master) (write : Bool) (a be : Nat) : Prop where
  valid : t.fld HostErrInfo.VALID () = 1
  addr : t.fld HostErrAddr.ADDR () = a
  master : t.fld HostErrInfo.MASTER () = masterCode h
  write : t.fld HostErrInfo.WRITE () = write.toNat
  kind : t.fld HostErrInfo.KIND () = kind
  be : t.fld HostErrInfo.BE () = be

section HostErrors

variable {d : Dev} {kind : Nat} {h : Master} {write : Bool} {a be : Nat}

/-- What is shown depends on the two registers alone. -/
theorem HostErrShown.of_regs {t u : Dev} (hs : HostErrShown t kind h write a be) (haddr : u.reg (HostErrAddr.addr ()) = t.reg (HostErrAddr.addr ()))
    (hinfo : u.reg (HostErrInfo.addr ()) = t.reg (HostErrInfo.addr ())) : HostErrShown u kind h write a be := by
  have hf {f : RF Unit} (ha : f.addr () = HostErrInfo.addr ()) : u.fld f () = t.fld f () := by rw [Dev.fld, Dev.fld, ha, hinfo]
  have ha : u.fld HostErrAddr.ADDR () = t.fld HostErrAddr.ADDR () := congrArg (fget 0 27) haddr
  exact ⟨(hf rfl).trans hs.valid, ha.trans hs.addr, (hf rfl).trans hs.master, (hf rfl).trans hs.write, (hf rfl).trans hs.kind,
    (hf rfl).trans hs.be⟩

theorem hostErrLog_info : OnlyRegs [HostErrInfo.addr ()] (d.setReg (HostErrAddr.addr ()) (BitVec.ofNat 32 (a % 2 ^ 27)))
    (hostErrLog d kind h write a be) := by
  have hin {f : RF Unit} (ha : f.addr () = HostErrInfo.addr ()) : f.addr () ∈ [HostErrInfo.addr ()] := by simp [ha]
  exact (onlyRegs_put (hin rfl)).trans <| (onlyRegs_putB (hin rfl)).trans <| (onlyRegs_put (hin rfl)).trans <|
    (onlyRegs_put (hin rfl)).trans (onlyRegs_flag (hin rfl))

theorem hostErrLog_onlyRegs : OnlyRegs [HostErrAddr.addr (), HostErrInfo.addr ()] d (hostErrLog d kind h write a be) :=
  (onlyRegs_setReg (by simp)).trans (hostErrLog_info.mono (by simp))

theorem masterCode_lt (h : Master) : masterCode h < 8 := by cases h <;> decide

theorem hostErrLog_shown (hk : kind < 7) (ha : a < 2 ^ 27) (hbe : be < 16) : HostErrShown (hostErrLog d kind h write a be) kind h write a be := by
  have hm := masterCode_lt h
  have hw : write.toNat < 2 := by cases write <;> decide
  have haddr : (hostErrLog d kind h write a be).reg (HostErrAddr.addr ()) = BitVec.ofNat 32 (a % 2 ^ 27) :=
    (hostErrLog_info.reg (by decide)).trans (Dev.reg_setReg_self _ _ _)
  have hinfo : (hostErrLog d kind h write a be).reg (HostErrInfo.addr ()) =
      fset 31 1 1 (fset 8 4 be (fset 4 3 kind (fset 3 1 write.toNat (fset 0 3 (masterCode h) (d.reg (HostErrInfo.addr ())))))) :=
    (Dev.reg_put_at rfl).trans <| congrArg (fset 31 1 1) <| (Dev.reg_put_at rfl).trans <| congrArg (fset 8 4 be) <|
      (Dev.reg_put_at rfl).trans <| congrArg (fset 4 3 kind) <| (Dev.reg_put_at rfl).trans <| congrArg (fset 3 1 write.toNat) <|
      (Dev.reg_put_at rfl).trans <| congrArg (fset 0 3 (masterCode h)) <| Dev.reg_setReg_ne _ _ _ _ (by decide)
  constructor
  case addr =>
    simp only [Dev.fld, HostErrAddr.ADDR, haddr, fget]
    simp
    omega
  all_goals
    rw [Dev.fld]
    simp only [HostErrInfo.VALID, HostErrInfo.MASTER, HostErrInfo.WRITE, HostErrInfo.KIND, HostErrInfo.BE, hinfo]
    simp (disch := omega) [fget_fset_ne]
  all_goals omega

/-! #### Counted, then logged or noted, then raised -/

/-- The device with the error counted in the counter of its kind; an interconnect error has none. -/
def hostErrCounted (d : Dev) (kind : Nat) : Dev := if kind = 4 then d else d.incSat (hostErrFld kind) ()

/-- The device with the error logged where VALID is clear, and otherwise noted for this clk where it is the first (R110). -/
def hostErrKept (d : Dev) (kind : Nat) (h : Master) (write : Bool) (a be : Nat) : Dev :=
  if !d.bit HostErrInfo.VALID () then hostErrLog d kind h write a be
  else if d.errNow.isSome then d
  else
    let x := hostErrLog d kind h write a be
    { d with errNow := some (x.reg (HostErrAddr.addr ()), x.reg (HostErrInfo.addr ())) }

theorem hostErr_eq : d.hostErr kind h write a be =
    (hostErrKept (hostErrCounted d kind) kind h write a be).raise 641
      ((hostErrKept (hostErrCounted d kind) kind h write a be).lo16 HostErrInfo.word ()) := rfl

/-- The four counters are the four bytes of CHIP.HOSTERR. -/
theorem hostErrFld_place (kind : Nat) : (hostErrFld kind).addr () = HostErr.addr () ∧ (hostErrFld kind).len = 8 ∧
    (hostErrFld kind).lo ∈ [0, 8, 16, 24] := by
  unfold hostErrFld
  split <;> exact ⟨rfl, rfl, by decide⟩

theorem hostErrCounter_addr {g : RF Unit} (hg : g ∈ [HostErr.PRIV, HostErr.NARROW, HostErr.FORM, HostErr.RSVA]) : g.addr () = HostErr.addr () := by
  simp only [List.mem_cons, List.not_mem_nil, or_false] at hg
  rcases hg with rfl | rfl | rfl | rfl <;> rfl

theorem hostErrCounted_onlyRegs : OnlyRegs [HostErr.addr ()] d (hostErrCounted d kind) := by
  unfold hostErrCounted
  split
  · exact .refl
  · have hin : (hostErrFld kind).addr () ∈ [HostErr.addr ()] := by simp [hostErrFld_place]
    exact (onlyRegs_put hin).trans ⟨rfl, fun _ _ => rfl⟩

theorem hostErrCounted_self (hk : kind ≠ 4) :
    (hostErrCounted d kind).fld (hostErrFld kind) () = min (d.fld (hostErrFld kind) () + 1) 255 := by
  obtain ⟨-, hlen, hlo⟩ := hostErrFld_place kind
  have hle : (hostErrFld kind).lo + (hostErrFld kind).len ≤ 32 := by simp at hlo; omega
  rw [hostErrCounted, if_neg hk]
  refine (Dev.fld_put_self _ _ _ _ hle).trans ?_
  rw [hlen]
  omega

theorem hostErrCounted_other {g : RF Unit} (hg : g ∈ [HostErr.PRIV, HostErr.NARROW, HostErr.FORM, HostErr.RSVA])
    (hne : kind = 4 ∨ g.lo ≠ (hostErrFld kind).lo) : (hostErrCounted d kind).fld g () = d.fld g () := by
  obtain ⟨-, hlen, hlo⟩ := hostErrFld_place kind
  have hall : ∀ g ∈ [HostErr.PRIV, HostErr.NARROW, HostErr.FORM, HostErr.RSVA], g.len = 8 ∧ g.lo ∈ [0, 8, 16, 24] := by decide
  obtain ⟨hglen, hglo⟩ := hall g hg
  unfold hostErrCounted
  split
  · rfl
  · simp only [List.mem_cons, List.not_mem_nil, or_false] at hlo hglo
    exact Dev.fld_put_bits _ _ _ _ _ _ (by omega) (by omega)

theorem hostErr_valid_cases (d : Dev) : d.fld HostErrInfo.VALID () = 0 ∨ d.fld HostErrInfo.VALID () = 1 := by
  have hlt : d.fld HostErrInfo.VALID () < 2 ^ 1 := Dev.fld_lt d HostErrInfo.VALID ()
  omega

theorem hostErrKept_logged (hv : d.fld HostErrInfo.VALID () = 0) : hostErrKept d kind h write a be = hostErrLog d kind h write a be := by
  simp [hostErrKept, Dev.bit_eq, hv]

theorem hostErrKept_later (hv : d.fld HostErrInfo.VALID () = 1) (hn : d.errNow ≠ none) : hostErrKept d kind h write a be = d := by
  simp [hostErrKept, Dev.bit_eq, hv, Option.isSome_iff_ne_none, hn]

theorem hostErrKept_noted (hv : d.fld HostErrInfo.VALID () = 1) (hn : d.errNow = none) :
    hostErrKept d kind h write a be = { d with errNow := some ((hostErrLog d kind h write a be).reg (HostErrAddr.addr ()),
      (hostErrLog d kind h write a be).reg (HostErrInfo.addr ())) } := by
  simp [hostErrKept, Dev.bit_eq, hv, hn]

theorem hostErrKept_regs (hv : d.fld HostErrInfo.VALID () = 1) (x : Nat) : (hostErrKept d kind h write a be).reg x = d.reg x := by
  rcases hn : d.errNow with _ | e
  · rw [hostErrKept_noted hv hn]
    rfl
  · rw [hostErrKept_later hv (by simp [hn])]

/-- Keeping an error touches the log and the note of this clk alone, and leaves VALID set. -/
theorem hostErrKept_frame (hk : kind < 7) (ha : a < 2 ^ 27) (hbe : be < 16) : let t := hostErrKept d kind h write a be
    t = { d with regs := t.regs, hw := t.hw, errNow := t.errNow } ∧ RegsKept [HostErrAddr.addr (), HostErrInfo.addr ()] d t ∧
    t.fld HostErrInfo.VALID () = 1 := by
  rcases hostErr_valid_cases d with hv | hv
  · rw [hostErrKept_logged hv]
    obtain ⟨hrest, hregs⟩ := hostErrLog_onlyRegs (d := d) (kind := kind) (h := h) (write := write) (a := a) (be := be)
    exact ⟨by rw [hrest], hregs, (hostErrLog_shown hk ha hbe).valid⟩
  · rcases hn : d.errNow with _ | e
    · rw [hostErrKept_noted hv hn]
      exact ⟨rfl, fun _ _ => rfl, hv⟩
    · rw [hostErrKept_later hv (by simp [hn])]
      exact ⟨rfl, fun _ _ => rfl, hv⟩

/-- An error logged at once leaves the note of this clk as it was, and so does one after the first. -/
theorem hostErrKept_errNow (hkeep : d.fld HostErrInfo.VALID () = 0 ∨ d.errNow ≠ none) :
    (hostErrKept d kind h write a be).errNow = d.errNow := by
  rcases hostErr_valid_cases d with hv | hv
  · rw [hostErrKept_logged hv]
    exact (congrArg Dev.errNow hostErrLog_onlyRegs.1 :)
  · rw [hostErrKept_later hv (by simpa [hv] using hkeep)]

/-- An error noted in this clk is the one logged where VALID is cleared in it. -/
theorem hostErrAgain_noted {t x : Dev} (hk : kind < 7) (ha : a < 2 ^ 27) (hbe : be < 16) (hx : x = hostErrLog d kind h write a be)
    (hn : t.errNow = some (x.reg (HostErrAddr.addr ()), x.reg (HostErrInfo.addr ()))) :
    HostErrShown (hostErrAgain (t.clr HostErrInfo.VALID ())) kind h write a be := by
  subst hx
  rw [hostErrAgain_of_waiting (d := t.clr HostErrInfo.VALID ()) hn (Dev.bit_clr_self _ _ _ (by decide))]
  exact (hostErrLog_shown hk ha hbe).of_regs ((Dev.reg_setReg_ne _ _ _ _ (by decide)).trans (Dev.reg_setReg_self _ _ _)) (Dev.reg_setReg_self _ _ _)

end HostErrors

/-- Settles O15: the error is counted, then logged or noted, then raised; each of these leaves the rest alone. -/
theorem hostErrorsCountedAndLogged : Obligations.HostErrorsCountedAndLogged := by
  unfold Obligations.HostErrorsCountedAndLogged
  intro d kind h write a be hk ha hbe
  dsimp only
  rw [hostErr_eq]
  have hcount := hostErrCounted_onlyRegs (d := d) (kind := kind)
  have hself := hostErrCounted_self (d := d) (kind := kind)
  have hother := fun g => hostErrCounted_other (d := d) (kind := kind) (g := g)
  generalize hostErrCounted d kind = c at *
  have herr : c.errNow = d.errNow := (congrArg Dev.errNow hcount.1 :)
  have hvalid : c.fld HostErrInfo.VALID () = d.fld HostErrInfo.VALID () := hcount.fld (by decide)
  obtain ⟨hrest, hregs, hset⟩ := hostErrKept_frame (d := c) (h := h) (write := write) hk ha hbe
  have hlogged := hostErrKept_logged (d := c) (kind := kind) (h := h) (write := write) (a := a) (be := be)
  have hnoted := hostErrKept_noted (d := c) (kind := kind) (h := h) (write := write) (a := a) (be := be)
  have hsame := hostErrKept_regs (d := c) (kind := kind) (h := h) (write := write) (a := a) (be := be)
  have hnow := hostErrKept_errNow (d := c) (kind := kind) (h := h) (write := write) (a := a) (be := be)
  rw [hvalid, herr] at hnow
  rw [hvalid] at hlogged hnoted hsame
  generalize hostErrKept c kind h write a be = k at *
  have hall : k = { d with regs := k.regs, hw := k.hw, errNow := k.errNow } :=
    hrest.trans (congrArg (fun z : Dev => { z with regs := k.regs, hw := k.hw, errNow := k.errNow }) hcount.1)
  have hcounter {g : RF Unit} (hg : g.addr () = HostErr.addr ()) : k.fld g () = c.fld g () := by
    rw [Dev.fld, Dev.fld, hg, hregs _ (by decide)]
  refine ⟨congrArg (fun z : Dev => { z with evq := (k.raise 641 (k.lo16 HostErrInfo.word ())).evq }) hall, fun x hx => ?kept,
    fun hne => (hcounter (hostErrFld_place kind).1).trans (hself hne), fun g hg hne => (hcounter (hostErrCounter_addr hg)).trans (hother g hg hne), hset,
    fun hv => ⟨(hsame hv _).trans (hcount.reg (by decide)), (hsame hv _).trans (hcount.reg (by decide))⟩, fun hv hn => ?noted, hnow,
    fun hv => ?logged, ?message⟩
  case kept =>
    simp only [List.mem_cons, List.not_mem_nil, or_false, not_or] at hx
    exact (hregs x (by simp [hx])).trans (hcount.2 x (by simp [hx]))
  case noted =>
    obtain ⟨hval, haddr, hmaster, hwrite, hkind, hbytes⟩ := hostErrAgain_noted (t := k.raise 641 (k.lo16 HostErrInfo.word ())) hk ha hbe rfl
      (congrArg Dev.errNow (hnoted hv (herr.trans hn)))
    exact ⟨hval, haddr, hmaster, hwrite, hkind, hbytes⟩
  case logged =>
    rw [hlogged hv]
    obtain ⟨-, haddr, hmaster, hwrite, hkind, hbytes⟩ := hostErrLog_shown (d := c) (h := h) (write := write) hk ha hbe
    exact ⟨haddr, hmaster, hwrite, hkind, hbytes⟩
  case message =>
    have hclk : k.clk = d.clk := (congrArg Dev.clk hall :)
    have hevq : k.evq = d.evq := (congrArg Dev.evq hall :)
    show msgInsert ⟨k.clk, 641, true, k.lo16 HostErrInfo.word () % 65536, false⟩ k.evq = _
    rw [hclk, hevq, Dev.lo16, Nat.mod_mod]
    rfl

end Sys2Proof.Machine

/-! ### Writes of the masters judged (R97, R98, R100 to R103, R109, R110, R113, O16) -/

namespace Sys2Proof.Machine

/-! #### The form of a write (R97, R101) -/

/-- A write whose enables select all its bytes. -/
theorem laneBytes_some (bytes : List Byte) : laneBytes (bytes.map some) = (0, bytes, true) := by
  have hskip : (bytes.map some).takeWhile (fun x => x.isNone) = [] := by cases bytes <;> rfl
  have htake : (bytes.map some).takeWhile (fun x => x.isSome) = bytes.map some := by simp [List.takeWhile_eq_self_iff]
  have hdrop : (bytes.map some).drop bytes.length = [] := List.drop_of_length_le (by simp)
  simp [laneBytes, hskip, htake, hdrop, List.filterMap_map]

/-- The enables of the first word: a run of k bytes from place p on, cut at the word's end. -/
theorem enables_run (p k : Nat) (hp : p < 4) :
    (List.range 4).foldl (fun m i => if p ≤ i ∧ i - p < k then m + 2 ^ i else m) 0 = (2 ^ k - 1) * 2 ^ p % 16 := by
  rcases lt_or_ge k 4 with hk | hk
  · interval_cases p <;> interval_cases k <;> rfl
  · have hfit (i : Nat) (hi : i ∈ List.range 4) : (p ≤ i ∧ i - p < k) = (p ≤ i) := by
      have hi4 := List.mem_range.mp hi
      simp only [eq_iff_iff]
      omega
    have hones : (2 ^ k - 1) % 16 = 15 := by
      obtain ⟨j, rfl⟩ := Nat.exists_eq_add_of_le hk
      have hpos := Nat.two_pow_pos j
      rw [pow_add]
      omega
    rw [List.foldl_ext _ (fun m i => if p ≤ i then m + 2 ^ i else m) 0 fun m i hi => by simp only [hfit i hi], Nat.mul_mod, hones]
    interval_cases p <;> rfl

/-- The enables of a write that select all its bytes (R110). -/
theorem beLanes_some (a : Nat) (bytes : List Byte) : beLanes a (bytes.map some) = beOf a bytes.length := by
  have hsel (i : Nat) : (a ≤ a / 4 * 4 + i ∧ ((bytes.map some)[a / 4 * 4 + i - a]?.getD none).isSome) =
      (a % 4 ≤ i ∧ i - a % 4 < bytes.length) := by
    have hat (j : Nat) : ((bytes.map some)[j]?.getD none).isSome = decide (j < bytes.length) := by
      by_cases hj : j < bytes.length <;> simp [hj]
    simp only [hat, decide_eq_true_eq, eq_iff_iff]
    omega
  rw [beOf, ← enables_run _ _ (Nat.mod_lt _ (by omega))]
  simp only [beLanes, laneBytes_some, Nat.add_zero, hsel]

/-- A master's write that reaches the device, at an open stage. -/
structure WriteOpen (d : Dev) (h : Master) (a : Nat) : Prop where
  up : masterUp d h = true
  stage : stageOpen d a = true
  running : d.fld Start.STAGE () ≠ 0

/-! #### Words written in turn, and what each space does with a good form (R98, R100, R101) -/

/-- A write carried out, with its AER entry where a word of it was an error of the legacy mode (R103, R113). -/
def aerAfter (h : Master) (bad : Bool) (t : State) : Res := if bad then onDev t fun d => aerLog d h else .next t

theorem thenDo_next (r : Res) : thenDo r .next = r := by
  cases r <;> rfl

section GoodWrite

variable {s : State} {h : Master} {a : Nat}

theorem goodWrite_memory {bytes : List Byte} {m : Mem} {o : Nat} (hmem : memAt a = some (m, o)) :
    goodWrite s h a bytes = memWrite s h m o bytes := by
  simp [goodWrite, hmem]

theorem goodWrite_word (hmem : memAt a = none) (w : Word) :
    goodWrite s h a (byte4 w) = thenDo (wordWrite s h a w) (aerAfter h (accErr s.dev h a)) := by
  have hlen : (byte4 w).length = 4 := rfl
  have htake : (byte4 w).take 4 = byte4 w := rfl
  simp only [goodWrite, hmem, hlen, Nat.mul_zero, List.drop_zero, htake, ofNat_leVal_byte4]
  rfl

/-- The lower address first, the upper word on the state that the lower one leaves (R98). -/
theorem goodWrite_pair (hmem : memAt a = none) (v w : Word) :
    goodWrite s h a (byte4 v ++ byte4 w) = thenDo (wordWrite s h a v) fun s' =>
      thenDo (wordWrite s' h (a + 4) w) (aerAfter h (accErr s.dev h a || accErr s'.dev h (a + 4))) := by
  have hlen : (byte4 v ++ byte4 w).length = 8 := rfl
  have hlow : (byte4 v ++ byte4 w).take 4 = byte4 v := rfl
  have hhigh : ((byte4 v ++ byte4 w).drop 4).take 4 = byte4 w := rfl
  simp only [goodWrite, hmem, hlen, Nat.mul_zero, Nat.mul_one, List.drop_zero, hlow, hhigh, ofNat_leVal_byte4]
  show thenDo (wordsWrite s h a [v, w]).2 (aerAfter h (wordsWrite s h a [v, w]).1) = _
  cases hv : wordWrite s h a v <;> simp [wordsWrite, hv, thenDo]

theorem goodWrite_narrow {bytes : List Byte} (hmem : memAt a = none) (hk : bytes.length = 1 ∨ bytes.length = 2) :
    goodWrite s h a bytes = thenDo (narrowWrite s h (a / 4 * 4) (a % 4) (beOf a bytes.length) bytes)
      (aerAfter h (accErr s.dev h (a / 4 * 4))) := by
  have h4 : bytes.length ≠ 4 := by omega
  have h8 : bytes.length ≠ 8 := by omega
  simp only [goodWrite, hmem, h4, h8, if_false]
  rfl

/-- An address that holds a register is no error of the legacy mode. -/
theorem accErr_register {d : Dev} {f : RegFam} {ix : List Nat} (hreg : regAt a = some (f, ix)) : accErr d h a = false := by
  simp [accErr, legacyErr, reservedAt, hreg]

theorem accErr_notLegacy {d : Dev} (hl : d.bit ChipMode.LEGACY () = false) : accErr d h a = false := by
  simp [accErr, legacyErr, hl]

/-- A reserved address outside the security area is an error of the legacy mode for the masters of R103. -/
theorem accErr_reserved {d : Dev} (hs : stageOpen d a = true) (hsec : secArea a = false) (hmem : memAt a = none) (hrec : recAt a = none)
    (hreg : regAt a = none) : accErr d h a = (d.bit ChipMode.LEGACY () && (h == .pf0 || h == .pf1 || h == .shp)) := by
  simp [accErr, legacyErr, reservedAt, hs, privAt_reserved hrec hreg, hsec, hmem, hrec, hreg]

end GoodWrite

section HostWrites

variable {d : Dev} {h : Master} {a : BitVec 27} {bytes : List Byte} {rest : List Instr} {n k : Nat}

/-- A write whose enables select all its bytes is judged by its form. -/
theorem exec_registerWrite_open (hw : WriteOpen d h a.toNat) (hk : bytes.length ≠ 0) :
    exec (.registerWrite h a (bytes.map some)) ⟨rest, d⟩ =
      if formOk a.toNat bytes.length false then goodWrite ⟨rest, d⟩ h a.toNat bytes
      else .next ⟨rest, aerLog (d.hostErr 2 h true a.toNat (beOf a.toNat bytes.length)) h⟩ := by
  obtain ⟨hup, hstage, hrun⟩ := hw
  show execRegisterWrite h a (bytes.map some) ⟨rest, d⟩ = _
  simp only [execRegisterWrite, laneBytes_some, beLanes_some, Nat.add_zero, hup, hstage, hrun, hk]
  cases formOk a.toNat bytes.length false <;> rfl

theorem gives_write_formError (hw : WriteOpen d h a.toNat) (hk : bytes.length ≠ 0) (hform : formOk a.toNat bytes.length false = false) :
    Gives (.registerWrite h a (bytes.map some)) d (aerLog (d.hostErr 2 h true a.toNat (beOf a.toNat bytes.length)) h) := by
  intro rest
  rw [exec_registerWrite_open hw hk, if_neg (by simp [hform])]

/-- An aligned write of 1, 2, 4 or 8 bytes has a form that registers take (R97). -/
theorem formOk_write (hk : k = 1 ∨ k = 2 ∨ k = 4 ∨ k = 8) (hal : n % k = 0) (hmem : memAt n = none) : formOk n k false = true := by
  rcases hk with rfl | rfl | rfl | rfl <;> simp [formOk, hmem, hal]

theorem formOk_write_unaligned (hk : k = 2 ∨ k = 4 ∨ k = 8) (hal : n % k ≠ 0) : formOk n k false = false := by
  unfold formOk
  rcases hk with rfl | rfl | rfl <;> split <;> simp [hal]

/-- A write of a whole word outside the memories is that word's, with its AER entry. -/
theorem exec_write_word (hw : WriteOpen d h a.toNat) (hal : a.toNat % 4 = 0) (hmem : memAt a.toNat = none) (w : Word) :
    exec (.registerWrite h a ((byte4 w).map some)) ⟨rest, d⟩ =
      thenDo (wordWrite ⟨rest, d⟩ h a.toNat w) (aerAfter h (accErr d h a.toNat)) := by
  have hform : formOk a.toNat (byte4 w).length false = true := formOk_write (.inr (.inr (.inl rfl))) hal hmem
  rw [exec_registerWrite_open hw (by simp [byte4]), if_pos hform, goodWrite_word hmem]

/-- As exec_write_word, for two words (R98). -/
theorem exec_write_pair (hw : WriteOpen d h a.toNat) (hal : a.toNat % 8 = 0) (hmem : memAt a.toNat = none) (v w : Word) :
    exec (.registerWrite h a ((byte4 v ++ byte4 w).map some)) ⟨rest, d⟩ =
      thenDo (wordWrite ⟨rest, d⟩ h a.toNat v) fun s => thenDo (wordWrite s h (a.toNat + 4) w)
        (aerAfter h (accErr d h a.toNat || accErr s.dev h (a.toNat + 4))) := by
  have hform : formOk a.toNat (byte4 v ++ byte4 w).length false = true := formOk_write (.inr (.inr (.inr rfl))) hal hmem
  rw [exec_registerWrite_open hw (by simp [byte4]), if_pos hform, goodWrite_pair hmem]

/-- As exec_write_word, for a part of one word (R100). -/
theorem exec_write_narrow (hw : WriteOpen d h a.toNat) (hk : bytes.length = 1 ∨ bytes.length = 2) (hal : a.toNat % bytes.length = 0)
    (hmem : memAt a.toNat = none) : exec (.registerWrite h a (bytes.map some)) ⟨rest, d⟩ =
      thenDo (narrowWrite ⟨rest, d⟩ h (a.toNat / 4 * 4) (a.toNat % 4) (beOf a.toNat bytes.length) bytes)
        (aerAfter h (accErr d h (a.toNat / 4 * 4))) := by
  rw [exec_registerWrite_open hw (by omega), if_pos (formOk_write (by omega) hal hmem), goodWrite_narrow hmem hk]

/-- Registers take no more than 8 bytes, and no space takes more than 256 (R97, R101). -/
theorem formOk_write_long (hk : (memAt n = none ∧ 8 < k) ∨ 256 < k) : formOk n k false = false := by
  have hsize : ¬ (k = 1 ∨ k = 2 ∨ k = 4 ∨ k = 8) := by omega
  unfold formOk
  rcases hk with ⟨hmem, -⟩ | hk
  · simp [hmem, hsize]
  · have h256 : ¬ k ≤ 256 := by omega
    split <;> simp [hsize, h256]

theorem hwin_write_form {o k : Nat} (hfit : o + k ≤ hwinSize) (hk0 : k ≠ 0)
    (hform : (k = 1 ∨ k = 2 ∨ k = 4 ∨ k = 8) ∧ o % k = 0 ∨ 8 < k ∧ k ≤ 256 ∧ k % 4 = 0 ∧ o % 4 = 0) :
    formOk (0x800000 + o) k false = true := by
  have hlast : memAt (0x800000 + o + k - 1) = some (.host, o + k - 1) := by
    rw [show 0x800000 + o + k - 1 = 0x800000 + (o + k - 1) by omega]
    exact memAt_hwin (by omega)
  rw [formOk, memAt_hwin (by omega), hlast]
  rcases hform with ⟨hsize, hal⟩ | ⟨hlong, hle, h4, ho4⟩
  · rcases hsize with rfl | rfl | rfl | rfl <;> simp <;> omega
  · simp [hlong, hle, h4, show (0x800000 + o) % 4 = 0 by omega]

end HostWrites

/-- Settles O16: a write is judged by its form, and one of a good form by what its words reach. -/
theorem hostWritesJudged : Obligations.HostWritesJudged := by
  unfold Obligations.HostWritesJudged
  have hbe (n : Nat) (hal : n % 4 = 0) : beOf n 4 = 15 := by simp [beOf, hal]
  refine ⟨?window, ?unaligned, ?reserved, ?privileged, ?narrow, ?legacyOff, ?pair, ?long⟩
  case window =>
    intro d h o bytes hfit hform ⟨hup, hstage, hu⟩ rest
    have hk0 : bytes.length ≠ 0 := by omega
    have hn : (BitVec.ofNat 27 (0x800000 + o)).toNat = 0x800000 + o := by
      unfold hwinSize at hfit
      simp only [BitVec.toNat_ofNat]
      omega
    have hexec := exec_registerWrite_open (d := d) (h := h) (a := BitVec.ofNat 27 (0x800000 + o)) (bytes := bytes) (rest := rest)
      (by rw [hn]; exact ⟨hup, hstage, stage_of_stageOpen hstage⟩) hk0
    rw [hn, if_pos (hwin_write_form hfit hk0 hform), goodWrite_memory (memAt_hwin (by omega))] at hexec
    obtain ⟨m, hm⟩ := hwPut_eq d o bytes
    refine ⟨hwPut d o bytes, hexec.trans (by simp [memWrite, onChip, onUnit, onDev, hu]), by rw [hm], fun x => hwByte_hwPut d o x bytes⟩
  case unaligned =>
    intro d h a bytes hk hal hup hstage hrun
    exact gives_write_formError ⟨hup, hstage, hrun⟩ (by omega) (formOk_write_unaligned hk hal)
  case reserved =>
    intro d h a w hal hmem hreg hrec hsec hup hstage hrun rest
    have hword : wordWrite ⟨rest, d⟩ h a.toNat w = .next ⟨rest, d.hostErr 3 h true a.toNat 15⟩ := by
      simp [wordWrite, hstage, hreg, writeNone, onDev, privAt_reserved hrec hreg, hsec, hrec]
    rw [exec_write_word ⟨hup, hstage, hrun⟩ hal hmem, hword, accErr_reserved hstage hsec hmem hrec hreg]
    exact (apply_ite (fun x => Host.Outcome.next (State.mk rest x)) _ _ _).symm
  case privileged =>
    intro d h a f ix w hal hmem hreg hp hn hh hup hstage hrun rest
    obtain ⟨hblock, hrgn, hchip⟩ := hn ⟨rest, d⟩
    have hword : wordWrite ⟨rest, d⟩ h a.toNat w = .next ⟨rest, d.hostErr 0 h true a.toNat 15⟩ := by
      simp [wordWrite, hstage, hreg, regWrite, hblock, hrgn, hchip, plainHost, hostW, hostCmd, hup, hp, hh, onDev]
    rw [exec_write_word ⟨hup, hstage, hrun⟩ hal hmem, hword, accErr_register hreg]
    rfl
  case narrow =>
    intro d h a f ix bytes hmem hk hal hreg hcls hp hst hup hstage hrun rest
    have hnarrow : narrowWrite ⟨rest, d⟩ h (a.toNat / 4 * 4) (a.toNat % 4) (beOf a.toNat bytes.length) bytes =
        .next ⟨rest, d.hostErr 1 h true (a.toNat / 4 * 4) (beOf a.toNat bytes.length)⟩ := by
      have hbad : (f.mtype || !f.fields.all fun x => x.2.2 == .cfg || x.2.2 == .live) = true := by
        rcases hcls with hm | hcls
        · simp only [hm, Bool.true_or]
        · simp only [hcls, Bool.not_false, Bool.or_true]
      simp only [narrowWrite, hreg, hp, hst, hbad, Bool.or_false, Bool.false_and, if_true]
      rfl
    rw [exec_write_narrow ⟨hup, hstage, hrun⟩ hk hal hmem, hnarrow, accErr_register hreg]
    rfl
  case legacyOff =>
    intro d h a v w rest hal hmem hl hup hstage hrun
    rw [exec_write_pair ⟨hup, hstage, hrun⟩ hal hmem, exec_write_word ⟨hup, hstage, hrun⟩ (by omega) hmem, accErr_notLegacy hl]
    exact congrArg (thenDo · _) (thenDo_next _).symm
  case pair =>
    intro d h a v w rest hal hmem hup hstage hrun
    exact exec_write_pair ⟨hup, hstage, hrun⟩ hal hmem v w
  case long =>
    intro d h a bytes hup hstage hrun hk
    exact gives_write_formError ⟨hup, hstage, hrun⟩ (by omega) (formOk_write_long hk)

end Sys2Proof.Machine

/-! ### Event targets: a counterexample to O47 (R351, R461) -/

namespace Sys2Proof.Machine

/-- The device runs, and bank H, which holds the balls of the serial host port, has not been classed. -/
def portUnclassed : Dev := { State.reset.dev.put Start.STAGE () 5 with rstN := true }

/-- A port whose bank is not good answers nothing (R461). -/
theorem answer_portUnclassed (ws : List Word) : (answer portUnclassed .shp 0 ws).out = portUnclassed.out := by
  have hbank : portUnclassed.supply.contains .h = false := by decide
  simp only [answer, if_true, shpSay, hbank]
  rfl

/-- Refutes O47: it says that a read of a fast record register is always answered. The serial host port reads T0.FR0 while bank H is not
classed: the read is carried out, and the port sends no answer. -/
theorem not_eventTargets : ¬ Obligations.EventTargets := by
  unfold Obligations.EventTargets
  rintro ⟨-, htargets, -⟩
  obtain ⟨-, -, hread⟩ := htargets portUnclassed .shp 0 (by decide +kernel) (.inl (by decide))
  have hreach : Reaches portUnclassed .shp (TFr.addr (0, 0)) unitChip := ⟨by decide +kernel, by decide +kernel, by decide⟩
  obtain ⟨t, -, -, ⟨o, -, hout⟩, -⟩ := hread 0 hreach []
  rw [answer_portUnclassed] at hout
  exact List.cons_ne_self _ _ hout.symm

end Sys2Proof.Machine

/-! ### Runner memory errors: a counterexample to O30 (R84, R85, R127, R270) -/

namespace Sys2Proof.Machine

/-- Block 0 stands HELD with its latch set, as R84 allows, no cause is active, and the domain of its banks is valid. -/
def heldLatched : Dev :=
  let d := { (State.reset.dev.put Start.STAGE () 5).put TwStat.ROLE () 0 with rstN := true, pat := some droppablePattern }
  (((d.put BkStat.STATE 0 1).flag PdStat.VALID 0).put Qcause.CAUSE 0 1).flag Qstat.LATCH 0

/-- The device after commands carried out in turn within one clk; one that does not complete leaves it as it is. -/
def carriedOut (d : Dev) (cs : List Instr) : Dev :=
  cs.foldl (fun d c => match exec c ⟨[], d⟩ with
    | .next s => s.dev
    | _ => d) d

/-- Within one clk the latch of that block is cleared, its ARM is accepted, and a cycle start makes it ARMED. -/
def clearedAndArmed : Dev := carriedOut heldLatched [.quenchClear .shp 0 0, .blockArm .shp 0 0, .cycleStart 0]

/-- A fetch of a block with a section that finds an uncorrectable error is handled as R127 and R383 say. -/
theorem exec_runmemError_fetch {d : Dev} {nn : Fin 16} (hu : unitBlk nn ∉ d.undef) (hsec : hasSec d nn = true) :
    Gives (.runmemError nn .fetch) d (runmemFetch d nn) := by
  intro rest
  show execRunmemError nn .fetch ⟨rest, d⟩ = _
  rw [execRunmemError, onBlock_known hu]
  simp [hsec]

/-- Refutes O30: the latch of block 0 in HELD is cleared, the block is armed, and a fetch finds an uncorrectable error, all in one clk.
The cause undoes the clear (R270), which puts the block back to HELD, the state before the clear; the statement has QUENCHED for a
block found ARMED. -/
theorem not_runnerFaultsAndStalls : ¬ Obligations.RunnerFaultsAndStalls := by
  unfold Obligations.RunnerFaultsAndStalls
  intro h
  have hu : unitBlk 0 ∉ clearedAndArmed.undef := by decide +kernel
  have hsec : hasSec clearedAndArmed 0 = true := by decide +kernel
  have harmed : clearedAndArmed.fld BkStat.STATE 0 = 2 := by decide +kernel
  have hheld : (runmemFetch clearedAndArmed 0).fld BkStat.STATE 0 = 1 := by decide +kernel
  obtain ⟨-, -, -, -, -, hfetch, -⟩ := h clearedAndArmed 0 hu
  obtain ⟨-, -, -, -, -, -, -, -, hquenched, -⟩ :=
    (hfetch hsec (by decide +kernel) (by decide +kernel)).of_exec (exec_runmemError_fetch hu hsec [])
  exact absurd (hheld.symm.trans (hquenched (.inl harmed))) (by decide)

end Sys2Proof.Machine

/-! ### One phase domain: what its commands leave, and that its phase never goes back (R155, R156, R158, R162, R163) -/

namespace Sys2Proof.Machine

/-! #### Every domain kept -/

/-- What a stall of blocks and the closing of windows leave: the domains, their clk, and the chip's own registers, all below the first
region's. -/
structure DomsKept (d t : Dev) : Prop where
  clk : t.clk = d.clk
  dom : t.dom = d.dom
  regs : ∀ a, a < 0x1000000 → t.reg a = d.reg a

section DomsKept

variable {d x y : Dev} {ι : Type} {f : RF ι} {i : ι} {nn : Fin 16} {p : Fin 4} {w : Fin 32}

theorem DomsKept.refl : DomsKept d d := ⟨rfl, rfl, fun _ _ => rfl⟩

theorem DomsKept.trans (h1 : DomsKept d x) (h2 : DomsKept x y) : DomsKept d y :=
  ⟨h2.clk.trans h1.clk, h2.dom.trans h1.dom, fun a ha => (h2.regs a ha).trans (h1.regs a ha)⟩

theorem DomsKept.ite {c : Prop} [Decidable c] (hx : DomsKept d x) (hy : DomsKept d y) : DomsKept d (if c then x else y) := by
  split <;> assumption

theorem DomsKept.forAll {n : Nat} {g : Dev → Fin n → Dev} (hg : ∀ z j, DomsKept z (g z j)) : DomsKept d (Machine.forAll d g) :=
  forAll_induction (fun _ z => DomsKept d z) .refl fun j z hz => hz.trans (hg z j)

theorem DomsKept.pd (h : DomsKept d x) (k : Fin 8) : x.pd k = d.pd k := by simp only [Dev.pd, h.dom]

theorem DomsKept.phase (h : DomsKept d x) (k : Fin 8) : domPhase x k = domPhase d k := by simp only [domPhase, h.pd, h.clk]

theorem domsKept_onB {u : Blk → Blk} : DomsKept d (d.onB nn u) := ⟨rfl, rfl, fun _ _ => rfl⟩
theorem domsKept_onW {u : Win → Win} : DomsKept d (onW d p w u) := ⟨rfl, rfl, fun _ _ => rfl⟩
theorem domsKept_raise {s m : Nat} : DomsKept d (d.raise s m) := ⟨rfl, rfl, fun _ _ => rfl⟩
theorem domsKept_hw {l : List (Nat × Nat × Bool)} : DomsKept d { d with hw := l } := ⟨rfl, rfl, fun _ _ => rfl⟩

theorem domsKept_twSend {m : TwMsg} : DomsKept d (twSend d m) := DomsKept.refl.ite ⟨rfl, rfl, fun _ _ => rfl⟩

theorem domsKept_ownerSend {m : TwMsg} : DomsKept d (ownerSend d m) := domsKept_twSend.ite .refl

section Field

variable (ha : 0x1000000 ≤ f.addr i)
include ha

theorem domsKept_put {v : Nat} : DomsKept d (d.put f i v) := ⟨rfl, rfl, fun _ hb => Dev.reg_put_ne _ _ _ _ _ (by omega)⟩
theorem domsKept_clr : DomsKept d (d.clr f i) := domsKept_put ha
theorem domsKept_putB {b : Bool} : DomsKept d (d.putB f i b) := domsKept_put ha
theorem domsKept_flag : DomsKept d (d.flag f i) := (domsKept_put ha (v := 1)).trans domsKept_hw
theorem domsKept_flagBit {b : Nat} : DomsKept d (d.flagBit f i b) := (domsKept_put ha (v := d.fld f i ||| 2 ^ b)).trans domsKept_hw
theorem domsKept_inc : DomsKept d (d.inc f i) := (domsKept_put ha (v := d.fld f i + 1)).trans domsKept_hw

end Field

/-- The registers of blocks and of windows lie in the regions. -/
theorem blockAddr_ge (nn : Fin 16) (o : Nat) : 0x1000000 ≤ blockBase nn + o := by simp only [blockBase]; omega
theorem portAddr_ge (p : Fin 4) (o : Nat) : 0x1000000 ≤ portBase p + o := by simp only [portBase, regionBase]; omega
theorem winAddr_ge (i : Fin 4 × Fin 32) (o : Nat) : 0x1000000 ≤ portBase i.1 + 0x400 + i.2.val * 0x20 + o := by
  simp only [portBase, regionBase]; omega

theorem setSwapPend_domsKept : DomsKept d (setSwapPend d nn) :=
  (domsKept_putB (blockAddr_ge nn _)).trans (domsKept_putB (blockAddr_ge nn _))

theorem stallSeen_domsKept : DomsKept d (stallSeen d nn) :=
  have hp : 0x1000000 ≤ Pstat.addr nn := blockAddr_ge nn _
  (((domsKept_clr hp).trans (domsKept_flag hp)).trans (domsKept_flag hp)).trans domsKept_raise

theorem stallOwn_domsKept : DomsKept d (stallOwn d nn) := by
  have hhold (z : Dev) : DomsKept z (z.flag Pstat.HOLD nn) := domsKept_flag (blockAddr_ge nn _)
  have hseen : DomsKept d (stallSeen d nn) := stallSeen_domsKept
  exact .ite .refl (.ite (hseen.trans (hhold _)) (.ite (hseen.trans domsKept_onB) ((hseen.trans (hhold _)).trans domsKept_onB)))

theorem declareStall_domsKept : DomsKept d (declareStall d nn) := by
  refine .ite .refl (DomsKept.trans ?_ setSwapPend_domsKept)
  split
  · exact .ite (domsKept_onB.trans stallSeen_domsKept) stallOwn_domsKept
  · exact stallOwn_domsKept

theorem stallBound_domsKept {k : Fin 8} : DomsKept d (stallBound d k) :=
  .forAll fun _ _ => (declareStall_domsKept.ite .refl).trans ((stallOwn_domsKept.trans setSwapPend_domsKept).ite .refl)

theorem winMiss_domsKept {c : Nat} : DomsKept d (winMiss d p w c) := by
  have hstat : 0x1000000 ≤ WStat.addr (p, w) := winAddr_ge _ _
  have hcnt : 0x1000000 ≤ WCnt.addr (p, w) := winAddr_ge _ _
  have hsum : 0x1000000 ≤ Wsum.addr p := portAddr_ge p _
  exact (((((domsKept_inc hcnt).trans (domsKept_flag hstat)).trans (domsKept_put hstat)).trans ((domsKept_flag hstat).ite .refl)).trans
    (domsKept_flagBit hsum)).trans domsKept_raise

theorem winFinal_domsKept : DomsKept d (winFinal d p w) :=
  domsKept_onW.trans (.ite .refl (domsKept_ownerSend.ite (winMiss_domsKept.trans domsKept_ownerSend)))

theorem winClose_domsKept : DomsKept d (winClose d p w) := by
  have hstat : 0x1000000 ≤ WStat.addr (p, w) := winAddr_ge _ _
  have hclosed (b : Bool) :
      DomsKept d (onW ((d.clr WStat.FRESH (p, w)).clr WStat.DUE (p, w)) p w fun x => { x with isOpen := false, closing := b }) :=
    ((domsKept_clr hstat).trans (domsKept_clr hstat)).trans domsKept_onW
  exact .ite .refl (.ite (hclosed _) ((hclosed _).trans winFinal_domsKept))

theorem winsInvalid_domsKept {k : Fin 8} : DomsKept d (winsInvalid d k) :=
  .forAll fun _ _ => .forAll fun _ _ => winClose_domsKept.ite .refl

end DomsKept

/-! #### One domain changed -/

/-- The registers of domain k that its commands and sources write. -/
def domRegs (k : Fin 8) : List Nat := [PdCtl.addr k, PdStat.addr k]

/-- Nothing differs but domain k and its registers. -/
structure OnlyDomain (k : Fin 8) (d t : Dev) : Prop where
  rest : t = { d with regs := t.regs, hw := t.hw, dom := t.dom }
  regs : RegsKept (domRegs k) d t
  others : ∀ j, j ≠ k → t.pd j = d.pd j

theorem pdStat_notMem_domRegs {j k : Fin 8} (h : j ≠ k) : PdStat.addr j ∉ domRegs k := by
  simp only [domRegs, PdStat.addr, PdCtl.addr, List.mem_cons, List.not_mem_nil, or_false, not_or]
  have := Fin.val_ne_of_ne h
  omega

theorem pdCfg_notMem_domRegs (j k : Fin 8) : PdCfg.addr j ∉ domRegs k := by
  simp only [domRegs, PdStat.addr, PdCfg.addr, PdCtl.addr, List.mem_cons, List.not_mem_nil, or_false, not_or]
  omega

/-- All of them lie in the area of the domains. -/
theorem notMem_domRegs {k : Fin 8} {a : Nat} (h : a < 0x30000 ∨ 0x30800 ≤ a) : a ∉ domRegs k := by
  simp only [domRegs, PdStat.addr, PdCtl.addr, List.mem_cons, List.not_mem_nil, or_false, not_or]
  omega

theorem blockAddr_notMem_domRegs (nn : Fin 16) (o : Nat) (k : Fin 8) : blockBase nn + o ∉ domRegs k :=
  notMem_domRegs (.inr (le_trans (by decide) (blockAddr_ge nn o)))

theorem twStat_notMem_domRegs (k : Fin 8) : TwStat.addr () ∉ domRegs k := notMem_domRegs (.inr (by decide))
theorem clkStat_notMem_domRegs (k : Fin 8) : ClkStat.addr () ∉ domRegs k := notMem_domRegs (.inl (by decide))

section OnlyDomain

variable {d x y : Dev} {k : Fin 8} {ι : Type} {f : RF ι} {i : ι}

theorem OnlyDomain.refl : OnlyDomain k d d := ⟨rfl, fun _ _ => rfl, fun _ _ => rfl⟩

theorem OnlyDomain.trans (h1 : OnlyDomain k d x) (h2 : OnlyDomain k x y) : OnlyDomain k d y where
  rest := h2.rest.trans (congrArg (fun z : Dev => { z with regs := y.regs, hw := y.hw, dom := y.dom }) h1.rest)
  regs a ha := (h2.regs a ha).trans (h1.regs a ha)
  others j hj := (h2.others j hj).trans (h1.others j hj)

theorem OnlyDomain.ite {c : Prop} [Decidable c] (hx : OnlyDomain k d x) (hy : OnlyDomain k d y) : OnlyDomain k d (if c then x else y) := by
  split <;> assumption

theorem OnlyDomain.fld (h : OnlyDomain k d x) (ha : f.addr i ∉ domRegs k) : x.fld f i = d.fld f i := by simp only [Dev.fld, h.regs _ ha]
theorem OnlyDomain.bit (h : OnlyDomain k d x) (ha : f.addr i ∉ domRegs k) : x.bit f i = d.bit f i := by simp only [Dev.bit, h.fld ha]
theorem OnlyDomain.clk (h : OnlyDomain k d x) : x.clk = d.clk := (congrArg Dev.clk h.rest :)
theorem OnlyDomain.twin (h : OnlyDomain k d x) : x.twin = d.twin := (congrArg Dev.twin h.rest :)

theorem OnlyRegs.dom {as : List Nat} (h : OnlyRegs as d x) : x.dom = d.dom := (congrArg Dev.dom h.1 :)

theorem OnlyRegs.onlyDomain (h : OnlyRegs (domRegs k) d x) : OnlyDomain k d x where
  rest := h.1.trans (by rw [h.dom])
  regs := h.2
  others _ _ := by simp only [Dev.pd, h.dom]

theorem onlyDomain_onPd {u : Domn → Domn} : OnlyDomain k d (d.onPd k u) := ⟨rfl, fun _ _ => rfl, fun j hj => vget_vmod_ne _ k j _ hj⟩

section Stat

variable {f : RF (Fin 8)} (ha : f.addr k = PdStat.addr k)
include ha

theorem stat_mem_domRegs : f.addr k ∈ domRegs k := by simp [domRegs, ha]

theorem onlyDomain_putB {b : Bool} : OnlyDomain k d (d.putB f k b) := (onlyRegs_putB (stat_mem_domRegs ha)).onlyDomain
theorem onlyDomain_clr : OnlyDomain k d (d.clr f k) := (onlyRegs_clr (stat_mem_domRegs ha)).onlyDomain
theorem onlyDomain_flag : OnlyDomain k d (d.flag f k) := (onlyRegs_flag (stat_mem_domRegs ha)).onlyDomain
theorem onlyDomain_incSat : OnlyDomain k d (d.incSat f k) :=
  OnlyRegs.onlyDomain ⟨rfl, (onlyRegs_put (v := min (d.fld f k + 1) (2 ^ f.len - 1)) (stat_mem_domRegs ha)).2⟩

end Stat

end OnlyDomain

/-! #### What the updates of one domain do to its registers, its phase and its sources -/

section Domain

variable {d x t : Dev} {k : Fin 8} {alt a : Bool} {s : PSrc} {b n m o p : Nat} {ι : Type} {f : RF ι} {i : ι}

/-- A bit of a field that shares no bit with the field written. -/
theorem Dev.bit_put_bits {κ : Type} {g : RF κ} {j : κ} {v : Nat} (h : f.lo + f.len ≤ 32)
    (hd : f.lo + f.len ≤ g.lo ∨ g.lo + g.len ≤ f.lo) :
    (d.put f i v).bit g j = d.bit g j := by
  simp only [Dev.bit, Dev.fld_put_bits d f i g j v h hd]

theorem Dev.bit_congr (h : x.regs = d.regs) : x.bit f i = d.bit f i := by
  simp only [Dev.bit, Dev.fld, Dev.reg, h]

theorem pd_onPd_self (u : Domn → Domn) : (d.onPd k u).pd k = u (d.pd k) := vget_vmod_self _ _ _

theorem setSrc_regs : (setSrc d k alt s).regs = d.regs := rfl
theorem setOfs_regs : (setOfs d k o).regs = d.regs := rfl

/-- A domain that runs at its source's rate starts a new piece of phase. -/
theorem runAtSource_seg (d : Dev) (k : Fin 8) (alt : Bool) (b : Nat) : ∃ n m, runAtSource d k alt b = setSeg d k b n m := by
  unfold runAtSource
  extract_lets x
  split
  · exact ⟨_, _, rfl⟩
  · exact ⟨_, _, rfl⟩
  · split <;> exact ⟨_, _, rfl⟩

/-- What travel is counted from shows in the source's last update alone. -/
theorem travFrom_src (d : Dev) (k : Fin 8) (alt : Bool) (p : Nat) :
    travFrom d k alt p = d ∨ ∃ u, travFrom d k alt p = setSrc d k alt { srcOf d k alt with upd := u } := by
  unfold travFrom
  extract_lets x
  split
  · exact .inr ⟨_, rfl⟩
  · exact .inl rfl

theorem travFrom_regs : (travFrom d k alt p).regs = d.regs := by
  obtain h | ⟨u, h⟩ := travFrom_src d k alt p
  · rw [h]
  · rw [h, setSrc_regs]

theorem runAtSource_regs : (runAtSource d k alt b).regs = d.regs := by
  obtain ⟨n, m, h⟩ := runAtSource_seg d k alt b
  rw [h]
  rfl

theorem onlyDomain_setSrc : OnlyDomain k d (setSrc d k alt s) := onlyDomain_onPd
theorem onlyDomain_setOfs : OnlyDomain k d (setOfs d k o) := onlyDomain_onPd
theorem onlyDomain_setSeg : OnlyDomain k d (setSeg d k b n m) := onlyDomain_onPd

theorem onlyDomain_travFrom : OnlyDomain k d (travFrom d k alt p) := by
  obtain h | ⟨u, h⟩ := travFrom_src d k alt p <;> rw [h]
  · exact .refl
  · exact onlyDomain_setSrc

theorem onlyDomain_runAtSource : OnlyDomain k d (runAtSource d k alt b) := by
  obtain ⟨n, m, h⟩ := runAtSource_seg d k alt b
  exact h ▸ onlyDomain_setSeg

/-! The phase is what a new piece starts from; nothing else moves it. -/

theorem domPhase_setSeg : domPhase (setSeg d k b n m) k = b := by
  simp [domPhase, setSeg, pd_onPd_self, segAt]

theorem domPhase_setOfs : domPhase (setOfs d k o) k = domPhase d k := by
  simp [domPhase, setOfs, pd_onPd_self]

theorem domPhase_setSrc : domPhase (setSrc d k alt s) k = domPhase d k := by
  cases alt <;> simp [domPhase, setSrc, pd_onPd_self]

theorem domPhase_runAtSource : domPhase (runAtSource d k alt b) k = b := by
  obtain ⟨n, m, h⟩ := runAtSource_seg d k alt b
  rw [h, domPhase_setSeg]

/-! A source's record is changed where it is set, and the instant a BAND source's travel is counted from where it comes into use. -/

theorem srcOf_setSrc_self : srcOf (setSrc d k alt s) k alt = s := by
  cases alt <;> simp [srcOf, setSrc, pd_onPd_self]

theorem srcOf_setSrc_ne (h : a ≠ alt) : srcOf (setSrc d k alt s) k a = srcOf d k a := by
  cases alt <;> cases a <;> simp_all [srcOf, setSrc, pd_onPd_self]

theorem srcOf_setSeg : srcOf (setSeg d k b n m) k a = srcOf d k a := by simp [srcOf, setSeg, pd_onPd_self]
theorem srcOf_setOfs : srcOf (setOfs d k o) k a = srcOf d k a := by simp [srcOf, setOfs, pd_onPd_self]

theorem srcOf_runAtSource : srcOf (runAtSource d k alt b) k a = srcOf d k a := by
  obtain ⟨n, m, h⟩ := runAtSource_seg d k alt b
  rw [h, srcOf_setSeg]

/-- The kinds of a domain's sources come from its configuration and the unit's role. -/
theorem srcKind_congr (hcfg : x.reg (PdCfg.addr k) = d.reg (PdCfg.addr k)) (htw : x.reg (TwStat.addr ()) = d.reg (TwStat.addr ())) :
    srcKindCfg x k alt = srcKindCfg d k alt ∧ srcKind x k alt = srcKind d k alt := by
  have hcfg' (f : RF (Fin 8)) (hf : f.addr k = PdCfg.addr k) : x.fld f k = d.fld f k := by simp only [Dev.fld, hf, hcfg]
  have htw' (f : RF Unit) (hf : f.addr () = TwStat.addr ()) : x.fld f () = d.fld f () := by simp only [Dev.fld, hf, htw]
  have hkind : srcKindCfg x k alt = srcKindCfg d k alt := by
    simp only [srcKindCfg, hcfg' PdCfg.ASRC rfl, hcfg' PdCfg.SRC rfl]
  have hown : x.bit TwStat.OWNO () = d.bit TwStat.OWNO () := by simp only [Dev.bit, htw' TwStat.OWNO rfl]
  exact ⟨hkind, by simp only [srcKind, hkind, hown, htw' TwStat.ROLE rfl]⟩

theorem OnlyDomain.srcKind (h : OnlyDomain k d x) : srcKind x k alt = Machine.srcKind d k alt :=
  (srcKind_congr (h.regs _ (pdCfg_notMem_domRegs k k)) (h.regs _ (twStat_notMem_domRegs k))).2

/-- A source is valid by its record, its configuration, and what other units report of it. -/
theorem OnlyDomain.srcValid (h : OnlyDomain k d x) (hs : srcOf x k alt = srcOf d k alt) : srcValid x k alt = Machine.srcValid d k alt := by
  have hcfg : srcKindCfg x k alt = srcKindCfg d k alt :=
    (srcKind_congr (h.regs _ (pdCfg_notMem_domRegs k k)) (h.regs _ (twStat_notMem_domRegs k))).1
  have hsel : srcSel x k alt = srcSel d k alt := by
    simp only [srcSel, h.srcKind, hcfg, h.fld (f := PdCfg.ASEL) (pdCfg_notMem_domRegs k k), h.fld (f := PdCfg.SEL) (pdCfg_notMem_domRegs k k)]
  have hpll (nn : Fin 16) : pllLocked x nn = pllLocked d nn := by
    have hkind (m : Fin 12) : x.fld KcCfg.KIND (nn, m) = d.fld KcCfg.KIND (nn, m) := h.fld (by
      simpa only [KcCfg.KIND, KcCfg.addr, Nat.add_assoc] using blockAddr_notMem_domRegs nn _ k)
    have hlock (m : Fin 12) : x.bit KcStat.LOCK (nn, m) = d.bit KcStat.LOCK (nn, m) := h.bit (by
      simpa only [KcStat.LOCK, KcStat.addr, Nat.add_assoc] using blockAddr_notMem_domRegs nn _ k)
    simp only [pllLocked, hkind, hlock]
  simp only [Machine.srcValid, h.srcKind, hcfg, hsel, hs, hpll, h.twin, h.bit (f := TwStat.LINKUP) (twStat_notMem_domRegs k),
    h.bit (f := ClkStat.PLL_LOCK) (clkStat_notMem_domRegs k), fun nn => h.bit (f := EcStat.PVALID) (i := nn) (blockAddr_notMem_domRegs nn _ k)]

/-- A source stands as seen: known or not, its last position, and, but for a BAND source, its last update. -/
structure SrcKept (k : Fin 8) (a : Bool) (d t : Dev) : Prop where
  kind : srcKind t k a = srcKind d k a
  valid : (srcOf t k a).valid = (srcOf d k a).valid
  trav : (srcOf t k a).trav = (srcOf d k a).trav
  upd : srcKind d k a ≠ 3 → (srcOf t k a).upd = (srcOf d k a).upd

theorem SrcKept.trans (h1 : SrcKept k a d x) (h2 : SrcKept k a x t) : SrcKept k a d t :=
  ⟨h2.kind.trans h1.kind, h2.valid.trans h1.valid, h2.trav.trans h1.trav, fun h => (h2.upd (h1.kind ▸ h)).trans (h1.upd h)⟩

theorem OnlyDomain.srcKept (h : OnlyDomain k d x) (hs : srcOf x k a = srcOf d k a) : SrcKept k a d x :=
  ⟨h.srcKind, by rw [hs], by rw [hs], fun _ => by rw [hs]⟩

theorem DomsKept.srcKept (h : DomsKept d x) : SrcKept k a d x :=
  have hs : srcOf x k a = srcOf d k a := by simp only [srcOf, h.pd]
  ⟨(srcKind_congr (h.regs _ (by simp only [PdCfg.addr]; omega)) (h.regs _ (by decide))).2, by rw [hs], by rw [hs], fun _ => by rw [hs]⟩

/-! #### A domain's phase goes on -/

/-- Domain k alone has changed, and its phase has not gone back. -/
structure Onward (k : Fin 8) (d t : Dev) : Prop where
  clk : t.clk = d.clk
  others : ∀ j, j ≠ k → t.pd j = d.pd j
  stat : ∀ j, j ≠ k → t.reg (PdStat.addr j) = d.reg (PdStat.addr j)
  phase : domPhase d k ≤ domPhase t k

theorem Onward.trans (h1 : Onward k d x) (h2 : Onward k x t) : Onward k d t :=
  ⟨h2.clk.trans h1.clk, fun j hj => (h2.others j hj).trans (h1.others j hj), fun j hj => (h2.stat j hj).trans (h1.stat j hj),
    h1.phase.trans h2.phase⟩

theorem Onward.domPhase_le (h : Onward k d t) (j : Fin 8) : domPhase d j ≤ domPhase t j := by
  rcases eq_or_ne j k with rfl | hj
  · exact h.phase
  · simp only [domPhase, h.others j hj, h.clk, le_refl]

theorem OnlyDomain.onward (h : OnlyDomain k d t) (hp : domPhase d k ≤ domPhase t k) : Onward k d t :=
  ⟨h.clk, h.others, fun _ hj => h.regs _ (pdStat_notMem_domRegs hj), hp⟩

theorem DomsKept.onward (h : DomsKept d t) : Onward k d t :=
  ⟨h.clk, fun j _ => h.pd j, fun j _ => h.regs _ (by simp only [PdStat.addr]; omega), (h.phase k).ge⟩

theorem onlyRegs_onward {as : List Nat} (h : OnlyRegs as d t) (ha : ∀ j, PdStat.addr j ∉ as) : Onward k d t :=
  have hpd (j : Fin 8) : t.pd j = d.pd j := by simp only [Dev.pd, h.dom]
  have hclk : t.clk = d.clk := (congrArg Dev.clk h.1 :)
  ⟨hclk, fun j _ => hpd j, fun j _ => h.reg (ha j), by simp only [domPhase, hpd, hclk, le_refl]⟩

/-- The phase has not gone back and the sources stand as seen. -/
structure DomStep (k : Fin 8) (d t : Dev) : Prop where
  onward : Onward k d t
  srcs : ∀ a, SrcKept k a d t

theorem OnlyDomain.step (h : OnlyDomain k d t) (hp : domPhase d k ≤ domPhase t k) (hs : ∀ a, srcOf t k a = srcOf d k a) : DomStep k d t :=
  ⟨h.onward hp, fun a => h.srcKept (hs a)⟩

theorem DomStep.refl : DomStep k d d := OnlyDomain.refl.step le_rfl fun _ => rfl

theorem DomStep.trans (h1 : DomStep k d x) (h2 : DomStep k x t) : DomStep k d t :=
  ⟨h1.onward.trans h2.onward, fun a => (h1.srcs a).trans (h2.srcs a)⟩

theorem DomStep.ite {c : Prop} [Decidable c] (hx : DomStep k d x) (hy : DomStep k d t) : DomStep k d (if c then x else t) := by
  split <;> assumption

theorem DomsKept.step (h : DomsKept d t) : DomStep k d t := ⟨h.onward, fun _ => h.srcKept⟩

section Stat

variable {f : RF (Fin 8)} (ha : f.addr k = PdStat.addr k)
include ha

theorem domStep_putB {v : Bool} : DomStep k d (d.putB f k v) := (onlyDomain_putB ha).step le_rfl fun _ => rfl
theorem domStep_clr : DomStep k d (d.clr f k) := (onlyDomain_clr ha).step le_rfl fun _ => rfl
theorem domStep_flag : DomStep k d (d.flag f k) := (onlyDomain_flag ha).step le_rfl fun _ => rfl
theorem domStep_incSat : DomStep k d (d.incSat f k) := (onlyDomain_incSat ha).step le_rfl fun _ => rfl

end Stat

theorem domStep_setOfs : DomStep k d (setOfs d k o) := onlyDomain_setOfs.step domPhase_setOfs.ge fun _ => srcOf_setOfs

theorem domStep_setSeg (h : domPhase d k ≤ b) : DomStep k d (setSeg d k b n m) :=
  onlyDomain_setSeg.step (h.trans_eq domPhase_setSeg.symm) fun _ => srcOf_setSeg

/-! #### A source taken into use -/

/-- The domain turns from phase p as a source does; the travel of a BAND source is counted from there (R155, R162). -/
def fromSource (d : Dev) (k : Fin 8) (alt : Bool) (p : Nat) : Dev :=
  runAtSource (if srcKind d k alt = 3 then travFrom d k alt p else d) k alt p

theorem fromSource_regs : (fromSource d k alt p).regs = d.regs := by
  rw [fromSource, runAtSource_regs]
  split
  · exact travFrom_regs
  · rfl

theorem fromSource_onlyDomain : OnlyDomain k d (fromSource d k alt p) := (onlyDomain_travFrom.ite .refl).trans onlyDomain_runAtSource

theorem domPhase_fromSource : domPhase (fromSource d k alt p) k = p := domPhase_runAtSource

theorem travFrom_srcKept (h : srcKind d k alt = 3) : SrcKept k a d (travFrom d k alt p) := by
  obtain hd | ⟨u, hd⟩ := travFrom_src d k alt p <;> rw [hd]
  · exact OnlyDomain.refl.srcKept rfl
  · rcases eq_or_ne a alt with rfl | hne
    · exact ⟨onlyDomain_setSrc.srcKind, by rw [srcOf_setSrc_self], by rw [srcOf_setSrc_self], fun h3 => absurd h h3⟩
    · exact onlyDomain_setSrc.srcKept (srcOf_setSrc_ne hne)

theorem fromSource_step (h : domPhase d k ≤ p) : DomStep k d (fromSource d k alt p) := by
  refine ⟨fromSource_onlyDomain.onward (h.trans_eq domPhase_fromSource.symm), fun a => ?_⟩
  have hrun (y : Dev) : SrcKept k a y (runAtSource y k alt p) := onlyDomain_runAtSource.srcKept srcOf_runAtSource
  unfold fromSource
  split
  · next h3 => exact (travFrom_srcKept h3).trans (hrun _)
  · exact hrun d

theorem becomeValid_eq (d : Dev) (k : Fin 8) (alt : Bool) : ∃ o p, domPhase d k ≤ p ∧
    becomeValid d k alt = fromSource (setOfs ((d.flag PdStat.VALID k).clr PdStat.SLEW k) k o) k alt p := by
  refine ⟨_, _, ?_, rfl⟩
  split
  · exact Nat.le_add_right _ _
  · exact le_rfl

theorem becomeValid_onlyDomain : OnlyDomain k d (becomeValid d k alt) := by
  obtain ⟨o, p, -, h⟩ := becomeValid_eq d k alt
  rw [h]
  exact (((onlyDomain_flag rfl).trans (onlyDomain_clr rfl)).trans onlyDomain_setOfs).trans fromSource_onlyDomain

theorem becomeValid_step : DomStep k d (becomeValid d k alt) := by
  obtain ⟨o, p, hp, h⟩ := becomeValid_eq d k alt
  rw [h]
  exact (((domStep_flag rfl).trans (domStep_clr rfl)).trans domStep_setOfs).trans (fromSource_step (domPhase_setOfs.trans_le hp))

/-- A domain that becomes valid is valid, on the source that was in use. -/
theorem becomeValid_stat : domValid (becomeValid d k alt) k = true ∧ altInUse (becomeValid d k alt) k = altInUse d k := by
  obtain ⟨o, p, -, h⟩ := becomeValid_eq d k alt
  have hregs : (becomeValid d k alt).regs = ((d.flag PdStat.VALID k).clr PdStat.SLEW k).regs := by rw [h, fromSource_regs, setOfs_regs]
  have hslew {g : RF (Fin 8)} (hg : g.lo + g.len ≤ PdStat.SLEW.lo) : (becomeValid d k alt).bit g k = (d.flag PdStat.VALID k).bit g k :=
    (Dev.bit_congr hregs).trans (Dev.bit_put_bits (by decide) (.inr hg))
  exact ⟨(hslew (by decide)).trans (Dev.bit_flag_self _ _ _ (by decide) rfl),
    (hslew (by decide)).trans (Dev.bit_put_bits (f := PdStat.VALID) (by decide) (.inl (by decide)))⟩

theorem switchTo_invalid (h : domValid d k = false) : switchTo d k alt = becomeValid (d.putB PdStat.ALT k alt) k alt := by
  simp [switchTo, h]

theorem switchTo_valid (h : domValid d k = true) :
    ∃ o v, switchTo d k alt = fromSource ((setOfs (d.putB PdStat.ALT k alt) k o).putB PdStat.SLEW k v) k alt (domPhase d k) := by
  unfold switchTo
  extract_lets was e kind p o e' e''
  have hkind : srcKind e'' k alt = kind := (onlyDomain_setOfs.trans (onlyDomain_putB rfl)).srcKind
  have hfrom : fromSource e'' k alt p = runAtSource (if kind = 3 then travFrom e'' k alt p else e'') k alt p := by rw [fromSource, hkind]
  exact ⟨o, e'.bit PdCfg.ALIGN k && srcAbs kind && o % 2 ^ 32 != 0, (if_neg (by simp [was, h])).trans hfrom.symm⟩

theorem switchTo_onlyDomain : OnlyDomain k d (switchTo d k alt) := by
  cases hv : domValid d k
  · rw [switchTo_invalid hv]
    exact (onlyDomain_putB rfl).trans becomeValid_onlyDomain
  · obtain ⟨o, v, h⟩ := switchTo_valid (alt := alt) hv
    rw [h]
    exact (((onlyDomain_putB rfl).trans onlyDomain_setOfs).trans (onlyDomain_putB rfl)).trans fromSource_onlyDomain

theorem domPhase_switchTo (hv : domValid d k = true) : domPhase (switchTo d k alt) k = domPhase d k := by
  obtain ⟨o, v, h⟩ := switchTo_valid (alt := alt) hv
  rw [h, domPhase_fromSource]

theorem switchTo_step : DomStep k d (switchTo d k alt) := by
  cases hv : domValid d k
  · rw [switchTo_invalid hv]
    exact (domStep_putB rfl).trans becomeValid_step
  · obtain ⟨o, v, h⟩ := switchTo_valid (alt := alt) hv
    rw [h]
    exact (((domStep_putB rfl).trans domStep_setOfs).trans (domStep_putB rfl)).trans (fromSource_step domPhase_setOfs.le)

/-- After a switch the domain is valid on the other source (R162). -/
theorem switchTo_stat : domValid (switchTo d k alt) k = true ∧ altInUse (switchTo d k alt) k = alt := by
  have halt : (d.putB PdStat.ALT k alt).bit PdStat.ALT k = alt := Dev.bit_putB_self _ _ _ _ (by decide) rfl
  cases hv : domValid d k
  · rw [switchTo_invalid hv]
    obtain ⟨hvalid, huse⟩ := becomeValid_stat (d := d.putB PdStat.ALT k alt) (k := k) (alt := alt)
    exact ⟨hvalid, huse.trans halt⟩
  · obtain ⟨o, v, h⟩ := switchTo_valid (alt := alt) hv
    have hslew {g : RF (Fin 8)} (hg : g.lo + g.len ≤ PdStat.SLEW.lo) : (switchTo d k alt).bit g k = (d.putB PdStat.ALT k alt).bit g k :=
      (Dev.bit_congr (by rw [h, fromSource_regs]; rfl)).trans (Dev.bit_put_bits (f := PdStat.SLEW) (v := v.toNat) (by decide) (.inr hg))
    exact ⟨(hslew (by decide)).trans ((Dev.bit_put_bits (f := PdStat.ALT) (by decide) (.inr (by decide))).trans hv),
      (hslew (by decide)).trans halt⟩

/-! #### A domain that becomes invalid -/

/-- The domain with its phase held and its loss of validity noted, before blocks and windows on it follow (R163). -/
def lossNoted (d : Dev) (k : Fin 8) : Dev :=
  ((((holdPhase d k).clr PdStat.VALID k).clr PdStat.SLEW k).flag PdStat.INV_SEEN k).incSat PdStat.INV_CNT k

theorem becomeInvalid_domsKept : DomsKept (lossNoted d k) (becomeInvalid d k) := stallBound_domsKept.trans winsInvalid_domsKept

theorem becomeInvalid_step : DomStep k d (becomeInvalid d k) :=
  ((((domStep_setSeg le_rfl).trans (domStep_clr rfl)).trans (domStep_clr rfl)).trans (domStep_flag rfl)).trans (domStep_incSat rfl)
    |>.trans becomeInvalid_domsKept.step

theorem becomeInvalid_phase : domPhase (becomeInvalid d k) k = domPhase d k ∧ ((becomeInvalid d k).pd k).seg.num = 0 := by
  refine ⟨(becomeInvalid_domsKept.phase k).trans domPhase_setSeg, ?_⟩
  rw [becomeInvalid_domsKept.pd]
  exact congrArg (fun z => z.seg.num) (pd_onPd_self _)

theorem lossNoted_stat : (lossNoted d k).bit PdStat.VALID k = false ∧ (lossNoted d k).bit PdStat.INV_SEEN k = true ∧
    (lossNoted d k).fld PdStat.INV_CNT k = min (d.fld PdStat.INV_CNT k + 1) (2 ^ PdStat.INV_CNT.len - 1) := by
  let e := (((holdPhase d k).clr PdStat.VALID k).clr PdStat.SLEW k).flag PdStat.INV_SEEN k
  have hcnt {g : RF (Fin 8)} (hg : g.lo + g.len ≤ PdStat.INV_CNT.lo) : (lossNoted d k).bit g k = e.bit g k :=
    Dev.bit_put_bits (d := e) (f := PdStat.INV_CNT) (by decide) (.inr hg)
  have hold : e.fld PdStat.INV_CNT k = d.fld PdStat.INV_CNT k :=
    (Dev.fld_put_bits _ PdStat.INV_SEEN _ _ _ _ (by decide) (by decide)).trans
      ((Dev.fld_put_bits _ PdStat.SLEW _ _ _ _ (by decide) (by decide)).trans (Dev.fld_put_bits _ PdStat.VALID _ _ _ _ (by decide) (by decide)))
  refine ⟨?_, (hcnt (by decide)).trans (Dev.bit_flag_self _ _ _ (by decide) rfl), ?_⟩
  · exact (hcnt (by decide)).trans ((Dev.bit_put_bits (f := PdStat.INV_SEEN) (by decide) (.inr (by decide))).trans
      ((Dev.bit_put_bits (f := PdStat.SLEW) (by decide) (.inr (by decide))).trans (Dev.bit_clr_self _ _ _ (by decide))))
  · refine (Dev.fld_put_self e PdStat.INV_CNT k _ (by decide)).trans ?_
    rw [hold]
    exact Nat.mod_eq_of_lt (by simp only [PdStat.INV_CNT]; omega)

/-- A domain that becomes invalid shows it (R163). -/
theorem becomeInvalid_stat : domValid (becomeInvalid d k) k = false ∧ (becomeInvalid d k).bit PdStat.INV_SEEN k = true ∧
    (becomeInvalid d k).fld PdStat.INV_CNT k = min (d.fld PdStat.INV_CNT k + 1) (2 ^ PdStat.INV_CNT.len - 1) := by
  have hreg : (becomeInvalid d k).reg (PdStat.addr k) = (lossNoted d k).reg (PdStat.addr k) :=
    becomeInvalid_domsKept.regs _ (by simp only [PdStat.addr]; omega)
  have hfld (g : RF (Fin 8)) (hg : g.addr k = PdStat.addr k) : (becomeInvalid d k).fld g k = (lossNoted d k).fld g k := by
    simp only [Dev.fld, hg, hreg]
  obtain ⟨hvalid, hseen, hcount⟩ := lossNoted_stat (d := d) (k := k)
  exact ⟨(congrArg (· != 0) (hfld PdStat.VALID rfl)).trans hvalid, (congrArg (· != 0) (hfld PdStat.INV_SEEN rfl)).trans hseen,
    (hfld PdStat.INV_CNT rfl).trans hcount⟩

/-! #### A domain rechecked (R156, R163) -/

theorem domRecheck_step : DomStep k d (domRecheck d k) := by
  unfold domRecheck
  extract_lets a ok
  exact .ite (.ite .refl (.ite (switchTo_step.trans (domStep_flag rfl)) becomeInvalid_step)) (.ite becomeValid_step .refl)

/-- A valid domain whose source in use is lost, with no automatic alternate, becomes invalid. -/
theorem domRecheck_lost (hv : domValid d k = true) (hs : srcValid d k (altInUse d k) = false)
    (ha : altInUse d k = true ∨ d.bit PdCfg.AUTO k = false) : domRecheck d k = becomeInvalid d k := by
  rcases ha with ha | ha
  · rw [ha] at hs
    simp [domRecheck, hv, hs, ha]
  · simp [domRecheck, hv, hs, ha]

/-- With AUTO and a valid alternate it goes over to that. -/
theorem domRecheck_auto (hv : domValid d k = true) (hu : altInUse d k = false) (hs : srcValid d k false = false)
    (ha : d.bit PdCfg.AUTO k = true) (hdef : d.fld PdCfg.ASRC k ≠ 0) (ht : srcValid d k true = true) :
    domRecheck d k = (switchTo d k true).flag PdStat.AUTOSW k := by
  simp [domRecheck, hv, hu, hs, ha, hdef, ht]

/-! #### An update of a source (R157, R158, R159) -/

theorem aim_step : DomStep k d (aim d k alt) := by
  unfold aim
  extract_lets y
  split
  · exact .refl
  · split
    · exact .refl
    · exact (domStep_setOfs.trans ((domStep_clr rfl).ite .refl)).trans (domStep_setSeg le_rfl)

theorem srcRejoin_step : DomStep k d (srcRejoin d k alt b n) := domStep_setOfs.ite .refl

/-- What a source's record holds after an update, a first one or a later one. -/
theorem srcTook_seen (y : PSrc) (c v : Nat) (ds : Int) (q : Option Int) :
    (srcTook y c v ds q).valid = true ∧ (srcTook y c v ds q).upd = some (c, v) ∧ (srcTook y c v ds q).trav = q := by
  unfold srcTook
  split <;> exact ⟨rfl, rfl, rfl⟩

/-- An update writes the source's record; then the domain is rechecked and, where it goes on with that source, aimed. -/
theorem srcUpdateAt_cases {c v : Nat} (hlo : 3 ≤ srcKind d k alt) (hhi : srcKind d k alt ≤ 6) :
    ∃ x, Onward k d x ∧ srcKind x k alt = srcKind d k alt ∧ (srcOf x k alt).valid = true ∧ (srcOf x k alt).trav = some (sx 40 v) ∧
      (srcKind d k alt ≠ 3 → (srcOf x k alt).upd = some (c, v * 2 ^ 12)) ∧
      (srcUpdateAt d k alt c v = domRecheck x k ∨ srcUpdateAt d k alt c v = aim (domRecheck x k) k alt) := by
  unfold srcUpdateAt
  extract_lets kind y pos dp prev ds s inUse e rec bad rec' x was z
  have he : DomStep k d e := (domStep_putB rfl).ite .refl
  have hrejoin : DomStep k d (srcRejoin e k alt c s) := he.trans srcRejoin_step
  have hset : OnlyDomain k (srcRejoin e k alt c s) x := onlyDomain_setSrc
  have hsrc : srcOf x k alt = rec' := srcOf_setSrc_self
  obtain ⟨hvalid, hupd, htrav⟩ := srcTook_seen y c s ds (some pos)
  have hrec : rec'.valid = true ∧ rec'.upd = some (c, s) ∧ rec'.trav = some pos := by
    unfold rec'
    split <;> exact ⟨hvalid, hupd, htrav⟩
  refine ⟨x, hrejoin.onward.trans (hset.onward domPhase_setSrc.ge), hset.srcKind.trans (hrejoin.srcs alt).kind, hsrc ▸ hrec.1,
    hsrc ▸ hrec.2.2, fun h3 => ?_, ?_⟩
  · rw [hsrc, hrec.2.1, show s = v * 2 ^ 12 from if_neg h3]
  · rw [if_neg (by simp only [kind]; omega)]
    split
    · exact .inr rfl
    · exact .inl rfl

/-- An update of a source of another kind does nothing. -/
theorem srcUpdate_none {v : Nat} (h : srcKind d k alt < 3 ∨ 6 < srcKind d k alt) : srcUpdate d k alt v = d := if_pos h

/-- An update of a BAND, PLL, BCAST or TWIN source makes it known (R158). -/
theorem srcUpdate_seen {v : Nat} (hlo : 3 ≤ srcKind d k alt) (hhi : srcKind d k alt ≤ 6) :
    Onward k d (srcUpdate d k alt v) ∧ (srcOf (srcUpdate d k alt v) k alt).valid = true ∧
      (srcOf (srcUpdate d k alt v) k alt).trav = some (sx 40 v) ∧
      (srcKind d k alt ≠ 3 → (srcOf (srcUpdate d k alt v) k alt).upd = some (d.clk, v * 2 ^ 12)) := by
  obtain ⟨x, hx, hkind, hvalid, htrav, hupd, h⟩ := srcUpdateAt_cases (c := d.clk) (v := v) hlo hhi
  have hstep : DomStep k x (srcUpdate d k alt v) := by
    rcases h with h | h <;> rw [srcUpdate, h]
    · exact domRecheck_step
    · exact domRecheck_step.trans aim_step
  have hkept := hstep.srcs alt
  exact ⟨hx.trans hstep.onward, hkept.valid.trans hvalid, hkept.trav.trans htrav, fun h3 => (hkept.upd (hkind ▸ h3)).trans (hupd h3)⟩

/-! #### The three commands -/

theorem onChip_known {c : State} {g : Dev → Dev} (hu : unitChip ∉ c.dev.undef) : onChip c g = .next { c with dev := g c.dev } := by
  simp [onChip, onUnit, onDev, hu]

/-- A unit's command that completes has carried out its effect. -/
theorem onUnit_next {u : Nat} {rest : List Instr} {g : Dev → Dev} (h : onUnit u ⟨rest, d⟩ g = .next ⟨rest, t⟩) : t = g d := by
  unfold onUnit at h
  split at h
  · cases h
  · cases h
    rfl

theorem gives_phaseSourceUpdate {v : BitVec 40} (hu : unitChip ∉ d.undef) : Gives (.phaseSourceUpdate k alt v) d (srcUpdate d k alt v.toNat) :=
  fun _ => onChip_known hu

/-- What SOURCE_TIMEOUT does: a BAND, PLL or BCAST source is no longer known, and its domain is rechecked (R156). -/
def timedOut (d : Dev) (k : Fin 8) (alt : Bool) : Dev :=
  if srcKind d k alt = 3 ∨ srcKind d k alt = 4 ∨ srcKind d k alt = 5 then domRecheck (setSrc d k alt { srcOf d k alt with valid := false }) k
  else d

theorem gives_sourceTimeout (hu : unitChip ∉ d.undef) : Gives (.sourceTimeout k alt) d (timedOut d k alt) := fun _ => onChip_known hu

theorem timedOut_none (h : srcKind d k alt < 3 ∨ 5 < srcKind d k alt) : timedOut d k alt = d := if_neg (by omega)

theorem timedOut_lost (hlo : 3 ≤ srcKind d k alt) (hhi : srcKind d k alt ≤ 5) :
    timedOut d k alt = domRecheck (setSrc d k alt { srcOf d k alt with valid := false }) k := if_pos (by omega)

/-- A source that delivers updates of its own is valid only while they come. -/
theorem srcValid_unknown (hlo : 3 ≤ srcKind d k alt) (hhi : srcKind d k alt ≤ 5) (h : (srcOf d k alt).valid = false) :
    srcValid d k alt = false := by
  obtain hk | hk | hk : srcKind d k alt = 3 ∨ srcKind d k alt = 4 ∨ srcKind d k alt = 5 := by omega
  all_goals simp [srcValid, hk, h]

theorem srcValid_lost (hlo : 3 ≤ srcKind d k alt) (hhi : srcKind d k alt ≤ 5) :
    srcValid (setSrc d k alt { srcOf d k alt with valid := false }) k alt = false :=
  srcValid_unknown hlo hhi (by rw [srcOf_setSrc_self])

theorem timedOut_invalid (hlo : 3 ≤ srcKind d k alt) (hhi : srcKind d k alt ≤ 5) : (srcOf (timedOut d k alt) k alt).valid = false := by
  rw [timedOut_lost hlo hhi, (domRecheck_step.srcs alt).valid, srcOf_setSrc_self]

theorem timedOut_onward : Onward k d (timedOut d k alt) := by
  unfold timedOut
  split
  · exact (onlyDomain_setSrc.onward domPhase_setSrc.ge).trans domRecheck_step.onward
  · exact DomStep.refl.onward

/-- A domain whose source in use times out with no automatic alternate becomes invalid and holds its phase (R163). -/
theorem timedOut_inUse (hlo : 3 ≤ srcKind d k alt) (hhi : srcKind d k alt ≤ 5) (hu : altInUse d k = alt) (hv : domValid d k = true)
    (ha : alt = true ∨ d.bit PdCfg.AUTO k = false) :
    domValid (timedOut d k alt) k = false ∧ (timedOut d k alt).bit PdStat.INV_SEEN k = true ∧
      (timedOut d k alt).fld PdStat.INV_CNT k = min (d.fld PdStat.INV_CNT k + 1) (2 ^ PdStat.INV_CNT.len - 1) ∧
      domPhase (timedOut d k alt) k = domPhase d k ∧ ((timedOut d k alt).pd k).seg.num = 0 := by
  subst hu
  let e := setSrc d k (altInUse d k) { srcOf d k (altInUse d k) with valid := false }
  have hgone : timedOut d k (altInUse d k) = becomeInvalid e k := (timedOut_lost hlo hhi).trans (domRecheck_lost hv (srcValid_lost hlo hhi) ha)
  obtain ⟨hvalid, hseen, hcount⟩ := becomeInvalid_stat (d := e) (k := k)
  obtain ⟨hphase, hrate⟩ := becomeInvalid_phase (d := e) (k := k)
  rw [hgone]
  exact ⟨hvalid, hseen, hcount, hphase.trans domPhase_setSrc, hrate⟩

/-- With AUTO and a valid alternate it goes over to that and stays valid (R163). -/
theorem timedOut_auto (hlo : 3 ≤ srcKind d k false) (hhi : srcKind d k false ≤ 5) (hu : altInUse d k = false) (hv : domValid d k = true)
    (ha : d.bit PdCfg.AUTO k = true) (hdef : d.fld PdCfg.ASRC k ≠ 0) (ht : srcValid d k true = true) :
    domValid (timedOut d k false) k = true ∧ altInUse (timedOut d k false) k = true ∧ (timedOut d k false).bit PdStat.AUTOSW k = true ∧
      domPhase (timedOut d k false) k = domPhase d k := by
  let e := setSrc d k false { srcOf d k false with valid := false }
  have ht' : srcValid e k true = true := (onlyDomain_setSrc.srcValid (srcOf_setSrc_ne (by decide))).trans ht
  have hover : timedOut d k false = (switchTo e k true).flag PdStat.AUTOSW k :=
    (timedOut_lost hlo hhi).trans (domRecheck_auto hv hu (srcValid_lost hlo hhi) ha hdef ht')
  obtain ⟨hvalid, huse⟩ := switchTo_stat (d := e) (k := k) (alt := true)
  have hphase : domPhase (switchTo e k true) k = domPhase d k := (domPhase_switchTo (d := e) hv).trans domPhase_setSrc
  rw [hover]
  exact ⟨(Dev.bit_put_bits (f := PdStat.AUTOSW) (by decide) (.inr (by decide))).trans hvalid,
    (Dev.bit_put_bits (f := PdStat.AUTOSW) (by decide) (.inr (by decide))).trans huse, Dev.bit_flag_self _ _ _ (by decide) rfl, hphase⟩

theorem onlyDomain_switchClr : OnlyDomain k d (d.clr PdCtl.SWITCH k) :=
  (onlyRegs_clr (by simp [domRegs, PdCtl.SWITCH])).onlyDomain

/-- SWITCH is judged by what stood before its bit was cleared (R163). -/
theorem doSwitch_eq : doSwitch d k = if d.fld PdCfg.ASRC k = 0 ∨ srcValid d k (!altInUse d k) = false
    then (d.clr PdCtl.SWITCH k).flag PdStat.SW_REF k else switchTo (d.clr PdCtl.SWITCH k) k (!altInUse d k) := by
  have hdef : (d.clr PdCtl.SWITCH k).fld PdCfg.ASRC k = d.fld PdCfg.ASRC k := onlyDomain_switchClr.fld (pdCfg_notMem_domRegs k k)
  have hsrc : srcValid (d.clr PdCtl.SWITCH k) k (!altInUse d k) = srcValid d k (!altInUse d k) := onlyDomain_switchClr.srcValid rfl
  simp only [doSwitch, hdef, hsrc, Bool.not_eq_true']

theorem doSwitch_step : DomStep k d (doSwitch d k) := by
  have hclr : DomStep k d (d.clr PdCtl.SWITCH k) := onlyDomain_switchClr.step le_rfl fun _ => rfl
  rw [doSwitch_eq]
  exact (hclr.trans (domStep_flag rfl)).ite (hclr.trans switchTo_step)

/-- An accepted SWITCH: the other source is in use, a valid domain keeps its phase, and nothing else changes (R162). -/
theorem doSwitch_accepted (hdef : d.fld PdCfg.ASRC k ≠ 0) (hs : srcValid d k (!altInUse d k) = true) :
    altInUse (doSwitch d k) k = (!altInUse d k) ∧ domValid (doSwitch d k) k = true ∧
      (domValid d k = true → domPhase (doSwitch d k) k = domPhase d k) ∧ OnlyDomain k d (doSwitch d k) := by
  have hgo : doSwitch d k = switchTo (d.clr PdCtl.SWITCH k) k (!altInUse d k) := doSwitch_eq.trans (if_neg (by simp [hdef, hs]))
  have hvalid : domValid (d.clr PdCtl.SWITCH k) k = domValid d k := by
    have := Dev.fld_put_addr d PdCtl.SWITCH k PdStat.VALID k 0 (by simp [PdStat.VALID, PdStat.addr, PdCtl.SWITCH, PdCtl.addr])
    exact congrArg (· != 0) this
  obtain ⟨hv, hu⟩ := switchTo_stat (d := d.clr PdCtl.SWITCH k) (k := k) (alt := !altInUse d k)
  rw [hgo]
  exact ⟨hu, hv, fun h => domPhase_switchTo (hvalid.trans h), onlyDomain_switchClr.trans switchTo_onlyDomain⟩

theorem gives_switch {h : Master} {w : Word} (ha : Alone d h (PdCtl.addr k) unitChip) (hr : mRsv 0xFFFE w = 0) :
    Gives (.switch h k w) d (doSwitch d k) := by
  obtain ⟨hreach, hrole⟩ := ha
  intro rest
  have hgo := hostW_reaches (s := ⟨rest, d⟩) (priv := false)
    (f := fun d => mirHost d (PdCtl.addr k) (ownM 0 w) none (switchRefused d k) (fun d => doSwitch d k) (fun d => d)) hreach (by simp) hr
  rw [mirHost_alone hrole] at hgo
  exact hgo

theorem unguard_onward {u c : Nat} : Onward k d (unguard d u (PdCtl.addr k) c) := by
  have hset : Onward k d (d.setReg (PdCtl.addr k) (d.reg (PdCtl.addr k) ||| BitVec.ofNat 32 c)) :=
    onlyRegs_onward (as := [PdCtl.addr k]) (onlyRegs_setReg (by simp)) fun j => by simp only [PdStat.addr, PdCtl.addr, List.mem_singleton]; omega
  unfold unguard
  split
  · exact DomStep.refl.onward
  · exact hset.trans ⟨rfl, fun _ _ => rfl, fun _ _ => rfl, le_rfl⟩

/-- A SWITCH on its way to the other unit, turned away or carried out (R409, R410). -/
theorem mirHost_onward {r : Nat} {w : Word} {c : Bool} :
    Onward k d (mirHost d r w none c (fun d => doSwitch d k) (fun d => d)) := by
  unfold mirHost
  extract_lets role
  split
  · exact onlyRegs_onward (as := [TwCnt.addr ()]) (onlyRegs_inc (by simp [TwCnt.SHWR])) fun j => by
      simp only [PdStat.addr, TwCnt.addr, List.mem_singleton]; omega
  · split
    · have hmir : DomsKept d (d.onTw fun t => { t with mirror := t.mirror ++ [⟨r, w, none, mirInstant d⟩] }) :=
        ⟨rfl, rfl, fun _ _ => rfl⟩
      exact (hmir.trans domsKept_twSend).onward
    · exact doSwitch_step.onward

/-- However a SWITCH that a master writes completes, on whatever unit. -/
theorem switch_onward {h : Master} {w : Word} {rest : List Instr} (hexec : exec (.switch h k w) ⟨rest, d⟩ = .next ⟨rest, t⟩) :
    Onward k d t := by
  have he : hostCmd ⟨rest, d⟩ h (PdCtl.addr k) false unitChip (fun d => unguard (mirHost d (PdCtl.addr k) (ownM 0 w) none (switchRefused d k)
      (fun d => doSwitch d k) (fun d => d)) unitChip (PdCtl.addr k) (mRsv 0xFFFE w)) = .next ⟨rest, t⟩ := hexec
  unfold hostCmd at he
  split at he
  · cases he
    exact DomStep.refl.onward
  · rw [if_neg (by simp)] at he
    rw [onUnit_next he]
    exact mirHost_onward.trans unguard_onward

theorem phaseSourceUpdate_onward {v : BitVec 40} {rest : List Instr}
    (hexec : exec (.phaseSourceUpdate k alt v) ⟨rest, d⟩ = .next ⟨rest, t⟩) :
    Onward k d t := by
  have ht : t = srcUpdate d k alt v.toNat := onUnit_next hexec
  subst ht
  by_cases h : srcKind d k alt < 3 ∨ 6 < srcKind d k alt
  · exact (srcUpdate_none h).symm ▸ DomStep.refl.onward
  · exact (srcUpdate_seen (by omega) (by omega)).1

theorem sourceTimeout_onward {rest : List Instr} (hexec : exec (.sourceTimeout k alt) ⟨rest, d⟩ = .next ⟨rest, t⟩) : Onward k d t := by
  have ht : t = timedOut d k alt := onUnit_next hexec
  exact ht ▸ timedOut_onward

end Domain

/-- Settles O31: each command changes one domain alone and moves its phase only forward; what it does to the source, the validity and the
source in use follows from how a domain is rechecked and switched. -/
theorem phaseDomainsNeverTurnBack : Obligations.PhaseDomainsNeverTurnBack := by
  unfold Obligations.PhaseDomainsNeverTurnBack
  refine ⟨fun c d t rest k alt v h w hc hexec => ?_, fun d k alt v hu => ⟨fun hk => ?_, fun hlo hhi => ?_, fun h3 => ?_⟩,
    fun d k alt hu => ⟨fun hk => ?_, fun hlo hhi => ⟨?_, fun huse hv ha => ?_, fun huse hf hv ha hdef ht => ?_⟩⟩,
    fun d h k w ha hr => ⟨fun href => ?_, fun hdef hs => ?_⟩⟩
  · have honward : Onward k d t := by
      rcases hc with rfl | rfl | rfl
      · exact phaseSourceUpdate_onward hexec
      · exact sourceTimeout_onward hexec
      · exact switch_onward hexec
    exact ⟨honward.domPhase_le, fun j hj => ⟨honward.others j hj, honward.stat j hj⟩⟩
  · have hgives := gives_phaseSourceUpdate (k := k) (alt := alt) (v := v) hu
    rwa [srcUpdate_none hk] at hgives
  · obtain ⟨-, hvalid, -, hupd⟩ := srcUpdate_seen (v := v.toNat) (by omega) hhi
    exact (gives_phaseSourceUpdate hu).completes ⟨hvalid, hupd (by omega)⟩
  · obtain ⟨-, hvalid, htrav, -⟩ := srcUpdate_seen (v := v.toNat) h3.ge (by omega)
    exact (gives_phaseSourceUpdate hu).completes ⟨hvalid, htrav⟩
  · have hgives := gives_sourceTimeout (k := k) (alt := alt) hu
    rwa [timedOut_none hk] at hgives
  · exact (gives_sourceTimeout hu).completes (timedOut_invalid hlo hhi)
  · exact (gives_sourceTimeout hu).completes (timedOut_inUse hlo hhi huse hv ha)
  · subst hf
    exact (gives_sourceTimeout hu).completes (timedOut_auto hlo hhi huse hv ha hdef ht)
  · have hgives := gives_switch ha hr
    rwa [doSwitch_eq, if_pos href] at hgives
  · obtain ⟨huse, hvalid, hphase, honly⟩ := doSwitch_accepted hdef hs
    exact (gives_switch ha hr).completes ⟨huse, hvalid, hphase, honly.rest, honly.regs⟩

end Sys2Proof.Machine

/-! ### Encoder cells where domains are rechecked and turn (R156, R157, R171) -/

namespace Sys2Proof.Machine

/-- Every encoder cell and its status register stand. -/
structure EncKept (d t : Dev) : Prop where
  enc : ∀ k, encOf t k = encOf d k
  stat : ∀ k, t.reg (EcStat.addr k) = d.reg (EcStat.addr k)

/-- The register at a is no EC.STAT. -/
def EcFree (a : Nat) : Prop := ∀ k, EcStat.addr k ≠ a

/-! The registers that a stall or a window writes are none. -/

theorem ecFree_block (nn : Fin 16) {o : Nat} (h : o < 0x40000 ∧ o ≠ 0x301C) : EcFree (blockBase nn + o) := fun k => by
  simp only [EcStat.addr, blockBase]
  omega

theorem ecFree_window (i : Fin 4 × Fin 32) {o : Nat} (h : o < 0x20) : EcFree (portBase i.1 + 0x400 + i.2.val * 0x20 + o) := fun k => by
  simp only [EcStat.addr, blockBase, portBase, regionBase]
  omega

theorem ecFree_wsum (p : Fin 4) : EcFree (Wsum.addr p) := fun k => by
  simp only [EcStat.addr, blockBase, Wsum.addr, portBase, regionBase]
  omega

section EncKept

variable {d x y : Dev} {ι : Type} {f : RF ι} {i : ι} {nn : Fin 16} {p : Fin 4} {w : Fin 32} {k : Fin 8}

theorem EncKept.refl : EncKept d d := ⟨fun _ => rfl, fun _ => rfl⟩

theorem EncKept.trans (h1 : EncKept d x) (h2 : EncKept x y) : EncKept d y :=
  ⟨fun k => (h2.enc k).trans (h1.enc k), fun k => (h2.stat k).trans (h1.stat k)⟩

theorem EncKept.ite {c : Prop} [Decidable c] (hx : EncKept d x) (hy : EncKept d y) : EncKept d (if c then x else y) := by
  split <;> assumption

theorem EncKept.forAll {n : Nat} {g : Dev → Fin n → Dev} (hg : ∀ z j, EncKept z (g z j)) : EncKept d (Machine.forAll d g) :=
  forAll_rel .refl .trans hg

theorem EncKept.fld {g : RF (Fin 16)} (h : EncKept d x) (hg : g.addr = EcStat.addr) : x.fld g nn = d.fld g nn := by
  simp only [Dev.fld, hg, h.stat]

theorem EncKept.bit {g : RF (Fin 16)} (h : EncKept d x) (hg : g.addr = EcStat.addr) : x.bit g nn = d.bit g nn := by
  simp only [Dev.bit, h.fld hg]

theorem encKept_onB {u : Blk → Blk} (hu : ∀ b, (u b).enc = b.enc) : EncKept d (d.onB nn u) where
  enc k := by
    rcases eq_or_ne k nn with rfl | hk
    · simp only [encOf, Dev.b_onB_self, hu]
    · simp only [encOf, Dev.b_onB_ne _ _ _ _ hk]
  stat _ := rfl

/-- What shares blocks and registers shares the encoder cells. -/
theorem encKept_of_eq (hb : x.blk = d.blk) (hr : x.regs = d.regs) : EncKept d x :=
  ⟨fun k => by simp only [encOf, Dev.b, hb], fun k => by simp only [Dev.reg, hr]⟩

theorem encKept_hw {l : List (Nat × Nat × Bool)} : EncKept d { d with hw := l } := encKept_of_eq rfl rfl
theorem encKept_raise {s m : Nat} : EncKept d (d.raise s m) := encKept_of_eq rfl rfl
theorem encKept_onW {u : Win → Win} : EncKept d (onW d p w u) := encKept_of_eq rfl rfl

theorem encKept_ownerSend {m : TwMsg} : EncKept d (ownerSend d m) :=
  have hsend : EncKept d (twSend d m) := .ite .refl (encKept_of_eq rfl rfl)
  .ite hsend .refl

theorem OnlyDomain.encKept (h : OnlyDomain k d x) : EncKept d x where
  enc j := by simp only [encOf, Dev.b, show x.blk = d.blk from (congrArg Dev.blk h.rest :)]
  stat j := h.regs _ (blockAddr_notMem_domRegs j _ k)

section Field

variable (ha : EcFree (f.addr i))
include ha

theorem encKept_put {v : Nat} : EncKept d (d.put f i v) := ⟨fun _ => rfl, fun k => Dev.reg_put_ne _ _ _ _ _ (ha k)⟩
theorem encKept_clr : EncKept d (d.clr f i) := encKept_put ha
theorem encKept_putB {b : Bool} : EncKept d (d.putB f i b) := encKept_put ha
theorem encKept_flag : EncKept d (d.flag f i) := (encKept_put ha (v := 1)).trans encKept_hw
theorem encKept_flagBit {b : Nat} : EncKept d (d.flagBit f i b) := (encKept_put ha (v := d.fld f i ||| 2 ^ b)).trans encKept_hw
theorem encKept_inc : EncKept d (d.inc f i) := (encKept_put ha (v := d.fld f i + 1)).trans encKept_hw

end Field

/-! #### Stalls and windows of a domain that becomes invalid -/

theorem setSwapPend_encKept : EncKept d (setSwapPend d nn) :=
  have ha : EcFree (Rstat.addr nn) := ecFree_block nn (by decide)
  (encKept_putB ha).trans (encKept_putB ha)

theorem stallSeen_encKept : EncKept d (stallSeen d nn) :=
  have ha : EcFree (Pstat.addr nn) := ecFree_block nn (by decide)
  (((encKept_clr ha).trans (encKept_flag ha)).trans (encKept_flag ha)).trans encKept_raise

theorem stallOwn_encKept : EncKept d (stallOwn d nn) :=
  have hheld : EncKept d ((stallSeen d nn).flag Pstat.HOLD nn) :=
    stallSeen_encKept.trans (encKept_flag (ecFree_block nn (by decide)))
  .ite .refl (.ite hheld (.ite (stallSeen_encKept.trans (encKept_onB fun _ => rfl)) (hheld.trans (encKept_onB fun _ => rfl))))

theorem declareStall_encKept : EncKept d (declareStall d nn) := by
  have hback : EncKept d (d.onB nn fun x => { x with swFall := none }) := encKept_onB fun _ => rfl
  refine .ite .refl (EncKept.trans ?_ setSwapPend_encKept)
  split
  · exact .ite (hback.trans stallSeen_encKept) stallOwn_encKept
  · exact stallOwn_encKept

theorem stallBound_encKept : EncKept d (stallBound d k) :=
  .forAll fun _ _ => (declareStall_encKept.ite .refl).trans ((stallOwn_encKept.trans setSwapPend_encKept).ite .refl)

theorem winMiss_encKept {c : Nat} : EncKept d (winMiss d p w c) := by
  have hstat : EcFree (WStat.addr (p, w)) := ecFree_window _ (by decide)
  have hcnt : EcFree (WCnt.addr (p, w)) := ecFree_window _ (by decide)
  exact (((((encKept_inc hcnt).trans (encKept_flag hstat)).trans (encKept_put hstat)).trans ((encKept_flag hstat).ite .refl)).trans
    (encKept_flagBit (ecFree_wsum p))).trans encKept_raise

theorem winFinal_encKept : EncKept d (winFinal d p w) :=
  encKept_onW.trans (.ite .refl (encKept_ownerSend.ite (winMiss_encKept.trans encKept_ownerSend)))

theorem winClose_encKept : EncKept d (winClose d p w) := by
  have hstat : EcFree (WStat.addr (p, w)) := ecFree_window _ (by decide)
  have hclosed (b : Bool) :
      EncKept d (onW ((d.clr WStat.FRESH (p, w)).clr WStat.DUE (p, w)) p w fun x => { x with isOpen := false, closing := b }) :=
    ((encKept_clr hstat).trans (encKept_clr hstat)).trans encKept_onW
  exact .ite .refl (.ite (hclosed _) ((hclosed _).trans winFinal_encKept))

theorem becomeInvalid_encKept : EncKept d (becomeInvalid d k) := by
  have hnoted : OnlyDomain k d (lossNoted d k) := ((((onlyDomain_setSeg.trans (onlyDomain_clr rfl)).trans (onlyDomain_clr rfl)).trans
    (onlyDomain_flag rfl)).trans (onlyDomain_incSat rfl))
  have hwins (z : Dev) : EncKept z (winsInvalid z k) := .forAll fun _ _ => .forAll fun _ _ => winClose_encKept.ite .refl
  exact (hnoted.encKept.trans stallBound_encKept).trans (hwins _)

/-! #### Domains rechecked, and turning by travel -/

theorem domRecheckAll_encKept : EncKept d (domRecheckAll d) := by
  refine .forAll fun z j => ?_
  have hauto : EncKept z ((switchTo z j true).flag PdStat.AUTOSW j) := (switchTo_onlyDomain.trans (onlyDomain_flag rfl)).encKept
  unfold domRecheck
  extract_lets alt ok
  exact .ite (.ite .refl (.ite hauto becomeInvalid_encKept)) (.ite becomeValid_onlyDomain.encKept .refl)

theorem encMoved_encKept {dp : Int} : EncKept d (encMoved d nn dp) := by
  refine .forAll fun z j => ?_
  have hdir : OnlyDomain j z (z.putB PdStat.DIR j (decide (dp < 0))) := onlyDomain_putB rfl
  exact .ite (.ite ((hdir.trans onlyDomain_setSeg).trans onlyDomain_onPd).encKept hdir.encKept) .refl

end EncKept

end Sys2Proof.Machine

/-! ### Encoder cells (R195 to R203, R413) -/

namespace Sys2Proof.Machine

/-- A field of EC.STAT that has no part in validity: not PVALID, SAT or INVAL_SEEN. -/
def BesideValidity (f : RF (Fin 16)) : Prop := f.addr = EcStat.addr ∧ 2 ≤ f.lo ∧ (f.lo + f.len ≤ 10 ∨ 11 ≤ f.lo)

section Encoder

variable {d x y : Dev} {nn k : Fin 16} {g : Enc → Enc} {dp : Int}

@[simp] theorem encOf_onE_self : encOf (onE d nn g) nn = g (encOf d nn) := by simp only [encOf, onE, Dev.b_onB_self]

theorem encOf_onE_ne (h : k ≠ nn) : encOf (onE d nn g) k = encOf d k := by simp only [encOf, onE, Dev.b_onB_ne _ _ _ _ h]

/-- A flag leaves the encoder cells. -/
theorem encOf_flag {f : RF (Fin 16)} : encOf (d.flag f nn) k = encOf d k := rfl

theorem ecCfg_ne_ecStat (nn : Fin 16) : EcCfg.addr nn ≠ EcStat.addr nn := by simp [EcCfg.addr, EcStat.addr]

/-! #### Validity lost and regained (R197, R198, R199) -/

/-- The position of cell nn is invalid, and of its status only PVALID and INVAL_SEEN may have changed. -/
structure Invalidated (nn : Fin 16) (d t : Dev) : Prop where
  invalid : t.bit EcStat.PVALID nn = false
  sat : t.bit EcStat.SAT nn = d.bit EcStat.SAT nn
  seen : d.bit EcStat.INVAL_SEEN nn = true → t.bit EcStat.INVAL_SEEN nn = true
  beside : ∀ f, BesideValidity f → t.fld f nn = d.fld f nn

/-- The position noted as invalid, before the domains that follow it are rechecked. -/
def invalidNoted (d : Dev) (nn : Fin 16) : Dev := (d.clr EcStat.PVALID nn).flag EcStat.INVAL_SEEN nn

theorem encInvalid_eq (d : Dev) (nn : Fin 16) :
    encInvalid d nn = if d.bit EcStat.PVALID nn = false then d else domRecheckAll (invalidNoted d nn) := by
  cases h : d.bit EcStat.PVALID nn <;> simp [encInvalid, h, invalidNoted]

theorem invalidNoted_stat : Invalidated nn d (invalidNoted d nn) where
  invalid := (Dev.bit_put_bits (f := EcStat.INVAL_SEEN) (by decide) (.inr (by decide))).trans (Dev.bit_clr_self _ _ _ (by decide))
  sat := (Dev.bit_put_bits (f := EcStat.INVAL_SEEN) (by decide) (.inr (by decide))).trans
    (Dev.bit_put_bits (f := EcStat.PVALID) (by decide) (.inl (by decide)))
  seen _ := Dev.bit_flag_self _ _ _ (by decide) rfl
  beside f hf := by
    obtain ⟨-, hlo, hseen⟩ := hf
    exact (Dev.fld_put_bits _ EcStat.INVAL_SEEN _ _ _ _ (by decide) hseen.symm).trans
      (Dev.fld_put_bits _ EcStat.PVALID _ _ _ _ (by decide) (.inl (by simp only [EcStat.PVALID]; omega)))

theorem encInvalid_enc : encOf (encInvalid d nn) k = encOf d k := by
  rw [encInvalid_eq]
  split
  · rfl
  · exact domRecheckAll_encKept.enc k

theorem encInvalid_stat : Invalidated nn d (encInvalid d nn) := by
  rw [encInvalid_eq]
  split
  · next h => exact ⟨h, rfl, id, fun _ _ => rfl⟩
  · have hk : EncKept (invalidNoted d nn) (domRecheckAll (invalidNoted d nn)) := domRecheckAll_encKept
    obtain ⟨hinvalid, hsat, hseen, hbeside⟩ := invalidNoted_stat (d := d) (nn := nn)
    exact ⟨(hk.bit rfl).trans hinvalid, (hk.bit rfl).trans hsat, fun h => (hk.bit rfl).trans (hseen h),
      fun f hf => (hk.fld hf.1).trans (hbeside f hf)⟩

theorem encCond_enc_self : encOf (encCond d nn) nn = { encOf d nn with cond := some d.clk } :=
  encInvalid_enc.trans encOf_onE_self

theorem encCond_enc_ne (h : k ≠ nn) : encOf (encCond d nn) k = encOf d k := encInvalid_enc.trans (encOf_onE_ne h)

theorem encCond_stat : Invalidated nn d (encCond d nn) :=
  have h : Invalidated nn (onE d nn fun e => { e with cond := some d.clk }) (encCond d nn) := encInvalid_stat
  ⟨h.invalid, h.sat, h.seen, h.beside⟩

theorem encOk_enc : encOf (encOk d nn) k = encOf d k := domRecheckAll_encKept.enc k

theorem encOk_stat : (encOk d nn).bit EcStat.PVALID nn = true ∧ (encOk d nn).bit EcStat.SAT nn = false ∧
    ∀ f, BesideValidity f → (encOk d nn).fld f nn = d.fld f nn := by
  have hk : EncKept ((d.clr EcStat.SAT nn).flag EcStat.PVALID nn) (encOk d nn) := domRecheckAll_encKept
  refine ⟨(hk.bit rfl).trans (Dev.bit_flag_self _ _ _ (by decide) rfl), ?_, fun f ⟨haddr, hlo, _⟩ => ?_⟩
  · exact (hk.bit rfl).trans ((Dev.bit_put_bits (f := EcStat.PVALID) (by decide) (.inl (by decide))).trans (Dev.bit_clr_self _ _ _ (by decide)))
  · exact (hk.fld haddr).trans ((Dev.fld_put_bits _ EcStat.PVALID _ _ _ _ (by decide) (.inl (by simp only [EcStat.PVALID]; omega))).trans
      (Dev.fld_put_bits _ EcStat.SAT _ _ _ _ (by decide) (.inl (by simp only [EcStat.SAT]; omega))))

/-! #### A position that moves (R157, R198) -/

/-- The device whose position has moved by dp, before a limit that it has met is noted. -/
def encTravelled (d : Dev) (nn : Fin 16) (dp : Int) : Dev :=
  let p := (encOf d nn).pos
  encMoved (encPut d nn (satP40 (p + dp))) nn (satP40 (p + dp) - p)

theorem encAdvance_free (hsat : d.bit EcStat.SAT nn = false) : encAdvance d nn dp =
    if posLim ((encOf d nn).pos + dp) then encCond ((encTravelled d nn dp).flag EcStat.SAT nn) nn else encTravelled d nn dp :=
  if_neg (by simp [hsat])

theorem encTravelled_stat {f : RF (Fin 16)} (hf : f.addr = EcStat.addr) : (encTravelled d nn dp).fld f nn = d.fld f nn :=
  encMoved_encKept.fld hf

theorem encTravelled_enc_ne (h : k ≠ nn) : encOf (encTravelled d nn dp) k = encOf d k :=
  (encMoved_encKept.enc k).trans (encOf_onE_ne h)

theorem encTravelled_enc_self : ∃ past, encOf (encTravelled d nn dp) nn =
    { encOf d nn with pos := satP40 ((encOf d nn).pos + dp), past := past } :=
  ⟨_, (encMoved_encKept.enc nn).trans encOf_onE_self⟩

theorem encAdvance_enc_ne (h : k ≠ nn) : encOf (encAdvance d nn dp) k = encOf d k := by
  cases hsat : d.bit EcStat.SAT nn
  · rw [encAdvance_free hsat]
    split
    · rw [encCond_enc_ne h, encOf_flag, encTravelled_enc_ne h]
    · exact encTravelled_enc_ne h
  · rw [encAdvance, if_pos hsat]

/-- Of the cell only the position, its past and the condition met may change. -/
theorem encAdvance_enc_self (hsat : d.bit EcStat.SAT nn = false) : ∃ past cond, encOf (encAdvance d nn dp) nn =
    { encOf d nn with pos := satP40 ((encOf d nn).pos + dp), past := past, cond := cond } := by
  obtain ⟨past, hpast⟩ := encTravelled_enc_self (d := d) (nn := nn) (dp := dp)
  rw [encAdvance_free hsat]
  split
  · exact ⟨past, _, by rw [encCond_enc_self, encOf_flag, hpast]⟩
  · exact ⟨past, _, hpast⟩

/-- At a limit the position saturates and is invalid. -/
theorem encAdvance_limit (hsat : d.bit EcStat.SAT nn = false) :
    let p := (encOf d nn).pos + dp
    let t := encAdvance d nn dp
    if p ≥ 2 ^ 39 - 1 ∨ p ≤ -(2 ^ 39) then t.bit EcStat.SAT nn = true ∧ t.bit EcStat.PVALID nn = false
    else t.bit EcStat.SAT nn = false ∧ t.bit EcStat.PVALID nn = d.bit EcStat.PVALID nn := by
  intro p t
  have hstat {f : RF (Fin 16)} (hf : f.addr = EcStat.addr) : (encTravelled d nn dp).bit f nn = d.bit f nn := by
    simp only [Dev.bit, encTravelled_stat hf]
  have ht : t = _ := encAdvance_free hsat
  by_cases hlim : p ≥ 2 ^ 39 - 1 ∨ p ≤ -(2 ^ 39)
  · rw [if_pos (by simpa [posLim] using hlim)] at ht
    rw [if_pos hlim, ht]
    exact ⟨encCond_stat.sat.trans (Dev.bit_flag_self _ _ _ (by decide) rfl), encCond_stat.invalid⟩
  · rw [if_neg (by simpa [posLim] using hlim)] at ht
    rw [if_neg hlim, ht]
    exact ⟨(hstat rfl).trans hsat, hstat rfl⟩

theorem satFlag_beside {f : RF (Fin 16)} (hf : BesideValidity f) : (d.flag EcStat.SAT nn).fld f nn = d.fld f nn :=
  Dev.fld_put_bits d EcStat.SAT nn f nn 1 (by decide) (.inl hf.2.1)

theorem encAdvance_beside {f : RF (Fin 16)} (hf : BesideValidity f) : (encAdvance d nn dp).fld f nn = d.fld f nn := by
  cases hsat : d.bit EcStat.SAT nn
  · rw [encAdvance_free hsat]
    split
    · rw [encCond_stat.beside f hf, satFlag_beside hf, encTravelled_stat hf.1]
    · exact encTravelled_stat hf.1
  · rw [encAdvance, if_pos hsat]

/-! #### One count (R196, R200) -/

/-- The cell has at most accepted levels: settings, position and validity of cell nn stand, and every other cell. -/
structure LevelsTaken (nn : Fin 16) (d x : Dev) : Prop where
  cfg : x.reg (EcCfg.addr nn) = d.reg (EcCfg.addr nn)
  others : ∀ k, k ≠ nn → encOf x k = encOf d k
  self : ∃ tA tB, encOf x nn = { encOf d nn with tA := tA, tB := tB }
  sat : x.bit EcStat.SAT nn = d.bit EcStat.SAT nn
  valid : x.bit EcStat.PVALID nn = d.bit EcStat.PVALID nn

theorem LevelsTaken.pos (h : LevelsTaken nn d x) : (encOf x nn).pos = (encOf d nn).pos := by
  obtain ⟨tA, tB, henc⟩ := h.self
  rw [henc]

/-- A count moves the position by one count of 2^(20 - CSHIFT), unless it has saturated. -/
theorem encCount_effect (h : LevelsTaken nn d x) (u : Bool) :
    let t := encCount x nn u
    let up := u != d.bit EcCfg.DIRINV nn
    let p := (encOf d nn).pos + (if up then 1 else -1) * 2 ^ (20 - min (d.fld EcCfg.CSHIFT nn) 20)
    (∀ k, k ≠ nn → encOf t k = encOf d k) ∧ t.bit EcStat.DIR nn = !up ∧
    t.bit EcStat.A nn = x.bit EcStat.A nn ∧ t.bit EcStat.B nn = x.bit EcStat.B nn ∧
    (d.bit EcStat.SAT nn = true → (encOf t nn).pos = (encOf d nn).pos) ∧
    (d.bit EcStat.SAT nn = false → (encOf t nn).pos = satP40 p ∧
      if p ≥ 2 ^ 39 - 1 ∨ p ≤ -(2 ^ 39) then t.bit EcStat.SAT nn = true ∧ t.bit EcStat.PVALID nn = false
      else t.bit EcStat.SAT nn = false ∧ t.bit EcStat.PVALID nn = d.bit EcStat.PVALID nn) := by
  intro t up p
  let dp : Int := (if up then 1 else -1) * 2 ^ (20 - min (d.fld EcCfg.CSHIFT nn) 20)
  let y := x.putB EcStat.DIR nn (!up)
  have hinv : x.bit EcCfg.DIRINV nn = d.bit EcCfg.DIRINV nn := congrArg (fun w => fget 12 1 w != 0) h.cfg
  have hshift : x.fld EcCfg.CSHIFT nn = d.fld EcCfg.CSHIFT nn := congrArg (fget 6 5) h.cfg
  have ht : t = encAdvance y nn dp := by
    simp only [t, encCount, hinv, hshift, y, dp, up]
    congr 1
    split <;> simp
  have hpos : (encOf y nn).pos + dp = p := congrArg (· + dp) h.pos
  have hlevel {f : RF (Fin 16)} (hf : BesideValidity f) (hdir : f.lo + f.len ≤ 5) : t.bit f nn = x.bit f nn := by
    rw [ht, Dev.bit, encAdvance_beside hf]
    exact Dev.bit_put_bits (f := EcStat.DIR) (by decide) (.inr hdir)
  have hvalid {f : RF (Fin 16)} (hf : f.lo + f.len ≤ 5) : y.bit f nn = x.bit f nn :=
    Dev.bit_put_bits (f := EcStat.DIR) (by decide) (.inr hf)
  have hsat : y.bit EcStat.SAT nn = d.bit EcStat.SAT nn := (hvalid (by decide)).trans h.sat
  refine ⟨fun k hk => ?_, ?_, hlevel ⟨rfl, by decide, by decide⟩ (by decide), hlevel ⟨rfl, by decide, by decide⟩ (by decide),
    fun hs => ?_, fun hs => ⟨?_, ?_⟩⟩
  · rw [ht]
    exact (encAdvance_enc_ne hk).trans (h.others k hk)
  · rw [ht, Dev.bit, encAdvance_beside ⟨rfl, by decide, by decide⟩]
    exact Dev.bit_putB_self x EcStat.DIR nn _ (by decide) rfl
  · rw [ht, encAdvance, if_pos (hsat.trans hs)]
    exact h.pos
  · obtain ⟨past, cond, henc⟩ := encAdvance_enc_self (dp := dp) (hsat.trans hs)
    rw [ht, henc, ← hpos]
  · have hlim := encAdvance_limit (dp := dp) (hsat.trans hs)
    rwa [hpos, hvalid (by decide), h.valid, ← ht] at hlim

/-! #### Accepted levels (R195) -/

section Levels

variable {a b : Bool}

theorem encLevels_stat {f : RF (Fin 16)} (hf : f.lo + f.len ≤ 2 ∨ 4 ≤ f.lo) : (encLevels d nn a b).fld f nn = d.fld f nn := by
  show ((d.putB EcStat.A nn a).putB EcStat.B nn b).fld f nn = _
  refine (Dev.fld_put_bits _ EcStat.B _ _ _ _ (by decide) ?_).trans (Dev.fld_put_bits _ EcStat.A _ _ _ _ (by decide) ?_) <;>
    simp only [EcStat.A, EcStat.B] <;> omega

theorem encLevels_levels : (encLevels d nn a b).bit EcStat.A nn = a ∧ (encLevels d nn a b).bit EcStat.B nn = b :=
  ⟨(Dev.bit_put_bits (f := EcStat.B) (by decide) (.inr (by decide))).trans (Dev.bit_putB_self d EcStat.A nn a (by decide) rfl),
    Dev.bit_putB_self _ EcStat.B nn b (by decide) rfl⟩

theorem encLevels_taken : LevelsTaken nn d (encLevels d nn a b) where
  cfg := (Dev.reg_put_ne _ EcStat.B _ _ _ (ecCfg_ne_ecStat nn)).trans (Dev.reg_put_ne _ EcStat.A _ _ _ (ecCfg_ne_ecStat nn))
  others _ hk := encOf_onE_ne hk
  self := ⟨_, _, encOf_onE_self⟩
  sat := congrArg (· != 0) (encLevels_stat (.inl (by decide)))
  valid := congrArg (· != 0) (encLevels_stat (.inl (by decide)))

/-! #### Quadrature (R196, R197) -/

/-- The inputs can take the levels a and b now. -/
def QuadReady (d : Dev) (nn : Fin 16) (a b : Bool) : Prop :=
  let a0 := d.bit EcStat.A nn
  let b0 := d.bit EcStat.B nn
  (a0 = a ∨ inputReady d (encOf d nn).tA (encFlt d nn) = true) ∧ (b0 = b ∨ inputReady d (encOf d nn).tB (encFlt d nn) = true) ∧
    (a0 ≠ a ∨ inputReady d (encOf d nn).tA 1 = true) ∧ (b0 ≠ b ∨ inputReady d (encOf d nn).tB 1 = true)

/-- Both inputs have changed at once: the counter keeps its value for this clk, and the position is invalid. -/
def encOverrun (d : Dev) (nn : Fin 16) : Dev :=
  let y := onE d nn fun e => { e with pos := e.posAt (d.clk - 1) }
  encEvent ((encCond ((y.flag EcStat.EDGE_OVERRUN nn).flag EcStat.INVAL_SEEN nn) nn).inc EcStat.ERRCNT nn) nn

/-- What accepted levels a and b do. -/
def quadTaken (d : Dev) (nn : Fin 16) (a b : Bool) : Dev :=
  let a0 := d.bit EcStat.A nn
  let b0 := d.bit EcStat.B nn
  let y := encLevels d nn (if d.fld EcCfg.MODE nn = 3 then a && a0 else a) b
  if d.fld EcCfg.MODE nn ≠ 1 ∨ (a0 = a ∧ b0 = b) then y
  else if a0 ≠ a ∧ b0 ≠ b then encOverrun y nn
  else encCount y nn (quadPos a b == (quadPos a0 b0 + 1) % 4)

theorem exec_quadCount (hu : unitBlk nn ∉ d.undef) (rest : List Instr) : exec (.quadCount nn a b) ⟨rest, d⟩ =
    .next ⟨rest, if (inputReady d (encOf d nn).tA (if d.bit EcStat.A nn = a then 1 else encFlt d nn) &&
      inputReady d (encOf d nn).tB (if d.bit EcStat.B nn = b then 1 else encFlt d nn)) = false then d else quadTaken d nn a b⟩ := by
  show execQuadCount nn a b ⟨rest, d⟩ = _
  rw [execQuadCount, onBlock_known hu]
  simp only [Bool.not_eq_true', encOverrun, quadTaken]

theorem quadReady_iff : QuadReady d nn a b ↔ (inputReady d (encOf d nn).tA (if d.bit EcStat.A nn = a then 1 else encFlt d nn) &&
    inputReady d (encOf d nn).tB (if d.bit EcStat.B nn = b then 1 else encFlt d nn)) = true := by
  by_cases ha : d.bit EcStat.A nn = a <;> by_cases hb : d.bit EcStat.B nn = b <;> simp [QuadReady, ha, hb, and_comm]

theorem quadCount_ignored (hu : unitBlk nn ∉ d.undef) (h : ¬ QuadReady d nn a b) : Gives (.quadCount nn a b) d d := fun rest => by
  rw [exec_quadCount hu, if_pos (by rwa [quadReady_iff, Bool.not_eq_true] at h)]

theorem quadCount_ready (hu : unitBlk nn ∉ d.undef) (h : QuadReady d nn a b) : Gives (.quadCount nn a b) d (quadTaken d nn a b) := fun rest => by
  rw [exec_quadCount hu, if_neg (by simp [quadReady_iff.1 h])]

theorem quadTaken_both (hm : d.fld EcCfg.MODE nn = 1) (ha : d.bit EcStat.A nn ≠ a) (hb : d.bit EcStat.B nn ≠ b) :
    quadTaken d nn a b = encOverrun (encLevels d nn a b) nn := by simp [quadTaken, hm, ha, hb]

theorem quadTaken_one (hm : d.fld EcCfg.MODE nn = 1)
    (h : (d.bit EcStat.A nn = a ∧ d.bit EcStat.B nn ≠ b) ∨ (d.bit EcStat.A nn ≠ a ∧ d.bit EcStat.B nn = b)) :
    quadTaken d nn a b = encCount (encLevels d nn a b) nn (quadPos a b == (quadPos (d.bit EcStat.A nn) (d.bit EcStat.B nn) + 1) % 4) := by
  rcases h with ⟨ha, hb⟩ | ⟨ha, hb⟩ <;> simp [quadTaken, hm, ha, hb]

theorem encOverrun_effect (h : LevelsTaken nn d x) (hclk : x.clk = d.clk) (herr : x.fld EcStat.ERRCNT nn = d.fld EcStat.ERRCNT nn) :
    let t := encOverrun x nn
    t.bit EcStat.EDGE_OVERRUN nn = true ∧ t.bit EcStat.PVALID nn = false ∧ t.bit EcStat.INVAL_SEEN nn = true ∧
    t.fld EcStat.ERRCNT nn = (d.fld EcStat.ERRCNT nn + 1) % 2 ^ EcStat.ERRCNT.len ∧
    (encOf t nn).pos = (encOf d nn).posAt (d.clk - 1) ∧ (∀ k, k ≠ nn → encOf t k = encOf d k) := by
  intro t
  let y := onE x nn fun e => { e with pos := e.posAt (x.clk - 1) }
  let z := (y.flag EcStat.EDGE_OVERRUN nn).flag EcStat.INVAL_SEEN nn
  obtain ⟨hinvalid, -, hseen, hbeside⟩ := encCond_stat (d := z) (nn := nn)
  have hlow {f : RF (Fin 16)} (hf : f.lo + f.len ≤ 16) : t.bit f nn = (encCond z nn).bit f nn :=
    Dev.bit_put_bits (d := encCond z nn) (f := EcStat.ERRCNT) (by decide) (.inr hf)
  refine ⟨?_, (hlow (by decide)).trans hinvalid, (hlow (by decide)).trans (hseen (Dev.bit_flag_self _ _ _ (by decide) rfl)),
    ?_, ?_, fun k hk => ?_⟩
  · refine (hlow (by decide)).trans ((congrArg (· != 0) (hbeside EcStat.EDGE_OVERRUN ⟨rfl, by decide, by decide⟩)).trans ?_)
    exact (Dev.bit_put_bits (d := y.flag EcStat.EDGE_OVERRUN nn) (f := EcStat.INVAL_SEEN) (by decide) (.inr (by decide))).trans
      (Dev.bit_flag_self _ _ _ (by decide) rfl)
  · have hcnt : (encCond z nn).fld EcStat.ERRCNT nn = d.fld EcStat.ERRCNT nn :=
      (hbeside EcStat.ERRCNT ⟨rfl, by decide, by decide⟩).trans ((Dev.fld_put_bits _ EcStat.INVAL_SEEN _ _ _ _ (by decide) (by decide)).trans
        ((Dev.fld_put_bits y EcStat.EDGE_OVERRUN _ _ _ _ (by decide) (by decide)).trans herr))
    rw [← hcnt]
    exact Dev.fld_put_self (encCond z nn) EcStat.ERRCNT nn _ (by decide)
  · obtain ⟨tA, tB, henc⟩ := h.self
    have ht : encOf t nn = { encOf z nn with cond := some z.clk } := encCond_enc_self
    have hy : encOf y nn = { encOf x nn with pos := (encOf x nn).posAt (x.clk - 1) } := encOf_onE_self
    rw [ht, show encOf z nn = encOf y nn from rfl, hy, henc, hclk]
    rfl
  · have hy : encOf y k = encOf d k := (encOf_onE_ne hk).trans (h.others k hk)
    exact (encCond_enc_ne hk).trans hy

end Levels

/-! #### Steps (R200) -/

section Step

variable {eb settled : Bool}

/-- EA has been low and then high, and EB has stood or can change now. -/
def StepReady (d : Dev) (nn : Fin 16) (eb : Bool) : Prop :=
  inputReady d (encOf d nn).tA (if d.bit EcStat.A nn then 2 * encFlt d nn else encFlt d nn) = true ∧
    (d.bit EcStat.B nn = eb ∨ inputReady d (encOf d nn).tB (encFlt d nn) = true) ∧ inputReady d (encOf d nn).tB 0 = true

/-- An input that is past its filter is past none. -/
theorem inputReady_zero {t : Option Nat} {n : Nat} (h : inputReady d t n = true) : inputReady d t 0 = true := by
  cases t with
  | none => rfl
  | some t =>
    simp only [inputReady, decide_eq_true_eq] at h ⊢
    omega

theorem stepReady_iff : StepReady d nn eb ↔
    (inputReady d (encOf d nn).tA (if d.bit EcStat.A nn then 2 * encFlt d nn else encFlt d nn) &&
      inputReady d (encOf d nn).tB (if d.bit EcStat.B nn = eb then 0 else encFlt d nn)) = true := by
  by_cases hb : d.bit EcStat.B nn = eb
  · simp [StepReady, hb]
  · simp only [StepReady, hb, if_false, false_or, Bool.and_eq_true]
    exact ⟨fun ⟨ha, hb, _⟩ => ⟨ha, hb⟩, fun ⟨ha, hb⟩ => ⟨ha, hb, inputReady_zero hb⟩⟩

/-- The levels of a step accepted; a direction that had not settled takes a free value. -/
def stepLevels (d : Dev) (nn : Fin 16) (eb settled : Bool) : Dev :=
  let y := onE (encLevels d nn true eb) nn fun e => { e with tA := some d.clk }
  if settled then y else y.free.2

theorem stepLevels_taken : LevelsTaken nn d (stepLevels d nn eb settled) := by
  let y := onE (encLevels d nn true eb) nn fun e => { e with tA := some d.clk }
  obtain ⟨hcfg, hothers, ⟨tA, tB, hself⟩, hsat, hvalid⟩ := encLevels_taken (d := d) (nn := nn) (a := true) (b := eb)
  have hy : encOf y nn = { encOf d nn with tA := some d.clk, tB := tB } := by rw [show encOf y nn = _ from encOf_onE_self, hself]
  have hk (k : Fin 16) (hk : k ≠ nn) : encOf y k = encOf d k := (encOf_onE_ne hk).trans (hothers k hk)
  cases settled <;> exact ⟨hcfg, hk, ⟨_, tB, hy⟩, hsat, hvalid⟩

theorem exec_stepEdge (hu : unitBlk nn ∉ d.undef) (rest : List Instr) : exec (.stepEdge nn eb settled) ⟨rest, d⟩ =
    .next ⟨rest, if d.fld EcCfg.MODE nn ≠ 3 ∨ (inputReady d (encOf d nn).tA (if d.bit EcStat.A nn then 2 * encFlt d nn else encFlt d nn) &&
      inputReady d (encOf d nn).tB (if d.bit EcStat.B nn = eb then 0 else encFlt d nn)) = false then d
      else encCount (stepLevels d nn eb settled) nn (if settled then eb else Config.choice d.fresh)⟩ := by
  show execStepEdge nn eb settled ⟨rest, d⟩ = _
  rw [execStepEdge, onBlock_known hu]
  simp only [Bool.not_eq_true']
  cases settled <;> rfl

theorem stepEdge_ignored (hu : unitBlk nn ∉ d.undef) (h : d.fld EcCfg.MODE nn ≠ 3 ∨ ¬ StepReady d nn eb) :
    Gives (.stepEdge nn eb settled) d d :=
  fun rest => by rw [exec_stepEdge hu, if_pos (by rwa [stepReady_iff, Bool.not_eq_true] at h)]

theorem stepEdge_taken (hu : unitBlk nn ∉ d.undef) (hm : d.fld EcCfg.MODE nn = 3) (h : StepReady d nn eb) : Gives (.stepEdge nn eb settled) d
    (encCount (stepLevels d nn eb settled) nn (if settled then eb else Config.choice d.fresh)) :=
  fun rest => by rw [exec_stepEdge hu, if_neg (by simp [hm, stepReady_iff.1 h])]

end Step

/-! #### The index (R199) -/

/-- An index edge at EZ: Z loads into a counted position that is invalid, with ZMODE, and is otherwise seen. -/
def indexTaken (d : Dev) (nn : Fin 16) : Dev :=
  let y := encIndex d nn true
  if y.fld EcCfg.MODE nn = 1 ∧ y.bit EcStat.PVALID nn = false ∧ y.bit EcCfg.ZMODE nn = true then
    if encCondNow y nn then y else encValid y nn (encZ y nn)
  else y.flag EcStat.ZSEEN nn

theorem exec_indexEdge (hu : unitBlk nn ∉ d.undef) (rest : List Instr) : exec (.indexEdge nn) ⟨rest, d⟩ =
    .next ⟨rest, if inputReady d (encOf d nn).tZ (if d.bit EcStat.Z nn then 2 * encFlt d nn else encFlt d nn) = false then d
      else indexTaken d nn⟩ := by
  show execIndexEdge nn ⟨rest, d⟩ = _
  rw [execIndexEdge, onBlock_known hu]
  simp only [Bool.not_eq_true', indexTaken]

/-- The accepted level of EZ leaves everything of the cells but Z. -/
theorem encIndex_effect (d : Dev) (nn : Fin 16) : let y := encIndex d nn true
    (∀ k, k ≠ nn → encOf y k = encOf d k) ∧ encOf y nn = { encOf d nn with tZ := some d.clk } ∧ y.clk = d.clk ∧
    y.bit EcStat.Z nn = true ∧ y.bit EcStat.PVALID nn = d.bit EcStat.PVALID nn ∧ ∀ a, a ≠ EcStat.addr nn → y.reg a = d.reg a := by
  intro y
  let z := onE (d.putB EcStat.Z nn true) nn fun e => { e with tZ := some d.clk }
  have hy : y = z ∨ y = senseEdge z nn 8 true := by
    simp only [y, encIndex]
    split
    · exact .inr rfl
    · exact .inl rfl
  have hk : EncKept z y ∧ y.clk = z.clk ∧ y.regs = z.regs := by
    rcases hy with h | h <;> rw [h]
    · exact ⟨.refl, rfl, rfl⟩
    · exact ⟨encKept_onB fun _ => rfl, rfl, rfl⟩
  obtain ⟨hkept, hclk, hregs⟩ := hk
  refine ⟨fun k hk => (hkept.enc k).trans (encOf_onE_ne hk), (hkept.enc nn).trans encOf_onE_self, hclk, ?_, ?_, fun a ha => ?_⟩
  · exact (hkept.bit rfl).trans (Dev.bit_putB_self d EcStat.Z nn true (by decide) rfl)
  · exact (hkept.bit rfl).trans (Dev.bit_put_bits (d := d) (f := EcStat.Z) (by decide) (.inr (by decide)))
  · simp only [Dev.reg, hregs]
    exact Dev.reg_put_ne d EcStat.Z nn _ a ha

theorem indexTaken_effect (hc : encCondNow d nn = false) : let t := indexTaken d nn
    t.bit EcStat.Z nn = true ∧ (∀ k, k ≠ nn → encOf t k = encOf d k) ∧
    if d.fld EcCfg.MODE nn = 1 ∧ d.bit EcStat.PVALID nn = false ∧ d.bit EcCfg.ZMODE nn = true then
      (encOf t nn).pos = d.sfld EcZhi.V nn * 2 ^ 20 + Int.ofNat (d.fld EcZlo.V nn) ∧ t.bit EcStat.PVALID nn = true ∧ t.bit EcStat.SAT nn = false
    else (encOf t nn).pos = (encOf d nn).pos ∧ t.bit EcStat.ZSEEN nn = true ∧ t.bit EcStat.PVALID nn = d.bit EcStat.PVALID nn := by
  intro t
  let y := encIndex d nn true
  obtain ⟨hothers, hself, hclk, hz, hvalid, hregs⟩ := encIndex_effect d nn
  have hfld {f : RF (Fin 16)} (hf : f.addr nn ≠ EcStat.addr nn) : y.fld f nn = d.fld f nn := congrArg (fget f.lo f.len) (hregs _ hf)
  have hmode : y.fld EcCfg.MODE nn = d.fld EcCfg.MODE nn := hfld (ecCfg_ne_ecStat nn)
  have hzmode : y.bit EcCfg.ZMODE nn = d.bit EcCfg.ZMODE nn := congrArg (· != 0) (hfld (f := EcCfg.ZMODE) (ecCfg_ne_ecStat nn))
  have hcond : encCondNow y nn = false := by
    rw [← hc]
    simp only [encCondNow, y, hself, hclk]
  have hload : encZ y nn = d.sfld EcZhi.V nn * 2 ^ 20 + Int.ofNat (d.fld EcZlo.V nn) := by
    rw [encZ, hfld (by simp [EcZhi.V, EcZhi.addr, EcStat.addr]), hfld (by simp [EcZlo.V, EcZlo.addr, EcStat.addr])]
    rfl
  have ht : t = if d.fld EcCfg.MODE nn = 1 ∧ d.bit EcStat.PVALID nn = false ∧ d.bit EcCfg.ZMODE nn = true then encValid y nn (encZ y nn)
      else y.flag EcStat.ZSEEN nn := by
    rw [← hmode, ← hzmode, ← show y.bit EcStat.PVALID nn = _ from hvalid]
    simp only [t, y, indexTaken, show encCondNow (encIndex d nn true) nn = false from hcond, Bool.false_eq_true, if_false]
  rw [ht]
  split
  · obtain ⟨hok, hsat, hbeside⟩ := encOk_stat (d := encPut y nn (encZ y nn)) (nn := nn)
    refine ⟨(congrArg (· != 0) (hbeside EcStat.Z ⟨rfl, by decide, by decide⟩)).trans hz,
      fun k hk => encOk_enc.trans ((encOf_onE_ne hk).trans (hothers k hk)), ?_, hok, hsat⟩
    rw [← hload]
    exact congrArg Enc.pos (encOk_enc.trans encOf_onE_self)
  · have hpos : (encOf y nn).pos = (encOf d nn).pos := by rw [show encOf y nn = _ from hself]
    exact ⟨(Dev.bit_put_bits (f := EcStat.ZSEEN) (by decide) (.inr (by decide))).trans hz, hothers, hpos,
      Dev.bit_flag_self _ _ _ (by decide) rfl, (Dev.bit_put_bits (f := EcStat.ZSEEN) (by decide) (.inr (by decide))).trans hvalid⟩

/-! #### SSI words (R201 to R203, R413) -/

/-- A discarded transfer keeps the position and counts; the second in a row makes it invalid. -/
theorem ssiDiscard_effect (d : Dev) (nn : Fin 16) : let t := ssiDiscard d nn
    (encOf t nn).pos = (encOf d nn).pos ∧ t.fld EcStat.ERRCNT nn = (d.fld EcStat.ERRCNT nn + 1) % 2 ^ EcStat.ERRCNT.len ∧
    (∀ f, BesideValidity f → f.lo + f.len ≤ 16 → t.fld f nn = d.fld f nn) ∧
    (1 ≤ (encOf d nn).bad → t.bit EcStat.PVALID nn = false) := by
  intro t
  let e := encOf d nn
  let y := onE (d.inc EcStat.ERRCNT nn) nn fun x => { x with bad := min (e.bad + 1) 2, good := none }
  have ht : t = if min (e.bad + 1) 2 = 2 then (if e.bad < 2 then encEvent (encInvalid y nn) nn else encInvalid y nn) else y := rfl
  have hpos : (encOf y nn).pos = e.pos := by
    rw [show encOf y nn = { e with bad := min (e.bad + 1) 2, good := none } from encOf_onE_self]
  have hcnt : y.fld EcStat.ERRCNT nn = (d.fld EcStat.ERRCNT nn + 1) % 2 ^ EcStat.ERRCNT.len :=
    Dev.fld_put_self d EcStat.ERRCNT nn _ (by decide)
  have hlow {f : RF (Fin 16)} (hf : f.lo + f.len ≤ 16) : y.fld f nn = d.fld f nn :=
    Dev.fld_put_bits d EcStat.ERRCNT nn f nn _ (by decide) (.inr hf)
  by_cases hbad : 1 ≤ e.bad
  · have hsame : encOf t nn = encOf (encInvalid y nn) nn ∧ ∀ f : RF (Fin 16), t.fld f nn = (encInvalid y nn).fld f nn := by
      rw [ht, if_pos (by omega)]
      split <;> exact ⟨rfl, fun _ => rfl⟩
    obtain ⟨henc, hfld⟩ := hsame
    refine ⟨?_, ?_, fun f hf hlo => ?_, fun _ => ?_⟩
    · rw [henc, encInvalid_enc]
      exact hpos
    · rw [hfld, encInvalid_stat.beside _ ⟨rfl, by decide, by decide⟩]
      exact hcnt
    · rw [hfld, encInvalid_stat.beside f hf]
      exact hlow hlo
    · rw [Dev.bit, hfld]
      exact encInvalid_stat.invalid
  · rw [if_neg (by omega)] at ht
    exact ht ▸ ⟨hpos, hcnt, fun _ _ hlo => hlow hlo, fun h => absurd h hbad⟩

section Ssi

variable {w : BitVec 40} {stopLow idle ok : Bool} {p v : Nat}

theorem gives_ssiTransferStart (hu : unitBlk nn ∉ d.undef) : Gives (.ssiTransferStart nn idle) d
    (if d.fld EcCfg.MODE nn = 2 then onE d nn fun e => { e with idleOk := idle } else d) := fun _ => onBlock_known hu

/-- The device that an SSI word leaves, by mode and role. -/
def ssiEnded (d : Dev) (nn : Fin 16) (w : BitVec 40) (ok : Bool) : Dev :=
  if d.fld EcCfg.MODE nn ≠ 2 then d
  else if d.fld TwStat.ROLE () = 2 then d
  else if d.fld TwStat.ROLE () = 1 then twSend (onE d nn fun e => { e with wait := some (w, ok) }) (.ssi nn w ok)
  else ssiTake d nn w.toNat ok

theorem gives_ssiTransferEnd (hu : unitBlk nn ∉ d.undef) :
    Gives (.ssiTransferEnd nn w stopLow) d (ssiEnded d nn w ((encOf d nn).idleOk && stopLow)) := fun _ => onBlock_known hu

theorem ssiEnded_ignored (h : d.fld EcCfg.MODE nn ≠ 2 ∨ d.fld TwStat.ROLE () = 2) : ssiEnded d nn w ok = d := by
  rcases h with h | h <;> simp [ssiEnded, h]

theorem ssiEnded_owner (hm : d.fld EcCfg.MODE nn = 2) (hr : d.fld TwStat.ROLE () = 1) :
    ssiEnded d nn w ok = twSend (onE d nn fun e => { e with wait := some (w, ok) }) (.ssi nn w ok) := by simp [ssiEnded, hm, hr]

/-- The owner of a pair sends its word and moves nothing yet. -/
theorem ssiSent_effect {x : Option (BitVec 40 × Bool)} {m : TwMsg} : let t := twSend (onE d nn fun e => { e with wait := x }) m
    t.twin.txq = (twSend d m).twin.txq ∧ (encOf t nn).pos = (encOf d nn).pos ∧ t.regs = d.regs := by
  intro t
  let y := onE d nn fun e => { e with wait := x }
  have hy : encOf y nn = { encOf d nn with wait := x } := encOf_onE_self
  have ht : encOf t nn = encOf y nn ∧ t.regs = d.regs ∧ t.twin.txq = (twSend d m).twin.txq := by
    cases hdead : d.twin.dead <;> simp [t, twSend, onE, hdead, encOf, Dev.b, y]
  obtain ⟨henc, hregs, hsent⟩ := ht
  exact ⟨hsent, by rw [henc, hy], hregs⟩

theorem ssiEnded_alone (hm : d.fld EcCfg.MODE nn = 2) (hr : d.fld TwStat.ROLE () = 0) :
    ssiEnded d nn w ok = ssiTake d nn w.toNat ok := by simp [ssiEnded, hm, hr]

/-- The value of an SSI word (R202). -/
def ssiVal (d : Dev) (nn : Fin 16) (w : BitVec 40) : Nat :=
  let n := d.fld EcCfg.SBITS nn
  if d.bit EcCfg.GRAY nn then grayDecode n (w.toNat % 2 ^ n) else w.toNat % 2 ^ n

/-- By how much it differs from the word accepted last. -/
def ssiDiff (d : Dev) (nn : Fin 16) (w : BitVec 40) (p : Nat) : Int :=
  let n := d.fld EcCfg.SBITS nn
  sx n ((ssiVal d nn w + 2 ^ n - p) % 2 ^ n)

/-- A good word accepted, before the position moves by its difference. -/
def ssiAccepted (d : Dev) (nn : Fin 16) (v : Nat) (dl : Int) : Dev :=
  let y := onE d nn fun e => { e with last := some v, bad := 0 }
  if dl = 0 then y else y.putB EcStat.DIR nn (decide (dl < 0))

theorem ssiTake_bad : ssiTake d nn w.toNat false = ssiDiscard (d.flag EcStat.SSIERR nn) nn := rfl

theorem ssiTake_valid (hv : d.bit EcStat.PVALID nn = true) (hl : (encOf d nn).last = some p) : ssiTake d nn w.toNat true =
    if d.fld EcJmax.V nn ≠ 0 ∧ (ssiDiff d nn w p).natAbs > d.fld EcJmax.V nn then ssiDiscard (d.flag EcStat.JUMP nn) nn
    else encAdvance (ssiAccepted d nn (ssiVal d nn w) (ssiPos d nn (ssiDiff d nn w p))) nn (ssiPos d nn (ssiDiff d nn w p)) := by
  rw [ssiTake]
  simp only [Bool.not_true, Bool.false_eq_true, if_false, hv, if_true, hl, Option.getD_some]
  rfl

theorem ssiDiscarded_flag {f : RF (Fin 16)} (hf : BesideValidity f) (hlen : f.len = 1) (hlo : f.lo < 16) :
    let t := ssiDiscard (d.flag f nn) nn
    (encOf t nn).pos = (encOf d nn).pos ∧ t.bit f nn = true ∧ t.fld EcStat.ERRCNT nn = (d.fld EcStat.ERRCNT nn + 1) % 2 ^ EcStat.ERRCNT.len ∧
    (1 ≤ (encOf d nn).bad → t.bit EcStat.PVALID nn = false) := by
  obtain ⟨hpos, hcnt, hkept, hinvalid⟩ := ssiDiscard_effect (d.flag f nn) nn
  refine ⟨hpos, ?_, ?_, hinvalid⟩
  · rw [Dev.bit, hkept f hf (by omega)]
    exact Dev.bit_flag_self d f nn (by omega) hlen
  · rw [hcnt]
    exact congrArg (fun n => (n + 1) % 2 ^ EcStat.ERRCNT.len)
      (Dev.fld_put_bits d f nn EcStat.ERRCNT nn 1 (by omega) (.inl (by simp only [EcStat.ERRCNT]; omega)))

theorem ssiAccepted_moves {dl : Int} (hs : d.bit EcStat.SAT nn = false) : let t := encAdvance (ssiAccepted d nn v dl) nn dl
    (encOf t nn).pos = satP40 ((encOf d nn).pos + dl) ∧ (encOf t nn).last = some v ∧ (encOf t nn).bad = 0 := by
  intro t
  have hacc : encOf (ssiAccepted d nn v dl) nn = { encOf d nn with last := some v, bad := 0 } ∧
      (ssiAccepted d nn v dl).bit EcStat.SAT nn = false := by
    unfold ssiAccepted
    extract_lets y
    have hy : encOf y nn = { encOf d nn with last := some v, bad := 0 } := encOf_onE_self
    split
    · exact ⟨hy, hs⟩
    · exact ⟨hy, (Dev.bit_put_bits (f := EcStat.DIR) (by decide) (.inr (by decide))).trans hs⟩
  obtain ⟨henc, hsat⟩ := hacc
  obtain ⟨past, cond, ht⟩ := encAdvance_enc_self (dp := dl) hsat
  simp only [t, ht, henc, and_self]

end Ssi

/-! #### REVAL (R199) -/

theorem gives_reval {h : Master} {w : Word} (ha : Alone d h (EcCtl.addr nn) (unitBlk nn)) (hr : mRsv 0xFFFE w = 0) :
    Gives (.reval h nn w) d (doReval d nn) := by
  intro rest
  show execReval h nn w ⟨rest, d⟩ = _
  rw [execReval, hostW_reaches ha.1 (by simp) hr]
  simp [mirHost_alone ha.2]

theorem doReval_eq (d : Dev) (nn : Fin 16) : doReval d nn =
    if (d.fld EcCfg.MODE nn = 1 ∨ d.fld EcCfg.MODE nn = 3) ∧ encCondNow d nn = false then encOk (d.clr EcCtl.REVAL nn) nn
    else d.clr EcCtl.REVAL nn := by
  have hmode : (d.clr EcCtl.REVAL nn).fld EcCfg.MODE nn = d.fld EcCfg.MODE nn :=
    Dev.fld_put_addr _ _ _ _ _ _ (by simp [EcCfg.MODE, EcCfg.addr, EcCtl.REVAL, EcCtl.addr])
  simp only [doReval, hmode, Bool.not_eq_true']
  rfl

end Encoder

end Sys2Proof.Machine

/-! ### Probe cells (R195, R207, R208) -/

namespace Sys2Proof.Machine

/-! #### Wide values in register pairs (R104) -/

section Wide

variable {ι : Type} {d : Dev} {hi lo : RF ι} {i : ι} {v : Nat} {signed : Bool}

theorem putWide_onlyRegs : OnlyRegs [hi.addr i, lo.addr i] d (putWide d hi lo i v signed) := by
  have hlow (z : Dev) : OnlyRegs [hi.addr i, lo.addr i] z (z.setReg (lo.addr i) (BitVec.ofNat 32 (v % 2 ^ 20))) := onlyRegs_setReg (by simp)
  refine OnlyRegs.trans ?_ (hlow _)
  split <;> exact onlyRegs_setReg (by simp)

/-- A high half written with the sign extension of R9 reads as its 20 bits. -/
theorem fld_putS_sx {f : RF ι} {h : Nat} (hlo : f.lo = 0) (hlen : f.len = 20) (hh : h < 2 ^ 20) : (d.putS f i (sx 20 h)).fld f i = h := by
  rw [Dev.putS, Dev.fld_setReg_self, hlo, hlen, fget_ofNat (by decide)]
  simp only [sx, ux, Int.ofNat_eq_natCast]
  omega

/-- The two halves written read together as the value. -/
theorem putWide_pair (hne : hi.addr i ≠ lo.addr i) (hhi : hi.lo = 0 ∧ hi.len = 20) (hlo : lo.lo = 0 ∧ lo.len = 20) (hv : v < 2 ^ 40) :
    (putWide d hi lo i v signed).fld hi i * 2 ^ 20 + (putWide d hi lo i v signed).fld lo i = v := by
  let h := v / 2 ^ 20 % 2 ^ 20
  let z := if signed then d.putS hi i (sx 20 h) else d.setReg (hi.addr i) (BitVec.ofNat 32 h)
  have hhigh : (putWide d hi lo i v signed).fld hi i = h := by
    refine (Dev.fld_setReg_addr z _ _ _ _ hne).trans ?_
    cases signed
    · exact (Dev.fld_setReg_self d _ hi i).trans (by rw [hhi.1, hhi.2, fget_ofNat (by decide)]; exact Nat.mod_mod _ _)
    · exact fld_putS_sx hhi.1 hhi.2 (Nat.mod_lt _ (by decide))
  have hlow : (putWide d hi lo i v signed).fld lo i = v % 2 ^ 20 :=
    (Dev.fld_setReg_self z _ lo i).trans (by rw [hlo.1, hlo.2, fget_ofNat (by decide)]; exact Nat.mod_mod _ _)
  rw [hhigh, hlow]
  simp only [h]
  omega

end Wide

section Probe

variable {d : Dev} {nn : Fin 16} {up : Bool}

/-! #### An edge and what becomes of it -/

/-- The edge's level accepted. -/
def probeMoved (d : Dev) (nn : Fin 16) (up : Bool) : Dev :=
  (senseEdge (d.putB PcStat.LEVEL nn up) nn 9 up).onB nn fun b => { b with prbEdge := some d.clk }

/-- Whether the edge is of the kind chosen. -/
def probeWanted (y : Dev) (nn : Fin 16) (up : Bool) : Bool :=
  if up then y.fld PcCfg.EDGE nn == 1 || y.fld PcCfg.EDGE nn == 3 else y.fld PcCfg.EDGE nn == 2 || y.fld PcCfg.EDGE nn == 3

/-- Whether an edge was latched in the last 10 us. -/
def probeNear (y : Dev) (nn : Fin 16) : Bool :=
  match (y.b nn).prbLast with
  | some t => decide (y.clk < t + nsClk y 10000)
  | none => false

/-- Position and phase of the first sample, n clk ago, latched. -/
def probeValues (y : Dev) (nn : Fin 16) (n : Nat) : Dev :=
  let p := putWide y PcPosHi.V PcPosLo.V nn (ux 40 ((encOf y nn).posAt (y.clk - n))) true
  putWide p PcPhHi.V PcPhLo.V nn (domPH40At p ⟨y.fld PcCfg.DOM nn % 8, Nat.mod_lt _ (by omega)⟩ (p.clk - n)) false

/-- A latched edge noted in PC.STAT. -/
def probeNoted (q : Dev) (nn : Fin 16) : Dev :=
  let s := (q.flag PcStat.NEW nn).inc PcStat.LCNT nn
  if s.bit PcCfg.ONCE nn then s.clr PcStat.ARMED nn else s

/-- The clk of the edge kept, and its event. -/
def probeTold (s : Dev) (nn : Fin 16) : Dev :=
  (s.onB nn fun b => { b with prbLast := some s.clk }).raise (bkSrc nn 20) (s.fld PcStat.LCNT nn)

/-- The edge latched. -/
def probeLatch (y : Dev) (nn : Fin 16) (n : Nat) : Dev := probeTold (probeNoted (probeValues y nn n) nn) nn

/-- An accepted edge judged. -/
def probeJudged (y : Dev) (nn : Fin 16) (up : Bool) (n : Nat) : Dev :=
  if !probeWanted y nn up then y
  else if probeNear y nn ∨ (y.bit PcCfg.ONCE nn ∧ !y.bit PcStat.ARMED nn) then y.flag PcStat.LOST_SEEN nn
  else probeLatch y nn n

theorem gives_probeEdge (hu : unitBlk nn ∉ d.undef) : Gives (.probeEdge nn up) d
    (if d.bit PcStat.LEVEL nn = up ∨ !inputReady d (d.b nn).prbEdge (d.fld PcCfg.FLT nn + 1) then d
      else probeJudged (probeMoved d nn up) nn up (d.fld PcCfg.FLT nn)) := by
  intro rest
  show execProbeEdge nn up ⟨rest, d⟩ = _
  rw [execProbeEdge, onBlock_known hu]
  rfl

theorem probeNear_iff : probeNear d nn = true ↔ ∃ t, (d.b nn).prbLast = some t ∧ d.clk < t + nsClk d 10000 := by
  unfold probeNear
  split
  · next t h => simp [h]
  · next h => simp [h]

theorem probeWanted_iff : probeWanted d nn up = true ↔
    (up = true ∧ (d.fld PcCfg.EDGE nn = 1 ∨ d.fld PcCfg.EDGE nn = 3)) ∨ (up = false ∧ 2 ≤ d.fld PcCfg.EDGE nn) := by
  have hlt : d.fld PcCfg.EDGE nn < 4 := Dev.fld_lt d PcCfg.EDGE nn
  cases up
  · simp [probeWanted]
    omega
  · simp [probeWanted]

/-! #### The level accepted -/

/-- An accepted level changes LEVEL alone of the registers, and of block nn nothing that a latched edge reads. -/
theorem probeMoved_effect (d : Dev) (nn : Fin 16) (up : Bool) : let y := probeMoved d nn up
    y.bit PcStat.LEVEL nn = up ∧ (∀ f : RF (Fin 16), f.lo + f.len ≤ 2 ∨ 3 ≤ f.lo → y.fld f nn = d.fld f nn) ∧
    (∀ a, a ≠ PcStat.addr nn → y.reg a = d.reg a) ∧ (∀ k, k ≠ nn → y.b k = d.b k) ∧
    (y.b nn).prbLast = (d.b nn).prbLast ∧ encOf y nn = encOf d nn := by
  intro y
  let z := d.putB PcStat.LEVEL nn up
  have hself : y.b nn = { (senseEdge z nn 9 up).b nn with prbEdge := some d.clk } := Dev.b_onB_self _ _ _
  have hsense : ((senseEdge z nn 9 up).b nn).prbLast = (d.b nn).prbLast ∧ encOf (senseEdge z nn 9 up) nn = encOf d nn := by
    simp only [encOf, senseEdge, Dev.b_onB_self]
    exact ⟨rfl, rfl⟩
  exact ⟨Dev.bit_putB_self d PcStat.LEVEL nn up (by decide) rfl,
    fun f hf => Dev.fld_put_bits d PcStat.LEVEL nn f nn _ (by decide) (by simpa only [PcStat.LEVEL] using hf.symm),
    fun a ha => Dev.reg_put_ne d PcStat.LEVEL nn _ a ha,
    fun k hk => (Dev.b_onB_ne _ _ _ _ hk).trans (Dev.b_onB_ne _ _ _ _ hk),
    (congrArg Blk.prbLast hself).trans hsense.1, (congrArg Blk.enc hself).trans hsense.2⟩

/-! #### The edge latched -/

/-- The registers of the latched values. -/
def probeRegs (nn : Fin 16) : List Nat := [PcPosHi.addr nn, PcPosLo.addr nn, PcPhHi.addr nn, PcPhLo.addr nn]

theorem probeValues_effect (y : Dev) (nn : Fin 16) (n : Nat) : let q := probeValues y nn n
    OnlyRegs (probeRegs nn) y q ∧
    q.fld PcPosHi.V nn * 2 ^ 20 + q.fld PcPosLo.V nn = ux 40 ((encOf y nn).posAt (y.clk - n)) ∧
    q.fld PcPhHi.V nn * 2 ^ 20 + q.fld PcPhLo.V nn = domPH40At y ⟨y.fld PcCfg.DOM nn % 8, Nat.mod_lt _ (by omega)⟩ (y.clk - n) := by
  intro q
  let p := putWide y PcPosHi.V PcPosLo.V nn (ux 40 ((encOf y nn).posAt (y.clk - n))) true
  have hp : OnlyRegs [PcPosHi.addr nn, PcPosLo.addr nn] y p := putWide_onlyRegs
  have hq : OnlyRegs [PcPhHi.addr nn, PcPhLo.addr nn] p q := putWide_onlyRegs
  have hclk : p.clk = y.clk := (congrArg Dev.clk hp.1 :)
  have hph (k : Fin 8) : domPH40At p k (p.clk - n) = domPH40At y k (y.clk - n) := by simp only [domPH40At, Dev.pd, hp.dom, hclk]
  refine ⟨(hp.mono (by simp [probeRegs])).trans (hq.mono (by simp [probeRegs])), ?_, ?_⟩
  · rw [hq.fld (by simp [PcPosHi.V, PcPosHi.addr, PcPhHi.addr, PcPhLo.addr]), hq.fld (by simp [PcPosLo.V, PcPosLo.addr, PcPhHi.addr, PcPhLo.addr])]
    exact putWide_pair (by simp [PcPosHi.V, PcPosHi.addr, PcPosLo.V, PcPosLo.addr]) ⟨rfl, rfl⟩ ⟨rfl, rfl⟩ (ux_lt 40 _)
  · rw [← hph]
    exact putWide_pair (by simp [PcPhHi.V, PcPhHi.addr, PcPhLo.V, PcPhLo.addr]) ⟨rfl, rfl⟩ ⟨rfl, rfl⟩ (Nat.mod_lt _ (by decide))

theorem probeNoted_effect (q : Dev) (nn : Fin 16) : let s := probeNoted q nn
    OnlyRegs [PcStat.addr nn] q s ∧ s.bit PcStat.LEVEL nn = q.bit PcStat.LEVEL nn ∧ s.bit PcStat.NEW nn = true ∧
    s.fld PcStat.LCNT nn = (q.fld PcStat.LCNT nn + 1) % 2 ^ PcStat.LCNT.len ∧ (q.bit PcCfg.ONCE nn = true → s.bit PcStat.ARMED nn = false) := by
  intro s
  let c := (q.flag PcStat.NEW nn).inc PcStat.LCNT nn
  have hc : OnlyRegs [PcStat.addr nn] q c := (onlyRegs_flag (by simp [PcStat.NEW])).trans (onlyRegs_inc (by simp [PcStat.LCNT]))
  have honce : c.bit PcCfg.ONCE nn = q.bit PcCfg.ONCE nn := hc.bit (by simp [PcCfg.ONCE, PcCfg.addr, PcStat.addr])
  have hs : s = if q.bit PcCfg.ONCE nn then c.clr PcStat.ARMED nn else c := by rw [← honce]; rfl
  have hbeside {f : RF (Fin 16)} (hf : f.lo + f.len ≤ 1 ∨ 2 ≤ f.lo) : s.fld f nn = c.fld f nn := by
    rw [hs]
    split
    · exact Dev.fld_put_bits c PcStat.ARMED nn f nn 0 (by decide) hf.symm
    · rfl
  have hlow {f : RF (Fin 16)} (hf : f.lo + f.len ≤ 16) : c.fld f nn = (q.flag PcStat.NEW nn).fld f nn :=
    Dev.fld_put_bits (q.flag PcStat.NEW nn) PcStat.LCNT nn f nn _ (by decide) (.inr hf)
  have hflag {f : RF (Fin 16)} (hf : 1 ≤ f.lo) : (q.flag PcStat.NEW nn).fld f nn = q.fld f nn :=
    Dev.fld_put_bits q PcStat.NEW nn f nn 1 (by decide) (.inl hf)
  refine ⟨?_, ?_, ?_, ?_, fun h => ?_⟩
  · rw [hs]
    split
    · exact hc.trans (onlyRegs_clr (by simp [PcStat.ARMED]))
    · exact hc
  · rw [Dev.bit, hbeside (.inr (by decide)), hlow (by decide), hflag (by decide)]
    rfl
  · rw [Dev.bit, hbeside (.inl (by decide)), hlow (by decide)]
    exact Dev.bit_flag_self q PcStat.NEW nn (by decide) rfl
  · rw [hbeside (.inr (by decide)), ← hflag (f := PcStat.LCNT) (by decide)]
    exact Dev.fld_put_self (q.flag PcStat.NEW nn) PcStat.LCNT nn _ (by decide)
  · rw [hs, if_pos h]
    exact Dev.bit_clr_self _ _ _ (by decide)

theorem probeTold_effect (s : Dev) (nn : Fin 16) : let t := probeTold s nn
    (∀ f : RF (Fin 16), t.fld f nn = s.fld f nn) ∧ (∀ k, k ≠ nn → t.b k = s.b k) ∧ t.dom = s.dom ∧
    t.evq = (s.raise (bkSrc nn 20) (s.fld PcStat.LCNT nn)).evq :=
  ⟨fun _ => rfl, fun _ hk => Dev.b_onB_ne _ _ _ _ hk, rfl, rfl⟩

theorem probeLatch_effect (y : Dev) (nn : Fin 16) (n : Nat) : let t := probeLatch y nn n
    t.bit PcStat.LEVEL nn = y.bit PcStat.LEVEL nn ∧ (∀ k, k ≠ nn → t.b k = y.b k) ∧ t.dom = y.dom ∧ t.bit PcStat.NEW nn = true ∧
    t.fld PcStat.LCNT nn = (y.fld PcStat.LCNT nn + 1) % 2 ^ PcStat.LCNT.len ∧
    t.fld PcPosHi.V nn * 2 ^ 20 + t.fld PcPosLo.V nn = ux 40 ((encOf y nn).posAt (y.clk - n)) ∧
    t.fld PcPhHi.V nn * 2 ^ 20 + t.fld PcPhLo.V nn = domPH40At y ⟨y.fld PcCfg.DOM nn % 8, Nat.mod_lt _ (by omega)⟩ (y.clk - n) ∧
    (y.bit PcCfg.ONCE nn = true → t.bit PcStat.ARMED nn = false) ∧ t.evq = (y.raise (bkSrc nn 20) (t.fld PcStat.LCNT nn)).evq := by
  intro t
  let q := probeValues y nn n
  let s := probeNoted q nn
  obtain ⟨hq, hpos, hph⟩ := probeValues_effect y nn n
  obtain ⟨hs, hlevel, hnew, hcnt, harmed⟩ := probeNoted_effect q nn
  have hstat {f : RF (Fin 16)} (hf : f.addr = PcStat.addr) : q.fld f nn = y.fld f nn :=
    hq.fld (by simp [hf, probeRegs, PcStat.addr, PcPosHi.addr, PcPosLo.addr, PcPhHi.addr, PcPhLo.addr])
  have honce : q.bit PcCfg.ONCE nn = y.bit PcCfg.ONCE nn :=
    hq.bit (by simp [probeRegs, PcCfg.ONCE, PcCfg.addr, PcPosHi.addr, PcPosLo.addr, PcPhHi.addr, PcPhLo.addr])
  obtain ⟨hfld, hothers, hdom, hevq⟩ := probeTold_effect s nn
  have hbit {f : RF (Fin 16)} : t.bit f nn = s.bit f nn := congrArg (· != 0) (hfld f)
  have hvalue {f : RF (Fin 16)} (hf : f.addr nn ≠ PcStat.addr nn) : t.fld f nn = q.fld f nn :=
    (hfld f).trans (hs.fld (by simpa using hf))
  have hsy : OnlyRegs (probeRegs nn ++ [PcStat.addr nn]) y s := (hq.mono (by simp)).trans (hs.mono (by simp))
  have hclk : s.clk = y.clk := (congrArg Dev.clk hsy.1 :)
  refine ⟨hbit.trans (hlevel.trans (congrArg (· != 0) (hstat rfl))), fun k hk => (hothers k hk).trans (hsy.b k), hdom.trans hsy.dom,
    hbit.trans hnew, (hfld _).trans (hcnt.trans (by rw [hstat rfl])), ?_, ?_, fun h => hbit.trans (harmed (honce.trans h)), ?_⟩
  · rw [hvalue (by simp [PcPosHi.V, PcPosHi.addr, PcStat.addr]), hvalue (by simp [PcPosLo.V, PcPosLo.addr, PcStat.addr])]
    exact hpos
  · rw [hvalue (by simp [PcPhHi.V, PcPhHi.addr, PcStat.addr]), hvalue (by simp [PcPhLo.V, PcPhLo.addr, PcStat.addr])]
    exact hph
  · rw [show t.evq = _ from hevq, show t.fld PcStat.LCNT nn = _ from hfld _, Dev.raise_evq, Dev.raise_evq, hclk, hsy.evq]

/-! #### The edge judged -/

/-- An edge now comes within 10 us of the one latched last, or unarmed under ONCE. -/
def ProbeLost (d : Dev) (nn : Fin 16) : Prop :=
  (∃ t, (d.b nn).prbLast = some t ∧ d.clk < t + nsClk d 10000) ∨ (d.bit PcCfg.ONCE nn = true ∧ d.bit PcStat.ARMED nn = false)

theorem probeJudged_cases (y : Dev) (nn : Fin 16) (up : Bool) (n : Nat) :
    (probeWanted y nn up = false ∧ probeJudged y nn up n = y) ∨
    (probeWanted y nn up = true ∧ ProbeLost y nn ∧ probeJudged y nn up n = y.flag PcStat.LOST_SEEN nn) ∨
    (probeWanted y nn up = true ∧ ¬ ProbeLost y nn ∧ probeJudged y nn up n = probeLatch y nn n) := by
  have hlost : ProbeLost y nn ↔ probeNear y nn = true ∨ (y.bit PcCfg.ONCE nn = true ∧ (!y.bit PcStat.ARMED nn) = true) := by
    rw [ProbeLost, probeNear_iff, Bool.not_eq_true']
  cases hw : probeWanted y nn up
  · simp [probeJudged, hw]
  · by_cases hl : ProbeLost y nn
    · exact .inr (.inl ⟨rfl, hl, by rw [probeJudged, if_neg (by simp [hw]), if_pos (hlost.1 hl)]⟩)
    · exact .inr (.inr ⟨rfl, hl, by rw [probeJudged, if_neg (by simp [hw]), if_neg fun h => hl (hlost.2 h)]⟩)

theorem probeEdge_effect (d : Dev) (nn : Fin 16) (up : Bool) :
    let taken := (up = true ∧ (d.fld PcCfg.EDGE nn = 1 ∨ d.fld PcCfg.EDGE nn = 3)) ∨ (up = false ∧ 2 ≤ d.fld PcCfg.EDGE nn)
    let n := d.fld PcCfg.FLT nn
    let t := probeJudged (probeMoved d nn up) nn up n
    t.bit PcStat.LEVEL nn = up ∧ (∀ k, k ≠ nn → t.b k = d.b k) ∧ t.dom = d.dom ∧
    (¬ taken → t.bit PcStat.NEW nn = d.bit PcStat.NEW nn ∧ t.fld PcStat.LCNT nn = d.fld PcStat.LCNT nn ∧ t.evq = d.evq) ∧
    (taken → ProbeLost d nn → t.bit PcStat.LOST_SEEN nn = true ∧ t.fld PcStat.LCNT nn = d.fld PcStat.LCNT nn ∧ t.evq = d.evq) ∧
    (taken → ¬ ProbeLost d nn → t.bit PcStat.NEW nn = true ∧ t.fld PcStat.LCNT nn = (d.fld PcStat.LCNT nn + 1) % 2 ^ PcStat.LCNT.len ∧
      t.fld PcPosHi.V nn * 2 ^ 20 + t.fld PcPosLo.V nn = ux 40 ((encOf d nn).posAt (d.clk - n)) ∧
      t.fld PcPhHi.V nn * 2 ^ 20 + t.fld PcPhLo.V nn = domPH40At d ⟨d.fld PcCfg.DOM nn % 8, Nat.mod_lt _ (by omega)⟩ (d.clk - n) ∧
      (d.bit PcCfg.ONCE nn = true → t.bit PcStat.ARMED nn = false) ∧ t.evq = (d.raise (bkSrc nn 20) (t.fld PcStat.LCNT nn)).evq) := by
  intro taken n t
  let y := probeMoved d nn up
  obtain ⟨hlevel, hstat, hregs, hothers, hlast, henc⟩ := probeMoved_effect d nn up
  have hcfg {f : RF (Fin 16)} (hf : f.addr = PcCfg.addr) : y.fld f nn = d.fld f nn := by
    refine congrArg (fget f.lo f.len) (hregs _ ?_)
    simp [hf, PcCfg.addr, PcStat.addr]
  have hmode : y.reg (ChipMode.addr ()) = d.reg (ChipMode.addr ()) :=
    hregs _ (by simp only [ChipMode.addr, PcStat.addr, blockBase]; omega)
  have hclk : y.clk = d.clk := rfl
  have hheat : y.bit ChipMode.HEAT_ACT () = d.bit ChipMode.HEAT_ACT () := congrArg (fun w => fget 2 1 w != 0) hmode
  have hns : nsClk y 10000 = nsClk d 10000 := by simp only [nsClk, clkHz, hheat]
  have honce : y.bit PcCfg.ONCE nn = d.bit PcCfg.ONCE nn := congrArg (· != 0) (hcfg rfl)
  have harmed : y.bit PcStat.ARMED nn = d.bit PcStat.ARMED nn := congrArg (· != 0) (hstat PcStat.ARMED (.inl (by decide)))
  have hlost : ProbeLost y nn ↔ ProbeLost d nn := by
    rw [ProbeLost, ProbeLost, show (y.b nn).prbLast = _ from hlast, hclk, hns, honce, harmed]
  have hwanted : probeWanted y nn up = true ↔ taken := by rw [probeWanted_iff, hcfg rfl]
  have hcnt : y.fld PcStat.LCNT nn = d.fld PcStat.LCNT nn := hstat _ (.inr (by decide))
  rcases probeJudged_cases y nn up n with ⟨hw, ht⟩ | ⟨hw, hl, ht⟩ | ⟨hw, hl, ht⟩
  · have hno : ¬ taken := by simp [← hwanted, hw]
    rw [show t = y from ht]
    exact ⟨hlevel, hothers, rfl, fun _ => ⟨congrArg (· != 0) (hstat PcStat.NEW (.inl (by decide))), hcnt, rfl⟩,
      fun h => absurd h hno, fun h => absurd h hno⟩
  · rw [show t = y.flag PcStat.LOST_SEEN nn from ht]
    exact ⟨(Dev.bit_put_bits (f := PcStat.LOST_SEEN) (by decide) (.inr (by decide))).trans hlevel, hothers, rfl,
      fun h => absurd (hwanted.1 hw) h,
      fun _ _ => ⟨Dev.bit_flag_self _ _ _ (by decide) rfl, (Dev.fld_put_bits y PcStat.LOST_SEEN _ _ _ _ (by decide) (by decide)).trans hcnt, rfl⟩,
      fun _ h => absurd (hlost.1 hl) h⟩
  · obtain ⟨hlevel', hothers', hdom, hnew, hlcnt, hpos, hph, hdisarmed, hevq⟩ := probeLatch_effect y nn n
    rw [show t = probeLatch y nn n from ht]
    refine ⟨hlevel'.trans hlevel, fun k hk => (hothers' k hk).trans (hothers k hk), hdom, fun h => absurd (hwanted.1 hw) h,
      fun _ h => absurd (hlost.2 h) hl, fun _ _ => ⟨hnew, by rw [hlcnt, hcnt], ?_, ?_, fun h => hdisarmed (honce.trans h), hevq⟩⟩
    · rw [hpos, show encOf y nn = _ from henc, hclk]
    · rw [hph]
      simp only [hcfg (f := PcCfg.DOM) rfl]
      rfl

theorem gives_rearm {h : Master} {w : Word} (ha : Alone d h (PcCtl.addr nn) (unitBlk nn)) (hr : mRsv 0xFFFE w = 0) :
    Gives (.rearm h nn w) d (doRearm d nn) := by
  intro rest
  show execRearm h nn w ⟨rest, d⟩ = _
  rw [execRearm, hostW_reaches ha.1 (by simp) hr]
  simp [mirHost_alone ha.2]

end Probe

/-! #### Encoder and probe cells (O35) -/

/-- Settles O35: each command by the device it leaves; what domains and windows do when a position moves or loses its validity stands
beside every encoder cell. -/
theorem encoderAndProbeCells : Obligations.EncoderAndProbeCells := by
  unfold Obligations.EncoderAndProbeCells
  refine ⟨fun d nn a b hu => ⟨fun hno => quadCount_ignored hu hno, fun hr hm => ?_, fun hr hm ha hb => ?_, fun hr hm hone => ?_⟩,
    fun d nn eb settled hu => ⟨fun hno => stepEdge_ignored hu hno, fun hm hr hsat => ?_⟩,
    fun d nn hu => ⟨fun hno rest => ?_, fun hr hc => ?_⟩,
    fun d nn idle stopLow w hu => ⟨gives_ssiTransferStart hu, fun h => ?_, fun hm hrole => ?_, fun hm hrole => ⟨fun hbad => ?_,
      fun p hidle hstop hv hlast => ⟨fun hjump => ?_, fun hgood hsat => ?_⟩⟩⟩,
    fun d h nn w ha hr => ⟨fun hno => ?_, fun hm hc => ?_⟩,
    fun d nn up hu => ⟨fun hno => ?_, fun hr => ?_⟩,
    fun d h nn w ha hr => gives_rearm ha hr⟩
  · have hgives := quadCount_ready hu hr
    rwa [quadTaken, if_pos hm] at hgives
  · refine (quadCount_ready hu hr).completes ?_
    rw [quadTaken_both hm ha hb]
    exact encOverrun_effect encLevels_taken rfl (encLevels_stat (.inr (by decide)))
  · refine (quadCount_ready hu hr).completes ?_
    rw [quadTaken_one hm hone]
    obtain ⟨hothers, hdir, ha, hb, hstay, hmove⟩ := encCount_effect (encLevels_taken (a := a) (b := b))
      (quadPos a b == (quadPos (d.bit EcStat.A nn) (d.bit EcStat.B nn) + 1) % 4)
    exact ⟨hothers, hdir, ha.trans encLevels_levels.1, hb.trans encLevels_levels.2, hstay, hmove⟩
  · obtain ⟨hothers, hdir, -, -, -, hmove⟩ := encCount_effect (stepLevels_taken (d := d) (nn := nn) (eb := eb) (settled := settled))
      (if settled then eb else Config.choice d.fresh)
    exact (stepEdge_taken hu hm hr).completes ⟨(hmove hsat).1, hdir, hothers⟩
  · rw [exec_indexEdge hu, if_pos hno]
  · exact fun rest => ⟨_, by rw [exec_indexEdge hu, if_neg (by simp [hr])], indexTaken_effect hc⟩
  · have hgives := gives_ssiTransferEnd (w := w) (stopLow := stopLow) hu
    rwa [ssiEnded_ignored h] at hgives
  · refine (gives_ssiTransferEnd hu).completes ?_
    rw [ssiEnded_owner hm hrole]
    exact ssiSent_effect
  · have hok : ((encOf d nn).idleOk && stopLow) = false := by rcases hbad with h | h <;> simp [h]
    refine (gives_ssiTransferEnd hu).completes ?_
    rw [ssiEnded_alone hm hrole, hok, ssiTake_bad]
    exact ssiDiscarded_flag (f := EcStat.SSIERR) ⟨rfl, by decide, by decide⟩ rfl (by decide)
  · refine (gives_ssiTransferEnd hu).completes ?_
    rw [ssiEnded_alone hm hrole, hidle, hstop, Bool.and_self, ssiTake_valid hv hlast, if_pos (show _ ∧ (ssiDiff d nn w p).natAbs > _ from hjump)]
    obtain ⟨hpos, hflag, hcnt, -⟩ := ssiDiscarded_flag (d := d) (nn := nn) (f := EcStat.JUMP) ⟨rfl, by decide, by decide⟩ rfl (by decide)
    exact ⟨hpos, hflag, hcnt⟩
  · refine (gives_ssiTransferEnd hu).completes ?_
    have hnear : ¬ (d.fld EcJmax.V nn ≠ 0 ∧ (ssiDiff d nn w p).natAbs > d.fld EcJmax.V nn) :=
      fun ⟨h0, hgt⟩ => hgood.elim h0 (Nat.not_le.2 hgt)
    rw [ssiEnded_alone hm hrole, hidle, hstop, Bool.and_self, ssiTake_valid hv hlast, if_neg hnear]
    exact ssiAccepted_moves hsat
  · have hgives := gives_reval ha hr
    have hkept : ¬ ((d.fld EcCfg.MODE nn = 1 ∨ d.fld EcCfg.MODE nn = 3) ∧ encCondNow d nn = false) := by
      rintro ⟨hm, hc⟩
      rcases hno with ⟨h1, h3⟩ | hcond
      · exact hm.elim h1 h3
      · simp [hc] at hcond
    rwa [doReval_eq, if_neg hkept] at hgives
  · refine (gives_reval ha hr).completes ?_
    rw [doReval_eq, if_pos ⟨hm, hc⟩]
    exact ⟨encOk_stat.1, encOk_stat.2.1, fun k => encOk_enc⟩
  · have hgives := gives_probeEdge (up := up) hu
    rwa [if_pos (by simpa [or_iff_not_imp_left] using hno)] at hgives
  · refine (gives_probeEdge hu).completes ?_
    obtain ⟨hlevel, hready⟩ := hr
    rw [if_neg (by simp [hlevel, hready])]
    exact probeEdge_effect d nn up

end Sys2Proof.Machine

namespace Sys2Proof.Machine

-- The check compiles these proofs after all others in one process: one after the other they stay within its memory.
set_option Elab.async false

/-! ### A PRESET written again in the clk of its RUN slot (R10, R232) -/

/-- Block 0 runs, its slot runs the SLEW cell 0, and the PRESET that waits there has been written again in this clk (R10). -/
def presetRewritten : Dev :=
  let d := { (State.reset.dev.put Start.STAGE () 5).put TwStat.ROLE () 0 with
    rstN := true, pat := some pllPattern, redo := [(KcCtl.addr (0, 0), 8)] }
  (((d.put BkStat.STATE 0 3).put KcCfg.KIND (0, 0) 7).put KcCtl.PRESET (0, 0) 1).onB 0 fun b => { b with inCycle := true }

/-- Refutes O28: a PRESET written again in the clk in which the RUN slot carries it out remains pending and runs again (R10), so that
the slot leaves a command where the statement has none. -/
theorem not_kernelRunsByMode : ¬ Obligations.KernelRunsByMode := by
  unfold Obligations.KernelRunsByMode
  rintro ⟨hruns, -⟩
  let d := presetRewritten
  have hu : unitBlk 0 ∉ d.undef := by decide +kernel
  have hslot : slotNow d 0 = some (1 <<< 40) := by decide +kernel
  obtain ⟨hdone, -⟩ := hruns d 0 0 _ 0 hu hslot (by decide) (by decide)
  obtain ⟨hnone, -⟩ := hdone.of_exec (exec_runSlot_taken hu hslot (by decide) [])
  exact absurd hnone (by decide +kernel)

/-! ### A RUN slot in AUTO with nothing pending: what of its cell stands (R212, R229, R232) -/

/-- The step to the next slot leaves every block's kernel states. -/
structure KernStays (x t : Dev) : Prop where
  kern : ∀ k, (t.b k).kern = (x.b k).kern

section KernStays

variable {x y z : Dev} {nn : Fin 16}

theorem KernStays.refl : KernStays x x := ⟨fun _ => rfl⟩

theorem KernStays.trans (h1 : KernStays x y) (h2 : KernStays y z) : KernStays x z := ⟨fun k => (h2.kern k).trans (h1.kern k)⟩

theorem KernStays.ite {c : Prop} [Decidable c] (hy : KernStays x y) (hz : KernStays x z) : KernStays x (if c then y else z) := by
  split <;> assumption

theorem kernStays_of_blk (h : y.blk = x.blk := by rfl) : KernStays x y := ⟨fun k => by rw [Dev.b, h, Dev.b]⟩

theorem kernStays_onB {u : Blk → Blk} (hu : (u (x.b nn)).kern = (x.b nn).kern := by rfl) : KernStays x (x.onB nn u) where
  kern k := by
    rcases eq_or_ne k nn with rfl | hne
    · rw [Dev.b_onB_self, hu]
    · rw [Dev.b_onB_ne _ _ _ _ hne]

theorem dropHost_kernStays (x : Dev) (nn : Fin 16) (ref : Bool) : KernStays x (dropHost x nn ref) := by
  have hdrop : KernStays x ((x.clr Rctl.SWAP nn).onB nn fun b => { b with swHost := none, swWait := false }) :=
    (kernStays_of_blk (y := x.clr Rctl.SWAP nn)).trans kernStays_onB
  exact KernStays.ite KernStays.refl (KernStays.ite (hdrop.trans kernStays_of_blk) hdrop)

theorem dropTrig_kernStays (x : Dev) (nn : Fin 16) (ref : Bool) : KernStays x (dropTrig x nn ref) := by
  have hdrop : KernStays x (x.onB nn fun b => { b with swTrig := none }) := kernStays_onB
  exact KernStays.ite KernStays.refl (KernStays.ite (hdrop.trans kernStays_of_blk) hdrop)

theorem hspCommit_kernStays (x : Dev) (nn : Fin 16) : KernStays x (hspCommit x nn) := by
  have hcopy : KernStays x (hspCopy x nn) :=
    forAll_induction (fun _ y => KernStays x y) KernStays.refl fun _ _ h => h.trans kernStays_onB
  have hdone (y : Dev) : KernStays y (y.cmdDone HspCtl.COMMIT nn) := KernStays.ite kernStays_of_blk kernStays_of_blk
  exact (hcopy.trans (hdone _)).trans kernStays_of_blk

theorem hspHeld_kernStays (x : Dev) (nn : Fin 16) : KernStays x (hspHeld x nn) := by
  have hone (y : Dev) : KernStays y (if y.bit HspCtl.COMMIT nn then hspCommit y nn else y) :=
    KernStays.ite (hspCommit_kernStays y nn) KernStays.refl
  exact (hone x).trans (hone _)

theorem heldEntry_kernStays (x : Dev) (nn : Fin 16) : KernStays x (heldEntry x nn) := by
  unfold heldEntry
  extract_lets lapsed held flags state boundary
  have hheld : KernStays x held := ((dropHost_kernStays x nn true).trans (dropTrig_kernStays _ nn true)).trans (hspHeld_kernStays _ nn)
  clear_value held
  have hstate : KernStays x state := hheld.trans kernStays_of_blk
  have hboundary : KernStays x boundary := hstate.trans kernStays_onB
  exact hboundary.trans kernStays_of_blk

theorem disarmDone_kernStays (x : Dev) (nn : Fin 16) : KernStays x (disarmDone x nn) := by
  have hredo (y : Dev) : KernStays y (y.cmdDone BkCtl.DISARM nn) := KernStays.ite kernStays_of_blk kernStays_of_blk
  have hdone : KernStays x (blkDone x BkCtl.DISARM nn) := KernStays.ite ((hredo x).trans kernStays_of_blk) kernStays_of_blk
  have hpending (y : Dev) : KernStays y (setPending y nn) := kernStays_of_blk
  exact (hdone.trans (heldEntry_kernStays _ nn)).trans (hpending _)

theorem evalTrigger_kernStays (x : Dev) (nn : Fin 16) : KernStays x (evalTrigger x nn) := by
  have hset (q : Option Bool) : KernStays x (setSwapPend (x.onB nn fun b => { b with swTrig := q }) nn) :=
    (kernStays_onB (u := fun b => { b with swTrig := q })).trans kernStays_of_blk
  exact KernStays.ite KernStays.refl (KernStays.ite (hset _) KernStays.refl)

theorem logCycle_kernStays (x : Dev) (nn : Fin 16) : KernStays x (logCycle x nn) := by
  have hsend (y : Dev) (m : TwMsg) : KernStays y (twSend y m) := KernStays.ite KernStays.refl kernStays_of_blk
  unfold logCycle
  split
  · exact KernStays.refl
  · exact KernStays.trans kernStays_of_blk (hsend _ _)

theorem cycleDone_kernStays (x : Dev) (nn : Fin 16) : KernStays x (cycleDone x nn) := by
  unfold cycleDone
  extract_lets b miss wd dig cyc stat bound trig
  have hmiss : KernStays x miss := KernStays.ite KernStays.refl kernStays_of_blk
  have hstat : KernStays x stat := hmiss.trans kernStays_of_blk
  have hbound : KernStays x bound := hstat.trans kernStays_onB
  have htrig : KernStays x trig := (hbound.trans (evalTrigger_kernStays _ nn)).trans (logCycle_kernStays _ nn)
  exact KernStays.ite (htrig.trans (disarmDone_kernStays _ nn)) htrig

theorem slotNext_kernStays (x : Dev) (nn : Fin 16) : KernStays x (slotNext x nn) := by
  have hskip (y : Dev) : KernStays y (skipDrops y nn) := by
    unfold skipDrops
    extract_lets b k slots n counted next
    have hcounted : KernStays y counted := kernStays_of_blk
    exact KernStays.ite (hcounted.trans kernStays_of_blk) (hcounted.trans (cycleDone_kernStays _ nn))
  have hput : KernStays x (x.put Rstat.SLOT nn (x.fld Rstat.SLOT nn + 1)) := kernStays_of_blk
  exact KernStays.ite (hput.trans (hskip _)) (cycleDone_kernStays x nn)

end KernStays

/-! #### What a run reads of its cell and its operand file -/

/-- The registers that may differ from those a run of the cell is judged by: the runner's MAXLATE and the cell's own status. -/
def runRegs (k : KIx) : List Nat := [Rlate.addr k.1, KcStat.addr k]

section Reads

variable {d x : Dev} {k : KIx} (h : OnlyRegs (runRegs k) d x)
include h

theorem OnlyRegs.kcCfg (m : Fin 12) : x.reg (KcCfg.addr (k.1, m)) = d.reg (KcCfg.addr (k.1, m)) :=
  h.reg (by simp [runRegs, KcCfg.addr, Rlate.addr, KcStat.addr]; omega)

theorem OnlyRegs.kcIo : x.reg (KcIo0.addr k) = d.reg (KcIo0.addr k) ∧ x.reg (KcIo1.addr k) = d.reg (KcIo1.addr k) :=
  ⟨h.reg (by simp [runRegs, KcIo0.addr, Rlate.addr, KcStat.addr]; omega), h.reg (by simp [runRegs, KcIo1.addr, Rlate.addr, KcStat.addr]; omega)⟩

theorem OnlyRegs.kpW (i : Fin 16) : kpW x k i = kpW d k i :=
  h.fld (by simp [runRegs, KcP.V, KcP.addr, Rlate.addr, KcStat.addr]; omega)

theorem OnlyRegs.kpS (i : Fin 16) : kpS x k i = kpS d k i := by rw [Machine.kpS, h.kpW, Machine.kpS]

theorem OnlyRegs.kind : x.fld KcCfg.KIND k = d.fld KcCfg.KIND k := congrArg (fget _ _) (h.kcCfg k.2)

theorem OnlyRegs.kvar (j : Nat) : kvar x k j = kvar d k j :=
  congrArg (fun w => (fget _ _ w).testBit j) (h.kcCfg k.2)

theorem OnlyRegs.kinEn (j : Nat) : kinEn x k j = kinEn d k j :=
  congrArg (fun w => (fget _ _ w).testBit j) h.kcIo.1

theorem OnlyRegs.kin (j : Nat) : kin x k j = kin d k j := by
  unfold Machine.kin Dev.fld
  simp only [show KcIo0.IN0.addr k = KcIo0.addr k from rfl, show KcIo0.IN1.addr k = KcIo0.addr k from rfl,
    show KcIo0.IN2.addr k = KcIo0.addr k from rfl, show KcIo0.IN3.addr k = KcIo0.addr k from rfl, h.kcIo.1]

theorem OnlyRegs.kx (j : Nat) : kx x k j = kx d k j := by
  rw [Machine.kx, h.kinEn, h.kin, h.b, Machine.kx]

theorem OnlyRegs.kst : kst x k = kst d k := by rw [Machine.kst, h.b, Machine.kst]

end Reads

/-! #### The outputs of a run (R215, R247) -/

/-- Two devices agree in what decides the outputs of a cell: its kind, its output routing and the operand file. -/
structure SameOut (k : KIx) (d y : Dev) : Prop where
  cfg : y.reg (KcCfg.addr k) = d.reg (KcCfg.addr k)
  io : y.reg (KcIo1.addr k) = d.reg (KcIo1.addr k)
  opf : (y.b k.1).opf = (d.b k.1).opf

section Outputs

variable {d y : Dev} {k : KIx}

theorem Blk.opf_putS_congr {b c : Blk} (h : c.opf = b.opf) (i : Nat) (v : Int) : (c.putS i v).opf = (b.putS i v).opf := by
  simp only [Blk.putS, Blk.putU, h]

theorem OnlyRegs.sameOut (h : OnlyRegs (runRegs k) d y) : SameOut k d y := ⟨h.kcCfg k.2, h.kcIo.2, by rw [h.b]⟩

theorem onK_opf (d : Dev) (k : KIx) (u : Kern → Kern) : ((onK d k u).b k.1).opf = (d.b k.1).opf := by
  rw [onK, Dev.b_onB_self]

/-- The outputs see nothing of the state of a cell. -/
theorem SameOut.onK {u : Kern → Kern} (h : SameOut k d y) : SameOut k d (onK y k u) :=
  ⟨h.cfg, h.io, (onK_opf _ _ _).trans h.opf⟩

/-- The outputs see nothing of the status of a cell. -/
theorem SameOut.klim {hi lo : Bool} (h : SameOut k d y) : SameOut k d (klim y k hi lo) := by
  have hlim : OnlyRegs [KcStat.addr k] y (Machine.klim y k hi lo) :=
    (onlyRegs_putB (by simp [KcStat.LIMHI])).trans (onlyRegs_putB (by simp [KcStat.LIMLO]))
  exact ⟨(hlim.reg (by simp [KcCfg.addr, KcStat.addr])).trans h.cfg, (hlim.reg (by simp [KcIo1.addr, KcStat.addr])).trans h.io,
    (congrArg Blk.opf (hlim.b _)).trans h.opf⟩

theorem SameOut.koutEn (h : SameOut k d y) (j : Nat) : koutEn y k j = koutEn d k j := by
  have hcfg (f : RF KIx) (hf : f.addr = KcCfg.addr) : y.fld f k = d.fld f k := by rw [Dev.fld, hf, h.cfg, Dev.fld, hf]
  have hen : y.fld KcIo1.OUTEN k = d.fld KcIo1.OUTEN k := congrArg (fget _ _) h.io
  simp only [Machine.koutEn, kOuts, hen, hcfg KcCfg.KIND rfl, hcfg KcCfg.VAR rfl]
    <;> rfl

theorem SameOut.kout (h : SameOut k d y) (j : Nat) : kout y k j = kout d k j := by
  have hio (f : RF KIx) (hf : f.addr = KcIo1.addr) : y.fld f k = d.fld f k := by rw [Dev.fld, hf, h.io, Dev.fld, hf]
  simp only [Machine.kout, hio KcIo1.OUT0 rfl, hio KcIo1.OUT1 rfl, hio KcIo1.OUT2 rfl]

theorem kwr_opf (d : Dev) (k : KIx) (j : Nat) (v : Int) :
    ((kwr d k j v).b k.1).opf = if koutEn d k j then ((d.b k.1).putS (kout d k j) v).opf else (d.b k.1).opf := by
  unfold kwr
  split <;> simp

theorem kwr_regs (d : Dev) (k : KIx) (j : Nat) (v : Int) : (kwr d k j v).regs = d.regs := by
  unfold kwr
  split <;> rfl

theorem kwr_kern (d : Dev) (k : KIx) (j : Nat) (v : Int) : ((kwr d k j v).b k.1).kern = (d.b k.1).kern := by
  unfold kwr
  split
  · rw [Dev.b_onB_self]
    rfl
  · rfl

theorem SameOut.kwr {j : Nat} {v : Int} (h : SameOut k d y) : SameOut k (kwr d k j v) (kwr y k j v) where
  cfg := by rw [Dev.reg, kwr_regs, Dev.reg, kwr_regs]; exact h.cfg
  io := by rw [Dev.reg, kwr_regs, Dev.reg, kwr_regs]; exact h.io
  opf := by
    rw [kwr_opf, kwr_opf, h.koutEn, h.kout, Blk.opf_putS_congr h.opf, h.opf]

/-- What a run writes to the operand file. -/
theorem SameOut.kemit_opf {a b c : Int} (h : SameOut k d y) : ((kemit y k a b c).b k.1).opf = ((kemit d k a b c).b k.1).opf := by
  have hwr : SameOut k (Machine.kwr (Machine.kwr (Machine.kwr d k 0 a) k 1 b) k 2 c) (Machine.kwr (Machine.kwr (Machine.kwr y k 0 a) k 1 b) k 2 c) := h.kwr.kwr.kwr
  exact (onK_opf _ _ _).trans (hwr.opf.trans (onK_opf _ _ _).symm)

/-- The state of a cell once its outputs are recorded for a snapshot. -/
theorem kst_kemit (d : Dev) (k : KIx) (a b c : Int) : kst (kemit d k a b c) k = { kst d k with out0 := a, out1 := b, out2 := c } := by
  refine (kst_onK_self _ _ _).trans ?_
  simp only [kst, kwr_kern]

theorem kemit_regs (d : Dev) (k : KIx) (a b c : Int) : (kemit d k a b c).regs = d.regs :=
  (kwr_regs _ _ _ _).trans ((kwr_regs _ _ _ _).trans (kwr_regs _ _ _ _))

theorem kemit_onlyBlock (d : Dev) (k : KIx) (a b c : Int) : OnlyBlock k.1 [] d (kemit d k a b c) := by
  have hwr (x : Dev) (j : Nat) (v : Int) : OnlyBlock k.1 [] x (kwr x k j v) := by
    unfold kwr
    split
    · exact onlyBlock_onB
    · exact OnlyRegs.refl.onlyBlock
  exact (((hwr d 0 a).trans (hwr _ 1 b)).trans (hwr _ 2 c)).trans onlyBlock_onB

end Outputs

/-! #### The whole slot -/

/-- A run keeps to its cell: nothing but the cell's status and its block change, and LOCK stands. -/
structure CellRun (k : KIx) (x z : Dev) : Prop where
  only : OnlyBlock k.1 [KcStat.addr k] x z
  lock : z.bit KcStat.LOCK k = x.bit KcStat.LOCK k

/-- What the slot leaves of the device in which its cell has run: operand file, kernel states and the limits met. -/
structure RanTo (k : KIx) (z t : Dev) : Prop where
  opf : (t.b k.1).opf = (z.b k.1).opf
  kst : kst t k = kst z k
  limHi : t.bit KcStat.LIMHI k = z.bit KcStat.LIMHI k
  limLo : t.bit KcStat.LIMLO k = z.bit KcStat.LIMLO k

section WholeSlot

variable {d x z : Dev} {k : KIx}

theorem kCmd_bit_clear (h : fget 0 6 (d.reg (KcCtl.addr k)) = 0) (i : Fin 6) : d.bit (kCmd i) k = false := by
  obtain ⟨haddr, hlo, hlen⟩ := kCmd_addr i k
  rw [Dev.bit_eq_testBit _ _ _ hlen, haddr, hlo, BitVec.testBit_toNat]
  exact kcCtl_clear h i

/-- With no command standing, a RUN slot only runs its cell. -/
theorem kernelRun_noCommand (h : fget 0 6 (d.reg (KcCtl.addr k)) = 0) (hrun : (runMode d k).reg (KcCtl.addr k) = d.reg (KcCtl.addr k)) :
    kernelRun d k = runMode d k := by
  have hpre : kPre d k = d := by
    have hfclr : d.bit KcCtl.FCLR k = false := kCmd_bit_clear h 5
    have hpload : d.bit KcCtl.PLOAD k = false := kCmd_bit_clear h 2
    have hgoman : d.bit KcCtl.GOMAN k = false := kCmd_bit_clear h 0
    have hgoauto : d.bit KcCtl.GOAUTO k = false := kCmd_bit_clear h 1
    have hpreset : d.bit KcCtl.PRESET k = false := kCmd_bit_clear h 3
    simp [kPre, hfclr, hpload, hgoman, hgoauto, hpreset]
  have hsnap : (runMode d k).bit KcCtl.SNAP k = false := kCmd_bit_clear (d := runMode d k) (by rw [hrun, h]) 4
  simp [kernelRun, hpre, kPost, hsnap]

/-- A run of a cell is counted; the free bits it may have used lie behind (R229). -/
def runCounted (z : Dev) (k : KIx) : Dev := { z.inc KcStat.RUNS k with fresh := z.fresh + 16 }

/-- A cell in AUTO with no preset runs by its kind; RUNS counts (R229). -/
theorem runMode_auto (hmode : effMode d k = 0) (hpre : d.bit KcStat.PRE k = false) :
    runMode d k = runCounted (runAuto (d.put KcStat.MODE k 0) k) k := by
  have hpre' : (d.put KcStat.MODE k 0).bit KcStat.PRE k = false := by
    rw [Dev.bit_eq, Dev.fld_put_bits _ _ _ _ _ _ (by decide) (by decide)]
    exact hpre
  simp [runMode, hmode, runAutoPre, hpre', runCounted]

theorem effMode_congr (h : OnlyRegs [Rlate.addr k.1] d x) : effMode x k = effMode d k := by
  have hstat (f : RF KIx) (hf : f.addr = KcStat.addr) : x.fld f k = d.fld f k :=
    h.fld (by rw [hf]; simp [KcStat.addr, Rlate.addr]; omega)
  have hcfg (f : RF KIx) (hf : f.addr = KcCfg.addr) : x.fld f k = d.fld f k :=
    h.fld (by rw [hf]; simp [KcCfg.addr, Rlate.addr]; omega)
  have hstate : x.fld BkStat.STATE k.1 = d.fld BkStat.STATE k.1 := h.fld (by simp [BkStat.STATE, BkStat.addr, Rlate.addr])
  simp only [effMode, holdOf, Dev.bit, hstat KcStat.FAULT rfl, hstat KcStat.MANSEL rfl, hcfg KcCfg.HOLD rfl, hcfg KcCfg.KIND rfl, hstate]
    <;> rfl

/-- The PLL cells report lock as before where no LOCK bit has changed. -/
theorem pllLocked_congr {nn : Fin 16} (hcfg : ∀ m, z.reg (KcCfg.addr (nn, m)) = x.reg (KcCfg.addr (nn, m)))
    (hlock : ∀ m, z.bit KcStat.LOCK (nn, m) = x.bit KcStat.LOCK (nn, m)) : pllLocked z nn = pllLocked x nn := by
  have hkind (m : Fin 12) : z.fld KcCfg.KIND (nn, m) = x.fld KcCfg.KIND (nn, m) := congrArg (fget _ _) (hcfg m)
  simp only [pllLocked, hkind, hlock]

/-- A cell that keeps to itself leaves the lock of its block's PLL cells. -/
theorem CellRun.pllLocked (h : CellRun k x z) : pllLocked z k.1 = pllLocked x k.1 := by
  refine pllLocked_congr (fun m => h.only.2.1 _ ?_) fun m => ?_
  · simp [KcCfg.addr, KcStat.addr]
    omega
  · rcases eq_or_ne m k.2 with rfl | hne
    · exact h.lock
    · have hreg : z.reg (KcStat.addr (k.1, m)) = x.reg (KcStat.addr (k.1, m)) := by
        refine h.only.2.1 _ ?_
        have := Fin.val_ne_of_ne hne
        simp [KcStat.addr]
        omega
      rw [Dev.bit, Dev.fld, show KcStat.LOCK.addr (k.1, m) = KcStat.addr (k.1, m) from rfl, hreg]
      rfl

theorem CellRun.trans {y : Dev} (h1 : CellRun k x y) (h2 : CellRun k y z) : CellRun k x z := ⟨h1.only.trans h2.only, h2.lock.trans h1.lock⟩

/-- A field of the cell's status beside LOCK is written. -/
theorem cellRun_put {f : RF KIx} {v : Nat} (hf : f.addr = KcStat.addr) (hl : f.lo + f.len ≤ 32)
    (hd : f.lo + f.len ≤ KcStat.LOCK.lo ∨ KcStat.LOCK.lo + KcStat.LOCK.len ≤ f.lo) : CellRun k x (x.put f k v) :=
  ⟨(onlyRegs_put (by simp [hf])).onlyBlock, by rw [Dev.bit_eq, Dev.fld_put_bits _ _ _ _ _ _ hl hd, Dev.bit_eq]⟩

theorem cellRun_inc : CellRun k x (x.inc KcStat.RUNS k) :=
  ⟨(onlyRegs_inc (by simp [KcStat.RUNS])).onlyBlock, congrArg (· != 0) (Dev.fld_put_bits _ _ _ _ _ _ (by decide) (by decide))⟩

theorem cellRun_klim {hi lo : Bool} : CellRun k x (klim x k hi lo) :=
  (cellRun_put (f := KcStat.LIMHI) rfl (by decide) (by decide)).trans (cellRun_put (f := KcStat.LIMLO) rfl (by decide) (by decide))

theorem cellRun_onK {u : Kern → Kern} : CellRun k x (onK x k u) := ⟨onlyBlock_onB, rfl⟩

theorem cellRun_kemit {a b c : Int} : CellRun k x (kemit x k a b c) :=
  ⟨(kemit_onlyBlock x k a b c).mono (by simp), by rw [Dev.bit, Dev.fld, Dev.reg, kemit_regs]; rfl⟩

/-- A RUN slot of a cell in AUTO, with no command and no preset pending, leaves what the kind's own run leaves. -/
theorem completes_autoRun {nn : Fin 16} {m : Fin 12} {late : Nat} {w : DWord} {kind : Nat} {P : Dev → Prop} {run : Dev → Dev}
    (h : AutoRun d nn m w kind) (hkind : ∀ x, x.fld KcCfg.KIND (nn, m) = kind → runAuto x (nn, m) = run x)
    (hrun : ∀ x, CellRun (nn, m) x (run x)) (hP : ∀ x t, OnlyRegs (runRegs (nn, m)) d x → RanTo (nn, m) (run x) t → P t) :
    Completes (.runSlot nn late) d P := by
  obtain ⟨hslot, hop, hcell⟩ := h.slot
  obtain ⟨hmode, hclear, hpre⟩ := h.auto
  let k : KIx := (nn, m)
  let e := d.put Rlate.MAXLATE nn (min (max (d.fld Rlate.MAXLATE nn) late) (2 ^ 20 - 1))
  let x := e.put KcStat.MODE k 0
  let z := run x
  have he : OnlyRegs [Rlate.addr nn] d e := onlyRegs_put (by simp [Rlate.MAXLATE])
  have hmodeRegs : OnlyRegs [KcStat.addr k] e x := onlyRegs_put (by simp [KcStat.MODE])
  have hx : OnlyRegs (runRegs k) d x := (he.mono (by simp [runRegs, k])).trans (hmodeRegs.mono (by simp [runRegs]))
  have hpre' : e.bit KcStat.PRE k = false := (he.bit (by simp [KcStat.PRE, KcStat.addr, Rlate.addr, k]; omega)).trans hpre
  have hclear' : fget 0 6 (e.reg (KcCtl.addr k)) = 0 := by
    rw [he.reg (by simp [KcCtl.addr, Rlate.addr, k]; omega)]
    exact hclear
  have hauto : runMode e k = runCounted z k := by
    rw [runMode_auto ((effMode_congr he).trans hmode) hpre', hkind x (hx.kind.trans h.kind)]
  have hwhole : CellRun k e (z.inc KcStat.RUNS k) :=
    ((cellRun_put (f := KcStat.MODE) rfl (by decide) (by decide)).trans (hrun x)).trans cellRun_inc
  have hctl : (runMode e k).reg (KcCtl.addr k) = e.reg (KcCtl.addr k) := by
    rw [hauto]
    exact hwhole.only.2.1 _ (by simp [KcCtl.addr, KcStat.addr])
  have hfollow : lockFollow e (kernelRun e k) nn = runCounted z k := by
    rw [kernelRun_noCommand hclear' hctl, hauto]
    refine if_pos ?_
    rw [beq_iff_eq]
    exact hwhole.pllLocked.symm
  refine (exec_runSlot_taken h.known hslot hop).completes ?_
  simp only [hcell]
  change P (slotNext (lockFollow e (kernelRun e k) nn) nn)
  rw [hfollow]
  have hstep := slotNext_runnerStep (runCounted z k) nn
  have hkern := slotNext_kernStays (runCounted z k) nn
  have hstat (f : RF KIx) (hf : f.addr = KcStat.addr) (hd : f.lo + f.len ≤ KcStat.RUNS.lo) :
      (slotNext (runCounted z k) nn).bit f k = z.bit f k := by
    have hnot : f.addr k ∉ runnerRegs nn := by
      rw [hf]
      simp [runnerRegs, KcStat.addr, Rlate.addr, Rstat.addr, Rcnt.addr, Rctl.addr, Pstat.addr, Wdog.addr, BkCtl.addr, BkStat.addr,
        HspCtl.addr, Kstat.addr, k]
      omega
    rw [hstep.bit hnot]
    exact congrArg (· != 0) (Dev.fld_put_bits _ _ _ _ _ _ (by decide) (.inr hd))
  exact hP x _ hx ⟨hstep.opf, congrArg (fun v : Vector Kern 12 => vget v m) (hkern.kern nn), hstat _ rfl (by decide), hstat _ rfl (by decide)⟩

end WholeSlot

/-! ### The rules of SLEW, RAMP, FFSUM, DROOP and BATLIM (R220, R221, R226, R227, R228) -/

/-! #### Numbers -/

theorem narrow_range (a : Int) : -2 ^ 19 ≤ narrow a ∧ narrow a < 2 ^ 19 := by
  simp only [narrow, satF20, satS, clampI]
  omega

/-- A 20-bit signed value reads back from its pattern. -/
theorem sx_ux_20 {v : Int} (hlo : -2 ^ 19 ≤ v) (hhi : v < 2 ^ 19) : sx 20 (ux 20 v) = v := by
  have hcast := ux_cast 20 v
  have hlt := ux_lt 20 v
  simp only [sx, Nat.mod_eq_of_lt hlt, Int.ofNat_eq_natCast, hcast]
  split <;> omega

/-- An operand entry written with a signed value of 20 bits reads as that value. -/
theorem Blk.ofS_putS_self (b : Blk) (i : Nat) {v : Int} (hlo : -2 ^ 19 ≤ v) (hhi : v < 2 ^ 19) : (b.putS i v).ofS i = v := by
  have hval : (b.putS i v).ofU i = ux 20 v := by
    rw [Blk.putS, Blk.ofU_putU, if_pos rfl, Nat.mod_eq_of_lt (ux_lt 20 v)]
  show sx 20 ((b.putS i v).ofU i) = v
  rw [hval, sx_ux_20 hlo hhi]

theorem kpIn_nonneg {hi v : Int} (h : 0 ≤ hi) : 0 ≤ f2a (kpIn 0 hi v) := by
  simp only [f2a, kpIn, clampI]
  omega

/-- A quotient with its last place left open is within one unit of the quotient (R214). -/
theorem nearQ_divFree (a : Int) {b : Nat} (hb : 0 < b) (c : Bool) : NearQ (divFree a b c) a b := by
  have hdiv := Int.mul_ediv_add_emod a b
  have hlo := Int.emod_nonneg a (show (b : Int) ≠ 0 by omega)
  have hhi := Int.emod_lt_of_pos a (show (0 : Int) < b by omega)
  unfold NearQ divFree
  split
  · next h =>
    have hsum : (a / (b : Int) + 1) * b - a = b - a % b := by linarith
    rw [hsum]
    omega
  · have hsum : (a / (b : Int) + 0) * b - a = -(a % b) := by linarith
    rw [hsum]
    omega

section Kinds

variable {d x t : Dev} {k : KIx}

/-! #### SLEW (R221) -/

/-- The state of a SLEW cell after a run. -/
def slewTo (d : Dev) (k : KIx) : Int :=
  satS 48 ((kst d k).s1 + clampI (-f2a (kpIn 0 (2 ^ 19 - 1) (kpS d k 1))) (f2a (kpIn 0 (2 ^ 19 - 1) (kpS d k 0))) (f2a (kx d k 0) - (kst d k).s1))

theorem runSlew_eq (h : OnlyRegs (runRegs k) d x) :
    runSlew x k = kemit (onK x k fun s => { s with s1 := slewTo d k }) k (narrow (slewTo d k)) 0 0 := by
  simp only [runSlew, h.kst, h.kpS, h.kx]
  rfl

theorem koutEn_kwr (d : Dev) (k : KIx) (i j : Nat) (v : Int) : koutEn (kwr d k j v) k i = koutEn d k i :=
  congrArg (fun r => koutEn { d with regs := r } k i) (kwr_regs d k j v)

/-- A kind with output 0 alone writes that one, where it is enabled. -/
theorem kemit_opf_single (hkind : kOuts d k = 1) (v : Int) : ((kemit d k v 0 0).b k.1).opf =
    if (d.fld KcIo1.OUTEN k).testBit 0 then ((d.b k.1).putS (d.fld KcIo1.OUT0 k) v).opf else (d.b k.1).opf := by
  have hfirst : koutEn d k 0 = (d.fld KcIo1.OUTEN k).testBit 0 := by simp [koutEn, hkind]
  have hnone (j : Nat) : koutEn d k (j + 1) = false := by simp [koutEn, hkind]
  simp only [kemit, onK_opf, kwr_opf, koutEn_kwr, hnone, hfirst]
  rfl

/-- A SLEW run moves its state and shows it at output 0 alone. -/
theorem slew_ran (hkind : d.fld KcCfg.KIND k = 7) (h : OnlyRegs (runRegs k) d x) (ht : RanTo k (runSlew x k) t) :
    (kst t k).s1 = slewTo d k ∧
    ((d.fld KcIo1.OUTEN k).testBit 0 = true → (t.b k.1).ofS (d.fld KcIo1.OUT0 k) = narrow (slewTo d k)) ∧
    ∀ i < 64, (d.fld KcIo1.OUTEN k).testBit 0 = false ∨ i ≠ d.fld KcIo1.OUT0 k → (t.b k.1).ofU i = (d.b k.1).ofU i := by
  rw [runSlew_eq h] at ht
  have hopf := ht.opf.trans (h.sameOut.onK.kemit_opf.trans (kemit_opf_single (by simp [kOuts, hkind]) _))
  refine ⟨?_, fun hen => ?_, fun i hi hother => ?_⟩
  · rw [ht.kst, kst_kemit, kst_onK_self]
  · rw [if_pos hen] at hopf
    obtain ⟨hlo, hhi⟩ := narrow_range (slewTo d k)
    rw [Blk.ofS, hopf, ← Blk.ofS, Blk.ofS_putS_self _ _ hlo hhi]
  · split at hopf
    · next hen =>
      have hne : i ≠ d.fld KcIo1.OUT0 k := hother.resolve_left (by simp [hen])
      have hout : d.fld KcIo1.OUT0 k < 64 := Dev.fld_lt d KcIo1.OUT0 k
      have hentry : ((d.b k.1).putS (d.fld KcIo1.OUT0 k) (narrow (slewTo d k))).ofU i = (d.b k.1).ofU i := by
        rw [Blk.putS, Blk.ofU_putU, if_neg (by omega)]
      rw [Blk.ofU_congr hopf, hentry]
    · rw [Blk.ofU_congr hopf]

/-! #### RAMP (R220) -/

/-- Position and rate of a RAMP cell after a run. -/
def rampTo (d : Dev) (k : KIx) : Int × Int :=
  let rmax := f2a (kpIn 0 (2 ^ 19 - 1) (kpS d k 0))
  let step := f2a (kpIn 0 (2 ^ 19 - 1) (kpS d k 1))
  let y := (kst d k).s1
  let r := (kst d k).s2
  let dx := f2a (kx d k 0) - y
  let brake := r * r.natAbs + step * r
  if dx.natAbs ≤ step.natAbs ∧ r.natAbs ≤ step.natAbs then (f2a (kx d k 0), 0)
  else
    let r' := if 2 * step * dx > brake then min (r + step) rmax else if 2 * step * dx < brake then max (r - step) (-rmax) else r
    (satS 48 (y + r'), r')

theorem runRamp_eq (h : OnlyRegs (runRegs k) d x) : runRamp x k =
    kemit (onK x k fun s => { s with s1 := (rampTo d k).1, s2 := (rampTo d k).2 }) k (narrow (rampTo d k).1) (narrow (rampTo d k).2) 0 := by
  simp only [runRamp, h.kst, h.kpS, h.kx]
  rfl

/-- A RAMP run moves position and rate and shows both. -/
theorem ramp_ran (h : OnlyRegs (runRegs k) d x) (ht : RanTo k (runRamp x k) t) :
    (kst t k).s1 = (rampTo d k).1 ∧ (kst t k).s2 = (rampTo d k).2 ∧
    (t.b k.1).opf = ((kemit d k (narrow (rampTo d k).1) (narrow (rampTo d k).2) 0).b k.1).opf := by
  rw [runRamp_eq h] at ht
  refine ⟨?_, ?_, ht.opf.trans h.sameOut.onK.kemit_opf⟩ <;> rw [ht.kst, kst_kemit, kst_onK_self]

/-! #### The kinds with limits (R226, R227, R228) -/

theorem klim_bits (x : Dev) (k : KIx) (hi lo : Bool) : (klim x k hi lo).bit KcStat.LIMHI k = hi ∧ (klim x k hi lo).bit KcStat.LIMLO k = lo := by
  refine ⟨?_, Dev.bit_putB_self _ _ _ _ (by decide) rfl⟩
  have hkept : (klim x k hi lo).bit KcStat.LIMHI k = (x.putB KcStat.LIMHI k hi).bit KcStat.LIMHI k := by
    rw [Dev.bit_eq, Dev.bit_eq]
    exact congrArg (· != 0) (Dev.fld_put_bits _ _ _ _ _ _ (by decide) (by decide))
  rw [hkept, Dev.bit_putB_self _ _ _ _ (by decide) rfl]

/-- A run that shows which limit it met leaves outputs and limits so. -/
theorem limited_ran {hi lo : Bool} {a b c : Int} (h : OnlyRegs (runRegs k) d x) (ht : RanTo k (kemit (klim x k hi lo) k a b c) t) :
    (t.b k.1).opf = ((kemit d k a b c).b k.1).opf ∧ t.bit KcStat.LIMHI k = hi ∧ t.bit KcStat.LIMLO k = lo := by
  have hbit (f : RF KIx) : (kemit (klim x k hi lo) k a b c).bit f k = (klim x k hi lo).bit f k := by
    rw [Dev.bit, Dev.fld, Dev.reg, kemit_regs]
    rfl
  obtain ⟨hhi, hlo⟩ := klim_bits x k hi lo
  exact ⟨ht.opf.trans h.sameOut.klim.kemit_opf, by rw [ht.limHi, hbit, hhi], by rw [ht.limLo, hbit, hlo]⟩

/-- The first two terms of FFSUM (R226), the open place of the product of PROD chosen by c. -/
def ffsumFirst (d : Dev) (k : KIx) (c : Bool) : Int :=
  if kvar d k 0 then divFree (kpS d k 0 * kx d k 0 * kx d k 1) (2 ^ 19) c else kpS d k 0 * kx d k 0 + kpS d k 1 * kx d k 1

/-- The weighted sum of FFSUM before its limits. -/
def ffsumVal (d : Dev) (k : KIx) (c : Bool) : Int :=
  narrow (f2a (kpS d k 4) + ffsumFirst d k c + kpS d k 2 * kx d k 2 + kpS d k 3 * kx d k 3)

theorem runFfsum_eq (h : OnlyRegs (runRegs k) d x) : runFfsum x k =
    kemit (klim x k (decide (kpS d k 6 < ffsumVal d k (kc x 0))) (decide (ffsumVal d k (kc x 0) < kpS d k 5))) k
      (clampI (kpS d k 5) (kpS d k 6) (ffsumVal d k (kc x 0))) 0 0 := by
  simp only [runFfsum, h.kpS, h.kx, h.kvar]
  rfl

theorem ffsumFirst_spec (d : Dev) (k : KIx) (c : Bool) :
    if (d.fld KcCfg.VAR k).testBit 0 then NearQ (ffsumFirst d k c) (kpS d k 0 * kx d k 0 * kx d k 1) (2 ^ 19)
    else ffsumFirst d k c = kpS d k 0 * kx d k 0 + kpS d k 1 * kx d k 1 := by
  unfold ffsumFirst kvar
  split
  · exact nearQ_divFree _ (by decide) c
  · rfl

/-- The droop law outside its dead band, before its limits (R227). -/
def droopVal (d : Dev) (k : KIx) : Int :=
  let x := kx d k 0
  let db := kpS d k 2
  narrow (f2a (if kinEn d k 1 then kx d k 1 else kpS d k 0) - kpS d k 1 * if Int.ofNat x.natAbs ≤ db then 0 else x - x.sign * db)

theorem runDroop_eq (h : OnlyRegs (runRegs k) d x) : runDroop x k =
    kemit (klim x k (decide (kpS d k 4 < droopVal d k)) (decide (droopVal d k < kpS d k 3))) k
      (clampI (kpS d k 3) (kpS d k 4) (droopVal d k)) 0 0 := by
  simp only [runDroop, h.kpS, h.kx, h.kinEn]
  rfl

/-- What lies outside the dead band, by the sign of the input. -/
theorem deadZone_eq (x db : Int) : x - x.sign * db = if 0 < x then x - db else if x < 0 then x + db else 0 := by
  rcases lt_trichotomy x 0 with hx | rfl | hx
  · rw [Int.sign_eq_neg_one_of_neg hx, if_neg (by omega), if_pos hx]
    omega
  · simp
  · rw [Int.sign_eq_one_of_pos hx, if_pos hx]
    omega

/-- The taper of charge, of discharge, and the currents they allow (R228). -/
def batTaper (d : Dev) (k : KIx) : Int × Int :=
  (clampI 0 (2 ^ 32) ((kpS d k 0 - kx d k 0) * kpS d k 2), clampI 0 (2 ^ 32) ((kx d k 0 - kpS d k 1) * kpS d k 2))

/-- The greatest charge and discharge currents of BATLIM (R228). -/
def batLimits (d : Dev) (k : KIx) : Int × Int :=
  let g : Int := if kinEn d k 2 then kx d k 2 else 2 ^ 19
  (satF20 (rdiv (kpS d k 3 * g * (batTaper d k).1) (2 ^ 51)), satF20 (rdiv (kpS d k 4 * g * (batTaper d k).2) (2 ^ 51)))

/-- The flag word of BATLIM (R228). -/
def batFlags (d : Dev) (k : KIx) : Nat :=
  (decide (kx d k 1 > (batLimits d k).1)).toNat + 2 * (decide (kx d k 1 < -(batLimits d k).2)).toNat +
    4 * (decide ((0 < (batTaper d k).1 ∧ (batTaper d k).1 < 2 ^ 32) ∨ (0 < (batTaper d k).2 ∧ (batTaper d k).2 < 2 ^ 32))).toNat

theorem runBatlim_eq (h : OnlyRegs (runRegs k) d x) : runBatlim x k =
    kemit (klim x k (decide (kx d k 1 > (batLimits d k).1)) (decide (kx d k 1 < -(batLimits d k).2))) k
      (clampI (-(batLimits d k).2) (batLimits d k).1 (kx d k 1)) (Int.ofNat (batFlags d k)) 0 := by
  simp only [runBatlim, h.kpS, h.kx, h.kinEn]
  rfl

theorem flagWord_eq (p q r : Bool) : Int.ofNat (p.toNat + 2 * q.toNat + 4 * r.toNat) =
    (if p then 1 else 0) + (if q then 2 else 0) + (if r then 4 else 0) := by
  cases p <;> cases q <;> cases r <;> rfl

end Kinds

/-! #### All five rules (O27) -/

/-- Settles O27: nothing but its cell's own run stands between a RUN slot in AUTO and the step to the next slot; each kind's run is its rule. -/
theorem slewFollowsItsRule : Obligations.SlewFollowsItsRule := by
  unfold Obligations.SlewFollowsItsRule
  refine ⟨fun d nn late w m hu hslot hop hcell hkind hclear hmode hpre => ?_, fun d nn late w m => ⟨fun h => ?_, fun h => ?_, fun h => ?_, fun h => ?_⟩⟩
  · exact completes_autoRun (run := fun x => runSlew x (nn, m)) ⟨hu, ⟨hslot, hop, hcell⟩, hkind, hmode, hclear, hpre⟩
      (fun x hx => by simp only [runAuto, hx]) (fun x => cellRun_onK.trans cellRun_kemit) fun x t hx ht => slew_ran hkind hx ht
  · refine completes_autoRun (run := fun x => runRamp x (nn, m)) h (fun x hx => by simp only [runAuto, hx])
      (fun x => cellRun_onK.trans cellRun_kemit) fun x t hx ht => ?_
    obtain ⟨hpos, hrate, hopf⟩ := ramp_ran hx ht
    have hstep : 0 ≤ f2a (kpIn 0 (2 ^ 19 - 1) (kpS d (nn, m) 1)) := kpIn_nonneg (by decide)
    refine ⟨by rw [hpos, hrate]; exact hopf, ?_⟩
    simp only [hpos, hrate, rampTo]
    generalize f2a (kpIn 0 (2 ^ 19 - 1) (kpS d (nn, m) 1)) = step at hstep ⊢
    have hnear (v : Int) : (v.natAbs : Int) ≤ step ↔ v.natAbs ≤ step.natAbs := by omega
    simp only [hnear]
    split
    · exact ⟨rfl, rfl⟩
    · refine ⟨rfl, fun hup => if_pos hup, fun hdown => ?_, fun heq => ?_⟩
      · rw [if_neg (by omega), if_pos hdown]
      · rw [if_neg (by omega), if_neg (by omega)]
  · refine completes_autoRun (run := fun x => runFfsum x (nn, m)) h (fun x hx => by simp only [runAuto, hx])
      (fun x => cellRun_klim.trans cellRun_kemit) fun x t hx ht => ?_
    rw [runFfsum_eq hx] at ht
    exact ⟨ffsumFirst d (nn, m) (kc x 0), ffsumFirst_spec d (nn, m) _, limited_ran hx ht⟩
  · refine completes_autoRun (run := fun x => runDroop x (nn, m)) h (fun x hx => by simp only [runAuto, hx])
      (fun x => cellRun_klim.trans cellRun_kemit) fun x t hx ht => ?_
    rw [runDroop_eq hx] at ht
    have hran := limited_ran hx ht
    simp only [droopVal, deadZone_eq] at hran
    exact hran
  · refine completes_autoRun (run := fun x => runBatlim x (nn, m)) h (fun x hx => by simp only [runAuto, hx])
      (fun x => cellRun_klim.trans cellRun_kemit) fun x t hx ht => ?_
    rw [runBatlim_eq hx] at ht
    obtain ⟨hopf, -, -⟩ := limited_ran hx ht
    rw [batFlags, flagWord_eq] at hopf
    exact hopf

/-! ### What neither the end of a descriptor nor a chip failure touches: the bytes counted and the writes posted (R368, R376) -/

/-- The BYTES counts of the channels and the writes posted to host memory stand. -/
structure TallyKept (d t : Dev) : Prop where
  bytes : ∀ c, t.reg (ChBytes.addr c) = d.reg (ChBytes.addr c)
  posted : t.hostWr = d.hostWr

/-- An address beside the BYTES counts. -/
def NoTally (a : Nat) : Prop := ∀ c, ChBytes.addr c ≠ a

theorem noTally_of_far {a : Nat} (h : a < 0x20000 ∨ 0x20800 ≤ a) : NoTally a := by
  intro c
  simp only [ChBytes.addr]
  omega

theorem noTally_region (n : Fin 4) (k : Nat) : NoTally (regionBase n + k) :=
  noTally_of_far (.inr (by unfold regionBase; omega))

theorem noTally_port (n : Fin 4) (k : Nat) : NoTally (portBase n + k) :=
  noTally_of_far (.inr (by unfold portBase regionBase; omega))

theorem noTally_queueCtl (n : Fin 4) (k : Nat) : NoTally (queueCtl n + k) :=
  noTally_of_far (.inr (by unfold queueCtl regionBase; omega))

theorem noTally_queue (i : Fin 4 × Fin 64) (k : Nat) : NoTally (queueBase i + k) :=
  noTally_of_far (.inr (by unfold queueBase queueCtl regionBase; omega))

theorem noTally_block (nn : Fin 16) (k : Nat) : NoTally (blockBase nn + k) :=
  noTally_of_far (.inr (by unfold blockBase; omega))

theorem noTally_window (i : Fin 4 × Fin 32) : NoTally (WStat.addr i) ∧ NoTally (WCnt.addr i) := by
  constructor <;> refine noTally_of_far (.inr ?_) <;> simp only [WStat.addr, WCnt.addr, portBase, regionBase] <;> omega

theorem noTally_leg (l : Fin 16 × Fin 3) : NoTally (LcAcc.addr l) :=
  noTally_of_far (.inr (by simp only [LcAcc.addr, blockBase]; omega))

theorem noTally_channel (c : Fin 8) : NoTally (ChHead.addr c) ∧ NoTally (ChStat.addr c) ∧ NoTally (ChCtl.addr c) := by
  refine ⟨fun e => ?_, fun e => ?_, fun e => ?_⟩ <;> simp only [ChBytes.addr, ChHead.addr, ChStat.addr, ChCtl.addr] <;> omega

section TallyKept

variable {d x y : Dev}

theorem TallyKept.refl : TallyKept d d := ⟨fun _ => rfl, rfl⟩

theorem TallyKept.trans (h1 : TallyKept d x) (h2 : TallyKept x y) : TallyKept d y :=
  ⟨fun c => (h2.bytes c).trans (h1.bytes c), h2.posted.trans h1.posted⟩

theorem TallyKept.fld (h : TallyKept d x) (c : Fin 8) : x.fld ChBytes.BYTES c = d.fld ChBytes.BYTES c :=
  congrArg (fget _ _) (h.bytes c)

/-- Neither registers nor posted writes have changed. -/
theorem TallyKept.same (h : TallyKept d x) (hr : y.regs = x.regs := by rfl) (hp : y.hostWr = x.hostWr := by rfl) : TallyKept d y :=
  ⟨fun c => by rw [Dev.reg, hr]; exact h.bytes c, hp.trans h.posted⟩

/-- The device of a pair taken apart. -/
theorem TallyKept.snd {α : Type} {a : α} {z : α × Dev} (h : TallyKept d z.2) (hz : z = (a, y)) : TallyKept d y := by
  rw [hz] at h
  exact h

theorem TallyKept.ite {c : Prop} [Decidable c] (hx : TallyKept d x) (hy : TallyKept d y) : TallyKept d (if c then x else y) := by
  split <;> assumption

theorem TallyKept.foldl {α : Type} {f : Dev → α → Dev} (hf : ∀ z a, TallyKept z (f z a)) (h : TallyKept d x) (l : List α) :
    TallyKept d (l.foldl f x) := by
  induction l generalizing x with
  | nil => exact h
  | cons a l ih => exact ih (h.trans (hf x a))

theorem TallyKept.foldlFst {α β : Type} {f : Dev × β → α → Dev × β} (hf : ∀ z a, TallyKept z.1 (f z a).1) (l : List α) (z : Dev × β) :
    TallyKept z.1 (l.foldl f z).1 := by
  induction l generalizing z with
  | nil => exact TallyKept.refl
  | cons a l ih => exact (hf z a).trans (ih _)

theorem TallyKept.foldlSnd {α β : Type} {f : β × Dev → α → β × Dev} (hf : ∀ z a, TallyKept z.2 (f z a).2) (l : List α) (z : β × Dev) :
    TallyKept z.2 (l.foldl f z).2 := by
  induction l generalizing z with
  | nil => exact TallyKept.refl
  | cons a l ih => exact (hf z a).trans (ih _)

theorem TallyKept.forAll {n : Nat} {f : Dev → Fin n → Dev} (h : TallyKept d x) (hf : ∀ z j, TallyKept z (f z j)) :
    TallyKept d (Machine.forAll x f) :=
  h.foldl hf _

theorem TallyKept.setReg {a : Nat} {w : Word} (h : TallyKept d x) (ha : NoTally a) : TallyKept d (x.setReg a w) :=
  ⟨fun c => (Dev.reg_setReg_ne _ _ _ _ (ha c)).trans (h.bytes c), h.posted⟩

section Field

variable {ι : Type} {f : RF ι} {i : ι} (h : TallyKept d x) (ha : NoTally (f.addr i))
include h ha

theorem TallyKept.put {v : Nat} : TallyKept d (x.put f i v) := h.setReg ha
theorem TallyKept.putB {b : Bool} : TallyKept d (x.putB f i b) := h.setReg ha
theorem TallyKept.clr : TallyKept d (x.clr f i) := h.setReg ha
theorem TallyKept.flag : TallyKept d (x.flag f i) := (h.put ha (v := 1)).same
theorem TallyKept.flagBit {b : Nat} : TallyKept d (x.flagBit f i b) := (h.put ha (v := x.fld f i ||| 2 ^ b)).same
theorem TallyKept.inc : TallyKept d (x.inc f i) := (h.put ha (v := x.fld f i + 1)).same
theorem TallyKept.incSat : TallyKept d (x.incSat f i) := (h.put ha (v := min (x.fld f i + 1) (2 ^ f.len - 1))).same

theorem TallyKept.cmdDone : TallyKept d (x.cmdDone f i) := TallyKept.ite h.same (h.clr ha)

end Field

variable (h : TallyKept d x)
include h

theorem TallyKept.raise {s i : Nat} : TallyKept d (x.raise s i) := h.same
theorem TallyKept.onB {nn : Fin 16} {u : Blk → Blk} : TallyKept d (x.onB nn u) := h.same
theorem TallyKept.onR {n : Fin 4} {u : Rgn → Rgn} : TallyKept d (x.onR n u) := h.same
theorem TallyKept.onTw {u : Twin → Twin} : TallyKept d (x.onTw u) := h.same
theorem TallyKept.onChan {c : Fin 8} {u : Chan → Chan} : TallyKept d (Machine.onChan x c u) := h.same
theorem TallyKept.onQ {n : Fin 4} {q : Fin 64} {u : Queue → Queue} : TallyKept d (Machine.onQ x n q u) := h.same
theorem TallyKept.onPort {p : Fin 4} {u : Port → Port} : TallyKept d (Machine.onPort x p u) := h.same
theorem TallyKept.onW {p : Fin 4} {w : Fin 32} {u : Win → Win} : TallyKept d (Machine.onW x p w u) := h.same

theorem TallyKept.hwPutWord {o : Nat} {w : Word} : TallyKept d (Machine.hwPutWord x o w) := by
  obtain ⟨b, hb⟩ := hwPut_eq x o (byte4 w)
  rw [Machine.hwPutWord, hb]
  exact h.same

end TallyKept

/-! #### Ends of descriptors, and the reset of a queue (R317 to R319, R361, R369) -/

section Ends

theorem chanEnd_tallyKept (d : Dev) (c : Fin 8) (status : Nat) : TallyKept d (chanEnd d c status) := by
  obtain ⟨hhead, hstat, hctl⟩ := noTally_channel c
  unfold chanEnd
  extract_lets ch a record word head count done stop
  have hdone : TallyKept d done :=
    (((((TallyKept.refl.hwPutWord.hwPutWord).put hhead).inc hstat).flag hstat).put hstat).onChan
  have hstop : TallyKept d stop := TallyKept.ite ((hdone.put hstat).clr hctl) hdone
  exact TallyKept.ite (TallyKept.ite hstop.raise hstop) ((((hdone.put hstat).flag hstat).clr hctl).raise)

theorem chanEndAll_tallyKept (d : Dev) (status : Nat) (p : List Word → Bool) : TallyKept d (chanEndAll d status p) := by
  refine TallyKept.refl.forAll fun z c => ?_
  split
  · exact TallyKept.ite (chanEnd_tallyKept z c status) TallyKept.refl
  · exact TallyKept.refl

theorem chanQueueGone_tallyKept (d : Dev) (n : Fin 4) (q : Fin 64) : TallyKept d (chanQueueGone d n q) :=
  (TallyKept.refl.forAll fun _ _ => TallyKept.refl.onChan).trans (chanEndAll_tallyKept _ _ _)

theorem queueEvent_tallyKept (d : Dev) (n : Fin 4) (q : Fin 64) : TallyKept d (queueEvent d n q) := TallyKept.refl.raise

theorem qDropEvent_tallyKept (d : Dev) (n : Fin 4) (q : Fin 64) : TallyKept d (qDropEvent d n q) :=
  ((TallyKept.refl.flag (noTally_queue _ _)).inc (noTally_queue _ _)).raise

theorem regionErr_tallyKept (d : Dev) (n : Fin 4) (cause : Nat) : TallyKept d (regionErr d n cause) := by
  unfold regionErr
  extract_lets a b e
  have hrec : TallyKept d e :=
    ((((TallyKept.refl.put (noTally_region _ _)).flag (noTally_region _ _)).incSat (noTally_region _ _)).incSat (noTally_of_far (.inl (by decide)))).raise
  exact TallyKept.ite hrec.same (hrec.inc (noTally_region _ _))

theorem qerr_tallyKept (d : Dev) (n : Fin 4) : TallyKept d (qerr d n) := by
  unfold qerr
  extract_lets e w
  have hcount : TallyKept d e := (TallyKept.refl.flag (noTally_queueCtl _ _)).incSat (noTally_queueCtl _ _)
  exact TallyKept.ite (hcount.onR.trans (regionErr_tallyKept _ _ _)) hcount.onR

theorem answer_tallyKept (d : Dev) (m : Master) (code : Nat) (ws : List Word) : TallyKept d (answer d m code ws) :=
  TallyKept.ite (TallyKept.ite TallyKept.refl.same TallyKept.refl) (TallyKept.ite TallyKept.refl TallyKept.refl.same)

theorem stallsEnd_tallyKept (d : Dev) (n : Fin 4) (q : Fin 64) : TallyKept d (stallsEnd d n q) :=
  TallyKept.refl.foldl (fun _ _ => (TallyKept.refl.flag (noTally_queue _ _)).trans (answer_tallyKept _ _ _ _)) _

theorem resetQueue_tallyKept (d : Dev) (n : Fin 4) (q : Fin 64) (mismatch : Bool) : TallyKept d (resetQueue d n q mismatch) := by
  unfold resetQueue
  extract_lets x resets rst told ended dropped emptied gone lost
  have hrst : TallyKept d rst := (TallyKept.refl.inc (noTally_queueCtl _ _)).flag (noTally_queue _ _)
  have htold : TallyKept d told :=
    TallyKept.ite ((((hrst.put (noTally_queueCtl _ _)).clr (noTally_queueCtl _ _)).trans (qerr_tallyKept _ _)).trans (queueEvent_tallyKept _ _ _)) hrst
  have hdropped : TallyKept d dropped := by
    have hended : TallyKept d ended := htold.trans (stallsEnd_tallyKept _ _ _)
    unfold dropped
    split
    · exact hended.trans (qDropEvent_tallyKept _ _ _)
    · exact hended
  have hgone : TallyKept d gone := hdropped.onQ.trans (chanQueueGone_tallyKept _ _ _)
  exact TallyKept.ite (((hgone.clr (noTally_port _ _)).clr (noTally_port _ _)).clr (noTally_port _ _)).onR hgone

theorem touchQ_tallyKept (d : Dev) (n : Fin 4) (q : Fin 64) : TallyKept d (touchQ d n q) :=
  TallyKept.ite
    ((TallyKept.refl.onR.trans (resetQueue_tallyKept _ _ _ _)).foldl (fun z x => resetQueue_tallyKept z n x true) _)
    TallyKept.refl

theorem touchFree_tallyKept (d : Dev) (n : Fin 4) : TallyKept d (touchFree d n) :=
  TallyKept.ite (((TallyKept.refl.onR.flag (noTally_queueCtl _ _)).flag (noTally_queueCtl _ _)).trans (qerr_tallyKept _ _)) TallyKept.refl

end Ends

/-! #### Packets taken and acknowledged (R307 to R314, R320) -/

section Packets

theorem freeCells_tallyKept (d : Dev) (n : Fin 4) (cs : List Nat) : TallyKept d (freeCells d n cs) :=
  TallyKept.refl.foldl (fun _ _ => TallyKept.refl.same) _

theorem popTake_tallyKept (d : Dev) (n : Fin 4) (q : Fin 64) : TallyKept d (popTake d n q).2 := by
  unfold popTake
  extract_lets x cur
  split
  · split
    · exact TallyKept.refl.flag (noTally_queue _ _)
    · split
      · exact TallyKept.refl
      · exact TallyKept.refl.onQ
  · clear_value cur
    rcases cur with _ | ⟨p, i⟩
    · exact TallyKept.refl
    · exact (TallyKept.ite TallyKept.refl.same TallyKept.refl).onQ

theorem queuePop_tallyKept (d : Dev) (x : List Word) (p : Pkt) : TallyKept d (queuePop d x p).2 := by
  unfold queuePop
  dsimp only
  split
  · exact popTake_tallyKept _ _ _
  · exact TallyKept.refl.onQ.trans (freeCells_tallyKept _ _ _)

theorem ackEntry_tallyKept (d : Dev) (n : Fin 4) (q : Fin 64) (w : Word) : TallyKept d (ackEntry d n q w) := by
  unfold ackEntry
  extract_lets x c
  have htouch : TallyKept d x := (touchFree_tallyKept _ _).trans (touchQ_tallyKept _ _ _)
  have hstale : TallyKept d (x.flag QStat.STALEACK (n, q)) := htouch.flag (noTally_queue _ _)
  split
  · exact TallyKept.ite (htouch.onR.onQ.trans (freeCells_tallyKept _ _ _)) hstale
  · exact hstale

theorem takeCells_tallyKept (d : Dev) (n : Fin 4) (q : Fin 64) (k : Nat) : TallyKept d (takeCells d n q k).2 :=
  TallyKept.foldlSnd (fun _ _ => TallyKept.refl.same) _ ([], d)

theorem putCells_tallyKept (d : Dev) (n : Fin 4) (cells : List Nat) (i : Nat) (ws : List Word) : TallyKept d (putCells d n cells i ws) :=
  TallyKept.foldlFst (fun _ _ => TallyKept.refl.onR) _ (d, i)

theorem wake_tallyKept (d : Dev) (n : Fin 4) (q : Fin 64) : TallyKept d (wake d n q) :=
  TallyKept.refl.foldl (fun z _ => TallyKept.ite ((popTake_tallyKept z n q).onQ.trans (answer_tallyKept _ _ _ _)) TallyKept.refl) _

theorem storePkt_tallyKept (d : Dev) (n : Fin 4) (q : Fin 64) (pri len : Nat) (ws : List Word) : TallyKept d (storePkt d n q pri len ws).2 := by
  unfold storePkt
  extract_lets x k
  have htouch : TallyKept d x := (touchQ_tallyKept _ _ _).trans (touchFree_tallyKept _ _)
  split
  · exact htouch
  · exact ((htouch.trans (takeCells_tallyKept _ _ _ _)).trans (putCells_tallyKept _ _ _ _ _)).onQ.trans (wake_tallyKept _ _ _)

end Packets

/-! #### Ports and blocks at a chip failure (R262, R297, R298, R327, R390) -/

section Failure

theorem ownerSend_tallyKept (d : Dev) (m : TwMsg) : TallyKept d (ownerSend d m) :=
  TallyKept.ite (TallyKept.ite TallyKept.refl TallyKept.refl.onTw) TallyKept.refl

theorem winMiss_tallyKept (d : Dev) (p : Fin 4) (w : Fin 32) (cause : Nat) : TallyKept d (winMiss d p w cause) := by
  obtain ⟨hstat, hcnt⟩ := noTally_window (p, w)
  have hmiss := (((TallyKept.refl (d := d)).inc (f := WCnt.MISS) hcnt).flag (f := WStat.MISSED_SEEN) hstat).put (f := WStat.CAUSE) (v := cause) hstat
  exact ((TallyKept.ite (hmiss.flag (f := WStat.ABORTED_SEEN) hstat) hmiss).flagBit (noTally_port _ _)).raise

theorem winFinal_tallyKept (d : Dev) (p : Fin 4) (w : Fin 32) : TallyKept d (winFinal d p w) :=
  TallyKept.ite TallyKept.refl.onW
    (TallyKept.ite (TallyKept.refl.onW.trans (ownerSend_tallyKept _ _))
      ((TallyKept.refl.onW.trans (winMiss_tallyKept _ _ _ _)).trans (ownerSend_tallyKept _ _)))

theorem txRecord_tallyKept (d : Dev) (p : Fin 4) (k : Pkt) (status sof : Nat) : TallyKept d (txRecord d p k status sof) := by
  unfold txRecord
  split
  · exact TallyKept.refl
  · dsimp only
    split
    · next h => exact (storePkt_tallyKept _ _ _ _ _ _).snd h
    · next h => exact ((storePkt_tallyKept _ _ _ _ _ _).snd h).trans (qDropEvent_tallyKept _ _ _)

theorem headCounts_tallyKept (d : Dev) (p : Fin 4) (status : Nat) : TallyKept d (headCounts d p status) := by
  unfold headCounts
  split
  · exact TallyKept.refl
  · exact (TallyKept.refl.incSat (noTally_port _ _)).flag (noTally_port _ _)
  · exact (TallyKept.refl.incSat (noTally_port _ _)).flag (noTally_port _ _)

theorem touchTq_tallyKept (d : Dev) (p : Fin 4) : TallyKept d (touchTq d p) := (touchFree_tallyKept _ _).trans (touchQ_tallyKept _ _ _)

theorem headLeaves_tallyKept (d : Dev) (p : Fin 4) (k : Pkt) (status sof : Nat) : TallyKept d (headLeaves d p k status sof) := by
  have htouch := touchTq_tallyKept d p
  have hgone (z : Dev) : TallyKept z (headGone z p k) := (TallyKept.refl.onQ.trans (freeCells_tallyKept _ _ _)).clr (noTally_port _ _)
  exact TallyKept.ite htouch
    ((((htouch.trans (hgone _)).trans (headCounts_tallyKept _ _ _)).trans (txRecord_tallyKept _ _ _ _ _)).trans (ownerSend_tallyKept _ _))

theorem headCheck_tallyKept (d : Dev) (p : Fin 4) : TallyKept d (headCheck d p) := by
  refine TallyKept.ite TallyKept.refl (TallyKept.foldlFst (fun z k => ?_) _ (d, false))
  split
  · exact TallyKept.refl
  · exact headLeaves_tallyKept _ _ _ _ _

theorem headAbort_tallyKept (d : Dev) (p : Fin 4) : TallyKept d (headAbort d p) := by
  unfold headAbort
  split
  · exact TallyKept.refl
  · exact (headLeaves_tallyKept _ _ _ _ _).trans (headCheck_tallyKept _ _)

theorem abortEnd_tallyKept (d : Dev) (p : Fin 4) : TallyKept d (abortEnd d p) := by
  have hpend : TallyKept d (d.clr TqStat.ABORTPEND p) := TallyKept.refl.clr (noTally_port _ _)
  exact TallyKept.ite (((hpend.cmdDone (noTally_port _ _)).clr (noTally_port _ _)).trans (headAbort_tallyKept _ _)) (hpend.clr (noTally_port _ _))

theorem headRotate_tallyKept (d : Dev) (p : Fin 4) (k : Pkt) : TallyKept d (headRotate d p k) :=
  TallyKept.ite (touchTq_tallyKept d p)
    (((((touchTq_tallyKept d p).onQ.clr (noTally_port _ _)).inc (noTally_port _ _)).flag (noTally_port _ _)).trans (headCheck_tallyKept _ _))

theorem headFailed_tallyKept (d : Dev) (p : Fin 4) (collision lost : Bool) : TallyKept d (headFailed d p collision lost) := by
  unfold headFailed
  split
  · exact abortEnd_tallyKept _ _
  · next k _ =>
    extract_lets pend n after
    have hafter : TallyKept d after :=
      TallyKept.ite (TallyKept.ite (headRotate_tallyKept _ _ _) (TallyKept.refl.put (noTally_port _ _))) TallyKept.refl
    exact TallyKept.ite (((headLeaves_tallyKept _ _ _ _ _).trans (headCheck_tallyKept _ _)).trans (abortEnd_tallyKept _ _))
      (TallyKept.ite ((headAbort_tallyKept _ _).trans (abortEnd_tallyKept _ _))
        (TallyKept.ite ((hafter.trans (headAbort_tallyKept _ _)).trans (abortEnd_tallyKept _ _)) hafter))

theorem txClear_tallyKept (d : Dev) (p : Fin 4) : TallyKept d (txClear d p) := by
  unfold txClear
  dsimp only
  split
  · exact ((TallyKept.refl.clr (noTally_window _).1).clr (noTally_port _ _)).onPort
  · exact (TallyKept.refl.clr (noTally_port _ _)).onPort

theorem txFailed_tallyKept (d : Dev) (p : Fin 4) (collision lost : Bool) : TallyKept d (txFailed d p collision lost) := by
  unfold txFailed
  extract_lets x cleared
  have hcleared : TallyKept d cleared := txClear_tallyKept d p
  split
  · exact hcleared
  · extract_lets told withdrawn
    have htold : TallyKept d told := hcleared.trans (ownerSend_tallyKept _ _)
    have hwithdrawn : TallyKept d withdrawn := TallyKept.ite (htold.onW.clr (noTally_window _).1) htold
    exact TallyKept.ite (hwithdrawn.trans (winFinal_tallyKept _ _ _)) hwithdrawn
  · exact TallyKept.ite hcleared (hcleared.trans (headFailed_tallyKept _ _ _ _))

theorem winsSendable_tallyKept (d : Dev) (p : Fin 4) : TallyKept d (winsSendable d p) :=
  TallyKept.ite (TallyKept.refl.forAll fun _ _ => TallyKept.ite TallyKept.refl.onW TallyKept.refl) TallyKept.refl

theorem goState_tallyKept (d : Dev) (p : Fin 4) (st : Nat) : TallyKept d (goState d p st) := by
  have hput : TallyKept d (d.put BpStat.STATE p st) := TallyKept.refl.put (noTally_port _ _)
  refine TallyKept.ite TallyKept.refl (TallyKept.trans ?_ (winsSendable_tallyKept _ _))
  split
  · exact (hput.flag (noTally_port _ _)).raise
  · exact ((hput.onPort.flag (noTally_port _ _)).inc (noTally_port _ _)).raise
  · exact hput

theorem portOff_tallyKept (d : Dev) (p : Fin 4) : TallyKept d (portOff d p) := by
  have hidle : TallyKept d (portIdle d p) := by
    unfold portIdle
    exact (((((txFailed_tallyKept d p false false).clr (noTally_port _ _)).clr (noTally_port _ _)).clr (noTally_port _ _)).clr
      (noTally_port _ _)).onPort
  exact ((TallyKept.ite hidle hidle.onPort).trans (goState_tallyKept _ _ _)).clr (noTally_port _ _)

theorem clearUndo_tallyKept (d : Dev) (nn : Fin 16) : TallyKept d (clearUndo d nn) := by
  unfold clearUndo
  split
  · exact TallyKept.ite TallyKept.refl
      ((((TallyKept.refl.flag (noTally_block _ _)).putB (noTally_block _ _)).flag (noTally_block _ _)).put (noTally_block _ _)).onB
  · exact TallyKept.refl

theorem legsForget_tallyKept (d : Dev) (nn : Fin 16) : TallyKept d (legsForget d nn) :=
  TallyKept.refl.forAll fun _ _ => ((TallyKept.refl.clr (noTally_leg _)).clr (noTally_leg _)).clr (noTally_leg _)

theorem setSafe_tallyKept (d : Dev) (nn : Fin 16) (fromClear : Bool) : TallyKept d (setSafe d nn fromClear) := by
  have hput : TallyKept d (d.putB Qstat.SAFESET nn (s1Wanted d nn)) := TallyKept.refl.putB (noTally_block _ _)
  have hlegs : TallyKept d (legsSafe (d.putB Qstat.SAFESET nn (s1Wanted d nn)) nn) := hput.forAll fun _ _ => TallyKept.refl.onB
  exact TallyKept.ite (TallyKept.ite (hlegs.forAll fun _ _ => TallyKept.refl.onB) hlegs) (TallyKept.ite hlegs hput)

theorem quenchState_tallyKept (d : Dev) (nn : Fin 16) : TallyKept d (quenchState d nn) := by
  unfold quenchState
  extract_lets st moved refused stopped
  have hmoved : TallyKept d moved := TallyKept.ite (TallyKept.refl.put (noTally_block _ _)) TallyKept.refl
  have hrefused : TallyKept d refused :=
    ((((hmoved.clr (noTally_block _ _)).clr (noTally_block _ _)).clr (noTally_block _ _)).flag (noTally_block _ _)).put (noTally_block _ _)
  exact TallyKept.ite (hrefused.onB.putB (noTally_block _ _)) hmoved

theorem quenchNew_tallyKept (d : Dev) (nn : Fin 16) (mask : Nat) : TallyKept d (quenchNew d nn mask) := by
  unfold quenchNew
  extract_lets x y
  have hy : TallyKept d y :=
    ((((TallyKept.refl.onB.put (noTally_block _ _)).incSat (noTally_block _ _)).flag (noTally_block _ _)).incSat
      (noTally_of_far (.inl (by decide)))).trans (legsForget_tallyKept _ _)
  exact TallyKept.ite (hy.flag (noTally_of_far (.inr (by decide)))).onTw hy

theorem quench_tallyKept (d : Dev) (nn : Fin 16) (mask : Nat) : TallyKept d (quench d nn mask) := by
  rw [quench_eq]
  have hrecord (x : Dev) : TallyKept x (quenchRecord x nn mask) := by
    have hput (v : Nat) : TallyKept x ((x.put Qcause.CAUSE nn v).flag Qstat.LATCH nn) :=
      (TallyKept.refl.put (noTally_block _ _)).flag (noTally_block _ _)
    exact TallyKept.ite (TallyKept.ite ((hput _).put (noTally_block _ _)) (hput _)) ((hput _).trans (quenchNew_tallyKept _ _ _))
  have hstate (b : Bool) : TallyKept d (quenchState (setSafe (quenchRecord (causesNote (clearUndo d nn) nn mask) nn mask) nn b) nn) :=
    ((((clearUndo_tallyKept d nn).onB).trans (hrecord _)).trans (setSafe_tallyKept _ _ _)).trans (quenchState_tallyKept _ _)
  exact TallyKept.ite TallyKept.refl (TallyKept.ite (hstate _) (hstate _).raise)

theorem chipFail_tallyKept (d : Dev) (cause : Nat) (n : Fin 4) : TallyKept d (chipFail d cause n) := by
  unfold chipFail
  extract_lets noted quenched dropped
  have hfar (a : Nat) (h : a < 0x20000) : NoTally a := noTally_of_far (.inl h)
  have hnoted : TallyKept d noted := ((TallyKept.refl.put (hfar _ (by decide))).put (hfar _ (by decide))).incSat (hfar _ (by decide))
  have hquenched : TallyKept d quenched := TallyKept.forAll hnoted.same fun _ _ => quench_tallyKept _ _ _
  have hdropped : TallyKept d dropped :=
    ((hquenched.clr (noTally_of_far (.inr (by decide)))).clr (noTally_of_far (.inr (by decide)))).onTw.onTw
  exact TallyKept.ite TallyKept.refl (hdropped.forAll fun _ _ => portOff_tallyKept _ _)

theorem failCheck_tallyKept (d : Dev) : TallyKept d (failCheck d) := by
  unfold failCheck
  split
  · exact TallyKept.refl
  · exact (TallyKept.refl.same (y := { d with failDue := none })).trans (chipFail_tallyKept _ _ _)

end Failure

/-! #### What Ladle does after a unit (R361, R365, R371, R372, R375) -/

section Ladle

theorem chanNext_tallyKept (d : Dev) (c : Fin 8) (x : List Word) : TallyKept d (chanNext d c x).2 := by
  obtain ⟨-, hstat, -⟩ := noTally_channel c
  unfold chanNext
  extract_lets y left n q e t any
  have htouch : TallyKept d e := (touchFree_tallyKept _ _).trans (touchQ_tallyKept _ _ _)
  split
  · split
    · exact htouch
    · split
      · split
        · exact htouch
        · exact htouch.onChan.put hstat
      · split
        · split
          · exact htouch
          · exact htouch.put hstat
        · split
          · exact htouch
          · exact (htouch.trans (queuePop_tallyKept _ _ _)).onChan.put hstat
  · split
    · exact TallyKept.refl
    · exact TallyKept.refl.put hstat

theorem shadowCount_tallyKept (d : Dev) (x : List Word) : TallyKept d (shadowCount d x) :=
  TallyKept.ite (TallyKept.refl.incSat (noTally_of_far (.inr (by decide)))) TallyKept.refl

theorem chanHead_tallyKept (k : Nat) (d : Dev) (c : Fin 8) : TallyKept d (chanHead k d c) := by
  obtain ⟨-, hstat, -⟩ := noTally_channel c
  induction k generalizing d with
  | zero => exact TallyKept.refl
  | succ k ih =>
    unfold chanHead
    extract_lets m a x e
    have hread : TallyKept d e := (TallyKept.refl.put hstat).onChan
    split
    · exact (TallyKept.refl.put hstat).onChan
    · split
      · exact chanEnd_tallyKept _ _ _
      · split
        · exact ((hread.trans (shadowCount_tallyKept _ _)).trans (chanEnd_tallyKept _ _ _)).trans (ih _)
        · split
          · have hnext := hread.trans (chanNext_tallyKept e c x)
            split
            · next h => exact ((hnext.snd h).trans (chanEnd_tallyKept _ _ _)).trans (ih _)
            · next h => exact hnext.snd h
          · exact hread

theorem chanDone_tallyKept (d : Dev) (c : Fin 8) (status : Nat) : TallyKept d (chanDone d c status) := by
  obtain ⟨-, hstat, hctl⟩ := noTally_channel c
  have hend (st : Nat) : TallyKept d (chanEnd d c st) := chanEnd_tallyKept d c st
  have hstop (z : Dev) : TallyKept z (stopNext z c) :=
    TallyKept.ite ((TallyKept.refl.put hstat).clr hctl) (TallyKept.refl.onChan.trans (chanEnd_tallyKept _ _ _))
  exact TallyKept.ite ((hend _).put hstat |>.trans (chanHead_tallyKept _ _ _)) (TallyKept.ite ((hend _).trans (hstop _)) (hend _))

theorem itemDone_tallyKept (d : Dev) (c : Fin 8) (x : List Word) : TallyKept d (itemDone d c x) := by
  unfold itemDone
  extract_lets e
  have hack : TallyKept d e := by
    unfold e
    split
    · exact ackEntry_tallyKept _ _ _ _
    · exact TallyKept.refl
  exact TallyKept.ite hack hack.onChan

theorem itemNext_tallyKept (d : Dev) (c : Fin 8) (x : List Word) : TallyKept d (itemNext d c x) := by
  have hnext := chanNext_tallyKept d c x
  refine TallyKept.ite TallyKept.refl ?_
  split
  · next h => exact (hnext.snd h).trans (chanDone_tallyKept _ _ _)
  · next h => exact TallyKept.ite (chanEnd_tallyKept _ _ _) (hnext.snd h)

end Ladle

/-! ### The end of a descriptor, field by field (R361, R369 to R371) -/

/-! #### Words of the host window (R30, R90) -/

section Window

variable (d : Dev) (a b : Nat) (w : Word)

theorem length_byte4 : (byte4 w).length = 4 := rfl

/-- A word of the host window, by its four bytes. -/
theorem hwWord_congr {d e : Dev} {a b : Nat} (h : ∀ i < 4, hwByte e (b + i) = hwByte d (a + i)) : hwWord e b = hwWord d a := by
  have hbytes : hwBytes e b 4 = hwBytes d a 4 := List.map_congr_left fun i hi => h i (List.mem_range.1 hi)
  rw [hwWord, hbytes, hwWord]

theorem hwByte_hwPutWord (x : Nat) : hwByte (hwPutWord d a w) x = if a ≤ x ∧ x < a + 4 then ((byte4 w)[x - a]?).getD 0 else hwByte d x := by
  rw [hwPutWord, hwByte_hwPut, length_byte4]

/-- The host window holds what the bytes put there are. -/
theorem hwBytes_hwPut_self (bs : List Byte) : hwBytes (hwPut d a bs) a bs.length = bs := by
  refine List.ext_getElem (by simp [hwBytes]) fun i h1 h2 => ?_
  simp only [hwBytes, List.getElem_map, List.getElem_range]
  rw [hwByte_hwPut, if_pos (by omega), Nat.add_sub_cancel_left, List.getElem?_eq_getElem h2, Option.getD_some]

/-- A word written to the host window reads back. -/
theorem hwWord_hwPutWord_self : hwWord (hwPutWord d a w) a = w := by
  have hbytes : hwBytes (hwPutWord d a w) a 4 = byte4 w := hwBytes_hwPut_self d a (byte4 w)
  rw [hwWord, hbytes]
  refine Eq.trans ?_ (ofNat_leVal_byte4 w)
  rw [leVal, List.foldr_map]

theorem hwWord_hwPutWord_ne (h : b + 4 ≤ a ∨ a + 4 ≤ b) : hwWord (hwPutWord d a w) b = hwWord d b :=
  hwWord_congr fun i hi => by rw [hwByte_hwPutWord, if_neg (by omega)]

end Window

/-! #### What an end leaves (R361) -/

/-- The registers of a channel that an end writes. -/
def endRegs (c : Fin 8) : List Nat := [ChHead.addr c, ChStat.addr c, ChCtl.addr c]

/-- CHn.STAT after an end with a STATUS (R361, R369, R376). -/
def endStat (status : Nat) (w : Word) : Word :=
  let done := fset 6 4 status (fset 3 1 1 (fset 16 16 (fget 16 16 w + 1) w))
  if statusGoesOn status then (if status = 4 then fset 0 3 0 done else done) else fset 4 1 1 (fset 0 3 4 done)

/-- A channel after an end: no descriptor, and what it had taken is kept (R371). -/
def endChan (y : Chan) : Chan :=
  { y with desc := none, moved := 0, done := 0, nrec := 0, item := none, sent := 0, acc := [], kept := y.kept ++ y.item.toList, drained := false }

section End

variable (d : Dev) (c : Fin 8) (status : Nat)

theorem chanReg_distinct : ChHead.addr c ≠ ChStat.addr c ∧ ChHead.addr c ≠ ChCtl.addr c ∧ ChStat.addr c ≠ ChCtl.addr c := by
  simp [ChHead.addr, ChStat.addr, ChCtl.addr]

/-- An end changes registers, host window, channels and messages only. -/
theorem chanEnd_rest : ∃ r h w ch e, chanEnd d c status = { d with regs := r, hw := h, hwin := w, chan := ch, evq := e } := by
  obtain ⟨w1, h1⟩ := hwPut_eq d (headAddr d c + 24) (byte4 (BitVec.ofNat 32 ((chanOf d c).done % 2 ^ 24 + min (chanOf d c).nrec 255 * 2 ^ 24)))
  obtain ⟨w2, h2⟩ := hwPut_eq { d with hwin := w1 } (headAddr d c + 28) (byte4 (BitVec.ofNat 32 (status + 16)))
  unfold chanEnd
  simp only [hwPutWord, h1, h2]
  split
  · split <;> split <;> exact ⟨_, _, _, _, _, rfl⟩
  · exact ⟨_, _, _, _, _, rfl⟩

/-- An end is written as its updates in turn, its write-back apart. -/
theorem chanEnd_eq : ∃ w, chanEnd d c status =
    let x : Dev := { d with hwin := w }
    let y := (((x.put ChHead.HEAD c ((d.fld ChHead.HEAD c + 1) % 2 ^ (d.fld ChCfg.RSIZE c + 1))).inc ChStat.NDONE c).flag ChStat.DONE_SEEN c).put ChStat.LAST c status
    let z := onChan y c endChan
    if statusGoesOn status then
      let s := if status = 4 then (z.put ChStat.STATE c 0).clr ChCtl.STOP c else z
      if ((chanOf d c).desc.map dIrq).getD false then s.raise (646 + c.val) 0 else s
    else (((z.put ChStat.STATE c 4).flag ChStat.ERR_SEEN c).clr ChCtl.STOP c).raise (646 + c.val) status := by
  obtain ⟨w1, h1⟩ := hwPut_eq d (headAddr d c + 24) (byte4 (BitVec.ofNat 32 ((chanOf d c).done % 2 ^ 24 + min (chanOf d c).nrec 255 * 2 ^ 24)))
  obtain ⟨w2, h2⟩ := hwPut_eq { d with hwin := w1 } (headAddr d c + 28) (byte4 (BitVec.ofNat 32 (status + 16)))
  refine ⟨w2, ?_⟩
  unfold chanEnd
  simp only [hwPutWord, h1, h2]
  rfl

theorem chanEnd_regsKept : RegsKept (endRegs c) d (chanEnd d c status) := by
  intro a ha
  simp only [endRegs, List.mem_cons, List.not_mem_nil, or_false, not_or] at ha
  obtain ⟨hhead, hstat, hctl⟩ := ha
  obtain ⟨w, hw⟩ := chanEnd_eq d c status
  have hy (x : Dev) (v : Nat) : ((((x.put ChHead.HEAD c v).inc ChStat.NDONE c).flag ChStat.DONE_SEEN c).put ChStat.LAST c status).reg a = x.reg a := by
    rw [Dev.reg_put_ne _ _ _ _ _ hstat]
    refine (Dev.reg_put_ne _ _ _ _ _ hstat).trans ((Dev.reg_put_ne _ _ _ _ _ hstat).trans (Dev.reg_put_ne _ _ _ _ _ hhead))
  have hz (x : Dev) : ((x.put ChStat.STATE c 0).clr ChCtl.STOP c).reg a = x.reg a :=
    (Dev.reg_setReg_ne _ _ _ _ hctl).trans (Dev.reg_put_ne _ _ _ _ _ hstat)
  have he (x : Dev) : (((x.put ChStat.STATE c 4).flag ChStat.ERR_SEEN c).clr ChCtl.STOP c).reg a = x.reg a :=
    (Dev.reg_setReg_ne _ _ _ _ hctl).trans ((Dev.reg_put_ne _ _ _ _ _ hstat).trans (Dev.reg_put_ne _ _ _ _ _ hstat))
  rw [hw]
  dsimp only
  split
  · split <;> split
    · exact (hz _).trans (hy _ _)
    · exact hy _ _
    · exact (hz _).trans (hy _ _)
    · exact hy _ _
  · exact (he _).trans (hy _ _)

theorem chanEnd_stat : (chanEnd d c status).reg (ChStat.addr c) = endStat status (d.reg (ChStat.addr c)) := by
  obtain ⟨hhs, -, hsc⟩ := chanReg_distinct c
  obtain ⟨w, hw⟩ := chanEnd_eq d c status
  have hput (x : Dev) (f : RF (Fin 8)) (v : Nat) (hf : f.addr = ChStat.addr) :
      (x.put f c v).reg (ChStat.addr c) = fset f.lo f.len v (x.reg (ChStat.addr c)) := by
    rw [Dev.put, hf, Dev.reg_setReg_self]
  have hctl (x : Dev) : (x.clr ChCtl.STOP c).reg (ChStat.addr c) = x.reg (ChStat.addr c) := Dev.reg_setReg_ne _ _ _ _ hsc
  have hhead (x : Dev) (v : Nat) : (x.put ChHead.HEAD c v).reg (ChStat.addr c) = x.reg (ChStat.addr c) := Dev.reg_put_ne _ _ _ _ _ hhs.symm
  have hy (x : Dev) (v : Nat) : ((((x.put ChHead.HEAD c v).inc ChStat.NDONE c).flag ChStat.DONE_SEEN c).put ChStat.LAST c status).reg (ChStat.addr c) =
      fset 6 4 status (fset 3 1 1 (fset 16 16 (fget 16 16 (x.reg (ChStat.addr c)) + 1) (x.reg (ChStat.addr c)))) := by
    rw [hput _ ChStat.LAST _ rfl]
    refine congrArg _ ((hput _ ChStat.DONE_SEEN 1 rfl).trans (congrArg _ ((hput _ ChStat.NDONE _ rfl).trans ?_)))
    rw [Dev.fld, show ChStat.NDONE.addr c = ChStat.addr c from rfl, hhead]
    rfl
  rw [hw]
  unfold endStat
  dsimp only
  split
  · split <;> split
    · exact (hctl _).trans ((hput _ ChStat.STATE 0 rfl).trans (congrArg _ (hy _ _)))
    · exact hy _ _
    · exact (hctl _).trans ((hput _ ChStat.STATE 0 rfl).trans (congrArg _ (hy _ _)))
    · exact hy _ _
  · exact (hctl _).trans ((hput _ ChStat.ERR_SEEN 1 rfl).trans (congrArg _ ((hput _ ChStat.STATE 4 rfl).trans (congrArg _ (hy _ _)))))

theorem chanEnd_head : (chanEnd d c status).fld ChHead.HEAD c = (d.fld ChHead.HEAD c + 1) % 2 ^ (d.fld ChCfg.RSIZE c + 1) % 2048 := by
  obtain ⟨hhs, hhc, -⟩ := chanReg_distinct c
  obtain ⟨w, hw⟩ := chanEnd_eq d c status
  have hstat (x : Dev) (f : RF (Fin 8)) (v : Nat) (hf : f.addr = ChStat.addr) : (x.put f c v).reg (ChHead.addr c) = x.reg (ChHead.addr c) :=
    Dev.reg_put_ne _ _ _ _ _ (by rw [hf]; exact hhs)
  have hctl (x : Dev) : (x.clr ChCtl.STOP c).reg (ChHead.addr c) = x.reg (ChHead.addr c) := Dev.reg_setReg_ne _ _ _ _ hhc
  have hy (x : Dev) (v : Nat) : ((((x.put ChHead.HEAD c v).inc ChStat.NDONE c).flag ChStat.DONE_SEEN c).put ChStat.LAST c status).reg (ChHead.addr c) =
      (x.put ChHead.HEAD c v).reg (ChHead.addr c) :=
    (hstat _ ChStat.LAST _ rfl).trans ((hstat _ ChStat.DONE_SEEN 1 rfl).trans (hstat _ ChStat.NDONE _ rfl))
  have hreg : (chanEnd d c status).reg (ChHead.addr c) =
      (({ d with hwin := w } : Dev).put ChHead.HEAD c ((d.fld ChHead.HEAD c + 1) % 2 ^ (d.fld ChCfg.RSIZE c + 1))).reg (ChHead.addr c) := by
    rw [hw]
    dsimp only
    split
    · split <;> split
      · exact (hctl _).trans ((hstat _ ChStat.STATE 0 rfl).trans (hy _ _))
      · exact hy _ _
      · exact (hctl _).trans ((hstat _ ChStat.STATE 0 rfl).trans (hy _ _))
      · exact hy _ _
    · exact (hctl _).trans ((hstat _ ChStat.ERR_SEEN 1 rfl).trans ((hstat _ ChStat.STATE 4 rfl).trans (hy _ _)))
  refine Eq.trans (congrArg (fget ChHead.HEAD.lo ChHead.HEAD.len) hreg) ?_
  exact Dev.fld_put_self _ ChHead.HEAD c _ (by decide)

theorem chanEnd_chan : (chanEnd d c status).chan = vmod d.chan c endChan := by
  obtain ⟨w, hw⟩ := chanEnd_eq d c status
  rw [hw]
  dsimp only
  split
  · split <;> split <;> rfl
  · rfl

theorem chanEnd_chanOf : chanOf (chanEnd d c status) c = endChan (chanOf d c) := by
  rw [chanOf, chanEnd_chan, vget_vmod_self, chanOf]

theorem chanEnd_evq : (chanEnd d c status).evq =
    if statusGoesOn status then (if ((chanOf d c).desc.map dIrq).getD false then (d.raise (646 + c.val) 0).evq else d.evq)
    else (d.raise (646 + c.val) status).evq := by
  obtain ⟨w, hw⟩ := chanEnd_eq d c status
  rw [hw]
  dsimp only
  split
  · split <;> split <;> rfl
  · rfl

theorem chanEnd_hwin : (chanEnd d c status).hwin =
    (hwPutWord (hwPutWord d (headAddr d c + 24) (BitVec.ofNat 32 ((chanOf d c).done % 2 ^ 24 + min (chanOf d c).nrec 255 * 2 ^ 24))) (headAddr d c + 28)
      (BitVec.ofNat 32 (status + 16))).hwin := by
  unfold chanEnd
  dsimp only
  split
  · split <;> split <;> rfl
  · rfl

theorem hwWord_of_hwin {d e : Dev} (h : e.hwin = d.hwin) (o : Nat) : hwWord e o = hwWord d o :=
  hwWord_congr fun i _ => by rw [hwByte, h, hwByte]

/-- Words 6 and 7 of the descriptor are written back (R361). -/
theorem chanEnd_words : hwWord (chanEnd d c status) (headAddr d c + 24) =
      BitVec.ofNat 32 ((chanOf d c).done % 2 ^ 24 + min (chanOf d c).nrec 255 * 2 ^ 24) ∧
    hwWord (chanEnd d c status) (headAddr d c + 28) = BitVec.ofNat 32 (status + 16) := by
  refine ⟨?_, ?_⟩ <;> rw [hwWord_of_hwin (chanEnd_hwin d c status)]
  · rw [hwWord_hwPutWord_ne _ _ _ _ (.inl (by omega)), hwWord_hwPutWord_self]
  · rw [hwWord_hwPutWord_self]

end End

/-! #### The fields of STAT (R376) -/

section Fields

variable (d : Dev) (c : Fin 8) (status : Nat)

theorem chanEnd_fld {f : RF (Fin 8)} (hf : f.addr = ChStat.addr) :
    (chanEnd d c status).fld f c = fget f.lo f.len (endStat status (d.reg (ChStat.addr c))) := by
  rw [Dev.fld, hf, chanEnd_stat]

theorem chanEnd_last (h : status < 16) : (chanEnd d c status).fld ChStat.LAST c = status := by
  rw [chanEnd_fld _ _ _ rfl]
  unfold endStat
  dsimp only [ChStat.LAST]
  split
  · split <;> simp (disch := decide) [fget_fset_ne, Nat.mod_eq_of_lt h]
  · simp (disch := decide) [fget_fset_ne, Nat.mod_eq_of_lt h]

theorem chanEnd_ndone : (chanEnd d c status).fld ChStat.NDONE c = (d.fld ChStat.NDONE c + 1) % 65536 := by
  rw [chanEnd_fld _ _ _ rfl]
  unfold endStat
  dsimp only [ChStat.NDONE, Dev.fld]
  split
  · split <;> simp (disch := decide) [fget_fset_ne]
  · simp (disch := decide) [fget_fset_ne]

theorem chanEnd_doneSeen : (chanEnd d c status).bit ChStat.DONE_SEEN c = true := by
  rw [Dev.bit, chanEnd_fld _ _ _ rfl]
  unfold endStat
  dsimp only [ChStat.DONE_SEEN]
  split
  · split <;> simp (disch := decide) [fget_fset_ne]
  · simp (disch := decide) [fget_fset_ne]

theorem chanEnd_state : (chanEnd d c status).fld ChStat.STATE c = if statusGoesOn status then (if status = 4 then 0 else d.fld ChStat.STATE c) else 4 := by
  rw [chanEnd_fld _ _ _ rfl]
  unfold endStat
  dsimp only [ChStat.STATE, Dev.fld]
  split
  · split <;> simp (disch := decide) [fget_fset_ne]
  · simp (disch := decide) [fget_fset_ne]

theorem chanEnd_errSeen : (chanEnd d c status).bit ChStat.ERR_SEEN c = if statusGoesOn status then d.bit ChStat.ERR_SEEN c else true := by
  rw [Dev.bit, chanEnd_fld _ _ _ rfl]
  unfold endStat
  dsimp only [ChStat.ERR_SEEN, Dev.bit, Dev.fld]
  split
  · split <;> simp (disch := decide) [fget_fset_ne]
  · simp (disch := decide)

end Fields

/-! ### A descriptor ends and its channel goes on (R361, R372, R375) -/

/-- What a completed descriptor leaves, whether the channel halts, stops or goes on idle. -/
structure Ended (d : Dev) (c : Fin 8) (status : Nat) (t : Dev) : Prop where
  last : t.fld ChStat.LAST c = status
  ndone : t.fld ChStat.NDONE c = (d.fld ChStat.NDONE c + 1) % 65536
  doneSeen : t.bit ChStat.DONE_SEEN c = true
  errSeen : t.bit ChStat.ERR_SEEN c = if statusGoesOn status then d.bit ChStat.ERR_SEEN c else true
  head : t.fld ChHead.HEAD c = (d.fld ChHead.HEAD c + 1) % 2 ^ (d.fld ChCfg.RSIZE c + 1) % 2048
  word6 : hwWord t (headAddr d c + 24) = BitVec.ofNat 32 ((chanOf d c).done % 2 ^ 24 + min (chanOf d c).nrec 255 * 2 ^ 24)
  word7 : hwWord t (headAddr d c + 28) = BitVec.ofNat 32 (status + 16)
  desc : (chanOf t c).desc = none
  kept : (chanOf t c).kept = (chanOf d c).kept ++ (chanOf d c).item.toList
  evq : t.evq = if statusGoesOn status then (if ((chanOf d c).desc.map dIrq).getD false then (d.raise (646 + c.val) 0).evq else d.evq)
    else (d.raise (646 + c.val) status).evq
  regs : RegsKept (endRegs c) d t
  rest : ∃ r h w ch e, t = { d with regs := r, hw := h, hwin := w, chan := ch, evq := e }

/-- The head of the ring is the last descriptor that TAIL leaves (R360). -/
abbrev LastOne (d : Dev) (c : Fin 8) : Prop :=
  d.fld ChCfg.RSIZE c ≤ 10 ∧ d.fld ChTail.TAIL c % 2 ^ (d.fld ChCfg.RSIZE c + 1) = (d.fld ChHead.HEAD c + 1) % 2 ^ (d.fld ChCfg.RSIZE c + 1)

/-- A channel that has come to the end of its ring (R361): IDLE, to run again at the next TAIL. -/
def drain (d : Dev) (c : Fin 8) : Dev :=
  onChan ((d.put ChStat.STATE c 1).put ChStat.STATE c 0) c fun y => { y with drained := true }

section Ended

variable {d e t : Dev} {c : Fin 8} {status : Nat}

theorem chanEnd_ended (d : Dev) (c : Fin 8) (h : status < 16) : Ended d c status (chanEnd d c status) where
  last := chanEnd_last d c status h
  ndone := chanEnd_ndone d c status
  doneSeen := chanEnd_doneSeen d c status
  errSeen := chanEnd_errSeen d c status
  head := chanEnd_head d c status
  word6 := (chanEnd_words d c status).1
  word7 := (chanEnd_words d c status).2
  desc := by rw [chanEnd_chanOf, endChan]
  kept := by rw [chanEnd_chanOf, endChan]
  evq := chanEnd_evq d c status
  regs := chanEnd_regsKept d c status
  rest := chanEnd_rest d c status

theorem RegsKept.trans {as : List Nat} {x y z : Dev} (h1 : RegsKept as x y) (h2 : RegsKept as y z) : RegsKept as x z :=
  fun a ha => (h2 a ha).trans (h1 a ha)

theorem RegsKept.fld {as : List Nat} {x y : Dev} {ι : Type} {f : RF ι} {i : ι} (h : RegsKept as x y) (ha : f.addr i ∉ as) : y.fld f i = x.fld f i :=
  congrArg (fget f.lo f.len) (h _ ha)

theorem RegsKept.bit {as : List Nat} {x y : Dev} {ι : Type} {f : RF ι} {i : ι} (h : RegsKept as x y) (ha : f.addr i ∉ as) : y.bit f i = x.bit f i := by
  rw [Dev.bit, h.fld ha, Dev.bit]

theorem regsKept_put {as : List Nat} {x : Dev} {ι : Type} {f : RF ι} {i : ι} {v : Nat} (ha : f.addr i ∈ as) : RegsKept as x (x.put f i v) :=
  fun _ hn => Dev.reg_put_ne _ _ _ _ _ fun he => hn (he ▸ ha)

/-- The settings of a channel's ring are not among what an end writes. -/
theorem ring_notin_endRegs (c e : Fin 8) : ChCfg.addr e ∉ endRegs c ∧ ChTail.addr e ∉ endRegs c ∧ ChBytes.addr e ∉ endRegs c := by
  simp only [endRegs, List.mem_cons, List.not_mem_nil, or_false, ChCfg.addr, ChTail.addr, ChBytes.addr, ChHead.addr, ChStat.addr, ChCtl.addr]
  omega

theorem drain_regsKept (d : Dev) (c : Fin 8) : RegsKept [ChStat.addr c] d (drain d c) :=
  (regsKept_put (f := ChStat.STATE) (by simp [ChStat.STATE])).trans (regsKept_put (f := ChStat.STATE) (by simp [ChStat.STATE]))

theorem drain_state (d : Dev) (c : Fin 8) : (drain d c).fld ChStat.STATE c = 0 :=
  Dev.fld_put_self _ ChStat.STATE c 0 (by decide)

theorem drain_fld (d : Dev) (c : Fin 8) {f : RF (Fin 8)} (hf : 3 ≤ f.lo) : (drain d c).fld f c = d.fld f c :=
  (Dev.fld_put_bits _ ChStat.STATE c f c 0 (by decide) (.inl hf)).trans (Dev.fld_put_bits _ ChStat.STATE c f c 1 (by decide) (.inl hf))

theorem drain_chanOf (d : Dev) (c : Fin 8) : chanOf (drain d c) c = { chanOf d c with drained := true } := vget_vmod_self _ _ _

/-- A channel that finds its ring empty after the descriptor has ended. -/
theorem Ended.drain (h : Ended d c status e) : Ended d c status (Machine.drain e c) := by
  have hbit (f : RF (Fin 8)) (hf : 3 ≤ f.lo) : (Machine.drain e c).bit f c = e.bit f c := by rw [Dev.bit, drain_fld e c hf, Dev.bit]
  have hwin (o : Nat) : hwWord (Machine.drain e c) o = hwWord e o := hwWord_of_hwin rfl o
  obtain ⟨r, hw, w, ch, q, hrest⟩ := h.rest
  exact {
    last := (drain_fld e c (by decide)).trans h.last
    ndone := (drain_fld e c (by decide)).trans h.ndone
    doneSeen := (hbit _ (by decide)).trans h.doneSeen
    errSeen := (hbit _ (by decide)).trans h.errSeen
    head := (RegsKept.fld (drain_regsKept e c) (by simp [ChHead.HEAD, ChHead.addr, ChStat.addr])).trans h.head
    word6 := (hwin _).trans h.word6
    word7 := (hwin _).trans h.word7
    desc := by rw [drain_chanOf, h.desc]
    kept := by rw [drain_chanOf, h.kept]
    evq := h.evq
    regs := h.regs.trans fun a ha => drain_regsKept e c a fun hin => ha (by simp only [endRegs, List.mem_cons] at hin ⊢; tauto)
    rest := ⟨_, _, w, _, q, by rw [hrest]; rfl⟩ }

/-- The ring after its last descriptor is empty. -/
theorem Ended.ringEmpty (h : Ended d c status t) (hlast : LastOne d c) :
    t.fld ChHead.HEAD c % 2 ^ (t.fld ChCfg.RSIZE c + 1) = t.fld ChTail.TAIL c % 2 ^ (t.fld ChCfg.RSIZE c + 1) := by
  obtain ⟨hcfg, htail, -⟩ := ring_notin_endRegs c c
  obtain ⟨hsize, hring⟩ := hlast
  have hpow : 2 ^ (d.fld ChCfg.RSIZE c + 1) ∣ 2048 := pow_dvd_pow 2 (show d.fld ChCfg.RSIZE c + 1 ≤ 11 by omega)
  rw [h.regs.fld (f := ChCfg.RSIZE) hcfg, h.regs.fld (f := ChTail.TAIL) htail, h.head, hring, Nat.mod_mod_of_dvd _ hpow, Nat.mod_mod]

/-- A channel that goes on at an empty ring. -/
theorem chanGo_empty (h : e.fld ChHead.HEAD c % 2 ^ (e.fld ChCfg.RSIZE c + 1) = e.fld ChTail.TAIL c % 2 ^ (e.fld ChCfg.RSIZE c + 1)) :
    chanGo e c = drain e c := by
  have hkept : RegsKept [ChStat.addr c] e (e.put ChStat.STATE c 1) := regsKept_put (f := ChStat.STATE) (by simp [ChStat.STATE])
  have hhead : (e.put ChStat.STATE c 1).fld ChHead.HEAD c = e.fld ChHead.HEAD c := hkept.fld (by simp [ChHead.HEAD, ChHead.addr, ChStat.addr])
  have hsize : (e.put ChStat.STATE c 1).fld ChCfg.RSIZE c = e.fld ChCfg.RSIZE c := hkept.fld (by simp [ChCfg.RSIZE, ChCfg.addr, ChStat.addr])
  have htail : (e.put ChStat.STATE c 1).fld ChTail.TAIL c = e.fld ChTail.TAIL c := hkept.fld (by simp [ChTail.TAIL, ChTail.addr, ChStat.addr])
  unfold chanGo chanHead
  rw [if_pos (by rw [hhead, hsize, htail]; exact h)]
  rfl

/-- The last descriptor of a ring completes, and its channel is IDLE. -/
theorem chanDone_lastOne (hstate : d.fld ChStat.STATE c ≠ 3) (hlast : LastOne d c) (h : status < 16) :
    chanDone d c status = drain (chanEnd d c status) c := by
  rw [chanDone, if_pos hstate, chanGo_empty ((chanEnd_ended d c h).ringEmpty hlast)]

theorem Ended.failDue (h : Ended d c status t) : t.failDue = d.failDue := by
  obtain ⟨r, hw, w, ch, e, rfl⟩ := h.rest
  rfl

theorem Ended.stage (h : Ended d c status t) : t.stage = d.stage := by
  obtain ⟨r, hw, w, ch, e, rfl⟩ := h.rest
  rfl

theorem Ended.qGet (h : Ended d c status t) (n : Fin 4) (q : Fin 64) : qGet t n q = qGet d n q := by
  obtain ⟨r, hw, w, ch, e, rfl⟩ := h.rest
  rfl

theorem Ended.errKept (h : Ended d c status t) (hgo : statusGoesOn status = true) : t.bit ChStat.ERR_SEEN c = d.bit ChStat.ERR_SEEN c :=
  h.errSeen.trans (if_pos hgo)

theorem failCheck_of_none (h : d.failDue = none) : failCheck d = d := by
  simp [failCheck, h]

end Ended

/-! ### The commands of Ladle's units (R361, R364, R365, R369) -/

/-- The turn has passed to the channel after c (R368). -/
def turned (d : Dev) (c : Fin 8) : Dev := { d with turn := c + 1 }

section Commands

variable {d t : Dev} {c : Fin 8} {x : List Word} (hu : unitChip ∉ d.undef)
include hu

theorem gives_ladleUnitDone_idle {hd : List Byte} (h : (chanOf d c).desc = none ∨ (d.fld ChStat.STATE c ≠ 1 ∧ d.fld ChStat.STATE c ≠ 3) ∨ ladleTurn d c ≠ true) :
    Gives (.ladleUnitDone c hd) d d := by
  intro rest
  show execLadleUnitDone c hd ⟨rest, d⟩ = _
  unfold execLadleUnitDone onChip onUnit onDev
  rw [if_neg hu]
  cases hdesc : (chanOf d c).desc with
  | none => simp [hdesc]
  | some y =>
    rcases h with h | ⟨h1, h3⟩ | h
    · exact absurd (hdesc.symm.trans h) (by simp)
    · simp [hdesc, h1, h3]
    · simp [hdesc, h]

/-- A unit whose turn has come is carried out. -/
theorem gives_ladleUnitDone {hd : List Byte} (hx : (chanOf d c).desc = some x) (hst : d.fld ChStat.STATE c = 1 ∨ d.fld ChStat.STATE c = 3)
    (hturn : ladleTurn d c = true) : Gives (.ladleUnitDone c hd) d (failCheck (ladleUnit (turned d c) c x hd)) := by
  intro rest
  show execLadleUnitDone c hd ⟨rest, d⟩ = _
  unfold execLadleUnitDone onChip onUnit onDev
  rw [if_neg hu]
  rcases hst with h | h <;> simp [hx, h, hturn, turned]

theorem gives_ladleItemAvailable_idle (h : (chanOf d c).desc = none ∨ d.fld ChStat.STATE c ≠ 2) : Gives (.ladleItemAvailable c) d d := by
  intro rest
  show execLadleItemAvailable c ⟨rest, d⟩ = _
  unfold execLadleItemAvailable onChip onUnit onDev
  rw [if_neg hu]
  cases hdesc : (chanOf d c).desc with
  | none => simp [hdesc]
  | some y =>
    have hst : d.fld ChStat.STATE c ≠ 2 := h.resolve_left (by simp [hdesc])
    simp [hdesc, hst]

/-- A waiting channel looks for its next item. -/
theorem gives_ladleItemAvailable (hx : (chanOf d c).desc = some x) (hst : d.fld ChStat.STATE c = 2) (hnext : chanNext d c x = (false, t))
    (hf : t.failDue = none) : Gives (.ladleItemAvailable c) d t := by
  intro rest
  show execLadleItemAvailable c ⟨rest, d⟩ = _
  unfold execLadleItemAvailable onChip onUnit onDev
  rw [if_neg hu]
  simp [hx, hst, hnext, failCheck_of_none hf]

theorem gives_gatherExpire : Gives (.gatherExpire c) d
    (if d.fld ChStat.STATE c = 2 ∧ (chanOf d c).moved ≠ 0 then failCheck (chanDone d c 0) else d) := by
  intro rest
  show execGatherExpire c ⟨rest, d⟩ = _
  unfold execGatherExpire onChip onUnit onDev
  rw [if_neg hu]

theorem gives_descriptorTimeout : Gives (.descriptorTimeout c) d
    (if (chanOf d c).desc.isSome && !(d.fld ChStat.STATE c == 2 && (chanOf d c).moved == 0) then chanEnd d c 1 else d) := by
  intro rest
  show execDescriptorTimeout c ⟨rest, d⟩ = _
  unfold execDescriptorTimeout onChip onUnit onDev
  rw [if_neg hu]

theorem gives_pcieError_idle (h : ∀ y, (chanOf d c).desc = some y → usesHost y = false ∨ d.fld ChStat.STATE c = 2) : Gives (.pcieError c) d d := by
  intro rest
  show execPcieError c ⟨rest, d⟩ = _
  unfold execPcieError onChip onUnit onDev
  rw [if_neg hu]
  cases hdesc : (chanOf d c).desc with
  | none => simp [hdesc]
  | some y => rcases h y hdesc with hy | hy <;> simp [hdesc, hy]

theorem gives_pcieError (hx : (chanOf d c).desc = some x) (hhost : usesHost x = true) (hst : d.fld ChStat.STATE c ≠ 2) :
    Gives (.pcieError c) d (chanEnd d c 2) := by
  intro rest
  show execPcieError c ⟨rest, d⟩ = _
  unfold execPcieError onChip onUnit onDev
  rw [if_neg hu]
  simp [hx, hhost, hst]

end Commands

/-! ### A queue whose copies agree (R311, R317) -/

section Queues

variable {d : Dev} {n : Fin 4} {q : Fin 64}

theorem touchQ_agree (h : (d.r n).badQ = []) : touchQ d n q = d := by
  simp [touchQ, h]

theorem touchFree_agree (h : (d.r n).badFree = false) : touchFree d n = d := by
  simp [touchFree, h]

theorem qGet_onQ_self (d : Dev) (n : Fin 4) (q : Fin 64) (u : Queue → Queue) : qGet (onQ d n q u) n q = u (qGet d n q) := by
  rw [qGet, onQ, Dev.r_onR_self, vget_vmod_self, qGet]

/-- What the return of a cell leaves, the return of cells leaves. -/
theorem freeCells_kept {σ : Type} (S : Dev → σ) (hS : ∀ z c, S (freeCell z n c) = S z) (d : Dev) (cs : List Nat) :
    S (freeCells d n cs) = S d := by
  unfold freeCells
  induction cs generalizing d with
  | nil => rfl
  | cons c cs ih => exact (ih _).trans (hS d c)

theorem qGet_onR (m : Fin 4) (u : Rgn → Rgn) (hu : ∀ r, (u r).queue = r.queue) (d : Dev) : qGet (d.onR n u) m q = qGet d m q := by
  unfold qGet
  rcases eq_or_ne m n with rfl | hne
  · rw [Dev.r_onR_self, hu]
  · rw [Dev.r_onR_ne _ _ _ _ hne]

theorem qGet_freeCell (d : Dev) (c : Nat) (m : Fin 4) (q : Fin 64) : qGet (freeCell d n c) m q = qGet d m q := by
  show qGet (d.free.2.onR n _) m q = qGet d.free.2 m q
  exact qGet_onR _ _ (fun _ => by rfl) _

theorem qGet_freeCells (d : Dev) (cs : List Nat) (m : Fin 4) (q : Fin 64) : qGet (freeCells d n cs) m q = qGet d m q :=
  freeCells_kept (fun z => qGet z m q) (fun z c => qGet_freeCell z c m q) d cs

end Queues

/-! ### The end of a descriptor with an error (R365, R369) -/

/-- A channel halted with a STATUS: what the statement asks of it. -/
def Halted (d : Dev) (c : Fin 8) (status : Nat) (t : Dev) : Prop :=
  t.fld ChStat.STATE c = 4 ∧ t.fld ChStat.LAST c = status ∧ t.bit ChStat.ERR_SEEN c = true ∧
  t.bit ChStat.DONE_SEEN c = true ∧ t.fld ChStat.NDONE c = (d.fld ChStat.NDONE c + 1) % 65536 ∧
  t.fld ChHead.HEAD c = (d.fld ChHead.HEAD c + 1) % 2 ^ (d.fld ChCfg.RSIZE c + 1) % 2048 ∧ (chanOf t c).desc = none ∧
  (chanOf t c).kept = (chanOf d c).kept ++ (chanOf d c).item.toList ∧ t.evq = (d.raise (646 + c.val) status).evq ∧
  hwWord t (headAddr d c + 24) = BitVec.ofNat 32 ((chanOf d c).done % 2 ^ 24 + min (chanOf d c).nrec 255 * 2 ^ 24) ∧
  hwWord t (headAddr d c + 28) = BitVec.ofNat 32 (status + 16)

section Halts

variable {d : Dev} {c : Fin 8} {status : Nat}

theorem chanEnd_halted (hs : status < 16) (hgo : statusGoesOn status = false) : Halted d c status (chanEnd d c status) := by
  have h := chanEnd_ended d c hs
  refine ⟨?_, h.last, ?_, h.doneSeen, h.ndone, h.head, h.desc, h.kept, ?_, h.word6, h.word7⟩
  · simp [chanEnd_state, hgo]
  · simp [h.errSeen, hgo]
  · simp [h.evq, hgo]

/-- An end with an error needs no more at the end of the command. -/
theorem failCheck_chanEnd (hf : d.failDue = none) (hs : status < 16) : failCheck (chanEnd d c status) = chanEnd d c status :=
  failCheck_of_none ((chanEnd_ended d c hs).failDue.trans hf)

/-- The turn of the next channel and free values taken stand beside the end of a descriptor. -/
theorem completes_halted {i : Instr} {turn : Fin 8} {fresh : Nat}
    (hg : Gives i d (failCheck (chanEnd { d with turn := turn, fresh := fresh } c status))) (hf : d.failDue = none) (hs : status < 16)
    (hgo : statusGoesOn status = false) : Completes i d (Halted d c status) := by
  rw [failCheck_chanEnd (d := { d with turn := turn, fresh := fresh }) hf hs] at hg
  exact hg.completes (chanEnd_halted (d := { d with turn := turn, fresh := fresh }) hs hgo)

end Halts

/-! ### What one unit of a byte source does (R364, R368) -/

/-- The bytes of a unit of a byte source, k the number that its free size is made from. -/
def unitSize (d : Dev) (c : Fin 8) (x : List Word) (hd : List Byte) (k : Nat) : Nat :=
  let left := chanLeft (chanOf d c) x
  let top := unitMax d c x
  if dSk x = 0 then (if dDk x = 3 then (if hd.length < 32 then 0 else 32) else min left (min (4 * top) (hd.length / 4 * 4)))
  else if dDk x = 3 then 32 else min left (4 * (1 + Config.freeNat k % top))

/-- A unit of n bytes once it is written: the descriptor ends with its last byte, a STOP ends the channel (R361, R372). -/
def unitWritten (d : Dev) (c : Fin 8) (x : List Word) (n : Nat) (src : List Byte) : Dev :=
  let w := destWrite d c x (wordsOf src)
  if chanGone w c then w
  else
    let m := onChan w c fun y => { y with moved := y.moved + n }
    if n = chanLeft (chanOf d c) x then lastByte m c x
    else if m.fld ChStat.STATE c = 3 then chanEnd m c 4
    else m

/-- A free value has been taken (assumption log 1). -/
def freeTaken (d : Dev) : Dev := { d with fresh := d.fresh + 1 }

theorem unitBytes_eq (d : Dev) (c : Fin 8) (x : List Word) (hd : List Byte) : unitBytes d c x hd =
    let e := freeTaken d
    let n := unitSize d c x hd d.fresh
    if n = 0 ∨ (dDk x = 3 ∧ segFull e ⟨dDaddr x % 16, Nat.mod_lt _ (by omega)⟩) then (if d.fld ChStat.STATE c = 3 then chanEnd e c 4 else e)
    else if stageRefuses e x then chanEnd e c 8
    else unitWritten e c x n (if dSk x = 0 then hd.take n else hwBytes d (dSaddr x + (chanOf d c).moved) n) := rfl

/-- The bounds of a unit's size (R368). -/
theorem unitMax_bounds (d : Dev) (c : Fin 8) (x : List Word) :
    32 ≤ unitMax d c x ∧ unitMax d c x ≤ 64 ∧ 4 * unitMax d c x ≤ 128 * 2 ^ (vget d.fn (chanFn d c)).maxPay.val := by
  unfold unitMax
  have hpay : 1 ≤ 2 ^ (vget d.fn (chanFn d c)).maxPay.val := Nat.one_le_two_pow
  have hread : 1 ≤ 2 ^ (vget d.fn (chanFn d c)).maxRead.val := Nat.one_le_two_pow
  dsimp only
  split <;> omega

section Units

variable {d : Dev} {c : Fin 8} {x : List Word} {hd : List Byte}

theorem ladleUnit_bytes (hskip : shadowSkips d x = false) (hfn : usesHost x = true → fnUsable d (chanFn d c) = true) (hk : dSk x < 2) :
    ladleUnit d c x hd = unitBytes d c x hd := by
  have hhost : (usesHost x && !fnUsable d (chanFn d c)) = false := by
    cases hu : usesHost x
    · rfl
    · simp [hfn hu]
  have hitem : itemKind x = false := by
    simp only [itemKind, decide_eq_false_iff_not]
    omega
  simp [ladleUnit, hskip, hhost, hitem]

theorem ladleUnit_item (hskip : shadowSkips d x = false) (hfn : usesHost x = true → fnUsable d (chanFn d c) = true) (hk : 2 ≤ dSk x) :
    ladleUnit d c x hd = unitItem d c x := by
  have hhost : (usesHost x && !fnUsable d (chanFn d c)) = false := by
    cases hu : usesHost x
    · rfl
    · simp [hfn hu]
  have hitem : itemKind x = true := by
    simpa only [itemKind, decide_eq_true_eq] using hk
  simp [ladleUnit, hskip, hhost, hitem]

theorem ladleUnit_noFn (hskip : shadowSkips d x = false) (hhost : usesHost x = true) (hfn : fnUsable d (chanFn d c) = false) :
    ladleUnit d c x hd = chanEnd d c 5 := by
  simp [ladleUnit, hskip, hhost, hfn]

/-- STAGE refuses what a unit brings (R364, R369). -/
theorem unitBytes_refused (hsk : dSk x = 0) (hdk : dDk x = 4) (hlen : 4 ≤ hd.length) (hleft : dLen x - (chanOf d c).moved ≠ 0)
    (href : stageRefuses d x = true) : unitBytes d c x hd = chanEnd (freeTaken d) c 8 := by
  have hmax := (unitMax_bounds d c x).1
  have hsize : unitSize d c x hd d.fresh ≠ 0 := by
    simp only [unitSize, hsk, hdk, chanLeft, if_true]
    rw [if_neg (by omega)]
    omega
  have href' : stageRefuses (freeTaken d) x = true := href
  rw [unitBytes_eq]
  simp [hsize, hdk, href']

end Units

/-! ### The ends of Ladle's descriptors (R361, R365, R369, R373) -/

section Ends

variable {d : Dev} {c : Fin 8} {x : List Word} (hu : unitChip ∉ d.undef) (hx : (chanOf d c).desc = some x)
include hu hx

theorem completes_descriptorTimeout (h : ¬ (d.fld ChStat.STATE c = 2 ∧ (chanOf d c).moved = 0)) :
    Completes (.descriptorTimeout c) d (Halted d c 1) := by
  have hg := gives_descriptorTimeout (c := c) hu
  rw [if_pos (by simpa [hx, imp_iff_not_or] using h)] at hg
  exact hg.completes (chanEnd_halted (by decide) rfl)

theorem completes_pcieError (hhost : usesHost x = true) (hst : d.fld ChStat.STATE c ≠ 2) : Completes (.pcieError c) d (Halted d c 2) :=
  (gives_pcieError hu hx hhost hst).completes (chanEnd_halted (by decide) rfl)

variable (hf : d.failDue = none)
include hf

theorem completes_noFunction {hd : List Byte} (hhost : usesHost x = true) (hfn : fnUsable d (chanFn d c) = false)
    (hst : d.fld ChStat.STATE c = 1 ∨ d.fld ChStat.STATE c = 3) (hturn : ladleTurn d c = true) (hskip : shadowSkips d x = false) :
    Completes (.ladleUnitDone c hd) d (Halted d c 5) := by
  have hg := gives_ladleUnitDone (hd := hd) hu hx hst hturn
  rw [ladleUnit_noFn (d := turned d c) hskip hhost hfn] at hg
  exact completes_halted (fresh := d.fresh) hg hf (by decide) rfl

theorem completes_stageRefused {hd : List Byte} (hsk : dSk x = 0) (hdk : dDk x = 4) (hfn : fnUsable d (chanFn d c) = true)
    (hst : d.fld ChStat.STATE c = 1 ∨ d.fld ChStat.STATE c = 3) (hturn : ladleTurn d c = true) (hskip : shadowSkips d x = false)
    (hlen : 4 ≤ hd.length) (hleft : dLen x - (chanOf d c).moved ≠ 0)
    (href : d.stwRun = false ∨ (vget d.stage (stageSlot x)).isSome = true ∨ 4096 < dLen x) :
    Completes (.ladleUnitDone c hd) d (Halted d c 8) := by
  have hrefuses : stageRefuses d x = true := by
    rcases href with h | h | h <;> simp [stageRefuses, hdk, h]
  have hg := gives_ladleUnitDone (hd := hd) hu hx hst hturn
  rw [ladleUnit_bytes (d := turned d c) hskip (fun _ => hfn) (by omega), unitBytes_refused (d := turned d c) hsk hdk hlen hleft hrefuses] at hg
  exact completes_halted hg hf (by decide) rfl

theorem completes_gatherExpire (hst : d.fld ChStat.STATE c = 2) (hmoved : (chanOf d c).moved ≠ 0) (hlast : LastOne d c) :
    Completes (.gatherExpire c) d fun t => t.fld ChStat.LAST c = 0 ∧ t.fld ChStat.STATE c = 0 ∧
      (chanOf t c).drained = true ∧ t.fld ChStat.NDONE c = (d.fld ChStat.NDONE c + 1) % 65536 ∧
      t.evq = if dIrq x then (d.raise (646 + c.val) 0).evq else d.evq := by
  have hg := gives_gatherExpire (c := c) hu
  have h : Ended d c 0 (drain (chanEnd d c 0) c) := (chanEnd_ended d c (by decide)).drain
  rw [if_pos ⟨hst, hmoved⟩, chanDone_lastOne (by omega) hlast (by decide), failCheck_of_none (h.failDue.trans hf)] at hg
  refine hg.completes ⟨h.last, drain_state _ _, ?_, h.ndone, ?_⟩
  · rw [drain_chanOf]
  · simpa [hx, statusGoesOn] using h.evq

theorem completes_shadowSkip {hd : List Byte} (hskip : shadowSkips d x = true) (hturn : ladleTurn d c = true) (hst : d.fld ChStat.STATE c = 1)
    (hlast : LastOne d c) : Completes (.ladleUnitDone c hd) d fun t =>
      t.fld ChStat.LAST c = 7 ∧ t.fld ChStat.STATE c = 0 ∧ t.fld ChStat.NDONE c = (d.fld ChStat.NDONE c + 1) % 65536 ∧
      t.fld ChBytes.BYTES c = d.fld ChBytes.BYTES c ∧ (∀ n q, qGet t n q = qGet d n q) ∧ t.stage = d.stage := by
  have hg := gives_ladleUnitDone (hd := hd) hu hx (.inl hst) hturn
  let e := shadowCount (turned d c) x
  have hcount : RegsKept [UpdCnt.addr ()] d e ∧ e.failDue = none ∧ (∀ n q, qGet e n q = qGet d n q) ∧ e.stage = d.stage := by
    unfold e shadowCount
    split
    · exact ⟨regsKept_put (f := UpdCnt.IGN) (by simp [UpdCnt.IGN]), hf, fun _ _ => rfl, rfl⟩
    · exact ⟨fun _ _ => rfl, hf, fun _ _ => rfl, rfl⟩
  obtain ⟨hregs, hfail, hqueue, hstage⟩ := hcount
  have hfld (f : RF (Fin 8)) (ha : f.addr c < 0x21000) : e.fld f c = d.fld f c :=
    hregs.fld (by simp only [UpdCnt.addr, List.mem_singleton]; omega)
  have hlast' : LastOne e c := by
    unfold LastOne
    rw [hfld ChCfg.RSIZE (by simp [ChCfg.RSIZE, ChCfg.addr]; omega), hfld ChTail.TAIL (by simp [ChTail.TAIL, ChTail.addr]; omega),
      hfld ChHead.HEAD (by simp [ChHead.HEAD, ChHead.addr]; omega)]
    exact hlast
  have hst' : e.fld ChStat.STATE c ≠ 3 := by
    rw [hfld ChStat.STATE (by simp [ChStat.STATE, ChStat.addr]; omega)]
    omega
  have hunit : ladleUnit (turned d c) c x hd = chanDone e c 7 := if_pos hskip
  have h : Ended e c 7 (drain (chanEnd e c 7) c) := (chanEnd_ended e c (by decide)).drain
  rw [hunit, chanDone_lastOne hst' hlast' (by decide), failCheck_of_none (h.failDue.trans hfail)] at hg
  refine hg.completes ⟨h.last, drain_state _ _, ?_, ?_, fun n q => (h.qGet n q).trans (hqueue n q), h.stage.trans hstage⟩
  · rw [h.ndone, hfld ChStat.NDONE (by simp [ChStat.NDONE, ChStat.addr]; omega)]
  · rw [h.regs.fld (ring_notin_endRegs c c).2.2, hfld ChBytes.BYTES (by simp [ChBytes.BYTES, ChBytes.addr]; omega)]

end Ends

/-! ### A waiting channel looks for its next item (R364 to R366, R371) -/

section Waiting

variable {d : Dev} {c : Fin 8} {x : List Word} (hu : unitChip ∉ d.undef) (hf : d.failDue = none) (hx : (chanOf d c).desc = some x)
  (hst : d.fld ChStat.STATE c = 2)
include hu hf hx hst

/-- A channel that moves records goes on when there is one. -/
theorem completes_recordWait {some' : Bool} (hk : dSk x ≠ 2) (hleft : 16 ≤ dLen x - (chanOf d c).moved)
    (hsome : (if dSk x = 3 then !(targOf d ⟨dSaddr x % 4, Nat.mod_lt _ (by omega)⟩).ord.isEmpty else !d.trace.isEmpty) = some') :
    Completes (.ladleItemAvailable c) d fun t => t.fld ChStat.STATE c = (if some' then 1 else 2) ∧ OnlyRegs [ChStat.addr c] d t := by
  have hnext : chanNext d c x = (false, d.put ChStat.STATE c (if some' then 1 else 2)) := by
    simp only [chanNext, if_neg hk, if_neg (show ¬ chanLeft (chanOf d c) x < 16 by unfold chanLeft; omega), hsome]
  refine (gives_ladleItemAvailable hu hx hst hnext hf).completes ⟨?_, onlyRegs_put (by simp [ChStat.STATE])⟩
  rw [Dev.fld_put_self _ ChStat.STATE _ _ (by decide)]
  cases some' <;> rfl

theorem completes_packetTaken {p : Pkt} (hk : dSk x = 2) (hkept : (chanOf d c).kept = []) (hbad : (d.r (dRgn (dSaddr x))).badQ = [])
    (hfree : (d.r (dRgn (dSaddr x))).badFree = false) (hp : queueNext d x = some p) (hleft : 4 * (1 + p.words.length) ≤ dLen x - (chanOf d c).moved)
    (hmode : d.bit QCfg0.MODE (dRgn (dSaddr x), dQueue (dSaddr x)) = false) :
    Completes (.ladleItemAvailable c) d fun t => t.fld ChStat.STATE c = 1 ∧ (chanOf t c).item = some ⟨queueKey x, lenSlot p :: p.words, none⟩ ∧
      (chanOf t c).sent = 0 ∧ (qGet t (dRgn (dSaddr x)) (dQueue (dSaddr x))).pkts = (qGet d (dRgn (dSaddr x)) (dQueue (dSaddr x))).pkts.erase p := by
  let n := dRgn (dSaddr x)
  let q := dQueue (dSaddr x)
  let i : Item := ⟨queueKey x, pktWords p, none⟩
  let e := freeCells (onQ d n q fun y => qWithout y p) n p.cells
  have hpop : queuePop d x p = (i, e) := by simp [queuePop, hmode, i, e, n, q]
  have hfit : ¬ chanLeft (chanOf d c) x < 4 * (pktWords p).length := by
    simp only [chanLeft, pktWords, List.length_cons]
    omega
  have hnext : chanNext d c x = (false, (onChan e c fun y => { y with item := some i, sent := 0 }).put ChStat.STATE c 1) := by
    simp [chanNext, hk, touchFree_agree hfree, touchQ_agree hbad, hx, hkept, hp, hfit, hpop]
  have hqueue : qGet e n q = qWithout (qGet d n q) p := (qGet_freeCells _ _ _ _).trans (qGet_onQ_self _ _ _ _)
  have hfail : e.failDue = none := (freeCells_kept Dev.failDue (fun _ _ => rfl) _ _).trans hf
  refine (gives_ladleItemAvailable hu hx hst hnext hfail).completes ⟨Dev.fld_put_self _ ChStat.STATE _ _ (by decide), ?_, ?_, congrArg Queue.pkts hqueue⟩
  · exact congrArg Chan.item (vget_vmod_self _ _ _)
  · exact congrArg Chan.sent (vget_vmod_self _ _ _)

theorem completes_keptTaken {i : Item} (hk : dSk x = 2) (hi : (chanOf d c).kept.find? (fun i => i.key == queueKey x) = some i)
    (hbad : (d.r (dRgn (dSaddr x))).badQ = []) (hfree : (d.r (dRgn (dSaddr x))).badFree = false) (hleft : itemBytes i ≤ dLen x - (chanOf d c).moved) :
    Completes (.ladleItemAvailable c) d fun t => t.fld ChStat.STATE c = 1 ∧
      chanOf t c = { chanOf d c with item := some i, sent := 0, kept := (chanOf d c).kept.erase i } ∧ ∀ n q, qGet t n q = qGet d n q := by
  have hfit : ¬ chanLeft (chanOf d c) x < itemBytes i := by
    unfold chanLeft
    omega
  have hnext : chanNext d c x =
      (false, (onChan d c fun y => { y with item := some i, sent := 0, kept := y.kept.erase i }).put ChStat.STATE c 1) := by
    simp [chanNext, hk, touchFree_agree hfree, touchQ_agree hbad, hx, hi, hfit]
  exact (gives_ladleItemAvailable hu hx hst hnext hf).completes
    ⟨Dev.fld_put_self _ ChStat.STATE _ _ (by decide), vget_vmod_self _ _ _, fun _ _ => rfl⟩

end Waiting

/-! ### Words of bytes, and bytes of words (R90) -/

section Words

variable (bs : List Byte)

theorem length_wordsOf : (wordsOf bs).length = (bs.length + 3) / 4 := by
  simp [wordsOf, bytesWords]

/-- The word that four bytes in turn make. -/
theorem wordsOf_getElem (i : Nat) (h : i < (wordsOf bs).length) : (wordsOf bs)[i] =
    BitVec.ofNat 32 (leVal [((bs[4 * i]?).getD 0).toNat, ((bs[4 * i + 1]?).getD 0).toNat, ((bs[4 * i + 2]?).getD 0).toNat, ((bs[4 * i + 3]?).getD 0).toNat]) := by
  simp only [wordsOf, bytesWords, List.getElem_map, List.getElem_range]
  rfl

/-- The bytes of a word made of four bytes are those bytes. -/
theorem byte4_ofNat_leVal (b0 b1 b2 b3 : Byte) : byte4 (BitVec.ofNat 32 (leVal [b0.toNat, b1.toNat, b2.toNat, b3.toNat])) = [b0, b1, b2, b3] := by
  have h0 := b0.isLt
  have h1 := b1.isLt
  have h2 := b2.isLt
  have h3 := b3.isLt
  simp only [byte4, List.range_succ, List.range_zero, List.nil_append, List.map_cons, List.map_nil, List.cons_append, leVal,
    List.foldr_cons, List.foldr_nil, BitVec.toNat_ofNat, List.cons.injEq, and_true]
  refine ⟨?_, ?_, ?_, ?_⟩ <;> refine BitVec.eq_of_toNat_eq ?_ <;> rw [BitVec.toNat_ofNat] <;> omega

theorem wordsOf_cons4 (b0 b1 b2 b3 : Byte) : wordsOf (b0 :: b1 :: b2 :: b3 :: bs) =
    BitVec.ofNat 32 (leVal [b0.toNat, b1.toNat, b2.toNat, b3.toNat]) :: wordsOf bs := by
  refine List.ext_getElem ?_ fun i h1 h2 => ?_
  · simp only [length_wordsOf, List.length_cons]
    omega
  · rw [wordsOf_getElem]
    rcases i with _ | i
    · rfl
    · rw [List.getElem_cons_succ, wordsOf_getElem]
      have hnext (j : Nat) : (b0 :: b1 :: b2 :: b3 :: bs)[4 * (i + 1) + j]? = bs[4 * i + j]? := by
        rw [show 4 * (i + 1) + j = 4 * i + j + 1 + 1 + 1 + 1 by omega]
        simp only [List.getElem?_cons_succ]
      rw [hnext 1, hnext 2, hnext 3, ← Nat.add_zero (4 * (i + 1)), hnext 0, Nat.add_zero]

/-- Whole words give their bytes back. -/
theorem flatMap_byte4_wordsOf : ∀ bs : List Byte, bs.length % 4 = 0 → (wordsOf bs).flatMap byte4 = bs
  | [], _ => rfl
  | [_], h | [_, _], h | [_, _, _], h => by simp at h
  | b0 :: b1 :: b2 :: b3 :: bs, h => by
    have hlen : bs.length % 4 = 0 := by
      simp only [List.length_cons] at h
      omega
    rw [wordsOf_cons4, List.flatMap_cons, byte4_ofNat_leVal, flatMap_byte4_wordsOf bs hlen]
    rfl

/-- Words of a run of the host window. -/
theorem wordsOf_hwBytes (d : Dev) (o n i : Nat) (h : 4 * i + 4 ≤ n) : (wordsOf (hwBytes d o n))[i]? = some (hwWord d (o + 4 * i)) := by
  have hlen : (hwBytes d o n).length = n := by simp [hwBytes]
  have hi : i < (wordsOf (hwBytes d o n)).length := by
    rw [length_wordsOf, hlen]
    omega
  have hbyte (j : Nat) (hj : j < 4) : (hwBytes d o n)[4 * i + j]? = some (hwByte d (o + 4 * i + j)) := by
    rw [List.getElem?_eq_getElem (by omega)]
    simp only [hwBytes, List.getElem_map, List.getElem_range, Nat.add_assoc]
  have h0 := hbyte 0 (by omega)
  rw [Nat.add_zero, Nat.add_zero] at h0
  rw [List.getElem?_eq_getElem hi, wordsOf_getElem, h0, hbyte 1 (by omega), hbyte 2 (by omega), hbyte 3 (by omega)]
  rfl

end Words

/-! ### A unit moved (R361, R368) -/

/-- BYTES and DONE count a unit of n bytes. -/
def counted (d : Dev) (c : Fin 8) (n : Nat) : Dev := onChan (d.incBy ChBytes.BYTES c n) c fun y => { y with done := y.done + n }

/-- What stands when n bytes of channel c have been moved. -/
structure Moved (d : Dev) (c : Fin 8) (n : Nat) (m : Dev) : Prop where
  regs : RegsKept [ChBytes.addr c] d m
  bytes : m.fld ChBytes.BYTES c = (d.fld ChBytes.BYTES c + n) % 2 ^ 32
  redo : m.redo = d.redo
  failDue : m.failDue = d.failDue

section Moved

variable {d m t : Dev} {c : Fin 8} {n status : Nat}

theorem counted_chanOf (d : Dev) (c : Fin 8) (n : Nat) : chanOf (counted d c n) c = { chanOf d c with done := (chanOf d c).done + n } :=
  vget_vmod_self _ _ _

theorem counted_moved (d : Dev) (c : Fin 8) (n : Nat) : Moved d c n (counted d c n) where
  regs := regsKept_put (f := ChBytes.BYTES) (v := d.fld ChBytes.BYTES c + n) (by simp [ChBytes.BYTES])
  bytes := Dev.fld_put_self d ChBytes.BYTES c _ (by decide)
  redo := rfl
  failDue := rfl

/-- What changes neither registers nor the commands of this clk. -/
theorem Moved.same (h : Moved d c n m) (hr : t.regs = m.regs := by rfl) (hredo : t.redo = m.redo := by rfl) (hf : t.failDue = m.failDue := by rfl) :
    Moved d c n t where
  regs a ha := by rw [Dev.reg, hr]; exact h.regs a ha
  bytes := by rw [Dev.fld, Dev.reg, hr]; exact h.bytes
  redo := hredo.trans h.redo
  failDue := hf.trans h.failDue

theorem Moved.fld (h : Moved d c n m) {f : RF (Fin 8)} (hf : f.addr c ≠ ChBytes.addr c) : m.fld f c = d.fld f c :=
  h.regs.fld (by simpa using hf)

theorem Moved.state (h : Moved d c n m) : m.fld ChStat.STATE c = d.fld ChStat.STATE c := h.fld (by simp [ChStat.STATE, ChStat.addr, ChBytes.addr])
theorem Moved.ndone (h : Moved d c n m) : m.fld ChStat.NDONE c = d.fld ChStat.NDONE c := h.fld (by simp [ChStat.NDONE, ChStat.addr, ChBytes.addr])
theorem Moved.head (h : Moved d c n m) : m.fld ChHead.HEAD c = d.fld ChHead.HEAD c := h.fld (by simp [ChHead.HEAD, ChHead.addr, ChBytes.addr])
theorem Moved.tail (h : Moved d c n m) : m.fld ChTail.TAIL c = d.fld ChTail.TAIL c := h.fld (by simp [ChTail.TAIL, ChTail.addr, ChBytes.addr])
theorem Moved.rsize (h : Moved d c n m) : m.fld ChCfg.RSIZE c = d.fld ChCfg.RSIZE c := h.fld (by simp [ChCfg.RSIZE, ChCfg.addr, ChBytes.addr])
theorem Moved.rbase (h : Moved d c n m) : m.fld ChCfg.RBASE c = d.fld ChCfg.RBASE c := h.fld (by simp [ChCfg.RBASE, ChCfg.addr, ChBytes.addr])

theorem Moved.errSeen (h : Moved d c n m) : m.bit ChStat.ERR_SEEN c = d.bit ChStat.ERR_SEEN c :=
  h.regs.bit (by simp [ChStat.ERR_SEEN, ChStat.addr, ChBytes.addr])

theorem Moved.headAddr (h : Moved d c n m) : headAddr m c = headAddr d c := by
  rw [Machine.headAddr, h.rbase, h.head, h.rsize, Machine.headAddr]

theorem Moved.lastOne (h : Moved d c n m) : LastOne m c ↔ LastOne d c := by
  rw [LastOne, h.rsize, h.tail, h.head, LastOne]

theorem Ended.bytes (h : Ended m c status t) (hm : Moved d c n m) : t.fld ChBytes.BYTES c = (d.fld ChBytes.BYTES c + n) % 2 ^ 32 :=
  (h.regs.fld (ring_notin_endRegs c c).2.2).trans hm.bytes

/-- The head after an end, in a ring of a size that HEAD can count. -/
theorem Ended.headNext (h : Ended m c status t) (hm : Moved d c n m) (hsize : d.fld ChCfg.RSIZE c ≤ 10) :
    t.fld ChHead.HEAD c = (d.fld ChHead.HEAD c + 1) % 2 ^ (d.fld ChCfg.RSIZE c + 1) := by
  have hle : 2 ^ (d.fld ChCfg.RSIZE c + 1) ≤ 2048 := Nat.pow_le_pow_right (by decide) (show d.fld ChCfg.RSIZE c + 1 ≤ 11 by omega)
  have hlt := Nat.mod_lt (d.fld ChHead.HEAD c + 1) (Nat.two_pow_pos (d.fld ChCfg.RSIZE c + 1))
  rw [h.head, hm.head, hm.rsize, Nat.mod_eq_of_lt (by omega)]

end Moved

/-! #### The last byte of a descriptor (R361, R372, R375) -/

/-- What is seen of a completed descriptor whose n last bytes have been moved, y being its channel then. -/
def Completed (d : Dev) (y : Chan) (c : Fin 8) (n : Nat) (t : Dev) : Prop :=
  let again := d.fld ChStat.STATE c = 3 ∧ d.cmdRedo ChCtl.STOP c = true
  t.fld ChStat.STATE c = 0 ∧ t.fld ChBytes.BYTES c = (d.fld ChBytes.BYTES c + n) % 2 ^ 32 ∧ t.bit ChStat.DONE_SEEN c = true ∧
  t.bit ChStat.ERR_SEEN c = d.bit ChStat.ERR_SEEN c ∧
  t.fld ChStat.LAST c = (if d.fld ChStat.STATE c = 3 ∧ (¬ again ∨ ¬ LastOne d c) then 4 else 0) ∧
  t.fld ChStat.NDONE c = (d.fld ChStat.NDONE c + if again ∧ ¬ LastOne d c then 2 else 1) % 65536 ∧
  t.fld ChHead.HEAD c = (d.fld ChHead.HEAD c + if again ∧ ¬ LastOne d c then 2 else 1) % 2 ^ (d.fld ChCfg.RSIZE c + 1) ∧
  (¬ again ∨ LastOne d c →
    hwWord t (headAddr d c + 24) = BitVec.ofNat 32 (y.done % 2 ^ 24 + min y.nrec 255 * 2 ^ 24) ∧
    hwWord t (headAddr d c + 28) = BitVec.ofNat 32 (t.fld ChStat.LAST c + 16))

section LastByte

variable {d m : Dev} {c : Fin 8} {n : Nat} (hm : Moved d c n m)
include hm

/-- A descriptor that runs on to the end of its ring. -/
theorem completed_drained (hst : d.fld ChStat.STATE c = 1) (hlast : LastOne d c) : Completed d (chanOf m c) c n (drain (chanEnd m c 0) c) := by
  have h : Ended m c 0 (drain (chanEnd m c 0) c) := (chanEnd_ended m c (by decide)).drain
  refine ⟨drain_state _ _, h.bytes hm, h.doneSeen, ?_, ?_, ?_, ?_, fun _ => ?_⟩
  · rw [h.errKept rfl, hm.errSeen]
  · rw [h.last, if_neg (by omega)]
  · rw [h.ndone, hm.ndone, if_neg (by omega)]
  · rw [h.headNext hm hlast.1, if_neg (by omega)]
  · rw [h.last, ← hm.headAddr]
    exact ⟨h.word6, h.word7⟩

/-- A STOP of an earlier clk ends the channel with the descriptor (R372). -/
theorem completed_stopped (hst : d.fld ChStat.STATE c = 3) (hsize : d.fld ChCfg.RSIZE c ≤ 10) (hredo : ¬ d.cmdRedo ChCtl.STOP c = true) :
    Completed d (chanOf m c) c n (chanEnd m c 4) := by
  have h : Ended m c 4 (chanEnd m c 4) := chanEnd_ended m c (by decide)
  refine ⟨by simp [chanEnd_state, statusGoesOn], h.bytes hm, h.doneSeen, ?_, ?_, ?_, ?_, fun _ => ?_⟩
  · rw [h.errKept rfl, hm.errSeen]
  · rw [h.last, if_pos ⟨hst, .inl fun ha => hredo ha.2⟩]
  · rw [h.ndone, hm.ndone, if_neg fun ha => hredo ha.1.2]
  · rw [h.headNext hm hsize, if_neg fun ha => hredo ha.1.2]
  · rw [h.last, ← hm.headAddr]
    exact ⟨h.word6, h.word7⟩

/-- A STOP of this clk finds no next descriptor, and the channel is IDLE (R375). -/
theorem completed_stopEmpty (hst : d.fld ChStat.STATE c = 3) (hlast : LastOne d c) (hredo : d.cmdRedo ChCtl.STOP c = true) :
    Completed d (chanOf m c) c n (((chanEnd m c 0).put ChStat.STATE c 0).clr ChCtl.STOP c) := by
  have h : Ended m c 0 (chanEnd m c 0) := chanEnd_ended m c (by decide)
  let t := ((chanEnd m c 0).put ChStat.STATE c 0).clr ChCtl.STOP c
  have hctl (f : RF (Fin 8)) (hf : f.addr c ≠ ChCtl.addr c) : t.fld f c = ((chanEnd m c 0).put ChStat.STATE c 0).fld f c :=
    Dev.fld_setReg_addr _ _ _ _ _ hf
  have hstat (f : RF (Fin 8)) (hf : f.addr = ChStat.addr) (hl : 3 ≤ f.lo) : t.fld f c = (chanEnd m c 0).fld f c :=
    (hctl f (by rw [hf]; exact (chanReg_distinct c).2.2)).trans (Dev.fld_put_bits _ ChStat.STATE _ _ _ _ (by decide) (.inl hl))
  have hbytes : t.fld ChBytes.BYTES c = (chanEnd m c 0).fld ChBytes.BYTES c :=
    (hctl ChBytes.BYTES (by simp [ChBytes.BYTES, ChBytes.addr, ChCtl.addr])).trans
      (Dev.fld_put_addr _ _ _ _ _ _ (by simp [ChBytes.BYTES, ChStat.STATE, ChBytes.addr, ChStat.addr]))
  have hhead : t.fld ChHead.HEAD c = (chanEnd m c 0).fld ChHead.HEAD c :=
    (hctl ChHead.HEAD (chanReg_distinct c).2.1).trans (Dev.fld_put_addr _ _ _ _ _ _ (chanReg_distinct c).1)
  have hlast0 : t.fld ChStat.LAST c = 0 := (hstat ChStat.LAST rfl (by decide)).trans h.last
  have hno : ¬ ((d.fld ChStat.STATE c = 3 ∧ d.cmdRedo ChCtl.STOP c = true) ∧ ¬ LastOne d c) := fun ha => ha.2 hlast
  refine ⟨?_, hbytes.trans (h.bytes hm), ?_, ?_, ?_, ?_, ?_, fun _ => ?_⟩
  · exact (hctl ChStat.STATE (chanReg_distinct c).2.2).trans (Dev.fld_put_self _ ChStat.STATE c 0 (by decide))
  · show t.bit ChStat.DONE_SEEN c = true
    rw [Dev.bit, hstat ChStat.DONE_SEEN rfl (by decide), ← Dev.bit]
    exact h.doneSeen
  · show t.bit ChStat.ERR_SEEN c = _
    rw [Dev.bit, hstat ChStat.ERR_SEEN rfl (by decide), ← Dev.bit, h.errKept rfl, hm.errSeen]
  · rw [if_neg fun ha => ha.2.elim (fun hn => hn ⟨hst, hredo⟩) fun hn => hn hlast]
    exact hlast0
  · rw [if_neg hno, ← hm.ndone, ← h.ndone]
    exact hstat ChStat.NDONE rfl (by decide)
  · rw [if_neg hno, ← h.headNext hm hlast.1]
    exact hhead
  · show hwWord t (headAddr d c + 24) = _ ∧ hwWord t (headAddr d c + 28) = BitVec.ofNat 32 (t.fld ChStat.LAST c + 16)
    have hwin (o : Nat) : hwWord t o = hwWord (chanEnd m c 0) o := hwWord_of_hwin rfl o
    rw [hlast0, ← hm.headAddr, hwin, hwin]
    exact ⟨h.word6, h.word7⟩

/-- A STOP of this clk ends the next descriptor, which has not been started (R375). -/
theorem completed_stopNext (hst : d.fld ChStat.STATE c = 3) (hsize : d.fld ChCfg.RSIZE c ≤ 10) (hlast : ¬ LastOne d c)
    (hredo : d.cmdRedo ChCtl.STOP c = true) (u : Chan → Chan) : Completed d (chanOf m c) c n (chanEnd (onChan (chanEnd m c 0) c u) c 4) := by
  have h : Ended m c 0 (chanEnd m c 0) := chanEnd_ended m c (by decide)
  have h2 : Ended (onChan (chanEnd m c 0) c u) c 4 (chanEnd (onChan (chanEnd m c 0) c u) c 4) := chanEnd_ended _ c (by decide)
  have hboth : (d.fld ChStat.STATE c = 3 ∧ d.cmdRedo ChCtl.STOP c = true) ∧ ¬ LastOne d c := ⟨⟨hst, hredo⟩, hlast⟩
  have hmid (f : RF (Fin 8)) : (onChan (chanEnd m c 0) c u).fld f c = (chanEnd m c 0).fld f c := rfl
  have hle : 2 ^ (d.fld ChCfg.RSIZE c + 1) ≤ 2048 := Nat.pow_le_pow_right (by decide) (show d.fld ChCfg.RSIZE c + 1 ≤ 11 by omega)
  have hlt := Nat.mod_lt (d.fld ChHead.HEAD c + 1 + 1) (Nat.two_pow_pos (d.fld ChCfg.RSIZE c + 1))
  refine ⟨by simp [chanEnd_state, statusGoesOn], ?_, h2.doneSeen, ?_, ?_, ?_, ?_, fun hor => ?_⟩
  · rw [h2.regs.fld (f := ChBytes.BYTES) (ring_notin_endRegs c c).2.2, hmid, h.bytes hm]
  · rw [h2.errKept rfl, ← hm.errSeen]
    exact h.errKept rfl
  · rw [h2.last, if_pos ⟨hst, .inr hlast⟩]
  · rw [h2.ndone, hmid, h.ndone, hm.ndone, if_pos hboth]
    omega
  · have hrs : (chanEnd m c 0).fld ChCfg.RSIZE c = d.fld ChCfg.RSIZE c := (h.regs.fld (ring_notin_endRegs c c).1).trans hm.rsize
    rw [h2.head, hmid, hmid, h.headNext hm hsize, hrs, if_pos hboth, Nat.mod_add_mod, Nat.mod_eq_of_lt (by omega)]
  · exact absurd hboth fun hb => hor.elim (fun hn => hn hb.1) hb.2

/-- The last byte of a descriptor completes it, or stops the channel. -/
theorem chanDone_completed (hst : d.fld ChStat.STATE c = 1 ∨ d.fld ChStat.STATE c = 3)
    (hlast : LastOne d c ∨ (d.fld ChStat.STATE c = 3 ∧ d.fld ChCfg.RSIZE c ≤ 10)) (hf : d.failDue = none) :
    Completed d (chanOf m c) c n (chanDone m c 0) ∧ (chanDone m c 0).failDue = none := by
  have hfail (st : Nat) (h : st < 16) : (chanEnd m c st).failDue = none := (chanEnd_ended m c h).failDue.trans (hm.failDue.trans hf)
  rcases hst with hst | hst
  · have hring : LastOne d c := hlast.resolve_right (by omega)
    rw [chanDone_lastOne (by rw [hm.state]; omega) (hm.lastOne.2 hring) (by decide)]
    exact ⟨completed_drained hm hst hring, hfail 0 (by decide)⟩
  · have hsize : d.fld ChCfg.RSIZE c ≤ 10 := hlast.elim (·.1) (·.2)
    have hnow : stopNow m c = d.cmdRedo ChCtl.STOP c := by rw [stopNow, Dev.cmdRedo, hm.redo, Dev.cmdRedo]
    rw [chanDone, if_neg (by rw [hm.state]; exact not_not.2 hst), hnow]
    by_cases hredo : d.cmdRedo ChCtl.STOP c = true
    · rw [if_pos hredo]
      have h : Ended m c 0 (chanEnd m c 0) := chanEnd_ended m c (by decide)
      have hrs : (chanEnd m c 0).fld ChCfg.RSIZE c = d.fld ChCfg.RSIZE c := (h.regs.fld (ring_notin_endRegs c c).1).trans hm.rsize
      have htail : (chanEnd m c 0).fld ChTail.TAIL c = d.fld ChTail.TAIL c := (h.regs.fld (ring_notin_endRegs c c).2.1).trans hm.tail
      unfold stopNext
      dsimp only
      rw [h.headNext hm hsize, hrs, htail, Nat.mod_mod]
      by_cases hring : LastOne d c
      · rw [if_pos hring.2.symm]
        exact ⟨completed_stopEmpty hm hst hring hredo, hfail 0 (by decide)⟩
      · rw [if_neg fun he => hring ⟨hsize, he.symm⟩]
        exact ⟨completed_stopNext hm hst hsize hring hredo _, (chanEnd_ended _ c (by decide)).failDue.trans (hfail 0 (by decide))⟩
    · rw [if_neg hredo]
      exact ⟨completed_stopped hm hst hsize hredo, hfail 4 (by decide)⟩

end LastByte

/-! ### Units that go to the host window and to STAGE (R364, R368, R439) -/

/-- The device as a unit of a byte source finds it: the turn has passed on and a free value is taken. -/
def unitTaken (d : Dev) (c : Fin 8) : Dev := freeTaken (turned d c)

/-- A unit in the host window: written at its offset, and counted. -/
def windowMoved (d : Dev) (c : Fin 8) (x : List Word) (bs : List Byte) : Dev :=
  onChan (hwPut (counted d c bs.length) (dDaddr x + (chanOf d c).done) bs) c fun y => { y with moved := y.moved + bs.length }

/-- A unit on its way to STAGE: collected, and counted. -/
def stageMoved (d : Dev) (c : Fin 8) (bs : List Byte) : Dev :=
  onChan (counted d c bs.length) c fun y => { y with moved := y.moved + bs.length, acc := y.acc ++ wordsOf bs }

section ByteUnits

variable {d : Dev} {c : Fin 8} {x : List Word}

theorem onChan_onChan (d : Dev) (c : Fin 8) (u v : Chan → Chan) : onChan (onChan d c u) c v = onChan d c fun y => v (u y) := by
  simp [onChan, vmod, vset_vset]

theorem chanOf_onChan (d : Dev) (c : Fin 8) (u : Chan → Chan) : chanOf (onChan d c u) c = u (chanOf d c) := vget_vmod_self _ _ _

theorem chanGone_eq_false {y : List Word} (h : (chanOf d c).desc = some y) : chanGone d c = false := by
  rw [chanGone, h]
  rfl

/-- A unit of a byte source that is written. -/
theorem gives_byteUnit {hd : List Byte} {n : Nat} (hu : unitChip ∉ d.undef) (hx : (chanOf d c).desc = some x)
    (hst : d.fld ChStat.STATE c = 1 ∨ d.fld ChStat.STATE c = 3) (hturn : ladleTurn d c = true) (hskip : shadowSkips d x = false)
    (hfn : usesHost x = true → fnUsable d (chanFn d c) = true) (hk : dSk x < 2) (hn : unitSize d c x hd d.fresh = n) (hpos : n ≠ 0)
    (hroom : dDk x = 3 → segFull d ⟨dDaddr x % 16, Nat.mod_lt _ (by omega)⟩ = false) (htake : stageRefuses d x = false) :
    Gives (.ladleUnitDone c hd) d (failCheck (unitWritten (unitTaken d c) c x n
      (if dSk x = 0 then hd.take n else hwBytes d (dSaddr x + (chanOf d c).moved) n))) := by
  have hg := gives_ladleUnitDone (hd := hd) hu hx hst hturn
  rw [ladleUnit_bytes (d := turned d c) hskip hfn hk, unitBytes_eq] at hg
  have hsize : unitSize (turned d c) c x hd (turned d c).fresh = n := hn
  have hseg : ¬ (n = 0 ∨ dDk x = 3 ∧ segFull (freeTaken (turned d c)) ⟨dDaddr x % 16, Nat.mod_lt _ (by omega)⟩ = true) := by
    rintro (h | ⟨h3, hfull⟩)
    · exact hpos h
    · exact Bool.false_ne_true ((hroom h3).symm.trans hfull)
  have htaken : stageRefuses (freeTaken (turned d c)) x = false := htake
  dsimp only at hg
  rw [hsize, if_neg hseg, if_neg (fun h => Bool.false_ne_true (htaken.symm.trans h))] at hg
  exact hg

theorem Moved.ofTaken {n : Nat} {m : Dev} (h : Moved (unitTaken d c) c n m) : Moved d c n m := ⟨h.regs, h.bytes, h.redo, h.failDue⟩

theorem windowMoved_moved (d : Dev) (c : Fin 8) (x : List Word) (bs : List Byte) : Moved d c bs.length (windowMoved d c x bs) := by
  obtain ⟨w, hw⟩ := hwPut_eq (counted d c bs.length) (dDaddr x + (chanOf d c).done) bs
  rw [windowMoved, hw]
  exact (counted_moved d c bs.length).same

theorem windowMoved_chanOf (d : Dev) (c : Fin 8) (x : List Word) (bs : List Byte) : chanOf (windowMoved d c x bs) c =
    { chanOf d c with moved := (chanOf d c).moved + bs.length, done := (chanOf d c).done + bs.length } := by
  obtain ⟨w, hw⟩ := hwPut_eq (counted d c bs.length) (dDaddr x + (chanOf d c).done) bs
  have hchan : chanOf (hwPut (counted d c bs.length) (dDaddr x + (chanOf d c).done) bs) c = chanOf (counted d c bs.length) c := by
    rw [hw]
    rfl
  rw [windowMoved, chanOf_onChan, hchan, counted_chanOf]

theorem stageMoved_moved (d : Dev) (c : Fin 8) (bs : List Byte) : Moved d c bs.length (stageMoved d c bs) :=
  (counted_moved d c bs.length).same

theorem stageMoved_chanOf (d : Dev) (c : Fin 8) (bs : List Byte) : chanOf (stageMoved d c bs) c =
    { chanOf d c with moved := (chanOf d c).moved + bs.length, done := (chanOf d c).done + bs.length, acc := (chanOf d c).acc ++ wordsOf bs } := by
  rw [stageMoved, chanOf_onChan, counted_chanOf]

/-- Whole words count as their bytes. -/
theorem four_mul_length_wordsOf {bs : List Byte} (h : bs.length % 4 = 0) : 4 * (wordsOf bs).length = bs.length := by
  rw [length_wordsOf]
  omega

theorem unitWritten_window {bs : List Byte} (hx : (chanOf d c).desc = some x) (hdk : dDk x = 1) (h4 : bs.length % 4 = 0) :
    unitWritten d c x bs.length bs =
      if bs.length = chanLeft (chanOf d c) x then chanDone (windowMoved d c x bs) c 0
      else if (windowMoved d c x bs).fld ChStat.STATE c = 3 then chanEnd (windowMoved d c x bs) c 4
      else windowMoved d c x bs := by
  have hwrite : destWrite d c x (wordsOf bs) = hwPut (counted d c bs.length) (dDaddr x + (chanOf d c).done) bs := by
    simp only [destWrite, hdk, four_mul_length_wordsOf h4, flatMap_byte4_wordsOf bs h4]
    rfl
  have hgone : chanGone (hwPut (counted d c bs.length) (dDaddr x + (chanOf d c).done) bs) c = false := by
    obtain ⟨w, hw⟩ := hwPut_eq (counted d c bs.length) (dDaddr x + (chanOf d c).done) bs
    rw [hw]
    exact chanGone_eq_false (d := counted d c bs.length) (y := x) (by rw [counted_chanOf, hx])
  have hlast (m : Dev) : lastByte m c x = chanDone m c 0 := by
    rw [lastByte, if_neg (by omega)]
  simp only [unitWritten, hwrite, hgone, hlast]
  rfl

theorem unitWritten_stage {bs : List Byte} (hx : (chanOf d c).desc = some x) (hdk : dDk x = 4) (h4 : bs.length % 4 = 0) :
    unitWritten d c x bs.length bs =
      if bs.length = chanLeft (chanOf d c) x then lastByte (stageMoved d c bs) c x
      else if (stageMoved d c bs).fld ChStat.STATE c = 3 then chanEnd (stageMoved d c bs) c 4
      else stageMoved d c bs := by
  have hwrite : destWrite d c x (wordsOf bs) = onChan (counted d c bs.length) c fun y => { y with acc := y.acc ++ wordsOf bs } := by
    simp only [destWrite, hdk, four_mul_length_wordsOf h4]
    rfl
  have hgone : chanGone (onChan (counted d c bs.length) c fun y => { y with acc := y.acc ++ wordsOf bs }) c = false :=
    chanGone_eq_false (y := x) (by rw [chanOf_onChan, counted_chanOf, hx])
  simp only [unitWritten, hwrite, hgone, onChan_onChan]
  rfl

end ByteUnits

section HostBytes

variable {d : Dev} {c : Fin 8} {x : List Word} (hu : unitChip ∉ d.undef) (hf : d.failDue = none) (hx : (chanOf d c).desc = some x)
  (hturn : ladleTurn d c = true) (hskip : shadowSkips d x = false) (hfn : fnUsable d (chanFn d c) = true) (hsk : dSk x = 0)
include hu hx hturn hskip hfn hsk

/-- A unit from host memory of n bytes. -/
theorem gives_hostUnit {hd : List Byte} {n : Nat} (hst : d.fld ChStat.STATE c = 1 ∨ d.fld ChStat.STATE c = 3) (hdk : dDk x ≠ 3)
    (hn : min (dLen x - (chanOf d c).moved) (min (4 * unitMax d c x) (hd.length / 4 * 4)) = n) (hpos : n ≠ 0) (htake : stageRefuses d x = false) :
    Gives (.ladleUnitDone c hd) d (failCheck (unitWritten (unitTaken d c) c x (hd.take n).length (hd.take n))) := by
  have hsize : unitSize d c x hd d.fresh = n := by
    simp only [unitSize, hsk, if_true, if_neg hdk, chanLeft, hn]
  have hlen : (hd.take n).length = n := by
    rw [List.length_take]
    omega
  have hg := gives_byteUnit hu hx hst hturn hskip (fun _ => hfn) (by omega) hsize hpos (fun h => absurd h hdk) htake
  rw [if_pos hsk] at hg
  rw [hlen]
  exact hg

include hf

theorem completes_windowUnit {hd : List Byte} {n : Nat} (hdk : dDk x = 1) (h4 : (dLen x - (chanOf d c).moved) % 4 = 0) (hlen : 4 ≤ hd.length)
    (hn : min (4 * unitMax d c x) (hd.length / 4 * 4) = n) (hmore : n < dLen x - (chanOf d c).moved) (hst : d.fld ChStat.STATE c = 1) :
    Completes (.ladleUnitDone c hd) d fun t => hwBytes t (dDaddr x + (chanOf d c).done) n = hd.take n ∧
      (∀ o, o < dDaddr x + (chanOf d c).done ∨ dDaddr x + (chanOf d c).done + n ≤ o → hwByte t o = hwByte d o) ∧
      chanOf t c = { chanOf d c with moved := (chanOf d c).moved + n, done := (chanOf d c).done + n } ∧ t.fld ChStat.STATE c = 1 ∧
      t.fld ChBytes.BYTES c = (d.fld ChBytes.BYTES c + n) % 2 ^ 32 := by
  have hmax := (unitMax_bounds d c x).1
  have hg := gives_hostUnit (hd := hd) (n := n) hu hx hturn hskip hfn hsk (.inl hst) (by omega) (by omega) (by omega) (by simp [stageRefuses, hdk])
  have hbs : (hd.take n).length = n := by
    rw [List.length_take]
    omega
  have hm := windowMoved_moved (unitTaken d c) c x (hd.take n)
  have hchan := windowMoved_chanOf (unitTaken d c) c x (hd.take n)
  have hst' : (windowMoved (unitTaken d c) c x (hd.take n)).fld ChStat.STATE c = 1 := hm.ofTaken.state.trans hst
  have hleft : (hd.take n).length ≠ chanLeft (chanOf (unitTaken d c) c) x := by
    rw [hbs]
    exact Nat.ne_of_lt hmore
  rw [unitWritten_window (d := unitTaken d c) hx hdk (by omega), if_neg hleft, if_neg (by omega), failCheck_of_none (hm.failDue.trans hf)] at hg
  have hbyte (o : Nat) : hwByte (windowMoved (unitTaken d c) c x (hd.take n)) o =
      hwByte (hwPut (counted (unitTaken d c) c (hd.take n).length) (dDaddr x + (chanOf d c).done) (hd.take n)) o := rfl
  have hbytes : hwBytes (windowMoved (unitTaken d c) c x (hd.take n)) (dDaddr x + (chanOf d c).done) (hd.take n).length = hd.take n :=
    hwBytes_hwPut_self (counted (unitTaken d c) c (hd.take n).length) (dDaddr x + (chanOf d c).done) (hd.take n)
  rw [hbs] at hchan hm hbytes
  refine hg.completes ⟨hbytes, fun o ho => ?_, hchan, hst', hm.ofTaken.bytes⟩
  rw [hbyte, hwByte_hwPut, if_neg (by omega)]
  rfl

theorem completes_windowEnd {hd : List Byte} (hdk : dDk x = 1) (h4 : (dLen x - (chanOf d c).moved) % 4 = 0) (hpos : dLen x - (chanOf d c).moved ≠ 0)
    (hmax : dLen x - (chanOf d c).moved ≤ 4 * unitMax d c x) (hlen : dLen x - (chanOf d c).moved ≤ hd.length)
    (hst : d.fld ChStat.STATE c = 1 ∨ d.fld ChStat.STATE c = 3) (hlast : LastOne d c ∨ (d.fld ChStat.STATE c = 3 ∧ d.fld ChCfg.RSIZE c ≤ 10)) :
    let n := dLen x - (chanOf d c).moved
    Completes (.ladleUnitDone c hd) d (Completed d { chanOf d c with moved := (chanOf d c).moved + n, done := (chanOf d c).done + n } c n) := by
  extract_lets n
  have hn : dLen x - (chanOf d c).moved = n := rfl
  rw [hn] at h4 hpos hmax hlen
  clear_value n
  have hg := gives_hostUnit (hd := hd) (n := n) hu hx hturn hskip hfn hsk hst (by omega) (by rw [hn]; omega) hpos (by simp [stageRefuses, hdk])
  have hbs : (hd.take n).length = n := by
    rw [List.length_take]
    omega
  have hm := (windowMoved_moved (unitTaken d c) c x (hd.take n)).ofTaken
  have hleft : (hd.take n).length = chanLeft (chanOf (unitTaken d c) c) x := hbs.trans hn.symm
  rw [unitWritten_window (d := unitTaken d c) hx hdk (by omega), if_pos hleft] at hg
  rw [hbs] at hm
  obtain ⟨hdone, hfail⟩ := chanDone_completed hm hst hlast hf
  rw [failCheck_of_none hfail] at hg
  rw [windowMoved_chanOf, hbs] at hdone
  exact hg.completes hdone

/-! #### STAGE (R439) -/

variable (hst : d.fld ChStat.STATE c = 1) (hdk : dDk x = 4) (hrun : d.stwRun = true) (hslot : vget d.stage (stageSlot x) = none) (hfit : dLen x ≤ 4096)
  (h4 : (dLen x - (chanOf d c).moved) % 4 = 0) (hpos : dLen x - (chanOf d c).moved ≠ 0) {hd : List Byte} (hlen : 4 ≤ hd.length) {n : Nat}
  (hn : min (dLen x - (chanOf d c).moved) (min (4 * unitMax d c x) (hd.length / 4 * 4)) = n)
include hst hdk hrun hslot hfit h4 hpos hlen hn

omit hf in
/-- A unit on its way to STAGE. -/
theorem gives_stageUnit : (hd.take n).length = n ∧ Gives (.ladleUnitDone c hd) d (failCheck
    (if n = dLen x - (chanOf d c).moved then lastByte (stageMoved (unitTaken d c) c (hd.take n)) c x else stageMoved (unitTaken d c) c (hd.take n))) := by
  have hmax := (unitMax_bounds d c x).1
  have htake : stageRefuses d x = false := by simp [stageRefuses, hrun, hslot, hfit]
  have hg := gives_hostUnit (hd := hd) (n := n) hu hx hturn hskip hfn hsk (.inl hst) (by omega) hn (by omega) htake
  have hbs : (hd.take n).length = n := by
    rw [List.length_take]
    omega
  have hst' : (stageMoved (unitTaken d c) c (hd.take n)).fld ChStat.STATE c = 1 :=
    (stageMoved_moved (unitTaken d c) c (hd.take n)).ofTaken.state.trans hst
  rw [unitWritten_stage (d := unitTaken d c) hx hdk (by omega)] at hg
  rw [if_neg (show ¬ (stageMoved (unitTaken d c) c (hd.take n)).fld ChStat.STATE c = 3 by omega), hbs] at hg
  exact ⟨hbs, hg⟩

theorem completes_stageUnit (hmore : n < dLen x - (chanOf d c).moved) : Completes (.ladleUnitDone c hd) d fun t =>
    chanOf t c = { chanOf d c with moved := (chanOf d c).moved + n, done := (chanOf d c).done + n, acc := (chanOf d c).acc ++ wordsOf (hd.take n) } ∧
      t.fld ChBytes.BYTES c = (d.fld ChBytes.BYTES c + n) % 2 ^ 32 ∧ t.fld ChStat.STATE c = 1 ∧ t.stage = d.stage := by
  obtain ⟨hbs, hg⟩ := gives_stageUnit hu hx hturn hskip hfn hsk hst hdk hrun hslot hfit h4 hpos hlen hn
  have hm := (stageMoved_moved (unitTaken d c) c (hd.take n)).ofTaken
  have hchan := stageMoved_chanOf (unitTaken d c) c (hd.take n)
  rw [if_neg (by omega), failCheck_of_none (hm.failDue.trans hf)] at hg
  rw [hbs] at hm hchan
  exact hg.completes ⟨hchan, hm.bytes, hm.state.trans hst, rfl⟩

theorem completes_stageEnd (hall : n = dLen x - (chanOf d c).moved) (hlast : LastOne d c) : Completes (.ladleUnitDone c hd) d fun t =>
    let b := billetAt (((chanOf d c).acc ++ wordsOf (hd.take n)).flatMap fun w => leBytes 4 w.toNat)
    t.fld ChBytes.BYTES c = (d.fld ChBytes.BYTES c + n) % 2 ^ 32 ∧
      if b.bszc ≤ 2 ∧ dLen x ≠ bsz b.bszc then t.fld ChStat.LAST c = 8 ∧ t.fld ChStat.STATE c = 4 ∧ t.stage = d.stage
      else t.fld ChStat.LAST c = 0 ∧ t.fld ChStat.STATE c = 0 ∧ vget t.stage (stageSlot x) = some b ∧
        ∀ j, j ≠ stageSlot x → vget t.stage j = vget d.stage j := by
  obtain ⟨hbs, hg⟩ := gives_stageUnit hu hx hturn hskip hfn hsk hst hdk hrun hslot hfit h4 hpos hlen hn
  let m := stageMoved (unitTaken d c) c (hd.take n)
  have hm : Moved d c n m := by
    have h := (stageMoved_moved (unitTaken d c) c (hd.take n)).ofTaken
    rwa [hbs] at h
  have hacc : (chanOf m c).acc = (chanOf d c).acc ++ wordsOf (hd.take n) := by
    rw [stageMoved_chanOf]
    rfl
  let b := billetAt (((chanOf d c).acc ++ wordsOf (hd.take n)).flatMap fun w => leBytes 4 w.toNat)
  have hend : lastByte m c x =
      if b.bszc ≤ 2 ∧ dLen x ≠ bsz b.bszc then chanEnd m c 8 else chanDone { m with stage := vset m.stage (stageSlot x) (some b) } c 0 := by
    simp only [lastByte, hdk, if_true, hacc, b]
  rw [if_pos hall, hend] at hg
  by_cases hsize : b.bszc ≤ 2 ∧ dLen x ≠ bsz b.bszc
  · rw [if_pos hsize, failCheck_chanEnd (hm.failDue.trans hf) (by decide)] at hg
    have h : Ended m c 8 (chanEnd m c 8) := chanEnd_ended m c (by decide)
    refine hg.completes ⟨h.bytes hm, ?_⟩
    rw [if_pos hsize]
    exact ⟨h.last, by simp [chanEnd_state, statusGoesOn], h.stage⟩
  · let s : Dev := { m with stage := vset m.stage (stageSlot x) (some b) }
    have hs : Moved d c n s := hm.same
    have h : Ended s c 0 (drain (chanEnd s c 0) c) := (chanEnd_ended s c (by decide)).drain
    rw [if_neg hsize, chanDone_lastOne (d := s) (by rw [hs.state]; omega) (hs.lastOne.2 hlast) (by decide),
      failCheck_of_none (h.failDue.trans (hs.failDue.trans hf))] at hg
    refine hg.completes ⟨h.bytes hs, ?_⟩
    rw [if_neg hsize, h.stage]
    exact ⟨h.last, drain_state _ _, vget_vset_self _ _ _, fun j hj => vget_vset_ne _ _ _ _ hj⟩

end HostBytes

/-! ### Segments written by Ladle (R240, R364, R409) -/

section Segments

variable {d : Dev} {nn : Fin 16} {g : Fin 32}

theorem segNext_of_noMirror (h : d.twin.mirror = []) : segNext d nn = d.fld SegWr.WR nn := by
  simp [segNext, h]

theorem segFull_of_noMirror (h : d.twin.mirror = []) : segFull d nn = decide (32 ≤ (d.fld SegWr.WR nn + 64 - d.fld SegRd.RD nn) % 64) := by
  rw [segFull, segNext_of_noMirror h]

/-- A word written to a register of 32 bits is the register. -/
theorem reg_put_word {ι : Type} (d : Dev) (f : RF ι) (i : ι) (w : Word) (hlo : f.lo = 0) (hlen : f.len = 32) :
    (d.put f i w.toNat).reg (f.addr i) = w := by
  refine BitVec.eq_of_toNat_eq ?_
  have h := Dev.fld_put_self d f i w.toNat (by omega)
  rw [hlen, Nat.mod_eq_of_lt w.isLt] at h
  have hword (v : Word) : fget f.lo f.len v = v.toNat := by
    rw [hlo, hlen]
    simp [fget]
  exact (hword _).symm.trans h

/-- Registers written by a segment: its words and SEGWR. -/
def segRegs (nn : Fin 16) (g : Fin 32) : List Nat := SegWr.addr nn :: (List.finRange 8).map fun i => Seg.addr (nn, g, i)

/-- The registers of a channel are none of those. -/
theorem noSegRegs {a : Nat} (h : a < 0x1000000) : a ∉ segRegs nn g := by
  simp only [segRegs, List.mem_cons, List.mem_map, List.mem_finRange, true_and, not_or, not_exists, SegWr.addr, Seg.addr, blockBase]
  exact ⟨by omega, fun i => by omega⟩

/-- The words of a segment stand apart from the pointers of the ring and the role of the unit. -/
theorem segWords_kept {x : Dev} (h : OnlyRegs ((List.finRange 8).map fun i => Seg.addr (nn, g, i)) d x) :
    x.fld TwStat.ROLE () = d.fld TwStat.ROLE () ∧ x.fld SegRd.RD nn = d.fld SegRd.RD nn ∧ x.fld SegWr.WR nn = d.fld SegWr.WR nn := by
  refine ⟨h.fld ?_, h.fld ?_, h.fld ?_⟩ <;> simp only [List.mem_map, List.mem_finRange, true_and, not_exists, Seg.addr, blockBase, TwStat.ROLE,
    TwStat.addr, SegRd.RD, SegRd.addr, SegWr.WR, SegWr.addr] <;> omega

/-- The words of a segment written one by one on an ALONE unit. -/
theorem segWords_alone (hrole : d.fld TwStat.ROLE () ≠ 1) (hroom : segFill d nn ≤ (g.val + 64 - d.fld SegRd.RD nn) % 32) (w : Fin 8 → Word) :
    let t := forAll d fun x (i : Fin 8) => ladleMirror x (Seg.addr (nn, g, i)) (w i) (some nn) fun x => segmentDo x nn g i (w i)
    OnlyRegs ((List.finRange 8).map fun i => Seg.addr (nn, g, i)) d t ∧ ∀ i, t.reg (Seg.addr (nn, g, i)) = w i := by
  let as := (List.finRange 8).map fun i => Seg.addr (nn, g, i)
  have h := forAll_induction (n := 8) (d := d) (f := fun x i => ladleMirror x (Seg.addr (nn, g, i)) (w i) (some nn) fun x => segmentDo x nn g i (w i))
    (fun k x => OnlyRegs as d x ∧ ∀ i : Fin 8, i.val < k → x.reg (Seg.addr (nn, g, i)) = w i) ⟨OnlyRegs.refl, fun i hi => absurd hi (by omega)⟩
    fun i x hx => by
      obtain ⟨honly, hdone⟩ := hx
      obtain ⟨hr, hrd, hwr⟩ := segWords_kept honly
      have hfill : segFill x nn = segFill d nn := by rw [segFill, hwr, hrd, segFill]
      have hput : (ladleMirror x (Seg.addr (nn, g, i)) (w i) (some nn) fun x => segmentDo x nn g i (w i)) = x.put Seg.V (nn, g, i) (w i).toNat := by
        rw [ladleMirror, if_neg (by omega), segmentDo, if_neg (by rw [hfill, hrd]; omega)]
      rw [hput]
      refine ⟨honly.trans (onlyRegs_put (by simp [as, Seg.V])), fun j hj => ?_⟩
      rcases eq_or_ne j i with rfl | hne
      · exact reg_put_word x Seg.V _ _ rfl rfl
      · have haddr : Seg.addr (nn, g, j) ≠ Seg.addr (nn, g, i) := by
          have := Fin.val_ne_of_ne hne
          simp only [Seg.addr]
          omega
        rw [Dev.reg_put_ne _ _ _ _ _ haddr]
        exact hdone j (by have := Fin.val_ne_of_ne hne; omega)
  exact ⟨h.1, fun i => h.2 i i.isLt⟩

/-- A segment written on an ALONE unit (R364). -/
theorem segStore_alone (ws : List Word) (hrole : d.fld TwStat.ROLE () ≠ 1) (hmirror : d.twin.mirror = [])
    (hroom : (d.fld SegWr.WR nn + 64 - d.fld SegRd.RD nn) % 64 < 32) (hg : g.val = d.fld SegWr.WR nn % 32) :
    OnlyRegs (segRegs nn g) d (segStore d nn ws) ∧ (segStore d nn ws).fld SegWr.WR nn = (d.fld SegWr.WR nn + 1) % 64 ∧
    ∀ i : Fin 8, (segStore d nn ws).reg (Seg.addr (nn, g, i)) = (ws[i.val]?).getD 0 := by
  have hwr : d.fld SegWr.WR nn < 64 := Dev.fld_lt d SegWr.WR nn
  have hrd : d.fld SegRd.RD nn < 64 := Dev.fld_lt d SegRd.RD nn
  obtain ⟨honly, hwords⟩ := segWords_alone (d := d) (nn := nn) (g := g) hrole (by unfold segFill; omega) fun i => (ws[i.val]?).getD 0
  let t := forAll d fun x (i : Fin 8) => ladleMirror x (Seg.addr (nn, g, i)) ((ws[i.val]?).getD 0) (some nn) fun x =>
    segmentDo x nn g i ((ws[i.val]?).getD 0)
  have hge : (⟨d.fld SegWr.WR nn % 32, Nat.mod_lt _ (by omega)⟩ : Fin 32) = g := Fin.ext hg.symm
  obtain ⟨hrole', hrd', hwr'⟩ : t.fld TwStat.ROLE () = d.fld TwStat.ROLE () ∧ t.fld SegRd.RD nn = d.fld SegRd.RD nn ∧
    t.fld SegWr.WR nn = d.fld SegWr.WR nn := segWords_kept honly
  have hstore : segStore d nn ws = t.put SegWr.WR nn ((d.fld SegWr.WR nn + 1) % 64) := by
    unfold segStore
    simp only [segNext_of_noMirror hmirror, hge]
    change ladleMirror t _ _ _ _ = _
    rw [ladleMirror, if_neg (by omega), segwrDo, if_neg (by rw [segFill, hwr', hrd']; omega)]
  rw [hstore]
  refine ⟨(honly.mono (by simp [segRegs])).trans (onlyRegs_put (by simp [segRegs, SegWr.WR])), ?_, fun i => ?_⟩
  · rw [Dev.fld_put_self _ SegWr.WR _ _ (by decide)]
    exact Nat.mod_mod _ 64
  · have haddr : Seg.addr (nn, g, i) ≠ SegWr.addr nn := by
      simp only [Seg.addr, SegWr.addr]
      omega
    rw [Dev.reg_put_ne _ _ _ _ _ haddr]
    exact hwords i

theorem mirSend_sent (d : Dev) (a : Nat) (w : Word) (blk : Option (Fin 16)) :
    ∃ tw, mirSend d a w blk = { d with twin := tw } ∧ tw.mirror = d.twin.mirror ++ [⟨a, w, blk, mirInstant d⟩] := by
  unfold mirSend twSend
  dsimp only
  split
  · exact ⟨_, rfl, rfl⟩
  · exact ⟨_, rfl, rfl⟩

/-- A segment written on an ACTIVE unit is on its way to both (R409). -/
theorem segStore_active (ws : List Word) (hrole : d.fld TwStat.ROLE () = 1) (hmirror : d.twin.mirror = []) (hg : g.val = d.fld SegWr.WR nn % 32) :
    ∃ tw, segStore d nn ws = { d with twin := tw } ∧ tw.mirror.map (fun m => (m.addr, m.word)) =
      (List.finRange 8).map (fun i => (Seg.addr (nn, g, i), (ws[i.val]?).getD 0)) ++
        [(SegWr.addr nn, BitVec.ofNat 32 ((d.fld SegWr.WR nn + 1) % 64))] := by
  have hge : (⟨d.fld SegWr.WR nn % 32, Nat.mod_lt _ (by omega)⟩ : Fin 32) = g := Fin.ext hg.symm
  let f := fun (x : Dev) (i : Fin 8) => ladleMirror x (Seg.addr (nn, g, i)) ((ws[i.val]?).getD 0) (some nn) fun x =>
    segmentDo x nn g i ((ws[i.val]?).getD 0)
  have hwords := forAll_induction (n := 8) (d := d) (f := f)
    (fun k x => ∃ tw, x = { d with twin := tw } ∧ tw.mirror.map (fun m => (m.addr, m.word)) =
      ((List.finRange 8).take k).map fun i => (Seg.addr (nn, g, i), (ws[i.val]?).getD 0))
    ⟨d.twin, rfl, by simp [hmirror]⟩ fun i x hx => by
      obtain ⟨tw, rfl, hsent⟩ := hx
      obtain ⟨tw', htw', hsent'⟩ := mirSend_sent { d with twin := tw } (Seg.addr (nn, g, i)) ((ws[i.val]?).getD 0) (some nn)
      refine ⟨tw', (if_pos hrole).trans htw', ?_⟩
      rw [hsent', List.map_append, hsent, List.take_add_one, List.getElem?_eq_getElem (l := List.finRange 8) (i := i.val) (by simp), List.getElem_finRange, List.map_append]
      rfl
  obtain ⟨tw, htw, hsent⟩ := hwords
  rw [List.take_of_length_le (by simp)] at hsent
  obtain ⟨tw', htw', hsent'⟩ := mirSend_sent { d with twin := tw } (SegWr.addr nn) (BitVec.ofNat 32 ((d.fld SegWr.WR nn + 1) % 64)) (some nn)
  refine ⟨tw', ?_, by rw [hsent', List.map_append, hsent]; rfl⟩
  unfold segStore
  simp only [segNext_of_noMirror hmirror, hge]
  change ladleMirror (forAll d f) _ _ _ _ = _
  rw [htw]
  exact (if_pos hrole).trans htw'

end Segments

/-! #### The units (R240, R364) -/

/-- The block of a segment's descriptor. -/
def segBlk (x : List Word) : Fin 16 := ⟨dDaddr x % 16, Nat.mod_lt _ (by omega)⟩

section SegmentUnits

variable {d : Dev} {c : Fin 8} {x : List Word} (hu : unitChip ∉ d.undef) (hf : d.failDue = none) (hx : (chanOf d c).desc = some x)
  (hturn : ladleTurn d c = true) (hskip : shadowSkips d x = false) (hsk : dSk x = 1) (hdk : dDk x = 3) (hmirror : d.twin.mirror = [])
include hu hf hx hturn hskip hsk hdk hmirror

/-- A full ring of segments holds the channel up. -/
theorem gives_segmentFull {hd : List Byte} (hst : d.fld ChStat.STATE c = 1 ∨ d.fld ChStat.STATE c = 3)
    (hfull : 32 ≤ (d.fld SegWr.WR (segBlk x) + 64 - d.fld SegRd.RD (segBlk x)) % 64) :
    Gives (.ladleUnitDone c hd) d (if d.fld ChStat.STATE c = 3 then chanEnd (unitTaken d c) c 4 else unitTaken d c) := by
  have hg := gives_ladleUnitDone (hd := hd) hu hx hst hturn
  have hnohost : usesHost x = true → fnUsable d (chanFn d c) = true := by simp [usesHost, hsk, hdk]
  have hseg : segFull (freeTaken (turned d c)) (segBlk x) = true := by
    rw [segFull_of_noMirror (d := freeTaken (turned d c)) hmirror]
    exact decide_eq_true hfull
  rw [ladleUnit_bytes (d := turned d c) hskip hnohost (by omega), unitBytes_eq] at hg
  dsimp only at hg
  rw [if_pos (.inr ⟨hdk, hseg⟩)] at hg
  have hfail : failCheck (if d.fld ChStat.STATE c = 3 then chanEnd (unitTaken d c) c 4 else unitTaken d c) =
      if d.fld ChStat.STATE c = 3 then chanEnd (unitTaken d c) c 4 else unitTaken d c := by
    split
    · exact failCheck_chanEnd (d := unitTaken d c) hf (by decide)
    · exact failCheck_of_none hf
  rw [← hfail]
  exact hg

omit hf in
/-- A unit into a ring of segments that has room. -/
theorem gives_segmentUnit {hd : List Byte} (hst : d.fld ChStat.STATE c = 1)
    (hroom : ¬ 32 ≤ (d.fld SegWr.WR (segBlk x) + 64 - d.fld SegRd.RD (segBlk x)) % 64) (hmore : 32 < dLen x - (chanOf d c).moved)
    {s : Dev} (hs : segStore (counted (unitTaken d c) c 32) (segBlk x) (wordsOf (hwBytes d (dSaddr x + (chanOf d c).moved) 32)) = s)
    (hchan : s.chan = (counted (unitTaken d c) c 32).chan) (hstat : s.fld ChStat.STATE c = 1) (hfail : s.failDue = none) :
    Gives (.ladleUnitDone c hd) d (onChan s c fun y => { y with moved := y.moved + 32, nrec := y.nrec + 1 }) := by
  have hnohost : usesHost x = true → fnUsable d (chanFn d c) = true := by simp [usesHost, hsk, hdk]
  have hsize : unitSize d c x hd d.fresh = 32 := by simp [unitSize, hsk, hdk]
  have hseg : segFull d (segBlk x) = false := by
    rw [segFull_of_noMirror hmirror]
    exact decide_eq_false hroom
  have htake : stageRefuses d x = false := by simp [stageRefuses, hdk]
  have hg := gives_byteUnit (hd := hd) hu hx (.inl hst) hturn hskip hnohost (by omega) hsize (by omega) (fun _ => hseg) htake
  rw [if_neg (by omega)] at hg
  have hlen : 4 * (wordsOf (hwBytes d (dSaddr x + (chanOf d c).moved) 32)).length = 32 := by
    rw [four_mul_length_wordsOf] <;> simp [hwBytes]
  have hwrite : destWrite (unitTaken d c) c x (wordsOf (hwBytes d (dSaddr x + (chanOf d c).moved) 32)) =
      onChan s c fun y => { y with nrec := y.nrec + 1 } := by
    rw [← hs]
    simp only [destWrite, hdk, hlen]
    rfl
  have hgone : chanGone (onChan s c fun y => { y with nrec := y.nrec + 1 }) c = false := by
    refine chanGone_eq_false (y := x) ?_
    rw [chanOf_onChan, chanOf, hchan, ← chanOf, counted_chanOf]
    exact hx
  have hleft : ¬ 32 = chanLeft (chanOf (unitTaken d c) c) x := Nat.ne_of_lt hmore
  have hunit : unitWritten (unitTaken d c) c x 32 (hwBytes d (dSaddr x + (chanOf d c).moved) 32) =
      onChan s c fun y => { y with moved := y.moved + 32, nrec := y.nrec + 1 } := by
    simp only [unitWritten, hwrite, hgone, onChan_onChan, if_neg hleft]
    rw [if_neg (by simp), if_neg]
    exact fun h3 => absurd (hstat.symm.trans h3) (by decide)
  rw [hunit] at hg
  rw [failCheck_of_none (by exact hfail)] at hg
  exact hg

theorem completes_segmentWait {hd : List Byte} (hst : d.fld ChStat.STATE c = 1)
    (hfull : 32 ≤ (d.fld SegWr.WR (segBlk x) + 64 - d.fld SegRd.RD (segBlk x)) % 64) :
    Completes (.ladleUnitDone c hd) d fun t => t.regs = d.regs ∧ chanOf t c = chanOf d c := by
  have hg := gives_segmentFull (hd := hd) hu hf hx hturn hskip hsk hdk hmirror (.inl hst) hfull
  rw [if_neg (by omega)] at hg
  exact hg.completes ⟨rfl, rfl⟩

theorem completes_segmentStop {hd : List Byte} (hst : d.fld ChStat.STATE c = 3)
    (hfull : 32 ≤ (d.fld SegWr.WR (segBlk x) + 64 - d.fld SegRd.RD (segBlk x)) % 64) :
    Completes (.ladleUnitDone c hd) d fun t => t.fld ChStat.STATE c = 0 ∧ t.fld ChStat.LAST c = 4 := by
  have hg := gives_segmentFull (hd := hd) hu hf hx hturn hskip hsk hdk hmirror (.inr hst) hfull
  rw [if_pos hst] at hg
  exact hg.completes ⟨by simp [chanEnd_state, statusGoesOn], chanEnd_last _ _ _ (by decide)⟩

theorem completes_segmentUnit {hd : List Byte} (hst : d.fld ChStat.STATE c = 1)
    (hroom : ¬ 32 ≤ (d.fld SegWr.WR (segBlk x) + 64 - d.fld SegRd.RD (segBlk x)) % 64) (hmore : 32 < dLen x - (chanOf d c).moved)
    {g : Fin 32} (hg : g.val = d.fld SegWr.WR (segBlk x) % 32) :
    Completes (.ladleUnitDone c hd) d fun t =>
      chanOf t c = { chanOf d c with moved := (chanOf d c).moved + 32, done := (chanOf d c).done + 32, nrec := (chanOf d c).nrec + 1 } ∧
      t.fld ChBytes.BYTES c = (d.fld ChBytes.BYTES c + 32) % 2 ^ 32 ∧
      (d.fld TwStat.ROLE () ≠ 1 → t.fld SegWr.WR (segBlk x) = (d.fld SegWr.WR (segBlk x) + 1) % 64 ∧
        ∀ i : Fin 8, t.reg (Seg.addr (segBlk x, g, i)) = hwWord d (dSaddr x + (chanOf d c).moved + 4 * i.val)) ∧
      (d.fld TwStat.ROLE () = 1 → t.fld SegWr.WR (segBlk x) = d.fld SegWr.WR (segBlk x) ∧ t.twin.mirror.map (fun m => (m.addr, m.word)) =
        (List.finRange 8).map (fun i => (Seg.addr (segBlk x, g, i), hwWord d (dSaddr x + (chanOf d c).moved + 4 * i.val))) ++
          [(SegWr.addr (segBlk x), BitVec.ofNat 32 ((d.fld SegWr.WR (segBlk x) + 1) % 64))]) := by
  let e := counted (unitTaken d c) c 32
  let ws := wordsOf (hwBytes d (dSaddr x + (chanOf d c).moved) 32)
  have hm : Moved d c 32 e := (counted_moved (unitTaken d c) c 32).ofTaken
  have hword (i : Fin 8) : (ws[i.val]?).getD 0 = hwWord d (dSaddr x + (chanOf d c).moved + 4 * i.val) := by
    rw [wordsOf_hwBytes _ _ _ _ (by omega), Option.getD_some]
  have hfar {ι : Type} (f : RF ι) (i : ι) (ha : 0x20800 ≤ f.addr i) : e.fld f i = d.fld f i := hm.regs.fld (by
    simp only [List.mem_singleton, ChBytes.addr]
    omega)
  have hwr : e.fld SegWr.WR (segBlk x) = d.fld SegWr.WR (segBlk x) := hfar _ _ (by simp only [SegWr.WR, SegWr.addr, blockBase]; omega)
  have hrd : e.fld SegRd.RD (segBlk x) = d.fld SegRd.RD (segBlk x) := hfar _ _ (by simp only [SegRd.RD, SegRd.addr, blockBase]; omega)
  have hrole : e.fld TwStat.ROLE () = d.fld TwStat.ROLE () := hfar _ _ (by decide)
  have hchan (t : Dev) (h : t.chan = e.chan) : chanOf (onChan t c fun y => { y with moved := y.moved + 32, nrec := y.nrec + 1 }) c =
      { chanOf d c with moved := (chanOf d c).moved + 32, done := (chanOf d c).done + 32, nrec := (chanOf d c).nrec + 1 } := by
    rw [chanOf_onChan, chanOf, h, ← chanOf, counted_chanOf]
    rfl
  by_cases hr : d.fld TwStat.ROLE () = 1
  · obtain ⟨tw, htw, hsent⟩ := segStore_active ws (hrole.trans hr) hmirror (hg.trans (by rw [hwr]))
    have hgives := gives_segmentUnit (hd := hd) hu hx hturn hskip hsk hdk hmirror hst hroom hmore htw rfl (hm.state.trans hst) hf
    refine hgives.completes ⟨hchan _ rfl, hm.bytes, fun hn => absurd hr hn, fun _ => ⟨hwr, ?_⟩⟩
    simp only [hword, hwr] at hsent
    exact hsent
  · obtain ⟨honly, hnext, hwords⟩ := segStore_alone (d := e) (nn := segBlk x) (g := g) ws (by rw [hrole]; exact hr) hmirror (by rw [hwr, hrd]; omega) (by rw [hwr]; exact hg)
    generalize hs : segStore e (segBlk x) ws = s at honly hnext hwords
    have hlow {ι : Type} (f : RF ι) (i : ι) (ha : f.addr i < 0x1000000) : s.fld f i = e.fld f i := honly.fld (noSegRegs ha)
    have hstat : s.fld ChStat.STATE c = 1 :=
      (hlow ChStat.STATE c (by simp only [ChStat.STATE, ChStat.addr]; omega)).trans (hm.state.trans hst)
    have hfail : s.failDue = none := (congrArg Dev.failDue honly.1).trans hf
    have hch : s.chan = e.chan := (congrArg Dev.chan honly.1 :)
    have hgives := gives_segmentUnit (hd := hd) hu hx hturn hskip hsk hdk hmirror hst hroom hmore hs hch hstat hfail
    refine hgives.completes ⟨hchan _ hch, ?_, fun _ => ⟨hnext.trans (by rw [hwr]), fun i => (hwords i).trans (hword i)⟩, fun h => absurd h hr⟩
    exact (hlow ChBytes.BYTES c (by simp only [ChBytes.BYTES, ChBytes.addr]; omega)).trans hm.bytes

end SegmentUnits

/-! ### Packets pushed by Ladle (R309, R310, R364) -/

/-- What a push into queue q of region n leaves, however it goes: everything but the queue's STAT, the regions' pools and the messages. -/
structure PushStep (n : Fin 4) (q : Fin 64) (d t : Dev) : Prop where
  regs : RegsKept [QStat.addr (n, q)] d t
  chan : t.chan = d.chan
  failDue : t.failDue = d.failDue
  badQ : (t.r n).badQ = (d.r n).badQ
  badFree : (t.r n).badFree = (d.r n).badFree

section PushStep

variable {n : Fin 4} {q : Fin 64} {d x y : Dev}

theorem PushStep.refl : PushStep n q d d := ⟨fun _ _ => rfl, rfl, rfl, rfl, rfl⟩

theorem PushStep.trans (h1 : PushStep n q d x) (h2 : PushStep n q x y) : PushStep n q d y :=
  ⟨h1.regs.trans h2.regs, h2.chan.trans h1.chan, h2.failDue.trans h1.failDue, h2.badQ.trans h1.badQ, h2.badFree.trans h1.badFree⟩

theorem PushStep.ite {c : Prop} [Decidable c] (hx : PushStep n q d x) (hy : PushStep n q d y) : PushStep n q d (if c then x else y) := by
  split <;> assumption

theorem PushStep.foldl {α : Type} {f : Dev → α → Dev} (hf : ∀ z a, PushStep n q z (f z a)) (h : PushStep n q d x) (l : List α) :
    PushStep n q d (l.foldl f x) := by
  induction l generalizing x with
  | nil => exact h
  | cons a l ih => exact ih (h.trans (hf x a))

/-- A change of the region that leaves the marks of differing copies. -/
theorem PushStep.onR {u : Rgn → Rgn} (h : PushStep n q d x) (hq : ∀ r, (u r).badQ = r.badQ := by exact fun _ => rfl)
    (hf : ∀ r, (u r).badFree = r.badFree := by exact fun _ => rfl) : PushStep n q d (x.onR n u) :=
  ⟨h.regs, h.chan, h.failDue, by rw [Dev.r_onR_self, hq, h.badQ], by rw [Dev.r_onR_self, hf, h.badFree]⟩

theorem PushStep.onQ {u : Queue → Queue} (h : PushStep n q d x) : PushStep n q d (Machine.onQ x n q u) := h.onR

/-- A field of the queue's STAT is written. -/
theorem PushStep.put {f : RF (Fin 4 × Fin 64)} {v : Nat} (hf : f.addr = QStat.addr) (h : PushStep n q d x) : PushStep n q d (x.put f (n, q) v) :=
  ⟨h.regs.trans (regsKept_put (by simp [hf])), h.chan, h.failDue, h.badQ, h.badFree⟩

/-- What neither registers, channels nor regions see. -/
theorem PushStep.same (h : PushStep n q d x) (hr : y.regs = x.regs := by rfl) (hc : y.chan = x.chan := by rfl) (hf : y.failDue = x.failDue := by rfl)
    (hg : y.rgn = x.rgn := by rfl) : PushStep n q d y where
  regs a ha := by rw [Dev.reg, hr]; exact h.regs a ha
  chan := hc.trans h.chan
  failDue := hf.trans h.failDue
  badQ := by rw [Dev.r, hg]; exact h.badQ
  badFree := by rw [Dev.r, hg]; exact h.badFree

theorem freeCell_pushStep (d : Dev) (c : Nat) : PushStep n q d (freeCell d n c) := by
  have hfree : PushStep n q d (freeTaken d) := PushStep.refl.same
  exact hfree.onR

theorem freeCells_pushStep (d : Dev) (cs : List Nat) : PushStep n q d (freeCells d n cs) :=
  PushStep.refl.foldl (fun z c => freeCell_pushStep z c) cs

theorem takeCell_pushStep (d : Dev) (prev : Option Nat) : PushStep n q d (takeCell d n q prev).2 := by
  have hfree : PushStep n q d (freeTaken d) := PushStep.refl.same
  exact hfree.onR

theorem putCells_pushStep (d : Dev) (cells : List Nat) (i : Nat) (ws : List Word) : PushStep n q d (putCells d n cells i ws) := by
  have hfold (z : Dev × Nat) : PushStep n q z.1 (ws.foldl (fun x w => (putCell x.1 n cells x.2 w, x.2 + 1)) z).1 := by
    induction ws generalizing z with
    | nil => exact PushStep.refl
    | cons w ws ih =>
      have hput : PushStep n q z.1 (putCell z.1 n cells z.2 w) := PushStep.refl.onR
      exact hput.trans (ih (putCell z.1 n cells z.2 w, z.2 + 1))
  exact hfold (d, i)

theorem qDropEvent_pushStep (d : Dev) : PushStep n q d (qDropEvent d n q) := by
  have hflag : PushStep n q d (d.flag QStat.DROPPED (n, q)) := (PushStep.refl.put (f := QStat.DROPPED) (v := 1) rfl).same
  exact (hflag.put (f := QStat.DROPCNT) (v := (d.flag QStat.DROPPED (n, q)).fld QStat.DROPCNT (n, q) + 1) rfl).same

theorem dropOpen_pushStep (d : Dev) : PushStep n q d (dropOpen d n q) := by
  unfold dropOpen
  extract_lets e
  have hfreed : PushStep n q d e := by
    unfold e
    split
    · exact freeCells_pushStep _ _
    · exact PushStep.refl
  exact hfreed.onQ.trans (qDropEvent_pushStep _)

theorem openPkt_pushStep {x : Dev} (h : openPkt d n q = some x) : PushStep n q d x := by
  unfold openPkt at h
  split at h
  · cases h
    exact PushStep.refl
  · split at h
    · cases h
      exact (takeCell_pushStep d none).onQ
    · cases h

theorem inc_pushStep (d : Dev) : PushStep n q d (d.inc QStat.DROPCNT (n, q)) :=
  (PushStep.refl.put (f := QStat.DROPCNT) (v := d.fld QStat.DROPCNT (n, q) + 1) rfl).same

/-- A word pushed, however that goes, where the copies of the pointers agree. -/
theorem pushWord_pushStep (hbad : (d.r n).badQ = []) (hfree : (d.r n).badFree = false) (who : Nat) (w : Word) :
    PushStep n q d (pushWord d n q who w) := by
  unfold pushWord
  rw [touchFree_agree hfree, touchQ_agree hbad]
  refine PushStep.ite (inc_pushStep d) (PushStep.ite PushStep.refl.onR (PushStep.ite PushStep.refl (PushStep.ite (dropOpen_pushStep d) ?_)))
  split
  · exact dropOpen_pushStep d
  · next x hopen =>
    have hx := openPkt_pushStep hopen
    split
    · exact hx
    · next p _ =>
      refine PushStep.ite (hx.trans (dropOpen_pushStep x)) ?_
      dsimp only
      split
      · exact ((hx.trans (takeCell_pushStep x _)).onR).onQ
      · exact (hx.onR).onQ

theorem popTake_pushStep (d : Dev) : PushStep n q d (popTake d n q).2 := by
  have hflag : PushStep n q d (d.flag QStat.OWNFULL (n, q)) := (PushStep.refl.put (f := QStat.OWNFULL) (v := 1) rfl).same
  unfold popTake
  extract_lets x cur
  split
  · split
    · exact hflag
    · split
      · exact PushStep.refl
      · exact PushStep.refl.onQ
  · clear_value cur
    rcases cur with _ | ⟨p, i⟩
    · exact PushStep.refl
    · exact (PushStep.ite (freeCell_pushStep _ _) PushStep.refl).onQ

theorem answer_pushStep (d : Dev) (m : Master) (code : Nat) (ws : List Word) : PushStep n q d (answer d m code ws) :=
  PushStep.ite (PushStep.ite PushStep.refl.same PushStep.refl) (PushStep.ite PushStep.refl PushStep.refl.same)

theorem linkPkt_pushStep (d : Dev) (p : Pkt) : PushStep n q d (linkPkt d n q p) :=
  PushStep.refl.onQ.trans (PushStep.refl.foldl (fun z _ => PushStep.ite ((popTake_pushStep z).onQ.trans (answer_pushStep _ _ _ _)) PushStep.refl) _)

/-- A packet closed, however that goes. -/
theorem closePkt_pushStep (hbad : (d.r n).badQ = []) (hfree : (d.r n).badFree = false) (who : Nat) (w : Word) :
    PushStep n q d (closePkt d n q who w) := by
  unfold closePkt
  rw [touchFree_agree hfree, touchQ_agree hbad]
  refine PushStep.ite (inc_pushStep d) (PushStep.ite PushStep.refl.onR
    (PushStep.ite PushStep.refl.onQ (PushStep.ite (dropOpen_pushStep d).onQ ?_)))
  split
  · exact (dropOpen_pushStep d).onQ
  · next x hopen =>
    have hx := openPkt_pushStep hopen
    split
    · exact hx
    · exact ((hx.trans (putCells_pushStep _ _ _ _)).onQ).trans (linkPkt_pushStep _ _)

theorem PushStep.clean (h : PushStep n q d x) (hbad : (d.r n).badQ = []) (hfree : (d.r n).badFree = false) :
    (x.r n).badQ = [] ∧ (x.r n).badFree = false :=
  ⟨h.badQ.trans hbad, h.badFree.trans hfree⟩

/-- Words pushed in turn. -/
theorem pushWords_pushStep (hbad : (d.r n).badQ = []) (hfree : (d.r n).badFree = false) (who : Nat) (ws : List Word) :
    PushStep n q d (ws.foldl (fun z w => pushWord z n q who w) d) := by
  induction ws generalizing d with
  | nil => exact PushStep.refl
  | cons w ws ih =>
    have hw := pushWord_pushStep (q := q) hbad hfree who w
    obtain ⟨hbad', hfree'⟩ := hw.clean hbad hfree
    exact hw.trans (ih hbad' hfree')

end PushStep

/-! #### A packet that finds its cell (R307, R309) -/

/-- A queue that takes a packet from its producer now: its copies agree, no packet is open and no pop waits. -/
structure TakesPkt (d : Dev) (n : Fin 4) (q : Fin 64) (who : Nat) : Prop where
  badQ : (d.r n).badQ = []
  badFree : (d.r n).badFree = false
  rebuild : d.bit RQstat.REBUILD n = false
  prod : notProd d n q who = false
  live : qLive d n q = true
  dropping : (qGet d n q).dropping = false
  opn : (qGet d n q).opn = none
  stalls : (qGet d n q).stalls = []

/-- The same queue with words ws of a packet pushed into the one cell. -/
structure Filling (d : Dev) (n : Fin 4) (q : Fin 64) (cell : Nat) (ws : List Word) (x : Dev) : Prop where
  regs : x.regs = d.regs
  queue : qGet x n q = { qGet d n q with opn := some ⟨0, 0, [cell], ws⟩ }
  step : PushStep n q d x

section OneCell

variable {d x : Dev} {n : Fin 4} {q : Fin 64} {who cell : Nat} {ws : List Word} (hd : TakesPkt d n q who)

theorem qGet_putCell (d : Dev) (n : Fin 4) (q : Fin 64) (cells : List Nat) (i : Nat) (w : Word) : qGet (putCell d n cells i w) n q = qGet d n q := by
  unfold putCell
  exact qGet_onR _ _ (fun _ => by rfl) _

theorem qGet_takeCell (d : Dev) (n : Fin 4) (q : Fin 64) (prev : Option Nat) : qGet (takeCell d n q prev).2 n q = qGet d n q := by
  show qGet ((freeTaken d).onR n _) n q = qGet (freeTaken d) n q
  exact qGet_onR _ _ (fun _ => by rfl) _

theorem bit_congr_regs {ι : Type} (h : x.regs = d.regs) (f : RF ι) (i : ι) : x.bit f i = d.bit f i := by
  rw [Dev.bit, Dev.fld, Dev.reg, h, Dev.bit, Dev.fld, Dev.reg]

theorem qLive_congr (h : x.regs = d.regs) : qLive x n q = qLive d n q := by
  rw [qLive, bit_congr_regs h, bit_congr_regs h, qLive]

theorem notProd_congr (h : x.regs = d.regs) : notProd x n q who = notProd d n q who := by
  rw [notProd, bit_congr_regs h, Dev.fld, Dev.reg, h, notProd, Dev.fld, Dev.reg]

include hd

/-- The first word opens the packet. -/
theorem pushWord_opens (hcan : canTake d n q 1 = true) (w : Word) : ∃ cell, Filling d n q cell [w] (pushWord d n q who w) := by
  have hstep := pushWord_pushStep (q := q) hd.badQ hd.badFree who w
  let t := takeCell d n q none
  let e := onQ t.2 n q fun x => { x with opn := some ⟨0, 0, [t.1], []⟩ }
  have hopen : openPkt d n q = some e := by
    simp only [openPkt, hd.opn, hcan, Option.isSome_none, Bool.false_eq_true, if_false, if_true]
    rfl
  have hqueue : qGet e n q = { qGet d n q with opn := some ⟨0, 0, [t.1], []⟩ } := by
    rw [qGet_onQ_self, qGet_takeCell]
  have hpush : pushWord d n q who w = onQ (putCell e n [t.1] 1 w) n q fun x => { x with opn := some ⟨0, 0, [t.1], [w]⟩ } := by
    unfold pushWord
    rw [touchFree_agree hd.badFree, touchQ_agree hd.badQ]
    simp [hd.prod, hd.rebuild, hd.dropping, hd.live, hopen, hqueue]
  refine ⟨t.1, ?_, ?_, hstep⟩
  · rw [hpush]
    rfl
  · rw [hpush, qGet_onQ_self, qGet_putCell, hqueue]

/-- A further word joins it, while the cell has room. -/
theorem Filling.push (h : Filling d n q cell ws x) (hlen : ws.length < 15) (w : Word) : Filling d n q cell (ws ++ [w]) (pushWord x n q who w) := by
  obtain ⟨hbad, hfree⟩ := h.step.clean hd.badQ hd.badFree
  have hstep := pushWord_pushStep (q := q) hbad hfree who w
  have hopen : openPkt x n q = some x := by
    simp [openPkt, h.queue]
  have hmod : ¬ (ws.length + 1) % 16 = 0 := by omega
  have hlong : ¬ 1024 ≤ ws.length + 1 := by omega
  have hpush : pushWord x n q who w = onQ (putCell x n [cell] (ws.length + 1) w) n q fun x => { x with opn := some ⟨0, 0, [cell], ws ++ [w]⟩ } := by
    unfold pushWord
    rw [touchFree_agree hfree, touchQ_agree hbad]
    simp [notProd_congr h.regs, bit_congr_regs h.regs, qLive_congr h.regs, hd.prod, hd.rebuild, hd.dropping, hd.live, hopen, h.queue, hmod, hlong]
  refine ⟨?_, ?_, h.step.trans hstep⟩
  · rw [hpush]
    exact h.regs
  · rw [hpush, qGet_onQ_self, qGet_putCell, h.queue]

/-- Words that the one cell has room for. -/
theorem Filling.pushAll (h : Filling d n q cell ws x) (vs : List Word) (hlen : ws.length + vs.length ≤ 15) :
    Filling d n q cell (ws ++ vs) (vs.foldl (fun z w => pushWord z n q who w) x) := by
  induction vs generalizing ws x with
  | nil => simpa using h
  | cons v vs ih =>
    simp only [List.length_cons] at hlen
    have hv := ih (h.push hd (by omega) v) (by simp only [List.length_append, List.length_singleton]; omega)
    rwa [List.append_assoc] at hv

/-- PEND closes the packet and links it (R309). -/
theorem Filling.close (h : Filling d n q cell ws x) (hq : q ≠ tq) (w : Word) : (closePkt x n q who w).regs = d.regs ∧
    (qGet (closePkt x n q who w) n q).pkts = (qGet d n q).pkts ++
      [⟨fget 0 4 w, 4 * ws.length - fget 4 2 w, [cell], trimWords (4 * ws.length - fget 4 2 w) ws⟩] := by
  obtain ⟨hbad, hfree⟩ := h.step.clean hd.badQ hd.badFree
  have hopen : openPkt x n q = some x := by
    simp [openPkt, h.queue]
  have hq2 : ¬ q.val = 2 := fun h2 => hq (Fin.ext h2)
  let len := 4 * ws.length - fget 4 2 w
  let p : Pkt := ⟨fget 0 4 w, len, [cell], trimWords len ws⟩
  let e := putCells x n [cell] 0 ((lenSlot p :: p.words) ++ List.replicate (16 * 1 - 1 - p.words.length) 0)
  have hclose : closePkt x n q who w = linkPkt (onQ e n q fun x => { x with opn := none }) n q p := by
    unfold closePkt
    rw [touchFree_agree hfree, touchQ_agree hbad]
    simp [notProd_congr h.regs, bit_congr_regs h.regs, qLive_congr h.regs, hd.prod, hd.rebuild, hd.dropping, hd.live, hopen, h.queue, hq2, e, p, len]
  have hcells (σ : Type) (S : Dev → σ) (hS : ∀ z i v, S (putCell z n [cell] i v) = S z) : S e = S x := by
    have hfold (l : List Word) (z : Dev × Nat) : S (l.foldl (fun y v => (putCell y.1 n [cell] y.2 v, y.2 + 1)) z).1 = S z.1 := by
      induction l generalizing z with
      | nil => rfl
      | cons v l ih => exact (ih (putCell z.1 n [cell] z.2 v, z.2 + 1)).trans (hS _ _ _)
    exact hfold _ (x, 0)
  have hqe : qGet e n q = qGet x n q := hcells _ (fun z => qGet z n q) fun z i v => qGet_putCell _ _ _ _ _ _
  let l := onQ (onQ e n q fun x => { x with opn := none }) n q fun x => { x with pkts := x.pkts ++ [p] }
  have hql : qGet l n q = { qGet d n q with pkts := (qGet d n q).pkts ++ [p], opn := none } := by
    rw [qGet_onQ_self, qGet_onQ_self, hqe, h.queue]
  have hlink : closePkt x n q who w = l := by
    rw [hclose, linkPkt]
    show wake l n q = l
    simp [wake, hql, hd.stalls]
  rw [hlink, hql]
  exact ⟨(hcells _ Dev.regs fun _ _ _ => rfl).trans h.regs, rfl⟩

end OneCell

/-! #### A packet that finds none (R309) -/

section NoCell

variable {d x : Dev} {n : Fin 4} {q : Fin 64} {who : Nat}

/-- What a push asks of its queue beside STAT reads as before. -/
theorem PushStep.settings (h : PushStep n q d x) : x.bit RQstat.REBUILD n = d.bit RQstat.REBUILD n ∧ notProd x n q who = notProd d n q who := by
  have hfld {ι : Type} (f : RF ι) (i : ι) (ha : f.addr i ≠ QStat.addr (n, q)) : x.fld f i = d.fld f i := h.regs.fld (by simpa using ha)
  have hreb : RQstat.REBUILD.addr n ≠ QStat.addr (n, q) := by
    simp only [RQstat.REBUILD, RQstat.addr, QStat.addr, queueBase]
    omega
  have hused : QCfg0.USED.addr (n, q) ≠ QStat.addr (n, q) := by simp [QCfg0.USED, QCfg0.addr, QStat.addr]
  have hprod : QCfg1.PROD.addr (n, q) ≠ QStat.addr (n, q) := by simp [QCfg1.PROD, QCfg1.addr, QStat.addr]
  constructor
  · rw [Dev.bit, hfld _ _ hreb, Dev.bit]
  · rw [notProd, Dev.bit, hfld _ _ hused, hfld _ _ hprod, notProd, Dev.bit]

theorem qGet_qDropEvent (d : Dev) (n : Fin 4) (q : Fin 64) : qGet (qDropEvent d n q) n q = qGet d n q := rfl

/-- The queue whose open packet has been dropped before its first word. -/
theorem qGet_dropOpen (h : (qGet d n q).opn = none) : qGet (dropOpen d n q) n q = { qGet d n q with opn := none, dropping := true } := by
  unfold dropOpen
  simp only [h]
  exact (qGet_qDropEvent _ n q).trans (qGet_onQ_self _ _ _ _)

/-- A dropped packet shows in DROPPED and DROPCNT. -/
theorem qDropEvent_stat (d : Dev) (n : Fin 4) (q : Fin 64) : (qDropEvent d n q).bit QStat.DROPPED (n, q) = true ∧
    (qDropEvent d n q).fld QStat.DROPCNT (n, q) = (d.fld QStat.DROPCNT (n, q) + 1) % 65536 := by
  let x := d.flag QStat.DROPPED (n, q)
  have hcnt : x.fld QStat.DROPCNT (n, q) = d.fld QStat.DROPCNT (n, q) := Dev.fld_put_bits d QStat.DROPPED _ QStat.DROPCNT _ 1 (by decide) (.inl (by decide))
  constructor
  · have hbit : (qDropEvent d n q).bit QStat.DROPPED (n, q) = x.bit QStat.DROPPED (n, q) :=
      congrArg (· != 0) (Dev.fld_put_bits x QStat.DROPCNT _ QStat.DROPPED _ _ (by decide) (.inr (by decide)))
    rw [hbit]
    exact Dev.bit_flag_self _ _ _ (by decide) rfl
  · have hput : (qDropEvent d n q).fld QStat.DROPCNT (n, q) = (x.fld QStat.DROPCNT (n, q) + 1) % 65536 :=
      Dev.fld_put_self x QStat.DROPCNT _ _ (by decide)
    rw [hput, hcnt]

theorem dropOpen_stat (h : (qGet d n q).opn = none) : (dropOpen d n q).bit QStat.DROPPED (n, q) = true ∧
    (dropOpen d n q).fld QStat.DROPCNT (n, q) = (d.fld QStat.DROPCNT (n, q) + 1) % 65536 := by
  unfold dropOpen
  simp only [h]
  exact qDropEvent_stat (onQ d n q fun x => { x with opn := none, dropping := true }) n q

/-- Without a cell for the first word the packet is dropped whole, up to its PEND. -/
theorem pushPkt_dropped (hd : TakesPkt d n q who) (hcan : canTake d n q 1 = false) (w e : Word) (ws : List Word) :
    closePkt ((w :: ws).foldl (fun z w => pushWord z n q who w) d) n q who e = onQ (dropOpen d n q) n q fun y => { y with dropping := false } := by
  have hopen : openPkt d n q = none := by
    simp [openPkt, hd.opn, hcan]
  have hfirst : pushWord d n q who w = dropOpen d n q := by
    unfold pushWord
    rw [touchFree_agree hd.badFree, touchQ_agree hd.badQ]
    simp [hd.prod, hd.rebuild, hd.dropping, hd.live, hopen]
  have hstep := dropOpen_pushStep (n := n) (q := q) d
  obtain ⟨hbad, hfree⟩ := hstep.clean hd.badQ hd.badFree
  obtain ⟨hreb, hprod⟩ := hstep.settings (who := who)
  have hdrop : (qGet (dropOpen d n q) n q).dropping = true := by rw [qGet_dropOpen hd.opn]
  have hrest (v : Word) : pushWord (dropOpen d n q) n q who v = dropOpen d n q := by
    unfold pushWord
    rw [touchFree_agree hfree, touchQ_agree hbad]
    simp [hreb, hprod, hd.prod, hd.rebuild, hdrop]
  have hall : ws.foldl (fun z w => pushWord z n q who w) (dropOpen d n q) = dropOpen d n q := by
    induction ws with
    | nil => rfl
    | cons v ws ih => rw [List.foldl_cons, hrest, ih]
  rw [List.foldl_cons, hfirst, hall]
  unfold closePkt
  rw [touchFree_agree hfree, touchQ_agree hbad]
  simp [hreb, hprod, hd.prod, hd.rebuild, hdrop]

end NoCell

/-! #### The unit (R364) -/

/-- The word that closes a packet of Ladle's: priority and unused bytes of the length slot (R309, R364). -/
def pendOf (w : Word) : Word := BitVec.ofNat 32 (fget 13 4 w + (4 - fget 0 13 w % 4) % 4 * 16)

theorem pendOf_fields (w : Word) : fget 0 4 (pendOf w) = fget 13 4 w ∧ fget 4 2 (pendOf w) = (4 - fget 0 13 w % 4) % 4 := by
  have hpri : fget 13 4 w < 2 ^ 4 := (BitVec.extractLsb' 13 4 w).isLt
  simp only [pendOf, fget] at hpri ⊢
  constructor <;> simp only [BitVec.extractLsb'_toNat, BitVec.toNat_ofNat, Nat.shiftRight_eq_div_pow] at hpri ⊢ <;> omega

section PacketUnit

variable {d : Dev} {c : Fin 8} {n : Fin 4} {q : Fin 64} {w0 : Word} {ws : List Word}

/-- The words of a packet and its PEND, pushed by Ladle (R364). -/
def pushedPkt (d : Dev) (n : Fin 4) (q : Fin 64) (w0 : Word) (ws : List Word) : Dev :=
  closePkt (ws.foldl (fun z w => pushWord z n q 2 w) d) n q 2 (pendOf w0)

theorem pushedPkt_pushStep (hbad : (d.r n).badQ = []) (hfree : (d.r n).badFree = false) : PushStep n q d (pushedPkt d n q w0 ws) := by
  have hw := pushWords_pushStep (q := q) hbad hfree 2 ws
  obtain ⟨hbad', hfree'⟩ := hw.clean hbad hfree
  exact hw.trans (closePkt_pushStep hbad' hfree' 2 _)

theorem pushPkts_nil (k : Nat) (d : Dev) (c : Fin 8) (n : Fin 4) (q : Fin 64) : pushPkts k d c n q [] = (0, [], d) := by
  cases k with
  | zero => rfl
  | succ k => simp [pushPkts]

/-- One whole packet collected is one packet pushed. -/
theorem pushPkts_one {k : Nat} (hgone : chanGone d c = false) (hlen : ws.length = (fget 0 13 w0 + 3) / 4) (hq : q ≠ tq) :
    pushPkts (k + 1) d c n q (w0 :: ws) =
      (if (pushedPkt d n q w0 ws).fld QStat.DROPCNT (n, q) = d.fld QStat.DROPCNT (n, q) then 1 else 0, [], pushedPkt d n q w0 ws) := by
  have hq2 : ¬ q.val = 2 := fun h2 => hq (Fin.ext h2)
  have htake : ws.take ((fget 0 13 w0 + 3) / 4) = ws := by rw [← hlen, List.take_length]
  have hdrop : ws.drop ((fget 0 13 w0 + 3) / 4) = [] := by rw [← hlen, List.drop_length]
  simp [pushPkts, hgone, htake, hdrop, pushPkts_nil, pendWord, hq, hq2, hlen, pushedPkt, pendOf]
    <;> rfl

/-- A packet pushed where its queue has a cell for it. -/
theorem pushedPkt_stored (hd : TakesPkt d n q 2) (hcan : canTake d n q 1 = true) (hq : q ≠ tq) (hne : ws ≠ []) (hfit : ws.length ≤ 14)
    (hlen : ws.length = (fget 0 13 w0 + 3) / 4) : (pushedPkt d n q w0 ws).regs = d.regs ∧ ∃ cells, (qGet (pushedPkt d n q w0 ws) n q).pkts =
      (qGet d n q).pkts ++ [⟨fget 13 4 w0, fget 0 13 w0, cells, trimWords (fget 0 13 w0) ws⟩] := by
  obtain ⟨v, vs, rfl⟩ := List.exists_cons_of_ne_nil hne
  obtain ⟨cell, hfirst⟩ := pushWord_opens hd hcan v
  simp only [List.length_cons] at hfit hlen
  have hall := hfirst.pushAll hd vs (by simp only [List.length_singleton]; omega)
  obtain ⟨hregs, hpkts⟩ := hall.close hd hq (pendOf w0)
  obtain ⟨hpri, hpad⟩ := pendOf_fields w0
  have hbytes : 4 * ([v] ++ vs).length - fget 4 2 (pendOf w0) = fget 0 13 w0 := by
    rw [hpad]
    simp only [List.length_append, List.length_singleton]
    omega
  rw [hpri, hbytes] at hpkts
  exact ⟨hregs, [cell], hpkts⟩

/-- A packet pushed where its queue has none. -/
theorem pushedPkt_dropped (hd : TakesPkt d n q 2) (hcan : canTake d n q 1 = false) (hne : ws ≠ []) :
    (qGet (pushedPkt d n q w0 ws) n q).pkts = (qGet d n q).pkts ∧ (pushedPkt d n q w0 ws).bit QStat.DROPPED (n, q) = true ∧
    (pushedPkt d n q w0 ws).fld QStat.DROPCNT (n, q) = (d.fld QStat.DROPCNT (n, q) + 1) % 65536 := by
  obtain ⟨v, vs, rfl⟩ := List.exists_cons_of_ne_nil hne
  obtain ⟨hbit, hcnt⟩ := dropOpen_stat hd.opn
  rw [pushedPkt, pushPkt_dropped hd hcan]
  refine ⟨?_, hbit, hcnt⟩
  rw [qGet_onQ_self, qGet_dropOpen hd.opn]

/-- The settings of a queue and its cells after bytes have been counted. -/
theorem Moved.takesPkt {m : Dev} {k who : Nat} (h : Moved d c k m) (hr : m.rgn = d.rgn) (hd : TakesPkt d n q who) :
    TakesPkt m n q who ∧ (∀ j, canTake m n q j = canTake d n q j) ∧ m.fld QStat.DROPCNT (n, q) = d.fld QStat.DROPCNT (n, q) := by
  have hfld {ι : Type} (f : RF ι) (i : ι) (ha : 0x20800 ≤ f.addr i) : m.fld f i = d.fld f i := h.regs.fld (by
    simp only [List.mem_singleton, ChBytes.addr]
    omega)
  have hreb : m.bit RQstat.REBUILD n = d.bit RQstat.REBUILD n := by
    rw [Dev.bit, hfld _ _ (by simp only [RQstat.REBUILD, RQstat.addr, queueCtl, regionBase]; omega), Dev.bit]
  have hqueue (f : RF (Fin 4 × Fin 64)) (r : Fin 64) (hf : queueBase (n, r) ≤ f.addr (n, r)) : m.fld f (n, r) = d.fld f (n, r) := hfld _ _ (by
    simp only [queueBase, queueCtl, regionBase] at hf
    omega)
  have hused : m.bit QCfg0.USED (n, q) = d.bit QCfg0.USED (n, q) := by rw [Dev.bit, hqueue _ _ (Nat.le_add_right _ _), Dev.bit]
  have hrst : m.bit QStat.RST (n, q) = d.bit QStat.RST (n, q) := by rw [Dev.bit, hqueue _ _ (Nat.le_add_right _ _), Dev.bit]
  have hprod : m.fld QCfg1.PROD (n, q) = d.fld QCfg1.PROD (n, q) := hqueue _ _ (Nat.le_add_right _ _)
  have hresv (r : Fin 64) : m.fld QCfg0.RESV (n, r) = d.fld QCfg0.RESV (n, r) := hqueue _ _ (Nat.le_add_right _ _)
  have hquota : m.fld QCfg0.QUOTA (n, q) = d.fld QCfg0.QUOTA (n, q) := hqueue _ _ (Nat.le_add_right _ _)
  have hrgn : m.r n = d.r n := by rw [Dev.r, hr, Dev.r]
  have hget : qGet m n q = qGet d n q := by rw [qGet, hrgn, qGet]
  refine ⟨⟨?_, ?_, ?_, ?_, ?_, ?_, ?_, ?_⟩, fun j => ?_, hqueue _ _ (Nat.le_add_right _ _)⟩
  · rw [hrgn, hd.badQ]
  · rw [hrgn, hd.badFree]
  · rw [hreb, hd.rebuild]
  · rw [notProd, hused, hprod, ← notProd, hd.prod]
  · rw [qLive, hused, hrst, ← qLive, hd.live]
  · rw [hget, hd.dropping]
  · rw [hget, hd.opn]
  · rw [hget, hd.stalls]
  · simp only [canTake, owed, cellsOf, freeCount, hresv, hquota, hrgn]

end PacketUnit

/-- What NREC gains by the packet: one, unless it was dropped (assumption log 71). -/
def packetCounts (d : Dev) (n : Fin 4) (q : Fin 64) (w0 : Word) (ws : List Word) : Nat :=
  if (pushedPkt d n q w0 ws).fld QStat.DROPCNT (n, q) = d.fld QStat.DROPCNT (n, q) then 1 else 0

/-- The push of the packet, with what the channel notes of it. -/
def packetWritten (d : Dev) (c : Fin 8) (n : Fin 4) (q : Fin 64) (w0 : Word) (ws : List Word) : Dev :=
  onChan (pushedPkt d n q w0 ws) c fun y => { y with acc := [], nrec := y.nrec + packetCounts d n q w0 ws }

/-- A channel once a unit has pushed one whole packet. -/
def packetMoved (d : Dev) (c : Fin 8) (n : Fin 4) (q : Fin 64) (w0 : Word) (ws : List Word) (k : Nat) : Dev :=
  onChan (packetWritten (counted d c k) c n q w0 ws) c fun y => { y with moved := y.moved + k }

section PacketMoved

variable {d : Dev} {c : Fin 8} {n : Fin 4} {q : Fin 64} {w0 : Word} {ws : List Word} {k : Nat}

theorem fld_onChan {ι : Type} (d : Dev) (c : Fin 8) (u : Chan → Chan) (f : RF ι) (i : ι) : (onChan d c u).fld f i = d.fld f i := rfl

theorem qGet_onChan (d : Dev) (c : Fin 8) (u : Chan → Chan) (n : Fin 4) (q : Fin 64) : qGet (onChan d c u) n q = qGet d n q := rfl

theorem packetWritten_fld {ι : Type} (f : RF ι) (i : ι) : (packetWritten d c n q w0 ws).fld f i = (pushedPkt d n q w0 ws).fld f i := fld_onChan _ _ _ _ _

theorem packetMoved_fld {ι : Type} (f : RF ι) (i : ι) : (packetMoved d c n q w0 ws k).fld f i = (pushedPkt (counted d c k) n q w0 ws).fld f i := by
  rw [packetMoved, fld_onChan, packetWritten_fld]

theorem packetMoved_bit {ι : Type} (f : RF ι) (i : ι) : (packetMoved d c n q w0 ws k).bit f i = (pushedPkt (counted d c k) n q w0 ws).bit f i := by
  rw [Dev.bit, packetMoved_fld, Dev.bit]

theorem packetMoved_qGet : qGet (packetMoved d c n q w0 ws k) n q = qGet (pushedPkt (counted d c k) n q w0 ws) n q := by
  rw [packetMoved, qGet_onChan, packetWritten, qGet_onChan]

theorem fld_congr_regs {d x : Dev} {ι : Type} (h : x.regs = d.regs) (f : RF ι) (i : ι) : x.fld f i = d.fld f i := by
  rw [Dev.fld, Dev.reg, h, Dev.fld, Dev.reg]

/-- What the push leaves of the channel, and what is counted in it. -/
theorem packetMoved_facts (hm : Moved d c k (counted (unitTaken d c) c k)) (ht : TakesPkt (counted (unitTaken d c) c k) n q 2) :
    let t := packetMoved (unitTaken d c) c n q w0 ws k
    t.fld ChBytes.BYTES c = (d.fld ChBytes.BYTES c + k) % 2 ^ 32 ∧ t.fld ChStat.STATE c = d.fld ChStat.STATE c ∧
    (chanOf t c).done = (chanOf d c).done + k ∧ (chanOf t c).moved = (chanOf d c).moved + k ∧ (chanOf t c).acc = [] ∧
    (chanOf t c).nrec = (chanOf d c).nrec + packetCounts (counted (unitTaken d c) c k) n q w0 ws := by
  have hstep : PushStep n q (counted (unitTaken d c) c k) (pushedPkt (counted (unitTaken d c) c k) n q w0 ws) := pushedPkt_pushStep ht.badQ ht.badFree
  have hlow (f : RF (Fin 8)) (ha : f.addr c < 0x1000000) :
      (pushedPkt (counted (unitTaken d c) c k) n q w0 ws).fld f c = (counted (unitTaken d c) c k).fld f c := hstep.regs.fld (by
    simp only [List.mem_singleton, QStat.addr, queueBase, queueCtl, regionBase]
    omega)
  have hchan : chanOf (pushedPkt (counted (unitTaken d c) c k) n q w0 ws) c = { chanOf d c with done := (chanOf d c).done + k } := by
    rw [chanOf, hstep.chan, ← chanOf, counted_chanOf]
    rfl
  extract_lets t
  have hget : chanOf t c = { chanOf d c with
      done := (chanOf d c).done + k
      moved := (chanOf d c).moved + k
      acc := []
      nrec := (chanOf d c).nrec + packetCounts (counted (unitTaken d c) c k) n q w0 ws } := by
    unfold t packetMoved packetWritten
    rw [chanOf_onChan, chanOf_onChan, hchan]
  rw [hget]
  refine ⟨?_, ?_, rfl, rfl, rfl, rfl⟩
  · rw [packetMoved_fld, hlow ChBytes.BYTES (by simp only [ChBytes.BYTES, ChBytes.addr]; omega), hm.bytes]
  · rw [packetMoved_fld, hlow ChStat.STATE (by simp only [ChStat.STATE, ChStat.addr]; omega), hm.state]

end PacketMoved

theorem destWrite_queue {d : Dev} {c : Fin 8} {x : List Word} (hdk : dDk x = 2) (ws : List Word) : destWrite d c x ws =
    let r := pushPkts ((chanOf d c).acc ++ ws).length (counted d c (4 * ws.length)) c (dRgn (dDaddr x)) (dQueue (dDaddr x)) ((chanOf d c).acc ++ ws)
    if chanGone r.2.2 c then r.2.2 else onChan r.2.2 c fun y => { y with acc := r.2.1, nrec := y.nrec + r.1 } := by
  simp only [destWrite, hdk]
  rfl

/-- Words that are one whole packet, written to a queue. -/
theorem destWrite_packet {d : Dev} {c : Fin 8} {x : List Word} {w0 : Word} {ws : List Word} {k : Nat} (hdk : dDk x = 2) (hacc : (chanOf d c).acc = [])
    (hk : 4 * (ws.length + 1) = k) (hsize : ws.length = (fget 0 13 w0 + 3) / 4) (hq : dQueue (dDaddr x) ≠ tq) (hgone : chanGone (counted d c k) c = false)
    (hafter : chanGone (pushedPkt (counted d c k) (dRgn (dDaddr x)) (dQueue (dDaddr x)) w0 ws) c = false) :
    destWrite d c x (w0 :: ws) = packetWritten (counted d c k) c (dRgn (dDaddr x)) (dQueue (dDaddr x)) w0 ws := by
  rw [destWrite_queue hdk, hacc, List.nil_append, List.length_cons, hk, pushPkts_one hgone hsize hq]
  exact if_neg (by simp [hafter])

/-- Bytes written, that are not the last, of a channel that runs. -/
theorem unitWritten_more {d w : Dev} {c : Fin 8} {x : List Word} {n : Nat} {src : List Byte} (hw : destWrite d c x (wordsOf src) = w)
    (hgone : chanGone w c = false) (hmore : n ≠ chanLeft (chanOf d c) x) (hst : w.fld ChStat.STATE c ≠ 3) :
    unitWritten d c x n src = onChan w c fun y => { y with moved := y.moved + n } := by
  have hst' : (onChan w c fun y => { y with moved := y.moved + n }).fld ChStat.STATE c ≠ 3 := hst
  simp only [unitWritten, hw, hgone, Bool.false_eq_true, if_false, if_neg hmore, if_neg hst']

section HostPacket

variable {d : Dev} {c : Fin 8} {x : List Word} (hu : unitChip ∉ d.undef) (hf : d.failDue = none) (hx : (chanOf d c).desc = some x)
  (hturn : ladleTurn d c = true) (hskip : shadowSkips d x = false) (hfn : fnUsable d (chanFn d c) = true) (hsk : dSk x = 0) (hdk : dDk x = 2)
  (hst : d.fld ChStat.STATE c = 1) {hd : List Byte} {w0 : Word} {ws : List Word} (hwords : wordsOf hd = w0 :: ws) (hlen : hd.length = 4 + 4 * ws.length)
  (hmax : hd.length ≤ 4 * unitMax d c x) (hmore : hd.length < dLen x - (chanOf d c).moved) (hacc : (chanOf d c).acc = [])
  (hsize : ws.length = (fget 0 13 w0 + 3) / 4) (hq : dQueue (dDaddr x) ≠ tq) (hbad : (d.r (dRgn (dDaddr x))).badQ = [])
  (hfree : (d.r (dRgn (dDaddr x))).badFree = false)
include hu hf hx hturn hskip hfn hsk hdk hst hwords hlen hmax hmore hacc hsize hq hbad hfree

/-- A unit that brings one whole packet pushes it. -/
theorem gives_packetUnit : Gives (.ladleUnitDone c hd) d
    (packetMoved (unitTaken d c) c (dRgn (dDaddr x)) (dQueue (dDaddr x)) w0 ws hd.length) := by
  have htake : stageRefuses d x = false := by simp [stageRefuses, hdk]
  have hg := gives_hostUnit (hd := hd) (n := hd.length) hu hx hturn hskip hfn hsk (.inl hst) (by omega) (by omega) (by omega) htake
  rw [List.take_length] at hg
  have hm : Moved d c hd.length (counted (unitTaken d c) c hd.length) := (counted_moved (unitTaken d c) c hd.length).ofTaken
  have hstep := pushedPkt_pushStep (d := counted (unitTaken d c) c hd.length) (q := dQueue (dDaddr x)) (w0 := w0) (ws := ws) hbad hfree
  have hdesc : (chanOf (counted (unitTaken d c) c hd.length) c).desc = some x := by
    rw [counted_chanOf]
    exact hx
  have hdesc' : (chanOf (pushedPkt (counted (unitTaken d c) c hd.length) (dRgn (dDaddr x)) (dQueue (dDaddr x)) w0 ws) c).desc = some x := by
    rw [chanOf, hstep.chan]
    exact hdesc
  have hwrite : destWrite (unitTaken d c) c x (wordsOf hd) = packetWritten (counted (unitTaken d c) c hd.length) c (dRgn (dDaddr x)) (dQueue (dDaddr x)) w0 ws := by
    rw [hwords]
    exact destWrite_packet hdk hacc (by omega) hsize hq (chanGone_eq_false hdesc) (chanGone_eq_false hdesc')
  have hstate : (packetWritten (counted (unitTaken d c) c hd.length) c (dRgn (dDaddr x)) (dQueue (dDaddr x)) w0 ws).fld ChStat.STATE c = 1 := by
    rw [packetWritten_fld, hstep.regs.fld, hm.state, hst]
    simp only [List.mem_singleton, ChStat.STATE, ChStat.addr, QStat.addr, queueBase, queueCtl, regionBase]
    omega
  have hgone : chanGone (packetWritten (counted (unitTaken d c) c hd.length) c (dRgn (dDaddr x)) (dQueue (dDaddr x)) w0 ws) c = false :=
    chanGone_eq_false (y := x) (by rw [packetWritten, chanOf_onChan]; exact hdesc')
  rw [unitWritten_more hwrite hgone (Nat.ne_of_lt hmore) (by omega), ← packetMoved, failCheck_of_none] at hg
  · exact hg
  · exact hstep.failDue.trans hf

theorem completes_packetUnit (hne : ws ≠ []) (hreb : d.bit RQstat.REBUILD (dRgn (dDaddr x)) = false)
    (hprod : notProd d (dRgn (dDaddr x)) (dQueue (dDaddr x)) 2 = false) (hlive : qLive d (dRgn (dDaddr x)) (dQueue (dDaddr x)) = true)
    (hdrop : (qGet d (dRgn (dDaddr x)) (dQueue (dDaddr x))).dropping = false) (hopn : (qGet d (dRgn (dDaddr x)) (dQueue (dDaddr x))).opn = none)
    (hstalls : (qGet d (dRgn (dDaddr x)) (dQueue (dDaddr x))).stalls = []) : Completes (.ladleUnitDone c hd) d fun t =>
      t.fld ChBytes.BYTES c = (d.fld ChBytes.BYTES c + hd.length) % 2 ^ 32 ∧ (chanOf t c).done = (chanOf d c).done + hd.length ∧
      (chanOf t c).moved = (chanOf d c).moved + hd.length ∧ (chanOf t c).acc = [] ∧ t.fld ChStat.STATE c = 1 ∧
      (canTake d (dRgn (dDaddr x)) (dQueue (dDaddr x)) 1 = true → ws.length ≤ 14 → (chanOf t c).nrec = (chanOf d c).nrec + 1 ∧
        t.fld QStat.DROPCNT (dRgn (dDaddr x), dQueue (dDaddr x)) = d.fld QStat.DROPCNT (dRgn (dDaddr x), dQueue (dDaddr x)) ∧
        ∃ cells, (qGet t (dRgn (dDaddr x)) (dQueue (dDaddr x))).pkts =
          (qGet d (dRgn (dDaddr x)) (dQueue (dDaddr x))).pkts ++ [⟨fget 13 4 w0, fget 0 13 w0, cells, trimWords (fget 0 13 w0) ws⟩]) ∧
      (canTake d (dRgn (dDaddr x)) (dQueue (dDaddr x)) 1 = false → (chanOf t c).nrec = (chanOf d c).nrec ∧
        (qGet t (dRgn (dDaddr x)) (dQueue (dDaddr x))).pkts = (qGet d (dRgn (dDaddr x)) (dQueue (dDaddr x))).pkts ∧
        t.bit QStat.DROPPED (dRgn (dDaddr x), dQueue (dDaddr x)) = true ∧
        t.fld QStat.DROPCNT (dRgn (dDaddr x), dQueue (dDaddr x)) = (d.fld QStat.DROPCNT (dRgn (dDaddr x), dQueue (dDaddr x)) + 1) % 65536) := by
  have hg := gives_packetUnit hu hf hx hturn hskip hfn hsk hdk hst hwords hlen hmax hmore hacc hsize hq hbad hfree
  have hm : Moved d c hd.length (counted (unitTaken d c) c hd.length) := (counted_moved (unitTaken d c) c hd.length).ofTaken
  obtain ⟨htakes, hcan, hcnt⟩ := hm.takesPkt rfl (⟨hbad, hfree, hreb, hprod, hlive, hdrop, hopn, hstalls⟩ : TakesPkt d (dRgn (dDaddr x)) (dQueue (dDaddr x)) 2)
  obtain ⟨hbytes, hstate, hchan⟩ := packetMoved_facts (w0 := w0) (ws := ws) (q := dQueue (dDaddr x)) hm htakes
  obtain ⟨hdone, hmoved, hacc', hnrec⟩ := hchan
  refine hg.completes ⟨hbytes, hdone, hmoved, hacc', hstate.trans hst, fun hyes hfit => ?_, fun hno => ?_⟩
  · obtain ⟨hregs, hpkts⟩ := pushedPkt_stored (w0 := w0) htakes (by rw [hcan, hyes]) hq hne hfit hsize
    have hsame := fld_congr_regs hregs QStat.DROPCNT (dRgn (dDaddr x), dQueue (dDaddr x))
    rw [packetCounts, if_pos hsame] at hnrec
    rw [packetMoved_fld, packetMoved_qGet]
    exact ⟨hnrec, hsame.trans hcnt, hpkts⟩
  · obtain ⟨hpkts, hbit, hdcnt⟩ := pushedPkt_dropped (w0 := w0) htakes (by rw [hcan, hno]) hne
    rw [packetCounts, if_neg (by rw [hdcnt]; have := Dev.fld_lt (counted (unitTaken d c) c hd.length) QStat.DROPCNT (dRgn (dDaddr x), dQueue (dDaddr x)); omega)] at hnrec
    rw [packetMoved_fld, packetMoved_bit, packetMoved_qGet]
    exact ⟨hnrec, hpkts, hbit, hdcnt.trans (by rw [hcnt])⟩

end HostPacket

/-! ### Units that go to host memory (R364, R368) -/

/-- Words postedTo to host memory at the offset of a channel's descriptor, and counted. -/
def postedTo (d : Dev) (c : Fin 8) (x : List Word) (ws : List Word) : Dev :=
  { counted d c (4 * ws.length) with hostWr := d.hostWr ++ [⟨d.bit ChCfg.FUNC c, dDaddr x + (chanOf d c).done, ws⟩] }

/-- What is seen of words postedTo to host memory, whatever follows in the same unit. -/
def Posts (d : Dev) (c : Fin 8) (x : List Word) (ws : List Word) (t : Dev) : Prop :=
  t.fld ChBytes.BYTES c = (d.fld ChBytes.BYTES c + 4 * ws.length) % 2 ^ 32 ∧
  t.hostWr = d.hostWr ++ [⟨d.bit ChCfg.FUNC c, dDaddr x + (chanOf d c).done, ws⟩]

section Posted

variable {d t : Dev} {c : Fin 8} {x ws : List Word}

theorem destWrite_host (hdk : dDk x = 0) : destWrite d c x ws = postedTo d c x ws := by
  have hfunc : (counted d c (4 * ws.length)).bit ChCfg.FUNC c = d.bit ChCfg.FUNC c :=
    (counted_moved d c _).regs.bit (by simp [ChCfg.FUNC, ChCfg.addr, ChBytes.addr])
  simp only [destWrite, hdk, postedTo, ← hfunc]
  rfl

theorem postedTo_moved : Moved d c (4 * ws.length) (postedTo d c x ws) := (counted_moved d c _).same

theorem postedTo_chanOf : chanOf (postedTo d c x ws) c = { chanOf d c with done := (chanOf d c).done + 4 * ws.length } := counted_chanOf d c _

theorem TallyKept.posts (h : TallyKept (postedTo d c x ws) t) : Posts d c x ws t :=
  ⟨(h.fld c).trans postedTo_moved.bytes, h.posted⟩

theorem postedTo_goesOn (hx : (chanOf d c).desc = some x) : chanGone (postedTo d c x ws) c = false :=
  chanGone_eq_false (y := x) (by rw [postedTo_chanOf]; exact hx)

/-- What follows the write of a unit leaves the counts and the writes posted. -/
theorem unitWritten_tallyKept {w : Dev} {n : Nat} {src : List Byte} (hw : destWrite d c x (wordsOf src) = w) (hdk : dDk x ≠ 4) :
    TallyKept w (unitWritten d c x n src) := by
  have hlast (m : Dev) : lastByte m c x = chanDone m c 0 := if_neg hdk
  have hmoved : TallyKept w (onChan w c fun y => { y with moved := y.moved + n }) := TallyKept.refl.onChan
  simp only [unitWritten, hw, hlast]
  exact TallyKept.ite TallyKept.refl (TallyKept.ite (hmoved.trans (chanDone_tallyKept _ c 0)) (TallyKept.ite (hmoved.trans (chanEnd_tallyKept _ c 4)) hmoved))

/-- Bytes written to host memory. -/
theorem unitWritten_posts (hdk : dDk x = 0) (n : Nat) (src : List Byte) : Posts d c x (wordsOf src) (failCheck (unitWritten d c x n src)) :=
  ((unitWritten_tallyKept (destWrite_host hdk) (by omega)).trans (failCheck_tallyKept _)).posts

end Posted

/-- A unit of a window source is a free number of words within its bounds (assumption log 1). -/
theorem windowSize {d : Dev} {c : Fin 8} {x : List Word} {hd : List Byte} (hsk : dSk x = 1) (hdk : dDk x = 0)
    (h4 : (dLen x - (chanOf d c).moved) % 4 = 0) (hleft : dLen x - (chanOf d c).moved ≠ 0) :
    let n := unitSize d c x hd d.fresh
    0 < n ∧ n ≤ 256 ∧ n ≤ 128 * 2 ^ (vget d.fn (chanFn d c)).maxPay.val ∧ n ≤ dLen x - (chanOf d c).moved ∧ n % 4 = 0 := by
  obtain ⟨hmin, hmax, hpay⟩ := unitMax_bounds d c x
  have hmod : Config.freeNat d.fresh % unitMax d c x < unitMax d c x := Nat.mod_lt _ (by omega)
  have hn : unitSize d c x hd d.fresh = min (dLen x - (chanOf d c).moved) (4 * (1 + Config.freeNat d.fresh % unitMax d c x)) := by
    simp only [unitSize, hsk, hdk, chanLeft]
    rfl
  rw [hn]
  generalize Config.freeNat d.fresh % unitMax d c x = k at hmod
  refine ⟨?_, ?_, ?_, ?_, ?_⟩ <;> omega

section FromWindow

variable {d : Dev} {c : Fin 8} {x : List Word} (hu : unitChip ∉ d.undef) (hf : d.failDue = none) (hx : (chanOf d c).desc = some x)
  (hst : d.fld ChStat.STATE c = 1 ∨ d.fld ChStat.STATE c = 3) (hturn : ladleTurn d c = true) (hskip : shadowSkips d x = false)
  (hfn : fnUsable d (chanFn d c) = true) (hdk : dDk x = 0)
include hu hf hx hst hturn hskip hfn hdk

theorem completes_windowPosted {hd : List Byte} (hsk : dSk x = 1) (h4 : (dLen x - (chanOf d c).moved) % 4 = 0)
    (hleft : dLen x - (chanOf d c).moved ≠ 0) : Completes (.ladleUnitDone c hd) d fun t => ∃ n,
      0 < n ∧ n ≤ 256 ∧ n ≤ 128 * 2 ^ (vget d.fn (chanFn d c)).maxPay.val ∧ n ≤ dLen x - (chanOf d c).moved ∧ n % 4 = 0 ∧
      t.fld ChBytes.BYTES c = (d.fld ChBytes.BYTES c + n) % 2 ^ 32 ∧
      (n < dLen x - (chanOf d c).moved → d.fld ChStat.STATE c = 1 →
        chanOf t c = { chanOf d c with moved := (chanOf d c).moved + n, done := (chanOf d c).done + n }) ∧
      t.hostWr = d.hostWr ++ [⟨d.bit ChCfg.FUNC c, dDaddr x + (chanOf d c).done, wordsOf (hwBytes d (dSaddr x + (chanOf d c).moved) n)⟩] := by
  obtain ⟨hpos, hmax, hpay, hle, hmod⟩ := windowSize (hd := hd) hsk hdk h4 hleft
  generalize hn : unitSize d c x hd d.fresh = n at hpos hmax hpay hle hmod
  have hg := gives_byteUnit hu hx hst hturn hskip (fun _ => hfn) (by omega) hn (by omega) (fun h => by omega) (by simp [stageRefuses, hdk])
  rw [if_neg (by omega)] at hg
  have hsrc : (hwBytes d (dSaddr x + (chanOf d c).moved) n).length = n := by simp [hwBytes]
  generalize hsrcEq : hwBytes d (dSaddr x + (chanOf d c).moved) n = src at hg hsrc
  have hwords : 4 * (wordsOf src).length = n := by rw [four_mul_length_wordsOf (by omega), hsrc]
  obtain ⟨hbytes, hposted⟩ := unitWritten_posts (d := unitTaken d c) (c := c) hdk n src
  rw [hwords] at hbytes
  refine hg.completes ⟨n, hpos, hmax, hpay, hle, hmod, hbytes, fun hmore hrun => ?_, by rw [hsrcEq]; exact hposted⟩
  have hchan := postedTo_chanOf (d := unitTaken d c) (c := c) (x := x) (ws := wordsOf src)
  rw [hwords] at hchan
  have hstate : (postedTo (unitTaken d c) c x (wordsOf src)).fld ChStat.STATE c = 1 := (postedTo_moved.ofTaken.state).trans hrun
  rw [unitWritten_more (d := unitTaken d c) (destWrite_host hdk) (postedTo_goesOn hx) (Nat.ne_of_lt hmore) (by omega), failCheck_of_none (by exact hf), chanOf_onChan, hchan]
  rfl

end FromWindow

/-! #### Part of a packet (R364, R371) -/

/-- Words of a packet in work postedTo to host memory, with what follows the last of them. -/
theorem unitItem_packet {d : Dev} {c : Fin 8} {x : List Word} {i : Item} (hx : (chanOf d c).desc = some x) (hsk : dSk x = 2) (hdk : dDk x = 0)
    (hi : (chanOf d c).item = some i) : unitItem d c x =
      let n := min (i.words.length - (chanOf d c).sent) (1 + Config.freeNat d.fresh % unitMax d c x)
      let e := onChan (postedTo (freeTaken d) c x ((i.words.drop (chanOf d c).sent).take n)) c fun y => { y with moved := y.moved + 4 * n }
      if (chanOf d c).sent + n < i.words.length then
        let e := onChan e c fun y => { y with sent := y.sent + n }
        if e.fld ChStat.STATE c = 3 then chanEnd e c 4 else e
      else itemNext (itemDone e c x) c x := by
  have hgone (ws : List Word) : chanGone (postedTo (freeTaken d) c x ws) c = false := postedTo_goesOn hx
  have hwrite (ws : List Word) : destWrite { d with fresh := d.fresh + 1 } c x ws = postedTo (freeTaken d) c x ws := destWrite_host hdk
  simp only [unitItem, hsk, hi, Dev.free, hwrite, hgone]
  rfl

section Items

variable {d : Dev} {c : Fin 8} {x : List Word} (hu : unitChip ∉ d.undef) (hf : d.failDue = none) (hx : (chanOf d c).desc = some x)
  (hturn : ladleTurn d c = true) (hskip : shadowSkips d x = false) (hfn : fnUsable d (chanFn d c) = true) (hdk : dDk x = 0)
include hu hx hturn hskip hfn

theorem gives_itemUnit {hd : List Byte} (hst : d.fld ChStat.STATE c = 1 ∨ d.fld ChStat.STATE c = 3) (hk : 2 ≤ dSk x) :
    Gives (.ladleUnitDone c hd) d (failCheck (unitItem (turned d c) c x)) := by
  have hg := gives_ladleUnitDone (hd := hd) hu hx hst hturn
  rwa [ladleUnit_item (d := turned d c) hskip (fun _ => hfn) hk] at hg

include hf hdk

theorem completes_packetPosted {hd : List Byte} {i : Item} (hst : d.fld ChStat.STATE c = 1 ∨ d.fld ChStat.STATE c = 3) (hsk : dSk x = 2)
    (hi : (chanOf d c).item = some i) (hsent : (chanOf d c).sent < i.words.length) : Completes (.ladleUnitDone c hd) d fun t =>
      ∃ n, 0 < n ∧ n ≤ 64 ∧ (chanOf d c).sent + n ≤ i.words.length ∧ t.fld ChBytes.BYTES c = (d.fld ChBytes.BYTES c + 4 * n) % 2 ^ 32 ∧
        ((chanOf d c).sent + n < i.words.length → d.fld ChStat.STATE c = 1 →
          chanOf t c = { chanOf d c with moved := (chanOf d c).moved + 4 * n, done := (chanOf d c).done + 4 * n, sent := (chanOf d c).sent + n }) ∧
        t.hostWr = d.hostWr ++ [⟨d.bit ChCfg.FUNC c, dDaddr x + (chanOf d c).done, (i.words.drop (chanOf d c).sent).take n⟩] := by
  have hg := gives_itemUnit hu hx hturn hskip hfn (hd := hd) hst (by omega)
  obtain ⟨hmin, hmax, -⟩ := unitMax_bounds (turned d c) c x
  have hmod : Config.freeNat d.fresh % unitMax (turned d c) c x < unitMax (turned d c) c x := Nat.mod_lt _ (by omega)
  let n := min (i.words.length - (chanOf d c).sent) (1 + Config.freeNat d.fresh % unitMax (turned d c) c x)
  let ws := (i.words.drop (chanOf d c).sent).take n
  have hlen : ws.length = n := by
    rw [List.length_take, List.length_drop]
    omega
  have htally : TallyKept (postedTo (unitTaken d c) c x ws) (failCheck (unitItem (turned d c) c x)) := by
    rw [unitItem_packet (d := turned d c) hx hsk hdk hi]
    refine TallyKept.trans (TallyKept.ite ?_ ?_) (failCheck_tallyKept _)
    · exact TallyKept.ite (TallyKept.refl.onChan.onChan.trans (chanEnd_tallyKept _ _ _)) TallyKept.refl.onChan.onChan
    · exact (TallyKept.refl.onChan.trans (itemDone_tallyKept _ _ _)).trans (itemNext_tallyKept _ _ _)
  obtain ⟨hbytes, hposted⟩ := htally.posts
  rw [hlen] at hbytes
  refine hg.completes ⟨n, by omega, by omega, by omega, hbytes, fun hmore hrun => ?_, hposted⟩
  have hstate : (postedTo (unitTaken d c) c x ws).fld ChStat.STATE c = 1 := (postedTo_moved.ofTaken.state).trans hrun
  have hunit : unitItem (turned d c) c x = onChan (onChan (postedTo (unitTaken d c) c x ws) c fun y => { y with moved := y.moved + 4 * n }) c
      fun y => { y with sent := y.sent + n } := by
    rw [unitItem_packet (d := turned d c) hx hsk hdk hi]
    refine (if_pos hmore).trans (if_neg ?_)
    rw [fld_onChan, fld_onChan]
    exact fun h3 => absurd (hstate.symm.trans h3) (by decide)
  rw [hunit, failCheck_of_none (by exact hf), chanOf_onChan, chanOf_onChan, postedTo_chanOf, hlen]
  rfl

end Items

/-! ### Units that are records (R353, R356, R364, R370) -/

/-- What signals of a target leave: the STAT registers of the channels, the channels, the writes posted and the rings of all targets. -/
structure Signalled (d t : Dev) : Prop where
  stat : ∀ c, t.reg (ChStat.addr c) = d.reg (ChStat.addr c)
  chan : t.chan = d.chan
  posted : t.hostWr = d.hostWr
  failDue : t.failDue = d.failDue
  ord : ∀ e, (targOf t e).ord = (targOf d e).ord

section Signalled

variable {d x y : Dev}

theorem Signalled.refl : Signalled d d := ⟨fun _ => rfl, rfl, rfl, rfl, fun _ => rfl⟩

theorem Signalled.trans (h1 : Signalled d x) (h2 : Signalled x y) : Signalled d y where
  stat c := (h2.stat c).trans (h1.stat c)
  chan := h2.chan.trans h1.chan
  posted := h2.posted.trans h1.posted
  failDue := h2.failDue.trans h1.failDue
  ord e := (h2.ord e).trans (h1.ord e)

theorem Signalled.ite {c : Prop} [Decidable c] (hx : Signalled d x) (hy : Signalled d y) : Signalled d (if c then x else y) := by
  split <;> assumption

/-- A field of a target is written. -/
theorem Signalled.put {f : RF (Fin 4)} {t : Fin 4} {v : Nat} (ha : f.addr t < 0x20000) (h : Signalled d x) : Signalled d (x.put f t v) where
  stat c := (Dev.reg_setReg_ne _ _ _ _ (by simp only [ChStat.addr]; omega)).trans (h.stat c)
  chan := h.chan
  posted := h.posted
  failDue := h.failDue
  ord := h.ord

/-- What neither registers, channels nor targets see. -/
theorem Signalled.same (h : Signalled d x) (hr : y.regs = x.regs := by rfl) (hc : y.chan = x.chan := by rfl) (hp : y.hostWr = x.hostWr := by rfl)
    (hf : y.failDue = x.failDue := by rfl) (ht : y.targ = x.targ := by rfl) : Signalled d y where
  stat c := by rw [Dev.reg, hr]; exact h.stat c
  chan := hc.trans h.chan
  posted := hp.trans h.posted
  failDue := hf.trans h.failDue
  ord e := by rw [targOf, ht]; exact h.ord e

/-- A change of a target that leaves its ring. -/
theorem Signalled.onTarg {t : Fin 4} {u : Targ → Targ} (h : Signalled d x) (hu : ∀ z, (u z).ord = z.ord := by exact fun _ => rfl) :
    Signalled d (Machine.onTarg x t u) where
  stat := h.stat
  chan := h.chan
  posted := h.posted
  failDue := h.failDue
  ord e := by
    show (vget (vmod x.targ t u) e).ord = _
    rw [vget_vmod]
    split
    · next he => rw [hu, ← targOf, ← h.ord e, he]
    · exact h.ord e

theorem stewardNap_signalled (d : Dev) (t : Fin 4) : Signalled d (stewardNap d t) := by
  have hfree : Signalled d (freeTaken d) := Signalled.refl.same
  exact Signalled.ite Signalled.refl hfree.onTarg

theorem wakeTarg_signalled (d : Dev) (t : Fin 4) : Signalled d (wakeTarg d t) := by
  have haddr : TStat.addr t < 0x20000 ∧ TCnt.addr t < 0x20000 := by
    constructor <;> simp only [TStat.addr, TCnt.addr] <;> omega
  have hflag : Signalled d (d.flag TStat.WOKE t) := (Signalled.refl.put (f := TStat.WOKE) (v := 1) haddr.1).same
  have hcnt : Signalled d ((d.flag TStat.WOKE t).incSat TCnt.WAKES t) :=
    (hflag.put (f := TCnt.WAKES) (v := min ((d.flag TStat.WOKE t).fld TCnt.WAKES t + 1) (2 ^ TCnt.WAKES.len - 1)) haddr.2).same
  unfold wakeTarg
  extract_lets e
  have he : Signalled d e := hcnt
  split
  · have hwoken : Signalled d (onTarg e 0 fun x => { x with woken := true }) := he.onTarg
    exact hwoken.same
  · have hclr : Signalled d (e.clr TCfg.SLEEP 1) := he.put (f := TCfg.SLEEP) (v := 0) (by decide)
    exact hclr.onTarg
  · exact he.onTarg

theorem wakeCheck_signalled (d : Dev) (t : Fin 4) : Signalled d (wakeCheck d t) :=
  Signalled.ite ((stewardNap_signalled d t).trans (wakeTarg_signalled _ t)) (stewardNap_signalled d t)

theorem msiReq_signalled (d : Dev) (f : Fin 2) (vec : Nat) : Signalled d (msiReq d f vec) :=
  Signalled.ite Signalled.refl (Signalled.ite Signalled.refl.same Signalled.refl.same)

theorem signal_signalled (d : Dev) (t : Fin 4) (n f : Bool) : Signalled d (signal d t n f) := by
  unfold signal
  extract_lets e y s z m
  have hz : Signalled d z := (wakeCheck_signalled d t).onTarg
  have hm : Signalled d m := Signalled.ite (hz.trans (msiReq_signalled z _ _)) hz
  exact Signalled.ite (Signalled.ite (hm.trans (msiReq_signalled m _ _)) hm) hz

/-- Without a pending source nothing is presented (R346). -/
theorem presentFree_none (h : ∀ s < 1024, sbit d Spnd.V s = false) : presentFree d = d := by
  have hnone (l : List Nat) (hl : ∀ s ∈ l, s < 1024) (gs : List (Fin 64)) : l.foldl (fun (x : Dev × List (Fin 64)) s =>
      if sbit x.1 Spnd.V s && !d.bit Hog.RUN (srcGrp d s) && !ringFull x.1 (srcTgt x.1 s) then (writeRec x.1 s, srcGrp x.1 s :: x.2) else x)
      (d, gs) = (d, gs) := by
    induction l with
    | nil => rfl
    | cons s l ih =>
      simp only [List.forall_mem_cons] at hl
      rw [List.foldl_cons, h s hl.1]
      exact ih hl.2
  unfold presentFree present
  rw [hnone _ (fun s hs => List.mem_range.mp hs)]
  rfl

end Signalled

/-- After a record a running channel goes on while there is another, and waits where there is none. -/
theorem itemNext_record {d : Dev} {c : Fin 8} {x : List Word} {some' : Bool} (hx : (chanOf d c).desc = some x) (hst : d.fld ChStat.STATE c = 1)
    (hk : dSk x ≠ 2) (hleft : 16 ≤ dLen x - (chanOf d c).moved)
    (hsome : (if dSk x = 3 then !(targOf d ⟨dSaddr x % 4, Nat.mod_lt _ (by omega)⟩).ord.isEmpty else !d.trace.isEmpty) = some') :
    itemNext d c x = d.put ChStat.STATE c (if some' then 1 else 2) := by
  have hnext : chanNext d c x = (false, d.put ChStat.STATE c (if some' then 1 else 2)) := by
    simp only [chanNext, if_neg hk, if_neg (show ¬ chanLeft (chanOf d c) x < 16 by unfold chanLeft; omega), hsome]
  simp only [itemNext, chanGone_eq_false hx, hnext, hst]
  rfl

/-- A record posted to host memory, and counted. -/
def recordMoved (d : Dev) (c : Fin 8) (x ws : List Word) : Dev := onChan (postedTo d c x ws) c fun y => { y with moved := y.moved + 16 }

/-- A record counted in NREC (R364). -/
def recordCounted (d : Dev) (c : Fin 8) : Dev := onChan d c fun y => { y with nrec := y.nrec + 1 }

section Records

variable {d : Dev} {c : Fin 8} {x ws : List Word}

theorem recordMoved_chanOf (hws : ws.length = 4) : chanOf (recordMoved d c x ws) c =
    { chanOf d c with moved := (chanOf d c).moved + 16, done := (chanOf d c).done + 16 } := by
  rw [recordMoved, chanOf_onChan, postedTo_chanOf, hws]

theorem recordMoved_state : (recordMoved d c x ws).fld ChStat.STATE c = d.fld ChStat.STATE c :=
  (postedTo_moved (x := x) (ws := ws)).state

theorem recordMoved_sbit (s : Nat) : sbit (recordMoved d c x ws) Spnd.V s = sbit d Spnd.V s := by
  have hspnd : (recordMoved d c x ws).fld Spnd.V (srcWord s) = d.fld Spnd.V (srcWord s) :=
    (postedTo_moved (d := d) (c := c) (x := x) (ws := ws)).regs.fld (by simp only [List.mem_singleton, Spnd.V, Spnd.addr, ChBytes.addr]; omega)
  rw [sbit, hspnd, sbit]

/-- The ring of a target without one of its records. -/
theorem dropRec_ord (d : Dev) (t : Fin 4) (k : Nat) : (targOf (dropRec d t k) t).ord = (targOf d t).ord.filter (· ≠ k) := by
  simp only [dropRec, onRec, onTarg, targOf, vget_vmod_self]

/-- An event record taken from its ring and posted, before the channel goes on. -/
def eventMoved (d : Dev) (c : Fin 8) (x : List Word) (t : Fin 4) (k : Nat) : Dev :=
  signal (presentFree (dropRec (recordMoved d c x (recWords (recOfSlot d t k))) t k)) t true false

theorem unitItem_event {t : Fin 4} {k : Nat} {ks : List Nat} (ht : t = ⟨dSaddr x % 4, Nat.mod_lt _ (by omega)⟩) (hsk : dSk x = 3) (hdk : dDk x = 0)
    (hord : (targOf d t).ord = k :: ks) : unitItem d c x = itemNext (recordCounted (eventMoved d c x t k) c) c x := by
  subst ht
  simp only [unitItem, hsk, hord, destWrite_host hdk]
  rfl

theorem dropRec_sbit (d : Dev) (t : Fin 4) (k : Nat) (f : RF (Fin 32)) (s : Nat) : sbit (dropRec d t k) f s = sbit d f s := rfl

theorem dropRec_beside (d : Dev) (t : Fin 4) (k : Nat) : (dropRec d t k).regs = d.regs ∧ (dropRec d t k).chan = d.chan ∧
    (dropRec d t k).hostWr = d.hostWr ∧ (dropRec d t k).failDue = d.failDue := ⟨rfl, rfl, rfl, rfl⟩

theorem length_recWords (r : Rec) : (recWords r).length = 4 := rfl

/-- With no source pending the slot that becomes free stays free, and the ring keeps its other records. -/
theorem eventMoved_signalled {t : Fin 4} {k : Nat} (hspnd : ∀ s < 1024, sbit d Spnd.V s = false) :
    Signalled (dropRec (recordMoved d c x (recWords (recOfSlot d t k))) t k) (eventMoved d c x t k) := by
  rw [eventMoved, presentFree_none fun s hs => by rw [dropRec_sbit, recordMoved_sbit, hspnd s hs]]
  exact signal_signalled _ _ _ _

/-- What a record taken from its ring leaves and what is counted and posted with it. -/
theorem eventMoved_facts {t : Fin 4} {k : Nat} (hspnd : ∀ s < 1024, sbit d Spnd.V s = false) :
    let e := eventMoved d c x t k
    chanOf e c = { chanOf d c with moved := (chanOf d c).moved + 16, done := (chanOf d c).done + 16 } ∧
    e.fld ChStat.STATE c = d.fld ChStat.STATE c ∧ e.failDue = d.failDue ∧
    e.hostWr = d.hostWr ++ [⟨d.bit ChCfg.FUNC c, dDaddr x + (chanOf d c).done, recWords (recOfSlot d t k)⟩] := by
  have hsig := eventMoved_signalled (c := c) (x := x) (t := t) (k := k) hspnd
  have hws := length_recWords (recOfSlot d t k)
  extract_lets e
  generalize recWords (recOfSlot d t k) = ws at hsig hws
  obtain ⟨hregs, hchan, hposted, hfail⟩ := dropRec_beside (recordMoved d c x ws) t k
  refine ⟨?_, ?_, hsig.failDue.trans hfail, hsig.posted.trans hposted⟩
  · rw [chanOf, hsig.chan, hchan, ← chanOf, recordMoved_chanOf hws]
  · exact (congrArg (fget _ _) ((hsig.stat c).trans (by rw [Dev.reg, hregs]; rfl))).trans (recordMoved_state (x := x) (ws := ws))

theorem eventMoved_ord {t : Fin 4} {k : Nat} {ks : List Nat} (hspnd : ∀ s < 1024, sbit d Spnd.V s = false) (hord : (targOf d t).ord = k :: ks)
    (hk : k ∉ ks) : (targOf (eventMoved d c x t k) t).ord = ks := by
  have hkeep : targOf (recordMoved d c x (recWords (recOfSlot d t k))) t = targOf d t := rfl
  rw [(eventMoved_signalled hspnd).ord, dropRec_ord, hkeep, hord, List.filter_cons_of_neg (by simp), List.filter_eq_self]
  exact fun j hj => decide_eq_true fun h => hk (h ▸ hj)

theorem unitItem_trace {r : Word × Word × Word × Word} {rs : List (Word × Word × Word × Word)} (hsk : dSk x = 4) (hdk : dDk x = 0)
    (htrace : d.trace = r :: rs) : unitItem d c x =
      itemNext (recordCounted (recordMoved { d with trace := rs } c x [r.1, r.2.1, r.2.2.1, r.2.2.2]) c) c x := by
  simp only [unitItem, hsk, htrace, destWrite_host hdk]
  rfl

/-- The end of a record's unit, seen in a channel that runs on. -/
theorem itemNext_counted {e : Dev} {some' : Bool} (hx : (chanOf d c).desc = some x) (hst : e.fld ChStat.STATE c = 1)
    (hchan : chanOf e c = { chanOf d c with moved := (chanOf d c).moved + 16, done := (chanOf d c).done + 16 })
    (hk : dSk x ≠ 2) (hleft : 32 ≤ dLen x - (chanOf d c).moved) (hf : e.failDue = none)
    (hsome : (if dSk x = 3 then !(targOf e ⟨dSaddr x % 4, Nat.mod_lt _ (by omega)⟩).ord.isEmpty else !e.trace.isEmpty) = some') :
    let t := failCheck (itemNext (recordCounted e c) c x)
    t.targ = e.targ ∧ t.trace = e.trace ∧ t.hostWr = e.hostWr ∧ (chanOf t c).nrec = (chanOf d c).nrec + 1 ∧
    (chanOf t c).moved = (chanOf d c).moved + 16 ∧ t.fld ChStat.STATE c = if some' then 1 else 2 := by
  have hcounted : chanOf (recordCounted e c) c =
      { chanOf d c with moved := (chanOf d c).moved + 16, done := (chanOf d c).done + 16, nrec := (chanOf d c).nrec + 1 } := by
    rw [recordCounted, chanOf_onChan, hchan]
  have hleft' : 16 ≤ dLen x - (chanOf (recordCounted e c) c).moved := by
    rw [hcounted]
    show 16 ≤ dLen x - ((chanOf d c).moved + 16)
    omega
  have hx' : (chanOf (recordCounted e c) c).desc = some x := by
    rw [hcounted]
    exact hx
  rw [itemNext_record hx' hst hk hleft' hsome, failCheck_of_none (by exact hf)]
  refine ⟨rfl, rfl, rfl, congrArg Chan.nrec hcounted, congrArg Chan.moved hcounted, ?_⟩
  rw [Dev.fld_put_self _ ChStat.STATE _ _ (by decide)]
  cases some' <;> rfl

variable (hu : unitChip ∉ d.undef) (hf : d.failDue = none) (hx : (chanOf d c).desc = some x) (hturn : ladleTurn d c = true)
  (hskip : shadowSkips d x = false) (hfn : fnUsable d (chanFn d c) = true) (hdk : dDk x = 0) (hst : d.fld ChStat.STATE c = 1)
  (hleft : 32 ≤ dLen x - (chanOf d c).moved)
include hu hf hx hturn hskip hfn hdk hst hleft

/-- An event record leaves its ring with the unit that carries it (R356). -/
theorem completes_eventRecord {hd : List Byte} {k : Nat} {ks : List Nat} {t : Fin 4} (ht : t = ⟨dSaddr x % 4, Nat.mod_lt _ (by omega)⟩)
    (hsk : dSk x = 3) (hord : (targOf d t).ord = k :: ks) (hk : k ∉ ks) (hspnd : ∀ s < 1024, sbit d Spnd.V s = false) :
    Completes (.ladleUnitDone c hd) d fun e => (targOf e t).ord = ks ∧ (chanOf e c).nrec = (chanOf d c).nrec + 1 ∧
      (chanOf e c).moved = (chanOf d c).moved + 16 ∧ e.fld ChStat.STATE c = (if ks = [] then 2 else 1) ∧
      e.hostWr = d.hostWr ++ [⟨d.bit ChCfg.FUNC c, dDaddr x + (chanOf d c).done, recWords (recOfSlot d t k)⟩] := by
  have hg := gives_itemUnit hu hx hturn hskip hfn (hd := hd) (.inl hst) (by omega)
  rw [unitItem_event (d := turned d c) ht hsk hdk hord] at hg
  have hks : (targOf (eventMoved (turned d c) c x t k) t).ord = ks := eventMoved_ord hspnd hord hk
  obtain ⟨hchan, hstate, hfail, hwr⟩ := eventMoved_facts (d := turned d c) (c := c) (x := x) (t := t) (k := k) hspnd
  generalize eventMoved (turned d c) c x t k = e at hg hks hchan hstate hfail hwr
  have hsome : (if dSk x = 3 then !(targOf e ⟨dSaddr x % 4, Nat.mod_lt _ (by omega)⟩).ord.isEmpty else !e.trace.isEmpty) = !ks.isEmpty := by
    rw [if_pos hsk, ← ht, hks]
  obtain ⟨htarg, -, hposted, hnrec, hmoved, hrun⟩ := itemNext_counted hx (hstate.trans hst) hchan (by omega) hleft (hfail.trans hf) hsome
  refine hg.completes ⟨?_, hnrec, hmoved, hrun.trans ?_, hposted.trans hwr⟩
  · rw [targOf, htarg]
    exact hks
  · cases ks <;> rfl

theorem completes_traceRecord {hd : List Byte} {r : Word × Word × Word × Word} {rs : List (Word × Word × Word × Word)} (hsk : dSk x = 4)
    (htrace : d.trace = r :: rs) : Completes (.ladleUnitDone c hd) d fun e => e.trace = rs ∧ (chanOf e c).nrec = (chanOf d c).nrec + 1 ∧
      (chanOf e c).moved = (chanOf d c).moved + 16 ∧ e.fld ChStat.STATE c = (if rs = [] then 2 else 1) ∧
      e.hostWr = d.hostWr ++ [⟨d.bit ChCfg.FUNC c, dDaddr x + (chanOf d c).done, [r.1, r.2.1, r.2.2.1, r.2.2.2]⟩] := by
  have hg := gives_itemUnit hu hx hturn hskip hfn (hd := hd) (.inl hst) (by omega)
  rw [unitItem_trace (d := turned d c) hsk hdk htrace] at hg
  let e := recordMoved { turned d c with trace := rs } c x [r.1, r.2.1, r.2.2.1, r.2.2.2]
  have hsome : (if dSk x = 3 then !(targOf e ⟨dSaddr x % 4, Nat.mod_lt _ (by omega)⟩).ord.isEmpty else !e.trace.isEmpty) = !rs.isEmpty :=
    if_neg (by omega)
  have hstate : e.fld ChStat.STATE c = 1 := recordMoved_state.trans hst
  obtain ⟨-, htr, hposted, hnrec, hmoved, hrun⟩ := itemNext_counted (d := d) (e := e) hx hstate (recordMoved_chanOf rfl) (by omega) hleft hf hsome
  refine hg.completes ⟨htr, hnrec, hmoved, hrun.trans ?_, hposted⟩
  cases rs <;> rfl

end Records

/-! ### What a unit of Ladle moves, how a descriptor ends, and when a channel waits (O49) -/

section Idle

variable {d : Dev} {c : Fin 8} (hu : unitChip ∉ d.undef)
include hu

theorem gives_gatherExpire_idle (h : d.fld ChStat.STATE c ≠ 2 ∨ (chanOf d c).moved = 0) : Gives (.gatherExpire c) d d := by
  have hg := gives_gatherExpire (c := c) hu
  rwa [if_neg (by rintro ⟨h2, hm⟩; exact h.elim (· h2) (hm ·))] at hg

theorem gives_descriptorTimeout_idle (h : (chanOf d c).desc = none ∨ (d.fld ChStat.STATE c = 2 ∧ (chanOf d c).moved = 0)) :
    Gives (.descriptorTimeout c) d d := by
  have hg := gives_descriptorTimeout (c := c) hu
  rwa [if_neg (by rcases h with h | ⟨h2, hm⟩ <;> simp [*])] at hg

/-- Every way in which a descriptor fails halts its channel (R369). -/
theorem completes_failed {x : List Word} {i : Instr} {status : Nat} (hx : (chanOf d c).desc = some x) (hf : d.failDue = none)
    (h : (i = .descriptorTimeout c ∧ status = 1 ∧ ¬ (d.fld ChStat.STATE c = 2 ∧ (chanOf d c).moved = 0)) ∨
      (i = .pcieError c ∧ status = 2 ∧ usesHost x = true ∧ d.fld ChStat.STATE c ≠ 2) ∨
      (∃ hd, i = .ladleUnitDone c hd ∧ status = 5 ∧ usesHost x = true ∧ fnUsable d (chanFn d c) = false ∧
        (d.fld ChStat.STATE c = 1 ∨ d.fld ChStat.STATE c = 3) ∧ ladleTurn d c = true ∧ shadowSkips d x = false) ∨
      (∃ hd : List Byte, i = .ladleUnitDone c hd ∧ status = 8 ∧ dSk x = 0 ∧ dDk x = 4 ∧ fnUsable d (chanFn d c) = true ∧
        (d.fld ChStat.STATE c = 1 ∨ d.fld ChStat.STATE c = 3) ∧ ladleTurn d c = true ∧ shadowSkips d x = false ∧ 4 ≤ hd.length ∧
        dLen x - (chanOf d c).moved ≠ 0 ∧ (d.stwRun = false ∨ (vget d.stage (stageSlot x)).isSome = true ∨ 4096 < dLen x))) :
    Completes i d (Halted d c status) := by
  rcases h with ⟨rfl, rfl, hidle⟩ | ⟨rfl, rfl, hhost, hst⟩ | ⟨hd, rfl, rfl, hhost, hfn, hst, hturn, hskip⟩ |
    ⟨hd, rfl, rfl, hsk, hdk, hfn, hst, hturn, hskip, hlen, hleft, href⟩
  · exact completes_descriptorTimeout hu hx hidle
  · exact completes_pcieError hu hx hhost hst
  · exact completes_noFunction hu hx hf hhost hfn hst hturn hskip
  · exact completes_stageRefused hu hx hf hsk hdk hfn hst hturn hskip hlen hleft href

end Idle

/-- The state of a channel that goes on where its source holds a record, and waits where it holds none. -/
theorem waitState {α : Type} (l : List α) [Decidable (l = [])] : (if (!l.isEmpty) = true then 1 else 2) = if l = [] then 2 else 1 := by
  cases l <;> simp

/-- Settles O49: each kind of unit is a lemma of its own above, as are the ends of a descriptor and what a waiting channel takes next. -/
theorem ladleUnits : Obligations.LadleUnits := by
  unfold Obligations.LadleUnits
  intro d c hu hf
  refine ⟨fun _ h => gives_ladleUnitDone_idle hu h, gives_ladleItemAvailable_idle hu, gives_gatherExpire_idle hu, gives_descriptorTimeout_idle hu,
    fun h => gives_pcieError_idle hu fun z hz => .inr (h.resolve_left (by simp [hz])), fun x hx _ => ?_⟩
  refine ⟨fun hhost => gives_pcieError_idle hu fun z hz => .inl (Option.some.inj (hx.symm.trans hz) ▸ hhost), fun i status h => completes_failed hu hx hf h,
    completes_gatherExpire hu hx hf, fun hst hsk hleft => ?_, fun hst hsk hleft => ?_, fun p hst hsk hkept hbad hfree hp hleft hmode => ?_,
    fun i hst hsk hi hbad hfree hleft => ?_, fun hd hskip hturn hst hlast => ?_, fun hst hturn hskip hsk hdk hmirror _ => ?_,
    fun hst hturn hskip hhost hfn => ?_⟩
  · exact waitState d.trace ▸ completes_recordWait hu hf hx hst (by omega) hleft (if_neg (by omega))
  · exact waitState (targOf d _).ord ▸ completes_recordWait hu hf hx hst (by omega) hleft (if_pos hsk)
  · exact completes_packetTaken hu hf hx hst hsk hkept hbad hfree hp hleft hmode
  · exact completes_keptTaken hu hf hx hst hsk hi hbad hfree hleft
  · exact completes_shadowSkip hu hx hf hskip hturn hst hlast
  · exact ⟨fun hfull hrun _ => completes_segmentWait hu hf hx hturn hskip hsk hdk hmirror hrun hfull,
      fun hfull hstop _ => completes_segmentStop hu hf hx hturn hskip hsk hdk hmirror hstop hfull,
      fun hroom hrun hmore _ => completes_segmentUnit hu hf hx hturn hskip hsk hdk hmirror hrun hroom hmore rfl⟩
  refine ⟨fun hd hsk hdk h4 hlen hmore hrun => completes_windowUnit hu hf hx hturn hskip hfn hsk hdk h4 hlen rfl hmore hrun,
    fun hd hsk hdk h4 hpos hmax hlen hlast => ?_, fun hd w0 ws hsk hdk hrun hwords hlen hmax hmore hacc hne hsize hq hbad hfree hreb hprod hlive hdrop hopn hstalls => ?_,
    fun hd hsk hdk hrun hstw hslot hfit h4 hpos hlen => ?_, fun hd hsk hdk h4 hleft => ?_, fun hd i hsk hdk hi hsent => ?_,
    fun hd k ks hsk hdk hord hk hleft hrun hspnd => ?_, fun hd r rs hsk hdk htrace hleft hrun => ?_⟩
  · exact completes_windowEnd hu hf hx hturn hskip hfn hsk hdk h4 hpos hmax hlen hst hlast
  · exact completes_packetUnit hu hf hx hturn hskip hfn hsk hdk hrun hwords hlen hmax hmore hacc hsize hq hbad hfree hne hreb hprod hlive hdrop hopn hstalls
  · exact ⟨completes_stageUnit hu hf hx hturn hskip hfn hsk hrun hdk hstw hslot hfit h4 hpos hlen rfl,
      completes_stageEnd hu hf hx hturn hskip hfn hsk hrun hdk hstw hslot hfit h4 hpos hlen rfl⟩
  · exact completes_windowPosted hu hf hx hst hturn hskip hfn hdk hsk h4 hleft
  · exact completes_packetPosted hu hf hx hturn hskip hfn hdk hst hsk hi hsent
  · exact completes_eventRecord hu hf hx hturn hskip hfn hdk hrun hleft rfl hsk hord hk hspnd
  · exact completes_traceRecord hu hf hx hturn hskip hfn hdk hrun hleft hsk htrace

end Sys2Proof.Machine
